-- ==== Sys2Proof/Word.lean ====
section
/-! DEFINITION. The word types, bit fields of natural numbers, little-endian bytes, and the sparse maps that registers,
memories and per-core tables are kept in. -/

namespace Sys2Proof

/-- One byte. -/
abbrev Byte := BitVec 8
/-- One 32-bit register word. -/
abbrev Word := BitVec 32

/-- A sparse map from natural numbers: (key, value) pairs, keys strictly rising, no value equal to the default of its key. -/
abbrev KV (ν : Type) := List (Nat × ν)

/-- The value at a key; `d` gives what an unlisted key holds. -/
def kvGet {ν : Type} (d : Nat → ν) : KV ν → Nat → ν
  | [], k => d k
  | (k', v) :: r, k => if k = k' then v else kvGet d r k

/-- Put a new key in its place. -/
def kvInsert {ν : Type} (k : Nat) (v : ν) : KV ν → KV ν
  | [] => [(k, v)]
  | (k', v') :: r => if k < k' then (k, v) :: (k', v') :: r else (k', v') :: kvInsert k v r

/-- Drop a key. -/
def kvErase {ν : Type} (k : Nat) : KV ν → KV ν
  | [] => []
  | (k', v') :: r => if k = k' then kvErase k r else (k', v') :: kvErase k r

/-- Set a key; a key set to its default is not listed. -/
def kvSet {ν : Type} [DecidableEq ν] (d : Nat → ν) (m : KV ν) (k : Nat) (v : ν) : KV ν :=
  if v = d k then kvErase k m else kvInsert k v (kvErase k m)

/-- The canonical form of a sparse map. -/
def kvWf {ν : Type} [DecidableEq ν] (d : Nat → ν) : KV ν → Bool
  | [] => true
  | (k, v) :: r => decide (v ≠ d k) && r.all (fun p => decide (k < p.1)) && kvWf d r

/-- Rewrite every listed value. -/
def kvMap {ν : Type} [DecidableEq ν] (d : Nat → ν) (f : Nat → ν → ν) : KV ν → KV ν
  | [] => []
  | (k, v) :: r => kvSet d (kvMap d f r) k (f k v)

/-- The listed keys whose value passes a test. -/
def kvKeys {ν : Type} (p : ν → Bool) : KV ν → List Nat
  | [] => []
  | (k, v) :: r => if p v then k :: kvKeys p r else kvKeys p r

/-- Bits [lo + w − 1 : lo] of a natural number. -/
def natBits (n lo w : Nat) : Nat := n / 2 ^ lo % 2 ^ w

/-- Bit i of a natural number. -/
def natBit (n i : Nat) : Bool := n / 2 ^ i % 2 == 1

/-- Replace bits [lo + w − 1 : lo] of a natural number. -/
def natSetBits (n lo w v : Nat) : Nat :=
  n % 2 ^ lo + (v % 2 ^ w) * 2 ^ lo + n / 2 ^ (lo + w) * 2 ^ (lo + w)

/-- The number a list of little-endian bytes spells (R6). -/
def leNat : List Byte → Nat
  | [] => 0
  | b :: r => b.toNat + 256 * leNat r

/-- The `n` little-endian bytes of a number (R6). -/
def leBytes : Nat → Nat → List Byte
  | 0, _ => []
  | n + 1, v => BitVec.ofNat 8 v :: leBytes n (v / 256)

/-- The signed value of a w-bit pattern. -/
def toSigned (w n : Nat) : Int :=
  if n % 2 ^ w < 2 ^ (w - 1) then (n % 2 ^ w : Nat) else ((n % 2 ^ w : Nat) : Int) - (2 : Int) ^ w

/-- The w-bit pattern of an integer, wrapped. -/
def ofSigned (w : Nat) (z : Int) : Nat := (z % (2 : Int) ^ w).toNat

/-- Set bits of a mask among positions 0 … n − 1. -/
def maskBits (n m : Nat) : List Nat := (List.range n).filter (fun i => natBit m i)

/-- The mask with the listed bits set. -/
def maskOf : List Nat → Nat
  | [] => 0
  | i :: r => Nat.lor (2 ^ i) (maskOf r)

/-- The quotient rounded up. -/
def ceilDiv (a b : Nat) : Nat := (a + b - 1) / b

/-- Replace the element at an index of a list (out of range: unchanged). -/
def listSet {α : Type} : List α → Nat → α → List α
  | [], _, _ => []
  | _ :: r, 0, v => v :: r
  | x :: r, n + 1, v => x :: listSet r n v

end Sys2Proof
end

