-- ==== Sys2Proof/Syntax.lean ====
section
/-! DEFINITION. The commands: one constructor per row of spec/opcode_table.json, with the operands the row takes. A core is
numbered 64 × die + index for a T-core and 16 × die + index for a V-core; a link direction 2 × link, plus 1 for direction B. -/

namespace Sys2Proof

/-- A physical lane of a link: its direction (0 A, 1 B), its bundle, its number (R846). -/
abbrev LaneId := Nat × Nat × Nat

/-- The commands. -/
inductive Instr where
  /-- REGISTER_WRITE (R9). A host write to a register field that has no behaviour of its own sets, clears or discards the field according to its access code. -/
  | registerWrite (fn addr : Nat) (value : Word)
  /-- FAB_BLOCK_SEND (R31). A link sender transmits a new fabric block once its replay buffer has room, and keeps the block until an ACK covers it. -/
  | fabBlockSend (die vc : Nat) (poison : Bool) (dst src sect tag : Nat) (payload : List Byte)
  /-- FAB_BLOCK_RECEIVE (R32). A link receiver takes a fabric block whole and accepts it, or discards it for CRC, SEQ or duplication with a NAK or a fresh ACK. -/
  | fabBlockReceive (dir : Nat) (noise : List Byte)
  /-- FAB_ACK_TIMEOUT (R36). The acknowledgement timeout of a link expires with no ACK advance, and the sender replays. -/
  | fabAckTimeout (dir : Nat)
  /-- FAB_RETRAIN_DONE (R39). Link retraining succeeds, lanes are spared, and the sender replays from the oldest unacknowledged block. -/
  | fabRetrainDone (link : Nat) (bad : List LaneId)
  /-- FAB_RETRAIN_TIMEOUT (R40). Retraining has not succeeded within 10 µs, and the link is declared down. -/
  | fabRetrainTimeout (link : Nat)
  /-- TICK_IN_RISING_EDGE (R50). A TICK_IN rising edge is recognised after 100 high cycles, or is filtered as a glitch or as too early. -/
  | tickInRisingEdge (high : Nat)
  /-- TICK_IN_FALLING_EDGE (R53). The falling edge of a recognised pulse classifies it, and a sync tick latches TCK_SYNC_LOAD. -/
  | tickInFallingEdge (width : Nat)
  /-- INTERNAL_TICK (R48). The internal generator completes P reference periods and issues a tick. -/
  | internalTick
  /-- TICK (R55). A tick is recognised at cycle 0, TCK_COUNT is updated, and frame length and mismatch are measured. -/
  | tick
  /-- TICK_LOSS (R56). No external edge is recognised by P + H, so the loss is counted and event 0x0204 is written. -/
  | tickLoss
  /-- HOLDOVER_TICK (R57). During holdover, the internal generator issues a tick every P. -/
  | holdoverTick
  /-- SYNC_REQ (R64). A write of TCK_CTL.SYNC_REQ makes the next driven TICK_OUT pulse a 1,000 ns sync pulse. -/
  | syncReq
  /-- END_OF_FRAME (R68). At cycle 32 of a tick, running programs that have not retired are overrun and every snapshot counter is latched. -/
  | endOfFrame
  /-- BARRIER_WATCHDOG (R175). A barrier's tick count reaches BARRIER_WD, fault 0x0407 is raised and the program is terminated. -/
  | barrierWatchdog (core blk bar : Nat)
  /-- SNAPSHOT_RECORD_WRITE (R94). The latched values are written as one sealed record to the snapshot ring slot, or the record is abandoned with 0x0206. -/
  | snapshotRecordWrite
  /-- POWER_CAP_UPDATE (R775). At cycle 96 of a tick, the new cap takes effect and the bubble fraction b is set from the latest estimate. -/
  | powerCapUpdate
  /-- FREQ_CHANGE (R780). In cycles 128 to 383, pending boost-level requests are applied, or deferred under droop or an unconfirmed set-point. -/
  | freqChange
  /-- PARTIAL_IMAGE_APPLY (R139). In cycles 128 to 383 of a tick, a verified partial image replaces its subtree and event 0x0300 is written. -/
  | partialImageApply
  /-- ADMISSION (R77). At cycle 384, the primary dispatch complex admits frame programs by priority within the usable frame. -/
  | admission
  /-- START_GATE_REGISTER (R907). The start-gate wait of a gated program is registered at the home of START_TMB. -/
  | startGateRegister (unit : Nat)
  /-- START_GATE_OPEN (R82). The firing notification for a start gate reaches the dispatch complex, the gate opens and the cursor advances. -/
  | startGateOpen (unit : Nat)
  /-- PROGRAM_RETIRE (R69). The last work item of a frame program completes, and the program retires with its DONE_TMB arrival. -/
  | programRetire (unit : Nat)
  /-- TCK_U_HALTED_CLEAR (R87). A write of 1 to TCK_U_STAT.HALTED resumes admission for the unit at the next tick. -/
  | tckUHaltedClear (unit : Nat)
  /-- WARD_LOAD_GO (R128). A write of WRD_LOAD_CTL.GO starts fetching a ward image, or refuses it for size or state. -/
  | wardLoadGo
  /-- WARD_FETCH_ERROR (R908). A host read of the image fails or times out, and the image is refused with 0x030D. -/
  | wardFetchError (got : List Byte)
  /-- VERIFICATION_COMPLETE (R128). The checks of a fetched image end, and a full image is applied, a partial image awaits its tick, or the image is refused. -/
  | verificationComplete (image : List Byte)
  /-- WARD_QUIESCE (R133). A write of WRD_QUIESCE with EN = 1 stops admission for the named subtree. -/
  | wardQuiesce (slot : Nat)
  /-- WARD_QUIESCE_CANCEL (R141). A write of WRD_QUIESCE.EN = 0 ends the quiesce and refuses a pending partial image. -/
  | wardQuiesceCancel (slot : Nat)
  /-- BLOCK_DESCRIPTOR_FETCH (R148). The dispatch complex checks ENTRY alignment, reads the block descriptor as an instruction fetch and validates it. -/
  | blockDescriptorFetch (unit : Nat)
  /-- BLOCK_LAUNCH (R149). A core launches a waiting block once its group slots, registers, local memory, engines and barriers are free. -/
  | blockLaunch (unit item : Nat)
  /-- BLOCK_COMPLETE (R152). A block completes once its threads have exited and all its accesses, tumbler operations and descriptors are done. -/
  | blockComplete (core blk : Nat)
  /-- LOAD_DATA_RETURN (R161). The data of a load returns to the core, and its destinations become available. -/
  | loadDataReturn (acc : Nat) (data : List Byte) (err : Nat)
  /-- STORE_ACK (R152). The home acknowledges a store or atomic issued by a core. -/
  | storeAck (acc : Nat)
  /-- HOME_ACCESS (R497). An access reaches its line's home slice or scratchpad and is served, filled, allocated or sent uncached. -/
  | homeAccess (acc lane err : Nat)
  /-- T_PREEMPT (R192). A T-core receives a preemption request and stops issue of the program's groups within 4 cycles. -/
  | tPreempt (core : Nat)
  /-- T_DRAIN_DONE (R193). All outstanding accesses and tumbler operations of the preempted program on the core have ended. -/
  | tDrainDone (core : Nat)
  /-- T_SAVE_DONE (R194). The program's state has been written to save slot p, or the save fails with 0x040C. -/
  | tSaveDone (core : Nat)
  /-- T_RESTORE_DONE (R198). A carried or preempted program has been restored on its core, or the restore fails with 0x040C. -/
  | tRestoreDone (core : Nat) (ext : List Byte) (poison : Bool)
  /-- MXE_DESC_ACCEPT (R276). The matrix engine copies and checks an accepted descriptor, takes its locks and opens its group. -/
  | mxeDescAccept (core eng : Nat)
  /-- MXE_CHUNK_COMMIT (R285). A chunk of products is committed to the cells of an accumulation group. -/
  | mxeChunkCommit (core eng : Nat)
  /-- MXE_DESC_RETIRE (R282). A matrix descriptor retires, its locks end and its tumbler arrival is sent. -/
  | mxeDescRetire (core eng : Nat)
  /-- VXE_DESC_ACCEPT (R354). The vector engine copies and checks a descriptor and takes its locks. -/
  | vxeDescAccept (core eng : Nat)
  /-- VXE_DESC_START (R349). A vector descriptor starts its first slot once its ordering waits have ended. -/
  | vxeDescStart (core eng : Nat)
  /-- VXE_DESC_COMPLETE (R348). A vector descriptor completes, its locks end, the arrival is sent and REL frees the group. -/
  | vxeDescComplete (core eng : Nat)
  /-- NOP (R372). The T-core NOP instruction does nothing. -/
  | nop (core slot : Nat) (w0 w1 : BitVec 64)
  /-- IADD (R372). Integer add. -/
  | iadd (core slot : Nat) (w0 w1 : BitVec 64)
  /-- ISUB (R372). Integer subtract. -/
  | isub (core slot : Nat) (w0 w1 : BitVec 64)
  /-- IMUL (R372). Integer multiply, low half. -/
  | imul (core slot : Nat) (w0 w1 : BitVec 64)
  /-- IMULH (R372). Integer multiply, high half. -/
  | imulh (core slot : Nat) (w0 w1 : BitVec 64)
  /-- IMAD (R372). Integer multiply-add. -/
  | imad (core slot : Nat) (w0 w1 : BitVec 64)
  /-- IMIN (R372). Integer minimum. -/
  | imin (core slot : Nat) (w0 w1 : BitVec 64)
  /-- IMAX (R372). Integer maximum. -/
  | imax (core slot : Nat) (w0 w1 : BitVec 64)
  /-- IABS (R372). Integer absolute value. -/
  | iabs (core slot : Nat) (w0 w1 : BitVec 64)
  /-- AND (R372). Bitwise AND. -/
  | and (core slot : Nat) (w0 w1 : BitVec 64)
  /-- OR (R372). Bitwise OR. -/
  | or (core slot : Nat) (w0 w1 : BitVec 64)
  /-- XOR (R372). Bitwise XOR. -/
  | xor (core slot : Nat) (w0 w1 : BitVec 64)
  /-- NOT (R372). Bitwise NOT. -/
  | not (core slot : Nat) (w0 w1 : BitVec 64)
  /-- SHL (R372). Shift left. -/
  | shl (core slot : Nat) (w0 w1 : BitVec 64)
  /-- SHR (R372). Logical shift right. -/
  | shr (core slot : Nat) (w0 w1 : BitVec 64)
  /-- SAR (R372). Arithmetic shift right. -/
  | sar (core slot : Nat) (w0 w1 : BitVec 64)
  /-- POPC (R372). Population count. -/
  | popc (core slot : Nat) (w0 w1 : BitVec 64)
  /-- CLZ (R372). Count leading zeros. -/
  | clz (core slot : Nat) (w0 w1 : BitVec 64)
  /-- MOV (R372). Register or IMM16 move. -/
  | mov (core slot : Nat) (w0 w1 : BitVec 64)
  /-- MOVI (R372). 32-bit or 64-bit immediate move. -/
  | movi (core slot : Nat) (w0 w1 : BitVec 64)
  /-- SEL (R372). Select A or B by a predicate. -/
  | sel (core slot : Nat) (w0 w1 : BitVec 64)
  /-- ISETP (R372). Integer compare into a predicate. -/
  | isetp (core slot : Nat) (w0 w1 : BitVec 64)
  /-- PLOP (R372). Predicate logic operation. -/
  | plop (core slot : Nat) (w0 w1 : BitVec 64)
  /-- SHFL (R373). Lane exchange. -/
  | shfl (core slot : Nat) (w0 w1 : BitVec 64)
  /-- VOTE (R374). Group vote ANY, ALL or BALLOT. -/
  | vote (core slot : Nat) (w0 w1 : BitVec 64)
  /-- S2R (R375). Read a special register. -/
  | s2r (core slot : Nat) (w0 w1 : BitVec 64)
  /-- FLG_RD (R372). Read the lane flag state. -/
  | flgRd (core slot : Nat) (w0 w1 : BitVec 64)
  /-- FLG_CLR (R372). Clear lane flags selected by MASK. -/
  | flgClr (core slot : Nat) (w0 w1 : BitVec 64)
  /-- FADD (R378). FP32/FP16/BF16 add. -/
  | fadd (core slot : Nat) (w0 w1 : BitVec 64)
  /-- FSUB (R378). FP32/FP16/BF16 subtract. -/
  | fsub (core slot : Nat) (w0 w1 : BitVec 64)
  /-- FMUL (R378). FP32/FP16/BF16 multiply. -/
  | fmul (core slot : Nat) (w0 w1 : BitVec 64)
  /-- FFMA (R378). FP32/FP16/BF16 fused multiply-add. -/
  | ffma (core slot : Nat) (w0 w1 : BitVec 64)
  /-- FMIN (R378). FP32/FP16/BF16 minimumNumber. -/
  | fmin (core slot : Nat) (w0 w1 : BitVec 64)
  /-- FMAX (R378). FP32/FP16/BF16 maximumNumber. -/
  | fmax (core slot : Nat) (w0 w1 : BitVec 64)
  /-- FSETP (R380). FP32/FP16/BF16 compare into a predicate. -/
  | fsetp (core slot : Nat) (w0 w1 : BitVec 64)
  /-- FRND (R378). FP32/FP16/BF16 round to integral value. -/
  | frnd (core slot : Nat) (w0 w1 : BitVec 64)
  /-- FDIV (R378). FP32/FP16/BF16 divide. -/
  | fdiv (core slot : Nat) (w0 w1 : BitVec 64)
  /-- FSQRT (R378). FP32/FP16/BF16 square root. -/
  | fsqrt (core slot : Nat) (w0 w1 : BitVec 64)
  /-- DADD (R378). FP64 add. -/
  | dadd (core slot : Nat) (w0 w1 : BitVec 64)
  /-- DSUB (R378). FP64 subtract. -/
  | dsub (core slot : Nat) (w0 w1 : BitVec 64)
  /-- DMUL (R378). FP64 multiply. -/
  | dmul (core slot : Nat) (w0 w1 : BitVec 64)
  /-- DFMA (R378). FP64 fused multiply-add. -/
  | dfma (core slot : Nat) (w0 w1 : BitVec 64)
  /-- DMIN (R378). FP64 minimumNumber. -/
  | dmin (core slot : Nat) (w0 w1 : BitVec 64)
  /-- DMAX (R378). FP64 maximumNumber. -/
  | dmax (core slot : Nat) (w0 w1 : BitVec 64)
  /-- DSETP (R380). FP64 compare into a predicate. -/
  | dsetp (core slot : Nat) (w0 w1 : BitVec 64)
  /-- DRND (R378). FP64 round to integral value. -/
  | drnd (core slot : Nat) (w0 w1 : BitVec 64)
  /-- DDIV (R378). FP64 divide. -/
  | ddiv (core slot : Nat) (w0 w1 : BitVec 64)
  /-- DSQRT (R378). FP64 square root. -/
  | dsqrt (core slot : Nat) (w0 w1 : BitVec 64)
  /-- CVT (R382). Format conversion between register types. -/
  | cvt (core slot : Nat) (w0 w1 : BitVec 64)
  /-- EXIT (R165). Guarded lanes exit and are removed from the masks and the divergence stack. -/
  | exit (core slot : Nat) (w0 w1 : BitVec 64)
  /-- BRA (R163). A branch, uniform or diverging with stack pushes. -/
  | bra (core slot : Nat) (w0 w1 : BitVec 64)
  /-- JOIN (R163). Reconvergence that pops a matching divergence-stack entry. -/
  | join (core slot : Nat) (w0 w1 : BitVec 64)
  /-- CALL (R383). Saves the return address and jumps. -/
  | call (core slot : Nat) (w0 w1 : BitVec 64)
  /-- JMPR (R384). Indirect jump through a register pair. -/
  | jmpr (core slot : Nat) (w0 w1 : BitVec 64)
  /-- TRAP (R383). Raises fault 0x040A for the guarded lanes. -/
  | trap (core slot : Nat) (w0 w1 : BitVec 64)
  /-- LDL (R386). Local memory load. -/
  | ldl (core slot : Nat) (w0 w1 : BitVec 64)
  /-- STL (R386). Local memory store. -/
  | stl (core slot : Nat) (w0 w1 : BitVec 64)
  /-- ATOML (R390). Local memory atomic. -/
  | atoml (core slot : Nat) (w0 w1 : BitVec 64)
  /-- LD (R386). Global load with a scope. -/
  | ld (core slot : Nat) (w0 w1 : BitVec 64)
  /-- ST (R386). Global store. -/
  | st (core slot : Nat) (w0 w1 : BitVec 64)
  /-- ATOM (R390). Global atomic performed at the home. -/
  | atom (core slot : Nat) (w0 w1 : BitVec 64)
  /-- LDC (R396). Converting load of narrow or scaled elements. -/
  | ldc (core slot : Nat) (w0 w1 : BitVec 64)
  /-- STC (R398). Converting store, element-wise or as quantised blocks. -/
  | stc (core slot : Nat) (w0 w1 : BitVec 64)
  /-- MXA (R273). Hands a descriptor to a matrix engine. -/
  | mxa (core slot : Nat) (w0 w1 : BitVec 64)
  /-- VXA (R322). Hands a descriptor to a vector engine. -/
  | vxa (core slot : Nat) (w0 w1 : BitVec 64)
  /-- WAITQ (R404). Waits until an engine queue drains to N descriptors. -/
  | waitq (core slot : Nat) (w0 w1 : BitVec 64)
  /-- ACC_REL (R403). Frees an accumulation group, ordered under R266. -/
  | accRel (core slot : Nat) (w0 w1 : BitVec 64)
  /-- ACC_RDS (R405). Reads a group's state word after its ordering waits. -/
  | accRds (core slot : Nat) (w0 w1 : BitVec 64)
  /-- ACC_FCLR (R403). Clears a group's strict-mode flags. -/
  | accFclr (core slot : Nat) (w0 w1 : BitVec 64)
  /-- BAR_SYNC (R407). Adds barrier arrivals and waits for the barrier to complete. -/
  | barSync (core slot : Nat) (w0 w1 : BitVec 64)
  /-- BAR_ARV (R407). Adds barrier arrivals and continues. -/
  | barArv (core slot : Nat) (w0 w1 : BitVec 64)
  /-- FENCE (R409). T-core fence at group, block, device or system scope. -/
  | fence (core slot : Nat) (w0 w1 : BitVec 64)
  /-- TMB_ARV (R411). T-core tumbler arrival with release semantics. -/
  | tmbArv (core slot : Nat) (w0 w1 : BitVec 64)
  /-- TMB_POLL (R411). T-core read of a tumbler's state word. -/
  | tmbPoll (core slot : Nat) (w0 w1 : BitVec 64)
  /-- TMB_WAIT (R412). T-core group wait on a tumbler with an optional timeout. -/
  | tmbWait (core slot : Nat) (w0 w1 : BitVec 64)
  /-- TMB_TAKE (R411). T-core take of one token. -/
  | tmbTake (core slot : Nat) (w0 w1 : BitVec 64)
  /-- TMB_PUT (R411). T-core put of one token. -/
  | tmbPut (core slot : Nat) (w0 w1 : BitVec 64)
  /-- TMB_FIRE_NOTIFY (R647). A firing notification reaches a waiting core, and the wait ends as fired. -/
  | tmbFireNotify (n : Nat)
  /-- TMB_WAIT_TIMEOUT (R413). The timeout of a core's TMB.WAIT or TWAIT ends, and the wait ends as timed out. -/
  | tmbWaitTimeout (tcore : Bool) (core slot : Nat)
  /-- TMB_REFUSAL_RETURN (R415). A home's refusal of a tumbler operation reaches the core, which raises its fault. -/
  | tmbRefusalReturn (n : Nat)
  /-- TMB_HOME_ARRIVE (R643). An ARRIVE is applied at a tumbler's home by kind, which may fire it. -/
  | tmbHomeArrive (n : Nat)
  /-- TMB_HOME_POLL (R643). The home returns a tumbler's state word. -/
  | tmbHomePoll (n : Nat)
  /-- TMB_HOME_WAIT (R647). A wait reaches the home and ends at once, is registered, or is held for a registration. -/
  | tmbHomeWait (n : Nat)
  /-- TMB_HOME_TAKE (R646). The home removes the oldest token of a queue, or fails when it is empty. -/
  | tmbHomeTake (n : Nat)
  /-- TMB_HOME_PUT (R646). The home appends a token, firing the queue, or fails when it is full. -/
  | tmbHomePut (n : Nat)
  /-- TMB_CFG_WRITE (R656). A write of TMB_CFG configures the tumbler's kind and resets it, or is refused with event 0x0D01. -/
  | tmbCfgWrite (tmb : Nat) (value : Word)
  /-- TMB_OP_ARRIVE (R649). A host write of TMB_OP with OP 1 makes an arrival of WEIGHT. -/
  | tmbOpArrive (tmb weight : Nat)
  /-- TMB_OP_RESET (R650). A host write of TMB_OP with OP 2 resets the tumbler to its kind's initial state. -/
  | tmbOpReset (tmb : Nat)
  /-- VCORE_ITEM_START (R429). A V-core work item starts in mode PRIV at ENTRY + 32 after its descriptor is checked. -/
  | vcoreItemStart (unit item : Nat)
  /-- VCORE_LOAD_STORE (R422). A scalar load or store of a V-core is performed through its caches, with alignment and class rules. -/
  | vcoreLoadStore (core : Nat) (w : BitVec 32) (err : Nat)
  /-- LR (R424). Load-reserved that reserves a 128-byte line. -/
  | lr (core : Nat) (w : BitVec 32) (err : Nat)
  /-- SC (R424). Store-conditional against the reservation. -/
  | sc (core : Nat) (w : BitVec 32) (err : Nat)
  /-- AMO (R423). V-core atomic memory operation, supported per memory class. -/
  | amo (core : Nat) (w : BitVec 32) (err : Nat)
  /-- VCORE_FENCE (R425). A RISC-V FENCE that orders at device or system scope. -/
  | vcoreFence (core : Nat) (w : BitVec 32)
  /-- FENCE_I (R471). Invalidates all of L1I in 64 cycles. -/
  | fenceI (core : Nat) (w : BitVec 32)
  /-- SFENCE_VMA (R436). Invalidates range-cache entries for an ASID and an address. -/
  | sfenceVma (core : Nat) (w : BitVec 32)
  /-- VCORE_TRAP (R432). A trap into machine mode with mtvec 0 raises 0x0902 and terminates the program. -/
  | vcoreTrap (core : Nat)
  /-- VCORE_INTERRUPT (R460). An interrupt is taken at an instruction boundary. -/
  | vcoreInterrupt (core : Nat)
  /-- VADD (R444). Xslv vector add. -/
  | vadd (core : Nat) (w : BitVec 32)
  /-- VSUB (R444). Xslv vector subtract. -/
  | vsub (core : Nat) (w : BitVec 32)
  /-- VMUL (R444). Xslv vector multiply. -/
  | vmul (core : Nat) (w : BitVec 32)
  /-- VFMA (R444). Xslv fused multiply-add. -/
  | vfma (core : Nat) (w : BitVec 32)
  /-- VFNMS (R444). Xslv fused negative multiply-subtract. -/
  | vfnms (core : Nat) (w : BitVec 32)
  /-- VDIV (R444). Xslv divide. -/
  | vdiv (core : Nat) (w : BitVec 32)
  /-- VSQRT (R444). Xslv square root. -/
  | vsqrt (core : Nat) (w : BitVec 32)
  /-- VMIN (R444). Xslv minimum. -/
  | vmin (core : Nat) (w : BitVec 32)
  /-- VMAX (R444). Xslv maximum. -/
  | vmax (core : Nat) (w : BitVec 32)
  /-- VAND (R444). Xslv bitwise AND. -/
  | vand (core : Nat) (w : BitVec 32)
  /-- VOR (R444). Xslv bitwise OR. -/
  | vor (core : Nat) (w : BitVec 32)
  /-- VXOR (R444). Xslv bitwise XOR. -/
  | vxor (core : Nat) (w : BitVec 32)
  /-- VSLL (R444). Xslv shift left logical. -/
  | vsll (core : Nat) (w : BitVec 32)
  /-- VSRL (R444). Xslv shift right logical. -/
  | vsrl (core : Nat) (w : BitVec 32)
  /-- VSRA (R444). Xslv shift right arithmetic. -/
  | vsra (core : Nat) (w : BitVec 32)
  /-- VMERGE (R444). Xslv merge by mask. -/
  | vmerge (core : Nat) (w : BitVec 32)
  /-- VCMPEQ (R444). Xslv compare equal into a mask. -/
  | vcmpeq (core : Nat) (w : BitVec 32)
  /-- VCMPLT (R444). Xslv compare less-than into a mask. -/
  | vcmplt (core : Nat) (w : BitVec 32)
  /-- VCMPLE (R444). Xslv compare less-or-equal into a mask. -/
  | vcmple (core : Nat) (w : BitVec 32)
  /-- VREDOSUM (R444). Xslv ordered sum reduction. -/
  | vredosum (core : Nat) (w : BitVec 32)
  /-- VREDTSUM (R445). Xslv tree sum reduction. -/
  | vredtsum (core : Nat) (w : BitVec 32)
  /-- VREDMAX (R444). Xslv maximum reduction. -/
  | vredmax (core : Nat) (w : BitVec 32)
  /-- VREDMIN (R444). Xslv minimum reduction. -/
  | vredmin (core : Nat) (w : BitVec 32)
  /-- VSLIDE (R444). Xslv slide down by k. -/
  | vslide (core : Nat) (w : BitVec 32)
  /-- VCVT (R446). Xslv element type conversion. -/
  | vcvt (core : Nat) (w : BitVec 32)
  /-- VMV (R444). Xslv move. -/
  | vmv (core : Nat) (w : BitVec 32)
  /-- VPOPC (R444). Xslv mask population count. -/
  | vpopc (core : Nat) (w : BitVec 32)
  /-- VFIRST (R444). Xslv first set mask bit. -/
  | vfirst (core : Nat) (w : BitVec 32)
  /-- VLD (R448). Xslv unit-stride load. -/
  | vld (core : Nat) (w : BitVec 32)
  /-- VST (R448). Xslv unit-stride store. -/
  | vst (core : Nat) (w : BitVec 32)
  /-- VLDX (R448). Xslv gather. -/
  | vldx (core : Nat) (w : BitVec 32)
  /-- VSTX (R448). Xslv scatter. -/
  | vstx (core : Nat) (w : BitVec 32)
  /-- VLDC (R449). Xslv converting load. -/
  | vldc (core : Nat) (w : BitVec 32)
  /-- VSTC (R450). Xslv converting store. -/
  | vstc (core : Nat) (w : BitVec 32)
  /-- XSLV_TRANSLATION_DONE (R454). The translation phase of an Xslv memory instruction ends, and it traps on the lowest failing element or begins access. -/
  | xslvTranslationDone (core : Nat)
  /-- XSLV_ACCESS_DONE (R457). The access phase ends, and a load writes vd or raises 0x0904 on poison. -/
  | xslvAccessDone (core err : Nat)
  /-- XMOP (R463). Xslm outer-product accumulate. -/
  | xmop (core : Nat) (w : BitVec 32)
  /-- XMZERO (R463). Xslm zeroes an accumulator. -/
  | xmzero (core : Nat) (w : BitVec 32)
  /-- XMRD (R463). Xslm reads an accumulator into a vector. -/
  | xmrd (core : Nat) (w : BitVec 32)
  /-- XMWR (R463). Xslm writes an accumulator from a vector. -/
  | xmwr (core : Nat) (w : BitVec 32)
  /-- TARV (R661). V-core tumbler arrival. -/
  | tarv (core : Nat) (w : BitVec 32)
  /-- TPOLL (R661). V-core tumbler poll. -/
  | tpoll (core : Nat) (w : BitVec 32)
  /-- TWAIT (R663). V-core tumbler wait with a timeout. -/
  | twait (core : Nat) (w : BitVec 32)
  /-- TTAKE (R661). V-core token take. -/
  | ttake (core : Nat) (w : BitVec 32)
  /-- TPUT (R661). V-core token put. -/
  | tput (core : Nat) (w : BitVec 32)
  /-- XSLITEM_DONE (R430). A write of XSLITEM with DONE = 1 completes the work item once its accesses have ended. -/
  | xslitemDone (core : Nat) (w : BitVec 32)
  /-- XSLITEM_ABORT (R431). A write of XSLITEM with ABORT = 1 terminates the program with 0x0903. -/
  | xslitemAbort (core : Nat) (w : BitVec 32)
  /-- V_PREEMPT (R477). A V-core receives a preemption request and stops at an instruction boundary. -/
  | vPreempt (core : Nat)
  /-- V_SAVE_DONE (R479). A V-core's state has been written to its save slot, or the save fails with 0x0906. -/
  | vSaveDone (core : Nat)
  /-- V_RESTORE_DONE (R480). A V-core's saved state has been read back before the item issues. -/
  | vRestoreDone (core : Nat) (ext : List Byte) (poison : Bool)
  /-- REDUCTION_RETIRE (R516). A reduction accepted at a home slice or atomic buffer updates its line and retires. -/
  | reductionRetire (n : Nat)
  /-- ADVICE_CLEAR (R504). Advice command that removes HOT, COLD, STREAM, DEAD and leaf affinity from a range. -/
  | adviceClear (cmd : Nat)
  /-- ADVICE_HOT (R504). Advice command that marks a range's granules as candidates for promotion. -/
  | adviceHot (cmd : Nat)
  /-- ADVICE_COLD (R504). Advice command that keeps a range from promotion and demotes its migrated granules. -/
  | adviceCold (cmd : Nat)
  /-- ADVICE_STREAM (R504). Advice command that makes a range's misses non-allocating. -/
  | adviceStream (cmd : Nat)
  /-- ADVICE_PIN (R506). Advice command that moves a range into scratchpad or pins its lines within quota. -/
  | advicePin (cmd : Nat)
  /-- ADVICE_UNPIN (R508). Advice command that releases pins and copies scratch granules back to HBM. -/
  | adviceUnpin (cmd : Nat)
  /-- ADVICE_LEAF (R504). Advice command that keeps a range's allocations and moves in one leaf. -/
  | adviceLeaf (cmd : Nat)
  /-- ADVICE_DEAD (R510). Advice command that sets dead-block marks on a range's lines. -/
  | adviceDead (cmd : Nat)
  /-- ADVICE_DROP (R512). Advice command that invalidates a range's cached lines without write-back. -/
  | adviceDrop (cmd : Nat)
  /-- ADVICE_CLASS (R620). Advice command that rewrites a range's traffic class through an invalidation. -/
  | adviceClass (cmd : Nat)
  /-- MIGRATION_BLOCK_COPY (R527). A 4 KiB block of a promoted or demoted granule is copied to its new backing. -/
  | migrationBlockCopy (n : Nat)
  /-- REGULATOR_WINDOW (R533). At the start of each 1,024-cycle window, a stack's controller computes partition grants. -/
  | regulatorWindow (stack : Nat)
  /-- SATURATION_WINDOW (R537). At the end of a 16,384-cycle window, each die's saturation is measured and bypass or migration is adjusted. -/
  | saturationWindow
  /-- HBM_LINE_READ (R543). A stack's base die reads, corrects, decrypts and tag-checks a line, handling errors under R544. -/
  | hbmLineRead (stack granule line err : Nat)
  /-- PATROL_SCRUB (R546). The base die reads a line for the patrol scrub in cycles that no regulator grants. -/
  | patrolScrub (stack granule line err : Nat)
  /-- MEM_MAPOUT_GO (R548). A write of MEM_MAPOUT.GO makes a channel a map-out candidate. -/
  | memMapoutGo (stack channel : Nat)
  /-- CHANNEL_MAPOUT_DONE (R548). The granules of a candidate channel have been moved, and the channel is removed with event 0x0A04. -/
  | channelMapoutDone (stack channel : Nat)
  /-- RDS (R564). A read-shared request reaches the home directory. -/
  | rds (core line err : Nat)
  /-- RDX (R564). A read-exclusive request reaches the home directory. -/
  | rdx (core line err : Nat)
  /-- UPG (R565). An upgrade request reaches the home directory. -/
  | upg (core line : Nat)
  /-- WBD (R564). A dirty write-back reaches the directory and is written to home or acknowledged unwritten. -/
  | wbd (core line : Nat)
  /-- EVC (R564). A clean eviction notice reaches the directory. -/
  | evc (core line : Nat)
  /-- SNPS (R563). A shared snoop reaches an L2. -/
  | snps (core line : Nat)
  /-- SNPW (R563). A write-back snoop reaches an L2. -/
  | snpw (core line : Nat)
  /-- SNPI (R563). An invalidating snoop reaches an L2. -/
  | snpi (core line : Nat)
  /-- INV (R563). An invalidation reaches a sharer's L2. -/
  | inv (core line : Nat)
  /-- SNOOP_REPLY (R566). A reply to a snoop or Inv reaches the directory, and the transaction may end with its grant. -/
  | snoopReply (core line : Nat)
  /-- GRANT (R571). A grant with or without data installs a line in an L2 and starts its hold. -/
  | grant (core line : Nat)
  /-- HOLD_END (R571). The 64-cycle hold of a newly won line ends, and snoops that waited are served. -/
  | holdEnd (core line : Nat)
  /-- SNOOP_TIMEOUT (R580). A V-core does not answer within SNP_TO, and it is declared dead. -/
  | snoopTimeout (core : Nat)
  /-- COH_KILL_CORE (R584). A write of COH_KILL naming a V-core declares it dead. -/
  | cohKillCore (value : Word)
  /-- COH_KILL_DIE (R583). A write of COH_KILL with DIE = 1 declares a C-die and everything on it dead. -/
  | cohKillDie (value : Word)
  /-- RECLAIM_WALK_DONE (R590). The reclaim walks of both directories end, and event 0x0B01 is written. -/
  | reclaimWalkDone
  /-- RANGE_WALK_DONE (R609). A walker ends a range walk, refills the caches and answers joined misses, or the translation fails. -/
  | rangeWalkDone (leaf walker : Nat)
  /-- FAULT_RECORD_FLUSH (R613). A held translation fault record reaches 2 µs or an end-of-frame cycle and is written. -/
  | faultRecordFlush (n : Nat)
  /-- XLT_RESUME_GO (R617). A write of XLT_RESUME with GO makes a held copy translate the block again and continue. -/
  | xltResumeGo (token : Nat)
  /-- XLT_RESUME_ABORT (R617). A write of XLT_RESUME with ABORT ends a held copy as failed. -/
  | xltResumeAbort (token : Nat)
  /-- COPY_HOLD_EXPIRE (R618). A hold reaches XLT_CTL.HOLD, the copy is aborted and event 0x0C05 is written. -/
  | copyHoldExpire (token : Nat)
  /-- INVAL_ACK (R622). A range cache acknowledges an invalidation, and the last acknowledgement completes the change. -/
  | invalAck (kind id : Nat)
  /-- XLT_RD_IDX_WRITE (R637). A write of XLT_RD_IDX latches the indexed range of the chosen context into XLT_RD_DATA. -/
  | xltRdIdxWrite (index : Nat)
  /-- DOORBELL_SQTAIL (R680). A doorbell write of SQTAIL makes new commands fetchable, or stops the queue with 0x0E02. -/
  | doorbellSqtail (fn q value : Nat)
  /-- DOORBELL_CQHEAD (R686). A doorbell write of CQHEAD frees completion entries, and waiting completions are posted. -/
  | doorbellCqhead (fn q value : Nat)
  /-- QUEUE_ENABLE (R678). A write of HIF_Q_CFG.EN from 0 to 1 resets the queue's heads, tails, phase and NEXT. -/
  | queueEnable (fn q : Nat) (value : Word)
  /-- QUEUE_DISABLE (R679). A write of HIF_Q_CFG.EN from 1 to 0 stops fetching from the queue. -/
  | queueDisable (fn q : Nat) (value : Word)
  /-- COMMAND_FETCH (R688). A fetched command is checked for sequence, form and leaf, then started, rejected or acknowledged as a duplicate. -/
  | commandFetch (q : Nat) (data : List Byte)
  /-- NOP_COMMAND (R687). The NOP command completes at start. -/
  | nopCommand (cmd : Nat)
  /-- LAUNCH (R695). A launch command enters its leaf's program queue. -/
  | launch (cmd : Nat)
  /-- COPY (R699). A copy command is assigned to a copy engine, after its wait on WAIT_TMB when enabled. -/
  | copy (cmd : Nat)
  /-- COPY_BLOCK (R699). A copy engine moves one 4 KiB block of a copy, with conversion or reduction, and ends the copy after the last. -/
  | copyBlock (cmd : Nat) (data : List Byte) (scales : List Byte) (err : Nat)
  /-- COPY_WAIT_TIMEOUT (R702). The TMO of a copy's WAIT_TMB wait expires, and the copy fails with 0x0E07. -/
  | copyWaitTimeout (cmd : Nat)
  /-- FLUSH_READ_COMPLETE (R703). The zero-length flush read to host memory completes, and the action ordered after the writes proceeds. -/
  | flushReadComplete (cmd : Nat)
  /-- INLINE (R694). An inline command writes up to 256 bytes of payload to device memory. -/
  | inline (cmd : Nat)
  /-- TUMBLER_ARRIVE (R696). Tumbler command that makes an arrival. -/
  | tumblerArrive (cmd : Nat)
  /-- TUMBLER_POLL (R696). Tumbler command that returns the state word. -/
  | tumblerPoll (cmd : Nat)
  /-- TUMBLER_WAIT (R696). Tumbler command that waits, holding its queue, with the TMO timeout. -/
  | tumblerWait (cmd : Nat)
  /-- TUMBLER_WAIT_TMO (R696). The TMO of a tumbler WAIT command expires, and it completes with RESULT 1. -/
  | tumblerWaitTmo (cmd : Nat)
  /-- TUMBLER_TAKE (R696). Tumbler command that takes a token. -/
  | tumblerTake (cmd : Nat)
  /-- TUMBLER_PUT (R696). Tumbler command that puts a token. -/
  | tumblerPut (cmd : Nat)
  /-- TUMBLER_RESET (R650). Tumbler command that resets the tumbler. -/
  | tumblerReset (cmd : Nat)
  /-- FENCE_COMMAND (R704). The fence command waits for earlier commands of its queue, flushes, arrives and completes. -/
  | fenceCommand (cmd : Nat)
  /-- MAP (R604). The map command checks and reserves a range and allocates its backing. -/
  | map (cmd : Nat)
  /-- UNMAP (R620). The unmap command removes a range through an invalidation and frees its backing. -/
  | unmap (cmd : Nat)
  /-- PREFETCH (R629). The prefetch command moves a staged range between host and device, or rewrites NOHOST. -/
  | prefetch (cmd : Nat)
  /-- WIN_OPEN (R698). The window open command writes a window entry. -/
  | winOpen (cmd : Nat)
  /-- WIN_CLOSE (R635). The window close command closes a window once its translated accesses are performed. -/
  | winClose (cmd : Nat)
  /-- WARD_LOAD (R697). The WARD command with OP 0 performs an image load. -/
  | wardLoad (cmd : Nat)
  /-- WARD_QUIESCE_COMMAND (R697). The WARD command with OP 1 writes WRD_QUIESCE. -/
  | wardQuiesceCommand (cmd : Nat)
  /-- VF_FLR (R712). A function level reset of a virtual function disables its queues, stops its copies and empties its rings. -/
  | vfFlr (fn : Nat)
  /-- PORT_TRAINED (R722). A Pintle port finishes training and sends one HELLO block. -/
  | portTrained (port lanes : Nat)
  /-- HELLO (R722). A received HELLO block records the neighbour's physical address. -/
  | hello (port : Nat) (data : List Byte)
  /-- PINTLE_BLOCK_SEND (R742). A path block is encrypted with the next counter and sent through the chosen port. -/
  | pintleBlockSend (req : Bool) (n : Nat)
  /-- PINTLE_BLOCK_RECEIVE (R734). A Pintle block is taken whole through the hop checks, and path checks decide its acceptance. -/
  | pintleBlockReceive (port : Nat) (data : List Byte)
  /-- PINTLE_ACK_TIMEOUT (R734). A port's acknowledgement timeout expires, and it replays, or retrains at the replay limit. -/
  | pintleAckTimeout (port : Nat)
  /-- PINTLE_RETRAIN_DONE (R737). A port retrain ends, on eight lanes or degraded to four. -/
  | pintleRetrainDone (port lanes : Nat)
  /-- PORT_DOWN_TIMEOUT (R736). A port's oldest block or retrain passes the 20 µs resend bound, and the port goes down. -/
  | portDownTimeout (port : Nat)
  /-- PORT_RETRAIN_RETRY (R736). A down port tries to retrain every 1 ms. -/
  | portRetrainRetry (port : Nat)
  /-- PTL_RETRAIN_REQ (R737). A write of PTL_P_CTL.RETRAIN_REQ starts a retrain of the port. -/
  | ptlRetrainReq (port : Nat) (value : Word)
  /-- ADDRESS_MAP_WRITE (R732). A write of an address-map entry resets the peer state and fails outstanding requests. -/
  | addressMapWrite (entry word : Nat) (value : Word)
  /-- PAIR_KEY_DERIVED (R744). The keyway finishes deriving a pair key, and blocks waiting for that peer proceed. -/
  | pairKeyDerived (leaf peer : Nat)
  /-- READ (R750). A remote READ request is checked under the window and answered with RD_DATA or REFUSE. -/
  | read (n : Nat)
  /-- WRITE (R750). A remote WRITE request is checked, performed and acknowledged. -/
  | write (n : Nat)
  /-- ATOMIC (R750). A remote ATOMIC request is performed at the home and answered with ATOMIC_DATA. -/
  | atomic (n : Nat)
  /-- REDUCE (R750). A remote REDUCE request is performed as a reduction and acknowledged. -/
  | reduce (n : Nat)
  /-- ARRIVE (R664). A remote ARRIVE is applied to a tumbler with REMOTE = 1, or refused. -/
  | arrive (n : Nat)
  /-- RD_DATA (R756). Read data returns to the requester. -/
  | rdData (n : Nat)
  /-- ATOMIC_DATA (R756). The old value of a remote atomic returns to the requester. -/
  | atomicData (n : Nat)
  /-- ACK (R750). A remote write, reduce or arrive is acknowledged to the requester. -/
  | ack (n : Nat)
  /-- REFUSE (R756). A refusal returns to the requester, which reports it under R634 or R758. -/
  | refuse (n : Nat)
  /-- RESPONSE_TIMEOUT (R753). A request has no response within RSP_TO, and it fails with 0x0F01. -/
  | responseTimeout (n : Nat)
  /-- POWER_WINDOW (R775). A 2 µs estimate window ends, and the power fraction, thermal fraction and brake floor are updated. -/
  | powerWindow (counts : List (Nat × Nat × Nat))
  /-- AVS_CONFIRM (R780). A core-rail regulator confirms a set-point over AVSBus. -/
  | avsConfirm (die : Nat)
  /-- VOLT_RAISE_TIMEOUT (R780). A raise is not confirmed within 100 µs, and it is cancelled with event 0x1007. -/
  | voltRaiseTimeout (die : Nat)
  /-- DROOP_DETECT (R781). A droop detector fires, and the die is bubbled at least at FRAC within 2 cycles. -/
  | droopDetect (die : Nat)
  /-- DROOP_RESPONSE_END (R781). HOLD cycles pass with no detector firing, and the droop response ends. -/
  | droopResponseEnd (die : Nat)
  /-- THERMAL_SAMPLE (R785). Every 10 µs the temperature sensors are sampled for limits, alerts and hot stacks. -/
  | thermalSample (readings : List (Nat × Nat × Nat))
  /-- PWR_BRAKE_ASSERT (R791). PWR_BRAKE_N is recognised low, and every core is bubbled at least at the brake floor. -/
  | pwrBrakeAssert
  /-- ARB_COMMIT (R808). A write of KWY_ARB_COMMIT.GO sets anti-rollback fuse bits up to the bundle's SVN. -/
  | arbCommit (value : Word)
  /-- RELEASE (R816). A RELEASE checks a weight envelope and places its key in a slot, or refuses it. -/
  | release (value : Word) (env : List Byte)
  /-- SEALED_LOAD (R819). A LOAD checks its slot and destination and starts moving blob chunks. -/
  | sealedLoad (value : Word)
  /-- SEALED_LOAD_CHUNK (R820). A blob chunk is read, authenticated and written, and the last extends PM[PART]. -/
  | sealedLoadChunk (data : List Byte) (err : Nat)
  /-- DROP (R817). A DROP empties a weight-key slot. -/
  | drop (value : Word)
  /-- KWY_ERASE (R830). A write of KWY_ERASE advances a partition's generation, or is refused with 0x1119. -/
  | kwyErase (value : Word)
  /-- GET_VERSION (R812). SPDM GET_VERSION request. -/
  | getVersion (binding : Nat) (session : Option Nat) (data : List Byte)
  /-- GET_CAPABILITIES (R812). SPDM GET_CAPABILITIES request. -/
  | getCapabilities (binding : Nat) (session : Option Nat) (data : List Byte)
  /-- NEGOTIATE_ALGORITHMS (R812). SPDM NEGOTIATE_ALGORITHMS request. -/
  | negotiateAlgorithms (binding : Nat) (session : Option Nat) (data : List Byte)
  /-- GET_DIGESTS (R812). SPDM GET_DIGESTS request. -/
  | getDigests (binding : Nat) (session : Option Nat) (data : List Byte)
  /-- GET_CERTIFICATE (R812). SPDM GET_CERTIFICATE request for slot 0. -/
  | getCertificate (binding : Nat) (session : Option Nat) (data : List Byte)
  /-- CHALLENGE (R812). SPDM CHALLENGE request. -/
  | challenge (binding : Nat) (session : Option Nat) (data : List Byte)
  /-- GET_MEASUREMENTS (R811). SPDM GET_MEASUREMENTS request that returns the signed measurements. -/
  | getMeasurements (binding : Nat) (session : Option Nat) (data : List Byte)
  /-- KEY_EXCHANGE (R812). SPDM KEY_EXCHANGE request that opens a session. -/
  | keyExchange (binding : Nat) (session : Option Nat) (data : List Byte)
  /-- FINISH (R812). SPDM FINISH request. -/
  | finish (binding : Nat) (session : Option Nat) (data : List Byte)
  /-- HEARTBEAT (R812). SPDM HEARTBEAT request. -/
  | heartbeat (binding : Nat) (session : Option Nat) (data : List Byte)
  /-- KEY_UPDATE (R812). SPDM KEY_UPDATE request. -/
  | keyUpdate (binding : Nat) (session : Option Nat) (data : List Byte)
  /-- END_SESSION (R812). SPDM END_SESSION request. -/
  | endSession (binding : Nat) (session : Option Nat) (data : List Byte)
  /-- COLD_START (R839). PERST_N deasserts after PWROK, and the cold start runs its steps up to waiting for firmware. -/
  | coldStart (times : List Nat) (salt : List Byte) (selfFail : Option (Nat × Nat)) (badLanes : List (Nat × LaneId)) (badChannels : List (Nat × Nat))
  /-- WARM_START (R840). PERST_N is pulsed with PWROK held, or the physical function is reset, and a warm start terminates all work and runs its steps. -/
  | warmStart (times : List Nat) (badLanes : List (Nat × LaneId))
  /-- WARM_GO (R840). A write of MGT_BOOT_CTL.WARM_GO begins a warm start. -/
  | warmGo (value : Word) (times : List Nat) (badLanes : List (Nat × LaneId))
  /-- PWROK_DEASSERT (R885). PWROK deasserts, and the device stops every clock and releases every output within 1 µs. -/
  | pwrokDeassert
  /-- FW_PUSH_GO (R854). A write of MGT_FW_GO starts fetching a firmware bundle into keyway memory. -/
  | fwPushGo (value : Word)
  /-- FW_CHECK_DONE (R856). A bundle's checks end, and firmware starts with event 0x1201, or the code is recorded and step 7 keeps waiting. -/
  | fwCheckDone (bundle : List Byte)
  /-- WARDEN_WATCHDOG (R859). A warden misses its watchdog for 100 ms, and the other warden of its P-die takes its roles. -/
  | wardenWatchdog (warden : Nat)
  /-- SET_ENDPOINT_ID (R860). MCTP control Set Endpoint ID. -/
  | setEndpointId (binding eid : Nat)
  /-- GET_ENDPOINT_ID (R860). MCTP control Get Endpoint ID. -/
  | getEndpointId (binding : Nat)
  /-- GET_ENDPOINT_UUID (R860). MCTP control Get Endpoint UUID. -/
  | getEndpointUuid (binding : Nat)
  /-- GET_MCTP_VERSION_SUPPORT (R860). MCTP control Get MCTP Version Support. -/
  | getMctpVersionSupport (binding : Nat)
  /-- GET_MESSAGE_TYPE_SUPPORT (R860). MCTP control Get Message Type Support. -/
  | getMessageTypeSupport (binding : Nat)
  /-- GET_VENDOR_DEFINED_MESSAGE_SUPPORT (R860). MCTP control Get Vendor Defined Message Support. -/
  | getVendorDefinedMessageSupport (binding : Nat)
  /-- PREPARE_FOR_ENDPOINT_DISCOVERY (R860). MCTP control Prepare for Endpoint Discovery over PCIe VDM. -/
  | prepareForEndpointDiscovery (binding : Nat)
  /-- ENDPOINT_DISCOVERY (R860). MCTP control Endpoint Discovery over PCIe VDM. -/
  | endpointDiscovery (binding : Nat)
  /-- DISCOVERY_NOTIFY (R860). MCTP control Discovery Notify over PCIe VDM. -/
  | discoveryNotify (binding : Nat)
  /-- PLDM_REQUEST (R860). A PLDM base or platform-monitoring request is answered from the PDR repository and the sensors. -/
  | pldmRequest (binding kind cmd : Nat) (data : List Byte)
  /-- GET_STATUS (R861). Vendor message that returns the boot, keyway, power and alert status. -/
  | getStatus (binding : Nat)
  /-- EV_READ (R861). Vendor message that returns the oldest unread management event records. -/
  | evRead (binding count : Nat)
  /-- BB_INFO (R861). Vendor message that returns the black-box head, oldest index and last CHAIN. -/
  | bbInfo (binding : Nat)
  /-- BB_READ (R861). Vendor message that returns one black-box entry. -/
  | bbRead (binding index : Nat)
  /-- CAP_SET (R862). Secured vendor message that writes PWR_CAP_MGT. -/
  | capSet (binding : Nat) (secured : Bool) (watts : Nat)
  /-- KILL (R862). Secured vendor message that holds a COH_KILL value for the next end-of-frame cycle. -/
  | kill (binding : Nat) (secured : Bool) (value : Word)
  /-- ALERT_ACK (R864). Vendor message that acknowledges every earlier alert-class record. -/
  | alertAck (binding : Nat)
  /-- MGT_ALERT_WRITE (R864). A write of 1 to MGT_ALERT.ASSERTED acknowledges every earlier alert-class record. -/
  | mgtAlertWrite (value : Word)
  /-- BB_ENTRY_PROGRAM (R869). The writer finishes programming a buffered black-box entry into the NOR die. -/
  | bbEntryProgram
  /-- BB_SECTOR_ERASE (R871). The erase of the oldest sector completes, and MGT_BB_OLDEST advances. -/
  | bbSectorErase
  /-- BB_RD_IDX_WRITE (R873). A write of MGT_BB_RD_IDX_LO starts latching the named black-box entry. -/
  | bbRdIdxWrite (value : Word)
  /-- BB_RD_LATCH_DONE (R873). The latch of a black-box entry into MGT_BB_RD_DATA completes. -/
  | bbRdLatchDone
  /-- TICK_TIMER_EXPIRE (R119). A tick timer reaches OFFSET after the tick, pulses its marker pin and arrives on its tumbler. -/
  | tickTimerExpire (timer : Nat)
  /-- MFP_INPUT_EDGE (R880). A recognised edge on an MFP input makes a tumbler arrival (FUNC 6) or a timestamp capture (FUNC 7). -/
  | mfpInputEdge (pin high : Nat)
  /-- PWR_BRAKE_DEASSERT (R791). PWR_BRAKE_N is recognised high again, so the brake floor ends at the end of the first window that begins afterwards. -/
  | pwrBrakeDeassert
  /-- PWROK_ASSERT (R883). PWROK is asserted, which takes the device from unpowered to in reset, and a start can then begin only after a later PERST_N deassertion. -/
  | pwrokAssert
  /-- PERST_N_ASSERT (R881). PERST_N is asserted with PWROK held, the device enters the in-reset state of Table 19.3 and its outputs are released. -/
  | perstNAssert
  /-- HOST_WAIT_FIRED (R696). A firing notification reaches the host port for a COPY waiting on WAIT_TMB, which then starts its first block, or for a TUMBLER WAIT command, which completes with RESULT 0. -/
  | hostWaitFired (cmd : Nat)
  /-- WAIT_REGISTRATION_RESERVED (R659). A wait held at its source is told that a registration has been reserved for it, and it travels to the home to take that registration. -/
  | waitRegistrationReserved (n : Nat)
  /-- HOST_COMPLETION_TIMEOUT (R906). A read or AtomicOp to host memory receives no completion within the port's completion timeout, so the load fails with 0x0806, or the copy fails with 0x0E05. -/
  | hostCompletionTimeout (isCopy : Bool) (id : Nat)
  /-- WRITEBACK_ACK (R568). The directory's acknowledgement of a WbD reaches the L2, which frees the way marked evicting and lets the waiting fill proceed. -/
  | writebackAck (core line : Nat)
  /-- VCORE_BASE_INSTRUCTION (R419). A V-core executes a standard RV64IMAFDC, Zba, Zbb or Zicond instruction, or an xRET, ECALL or WFI, as the RISC-V specifications define it. -/
  | vcoreBaseInstruction (core : Nat) (w : BitVec 32) (err : Nat)
  /-- VCORE_CSR_ACCESS (R484). A V-core Zicsr instruction reads or writes a CSR, with the vendor effects of XVL clamping, ET changes, XS and FS updates and privilege checks. -/
  | vcoreCsrAccess (core : Nat) (w : BitVec 32)
  /-- MAP_COMPLETE (R903). The placement engines finish allocating and initialising every granule of a mapped range, the range becomes visible to accesses and the MAP completion is posted. -/
  | mapComplete (cmd : Nat)
  /-- PCIE_CONFIG_WRITE (R670). A PCIe configuration write changes the power state (D0 or D3hot), enables virtual functions or sets the MSI-X or AER controls of a function. -/
  | pcieConfigWrite (fn field value : Nat)
  /-- JTAG_TCK_EDGE (R835). A TCK edge advances the IEEE 1149.1 TAP, which performs boundary scan or shifts the identification code on TDO. -/
  | jtagTckEdge (rising trstN tms tdi : Bool)
  deriving DecidableEq, Repr

end Sys2Proof
end

