-- ==== Sys2Proof/Config.lean ====
section
/-! DEFINITION. What an implementation fixes and what the spec leaves open: constants with no body, which no proof can see
into. Each is named in an assumption-log entry. -/

namespace Sys2Proof

/-- The fused key domain: three ASCII capitals, the first in bits [7:0] (R2, R106). -/
opaque Config.domain : Nat

/-- The fused stepping: 0 for A0, 1 for B0 (R4). -/
opaque Config.stepping : Nat

/-- The set of a vault line: a hash of its home location (R498), fixed by the implementation. -/
opaque Config.vaultSet : Nat → Nat

/-- The pseudo-LRU choice of a vault victim (R499): free value index, number of candidates. -/
opaque Config.vaultVictim : Nat → Nat → Nat

/-- The channel of its vault on which a line lies (R549). -/
opaque Config.vaultChannel : Nat → Nat

/-- The channel of a stack on which a granule's line lies: a fixed hash (R541). -/
opaque Config.channelOf : Nat → Nat → Nat

/-- The set of a line in a V-core's L1I (0), L1D (1) or L2 (2) (Table 9.8), and of its entry in a directory (R561). -/
opaque Config.vcacheSet : Nat → Nat → Nat
opaque Config.dirSet : Nat → Nat

/-- Which of the FP32 values within the bound of Table 7.4 a function stage gives: operation and operand (R333). -/
opaque Config.vfunPick : Nat → Nat → Nat

/-- A free value: what the spec leaves open where the machine goes on. -/
opaque Config.freeNat : Nat → Nat

/-- TCK_U_STAT.CARRIES after more carries than its four bits count (a CARRY_LIMIT of 0 sets no limit). -/
opaque Config.manyCarries : Nat → Nat

/-- The fused facts of R843 step 1: maximum step of each T-core (0–511), of the V-cores of each die. -/
opaque Config.fuseFmax : Nat → Nat
opaque Config.fuseVfmax : Nat → Nat

/-- Fused voltage of a C-die's step in mV, weight of a power term, trip temperature of a die (0–7 C-dies, 8–9 P-dies). -/
opaque Config.fuseVf : Nat → Nat → Nat
opaque Config.fuseW : Nat → Nat
opaque Config.fuseTrip : Nat → Nat

/-- The alert temperature of a P-die's sensors: R787 names one, no register holds it. -/
opaque Config.pdieAlert : Nat

/-- 2^32 × 2^((T − 85) ÷ 20) as the estimator computes it (R768): the spec states no precision. -/
opaque Config.leakFactor : Nat → Nat

/-- Is a quotient that is no whole number rounded up? The spec states no rounding for figures in watts. -/
opaque Config.roundUp : Nat → Nat → Bool

/-- The width and the speed to which the host link trains in a cycle (Table 14.7). -/
opaque Config.pcieWidth : Nat → Nat
opaque Config.pcieSpeed : Nat → Nat

/-- The assembly-test map (R847): the lanes of a bundle that are never driven, as a mask. -/
opaque Config.assemblyBad : Nat → Nat

/-- The secrets of Table 17.1: memory root, identity private key, key-domain secret. -/
opaque Config.memRoot : List Byte
opaque Config.identityKey : Nat
opaque Config.domainSecret : List Byte

/-- The hash of the firmware signer's key, and of the boot ROM (R799, R811). -/
opaque Config.fwSignerHash : List Byte
opaque Config.romHash : List Byte

/-- Does mtval hold the word of an illegal instruction, and the address of an EBREAK (the RISC-V privileged specification lets an implementation write 0)? -/
opaque Config.trapTval : Bool

/-- What DSP0274 and DSP0236 to DSP0248 fix and the spec names only: the bytes of a response to a request, by protocol, code and
request. -/
opaque Config.stdResponse : Nat → Nat → List Byte → List Byte

/-- The OPMOD byte of a remote atomic on signed 64-bit numbers (R423), for which Table 8.9 has no ATY: by AOP. -/
opaque Config.signed64Opmod : Nat → Nat

/-- The places of a Pintle receiver's buffer for one VC (R738). -/
opaque Config.pintlePlaces : Nat

/-- The test port: what an instruction selects (0 bypass, 1 identification code, 2 boundary scan), the length of the
instruction register, the identification code, and the boundary cells as captured: the inputs, the outputs that are high and those that are low. -/
opaque Config.jtagSelect : List Bool → Nat
opaque Config.jtagIrLength : Nat
opaque Config.jtagIdcode : Nat
opaque Config.jtagCells : Nat → Nat → Nat → List Bool

end Sys2Proof
end

