-- ==== Sys2Proof/Machine/Sm3.lean ====
section
/-! DEFINITION. The SM3 hash of GB/T 32905, which R107, R801, R810 and R868 name (PRESUMED: the standard itself is not in the
spec), and the extension of a measurement. -/

namespace Sys2Proof.Machine

/-- Rotate a 32-bit word left. -/
def rotl32 (x n : Nat) : Nat :=
  let n := n % 32
  (x * 2 ^ n + x / 2 ^ (32 - n)) % 2 ^ 32

def sm3P0 (x : Nat) : Nat := Nat.xor x (Nat.xor (rotl32 x 9) (rotl32 x 17))
def sm3P1 (x : Nat) : Nat := Nat.xor x (Nat.xor (rotl32 x 15) (rotl32 x 23))

/-- The number a list of big-endian bytes spells. -/
def beNat : List Byte → Nat
  | bs => bs.foldl (fun a b => 256 * a + b.toNat) 0

/-- The `n` big-endian bytes of a number. -/
def beBytes (n v : Nat) : List Byte := (leBytes n v).reverse

/-- The message with its padding: a 1 bit, zeros, and the length in bits in 64 bits. -/
def sm3Pad (m : List Byte) : List Byte :=
  m ++ [0x80] ++ List.replicate ((119 - m.length % 64) % 64) (0 : Byte) ++ beBytes 8 (8 * m.length)

/-- The expanded words, newest first. -/
def sm3Expand : Nat → List Nat → List Nat
  | 0, w => w
  | n + 1, w =>
    let x := Nat.xor (w.getD 15 0) (Nat.xor (w.getD 8 0) (rotl32 (w.getD 2 0) 15))
    sm3Expand n (Nat.xor (sm3P1 x) (Nat.xor (rotl32 (w.getD 12 0) 7) (w.getD 5 0)) :: w)

def sm3FF (j x y z : Nat) : Nat :=
  if j < 16 then Nat.xor x (Nat.xor y z)
  else Nat.lor (Nat.land x y) (Nat.lor (Nat.land x z) (Nat.land y z))

def sm3GG (j x y z : Nat) : Nat :=
  if j < 16 then Nat.xor x (Nat.xor y z) else Nat.lor (Nat.land x y) (Nat.land (Nat.xor x (2 ^ 32 - 1)) z)

/-- The rounds of one block over the registers A to H. -/
def sm3Rounds (w : List Nat) : Nat → Nat → List Nat → List Nat
  | 0, _, v => v
  | n + 1, j, v =>
    match v with
    | [a, b, c, d, e, f, g, h] =>
      let t := if j < 16 then 0x79cc4519 else 0x7a879d8a
      let ss1 := rotl32 ((rotl32 a 12 + e + rotl32 t j) % 2 ^ 32) 7
      let ss2 := Nat.xor ss1 (rotl32 a 12)
      let tt1 := (sm3FF j a b c + d + ss2 + Nat.xor (w.getD j 0) (w.getD (j + 4) 0)) % 2 ^ 32
      let tt2 := (sm3GG j e f g + h + ss1 + w.getD j 0) % 2 ^ 32
      sm3Rounds w n (j + 1) [tt1, a, rotl32 b 9, c, sm3P0 tt2, e, rotl32 f 19, g]
    | _ => v

/-- Compress one block of 64 bytes. -/
def sm3Block (v : List Nat) (blk : List Byte) : List Nat :=
  let w0 := (List.range 16).map (fun i => beNat ((blk.drop (4 * i)).take 4))
  let w := (sm3Expand 52 w0.reverse).reverse
  List.zipWith Nat.xor (sm3Rounds w 64 0 v) v

def sm3Blocks : Nat → List Nat → List Byte → List Nat
  | 0, v, _ => v
  | n + 1, v, m => sm3Blocks n (sm3Block v (m.take 64)) (m.drop 64)

def sm3Iv : List Nat :=
  [0x7380166f, 0x4914b2b9, 0x172442d7, 0xda8a0600, 0xa96f30bc, 0x163138aa, 0xe38dee4d, 0xb0fb0e4e]

/-- The SM3 hash of a message: 32 bytes. -/
def sm3 (m : List Byte) : List Byte :=
  let p := sm3Pad m
  (sm3Blocks (p.length / 64) sm3Iv p).flatMap (fun x => beBytes 4 x)

/-- Extend a measurement by a hash (R810). -/
def extend (m h : List Byte) : List Byte := sm3 (m ++ h)

end Sys2Proof.Machine
end

