-- ==== Sys2Proof/Machine/Crypto.lean ====
section
/-! DEFINITION. The cryptographic functions that the spec names and other standards define (PRESUMED: those standards are not in the spec):
HMAC-SM3 and the KDF of R802, AES-256 with XTS (R823) and GCM (R741, R806, R818), and SM2 signatures and decryption (R107, R815); the keys of
Table 17.2 that they derive. -/

namespace Sys2Proof.Machine

/-! ### HMAC-SM3 and the KDF (R802) -/

/-- Exclusive or of two byte strings. -/
def xorBytes (a b : List Byte) : List Byte := List.zipWith (fun x y => x ^^^ y) a b

/-- HMAC-SM3: a key longer than a block of 64 bytes is hashed first. -/
def hmacSm3 (key msg : List Byte) : List Byte :=
  let k := if 64 < key.length then sm3 key else key
  let k := k ++ List.replicate (64 - k.length) (0 : Byte)
  sm3 (k.map (fun x => x ^^^ 0x5C) ++ sm3 (k.map (fun x => x ^^^ 0x36) ++ msg))

/-- Bytes of an ASCII label. -/
def ascii (s : String) : List Byte := s.toList.map (fun c => BitVec.ofNat 8 c.toNat)

/-- KDF(K, label, context, L): counter mode with HMAC-SM3; L in bits, a multiple of 8. -/
def kdf (key label ctx : List Byte) (bits : Nat) : List Byte :=
  ((List.range ((bits + 255) / 256)).flatMap (fun i =>
    hmacSm3 key (beBytes 4 (i + 1) ++ label ++ [0] ++ ctx ++ beBytes 4 bits))).take (bits / 8)

/-! ### AES-256 -/

/-- The substitution box and its inverse, sixteen bytes a row, the first on the left. -/
def aesSbox : List Nat :=
  [0x637c777bf26b6fc53001672bfed7ab76, 0xca82c97dfa5947f0add4a2af9ca472c0,
   0xb7fd9326363ff7cc34a5e5f171d83115, 0x04c723c31896059a071280e2eb27b275,
   0x09832c1a1b6e5aa0523bd6b329e32f84, 0x53d100ed20fcb15b6acbbe394a4c58cf,
   0xd0efaafb434d338545f9027f503c9fa8, 0x51a3408f929d38f5bcb6da2110fff3d2,
   0xcd0c13ec5f974417c4a77e3d645d1973, 0x60814fdc222a908846eeb814de5e0bdb,
   0xe0323a0a4906245cc2d3ac629195e479, 0xe7c8376d8dd54ea96c56f4ea657aae08,
   0xba78252e1ca6b4c6e8dd741f4bbd8b8a, 0x703eb5664803f60e613557b986c11d9e,
   0xe1f8981169d98e949b1e87e9ce5528df, 0x8ca1890dbfe6426841992d0fb054bb16]

def aesInvSbox : List Nat :=
  [0x52096ad53036a538bf40a39e81f3d7fb, 0x7ce339829b2fff87348e4344c4dee9cb,
   0x547b9432a6c2233dee4c950b42fac34e, 0x082ea16628d924b2765ba2496d8bd125,
   0x72f8f66486689816d4a45ccc5d65b692, 0x6c704850fdedb9da5e154657a78d9d84,
   0x90d8ab008cbcd30af7e45805b8b34506, 0xd02c1e8fca3f0f02c1afbd0301138a6b,
   0x3a9111414f67dcea97f2cfcef0b4e673, 0x96ac7422e7ad3585e2f937e81c75df6e,
   0x47f11a711d29c5896fb7620eaa18be1b, 0xfc563e4bc6d279209adbc0fe78cd5af4,
   0x1fdda8338807c731b11210592780ec5f, 0x60517fa919b54a0d2de57a9f93c99cef,
   0xa0e03b4dae2af5b0c8ebbb3c83539961, 0x172b047eba77d626e169146355210c7d]

/-- A byte through a box. -/
def aesSub (box : List Nat) (x : Nat) : Nat := natBits (box.getD (x / 16) 0) (8 * (15 - x % 16)) 8

/-- Times x in GF(2^8), and a product. -/
def aesTimes2 (a : Nat) : Nat := Nat.xor (2 * a % 256) (if 128 ≤ a then 0x1B else 0)

def aesMul (a : Nat) : Nat → Nat → Nat
  | 0, _ => 0
  | n + 1, b => Nat.xor (if b % 2 = 1 then a else 0) (aesTimes2 (aesMul a n (b / 2)))

/-- A column times a circulant matrix, given by its first row. -/
def aesColumn (m c : List Nat) : List Nat :=
  (List.range 4).map (fun r => (List.range 4).foldl (fun a k => Nat.xor a (aesMul (c.getD k 0) 8 (m.getD ((k + 4 - r) % 4) 0))) 0)

/-- The columns of a state, byte 4c + r in row r of column c. -/
def aesMix (m s : List Nat) : List Nat := (List.range 4).flatMap (fun c => aesColumn m ((s.drop (4 * c)).take 4))

/-- Rows shifted left by k times their number. -/
def aesShift (k : Nat) (s : List Nat) : List Nat := (List.range 16).map (fun i => s.getD ((4 * (i / 4 + k * (i % 4)) + i % 4) % 16) 0)

def xorNats (a b : List Nat) : List Nat := List.zipWith Nat.xor a b

/-- The words of the key schedule, newest first, each four bytes. -/
def aesExpand : Nat → Nat → Nat → List (List Nat) → List (List Nat)
  | 0, _, _, w => w
  | n + 1, i, rcon, w =>
    let t := w.headD []
    let t := if i % 8 = 0 then xorNats ((t.drop 1 ++ t.take 1).map (aesSub aesSbox)) [rcon, 0, 0, 0]
      else if i % 8 = 4 then t.map (aesSub aesSbox) else t
    aesExpand n (i + 1) (if i % 8 = 0 then aesTimes2 rcon else rcon) (xorNats t (w.getD 7 []) :: w)

/-- Cut a list into runs of n. -/
def runsOf {α : Type} (n : Nat) : Nat → List α → List (List α)
  | 0, _ => []
  | k + 1, l => l.take n :: runsOf n k (l.drop n)

/-- The fifteen round keys of a 32-byte key. -/
def aesKeys (key : List Byte) : List (List Nat) :=
  let k := (runsOf 4 8 (key.map (fun b => b.toNat))).reverse
  runsOf 16 15 ((aesExpand 52 8 1 k).reverse.flatMap id)

/-- The rounds of the cipher after the first key: the last mixes no columns. -/
def aesRounds : List (List Nat) → List Nat → List Nat
  | [], s => s
  | [k], s => xorNats (aesShift 1 (s.map (aesSub aesSbox))) k
  | k :: ks, s => aesRounds ks (xorNats (aesMix [2, 3, 1, 1] (aesShift 1 (s.map (aesSub aesSbox)))) k)

/-- The inverse rounds, keys in their own order. -/
def aesInvRounds : List (List Nat) → List Nat → List Nat
  | [], s => s
  | [k], s => xorNats ((aesShift 3 s).map (aesSub aesInvSbox)) k
  | k :: ks, s => aesInvRounds ks (aesMix [14, 11, 13, 9] (xorNats ((aesShift 3 s).map (aesSub aesInvSbox)) k))

def natBytes (l : List Nat) : List Byte := l.map (fun x => BitVec.ofNat 8 x)

/-- AES-256 of one block of 16 bytes under expanded keys, and its inverse. -/
def aesEncrypt (ks : List (List Nat)) (blk : List Byte) : List Byte :=
  natBytes (aesRounds (ks.drop 1) (xorNats (blk.map (fun b => b.toNat)) (ks.headD [])))

def aesDecrypt (ks : List (List Nat)) (blk : List Byte) : List Byte :=
  natBytes (aesInvRounds (ks.reverse.drop 1) (xorNats (blk.map (fun b => b.toNat)) (ks.reverse.headD [])))

/-! ### XTS (R823) -/

/-- The tweak of the next block: times x in GF(2^128), the first byte the least significant. -/
def xtsNext (t : List Byte) : List Byte :=
  let n := 2 * leNat t
  leBytes 16 (Nat.xor (n % 2 ^ 128) (if 2 ^ 128 ≤ n then 0x87 else 0))

def xtsBlocks (f : List Byte → List Byte) : List Byte → List (List Byte) → List Byte
  | _, [] => []
  | t, b :: r => xorBytes (f (xorBytes b t)) t ++ xtsBlocks f (xtsNext t) r

/-- AES-256-XTS over whole blocks, `f` the cipher or its inverse; the first key is the data key. -/
def xts (f : List (List Nat) → List Byte → List Byte) (dataKey tweakKey tweak data : List Byte) : List Byte :=
  xtsBlocks (f (aesKeys dataKey)) (aesEncrypt (aesKeys tweakKey) tweak) (runsOf 16 (data.length / 16) data)

def xtsEncrypt (dataKey tweakKey tweak data : List Byte) : List Byte := xts aesEncrypt dataKey tweakKey tweak data
def xtsDecrypt (dataKey tweakKey tweak data : List Byte) : List Byte := xts aesDecrypt dataKey tweakKey tweak data

/-! ### GCM -/

/-- The product of GCM's field, the first bit of a block the highest of its number. -/
def gcmMul (x y : Nat) : Nat :=
  ((List.range 128).foldl (fun (a : Nat × Nat) i =>
    (if natBit x (127 - i) then Nat.xor a.1 a.2 else a.1, Nat.xor (a.2 / 2) (if a.2 % 2 = 1 then 0xE1 * 2 ^ 120 else 0))) (0, y)).1

/-- Pad to whole blocks of 16 bytes. -/
def gcmPad (b : List Byte) : List Byte := b ++ List.replicate ((16 - b.length % 16) % 16) (0 : Byte)

def ghash (h : Nat) (data : List Byte) : Nat :=
  (runsOf 16 (data.length / 16) data).foldl (fun y b => gcmMul (Nat.xor y (beNat b)) h) 0

/-- The counter stream over data, from counter block 2 of a 12-byte IV. -/
def gcmStream (ks : List (List Nat)) (iv data : List Byte) : List Byte :=
  ((runsOf 16 ((data.length + 15) / 16) data).zipIdx).flatMap (fun p => xorBytes p.1 (aesEncrypt ks (iv ++ beBytes 4 (p.2 + 2))))

/-- The tag of a ciphertext and its additional data. -/
def gcmTag (ks : List (List Nat)) (iv aad cipher : List Byte) : List Byte :=
  let h := beNat (aesEncrypt ks (List.replicate 16 0))
  let s := ghash h (gcmPad aad ++ gcmPad cipher ++ beBytes 8 (8 * aad.length) ++ beBytes 8 (8 * cipher.length))
  xorBytes (beBytes 16 s) (aesEncrypt ks (iv ++ beBytes 4 1))

/-- AES-256-GCM: ciphertext and tag. -/
def gcmEncrypt (key iv aad plain : List Byte) : List Byte × List Byte :=
  let ks := aesKeys key
  let c := gcmStream ks iv plain
  (c, gcmTag ks iv aad c)

/-- AES-256-GCM: the plaintext, when the tag is right. -/
def gcmDecrypt (key iv aad tag cipher : List Byte) : Option (List Byte) :=
  let ks := aesKeys key
  if gcmTag ks iv aad cipher = tag then some (gcmStream ks iv cipher) else none

/-! ### SM2 (GB/T 32918) -/

def sm2P : Nat := 0xFFFFFFFEFFFFFFFFFFFFFFFFFFFFFFFFFFFFFFFF00000000FFFFFFFFFFFFFFFF
def sm2A : Nat := 0xFFFFFFFEFFFFFFFFFFFFFFFFFFFFFFFFFFFFFFFF00000000FFFFFFFFFFFFFFFC
def sm2B : Nat := 0x28E9FA9E9D9F5E344D5A9E4BCF6509A7F39789F515AB8F92DDBCBD414D940E93
def sm2N : Nat := 0xFFFFFFFEFFFFFFFFFFFFFFFFFFFFFFFF7203DF6B21C6052B53BBF40939D54123

/-- A point: none at infinity, else its coordinates. -/
abbrev EcPt := Option (Nat × Nat)

def sm2G : EcPt := some (0x32C4AE2C1F1981195F9904466A39C9948FE30BBFF2660BE1715A4589334C74C7,
  0xBC3736A2F4F6779C59BDCEE36B692153D0A9877CC62A474002DF32E52139F0A0)

/-- A power modulo the field's prime, by the bits of the exponent; the inverse is the power p − 2. -/
def modPow (m : Nat) : Nat → Nat → Nat → Nat
  | 0, _, _ => 1
  | n + 1, a, e => (if e % 2 = 1 then a else 1) * modPow m n (a * a % m) (e / 2) % m

def ecInv (a : Nat) : Nat := modPow sm2P 256 a (sm2P - 2)

/-- The sum of two points of the curve. -/
def ecAdd : EcPt → EcPt → EcPt
  | none, q => q
  | p, none => p
  | some (x1, y1), some (x2, y2) =>
    if x1 = x2 ∧ (y1 + y2) % sm2P = 0 then none
    else
      let l := if x1 = x2 then (3 * x1 * x1 + sm2A) * ecInv (2 * y1) % sm2P else (y2 + sm2P - y1) * ecInv (x2 + sm2P - x1) % sm2P
      let x := (l * l + 2 * sm2P - x1 - x2) % sm2P
      some (x, (l * (x1 + sm2P - x) + sm2P - y1) % sm2P)

/-- A multiple of a point, by the bits of the number. -/
def ecMul : Nat → Nat → EcPt → EcPt
  | 0, _, _ => none
  | n + 1, k, p => ecAdd (if k % 2 = 1 then p else none) (ecMul n (k / 2) (ecAdd p p))

/-- Is a pair of coordinates a point of the curve? -/
def onCurve (x y : Nat) : Bool := decide (x < sm2P) && decide (y < sm2P) && y * y % sm2P == (x * x * x + sm2A * x + sm2B) % sm2P

/-- A point as 64 bytes, x then y, each big-endian; and a point read from them. -/
def ecBytes : EcPt → List Byte
  | none => []
  | some (x, y) => beBytes 32 x ++ beBytes 32 y

def ecRead (b : List Byte) : Option (Nat × Nat) :=
  let x := beNat (b.take 32)
  let y := beNat ((b.drop 32).take 32)
  if onCurve x y then some (x, y) else none

/-- The hash that a signature covers: Z of the default signer identifier and the public key, then the message. -/
def sm2Digest (pub msg : List Byte) : Nat :=
  beNat (sm3 (sm3 (beBytes 2 128 ++ ascii "1234567812345678" ++ beBytes 32 sm2A ++ beBytes 32 sm2B ++ ecBytes sm2G ++ pub) ++ msg))

/-- SM2 signature verification (R107): the public key, the message, r then s. -/
def sm2Verify (pub msg sig : List Byte) : Bool :=
  let r := beNat (sig.take 32)
  let s := beNat ((sig.drop 32).take 32)
  match ecRead pub with
  | none => false
  | some p =>
    let t := (r + s) % sm2N
    if r = 0 ∨ sm2N ≤ r ∨ s = 0 ∨ sm2N ≤ s ∨ t = 0 then false
    else match ecAdd (ecMul 256 s sm2G) (ecMul 256 t (some p)) with
      | none => false
      | some q => (sm2Digest pub msg + q.1) % sm2N == r

/-- The key stream of SM2 encryption. -/
def sm2Kdf (z : List Byte) (n : Nat) : List Byte :=
  ((List.range ((n + 31) / 32)).flatMap (fun i => sm3 (z ++ beBytes 4 (i + 1)))).take n

/-- SM2 decryption under a private key of C1 ‖ C3 ‖ C2 (R815). -/
def sm2Decrypt (d : Nat) (c : List Byte) : Option (List Byte) :=
  match ecRead (c.take 64) with
  | none => none
  | some p =>
    match ecMul 256 d (some p) with
    | none => none
    | some (x, y) =>
      let c2 := c.drop 96
      let t := sm2Kdf (beBytes 32 x ++ beBytes 32 y) c2.length
      let m := xorBytes c2 t
      if t.all (fun b => b == 0) then none
      else if sm3 (beBytes 32 x ++ m ++ beBytes 32 y) = (c.drop 64).take 32 then some m else none

/-- The public key of a private key (R801). -/
def sm2Public (d : Nat) : List Byte := ecBytes (ecMul 256 d sm2G)

/-! ### The device's keys (R799, R801, Table 17.2) -/

/-- The identity public key, and DEVICE_ID. -/
def identityPub : List Byte := sm2Public Config.identityKey
def deviceId : Nat := leNat ((sm3 identityPub).take 8)

/-- The firmware key of a bundle's KEY_ID. -/
def firmwareKey (keyId : List Byte) : List Byte := kdf Config.domainSecret (ascii "W8-FW") (keyId ++ leBytes 3 Config.domain) 256

/-- A partition's key: XTS data key, XTS tweak key, tag key. -/
def partKey (salt : List Byte) (n gen : Nat) : List Byte := kdf Config.memRoot (ascii "W8-MEM") (salt ++ leBytes 1 n ++ leBytes 4 gen) 768

/-- The pair key of one direction and epoch. -/
def pairKey (sender receiver epoch : Nat) : List Byte :=
  kdf Config.domainSecret (ascii "W8-LINK") (leBytes 8 sender ++ leBytes 8 receiver ++ leBytes 2 epoch ++ leBytes 3 Config.domain) 256

end Sys2Proof.Machine
end

