-- ==== Sys2Proof/Machine/Num.lean ====
section
/-! DEFINITION. Number formats, rounding, IEEE arithmetic and block scaling (chapter 5). Every operation computes the exact value
and rounds it once. A value is a NaN, an infinity, or a signed dyadic number n × 2^e. -/

namespace Sys2Proof.Machine

/-- What an encoding stands for. A NaN keeps its mantissa aligned to 52 bits; its top bit is the quiet bit. -/
inductive FVal where
  | nan (neg : Bool) (pay : Nat)
  | inf (neg : Bool)
  | fin (neg : Bool) (n : Nat) (e : Int)
  deriving DecidableEq, Repr

/-- A floating-point format (Table 5.1). `kind`: 0 with infinity and NaN, 1 E4M3, 2 finite only. -/
structure FFmt where
  ebits : Nat
  mbits : Nat
  bias : Nat
  kind : Nat
  deriving DecidableEq, Repr

def fp64 : FFmt := ⟨11, 52, 1023, 0⟩
def fp32 : FFmt := ⟨8, 23, 127, 0⟩
def bf16 : FFmt := ⟨8, 7, 127, 0⟩
def fp16 : FFmt := ⟨5, 10, 15, 0⟩
def e4m3 : FFmt := ⟨4, 3, 7, 1⟩
def e5m2 : FFmt := ⟨5, 2, 15, 0⟩
def e3m2 : FFmt := ⟨3, 2, 3, 2⟩
def e2m3 : FFmt := ⟨2, 3, 1, 2⟩
def e2m1 : FFmt := ⟨2, 1, 1, 2⟩

def FFmt.width (f : FFmt) : Nat := 1 + f.ebits + f.mbits

/-- The magnitude code of the largest finite value (R215). -/
def FFmt.maxCode (f : FFmt) : Nat :=
  match f.kind with
  | 0 => (2 ^ f.ebits - 1) * 2 ^ f.mbits - 1
  | 1 => 2 ^ (f.ebits + f.mbits) - 2
  | _ => 2 ^ (f.ebits + f.mbits) - 1

/-- The canonical NaN (Table 5.1), as a magnitude code. -/
def FFmt.nanCode (f : FFmt) : Nat :=
  match f.kind with
  | 0 => (2 ^ f.ebits - 1) * 2 ^ f.mbits + 2 ^ (f.mbits - 1)
  | _ => 2 ^ (f.ebits + f.mbits) - 1

def FFmt.infCode (f : FFmt) : Nat := (2 ^ f.ebits - 1) * 2 ^ f.mbits

/-- Put a sign on a magnitude code. -/
def FFmt.signed (f : FFmt) (neg : Bool) (code : Nat) : Nat :=
  code + if neg then 2 ^ (f.ebits + f.mbits) else 0

/-- Decode an encoding (R213 to R215). -/
def FFmt.decode (f : FFmt) (x : Nat) : FVal :=
  let neg := natBit x (f.ebits + f.mbits)
  let e := natBits x f.mbits f.ebits
  let m := natBits x 0 f.mbits
  if f.kind = 0 ∧ e = 2 ^ f.ebits - 1 then
    if m = 0 then .inf neg else .nan neg (m * 2 ^ (52 - f.mbits))
  else if f.kind = 1 ∧ e = 2 ^ f.ebits - 1 ∧ m = 2 ^ f.mbits - 1 then .nan neg (m * 2 ^ (52 - f.mbits))
  else if e = 0 then .fin neg m (1 - (f.bias : Int) - f.mbits)
  else .fin neg (2 ^ f.mbits + m) ((e : Int) - f.bias - f.mbits)

/-- Is an encoding a subnormal of its format? -/
def FFmt.isSub (f : FFmt) (x : Nat) : Bool := natBits x f.mbits f.ebits == 0 && !(natBits x 0 f.mbits == 0)

/-- Round n ÷ 2^k to an integer in a direction of Table 5.4, or (4) to the nearest with ties away from zero, a rounding mode of RISC-V, for a
value of sign `neg`; also whether it was inexact. -/
def roundShift (rnd : Nat) (neg : Bool) (n k : Nat) : Nat × Bool :=
  let q := n / 2 ^ k
  let r := n % 2 ^ k
  let up := match rnd with
    | 0 => decide (2 * r > 2 ^ k) || (2 * r == 2 ^ k && decide (k > 0) && q % 2 == 1)
    | 1 => false
    | 2 => neg && decide (r > 0)
    | 3 => !neg && decide (r > 0)
    | _ => decide (2 * r ≥ 2 ^ k) && decide (r > 0)
  (if up then q + 1 else q, decide (r > 0))

/-- A rounded result: its encoding and its flags ([0] invalid, [1] division by zero, [2] overflow, [3] underflow,
[4] inexact, R254). -/
structure FRes where
  bits : Nat
  flags : Nat := 0
  deriving DecidableEq, Repr

def flagNV : Nat := 1
def flagDZ : Nat := 2
def flagOF : Nat := 4
def flagUF : Nat := 8
def flagNX : Nat := 16

/-- The mantissa and quantum of n × 2^e rounded to a format's precision; `bounded` keeps the exponent at or above the
smallest normal's. -/
def FFmt.mant (f : FFmt) (rnd : Nat) (neg bounded : Bool) (n : Nat) (e : Int) : Nat × Int × Bool :=
  let top : Int := (n.log2 : Int) + e
  let lim : Int := 1 - (f.bias : Int)
  let q : Int := (if bounded && decide (top < lim) then lim else top) - f.mbits
  if q ≤ e then (n * 2 ^ (e - q).toNat, q, false)
  else
    let (m, ix) := roundShift rnd neg n (q - e).toNat
    (m, q, ix)

/-- The magnitude code of a mantissa at a quantum, without a largest exponent. -/
def FFmt.code (f : FFmt) (m : Nat) (q : Int) : Nat :=
  let (m, q) := if m < 2 ^ (f.mbits + 1) then (m, q) else (m / 2, q + 1)
  if m < 2 ^ f.mbits then m
  else ((q + f.mbits + f.bias).toNat) * 2 ^ f.mbits + (m - 2 ^ f.mbits)

/-- What overflow delivers (Table 5.5): `sat` is the SAT bit. -/
def FFmt.overflow (f : FFmt) (rnd : Nat) (neg sat : Bool) : Nat :=
  let toInf := match rnd with
    | 0 => true
    | 1 => false
    | 2 => neg
    | 3 => !neg
    | _ => true
  if sat || f.kind == 2 || !toInf then f.signed neg f.maxCode
  else if f.kind == 1 then f.nanCode
  else f.signed neg f.infCode

/-- Round a finite value into a format (R235, R236, R254). -/
def FFmt.round (f : FFmt) (rnd : Nat) (sat : Bool) (neg : Bool) (n : Nat) (e : Int) : FRes :=
  if n = 0 then { bits := f.signed neg 0 }
  else
    let (m, q, ix) := f.mant rnd neg true n e
    let c := f.code m q
    if f.maxCode < c then { bits := f.overflow rnd neg sat, flags := flagOF + flagNX }
    else
      let (um, uq, _) := f.mant rnd neg false n e
      let tiny := decide ((um.log2 : Int) + uq < 1 - (f.bias : Int))
      { bits := f.signed neg c, flags := (if ix && tiny then flagUF else 0) + (if ix then flagNX else 0) }

/-- How an operation runs: rounding direction, strict mode (R250), and whether FP32 subnormals are flushed (Table 5.9). -/
structure FMode where
  rnd : Nat := 0
  strict : Bool := false
  flush : Bool := false
  deriving DecidableEq, Repr

/-- The NaN a result carries (R248, R253): canonical in fast mode; in strict mode the operand's payload, quieted and cut. -/
def FFmt.nanOf (f : FFmt) (strict : Bool) (neg : Bool) (pay : Nat) : Nat :=
  if strict then
    let m := Nat.lor (pay / 2 ^ (52 - f.mbits)) (2 ^ (f.mbits - 1)) % 2 ^ f.mbits
    if f.kind = 0 then f.signed neg ((2 ^ f.ebits - 1) * 2 ^ f.mbits + m) else f.signed neg f.nanCode
  else f.nanCode

def FVal.isNan : FVal → Bool
  | .nan _ _ => true
  | _ => false

def FVal.isSig : FVal → Bool
  | .nan _ p => decide (p < 2 ^ 51)
  | _ => false

def FVal.neg : FVal → Bool
  | .nan s _ => s
  | .inf s => s
  | .fin s _ _ => s

def FVal.isZero : FVal → Bool
  | .fin _ n _ => n == 0
  | _ => false

/-- Read an operand: a flushed subnormal is a zero of its sign (R246). -/
def FFmt.operand (f : FFmt) (m : FMode) (x : Nat) : FVal :=
  if m.flush && f.isSub x then .fin (natBit x (f.ebits + f.mbits)) 0 0 else f.decode x

/-- Keep flags in strict mode only (R254, Table 5.8 no. 7). -/
def FRes.inMode (m : FMode) (r : FRes) : FRes := if m.strict then r else { r with flags := 0 }

/-- Deliver a finite exact result: flushed (R246) or rounded once. -/
def FFmt.deliver (f : FFmt) (m : FMode) (neg : Bool) (n : Nat) (e : Int) : FRes :=
  if m.flush && !(n == 0) && decide ((n.log2 : Int) + e < 1 - (f.bias : Int)) then { bits := f.signed neg 0 }
  else (f.round m.rnd false neg n e).inMode m

/-- A NaN among the operands: the first in their order; a signalling NaN is an invalid operation. -/
def FFmt.firstNan (f : FFmt) (m : FMode) (vs : List FVal) : Option FRes :=
  match vs.find? FVal.isNan with
  | some (.nan s p) =>
    some (FRes.inMode m { bits := f.nanOf m.strict s p, flags := if vs.any FVal.isSig then flagNV else 0 })
  | _ => none

/-- The default result of an invalid operation. -/
def FFmt.invalid (f : FFmt) (m : FMode) : FRes := FRes.inMode m { bits := f.nanCode, flags := flagNV }

/-- A signed dyadic sum n₁ × 2^e₁ + n₂ × 2^e₂. -/
def dyAdd (a : Int) (ea : Int) (b : Int) (eb : Int) : Int × Int :=
  let e := if ea ≤ eb then ea else eb
  (a * 2 ^ (ea - e).toNat + b * 2 ^ (eb - e).toNat, e)

def signedOf (neg : Bool) (n : Nat) : Int := if neg then - (n : Int) else n

/-- Deliver an exact signed sum; a zero sum of terms that are not both zeros of one sign takes the sign of the direction. -/
def FFmt.deliverSum (f : FFmt) (m : FMode) (zneg : Bool) (z : Int) (e : Int) : FRes :=
  if z = 0 then { bits := f.signed zneg 0 } else f.deliver m (decide (z < 0)) z.natAbs e

/-- The sign of an exact zero sum. -/
def zeroSumNeg (rnd : Nat) (a b : Bool) : Bool := if a == b then a else rnd == 2

def FFmt.addV (f : FFmt) (m : FMode) (a b : FVal) : FRes :=
  match f.firstNan m [a, b] with
  | some r => r
  | none =>
    match a, b with
    | .inf s, .inf t => if s == t then { bits := f.signed s f.infCode } else f.invalid m
    | .inf s, _ => { bits := f.signed s f.infCode }
    | _, .inf t => { bits := f.signed t f.infCode }
    | .fin s n e, .fin t k g =>
      let (z, h) := dyAdd (signedOf s n) e (signedOf t k) g
      f.deliverSum m (if n = 0 ∧ k = 0 then zeroSumNeg m.rnd s t else m.rnd == 2) z h
    | _, _ => f.invalid m

def FFmt.mulV (f : FFmt) (m : FMode) (a b : FVal) : FRes :=
  match f.firstNan m [a, b] with
  | some r => r
  | none =>
    let neg := xor a.neg b.neg
    match a, b with
    | .fin _ n e, .fin _ k g => f.deliver m neg (n * k) (e + g)
    | x, y => if x.isZero || y.isZero then f.invalid m else { bits := f.signed neg f.infCode }

/-- a × b + c, rounded once. -/
def FFmt.fmaV (f : FFmt) (m : FMode) (a b c : FVal) : FRes :=
  match f.firstNan m [a, b, c] with
  | some r => r
  | none =>
    let neg := xor a.neg b.neg
    match a, b, c with
    | .fin _ n e, .fin _ k g, .fin u l h =>
      let (z, w) := dyAdd (signedOf neg (n * k)) (e + g) (signedOf u l) h
      f.deliverSum m (if n * k = 0 ∧ l = 0 then zeroSumNeg m.rnd neg u else m.rnd == 2) z w
    | .fin _ _ _, .fin _ _ _, .inf u => { bits := f.signed u f.infCode }
    | x, y, z =>
      if x.isZero || y.isZero then f.invalid m
      else match z with
        | .inf u => if u == neg then { bits := f.signed neg f.infCode } else f.invalid m
        | _ => { bits := f.signed neg f.infCode }

/-- n ÷ k to 120 or more quotient bits, the last one sticky. -/
def divSticky (n k : Nat) : Nat × Int :=
  let sh := 120 + k.log2 + 1
  let q := n * 2 ^ sh / k
  let r := n * 2 ^ sh % k
  (2 * q + (if r = 0 then 0 else 1), - (sh : Int) - 1)

def FFmt.divV (f : FFmt) (m : FMode) (a b : FVal) : FRes :=
  match f.firstNan m [a, b] with
  | some r => r
  | none =>
    let neg := xor a.neg b.neg
    match a, b with
    | .fin _ n e, .fin _ k g =>
      if k = 0 then (if n = 0 then f.invalid m else FRes.inMode m { bits := f.signed neg f.infCode, flags := flagDZ })
      else if n = 0 then { bits := f.signed neg 0 }
      else
        let (q, h) := divSticky n k
        f.deliver m neg q (e - g + h)
    | .fin _ _ _, .inf _ => { bits := f.signed neg 0 }
    | .inf _, .fin _ _ _ => { bits := f.signed neg f.infCode }
    | _, _ => f.invalid m

/-- √(n × 2^e) with a sticky last bit. -/
def sqrtSticky (n : Nat) (e : Int) : Nat × Int :=
  let odd := e % 2 = 1
  let n := if odd then 2 * n else n
  let e := if odd then e - 1 else e
  let x := n * 2 ^ 240
  let r := x.sqrt
  (2 * r + (if r * r = x then 0 else 1), e / 2 - 121)

def FFmt.sqrtV (f : FFmt) (m : FMode) (a : FVal) : FRes :=
  match f.firstNan m [a] with
  | some r => r
  | none =>
    match a with
    | .fin s n e =>
      if n = 0 then { bits := f.signed s 0 }
      else if s then f.invalid m
      else
        let (r, h) := sqrtSticky n e
        f.deliver m false r h
    | .inf s => if s then f.invalid m else { bits := f.infCode }
    | _ => f.invalid m

/-- The exact order of two values that are no NaN: −1, 0 or 1; with `zs`, −0 below +0 (R240). -/
def fOrder (zs : Bool) (a b : FVal) : Int :=
  let key : FVal → Int × Int := fun v => match v with
    | .fin s n e => (signedOf s n, e)
    | _ => (0, 0)
  match a, b with
  | .inf s, .inf t => if s == t then 0 else if s then -1 else 1
  | .inf s, _ => if s then -1 else 1
  | _, .inf t => if t then 1 else -1
  | x, y =>
    let (p, e) := key x
    let (q, g) := key y
    let (d, _) := dyAdd p e (-q) g
    if d < 0 then -1 else if 0 < d then 1
    else if zs && x.isZero && y.isZero then (if x.neg == y.neg then 0 else if x.neg then -1 else 1)
    else 0

/-- minimumNumber and maximumNumber (R240): the bit pattern of the chosen operand, `pick` false for the minimum. -/
def FFmt.minMaxB (f : FFmt) (m : FMode) (pick : Bool) (x y : Nat) : FRes :=
  let a := f.operand m x
  let b := f.operand m y
  let enc : FVal → Nat → Nat := fun v bits => if v.isZero then f.signed v.neg 0 else bits
  let sig := if a.isSig || b.isSig then flagNV else 0
  if a.isNan && b.isNan then
    match f.firstNan m [a, b] with
    | some r => r
    | none => f.invalid m
  else if a.isNan then FRes.inMode m { bits := enc b y, flags := sig }
  else if b.isNan then FRes.inMode m { bits := enc a x, flags := sig }
  else if (fOrder true a b < 0) == !pick then { bits := enc a x } else { bits := enc b y }

/-- The comparisons of R380: 0 EQ, 1 NE, 2 LT, 3 LE, 4 GT, 5 GE, 6 NUM, 7 NAN; with their flags. -/
def FFmt.cmpB (f : FFmt) (m : FMode) (op x y : Nat) : Bool × Nat :=
  let a := f.operand m x
  let b := f.operand m y
  let un := a.isNan || b.isNan
  let sig := a.isSig || b.isSig
  let o := fOrder false a b
  let r := match op with
    | 0 => !un && o == 0
    | 1 => un || !(o == 0)
    | 2 => !un && decide (o < 0)
    | 3 => !un && decide (o ≤ 0)
    | 4 => !un && decide (0 < o)
    | 5 => !un && decide (0 ≤ o)
    | 6 => !un
    | _ => un
  let ordered := decide (2 ≤ op) && decide (op ≤ 5)
  (r, if m.strict && ((un && ordered) || sig) then flagNV else 0)

/-- Round a finite value to an integer (R234, R378). -/
def roundInt (rnd : Nat) (neg : Bool) (n : Nat) (e : Int) : Nat × Bool :=
  if 0 ≤ e then (n * 2 ^ e.toNat, false) else roundShift rnd neg n (-e).toNat

/-- Round to an integral value of the format. -/
def FFmt.rndV (f : FFmt) (m : FMode) (a : FVal) : FRes :=
  match f.firstNan m [a] with
  | some r => r
  | none =>
    match a with
    | .fin s n e => { bits := (f.round 0 false s (roundInt m.rnd s n e).1 0).bits }
    | .inf s => { bits := f.signed s f.infCode }
    | _ => f.invalid m

def FFmt.add (f : FFmt) (m : FMode) (x y : Nat) : FRes := f.addV m (f.operand m x) (f.operand m y)
def FFmt.mul (f : FFmt) (m : FMode) (x y : Nat) : FRes := f.mulV m (f.operand m x) (f.operand m y)
def FFmt.fma (f : FFmt) (m : FMode) (x y z : Nat) : FRes :=
  f.fmaV m (f.operand m x) (f.operand m y) (f.operand m z)
def FFmt.div (f : FFmt) (m : FMode) (x y : Nat) : FRes := f.divV m (f.operand m x) (f.operand m y)
def FFmt.sqrt (f : FFmt) (m : FMode) (x : Nat) : FRes := f.sqrtV m (f.operand m x)
def FFmt.rint (f : FFmt) (m : FMode) (x : Nat) : FRes := f.rndV m (f.operand m x)

/-- Change the sign bit (NA, NB, NC; exact, R378). -/
def FFmt.negate (f : FFmt) (x : Nat) : Nat := Nat.xor (x % 2 ^ f.width) (2 ^ (f.ebits + f.mbits))

/-- Convert a value into a floating-point format (R235 to R238), with SAT, which strict mode takes as 0 (R253). -/
def FFmt.convert (f : FFmt) (m : FMode) (sat : Bool) (v : FVal) : FRes :=
  let sat := sat && !m.strict
  match v with
  | .nan s p => FRes.inMode m { bits := if f.kind = 2 then 0 else f.nanOf m.strict s p, flags := if v.isSig then flagNV else 0 }
  | .inf s => { bits := f.overflow 0 s sat }
  | .fin s n e => (f.round m.rnd sat s n e).inMode m

/-- Convert a value to an integer of `w` bits that saturates (R236, R237, R382): `lo` and `hi` bound its range. -/
def toIntSat (m : FMode) (lo hi : Int) (v : FVal) : Int × Nat :=
  let nv := if m.strict then flagNV else 0
  match v with
  | .nan _ _ => (0, nv)
  | .inf s => (if s then lo else hi, nv)
  | .fin s n e =>
    let (q, ix) := roundInt m.rnd s n e
    let z := signedOf s q
    if z < lo then (lo, nv) else if hi < z then (hi, nv)
    else (z, if m.strict && ix then flagNX else 0)

/-! ### Format codes (Table 6.2) and block scaling (R219 to R233) -/

/-- The floating-point format of a code of Table 6.2. -/
def fmtOfCode : Nat → Option FFmt
  | 0 => some fp64
  | 1 => some fp32
  | 2 => some bf16
  | 3 => some fp16
  | 4 => some e4m3
  | 5 => some e5m2
  | 6 => some e3m2
  | 7 => some e2m3
  | 8 => some e2m1
  | _ => none

/-- Bits of an element of a format code; T2's digits are handled by their blocks. -/
def codeBits : Nat → Nat
  | 0 => 64
  | 1 => 32
  | 2 => 16
  | 3 => 16
  | 4 => 8
  | 5 => 8
  | 6 => 6
  | 7 => 6
  | 8 => 4
  | 9 => 8
  | 10 => 4
  | 11 => 2
  | _ => 32

/-- The largest finite magnitude of an element (Table 5.3): its code, and as a dyadic number. -/
def maxElem : Nat → Nat × Int
  | 4 => (448, 0)
  | 5 => (57344, 0)
  | 6 => (28, 0)
  | 7 => (15, -1)
  | 8 => (6, 0)
  | 9 => (127, -6)
  | 10 => (7, -2)
  | _ => (1, 0)

/-- emax of Table 5.3. -/
def emaxOf : Nat → Int
  | 4 => 8
  | 5 => 15
  | 6 => 4
  | 7 => 2
  | 8 => 2
  | _ => 0

/-- The fraction bits of an integer or ternary element in a block (Table 5.3). -/
def intFrac : Nat → Nat
  | 9 => 6
  | 10 => 2
  | _ => 0

def intMax : Nat → Nat
  | 9 => 127
  | 10 => 7
  | _ => 1

/-- Does Table 5.3 permit a block kind for a format code (0 none, 1 MX, 2 fine, 3 T2)? -/
def blockOk (code sk : Nat) : Bool :=
  match sk with
  | 0 => code ≤ 5 || code == 9 || code == 10
  | 1 => decide (4 ≤ code) && decide (code ≤ 10)
  | 2 => decide (4 ≤ code) && decide (code ≤ 8)
  | 3 => code == 11
  | _ => false

def blockLen (sk : Nat) : Nat := if sk = 2 then 16 else 32

def canonNan : FVal := .nan false (2 ^ 51)

/-- The exact value of an element's bits, without a scale. -/
def elemValue (code bits : Nat) : FVal :=
  match fmtOfCode code with
  | some f => f.decode bits
  | none =>
    match code with
    | 9 => let z := toSigned 8 bits; .fin (decide (z < 0)) z.natAbs 0
    | 10 => let z := toSigned 4 bits; .fin (decide (z < 0)) z.natAbs 0
    | 11 => if bits = 1 then .fin false 1 0 else if bits = 2 then .fin true 1 0
            else if bits = 0 then .fin false 0 0 else canonNan
    | 12 => let z := toSigned 32 bits; .fin (decide (z < 0)) z.natAbs 0
    | _ => .fin false (bits % 2 ^ 32) 0

/-- Scale a value by n × 2^e. -/
def FVal.times (v : FVal) (n : Nat) (e : Int) : FVal :=
  match v with
  | .fin s k g => .fin s (k * n) (g + e)
  | x => x

/-- Decode an element with its block scale, exactly (R222, R225, R226). -/
def decodeScaled (code sk bits scale : Nat) : FVal :=
  let v := elemValue code bits
  let fr : Int := - (intFrac code : Int)
  match sk with
  | 0 => v
  | 2 =>
    if 128 ≤ scale ∨ scale = 127 then canonNan
    else if scale = 0 then .fin v.neg 0 0
    else match e4m3.decode scale with
      | .fin _ n e => v.times n e
      | _ => canonNan
  | _ => if scale = 255 then canonNan else v.times 1 ((scale : Int) - 127 + fr)

/-- Digit i of a T2 block, 3 standing for an invalid byte (R219, R220). -/
def t2Digit (blk : List Byte) (i : Nat) : Nat :=
  if i < 30 then
    let b := (blk.getD (i / 5) 0).toNat
    if 243 ≤ b then 3 else b / 3 ^ (i % 5) % 3
  else
    let b := (blk.getD 6 0).toNat
    if 9 ≤ b then 3 else b / 3 ^ (i - 30) % 3

/-- The 8 bytes of a T2 block. -/
def t2Block (ds : List Nat) (scale : Nat) : List Byte :=
  let d := fun i => ds.getD i 0
  (List.range 6).map (fun j => BitVec.ofNat 8 (d (5 * j) + 3 * d (5 * j + 1) + 9 * d (5 * j + 2) + 27 * d (5 * j + 3) + 81 * d (5 * j + 4)))
  ++ [BitVec.ofNat 8 (d 30 + 3 * d 31), BitVec.ofNat 8 scale]

/-- The magnitude code, or integer, to which n × 2^e rounds in an element format, without a largest value (R228). -/
def elemRound (code d : Nat) (neg : Bool) (n : Nat) (e : Int) : Nat :=
  match fmtOfCode code with
  | some f => if n = 0 then 0 else
    let (m, q, _) := f.mant d neg true n e
    f.code m q
  | none => (roundInt d neg n (e + intFrac code)).1

/-- The largest magnitude code or integer of an element. -/
def elemMax (code : Nat) : Nat :=
  match fmtOfCode code with
  | some f => f.maxCode
  | none => intMax code

/-- Put a sign on a rounded element. -/
def elemSigned (code : Nat) (neg : Bool) (c : Nat) : Nat :=
  match fmtOfCode code with
  | some f => f.signed neg c
  | none =>
    if code = 11 then (if c = 0 then 0 else if neg then 2 else 1)
    else ofSigned (codeBits code) (signedOf neg c)

/-- |v| of a finite value as a dyadic number. -/
def FVal.mag : FVal → Nat × Int
  | .fin _ n e => (n, e)
  | _ => (0, 0)

/-- The largest magnitude of a block. -/
def amaxOf : List FVal → Nat × Int
  | [] => (0, 0)
  | v :: r =>
    let (n, e) := v.mag
    let (k, g) := amaxOf r
    if fOrder false (.fin false n e) (.fin false k g) < 0 then (k, g) else (n, e)

def clampI (z lo hi : Int) : Int := if z < lo then lo else if hi < z then hi else z

/-- The block scale of R227: its code, and q as a dyadic number. -/
def blockScale (code sk rule d : Nat) (vs : List FVal) : Nat × Nat × Int :=
  let (an, ae) := amaxOf vs
  if sk = 2 then
    if an = 0 then (0, 0, 0)
    else
      let (mn, me) := maxElem code
      let (q, h) := divSticky an mn
      let (m, g, _) := e4m3.mant 3 false true q (ae - me + h)
      let c := min (e4m3.code m g) e4m3.maxCode
      let (sn, se) := (e4m3.decode c).mag
      (c, sn, se)
  else
    let x : Int :=
      if an = 0 then -127
      else
        let x0 := (an.log2 : Int) + ae - emaxOf code
        let x1 := if rule = 1 ∧ elemMax code < elemRound code d false an (ae - x0) then x0 + 1 else x0
        clampI x1 (-127) 127
    ((x + 127).toNat, 1, x)

/-- Quantise one element by q (R227), saturated. -/
def quantElem (code d : Nat) (qn : Nat) (qe : Int) (v : FVal) : Nat :=
  match v with
  | .fin s n e =>
    if qn = 0 ∨ n = 0 then elemSigned code s 0
    else
      let (k, h) := if qn = 1 then (n, (0 : Int)) else divSticky n qn
      elemSigned code s (min (elemRound code d s k (e - qe + h)) (elemMax code))
  | _ => 0

/-- Quantise a block (R227): its scale code and its element codes. -/
def quantise (code sk rule d : Nat) (vs : List FVal) : Nat × List Nat :=
  if vs.any (fun v => match v with | .fin _ _ _ => false | _ => true) then
    (if sk = 2 then 127 else 255, vs.map (fun _ => 0))
  else
    let (c, qn, qe) := blockScale code sk rule d vs
    (c, vs.map (quantElem code d qn qe))

/-- The flags that the rounding of one element by q raises (R254): an element past the largest one overflows, an integer past its range is an
invalid operation, as in its conversion (DESIGN CHOICE for the elements of a block, log entry 116). -/
def quantFlags (code d : Nat) (qn : Nat) (qe : Int) (v : FVal) : Nat :=
  match v with
  | .fin s n e =>
    if qn = 0 ∨ n = 0 then 0
    else
      let (k, h) := if qn = 1 then (n, (0 : Int)) else divSticky n qn
      match fmtOfCode code with
      | some f => (f.round d true s k (e - qe + h)).flags
      | none =>
        let (z, ix) := roundInt d s k (e - qe + h + intFrac code)
        if intMax code < z then flagNV else if ix then flagNX else 0
  | _ => if v.isSig then flagNV else 0

/-- The flags that each element of a block raises as it is quantised in strict mode; none where a NaN or an infinity makes every element +0, but
for a signalling NaN's. -/
def quantiseFlags (code sk rule d : Nat) (vs : List FVal) : List Nat :=
  if vs.any (fun v => match v with | .fin _ _ _ => false | _ => true) then vs.map (fun v => if v.isSig then flagNV else 0)
  else
    let (_, qn, qe) := blockScale code sk rule d vs
    vs.map (quantFlags code d qn qe)

/-- Convert to an unscaled element (R235 to R238): a float with SAT, or a saturated integer. -/
def toElem (m : FMode) (sat : Bool) (code : Nat) (v : FVal) : FRes :=
  match fmtOfCode code with
  | some f => f.convert m sat v
  | none =>
    let (lo, hi) : Int × Int := match code with
      | 9 => (-128, 127)
      | 10 => (-8, 7)
      | 13 => (0, 2 ^ 32 - 1)
      | _ => (- 2 ^ 31, 2 ^ 31 - 1)
    let (z, fl) := toIntSat m lo hi v
    { bits := ofSigned (codeBits code) z, flags := fl }

/-- Element e's bits in a byte list whose element 0 starts at bit 0 (R217): every format but T2 packs at w × e. -/
def elemAt (code : Nat) (bs : List Byte) (e : Nat) : Nat :=
  natBits (leNat bs) (codeBits code * e) (codeBits code)

/-- The reduction and atomic operations of Table 8.9: `ty` 0 U32, 1 S32, 2 U64, 3 FP32; 4 an element of BF16 (R515); 5 S64, for V-cores. -/
def atomOp (aop ty : Nat) (old b c : Nat) : Nat :=
  let w := if ty = 2 ∨ ty = 5 then 64 else if ty = 4 then 16 else 32
  let fp := ty == 3 || ty == 4
  let f := if ty = 4 then bf16 else fp32
  let lt := if ty = 1 ∨ ty = 5 then decide (toSigned w b < toSigned w old) else decide (b < old)
  match aop with
  | 0 => if fp then (f.add {} old b).bits else (old + b) % 2 ^ w
  | 1 => if fp then (f.minMaxB {} false old b).bits else if lt then b else old
  | 2 => if fp then (f.minMaxB {} true old b).bits else if lt then old else b
  | 3 => Nat.land old b
  | 4 => Nat.lor old b
  | 5 => Nat.xor old b
  | 6 => b
  | 7 => if old = c then b else old
  | _ => old

end Sys2Proof.Machine
end

