-- ==== Sys2Proof/Machine/RegMap.lean ====
section
/-! DEFINITION. The BAR0 registers: one row per register of the spec's register tables (its address, how its copies are
laid out, the access code of each of its bits, its reset value), the address and the bit range of every named field. A register
of 64 bits is two words here, the low word first (R6, R9, R10). -/

namespace Sys2Proof.Machine

/-- One register word: `dims` lists (stride, copies), outermost first; the masks hold the bits of each access code of
Table 0.3 (a bit in none of them is read-only). -/
structure RegRow where
  addr : Nat
  dims : List (Nat × Nat)
  rw : Nat
  w1c : Nat
  w1s : Nat
  wo : Nat
  rwl : Nat
  reset : Nat
  deriving DecidableEq, Repr

/-- A bit range of a register word at a BAR0 address. -/
structure RegField where
  addr : Nat
  hi : Nat
  lo : Nat
  deriving DecidableEq, Repr

/-! The byte address of each register (`i`, `j` number its copies). -/

namespace RA

/-! Table 1.5 of 01_package_anatomy.md. -/

def MGT_FAB_STAT (i : Nat) : Nat := 0x1180000 + 0x40 * i
def MGT_FAB_CRCERR (i : Nat) : Nat := 0x1180004 + 0x40 * i
def MGT_FAB_REPLAY (i : Nat) : Nat := 0x1180008 + 0x40 * i
def MGT_FAB_DUPDROP (i : Nat) : Nat := 0x118000C + 0x40 * i
def MGT_FAB_RETRAIN (i : Nat) : Nat := 0x1180010 + 0x40 * i
def MGT_FAB_CTL (i : Nat) : Nat := 0x1180014 + 0x40 * i

/-! Table 2.8 of 02_frame_cadence.md. -/

def TCK_CTL : Nat := 0x100000
def TCK_PERIOD : Nat := 0x100004
def TCK_GUARD : Nat := 0x100008
def TCK_HOLDWIN : Nat := 0x10000C
def TCK_COUNT_LO : Nat := 0x100010
def TCK_COUNT_HI : Nat := 0x100014
def TCK_SYNC_LOAD_LO : Nat := 0x100018
def TCK_SYNC_LOAD_HI : Nat := 0x10001C
def TCK_STAT : Nat := 0x100020
def TCK_MEAS : Nat := 0x100024
def TCK_LOST : Nat := 0x100028
def TCK_GLITCH : Nat := 0x10002C
def TCK_OVERRUN : Nat := 0x100030
def TCK_SNAP_CTL : Nat := 0x100034
def TCK_SNAP_BASE_LO : Nat := 0x100038
def TCK_SNAP_BASE_HI : Nat := 0x10003C
def TCK_SNAP_LOST : Nat := 0x100040
def TCK_SNAP_SIZE : Nat := 0x100044
def TCK_SNAP_CTX : Nat := 0x100048

/-! Table 2.9 of 02_frame_cadence.md. -/

def TCK_U_STAT (i : Nat) : Nat := 0x101000 + 0x20 * i
def TCK_U_ADMIT (i : Nat) : Nat := 0x101004 + 0x20 * i
def TCK_U_OVERRUN (i : Nat) : Nat := 0x101008 + 0x20 * i
def TCK_U_EXCESS (i : Nat) : Nat := 0x10100C + 0x20 * i
def TCK_U_STARTMISS (i : Nat) : Nat := 0x101010 + 0x20 * i
def TCK_U_USED (i : Nat) : Nat := 0x101014 + 0x20 * i
def TCK_U_POLICY (i : Nat) : Nat := 0x101018 + 0x20 * i
def TCK_U_START (i : Nat) : Nat := 0x10101C + 0x20 * i

/-! Table 3.11 of 03_ward_image.md. -/

def WRD_STAT : Nat := 0x200000
def WRD_LOAD_CTL : Nat := 0x200004
def WRD_LOAD_ADDR_LO : Nat := 0x200008
def WRD_LOAD_ADDR_HI : Nat := 0x20000C
def WRD_LOAD_SIZE : Nat := 0x200010
def WRD_LOAD_ERR : Nat := 0x200014
def WRD_LOAD_ERR_A : Nat := 0x200018
def WRD_LOAD_ERR_B : Nat := 0x20001C
def WRD_LOAD_ERR_RES : Nat := 0x200020
def WRD_QUIESCE : Nat := 0x200024
def WRD_IMAGE_ID_LO : Nat := 0x200028
def WRD_IMAGE_ID_HI : Nat := 0x20002C
def WRD_LOADS : Nat := 0x200030
def WRD_REFUSED : Nat := 0x200034
def WRD_UNITS : Nat := 0x200038
def WRD_MFP_IN : Nat := 0x20003C
def WRD_MFP_OUT : Nat := 0x200040

/-! Table 3.12 of 03_ward_image.md. -/

def WRD_U_TREE (i : Nat) : Nat := 0x201000 + 0x10 * i
def WRD_U_QUEUE (i : Nat) : Nat := 0x201004 + 0x10 * i
def WRD_U_TMB (i : Nat) : Nat := 0x201008 + 0x10 * i

/-! Table 4.14 of 04_tcore_execution.md. -/

def TCW_STAT (i : Nat) : Nat := 0x2000000 + 0x4000 * i
def TCW_FMAX (i : Nat) : Nat := 0x2000004 + 0x4000 * i
def TCW_FCUR (i : Nat) : Nat := 0x2000008 + 0x4000 * i
def TCW_SAVED (i : Nat) : Nat := 0x200000C + 0x4000 * i
def TCW_SAVE_BASE_LO (i : Nat) (j : Nat) : Nat := 0x2000010 + 0x4000 * i + 0x8 * j
def TCW_SAVE_BASE_HI (i : Nat) (j : Nat) : Nat := 0x2000014 + 0x4000 * i + 0x8 * j
def TCW_ISSUE (i : Nat) : Nat := 0x2000050 + 0x4000 * i
def TCW_STALL (i : Nat) : Nat := 0x2000054 + 0x4000 * i
def TCW_BANKCONF (i : Nat) : Nat := 0x2000058 + 0x4000 * i
def TCW_SECTORS (i : Nat) : Nat := 0x200005C + 0x4000 * i
def TCW_PREEMPT (i : Nat) : Nat := 0x2000060 + 0x4000 * i
def TCW_DRAIN_MAX (i : Nat) : Nat := 0x2000064 + 0x4000 * i
def TCW_FAULTS (i : Nat) : Nat := 0x2000068 + 0x4000 * i

/-! Table 5.10 of 05_number_formats.md. -/

def WRD_U_NUM (i : Nat) : Nat := 0x210000 + 0x4 * i

/-! Table 6.13 of 06_matrix_engine.md. -/

def MXE_STAT (i : Nat) (j : Nat) : Nat := 0x2000100 + 0x4000 * i + 0x20 * j
def MXE_SCALE (i : Nat) (j : Nat) : Nat := 0x2000104 + 0x4000 * i + 0x20 * j
def MXE_DESC (i : Nat) (j : Nat) : Nat := 0x2000108 + 0x4000 * i + 0x20 * j
def MXE_REPLAY (i : Nat) (j : Nat) : Nat := 0x200010C + 0x4000 * i + 0x20 * j
def MXE_BUSY (i : Nat) (j : Nat) : Nat := 0x2000110 + 0x4000 * i + 0x20 * j
def MXE_LOCKWAIT (i : Nat) (j : Nat) : Nat := 0x2000114 + 0x4000 * i + 0x20 * j

/-! Table 7.12 of 07_vector_engine.md. -/

def VXE_STAT (i : Nat) (j : Nat) : Nat := 0x2000180 + 0x4000 * i + 0x20 * j
def VXE_DESC (i : Nat) (j : Nat) : Nat := 0x2000184 + 0x4000 * i + 0x20 * j
def VXE_ROWS (i : Nat) (j : Nat) : Nat := 0x2000188 + 0x4000 * i + 0x20 * j
def VXE_SAT (i : Nat) (j : Nat) : Nat := 0x200018C + 0x4000 * i + 0x20 * j
def VXE_WAIT (i : Nat) (j : Nat) : Nat := 0x2000190 + 0x4000 * i + 0x20 * j
def VXE_STALL (i : Nat) (j : Nat) : Nat := 0x2000194 + 0x4000 * i + 0x20 * j

/-! Table 9.12 of 09_vcore.md. -/

def VCW_STAT (i : Nat) : Nat := 0x3000000 + 0x10000 * i
def VCW_SAVED (i : Nat) : Nat := 0x3000004 + 0x10000 * i
def VCW_SAVE_BASE_LO (i : Nat) (j : Nat) : Nat := 0x3000010 + 0x10000 * i + 0x8 * j
def VCW_SAVE_BASE_HI (i : Nat) (j : Nat) : Nat := 0x3000014 + 0x10000 * i + 0x8 * j
def VCW_INSTRET (i : Nat) : Nat := 0x3000050 + 0x10000 * i
def VCW_VBUSY (i : Nat) : Nat := 0x3000054 + 0x10000 * i
def VCW_MBUSY (i : Nat) : Nat := 0x3000058 + 0x10000 * i
def VCW_L1MISS (i : Nat) : Nat := 0x300005C + 0x10000 * i
def VCW_L2MISS (i : Nat) : Nat := 0x3000060 + 0x10000 * i
def VCW_PFUSED (i : Nat) : Nat := 0x3000064 + 0x10000 * i
def VCW_ECC_CE (i : Nat) : Nat := 0x3000068 + 0x10000 * i
def VCW_ECC_UE (i : Nat) : Nat := 0x300006C + 0x10000 * i
def VCW_FAULTS (i : Nat) : Nat := 0x3000070 + 0x10000 * i

/-! Table 10.8 of 10_memory_system.md. -/

def MEM_STAT : Nat := 0xA00000
def MEM_CTL : Nat := 0xA00004
def MEM_CE_THRESH : Nat := 0xA00008
def MEM_MAPOUT : Nat := 0xA0000C
def MEM_FREE_HBM : Nat := 0xA00010
def MEM_FREE_SCR : Nat := 0xA00014
def MEM_PROMOTED : Nat := 0xA00018
def MEM_DEMOTED : Nat := 0xA0001C
def MEM_MIG_SUSP : Nat := 0xA00020
def MEM_PIN_DEMOTE : Nat := 0xA00024
def MEM_ADV_PARTIAL : Nat := 0xA00028
def MEM_REDWAIT : Nat := 0xA0002C
def MEM_MIGTHR_UP (i : Nat) : Nat := 0xA00040 + 0x10 * i
def MEM_MIGTHR_DOWN (i : Nat) : Nat := 0xA00044 + 0x10 * i
def MEM_MIGTHR_HOLD (i : Nat) : Nat := 0xA00048 + 0x10 * i

/-! Table 10.9 of 10_memory_system.md. -/

def MEM_D_STAT (i : Nat) : Nat := 0xA01000 + 0x200 * i
def MEM_D_VSATWIN (i : Nat) : Nat := 0xA01004 + 0x200 * i
def MEM_D_HSATWIN (i : Nat) : Nat := 0xA01008 + 0x200 * i
def MEM_D_ECC_CE (i : Nat) : Nat := 0xA0100C + 0x200 * i
def MEM_D_ECC_UE (i : Nat) : Nat := 0xA01010 + 0x200 * i
def MEM_D_DEADDROP (i : Nat) : Nat := 0xA01014 + 0x200 * i
def MEM_D_LOOKUP (i : Nat) (j : Nat) : Nat := 0xA01040 + 0x200 * i + 0x18 * j
def MEM_D_HIT (i : Nat) (j : Nat) : Nat := 0xA01048 + 0x200 * i + 0x18 * j
def MEM_D_PARTIAL (i : Nat) (j : Nat) : Nat := 0xA01050 + 0x200 * i + 0x18 * j

/-! Table 10.10 of 10_memory_system.md. -/

def MEM_S_INSERVICE (i : Nat) : Nat := 0xA10000 + 0x100 * i
def MEM_S_FAILING (i : Nat) : Nat := 0xA10004 + 0x100 * i
def MEM_S_CE (i : Nat) : Nat := 0xA10008 + 0x100 * i
def MEM_S_UE (i : Nat) : Nat := 0xA1000C + 0x100 * i
def MEM_S_TAGFAIL (i : Nat) : Nat := 0xA10010 + 0x100 * i
def MEM_S_FREE (i : Nat) : Nat := 0xA10014 + 0x100 * i
def MEM_S_SCRUB (i : Nat) : Nat := 0xA10018 + 0x100 * i
def MEM_S_CHCE (i : Nat) (j : Nat) : Nat := 0xA10080 + 0x100 * i + 0x4 * j

/-! Table 10.11 of 10_memory_system.md. -/

def MEM_P_STAT (i : Nat) : Nat := 0xA20000 + 0x40 * i
def MEM_P_LINES (i : Nat) : Nat := 0xA20008 + 0x40 * i
def MEM_P_THROTTLE (i : Nat) : Nat := 0xA20010 + 0x40 * i
def MEM_P_BORROW (i : Nat) : Nat := 0xA20014 + 0x40 * i
def MEM_P_MIGLINES (i : Nat) : Nat := 0xA20018 + 0x40 * i

/-! Table 11.6 of 11_coherence.md. -/

def COH_CTL : Nat := 0xC00000
def COH_STAT : Nat := 0xC00004
def COH_KILL : Nat := 0xC00008
def COH_DEADDIE : Nat := 0xC0000C
def COH_DEAD (i : Nat) : Nat := 0xC00010 + 0x4 * i

/-! Table 11.7 of 11_coherence.md. -/

def COH_L_OCC (i : Nat) : Nat := 0xC01000 + 0x100 * i
def COH_L_REQ (i : Nat) : Nat := 0xC01004 + 0x100 * i
def COH_L_XLEAF (i : Nat) : Nat := 0xC01008 + 0x100 * i
def COH_L_C2C (i : Nat) : Nat := 0xC0100C + 0x100 * i
def COH_L_SNOOP (i : Nat) : Nat := 0xC01010 + 0x100 * i
def COH_L_HOLDWAIT (i : Nat) : Nat := 0xC01014 + 0x100 * i
def COH_L_DIREVICT (i : Nat) : Nat := 0xC01018 + 0x100 * i
def COH_L_BACKINV (i : Nat) : Nat := 0xC0101C + 0x100 * i
def COH_L_NCRECALL (i : Nat) : Nat := 0xC01020 + 0x100 * i
def COH_L_POISONED (i : Nat) : Nat := 0xC01024 + 0x100 * i
def COH_L_STALEWB (i : Nat) : Nat := 0xC01028 + 0x100 * i
def COH_L_DIR_CE (i : Nat) : Nat := 0xC0102C + 0x100 * i

/-! Table 12.11 of 12_translation.md. -/

def XLT_STAT : Nat := 0x800000
def XLT_CTL : Nat := 0x800004
def XLT_STORE_FREE : Nat := 0x800008
def XLT_INVALS : Nat := 0x80000C
def XLT_INVAL_MAX : Nat := 0x800010
def XLT_RESUME : Nat := 0x800014
def XLT_FAULTS : Nat := 0x800018
def XLT_COALESCED : Nat := 0x80001C
def XLT_WIN_REFUSED : Nat := 0x800020
def XLT_HOLD_EXPIRED : Nat := 0x800024
def XLT_RD_CTX : Nat := 0x800028
def XLT_RD_IDX : Nat := 0x80002C
def XLT_RD_DATA (i : Nat) : Nat := 0x800030 + 0x4 * i

/-! Table 12.12 of 12_translation.md. -/

def XLT_L_WALKS (i : Nat) : Nat := 0x801000 + 0x100 * i
def XLT_L_WALKCYC (i : Nat) : Nat := 0x801004 + 0x100 * i
def XLT_L_JOINED (i : Nat) : Nat := 0x801008 + 0x100 * i
def XLT_L_QWAIT (i : Nat) : Nat := 0x80100C + 0x100 * i

/-! Table 13.5 of 13_tumblers.md. -/

def TMB_CFG (i : Nat) : Nat := 0x400000 + 0x10 * i
def TMB_STATE (i : Nat) : Nat := 0x400004 + 0x10 * i
def TMB_PARAM (i : Nat) : Nat := 0x400008 + 0x10 * i
def TMB_OP (i : Nat) : Nat := 0x40000C + 0x10 * i

/-! Table 13.6 of 13_tumblers.md. -/

def MGT_TMB_OPS (i : Nat) : Nat := 0x1190000 + 0x40 * i
def MGT_TMB_FIRES (i : Nat) : Nat := 0x1190004 + 0x40 * i
def MGT_TMB_REFUSED (i : Nat) : Nat := 0x1190008 + 0x40 * i
def MGT_TMB_EXCESS (i : Nat) : Nat := 0x119000C + 0x40 * i
def MGT_TMB_WAITFULL (i : Nat) : Nat := 0x1190010 + 0x40 * i

/-! Table 14.7 of 14_host_port.md. -/

def HIF_STAT : Nat := 0x0
def HIF_CMDS : Nat := 0x4
def HIF_DUPS : Nat := 0x8
def HIF_H2D_BYTES : Nat := 0x10
def HIF_D2H_BYTES : Nat := 0x18
def HIF_CPL_TO : Nat := 0x20
def HIF_HOSTERR : Nat := 0x24
def HIF_FLUSHES : Nat := 0x28
def HIF_EV_BASE_LO : Nat := 0x100
def HIF_EV_BASE_HI : Nat := 0x104
def HIF_EV_CFG : Nat := 0x108
def HIF_EV_HEAD : Nat := 0x10C
def HIF_EV_TAIL : Nat := 0x110
def HIF_EV_LOST : Nat := 0x114
def HIF_CE_STAT (i : Nat) : Nat := 0x400 + 0x20 * i
def HIF_CE_COPIES (i : Nat) : Nat := 0x404 + 0x20 * i
def HIF_CE_BYTES (i : Nat) : Nat := 0x408 + 0x20 * i
def HIF_CE_FAILS (i : Nat) : Nat := 0x410 + 0x20 * i
def HIF_NT_BASE_LO : Nat := 0x118
def HIF_NT_BASE_HI : Nat := 0x11C
def HIF_NT_CFG : Nat := 0x120
def HIF_NT_HEAD : Nat := 0x124
def HIF_NT_TAIL : Nat := 0x128
def HIF_NT_LOST : Nat := 0x12C

/-! Table 14.8 of 14_host_port.md. -/

def HIF_Q_SQBASE_LO (i : Nat) : Nat := 0x10000 + 0x40 * i
def HIF_Q_SQBASE_HI (i : Nat) : Nat := 0x10004 + 0x40 * i
def HIF_Q_CQBASE_LO (i : Nat) : Nat := 0x10008 + 0x40 * i
def HIF_Q_CQBASE_HI (i : Nat) : Nat := 0x1000C + 0x40 * i
def HIF_Q_CFG (i : Nat) : Nat := 0x10010 + 0x40 * i
def HIF_Q_STAT (i : Nat) : Nat := 0x10014 + 0x40 * i
def HIF_Q_SQHEAD (i : Nat) : Nat := 0x10018 + 0x40 * i
def HIF_Q_CQTAIL (i : Nat) : Nat := 0x1001C + 0x40 * i
def HIF_Q_NEXTSEQ (i : Nat) : Nat := 0x10020 + 0x40 * i
def HIF_Q_DUP (i : Nat) : Nat := 0x10024 + 0x40 * i
def HIF_Q_CMDS (i : Nat) : Nat := 0x10028 + 0x40 * i

/-! Table 15.8 of 15_pintle_fabric.md. -/

def PTL_STAT : Nat := 0xE00000
def PTL_SELF : Nat := 0xE00004
def PTL_PHYS : Nat := 0xE00008
def PTL_EPOCH : Nat := 0xE0000C
def PTL_CTL : Nat := 0xE00010
def PTL_AUTHFAIL : Nat := 0xE00014
def PTL_STALE : Nat := 0xE00018
def PTL_DUP : Nat := 0xE0001C
def PTL_MISROUTE : Nat := 0xE00020
def PTL_UNKNOWN : Nat := 0xE00024
def PTL_TIMEOUT : Nat := 0xE00028
def PTL_LATE : Nat := 0xE0002C
def PTL_RELAY_REFUSED : Nat := 0xE00030

/-! Table 15.9 of 15_pintle_fabric.md. -/

def PTL_P_STAT (i : Nat) : Nat := 0xE01000 + 0x40 * i
def PTL_P_CTL (i : Nat) : Nat := 0xE01004 + 0x40 * i
def PTL_P_NEIGH (i : Nat) : Nat := 0xE01008 + 0x40 * i
def PTL_P_CRCERR (i : Nat) : Nat := 0xE0100C + 0x40 * i
def PTL_P_REPLAY (i : Nat) : Nat := 0xE01010 + 0x40 * i
def PTL_P_DUPDROP (i : Nat) : Nat := 0xE01014 + 0x40 * i
def PTL_P_RETRAIN (i : Nat) : Nat := 0xE01018 + 0x40 * i
def PTL_P_XOFF (i : Nat) : Nat := 0xE0101C + 0x40 * i
def PTL_P_TXBLK (i : Nat) : Nat := 0xE01020 + 0x40 * i

/-! Table 16.4 of 16_power_thermal.md. -/

def PWR_STAT : Nat := 0xD00000
def PWR_CTL : Nat := 0xD00004
def PWR_CAP_HOST : Nat := 0xD00008
def PWR_CAP_MGT : Nat := 0xD0000C
def PWR_CAP_CUR : Nat := 0xD00010
def PWR_EST : Nat := 0xD00014
def PWR_EST_FRAME : Nat := 0xD00018
def PWR_BOOST : Nat := 0xD0001C
def PWR_BRAKE : Nat := 0xD00020
def PWR_HBM_TLIM : Nat := 0xD00024
def PWR_BRAKES : Nat := 0xD00028
def PWR_W (i : Nat) : Nat := 0xD00040 + 0x4 * i

/-! Table 16.5 of 16_power_thermal.md. -/

def PWR_D_STAT (i : Nat) : Nat := 0xD01000 + 0x100 * i
def PWR_D_TEMP (i : Nat) : Nat := 0xD01004 + 0x100 * i
def PWR_D_TLIM (i : Nat) : Nat := 0xD01008 + 0x100 * i
def PWR_D_DROOP (i : Nat) : Nat := 0xD0100C + 0x100 * i
def PWR_D_VOLT (i : Nat) : Nat := 0xD01010 + 0x100 * i
def PWR_D_PWRCYC (i : Nat) : Nat := 0xD01014 + 0x100 * i
def PWR_D_THERMCYC (i : Nat) : Nat := 0xD01018 + 0x100 * i
def PWR_D_DROOPCYC (i : Nat) : Nat := 0xD0101C + 0x100 * i
def PWR_D_DROOPS (i : Nat) : Nat := 0xD01020 + 0x100 * i
def PWR_D_DEFERS (i : Nat) : Nat := 0xD01024 + 0x100 * i
def PWR_D_VF (i : Nat) (j : Nat) : Nat := 0xD01040 + 0x100 * i + 0x4 * j

/-! Table 17.11 of 17_keyway_security.md. -/

def KWY_STAT : Nat := 0x1000000
def KWY_DOMAIN : Nat := 0x1000004
def KWY_DEVID_LO : Nat := 0x1000008
def KWY_DEVID_HI : Nat := 0x100000C
def KWY_FW_SVN : Nat := 0x1000010
def KWY_BOOT_ERR : Nat := 0x1000014
def KWY_ARB_COMMIT : Nat := 0x1000018
def KWY_FWMEAS (i : Nat) : Nat := 0x1000020 + 0x4 * i
def KWY_WARDMEAS (i : Nat) : Nat := 0x1000040 + 0x4 * i
def KWY_SL_CTL : Nat := 0x1000060
def KWY_SL_STAT : Nat := 0x1000064
def KWY_SL_ENV_LO : Nat := 0x1000068
def KWY_SL_ENV_HI : Nat := 0x100006C
def KWY_SL_BLOB_LO : Nat := 0x1000070
def KWY_SL_BLOB_HI : Nat := 0x1000074
def KWY_SL_DST_LO : Nat := 0x1000078
def KWY_SL_DST_HI : Nat := 0x100007C
def KWY_SL_CTX : Nat := 0x1000080
def KWY_SL_CHUNKS : Nat := 0x1000084
def KWY_ERASE : Nat := 0x1000088
def KWY_RELEASES : Nat := 0x100008C
def KWY_GEN (i : Nat) : Nat := 0x1000090 + 0x4 * i
def KWY_REFUSALS : Nat := 0x1000190
def KWY_ERASES : Nat := 0x1000194
def KWY_ARB_COMMITS : Nat := 0x1000198
def KWY_PMEAS (i : Nat) (j : Nat) : Nat := 0x1001000 + 0x20 * i + 0x4 * j
def KWY_WK (i : Nat) : Nat := 0x1001800 + 0x4 * i

/-! Table 18.8 of 18_start_and_record.md. -/

def MGT_BOOT_STAT : Nat := 0x1100000
def MGT_BOOT_CTL : Nat := 0x1100004
def MGT_FW_ADDR_LO : Nat := 0x1100008
def MGT_FW_ADDR_HI : Nat := 0x110000C
def MGT_FW_SIZE : Nat := 0x1100010
def MGT_FW_GO : Nat := 0x1100014
def MGT_COLD_STARTS : Nat := 0x1100018
def MGT_WARM_STARTS : Nat := 0x110001C
def MGT_STEP_TIME (i : Nat) : Nat := 0x1100020 + 0x4 * i
def MGT_ALERT : Nat := 0x1100044
def MGT_WDOG : Nat := 0x1100048
def MGT_BB_HEAD_LO : Nat := 0x1100100
def MGT_BB_HEAD_HI : Nat := 0x1100104
def MGT_BB_OLDEST_LO : Nat := 0x1100108
def MGT_BB_OLDEST_HI : Nat := 0x110010C
def MGT_BB_STAT : Nat := 0x1100110
def MGT_BB_LOST : Nat := 0x1100114
def MGT_BB_SUPPRESSED : Nat := 0x1100118
def MGT_BB_WRITTEN : Nat := 0x110011C
def MGT_BB_RD_IDX_LO : Nat := 0x1100120
def MGT_BB_RD_IDX_HI : Nat := 0x1100124
def MGT_BB_RD_DATA (i : Nat) : Nat := 0x1100180 + 0x4 * i
def MGT_LANE_A (i : Nat) : Nat := 0x1101000 + 0x10 * i
def MGT_LANE_B (i : Nat) : Nat := 0x1101004 + 0x10 * i
def MGT_LANE_RT (i : Nat) : Nat := 0x1101008 + 0x10 * i

/-! Registers that 16_power_thermal.md places in its text. -/

def PWR_S_TEMP (i : Nat) : Nat := 0xD02000 + 0x4 * i
def PWR_PD_TEMP (i : Nat) : Nat := 0xD02100 + 0x4 * i

/-! Registers that 15_pintle_fabric.md places in its text. -/

def PTL_MAP_ID_LO (i : Nat) : Nat := 0xF00000 + 0x10 * i
def PTL_MAP_ID_HI (i : Nat) : Nat := 0xF00004 + 0x10 * i
def PTL_MAP_PHYS (i : Nat) : Nat := 0xF00008 + 0x10 * i
def PTL_MAP_VALID (i : Nat) : Nat := 0xF0000C + 0x10 * i
def PTL_RELAY_LO (i : Nat) : Nat := 0xE10000 + 0x8 * i
def PTL_RELAY_HI (i : Nat) : Nat := 0xE10004 + 0x8 * i

/-! Table 14.2 of 14_host_port.md. -/

def VF_HIF_EV_BASE_LO (i : Nat) : Nat := 0x10000100 + 0x2000000 * i
def VF_HIF_EV_BASE_HI (i : Nat) : Nat := 0x10000104 + 0x2000000 * i
def VF_HIF_EV_CFG (i : Nat) : Nat := 0x10000108 + 0x2000000 * i
def VF_HIF_EV_HEAD (i : Nat) : Nat := 0x1000010C + 0x2000000 * i
def VF_HIF_EV_TAIL (i : Nat) : Nat := 0x10000110 + 0x2000000 * i
def VF_HIF_EV_LOST (i : Nat) : Nat := 0x10000114 + 0x2000000 * i
def VF_HIF_NT_BASE_LO (i : Nat) : Nat := 0x10000118 + 0x2000000 * i
def VF_HIF_NT_BASE_HI (i : Nat) : Nat := 0x1000011C + 0x2000000 * i
def VF_HIF_NT_CFG (i : Nat) : Nat := 0x10000120 + 0x2000000 * i
def VF_HIF_NT_HEAD (i : Nat) : Nat := 0x10000124 + 0x2000000 * i
def VF_HIF_NT_TAIL (i : Nat) : Nat := 0x10000128 + 0x2000000 * i
def VF_HIF_NT_LOST (i : Nat) : Nat := 0x1000012C + 0x2000000 * i

end RA

/-! The named fields. -/

namespace RF

def MGT_FAB_STAT_DOWN (i : Nat) : RegField := ⟨(RA.MGT_FAB_STAT i), 3, 3⟩
def MGT_FAB_STAT_POISON_SEEN (i : Nat) : RegField := ⟨(RA.MGT_FAB_STAT i), 2, 2⟩
def MGT_FAB_STAT_RETRAIN (i : Nat) : RegField := ⟨(RA.MGT_FAB_STAT i), 1, 1⟩
def MGT_FAB_STAT_UP (i : Nat) : RegField := ⟨(RA.MGT_FAB_STAT i), 0, 0⟩
def MGT_FAB_CRCERR_COUNT (i : Nat) : RegField := ⟨(RA.MGT_FAB_CRCERR i), 31, 0⟩
def MGT_FAB_REPLAY_COUNT (i : Nat) : RegField := ⟨(RA.MGT_FAB_REPLAY i), 31, 0⟩
def MGT_FAB_DUPDROP_COUNT (i : Nat) : RegField := ⟨(RA.MGT_FAB_DUPDROP i), 31, 0⟩
def MGT_FAB_RETRAIN_COUNT (i : Nat) : RegField := ⟨(RA.MGT_FAB_RETRAIN i), 31, 0⟩
def MGT_FAB_CTL_REPLAY_LIMIT (i : Nat) : RegField := ⟨(RA.MGT_FAB_CTL i), 15, 8⟩
def MGT_FAB_CTL_ACK_TIMEOUT (i : Nat) : RegField := ⟨(RA.MGT_FAB_CTL i), 7, 0⟩
def TCK_CTL_SYNC_REQ : RegField := ⟨RA.TCK_CTL, 9, 9⟩
def TCK_CTL_ADMIT_HOLD : RegField := ⟨RA.TCK_CTL, 8, 8⟩
def TCK_CTL_TOUT : RegField := ⟨RA.TCK_CTL, 5, 4⟩
def TCK_CTL_SRC : RegField := ⟨RA.TCK_CTL, 1, 0⟩
def TCK_PERIOD_P : RegField := ⟨RA.TCK_PERIOD, 23, 0⟩
def TCK_GUARD_G : RegField := ⟨RA.TCK_GUARD, 15, 0⟩
def TCK_HOLDWIN_H : RegField := ⟨RA.TCK_HOLDWIN, 15, 0⟩
def TCK_COUNT_LO_COUNT : RegField := ⟨RA.TCK_COUNT_LO, 31, 0⟩
def TCK_COUNT_HI_COUNT : RegField := ⟨RA.TCK_COUNT_HI, 31, 0⟩
def TCK_SYNC_LOAD_LO_VALUE : RegField := ⟨RA.TCK_SYNC_LOAD_LO, 31, 0⟩
def TCK_SYNC_LOAD_HI_VALUE : RegField := ⟨RA.TCK_SYNC_LOAD_HI, 31, 0⟩
def TCK_STAT_OVERRUN : RegField := ⟨RA.TCK_STAT, 11, 11⟩
def TCK_STAT_MISMATCH : RegField := ⟨RA.TCK_STAT, 10, 10⟩
def TCK_STAT_GLITCH : RegField := ⟨RA.TCK_STAT, 9, 9⟩
def TCK_STAT_LOST : RegField := ⟨RA.TCK_STAT, 8, 8⟩
def TCK_STAT_EXT_PRESENT : RegField := ⟨RA.TCK_STAT, 2, 2⟩
def TCK_STAT_HOLDOVER : RegField := ⟨RA.TCK_STAT, 1, 1⟩
def TCK_STAT_RUNNING : RegField := ⟨RA.TCK_STAT, 0, 0⟩
def TCK_MEAS_LEN : RegField := ⟨RA.TCK_MEAS, 31, 0⟩
def TCK_LOST_COUNT : RegField := ⟨RA.TCK_LOST, 31, 0⟩
def TCK_GLITCH_COUNT : RegField := ⟨RA.TCK_GLITCH, 31, 0⟩
def TCK_OVERRUN_COUNT : RegField := ⟨RA.TCK_OVERRUN, 31, 0⟩
def TCK_SNAP_CTL_DEPTH : RegField := ⟨RA.TCK_SNAP_CTL, 15, 8⟩
def TCK_SNAP_CTL_EN : RegField := ⟨RA.TCK_SNAP_CTL, 0, 0⟩
def TCK_SNAP_BASE_LO_BASE : RegField := ⟨RA.TCK_SNAP_BASE_LO, 31, 12⟩
def TCK_SNAP_BASE_HI_BASE : RegField := ⟨RA.TCK_SNAP_BASE_HI, 24, 0⟩
def TCK_SNAP_LOST_COUNT : RegField := ⟨RA.TCK_SNAP_LOST, 31, 0⟩
def TCK_SNAP_SIZE_SIZE : RegField := ⟨RA.TCK_SNAP_SIZE, 31, 0⟩
def TCK_SNAP_CTX_UNIT : RegField := ⟨RA.TCK_SNAP_CTX, 17, 8⟩
def TCK_SNAP_CTX_CTX : RegField := ⟨RA.TCK_SNAP_CTX, 7, 0⟩
def TCK_U_STAT_CARRIES (i : Nat) : RegField := ⟨(RA.TCK_U_STAT i), 7, 4⟩
def TCK_U_STAT_HALTED (i : Nat) : RegField := ⟨(RA.TCK_U_STAT i), 3, 3⟩
def TCK_U_STAT_RUNNING (i : Nat) : RegField := ⟨(RA.TCK_U_STAT i), 2, 2⟩
def TCK_U_STAT_WAIT_START (i : Nat) : RegField := ⟨(RA.TCK_U_STAT i), 1, 1⟩
def TCK_U_STAT_ADMITTED (i : Nat) : RegField := ⟨(RA.TCK_U_STAT i), 0, 0⟩
def TCK_U_ADMIT_COUNT (i : Nat) : RegField := ⟨(RA.TCK_U_ADMIT i), 31, 0⟩
def TCK_U_OVERRUN_COUNT (i : Nat) : RegField := ⟨(RA.TCK_U_OVERRUN i), 31, 0⟩
def TCK_U_EXCESS_COUNT (i : Nat) : RegField := ⟨(RA.TCK_U_EXCESS i), 31, 0⟩
def TCK_U_STARTMISS_COUNT (i : Nat) : RegField := ⟨(RA.TCK_U_STARTMISS i), 31, 0⟩
def TCK_U_USED_USED (i : Nat) : RegField := ⟨(RA.TCK_U_USED i), 23, 0⟩
def TCK_U_POLICY_CARRY_LIMIT (i : Nat) : RegField := ⟨(RA.TCK_U_POLICY i), 15, 12⟩
def TCK_U_POLICY_PRIORITY (i : Nat) : RegField := ⟨(RA.TCK_U_POLICY i), 10, 8⟩
def TCK_U_POLICY_OVERRUN_POL (i : Nat) : RegField := ⟨(RA.TCK_U_POLICY i), 0, 0⟩
def TCK_U_START_CURSOR (i : Nat) : RegField := ⟨(RA.TCK_U_START i), 31, 0⟩
def WRD_STAT_PARTIAL_PENDING : RegField := ⟨RA.WRD_STAT, 4, 4⟩
def WRD_STAT_CLAMPED : RegField := ⟨RA.WRD_STAT, 3, 3⟩
def WRD_STAT_QUIESCED : RegField := ⟨RA.WRD_STAT, 2, 2⟩
def WRD_STAT_BUSY : RegField := ⟨RA.WRD_STAT, 1, 1⟩
def WRD_STAT_LOADED : RegField := ⟨RA.WRD_STAT, 0, 0⟩
def WRD_LOAD_CTL_GO : RegField := ⟨RA.WRD_LOAD_CTL, 0, 0⟩
def WRD_LOAD_ADDR_LO_ADDR : RegField := ⟨RA.WRD_LOAD_ADDR_LO, 31, 6⟩
def WRD_LOAD_ADDR_HI_ADDR : RegField := ⟨RA.WRD_LOAD_ADDR_HI, 31, 0⟩
def WRD_LOAD_SIZE_SIZE : RegField := ⟨RA.WRD_LOAD_SIZE, 24, 0⟩
def WRD_LOAD_ERR_CODE : RegField := ⟨RA.WRD_LOAD_ERR, 15, 0⟩
def WRD_LOAD_ERR_A_SECTION : RegField := ⟨RA.WRD_LOAD_ERR_A, 31, 24⟩
def WRD_LOAD_ERR_A_ENTRY : RegField := ⟨RA.WRD_LOAD_ERR_A, 23, 0⟩
def WRD_LOAD_ERR_B_SECTION : RegField := ⟨RA.WRD_LOAD_ERR_B, 31, 24⟩
def WRD_LOAD_ERR_B_ENTRY : RegField := ⟨RA.WRD_LOAD_ERR_B, 23, 0⟩
def WRD_LOAD_ERR_RES_CLASS : RegField := ⟨RA.WRD_LOAD_ERR_RES, 31, 24⟩
def WRD_LOAD_ERR_RES_INDEX : RegField := ⟨RA.WRD_LOAD_ERR_RES, 23, 0⟩
def WRD_QUIESCE_EN : RegField := ⟨RA.WRD_QUIESCE, 31, 31⟩
def WRD_QUIESCE_SLOT : RegField := ⟨RA.WRD_QUIESCE, 9, 0⟩
def WRD_IMAGE_ID_LO_ID : RegField := ⟨RA.WRD_IMAGE_ID_LO, 31, 0⟩
def WRD_IMAGE_ID_HI_ID : RegField := ⟨RA.WRD_IMAGE_ID_HI, 31, 0⟩
def WRD_LOADS_COUNT : RegField := ⟨RA.WRD_LOADS, 31, 0⟩
def WRD_REFUSED_COUNT : RegField := ⟨RA.WRD_REFUSED, 31, 0⟩
def WRD_UNITS_COUNT : RegField := ⟨RA.WRD_UNITS, 10, 0⟩
def WRD_MFP_IN_LEVEL : RegField := ⟨RA.WRD_MFP_IN, 15, 0⟩
def WRD_MFP_OUT_DRIVE : RegField := ⟨RA.WRD_MFP_OUT, 15, 0⟩
def WRD_U_TREE_VALID (i : Nat) : RegField := ⟨(RA.WRD_U_TREE i), 31, 31⟩
def WRD_U_TREE_GROUP (i : Nat) : RegField := ⟨(RA.WRD_U_TREE i), 30, 30⟩
def WRD_U_TREE_DEPTH (i : Nat) : RegField := ⟨(RA.WRD_U_TREE i), 29, 26⟩
def WRD_U_TREE_VF (i : Nat) : RegField := ⟨(RA.WRD_U_TREE i), 25, 21⟩
def WRD_U_TREE_ROOT (i : Nat) : RegField := ⟨(RA.WRD_U_TREE i), 20, 20⟩
def WRD_U_TREE_PARENT (i : Nat) : RegField := ⟨(RA.WRD_U_TREE i), 19, 10⟩
def WRD_U_TREE_ORD (i : Nat) : RegField := ⟨(RA.WRD_U_TREE i), 7, 0⟩
def WRD_U_QUEUE_QCOUNT (i : Nat) : RegField := ⟨(RA.WRD_U_QUEUE i), 28, 16⟩
def WRD_U_QUEUE_QBASE (i : Nat) : RegField := ⟨(RA.WRD_U_QUEUE i), 11, 0⟩
def WRD_U_TMB_COUNT (i : Nat) : RegField := ⟨(RA.WRD_U_TMB i), 31, 16⟩
def WRD_U_TMB_BASE (i : Nat) : RegField := ⟨(RA.WRD_U_TMB i), 14, 0⟩
def TCW_STAT_GROUPS (i : Nat) : RegField := ⟨(RA.TCW_STAT i), 13, 8⟩
def TCW_STAT_FAULTED (i : Nat) : RegField := ⟨(RA.TCW_STAT i), 3, 3⟩
def TCW_STAT_RESTORING (i : Nat) : RegField := ⟨(RA.TCW_STAT i), 2, 2⟩
def TCW_STAT_SAVING (i : Nat) : RegField := ⟨(RA.TCW_STAT i), 1, 1⟩
def TCW_STAT_RESIDENT (i : Nat) : RegField := ⟨(RA.TCW_STAT i), 0, 0⟩
def TCW_FMAX_STEP (i : Nat) : RegField := ⟨(RA.TCW_FMAX i), 4, 0⟩
def TCW_FCUR_STEP (i : Nat) : RegField := ⟨(RA.TCW_FCUR i), 4, 0⟩
def TCW_SAVED_SLOT (i : Nat) : RegField := ⟨(RA.TCW_SAVED i), 7, 0⟩
def TCW_SAVE_BASE_LO_BASE (i : Nat) (j : Nat) : RegField := ⟨(RA.TCW_SAVE_BASE_LO i j), 31, 12⟩
def TCW_SAVE_BASE_HI_BASE (i : Nat) (j : Nat) : RegField := ⟨(RA.TCW_SAVE_BASE_HI i j), 24, 0⟩
def TCW_ISSUE_COUNT (i : Nat) : RegField := ⟨(RA.TCW_ISSUE i), 31, 0⟩
def TCW_STALL_COUNT (i : Nat) : RegField := ⟨(RA.TCW_STALL i), 31, 0⟩
def TCW_BANKCONF_COUNT (i : Nat) : RegField := ⟨(RA.TCW_BANKCONF i), 31, 0⟩
def TCW_SECTORS_COUNT (i : Nat) : RegField := ⟨(RA.TCW_SECTORS i), 31, 0⟩
def TCW_PREEMPT_COUNT (i : Nat) : RegField := ⟨(RA.TCW_PREEMPT i), 31, 0⟩
def TCW_DRAIN_MAX_CYCLES (i : Nat) : RegField := ⟨(RA.TCW_DRAIN_MAX i), 31, 0⟩
def TCW_FAULTS_COUNT (i : Nat) : RegField := ⟨(RA.TCW_FAULTS i), 31, 0⟩
def WRD_U_NUM_RND (i : Nat) : RegField := ⟨(RA.WRD_U_NUM i), 2, 1⟩
def WRD_U_NUM_STRICT (i : Nat) : RegField := ⟨(RA.WRD_U_NUM i), 0, 0⟩
def MXE_STAT_OPEN (i : Nat) (j : Nat) : RegField := ⟨(RA.MXE_STAT i j), 19, 16⟩
def MXE_STAT_QUEUED (i : Nat) (j : Nat) : RegField := ⟨(RA.MXE_STAT i j), 11, 8⟩
def MXE_STAT_REPLAYING (i : Nat) (j : Nat) : RegField := ⟨(RA.MXE_STAT i j), 1, 1⟩
def MXE_STAT_BUSY (i : Nat) (j : Nat) : RegField := ⟨(RA.MXE_STAT i j), 0, 0⟩
def MXE_SCALE_SIGMA3 (i : Nat) (j : Nat) : RegField := ⟨(RA.MXE_SCALE i j), 31, 24⟩
def MXE_SCALE_SIGMA2 (i : Nat) (j : Nat) : RegField := ⟨(RA.MXE_SCALE i j), 23, 16⟩
def MXE_SCALE_SIGMA1 (i : Nat) (j : Nat) : RegField := ⟨(RA.MXE_SCALE i j), 15, 8⟩
def MXE_SCALE_SIGMA0 (i : Nat) (j : Nat) : RegField := ⟨(RA.MXE_SCALE i j), 7, 0⟩
def MXE_DESC_COUNT (i : Nat) (j : Nat) : RegField := ⟨(RA.MXE_DESC i j), 31, 0⟩
def MXE_REPLAY_COUNT (i : Nat) (j : Nat) : RegField := ⟨(RA.MXE_REPLAY i j), 31, 0⟩
def MXE_BUSY_CYCLES (i : Nat) (j : Nat) : RegField := ⟨(RA.MXE_BUSY i j), 31, 0⟩
def MXE_LOCKWAIT_CYCLES (i : Nat) (j : Nat) : RegField := ⟨(RA.MXE_LOCKWAIT i j), 31, 0⟩
def VXE_STAT_QUEUED (i : Nat) (j : Nat) : RegField := ⟨(RA.VXE_STAT i j), 9, 8⟩
def VXE_STAT_WAITING (i : Nat) (j : Nat) : RegField := ⟨(RA.VXE_STAT i j), 1, 1⟩
def VXE_STAT_BUSY (i : Nat) (j : Nat) : RegField := ⟨(RA.VXE_STAT i j), 0, 0⟩
def VXE_DESC_COUNT (i : Nat) (j : Nat) : RegField := ⟨(RA.VXE_DESC i j), 31, 0⟩
def VXE_ROWS_COUNT (i : Nat) (j : Nat) : RegField := ⟨(RA.VXE_ROWS i j), 31, 0⟩
def VXE_SAT_COUNT (i : Nat) (j : Nat) : RegField := ⟨(RA.VXE_SAT i j), 31, 0⟩
def VXE_WAIT_CYCLES (i : Nat) (j : Nat) : RegField := ⟨(RA.VXE_WAIT i j), 31, 0⟩
def VXE_STALL_CYCLES (i : Nat) (j : Nat) : RegField := ⟨(RA.VXE_STALL i j), 31, 0⟩
def VCW_STAT_PRIV (i : Nat) : RegField := ⟨(RA.VCW_STAT i), 6, 5⟩
def VCW_STAT_DEAD (i : Nat) : RegField := ⟨(RA.VCW_STAT i), 4, 4⟩
def VCW_STAT_FAULTED (i : Nat) : RegField := ⟨(RA.VCW_STAT i), 3, 3⟩
def VCW_STAT_RESTORING (i : Nat) : RegField := ⟨(RA.VCW_STAT i), 2, 2⟩
def VCW_STAT_SAVING (i : Nat) : RegField := ⟨(RA.VCW_STAT i), 1, 1⟩
def VCW_STAT_RUNNING (i : Nat) : RegField := ⟨(RA.VCW_STAT i), 0, 0⟩
def VCW_SAVED_SLOT (i : Nat) : RegField := ⟨(RA.VCW_SAVED i), 7, 0⟩
def VCW_SAVE_BASE_LO_BASE (i : Nat) (j : Nat) : RegField := ⟨(RA.VCW_SAVE_BASE_LO i j), 31, 12⟩
def VCW_SAVE_BASE_HI_BASE (i : Nat) (j : Nat) : RegField := ⟨(RA.VCW_SAVE_BASE_HI i j), 24, 0⟩
def VCW_INSTRET_COUNT (i : Nat) : RegField := ⟨(RA.VCW_INSTRET i), 31, 0⟩
def VCW_VBUSY_CYCLES (i : Nat) : RegField := ⟨(RA.VCW_VBUSY i), 31, 0⟩
def VCW_MBUSY_CYCLES (i : Nat) : RegField := ⟨(RA.VCW_MBUSY i), 31, 0⟩
def VCW_L1MISS_COUNT (i : Nat) : RegField := ⟨(RA.VCW_L1MISS i), 31, 0⟩
def VCW_L2MISS_COUNT (i : Nat) : RegField := ⟨(RA.VCW_L2MISS i), 31, 0⟩
def VCW_PFUSED_COUNT (i : Nat) : RegField := ⟨(RA.VCW_PFUSED i), 31, 0⟩
def VCW_ECC_CE_COUNT (i : Nat) : RegField := ⟨(RA.VCW_ECC_CE i), 31, 0⟩
def VCW_ECC_UE_COUNT (i : Nat) : RegField := ⟨(RA.VCW_ECC_UE i), 31, 0⟩
def VCW_FAULTS_COUNT (i : Nat) : RegField := ⟨(RA.VCW_FAULTS i), 31, 0⟩
def MEM_STAT_VSAT : RegField := ⟨RA.MEM_STAT, 15, 8⟩
def MEM_STAT_HSAT : RegField := ⟨RA.MEM_STAT, 7, 0⟩
def MEM_CTL_BYPASS_EN : RegField := ⟨RA.MEM_CTL, 2, 2⟩
def MEM_CTL_SCRUB_EN : RegField := ⟨RA.MEM_CTL, 1, 1⟩
def MEM_CTL_MIG_HOLD : RegField := ⟨RA.MEM_CTL, 0, 0⟩
def MEM_CE_THRESH_COUNT : RegField := ⟨RA.MEM_CE_THRESH, 15, 0⟩
def MEM_MAPOUT_GO : RegField := ⟨RA.MEM_MAPOUT, 31, 31⟩
def MEM_MAPOUT_CHANNEL : RegField := ⟨RA.MEM_MAPOUT, 12, 8⟩
def MEM_MAPOUT_STACK : RegField := ⟨RA.MEM_MAPOUT, 4, 0⟩
def MEM_FREE_HBM_GRANULES : RegField := ⟨RA.MEM_FREE_HBM, 31, 0⟩
def MEM_FREE_SCR_GRANULES : RegField := ⟨RA.MEM_FREE_SCR, 31, 0⟩
def MEM_PROMOTED_COUNT : RegField := ⟨RA.MEM_PROMOTED, 31, 0⟩
def MEM_DEMOTED_COUNT : RegField := ⟨RA.MEM_DEMOTED, 31, 0⟩
def MEM_MIG_SUSP_COUNT : RegField := ⟨RA.MEM_MIG_SUSP, 31, 0⟩
def MEM_PIN_DEMOTE_COUNT : RegField := ⟨RA.MEM_PIN_DEMOTE, 31, 0⟩
def MEM_ADV_PARTIAL_COUNT : RegField := ⟨RA.MEM_ADV_PARTIAL, 31, 0⟩
def MEM_REDWAIT_COUNT : RegField := ⟨RA.MEM_REDWAIT, 31, 0⟩
def MEM_MIGTHR_UP_UP (i : Nat) : RegField := ⟨(RA.MEM_MIGTHR_UP i), 15, 0⟩
def MEM_MIGTHR_DOWN_DOWN (i : Nat) : RegField := ⟨(RA.MEM_MIGTHR_DOWN i), 15, 0⟩
def MEM_MIGTHR_HOLD_HOLD (i : Nat) : RegField := ⟨(RA.MEM_MIGTHR_HOLD i), 7, 0⟩
def MEM_D_STAT_CACHE_WAYS (i : Nat) : RegField := ⟨(RA.MEM_D_STAT i), 20, 16⟩
def MEM_D_STAT_BYPASS (i : Nat) : RegField := ⟨(RA.MEM_D_STAT i), 10, 8⟩
def MEM_D_STAT_SCRATCH_WAYS (i : Nat) : RegField := ⟨(RA.MEM_D_STAT i), 4, 0⟩
def MEM_D_VSATWIN_COUNT (i : Nat) : RegField := ⟨(RA.MEM_D_VSATWIN i), 31, 0⟩
def MEM_D_HSATWIN_COUNT (i : Nat) : RegField := ⟨(RA.MEM_D_HSATWIN i), 31, 0⟩
def MEM_D_ECC_CE_COUNT (i : Nat) : RegField := ⟨(RA.MEM_D_ECC_CE i), 31, 0⟩
def MEM_D_ECC_UE_COUNT (i : Nat) : RegField := ⟨(RA.MEM_D_ECC_UE i), 31, 0⟩
def MEM_D_DEADDROP_COUNT (i : Nat) : RegField := ⟨(RA.MEM_D_DEADDROP i), 31, 0⟩
def MEM_D_LOOKUP_COUNT_LO (i : Nat) (j : Nat) : RegField := ⟨(RA.MEM_D_LOOKUP i j), 31, 0⟩
def MEM_D_LOOKUP_COUNT_HI (i : Nat) (j : Nat) : RegField := ⟨(RA.MEM_D_LOOKUP i j) + 4, 31, 0⟩
def MEM_D_HIT_COUNT_LO (i : Nat) (j : Nat) : RegField := ⟨(RA.MEM_D_HIT i j), 31, 0⟩
def MEM_D_HIT_COUNT_HI (i : Nat) (j : Nat) : RegField := ⟨(RA.MEM_D_HIT i j) + 4, 31, 0⟩
def MEM_D_PARTIAL_COUNT_LO (i : Nat) (j : Nat) : RegField := ⟨(RA.MEM_D_PARTIAL i j), 31, 0⟩
def MEM_D_PARTIAL_COUNT_HI (i : Nat) (j : Nat) : RegField := ⟨(RA.MEM_D_PARTIAL i j) + 4, 31, 0⟩
def MEM_S_INSERVICE_MASK (i : Nat) : RegField := ⟨(RA.MEM_S_INSERVICE i), 31, 0⟩
def MEM_S_FAILING_MASK (i : Nat) : RegField := ⟨(RA.MEM_S_FAILING i), 31, 0⟩
def MEM_S_CE_COUNT (i : Nat) : RegField := ⟨(RA.MEM_S_CE i), 31, 0⟩
def MEM_S_UE_COUNT (i : Nat) : RegField := ⟨(RA.MEM_S_UE i), 31, 0⟩
def MEM_S_TAGFAIL_COUNT (i : Nat) : RegField := ⟨(RA.MEM_S_TAGFAIL i), 31, 0⟩
def MEM_S_FREE_GRANULES (i : Nat) : RegField := ⟨(RA.MEM_S_FREE i), 31, 0⟩
def MEM_S_SCRUB_COUNT (i : Nat) : RegField := ⟨(RA.MEM_S_SCRUB i), 31, 0⟩
def MEM_S_CHCE_COUNT (i : Nat) (j : Nat) : RegField := ⟨(RA.MEM_S_CHCE i j), 31, 0⟩
def MEM_P_STAT_THROTTLED (i : Nat) : RegField := ⟨(RA.MEM_P_STAT i), 1, 1⟩
def MEM_P_STAT_VALID (i : Nat) : RegField := ⟨(RA.MEM_P_STAT i), 0, 0⟩
def MEM_P_LINES_COUNT_LO (i : Nat) : RegField := ⟨(RA.MEM_P_LINES i), 31, 0⟩
def MEM_P_LINES_COUNT_HI (i : Nat) : RegField := ⟨(RA.MEM_P_LINES i) + 4, 31, 0⟩
def MEM_P_THROTTLE_COUNT (i : Nat) : RegField := ⟨(RA.MEM_P_THROTTLE i), 31, 0⟩
def MEM_P_BORROW_COUNT (i : Nat) : RegField := ⟨(RA.MEM_P_BORROW i), 31, 0⟩
def MEM_P_MIGLINES_COUNT (i : Nat) : RegField := ⟨(RA.MEM_P_MIGLINES i), 31, 0⟩
def COH_CTL_SNP_TO : RegField := ⟨RA.COH_CTL, 7, 0⟩
def COH_STAT_RECLAIM : RegField := ⟨RA.COH_STAT, 1, 1⟩
def COH_STAT_DEADSEEN : RegField := ⟨RA.COH_STAT, 0, 0⟩
def COH_KILL_GO : RegField := ⟨RA.COH_KILL, 31, 31⟩
def COH_KILL_DIE : RegField := ⟨RA.COH_KILL, 8, 8⟩
def COH_KILL_CORE : RegField := ⟨RA.COH_KILL, 6, 0⟩
def COH_DEADDIE_MASK : RegField := ⟨RA.COH_DEADDIE, 7, 0⟩
def COH_DEAD_MASK (i : Nat) : RegField := ⟨(RA.COH_DEAD i), 31, 0⟩
def COH_L_OCC_ENTRIES (i : Nat) : RegField := ⟨(RA.COH_L_OCC i), 20, 0⟩
def COH_L_REQ_COUNT (i : Nat) : RegField := ⟨(RA.COH_L_REQ i), 31, 0⟩
def COH_L_XLEAF_COUNT (i : Nat) : RegField := ⟨(RA.COH_L_XLEAF i), 31, 0⟩
def COH_L_C2C_COUNT (i : Nat) : RegField := ⟨(RA.COH_L_C2C i), 31, 0⟩
def COH_L_SNOOP_COUNT (i : Nat) : RegField := ⟨(RA.COH_L_SNOOP i), 31, 0⟩
def COH_L_HOLDWAIT_COUNT (i : Nat) : RegField := ⟨(RA.COH_L_HOLDWAIT i), 31, 0⟩
def COH_L_DIREVICT_COUNT (i : Nat) : RegField := ⟨(RA.COH_L_DIREVICT i), 31, 0⟩
def COH_L_BACKINV_COUNT (i : Nat) : RegField := ⟨(RA.COH_L_BACKINV i), 31, 0⟩
def COH_L_NCRECALL_COUNT (i : Nat) : RegField := ⟨(RA.COH_L_NCRECALL i), 31, 0⟩
def COH_L_POISONED_COUNT (i : Nat) : RegField := ⟨(RA.COH_L_POISONED i), 31, 0⟩
def COH_L_STALEWB_COUNT (i : Nat) : RegField := ⟨(RA.COH_L_STALEWB i), 31, 0⟩
def COH_L_DIR_CE_COUNT (i : Nat) : RegField := ⟨(RA.COH_L_DIR_CE i), 31, 0⟩
def XLT_STAT_HOLDING : RegField := ⟨RA.XLT_STAT, 2, 2⟩
def XLT_STAT_MOVING : RegField := ⟨RA.XLT_STAT, 1, 1⟩
def XLT_STAT_INVAL_BUSY : RegField := ⟨RA.XLT_STAT, 0, 0⟩
def XLT_CTL_HOLD : RegField := ⟨RA.XLT_CTL, 15, 0⟩
def XLT_STORE_FREE_ENTRIES : RegField := ⟨RA.XLT_STORE_FREE, 19, 0⟩
def XLT_INVALS_COUNT : RegField := ⟨RA.XLT_INVALS, 31, 0⟩
def XLT_INVAL_MAX_CYCLES : RegField := ⟨RA.XLT_INVAL_MAX, 31, 0⟩
def XLT_RESUME_GO : RegField := ⟨RA.XLT_RESUME, 31, 31⟩
def XLT_RESUME_ABORT : RegField := ⟨RA.XLT_RESUME, 30, 30⟩
def XLT_RESUME_TOKEN : RegField := ⟨RA.XLT_RESUME, 15, 0⟩
def XLT_FAULTS_COUNT : RegField := ⟨RA.XLT_FAULTS, 31, 0⟩
def XLT_COALESCED_COUNT : RegField := ⟨RA.XLT_COALESCED, 31, 0⟩
def XLT_WIN_REFUSED_COUNT : RegField := ⟨RA.XLT_WIN_REFUSED, 31, 0⟩
def XLT_HOLD_EXPIRED_COUNT : RegField := ⟨RA.XLT_HOLD_EXPIRED, 31, 0⟩
def XLT_RD_CTX_UNIT : RegField := ⟨RA.XLT_RD_CTX, 17, 8⟩
def XLT_RD_CTX_CTX : RegField := ⟨RA.XLT_RD_CTX, 7, 0⟩
def XLT_RD_IDX_INDEX : RegField := ⟨RA.XLT_RD_IDX, 18, 0⟩
def XLT_RD_DATA_DATA (i : Nat) : RegField := ⟨(RA.XLT_RD_DATA i), 31, 0⟩
def XLT_L_WALKS_COUNT (i : Nat) : RegField := ⟨(RA.XLT_L_WALKS i), 31, 0⟩
def XLT_L_WALKCYC_CYCLES (i : Nat) : RegField := ⟨(RA.XLT_L_WALKCYC i), 31, 0⟩
def XLT_L_JOINED_COUNT (i : Nat) : RegField := ⟨(RA.XLT_L_JOINED i), 31, 0⟩
def XLT_L_QWAIT_CYCLES (i : Nat) : RegField := ⟨(RA.XLT_L_QWAIT i), 31, 0⟩
def TMB_CFG_STEP (i : Nat) : RegField := ⟨(RA.TMB_CFG i), 31, 16⟩
def TMB_CFG_REMOTE (i : Nat) : RegField := ⟨(RA.TMB_CFG i), 5, 5⟩
def TMB_CFG_NOTIFY (i : Nat) : RegField := ⟨(RA.TMB_CFG i), 4, 4⟩
def TMB_CFG_KIND (i : Nat) : RegField := ⟨(RA.TMB_CFG i), 2, 0⟩
def TMB_STATE_STATE (i : Nat) : RegField := ⟨(RA.TMB_STATE i), 31, 0⟩
def TMB_PARAM_PARAM (i : Nat) : RegField := ⟨(RA.TMB_PARAM i), 31, 0⟩
def TMB_OP_OP (i : Nat) : RegField := ⟨(RA.TMB_OP i), 31, 30⟩
def TMB_OP_WEIGHT (i : Nat) : RegField := ⟨(RA.TMB_OP i), 29, 0⟩
def MGT_TMB_OPS_COUNT (i : Nat) : RegField := ⟨(RA.MGT_TMB_OPS i), 31, 0⟩
def MGT_TMB_FIRES_COUNT (i : Nat) : RegField := ⟨(RA.MGT_TMB_FIRES i), 31, 0⟩
def MGT_TMB_REFUSED_COUNT (i : Nat) : RegField := ⟨(RA.MGT_TMB_REFUSED i), 31, 0⟩
def MGT_TMB_EXCESS_COUNT (i : Nat) : RegField := ⟨(RA.MGT_TMB_EXCESS i), 31, 0⟩
def MGT_TMB_WAITFULL_COUNT (i : Nat) : RegField := ⟨(RA.MGT_TMB_WAITFULL i), 31, 0⟩
def HIF_STAT_WIDTH : RegField := ⟨RA.HIF_STAT, 11, 8⟩
def HIF_STAT_SPEED : RegField := ⟨RA.HIF_STAT, 7, 4⟩
def HIF_STAT_PRIMARY : RegField := ⟨RA.HIF_STAT, 1, 1⟩
def HIF_STAT_LINKUP : RegField := ⟨RA.HIF_STAT, 0, 0⟩
def HIF_CMDS_COUNT : RegField := ⟨RA.HIF_CMDS, 31, 0⟩
def HIF_DUPS_COUNT : RegField := ⟨RA.HIF_DUPS, 31, 0⟩
def HIF_H2D_BYTES_COUNT_LO : RegField := ⟨RA.HIF_H2D_BYTES, 31, 0⟩
def HIF_H2D_BYTES_COUNT_HI : RegField := ⟨RA.HIF_H2D_BYTES + 4, 31, 0⟩
def HIF_D2H_BYTES_COUNT_LO : RegField := ⟨RA.HIF_D2H_BYTES, 31, 0⟩
def HIF_D2H_BYTES_COUNT_HI : RegField := ⟨RA.HIF_D2H_BYTES + 4, 31, 0⟩
def HIF_CPL_TO_COUNT : RegField := ⟨RA.HIF_CPL_TO, 31, 0⟩
def HIF_HOSTERR_COUNT : RegField := ⟨RA.HIF_HOSTERR, 31, 0⟩
def HIF_FLUSHES_COUNT : RegField := ⟨RA.HIF_FLUSHES, 31, 0⟩
def HIF_EV_BASE_LO_BASE : RegField := ⟨RA.HIF_EV_BASE_LO, 31, 12⟩
def HIF_EV_BASE_HI_BASE : RegField := ⟨RA.HIF_EV_BASE_HI, 31, 0⟩
def HIF_EV_CFG_EN : RegField := ⟨RA.HIF_EV_CFG, 31, 31⟩
def HIF_EV_CFG_LOG2 : RegField := ⟨RA.HIF_EV_CFG, 3, 0⟩
def HIF_EV_HEAD_HEAD : RegField := ⟨RA.HIF_EV_HEAD, 15, 0⟩
def HIF_EV_TAIL_TAIL : RegField := ⟨RA.HIF_EV_TAIL, 15, 0⟩
def HIF_EV_LOST_COUNT : RegField := ⟨RA.HIF_EV_LOST, 31, 0⟩
def HIF_CE_STAT_PLACES (i : Nat) : RegField := ⟨(RA.HIF_CE_STAT i), 3, 0⟩
def HIF_CE_COPIES_COUNT (i : Nat) : RegField := ⟨(RA.HIF_CE_COPIES i), 31, 0⟩
def HIF_CE_BYTES_COUNT_LO (i : Nat) : RegField := ⟨(RA.HIF_CE_BYTES i), 31, 0⟩
def HIF_CE_BYTES_COUNT_HI (i : Nat) : RegField := ⟨(RA.HIF_CE_BYTES i) + 4, 31, 0⟩
def HIF_CE_FAILS_COUNT (i : Nat) : RegField := ⟨(RA.HIF_CE_FAILS i), 31, 0⟩
def HIF_NT_BASE_LO_BASE : RegField := ⟨RA.HIF_NT_BASE_LO, 31, 12⟩
def HIF_NT_BASE_HI_BASE : RegField := ⟨RA.HIF_NT_BASE_HI, 31, 0⟩
def HIF_NT_CFG_EN : RegField := ⟨RA.HIF_NT_CFG, 31, 31⟩
def HIF_NT_CFG_LOG2 : RegField := ⟨RA.HIF_NT_CFG, 3, 0⟩
def HIF_NT_HEAD_HEAD : RegField := ⟨RA.HIF_NT_HEAD, 15, 0⟩
def HIF_NT_TAIL_TAIL : RegField := ⟨RA.HIF_NT_TAIL, 15, 0⟩
def HIF_NT_LOST_COUNT : RegField := ⟨RA.HIF_NT_LOST, 31, 0⟩
def HIF_Q_SQBASE_LO_BASE (i : Nat) : RegField := ⟨(RA.HIF_Q_SQBASE_LO i), 31, 12⟩
def HIF_Q_SQBASE_HI_BASE (i : Nat) : RegField := ⟨(RA.HIF_Q_SQBASE_HI i), 31, 0⟩
def HIF_Q_CQBASE_LO_BASE (i : Nat) : RegField := ⟨(RA.HIF_Q_CQBASE_LO i), 31, 12⟩
def HIF_Q_CQBASE_HI_BASE (i : Nat) : RegField := ⟨(RA.HIF_Q_CQBASE_HI i), 31, 0⟩
def HIF_Q_CFG_EN (i : Nat) : RegField := ⟨(RA.HIF_Q_CFG i), 31, 31⟩
def HIF_Q_CFG_SQLOG (i : Nat) : RegField := ⟨(RA.HIF_Q_CFG i), 23, 20⟩
def HIF_Q_CFG_CQLOG (i : Nat) : RegField := ⟨(RA.HIF_Q_CFG i), 19, 16⟩
def HIF_Q_CFG_VECTOR (i : Nat) : RegField := ⟨(RA.HIF_Q_CFG i), 7, 0⟩
def HIF_Q_STAT_CODE (i : Nat) : RegField := ⟨(RA.HIF_Q_STAT i), 31, 16⟩
def HIF_Q_STAT_STOPPED (i : Nat) : RegField := ⟨(RA.HIF_Q_STAT i), 1, 1⟩
def HIF_Q_STAT_ACTIVE (i : Nat) : RegField := ⟨(RA.HIF_Q_STAT i), 0, 0⟩
def HIF_Q_SQHEAD_HEAD (i : Nat) : RegField := ⟨(RA.HIF_Q_SQHEAD i), 15, 0⟩
def HIF_Q_CQTAIL_TAIL (i : Nat) : RegField := ⟨(RA.HIF_Q_CQTAIL i), 15, 0⟩
def HIF_Q_NEXTSEQ_NEXT (i : Nat) : RegField := ⟨(RA.HIF_Q_NEXTSEQ i), 31, 0⟩
def HIF_Q_DUP_COUNT (i : Nat) : RegField := ⟨(RA.HIF_Q_DUP i), 31, 0⟩
def HIF_Q_CMDS_COUNT (i : Nat) : RegField := ⟨(RA.HIF_Q_CMDS i), 31, 0⟩
def PTL_STAT_DEGRADED : RegField := ⟨RA.PTL_STAT, 31, 16⟩
def PTL_STAT_UP : RegField := ⟨RA.PTL_STAT, 15, 0⟩
def PTL_SELF_LOGICAL : RegField := ⟨RA.PTL_SELF, 15, 0⟩
def PTL_PHYS_PHYS : RegField := ⟨RA.PTL_PHYS, 31, 0⟩
def PTL_EPOCH_CURRENT : RegField := ⟨RA.PTL_EPOCH, 31, 16⟩
def PTL_EPOCH_NEXT : RegField := ⟨RA.PTL_EPOCH, 15, 0⟩
def PTL_CTL_RSP_TO : RegField := ⟨RA.PTL_CTL, 15, 0⟩
def PTL_AUTHFAIL_COUNT : RegField := ⟨RA.PTL_AUTHFAIL, 31, 0⟩
def PTL_STALE_COUNT : RegField := ⟨RA.PTL_STALE, 31, 0⟩
def PTL_DUP_COUNT : RegField := ⟨RA.PTL_DUP, 31, 0⟩
def PTL_MISROUTE_COUNT : RegField := ⟨RA.PTL_MISROUTE, 31, 0⟩
def PTL_UNKNOWN_COUNT : RegField := ⟨RA.PTL_UNKNOWN, 31, 0⟩
def PTL_TIMEOUT_COUNT : RegField := ⟨RA.PTL_TIMEOUT, 31, 0⟩
def PTL_LATE_COUNT : RegField := ⟨RA.PTL_LATE, 31, 0⟩
def PTL_RELAY_REFUSED_COUNT : RegField := ⟨RA.PTL_RELAY_REFUSED, 31, 0⟩
def PTL_P_STAT_LANES (i : Nat) : RegField := ⟨(RA.PTL_P_STAT i), 15, 8⟩
def PTL_P_STAT_ROLE (i : Nat) : RegField := ⟨(RA.PTL_P_STAT i), 5, 4⟩
def PTL_P_STAT_ENGAGED (i : Nat) : RegField := ⟨(RA.PTL_P_STAT i), 3, 3⟩
def PTL_P_STAT_DOWN (i : Nat) : RegField := ⟨(RA.PTL_P_STAT i), 2, 2⟩
def PTL_P_STAT_RETRAIN (i : Nat) : RegField := ⟨(RA.PTL_P_STAT i), 1, 1⟩
def PTL_P_STAT_UP (i : Nat) : RegField := ⟨(RA.PTL_P_STAT i), 0, 0⟩
def PTL_P_CTL_RETRAIN_REQ (i : Nat) : RegField := ⟨(RA.PTL_P_CTL i), 31, 31⟩
def PTL_P_CTL_REPLAY_LIMIT (i : Nat) : RegField := ⟨(RA.PTL_P_CTL i), 15, 8⟩
def PTL_P_CTL_ACK_TO (i : Nat) : RegField := ⟨(RA.PTL_P_CTL i), 7, 0⟩
def PTL_P_NEIGH_PHYS (i : Nat) : RegField := ⟨(RA.PTL_P_NEIGH i), 31, 0⟩
def PTL_P_CRCERR_COUNT (i : Nat) : RegField := ⟨(RA.PTL_P_CRCERR i), 31, 0⟩
def PTL_P_REPLAY_COUNT (i : Nat) : RegField := ⟨(RA.PTL_P_REPLAY i), 31, 0⟩
def PTL_P_DUPDROP_COUNT (i : Nat) : RegField := ⟨(RA.PTL_P_DUPDROP i), 31, 0⟩
def PTL_P_RETRAIN_COUNT (i : Nat) : RegField := ⟨(RA.PTL_P_RETRAIN i), 31, 0⟩
def PTL_P_XOFF_CYCLES (i : Nat) : RegField := ⟨(RA.PTL_P_XOFF i), 31, 0⟩
def PTL_P_TXBLK_COUNT_LO (i : Nat) : RegField := ⟨(RA.PTL_P_TXBLK i), 31, 0⟩
def PTL_P_TXBLK_COUNT_HI (i : Nat) : RegField := ⟨(RA.PTL_P_TXBLK i) + 4, 31, 0⟩
def PWR_STAT_BRAKE : RegField := ⟨RA.PWR_STAT, 15, 15⟩
def PWR_STAT_BUBBLE : RegField := ⟨RA.PWR_STAT, 14, 8⟩
def PWR_STAT_FIXED : RegField := ⟨RA.PWR_STAT, 1, 1⟩
def PWR_STAT_RUNNING : RegField := ⟨RA.PWR_STAT, 0, 0⟩
def PWR_CTL_FIXED_STEP : RegField := ⟨RA.PWR_CTL, 12, 8⟩
def PWR_CTL_FIXED : RegField := ⟨RA.PWR_CTL, 0, 0⟩
def PWR_CAP_HOST_WATTS : RegField := ⟨RA.PWR_CAP_HOST, 12, 0⟩
def PWR_CAP_MGT_WATTS : RegField := ⟨RA.PWR_CAP_MGT, 12, 0⟩
def PWR_CAP_CUR_WATTS : RegField := ⟨RA.PWR_CAP_CUR, 12, 0⟩
def PWR_EST_D : RegField := ⟨RA.PWR_EST, 31, 16⟩
def PWR_EST_P : RegField := ⟨RA.PWR_EST, 15, 0⟩
def PWR_EST_FRAME_P : RegField := ⟨RA.PWR_EST_FRAME, 15, 0⟩
def PWR_BOOST_DOWN : RegField := ⟨RA.PWR_BOOST, 25, 16⟩
def PWR_BOOST_MARGIN : RegField := ⟨RA.PWR_BOOST, 15, 0⟩
def PWR_BRAKE_FRAC : RegField := ⟨RA.PWR_BRAKE, 5, 0⟩
def PWR_HBM_TLIM_LIMIT : RegField := ⟨RA.PWR_HBM_TLIM, 7, 0⟩
def PWR_BRAKES_COUNT : RegField := ⟨RA.PWR_BRAKES, 31, 0⟩
def PWR_W_WEIGHT (i : Nat) : RegField := ⟨(RA.PWR_W i), 31, 0⟩
def PWR_D_STAT_BL (i : Nat) : RegField := ⟨(RA.PWR_D_STAT i), 28, 24⟩
def PWR_D_STAT_PEND (i : Nat) : RegField := ⟨(RA.PWR_D_STAT i), 20, 16⟩
def PWR_D_STAT_PENDV (i : Nat) : RegField := ⟨(RA.PWR_D_STAT i), 15, 15⟩
def PWR_D_STAT_VFMAX (i : Nat) : RegField := ⟨(RA.PWR_D_STAT i), 12, 8⟩
def PWR_D_STAT_THERM (i : Nat) : RegField := ⟨(RA.PWR_D_STAT i), 1, 1⟩
def PWR_D_STAT_DROOP (i : Nat) : RegField := ⟨(RA.PWR_D_STAT i), 0, 0⟩
def PWR_D_TEMP_SENSOR (i : Nat) : RegField := ⟨(RA.PWR_D_TEMP i), 11, 8⟩
def PWR_D_TEMP_T (i : Nat) : RegField := ⟨(RA.PWR_D_TEMP i), 7, 0⟩
def PWR_D_TLIM_TRIP (i : Nat) : RegField := ⟨(RA.PWR_D_TLIM i), 23, 16⟩
def PWR_D_TLIM_ALERT (i : Nat) : RegField := ⟨(RA.PWR_D_TLIM i), 15, 8⟩
def PWR_D_TLIM_LIMIT (i : Nat) : RegField := ⟨(RA.PWR_D_TLIM i), 7, 0⟩
def PWR_D_DROOP_HOLD (i : Nat) : RegField := ⟨(RA.PWR_D_DROOP i), 31, 16⟩
def PWR_D_DROOP_FRAC (i : Nat) : RegField := ⟨(RA.PWR_D_DROOP i), 13, 8⟩
def PWR_D_DROOP_THRESH (i : Nat) : RegField := ⟨(RA.PWR_D_DROOP i), 7, 0⟩
def PWR_D_VOLT_MV (i : Nat) : RegField := ⟨(RA.PWR_D_VOLT i), 15, 0⟩
def PWR_D_PWRCYC_COUNT (i : Nat) : RegField := ⟨(RA.PWR_D_PWRCYC i), 31, 0⟩
def PWR_D_THERMCYC_COUNT (i : Nat) : RegField := ⟨(RA.PWR_D_THERMCYC i), 31, 0⟩
def PWR_D_DROOPCYC_COUNT (i : Nat) : RegField := ⟨(RA.PWR_D_DROOPCYC i), 31, 0⟩
def PWR_D_DROOPS_COUNT (i : Nat) : RegField := ⟨(RA.PWR_D_DROOPS i), 31, 0⟩
def PWR_D_DEFERS_COUNT (i : Nat) : RegField := ⟨(RA.PWR_D_DEFERS i), 31, 0⟩
def PWR_D_VF_MV (i : Nat) (j : Nat) : RegField := ⟨(RA.PWR_D_VF i j), 15, 0⟩
def KWY_STAT_FUSED_SVN : RegField := ⟨RA.KWY_STAT, 14, 8⟩
def KWY_STAT_FW_OK : RegField := ⟨RA.KWY_STAT, 1, 1⟩
def KWY_STAT_KEYS_READY : RegField := ⟨RA.KWY_STAT, 0, 0⟩
def KWY_DOMAIN_CODE : RegField := ⟨RA.KWY_DOMAIN, 23, 0⟩
def KWY_DEVID_LO_ID : RegField := ⟨RA.KWY_DEVID_LO, 31, 0⟩
def KWY_DEVID_HI_ID : RegField := ⟨RA.KWY_DEVID_HI, 31, 0⟩
def KWY_FW_SVN_SVN : RegField := ⟨RA.KWY_FW_SVN, 6, 0⟩
def KWY_BOOT_ERR_CODE : RegField := ⟨RA.KWY_BOOT_ERR, 15, 0⟩
def KWY_ARB_COMMIT_GO : RegField := ⟨RA.KWY_ARB_COMMIT, 31, 31⟩
def KWY_FWMEAS_DATA (i : Nat) : RegField := ⟨(RA.KWY_FWMEAS i), 31, 0⟩
def KWY_WARDMEAS_DATA (i : Nat) : RegField := ⟨(RA.KWY_WARDMEAS i), 31, 0⟩
def KWY_SL_CTL_GO : RegField := ⟨RA.KWY_SL_CTL, 31, 31⟩
def KWY_SL_CTL_SLOT : RegField := ⟨RA.KWY_SL_CTL, 29, 24⟩
def KWY_SL_CTL_OP : RegField := ⟨RA.KWY_SL_CTL, 1, 0⟩
def KWY_SL_STAT_CODE : RegField := ⟨RA.KWY_SL_STAT, 31, 16⟩
def KWY_SL_STAT_DONE : RegField := ⟨RA.KWY_SL_STAT, 1, 1⟩
def KWY_SL_STAT_BUSY : RegField := ⟨RA.KWY_SL_STAT, 0, 0⟩
def KWY_SL_ENV_LO_ADDR : RegField := ⟨RA.KWY_SL_ENV_LO, 31, 6⟩
def KWY_SL_ENV_HI_ADDR : RegField := ⟨RA.KWY_SL_ENV_HI, 31, 0⟩
def KWY_SL_BLOB_LO_ADDR : RegField := ⟨RA.KWY_SL_BLOB_LO, 31, 12⟩
def KWY_SL_BLOB_HI_ADDR : RegField := ⟨RA.KWY_SL_BLOB_HI, 31, 0⟩
def KWY_SL_DST_LO_ADDR : RegField := ⟨RA.KWY_SL_DST_LO, 31, 0⟩
def KWY_SL_DST_HI_ADDR : RegField := ⟨RA.KWY_SL_DST_HI, 24, 0⟩
def KWY_SL_CTX_UNIT : RegField := ⟨RA.KWY_SL_CTX, 17, 8⟩
def KWY_SL_CTX_CTX : RegField := ⟨RA.KWY_SL_CTX, 7, 0⟩
def KWY_SL_CHUNKS_COUNT : RegField := ⟨RA.KWY_SL_CHUNKS, 31, 0⟩
def KWY_ERASE_GO : RegField := ⟨RA.KWY_ERASE, 31, 31⟩
def KWY_ERASE_PART : RegField := ⟨RA.KWY_ERASE, 5, 0⟩
def KWY_RELEASES_COUNT : RegField := ⟨RA.KWY_RELEASES, 31, 0⟩
def KWY_GEN_GEN (i : Nat) : RegField := ⟨(RA.KWY_GEN i), 31, 0⟩
def KWY_REFUSALS_COUNT : RegField := ⟨RA.KWY_REFUSALS, 31, 0⟩
def KWY_ERASES_COUNT : RegField := ⟨RA.KWY_ERASES, 31, 0⟩
def KWY_ARB_COMMITS_COUNT : RegField := ⟨RA.KWY_ARB_COMMITS, 31, 0⟩
def KWY_PMEAS_DATA (i : Nat) (j : Nat) : RegField := ⟨(RA.KWY_PMEAS i j), 31, 0⟩
def KWY_WK_VALID (i : Nat) : RegField := ⟨(RA.KWY_WK i), 6, 6⟩
def KWY_WK_PART (i : Nat) : RegField := ⟨(RA.KWY_WK i), 5, 0⟩
def MGT_BOOT_STAT_CODE : RegField := ⟨RA.MGT_BOOT_STAT, 31, 16⟩
def MGT_BOOT_STAT_FATAL : RegField := ⟨RA.MGT_BOOT_STAT, 10, 10⟩
def MGT_BOOT_STAT_FW_RUNNING : RegField := ⟨RA.MGT_BOOT_STAT, 9, 9⟩
def MGT_BOOT_STAT_WARM : RegField := ⟨RA.MGT_BOOT_STAT, 8, 8⟩
def MGT_BOOT_STAT_STEP : RegField := ⟨RA.MGT_BOOT_STAT, 3, 0⟩
def MGT_BOOT_CTL_REPUSH : RegField := ⟨RA.MGT_BOOT_CTL, 1, 1⟩
def MGT_BOOT_CTL_WARM_GO : RegField := ⟨RA.MGT_BOOT_CTL, 0, 0⟩
def MGT_FW_ADDR_LO_ADDR : RegField := ⟨RA.MGT_FW_ADDR_LO, 31, 12⟩
def MGT_FW_ADDR_HI_ADDR : RegField := ⟨RA.MGT_FW_ADDR_HI, 31, 0⟩
def MGT_FW_SIZE_SIZE : RegField := ⟨RA.MGT_FW_SIZE, 25, 0⟩
def MGT_FW_GO_GO : RegField := ⟨RA.MGT_FW_GO, 0, 0⟩
def MGT_COLD_STARTS_COUNT : RegField := ⟨RA.MGT_COLD_STARTS, 31, 0⟩
def MGT_WARM_STARTS_COUNT : RegField := ⟨RA.MGT_WARM_STARTS, 31, 0⟩
def MGT_STEP_TIME_US (i : Nat) : RegField := ⟨(RA.MGT_STEP_TIME i), 31, 0⟩
def MGT_ALERT_PENDING : RegField := ⟨RA.MGT_ALERT, 31, 16⟩
def MGT_ALERT_ASSERTED : RegField := ⟨RA.MGT_ALERT, 0, 0⟩
def MGT_WDOG_EXPIRED : RegField := ⟨RA.MGT_WDOG, 3, 0⟩
def MGT_BB_HEAD_LO_INDEX : RegField := ⟨RA.MGT_BB_HEAD_LO, 31, 0⟩
def MGT_BB_HEAD_HI_INDEX : RegField := ⟨RA.MGT_BB_HEAD_HI, 31, 0⟩
def MGT_BB_OLDEST_LO_INDEX : RegField := ⟨RA.MGT_BB_OLDEST_LO, 31, 0⟩
def MGT_BB_OLDEST_HI_INDEX : RegField := ⟨RA.MGT_BB_OLDEST_HI, 31, 0⟩
def MGT_BB_STAT_BUFFERED : RegField := ⟨RA.MGT_BB_STAT, 31, 16⟩
def MGT_BB_STAT_RD_BUSY : RegField := ⟨RA.MGT_BB_STAT, 2, 2⟩
def MGT_BB_STAT_ERASING : RegField := ⟨RA.MGT_BB_STAT, 1, 1⟩
def MGT_BB_STAT_READY : RegField := ⟨RA.MGT_BB_STAT, 0, 0⟩
def MGT_BB_LOST_COUNT : RegField := ⟨RA.MGT_BB_LOST, 31, 0⟩
def MGT_BB_SUPPRESSED_COUNT : RegField := ⟨RA.MGT_BB_SUPPRESSED, 31, 0⟩
def MGT_BB_WRITTEN_COUNT : RegField := ⟨RA.MGT_BB_WRITTEN, 31, 0⟩
def MGT_BB_RD_IDX_LO_INDEX : RegField := ⟨RA.MGT_BB_RD_IDX_LO, 31, 0⟩
def MGT_BB_RD_IDX_HI_INDEX : RegField := ⟨RA.MGT_BB_RD_IDX_HI, 31, 0⟩
def MGT_BB_RD_DATA_DATA (i : Nat) : RegField := ⟨(RA.MGT_BB_RD_DATA i), 31, 0⟩
def MGT_LANE_A_FREE_MIN (i : Nat) : RegField := ⟨(RA.MGT_LANE_A i), 31, 24⟩
def MGT_LANE_A_SPARED (i : Nat) : RegField := ⟨(RA.MGT_LANE_A i), 15, 8⟩
def MGT_LANE_A_BUNDLES (i : Nat) : RegField := ⟨(RA.MGT_LANE_A i), 7, 0⟩
def MGT_LANE_RT_COUNT (i : Nat) : RegField := ⟨(RA.MGT_LANE_RT i), 31, 0⟩
def PWR_S_TEMP_HOT (i : Nat) : RegField := ⟨(RA.PWR_S_TEMP i), 8, 8⟩
def PWR_S_TEMP_T (i : Nat) : RegField := ⟨(RA.PWR_S_TEMP i), 7, 0⟩
def PWR_PD_TEMP_T (i : Nat) : RegField := ⟨(RA.PWR_PD_TEMP i), 7, 0⟩
def PTL_MAP_ID_LO_WORD (i : Nat) : RegField := ⟨(RA.PTL_MAP_ID_LO i), 31, 0⟩
def PTL_MAP_ID_HI_WORD (i : Nat) : RegField := ⟨(RA.PTL_MAP_ID_HI i), 31, 0⟩
def PTL_MAP_PHYS_WORD (i : Nat) : RegField := ⟨(RA.PTL_MAP_PHYS i), 31, 0⟩
def PTL_MAP_VALID_VALID (i : Nat) : RegField := ⟨(RA.PTL_MAP_VALID i), 0, 0⟩
def PTL_RELAY_LO_WORD (i : Nat) : RegField := ⟨(RA.PTL_RELAY_LO i), 31, 0⟩
def PTL_RELAY_HI_REMOTE (i : Nat) : RegField := ⟨(RA.PTL_RELAY_HI i), 14, 0⟩
def VF_HIF_EV_BASE_LO_BASE (i : Nat) : RegField := ⟨(RA.VF_HIF_EV_BASE_LO i), 31, 12⟩
def VF_HIF_EV_BASE_HI_BASE (i : Nat) : RegField := ⟨(RA.VF_HIF_EV_BASE_HI i), 31, 0⟩
def VF_HIF_EV_CFG_EN (i : Nat) : RegField := ⟨(RA.VF_HIF_EV_CFG i), 31, 31⟩
def VF_HIF_EV_CFG_LOG2 (i : Nat) : RegField := ⟨(RA.VF_HIF_EV_CFG i), 3, 0⟩
def VF_HIF_EV_HEAD_HEAD (i : Nat) : RegField := ⟨(RA.VF_HIF_EV_HEAD i), 15, 0⟩
def VF_HIF_EV_TAIL_TAIL (i : Nat) : RegField := ⟨(RA.VF_HIF_EV_TAIL i), 15, 0⟩
def VF_HIF_EV_LOST_COUNT (i : Nat) : RegField := ⟨(RA.VF_HIF_EV_LOST i), 31, 0⟩
def VF_HIF_NT_BASE_LO_BASE (i : Nat) : RegField := ⟨(RA.VF_HIF_NT_BASE_LO i), 31, 12⟩
def VF_HIF_NT_BASE_HI_BASE (i : Nat) : RegField := ⟨(RA.VF_HIF_NT_BASE_HI i), 31, 0⟩
def VF_HIF_NT_CFG_EN (i : Nat) : RegField := ⟨(RA.VF_HIF_NT_CFG i), 31, 31⟩
def VF_HIF_NT_CFG_LOG2 (i : Nat) : RegField := ⟨(RA.VF_HIF_NT_CFG i), 3, 0⟩
def VF_HIF_NT_HEAD_HEAD (i : Nat) : RegField := ⟨(RA.VF_HIF_NT_HEAD i), 15, 0⟩
def VF_HIF_NT_TAIL_TAIL (i : Nat) : RegField := ⟨(RA.VF_HIF_NT_TAIL i), 15, 0⟩
def VF_HIF_NT_LOST_COUNT (i : Nat) : RegField := ⟨(RA.VF_HIF_NT_LOST i), 31, 0⟩

end RF

def regRows0 : List RegRow :=
  [ ⟨0x1180000, [(0x40, 14)], 0x0, 0x4, 0x0, 0x0, 0x0, 0x0⟩,
    ⟨0x1180004, [(0x40, 14)], 0x0, 0x0, 0x0, 0x0, 0x0, 0x0⟩,
    ⟨0x1180008, [(0x40, 14)], 0x0, 0x0, 0x0, 0x0, 0x0, 0x0⟩,
    ⟨0x118000C, [(0x40, 14)], 0x0, 0x0, 0x0, 0x0, 0x0, 0x0⟩,
    ⟨0x1180010, [(0x40, 14)], 0x0, 0x0, 0x0, 0x0, 0x0, 0x0⟩,
    ⟨0x1180014, [(0x40, 14)], 0x0, 0x0, 0x0, 0x0, 0xFFFF, 0x808⟩,
    ⟨0x100000, [], 0x100, 0x0, 0x0, 0x200, 0x0, 0x0⟩,
    ⟨0x100004, [], 0x0, 0x0, 0x0, 0x0, 0x0, 0x0⟩,
    ⟨0x100008, [], 0x0, 0x0, 0x0, 0x0, 0x0, 0x0⟩,
    ⟨0x10000C, [], 0x0, 0x0, 0x0, 0x0, 0x0, 0x0⟩,
    ⟨0x100010, [], 0x0, 0x0, 0x0, 0x0, 0x0, 0x0⟩,
    ⟨0x100014, [], 0x0, 0x0, 0x0, 0x0, 0x0, 0x0⟩,
    ⟨0x100018, [], 0xFFFFFFFF, 0x0, 0x0, 0x0, 0x0, 0x0⟩,
    ⟨0x10001C, [], 0xFFFFFFFF, 0x0, 0x0, 0x0, 0x0, 0x0⟩,
    ⟨0x100020, [], 0x0, 0xF00, 0x0, 0x0, 0x0, 0x0⟩,
    ⟨0x100024, [], 0x0, 0x0, 0x0, 0x0, 0x0, 0x0⟩,
    ⟨0x100028, [], 0x0, 0x0, 0x0, 0x0, 0x0, 0x0⟩,
    ⟨0x10002C, [], 0x0, 0x0, 0x0, 0x0, 0x0, 0x0⟩,
    ⟨0x100030, [], 0x0, 0x0, 0x0, 0x0, 0x0, 0x0⟩,
    ⟨0x100034, [], 0xFF01, 0x0, 0x0, 0x0, 0x0, 0x0⟩,
    ⟨0x100038, [], 0xFFFFF000, 0x0, 0x0, 0x0, 0x0, 0x0⟩,
    ⟨0x10003C, [], 0x1FFFFFF, 0x0, 0x0, 0x0, 0x0, 0x0⟩,
    ⟨0x100040, [], 0x0, 0x0, 0x0, 0x0, 0x0, 0x0⟩,
    ⟨0x100044, [], 0x0, 0x0, 0x0, 0x0, 0x0, 0x0⟩,
    ⟨0x100048, [], 0x3FFFF, 0x0, 0x0, 0x0, 0x0, 0x0⟩,
    ⟨0x101000, [(0x20, 1024)], 0x0, 0x8, 0x0, 0x0, 0x0, 0x0⟩,
    ⟨0x101004, [(0x20, 1024)], 0x0, 0x0, 0x0, 0x0, 0x0, 0x0⟩,
    ⟨0x101008, [(0x20, 1024)], 0x0, 0x0, 0x0, 0x0, 0x0, 0x0⟩,
    ⟨0x10100C, [(0x20, 1024)], 0x0, 0x0, 0x0, 0x0, 0x0, 0x0⟩,
    ⟨0x101010, [(0x20, 1024)], 0x0, 0x0, 0x0, 0x0, 0x0, 0x0⟩,
    ⟨0x101014, [(0x20, 1024)], 0x0, 0x0, 0x0, 0x0, 0x0, 0x0⟩,
    ⟨0x101018, [(0x20, 1024)], 0x0, 0x0, 0x0, 0x0, 0x0, 0x0⟩,
    ⟨0x10101C, [(0x20, 1024)], 0xFFFFFFFF, 0x0, 0x0, 0x0, 0x0, 0x0⟩,
    ⟨0x200000, [], 0x0, 0x8, 0x0, 0x0, 0x0, 0x0⟩,
    ⟨0x200004, [], 0x0, 0x0, 0x0, 0x1, 0x0, 0x0⟩,
    ⟨0x200008, [], 0xFFFFFFC0, 0x0, 0x0, 0x0, 0x0, 0x0⟩,
    ⟨0x20000C, [], 0xFFFFFFFF, 0x0, 0x0, 0x0, 0x0, 0x0⟩,
    ⟨0x200010, [], 0x1FFFFFF, 0x0, 0x0, 0x0, 0x0, 0x0⟩,
    ⟨0x200014, [], 0x0, 0x0, 0x0, 0x0, 0x0, 0x0⟩,
    ⟨0x200018, [], 0x0, 0x0, 0x0, 0x0, 0x0, 0x0⟩ ]

def regRows1 : List RegRow :=
  [ ⟨0x20001C, [], 0x0, 0x0, 0x0, 0x0, 0x0, 0x0⟩,
    ⟨0x200020, [], 0x0, 0x0, 0x0, 0x0, 0x0, 0x0⟩,
    ⟨0x200024, [], 0x800003FF, 0x0, 0x0, 0x0, 0x0, 0x0⟩,
    ⟨0x200028, [], 0x0, 0x0, 0x0, 0x0, 0x0, 0x0⟩,
    ⟨0x20002C, [], 0x0, 0x0, 0x0, 0x0, 0x0, 0x0⟩,
    ⟨0x200030, [], 0x0, 0x0, 0x0, 0x0, 0x0, 0x0⟩,
    ⟨0x200034, [], 0x0, 0x0, 0x0, 0x0, 0x0, 0x0⟩,
    ⟨0x200038, [], 0x0, 0x0, 0x0, 0x0, 0x0, 0x0⟩,
    ⟨0x20003C, [], 0x0, 0x0, 0x0, 0x0, 0x0, 0x0⟩,
    ⟨0x200040, [], 0xFFFF, 0x0, 0x0, 0x0, 0x0, 0x0⟩,
    ⟨0x201000, [(0x10, 1024)], 0x0, 0x0, 0x0, 0x0, 0x0, 0x0⟩,
    ⟨0x201004, [(0x10, 1024)], 0x0, 0x0, 0x0, 0x0, 0x0, 0x0⟩,
    ⟨0x201008, [(0x10, 1024)], 0x0, 0x0, 0x0, 0x0, 0x0, 0x0⟩,
    ⟨0x2000000, [(0x4000, 512)], 0x0, 0x8, 0x0, 0x0, 0x0, 0x0⟩,
    ⟨0x2000004, [(0x4000, 512)], 0x0, 0x0, 0x0, 0x0, 0x0, 0x0⟩,
    ⟨0x2000008, [(0x4000, 512)], 0x0, 0x0, 0x0, 0x0, 0x0, 0x0⟩,
    ⟨0x200000C, [(0x4000, 512)], 0x0, 0x0, 0x0, 0x0, 0x0, 0x0⟩,
    ⟨0x2000010, [(0x4000, 512), (0x8, 8)], 0xFFFFF000, 0x0, 0x0, 0x0, 0x0, 0x0⟩,
    ⟨0x2000014, [(0x4000, 512), (0x8, 8)], 0x1FFFFFF, 0x0, 0x0, 0x0, 0x0, 0x0⟩,
    ⟨0x2000050, [(0x4000, 512)], 0x0, 0x0, 0x0, 0x0, 0x0, 0x0⟩,
    ⟨0x2000054, [(0x4000, 512)], 0x0, 0x0, 0x0, 0x0, 0x0, 0x0⟩,
    ⟨0x2000058, [(0x4000, 512)], 0x0, 0x0, 0x0, 0x0, 0x0, 0x0⟩,
    ⟨0x200005C, [(0x4000, 512)], 0x0, 0x0, 0x0, 0x0, 0x0, 0x0⟩,
    ⟨0x2000060, [(0x4000, 512)], 0x0, 0x0, 0x0, 0x0, 0x0, 0x0⟩,
    ⟨0x2000064, [(0x4000, 512)], 0xFFFFFFFF, 0x0, 0x0, 0x0, 0x0, 0x0⟩,
    ⟨0x2000068, [(0x4000, 512)], 0x0, 0x0, 0x0, 0x0, 0x0, 0x0⟩,
    ⟨0x210000, [(0x4, 1024)], 0x7, 0x0, 0x0, 0x0, 0x0, 0x0⟩,
    ⟨0x2000100, [(0x4000, 512), (0x20, 4)], 0x0, 0x0, 0x0, 0x0, 0x0, 0x0⟩,
    ⟨0x2000104, [(0x4000, 512), (0x20, 4)], 0x0, 0x0, 0x0, 0x0, 0x0, 0x0⟩,
    ⟨0x2000108, [(0x4000, 512), (0x20, 4)], 0x0, 0x0, 0x0, 0x0, 0x0, 0x0⟩,
    ⟨0x200010C, [(0x4000, 512), (0x20, 4)], 0x0, 0x0, 0x0, 0x0, 0x0, 0x0⟩,
    ⟨0x2000110, [(0x4000, 512), (0x20, 4)], 0x0, 0x0, 0x0, 0x0, 0x0, 0x0⟩,
    ⟨0x2000114, [(0x4000, 512), (0x20, 4)], 0x0, 0x0, 0x0, 0x0, 0x0, 0x0⟩,
    ⟨0x2000180, [(0x4000, 512), (0x20, 4)], 0x0, 0x0, 0x0, 0x0, 0x0, 0x0⟩,
    ⟨0x2000184, [(0x4000, 512), (0x20, 4)], 0x0, 0x0, 0x0, 0x0, 0x0, 0x0⟩,
    ⟨0x2000188, [(0x4000, 512), (0x20, 4)], 0x0, 0x0, 0x0, 0x0, 0x0, 0x0⟩,
    ⟨0x200018C, [(0x4000, 512), (0x20, 4)], 0x0, 0x0, 0x0, 0x0, 0x0, 0x0⟩,
    ⟨0x2000190, [(0x4000, 512), (0x20, 4)], 0x0, 0x0, 0x0, 0x0, 0x0, 0x0⟩,
    ⟨0x2000194, [(0x4000, 512), (0x20, 4)], 0x0, 0x0, 0x0, 0x0, 0x0, 0x0⟩,
    ⟨0x3000000, [(0x10000, 128)], 0x0, 0x8, 0x0, 0x0, 0x0, 0x0⟩ ]

def regRows2 : List RegRow :=
  [ ⟨0x3000004, [(0x10000, 128)], 0x0, 0x0, 0x0, 0x0, 0x0, 0x0⟩,
    ⟨0x3000010, [(0x10000, 128), (0x8, 8)], 0xFFFFF000, 0x0, 0x0, 0x0, 0x0, 0x0⟩,
    ⟨0x3000014, [(0x10000, 128), (0x8, 8)], 0x1FFFFFF, 0x0, 0x0, 0x0, 0x0, 0x0⟩,
    ⟨0x3000050, [(0x10000, 128)], 0x0, 0x0, 0x0, 0x0, 0x0, 0x0⟩,
    ⟨0x3000054, [(0x10000, 128)], 0x0, 0x0, 0x0, 0x0, 0x0, 0x0⟩,
    ⟨0x3000058, [(0x10000, 128)], 0x0, 0x0, 0x0, 0x0, 0x0, 0x0⟩,
    ⟨0x300005C, [(0x10000, 128)], 0x0, 0x0, 0x0, 0x0, 0x0, 0x0⟩,
    ⟨0x3000060, [(0x10000, 128)], 0x0, 0x0, 0x0, 0x0, 0x0, 0x0⟩,
    ⟨0x3000064, [(0x10000, 128)], 0x0, 0x0, 0x0, 0x0, 0x0, 0x0⟩,
    ⟨0x3000068, [(0x10000, 128)], 0x0, 0x0, 0x0, 0x0, 0x0, 0x0⟩,
    ⟨0x300006C, [(0x10000, 128)], 0x0, 0x0, 0x0, 0x0, 0x0, 0x0⟩,
    ⟨0x3000070, [(0x10000, 128)], 0x0, 0x0, 0x0, 0x0, 0x0, 0x0⟩,
    ⟨0xA00000, [], 0x0, 0x0, 0x0, 0x0, 0x0, 0x0⟩,
    ⟨0xA00004, [], 0x7, 0x0, 0x0, 0x0, 0x0, 0x6⟩,
    ⟨0xA00008, [], 0xFFFF, 0x0, 0x0, 0x0, 0x0, 0x100⟩,
    ⟨0xA0000C, [], 0x0, 0x0, 0x0, 0x80001F1F, 0x0, 0x0⟩,
    ⟨0xA00010, [], 0x0, 0x0, 0x0, 0x0, 0x0, 0x0⟩,
    ⟨0xA00014, [], 0x0, 0x0, 0x0, 0x0, 0x0, 0x0⟩,
    ⟨0xA00018, [], 0x0, 0x0, 0x0, 0x0, 0x0, 0x0⟩,
    ⟨0xA0001C, [], 0x0, 0x0, 0x0, 0x0, 0x0, 0x0⟩,
    ⟨0xA00020, [], 0x0, 0x0, 0x0, 0x0, 0x0, 0x0⟩,
    ⟨0xA00024, [], 0x0, 0x0, 0x0, 0x0, 0x0, 0x0⟩,
    ⟨0xA00028, [], 0x0, 0x0, 0x0, 0x0, 0x0, 0x0⟩,
    ⟨0xA0002C, [], 0x0, 0x0, 0x0, 0x0, 0x0, 0x0⟩,
    ⟨0xA00040, [(0x10, 16)], 0x0, 0x0, 0x0, 0x0, 0xFFFF, 0x0⟩,
    ⟨0xA00044, [(0x10, 16)], 0x0, 0x0, 0x0, 0x0, 0xFFFF, 0x0⟩,
    ⟨0xA00048, [(0x10, 16)], 0x0, 0x0, 0x0, 0x0, 0xFF, 0x0⟩,
    ⟨0xA01000, [(0x200, 8)], 0x0, 0x0, 0x0, 0x0, 0x0, 0x0⟩,
    ⟨0xA01004, [(0x200, 8)], 0x0, 0x0, 0x0, 0x0, 0x0, 0x0⟩,
    ⟨0xA01008, [(0x200, 8)], 0x0, 0x0, 0x0, 0x0, 0x0, 0x0⟩,
    ⟨0xA0100C, [(0x200, 8)], 0x0, 0x0, 0x0, 0x0, 0x0, 0x0⟩,
    ⟨0xA01010, [(0x200, 8)], 0x0, 0x0, 0x0, 0x0, 0x0, 0x0⟩,
    ⟨0xA01014, [(0x200, 8)], 0x0, 0x0, 0x0, 0x0, 0x0, 0x0⟩,
    ⟨0xA01040, [(0x200, 8), (0x18, 6)], 0x0, 0x0, 0x0, 0x0, 0x0, 0x0⟩,
    ⟨0xA01044, [(0x200, 8), (0x18, 6)], 0x0, 0x0, 0x0, 0x0, 0x0, 0x0⟩,
    ⟨0xA01048, [(0x200, 8), (0x18, 6)], 0x0, 0x0, 0x0, 0x0, 0x0, 0x0⟩,
    ⟨0xA0104C, [(0x200, 8), (0x18, 6)], 0x0, 0x0, 0x0, 0x0, 0x0, 0x0⟩,
    ⟨0xA01050, [(0x200, 8), (0x18, 6)], 0x0, 0x0, 0x0, 0x0, 0x0, 0x0⟩,
    ⟨0xA01054, [(0x200, 8), (0x18, 6)], 0x0, 0x0, 0x0, 0x0, 0x0, 0x0⟩,
    ⟨0xA10000, [(0x100, 32)], 0x0, 0x0, 0x0, 0x0, 0x0, 0x0⟩ ]

def regRows3 : List RegRow :=
  [ ⟨0xA10004, [(0x100, 32)], 0x0, 0x0, 0x0, 0x0, 0x0, 0x0⟩,
    ⟨0xA10008, [(0x100, 32)], 0x0, 0x0, 0x0, 0x0, 0x0, 0x0⟩,
    ⟨0xA1000C, [(0x100, 32)], 0x0, 0x0, 0x0, 0x0, 0x0, 0x0⟩,
    ⟨0xA10010, [(0x100, 32)], 0x0, 0x0, 0x0, 0x0, 0x0, 0x0⟩,
    ⟨0xA10014, [(0x100, 32)], 0x0, 0x0, 0x0, 0x0, 0x0, 0x0⟩,
    ⟨0xA10018, [(0x100, 32)], 0x0, 0x0, 0x0, 0x0, 0x0, 0x0⟩,
    ⟨0xA10080, [(0x100, 32), (0x4, 32)], 0x0, 0x0, 0x0, 0x0, 0x0, 0x0⟩,
    ⟨0xA20000, [(0x40, 64)], 0x0, 0x0, 0x0, 0x0, 0x0, 0x0⟩,
    ⟨0xA20008, [(0x40, 64)], 0x0, 0x0, 0x0, 0x0, 0x0, 0x0⟩,
    ⟨0xA2000C, [(0x40, 64)], 0x0, 0x0, 0x0, 0x0, 0x0, 0x0⟩,
    ⟨0xA20010, [(0x40, 64)], 0x0, 0x0, 0x0, 0x0, 0x0, 0x0⟩,
    ⟨0xA20014, [(0x40, 64)], 0x0, 0x0, 0x0, 0x0, 0x0, 0x0⟩,
    ⟨0xA20018, [(0x40, 64)], 0x0, 0x0, 0x0, 0x0, 0x0, 0x0⟩,
    ⟨0xC00000, [], 0xFF, 0x0, 0x0, 0x0, 0x0, 0x32⟩,
    ⟨0xC00004, [], 0x0, 0x1, 0x0, 0x0, 0x0, 0x0⟩,
    ⟨0xC00008, [], 0x0, 0x0, 0x0, 0x8000017F, 0x0, 0x0⟩,
    ⟨0xC0000C, [], 0x0, 0x0, 0x0, 0x0, 0x0, 0x0⟩,
    ⟨0xC00010, [(0x4, 4)], 0x0, 0x0, 0x0, 0x0, 0x0, 0x0⟩,
    ⟨0xC01000, [(0x100, 2)], 0x0, 0x0, 0x0, 0x0, 0x0, 0x0⟩,
    ⟨0xC01004, [(0x100, 2)], 0x0, 0x0, 0x0, 0x0, 0x0, 0x0⟩,
    ⟨0xC01008, [(0x100, 2)], 0x0, 0x0, 0x0, 0x0, 0x0, 0x0⟩,
    ⟨0xC0100C, [(0x100, 2)], 0x0, 0x0, 0x0, 0x0, 0x0, 0x0⟩,
    ⟨0xC01010, [(0x100, 2)], 0x0, 0x0, 0x0, 0x0, 0x0, 0x0⟩,
    ⟨0xC01014, [(0x100, 2)], 0x0, 0x0, 0x0, 0x0, 0x0, 0x0⟩,
    ⟨0xC01018, [(0x100, 2)], 0x0, 0x0, 0x0, 0x0, 0x0, 0x0⟩,
    ⟨0xC0101C, [(0x100, 2)], 0x0, 0x0, 0x0, 0x0, 0x0, 0x0⟩,
    ⟨0xC01020, [(0x100, 2)], 0x0, 0x0, 0x0, 0x0, 0x0, 0x0⟩,
    ⟨0xC01024, [(0x100, 2)], 0x0, 0x0, 0x0, 0x0, 0x0, 0x0⟩,
    ⟨0xC01028, [(0x100, 2)], 0x0, 0x0, 0x0, 0x0, 0x0, 0x0⟩,
    ⟨0xC0102C, [(0x100, 2)], 0x0, 0x0, 0x0, 0x0, 0x0, 0x0⟩,
    ⟨0x800000, [], 0x0, 0x0, 0x0, 0x0, 0x0, 0x0⟩,
    ⟨0x800004, [], 0xFFFF, 0x0, 0x0, 0x0, 0x0, 0x64⟩,
    ⟨0x800008, [], 0x0, 0x0, 0x0, 0x0, 0x0, 0x0⟩,
    ⟨0x80000C, [], 0x0, 0x0, 0x0, 0x0, 0x0, 0x0⟩,
    ⟨0x800010, [], 0xFFFFFFFF, 0x0, 0x0, 0x0, 0x0, 0x0⟩,
    ⟨0x800014, [], 0x0, 0x0, 0x0, 0xC000FFFF, 0x0, 0x0⟩,
    ⟨0x800018, [], 0x0, 0x0, 0x0, 0x0, 0x0, 0x0⟩,
    ⟨0x80001C, [], 0x0, 0x0, 0x0, 0x0, 0x0, 0x0⟩,
    ⟨0x800020, [], 0x0, 0x0, 0x0, 0x0, 0x0, 0x0⟩,
    ⟨0x800024, [], 0x0, 0x0, 0x0, 0x0, 0x0, 0x0⟩ ]

def regRows4 : List RegRow :=
  [ ⟨0x800028, [], 0x3FFFF, 0x0, 0x0, 0x0, 0x0, 0x0⟩,
    ⟨0x80002C, [], 0x7FFFF, 0x0, 0x0, 0x0, 0x0, 0x0⟩,
    ⟨0x800030, [(0x4, 8)], 0x0, 0x0, 0x0, 0x0, 0x0, 0x0⟩,
    ⟨0x801000, [(0x100, 2)], 0x0, 0x0, 0x0, 0x0, 0x0, 0x0⟩,
    ⟨0x801004, [(0x100, 2)], 0x0, 0x0, 0x0, 0x0, 0x0, 0x0⟩,
    ⟨0x801008, [(0x100, 2)], 0x0, 0x0, 0x0, 0x0, 0x0, 0x0⟩,
    ⟨0x80100C, [(0x100, 2)], 0x0, 0x0, 0x0, 0x0, 0x0, 0x0⟩,
    ⟨0x400000, [(0x10, 32768)], 0xFFFF0037, 0x0, 0x0, 0x0, 0x0, 0x0⟩,
    ⟨0x400004, [(0x10, 32768)], 0x0, 0x0, 0x0, 0x0, 0x0, 0x0⟩,
    ⟨0x400008, [(0x10, 32768)], 0xFFFFFFFF, 0x0, 0x0, 0x0, 0x0, 0x0⟩,
    ⟨0x40000C, [(0x10, 32768)], 0x0, 0x0, 0x0, 0xFFFFFFFF, 0x0, 0x0⟩,
    ⟨0x1190000, [(0x40, 2)], 0x0, 0x0, 0x0, 0x0, 0x0, 0x0⟩,
    ⟨0x1190004, [(0x40, 2)], 0x0, 0x0, 0x0, 0x0, 0x0, 0x0⟩,
    ⟨0x1190008, [(0x40, 2)], 0x0, 0x0, 0x0, 0x0, 0x0, 0x0⟩,
    ⟨0x119000C, [(0x40, 2)], 0x0, 0x0, 0x0, 0x0, 0x0, 0x0⟩,
    ⟨0x1190010, [(0x40, 2)], 0x0, 0x0, 0x0, 0x0, 0x0, 0x0⟩,
    ⟨0x0, [], 0x0, 0x0, 0x0, 0x0, 0x0, 0x0⟩,
    ⟨0x4, [], 0x0, 0x0, 0x0, 0x0, 0x0, 0x0⟩,
    ⟨0x8, [], 0x0, 0x0, 0x0, 0x0, 0x0, 0x0⟩,
    ⟨0x10, [], 0x0, 0x0, 0x0, 0x0, 0x0, 0x0⟩,
    ⟨0x14, [], 0x0, 0x0, 0x0, 0x0, 0x0, 0x0⟩,
    ⟨0x18, [], 0x0, 0x0, 0x0, 0x0, 0x0, 0x0⟩,
    ⟨0x1C, [], 0x0, 0x0, 0x0, 0x0, 0x0, 0x0⟩,
    ⟨0x20, [], 0x0, 0x0, 0x0, 0x0, 0x0, 0x0⟩,
    ⟨0x24, [], 0x0, 0x0, 0x0, 0x0, 0x0, 0x0⟩,
    ⟨0x28, [], 0x0, 0x0, 0x0, 0x0, 0x0, 0x0⟩,
    ⟨0x100, [], 0xFFFFF000, 0x0, 0x0, 0x0, 0x0, 0x0⟩,
    ⟨0x104, [], 0xFFFFFFFF, 0x0, 0x0, 0x0, 0x0, 0x0⟩,
    ⟨0x108, [], 0x8000000F, 0x0, 0x0, 0x0, 0x0, 0x6⟩,
    ⟨0x10C, [], 0xFFFF, 0x0, 0x0, 0x0, 0x0, 0x0⟩,
    ⟨0x110, [], 0x0, 0x0, 0x0, 0x0, 0x0, 0x0⟩,
    ⟨0x114, [], 0x0, 0x0, 0x0, 0x0, 0x0, 0x0⟩,
    ⟨0x400, [(0x20, 16)], 0x0, 0x0, 0x0, 0x0, 0x0, 0x0⟩,
    ⟨0x404, [(0x20, 16)], 0x0, 0x0, 0x0, 0x0, 0x0, 0x0⟩,
    ⟨0x408, [(0x20, 16)], 0x0, 0x0, 0x0, 0x0, 0x0, 0x0⟩,
    ⟨0x40C, [(0x20, 16)], 0x0, 0x0, 0x0, 0x0, 0x0, 0x0⟩,
    ⟨0x410, [(0x20, 16)], 0x0, 0x0, 0x0, 0x0, 0x0, 0x0⟩,
    ⟨0x10000, [(0x40, 4096)], 0xFFFFF000, 0x0, 0x0, 0x0, 0x0, 0x0⟩,
    ⟨0x10004, [(0x40, 4096)], 0xFFFFFFFF, 0x0, 0x0, 0x0, 0x0, 0x0⟩,
    ⟨0x10008, [(0x40, 4096)], 0xFFFFF000, 0x0, 0x0, 0x0, 0x0, 0x0⟩ ]

def regRows5 : List RegRow :=
  [ ⟨0x1000C, [(0x40, 4096)], 0xFFFFFFFF, 0x0, 0x0, 0x0, 0x0, 0x0⟩,
    ⟨0x10010, [(0x40, 4096)], 0x80FF00FF, 0x0, 0x0, 0x0, 0x0, 0x440000⟩,
    ⟨0x10014, [(0x40, 4096)], 0x0, 0x0, 0x0, 0x0, 0x0, 0x0⟩,
    ⟨0x10018, [(0x40, 4096)], 0x0, 0x0, 0x0, 0x0, 0x0, 0x0⟩,
    ⟨0x1001C, [(0x40, 4096)], 0x0, 0x0, 0x0, 0x0, 0x0, 0x0⟩,
    ⟨0x10020, [(0x40, 4096)], 0xFFFFFFFF, 0x0, 0x0, 0x0, 0x0, 0x0⟩,
    ⟨0x10024, [(0x40, 4096)], 0x0, 0x0, 0x0, 0x0, 0x0, 0x0⟩,
    ⟨0x10028, [(0x40, 4096)], 0x0, 0x0, 0x0, 0x0, 0x0, 0x0⟩,
    ⟨0xE00000, [], 0x0, 0x0, 0x0, 0x0, 0x0, 0x0⟩,
    ⟨0xE00004, [], 0xFFFF, 0x0, 0x0, 0x0, 0x0, 0x0⟩,
    ⟨0xE00008, [], 0x0, 0x0, 0x0, 0x0, 0xFFFFFFFF, 0x0⟩,
    ⟨0xE0000C, [], 0xFFFF, 0x0, 0x0, 0x0, 0x0, 0x0⟩,
    ⟨0xE00010, [], 0xFFFF, 0x0, 0x0, 0x0, 0x0, 0xC8⟩,
    ⟨0xE00014, [], 0x0, 0x0, 0x0, 0x0, 0x0, 0x0⟩,
    ⟨0xE00018, [], 0x0, 0x0, 0x0, 0x0, 0x0, 0x0⟩,
    ⟨0xE0001C, [], 0x0, 0x0, 0x0, 0x0, 0x0, 0x0⟩,
    ⟨0xE00020, [], 0x0, 0x0, 0x0, 0x0, 0x0, 0x0⟩,
    ⟨0xE00024, [], 0x0, 0x0, 0x0, 0x0, 0x0, 0x0⟩,
    ⟨0xE00028, [], 0x0, 0x0, 0x0, 0x0, 0x0, 0x0⟩,
    ⟨0xE0002C, [], 0x0, 0x0, 0x0, 0x0, 0x0, 0x0⟩,
    ⟨0xE00030, [], 0x0, 0x0, 0x0, 0x0, 0x0, 0x0⟩,
    ⟨0xE01000, [(0x40, 16)], 0x0, 0x0, 0x0, 0x0, 0x0, 0x0⟩,
    ⟨0xE01004, [(0x40, 16)], 0x0, 0x0, 0x0, 0x80000000, 0xFFFF, 0x414⟩,
    ⟨0xE01008, [(0x40, 16)], 0x0, 0x0, 0x0, 0x0, 0x0, 0x0⟩,
    ⟨0xE0100C, [(0x40, 16)], 0x0, 0x0, 0x0, 0x0, 0x0, 0x0⟩,
    ⟨0xE01010, [(0x40, 16)], 0x0, 0x0, 0x0, 0x0, 0x0, 0x0⟩,
    ⟨0xE01014, [(0x40, 16)], 0x0, 0x0, 0x0, 0x0, 0x0, 0x0⟩,
    ⟨0xE01018, [(0x40, 16)], 0x0, 0x0, 0x0, 0x0, 0x0, 0x0⟩,
    ⟨0xE0101C, [(0x40, 16)], 0x0, 0x0, 0x0, 0x0, 0x0, 0x0⟩,
    ⟨0xE01020, [(0x40, 16)], 0x0, 0x0, 0x0, 0x0, 0x0, 0x0⟩,
    ⟨0xE01024, [(0x40, 16)], 0x0, 0x0, 0x0, 0x0, 0x0, 0x0⟩,
    ⟨0xD00000, [], 0x0, 0x0, 0x0, 0x0, 0x0, 0x0⟩,
    ⟨0xD00004, [], 0x1F01, 0x0, 0x0, 0x0, 0x0, 0x800⟩,
    ⟨0xD00008, [], 0x1FFF, 0x0, 0x0, 0x0, 0x0, 0x15E0⟩,
    ⟨0xD0000C, [], 0x1FFF, 0x0, 0x0, 0x0, 0x0, 0x1770⟩,
    ⟨0xD00010, [], 0x0, 0x0, 0x0, 0x0, 0x0, 0x15E0⟩,
    ⟨0xD00014, [], 0x0, 0x0, 0x0, 0x0, 0x0, 0x0⟩,
    ⟨0xD00018, [], 0x0, 0x0, 0x0, 0x0, 0x0, 0x0⟩,
    ⟨0xD0001C, [], 0x3FFFFFF, 0x0, 0x0, 0x0, 0x0, 0x1000C8⟩,
    ⟨0xD00020, [], 0x3F, 0x0, 0x0, 0x0, 0x0, 0x20⟩ ]

def regRows6 : List RegRow :=
  [ ⟨0xD00024, [], 0xFF, 0x0, 0x0, 0x0, 0x0, 0x5F⟩,
    ⟨0xD00028, [], 0x0, 0x0, 0x0, 0x0, 0x0, 0x0⟩,
    ⟨0xD00040, [(0x4, 19)], 0x0, 0x0, 0x0, 0x0, 0x0, 0x0⟩,
    ⟨0xD01000, [(0x100, 8)], 0x0, 0x0, 0x0, 0x0, 0x0, 0x8000000⟩,
    ⟨0xD01004, [(0x100, 8)], 0x0, 0x0, 0x0, 0x0, 0x0, 0x0⟩,
    ⟨0xD01008, [(0x100, 8)], 0xFFFF, 0x0, 0x0, 0x0, 0x0, 0x6E645F⟩,
    ⟨0xD0100C, [(0x100, 8)], 0xFFFF3FFF, 0x0, 0x0, 0x0, 0x0, 0x1002028⟩,
    ⟨0xD01010, [(0x100, 8)], 0x0, 0x0, 0x0, 0x0, 0x0, 0x0⟩,
    ⟨0xD01014, [(0x100, 8)], 0x0, 0x0, 0x0, 0x0, 0x0, 0x0⟩,
    ⟨0xD01018, [(0x100, 8)], 0x0, 0x0, 0x0, 0x0, 0x0, 0x0⟩,
    ⟨0xD0101C, [(0x100, 8)], 0x0, 0x0, 0x0, 0x0, 0x0, 0x0⟩,
    ⟨0xD01020, [(0x100, 8)], 0x0, 0x0, 0x0, 0x0, 0x0, 0x0⟩,
    ⟨0xD01024, [(0x100, 8)], 0x0, 0x0, 0x0, 0x0, 0x0, 0x0⟩,
    ⟨0xD01040, [(0x100, 8), (0x4, 17)], 0x0, 0x0, 0x0, 0x0, 0x0, 0x0⟩,
    ⟨0x1000000, [], 0x0, 0x0, 0x0, 0x0, 0x0, 0x0⟩,
    ⟨0x1000004, [], 0x0, 0x0, 0x0, 0x0, 0x0, 0x0⟩,
    ⟨0x1000008, [], 0x0, 0x0, 0x0, 0x0, 0x0, 0x0⟩,
    ⟨0x100000C, [], 0x0, 0x0, 0x0, 0x0, 0x0, 0x0⟩,
    ⟨0x1000010, [], 0x0, 0x0, 0x0, 0x0, 0x0, 0x0⟩,
    ⟨0x1000014, [], 0x0, 0x0, 0x0, 0x0, 0x0, 0x0⟩,
    ⟨0x1000018, [], 0x0, 0x0, 0x0, 0x80000000, 0x0, 0x0⟩,
    ⟨0x1000020, [(0x4, 8)], 0x0, 0x0, 0x0, 0x0, 0x0, 0x0⟩,
    ⟨0x1000040, [(0x4, 8)], 0x0, 0x0, 0x0, 0x0, 0x0, 0x0⟩,
    ⟨0x1000060, [], 0x3F000003, 0x0, 0x0, 0x80000000, 0x0, 0x0⟩,
    ⟨0x1000064, [], 0x0, 0x2, 0x0, 0x0, 0x0, 0x0⟩,
    ⟨0x1000068, [], 0xFFFFFFC0, 0x0, 0x0, 0x0, 0x0, 0x0⟩,
    ⟨0x100006C, [], 0xFFFFFFFF, 0x0, 0x0, 0x0, 0x0, 0x0⟩,
    ⟨0x1000070, [], 0xFFFFF000, 0x0, 0x0, 0x0, 0x0, 0x0⟩,
    ⟨0x1000074, [], 0xFFFFFFFF, 0x0, 0x0, 0x0, 0x0, 0x0⟩,
    ⟨0x1000078, [], 0xFFFFFFFF, 0x0, 0x0, 0x0, 0x0, 0x0⟩,
    ⟨0x100007C, [], 0x1FFFFFF, 0x0, 0x0, 0x0, 0x0, 0x0⟩,
    ⟨0x1000080, [], 0x3FFFF, 0x0, 0x0, 0x0, 0x0, 0x0⟩,
    ⟨0x1000084, [], 0x0, 0x0, 0x0, 0x0, 0x0, 0x0⟩,
    ⟨0x1000088, [], 0x0, 0x0, 0x0, 0x8000003F, 0x0, 0x0⟩,
    ⟨0x100008C, [], 0x0, 0x0, 0x0, 0x0, 0x0, 0x0⟩,
    ⟨0x1000090, [(0x4, 64)], 0x0, 0x0, 0x0, 0x0, 0x0, 0x0⟩,
    ⟨0x1000190, [], 0x0, 0x0, 0x0, 0x0, 0x0, 0x0⟩,
    ⟨0x1000194, [], 0x0, 0x0, 0x0, 0x0, 0x0, 0x0⟩,
    ⟨0x1000198, [], 0x0, 0x0, 0x0, 0x0, 0x0, 0x0⟩,
    ⟨0x1001000, [(0x20, 64), (0x4, 8)], 0x0, 0x0, 0x0, 0x0, 0x0, 0x0⟩ ]

def regRows7 : List RegRow :=
  [ ⟨0x1001800, [(0x4, 64)], 0x0, 0x0, 0x0, 0x0, 0x0, 0x0⟩,
    ⟨0x1100000, [], 0x0, 0x0, 0x0, 0x0, 0x0, 0x1⟩,
    ⟨0x1100004, [], 0x2, 0x0, 0x0, 0x1, 0x0, 0x0⟩,
    ⟨0x1100008, [], 0xFFFFF000, 0x0, 0x0, 0x0, 0x0, 0x0⟩,
    ⟨0x110000C, [], 0xFFFFFFFF, 0x0, 0x0, 0x0, 0x0, 0x0⟩,
    ⟨0x1100010, [], 0x3FFFFFF, 0x0, 0x0, 0x0, 0x0, 0x0⟩,
    ⟨0x1100014, [], 0x0, 0x0, 0x0, 0x1, 0x0, 0x0⟩,
    ⟨0x1100018, [], 0x0, 0x0, 0x0, 0x0, 0x0, 0x0⟩,
    ⟨0x110001C, [], 0x0, 0x0, 0x0, 0x0, 0x0, 0x0⟩,
    ⟨0x1100020, [(0x4, 9)], 0x0, 0x0, 0x0, 0x0, 0x0, 0x0⟩,
    ⟨0x1100044, [], 0x0, 0x1, 0x0, 0x0, 0x0, 0x0⟩,
    ⟨0x1100048, [], 0x0, 0xF, 0x0, 0x0, 0x0, 0x0⟩,
    ⟨0x1100100, [], 0x0, 0x0, 0x0, 0x0, 0x0, 0x0⟩,
    ⟨0x1100104, [], 0x0, 0x0, 0x0, 0x0, 0x0, 0x0⟩,
    ⟨0x1100108, [], 0x0, 0x0, 0x0, 0x0, 0x0, 0x0⟩,
    ⟨0x110010C, [], 0x0, 0x0, 0x0, 0x0, 0x0, 0x0⟩,
    ⟨0x1100110, [], 0x0, 0x0, 0x0, 0x0, 0x0, 0x0⟩,
    ⟨0x1100114, [], 0x0, 0x0, 0x0, 0x0, 0x0, 0x0⟩,
    ⟨0x1100118, [], 0x0, 0x0, 0x0, 0x0, 0x0, 0x0⟩,
    ⟨0x110011C, [], 0x0, 0x0, 0x0, 0x0, 0x0, 0x0⟩,
    ⟨0x1100120, [], 0xFFFFFFFF, 0x0, 0x0, 0x0, 0x0, 0x0⟩,
    ⟨0x1100124, [], 0xFFFFFFFF, 0x0, 0x0, 0x0, 0x0, 0x0⟩,
    ⟨0x1100180, [(0x4, 32)], 0x0, 0x0, 0x0, 0x0, 0x0, 0x0⟩,
    ⟨0x1101000, [(0x10, 14)], 0x0, 0x0, 0x0, 0x0, 0x0, 0x0⟩,
    ⟨0x1101004, [(0x10, 14)], 0x0, 0x0, 0x0, 0x0, 0x0, 0x0⟩,
    ⟨0x1101008, [(0x10, 14)], 0x0, 0x0, 0x0, 0x0, 0x0, 0x0⟩,
    ⟨0x118, [], 0xFFFFF000, 0x0, 0x0, 0x0, 0x0, 0x0⟩,
    ⟨0x11C, [], 0xFFFFFFFF, 0x0, 0x0, 0x0, 0x0, 0x0⟩,
    ⟨0x120, [], 0x8000000F, 0x0, 0x0, 0x0, 0x0, 0x6⟩,
    ⟨0x124, [], 0xFFFF, 0x0, 0x0, 0x0, 0x0, 0x0⟩,
    ⟨0x128, [], 0x0, 0x0, 0x0, 0x0, 0x0, 0x0⟩,
    ⟨0x12C, [], 0x0, 0x0, 0x0, 0x0, 0x0, 0x0⟩,
    ⟨0xD02000, [(0x4, 32)], 0x0, 0x0, 0x0, 0x0, 0x0, 0x0⟩,
    ⟨0xD02100, [(0x4, 2)], 0x0, 0x0, 0x0, 0x0, 0x0, 0x0⟩,
    ⟨0xF00000, [(0x10, 65535)], 0xFFFFFFFF, 0x0, 0x0, 0x0, 0x0, 0x0⟩,
    ⟨0xF00004, [(0x10, 65535)], 0xFFFFFFFF, 0x0, 0x0, 0x0, 0x0, 0x0⟩,
    ⟨0xF00008, [(0x10, 65535)], 0xFFFFFFFF, 0x0, 0x0, 0x0, 0x0, 0x0⟩,
    ⟨0xF0000C, [(0x10, 65535)], 0x1, 0x0, 0x0, 0x0, 0x0, 0x0⟩,
    ⟨0xE10000, [(0x8, 1024)], 0xFFFFFFFF, 0x0, 0x0, 0x0, 0x0, 0x0⟩,
    ⟨0xE10004, [(0x8, 1024)], 0x7FFF, 0x0, 0x0, 0x0, 0x0, 0x0⟩ ]

def regRows8 : List RegRow :=
  [ ⟨0x10000100, [(0x2000000, 16)], 0xFFFFF000, 0x0, 0x0, 0x0, 0x0, 0x0⟩,
    ⟨0x10000104, [(0x2000000, 16)], 0xFFFFFFFF, 0x0, 0x0, 0x0, 0x0, 0x0⟩,
    ⟨0x10000108, [(0x2000000, 16)], 0x8000000F, 0x0, 0x0, 0x0, 0x0, 0x6⟩,
    ⟨0x1000010C, [(0x2000000, 16)], 0xFFFF, 0x0, 0x0, 0x0, 0x0, 0x0⟩,
    ⟨0x10000110, [(0x2000000, 16)], 0x0, 0x0, 0x0, 0x0, 0x0, 0x0⟩,
    ⟨0x10000114, [(0x2000000, 16)], 0x0, 0x0, 0x0, 0x0, 0x0, 0x0⟩,
    ⟨0x10000118, [(0x2000000, 16)], 0xFFFFF000, 0x0, 0x0, 0x0, 0x0, 0x0⟩,
    ⟨0x1000011C, [(0x2000000, 16)], 0xFFFFFFFF, 0x0, 0x0, 0x0, 0x0, 0x0⟩,
    ⟨0x10000120, [(0x2000000, 16)], 0x8000000F, 0x0, 0x0, 0x0, 0x0, 0x6⟩,
    ⟨0x10000124, [(0x2000000, 16)], 0xFFFF, 0x0, 0x0, 0x0, 0x0, 0x0⟩,
    ⟨0x10000128, [(0x2000000, 16)], 0x0, 0x0, 0x0, 0x0, 0x0, 0x0⟩,
    ⟨0x1000012C, [(0x2000000, 16)], 0x0, 0x0, 0x0, 0x0, 0x0, 0x0⟩ ]

/-- Every register word of the spec. -/
def regRows : List RegRow :=
  regRows0 ++ regRows1 ++ regRows2 ++ regRows3 ++ regRows4 ++ regRows5 ++ regRows6 ++ regRows7 ++ regRows8

/-- Does the offset `o` from a row's address name one of its copies? -/
def regCopy : Nat → List (Nat × Nat) → Bool
  | o, [] => o == 0
  | o, (st, n) :: r => decide (o / st < n) && regCopy (o % st) r

/-- The row of the word at a BAR0 address, if the spec places a register there. -/
def regRowIn (a : Nat) : List RegRow → Option RegRow
  | [] => none
  | r :: rs => if decide (r.addr ≤ a) && regCopy (a - r.addr) r.dims then some r else regRowIn a rs

def regRow (a : Nat) : Option RegRow := regRowIn a regRows

/-- The reset value of the word at a BAR0 address (R11: an address of no register reads 0). -/
def regReset (a : Nat) : Word :=
  match regRow a with
  | some r => BitVec.ofNat 32 r.reset
  | none => 0

end Sys2Proof.Machine
end

