-- ==== Sys2Proof/Machine/TypesA.lean ====
section
/-! DEFINITION. The parts of the state: records, fabric links, tick, dispatch, ward image, ranges, memory, host port,
start and record. Every number whose field the spec gives is a natural number below the field's bound. -/

namespace Sys2Proof.Machine

/-! ### Records (R202) -/

/-- A fault or event record (Table 4.11); `detail` gives bytes 52–63. -/
structure Rec where
  code : Nat
  fault : Bool := false
  precise : Bool := false
  fatal : Bool := false
  terminated : Bool := false
  srcKind : Nat := 0
  srcId : Nat := 0
  unit : Nat := 0
  unitV : Bool := false
  tick : Nat := 0
  offset : Nat := 0
  count : Nat := 1
  pc : Nat := 0
  addr : Nat := 0
  group : Nat := 0
  groupV : Bool := false
  engine : Nat := 0
  engineV : Bool := false
  lanes : Nat := 0
  item : Nat := 0
  detail : List Byte := []
  deriving DecidableEq, Repr

/-! ### Fabric (chapter 1) -/

/-- A fabric block's fields (Table 1.4); its 272 bytes with their CRC are `FabBlock.frame`. -/
structure FabBlock where
  seq : Nat
  vc : Nat
  poison : Bool
  dst : Nat
  src : Nat
  sect : Nat
  tag : Nat
  payload : List Byte
  ack : Option Nat := none
  nak : Bool := false
  idle : Bool := false
  deriving DecidableEq, Repr

/-- One direction of a link: its sender (replay buffer, oldest first) and its receiver (R31 to R41). `waiting` are the blocks of a link that
went down which the sender has no room for yet; `expired` counts the timeouts since the last ACK advance. -/
structure LinkDir where
  nextSeq : Nat := 0
  replay : List FabBlock := []
  waiting : List FabBlock := []
  wire : List FabBlock := []
  replays : Nat := 0
  stopped : Bool := false
  down : Bool := false
  lastAdvance : Nat := 0
  expired : Nat := 0
  retrainAt : Nat := 0
  expected : Nat := 0
  nakOut : Bool := false
  acked : Option Nat := none
  delivered : List FabBlock := []
  deriving DecidableEq, Repr

/-! ### Frame tick (chapter 2) -/

/-- Where a tick that is due comes from. -/
inductive TickSrc where
  | ext | gen | holdover
  deriving DecidableEq, Repr

/-- The tick block: every time is a cycle of `now`. `lastTick` is cycle 0 of the tick in force (none before the first), `lastGen` the generator's
last tick (or its start); `due` and `dueAt` a tick source's tick that TICK has yet to take; `held` the number of R54; `riseAt` a recognised pulse
still high, `riseTicked` whether it was a tick; `lossRef` the cycle from which P + H runs; `outUntil` the end of a driven pulse, `outHigh` a
repeated pulse's level; `rec…` what the tick's snapshot record says; `closed` and `admitted`: its end-of-frame cycle and its admission cycle
have been carried out. -/
structure TickSt where
  lastTick : Option Nat := none
  lastGen : Nat := 0
  due : Option TickSrc := none
  dueAt : Nat := 0
  held : Option Nat := none
  first : Bool := true
  riseAt : Option Nat := none
  riseTicked : Bool := false
  lastEdge : Option Nat := none
  lossRef : Nat := 0
  lossSeen : Bool := false
  syncReq : Bool := false
  outSync : Bool := false
  outUntil : Nat := 0
  outHigh : Bool := false
  outRose : Option Nat := none
  outFell : Option Nat := none
  recSync : Bool := false
  recHold : Bool := false
  recOverrun : Bool := false
  recDefer : Bool := false
  recPulse : Bool := false
  recTick : Nat := 0
  recLen : Nat := 0
  snapshot : List (Nat × List Nat) := []
  snapPending : Bool := false
  closed : Bool := false
  admitted : Bool := false
  deriving DecidableEq, Repr

/-- The state of a frame program's start gate (R82, R907). -/
inductive Gate where
  | none | pending | registered | opened
  deriving DecidableEq, Repr

/-- A frame program: its header copy (R71), the index `cmd` of its LAUNCH command, and its progress. `cursor` is the start cursor before its
gate opened, `gateFrom` the cycle from which its gate's wait is registered and `firedAt` that of the firing that opened it; `carried`: it has been carried over a tick and its unit's admission cycle has not come; `desc` its descriptor at ENTRY. -/
structure FrameProg where
  unit : Nat
  ctx : Nat
  cmd : Nat
  budget : Nat
  startTmb : Nat
  startEn : Bool
  doneTmb : Nat
  doneEn : Bool
  items : Nat
  entry : Nat
  args : Nat
  gate : Gate := .none
  gateFrom : Nat := 0
  firedAt : Nat := 0
  cursor : Option Nat := none
  used : Nat := 0
  runFrom : Option Nat := none
  carries : Nat := 0
  carried : Bool := false
  issued : List Nat := []
  done : List Nat := []
  modesSet : Bool := false
  modesAt : Option Nat := none
  strict : Bool := false
  rnd : Nat := 0
  desc : List Byte := []
  deriving DecidableEq, Repr

/-- A leaf unit's programs: `waiting` is its program queue, `active` its admitted and carried programs in queue order. `halted`: a fault ended a
program of this frame, and those admitted behind it run no more (R87, R91). -/
structure UnitRun where
  waiting : List FrameProg := []
  active : List FrameProg := []
  halted : Bool := false
  withheld : Bool := false
  deriving DecidableEq, Repr

/-! ### Ward image (chapter 3) -/

/-- A UNITS entry (Table 3.3). -/
structure UnitEnt where
  slot : Nat
  parent : Nat
  root : Bool
  depth : Nat
  group : Bool
  priority : Nat
  overrunPol : Nat
  carryLimit : Nat
  vf : Nat
  ord : Nat
  qbase : Nat
  qcount : Nat
  tmbBase : Nat
  tmbCount : Nat
  partMask : Nat
  barrierWd : Nat
  traceBuf : Nat
  traceEn : Bool
  routes : List Nat
  cores : Nat
  deriving DecidableEq, Repr

/-- A PARTITIONS entry (Table 3.5), with its position `pos` in the section it came in (R126). -/
structure PartEnt where
  index : Nat
  is_sealed : Bool
  keep : Bool
  stackMask : Nat
  granules : Nat
  scratch : Nat
  bwShare : Nat
  bwCeil : Nat
  pos : Nat := 0
  deriving DecidableEq, Repr

/-- A PLACEMENT entry (Table 3.6). -/
structure PlaceEnt where
  hot : Nat := 0
  cold : Nat := 0
  stream : Nat := 0
  pin : Nat := 0
  leafAff : Nat := 0
  migrateEn : Bool := false
  interleave : Nat := 0
  migThresh : Nat := 0
  deriving DecidableEq, Repr

/-- A PINS entry (Table 3.7). -/
structure PinEnt where
  func : Nat := 0
  activeLow : Bool := false
  timer : Nat := 0
  buffer : Nat := 0
  tumbler : Nat := 0
  deriving DecidableEq, Repr

/-- A TIMERS entry (R119). -/
structure TimerEnt where
  en : Bool := false
  fire : Bool := false
  tumbler : Nat := 0
  offset : Nat := 0
  deriving DecidableEq, Repr

/-- The TICK section (R117). -/
structure TickEnt where
  src : Nat := 0
  tout : Nat := 0
  p : Nat := 0
  g : Nat := 0
  h : Nat := 0
  snapSize : Nat := 0
  deriving DecidableEq, Repr

/-- A whole image, or the image in force. `ports` lists (port, role), `freq` the 640 ceilings, `scratchWays` one per die. -/
structure Image where
  kind : Nat := 0
  size : Nat := 0
  imageId : Nat := 0
  svn : Nat := 0
  stepping : Nat := 0
  domain : Nat := 0
  rootSlot : Nat := 0
  baseId : Nat := 0
  tick : TickEnt := {}
  units : List UnitEnt := []
  parts : List PartEnt := []
  scratchWays : List Nat := []
  place : List PlaceEnt := []
  pins : List PinEnt := []
  timers : List TimerEnt := []
  ports : List (Nat × Nat) := []
  freq : List Nat := []
  deriving DecidableEq, Repr

/-- A load in progress: asked for by the register, or by the WARD command `cmd`. `quiesced` and `qslot` are WRD_STAT.QUIESCED
and WRD_QUIESCE.SLOT at GO. -/
structure LoadReq where
  addr : Nat
  size : Nat
  cmd : Option Nat := none
  quiesced : Bool := false
  qslot : Nat := 0
  deriving DecidableEq, Repr

/-- A verified partial image that awaits its tick (R138): its own entries, its SM3 hash, the command that waits for it, and
the cycle in which its verification completed. -/
structure PendImage where
  image : Image
  hash : List Byte
  cmd : Option Nat := none
  since : Nat := 0
  deriving DecidableEq, Repr

/-- The ward block. -/
structure WardSt where
  image : Image := {}
  load : Option LoadReq := none
  pending : Option PendImage := none
  quiesceEnds : Bool := false
  deriving DecidableEq, Repr

/-! ### Translation (chapter 12) -/

/-- A range entry (Table 12.2) with the advice in force on it (Table 10.3). `reserved`: its MAP has not completed (R903). -/
structure RangeEnt where
  start : Nat
  length : Nat
  kind : Nat
  r : Bool
  w : Bool
  x : Bool
  u : Bool
  part : Nat
  cls : Nat
  loc : Nat
  nohost : Bool
  state : Nat
  unit : Nat
  ctx : Nat
  haddr : Nat
  peer : Nat
  window : Nat
  off : Nat
  hot : Bool := false
  cold : Bool := false
  stream : Bool := false
  dead : Bool := false
  pinned : Bool := false
  leafAff : Option Nat := none
  reserved : Bool := false
  deriving DecidableEq, Repr

/-- A window-table entry (Table 12.9). -/
structure WinEnt where
  valid : Bool := false
  r : Bool := false
  w : Bool := false
  a : Bool := false
  unit : Nat := 0
  ctx : Nat := 0
  peer : Nat := 0
  base : Nat := 0
  length : Nat := 0
  closed : Option Nat := none
  deriving DecidableEq, Repr

/-- A requester of a translation: its kind (1 T-core, 3 V-core, 4 copy engine, 5 Pintle receive path, 6 dispatch complex,
0 device), its number, and the ASID that tags a V-core's entry. -/
structure Requester where
  kind : Nat
  id : Nat
  asid : Nat := 0
  deriving DecidableEq, Repr

/-- A range-cache entry: the key of the range it holds. -/
structure RcEnt where
  unit : Nat
  ctx : Nat
  start : Nat
  asid : Nat
  deriving DecidableEq, Repr

/-- A miss on its way to, in, or waiting for a walker of a leaf (R608 to R610). -/
structure Miss where
  leaf : Nat
  req : Requester
  unit : Nat
  ctx : Nat
  va : Nat
  walker : Option Nat := none
  since : Nat := 0
  deriving DecidableEq, Repr

/-- A record held by the fault buffer (R613): `lo` and `hi` bound the range or gap its faults share. -/
structure HeldRec where
  rec_ : Rec
  ctx : Nat
  lo : Nat
  hi : Nat
  since : Nat
  deriving DecidableEq, Repr

/-- What an invalidation does when it ends (Table 12.7): `cmd` indexes the waiting host command, if any. -/
inductive Change where
  | unmap
  | cls (c : Nat)
  | nohost (b : Bool)
  | move (dir : Nat) (nohost : Bool)
  deriving DecidableEq, Repr

/-- An invalidation, waiting or in progress; `acks` lists the caches that have yet to answer. -/
structure Inval where
  unit : Nat
  ctx : Nat
  start : Nat
  change : Change
  cmd : Option Nat := none
  begun : Option Nat := none
  acks : List Requester := []
  deriving DecidableEq, Repr

/-- A staged move past step 2 of R629: the next 4 KiB block. -/
structure Move where
  unit : Nat
  ctx : Nat
  start : Nat
  dir : Nat
  nohost : Bool
  cmd : Option Nat
  block : Nat
  deriving DecidableEq, Repr

structure XltSt where
  ranges : List RangeEnt := []
  windows : KV WinEnt := []
  caches : List (Requester × List RcEnt) := []
  misses : List Miss := []
  held : List HeldRec := []
  nextToken : Nat := 1
  invals : List Inval := []
  moves : List Move := []
  deriving DecidableEq, Repr

/-! ### Memory (chapter 10) -/

/-- Where a granule is backed (R488): a stack granule, or a scratch granule of a die. -/
inductive Loc where
  | hbm (stack idx : Nat)
  | scr (die idx : Nat)
  deriving DecidableEq, Repr

/-- A granule of the backing table (R490). `resv`, a stack and a granule of it, is reserved while the granule is promoted (R525); `count` the
accesses of the frame, `demoted` marks a demoted pin request on one of its lines (R507), `low` the closing frames in a row below DOWN, `res` the frames since its promotion; `copyTo` and `block`
describe a copy in progress (R527);
`home` is the leaf of its home directory (R560). -/
structure Granule where
  loc : Loc
  part : Nat
  home : Nat := 0
  resv : Option (Nat × Nat) := none
  count : Nat := 0
  low : Nat := 0
  res : Nat := 0
  pinned : Bool := false
  demoted : Bool := false
  copyTo : Option Loc := none
  block : Nat := 0
  deriving DecidableEq, Repr

/-- A stored HBM line's metadata (Table 10.5): `tag` the 56-bit integrity tag of the line as it is stored, encrypted. -/
structure LineMeta where
  valid : Bool := false
  poison : Bool := false
  part : Nat := 0
  tag : Nat := 0
  deriving DecidableEq, Repr

/-- A line of a vault cache (R497): masks have one bit per sector. `whole` marks sectors written whole, `seen` those read
since the line was marked dead; `used` orders the uses of lines (R499), 0 at the pseudo-LRU position. -/
structure VLine where
  valid : Nat := 0
  dirty : Nat := 0
  whole : Nat := 0
  seen : Nat := 0
  data : List Byte := []
  poison : Bool := false
  pinned : Bool := false
  dead : Bool := false
  part : Nat := 0
  used : Nat := 0
  deriving DecidableEq, Repr

/-- How an access reaches its home: its traffic class, and the advice on its range (Table 10.3); `atomic` for atomics and reductions (R496). -/
structure HomeCtl where
  cls : Nat := 0
  stream : Bool := false
  dead : Bool := false
  pinned : Bool := false
  cold : Bool := false
  atomic : Bool := false
  addr : Nat := 0
  deriving DecidableEq, Repr

/-- An accepted reduction that has not retired (R516): on the line `line` of a stack (or of scratch), `aop` 0 ADD, 1 MIN, 2 MAX,
type `ty` as Table 8.9's ATY, 4 for BF16; `ctl` as its request reached the home. -/
structure Reduction where
  loc : Loc
  line : Nat
  off : Nat
  aop : Nat
  ty : Nat
  val : Nat
  ctl : HomeCtl := {}
  deriving DecidableEq, Repr

/-- One migration (or channel move) in decision order (R526). -/
structure Migr where
  unit : Nat
  ctx : Nat
  gran : Nat
  promote : Bool
  deriving DecidableEq, Repr

/-- A map whose granules are being allocated (R903). -/
structure MapJob where
  unit : Nat
  ctx : Nat
  start : Nat
  adv : Nat
  arg : Nat
  cmd : Nat
  deriving DecidableEq, Repr

structure MemSt where
  hbm : KV Byte := []
  scratch : KV Byte := []
  lines : KV LineMeta := []
  scrPoison : KV Bool := []
  backing : KV (Option Granule) := []
  vault : KV VLine := []
  abuf : KV VLine := []
  uses : Nat := 0
  reds : List Reduction := []
  lineBuf : List Nat := []
  lastStack : KV Nat := []
  demand : KV Nat := []
  grants : KV Nat := []
  hbmBusy : KV Nat := []
  vaultBusy : KV Nat := []
  halveUp : Nat := 0
  suspend : Nat := 0
  uesFrame : KV Nat := []
  regAt : KV Nat := []
  regFirst : Nat := 0
  satAt : Nat := 0
  thr : KV Nat := []
  mapouts : List (Nat × Nat) := []
  migr : List Migr := []
  maps : List MapJob := []
  scrubbed : KV Nat := []
  deriving DecidableEq, Repr

/-! ### Host port (chapter 14) -/

/-- A command taken from a host queue: its header and its body bytes (those after the header). `inflight` until its own step
has started it; `dups` the (TAG, IRQ) of its duplicates; `orphan`: its queue has been disabled since, and its completion is discarded (R679, R712). -/
structure HostCmd where
  queue : Nat
  opc : Nat
  slots : Nat
  irq : Bool
  route : Nat
  ctx : Nat
  seq : Nat
  tag : Nat
  tmo : Nat
  leaf : Nat
  body : List Byte
  wroteHost : Bool := false
  since : Nat := 0
  dups : List (Nat × Bool) := []
  inflight : Bool := true
  orphan : Bool := false
  deriving DecidableEq, Repr

/-- A completion entry's contents (Table 14.3), its phase apart. -/
structure Cpl where
  seq : Nat
  tag : Nat
  status : Nat
  result : Nat
  irq : Bool
  deriving DecidableEq, Repr

/-- A host queue's state outside its registers; `wrote`: a command has written host memory (R704). -/
structure QueueSt where
  tail : Nat := 0
  cqHead : Nat := 0
  phase : Bool := true
  waiting : List Cpl := []
  wrote : Bool := false
  deriving DecidableEq, Repr

/-- What a copy engine has of a COPY (R699 to R702, R616): `cmd` indexes its command; `regd` while it waits on WAIT_TMB, `rdata`
the block that a remote device has returned, `sent` the source bytes of a block being written to one, `left` the requests of its block that
have no response yet, `got` what has come back, by place. -/
structure CopyJob where
  cmd : Nat
  engine : Nat
  placed : Bool := false
  ready : Bool := true
  regd : Bool := false
  pos : Nat := 0
  token : Option Nat := none
  holdFrom : Nat := 0
  holdCode : Nat := 0
  waitFrom : Nat := 0
  abort : Nat := 0
  rdata : Option (List Byte) := none
  sent : Nat := 0
  left : Nat := 0
  run : Nat × Nat := (0, 0)
  got : List (Nat × List Byte) := []
  deriving DecidableEq, Repr

/-- A function of the host port: power state, enables, and what it has sent. -/
structure FnSt where
  d3 : Bool := false
  enabled : Bool := false
  msixEn : Bool := false
  msixMask : Bool := false
  evLost : Nat := 0
  deriving DecidableEq, Repr

structure HostSt where
  mem : KV Byte := []
  poisoned : KV Bool := []
  cmds : KV (Option HostCmd) := []
  nextCmd : Nat := 0
  queues : KV QueueSt := []
  copies : List CopyJob := []
  turn : Nat := 0
  fns : KV FnSt := []
  msix : KV Nat := []
  pba : KV Bool := []
  sent : List (Nat × Nat) := []
  flushes : List Nat := []
  deriving DecidableEq, Repr

/-! ### Start, management and black box (chapter 18) -/

/-- A buffered black-box entry: INDEX and CHAIN are fixed when it is programmed. -/
structure BbPend where
  suppressed : Nat
  source : Nat
  uptime : Nat
  rec_ : Rec
  ahead : Bool
  deriving DecidableEq, Repr

/-- A slot of the NOR record area: the 128 bytes of an entry, or a torn slot. -/
structure BbSlot where
  bytes : List Byte := []
  torn : Bool := false
  deriving DecidableEq, Repr

/-- The black box: `head` the slot of the next entry, `index` its INDEX, `chain` the CHAIN of the last entry that verifies, `perSec` counts records of a
code in a second, `suppr` those left out since the last entry of the code, `lostRun` those lost since the buffer was last full, `erasing` a
sector being erased, `rdIdx` an entry being latched. -/
structure BbSt where
  buffer : List BbPend := []
  slots : KV BbSlot := []
  head : Nat := 0
  index : Nat := 0
  chain : List Byte := []
  perSec : List (Nat × Nat × Nat) := []
  suppr : KV Nat := []
  lostRun : Nat := 0
  erasing : Option Nat := none
  rdIdx : Option Nat := none
  deriving DecidableEq, Repr

end Sys2Proof.Machine
end

