-- ==== Sys2Proof/Machine/TypesB.lean ====
section
/-! DEFINITION. The parts of the state: tumblers, start and management, pins. -/

namespace Sys2Proof.Machine

/-! ### Tumblers (chapter 13) -/

/-- Who waits on a tumbler, or asked an operation of it. -/
inductive TmbSrc where
  | tgroup (core slot : Nat)
  | vcore (core : Nat)
  | hostCmd (cmd : Nat)
  | gate (unit : Nat)
  | dev
  deriving DecidableEq, Repr

/-- The operations of Table 13.2, in its order. -/
inductive TmbOp where
  | arrive | poll | wait | take | put
  deriving DecidableEq, Repr

/-- An operation on its way to a tumbler's home; `kind`, `id` are the SRC_KIND and SRC_ID of R642; `unit` the unit it acts for. For a core's operation:
its lane, its destination register and predicate, the instruction's number `tag`, and the accesses that a release waits for: those of its group older than
`after`. `dead`: its program has ended, and its answer goes nowhere. -/
structure TmbReq where
  src : TmbSrc
  kind : Nat
  id : Nat
  op : TmbOp
  tmb : Nat
  operand : Nat
  unit : Nat := 0
  reserved : Bool := false
  lane : Nat := 0
  dest : Nat := 255
  pd : Nat := 7
  after : Nat := 0
  sys : Bool := false
  acq : Bool := false
  pc : Nat := 0
  tag : Nat := 0
  dead : Bool := false
  deriving DecidableEq, Repr

/-- A registered wait. -/
structure TmbWait where
  src : TmbSrc
  operand : Nat
  deriving DecidableEq, Repr

/-- What a home's answer says. -/
inductive TmbAns where
  | fired | timedOut | refused (op kind : Nat) | value (v : Nat) | empty | took (t : Nat) | putOk | putFull | done
  deriving DecidableEq, Repr

/-- An answer on its way from a home to a requester, given in the cycle `at_`. -/
structure TmbNote where
  src : TmbSrc
  tmb : Nat
  ans : TmbAns
  pc : Nat := 0
  lane : Nat := 0
  at_ : Nat := 0
  deriving DecidableEq, Repr

/-- A tumbler. `value` is VALUE, COUNT or SET by kind; `tokens` its ring, oldest first. -/
structure Tmb where
  kind : Nat := 0
  value : Nat := 0
  target : Nat := 0
  expected : Nat := 0
  step : Nat := 0
  gen : Nat := 0
  notify : Bool := false
  remote : Bool := false
  log2 : Nat := 0
  ring : Nat := 0
  tokens : List Nat := []
  waits : List TmbWait := []
  deriving DecidableEq, Repr

/-- `reqs` and `notes` are on their way; `turned` lists the waits that found no registration, in their order, `told` those for which
one has been reserved (R659). -/
structure TmbSt where
  tmbs : KV Tmb := []
  reqs : List TmbReq := []
  notes : List TmbNote := []
  turned : List TmbReq := []
  told : List TmbReq := []
  reservations : KV Nat := []
  applied : List (Nat × Nat × Nat) := []
  appliedAt : Nat := 0
  deriving DecidableEq, Repr

/-! ### Start and management (chapter 18) -/

/-- The power states of Table 19.3 in which the device can be. -/
inductive PowerState where
  | unpowered | inReset | running
  deriving DecidableEq, Repr

/-- A start. `step` is the step in progress (0: none has begun), `stepAt` the cycle it began, `startAt` and `coldAt` those of this start and of the last
cold start; `coldDone`: step 6 has completed since PWROK; `coldReq`: a warm start was asked for before that (R842); `push` the address and size of the bundle being fetched; `repair` the repair map
(R853); `badLanes` the lanes out of use by bundle (the lane map); `wardenDead` the wardens that missed their watchdog. -/
structure BootSt where
  power : PowerState := .inReset
  step : Nat := 0
  warm : Bool := false
  startAt : Nat := 0
  stepAt : Nat := 0
  coldAt : Nat := 0
  coldDone : Bool := false
  coldReq : Bool := false
  leafSel : Nat := 0
  stopped : Bool := false
  bundle : List Byte := []
  bundleSvn : Nat := 0
  bundleWardSvn : Nat := 0
  signers : List (List Byte) := []
  push : Option (Nat × Nat) := none
  fwRunning : Bool := false
  coldCount : Nat := 0
  repair : KV Nat := []
  badLanes : KV Nat := []
  wardenDead : Nat := 0
  fatal : Bool := false
  deriving DecidableEq, Repr

/-- A message the management plane has sent: its kind (0 MCTP control, 1 PlatformEventMessage, 2 PLDM, 3 vendor-defined, 5 SPDM), the message
(or SPDM code, or record code) it answers, its completion code, its bytes, and its binding (0 PCIe VDM, 1 I3C). -/
structure MgtMsg where
  kind : Nat
  code : Nat
  status : Nat
  bytes : List Byte
  binding : Nat := 0
  deriving DecidableEq, Repr

/-- `queue`: the unread management events; `unacked`: alert-class records not acknowledged, `alertN` those of them that
arrived in cycle `alertAt`, the last one's; `heldKill`: the (binding, value) of each KILL that
waits for the end-of-frame cycle (R862). -/
structure MgtSt where
  queue : List Rec := []
  unacked : Nat := 0
  alertAt : Nat := 0
  alertN : Nat := 0
  eid : Nat := 0
  discovered : Bool := false
  heldKill : List (Nat × Nat) := []
  sent : List MgtMsg := []
  deriving DecidableEq, Repr

/-! ### Pins (chapters 3, 16, 19) -/

/-- An entry of a capture buffer: the tick number and the cycle offset of a recognised edge, or of a work item's start or end (its
unit, its index, and whether it is the end). -/
structure Capture where
  tick : Nat
  offset : Nat
  item : Option (Nat × Nat × Bool) := none
  deriving DecidableEq, Repr

/-- The pins. `mfpIn` has the bit of each MFP that is in its asserted state, and `mfpSeen` of each whose edge has been recognised since; `therm`: THERMTRIP_N is asserted; `timerBase` names by timer the
tick cycle (+ 1) after which it last expired. -/
structure PinSt where
  perst : Bool := true
  pwrok : Bool := true
  leafSel : Bool := false
  mfpIn : Nat := 0
  mfpSeen : Nat := 0
  markerUntil : KV Nat := []
  tmbOutUntil : KV Nat := []
  overrunOut : Bool := false
  brakeN : Bool := true
  therm : Bool := false
  captures : KV (List Capture) := []
  timerBase : KV Nat := []
  deriving DecidableEq, Repr

end Sys2Proof.Machine
end

