-- ==== Sys2Proof/Machine/TypesP.lean ====
section
/-! DEFINITION. The parts of the state: Pintle (chapter 15). -/

namespace Sys2Proof.Machine

/-- The requester of a remote request. -/
inductive RemWho where
  | acc (id lane : Nat)
  | copy (cmd : Nat)
  | relay (entry : Nat)
  | save (core : Nat)
  deriving DecidableEq, Repr

/-- A remote request (Table 15.4): `op` 0 READ, 1 WRITE, 2 ATOMIC, 3 REDUCE, 4 ARRIVE; `issued` the cycle of its issue, when it took a place among
the 4,096 of its P-die; `sent`: its block has left; `part` its place in a copy's block. `aop` and `ty` as Table 8.9, `ty` 4 for BF16. -/
structure RemReq where
  who : RemWho
  leaf : Nat
  peer : Nat
  op : Nat
  tag : Nat := 0
  window : Nat := 0
  off : Nat := 0
  size : Nat := 0
  data : List Byte := []
  cmp : List Byte := []
  aop : Nat := 0
  ty : Nat := 0
  tmb : Nat := 0
  weight : Nat := 0
  part : Nat := 0
  issued : Option Nat := none
  sent : Bool := false
  deriving DecidableEq, Repr

/-- A path block, as sent or as received: `peer` the logical address of the other end, `dst` the physical address it goes to, `kind` its OP (16:
a HELLO); `wire`, of a block that has been sent, its bytes 8 to 251 (Table 15.3). -/
structure PathBlk where
  peer : Nat := 0
  dst : Nat := 0
  ctr : Nat := 0
  epoch : Nat := 0
  vc : Nat := 0
  kind : Nat
  tag : Nat := 0
  window : Nat := 0
  off : Nat := 0
  size : Nat := 0
  data : List Byte := []
  cmp : List Byte := []
  aop : Nat := 0
  ty : Nat := 0
  tmb : Nat := 0
  weight : Nat := 0
  reason : Nat := 0
  poison : Bool := false
  wire : List Byte := []
  at_ : Nat := 0
  rx : Nat := 0
  walked : Bool := false
  deriving DecidableEq, Repr

/-- A port's hop layer (R721, R734 to R740). `lanes` the lanes in service, `joined`: it is in its set; `engagedFor`: a spare that holds that port's
place; `replay` lists (SEQ, cycle first sent, block) oldest first; `since` the cycle its retraining, or its last try, began; `xoff` the mask of
the last block received; `expired` counts the timeouts since the last ACK advance. -/
structure PortSt where
  trained : Bool := false
  down : Bool := false
  retraining : Bool := false
  lanes : Nat := 0
  joined : Bool := false
  asSpare : Bool := false
  engagedFor : Option Nat := none
  nextSeq : Nat := 0
  replay : List (Nat × Nat × PathBlk) := []
  replays : Nat := 0
  lastAdvance : Nat := 0
  since : Nat := 0
  expected : Nat := 0
  nakOut : Bool := false
  xoff : Nat := 0
  expired : Nat := 0
  deriving DecidableEq, Repr

/-- What a device holds of a peer (R742, R743): counters, and the cycle of the last block accepted. -/
structure PeerSt where
  sendCtr : Nat := 1
  mark : Nat := 0
  exhausted : Bool := false
  lastAccept : Nat := 0
  deriving DecidableEq, Repr

/-- Pintle: `keyCache` names the pair keys of the P-dies, 65,536 × P-die + peer, latest first (R744); `outBlks` responses that wait to be sent; `inbox`
blocks accepted and not yet acted on. `quarantined` the peers of R833; `renamed` the entries whose DEVICE_ID has changed under CURRENT. -/
structure PtlSt where
  ports : KV PortSt := []
  peers : KV PeerSt := []
  keyCache : List Nat := []
  reqs : List RemReq := []
  outBlks : List PathBlk := []
  inbox : List PathBlk := []
  nextTag : Nat := 0
  epochPending : Bool := false
  quarantined : List Nat := []
  renamed : List Nat := []
  deriving DecidableEq, Repr

end Sys2Proof.Machine
end

