-- ==== Sys2Proof/Machine/TypesT.lean ====
section
/-! DEFINITION. The parts of the state: T-cores, their blocks, groups, accesses, engines and save slots (chapters 4, 6, 7, 8). -/

namespace Sys2Proof.Machine

/-- A named barrier of a block (R168 to R174): `arrived` lists the threads that have arrived, `count` the arrivals, `armedAt` the cycle of its
arming. -/
structure Barrier where
  armed : Bool := false
  expected : Nat := 0
  count : Nat := 0
  arrived : List Nat := []
  ticks : Nat := 0
  armedAt : Nat := 0
  deriving DecidableEq, Repr

/-- What a group waits for (R416). -/
inductive GWait where
  | none
  | bar (b : Nat)
  | waitq (w0 : BitVec 64)
  | fence (scope : Nat)
  | tmb (tmb operand dest : Nat) (deadline : Option Nat) (scope : Nat)
  | tmbOp (tag : Nat)
  | access
  deriving DecidableEq, Repr

/-- An entry of a divergence stack (R163). -/
structure DivEnt where
  pc : Nat
  mask : Nat
  join : Nat
  deriving DecidableEq, Repr

/-- A resident block (R145 to R153): `slots` its groups' slots in index order, `engs` its bound physical engines,
`localMem` its local memory, `exits` the threads that exited in cycle `exitAt`. -/
structure TBlock where
  unit : Nat
  ctx : Nat
  item : Nat
  entry : Nat
  threads : Nat
  regs : Nat
  localUnits : Nat
  engs : List Nat
  slots : List Nat
  bars : List Barrier
  exitAt : Nat := 0
  exits : List Nat := []
  localMem : KV Byte := []
  strict : Bool := false
  rnd : Nat := 0
  stopped : Bool := false
  deriving DecidableEq, Repr

/-- A group in a core group slot: `regs` is keyed by 32 × register + lane, `preds` by predicate (a lane mask), `flags` by lane.
`pend` lists what instructions on their way will deliver: a register, or a predicate p as 256 + p, the lane, and the instruction's number. A later write
of the register takes the entry away, and the older value is then not delivered. -/
structure TGroup where
  blk : Nat
  idx : Nat
  pc : Nat
  live : Nat
  active : Nat
  stack : List DivEnt := []
  preds : KV Nat := []
  regs : KV Nat := []
  flags : KV Nat := []
  wait : GWait := .none
  pend : List (Nat × Nat × Nat) := []
  clockHi : Nat := 0
  tickHi : Nat := 0
  lockWait : List Nat := []
  deriving DecidableEq, Repr

/-- The part of an access made for one lane (or one block of STC, or one V-core element): `data` is the value stored, or the
value read once it has been performed; `cmp` the comparand of a CAS; `remote`: it has been sent to the host or to a remote device;
`err` the code and the DETAIL with which it failed. -/
structure AccLane where
  lane : Nat
  va : Nat
  size : Nat
  data : List Byte := []
  mask : List Byte := []
  cmp : List Byte := []
  performed : Bool := false
  poison : Bool := false
  remote : Bool := false
  err : Option (Nat × List Byte) := none
  deriving DecidableEq, Repr

/-- An access in flight of a T-core group or of a V-core. `kind`: 0 load, 1 store, 2 atomic, 3 reduction. `need` lists
the 4 KiB blocks whose walks have not ended, `bad` those whose translation failed with their reason and the record's
SRC_ID; `dead`: its program has ended, and what it brings back goes nowhere; `addrs` every (lane, address) that must translate; `dest` the registers it
delivers, `elems` the element index of each lane of a converting load. -/
structure Acc where
  tcore : Bool
  core : Nat
  slot : Nat
  pc : Nat
  unit : Nat
  ctx : Nat
  item : Nat
  kind : Nat
  w0 : BitVec 64
  w1 : BitVec 64
  aop : Nat := 0
  ty : Nat := 0
  scope : Nat := 0
  lanes : List AccLane
  addrs : List (Nat × Nat) := []
  dest : List Nat := []
  elems : KV Nat := []
  acquire : Bool := false
  release : Bool := false
  need : List Nat := []
  bad : List (Nat × Nat × Nat) := []
  issued : Nat := 0
  dead : Bool := false
  deriving DecidableEq, Repr

/-- An accumulation group's state word (Table 6.1) with its cells (R261). -/
structure AccGroup where
  isOpen : Bool := false
  sigma : Int := 0
  cls : Nat := 0
  flags : Nat := 0
  isat : Bool := false
  rnd : Nat := 0
  intCell : Bool := false
  strict : Bool := false
  wide : Bool := false
  cells : KV (BitVec 64) := []
  deriving DecidableEq, Repr

/-- An engine descriptor from its MXA or VXA to its end: its bytes, its local address, the group that issued it, its place `issue` in the
order of the operations on the engine, and its progress. `opened`: the group it names has been opened for it. -/
structure Desc where
  bytes : List Byte
  addr : Nat
  slot : Nat
  pc : Nat
  issue : Nat
  accepted : Bool := false
  opened : Bool := false
  started : Bool := false
  next : Nat := 0
  replays : Nat := 0
  deriving DecidableEq, Repr

/-- An accumulator instruction that waits for its turn (R266, R405): `kind` 0 ACC.REL, 1 ACC.FCLR, 2 ACC.RDS into `dest` of `lanes`. -/
structure AccOp where
  kind : Nat
  grp : Nat
  issue : Nat
  slot : Nat
  dest : Nat := 255
  lanes : Nat := 0
  tag : Nat := 0
  deriving DecidableEq, Repr

/-- A physical engine: its four accumulation groups, its matrix queue and its vector queue, oldest first, the accumulator
instructions that wait, and whether it finishes a chunk before it stops (R309). -/
structure Engine where
  acc : KV AccGroup := []
  mq : List Desc := []
  vq : List Desc := []
  ops : List AccOp := []
  issue : Nat := 0
  finishing : Bool := false
  deriving DecidableEq, Repr

/-- What a T-core save slot holds: the blocks, groups and engines of one program on the core (Table 4.9). -/
structure TSave where
  unit : Nat
  blocks : List (Nat × TBlock)
  groups : List (Nat × TGroup)
  engines : List (Nat × Engine)
  deriving DecidableEq, Repr

/-- A T-core's preemption in progress (R192 to R199): 1 draining, 2 saving, 3 restoring. -/
structure TMove where
  core : Nat
  unit : Nat
  stage : Nat
  since : Nat
  deriving DecidableEq, Repr

/-- A fault of a T-core or of an engine, held to the end of its cycle, when the first of a program's is chosen (R208). `cmd` is the program's LAUNCH,
`xlt` the context and address of a failed translation. -/
structure TFault where
  unit : Nat
  cmd : Nat
  core : Nat
  slot : Nat
  rec_ : Rec
  xlt : Option (Nat × Nat) := none
  deriving DecidableEq, Repr

structure TcSt where
  blocks : KV (Option TBlock) := []
  groups : KV (Option TGroup) := []
  engines : KV Engine := []
  saves : KV (Option TSave) := []
  moves : List TMove := []
  l1 : KV (Option (List Byte)) := []
  clockAt : KV (Nat × Nat) := []
  issuedAt : KV Nat := []
  faults : List TFault := []
  fetching : List (Nat × Nat × Nat) := []
  deriving DecidableEq, Repr

end Sys2Proof.Machine
end

