-- ==== Sys2Proof/Machine/TypesV.lean ====
section
/-! DEFINITION. The parts of the state: V-cores (chapter 9) and their caches and directory (chapter 11). -/

namespace Sys2Proof.Machine

/-- An Xslv memory instruction between its issue and its end (R453 to R461). `kind`: 0 load, 1 store; `els` the runs it accesses, in element
order, with what a store writes; `need` the 4 KiB blocks whose walks have not ended; `acc` its access, once the access phase has begun. -/
structure XslvOp where
  w : BitVec 32
  kind : Nat
  els : List AccLane
  need : List Nat := []
  acc : Option Nat := none
  deriving DecidableEq, Repr

/-- A trap that an instruction has raised and that has not been taken: its cause, whether the cause concerns an address, and the value for
mtval or stval. -/
structure VTrap where
  cause : Nat
  addr : Bool
  tval : Nat
  deriving DecidableEq, Repr

/-- A slot of the stride detector (R473): the PC, its last missing address, the stride of its last two misses, and how many misses in a row
have shown it. -/
structure Stream where
  pc : Nat
  last : Nat
  stride : Int := 0
  seen : Nat := 1
  deriving DecidableEq, Repr

/-- A V-core. `x` holds x1–x31, `v` the 8,192-bit vector registers (f0–f31 are their low 64 bits), `m` the mask registers,
`xa` the accumulators of Xslm (key 64 × accumulator + 8 × row + column), `csr` every CSR that does
not stand elsewhere, `resv` the line that an LR has reserved, `twait` a TWAIT's tumbler, rd and deadline in core cycles, `trap` a trap raised and not yet taken, `gap` the context
and 4 KiB block in which a walk for the instruction at `pc` has found no range, `missed` the lines for which that instruction has counted an L1D miss. -/
structure VCore where
  running : Bool := false
  unit : Nat := 0
  ctx : Nat := 0
  item : Nat := 0
  prio : Nat := 0
  pc : Nat := 0
  mode : Nat := 3
  x : KV Nat := []
  v : KV Nat := []
  m : KV Nat := []
  xa : KV Nat := []
  csr : KV Nat := []
  resv : Option Nat := none
  xslv : Option XslvOp := none
  twait : Option (Nat × Nat × Option Nat) := none
  waitTmb : Bool := false
  stopped : Bool := false
  trap : Option VTrap := none
  gap : Option (Nat × Nat) := none
  missed : List Nat := []
  deriving DecidableEq, Repr

/-- MOESI (R563). -/
inductive Moesi where
  | m | o | e | s
  deriving DecidableEq, Repr

/-- A line of a V-core's L2. `evicting`: its WbD is on its way (R568); `holdUntil`: its hold ends there (R571), and `waiting` lists the messages, (kind,
issue), that wait for it; `recalled`: a non-coherent access waits for the hold; `pf`: it was prefetched and no demand access has used it; `used`: the count of cache uses at its last one. -/
structure L2Line where
  st : Moesi
  data : List Byte
  poison : Bool := false
  evicting : Bool := false
  holdUntil : Option Nat := none
  waiting : List (Nat × Nat) := []
  pf : Bool := false
  used : Nat := 0
  recalled : Bool := false
  deriving DecidableEq, Repr

/-- A line of a V-core's L1D (R466): `dirty`: a store has written it and L2 has not yet its bytes. -/
structure L1Line where
  data : List Byte
  poison : Bool := false
  dirty : Bool := false
  used : Nat := 0
  deriving DecidableEq, Repr

/-- A directory entry: the owner and the sharers of a line (R561); `ownedShared`: the owner is in O (state DO). -/
structure DirEnt where
  owner : Option Nat := none
  ownedShared : Bool := false
  sharers : List Nat := []
  deriving DecidableEq, Repr

/-- A coherence request: `op` 0 RdS, 1 RdX, 2 Upg, 3 WbD, 4 EvC; `pf`: a prefetch asks for the line. -/
structure CohReq where
  core : Nat
  line : Nat
  op : Nat
  data : List Byte := []
  poison : Bool := false
  pf : Bool := false
  deriving DecidableEq, Repr

/-- A message to an L2: `kind` 0 SnpS, 1 SnpW, 2 SnpI, 3 Inv, 4 grant, 5 acknowledgement of WbD. -/
structure CohMsg where
  kind : Nat
  core : Nat
  line : Nat
  st : Moesi := .s
  data : Option (List Byte) := none
  poison : Bool := false
  pf : Bool := false
  since : Nat := 0
  deriving DecidableEq, Repr

/-- A reply on its way to the directory: the dirty data it carries, whether the L2 kept the line, and when its message was issued. -/
structure CohReply where
  core : Nat
  line : Nat
  data : Option (List Byte) := none
  poison : Bool := false
  kept : Bool := false
  since : Nat := 0
  deriving DecidableEq, Repr

/-- A transaction in progress at a directory: the L2s whose replies are awaited, and what the replies brought. `evict`: a back-invalidation of
the line (R574). -/
structure CohTxn where
  req : CohReq
  awaiting : List Nat
  data : Option (List Byte) := none
  poison : Bool := false
  kept : Bool := false
  evict : Bool := false
  deriving DecidableEq, Repr

/-- A declaration whose walk has not ended (R587, R590): a V-core or a C-die, its cause, the entries reclaimed, the poison writes. -/
structure Reclaim where
  agent : Nat
  die : Bool
  cause : Nat
  entries : Nat := 0
  poisons : Nat := 0
  since : Nat := 0
  deriving DecidableEq, Repr

/-- The coherent caches and the directories. `l1d` and `l1i` hold the lines of the L1 caches (of L1I, whose words come with the commands, the count of
uses at a line's last one), `uses` the uses of all caches counted. `misses` are requests on their way to a directory, `queue` those that wait there, `msgs` messages on their
way to the L2s, `replies` answers on their way back. -/
structure CohSt where
  dir : KV (Option DirEnt) := []
  l2 : KV (Option L2Line) := []
  l1d : KV (Option L1Line) := []
  l1i : KV (Option Nat) := []
  uses : Nat := 0
  msgs : List CohMsg := []
  replies : List CohReply := []
  txns : List CohTxn := []
  queue : List CohReq := []
  misses : List CohReq := []
  deadDies : List Nat := []
  causes : KV Nat := []
  reclaims : List Reclaim := []
  deriving DecidableEq, Repr

/-- The V-cores. `ctrs` holds the counters of a core that its items share (key 16 × core + n: n = 0 what a write has added to mcycle, 2 instret, 3 to 10
mhpmcounter3 to 10), `streams` its stride detector. -/
structure VcSt where
  cores : KV VCore := []
  ctrs : KV Nat := []
  streams : KV (List Stream) := []
  saves : KV (Option VCore) := []
  moves : List TMove := []
  dead : List Nat := []
  deriving DecidableEq, Repr

end Sys2Proof.Machine
end

