-- ==== Sys2Proof/Machine/TypesW.lean ====
section
/-! DEFINITION. The parts of the state: power and thermal control (chapter 16), the keyway (chapter 17), the test port. -/

namespace Sys2Proof.Machine

/-- Power control. Keys of the maps are C-dies. `estP` and `estD` are the last window's estimate over
`estDen` (0: none yet), `estB` the power fraction b in 64ths that stood in that window, `frameSum` over `frameDen` the sum of the frame's; `accrued` is
the cycle up to which bubbled cycles are counted; `bub` and `droopCyc` count the frame in progress. -/
structure PwrSt where
  winStart : Nat := 0
  estP : Nat := 0
  estD : Nat := 0
  estDen : Nat := 0
  estB : Nat := 0
  frameSum : Nat := 0
  frameDen : Nat := 1
  frameN : Nat := 0
  frameStart : Nat := 0
  accrued : Nat := 0
  bub : KV Nat := []
  droopCyc : KV Nat := []
  droopSeen : KV Bool := []
  droopLast : KV Nat := []
  therm : KV Nat := []
  warned : KV Bool := []
  pendAt : KV Nat := []
  raised : KV Bool := []
  confirmed : KV Bool := []
  changeAt : KV Nat := []
  oldStep : KV Nat := []
  changeDue : Bool := false
  capAt : Nat := 0
  brakeHigh : Option Nat := none
  deriving DecidableEq, Repr

/-- A weight-key slot (R816, R817): the key, its partition, BLOB_ID, and envelope bytes 0–111. -/
structure WeightKey where
  key : List Byte
  part : Nat
  head : List Byte
  deriving DecidableEq, Repr

/-- A LOAD in progress (R819 to R822). -/
structure SealedJob where
  slot : Nat
  part : Nat
  length : Nat
  dst : Nat
  unit : Nat
  ctx : Nat
  next : Nat := 0
  deriving DecidableEq, Repr

/-- An SPDM session: its transport, and whether its handshake has finished. -/
structure SpdmSession where
  id : Nat
  binding : Nat
  established : Bool := false
  deriving DecidableEq, Repr

/-- The keyway: the fused SVN, the SVN that a commit in progress ends at, the partitions whose erase is asked for in this cycle, SALT, the weight-key slots, the LOAD in progress, and the SPDM responder (`stage` 1 after
GET_VERSION, 2 after GET_CAPABILITIES, 3 after NEGOTIATE_ALGORITHMS, one connection for each binding). -/
structure KwySt where
  fusedSvn : Nat := 0
  commit : Option Nat := none
  erases : List Nat := []
  salt : List Byte := []
  slots : KV (Option WeightKey) := []
  load : Option SealedJob := none
  stage : KV Nat := []
  sessions : List SpdmSession := []
  nextSession : Nat := 1
  deriving DecidableEq, Repr

/-- The states of an IEEE 1149.1 test access port (R835). -/
inductive Tap where
  | reset | idle | selDr | capDr | shiftDr | exit1Dr | pauseDr | exit2Dr | updDr
  | selIr | capIr | shiftIr | exit1Ir | pauseIr | exit2Ir | updIr
  deriving DecidableEq, Repr

/-- The test port: `ir` the instruction in force, `irShift` and `dr` the registers that shift, bit 0 first. -/
structure JtagSt where
  tap : Tap := .reset
  ir : List Bool := []
  irShift : List Bool := []
  dr : List Bool := []
  tdo : Option Bool := none
  deriving DecidableEq, Repr

end Sys2Proof.Machine
end

