-- ==== Sys2Proof/Machine/State.lean ====
section
/-! DEFINITION. The state of the block, its faults and refusals, and the state after reset. -/

namespace Sys2Proof.Machine

/-- The reasons to stop with a fault. -/
inductive Fault where
  /-- Raised by no command: nothing the spec describes stops this block. Safe, since no run ends in it. -/
  | none
  deriving DecidableEq, Repr

/-- The reasons to refuse a command. -/
inductive Refusal where
  /-- Raised by the dispatch of a command that has no meaning yet. Safe: nothing can be proved of that command. -/
  | notModelled (mnemonic : String)
  deriving DecidableEq, Repr

/-- Everything the spec gives the device, the queue of waiting commands, and the model's own clock `now` (cycles of
2.5 GHz) and index of free values `freeCtr`. -/
structure State where
  pending : List Instr := []
  now : Nat := 0
  freeCtr : Nat := 0
  regs : KV Word := []
  links : KV LinkDir := []
  tick : TickSt := {}
  units : KV UnitRun := []
  ward : WardSt := {}
  xlt : XltSt := {}
  mem : MemSt := {}
  host : HostSt := {}
  bb : BbSt := {}
  tmb : TmbSt := {}
  boot : BootSt := {}
  mgt : MgtSt := {}
  pins : PinSt := {}
  tc : TcSt := {}
  ptl : PtlSt := {}
  vc : VcSt := {}
  coh : CohSt := {}
  pwr : PwrSt := {}
  kwy : KwySt := {}
  jtag : JtagSt := {}
  accs : KV (Option Acc) := []
  nextAcc : Nat := 0
  preempts : List (Nat × Nat) := []
  deriving DecidableEq, Repr

/-- The device in reset, before its first start: PWROK and PERST_N asserted, every register at its reset value. -/
def State.reset : State := {}

end Sys2Proof.Machine
end

