-- ==== Sys2Proof/Machine/Ops.lean ====
section
/-! DEFINITION. The named operations the meanings share: register access, the clocks, host memory, the unit tree, and the
writing of a fault or event record (R202, R707 to R711, R863 to R869). -/

namespace Sys2Proof.Machine

/-! ### Maps that read 0, or false, where they list nothing -/

def kvN (m : KV Nat) (k : Nat) : Nat := kvGet (fun _ => 0) m k
def kvB (m : KV Bool) (k : Nat) : Bool := kvGet (fun _ => false) m k
def setN (m : KV Nat) (k v : Nat) : KV Nat := kvSet (fun _ => 0) m k v
def setB (m : KV Bool) (k : Nat) (v : Bool) : KV Bool := kvSet (fun _ => false) m k v

/-- The device runs: power held, reset released, no thermal trip (R789). -/
def State.alive (s : State) : Bool := s.boot.power == PowerState.running && !s.boot.stopped

/-- BAR0 of the physical function serves the registers outside MGT_ and KWY_ once firmware runs (R845). -/
def State.serving (s : State) : Bool := s.alive && s.boot.fwRunning

/-! ### Registers -/

/-- The word at a BAR0 address. -/
def State.reg (s : State) (a : Nat) : Word := kvGet regReset s.regs a

def State.setReg (s : State) (a : Nat) (v : Word) : State :=
  { s with regs := kvSet regReset s.regs a v }

/-- The value of a register field. -/
def State.fld (s : State) (f : RegField) : Nat :=
  natBits (s.reg f.addr).toNat f.lo (f.hi - f.lo + 1)

def State.setFld (s : State) (f : RegField) (v : Nat) : State :=
  s.setReg f.addr (BitVec.ofNat 32 (natSetBits (s.reg f.addr).toNat f.lo (f.hi - f.lo + 1) v))

/-- A one-bit field as a truth value. -/
def State.flag (s : State) (f : RegField) : Bool := s.fld f == 1

def State.setFlag (s : State) (f : RegField) (b : Bool) : State := s.setFld f (if b then 1 else 0)

/-- Add to a counter that saturates at its field's largest value. -/
def State.bumpN (s : State) (f : RegField) (n : Nat) : State :=
  s.setFld f (min (s.fld f + n) (2 ^ (f.hi - f.lo + 1) - 1))

def State.bump (s : State) (f : RegField) : State := s.bumpN f 1

/-- A 64-bit value held as a low and a high word. -/
def State.fld64 (s : State) (lo hi : RegField) : Nat := s.fld lo + 2 ^ 32 * s.fld hi

def State.setFld64 (s : State) (lo hi : RegField) (v : Nat) : State :=
  (s.setFld lo v).setFld hi (v / 2 ^ 32)

/-- Add to a 64-bit counter that saturates. -/
def State.bump64 (s : State) (lo hi : RegField) (n : Nat) : State :=
  s.setFld64 lo hi (min (s.fld64 lo hi + n) (2 ^ 64 - 1))

/-- A limit field whose 0 is taken as 1 (Tables 1.5, 12.11). -/
def atLeast1 (n : Nat) : Nat := if n = 0 then 1 else n

/-! ### Clocks -/

def State.tickCount (s : State) : Nat := s.fld64 RF.TCK_COUNT_LO_COUNT RF.TCK_COUNT_HI_COUNT

/-- Cycles since cycle 0 of the current tick, saturating at 32 bits (R202, Table 8.4). -/
def State.tickOffset (s : State) : Nat :=
  match s.tick.lastTick with
  | some t => min (s.now - t) (2 ^ 32 - 1)
  | none => min s.now (2 ^ 32 - 1)

/-- Microseconds since the cold start began (Table 18.6). -/
def State.uptime (s : State) : Nat := (s.now - s.boot.coldAt) / 2500

/-- The 100 MHz reference clock: 25 cycles of `now` a period. -/
def refPeriod : Nat := 25

/-- A fresh free value's index, and the state that has used it up. -/
def State.nextFree (s : State) : Nat × State := (s.freeCtr, { s with freeCtr := s.freeCtr + 1 })

/-! ### Host memory, as the device writes it -/

def hostWriteBytes : KV Byte → Nat → List Byte → KV Byte
  | m, _, [] => m
  | m, a, b :: r => hostWriteBytes (kvSet (fun _ => 0) m a b) (a + 1) r

/-- A write to host memory (R703): its bytes are recorded, and the payload counts in HIF_D2H_BYTES. -/
def State.hostWrite (s : State) (a : Nat) (bs : List Byte) : State :=
  let s := { s with host := { s.host with mem := hostWriteBytes s.host.mem a bs } }
  s.bump64 RF.HIF_D2H_BYTES_COUNT_LO RF.HIF_D2H_BYTES_COUNT_HI bs.length

/-! ### The unit tree -/

def State.unitEnt (s : State) (slot : Nat) : Option UnitEnt :=
  s.ward.image.units.find? (fun u => u.slot == slot)

/-- Walk from a unit towards the root, at most 16 steps (DEPTH is at most 15). -/
def ancestorsIn (us : List UnitEnt) : Nat → Nat → List Nat
  | 0, _ => []
  | n + 1, slot =>
    match us.find? (fun u => u.slot == slot) with
    | some u => slot :: (if u.root then [] else ancestorsIn us n u.parent)
    | none => []

/-- A unit and its ancestors, nearest first. -/
def State.path (s : State) (slot : Nat) : List Nat := ancestorsIn s.ward.image.units 16 slot

/-- Does `slot` lie in the subtree of `top`? -/
def State.under (s : State) (top slot : Nat) : Bool := (s.path slot).contains top

/-- A leaf unit in force. -/
def State.isLeaf (s : State) (slot : Nat) : Bool :=
  match s.unitEnt slot with
  | some u => !u.group
  | none => false

/-- The T-cores (0–511) or V-cores (512–639) of a unit, in CORES bit order. -/
def State.unitCores (s : State) (slot : Nat) : List Nat :=
  match s.unitEnt slot with
  | some u => maskBits 640 u.cores
  | none => []

/-- The unit whose queue set holds host queue `q` (R676). -/
def State.queueUnit (s : State) (q : Nat) : Option UnitEnt :=
  s.ward.image.units.find? (fun u => decide (u.qbase ≤ q) && decide (q < u.qbase + u.qcount))

/-- The function that serves a queue's unit: the unit's own VF, else that of the nearest exported ancestor (R672, R674),
else the physical function. -/
def State.fnOfUnit (s : State) (slot : Nat) : Nat :=
  match (s.path slot).findSome? (fun x => match s.unitEnt x with
      | some u => if u.vf = 0 then none else some u.vf
      | none => none) with
  | some v => v
  | none => 0

/-! ### MSI-X (R711) -/

/-- The base of a function's registers: the physical function's BAR0, or a virtual function's. -/
def fnBase (fn : Nat) : Nat := if fn = 0 then 0 else 0x10000000 + 0x2000000 * (fn - 1)

def RegField.ofFn (f : RegField) (fn : Nat) : RegField := { f with addr := f.addr + fnBase fn }

def State.fnSt (s : State) (fn : Nat) : FnSt := kvGet (fun _ => {}) s.host.fns fn

def State.setFnSt (s : State) (fn : Nat) (x : FnSt) : State :=
  { s with host := { s.host with fns := kvSet (fun _ => {}) s.host.fns fn x } }

/-- The default words of a vector's table entry: masked. -/
def msixDefault (k : Nat) : Nat := if k % 4 = 3 then 1 else 0

/-- Is vector `v` of a function masked, by its table entry's mask bit (word 3) or by the function mask? -/
def State.vectorMasked (s : State) (fn v : Nat) : Bool :=
  (s.fnSt fn).msixMask || natBit (kvGet msixDefault s.host.msix ((fn * 256 + v) * 4 + 3)) 0

/-- Raise a vector: a message to the host, or a pending bit while it is masked. -/
def State.raiseVector (s : State) (fn v : Nat) : State :=
  let v := if v < (if fn = 0 then 256 else 64) then v else 0
  if (s.fnSt fn).msixEn then
    if s.vectorMasked fn v then
      { s with host := { s.host with pba := kvSet (fun _ => false) s.host.pba (fn * 256 + v) true } }
    else { s with host := { s.host with sent := s.host.sent ++ [(fn, v)] } }
  else s

/-! ### Records -/

def bytesOfNat (n v : Nat) : List Byte := leBytes n v

/-- The 64 bytes of a record (Table 4.11). -/
def Rec.bytes (r : Rec) : List Byte :=
  leBytes 2 r.code
  ++ leBytes 1 ((if r.fault then 1 else 0) + (if r.precise then 2 else 0) + (if r.fatal then 4 else 0)
      + (if r.terminated then 8 else 0))
  ++ leBytes 1 r.srcKind ++ leBytes 2 r.srcId
  ++ leBytes 2 (if r.unitV then r.unit % 1024 + 32768 else 0)
  ++ leBytes 8 r.tick ++ leBytes 4 r.offset ++ leBytes 4 r.count
  ++ leBytes 8 (r.pc % 2 ^ 57) ++ leBytes 8 (r.addr % 2 ^ 57)
  ++ leBytes 1 (r.group % 32 + (if r.groupV then 32 else 0))
  ++ leBytes 1 (r.engine % 4 + (if r.engineV then 4 else 0)) ++ leBytes 2 0
  ++ leBytes 4 r.lanes ++ leBytes 4 r.item
  ++ (r.detail ++ List.replicate 12 (0 : Byte)).take 12

/-- Place bytes in a 12-byte DETAIL: (offset in the record, width, value) triples. -/
def detailOf : List (Nat × Nat × Nat) → List Byte
  | [] => List.replicate 12 (0 : Byte)
  | (at_, w, v) :: r =>
    let d := detailOf r
    (List.range 12).map (fun i =>
      if decide (at_ ≤ i + 52) && decide (i + 52 < at_ + w) then BitVec.ofNat 8 (v / 256 ^ (i + 52 - at_))
      else d.getD i 0)

/-- Entries of a ring of 2^LOG2, taken as 2^6 below 6 (Table 14.7). -/
def ringLog (l : Nat) : Nat := if l < 6 then 6 else l

/-- Write one 64-byte entry at the tail of a function's event ring. -/
def State.evPut (s : State) (fn : Nat) (r : Rec) : State :=
  let tail := s.fld (RF.HIF_EV_TAIL_TAIL.ofFn fn)
  let base := s.fld (RF.HIF_EV_BASE_LO_BASE.ofFn fn) * 4096 + 2 ^ 32 * s.fld (RF.HIF_EV_BASE_HI_BASE.ofFn fn)
  let n := 2 ^ ringLog (s.fld (RF.HIF_EV_CFG_LOG2.ofFn fn))
  let s := s.hostWrite (base + 64 * (tail % n)) r.bytes
  (s.setFld (RF.HIF_EV_TAIL_TAIL.ofFn fn) (tail + 1)).raiseVector fn 0

/-- Free entries of a function's event ring. -/
def State.evFree (s : State) (fn : Nat) : Nat :=
  let n := 2 ^ ringLog (s.fld (RF.HIF_EV_CFG_LOG2.ofFn fn))
  let used := (s.fld (RF.HIF_EV_TAIL_TAIL.ofFn fn) + 65536 - s.fld (RF.HIF_EV_HEAD_HEAD.ofFn fn)) % 65536
  n - used

/-- A record for one function's event ring (R709): a full ring loses it, and the next record that fits is preceded by
event 0x0E09 with the number lost. -/
def State.evRing (s : State) (fn : Nat) (r : Rec) : State :=
  if s.flag (RF.HIF_EV_CFG_EN.ofFn fn) then
    let lost := (s.fnSt fn).evLost
    if s.evFree fn < (if lost = 0 then 1 else 2) then
      (s.bump (RF.HIF_EV_LOST_COUNT.ofFn fn)).setFnSt fn { s.fnSt fn with evLost := lost + 1 }
    else
      let s := if lost = 0 then s else
        (s.setFnSt fn { s.fnSt fn with evLost := 0 }).evPut fn
          { code := 0x0E09, tick := r.tick, offset := r.offset, detail := detailOf [(52, 4, lost)] }
      s.evPut fn r
  else s

/-- The alert class (R864). -/
def Rec.alert (r : Rec) : Bool :=
  r.fatal || [0x0A05, 0x0B01, 0x0F02, 0x1002, 0x1203, 0x1206, 0x1208].contains r.code

/-- Records that enter the black box (R866): events, fatal records, the boot refusals of R806, the ward refusals of R130, and a link down (R40). -/
def Rec.entersBb (r : Rec) : Bool :=
  !r.fault || r.fatal || r.code == 0x1205 || (decide (0x1101 ≤ r.code) && decide (r.code ≤ 0x1106))
    || (decide (0x0301 ≤ r.code) && decide (r.code ≤ 0x030D) && !(r.code == 0x030C)) || (decide (0x0320 ≤ r.code) && decide (r.code ≤ 0x032C))

/-- MGT_BB_STAT.BUFFERED shows the entries awaiting programming. -/
def State.syncBb (s : State) : State := s.setFld RF.MGT_BB_STAT_BUFFERED s.bb.buffer.length

/-- The black-box writer takes a record (R866, R867, R869): at most 16 of one code in a second of uptime, 256 buffered. -/
def State.bbEnter (s : State) (source : Nat) (r : Rec) : State :=
  if r.entersBb then
    let sec := s.uptime / 1000000
    let n := match s.bb.perSec.find? (fun p => p.1 == r.code && p.2.1 == sec) with
      | some p => p.2.2
      | none => 0
    if decide (16 ≤ n) && !r.fatal then
      let s := s.bump RF.MGT_BB_SUPPRESSED_COUNT
      { s with bb := { s.bb with suppr := kvSet (fun _ => 0) s.bb.suppr r.code (kvGet (fun _ => 0) s.bb.suppr r.code + 1) } }
    else if 256 ≤ s.bb.buffer.length then
      let s := s.bump RF.MGT_BB_LOST_COUNT
      { s with bb := { s.bb with lostRun := s.bb.lostRun + 1 } }
    else
      let e : BbPend := { suppressed := min (kvGet (fun _ => 0) s.bb.suppr r.code) 65535, source := source,
                          uptime := s.uptime, rec_ := r, ahead := r.fatal || r.code == 0x1003 }
      let buf := if e.ahead then (s.bb.buffer.takeWhile (fun x => x.ahead)) ++ [e] ++ s.bb.buffer.dropWhile (fun x => x.ahead)
                 else s.bb.buffer ++ [e]
      State.syncBb { s with bb := { s.bb with
          buffer := buf
          suppr := kvSet (fun _ => 0) s.bb.suppr r.code 0
          perSec := (r.code, sec, n + 1) :: s.bb.perSec.filter (fun p => !(p.1 == r.code) && p.2.1 == sec) } }
  else s

/-- The management event queue of 256 records, the oldest dropped when full (R863). -/
def State.mgtQueue (s : State) (r : Rec) : State :=
  if s.boot.step = 0 then s
  else
    let q := if 256 ≤ s.mgt.queue.length then s.mgt.queue.drop 1 else s.mgt.queue
    { s with mgt := { s.mgt with queue := q ++ [r] } }

/-- An alert-class record stands unacknowledged: ALERT_N is asserted and, once firmware answers, a PlatformEventMessage is
sent (R860, R864). -/
def State.alertRec (s : State) (r : Rec) : State :=
  if r.alert then
    let s := s.setFlag RF.MGT_ALERT_ASSERTED true
    let n := if s.mgt.alertAt = s.now then s.mgt.alertN + 1 else 1
    let s := ({ s with mgt := { s.mgt with unacked := s.mgt.unacked + 1, alertAt := s.now, alertN := n } }).setFld RF.MGT_ALERT_PENDING
      (min (s.mgt.unacked + 1) 65535)
    if s.boot.fwRunning then
      { s with mgt := { s.mgt with sent := s.mgt.sent ++ [{ kind := 1, code := r.code, status := 0, bytes := r.bytes }] } }
    else s
  else s

/-- Stamp a record with the tick number and offset at which it is made. -/
def State.stamp (s : State) (r : Rec) : Rec := { r with tick := s.tickCount, offset := s.tickOffset }

/-- The event rings of a record (R707): the physical function's, and that of each function whose exported unit's subtree
holds the record's unit. -/
def State.recRings (s : State) (r : Rec) : State :=
  let s' := s.evRing 0 r
  if r.unitV then
    let fn := s.fnOfUnit r.unit
    if fn = 0 then s' else s'.evRing fn r
  else s'

/-- Mark the device fatal: no further frame programs until the next cold start (R42, R202). -/
def State.markFatal (s : State) (r : Rec) : State :=
  if r.fatal then { s with boot := { s.boot with fatal := true } } else s

/-- Who enters a record (Table 18.6): the writer itself 0x1003, 0x1207, 0x1208 and 0x1209, a warden the rest once firmware runs, the
boot ROM before. -/
def State.bbSource (s : State) (r : Rec) : Nat :=
  if [0x1003, 0x1207, 0x1208, 0x1209].contains r.code then 2 else if s.boot.fwRunning then 1 else 0

/-- Write a record everywhere it goes, its stamp already set. -/
def State.emitStamped (s : State) (r : Rec) : State :=
  ((((s.recRings r).mgtQueue r).alertRec r).bbEnter (s.bbSource r) r).markFatal r

/-- Write a fault or event record made now. -/
def State.emit (s : State) (r : Rec) : State := s.emitStamped (s.stamp r)

/-! ### Capture buffers (Table 3.7, Table 3.8 class 7) -/

/-- Append to a capture buffer of 16,384 entries of 16 bytes. What an entry does to a full buffer the spec does not say: it is lost, or takes the
place of the oldest. -/
def State.capture (s : State) (buf : Nat) (item : Option (Nat × Nat × Bool)) : State :=
  let l := kvGet (fun _ => []) s.pins.captures buf
  let e : Capture := { tick := s.tickCount, offset := s.tickOffset, item := item }
  let put := fun (s : State) (l : List Capture) => { s with pins := { s.pins with captures := kvSet (fun _ => []) s.pins.captures buf l } }
  if l.length < 16384 then put s (l ++ [e])
  else
    let (i, s) := s.nextFree
    if Config.freeNat i % 2 = 0 then s else put s (l.drop 1 ++ [e])

/-- The frame trace of a unit with TRACE_EN: the start or end of a work item (Table 3.3). -/
def State.traceItem (s : State) (unit item : Nat) (ends : Bool) : State :=
  match s.unitEnt unit with
  | some u => if u.traceEn then s.capture u.traceBuf (some (unit, item, ends)) else s
  | none => s

end Sys2Proof.Machine
end

