-- ==== Sys2Proof/Machine/MemOps.lean ====
section
/-! DEFINITION. Memory as its homes perform it: backing, stacks with their metadata, vault caches, scratchpads, pending
reductions (R488 to R518, R541 to R545). -/

namespace Sys2Proof.Machine

/-! ### Backing -/

/-- The key of a granule of a context in the backing table. -/
def granKey (unit ctx gran : Nat) : Nat := (unit * 256 + ctx) * 2 ^ 41 + gran

def State.gran (s : State) (k : Nat) : Option Granule := kvGet (fun _ => none) s.mem.backing k

def State.setGran (s : State) (k : Nat) (g : Option Granule) : State :=
  { s with mem := { s.mem with backing := kvSet (fun _ => none) s.mem.backing k g } }

/-- Where a line (0–511) of a granule is: blocks already copied are in the new backing (R527). -/
def Granule.lineLoc (g : Granule) (line : Nat) : Loc :=
  match g.copyTo with
  | some l => if line / 32 < g.block then l else g.loc
  | none => g.loc

/-- The home die of a backing (R489). -/
def Loc.die : Loc → Nat
  | .hbm k _ => k / 4
  | .scr d _ => d

/-- A line's number in the stacks (or scratchpads): 512 lines a granule. -/
def Loc.lineKey : Loc → Nat → Nat
  | .hbm k i, line => (k * 2 ^ 20 + i) * 512 + line
  | .scr d i, line => (d * 2 ^ 16 + i) * 512 + line

/-- SCRATCH_WAYS of a die, and its cache ways (R492). -/
def State.scratchWays (s : State) (d : Nat) : Nat := s.fld (RF.MEM_D_STAT_SCRATCH_WAYS d)
def State.cacheWays (s : State) (d : Nat) : Nat := s.fld (RF.MEM_D_STAT_CACHE_WAYS d)

/-! ### Bytes -/

def kvBytes (m : KV Byte) (a : Nat) : Nat → List Byte
  | 0 => []
  | n + 1 => kvGet (fun _ => 0) m a :: kvBytes m (a + 1) n

/-- Replace bytes of a line from an offset. -/
def patch (line : List Byte) (off : Nat) (bs : List Byte) : List Byte :=
  line.take off ++ bs.take (line.length - off) ++ line.drop (off + bs.length)

/-- Sectors a byte run touches, and those it covers whole (R497). -/
def sectorsOf (off len : Nat) : Nat :=
  maskOf ((List.range 4).filter (fun i => decide (off < 32 * (i + 1)) && decide (32 * i < off + len) && decide (0 < len)))
def sectorsWhole (off len : Nat) : Nat :=
  maskOf ((List.range 4).filter (fun i => decide (off ≤ 32 * i) && decide (32 * (i + 1) ≤ off + len)))

/-- Take from `new` the sectors of a mask, the rest from `old`. -/
def mergeSectors (mask : Nat) (new old : List Byte) : List Byte :=
  (List.range 128).map (fun i => if natBit mask (i / 32) then new.getD i 0 else old.getD i 0)

/-! ### Stacks (R541 to R545) -/

def State.lineMeta (s : State) (k : Nat) : LineMeta := kvGet (fun _ => {}) s.mem.lines k

def State.setMeta (s : State) (k : Nat) (m : LineMeta) : State :=
  { s with mem := { s.mem with lines := kvSet (fun _ => {}) s.mem.lines k m } }

/-- The generation under which a partition's lines are encrypted (R827). -/
def State.genOf (s : State) (p : Nat) : Nat := (s.reg (RA.KWY_GEN p)).toNat

def lineStack (k : Nat) : Nat := k / 512 / 2 ^ 20

/-- The key of a partition in force (R825), 96 bytes. -/
def State.keyOfPart (s : State) (p : Nat) : List Byte := partKey s.kwy.salt p (s.genOf p)

/-- The tweak of a line: its index within the stack's user space, and the stack (R823). -/
def lineTweak (k : Nat) : List Byte := leBytes 8 (k % 2 ^ 29) ++ leBytes 1 (lineStack k) ++ List.replicate 7 (0 : Byte)

/-- The line as its stack stores it under a partition's key, and back (R823). -/
def sealLine (key : List Byte) (k : Nat) (data : List Byte) : List Byte := xtsEncrypt (key.take 32) ((key.drop 32).take 32) (lineTweak k) data
def openLine (key : List Byte) (k : Nat) (cipher : List Byte) : List Byte := xtsDecrypt (key.take 32) ((key.drop 32).take 32) (lineTweak k) cipher

/-- TAG of a stored line: 56 bits (R824). -/
def lineTag (key : List Byte) (k part : Nat) (cipher : List Byte) : Nat :=
  leNat ((hmacSm3 (key.drop 64) (lineTweak k ++ leBytes 1 part ++ cipher)).take 7)

/-- A line as it is stored. -/
def State.stored (s : State) (k : Nat) : List Byte := kvBytes s.mem.hbm (k * 128) 128

/-- Does TAG of a stored line match the key in force? -/
def State.tagOk (s : State) (k : Nat) : Bool :=
  let md := s.lineMeta k
  lineTag (s.keyOfPart md.part) k md.part (s.stored k) == md.tag

/-- POISON is set, with the data stored as read, for which TAG is made anew (R544). -/
def State.markBad (s : State) (k : Nat) : State :=
  let md := s.lineMeta k
  s.setMeta k { md with poison := true, tag := if md.valid then lineTag (s.keyOfPart md.part) k md.part (s.stored k) else md.tag }

/-- The channel on which a line lies: a fixed hash over its stack's channels in service (R541). -/
def State.channelOf (s : State) (k : Nat) : Nat :=
  let chs := maskBits 32 (s.fld (RF.MEM_S_INSERVICE_MASK (lineStack k)))
  chs.getD (Config.channelOf (k / 512) (k % 512) % max chs.length 1) 0

/-- The line buffer of 64 lines per channel (R543 step 5). -/
def State.bufferLine (s : State) (k : Nat) : State :=
  let ch := fun x => s.channelOf x + 32 * lineStack x
  let others := (s.mem.lineBuf.erase k).filter (fun x => ch x == ch k)
  let rest := (s.mem.lineBuf.erase k).filter (fun x => !(ch x == ch k))
  { s with mem := { s.mem with lineBuf := k :: (others.take 63 ++ rest) } }

/-- A memory event (R549): `vault` false for a stack. -/
def memRec (code : Nat) (vault : Bool) (chan unit_ addr : Nat) (d : List Byte) : Rec :=
  { code := code, srcKind := 11, srcId := chan * 256 + unit_ + (if vault then 32768 else 0), addr := addr, detail := d }

/-- The granule that a backing serves, with its key. -/
def State.granAt (s : State) (l : Loc) : Option (Nat × Granule) :=
  match s.mem.backing.find? (fun p => match p.2 with
      | some g => g.loc == l || g.copyTo == some l
      | none => false) with
  | some (k, some g) => some (k, g)
  | _ => none

/-- The stack granule of a line. -/
def lineLocOf (k : Nat) : Loc := .hbm (lineStack k) (k / 512 % 2 ^ 20)

/-- A line read or write reaches the stack: it counts for migration in its granule (R523). -/
def State.countLine (s : State) (k : Nat) : State :=
  match s.granAt (lineLocOf k) with
  | some (gk, g) => if g.loc == lineLocOf k then s.setGran gk (some { g with count := g.count + 1 }) else s
  | none => s

/-- Stack traffic of a partition: MEM_P_LINES, and the regulator's demand (R532, R533). -/
def State.stackTraffic (s : State) (line part : Nat) : State :=
  let stack := lineStack line
  let k := stack * 64 + part
  let s := (s.countLine line).bump64 (RF.MEM_P_LINES_COUNT_LO part) (RF.MEM_P_LINES_COUNT_HI part) 1
  { s with mem := { s.mem with
      demand := kvSet (fun _ => 0) s.mem.demand k (kvGet (fun _ => 0) s.mem.demand k + 128)
      hbmBusy := kvSet (fun _ => 0) s.mem.hbmBusy stack (kvGet (fun _ => 0) s.mem.hbmBusy stack + 1) } }

/-- The base die reads a whole line (R543, R544): zeros when VALID is 0; else it is decrypted, and a tag that does not match under the partition's key
in force poisons it. -/
def State.baseRead (s : State) (k addr : Nat) : State × List Byte × Bool :=
  let md := s.lineMeta k
  let stack := lineStack k
  let s := s.bufferLine k
  if !md.valid then (s, List.replicate 128 (0 : Byte), md.poison)
  else
    let data := openLine (s.keyOfPart md.part) k (s.stored k)
    if s.tagOk k then (s, data, md.poison)
    else
      let s := (s.markBad k).bump (RF.MEM_S_TAGFAIL_COUNT stack)
      (s.emit (memRec 0x0A03 false (s.channelOf k) stack addr (detailOf [(52, 1, md.part)])), data, true)

/-- The partition whose granule a stack's line is. -/
def State.linePart (s : State) (k : Nat) : Nat :=
  match s.granAt (lineLocOf k) with
  | some (_, g) => g.part
  | none => (s.lineMeta k).part

/-- Read a line of a stack: traffic of the partition whose granule it is. -/
def State.stackRead (s : State) (k addr : Nat) : State × List Byte × Bool := (s.stackTraffic k (s.linePart k)).baseRead k addr

/-- Write sectors of a line to its stack: the base die merges them into the stored line (R501), which it encrypts (R823, R824); POISON goes only with a
whole line written whole (R545). -/
def State.stackWrite (s : State) (k addr part mask : Nat) (data : List Byte) (whole poison : Bool) : State :=
  let (s, old, bad) := if mask = 15 then (s, data, (s.lineMeta k).poison) else s.baseRead k addr
  let key := s.keyOfPart part
  let cipher := sealLine key k (mergeSectors mask data old)
  let s := { s with mem := { s.mem with
    hbm := hostWriteBytes s.mem.hbm (k * 128) cipher
    lineBuf := s.mem.lineBuf.erase k } }
  (s.setMeta k { valid := true, poison := poison || (bad && !whole), part := part, tag := lineTag key k part cipher }).stackTraffic k part

/-! ### The vault cache -/

def noLine : VLine := {}

def State.vline (s : State) (k : Nat) : VLine := kvGet (fun _ => noLine) s.mem.vault k

def State.setVline (s : State) (k : Nat) (v : VLine) : State :=
  { s with mem := { s.mem with vault := kvSet (fun _ => noLine) s.mem.vault k v } }

/-- A use of a line: it becomes the most recently used of its set (R499). -/
def State.nextVuse (s : State) : Nat × State := (s.mem.uses + 1, { s with mem := { s.mem with uses := s.mem.uses + 1 } })
def State.useLine (s : State) (k : Nat) : State :=
  let (n, s) := s.nextVuse
  s.setVline k { s.vline k with used := n }

/-- The bytes of a reduction, and what it makes of a line's data (R515); BF16 reductions are element by element. -/
def Reduction.width (r : Reduction) : Nat := if r.ty = 2 then 8 else if r.ty = 4 then 2 else 4
def Reduction.apply (r : Reduction) (data : List Byte) : List Byte :=
  let old := leNat ((data.drop r.off).take r.width)
  patch data r.off (leBytes r.width (atomOp r.aop r.ty old r.val 0))

/-- Count a drop (R513). -/
def State.deadDrop (s : State) (k : Nat) : State :=
  (s.setVline k noLine).bump (RF.MEM_D_DEADDROP_COUNT (lineStack k / 4))

/-- Evict a line: dirty sectors are written back, a dead-marked line is dropped (R501, R510). -/
def State.evict (s : State) (k : Nat) : State :=
  let v := s.vline k
  if v.dead then s.deadDrop k
  else
    let s := s.setVline k noLine
    if v.dirty = 0 then s
    else s.stackWrite k 0 v.part v.dirty v.data (v.dirty == 15 && v.whole == 15) v.poison

/-- The set of a line in its home slice (R492, R498), and its set group. -/
def vaultSetOf (k : Nat) : Nat := Config.vaultSet k % 1572864
def setGroup (k : Nat) : Nat := vaultSetOf k / 1024

/-- Lines present in the set of a line. -/
def State.setLines (s : State) (k : Nat) : List Nat :=
  kvKeys (fun _ => true) (s.mem.vault.filter (fun p =>
    lineStack p.1 / 4 == lineStack k / 4 && vaultSetOf p.1 == vaultSetOf k))

/-- The pinned lines in a line's set group (R507). -/
def State.pinnedIn (s : State) (k : Nat) : Nat :=
  (s.mem.vault.filter (fun p => p.2.pinned && lineStack p.1 / 4 == lineStack k / 4 && setGroup p.1 == setGroup k)).length

/-- Bring the sectors of a mask into a present line (R497). -/
def State.fillSectors (s : State) (k addr mask : Nat) : State :=
  let v := s.vline k
  let need := mask - Nat.land mask v.valid
  if need = 0 then s
  else
    let (s, data, bad) := s.stackRead k addr
    s.setVline k { v with
      data := mergeSectors need data v.data
      valid := Nat.lor v.valid need
      poison := v.poison || bad }

/-- A line of an atomic buffer (R496): one of 64 at its stack's controller, held whole. -/
def State.abufAt (s : State) (k : Nat) : VLine := kvGet (fun _ => noLine) s.mem.abuf k
def State.setAbuf (s : State) (k : Nat) (v : VLine) : State :=
  { s with mem := { s.mem with abuf := kvSet (fun _ => noLine) s.mem.abuf k v } }

/-- A line leaves its atomic buffer: what atomics changed is written to the stack. -/
def State.abufFlush (s : State) (k : Nat) : State :=
  let v := s.abufAt k
  if v == noLine then s
  else
    let s := s.setAbuf k noLine
    if v.dirty = 0 then s else s.stackWrite k 0 v.part v.dirty v.data false v.poison

/-- Retire every reduction pending on a line (R516 to R518); `count`: an eviction waited for them. -/
def State.retireAll (s : State) (loc : Loc) (line : Nat) (count : Bool) (run : State → Reduction → State) : State :=
  let rs := s.mem.reds.filter (fun r => r.loc == loc && r.line == line)
  if rs.isEmpty then s
  else
    let s := if count then s.bump RF.MEM_REDWAIT_COUNT else s
    let s := { s with mem := { s.mem with reds := s.mem.reds.filter (fun r => !(r.loc == loc && r.line == line)) } }
    rs.foldl run s

/-- Apply one reduction where its line is held: in the cache, in the atomic buffer, or in the stack. A poisoned line is left as it is (R545). -/
def State.retireOne (s : State) (k : Nat) (r : Reduction) : State :=
  let m := sectorsOf r.off r.width
  if !(s.vline k == noLine) then
    let s := s.fillSectors k r.ctl.addr m
    let v := s.vline k
    if v.poison then s else s.setVline k { v with data := r.apply v.data, dirty := Nat.lor v.dirty m, dead := false }
  else
    let v := s.abufAt k
    if !(v == noLine) then (if v.poison then s else s.setAbuf k { v with data := r.apply v.data, dirty := Nat.lor v.dirty m })
    else
      let (s, data, bad) := s.stackRead k r.ctl.addr
      if bad then s else s.stackWrite k r.ctl.addr (s.linePart k) m (r.apply data) false false

/-- The pending reductions of a stack's line, applied in place. -/
def State.retireLine (s : State) (k : Nat) (count : Bool) : State :=
  s.retireAll (lineLocOf k) (k % 512) count (fun s r => s.retireOne k r)

/-- A dead-marked line is dropped, unless a reduction that was pending has cleared its mark (R511, R517). -/
def State.dropDead (s : State) (k : Nat) : State :=
  let s := s.retireLine k false
  if (s.vline k).dead then s.deadDrop k else s

/-- The pseudo-LRU victim among lines of a set: one at the pseudo-LRU position; else any but the one used last. -/
def State.vaultLru (s : State) (ls : List Nat) : Option Nat × State :=
  let low := ls.filter (fun x => (s.vline x).used == 0)
  let top := ls.foldl (fun m x => max m (s.vline x).used) 0
  let rest := ls.filter (fun x => decide ((s.vline x).used < top))
  let from_ := if !low.isEmpty then low else if !rest.isEmpty then rest else ls
  let (i, s) := s.nextFree
  (from_[Config.vaultVictim i from_.length % from_.length]?, s)

/-- Make room for a line in its set and allocate it; `none` when every way is pinned (R499). -/
def State.vaultRoom (s : State) (k : Nat) : Option State :=
  let ls := s.setLines k
  if ls.length < s.cacheWays (lineStack k / 4) then some s
  else
    let free := ls.filter (fun x => !(s.vline x).pinned)
    match free.find? (fun x => (s.vline x).dead) with
    | some x => some ((s.retireLine x true).evict x)
    | none =>
      if free.isEmpty then none
      else
        match s.vaultLru free with
        | (some x, s) => some ((s.retireLine x true).evict x)
        | (none, _) => none

/-- Classes that a bypass level keeps from allocating (R538). -/
def bypassed (level cls : Nat) : Bool := ([4, 3, 2, 1].take level).contains cls

/-- Count one sector lookup of a class (R503). -/
def State.lookups (s : State) (d cls look hit part : Nat) : State :=
  let s := s.bump64 (RF.MEM_D_LOOKUP_COUNT_LO d cls) (RF.MEM_D_LOOKUP_COUNT_HI d cls) look
  let s := s.bump64 (RF.MEM_D_HIT_COUNT_LO d cls) (RF.MEM_D_HIT_COUNT_HI d cls) hit
  s.bump64 (RF.MEM_D_PARTIAL_COUNT_LO d cls) (RF.MEM_D_PARTIAL_COUNT_HI d cls) part

/-- The vault's busy cycles for the saturation window (R536). -/
def State.vaultCycle (s : State) (d : Nat) : State :=
  { s with mem := { s.mem with vaultBusy := kvSet (fun _ => 0) s.mem.vaultBusy d (kvGet (fun _ => 0) s.mem.vaultBusy d + 1) } }

/-- The granule of a line has a demoted pin request, which counts as HOT advice (R507). -/
def State.markDemoted (s : State) (k : Nat) : State :=
  match s.granAt (lineLocOf k) with
  | some (gk, g) => s.setGran gk (some { g with demoted := true })
  | none => s

/-- Allocate a line (R499, R507, R510): its pin is granted within the set group's quota. A poisoned line stays poisoned until it is written whole
(R545); a line of a COLD range enters at the pseudo-LRU position (Table 10.3). -/
def State.allocLine (s : State) (k part : Nat) (c : HomeCtl) : Option State :=
  match s.vaultRoom k with
  | none => none
  | some s =>
    let quota := 768 * s.cacheWays (lineStack k / 4)
    let pin := c.pinned && decide (s.pinnedIn k < quota)
    let s := if c.pinned && !pin then (s.bump RF.MEM_PIN_DEMOTE_COUNT).markDemoted k else s
    let s := s.setVline k { data := List.replicate 128 (0 : Byte), pinned := pin, dead := c.dead, part := part, poison := (s.lineMeta k).poison }
    some (if c.cold then s else s.useLine k)

/-- Does an access of this class allocate in the die's slice? -/
def State.allocates (s : State) (d : Nat) (c : HomeCtl) : Bool :=
  decide (0 < s.cacheWays d) && !c.stream && !bypassed (s.fld (RF.MEM_D_STAT_BYPASS d)) c.cls

/-- Bring a line into its atomic buffer, where 64 lines have room (R496): the line that leaves is a free choice, and its reductions retire first. -/
def State.abufLoad (s : State) (k part addr : Nat) : State :=
  if !(s.abufAt k == noLine) then s
  else
    let mine := kvKeys (fun _ => true) (s.mem.abuf.filter (fun p => lineStack p.1 == lineStack k))
    let s := if mine.length < 64 then s else
      let (i, s) := s.nextFree
      match mine[Config.vaultVictim i mine.length % mine.length]? with
      | some x => (s.retireLine x false).abufFlush x
      | none => s
    let (s, data, bad) := s.stackRead k addr
    s.setAbuf k { valid := 15, data := data, poison := bad, part := part }

def popMask (m : Nat) : Nat := (maskBits 4 m).length

/-- Read a line of a die without cache ways (R496). -/
def State.bareRead (s : State) (k part : Nat) (c : HomeCtl) : State × List Byte × Bool :=
  if c.atomic then
    let s := s.abufLoad k part c.addr
    (s, (s.abufAt k).data, (s.abufAt k).poison)
  else (s.abufFlush k).stackRead k c.addr

/-- Read a line of a stack granule at its home slice. -/
def State.slcRead (s : State) (k part mask : Nat) (c : HomeCtl) : State × List Byte × Bool :=
  let d := lineStack k / 4
  if s.cacheWays d = 0 then s.bareRead k part c
  else
    let s := s.vaultCycle d
    let v := s.vline k
    let read : State → State × List Byte × Bool := fun s =>
      let v := s.vline k
      let s := s.setVline k { v with seen := Nat.lor v.seen mask }
      (if v.dead && Nat.land v.valid (Nat.lor v.seen mask) == v.valid then s.dropDead k else s, v.data, v.poison)
    if !(v == noLine) then
      let hit := popMask (Nat.land mask v.valid)
      read (((s.lookups d c.cls (popMask mask) hit (popMask mask - hit)).fillSectors k c.addr mask).useLine k)
    else if s.allocates d c then
      match s.allocLine k part c with
      | some s => read ((s.lookups d c.cls (popMask mask) 0 0).fillSectors k c.addr mask)
      | none => s.stackRead k c.addr
    else s.stackRead k c.addr

/-- Write bytes of a line straight to its stack; part of a sector is merged into the sector first. -/
def State.directWrite (s : State) (k part off : Nat) (bs : List Byte) (addr : Nat) : State :=
  let touched := sectorsOf off bs.length
  let whole := sectorsWhole off bs.length
  let (s, old, _) := if touched = whole then (s, List.replicate 128 (0 : Byte), false) else s.stackRead k addr
  s.stackWrite k addr part touched (patch old off bs) (whole == 15) false

/-- Write to a line of a die without cache ways (R496). -/
def State.bareWrite (s : State) (k part off : Nat) (bs : List Byte) (c : HomeCtl) : State :=
  if c.atomic then
    let s := s.abufLoad k part c.addr
    let v := s.abufAt k
    s.setAbuf k { v with data := patch v.data off bs, dirty := Nat.lor v.dirty (sectorsOf off bs.length) }
  else (s.abufFlush k).directWrite k part off bs c.addr

/-- Write bytes to a present line (R500, R511, R545). -/
def State.putBytes (s : State) (k off : Nat) (bs : List Byte) (addr : Nat) : State :=
  let touched := sectorsOf off bs.length
  let whole := sectorsWhole off bs.length
  let s := s.fillSectors k addr (touched - Nat.land touched whole)
  let v := s.vline k
  let w := Nat.lor v.whole whole
  let dirty := Nat.lor v.dirty touched
  s.setVline k { v with
    data := patch v.data off bs
    valid := Nat.lor v.valid touched
    dirty := dirty
    whole := w
    dead := false
    poison := if whole = 15 || (dirty == 15 && w == 15) then false else v.poison }

/-- Write bytes of a line of a stack granule at its home slice (R500). -/
def State.slcWrite (s : State) (k part off : Nat) (bs : List Byte) (c : HomeCtl) : State :=
  let d := lineStack k / 4
  if s.cacheWays d = 0 then s.bareWrite k part off bs c
  else
    let s := s.vaultCycle d
    let touched := sectorsOf off bs.length
    let cut := touched - Nat.land touched (sectorsWhole off bs.length)
    let v := s.vline k
    if !(v == noLine) then
      ((s.lookups d c.cls (popMask touched) (popMask (Nat.land touched v.valid)) (popMask (cut - Nat.land cut v.valid))).putBytes k off bs c.addr).useLine k
    else if s.allocates d c then
      match s.allocLine k part c with
      | some s => (s.lookups d c.cls (popMask touched) 0 0).putBytes k off bs c.addr
      | none => s.directWrite k part off bs c.addr
    else s.directWrite k part off bs c.addr

/-! ### Scratchpads -/

def State.scrRead (s : State) (k : Nat) : List Byte × Bool :=
  (kvBytes s.mem.scratch (k * 128) 128, kvGet (fun _ => false) s.mem.scrPoison k)

def State.scrWrite (s : State) (k off : Nat) (bs : List Byte) : State :=
  { s with mem := { s.mem with
    scratch := hostWriteBytes s.mem.scratch (k * 128 + off) bs
    scrPoison := if off = 0 ∧ 128 ≤ bs.length then kvSet (fun _ => false) s.mem.scrPoison k false else s.mem.scrPoison } }

/-! ### A line of a granule at its home -/

/-- Count an access served from the scratchpad of a migrated granule (R523). -/
def State.countGran (s : State) (gk : Nat) (g : Granule) (l : Loc) : State :=
  let counts := match l with
    | .hbm _ _ => false
    | .scr _ _ => g.resv.isSome
  if counts then s.setGran gk (some { g with count := g.count + 1 }) else s

/-- Read a line at its home; pending reductions reach it first (R514, order at the home). -/
def State.homeRead (s : State) (gk : Nat) (g : Granule) (line mask : Nat) (c : HomeCtl) : State × List Byte × Bool :=
  let l := g.lineLoc line
  let s := s.countGran gk g l
  match l with
  | .hbm _ _ => s.slcRead (l.lineKey line) g.part mask c
  | .scr d _ =>
    let (data, bad) := s.scrRead (l.lineKey line)
    (s.vaultCycle d, data, bad)

def State.homeWrite (s : State) (gk : Nat) (g : Granule) (line off : Nat) (bs : List Byte) (c : HomeCtl) : State :=
  let l := g.lineLoc line
  let s := s.countGran gk g l
  match l with
  | .hbm _ _ => s.slcWrite (l.lineKey line) g.part off bs c
  | .scr d _ => (s.vaultCycle d).scrWrite (l.lineKey line) off bs

/-- Mark a line poisoned where it is held (R544, R550). -/
def State.poisonLine (s : State) (g : Granule) (line : Nat) : State :=
  let l := g.lineLoc line
  let k := l.lineKey line
  match l with
  | .hbm _ _ =>
    if !(s.vline k == noLine) then s.setVline k { s.vline k with poison := true }
    else if !(s.abufAt k == noLine) then s.setAbuf k { s.abufAt k with poison := true }
    else s.setMeta k { s.lineMeta k with poison := true }
  | .scr _ _ => { s with mem := { s.mem with scrPoison := kvSet (fun _ => false) s.mem.scrPoison k true } }

/-- What the vault's arrays report of a byte of a line (R550): `err` 1 a single-bit error, 2 a double-bit error. A clean sector that is cached is
invalidated, to be fetched again; a dirty one, and a scratch line, are marked poisoned. A sector that the vault does not hold meets none. -/
def State.vaultErr (s : State) (g : Granule) (line off addr err : Nat) : State :=
  let l := g.lineLoc line
  let k := l.lineKey line
  let v := s.vline k
  let m := sectorsOf off 1
  let ev := fun (s : State) (c : Nat) => (s.bump (RF.MEM_D_ECC_UE_COUNT l.die)).emit
    (memRec 0x0A06 true (Config.vaultChannel k % 64) l.die addr (detailOf [(52, 1, c)]))
  let held := match l with
    | .hbm _ _ => !(v == noLine) && !(Nat.land v.valid m == 0)
    | .scr _ _ => true
  if !held then s
  else match err with
    | 1 => s.bump (RF.MEM_D_ECC_CE_COUNT l.die)
    | 2 =>
      let scratch := match l with
        | .hbm _ _ => false
        | .scr _ _ => true
      if scratch || !(Nat.land v.dirty m == 0) then ev (s.poisonLine g line) 1 else ev (s.setVline k { v with valid := v.valid - m }) 0
    | _ => s

/-- Perform one reduction on a line of a granule, at its home: a poisoned line is left as it is (R545). -/
def State.reduceAt (s : State) (gk : Nat) (g : Granule) (line : Nat) (r : Reduction) : State :=
  let (s, data, bad) := s.homeRead gk g line (sectorsOf r.off r.width) r.ctl
  if bad then s else s.homeWrite gk g line r.off (((r.apply data).drop r.off).take r.width) r.ctl

/-- Retire the reductions pending on a line of a granule, at its home (R516). -/
def State.retireGran (s : State) (gk : Nat) (g : Granule) (line : Nat) : State :=
  s.retireAll (g.lineLoc line) line false (fun s r => s.reduceAt gk g line r)

/-- A read at the home that waits for the line's pending reductions (both kinds to one line are applied in order). -/
def State.cohRead (s : State) (gk line mask : Nat) (c : HomeCtl) : State × List Byte × Bool :=
  match s.gran gk with
  | some g =>
    let s := s.retireGran gk g line
    match s.gran gk with
    | some g => s.homeRead gk g line mask c
    | none => (s, List.replicate 128 (0 : Byte), false)
  | none => (s, List.replicate 128 (0 : Byte), false)

def State.cohWrite (s : State) (gk line off : Nat) (bs : List Byte) (c : HomeCtl) : State :=
  match s.gran gk with
  | some g =>
    let s := s.retireGran gk g line
    match s.gran gk with
    | some g => s.homeWrite gk g line off bs c
    | none => s
  | none => s

/-! ### What the directory holds of a line (R559 to R564) -/

/-- A line's identity: its granule and its place in it (R559). -/
def lineId (gk line : Nat) : Nat := gk * 512 + line

def State.l2At (s : State) (core id : Nat) : Option L2Line := kvGet (fun _ => none) s.coh.l2 (id * 128 + core)
def State.setL2 (s : State) (core id : Nat) (x : Option L2Line) : State :=
  { s with coh := { s.coh with l2 := kvSet (fun _ => none) s.coh.l2 (id * 128 + core) x } }
def State.l1dAt (s : State) (core id : Nat) : Option L1Line := kvGet (fun _ => none) s.coh.l1d (id * 128 + core)
def State.setL1d (s : State) (core id : Nat) (x : Option L1Line) : State :=
  { s with coh := { s.coh with l1d := kvSet (fun _ => none) s.coh.l1d (id * 128 + core) x } }
def State.l1iAt (s : State) (core id : Nat) : Option Nat := kvGet (fun _ => none) s.coh.l1i (id * 128 + core)
def State.setL1i (s : State) (core id : Nat) (x : Option Nat) : State :=
  { s with coh := { s.coh with l1i := kvSet (fun _ => none) s.coh.l1i (id * 128 + core) x } }
def State.dirAt (s : State) (id : Nat) : Option DirEnt := kvGet (fun _ => none) s.coh.dir id

/-- The leaf of a line's home directory (R560). -/
def State.dirLeaf (s : State) (id : Nat) : Nat :=
  match s.gran (id / 512) with
  | some g => g.home
  | none => 0

/-- Entries of a directory. -/
def State.dirCount (s : State) (leaf : Nat) : Nat := (s.coh.dir.filter (fun p => s.dirLeaf p.1 == leaf)).length

/-- Write a directory entry; an entry with no holder is freed. COH_L_OCC follows. -/
def State.setDir (s : State) (id : Nat) (e : DirEnt) : State :=
  let e' := if e.owner.isNone && e.sharers.isEmpty then none else some e
  let s := { s with coh := { s.coh with dir := kvSet (fun _ => none) s.coh.dir id e' } }
  s.setFld (RF.COH_L_OCC_ENTRIES (s.dirLeaf id)) (s.dirCount (s.dirLeaf id))

/-- A dirty L1D copy of a line is written to L2, which holds the line (R462, R466); the copy stays, clean. -/
def State.syncL1 (s : State) (core id : Nat) : State :=
  match s.l1dAt core id, s.l2At core id with
  | some y, some x =>
    if y.dirty then (s.setL2 core id (some { x with data := y.data, poison := y.poison })).setL1d core id (some { y with dirty := false }) else s
  | _, _ => s

/-- The L1 copies of a line leave (R467). -/
def State.dropL1 (s : State) (core id : Nat) : State := (s.setL1d core id none).setL1i core id none

/-- A line leaves an L2, and L1I and L1D with it (R467): a reservation on it is lost (R424). -/
def State.dropL2 (s : State) (core id : Nat) : State :=
  let s := s.dropL1 core id
  let v := kvGet (fun _ => {}) s.vc.cores core
  let s := if v.resv = some id then
      { s with vc := { s.vc with cores := kvSet (fun _ => {}) s.vc.cores core { v with resv := none } } }
    else s
  s.setL2 core id none

def Moesi.dirty : Moesi → Bool
  | .m => true
  | .o => true
  | _ => false

/-- Is a line homed on, or backed by, a dead die (R589)? -/
def State.deadHome (s : State) (gk line : Nat) : Option Nat :=
  match s.gran gk with
  | some g => if s.coh.deadDies.contains (g.lineLoc line).die then some ((g.lineLoc line).die / 4) else none
  | none => none

/-- A whole line comes back from an L2 to its home, with its poison mark; at a dead home it is discarded (R589). -/
def State.lineHome (s : State) (id : Nat) (data : List Byte) (poison : Bool) : State :=
  match s.deadHome (id / 512) (id % 512) with
  | some leaf => s.bump (RF.COH_L_POISONED_COUNT leaf)
  | none =>
    let s := s.cohWrite (id / 512) (id % 512) 0 data { cls := 5 }
    if poison then (match s.gran (id / 512) with
      | some g => s.poisonLine g (id % 512)
      | none => s) else s

/-- Dirty data of a line that is on its way to its directory, or gathered there, is brought home before a non-coherent access. -/
def State.settleLine (s : State) (id : Nat) : State :=
  let s := (s.coh.txns.filter (fun t => t.req.line == id)).foldl (fun s t => match t.data with
    | some d => s.lineHome id d t.poison
    | none => s) s
  let s := (s.coh.replies.filter (fun r => r.line == id)).foldl (fun s r => match r.data with
    | some d => s.lineHome id d r.poison
    | none => s) s
  { s with coh := { s.coh with
    txns := s.coh.txns.map (fun t => if t.req.line = id then { t with data := none } else t)
    replies := s.coh.replies.map (fun r => if r.line = id then { r with data := none } else r) } }

/-- SnpW to the owner before a non-coherent read (R575): dirty data goes home, a DO entry becomes DS. -/
def State.recallRead (s : State) (id : Nat) : State :=
  let s := s.settleLine id
  match s.dirAt id with
  | none => s
  | some e =>
    match e.owner with
    | none => s
    | some o =>
      let s := (s.bump (RF.COH_L_SNOOP_COUNT (s.dirLeaf id))).syncL1 o id
      match s.l2At o id with
      | none => s
      | some x =>
        let s := if x.st.dirty then s.lineHome id x.data x.poison else s
        if x.evicting then (s.dropL2 o id).setDir id { owner := none, sharers := e.sharers }
        else
          match x.st with
          | .m => s.setL2 o id (some { x with st := .e })
          | .o => (s.setL2 o id (some { x with st := .s })).setDir id { owner := none, sharers := o :: e.sharers }
          | _ => s

/-- SnpI to the owner and Inv to every sharer before a non-coherent write, atomic or reduction (R576): the entry becomes DI.
A grant of the line that is still on its way counts as delivered, and the line leaves that L2 too. -/
def State.recallWrite (s : State) (id : Nat) : State :=
  let s := s.settleLine id
  match s.dirAt id with
  | none => s
  | some e =>
    let leaf := s.dirLeaf id
    let s := (s.bump (RF.COH_L_NCRECALL_COUNT leaf)).bumpN (RF.COH_L_SNOOP_COUNT leaf) (e.sharers.length + if e.owner.isSome then 1 else 0)
    let s := match e.owner with
      | some o =>
        let s := s.syncL1 o id
        match s.l2At o id with
        | some x => (if x.st.dirty then s.lineHome id x.data x.poison else s).dropL2 o id
        | none => s
      | none => s
    let s := { s with coh := { s.coh with msgs := s.coh.msgs.filter (fun m => !(m.kind == 4 && m.line == id)) } }
    (e.sharers.foldl (fun s c => s.dropL2 c id) s).setDir id {}

/-- Does an L2 hold a line that it has newly won (R571)? -/
def L2Line.held (x : L2Line) (now : Nat) : Bool :=
  match x.holdUntil with
  | some t => decide (now < t)
  | none => false

/-- The L2s that a recall of a line reaches: its owner, and before a write every sharer. -/
def State.recallOf (s : State) (id : Nat) (write : Bool) : List Nat :=
  match s.dirAt id with
  | none => []
  | some e => (match e.owner with
    | some o => [o]
    | none => []) ++ (if write then e.sharers else [])

/-- Is a line in a transaction at its directory, or held by an L2 (R566, R571)? A non-coherent access that needs a recall waits. -/
def State.lineWaits (s : State) (id : Nat) (write : Bool) : Bool :=
  s.coh.txns.any (fun t => t.req.line == id) || (!(s.dirAt id).isNone && s.coh.msgs.any (fun m => m.line == id)) ||
    (s.recallOf id write).any (fun c => match s.l2At c id with
      | some x => x.held s.now
      | none => false)

/-- The recall that waits for a hold counts, once (R571, R572). -/
def State.noteHold (s : State) (id core : Nat) : State :=
  match s.l2At core id with
  | some x => if x.held s.now && !x.recalled then (s.setL2 core id (some { x with recalled := true })).bump (RF.COH_L_HOLDWAIT_COUNT (s.dirLeaf id))
    else s
  | none => s

/-- Does an access of a non-coherent agent to a run of lines wait, and what its waiting counts. -/
def State.piecesWait (s : State) (unit ctx : Nat) (write : Bool) (ps : List (Nat × Nat × Nat × Nat)) : Bool :=
  ps.any (fun p => s.lineWaits (lineId (granKey unit ctx p.1) p.2.1) write)
def State.noteWaits (s : State) (unit ctx : Nat) (write : Bool) (ps : List (Nat × Nat × Nat × Nat)) : State :=
  ps.foldl (fun s p => let id := lineId (granKey unit ctx p.1) p.2.1
    (s.recallOf id write).foldl (fun s c => s.noteHold id c) s) s

/-! ### Accesses of non-coherent agents -/

def State.lineRead (s : State) (gk line mask : Nat) (c : HomeCtl) : State × List Byte × Bool :=
  match s.deadHome gk line with
  | some leaf => (s.bump (RF.COH_L_POISONED_COUNT leaf), List.replicate 128 (0 : Byte), true)
  | none => (s.recallRead (lineId gk line)).cohRead gk line mask c

def State.lineWrite (s : State) (gk line off : Nat) (bs : List Byte) (c : HomeCtl) : State :=
  match s.deadHome gk line with
  | some leaf => s.bump (RF.COH_L_POISONED_COUNT leaf)
  | none => (s.recallWrite (lineId gk line)).cohWrite gk line off bs c

/-- An atomic at its home: `f` gives the new bytes from the old. A poisoned line is left (R545); at a dead home it is discarded and
the old value is delivered with the poison mark. -/
def State.lineAtomic (s : State) (gk line off w : Nat) (f : Nat → Nat) (c : HomeCtl) : State × Nat × Bool :=
  match s.deadHome gk line with
  | some leaf => (s.bump (RF.COH_L_POISONED_COUNT leaf), 0, true)
  | none =>
    let c := { c with atomic := true }
    let (s, data, bad) := (s.recallWrite (lineId gk line)).cohRead gk line (sectorsOf off w) c
    let old := leNat ((data.drop off).take w)
    if bad then (s, old, true) else (s.cohWrite gk line off (leBytes w (f old)) c, old, false)

/-! ### Runs of bytes of one granule or more -/

/-- Split a run into (granule, line, offset, length) pieces, one per line. -/
def pieces (va : Nat) : Nat → List (Nat × Nat × Nat × Nat)
  | 0 => []
  | len + 1 =>
    let first := min (128 - va % 128) (len + 1)
    let n := ceilDiv (len + 1 - first) 128
    (va / 65536, va % 65536 / 128, va % 128, first) ::
      (List.range n).map (fun i =>
        let a := va + first + 128 * i
        (a / 65536, a % 65536 / 128, 0, min 128 (len + 1 - first - 128 * i)))

/-- Read a run of a context's device memory. -/
def State.runRead (s : State) (unit ctx : Nat) (c : HomeCtl) : List (Nat × Nat × Nat × Nat) → State × List Byte × Bool
  | [] => (s, [], false)
  | (g, line, off, len) :: r =>
    let (s, data, bad) := s.lineRead (granKey unit ctx g) line (sectorsOf off len) c
    let (s, rest, bad') := s.runRead unit ctx c r
    (s, (data.drop off).take len ++ rest, bad || bad')

def State.runWrite (s : State) (unit ctx : Nat) (c : HomeCtl) : List (Nat × Nat × Nat × Nat) → List Byte → State
  | [], _ => s
  | (g, line, off, len) :: r, bs =>
    (s.lineWrite (granKey unit ctx g) line off (bs.take len) c).runWrite unit ctx c r (bs.drop len)

end Sys2Proof.Machine
end

