-- ==== Sys2Proof/Machine/TmbOps.lean ====
section
/-! DEFINITION. What a tumbler does at its home (R643 to R650, R656 to R660), as operations that every source shares. -/

namespace Sys2Proof.Machine

def State.tmbAt (s : State) (n : Nat) : Tmb := kvGet (fun _ => {}) s.tmb.tmbs n

def State.setTmb (s : State) (n : Nat) (t : Tmb) : State :=
  { s with tmb := { s.tmb with tmbs := kvSet (fun _ => {}) s.tmb.tmbs n t } }

/-- The leaf whose P-die is a tumbler's home (R641). -/
def tmbLeaf (n : Nat) : Nat := n / 16384

/-- The state word (Table 13.1). -/
def Tmb.word (t : Tmb) : Nat :=
  match t.kind with
  | 1 => t.value
  | 2 => t.gen * 65536 + t.value
  | 3 => t.gen * 65536 + t.value
  | 4 => t.gen * 65536 + t.tokens.length
  | _ => 0

/-- The register TMB_STATE shows the state word as the home holds it (R652). -/
def State.putTmb (s : State) (n : Nat) (t : Tmb) : State :=
  (s.setTmb n t).setFld (RF.TMB_STATE_STATE n) t.word

/-- VALUE − t, taken as a signed 32-bit value, is 0 or more. -/
def reached (value t : Nat) : Bool := decide ((value + 2 ^ 32 - t % 2 ^ 32) % 2 ^ 32 < 2 ^ 31)

/-- Is a wait operand one that the kind takes (R648)? -/
def Tmb.operandOk (t : Tmb) (x : Nat) : Bool :=
  match t.kind with
  | 1 => true
  | 2 => decide (x < 65536)
  | 3 => decide (x < 2 * 65536)
  | 4 => x == 0
  | _ => false

/-- The end condition of a wait (Table 13.1). -/
def Tmb.ended (t : Tmb) (x : Nat) : Bool :=
  match t.kind with
  | 1 => reached t.value x
  | 2 => !(t.gen == x)
  | 3 => if x < 65536 then t.value == 1 else !(t.gen == x - 65536)
  | 4 => decide (1 ≤ t.tokens.length)
  | _ => false

/-- Send an answer to a requester. -/
def State.note (s : State) (src : TmbSrc) (n : Nat) (a : TmbAns) : State :=
  { s with tmb := { s.tmb with notes := s.tmb.notes ++ [{ src := src, tmb := n, ans := a, at_ := s.now }] } }

def State.notes (s : State) (n : Nat) (a : TmbAns) : List TmbWait → State
  | [] => s
  | w :: r => (s.note w.src n a).notes n a r

/-- Registered waits at a home, of 16,384 (R659). -/
def State.waitsAt (s : State) (leaf : Nat) : Nat :=
  (s.tmb.tmbs.filter (fun p => tmbLeaf p.1 == leaf)).foldl (fun acc p => acc + p.2.waits.length) 0

/-- Registrations freed at a home are reserved for the oldest waits it has turned back, whose sources are told (R659). -/
def State.offer (s : State) (leaf : Nat) : Nat → State
  | 0 => s
  | k + 1 =>
    match s.tmb.turned.find? (fun r => tmbLeaf r.tmb == leaf) with
    | none => s
    | some r =>
      let s := { s with tmb := { s.tmb with
        turned := s.tmb.turned.erase r
        told := s.tmb.told ++ [{ r with reserved := true }]
        reservations := kvSet (fun _ => 0) s.tmb.reservations leaf (kvGet (fun _ => 0) s.tmb.reservations leaf + 1) } }
      s.offer leaf k

/-- End, as firings, the registered waits whose condition now holds (R647). -/
def State.endWaits (s : State) (n : Nat) : State :=
  let t := s.tmbAt n
  let (done, left) := t.waits.partition (fun w => t.ended w.operand)
  let s := s.putTmb n { t with waits := left }
  (s.notes n .fired done).offer (tmbLeaf n) done.length

/-- The unit whose range holds a tumbler, innermost and exported: its function takes the notification (R710). -/
def State.tmbFn (s : State) (n : Nat) : Nat :=
  let us := s.ward.image.units.filter (fun u => decide (u.tmbBase ≤ n) && decide (n < u.tmbBase + u.tmbCount) && !(u.vf == 0))
  match us.foldl (fun (best : Option UnitEnt) u => match best with
      | some b => if b.depth < u.depth then some u else some b
      | none => some u) none with
  | some u => u.vf
  | none => 0

/-- One notification entry (R710): a full ring discards it. -/
def State.notifyHost (s : State) (n : Nat) (gen : Nat) : State :=
  let fn := s.tmbFn n
  if s.flag (RF.HIF_NT_CFG_EN.ofFn fn) then
    let size := 2 ^ ringLog (s.fld (RF.HIF_NT_CFG_LOG2.ofFn fn))
    let tail := s.fld (RF.HIF_NT_TAIL_TAIL.ofFn fn)
    let used := (tail + 65536 - s.fld (RF.HIF_NT_HEAD_HEAD.ofFn fn)) % 65536
    if size ≤ used then s.bump (RF.HIF_NT_LOST_COUNT.ofFn fn)
    else
      let base := s.fld (RF.HIF_NT_BASE_LO_BASE.ofFn fn) * 4096 + 2 ^ 32 * s.fld (RF.HIF_NT_BASE_HI_BASE.ofFn fn)
      let v := n + gen * 65536 + (s.tickCount % 2 ^ 32) * 2 ^ 32
      let s := s.hostWrite (base + 8 * (tail % size)) (leBytes 8 v)
      (s.setFld (RF.HIF_NT_TAIL_TAIL.ofFn fn) (tail + 1)).raiseVector fn 1
  else s

/-- Pins with FUNC 5 on this tumbler pulse for 200 ns, 500 cycles (Table 3.7). -/
def State.pulsePins (s : State) (n : Nat) : State :=
  let ps := (List.range 16).filter (fun i =>
    let p := s.ward.image.pins.getD i {}
    p.func == 5 && p.tumbler == n)
  { s with pins := { s.pins with
    tmbOutUntil := ps.foldl (fun m i => kvSet (fun _ => 0) m i (s.now + 500)) s.pins.tmbOutUntil } }

/-- A firing (R643): GEN rises by 1, it is counted, notified, shown on pins, and ends the waits it meets. -/
def State.fireTmb (s : State) (n : Nat) : State :=
  let t := s.tmbAt n
  let g := (t.gen + 1) % 65536
  let s := (s.putTmb n { t with gen := g }).bump (RF.MGT_TMB_FIRES_COUNT (tmbLeaf n))
  let s := if t.notify then s.notifyHost n g else s
  (s.pulsePins n).endWaits n

/-- The relay entries that forward a tumbler's arrivals, in ascending entry order (R757). -/
def State.relaysOf (s : State) (n : Nat) : List Nat :=
  (List.range 1024).filter (fun i =>
    let lo := (s.reg (RA.PTL_RELAY_LO i)).toNat
    natBit lo 15 && natBits lo 0 15 == n)

/-- Forward an arrival as one ARRIVE request for each matching relay entry (R757). -/
def State.relay (s : State) (n w : Nat) : List Nat → State
  | [] => s
  | i :: r =>
    let lo := (s.reg (RA.PTL_RELAY_LO i)).toNat
    let q : RemReq := { who := .relay i, leaf := tmbLeaf n, peer := natBits lo 16 16, op := 4,
                        tmb := natBits (s.reg (RA.PTL_RELAY_HI i)).toNat 0 15, weight := w }
    ({ s with ptl := { s.ptl with reqs := s.ptl.reqs ++ [q] } }).relay n w r

/-- The home refuses an operation (R648). -/
def State.tmbRefused (s : State) (n : Nat) : State := s.bump (RF.MGT_TMB_REFUSED_COUNT (tmbLeaf n))

/-- Does the kind take an arrival of this weight (Table 13.1, R645)? -/
def Tmb.takesArrival (t : Tmb) (w : Nat) : Bool :=
  t.kind == 1 || (t.kind == 2 && decide (w ≤ 65535)) || t.kind == 3

/-- An arrival of weight `w` that the kind takes, applied by kind (R643 to R645). -/
def State.arriveKind (s : State) (n w : Nat) : State :=
  let t := s.tmbAt n
  match t.kind with
  | 1 =>
    let v := (t.value + w) % 2 ^ 32
    if !reached t.value t.target && reached v t.target then
      (s.putTmb n { t with value := v, target := (t.target + t.step) % 2 ^ 32 }).fireTmb n
    else (s.putTmb n { t with value := v }).endWaits n
  | 2 =>
    let c := t.value + w
    if t.expected ≤ c then
      let s := s.bumpN (RF.MGT_TMB_EXCESS_COUNT (tmbLeaf n)) (c - t.expected)
      (s.putTmb n { t with value := 0 }).fireTmb n
    else s.putTmb n { t with value := c }
  | 3 =>
    if w = 0 then s.putTmb n { t with value := 0 }
    else if t.value = 0 then (s.putTmb n { t with value := 1 }).fireTmb n
    else s
  | _ => s

/-- An ARRIVE at the home: applied and forwarded, or refused. The flag says whether it was applied. -/
def State.tmbArrive (s : State) (n w : Nat) : State × Bool :=
  if (s.tmbAt n).takesArrival w then
    let s := (s.bump (RF.MGT_TMB_OPS_COUNT (tmbLeaf n))).arriveKind n w
    (s.relay n w (s.relaysOf n), true)
  else (s.tmbRefused n, false)

/-- A POLL returns the state word. -/
def State.tmbPoll (s : State) (n : Nat) : State × Nat :=
  (s.bump (RF.MGT_TMB_OPS_COUNT (tmbLeaf n)), (s.tmbAt n).word)

/-- A TAKE removes the oldest token, or fails on an empty queue (R646). -/
def State.tmbTake (s : State) (n : Nat) : State × TmbAns :=
  let t := s.tmbAt n
  if t.kind = 4 then
    let s := s.bump (RF.MGT_TMB_OPS_COUNT (tmbLeaf n))
    match t.tokens with
    | x :: r => (s.putTmb n { t with tokens := r }, .took x)
    | [] => (s, .empty)
  else (s.tmbRefused n, .refused 3 t.kind)

/-- A PUT appends a token and fires the queue, or fails when it is full (R646). -/
def State.tmbPut (s : State) (n x : Nat) : State × TmbAns :=
  let t := s.tmbAt n
  if t.kind = 4 then
    let s := s.bump (RF.MGT_TMB_OPS_COUNT (tmbLeaf n))
    if t.tokens.length < 2 ^ t.log2 then
      ((s.putTmb n { t with tokens := t.tokens ++ [x % 2 ^ 32] }).fireTmb n, .putOk)
    else (s, .putFull)
  else (s.tmbRefused n, .refused 4 t.kind)

/-- The refusal of a request goes back to its source. -/
def State.refuse (s : State) (r : TmbReq) (kind : Nat) : State :=
  let op := match r.op with
    | .arrive => 0
    | .poll => 1
    | .wait => 2
    | .take => 3
    | .put => 4
  { s with tmb := { s.tmb with notes := s.tmb.notes ++ [{ src := r.src, tmb := r.tmb, ans := .refused op kind, pc := r.pc, lane := r.lane, at_ := s.now }] } }

/-- A WAIT that reaches its home (R647, R659): it ends at once, is registered, or is turned back when no registration is free. -/
def State.tmbWait (s : State) (r : TmbReq) : State :=
  let t := s.tmbAt r.tmb
  let leaf := tmbLeaf r.tmb
  let unreserve : State → State := fun s => if r.reserved then
      { s with tmb := { s.tmb with
          reservations := kvSet (fun _ => 0) s.tmb.reservations leaf (kvGet (fun _ => 0) s.tmb.reservations leaf - 1) } }
    else s
  if t.operandOk r.operand then
    if t.ended r.operand then
      (((unreserve (s.bump (RF.MGT_TMB_OPS_COUNT leaf))).note r.src r.tmb .fired)).offer leaf (if r.reserved then 1 else 0)
    else if r.reserved || decide (s.waitsAt leaf + kvGet (fun _ => 0) s.tmb.reservations leaf < 16384) then
      (unreserve (s.bump (RF.MGT_TMB_OPS_COUNT leaf))).putTmb r.tmb { t with waits := t.waits ++ [{ src := r.src, operand := r.operand }] }
    else
      { (s.bump (RF.MGT_TMB_WAITFULL_COUNT leaf)) with tmb := { s.tmb with turned := s.tmb.turned ++ [r] } }
  else (((unreserve s).tmbRefused r.tmb).refuse r t.kind).offer leaf (if r.reserved then 1 else 0)

/-- Withdraw every wait of a source: its registrations, its places and its waits on their way (R82, R659). -/
def State.withdrawWaits (s : State) (src : TmbSrc) : State :=
  let freed := fun (leaf : Nat) => (s.tmb.tmbs.filter (fun p => tmbLeaf p.1 == leaf)).foldl
    (fun acc p => acc + (p.2.waits.filter (fun w => w.src == src)).length) 0
  let resv := fun (leaf : Nat) =>
    ((s.tmb.reqs ++ s.tmb.told).filter (fun r => r.src == src && r.reserved && tmbLeaf r.tmb == leaf)).length
  let f0 := freed 0 + resv 0
  let f1 := freed 1 + resv 1
  let unres := fun (m : KV Nat) (leaf : Nat) => kvSet (fun _ => 0) m leaf (kvGet (fun _ => 0) m leaf - resv leaf)
  let s := { s with tmb := { s.tmb with
    tmbs := kvMap (fun _ => {}) (fun _ t => { t with waits := t.waits.filter (fun w => !(w.src == src)) }) s.tmb.tmbs
    reqs := s.tmb.reqs.filter (fun r => !(r.src == src && r.op == TmbOp.wait))
    turned := s.tmb.turned.filter (fun r => !(r.src == src))
    told := s.tmb.told.filter (fun r => !(r.src == src))
    notes := s.tmb.notes.filter (fun x => !(x.src == src && (x.ans == TmbAns.fired || x.ans == TmbAns.timedOut)))
    reservations := unres (unres s.tmb.reservations 0) 1 } }
  (s.offer 0 f0).offer 1 f1

/-- The initial state of a kind at RESET (R650): GEN, EXPECTED and the ring kept, TARGET read from TMB_PARAM. -/
def State.tmbReset (s : State) (n : Nat) : State :=
  let t := s.tmbAt n
  let t' : Tmb := { t with
    value := 0
    target := if t.kind = 1 then s.fld (RF.TMB_PARAM_PARAM n) else t.target
    tokens := [] }
  ((s.bump (RF.MGT_TMB_OPS_COUNT (tmbLeaf n))).putTmb n t').endWaits n

/-- End every registered wait of a tumbler as timed out. -/
def State.dropWaits (s : State) (n : Nat) : State :=
  let t := s.tmbAt n
  let s := s.setTmb n { t with waits := [] }
  (s.notes n .timedOut t.waits).offer (tmbLeaf n) t.waits.length

/-- Clear the relay entries that name a tumbler (R759). -/
def State.clearRelays (s : State) : List Nat → State
  | [] => s
  | i :: r => ((s.setReg (RA.PTL_RELAY_LO i) 0).setReg (RA.PTL_RELAY_HI i) 0).clearRelays r

/-- A tumbler becomes idle with GEN 0 and TMB_PARAM 0 (R658). -/
def State.tmbIdle (s : State) (n : Nat) : State :=
  let s := (s.dropWaits n).clearRelays (s.relaysOf n)
  ((s.putTmb n {}).setReg (RA.TMB_PARAM n) 0).setReg (RA.TMB_CFG n) 0

def State.tmbIdleAll (s : State) : List Nat → State
  | [] => s
  | n :: r => (s.tmbIdle n).tmbIdleAll r

/-- Every tumbler with state or a register that differs from idle. -/
def State.tmbsInUse (s : State) : List Nat :=
  (s.tmb.tmbs.map (fun p => p.1)) ++
    (s.regs.filterMap (fun p => if 0x400000 ≤ p.1 ∧ p.1 < 0x480000 then some ((p.1 - 0x400000) / 16) else none)).eraseDups

/-- Send an operation towards a tumbler's home. -/
def State.sendTmb (s : State) (r : TmbReq) : State :=
  { s with tmb := { s.tmb with reqs := s.tmb.reqs ++ [r] } }

/-- An arrival from the device itself: a descriptor, a frame program, a pin or a timer (Table 13.2), of weight 1. -/
def State.devArrive (s : State) (kind id n : Nat) : State :=
  s.sendTmb { src := .dev, kind := kind, id := id, op := .arrive, tmb := n, operand := 1 }

end Sys2Proof.Machine
end

