-- ==== Sys2Proof/Machine/DevOps.lean ====
section
/-! DEFINITION. What the blocks of the device share: translation (R597 to R611), host-command completion (R685 to R692), the
end of a frame program (R69, R91), and reads and writes by the device itself. -/

namespace Sys2Proof.Machine

/-! ### Translation -/

/-- The range of a context that holds an address; granule 0 and a CTX of 256 or above hold none (R598, R599, R903). -/
def State.rangeAt (s : State) (unit ctx va : Nat) : Option RangeEnt :=
  if va / 65536 = 0 ∨ 256 ≤ ctx then none
  else s.xlt.ranges.find? (fun r => r.unit == unit && r.ctx == ctx && !r.reserved
    && decide (r.start ≤ va / 65536) && decide (va / 65536 < r.start + r.length))

/-- The access kinds of Table 12.3: 0 load or read, 1 store or write, 2 atomic or reduction, 3 instruction fetch. -/
def RangeEnt.permits (r : RangeEnt) (access : Nat) : Bool :=
  match access with
  | 0 => r.r
  | 1 => r.w
  | 2 => r.r && r.w
  | _ => r.x

/-- Where a translated address leads (R603), or why it fails (R611): reason 0 no range, 1 permission, 2 memory class.
`wait`: the entry is invalidating or moving (R610). -/
inductive Xl where
  | dev (r : RangeEnt)
  | host (r : RangeEnt) (bus : Nat)
  | win (r : RangeEnt) (off : Nat)
  | wait
  | fail (reason : Nat)
  deriving DecidableEq, Repr

def Xl.isDev : Xl → Bool
  | .dev _ => true
  | _ => false

/-- The target of an address in a range (R603, R611). -/
def RangeEnt.target (r : RangeEnt) (access va : Nat) : Xl :=
  if r.state = 1 ∨ r.state = 2 then .wait
  else if !r.permits access then .fail 1
  else
    let off := va - r.start * 65536
    let isDev := r.kind == 0 || (r.kind == 3 && r.loc == 1)
    if access = 3 ∧ !isDev then .fail 2
    else if isDev then .dev r
    else if r.kind = 2 then .win r (r.off * 65536 + off)
    else if r.kind = 3 ∧ r.nohost then .fail 2
    else .host r (r.haddr * 4096 + off)

/-- Is a partition sealed? -/
def State.sealedPart (s : State) (part : Nat) : Bool :=
  s.ward.image.parts.any (fun p => p.index == part && p.is_sealed)

/-- A leaf with a sealed partition fetches only from that partition's ranges (R814). -/
def State.sealBars (s : State) (unit : Nat) (r : RangeEnt) : Bool :=
  match s.unitEnt unit with
  | some u => (maskBits 64 u.partMask).any s.sealedPart && !((r.kind == 0 || r.kind == 3) && s.sealedPart r.part)
  | none => false

def State.xlate (s : State) (unit ctx access va : Nat) : Xl :=
  match s.rangeAt unit ctx va with
  | none => .fail 0
  | some r => if access = 3 ∧ s.sealBars unit r then .fail 2 else r.target access va

/-- The control of a home access through a range. -/
def RangeEnt.ctl (r : RangeEnt) (cls va : Nat) : HomeCtl :=
  { cls := cls, stream := r.stream, dead := r.dead, pinned := r.pinned, cold := r.cold, addr := va }

/-- The addresses at which a run enters a new 4 KiB block: what a device requester looks up. -/
def blocksOf (va len : Nat) : List Nat :=
  va :: (List.range (ceilDiv (va % 4096 + len) 4096 - 1)).map (fun i => (va / 4096 + 1 + i) * 4096)

/-- The first failure among the translations of a run. -/
def State.runFails (s : State) (unit ctx access va len : Nat) : Option (Nat × Xl) :=
  (blocksOf va len).findSome? (fun a => match s.xlate unit ctx access a with
    | .fail r => some (a, .fail r)
    | .wait => some (a, .wait)
    | _ => none)

/-- A run cut at 4 KiB blocks, whose translations may differ. -/
def blockRuns (va len : Nat) : List (Nat × Nat) :=
  (blocksOf va len).map (fun a => (a, min (va + len) (a / 4096 * 4096 + 4096) - a))

/-- Cut a run at a window offset into requests of at most 192 B, each within one 4 KiB block (R749): (place, length) pairs. -/
def cutRun : Nat → Nat → Nat → Nat → List (Nat × Nat)
  | 0, _, _, _ => []
  | f + 1, off, part, left =>
    if left = 0 then []
    else
      let n := min left (min 192 (4096 - off % 4096))
      (part, n) :: cutRun f (off + n) (part + n) (left - n)

/-- What a read by the device gives: bytes and poison, a failure, or a target that is not device memory. -/
inductive DevRd where
  | ok (bytes : List Byte) (poison : Bool)
  | fail (va reason : Nat)
  | wait
  | other
  deriving DecidableEq, Repr

/-- The lines of device memory in a run, block by block: each block has a target of its own. -/
def State.devPieces (s : State) (unit ctx access va len : Nat) : List (Nat × Nat × Nat × Nat) :=
  ((blockRuns va len).filter (fun r => (s.xlate unit ctx access r.1).isDev)).flatMap (fun r => pieces r.1 r.2)

/-- A read by the device itself through a context, at system scope, of device memory. -/
def State.devRead (s : State) (unit ctx access va len cls : Nat) : State × DevRd :=
  match s.runFails unit ctx access va len with
  | some (a, .fail r) => (s, .fail a r)
  | some _ => (s, .wait)
  | none =>
    match s.xlate unit ctx access va with
    | .dev r =>
      if s.piecesWait unit ctx false (pieces va len) then (s.noteWaits unit ctx false (pieces va len), .wait)
      else
        let (s, bs, bad) := s.runRead unit ctx (r.ctl cls va) (pieces va len)
        (s, .ok bs bad)
    | _ => (s, .other)

/-- A write by the device itself; to host memory it is a posted write. -/
def State.devWrite (s : State) (unit ctx va cls : Nat) (bs : List Byte) : State × DevRd :=
  match s.runFails unit ctx 1 va bs.length with
  | some (a, .fail r) => (s, .fail a r)
  | some _ => (s, .wait)
  | none =>
    match s.xlate unit ctx 1 va with
    | .dev r =>
      if s.piecesWait unit ctx true (pieces va bs.length) then (s.noteWaits unit ctx true (pieces va bs.length), .wait)
      else (s.runWrite unit ctx (r.ctl cls va) (pieces va bs.length) bs, .ok [] false)
    | .host _ bus => (s.hostWrite bus bs, .ok [] false)
    | _ => (s, .other)

/-- The code of a translation failure (Table 12.5). -/
def xltCode (reason : Nat) : Nat := 0x0C01 + reason

/-! ### Completion of host commands -/

def State.cmd (s : State) (id : Nat) : Option HostCmd := kvGet (fun _ => none) s.host.cmds id

def State.setCmd (s : State) (id : Nat) (c : Option HostCmd) : State :=
  { s with host := { s.host with cmds := kvSet (fun _ => none) s.host.cmds id c } }

def State.queue (s : State) (q : Nat) : QueueSt := kvGet (fun _ => {}) s.host.queues q

def State.setQueue (s : State) (q : Nat) (x : QueueSt) : State :=
  { s with host := { s.host with queues := kvSet (fun _ => {}) s.host.queues q x } }

def State.unitRun (s : State) (u : Nat) : UnitRun := kvGet (fun _ => {}) s.units u

/-- WRD_STAT.QUIESCED (R134): no leaf of the named subtree has an admitted or carried program, and its queues are empty: nothing is left to fetch, and no command of the
queue is in progress (DESIGN CHOICE, log entry 114). -/
def State.quiesced (s : State) : Bool :=
  let top := s.fld RF.WRD_QUIESCE_SLOT
  s.flag RF.WRD_QUIESCE_EN && (s.unitEnt top).isSome &&
    (s.ward.image.units.filter (fun u => s.under top u.slot)).all (fun u =>
      (s.unitRun u.slot).active.isEmpty && (s.unitRun u.slot).waiting.isEmpty &&
      (List.range u.qcount).all (fun i =>
        let q := u.qbase + i
        s.fld (RF.HIF_Q_SQHEAD_HEAD q) == (s.queue q).tail && !(s.flag (RF.HIF_Q_STAT_ACTIVE q))))

def State.syncQuiesced (s : State) : State := s.setFlag RF.WRD_STAT_QUIESCED s.quiesced

/-- Entries of a ring of 2^LOG: other values of LOG than 4 to 12 are taken as 4 (Table 14.8). -/
def qLog (l : Nat) : Nat := if 4 ≤ l ∧ l ≤ 12 then l else 4

def State.sqSize (s : State) (q : Nat) : Nat := 2 ^ qLog (s.fld (RF.HIF_Q_CFG_SQLOG q))
def State.cqSize (s : State) (q : Nat) : Nat := 2 ^ qLog (s.fld (RF.HIF_Q_CFG_CQLOG q))

/-- The completion ring is full when advancing the tail would make it equal to the head (R686). -/
def State.cqFull (s : State) (q : Nat) : Bool :=
  (s.fld (RF.HIF_Q_CQTAIL_TAIL q) + 1) % s.cqSize q == (s.queue q).cqHead

/-- The 32 bytes of a completion entry (Table 14.3). -/
def Cpl.bytes (c : Cpl) (phase : Bool) : List Byte :=
  leBytes 4 c.seq ++ leBytes 4 c.tag ++ leBytes 2 c.status ++ leBytes 1 (if phase then 1 else 0) ++ leBytes 5 0
    ++ leBytes 8 c.result ++ leBytes 8 0

/-- The function whose vectors a queue raises. -/
def State.queueFn (s : State) (q : Nat) : Nat :=
  match s.queueUnit q with
  | some u => s.fnOfUnit u.slot
  | none => 0

/-- Post one completion at the tail (R685, R711). -/
def State.postCpl (s : State) (q : Nat) (c : Cpl) : State :=
  let tail := s.fld (RF.HIF_Q_CQTAIL_TAIL q)
  let st := s.queue q
  let base := s.fld (RF.HIF_Q_CQBASE_LO_BASE q) * 4096 + 2 ^ 32 * s.fld (RF.HIF_Q_CQBASE_HI_BASE q)
  let s := s.hostWrite (base + 32 * tail) (c.bytes st.phase)
  let next := (tail + 1) % s.cqSize q
  let s := (s.setFld (RF.HIF_Q_CQTAIL_TAIL q) next).setQueue q { st with phase := if next = 0 then !st.phase else st.phase }
  if c.irq then s.raiseVector (s.queueFn q) (s.fld (RF.HIF_Q_CFG_VECTOR q)) else s

/-- Post the waiting completions, in the order they fell due, while the ring has room (R686). -/
def State.drainCpls (s : State) (q : Nat) : Nat → State
  | 0 => s
  | n + 1 =>
    match (s.queue q).waiting with
    | [] => s
    | c :: r =>
      if s.cqFull q then s
      else ((s.setQueue q { s.queue q with waiting := r }).postCpl q c).drainCpls q n

/-- A completion falls due: it is discarded when the queue is disabled (R679). -/
def State.dueCpl (s : State) (q : Nat) (c : Cpl) : State :=
  if s.flag (RF.HIF_Q_CFG_EN q) then
    let s := s.setQueue q { s.queue q with waiting := (s.queue q).waiting ++ [c] }
    s.drainCpls q (s.queue q).waiting.length
  else s

/-- HIF_Q_STAT.ACTIVE shows whether commands of the queue are running. -/
def State.syncActive (s : State) (q : Nat) : State :=
  s.setFlag (RF.HIF_Q_STAT_ACTIVE q) ((kvKeys (fun c => match c with
    | some c => c.queue == q
    | none => false) s.host.cmds).length != 0)

/-- A command ends: its completion falls due, then the acknowledgements of its duplicates (R691, R692). -/
def State.complete (s : State) (id status result : Nat) : State :=
  match s.cmd id with
  | none => s
  | some c =>
    let s := s.setCmd id none
    let s := if c.wroteHost then s.setQueue c.queue { s.queue c.queue with wrote := true } else s
    let s := if c.orphan then s else
      c.dups.foldl (fun s t => s.dueCpl c.queue { seq := c.seq, tag := t.1, status := 1, result := 0, irq := t.2 })
        (s.dueCpl c.queue { seq := c.seq, tag := c.tag, status := status, result := result, irq := c.irq })
    (s.syncActive c.queue).syncQuiesced

/-- A command is rejected or fails: its record (R708), then its completion. `leaf` none: the queue's unit is named. -/
def State.failCmd (s : State) (id code result : Nat) (d : List Byte) : State :=
  match s.cmd id with
  | none => s
  | some c =>
    (s.emit { code := code, fault := true, unit := c.leaf, unitV := true, item := c.queue, detail := d }).complete id code result

/-! ### Frame programs -/

def State.setUnit (s : State) (u : Nat) (x : UnitRun) : State :=
  { s with units := kvSet (fun _ => {}) s.units u x }

/-- The program of a unit that runs: the head of its admitted and carried programs (R78). -/
def State.prog (s : State) (u : Nat) : Option FrameProg := (s.unitRun u).active.head?

def State.setProg (s : State) (u : Nat) (p : FrameProg) : State :=
  s.setUnit u { s.unitRun u with active := p :: (s.unitRun u).active.drop 1 }

/-- The numeric mode of a unit (R250, R255). -/
def State.numMode (s : State) (unit : Nat) : Bool × Nat :=
  match (s.path unit).find? (fun u => s.flag (RF.WRD_U_NUM_STRICT u)) with
  | some u => (true, s.fld (RF.WRD_U_NUM_RND u))
  | none => (false, 0)

/-- USED so far, in cycles: the time of the current run added (R69, R85). -/
def FrameProg.usedNow (p : FrameProg) (now : Nat) : Nat :=
  p.used + match p.runFrom with
    | some t => now - t
    | none => 0

/-- USED in 10 ns units: the spec states no rounding. -/
def used10 (cycles : Nat) : Nat := cycles / 25 + (if cycles % 25 = 0 then 0 else if Config.roundUp cycles 25 then 1 else 0)

/-- The status bits of a unit follow its programs (Table 2.9). -/
def State.syncUnit (s : State) (u : Nat) : State :=
  let r := s.unitRun u
  let s := s.setFlag (RF.TCK_U_STAT_ADMITTED u) (!r.active.isEmpty)
  let s := s.setFlag (RF.TCK_U_STAT_RUNNING u) (match r.active.head? with
    | some p => !p.issued.isEmpty && decide (p.done.length < p.items)
    | none => false)
  let s := s.setFlag (RF.TCK_U_STAT_WAIT_START u) (r.active.any (fun p => p.startEn && !(p.gate == .opened) && p.issued.isEmpty))
  s.setFld (RF.TCK_U_STAT_CARRIES u) (match r.active.head? with
    | some p => if p.carries < 16 then p.carries else Config.manyCarries p.carries
    | none => 0)

/-! ### T-core residence -/

def State.tblock (s : State) (core blk : Nat) : Option TBlock := kvGet (fun _ => none) s.tc.blocks (core * 32 + blk)
def State.setTblock (s : State) (core blk : Nat) (b : Option TBlock) : State :=
  { s with tc := { s.tc with blocks := kvSet (fun _ => none) s.tc.blocks (core * 32 + blk) b } }
def State.tgroup (s : State) (core slot : Nat) : Option TGroup := kvGet (fun _ => none) s.tc.groups (core * 32 + slot)
def State.setTgroup (s : State) (core slot : Nat) (g : Option TGroup) : State :=
  { s with tc := { s.tc with groups := kvSet (fun _ => none) s.tc.groups (core * 32 + slot) g } }
def State.engine (s : State) (core eng : Nat) : Engine := kvGet (fun _ => {}) s.tc.engines (core * 4 + eng)
def State.setEngine (s : State) (core eng : Nat) (e : Engine) : State :=
  { s with tc := { s.tc with engines := kvSet (fun _ => {}) s.tc.engines (core * 4 + eng) e } }

/-- The blocks resident on a core, by lowest group slot. -/
def State.coreBlocks (s : State) (core : Nat) : List (Nat × TBlock) :=
  (List.range 32).filterMap (fun b => match s.tblock core b with
    | some x => some (b, x)
    | none => none)

/-- TCW_STAT.RESIDENT and GROUPS follow the resident blocks. -/
def State.syncTcore (s : State) (core : Nat) : State :=
  let bs := s.coreBlocks core
  let n := bs.foldl (fun a b => a + b.2.slots.length) 0
  (s.setFlag (RF.TCW_STAT_RESIDENT core) (!bs.isEmpty)).setFld (RF.TCW_STAT_GROUPS core) n

/-- Free a block's slots, engines and barriers (R153); its engines' groups and queues go with it. -/
def State.freeBlock (s : State) (core blk : Nat) : State :=
  match s.tblock core blk with
  | none => s
  | some b =>
    let s := b.slots.foldl (fun s sl => s.setTgroup core sl none) s
    let s := b.engs.foldl (fun s e => (((s.setEngine core e {}).setReg (RA.MXE_STAT core e) 0).setReg (RA.MXE_SCALE core e) 0).setReg
      (RA.VXE_STAT core e) 0) s
    (s.setTblock core blk none).syncTcore core

/-- A started vector descriptor of an ended program stops at the end of its current slot: the slots it has completed count (R358). How many they
are is a free value, and what they have written goes with the block's local memory. -/
def State.abandonRows (s : State) (core eng : Nat) : State :=
  ((s.engine core eng).vq.filter (fun d => d.started)).foldl (fun s _ =>
    let (i, s) := s.nextFree
    s.bumpN (RF.VXE_ROWS_COUNT core eng) (Config.freeNat i % 131)) s

/-- Drop everything of a unit on a core: its blocks, its waits and its saved state. What its groups have issued still completes, but delivers nothing
(R205, R207, R358). -/
def State.killOnTcore (s : State) (unit prio core : Nat) : State :=
  let s := (s.coreBlocks core).foldl (fun s b => if b.2.unit = unit then
      (b.2.slots.foldl (fun s sl => s.withdrawWaits (.tgroup core sl)) (b.2.engs.foldl (fun s e => s.abandonRows core e) s)).freeBlock core b.1 else s) s
  let saved := match kvGet (fun _ => none) s.tc.saves (core * 8 + prio) with
    | some x => x.unit == unit
    | none => false
  let s := if saved then
      let m := s.fld (RF.TCW_SAVED_SLOT core)
      ({ s with tc := { s.tc with saves := kvSet (fun _ => none) s.tc.saves (core * 8 + prio) none } }).setFld
        (RF.TCW_SAVED_SLOT core) (m - if natBit m prio then 2 ^ prio else 0)
    else s
  let moving := s.tc.moves.any (fun m => m.core == core && m.unit == unit)
  let s := if moving then (s.setFlag (RF.TCW_STAT_SAVING core) false).setFlag (RF.TCW_STAT_RESTORING core) false else s
  { s with
    tc := { s.tc with moves := s.tc.moves.filter (fun m => !(m.core == core && m.unit == unit)) }
    preempts := s.preempts.filter (fun p => !(p == (core, unit)))
    accs := kvMap (fun _ => none) (fun _ a => match a with
      | some a => if a.tcore && a.core == core && a.unit == unit then (if a.kind = 0 then none else some { a with dead := true }) else some a
      | none => none) s.accs
    tmb := { s.tmb with
      reqs := s.tmb.reqs.map (fun r => if r.kind == 1 && r.id == core && r.unit == unit then { r with dead := true } else r)
      notes := s.tmb.notes.filter (fun x => match x.src with
        | .tgroup c sl => !(c == core && (s.tgroup core sl).isNone)
        | _ => true) } }

/-- USED of an ended program is shown; its LAUNCH completes with STATUS and RESULT (R695, Table 14.4). -/
def State.endLaunch (s : State) (p : FrameProg) (status : Nat) : State :=
  let u := min (used10 (p.usedNow s.now)) (2 ^ 24 - 1)
  s.complete p.cmd status (u + (s.tickCount % 2 ^ 32) * 2 ^ 32)

/-! ### V-core residence -/

def State.vcore (s : State) (c : Nat) : VCore := kvGet (fun _ => {}) s.vc.cores c
def State.setVcore (s : State) (c : Nat) (v : VCore) : State :=
  { s with vc := { s.vc with cores := kvSet (fun _ => {}) s.vc.cores c v } }

/-- Drop everything of a unit on a V-core: its item, its waits, its accesses other than stores, its saved state. -/
def State.killOnVcore (s : State) (unit prio core : Nat) : State :=
  let v := s.vcore core
  let s := if v.running && v.unit == unit then
      ((s.withdrawWaits (.vcore core)).setVcore core { v with
          running := false, xslv := none, twait := none, waitTmb := false, stopped := false, resv := none, trap := none, gap := none }).setFlag
        (RF.VCW_STAT_RUNNING core) false
    else s
  let saved := match kvGet (fun _ => none) s.vc.saves (core * 8 + prio) with
    | some x => x.unit == unit
    | none => false
  let s := if saved then
      let m := s.fld (RF.VCW_SAVED_SLOT core)
      ({ s with vc := { s.vc with saves := kvSet (fun _ => none) s.vc.saves (core * 8 + prio) none } }).setFld
        (RF.VCW_SAVED_SLOT core) (m - if natBit m prio then 2 ^ prio else 0)
    else s
  let moving := s.vc.moves.any (fun m => m.core == core && m.unit == unit)
  let s := if moving then (s.setFlag (RF.VCW_STAT_SAVING core) false).setFlag (RF.VCW_STAT_RESTORING core) false else s
  { s with
    vc := { s.vc with moves := s.vc.moves.filter (fun m => !(m.core == core && m.unit == unit)) }
    preempts := s.preempts.filter (fun p => !(p == (core + 512, unit)))
    accs := kvMap (fun _ => none) (fun _ a => match a with
      | some a =>
        if !a.tcore && a.core == core && a.unit == unit then
          let away := a.lanes.filter (fun l => l.remote && !l.performed)
          if a.kind = 1 && !away.isEmpty then some { a with lanes := away } else none
        else some a
      | none => none) s.accs
    tmb := { s.tmb with
      reqs := s.tmb.reqs.filter (fun r => !(r.kind == 3 && r.id == core && r.unit == unit && !(r.op == TmbOp.arrive || r.op == TmbOp.put))) } }

/-- Stop every core of a unit: nothing is saved (R207). -/
def State.killUnit (s : State) (unit : Nat) : State :=
  let prio := match s.unitEnt unit with
    | some u => u.priority
    | none => 0
  (s.unitCores unit).foldl (fun s c => if c < 512 then s.killOnTcore unit prio c else s.killOnVcore unit prio (c - 512)) s

/-! ### Sharing of cores (R78, R81, R84, R85, R539, R540) -/

/-- The spread order of a leaf unit for T-cores, or for V-cores (512–639): by index in the die, then by die; dead C-dies are left out. -/
def State.spread (s : State) (unit : Nat) (v : Bool) : List Nat :=
  let cs := s.unitCores unit
  let dies := (List.range 8).filter (fun d => !s.coh.deadDies.contains d)
  let at_ := fun (n base : Nat) => (List.range n).flatMap (fun i => (dies.map (fun d => base + n * d + i)).filter (fun c => cs.contains c))
  if v then at_ 16 512 else at_ 64 0

/-- Does a program run on V-cores (R426)? Its descriptor has been read. -/
def FrameProg.onV (p : FrameProg) : Bool := natBit (p.desc.getD 31 0).toNat 7

/-- The gate of a program is open, or it has none (R81). -/
def FrameProg.open_ (p : FrameProg) : Bool := !p.startEn || p.gate == .opened

def State.prioOf (s : State) (unit : Nat) : Nat :=
  match s.unitEnt unit with
  | some u => u.priority
  | none => 8

/-- Is anything of a unit resident on a core? -/
def State.holds (s : State) (unit c : Nat) : Bool :=
  if c < 512 then (s.coreBlocks c).any (fun b => b.2.unit == unit) else (s.vcore (c - 512)).running && (s.vcore (c - 512)).unit == unit

/-- Has a unit's program saved state of a core? -/
def State.savedOn (s : State) (unit c : Nat) : Bool :=
  let p := s.prioOf unit
  if c < 512 then (match kvGet (fun _ => none) s.tc.saves (c * 8 + p) with
    | some x => x.unit == unit
    | none => false)
  else match kvGet (fun _ => none) s.vc.saves ((c - 512) * 8 + p) with
    | some x => x.unit == unit
    | none => false

/-- Items of a program that its core has yet to start (R540). -/
def State.itemsLeft (s : State) (p : FrameProg) (c : Nat) : Bool :=
  let o := s.spread p.unit p.onV
  match o.findIdx? (fun x => x == c) with
  | some k => decide ((p.issued.filter (fun i => i % o.length == k)).length < (p.items + o.length - 1 - k) / o.length)
  | none => false

/-- The program of a unit that may run: its gate is open, it is not between two frames, and no fault has halted the unit (R91). -/
def State.openProg (s : State) (unit : Nat) : Option FrameProg :=
  match s.prog unit with
  | some p => if p.open_ && !p.carried && !(s.unitRun unit).halted then some p else none
  | none => none

/-- Is a unit's program runnable on a core: it may run, and it has something to run there? -/
def State.runnable (s : State) (unit c : Nat) : Bool :=
  match s.openProg unit with
  | some p => !p.desc.isEmpty && (s.unitCores unit).contains c && (s.itemsLeft p c || s.holds unit c || s.savedOn unit c)
  | none => false

/-- A unit of higher priority is runnable on a core. -/
def State.outranked (s : State) (unit c : Nat) : Bool :=
  s.ward.image.units.any (fun u => decide (u.priority < s.prioOf unit) && s.runnable u.slot c)

def State.moveOn (s : State) (c : Nat) : Option TMove :=
  if c < 512 then s.tc.moves.find? (fun m => m.core == c) else s.vc.moves.find? (fun m => m.core + 512 == c)

/-- Is a core free for a unit: nothing of another unit is on it, and no save or restore is in progress? -/
def State.freeFor (s : State) (unit c : Nat) : Bool :=
  (s.moveOn c).isNone && !s.preempts.any (fun p => p.1 == c)
    && !s.ward.image.units.any (fun u => !(u.slot == unit) && s.holds u.slot c)

/-- Is a core dead: its C-die, or the V-core itself (R583, R584)? -/
def State.deadCore (s : State) (c : Nat) : Bool := if c < 512 then s.coh.deadDies.contains (c / 64) else s.vc.dead.contains (c - 512)

/-- Has a unit only dead cores of the kinds that `kind` picks (R583)? -/
def State.noLive (s : State) (unit : Nat) (kind : Nat → Bool) : Bool := ((s.unitCores unit).filter kind).all s.deadCore

/-- The record of a program that has no live core: its DETAIL names the die of the first dead one (Table 11.5). -/
def State.lostRec (s : State) (unit : Nat) (kind : Nat → Bool) : Rec :=
  match (s.unitCores unit).find? (fun c => kind c && s.deadCore c) with
  | some c =>
    let d := if c < 512 then c / 64 else (c - 512) / 16
    let whole := s.coh.deadDies.contains d
    { code := 0x0B02, detail := detailOf [(52, 1, kvN s.coh.causes (if whole then 128 + d else c - 512)), (53, 1, if whole then 1 else 0), (54, 1, d)] }
  | none => { code := 0x0B02 }

/-- Does a core hold a program without its being preempted there: its item is not being saved, or its saved state is being restored (R85)? -/
def State.runsOn (s : State) (unit c : Nat) : Bool :=
  match s.moveOn c with
  | some m => if m.unit = unit then m.stage == 3 else s.holds unit c
  | none => s.holds unit c

/-- USED counts while at least one core that holds the program is not preempted (R85). -/
def State.syncClock (s : State) (unit : Nat) : State :=
  match s.prog unit with
  | some p =>
    if (s.unitCores unit).any (s.runsOn unit) then
      s.setProg unit { p with runFrom := match p.runFrom with
        | some t => some t
        | none => some s.now }
    else s.setProg unit { p with used := p.usedNow s.now, runFrom := none }
  | none => s

/-- Begin the restore of a unit's saved state on a core, when it may run there (R85, R198). -/
def State.startRestore (s : State) (unit c : Nat) : State :=
  if s.savedOn unit c && s.runnable unit c && !s.outranked unit c && s.freeFor unit c then
    let s := if c < 512 then
        State.setFlag { s with tc := { s.tc with moves := s.tc.moves ++ [{ core := c, unit := unit, stage := 3, since := s.now }] } }
          (RF.TCW_STAT_RESTORING c) true
      else
        State.setFlag { s with vc := { s.vc with moves := s.vc.moves ++ [{ core := c - 512, unit := unit, stage := 3, since := s.now }] } }
          (RF.VCW_STAT_RESTORING (c - 512)) true
    s.syncClock unit
  else s

/-- Begin every restore that can begin on some cores. -/
def State.pumpRestores (s : State) (cores : List Nat) : State :=
  cores.foldl (fun s c => (s.ward.image.units.filter (fun u => s.savedOn u.slot c)).foldl (fun s u => s.startRestore u.slot c) s) s

/-- End the program at the head of a unit (R87, R91): HALTED, its cores stopped, its gate's wait withdrawn (R82), its LAUNCH
completed with the code. -/
def State.endProgram (s : State) (unit code : Nat) : State :=
  match s.prog unit with
  | none => s
  | some p =>
    let s := s.killUnit unit
    let s := if p.gate == .registered || p.gate == .pending then s.withdrawWaits (.gate unit) else s
    let s := s.setUnit unit { s.unitRun unit with active := (s.unitRun unit).active.drop 1, halted := true }
    ((((s.setFlag (RF.TCK_U_STAT_HALTED unit) true).endLaunch p code).syncUnit unit).syncQuiesced).pumpRestores (s.unitCores unit)

/-- End the program at the head of a unit by a fault, with its record (R91). -/
def State.terminate (s : State) (unit : Nat) (r : Rec) : State :=
  match s.prog unit with
  | none => s
  | some _ => (s.emit { r with fault := true, terminated := true, unit := unit, unitV := true }).endProgram unit r.code

/-- A fault of a T-core or an engine is counted, shown in TCW_STAT, and held to the end of the cycle (R208). -/
def State.raiseT (s : State) (core slot unit : Nat) (r : Rec) (xlt : Option (Nat × Nat)) : State :=
  let s := (s.bump (RF.TCW_FAULTS_COUNT core)).setFlag (RF.TCW_STAT_FAULTED core) true
  match s.prog unit with
  | none => s
  | some p => { s with tc := { s.tc with faults := s.tc.faults ++ [{ unit := unit, cmd := p.cmd, core := core, slot := slot, rec_ := r, xlt := xlt }] } }

/-- A T-core's fault (R206 to R208) of the program of a group. -/
def State.tfault (s : State) (core slot : Nat) (r : Rec) : State :=
  match s.tgroup core slot with
  | none => s
  | some g =>
    match s.tblock core g.blk with
    | none => s
    | some b => s.raiseT core slot b.unit { r with
        srcKind := if r.srcKind = 0 then 1 else r.srcKind, srcId := if r.srcKind = 0 then core else r.srcId
        pc := if r.pc = 0 then g.pc else r.pc, group := slot, groupV := true, item := b.item } none

/-- A V-core's fault (R482): SRC_KIND 3. -/
def State.vfault (s : State) (core : Nat) (r : Rec) : State :=
  let s := (s.bump (RF.VCW_FAULTS_COUNT core)).setFlag (RF.VCW_STAT_FAULTED core) true
  let v := s.vcore core
  if v.running then
    s.terminate v.unit { r with srcKind := 3, srcId := core, pc := if r.pc = 0 then v.pc else r.pc, item := v.item }
  else s

/-- Ask for preemption of a unit's program on cores (R84, R88). -/
def State.askPreempt (s : State) (unit : Nat) (cores : List Nat) : State :=
  { s with preempts := s.preempts ++ (cores.filter (fun c => !s.preempts.contains (c, unit))).map (fun c => (c, unit)) }

end Sys2Proof.Machine
end

