-- ==== Sys2Proof/Machine/WardParse.lean ====
section
/-! DEFINITION. Ward images: their layout, and the checks of R127 in its order (chapter 3). -/

namespace Sys2Proof.Machine

/-! ### Layout -/

/-- `n` bytes at an offset. -/
def bytesAt (bs : List Byte) (off n : Nat) : List Byte := (bs.drop off).take n
def le (bs : List Byte) (off n : Nat) : Nat := leNat (bytesAt bs off n)

/-- A section directory entry (R105). -/
structure Section where
  type : Nat
  off : Nat
  len : Nat
  deriving DecidableEq, Repr

def directory (bs : List Byte) (n : Nat) : List Section :=
  (List.range n).map (fun i => ⟨le bs (64 + 16 * i) 2, le bs (68 + 16 * i) 4, le bs (72 + 16 * i) 4⟩)

/-- Entry size, least and most entries, and whether a full and a partial image may hold the section: 2 required, 1 allowed,
0 refused (Table 3.2). -/
def sectionRule : Nat → Option (Nat × Nat × Nat × Nat × Nat)
  | 1 => some (32, 1, 1, 2, 0)
  | 2 => some (160, 1, 1024, 2, 2)
  | 3 => some (32, 0, 64, 2, 1)
  | 4 => some (1, 8, 8, 2, 0)
  | 5 => some (8, 64, 64, 2, 1)
  | 6 => some (8, 16, 16, 2, 0)
  | 7 => some (8, 8, 8, 2, 0)
  | 8 => some (4, 0, 16, 2, 0)
  | 9 => some (1, 640, 640, 2, 0)
  | _ => none

def Section.fits (x : Section) (kind : Nat) : Bool :=
  if x.type = 10 then true
  else match sectionRule x.type with
    | some (size, lo, hi, f, p) =>
      x.len % size == 0 && decide (lo ≤ x.len / size) && decide (x.len / size ≤ hi) &&
        decide (0 < if kind = 0 then f else p)
    | none => false

/-- The header and the directory (R104 to R106, R898, R908). A section of LENGTH 0 holds no byte and overlaps nothing. -/
def formatOk (bs : List Byte) : Bool :=
  let kind := le bs 6 2
  let n := le bs 12 4
  let sig := le bs 48 8
  let ds := directory bs n
  decide (64 ≤ bs.length) && le bs 0 4 == 0x44524157 && le bs 4 2 == 0x0100 && decide (kind ≤ 1)
    && le bs 8 4 == bs.length && sig + 128 == bs.length && sig % 64 == 0 && decide (1 ≤ n) && decide (n ≤ 32)
    && decide (64 + 16 * n ≤ sig)
    && decide (le bs 28 4 < 4) && decide (le bs 32 4 < 2 ^ 24) && decide (le bs 36 4 < 1024) && le bs 56 8 == 0
    && (kind == 1 || (le bs 36 4 == 0 && le bs 40 8 == 0))
    && (List.range n).all (fun i => le bs (66 + 16 * i) 2 == 0 && le bs (76 + 16 * i) 4 == 0)
    && ds.all (fun x => x.off % 64 == 0 && (x.len == 0 || (decide (64 + 16 * n ≤ x.off) && decide (x.off + x.len ≤ sig))) && x.fits kind)
    && (List.range n).all (fun i => (List.range i).all (fun j =>
        let x := ds.getD i ⟨0, 0, 0⟩
        let y := ds.getD j ⟨0, 0, 0⟩
        !(x.type == y.type) && (x.len == 0 || y.len == 0 || decide (x.off + x.len ≤ y.off) || decide (y.off + y.len ≤ x.off))))
    && (if kind = 0 then (List.range 9).all (fun t => ds.any (fun x => x.type == t + 1))
        else ds.any (fun x => x.type == 2))

/-- The bytes of a section's entries, none for a section that the image does not hold. -/
def entries (bs : List Byte) (type : Nat) : List (List Byte) :=
  match (directory bs (le bs 12 4)).find? (fun x => x.type == type), sectionRule type with
  | some x, some (size, _) => (List.range (x.len / size)).map (fun i => bytesAt bs (x.off + size * i) size)
  | _, _ => []

/-! ### Entries -/

def parseUnit (e : List Byte) : UnitEnt :=
  { slot := le e 0 2 % 1024, parent := le e 2 2 % 1024, root := natBit (le e 2 2) 15
    depth := natBits (le e 4 1) 0 4, group := natBit (le e 4 1) 4, priority := natBits (le e 4 1) 5 3
    overrunPol := natBits (le e 5 1) 0 1, carryLimit := natBits (le e 5 1) 4 4
    vf := natBits (le e 6 1) 0 5, ord := le e 7 1
    qbase := natBits (le e 8 2) 0 12, qcount := natBits (le e 10 2) 0 13
    tmbBase := natBits (le e 12 2) 0 15, tmbCount := le e 14 2
    partMask := le e 16 8, barrierWd := le e 24 2
    traceBuf := natBits (le e 26 1) 0 2, traceEn := natBit (le e 26 1) 2
    routes := (List.range 16).map (fun i => le e (32 + 2 * i) 2)
    cores := le e 64 80 }

/-- A UNITS entry's ranges (R899) and reserved bits (R898). -/
def unitRangeOk (e : List Byte) : Bool :=
  let u := parseUnit e
  decide (u.qbase + u.qcount ≤ 4096) && decide (u.tmbBase + u.tmbCount ≤ 32768) && decide (u.vf ≤ 16)
    && decide (le e 0 2 < 1024) && natBits (le e 2 2) 10 5 == 0 && natBits (le e 5 1) 1 3 == 0 && natBits (le e 6 1) 5 3 == 0
    && natBits (le e 8 2) 12 4 == 0 && natBits (le e 10 2) 13 3 == 0 && natBits (le e 12 2) 15 1 == 0
    && natBits (le e 26 1) 3 5 == 0 && le e 27 5 == 0 && u.routes.all (fun r => natBits r 10 5 == 0) && le e 144 16 == 0

def parsePart (e : List Byte) : PartEnt :=
  { index := natBits (le e 0 1) 0 6, is_sealed := natBit (le e 1 1) 0, keep := natBit (le e 1 1) 1
    stackMask := le e 4 4, granules := le e 8 4, scratch := natBits (le e 12 4) 0 20
    bwShare := natBits (le e 16 2) 0 11, bwCeil := natBits (le e 18 2) 0 11 }

def partRangeOk (e : List Byte) : Bool :=
  let p := parsePart e
  decide (p.bwShare ≤ p.bwCeil) && decide (p.bwCeil ≤ 1024)
    && natBits (le e 0 1) 6 2 == 0 && natBits (le e 1 1) 2 6 == 0 && le e 2 2 == 0 && natBits (le e 12 4) 20 12 == 0
    && natBits (le e 16 2) 11 5 == 0 && natBits (le e 18 2) 11 5 == 0 && le e 20 12 == 0

def parsePlace (e : List Byte) : PlaceEnt :=
  { hot := natBits (le e 0 1) 0 2, cold := natBits (le e 0 1) 2 2, stream := natBits (le e 0 1) 4 2
    pin := natBits (le e 0 1) 6 2, leafAff := natBits (le e 1 1) 0 2, migrateEn := natBit (le e 1 1) 2
    interleave := natBits (le e 2 1) 0 2, migThresh := natBits (le e 3 1) 0 4 }

def placeRangeOk (e : List Byte) : Bool :=
  !(natBits (le e 2 1) 0 2 == 3) && natBits (le e 1 1) 3 5 == 0 && natBits (le e 2 1) 2 6 == 0
    && natBits (le e 3 1) 4 4 == 0 && le e 4 4 == 0

def parsePin (e : List Byte) : PinEnt :=
  { func := natBits (le e 0 1) 0 4, activeLow := natBit (le e 0 1) 4, timer := natBits (le e 1 1) 0 3
    buffer := natBits (le e 2 1) 0 2, tumbler := natBits (le e 4 2) 0 15 }

def parseTimer (e : List Byte) : TimerEnt :=
  { en := natBit (le e 0 1) 0, fire := natBit (le e 0 1) 1, tumbler := natBits (le e 2 2) 0 15, offset := le e 4 3 }

/-- A pin's function and reserved bits, and its timer (R121). -/
def pinRangeOk (ts : List TimerEnt) (e : List Byte) : Bool :=
  let p := parsePin e
  decide (p.func < 8) && natBits (le e 0 1) 5 3 == 0 && natBits (le e 1 1) 3 5 == 0 && natBits (le e 2 1) 2 6 == 0
    && le e 3 1 == 0 && natBits (le e 4 2) 15 1 == 0 && le e 6 2 == 0
    && (!(p.func == 3) || (ts.getD p.timer {}).en)

def timerRangeOk (p : Nat) (e : List Byte) : Bool :=
  decide ((parseTimer e).offset < p) && natBits (le e 0 1) 2 6 == 0 && le e 1 1 == 0 && natBits (le e 2 2) 15 1 == 0
    && le e 7 1 == 0

def parseTick (e : List Byte) : TickEnt :=
  { src := natBits (le e 0 1) 0 2, tout := natBits (le e 0 1) 4 2, p := natBits (le e 4 4) 0 24
    g := le e 8 2, h := le e 10 2, snapSize := le e 12 4 }

/-! ### The snapshot record's size (Tables 2.4, 2.5; R117) -/

/-- The value counts of the groups that every record holds, group 0x0003 apart. -/
def snapFixedCounts : List Nat := [5, 56, 2560, 6144, 6144, 43, 640, 144, 96, 192, 6, 20, 11, 10, 38, 72, 17]

/-- Bytes of the record for a number of units. -/
def snapSizeFor (units : Nat) : Nat :=
  32 + 8 * 18 + 8 * (snapFixedCounts.foldl (· + ·) 0 + 5 * units)

def tickRangeOk (units : Nat) (e : List Byte) : Bool :=
  let t := parseTick e
  decide (t.src < 3) && decide (t.tout < 3) && decide (2000 ≤ t.p) && decide (t.p ≤ 10000000)
    && decide (4 ≤ t.g) && decide (t.g < t.p) && decide (5 ≤ t.h)
    && t.snapSize % 64 == 0 && decide (snapSizeFor units ≤ t.snapSize)
    && natBits (le e 0 1) 2 2 == 0 && natBits (le e 0 1) 6 2 == 0 && le e 1 3 == 0 && natBits (le e 4 4) 24 8 == 0
    && le e 16 16 == 0

/-- An image's entries. -/
def parseImage (bs : List Byte) : Image :=
  { kind := le bs 6 2, size := bs.length, imageId := le bs 16 8, svn := le bs 24 4, stepping := le bs 28 4
    domain := le bs 32 4, rootSlot := le bs 36 4, baseId := le bs 40 8
    tick := match entries bs 1 with
      | e :: _ => parseTick e
      | [] => {}
    units := (entries bs 2).map parseUnit
    parts := (entries bs 3).zipIdx.map (fun x => { parsePart x.1 with pos := x.2 })
    scratchWays := (entries bs 4).map (fun e => natBits (le e 0 1) 0 5)
    place := (entries bs 5).map parsePlace
    pins := (entries bs 6).map parsePin
    timers := (entries bs 7).map parseTimer
    ports := (entries bs 8).map (fun e => (natBits (le e 0 4) 0 4, natBits (le e 0 4) 4 2))
    freq := (entries bs 9).map (fun e => le e 0 1) }

/-! ### The image that would be in force -/

/-- Ancestors-or-self within a list of units. -/
def pathIn (us : List UnitEnt) (slot : Nat) : List Nat := ancestorsIn us 16 slot
def isUnder (us : List UnitEnt) (top slot : Nat) : Bool := (pathIn us slot).contains top

/-- The tree in force with the subtree of `root` replaced (R901). -/
def mergeUnits (old new : List UnitEnt) (root : Nat) : List UnitEnt :=
  old.filter (fun u => !isUnder old root u.slot) ++ new

/-- Put an entry among others by its position in the section that it came in, behind those of the same position. -/
def insPart (p : PartEnt) : List PartEnt → List PartEnt
  | [] => [p]
  | x :: r => if p.pos < x.pos then p :: x :: r else x :: insPart p r

/-- The partition entries in force with those of a partial image in place of the ones it redefines, in the order of their positions: an entry in
force keeps the position it had in its own image (DEDUCED, log entry 113). -/
def mergeParts (old new : List PartEnt) : List PartEnt :=
  new.foldl (fun l p => insPart p l) (old.filter (fun p => !new.any (fun q => q.index == p.index)))

/-- Placement entries: a partial image's apply to the partitions it names (R116). Without a PLACEMENT section the entries in force govern those
too (DESIGN CHOICE, log entry 112). -/
def mergePlace (old new : List PlaceEnt) (ps : List PartEnt) : List PlaceEnt :=
  if new.isEmpty then old
  else (List.range 64).map (fun i => if ps.any (fun p => p.index == i) then new.getD i {} else old.getD i {})

/-- The image in force once `new` is applied to `old`. -/
def mergeImage (old new : Image) : Image :=
  if new.kind = 0 then new
  else { old with
    imageId := new.imageId
    units := mergeUnits old.units new.units new.rootSlot
    parts := mergeParts old.parts new.parts
    place := mergePlace old.place new.place new.parts }

/-! ### Ranges (step 8 of R127) -/

def rangesOk (bs : List Byte) (old new : Image) : Bool :=
  let merged := mergeImage old new
  let units := merged.units.length
  let used := fun i => new.parts.any (fun p => p.index == i)
  let places := entries bs 5
  (entries bs 2).all unitRangeOk && (entries bs 3).all partRangeOk
    && (List.range places.length).all (fun i => !used i || placeRangeOk (places.getD i []))
    && (if new.kind = 0 then
        (entries bs 1).all (tickRangeOk units)
          && (entries bs 4).all (fun e => decide (natBits (le e 0 1) 0 5 ≤ 16) && natBits (le e 0 1) 5 3 == 0)
          && (entries bs 6).all (pinRangeOk new.timers) && (entries bs 7).all (timerRangeOk new.tick.p)
          && (entries bs 8).all (fun e => natBits (le e 0 4) 6 26 == 0)
          && (entries bs 9).all (fun e => decide (le e 0 1 ≤ 16) || le e 0 1 == 255)
      else decide (snapSizeFor units ≤ old.tick.snapSize))

/-! ### The tree (Table 3.4, R901) -/

def children (us : List UnitEnt) (u : UnitEnt) : List UnitEnt := us.filter (fun c => !c.root && c.parent == u.slot)

def subMask (a b : Nat) : Bool := Nat.lor a b == b

/-- Two tumbler ranges that are not empty and share a tumbler. -/
def tmbMeet (a b : UnitEnt) : Bool :=
  !(a.tmbCount == 0) && !(b.tmbCount == 0) && decide (a.tmbBase < b.tmbBase + b.tmbCount)
    && decide (b.tmbBase < a.tmbBase + a.tmbCount)

def tmbInside (c p : UnitEnt) : Bool :=
  c.tmbCount == 0 || (decide (p.tmbBase ≤ c.tmbBase) && decide (c.tmbBase + c.tmbCount ≤ p.tmbBase + p.tmbCount))

/-- Valid routes of a group, as target slots. -/
def UnitEnt.targets (u : UnitEnt) : List Nat := (u.routes.filter (fun r => natBit r 15)).map (fun r => r % 1024)

def unitTreeOk (us : List UnitEnt) (u : UnitEnt) : Bool :=
  let cs := children us u
  let parent := us.find? (fun p => !u.root && p.slot == u.parent)
  let leafAt := fun t => match us.find? (fun x => x.slot == t) with
    | some x => !x.group
    | none => false
  (match parent with
    | some p => u.depth == p.depth + 1 && subMask u.partMask p.partMask && tmbInside u p
    | none => u.root && u.depth == 0)
    && (if u.group then
        !cs.isEmpty && u.cores == cs.foldl (fun m c => Nat.lor m c.cores) 0
          && u.targets.all (fun t => leafAt t && isUnder us u.slot t)
          && u.priority == 0 && u.overrunPol == 0 && u.carryLimit == 0 && u.barrierWd == 0 && !u.traceEn
      else
        cs.isEmpty && !(u.cores == 0) && u.routes.all (fun r => r == 0)
          && (decide (0 < u.qcount) || (pathIn us u.slot).any (fun a => match us.find? (fun x => x.slot == a) with
              | some x => decide (0 < x.qcount) && x.targets.contains u.slot
              | none => false)))
    && (List.range cs.length).all (fun i => (List.range i).all (fun j =>
        match cs[i]?, cs[j]? with
        | some a, some b => !(a.ord == b.ord) && !tmbMeet a b
        | _, _ => true))

/-- Every parent precedes its children; slots are distinct; there is one root, the first entry. -/
def orderOk (us : List UnitEnt) : Bool :=
  (List.range us.length).all (fun i => match us[i]? with
    | some u =>
      !(us.take i).any (fun x => x.slot == u.slot)
        && (if i = 0 then u.root && u.slot == 0 && u.parent == 0 && u.vf == 0
            else !u.root && (us.take i).any (fun x => x.slot == u.parent))
    | none => true)

/-- The order within a partial image's own section. -/
def partialOrderOk (root : Nat) (us : List UnitEnt) : Bool :=
  (List.range us.length).all (fun i => match us[i]? with
    | some u => if i = 0 then u.slot == root else (us.take i).any (fun x => x.slot == u.parent)
    | none => true)

def treeOk (merged new : Image) : Bool :=
  orderOk merged.units && merged.units.all (unitTreeOk merged.units)
    && (new.kind == 0 || partialOrderOk new.rootSlot new.units)

/-! ### Partial images (R136, R137, R140) -/

/-- A partial image uses a slot that neither belonged to the old subtree nor was unused. -/
def slotUseBad (old new : Image) : Bool :=
  new.units.any (fun u => old.units.any (fun x => x.slot == u.slot && !isUnder old.units new.rootSlot x.slot))

/-- The envelope of a unit. -/
def UnitEnt.envelope (u : UnitEnt) : List Nat :=
  [u.cores, u.qbase, u.qcount, u.tmbBase, u.tmbCount, u.vf, u.partMask, u.parent, if u.root then 1 else 0, u.ord]

/-- KEEP is honoured only for an entry equal to the old one but for its bandwidth (R140). -/
def keepBad (old new : Image) : Bool :=
  new.parts.any (fun p => p.keep && !old.parts.any (fun q =>
    { q with keep := true, bwShare := p.bwShare, bwCeil := p.bwCeil, pos := p.pos } == p))

def envelopeBad (old new : Image) : Bool :=
  let root := new.rootSlot
  let outside := old.units.filter (fun u => !isUnder old.units root u.slot)
  let newLeaf := fun t => new.units.any (fun u => u.slot == t && !u.group)
  !((old.units.find? (fun u => u.slot == root)).map UnitEnt.envelope == (new.units.head?).map UnitEnt.envelope)
    || outside.any (fun u => u.targets.any (fun t => isUnder old.units root t && !newLeaf t))
    || new.parts.any (fun p => old.parts.any (fun q => q.index == p.index) && outside.any (fun u => natBit u.partMask p.index && !(pathIn old.units root).contains u.slot))
    || keepBad old new

/-! ### Conflicts (Tables 3.8, 3.13) -/

/-- A claim: section type and entry index. -/
abbrev Claim := Nat × Nat

/-- A conflict: class, resource index, code, earlier and later claim. -/
structure Conflict where
  cls : Nat
  index : Nat
  code : Nat
  a : Claim
  b : Claim
  deriving DecidableEq, Repr

/-- The claims of UNITS entries go by slot. -/
def insSlot (u : UnitEnt) : List UnitEnt → List UnitEnt
  | [] => [u]
  | x :: r => if u.slot < x.slot then u :: x :: r else x :: insSlot u r
def bySlot : List UnitEnt → List UnitEnt
  | [] => []
  | u :: r => insSlot u (bySlot r)

/-- The first two of a list of claims. -/
def twoOf (cls index code : Nat) (cs : List Claim) : Option Conflict :=
  match cs with
  | a :: b :: _ => some ⟨cls, index, code, a, b⟩
  | _ => none

/-- The first claim that has an earlier one for which `bad` holds, with the earliest such. -/
def firstPair (us : List UnitEnt) (bad : UnitEnt → UnitEnt → Bool) : Option (UnitEnt × UnitEnt) :=
  (List.range us.length).findSome? (fun i => match us[i]? with
    | some b => ((us.take i).find? (fun a => bad a b)).map (fun a => (a, b))
    | none => none)

def coreConflict (us : List UnitEnt) : Option Conflict :=
  (List.range 640).findSome? (fun c =>
    (firstPair (us.filter (fun u => !u.group && natBit u.cores c)) (fun a b => a.priority == b.priority)).map
      (fun p => ⟨1, c, 0x0320, (2, p.1.slot), (2, p.2.slot)⟩))

def queueConflict (us : List UnitEnt) : Option Conflict :=
  let qs := us.filter (fun u => !(u.qcount == 0))
  let holds := fun q => qs.filter (fun u => decide (u.qbase ≤ q) && decide (q < u.qbase + u.qcount))
  let shared := (qs.map (fun u => u.qbase)).filter (fun q => decide (2 ≤ (holds q).length))
  match shared with
  | [] => none
  | q :: r =>
    let m := r.foldl min q
    twoOf 2 m 0x0321 ((holds m).map (fun u => (2, u.slot)))

def vfConflict (us : List UnitEnt) : Option Conflict :=
  (List.range 16).findSome? (fun i =>
    let v := i + 1
    match twoOf 3 v 0x0322 ((us.filter (fun u => u.vf == v)).map (fun u => (2, u.slot))) with
    | some c => some c
    | none =>
      match us.find? (fun u => u.vf == v) with
      | some u =>
        (us.find? (fun o => !(o.vf == 0) && !(o.slot == u.slot) && isUnder us o.slot u.slot)).map
          (fun o => ⟨3, v, 0x0322, (2, o.slot), (2, u.slot)⟩)
      | none => none)

/-- Tumbler targets of pins and timers with their claims. -/
def pinTargets (im : Image) : List (Nat × Claim) :=
  (List.range im.pins.length).filterMap (fun i => match im.pins[i]? with
    | some p => if p.func = 5 ∨ p.func = 6 then some (p.tumbler, (6, i)) else none
    | none => none)
def timerTargets (im : Image) : List (Nat × Claim) :=
  (List.range im.timers.length).filterMap (fun i => match im.timers[i]? with
    | some t => if t.fire then some (t.tumbler, (7, i)) else none
    | none => none)

/-- The candidate of least index; among equals the first. -/
def leastConflict (cs : List Conflict) : Option Conflict :=
  cs.foldl (fun m c => match m with
    | some x => if c.index < x.index then some c else some x
    | none => some c) none

def tmbConflict (im : Image) (us : List UnitEnt) : Option Conflict :=
  let overlaps := (List.range us.length).flatMap (fun i => match us[i]? with
    | some b => ((us.take i).filter (fun a => tmbMeet a b && !isUnder us a.slot b.slot && !isUnder us b.slot a.slot)).map
        (fun a => (⟨4, max a.tmbBase b.tmbBase, 0x0323, (2, a.slot), (2, b.slot)⟩ : Conflict))
    | none => [])
  let ps := pinTargets im
  let ts := timerTargets im
  let both := ps.filterMap (fun p => (ts.find? (fun t => t.1 == p.1)).map
    (fun t => (⟨4, p.1, 0x0324, p.2, t.2⟩ : Conflict)))
  let outside := (ps ++ ts).filterMap (fun p =>
    if us.any (fun u => decide (u.tmbBase ≤ p.1) && decide (p.1 < u.tmbBase + u.tmbCount)) then none
    else some (⟨4, p.1, 0x0324, p.2, p.2⟩ : Conflict))
  leastConflict (overlaps ++ both ++ outside)

def timerConflict (im : Image) : Option Conflict :=
  (List.range 8).findSome? (fun t =>
    twoOf 6 t 0x0326 ((List.range im.pins.length).filterMap (fun i => match im.pins[i]? with
      | some p => if p.func = 3 ∧ p.timer = t then some (6, i) else none
      | none => none) ++ (if (im.timers.getD t {}).fire then [(7, t)] else [])))

def bufferConflict (im : Image) (us : List UnitEnt) : Option Conflict :=
  (List.range 4).findSome? (fun b =>
    twoOf 7 b 0x0327 ((us.filter (fun u => u.traceEn && u.traceBuf == b)).map (fun u => (2, u.slot)) ++
      (List.range im.pins.length).filterMap (fun i => match im.pins[i]? with
        | some p => if p.func = 7 ∧ p.buffer = b then some (6, i) else none
        | none => none)))

/-- Claims that add up past a limit: the earliest that is above 0 and the one that takes the total past. -/
def sumConflict (cls index code limit : Nat) (ps : List (Nat × Nat)) : Option Conflict :=
  let pos := ps.filter (fun p => decide (0 < p.2))
  match pos with
  | [] => none
  | a :: _ =>
    ((List.range pos.length).find? (fun i => decide (limit < ((pos.take (i + 1)).foldl (fun t p => t + p.2) 0)))).map
      (fun i => ⟨cls, index, code, (3, a.1), (3, (pos.getD i a).1)⟩)

/-- Entries with their positions in their section. -/
def indexed {α : Type} (l : List α) : List (Nat × α) := (List.range l.length).zip l

/-- PARTITIONS entries with their positions. -/
def Image.partClaims (im : Image) : List (Nat × PartEnt) := im.parts.map (fun p => (p.pos, p))

/-- Scratch granules of a die with a number of scratch ways: 3,072 each (R492). -/
def scratchTotal (im : Image) (dead : List Nat) : Nat :=
  (List.range 8).foldl (fun t d => if dead.contains d then t else t + 3072 * im.scratchWays.getD d 0) 0

/-- User capacity of a stack as it stands: 30,720 granules a channel in service (R547); none on a dead die. -/
def State.stackCapacity (s : State) (k : Nat) : Nat :=
  if s.coh.deadDies.contains (k / 4) then 0 else 30720 * (maskBits 32 (s.fld (RF.MEM_S_INSERVICE_MASK k))).length

def shareConflict (im : Image) : Option Conflict :=
  (List.range 32).findSome? (fun k =>
    sumConflict 9 k 0x0329 1024 (im.partClaims.filterMap (fun p =>
      if natBit p.2.stackMask k then some (p.1, p.2.bwShare) else none)))

def State.capacityConflict (s : State) (im : Image) : Option Conflict :=
  let cap := fun (m : Nat) => (maskBits 32 m).foldl (fun t k => t + s.stackCapacity k) 0
  let single := (List.range 64).findSome? (fun n =>
    (im.partClaims.find? (fun p => p.2.index == n && decide (cap p.2.stackMask < p.2.granules))).map
      (fun p => (⟨10, n, 0x032A, (3, p.1), (3, p.1)⟩ : Conflict)))
  match single with
  | some c => some c
  | none => sumConflict 10 0xFFFFFF 0x032A (cap (2 ^ 32 - 1)) (im.partClaims.map (fun p => (p.1, p.2.granules)))

def partConflict (im : Image) (us : List UnitEnt) : Option Conflict :=
  (List.range 64).findSome? (fun n =>
    let es := im.partClaims.filter (fun p => p.2.index == n)
    match twoOf 11 n 0x032B (es.map (fun p => (3, p.1))) with
    | some c => some c
    | none =>
      if es.any (fun p => p.2.is_sealed) then
        let named := us.filter (fun u => natBit u.partMask n)
        match named with
        | [] => none
        | a :: _ =>
          ((List.range named.length).findSome? (fun i => match named[i]? with
            | some b => if (named.take i).any (fun x => !isUnder us x.slot b.slot && !isUnder us b.slot x.slot) then some b else none
            | none => none)).map (fun b => ⟨11, n, 0x032B, (2, a.slot), (2, b.slot)⟩)
      else none)

def portConflict (im : Image) : Option Conflict :=
  (List.range 16).findSome? (fun p =>
    twoOf 12 p 0x032C (((indexed im.ports).filter (fun e => e.2.1 == p)).map (fun e => (8, e.1))))

/-- The first conflict by class and resource index. -/
def State.conflict (s : State) (im : Image) : Option Conflict :=
  let us := bySlot im.units
  [coreConflict us, queueConflict us, vfConflict us, tmbConflict im us, timerConflict im, bufferConflict im us,
   sumConflict 8 0 0x0328 (scratchTotal im s.coh.deadDies) (im.partClaims.map (fun p => (p.1, p.2.scratch))),
   shareConflict im, s.capacityConflict im, partConflict im us, portConflict im].findSome? id

/-! ### Every check in the order of R127 -/

/-- Partitions whose generation an image advances (R828). -/
def advancing (new : Image) : List Nat :=
  if new.kind = 0 then List.range 64 else (new.parts.filter (fun p => !p.keep)).map (fun p => p.index)

/-- A refusal: its code, and the claims of a conflict. -/
structure WardRefusal where
  code : Nat
  conflict : Option Conflict := none
  deriving DecidableEq, Repr

/-- The first check that an image of a load fails (R127 from the header on). -/
def State.wardCheck (s : State) (q : LoadReq) (bs : List Byte) : Option WardRefusal :=
  let sig := le bs 48 8
  let pub := bytesAt bs sig 64
  let old := s.ward.image
  if !formatOk bs then some { code := 0x0305 }
  else if !(s.boot.signers.contains (sm3 pub) && sm2Verify pub (bs.take sig) (bytesAt bs (sig + 64) 64)) then
    some { code := 0x0301 }
  else
    let new := parseImage bs
    if new.svn < s.boot.bundleWardSvn then some { code := 0x0302 }
    else if new.domain ≠ Config.domain then some { code := 0x0303 }
    else if !natBit new.stepping Config.stepping then some { code := 0x0304 }
    else if s.flag RF.WRD_STAT_LOADED == (new.kind == 0) then some { code := 0x0306 }
    else if new.kind = 1 ∧ (!q.quiesced || !(q.qslot == new.rootSlot)) then some { code := 0x0308 }
    else if new.kind = 1 ∧ new.baseId ≠ old.imageId then some { code := 0x0307 }
    else if !rangesOk bs old new then some { code := 0x030A }
    else if new.kind = 1 ∧ slotUseBad old new then some { code := 0x030B }
    else
      let merged := mergeImage old new
      if !treeOk merged new then some { code := 0x0309 }
      else if new.kind = 1 ∧ envelopeBad old new then some { code := 0x030B }
      else match s.conflict merged with
        | some c => some { code := c.code, conflict := some c }
        | none => if (advancing new).any (fun n => (s.reg (RA.KWY_GEN n)).toNat == 2 ^ 32 - 1) then some { code := 0x030B } else none

end Sys2Proof.Machine
end

