-- ==== Sys2Proof/Machine/Place.lean ====
section
/-! DEFINITION. The placement engines: allocation of granules, their release, and the copying of a granule between backings
(R488 to R491, R506, R508, R519 to R531). -/

namespace Sys2Proof.Machine

/-! ### Free granules -/

/-- Every backing in use: a granule's own, the reserved one of a promotion, and the target of a copy in progress. -/
def State.usedLocs (s : State) : List Loc :=
  s.mem.backing.flatMap (fun p => match p.2 with
    | some g =>
      g.loc :: ((match g.resv with
        | some (k, i) => [Loc.hbm k i]
        | none => []) ++ (match g.copyTo with
          | some l => if g.resv == none then [l] else (match l with
            | .scr _ _ => [l]
            | .hbm _ _ => [])
          | none => []))
    | none => [])

def Loc.isHbm : Loc → Bool
  | .hbm _ _ => true
  | .scr _ _ => false

/-- The stack of an HBM backing, the die of a scratch backing. -/
def Loc.place : Loc → Nat
  | .hbm k _ => k
  | .scr d _ => d
def Loc.idx : Loc → Nat
  | .hbm _ i => i
  | .scr _ i => i

def countAt (used : List Loc) (hbm : Bool) (place : Nat) : Nat :=
  (used.filter (fun l => l.isHbm == hbm && l.place == place)).length

/-- Free granules of a stack, and free scratch granules of a die. -/
def State.freeHbm (s : State) (used : List Loc) (k : Nat) : Nat := s.stackCapacity k - countAt used true k
def State.scrCapacity (s : State) (d : Nat) : Nat := if s.coh.deadDies.contains d then 0 else 3072 * s.scratchWays d
def State.freeScr (s : State) (used : List Loc) (d : Nat) : Nat := s.scrCapacity d - countAt used false d

/-- MEM_FREE_HBM, MEM_FREE_SCR and MEM_S_FREE follow the backing table. -/
def State.syncFree (s : State) : State :=
  let used := s.usedLocs
  let hs := (List.range 32).map (fun k => s.freeHbm used k)
  let sc := ((List.range 8).map (fun d => s.freeScr used d)).foldl (· + ·) 0
  let s := (List.range 32).foldl (fun s k => s.setFld (RF.MEM_S_FREE_GRANULES k) (hs.getD k 0)) s
  (s.setFld RF.MEM_FREE_HBM_GRANULES (hs.foldl (· + ·) 0)).setFld RF.MEM_FREE_SCR_GRANULES sc

/-- Granules that a partition holds in stacks and in scratch. -/
def State.partUse (s : State) (part : Nat) (hbm : Bool) : Nat :=
  (s.mem.backing.filter (fun p => match p.2 with
    | some g => g.part == part && (if hbm then g.loc.isHbm || g.resv.isSome
        else !g.loc.isHbm || (match g.copyTo with
          | some l => !l.isHbm
          | none => false))
    | none => false)).length

def State.partEnt (s : State) (part : Nat) : Option PartEnt := s.ward.image.parts.find? (fun p => p.index == part)
def State.placeEnt (s : State) (part : Nat) : PlaceEnt := s.ward.image.place.getD part {}

/-- What a partition may still take. -/
def State.allowance (s : State) (part : Nat) (hbm : Bool) : Nat :=
  match s.partEnt part with
  | some p => (if hbm then p.granules else p.scratch) - s.partUse part hbm
  | none => 0

/-! ### Choosing places (R519, R521) -/

/-- Take a place in cyclic order from a list of (place, free): the first at or after `from` with room. -/
def takePlace (ps : List (Nat × Nat)) (from_ : Nat) : Option Nat :=
  match ps.find? (fun p => decide (from_ ≤ p.1) && decide (0 < p.2)) with
  | some p => some p.1
  | none => (ps.find? (fun p => decide (0 < p.2))).map (fun p => p.1)

/-- The places of `n` granules in a cycle that continues after the partition's last; fewer when they run out. -/
def cyclePlaces : Nat → List (Nat × Nat) → Nat → List Nat
  | 0, _, _ => []
  | n + 1, ps, from_ =>
    match takePlace ps from_ with
    | none => []
    | some p => p :: cyclePlaces n (ps.map (fun q => if q.1 = p then (q.1, q.2 - 1) else q)) (p + 1)

/-- The places that an allocation may use with their free granules: stacks of the partition, or dies with scratch ways, cut
to the scope of INTERLEAVE and to a leaf when one is given. -/
def State.scope (s : State) (part : Nat) (hbm : Bool) (leaf : Option Nat) : List (Nat × Nat) :=
  let used := s.usedLocs
  let mask := match s.partEnt part with
    | some p => p.stackMask
    | none => 0
  let all := if hbm then (maskBits 32 mask).map (fun k => (k, s.freeHbm used k))
    else ((List.range 8).filter (fun d => decide (0 < s.scrCapacity d))).map (fun d => (d, s.freeScr used d))
  let perLeaf := if hbm then 16 else 4
  let perDie := if hbm then 4 else 1
  let sum := fun (ps : List (Nat × Nat)) => ps.foldl (fun t p => t + p.2) 0
  let inLeaf := fun (l : Nat) => all.filter (fun p => p.1 / perLeaf == l)
  let chosen := match leaf with
    | some l => l
    | none => if sum (inLeaf 0) < sum (inLeaf 1) then 1 else 0
  match (s.placeEnt part).interleave with
  | 0 => match leaf with
    | some l => inLeaf l
    | none => all
  | 1 => inLeaf chosen
  | _ =>
    let dies := (List.range 4).map (fun i => 4 * chosen + i)
    let inDie := fun (d : Nat) => all.filter (fun p => p.1 / perDie == d)
    let best := dies.foldl (fun b d => if sum (inDie b) < sum (inDie d) then d else b) (4 * chosen)
    inDie best

def roomIn (ps : List (Nat × Nat)) : Nat := ps.foldl (fun t p => t + p.2) 0

/-- Where the partition's cycle stands: stacks under its number, dies under 64 + its number. -/
def cycleKey (part : Nat) (hbm : Bool) : Nat := if hbm then part else 64 + part

/-- The lowest granule of a place that is not in use. -/
def freshIdx (used : List Loc) (hbm : Bool) (place : Nat) : Nat :=
  let mine := (used.filter (fun l => l.isHbm == hbm && l.place == place)).map Loc.idx
  ((List.range (mine.length + 1)).find? (fun i => !mine.contains i)).getD 0

def locOf (hbm : Bool) (place idx : Nat) : Loc := if hbm then .hbm place idx else .scr place idx

/-- Initialise a granule (R522): the lines of an HBM granule read as zeros, a scratch granule is zeroed. -/
def State.initGran (s : State) (l : Loc) : State :=
  let lo := l.lineKey 0
  match l with
  | .hbm _ _ => { s with mem := { s.mem with
      lines := s.mem.lines.filter (fun p => !(decide (lo ≤ p.1) && decide (p.1 < lo + 512)))
      vault := s.mem.vault.filter (fun p => !(decide (lo ≤ p.1) && decide (p.1 < lo + 512)))
      abuf := s.mem.abuf.filter (fun p => !(decide (lo ≤ p.1) && decide (p.1 < lo + 512)))
      reds := s.mem.reds.filter (fun r => !(r.loc == l)) } }
  | .scr _ _ => { s with mem := { s.mem with
      scratch := s.mem.scratch.filter (fun p => !(decide (lo * 128 ≤ p.1) && decide (p.1 < (lo + 512) * 128)))
      scrPoison := s.mem.scrPoison.filter (fun p => !(decide (lo ≤ p.1) && decide (p.1 < lo + 512)))
      reds := s.mem.reds.filter (fun r => !(r.loc == l)) } }

/-- Allocate one granule at a place and initialise it. -/
def State.newLoc (s : State) (hbm : Bool) (place : Nat) : Loc := locOf hbm place (freshIdx s.usedLocs hbm place)

/-- Back the granules from `gran` on with the chosen places. -/
def State.backGranules (s : State) (unit ctx part : Nat) (hbm pinned : Bool) : Nat → List Nat → State
  | _, [] => s
  | gran, p :: r =>
    let l := s.newLoc hbm p
    let s := (s.initGran l).setGran (granKey unit ctx gran) (some { loc := l, part := part, home := l.die / 4, pinned := pinned })
    let s := { s with mem := { s.mem with
      lastStack := kvSet (fun _ => 0) s.mem.lastStack (cycleKey part hbm) (p + 1) } }
    s.backGranules unit ctx part hbm pinned (gran + 1) r

/-- What an allocation of `n` granules for a range leads to: the places, or the room found. -/
inductive Alloc where
  | places (ps : List Nat) (outside : Nat)
  | short (room : Nat)
  deriving DecidableEq, Repr

/-- Choose the places of a new range (R519 to R521). `lead`: the leaf of LEAF advice and its binding. -/
def State.chooseFor (s : State) (part n : Nat) (hbm : Bool) (lead : Option (Nat × Nat)) : Alloc :=
  let from_ := kvGet (fun _ => 0) s.mem.lastStack (cycleKey part hbm)
  let allow := s.allowance part hbm
  let try_ := fun (leaf : Option Nat) =>
    let sc := s.scope part hbm leaf
    if n ≤ roomIn sc ∧ n ≤ allow then (Alloc.places (cyclePlaces n sc from_) 0) else .short (min allow (roomIn sc))
  let perLeaf := if hbm then 16 else 4
  match lead with
  | some (l, 2) => try_ (some l)
  | some (l, 1) =>
    (match try_ (some l) with
      | .places ps k => .places ps k
      | .short _ => match try_ none with
        | .places ps _ => .places ps (ps.filter (fun p => !(p / perLeaf == l))).length
        | .short r => .short r)
  | _ => try_ none

/-! ### Release -/

/-- Free the backing of one granule: nothing of it stays cached or pending. -/
def State.freeGran (s : State) (k : Nat) : State :=
  match s.gran k with
  | none => s
  | some g =>
    let s := s.initGran g.loc
    let s := match g.resv with
      | some (st, i) => s.initGran (.hbm st i)
      | none => s
    let s := match g.copyTo with
      | some l => s.initGran l
      | none => s
    s.setGran k none

/-- The granules of a range that are backed. -/
def rangeKeys (r : RangeEnt) : List Nat := (List.range r.length).map (fun i => granKey r.unit r.ctx (r.start + i))

def State.freeRange (s : State) (r : RangeEnt) : State :=
  let ks := s.mem.backing.filterMap (fun p =>
    if granKey r.unit r.ctx r.start ≤ p.1 ∧ p.1 < granKey r.unit r.ctx r.start + r.length then some p.1 else none)
  let s := ks.foldl State.freeGran s
  ({ s with mem := { s.mem with migr := s.mem.migr.filter (fun m =>
      !(m.unit == r.unit && m.ctx == r.ctx && decide (r.start ≤ m.gran) && decide (m.gran < r.start + r.length))) } }).syncFree

/-! ### Copying lines between backings (R527, R531) -/

/-- Take a line from its old backing: from the stack through the home slice, whose cached line is then invalidated, or from
scratch. -/
def State.takeLine (s : State) (l : Loc) (line : Nat) : State × List Byte × Bool :=
  let k := l.lineKey line
  match l with
  | .hbm _ _ =>
    let s := (s.retireLine k false).abufFlush k
    let v := s.vline k
    if v == noLine then s.stackRead k 0
    else
      let (s, data, bad) := if v.valid = 15 then (s, v.data, v.poison) else
        let (s, d, b) := s.stackRead k 0
        (s, mergeSectors v.valid v.data d, b || v.poison)
      ({ s with mem := { s.mem with vault := kvSet (fun _ => noLine) s.mem.vault k noLine } }, data, bad)
  | .scr _ _ =>
    let s := s.retireAll l line false (fun s r =>
      let (data, bad) := s.scrRead k
      if bad then s else s.scrWrite k 0 (r.apply data))
    let (data, bad) := s.scrRead k
    (s, data, bad)

/-- Write a whole line to its new backing with its poison. -/
def State.putLine (s : State) (part : Nat) (l : Loc) (line : Nat) (data : List Byte) (bad : Bool) : State :=
  let k := l.lineKey line
  match l with
  | .hbm _ _ => s.stackWrite k 0 part 15 data true bad
  | .scr _ _ =>
    let s := s.scrWrite k 0 data
    if bad then { s with mem := { s.mem with scrPoison := kvSet (fun _ => false) s.mem.scrPoison k true } } else s

def State.moveLine (s : State) (part : Nat) (src dst : Loc) (line : Nat) : State :=
  let (s, data, bad) := s.takeLine src line
  s.putLine part dst line data bad

/-- Copy one 4 KiB block, 32 lines. -/
def State.moveBlock (s : State) (part : Nat) (src dst : Loc) (block : Nat) : State :=
  (List.range 32).foldl (fun s i => s.moveLine part src dst (32 * block + i)) s

/-- Copy a whole granule at once. -/
def State.moveWhole (s : State) (part : Nat) (src dst : Loc) : State :=
  (List.range 16).foldl (fun s b => s.moveBlock part src dst b) s

/-! ### Pins (R506, R508) -/

/-- Move the range's HBM granules at the listed offsets into the chosen scratch dies. -/
def State.pinMoves (s : State) : List Nat → List Nat → State
  | k :: ks, d :: ds =>
    match s.gran k with
    | none => s.pinMoves ks ds
    | some g =>
      let l := s.newLoc false d
      let s := (s.initGran l).moveWhole g.part g.loc l
      let s := (s.initGran g.loc).setGran k (some { loc := l, part := g.part, home := g.home, pinned := true })
      let s := { s with mem := { s.mem with lastStack := kvSet (fun _ => 0) s.mem.lastStack (cycleKey g.part false) (d + 1) } }
      s.pinMoves ks ds
  | _, _ => s

/-- Granules of a range still in a stack and not being copied, and its scratch granules. -/
def State.rangeIn (s : State) (r : RangeEnt) (hbm : Bool) : List Nat :=
  (rangeKeys r).filter (fun k => match s.gran k with
    | some g => g.loc.isHbm == hbm && g.copyTo == none
    | none => false)

/-- Mark scratch granules pinned or not. -/
def State.markPins (s : State) (b : Bool) (ks : List Nat) : State :=
  ks.foldl (fun s k => match s.gran k with
    | some g => s.setGran k (some { g with pinned := b })
    | none => s) s

/-- The places to which granules of a range move (R506, R508): LEAF advice keeps them in its leaf, under a hint binding when that has room for `n`. -/
def State.moveScope (s : State) (r : RangeEnt) (hbm : Bool) (n : Nat) : List (Nat × Nat) :=
  let sc := s.scope r.part hbm r.leafAff
  if (s.placeEnt r.part).leafAff = 1 ∧ roomIn sc < n then s.scope r.part hbm none else sc

/-- Granules placed outside the leaf of a hint (R505). -/
def RangeEnt.outside (r : RangeEnt) (hbm : Bool) (ps : List Nat) : Nat :=
  match r.leafAff with
  | some l => (ps.filter (fun p => !(p / (if hbm then 16 else 4) == l))).length
  | none => 0

/-- The granules that PIN moves, the dies they go to, and how many would be served neither by scratch nor by a cache with ways. -/
def State.pinUnserved (s : State) (r : RangeEnt) : List Nat × List Nat × Nat :=
  let hs := s.rangeIn r true
  let n := min hs.length (s.allowance r.part false)
  let dies := cyclePlaces n (s.moveScope r false n) (kvGet (fun _ => 0) s.mem.lastStack (cycleKey r.part false))
  let left := hs.drop dies.length
  (hs.take dies.length, dies, (left.filter (fun k => match s.gran k with
    | some g => s.cacheWays g.loc.die == 0
    | none => false)).length)

/-- Move scratch granules of a range back to stacks. -/
def State.unpinMoves (s : State) (r : RangeEnt) : List Nat → List Nat → State
  | k :: ks, p :: ps =>
    match s.gran k with
    | none => s.unpinMoves r ks ps
    | some g =>
      match g.resv with
      | some (st, i) =>
        let s := s.moveWhole g.part g.loc (.hbm st i)
        ((s.initGran g.loc).setGran k (some { loc := .hbm st i, part := g.part, home := g.home })).unpinMoves r ks (p :: ps)
      | none =>
        let l := s.newLoc true p
        let s := (s.initGran l).moveWhole g.part g.loc l
        let s := (s.initGran g.loc).setGran k (some { loc := l, part := g.part, home := g.home })
        let s := { s with mem := { s.mem with lastStack := kvSet (fun _ => 0) s.mem.lastStack (cycleKey g.part true) (p + 1) } }
        s.unpinMoves r ks ps
  | _, _ => s

/-- The stack granules from which a granule's lines may be cached. -/
def Granule.slots (g : Granule) : List Nat :=
  ((g.loc :: (match g.copyTo with
    | some l => [l]
    | none => [])).filter Loc.isHbm).map (fun l => l.lineKey 0)

/-- Lines of a range that are cached: their keys. -/
def State.cachedLines (s : State) (r : RangeEnt) : List Nat :=
  let locs := (rangeKeys r).flatMap (fun k => match s.gran k with
    | some g => g.slots
    | none => [])
  (s.mem.vault.filter (fun p => locs.contains (p.1 / 512 * 512))).map (fun p => p.1)

/-! ### Generations (R829) -/

/-- Drop a partition's cached lines (R512) and zero its scratch granules. -/
def State.dropPart (s : State) (part : Nat) : State :=
  let gs := s.mem.backing.filterMap (fun p => match p.2 with
    | some g => if g.part = part then some g else none
    | none => none)
  let keys := (s.mem.vault.filter (fun p => gs.any (fun g => g.slots.contains (p.1 / 512 * 512)))).map (fun p => p.1)
  let s := keys.foldl (fun s k => (s.retireLine k false).deadDrop k) s
  gs.foldl (fun s g => if g.loc.isHbm then s else s.initGran g.loc) s

end Sys2Proof.Machine
end

