-- ==== Sys2Proof/Machine/XltOps.lean ====
section
/-! DEFINITION. What the translation block shares with its requesters: range caches, pending misses, the fault buffer, and
range invalidation (R607 to R631). -/

namespace Sys2Proof.Machine

/-! ### Range caches (R607) -/

def State.rcache (s : State) (q : Requester) : List RcEnt :=
  match s.xlt.caches.find? (fun p => p.1 == { q with asid := 0 }) with
  | some p => p.2
  | none => []

def State.setRcache (s : State) (q : Requester) (es : List RcEnt) : State :=
  let k : Requester := { q with asid := 0 }
  let rest := s.xlt.caches.filter (fun p => !(p.1 == k))
  { s with xlt := { s.xlt with caches := if es.isEmpty then rest else rest ++ [(k, es)] } }

/-- Entries of a range cache (Table 12.4). -/
def rcSize (kind : Nat) : Nat :=
  match kind with
  | 1 => 64
  | 3 => 128
  | _ => 32

def RcEnt.holds (e : RcEnt) (r : RangeEnt) : Bool := e.unit == r.unit && e.ctx == r.ctx && e.start == r.start

/-- Look an address up: a hit becomes the most recently used entry. -/
def State.rcLookup (s : State) (q : Requester) (unit ctx va : Nat) : State × Option RangeEnt :=
  match s.rangeAt unit ctx va with
  | none => (s, none)
  | some r =>
    let es := s.rcache q
    match es.find? (fun e => e.holds r && e.asid == q.asid) with
    | some e => (s.setRcache q (e :: es.erase e), some r)
    | none => (s, none)

/-- A refill; the least recently used entry gives way. -/
def State.rcFill (s : State) (q : Requester) (r : RangeEnt) : State :=
  let e : RcEnt := { unit := r.unit, ctx := r.ctx, start := r.start, asid := q.asid }
  s.setRcache q ((e :: (s.rcache q).erase e).take (rcSize q.kind))

/-- Remove a range from every range cache (step 4 of R622). -/
def State.rcDropRange (s : State) (unit ctx start : Nat) : State :=
  { s with xlt := { s.xlt with caches := (s.xlt.caches.map (fun p =>
      (p.1, p.2.filter (fun e => !(e.unit == unit && e.ctx == ctx && e.start == start))))).filter (fun p => !p.2.isEmpty) } }

/-! ### Misses (R608, R609) -/

/-- Give free walkers to the oldest waiting misses of the 256 that a leaf accepts, the rest wait at their source; a miss whose granule is being walked
joins that walk instead. -/
def State.assignWalkers (s : State) (leaf : Nat) : Nat → State
  | 0 => s
  | n + 1 =>
    let mine := (s.xlt.misses.filter (fun m => m.leaf == leaf)).take 256
    let busy := mine.filterMap (fun m => m.walker)
    let joins := fun (m : Miss) => mine.any (fun w => w.walker.isSome && w.unit == m.unit && w.ctx == m.ctx && w.va / 65536 == m.va / 65536)
    match (List.range 16).find? (fun w => !busy.contains w), mine.find? (fun m => m.walker.isNone && !joins m) with
    | some w, some m =>
      let s := s.bumpN (RF.XLT_L_QWAIT_CYCLES leaf) (s.now - m.since)
      let s := { s with xlt := { s.xlt with misses := s.xlt.misses.map (fun x =>
        if x = m then { x with walker := some w, since := s.now } else x) } }
      s.assignWalkers leaf n
    | _, _ => s

/-- A lookup that misses waits for a walk of its leaf. -/
def State.addMiss (s : State) (leaf : Nat) (q : Requester) (unit ctx va : Nat) : State :=
  let m : Miss := { leaf := leaf, req := q, unit := unit, ctx := ctx, va := va, since := s.now }
  if s.xlt.misses.any (fun x => x.req == q && x.unit == unit && x.ctx == ctx && x.va == va) then s
  else (State.assignWalkers { s with xlt := { s.xlt with misses := s.xlt.misses ++ [m] } } leaf 1)

/-- A walk for a read that has no range cache (R605): its cycles are 24 for each of up to 5 levels, of which the spec does not say how many it reads. -/
def State.walkOnce (s : State) (leaf : Nat) : State :=
  let (i, s) := s.nextFree
  (s.bump (RF.XLT_L_WALKS_COUNT leaf)).bumpN (RF.XLT_L_WALKCYC_CYCLES leaf) (24 * (1 + Config.freeNat i % 5))

/-- The bounds of the range or gap that holds an address, in granules. -/
def State.spanAt (s : State) (unit ctx va : Nat) : Nat × Nat :=
  match s.rangeAt unit ctx va with
  | some r => (r.start, r.start + r.length)
  | none =>
    let g := va / 65536
    let rs := s.xlt.ranges.filter (fun r => r.unit == unit && r.ctx == ctx && !r.reserved)
    (rs.foldl (fun m r => if r.start + r.length ≤ g then max m (r.start + r.length) else m) 0,
     rs.foldl (fun m r => if g < r.start then min m r.start else m) (2 ^ 41))

/-! ### The fault buffer (R612 to R615) -/

/-- The DETAIL of a translation record (Table 12.6). -/
def xltDetail (ctx access kind srcId resumable token : Nat) : List Byte :=
  detailOf [(52, 2, ctx % 256), (54, 1, access), (55, 1, kind), (56, 2, srcId), (58, 1, resumable), (60, 2, token)]

/-- Write a held record. -/
def State.flushHeld (s : State) (h : HeldRec) : State :=
  let s := { s with xlt := { s.xlt with held := s.xlt.held.erase h } }
  (s.emitStamped h.rec_).bump RF.XLT_FAULTS_COUNT

/-- A fault reaches the buffer: it joins a matching record, or a new record is held. -/
def State.holdRec (s : State) (r : Rec) (ctx va : Nat) : State :=
  let (lo, hi) := s.spanAt r.unit ctx va
  match s.xlt.held.find? (fun h => h.rec_.unit == r.unit && h.ctx == ctx && h.rec_.code == r.code && h.lo == lo && h.hi == hi) with
  | some h =>
    let h' := { h with rec_ := { h.rec_ with count := min (h.rec_.count + 1) (2 ^ 32 - 1) } }
    (State.bump { s with xlt := { s.xlt with held := s.xlt.held.map (fun x => if x = h then h' else x) } } RF.XLT_COALESCED_COUNT)
  | none =>
    let s := if 32 ≤ s.xlt.held.length then (match s.xlt.held.head? with
      | some h => s.flushHeld h
      | none => s) else s
    { s with xlt := { s.xlt with held := s.xlt.held ++ [{ rec_ := s.stamp r, ctx := ctx, lo := lo, hi := hi, since := s.now }] } }

/-- Write every held record, oldest first (at an end-of-frame cycle). -/
def State.flushAllHeld (s : State) : State := s.xlt.held.foldl State.flushHeld s

/-! ### Invalidation (R620 to R631) -/

def State.findRange (s : State) (unit ctx start : Nat) : Option RangeEnt :=
  s.xlt.ranges.find? (fun r => r.unit == unit && r.ctx == ctx && r.start == start)

def State.setRange (s : State) (r : RangeEnt) : State :=
  { s with xlt := { s.xlt with ranges := s.xlt.ranges.map (fun x =>
      if x.unit == r.unit && x.ctx == r.ctx && x.start == r.start then r else x) } }

/-- XLT_STORE_FREE, and the status bits of XLT_STAT. -/
def State.syncXlt (s : State) : State :=
  let s := s.setFld RF.XLT_STORE_FREE_ENTRIES (524288 - s.xlt.ranges.length)
  let s := s.setFlag RF.XLT_STAT_INVAL_BUSY (s.xlt.invals.any (fun i => i.begun.isSome))
  let s := s.setFlag RF.XLT_STAT_MOVING (!s.xlt.moves.isEmpty)
  s.setFlag RF.XLT_STAT_HOLDING (s.host.copies.any (fun c => c.token.isSome))

/-- The key of a sector of a context in a core's L1. -/
def l1Key (core unit ctx va : Nat) : Nat := ((unit * 256 + ctx) * 2 ^ 52 + va / 32) * 512 + core

/-- What caches hold of a freed range goes with its granules: T-core L1 sectors, V-core L2 lines, directory entries. -/
def State.dropCached (s : State) (r : RangeEnt) : State :=
  let inR := fun (unit ctx g : Nat) => unit == r.unit && ctx == r.ctx && decide (r.start ≤ g) && decide (g < r.start + r.length)
  let lineIn := fun (id : Nat) => inR (id / 512 / 2 ^ 41 / 256) (id / 512 / 2 ^ 41 % 256) (id / 512 % 2 ^ 41)
  let s := (s.coh.l2.filter (fun p => lineIn (p.1 / 128))).foldl (fun s p => s.dropL2 (p.1 % 128) (p.1 / 128)) s
  let s := (s.coh.dir.filter (fun p => lineIn p.1)).foldl (fun s p => s.setDir p.1 {}) s
  { s with tc := { s.tc with l1 := s.tc.l1.filter (fun p =>
      !inR (p.1 / 512 / 2 ^ 52 / 256) (p.1 / 512 / 2 ^ 52 % 256) (p.1 / 512 % 2 ^ 52 / 2048)) } }

def State.dropRange (s : State) (r : RangeEnt) : State :=
  let s := s.dropCached r
  { s with xlt := { s.xlt with ranges := s.xlt.ranges.filter (fun x =>
      !(x.unit == r.unit && x.ctx == r.ctx && x.start == r.start)) } }

def RangeEnt.inside (r : RangeEnt) (va : Nat) : Bool :=
  decide (r.start ≤ va / 65536) && decide (va / 65536 < r.start + r.length)

/-- Has an access of a core been translated under a range and not ended: its data returned, its store acknowledged (Table 12.8)? -/
def Acc.uses (a : Acc) (r : RangeEnt) : Bool :=
  a.unit == r.unit && a.ctx == r.ctx && a.lanes.any (fun l => r.inside l.va && !a.need.contains (l.va / 4096))

/-- A copy's number as a requester: its leaf and its engine. -/
def State.copyId (s : State) (j : CopyJob) : Nat := 16 * s.boot.leafSel + j.engine

/-- Does the block that a copy has in progress use a range (Table 12.8)? -/
def State.copyUses (s : State) (j : CopyJob) (r : RangeEnt) : Bool :=
  match s.cmd j.cmd with
  | some c => !(j.left == 0) && c.leaf == r.unit && c.ctx == r.ctx && decide (r.start * 65536 < j.run.1 + j.run.2)
      && decide (j.run.1 < (r.start + r.length) * 65536)
  | none => false

/-- The caches that cannot acknowledge yet: cores with accesses in flight under the old entry, and copy engines with a block in progress. -/
def State.ackers (s : State) (r : RangeEnt) : List Requester :=
  let cores : List Requester := s.accs.filterMap (fun p => match p.2 with
    | some a => if a.uses r then some { kind := if a.tcore then 1 else 3, id := a.core } else none
    | none => none)
  let copies : List Requester := s.host.copies.filterMap (fun j => if s.copyUses j r then some { kind := 4, id := s.copyId j } else none)
  (cores ++ copies).eraseDups

/-- Step 5 of R622. -/
def State.finishInval (s : State) (v : Inval) : State :=
  match s.findRange v.unit v.ctx v.start with
  | none => s
  | some r =>
    let began := v.begun.getD s.now
    let s := { s with xlt := { s.xlt with invals := s.xlt.invals.drop 1 } }
    let s := s.bump RF.XLT_INVALS_COUNT
    let s := s.setFld RF.XLT_INVAL_MAX_CYCLES (max (s.fld RF.XLT_INVAL_MAX_CYCLES) (min (s.now - began) (2 ^ 32 - 1)))
    let done := fun (s : State) => match v.cmd with
      | some id => s.complete id 0 0
      | none => s
    match v.change with
    | .unmap => done ((s.dropRange r).freeRange r)
    | .cls c => done (s.setRange { r with cls := c, state := 0 })
    | .nohost b => done (s.setRange { r with nohost := b, state := 0 })
    | .move dir nohost =>
      { s with xlt := { s.xlt with moves := s.xlt.moves ++
        [{ unit := v.unit, ctx := v.ctx, start := v.start, dir := dir, nohost := nohost, cmd := v.cmd, block := 0 }] } }

/-- A prefetch whose direction LOC already holds only rewrites NOHOST (R628). -/
def Change.onRange (c : Change) (r : RangeEnt) : Change :=
  match c with
  | .move dir nh => if (dir = 0 ∧ r.loc = 1) ∨ (dir = 1 ∧ r.loc = 0) then .nohost nh else c
  | _ => c

def Inval.staged (v : Inval) : Bool :=
  match v.change with
  | .move _ _ => true
  | _ => false

/-- Carry out the invalidations in order, while the first can go on (R621, R622, R631). -/
def State.pumpInvals (s : State) : Nat → State
  | 0 => s.syncXlt
  | n + 1 =>
    match s.xlt.invals with
    | [] => s.syncXlt
    | v :: rest =>
      match v.begun with
      | some _ => if v.acks.isEmpty then (s.finishInval v).pumpInvals n else s.syncXlt
      | none =>
        match s.findRange v.unit v.ctx v.start with
        | none =>
          let s := { s with xlt := { s.xlt with invals := rest } }
          let s := match v.cmd with
            | some id => s.failCmd id 0x0C0B 0 (detailOf [(52, 8, v.start * 65536)])
            | none => s
          s.pumpInvals n
        | some r =>
          if r.state = 2 ∨ r.reserved then s.syncXlt
          else if v.staged && !(r.kind == 3) then
            let s := { s with xlt := { s.xlt with invals := rest } }
            let s := match v.cmd with
              | some id => s.failCmd id 0x0C0C 0 (detailOf [(52, 1, r.kind)])
              | none => s
            s.pumpInvals n
          else
            let ch := v.change.onRange r
            let st := match ch with
              | .move _ _ => 2
              | _ => 1
            let s := (s.setRange { r with state := st }).rcDropRange v.unit v.ctx v.start
            let v' := { v with begun := some s.now, change := ch, acks := s.ackers r }
            (State.pumpInvals { s with xlt := { s.xlt with invals := v' :: rest } } n)

/-- Request a change that invalidates. -/
def State.requestInval (s : State) (v : Inval) : State :=
  let s := { s with xlt := { s.xlt with invals := s.xlt.invals ++ [v] } }
  s.pumpInvals (2 * s.xlt.invals.length + 2)

end Sys2Proof.Machine
end

