-- ==== Sys2Proof/Machine/CmdOps.lean ====
section
/-! DEFINITION. Reading a host command's body and starting it (R684, R688, R694). -/

namespace Sys2Proof.Machine

/-- A little-endian field of a command, by its byte offset in the first slot (Table 14.5). -/
def HostCmd.at (c : HostCmd) (off n : Nat) : Nat := le c.body (off - 16) n

/-- A command that has been fetched with an operation code; none starts while its queue's completion ring is full (R686). -/
def State.cmdOf (s : State) (id opc : Nat) : Option HostCmd :=
  match s.cmd id with
  | some c => if c.opc = opc ∧ !(c.inflight && !c.orphan && s.cqFull c.queue) then some c else none
  | none => none

/-- A command starts: it has passed its checks and counts as carried out. -/
def State.begin (s : State) (id : Nat) : State :=
  match s.cmd id with
  | none => s
  | some c =>
    if c.inflight then
      ((s.setCmd id (some { c with inflight := false, since := s.now })).bump RF.HIF_CMDS_COUNT).bump
        (RF.HIF_Q_CMDS_COUNT c.queue)
    else s

/-- A command has written host memory (R703, R704). -/
def State.wroteHost (s : State) (id : Nat) : State := s.setCmd id ((s.cmd id).map (fun c => { c with wroteHost := true }))

/-- The DETAIL of 0x0E01. -/
def HostCmd.badDetail (c : HostCmd) : List Byte := detailOf [(52, 1, c.opc), (53, 1, c.slots)]

/-- A command fails its own checks as invalid. -/
def State.badCmd (s : State) (id : Nat) (c : HostCmd) : State := s.failCmd id 0x0E01 0 c.badDetail

end Sys2Proof.Machine
end

