-- ==== Sys2Proof/Machine/Advice.lean ====
section
/-! DEFINITION. Advice and maps (R504 to R522, R604, R903), unmaps and prefetches (R620 to R631). -/

namespace Sys2Proof.Machine

/-! ### What an advice does -/

/-- The binding of an advice code in a partition's placement entry (Tables 3.6 and 10.3); CLEAR, DEAD, DROP and CLASS have none. -/
def PlaceEnt.binding (p : PlaceEnt) (code : Nat) : Option Nat :=
  match code with
  | 1 => some p.hot
  | 2 => some p.cold
  | 3 => some p.stream
  | 4 => some p.pin
  | 5 => some p.pin
  | 6 => some p.leafAff
  | _ => none

/-- How an advice ends: applied, or failed with a code and its DETAIL. -/
inductive AdvRes where
  | done
  | fail (code : Nat) (detail : List Byte)
  deriving DecidableEq, Repr

def advUnmet (code n : Nat) : AdvRes := .fail 0x0A08 (detailOf [(52, 1, code), (56, 4, n)])
def noCapacity (asked room : Nat) : AdvRes := .fail 0x0A09 (detailOf [(52, 4, asked), (56, 4, room)])

/-- PIN (R506): granules move into free scratch, the rest are pinned in the cache line by line. -/
def State.pinRange (s : State) (r : RangeEnt) (binding : Nat) : State × AdvRes :=
  let (ks, dies, unserved) := s.pinUnserved r
  if binding = 2 ∧ 0 < unserved then (s, advUnmet 4 unserved)
  else
    let s := s.pinMoves ks dies
    let s := s.markPins true (s.rangeIn r false)
    (((s.setRange { r with pinned := true }).bumpN RF.MEM_ADV_PARTIAL_COUNT (unserved + r.outside false dies)).syncFree, .done)

/-- A released pin leaves no demoted request behind (R507, R508). -/
def State.clearDemoted (s : State) (r : RangeEnt) : State :=
  (rangeKeys r).foldl (fun s k => match s.gran k with
    | some g => if g.demoted then s.setGran k (some { g with demoted := false }) else s
    | none => s) s

/-- UNPIN (R508): scratch granules go back to stacks, and the cache pins are released. -/
def State.unpinRange (s : State) (r : RangeEnt) : State × AdvRes :=
  let ks := s.rangeIn r false
  let need := (ks.filter (fun k => match s.gran k with
    | some g => g.resv.isNone
    | none => false)).length
  let sc := s.moveScope r true need
  let room := min (roomIn sc) (s.allowance r.part true)
  if room < need then (s, noCapacity need room)
  else
    let places := cyclePlaces need sc (kvGet (fun _ => 0) s.mem.lastStack (cycleKey r.part true))
    let s := (s.unpinMoves r ks (places ++ [0])).bumpN RF.MEM_ADV_PARTIAL_COUNT (r.outside true places)
    let s := (s.cachedLines r).foldl (fun s k => s.setVline k { s.vline k with pinned := false }) s
    let s := s.clearDemoted r
    ((s.setRange { r with pinned := false }).syncFree, .done)

/-- DEAD (R510): every cached line of the range is marked. -/
def State.markDead (s : State) (r : RangeEnt) : State :=
  ((s.cachedLines r).foldl (fun s k => s.setVline k { s.vline k with dead := true, seen := 0 }) s).setRange { r with dead := true }

/-- DROP (R512, R517): every cached line of the range is invalidated without write-back, its reductions retired first. -/
def State.dropLines (s : State) (r : RangeEnt) : State :=
  (s.cachedLines r).foldl (fun s k => (s.retireLine k false).deadDrop k) s

/-- Apply an advice code to a range of device memory (R504, R505). -/
def State.applyAdvice (s : State) (r : RangeEnt) (code arg : Nat) : State × AdvRes :=
  match (s.placeEnt r.part).binding code with
  | some 0 => (s, .done)
  | some 3 => (s, .fail 0x0A07 (detailOf [(52, 1, code)]))
  | b =>
    match code with
    | 0 => (s.setRange { r with hot := false, cold := false, stream := false, dead := false, leafAff := none }, .done)
    | 1 => (s.setRange { r with hot := true }, .done)
    | 2 => (s.setRange { r with cold := true }, .done)
    | 3 => (s.setRange { r with stream := true }, .done)
    | 4 => s.pinRange r (b.getD 1)
    | 5 => s.unpinRange r
    | 6 => (s.setRange { r with leafAff := some arg }, .done)
    | 7 => (s.markDead r, .done)
    | 8 => (s.dropLines r, .done)
    | _ => (s, .done)

/-! ### The ADVICE command -/

/-- The range that a command names by its START address. -/
def State.namedRange (s : State) (c : HostCmd) : Option RangeEnt :=
  let a := c.at 16 8 % 2 ^ 57
  if a % 65536 = 0 then s.findRange c.leaf c.ctx (a / 65536) else none

/-- The command names no range (R621). -/
def State.noSuchRange (s : State) (id : Nat) (c : HostCmd) : State :=
  s.failCmd id 0x0C0B 0 (detailOf [(52, 8, c.at 16 8 % 2 ^ 57)])

/-- The DETAIL of 0x1118 (Table 17.6). -/
def sealedDetail (c : HostCmd) (r : RangeEnt) : List Byte := detailOf [(52, 1, c.opc), (53, 1, r.part)]

/-- An advice of one code is applied to its range; it waits while the range's MAP has not completed (R903). -/
def State.advise (s : State) (id code : Nat) : State :=
  match s.cmdOf id 0x09 with
  | none => s
  | some c =>
    if c.at 24 1 % 16 = code then
      match s.namedRange c with
      | none => s.noSuchRange id c
      | some r =>
        if r.reserved then s.begin id
        else if r.kind = 1 ∨ r.kind = 2 then (s.begin id).complete id 0 0
        else if (code = 7 ∨ code = 8) ∧ s.sealedPart r.part then s.failCmd id 0x1118 0 (sealedDetail c r)
        else
          let (t, res) := s.applyAdvice r code (c.at 25 1 % 4)
          match res with
          | .done => (t.begin id).complete id 0 0
          | .fail k d => s.failCmd id k 0 d
    else s

/-- ADVICE_CLEAR. -/
def execAdviceClear (cmd : Nat) (s : State) : Host.Outcome State Fault Refusal := .next (s.advise cmd 0)
/-- ADVICE_HOT. -/
def execAdviceHot (cmd : Nat) (s : State) : Host.Outcome State Fault Refusal := .next (s.advise cmd 1)
/-- ADVICE_COLD. -/
def execAdviceCold (cmd : Nat) (s : State) : Host.Outcome State Fault Refusal := .next (s.advise cmd 2)
/-- ADVICE_STREAM. -/
def execAdviceStream (cmd : Nat) (s : State) : Host.Outcome State Fault Refusal := .next (s.advise cmd 3)
/-- ADVICE_PIN. -/
def execAdvicePin (cmd : Nat) (s : State) : Host.Outcome State Fault Refusal := .next (s.advise cmd 4)
/-- ADVICE_UNPIN. -/
def execAdviceUnpin (cmd : Nat) (s : State) : Host.Outcome State Fault Refusal := .next (s.advise cmd 5)
/-- ADVICE_LEAF: an argument of 2 or 3 names no leaf. -/
def execAdviceLeaf (cmd : Nat) (s : State) : Host.Outcome State Fault Refusal :=
  match s.cmdOf cmd 0x09 with
  | some c => if c.at 24 1 % 16 = 6 ∧ 2 ≤ c.at 25 1 % 4 then .next (s.badCmd cmd c) else .next (s.advise cmd 6)
  | none => .next s
/-- ADVICE_DEAD. -/
def execAdviceDead (cmd : Nat) (s : State) : Host.Outcome State Fault Refusal := .next (s.advise cmd 7)
/-- ADVICE_DROP. -/
def execAdviceDrop (cmd : Nat) (s : State) : Host.Outcome State Fault Refusal := .next (s.advise cmd 8)

/-- A change that invalidates is requested by a command, once (R620, R621). -/
def State.requestFor (s : State) (id : Nat) (c : HostCmd) (ch : Change) : State :=
  let a := c.at 16 8 % 2 ^ 57
  if a % 65536 = 0 then
    if c.inflight then
      (s.begin id).requestInval { unit := c.leaf, ctx := c.ctx, start := a / 65536, change := ch, cmd := some id }
    else s
  else s.noSuchRange id c

/-- ADVICE_CLASS: the range's traffic class is rewritten through an invalidation (Table 12.7). -/
def execAdviceClass (cmd : Nat) (s : State) : Host.Outcome State Fault Refusal :=
  match s.cmdOf cmd 0x09 with
  | some c => if c.at 24 1 % 16 = 9 then .next (s.requestFor cmd c (.cls (c.at 25 1 % 4))) else .next s
  | none => .next s

/-- UNMAP: the range is removed through an invalidation, then its backing is freed (R620, R622). -/
def execUnmap (cmd : Nat) (s : State) : Host.Outcome State Fault Refusal :=
  match s.cmdOf cmd 0x08 with
  | some c => .next (s.requestFor cmd c .unmap)
  | none => .next s

/-- PREFETCH: a staged range moves, or its NOHOST is rewritten (R628, R629); not that of a sealed partition (R813). -/
def execPrefetch (cmd : Nat) (s : State) : Host.Outcome State Fault Refusal :=
  match s.cmdOf cmd 0x0A with
  | some c => match (s.namedRange c).filter (fun r => r.kind == 3 && s.sealedPart r.part && c.inflight) with
    | some r => .next (s.failCmd cmd 0x1118 0 (sealedDetail c r))
    | none => .next (s.requestFor cmd c (.move (c.at 24 1 % 2) (natBit (c.at 24 1) 1)))
  | none => .next s

/-! ### MAP -/

/-- The entry that a MAP describes (Table 12.2), reserved until the map completes. -/
def HostCmd.mapEnt (c : HostCmd) : RangeEnt :=
  let attr := c.at 16 4
  let t := c.at 40 8
  let kind := natBits attr 0 2
  { start := c.at 24 8 % 2 ^ 41, length := c.at 32 8 % 2 ^ 41, kind := kind
    r := natBit attr 2, w := natBit attr 3, x := natBit attr 4, u := natBit attr 5
    part := natBits attr 8 6, cls := natBits attr 14 2, loc := 0, nohost := natBit attr 17, state := 0
    unit := c.leaf, ctx := c.ctx
    haddr := if kind = 1 ∨ kind = 3 then natBits t 0 52 else 0
    peer := if kind = 2 then natBits t 0 16 else 0
    window := if kind = 2 then natBits t 16 12 else 0
    off := if kind = 2 then natBits t 28 36 else 0
    reserved := true }

/-- The reserved bits of ATTR and TARGET (Tables 12.2 and 14.5), LOC and STATE among them. -/
def HostCmd.mapReserved (c : HostCmd) : Bool :=
  let attr := c.at 16 4
  let t := c.at 40 8
  let kind := natBits attr 0 2
  !(natBits attr 6 2 == 0) || natBit attr 16 || !(natBits attr 18 14 == 0)
    || (kind == 0 && !(t == 0)) || ((kind == 1 || kind == 3) && !(natBits t 52 12 == 0))

/-- The first failure of R604 for the range itself: DETAIL byte 52 of 0x0C0A. -/
def State.mapInvalid (s : State) (c : HostCmd) : Option Nat :=
  let r := c.mapEnt
  let pm := match s.unitEnt c.leaf with
    | some u => u.partMask
    | none => 0
  if r.start = 0 then some 0
  else if r.length = 0 ∨ 2 ^ 41 < r.start + r.length then some 1
  else if (r.kind = 0 ∨ r.kind = 3) ∧ !natBit pm r.part then some 2
  else if r.kind = 2 ∧ 2 ^ 36 < r.off + r.length then some 3
  else if c.mapReserved then some 4 else none

/-- Does a map take scratch granules only (R521)? -/
def State.mapScratch (s : State) (r : RangeEnt) (adv : Nat) : Bool := adv == 4 && (s.placeEnt r.part).pin == 2

/-- MAP: checked and reserved, its granules allocated (R519 to R522, R604, R903). -/
def execMap (cmd : Nat) (s : State) : Host.Outcome State Fault Refusal :=
  match s.cmdOf cmd 0x07 with
  | none => .next s
  | some c =>
    let r := c.mapEnt
    let adv := c.at 48 1 % 16
    let arg := c.at 49 1 % 2
    if !c.inflight then .next s
    else if 9 < adv then .next (s.badCmd cmd c)
    else match s.mapInvalid c with
    | some k => .next (s.failCmd cmd 0x0C0A 0 (detailOf [(52, 1, k)]))
    | none =>
      match s.xlt.ranges.find? (fun x => x.unit == r.unit && x.ctx == r.ctx && decide (x.start < r.start + r.length)
          && decide (r.start < x.start + x.length)) with
      | some x => .next (s.failCmd cmd 0x0C08 0 (detailOf [(52, 8, x.start)]))
      | none =>
        if 524288 ≤ s.xlt.ranges.length then .next (s.failCmd cmd 0x0C09 0 [])
        else
          let reserve := fun (s : State) =>
            ({ s with
              xlt := { s.xlt with ranges := s.xlt.ranges ++ [r] }
              mem := { s.mem with maps := s.mem.maps ++
                [{ unit := r.unit, ctx := r.ctx, start := r.start, adv := adv, arg := arg, cmd := cmd }] } } : State).syncXlt
          if r.kind = 1 ∨ r.kind = 2 then .next (reserve (s.begin cmd))
          else
            let pl := s.placeEnt r.part
            if adv ≠ 0 ∧ pl.binding adv = some 3 then .next (s.failCmd cmd 0x0A07 0 (detailOf [(52, 1, adv)]))
            else
              let hbm := !s.mapScratch r adv
              let lead := if adv = 6 then some (arg, pl.leafAff) else none
              match s.chooseFor r.part r.length hbm lead with
              | .short room => .next (s.failCmd cmd 0x0A09 0 (detailOf [(52, 4, r.length), (56, 4, room)]))
              | .places ps outside =>
                let s := reserve (s.begin cmd)
                let s := s.bumpN RF.MEM_ADV_PARTIAL_COUNT outside
                .next ((s.backGranules r.unit r.ctx r.part hbm (!hbm) r.start ps).syncFree)

/-- MAP_COMPLETE: the range becomes visible, the advice given with the map is applied, and the completion falls due. -/
def execMapComplete (cmd : Nat) (s : State) : Host.Outcome State Fault Refusal :=
  match s.mem.maps.find? (fun m => m.cmd == cmd) with
  | none => .next s
  | some m =>
    let s := { s with mem := { s.mem with maps := s.mem.maps.filter (fun x => !(x.cmd == cmd)) } }
    match s.findRange m.unit m.ctx m.start with
    | none => .next s
    | some r =>
      let r := { r with reserved := false }
      let s := s.setRange r
      let s := if m.adv = 0 ∨ r.kind = 1 ∨ r.kind = 2 then s
        else if m.adv = 9 then s.setRange { r with cls := m.arg }
        else if m.adv = 4 ∧ s.mapScratch r 4 then s.setRange { r with pinned := true }
        else (s.applyAdvice r m.adv m.arg).1
      let s := s.complete cmd 0 0
      .next (s.pumpInvals (2 * s.xlt.invals.length + 2))

end Sys2Proof.Machine
end

