-- ==== Sys2Proof/Machine/EngDesc.lean ====
section
/-! DEFINITION. Engine descriptors (Tables 6.3 and 7.1): their fields, the local spans they read and write, and their checks
(Tables 6.4 and 7.7). -/

namespace Sys2Proof.Machine

/-! ### Local memory -/

def localBytes (m : KV Byte) (a n : Nat) : List Byte := (List.range n).map (fun i => kvGet (fun _ => (0 : Byte)) m (a + i))

def localNat (m : KV Byte) (a n : Nat) : Nat := leNat (localBytes m a n)

def localPut (m : KV Byte) (a : Nat) : List Byte → KV Byte
  | [] => m
  | b :: r => localPut (kvSet (fun _ => (0 : Byte)) m a b) (a + 1) r

/-- Element e, of w bits, of a packed row that starts at a local address (R217). -/
def localElem (m : KV Byte) (a w e : Nat) : Nat := natBits (localNat m (a + w * e / 8) 9) (w * e % 8) w

/-- Bytes of a row of n packed elements: FP6 in triples, T2 in blocks. -/
def rowBytes (code n : Nat) : Nat :=
  if code = 11 then 8 * ceilDiv n 32
  else if codeBits code = 6 then 3 * ceilDiv n 4
  else ceilDiv (n * codeBits code) 8

/-- A span of local memory. -/
structure Span where
  at_ : Nat
  len : Nat
  deriving DecidableEq, Repr

def Span.meets (x y : Span) : Bool := decide (0 < x.len) && decide (0 < y.len) && decide (x.at_ < y.at_ + y.len) && decide (y.at_ < x.at_ + x.len)
def Span.within (x : Span) (limit : Nat) : Bool := decide (x.at_ + x.len ≤ limit)
def anyMeet (xs ys : List Span) : Bool := xs.any (fun x => ys.any x.meets)

/-- Rows of `len` bytes at a stride. -/
def rowSpan (a rows stride len : Nat) : Span := ⟨a, if rows = 0 then 0 else (rows - 1) * stride + len⟩

/-! ### Fields -/

/-- Bits [hi:lo] of the word at a byte offset of a descriptor. -/
def Desc.f (d : Desc) (off hi lo : Nat) : Nat := natBits (leNat ((d.bytes.drop off).take 4)) lo (hi - lo + 1)
def Desc.b (d : Desc) (off bit : Nat) : Bool := d.f off bit bit == 1

/-- The width class of a format (Table 6.2): 0 4-bit, 1 8-bit, 2 16-bit, 3 32-bit, 4 64-bit. -/
def classOf (code : Nat) : Nat :=
  match code with
  | 0 => 4
  | 1 => 3
  | 2 => 2
  | 3 => 2
  | 8 => 0
  | 10 => 0
  | 11 => 0
  | _ => 1

/-! ### Matrix descriptors -/

/-- A matrix operand: format, block kind, transposed, rows in the descriptor's M or N, addresses and strides. -/
structure MOpnd where
  fmt : Nat
  sk : Nat
  trans : Bool
  n : Nat
  k : Nat
  addr : Nat
  stride : Nat
  saddr : Nat
  sstride : Nat
  deriving DecidableEq, Repr

def Desc.opA (d : Desc) : MOpnd :=
  { fmt := d.f 0 11 8, sk := d.f 0 17 16, trans := d.b 0 20, n := d.f 4 6 0, k := 8 * d.f 4 26 16, addr := d.f 12 18 0,
    stride := d.f 16 18 0, saddr := d.f 28 18 0, sstride := d.f 32 18 0 }

def Desc.opB (d : Desc) : MOpnd :=
  { fmt := d.f 0 15 12, sk := d.f 0 19 18, trans := d.b 0 21, n := d.f 4 14 8, k := 8 * d.f 4 26 16, addr := d.f 20 18 0,
    stride := d.f 24 18 0, saddr := d.f 36 18 0, sstride := d.f 40 18 0 }

def Desc.grp (d : Desc) : Nat := d.f 0 1 0
def Desc.init (d : Desc) : Bool := d.b 0 2
def Desc.cls (d : Desc) : Nat := max (classOf d.opA.fmt) (classOf d.opB.fmt)
def Desc.outExp (d : Desc) : Int := toSigned 8 (d.f 8 7 0)

/-- Integer cells (R277). -/
def Desc.intCells (d : Desc) : Bool :=
  let int := fun (o : MOpnd) => o.sk == 0 && (o.fmt == 9 || o.fmt == 10)
  int d.opA && int d.opB

/-- Chunk length (Table 6.5). -/
def chunkLen (cls : Nat) : Nat :=
  match cls with
  | 0 => 32
  | 1 => 32
  | 2 => 16
  | _ => 8

/-- Cycles per chunk in fast mode, per K-step in strict mode. -/
def chunkCycles (cls : Nat) (strict : Bool) : Nat :=
  if strict then (match cls with
    | 0 => 16
    | 1 => 32
    | 2 => 64
    | 3 => 128
    | _ => 768)
  else match cls with
    | 0 => 32
    | 4 => 384
    | _ => 64

/-- The effective mode of a descriptor (R250, R255): `sbit` its STRICT, `rnd` its RND, for a block of mode `bs`, `br`. -/
def effMode (sbit : Bool) (rnd : Nat) (bs : Bool) (br : Nat) : Bool × Nat := (sbit || bs, if sbit then rnd else br)

/-- Replay applies (R295). -/
def Desc.replayable (d : Desc) (strict : Bool) : Bool :=
  !strict && !d.intCells && (!(d.opA.sk == 0) || !(d.opB.sk == 0))

def MOpnd.rowLen (o : MOpnd) : Nat := if o.trans then rowBytes o.fmt o.n else rowBytes o.fmt o.k
def MOpnd.scaled (o : MOpnd) : Bool := o.sk == 1 || o.sk == 2

/-- The spans an operand reads (R278). -/
def MOpnd.spans (o : MOpnd) : List Span :=
  rowSpan o.addr (if o.trans then o.k else o.n) o.stride o.rowLen
    :: (if o.scaled then [rowSpan o.saddr o.n o.sstride (ceilDiv o.k (blockLen o.sk))] else [])

def Desc.mSpans (d : Desc) : List Span := d.opA.spans ++ d.opB.spans

/-- The pairings of R242. -/
def pairOk (a b : Nat) : Bool :=
  if a = 0 ∨ b = 0 then a == 0 && b == 0
  else
    let int := fun (x : Nat) => x == 9 || x == 10
    if int a || int b then (int a || a == 11) && (int b || b == 11) else true

def MOpnd.misplaced (o : MOpnd) (limit : Nat) : Bool :=
  !(o.addr % 16 == 0) || !(o.stride % 16 == 0) || decide (o.stride < o.rowLen)
    || (o.scaled && (!(o.saddr % 4 == 0) || !(o.sstride % 4 == 0) || decide (o.sstride < ceilDiv o.k (blockLen o.sk))))
    || o.spans.any (fun x => !x.within limit)

/-- The reserved bits of a matrix descriptor. -/
def Desc.mReserved (d : Desc) : Bool :=
  !(d.f 0 31 31 == 0) || !(d.f 4 7 7 == 0) || !(d.f 4 15 15 == 0) || !(d.f 4 31 27 == 0) || !(d.f 8 31 23 == 0)
    || (List.range 8).any (fun i => !(d.f (12 + 4 * i) 31 19 == 0)) || (d.bytes.drop 44).any (fun b => !(b == 0))

/-- What Table 6.4 checks against: the local memory's bytes, the unit's tumblers, the effective mode, and the group as its earlier
operations leave it. -/
structure DescEnv where
  limit : Nat
  tmbBase : Nat
  tmbCount : Nat
  strict : Bool
  rnd : Nat
  group : AccGroup
  deriving DecidableEq, Repr

def DescEnv.tmbOut (v : DescEnv) (t : Nat) : Bool := decide (t < v.tmbBase) || decide (v.tmbBase + v.tmbCount ≤ t)

/-- The first subcode of Table 6.4 that a descriptor meets. -/
def Desc.mInvalid (d : Desc) (v : DescEnv) : Option Nat :=
  let a := d.opA
  let b := d.opB
  let wide := d.b 0 3
  let step := d.f 0 26 22
  let narrow := fun (o : MOpnd) => o.trans && (!(o.sk == 0) || decide (classOf o.fmt ≤ 1))
  let checks : List (Nat × Bool) := [
    (1, d.mReserved || decide (12 ≤ a.fmt) || decide (12 ≤ b.fmt)),
    (2, !pairOk a.fmt b.fmt),
    (3, !(wide == decide (3 ≤ d.cls))),
    (4, a.n == 0 || decide (64 < a.n) || b.n == 0 || decide ((if wide then 32 else 64) < b.n) || a.k == 0 || decide (8192 < a.k)
        || !(a.k % chunkLen d.cls == 0)),
    (5, !blockOk a.fmt a.sk || !blockOk b.fmt b.sk),
    (6, narrow a || narrow b),
    (7, a.misplaced v.limit || b.misplaced v.limit),
    (8, !d.init && (!v.group.isOpen || !(v.group.cls == d.cls) || !(v.group.wide == wide) || !(v.group.strict == v.strict)
        || !(v.group.intCell == d.intCells))),
    (9, !d.init && d.replayable v.strict),
    (10, d.replayable v.strict && (step == 0 || decide (16 < step))),
    (11, d.b 0 7 && v.tmbOut (d.f 8 22 8)),
    (12, d.intCells && !(d.outExp == 0))]
  (checks.find? (fun c => c.2)).map (fun c => c.1)

/-- The group as a descriptor opens it (R263). -/
def Desc.opens (d : Desc) (strict : Bool) (rnd : Nat) : AccGroup :=
  { isOpen := true, sigma := d.outExp, cls := d.cls, rnd := if strict then rnd else 0, intCell := d.intCells, strict := strict, wide := d.b 0 3 }

/-! ### Vector descriptors -/

def Desc.form (d : Desc) : Nat := d.f 0 1 0
def Desc.src (d : Desc) : Nat := d.f 0 9 8
def Desc.sgrp (d : Desc) : Nat := d.f 0 11 10
def Desc.rel (d : Desc) : Bool := d.b 0 6
def Desc.carry (d : Desc) : Bool := d.b 0 7
def Desc.oen (d : Desc) : Bool := d.form == 0 && d.b 0 28
def Desc.ofmt (d : Desc) : Nat := d.f 0 21 18
def Desc.osk (d : Desc) : Nat := d.f 0 23 22
def Desc.sfmt (d : Desc) : Nat := d.f 0 15 12
def Desc.ssk (d : Desc) : Nat := d.f 0 17 16
def Desc.rows (d : Desc) : Nat := d.f 4 6 0
def Desc.cols (d : Desc) : Nat := d.f 4 14 8
def Desc.stageCount (d : Desc) : Nat := d.f 4 19 16
def Desc.rred (d : Desc) : Bool := d.form == 0 && d.b 4 20
def Desc.cred (d : Desc) : Bool := d.form == 0 && d.b 4 21

/-- Does a vector descriptor name group SGRP: read it, release it, or set its flags (R353)? -/
def Desc.namesGrp (d : Desc) (strict : Bool) : Bool := d.form == 1 || d.src == 0 || d.rel || strict

/-- Does it read the group's cells? -/
def Desc.readsGrp (d : Desc) : Bool := d.form == 1 || d.src == 0

/-- The stage words of a PASS (Table 7.2). -/
def Desc.stages (d : Desc) (m : KV Byte) : List Nat :=
  if d.form = 0 then (List.range (min d.stageCount 8)).map (fun i => localNat m (d.f 52 18 0 + 8 * i) 8) else []

def stOp (w : Nat) : Nat := natBits w 0 4
def stSrc (w : Nat) : Nat := natBits w 4 2
def stAddr (w : Nat) : Nat := natBits w 8 19
def stImm (w : Nat) : Nat := natBits w 32 32

/-- Bytes of a full-width partial (Table 6.9). -/
def partialLen : Nat := 32832

/-- A span read: the vector of a stage. -/
def Desc.stageSpan (d : Desc) (w : Nat) : List Span :=
  if stSrc w = 2 then [⟨stAddr w, 4 * d.rows⟩] else if stSrc w = 3 then [⟨stAddr w, 4 * d.cols⟩] else []

/-- The row bytes of a source or output tile, and of its scales. -/
def Desc.srcLen (d : Desc) : Nat := rowBytes d.sfmt d.cols
/-- A block-scaled row of output is written in whole blocks (R230, R340). -/
def Desc.outLen (d : Desc) : Nat :=
  rowBytes d.ofmt (if d.osk = 1 ∨ d.osk = 2 then blockLen d.osk * ceilDiv d.cols (blockLen d.osk) else d.cols)
def scaleLen (sk n : Nat) : Nat := if sk = 1 ∨ sk = 2 then ceilDiv n (blockLen sk) else 0

/-- The spans a vector descriptor reads, the vectors of its stages, RADDR and CADDR apart. -/
def Desc.vTiles (d : Desc) : List Span :=
  (if d.form = 0 ∧ d.src = 1 then
    [rowSpan (d.f 12 18 0) d.rows (d.f 16 18 0) d.srcLen, rowSpan (d.f 20 18 0) d.rows (d.f 24 18 0) (scaleLen d.ssk d.cols)] else [])
  ++ (if d.src = 2 ∧ d.form ≠ 1 then [⟨d.f 12 18 0, partialLen⟩] else [])
  ++ (if d.form = 0 ∧ d.stageCount ≠ 0 then [⟨d.f 52 18 0, 8 * d.stageCount⟩] else [])
  ++ (if d.form = 2 then [⟨d.f 52 18 0, partialLen⟩] else [])

/-- The spans it reads, RADDR and CADDR apart. -/
def Desc.vReads (d : Desc) (m : KV Byte) : List Span := d.vTiles ++ (d.stages m).flatMap d.stageSpan

/-- The row results and the column results, when they are written. -/
def Desc.rSpan (d : Desc) : List Span := if d.rred then [⟨d.f 44 18 0, 4 * d.rows⟩] else []
def Desc.cSpan (d : Desc) : List Span := if d.cred then [⟨d.f 48 18 0, 4 * d.cols⟩] else []

/-- The vectors it reads and writes at one place (RACC, CACC). -/
def Desc.vBoth (d : Desc) : List Span := (if d.b 4 26 then d.rSpan else []) ++ (if d.b 4 27 then d.cSpan else [])

/-- The tile or partial it writes. -/
def Desc.vOuts (d : Desc) : List Span :=
  (if d.oen then [rowSpan (d.f 28 18 0) d.rows (d.f 32 18 0) d.outLen, rowSpan (d.f 36 18 0) d.rows (d.f 40 18 0) (scaleLen d.osk d.cols)] else [])
  ++ (if d.form = 0 then [] else [⟨d.f 28 18 0, partialLen⟩])

/-- The spans it writes. -/
def Desc.vWrites (d : Desc) : List Span := d.vOuts ++ d.rSpan ++ d.cSpan

/-- Does a span written overlap a span read (subcode 8)? A vector of RACC or CACC is read where it is written, so the other spans written are held
against it. -/
def Desc.vOverlap (d : Desc) (m : KV Byte) : Bool :=
  anyMeet d.vWrites (d.vReads m) || (d.b 4 26 && anyMeet (d.vOuts ++ d.cSpan) d.rSpan) || (d.b 4 27 && anyMeet (d.vOuts ++ d.rSpan) d.cSpan)

def Desc.vSpans (d : Desc) (m : KV Byte) : List Span := d.vReads m ++ d.vBoth ++ d.vWrites

/-- The reserved bits of a vector descriptor. -/
def Desc.vReserved (d : Desc) : Bool :=
  !(d.f 0 31 29 == 0) || !(d.f 4 7 7 == 0) || !(d.f 4 15 15 == 0) || !(d.f 4 31 28 == 0) || !(d.f 8 31 15 == 0)
    || (List.range 11).any (fun i => !(d.f (12 + 4 * i) 31 19 == 0))

/-- The second operands an operation takes (Table 7.3). -/
def bsrcOk (op b : Nat) : Bool :=
  if op ≤ 5 then !(b == 0) else if op = 8 then b == 1 else b == 0

/-- May a stage stand under CARRY = 1 (R332)? -/
def carryOk (w : Nat) : Bool :=
  let op := stOp w
  op == 3 || op == 6 || op == 7 || op == 8 || ((op == 4 || op == 5) && stSrc w == 1 && stImm w % 2 ^ 31 == 0)

/-- An address, stride or span out of place (subcode 7), the stage words apart. -/
def Desc.vMisplaced (d : Desc) (limit : Nat) : Bool :=
  let off := fun (o n : Nat) => !(d.f o 18 0 % n == 0)
  let tile := d.form == 0 && d.src == 1
  (tile && (off 12 16 || off 16 16 || decide (d.f 16 18 0 < d.srcLen)))
  || (tile && decide (0 < scaleLen d.ssk d.cols) && (off 20 4 || off 24 4 || decide (d.f 24 18 0 < scaleLen d.ssk d.cols)))
  || (d.src == 2 && !(d.form == 1) && off 12 64)
  || (d.oen && (off 28 16 || off 32 16 || decide (d.f 32 18 0 < d.outLen)))
  || (d.oen && decide (0 < scaleLen d.osk d.cols) && (off 36 4 || off 40 4 || decide (d.f 40 18 0 < scaleLen d.osk d.cols)))
  || (!(d.form == 0) && off 28 64) || (d.rred && off 44 16) || (d.cred && off 48 16)
  || (d.form == 0 && !(d.stageCount == 0) && off 52 8) || (d.form == 2 && off 52 64)
  || (d.vTiles ++ d.vWrites).any (fun x => !x.within limit)

/-- The first subcode of Table 7.7 that a vector descriptor meets, with the index of the stage word that failed (0xFF: none). -/
def Desc.vInvalid (d : Desc) (m : KV Byte) (v : DescEnv) : Option (Nat × Nat) :=
  let ws := d.stages m
  let bad := fun (p : Nat → Bool) => match ws.findIdx? p with
    | some i => some i
    | none => none
  let whole := fun (c : Nat) (p : Bool) => if p then some (c, 0xFF) else none
  let stage := fun (c : Nat) (p : Nat → Bool) => (bad p).map (fun i => (c, i))
  let pass := d.form == 0
  let funs := (ws.filter (fun w => decide (9 ≤ stOp w))).length
  let wideHeader := natBit (localNat m (d.f 12 18 0) 1) 0
  let fails : List (Option (Nat × Nat)) := [
    whole 1 (d.vReserved || d.form == 3 || d.src == 3 || decide (12 ≤ d.sfmt) || decide (12 ≤ d.ofmt)),
    stage 1 (fun w => !(natBits w 6 2 == 0) || !(natBits w 27 5 == 0) || stOp w == 15),
    whole 2 ((d.readsGrp && !v.group.isOpen) || (pass && ((d.src == 0 && v.group.wide) || (d.src == 2 && wideHeader)))
        || (d.form == 1 && !(d.src == 0)) || (d.form == 2 && d.src == 1) || (v.strict && !v.group.isOpen)),
    whole 3 (d.rows == 0 || decide (64 < d.rows) || d.cols == 0 || decide (64 < d.cols) || decide (8 < d.stageCount) || decide (2 < funs)),
    stage 4 (fun w => !bsrcOk (stOp w) (stSrc w)),
    whole 5 ((d.oen && (d.ofmt == 0 || !blockOk d.ofmt d.osk)) || (pass && d.src == 1 && (d.sfmt == 0 || !blockOk d.sfmt d.ssk))),
    (if pass && d.carry then
      (match whole 6 (d.rred || d.cred || !d.oen || !(d.osk == 1 || d.osk == 3)) with
        | some x => some x
        | none => stage 6 (fun w => !carryOk w))
     else none),
    whole 7 (d.vMisplaced v.limit),
    stage 7 (fun w => ((stSrc w == 2 || stSrc w == 3) && !(stAddr w % 4 == 0)) || (d.stageSpan w).any (fun x => !x.within v.limit)),
    whole 8 (d.vOverlap m),
    whole 9 (d.b 0 5 && v.tmbOut (d.f 8 14 0)),
    whole 10 (!pass && (d.f 60 31 0 == 0 || decide (d.f 60 31 0 ≤ d.f 56 31 0)))]
  fails.findSome? (fun x => x)

end Sys2Proof.Machine
end

