-- ==== Sys2Proof/Machine/VFun.lean ====
section
/-! DEFINITION. The function stages of the vector engine (R333, R334). The spec bounds a result in ulps and states no value: the model
takes one of the FP32 values within the bound, chosen by `Config.vfunPick`. Exact results are computed in fixed point, in units of
2^−512. -/

namespace Sys2Proof.Machine

/-- One, in fixed point. -/
def fxOne : Nat := 2 ^ 512

def fxMul (a b : Int) : Int := a * b / 2 ^ 512

/-- x · 2^e in fixed point. -/
def fxOf (z : Int) (e : Int) : Int := if 0 ≤ e + 512 then z * 2 ^ (e + 512).toNat else z / 2 ^ (-(e + 512)).toNat

/-- The Taylor sum of e^y in Horner's form, n terms. -/
def fxTaylor (y : Int) : Nat → Nat → Int → Int
  | 0, _, acc => acc
  | n + 1, k, acc => fxTaylor y n (k - 1) (fxOne + fxMul y acc / k)

def fxSquare : Nat → Int → Int
  | 0, v => v
  | n + 1, v => fxSquare n (fxMul v v)

/-- e^x for |x| at most 256. -/
def fxExp (x : Int) : Int := fxSquare 8 (fxTaylor (x / 256) 90 90 fxOne)

/-- ln 2, from Σ 1 ÷ (k · 2^k). -/
def fxLn2 : Int := (((List.range 520).foldl (fun (a k : Nat) => a + 2 ^ 512 / ((k + 1) * 2 ^ (k + 1))) 0 : Nat) : Int)

/-- The exact result n ÷ 2^512 of a function, its sign, rounded and bounded. `ulps`: the bound in ulps. -/
def fxClose (op x ulps : Nat) (m : FMode) (neg : Bool) (v : Nat) : FRes :=
  let r := fp32.round 0 false neg v (-512)
  let top := 2 ^ 640 - 2 ^ 616
  if m.flush && decide (v < 2 ^ 386) then { bits := fp32.signed neg 0 }
  else if top < v then ({ bits := fp32.signed neg fp32.infCode, flags := flagOF + flagNX } : FRes).inMode m
  else
    let e : Nat := max v.log2 386
    let ulp := 2 ^ (e - 23)
    let c := r.bits % 2 ^ 31
    let near := ((List.range 5).map (fun i => c + i - 2)).filter (fun k =>
      match fp32.decode k with
      | .fin _ n g =>
        let w := fxOf n g
        decide ((w - v).natAbs ≤ ulps * ulp) && decide (k ≤ fp32.maxCode) && !(m.flush && fp32.isSub k)
      | _ => false)
    let k := near.getD (Config.vfunPick op x % max near.length 1) c
    ({ bits := fp32.signed neg k, flags := r.flags } : FRes).inMode m

/-- An exact result that lies below 1, however near. -/
def fxBelowOne (v : Int) : Nat := min v.toNat (fxOne - 1)

/-- 1 ÷ √(n · 2^e). -/
def fxRsqrt (n : Nat) (e : Int) : Nat :=
  let (q, h) := divSticky 1 n
  let (n', e') := ((q * 2 ^ 600 : Nat), h - 600 - e)
  let odd := e' % 2 = 1
  let n2 := if odd then 2 * n' else n'
  let e2 := if odd then e' - 1 else e'
  (fxOf (n2.sqrt : Nat) (e2 / 2)).toNat

/-- Fixed point of a finite value, its magnitude cut at 256. -/
def fxArg (s : Bool) (n : Nat) (e : Int) : Int :=
  let big := decide (9 ≤ (n.log2 : Int) + e)
  let z := if big then 256 * (fxOne : Int) else min (fxOf n e) (256 * (fxOne : Int))
  if s then -z else z

/-- OP 9 to 14 of Table 7.3. -/
def vfun (m : FMode) (op x : Nat) : FRes :=
  let a := fp32.operand m x
  let one : FVal := .fin false 1 0
  match fp32.firstNan m [a] with
  | some r => r
  | none =>
    match op, a with
    | 11, _ => fp32.divV m one a
    | 9, .inf s => { bits := if s then 0 else fp32.infCode }
    | 10, .inf s => { bits := if s then 0 else fp32.infCode }
    | 12, .inf s => if s then fp32.invalid m else { bits := 0 }
    | 13, .inf s => { bits := if s then 0 else 0x3F800000 }
    | 14, .inf s => { bits := fp32.signed s 0x3F800000 }
    | 9, .fin s n e => if n = 0 then { bits := 0x3F800000 } else fxClose 9 x 2 m false (fxExp (fxArg s n e)).toNat
    | 10, .fin s n e =>
      let (q, ix) := roundInt 0 s n e
      if !ix && decide (q ≤ 127) && (!s || decide (q ≤ 126)) then fp32.deliver m false 1 (signedOf s q)
      else fxClose 10 x 1 m false (fxExp (fxMul (fxArg s n e) fxLn2)).toNat
    | 12, .fin s n e =>
      if n = 0 then FRes.inMode m { bits := fp32.signed s fp32.infCode, flags := flagDZ }
      else if s then fp32.invalid m
      else fxClose 12 x 1 m false (fxRsqrt n e)
    | 13, .fin s n e =>
      let t := fxExp (fxArg (!s) n e)
      fxClose 13 x 2 m false (fxBelowOne ((fxOne : Int) * fxOne / (fxOne + t)))
    | 14, .fin s n e =>
      if n = 0 then { bits := fp32.signed s 0 }
      else
        let t := fxExp (-2 * fxArg false n e)
        fxClose 14 x 2 m s (fxBelowOne (((fxOne : Int) - t) * fxOne / (fxOne + t)))
    | _, _ => fp32.invalid m

end Sys2Proof.Machine
end

