-- ==== Sys2Proof/Machine/MxeNum.lean ====
section
/-! DEFINITION. The arithmetic of the engines: the chunk sums of the matrix engine (R284 to R294), the passes of the vector engine
(R327 to R343), and the full-width partials (R302 to R307, R344 to R347). -/

namespace Sys2Proof.Machine

/-! ### Matrix engine -/

/-- An operand's element (r, k), decoded (R226, R269 to R271); an FP32 operand is flushed in fast mode (Table 5.9). -/
def MOpnd.val (o : MOpnd) (m : KV Byte) (strict : Bool) (r k : Nat) : FVal :=
  let (row, i) := if o.trans then (k, r) else (r, k)
  let base := o.addr + row * o.stride
  if o.fmt = 11 then
    let blk := localBytes m (base + 8 * (i / 32)) 8
    decodeScaled 11 3 (t2Digit blk (i % 32)) (blk.getD 7 0).toNat
  else
    let x := localElem m base (codeBits o.fmt) i
    if o.fmt = 1 then fp32.operand { flush := !strict } x
    else decodeScaled o.fmt o.sk x (if o.scaled then localNat m (o.saddr + r * o.sstride + k / blockLen o.sk) 1 else 0)

/-- An exact sum of products: its specials, and the finite part z × 2^e. -/
structure PSum where
  nan : Bool := false
  pinf : Bool := false
  ninf : Bool := false
  z : Int := 0
  e : Int := 0
  deriving DecidableEq, Repr

/-- The pieces of an FP64 significand (R291). -/
def piece1 (n : Nat) : Nat := n % 2 ^ 29 - n % 2 ^ 5
def piece2 (n : Nat) : Nat := n % 2 ^ 5

/-- Add a product; `six`: only the six cross-products of R292 are formed. -/
def PSum.addProd (p : PSum) (six : Bool) (a b : FVal) : PSum :=
  match a, b with
  | .fin s n e, .fin t k g =>
    let x := if six then n * k - (piece1 n * piece2 k + piece2 n * piece1 k + piece2 n * piece2 k) else n * k
    let (z, h) := dyAdd p.z p.e (signedOf (xor s t) x) (e + g)
    { p with z := z, e := h }
  | x, y =>
    if x.isNan || y.isNan || x.isZero || y.isZero then { p with nan := true }
    else if xor x.neg y.neg then { p with ninf := true } else { p with pinf := true }

def PSum.finite (p : PSum) : Bool := !p.nan && !p.pinf && !p.ninf

/-- The sum as a value. -/
def PSum.value (p : PSum) : FVal :=
  if p.nan || (p.pinf && p.ninf) then canonNan
  else if p.pinf then .inf false
  else if p.ninf then .inf true
  else .fin (decide (p.z < 0)) p.z.natAbs p.e

def FVal.isFin : FVal → Bool
  | .fin _ _ _ => true
  | _ => false

/-- The signed dyadic number of a finite value. -/
def FVal.dy : FVal → Int × Int
  | .fin s n e => (signedOf s n, e)
  | _ => (0, 0)

/-- One fast-mode update of a cell (R285, R286): the new sum and compensation, and whether it overflowed (R296). -/
def fastCell (f : FFmt) (flush : Bool) (sum comp : Nat) (x : FVal) : Nat × Nat × Bool :=
  let m : FMode := { flush := flush }
  let h := match x with
    | .fin s n e => (f.deliver m s n e).bits
    | v => (f.convert m false v).bits
  let hv := f.decode h
  let sv := f.decode sum
  let t := (f.addV m sv hv).bits
  let tv := f.decode t
  if x.isFin && sv.isFin && tv.isFin && hv.isFin then
    let (sz, se) := sv.dy
    let (hz, he) := hv.dy
    let (xz, xe) := x.dy
    let (tz, te) := tv.dy
    let (lz, le_) := dyAdd xz xe (-hz) he
    let l := (f.deliverSum m false lz le_).bits
    let (az, ae) := dyAdd sz se hz he
    let (ez, ee) := dyAdd az ae (-tz) te
    let (lz2, le2) := (f.decode l).dy
    let (bz, be) := dyAdd ez ee lz2 le2
    let el := (f.deliverSum m false bz be).bits
    let c := (f.addV m (f.decode comp) (f.decode el)).bits
    (t, c, !(f.decode c).isFin)
  else if tv.isFin then (t, comp, false)
  else (t, 0, x.isFin && (sv.isFin || !hv.isFin))

/-- The two words of a float cell, and of a wide accumulator (R261, R289). -/
def AccGroup.cell (g : AccGroup) (i : Nat) : Nat := (kvGet (fun _ => (0 : BitVec 64)) g.cells i).toNat

def AccGroup.setCell (g : AccGroup) (i v : Nat) : AccGroup :=
  { g with cells := kvSet (fun _ => (0 : BitVec 64)) g.cells i (BitVec.ofNat 64 v) }

/-- The pair (sum, comp) of element (r, c). -/
def AccGroup.pair (g : AccGroup) (r c : Nat) : Nat × Nat :=
  if g.wide then (g.cell (64 * r + 2 * c), g.cell (64 * r + 2 * c + 1))
  else (g.cell (64 * r + c) % 2 ^ 32, g.cell (64 * r + c) / 2 ^ 32)

def AccGroup.setPair (g : AccGroup) (r c sum comp : Nat) : AccGroup :=
  if g.wide then (g.setCell (64 * r + 2 * c) sum).setCell (64 * r + 2 * c + 1) comp
  else g.setCell (64 * r + c) (sum % 2 ^ 32 + comp % 2 ^ 32 * 2 ^ 32)

def AccGroup.fmt (g : AccGroup) : FFmt := if g.wide then fp64 else fp32

/-- Add an integer to an integer cell, saturating (R287). -/
def AccGroup.addInt (g : AccGroup) (r c : Nat) (z : Int) : AccGroup :=
  let x := toSigned 32 (g.pair r c).1 + z
  let y := clampI x (- 2 ^ 31) (2 ^ 31 - 1)
  let g := g.setPair r c (ofSigned 32 y) 0
  if x = y then g else { g with isat := true }

/-- Commit K-steps k0 to k0 + n − 1 of a descriptor to a group in fast mode, or the chunk's sum to integer cells: the group, and the
cells that overflowed, lowest first. -/
def Desc.commitSum (d : Desc) (m : KV Byte) (strict : Bool) (g : AccGroup) (k0 n : Nat) : AccGroup × List (Nat × Nat) :=
  let ks := (List.range n).map (fun i => k0 + i)
  let as := (List.range d.opA.n).map (fun r => ks.map (d.opA.val m strict r))
  let bs := (List.range d.opB.n).map (fun c => ks.map (d.opB.val m strict c))
  let six := d.cls == 4
  (as.zipIdx).foldl (fun acc ar => (bs.zipIdx).foldl (fun (acc : AccGroup × List (Nat × Nat)) bc =>
    let p : PSum := (List.zip ar.1 bc.1).foldl (fun (p : PSum) x => p.addProd six x.1 x.2) {}
    let g := acc.1
    if g.intCell then (g.addInt ar.2 bc.2 (if 0 ≤ p.e then p.z * 2 ^ p.e.toNat else p.z / 2 ^ (-p.e).toNat), acc.2)
    else
      let (s, c) := g.pair ar.2 bc.2
      let (s', c', o) := fastCell g.fmt (!g.wide) s c (p.value.times 1 (- g.sigma))
      (g.setPair ar.2 bc.2 s' c', if o then acc.2 ++ [(ar.2, bc.2)] else acc.2)) acc) (g, [])

/-- Commit one K-step in strict mode (R252, R294): an FMA in every cell, in the direction of the descriptor (R255), its flags set in the group. -/
def Desc.commitFma (d : Desc) (m : KV Byte) (rnd : Nat) (g : AccGroup) (k : Nat) : AccGroup :=
  let as := (List.range d.opA.n).map (fun r => d.opA.val m true r k)
  let bs := (List.range d.opB.n).map (fun c => d.opB.val m true c k)
  (as.zipIdx).foldl (fun g ar => (bs.zipIdx).foldl (fun (g : AccGroup) bc =>
    let (s, _) := g.pair ar.2 bc.2
    let r := g.fmt.fmaV { rnd := rnd, strict := true } (ar.1.times 1 (- g.sigma)) bc.1 (g.fmt.decode s)
    { g.setPair ar.2 bc.2 r.bits 0 with flags := Nat.lor g.flags r.flags }) g) g

/-- The units of progress of a descriptor: chunks in fast mode, K-steps in strict mode. -/
def Desc.units (d : Desc) (strict : Bool) : Nat := if strict then d.opA.k else d.opA.k / chunkLen d.cls

/-- Commit the next unit, in an effective mode and direction. -/
def Desc.commit (d : Desc) (m : KV Byte) (strict : Bool) (rnd : Nat) (g : AccGroup) : AccGroup × List (Nat × Nat) :=
  let kc := chunkLen d.cls
  if strict then
    if g.intCell then (if d.next % kc = kc - 1 then d.commitSum m strict g (d.next - (kc - 1)) kc else (g, []))
    else (d.commitFma m rnd g d.next, [])
  else d.commitSum m strict g (d.next * kc) kc

/-! ### Vector engine: sources and stages -/

/-- A value with the flags raised so far. -/
abbrev VF := Nat × Nat

def FRes.onto (r : FRes) (fl : Nat) : VF := (r.bits, Nat.lor fl r.flags)

/-- The mode of vector arithmetic (R330, R352). -/
def vmode (strict : Bool) (rnd : Nat) : FMode := { rnd := if strict then rnd else 0, strict := strict, flush := !strict }

/-- The group that a partial in local memory holds (Table 6.9), with its ROWS and COLS. -/
def readPartial (m : KV Byte) (a : Nat) : AccGroup × Nat × Nat :=
  let b := localNat m a 1
  ({ isOpen := true, sigma := toSigned 8 (localNat m (a + 1) 1), intCell := natBit b 2, strict := natBit b 1, wide := natBit b 0,
     cells := (List.range 4096).foldl (fun c i => kvSet (fun _ => (0 : BitVec 64)) c i (BitVec.ofNat 64 (localNat m (a + 64 + 8 * i) 8))) [] },
   localNat m (a + 2) 1 % 128, localNat m (a + 3) 1 % 128)

/-- The bytes of a partial. -/
def partialBytes (g : AccGroup) (rows cols index count : Nat) : List Byte :=
  leBytes 1 ((if g.wide then 1 else 0) + (if g.strict then 2 else 0) + (if g.intCell then 4 else 0))
  ++ leBytes 1 (ofSigned 8 g.sigma) ++ leBytes 1 rows ++ leBytes 1 cols ++ leBytes 4 index ++ leBytes 4 count ++ leBytes 52 0
  ++ (List.range 4096).flatMap (fun i => leBytes 8 (g.cell i))

/-- y of a group's cell (R327). -/
def AccGroup.source (g : AccGroup) (strict carry : Bool) (r c : Nat) : FRes :=
  let (s, k) := g.pair r c
  let m : FMode := { strict := strict, flush := !strict }
  if g.intCell then
    let z := toSigned 32 s
    fp32.deliver m (decide (z < 0)) z.natAbs 0
  else
    let σ := if carry then 0 else g.sigma
    fp32.addV m ((fp32.decode s).times 1 σ) ((fp32.decode k).times 1 σ)

/-- y of a local tile (R226, R327). -/
def Desc.tileSource (d : Desc) (m : KV Byte) (strict : Bool) (r c : Nat) : FRes :=
  let o : MOpnd := { fmt := d.sfmt, sk := d.ssk, trans := false, n := d.rows, k := d.cols, addr := d.f 12 18 0, stride := d.f 16 18 0,
                     saddr := d.f 20 18 0, sstride := d.f 24 18 0 }
  match o.val m true r c with
  | .fin s n e => fp32.deliver { strict := strict, flush := !strict } s n e
  | v => fp32.convert { strict := strict } false v

/-- The second operand of a stage. -/
def stOperand (m : KV Byte) (w r c : Nat) : Nat :=
  match stSrc w with
  | 1 => stImm w
  | 2 => localNat m (stAddr w + 4 * r) 4
  | 3 => localNat m (stAddr w + 4 * c) 4
  | _ => 0

/-- The negative of a value; a NaN keeps its sign. -/
def FVal.minus : FVal → FVal
  | .nan s p => .nan s p
  | .inf s => .inf (!s)
  | .fin s n e => .fin (!s) n e

/-- One stage (Table 7.3). -/
def vstage (vm : FMode) (m : KV Byte) (w r c : Nat) (x : VF) : VF :=
  let a := fp32.operand vm x.1
  let bb := stOperand m w r c
  let b := fp32.operand vm bb
  let keep := if vm.flush && fp32.isSub x.1 then fp32.signed (natBit x.1 31) 0 else x.1
  let res : FRes := match stOp w with
    | 0 => fp32.addV vm a b
    | 1 => fp32.addV vm a b.minus
    | 2 => fp32.addV vm b a.minus
    | 3 => fp32.mulV vm a b
    | 4 => fp32.minMaxB vm true x.1 bb
    | 5 => fp32.minMaxB vm false x.1 bb
    | 6 => { bits := if a.isNan then x.1 else keep % 2 ^ 31 }
    | 7 => { bits := if a.isNan then x.1 else fp32.negate keep }
    | 8 => fp32.mulV vm a (.fin false 1 (clampI (toSigned 32 (stImm w)) (-1000) 1000))
    | op => vfun vm op x.1
  res.onto x.2

/-! ### Reductions -/

/-- op of two values: 0 SUM, 1 MAX, 2 MIN, 3 AMAX combined as MAX. -/
def redOp (vm : FMode) (op : Nat) (x y : VF) : VF :=
  let fl := Nat.lor x.2 y.2
  match op with
  | 0 => (fp32.add vm x.1 y.1).onto fl
  | 2 => (fp32.minMaxB vm false x.1 y.1).onto fl
  | _ => (fp32.minMaxB vm true x.1 y.1).onto fl

def pairUp (vm : FMode) : List VF → List VF
  | x :: y :: r => redOp vm 0 x y :: pairUp vm r
  | r => r

/-- The tree shape of R303 over single values. -/
def treeSum (vm : FMode) : Nat → List VF → VF
  | 0, xs => xs.headD (0, 0)
  | n + 1, xs => if xs.length ≤ 1 then xs.headD (0, 0) else treeSum vm n (pairUp vm xs)

def seqRed (vm : FMode) (op : Nat) : List VF → VF
  | [] => (0, 0)
  | x :: r => r.foldl (redOp vm op) x

/-- |z| for AMAX. -/
def absIf (op : Nat) (x : VF) : VF := if op = 3 then (x.1 % 2 ^ 31, x.2) else x

/-- A row's result (R335); a column's (R336) takes its rows one at a time in both modes. -/
def rowRed (vm : FMode) (op : Nat) (xs : List VF) : VF :=
  if op = 0 ∧ !vm.strict then treeSum vm xs.length xs else seqRed vm op (xs.map (absIf op))

def colRed (vm : FMode) (op : Nat) (xs : List VF) : VF := seqRed vm op (xs.map (absIf op))

/-! ### Output -/

/-- Bits packed from bit 0 up, as bytes. -/
def packBits (w : Nat) (xs : List Nat) : Nat := (xs.zipIdx).foldl (fun n x => n + x.1 % 2 ^ w * 2 ^ (w * x.2)) 0

/-- An unscaled output element (R339): its bits and flags, and whether it saturated (R343). -/
def outElem (m : FMode) (sat : Bool) (code : Nat) (v : FVal) : Nat × Nat × Bool :=
  let r := toElem m sat code v
  let past : Bool := match fmtOfCode code with
    | some f =>
      match v with
      | .fin s n e => n != 0 && decide (f.maxCode < (let (a, q, _) := f.mant m.rnd s true n e; f.code a q))
      | .inf _ => true
      | _ => false
    | none =>
      match v with
      | .fin s n e =>
        let z := signedOf s (roundInt m.rnd s n e).1
        let w := codeBits code
        decide (z < - 2 ^ (w - 1)) || decide ((2 : Int) ^ (w - 1) ≤ z)
      | .inf _ => true
      | _ => false
  let held : Bool := match fmtOfCode code with
    | some f => r.bits == f.signed v.neg f.maxCode
    | none => true
  (r.bits, r.flags, past && held)

/-- The elements of a block that exceed the largest element before they are saturated (R343). -/
def blockSats (code sk rule d : Nat) (vs : List FVal) : Nat :=
  if vs.any (fun v => !v.isFin) then 0
  else
    let (_, qn, qe) := blockScale code sk rule d vs
    (vs.filter (fun v => match v with
      | .fin s n e =>
        if qn = 0 ∨ n = 0 then false
        else
          let (k, h) := if qn = 1 then (n, (0 : Int)) else divSticky n qn
          decide (elemMax code < elemRound code d s k (e - qe + h))
      | _ => false)).length

/-- Cut a row into blocks of n, the last one filled with +0 (R230). -/
def cutBlocks (n : Nat) : Nat → List FVal → List (List FVal)
  | 0, _ => []
  | f + 1, xs => if xs.isEmpty then [] else
    let b := xs.take n
    (b ++ List.replicate (n - b.length) (.fin false 0 0)) :: cutBlocks n f (xs.drop n)

/-- A row of output: its bytes, its scale bytes, its flags and its saturated elements. The elements that an incomplete block misses are written as +0
(R230, R340). -/
def Desc.outRow (d : Desc) (strict : Bool) (σ : Int) (zs : List VF) : List Byte × List Byte × Nat × Nat :=
  let vs := zs.map (fun z => (fp32.decode z.1).times 1 σ)
  let rnd := d.f 0 26 25
  if d.osk = 0 then
    let es := vs.map (outElem { rnd := rnd, strict := strict } (d.b 0 27) d.ofmt)
    (leBytes d.outLen (packBits (codeBits d.ofmt) (es.map (fun e => e.1))), [], es.foldl (fun a e => Nat.lor a e.2.1) 0,
      (es.filter (fun e => e.2.2)).length)
  else
    let rule := d.f 0 24 24
    let bs := cutBlocks (blockLen d.osk) vs.length vs
    let qs := bs.map (quantise d.ofmt d.osk rule rnd)
    let sats := bs.foldl (fun n b => n + blockSats d.ofmt d.osk rule rnd b) 0
    let fl := if strict then (bs.flatMap (quantiseFlags d.ofmt d.osk rule rnd)).foldl Nat.lor 0 else 0
    if d.osk = 3 then (qs.flatMap (fun q => t2Block q.2 q.1), [], fl, sats)
    else
      (leBytes d.outLen (packBits (codeBits d.ofmt) (qs.flatMap (fun q => q.2))), qs.map (fun q => BitVec.ofNat 8 q.1), fl, sats)

/-- What a vector descriptor leaves: local memory, flags, saturated elements, slots. -/
structure VOut where
  mem : KV Byte
  flags : Nat := 0
  sats : Nat := 0
  slots : Nat := 0
  deriving DecidableEq, Repr

/-- A PASS. -/
def Desc.pass (d : Desc) (m : KV Byte) (strict : Bool) (rnd : Nat) (g : AccGroup) : VOut :=
  let vm := vmode strict rnd
  let g := if d.src = 2 then (readPartial m (d.f 12 18 0)).1 else g
  let carry := d.carry && !(d.src == 1) && !g.intCell
  let ws := d.stages m
  let src := fun (r c : Nat) => ws.foldl (fun x w => vstage vm m w r c x)
    ((if d.src = 1 then d.tileSource m strict r c else g.source strict carry r c).onto 0)
  let tile := (List.range d.rows).map (fun r => (List.range d.cols).map (src r))
  let rop := d.f 4 23 22
  let cop := d.f 4 25 24
  let join := fun (acc : Bool) (a op : Nat) (t : VF) => if acc then redOp vm op (localNat m a 4, 0) t else t
  let rows := if d.rred then (tile.zipIdx).map (fun x => join (d.b 4 26) (d.f 44 18 0 + 4 * x.2) rop (rowRed vm rop x.1)) else []
  let cols := if d.cred then (List.range d.cols).map (fun c =>
    join (d.b 4 27) (d.f 48 18 0 + 4 * c) cop (colRed vm cop (tile.map (fun r => r.getD c (0, 0))))) else []
  let outs := if d.oen then tile.map (d.outRow strict (if carry then g.sigma else 0)) else []
  let m := (outs.zipIdx).foldl (fun m x =>
    localPut (localPut m (d.f 28 18 0 + x.2 * d.f 32 18 0) x.1.1) (d.f 36 18 0 + x.2 * d.f 40 18 0) x.1.2.1) m
  let m := localPut m (d.f 44 18 0) (rows.flatMap (fun x => leBytes 4 x.1))
  let m := localPut m (d.f 48 18 0) (cols.flatMap (fun x => leBytes 4 x.1))
  let fl := (tile.flatten ++ rows ++ cols).foldl (fun a x => Nat.lor a x.2) 0
  { mem := m, flags := outs.foldl (fun a x => Nat.lor a x.2.2.1) fl, sats := outs.foldl (fun a x => a + x.2.2.2) 0, slots := d.rows }

/-! ### Full-width forms -/

/-- Scale a word by 2^k, rounded once (R303). -/
def scaleWord (f : FFmt) (m : FMode) (x : VF) (k : Int) : VF :=
  match f.decode x.1 with
  | .fin s n e => (f.deliver m s n (e + k)).onto x.2
  | _ => x

/-- The add of R303 on one cell at σ, its inputs halved `h` times: the cell, whether t overflowed from finite inputs, and the flags raised. -/
def addCell (f : FFmt) (m : FMode) (h : Nat) (kx ky : Int) (x y : Nat × Nat) : (Nat × Nat) × Bool × Nat :=
  let scaled := fun (w : Nat) (k : Int) => if h = 0 then scaleWord f m (w, 0) k else scaleWord f m (scaleWord f m (w, 0) k) (-1)
  let xs := scaled x.1 kx
  let xc := scaled x.2 kx
  let ys := scaled y.1 ky
  let yc := scaled y.2 ky
  let t := (f.addV m (f.decode xs.1) (f.decode ys.1)).onto (Nat.lor (Nat.lor xs.2 xc.2) (Nat.lor ys.2 yc.2))
  let fin := (f.decode xs.1).isFin && (f.decode xc.1).isFin && (f.decode ys.1).isFin && (f.decode yc.1).isFin
  if (f.decode t.1).isFin && (f.decode xs.1).isFin && (f.decode ys.1).isFin then
    let c := (f.addV m (f.decode xc.1) (f.decode yc.1)).onto t.2
    let (a, e) := (f.decode xs.1).dy
    let (b, g) := (f.decode ys.1).dy
    let (p, q) := dyAdd a e b g
    let (tz, te) := (f.decode t.1).dy
    let (z, w) := dyAdd p q (-tz) te
    let r := (f.addV m (f.decode c.1) (.fin (decide (z < 0)) z.natAbs w)).onto c.2
    ((t.1, r.1), false, r.2)
  else ((t.1, 0), fin && (match f.decode t.1 with
    | .inf _ => true
    | _ => false), t.2)

/-- The elements of a group: (row, column) by its cell kind. -/
def AccGroup.elems (g : AccGroup) : List (Nat × Nat) :=
  (List.range 64).flatMap (fun r => (List.range (if g.wide then 32 else 64)).map (fun c => (r, c)))

/-- PADD: the sum of two partials, its flags, and whether the slots ran twice (R345, R347). In strict mode the add of fast partials keeps subnormals
and payloads and rounds in the mode's direction (R352). -/
def addPartials (strict : Bool) (rnd : Nat) (x y : AccGroup) : AccGroup × Nat × Bool :=
  if x.intCell then
    (x.elems.foldl (fun g p => g.addInt p.1 p.2 (toSigned 32 (y.pair p.1 p.2).1)) { x with sigma := 0 }, 0, false)
  else
    let σ := max x.sigma y.sigma
    let f := x.fmt
    if x.strict then
      let r := x.elems.foldl (fun (a : AccGroup × Nat) p =>
        let v := f.addV { rnd := rnd, strict := strict } ((f.decode (x.pair p.1 p.2).1).times 1 (x.sigma - σ))
          ((f.decode (y.pair p.1 p.2).1).times 1 (y.sigma - σ))
        (a.1.setPair p.1 p.2 v.bits 0, Nat.lor a.2 v.flags)) ({ x with sigma := σ }, 0)
      (r.1, r.2, false)
    else
      let m : FMode := if strict then { rnd := rnd, strict := true } else { flush := !x.wide }
      let run := fun (h : Nat) (s : Int) => x.elems.foldl (fun (a : AccGroup × Bool × Nat) p =>
        let (c, o, fl) := addCell f m h (x.sigma - σ) (y.sigma - σ) (x.pair p.1 p.2) (y.pair p.1 p.2)
        (a.1.setPair p.1 p.2 c.1 c.2, a.2.1 || o, Nat.lor a.2.2 fl)) ({ x with sigma := s }, false, 0)
      let r := run 0 σ
      if r.2.1 then ((run 1 (σ + 1)).1, Nat.lor r.2.2 (run 1 (σ + 1)).2.2, true) else (r.1, r.2.2, false)

/-- X and Y of a PADD with their ROWS and COLS. -/
def Desc.paddX (d : Desc) (m : KV Byte) (g : AccGroup) : AccGroup × Nat × Nat :=
  if d.src = 0 then (g, d.rows, d.cols) else readPartial m (d.f 12 18 0)
def Desc.paddY (d : Desc) (m : KV Byte) : AccGroup × Nat × Nat := readPartial m (d.f 52 18 0)

/-- Do two partials differ in a field of R307? -/
def partialsDiffer (x y : AccGroup × Nat × Nat) : Bool :=
  !(x.1.wide == y.1.wide && x.1.strict == y.1.strict && x.1.intCell == y.1.intCell && x.2 == y.2)

/-- What a vector descriptor does. -/
def Desc.vrun (d : Desc) (m : KV Byte) (strict : Bool) (rnd : Nat) (g : AccGroup) : VOut :=
  match d.form with
  | 0 => d.pass m strict rnd g
  | 1 => { mem := localPut m (d.f 28 18 0) (partialBytes g d.rows d.cols (d.f 56 31 0) (d.f 60 31 0)), slots := 65 }
  | _ =>
    let x := d.paddX m g
    let (z, fl, twice) := addPartials strict rnd x.1 (d.paddY m).1
    { mem := localPut m (d.f 28 18 0) (partialBytes z x.2.1 x.2.2 (d.f 56 31 0) (d.f 60 31 0)), flags := fl,
      slots := if twice then 130 else 65 }

end Sys2Proof.Machine
end

