-- ==== Sys2Proof/Machine/HostPort.lean ====
section
/-! DEFINITION. The host port (chapter 14): functions, queues, doorbells, command fetch, and the commands that act at once. -/

namespace Sys2Proof.Machine

/-! ### Queues (R672 to R680) -/

/-- The queue that a function names (R673, R674): the physical function by its number, a virtual one by its local number. -/
def State.fnQueue (s : State) (fn q : Nat) : Option Nat :=
  if fn = 0 then (if (s.queueUnit q).isSome then some q else none)
  else if (s.fnSt fn).enabled then
    match s.ward.image.units.find? (fun u => u.vf == fn) with
    | some u => if q < u.qcount then some (u.qbase + q) else none
    | none => none
  else none

/-- A queue stops with a code (R680, R690), with its record. -/
def State.stopQueue (s : State) (q code : Nat) (d : List Byte) : State :=
  let s := (s.setFlag (RF.HIF_Q_STAT_STOPPED q) true).setFld (RF.HIF_Q_STAT_CODE q) code
  let u := match s.queueUnit q with
    | some u => u.slot
    | none => 0
  s.emit { code := code, fault := true, unit := u, unitV := (s.queueUnit q).isSome, item := q, detail := d }

/-- The page of a queue's doorbell in the physical function's BAR0 (R14), and in a virtual function's by the local number (R674). -/
def doorbellAddr (q : Nat) : Nat := 0x4000000 + 0x1000 * q
def vfDoorbellAddr (q : Nat) : Nat := 0x1000000 + 0x1000 * q

/-- A write of SQTAIL to the doorbell page of queue `q` of function `fn`; a value not below the ring's size stops the queue (R680). -/
def State.ringSqtail (s : State) (fn q value : Nat) : State :=
  match s.fnQueue fn q with
  | none => s
  | some q =>
    let v := value % 65536
    if s.sqSize q ≤ v then s.stopQueue q 0x0E02 (detailOf [(52, 2, v)])
    else (s.setQueue q { s.queue q with tail := v }).syncQuiesced

/-- A write of CQHEAD to a doorbell page. -/
def State.ringCqhead (s : State) (fn q value : Nat) : State :=
  match s.fnQueue fn q with
  | none => s
  | some q =>
    let v := value % 65536
    if s.cqSize q ≤ v then s.stopQueue q 0x0E02 (detailOf [(52, 2, v)])
    else
      let s := s.setQueue q { s.queue q with cqHead := v }
      s.drainCpls q (s.queue q).waiting.length

/-- DOORBELL_SQTAIL: the write of SQTAIL (R680). -/
def execDoorbellSqtail (fn q value : Nat) (s : State) : Host.Outcome State Fault Refusal := .next (s.ringSqtail fn q value)

/-- DOORBELL_CQHEAD: the write of CQHEAD, which lets waiting completions out (R680, R686). -/
def execDoorbellCqhead (fn q value : Nat) (s : State) : Host.Outcome State Fault Refusal := .next (s.ringCqhead fn q value)

/-- QUEUE_ENABLE: HIF_Q_CFG written with EN from 0 to 1 (R678). -/
def execQueueEnable (fn q : Nat) (value : Word) (s : State) : Host.Outcome State Fault Refusal :=
  match s.fnQueue fn q with
  | none => .next s
  | some q =>
    let v := value.toNat
    if s.flag (RF.HIF_Q_CFG_EN q) || !natBit v 31 then .next s
    else
      let s := ((s.setFld (RF.HIF_Q_CFG_SQLOG q) (natBits v 20 4)).setFld (RF.HIF_Q_CFG_CQLOG q) (natBits v 16 4)).setFld
        (RF.HIF_Q_CFG_VECTOR q) (natBits v 0 8)
      let s := (s.setFlag (RF.HIF_Q_CFG_EN q) true).setFlag (RF.HIF_Q_STAT_STOPPED q) false
      .next ((((s.setFld (RF.HIF_Q_SQHEAD_HEAD q) 0).setFld (RF.HIF_Q_CQTAIL_TAIL q) 0).setQueue q {}).syncQuiesced)

/-- A queue is disabled: nothing more is fetched, and the completions of its commands are discarded (R679). -/
def State.disableQueue (s : State) (q : Nat) : State :=
  let s := s.setFlag (RF.HIF_Q_CFG_EN q) false
  let orphan : Nat → Option HostCmd → Option HostCmd := fun _ c => c.map (fun c => if c.queue = q then { c with orphan := true } else c)
  let s := { s with host := { s.host with cmds := kvMap (fun _ => none) orphan s.host.cmds } }
  s.setQueue q { s.queue q with waiting := [] }

/-- QUEUE_DISABLE: HIF_Q_CFG written with EN from 1 to 0; its other fields are then not writable (R677). -/
def execQueueDisable (fn q : Nat) (value : Word) (s : State) : Host.Outcome State Fault Refusal :=
  match s.fnQueue fn q with
  | none => .next s
  | some q => if s.flag (RF.HIF_Q_CFG_EN q) && !natBit value.toNat 31 then .next (s.disableQueue q) else .next s

/-! ### Command headers and checks (R687 to R694) -/

/-- The named fields of each command's first slot after the header (Table 14.5): (byte, bit, width). -/
def namedFields (opc dir : Nat) : List (Nat × Nat × Nat) :=
  let addr := fun (host : Bool) => if host then 64 else 57
  match opc with
  | 2 => [(16, 0, 57)]
  | 3 => [(16, 0, addr (dir == 0)), (24, 0, addr (dir == 1)), (32, 0, 32), (36, 0, 5), (37, 0, 8), (38, 0, 8), (39, 0, 4),
          (40, 0, addr (dir == 0)), (48, 0, addr (dir == 1)), (56, 0, 15), (58, 0, 15), (60, 0, 32)]
  | 4 => [(16, 0, 57), (24, 0, 9), (26, 0, 16)]
  | 5 => [(16, 0, 15), (18, 0, 3), (20, 0, 32)]
  | 6 => [(16, 0, 16)]
  | 7 => [(16, 0, 32), (24, 0, 41), (32, 0, 41), (40, 0, 64), (48, 0, 4), (49, 0, 1)]
  | 8 => [(16, 0, 57)]
  | 9 => [(16, 0, 57), (24, 0, 4), (25, 0, 2)]
  | 10 => [(16, 0, 57), (24, 0, 2)]
  | 11 => [(16, 0, 12), (18, 0, 16), (20, 0, 3), (24, 0, 41), (32, 0, 41)]
  | 12 => [(16, 0, 12)]
  | 13 => [(16, 0, 1), (24, 6, 58), (32, 0, 25), (36, 0, 32)]
  | _ => []

/-- Does a command use its leaf (R689)? -/
def usesLeaf (opc : Nat) : Bool := [2, 3, 4, 7, 8, 9, 10, 11, 12].contains opc

/-- Step 2 of R688: the operation is defined, the reserved bits are 0, and SLOTS fits the command. -/
def headerOk (d : List Byte) : Bool :=
  let opc := le d 0 1
  let slots := natBits (le d 1 1) 0 3
  let dir := natBits (le d 36 1) 0 2
  let left := (namedFields opc dir).foldl (fun v f => natSetBits v (8 * (f.1 - 16) + f.2.1) f.2.2 0) (le d 16 48)
  let len := natBits (le d 24 2) 0 9
  let tmoOk := le d 12 4 == 0 || opc == 3 || (opc == 5 && natBits (le d 18 1) 0 3 == 2)
  let leafOk := usesLeaf opc || (natBits (le d 2 1) 0 4 == 0 && le d 3 1 == 0)
  decide (1 ≤ opc) && decide (opc ≤ 13) && natBits (le d 1 1) 4 4 == 0 && natBits (le d 2 1) 4 4 == 0 && tmoOk && leafOk
    && (opc != 12 || le d 3 1 == 0) && left == 0
    && (if opc = 4 then decide (1 ≤ len) && decide (len ≤ 256) && slots == ceilDiv len 64 else slots == 0)

/-- The leaf of a command, or none when its ROUTE entry is not valid (R689, R111). -/
def routedLeaf (u : UnitEnt) (route : Nat) : Option Nat :=
  if u.group then
    match u.routes[route]? with
    | some r => if natBit r 15 then some (r % 1024) else none
    | none => none
  else some u.slot

/-- Does a command let no later command of its queue start until it has completed (Table 14.4)? -/
def HostCmd.holds (c : HostCmd) : Bool := c.opc == 6 || c.opc == 13 || (c.opc == 5 && natBits (c.at 18 1) 0 3 == 2)

/-- The commands of a queue that have not ended. -/
def State.queueCmds (s : State) (q : Nat) : List (Nat × HostCmd) :=
  s.host.cmds.filterMap (fun p => match p.2 with
    | some c => if c.queue = q then some (p.1, c) else none
    | none => none)

/-- Can a queue's next command be fetched (R682, R684, R686)? -/
def State.fetchable (s : State) (q : Nat) : Bool :=
  s.flag (RF.HIF_Q_CFG_EN q) && !s.flag (RF.HIF_Q_STAT_STOPPED q) && !(s.fnSt 0).d3 && !(s.fnSt (s.queueFn q)).d3
    && !(s.fld (RF.HIF_Q_SQHEAD_HEAD q) == (s.queue q).tail) && !s.cqFull q
    && (s.queueCmds q).all (fun c => !c.2.inflight && !c.2.holds)

/-- The queues that exist. -/
def State.queuesList (s : State) : List Nat :=
  s.ward.image.units.flatMap (fun u => (List.range u.qcount).map (fun i => u.qbase + i))

/-- Round robin by queue number (R683): no fetchable queue lies between the one served last and this one. -/
def State.nextTurn (s : State) (q : Nat) : Bool :=
  let pos := fun (x : Nat) => (x + 4096 - s.host.turn % 4096 - 1) % 4096
  s.queuesList.all (fun x => !(s.fetchable x && decide (pos x < pos q)))

/-- The submission head passes a command's slots. -/
def State.passSlots (s : State) (q n : Nat) : State :=
  s.setFld (RF.HIF_Q_SQHEAD_HEAD q) ((s.fld (RF.HIF_Q_SQHEAD_HEAD q) + n) % s.sqSize q)

/-- A duplicate is acknowledged: after the command of its SEQ when that one still runs, else at once (R690, R691). -/
def State.duplicate (s : State) (q seq tag : Nat) (irq : Bool) : State :=
  let s := (s.bump (RF.HIF_Q_DUP_COUNT q)).bump RF.HIF_DUPS_COUNT
  match (s.queueCmds q).find? (fun c => c.2.seq == seq && !c.2.orphan) with
  | some (id, c) => s.setCmd id (some { c with dups := c.dups ++ [(tag, irq)] })
  | none => s.dueCpl q { seq := seq, tag := tag, status := 1, result := 0, irq := irq }

/-- COMMAND_FETCH: steps 1 to 3 of R688 on the slots that the host returned; the command then awaits its own step. -/
def execCommandFetch (q : Nat) (data : List Byte) (s : State) : Host.Outcome State Fault Refusal :=
  match s.queueUnit q with
  | none => .next s
  | some u =>
    let n := 1 + natBits (le data 1 1) 0 3
    let avail := ((s.queue q).tail + s.sqSize q - s.fld (RF.HIF_Q_SQHEAD_HEAD q)) % s.sqSize q
    if s.fetchable q && s.nextTurn q && decide (n ≤ avail) && data.length == 64 * n then
      let s := (s.bump64 RF.HIF_H2D_BYTES_COUNT_LO RF.HIF_H2D_BYTES_COUNT_HI data.length)
      let s := { s with host := { s.host with turn := q } }
      let seq := le data 4 4
      let tag := le data 8 4
      let irq := natBit (le data 1 1) 3
      let next := s.fld (RF.HIF_Q_NEXTSEQ_NEXT q)
      let d := (seq + 2 ^ 32 - next) % 2 ^ 32
      if d = 0 then
        let s := (s.passSlots q n).setFld (RF.HIF_Q_NEXTSEQ_NEXT q) ((next + 1) % 2 ^ 32)
        let id := s.host.nextCmd
        let opc := le data 0 1
        let leaf := if usesLeaf opc then routedLeaf u (natBits (le data 2 1) 0 4) else some u.slot
        let c : HostCmd := { queue := q, opc := opc, slots := n - 1, irq := irq, route := natBits (le data 2 1) 0 4, ctx := le data 3 1,
                             seq := seq, tag := tag, tmo := le data 12 4, leaf := leaf.getD u.slot, body := data.drop 16, since := s.now }
        let s := ({ s with host := { s.host with nextCmd := id + 1 } } : State).setCmd id (some c)
        let s := s.syncActive q
        let s := if headerOk data then
            (if leaf.isSome then s else s.failCmd id 0x030C 0 [])
          else s.badCmd id c
        .next s.syncQuiesced
      else if d < 2 ^ 31 then
        let s := s.stopQueue q 0x0E03 (detailOf [(52, 4, next), (56, 4, seq)])
        .next (s.dueCpl q { seq := seq, tag := tag, status := 0x0E03, result := 0, irq := irq })
      else .next (((s.passSlots q n).duplicate q seq tag irq).syncQuiesced)
    else .next s

/-- NOP: completes at its start. -/
def execNopCommand (cmd : Nat) (s : State) : Host.Outcome State Fault Refusal :=
  match s.cmdOf cmd 1 with
  | some _ => .next ((s.begin cmd).complete cmd 0 0)
  | none => .next s

/-! ### Tumbler commands (R696, Table 13.2) -/

/-- Does a tumbler lie in the range of a queue's unit (R112)? -/
def State.queueTmb (s : State) (q n : Nat) : Bool :=
  match s.queueUnit q with
  | some u => decide (u.tmbBase ≤ n) && decide (n < u.tmbBase + u.tmbCount)
  | none => false

/-- The DETAIL of 0x0D04: tumbler, row of Table 13.2, KIND. -/
def State.refusedDetail (s : State) (n row : Nat) : List Byte :=
  detailOf [(52, 2, n), (54, 1, row), (55, 1, (s.tmbAt n).kind)]

/-- A TUMBLER command of one operation: `run` acts at the home. -/
def State.tmbCommand (s : State) (id op : Nat) (run : State → HostCmd → Nat → Nat → State) : State :=
  match s.cmdOf id 5 with
  | none => s
  | some c =>
    let n := natBits (c.at 16 2) 0 15
    if c.inflight && natBits (c.at 18 1) 0 3 == op then
      if s.queueTmb c.queue n then run s c n (c.at 20 4) else s.failCmd id 0x0D04 0 (s.refusedDetail n op)
    else s

/-- TUMBLER ARRIVE. -/
def execTumblerArrive (cmd : Nat) (s : State) : Host.Outcome State Fault Refusal :=
  .next (s.tmbCommand cmd 0 (fun s _ n w =>
    let (t, ok) := s.tmbArrive n w
    if ok then (t.begin cmd).complete cmd 0 0 else t.failCmd cmd 0x0D04 0 (s.refusedDetail n 0)))

/-- TUMBLER POLL: RESULT is the state word. -/
def execTumblerPoll (cmd : Nat) (s : State) : Host.Outcome State Fault Refusal :=
  .next (s.tmbCommand cmd 1 (fun s _ n _ =>
    let (s, w) := s.tmbPoll n
    (s.begin cmd).complete cmd 0 w))

/-- TUMBLER WAIT: the wait reaches its home, and the command holds its queue until it ends. -/
def execTumblerWait (cmd : Nat) (s : State) : Host.Outcome State Fault Refusal :=
  .next (s.tmbCommand cmd 2 (fun s _ n x =>
    (s.begin cmd).tmbWait { src := .hostCmd cmd, kind := 0, id := 0, op := .wait, tmb := n, operand := x }))

/-- TUMBLER TAKE: RESULT holds the token and bit 32 when one was taken. -/
def execTumblerTake (cmd : Nat) (s : State) : Host.Outcome State Fault Refusal :=
  .next (s.tmbCommand cmd 3 (fun s _ n _ =>
    let d := s.refusedDetail n 3
    match s.tmbTake n with
    | (s, .took x) => (s.begin cmd).complete cmd 0 (x + 2 ^ 32)
    | (s, .empty) => (s.begin cmd).complete cmd 0 0
    | (s, _) => s.failCmd cmd 0x0D04 0 d))

/-- TUMBLER PUT: RESULT is 1 when the token was put. -/
def execTumblerPut (cmd : Nat) (s : State) : Host.Outcome State Fault Refusal :=
  .next (s.tmbCommand cmd 4 (fun s _ n x =>
    let d := s.refusedDetail n 4
    match s.tmbPut n x with
    | (s, .putOk) => (s.begin cmd).complete cmd 0 1
    | (s, .putFull) => (s.begin cmd).complete cmd 0 0
    | (s, _) => s.failCmd cmd 0x0D04 0 d))

/-- TUMBLER RESET; the operations 6 and 7 are refused. -/
def execTumblerReset (cmd : Nat) (s : State) : Host.Outcome State Fault Refusal :=
  match s.cmdOf cmd 5 with
  | some c =>
    if c.inflight && decide (6 ≤ natBits (c.at 18 1) 0 3) then .next (s.badCmd cmd c)
    else .next (s.tmbCommand cmd 5 (fun s _ n _ => ((s.tmbReset n).begin cmd).complete cmd 0 0))
  | none => .next s

/-- The note of a wait that has ended for a host command. -/
def State.hostNote (s : State) (cmd : Nat) : Option TmbNote := s.tmb.notes.find? (fun x => x.src == TmbSrc.hostCmd cmd)

def State.dropNote (s : State) (x : TmbNote) : State :=
  { s with tmb := { s.tmb with notes := s.tmb.notes.erase x } }

/-- TUMBLER_WAIT_TMO: TMO has expired with no firing (R654), or the wait was ended as timed out (R656). -/
def execTumblerWaitTmo (cmd : Nat) (s : State) : Host.Outcome State Fault Refusal :=
  match s.cmdOf cmd 5 with
  | none => .next s
  | some c =>
    if c.inflight || !c.holds then .next s
    else
      let out := match s.hostNote cmd with
        | some x => x.ans == TmbAns.timedOut
        | none => !(c.tmo == 0) && decide (c.since + c.tmo * 2500 < s.now)
      if out then .next ((s.withdrawWaits (.hostCmd cmd)).complete cmd 0 1) else .next s

/-! ### INLINE, FENCE, windows -/

/-- The sealed partition that a run of device addresses touches (Table 17.6). -/
def State.sealedIn (s : State) (unit ctx va len : Nat) : Option RangeEnt :=
  s.xlt.ranges.find? (fun r => r.unit == unit && r.ctx == ctx && (r.kind == 0 || r.kind == 3) && s.sealedPart r.part
    && decide (r.start * 65536 < va + len) && decide (va < (r.start + r.length) * 65536))

/-- The arrival a command asks for, after its writes: refused, it fails the command (Table 13.2). -/
def State.cmdArrive (s : State) (id : Nat) (c : HostCmd) (en : Bool) (n result : Nat) : State :=
  if en then
    if s.queueTmb c.queue n then
      let d := s.refusedDetail n 0
      let (s, ok) := s.tmbArrive n 1
      if ok then s.complete id 0 result else s.failCmd id 0x0D04 result d
    else s.failCmd id 0x0D04 result (s.refusedDetail n 0)
  else s.complete id 0 result

/-- A FENCE or an INLINE ends: its arrival, then its completion (R704, Table 14.5). -/
def State.fenceEnd (s : State) (id : Nat) (c : HostCmd) : State :=
  let f := c.at (if c.opc = 4 then 26 else 16) 2
  s.cmdArrive id c (natBit f 15) (natBits f 0 15) 0

/-- Send a zero-length read behind writes to host memory (R703). -/
def State.flush (s : State) (id : Nat) : State :=
  (({ s with host := { s.host with flushes := s.host.flushes ++ [id] } } : State).bump RF.HIF_FLUSHES_COUNT)

/-- Does a device address translate to host memory for a command's write? -/
def State.toHost (s : State) (c : HostCmd) (va : Nat) : Bool :=
  match s.xlate c.leaf c.ctx 1 va with
  | .host _ _ => true
  | _ => false

/-- INLINE: 1 to 256 bytes written at device scope, then an arrival, which a write to host memory holds behind a flush (R703). A failed translation
fails the command with its code. -/
def execInline (cmd : Nat) (s : State) : Host.Outcome State Fault Refusal :=
  match s.cmdOf cmd 4 with
  | none => .next s
  | some c =>
    let va := c.at 16 8 % 2 ^ 57
    let len := natBits (c.at 24 2) 0 9
    if s.host.flushes.contains cmd then .next s
    else match s.sealedIn c.leaf c.ctx va len with
    | some r => .next (s.failCmd cmd 0x1118 0 (sealedDetail c r))
    | none =>
      let s' := s.begin cmd
      match s'.devWrite c.leaf c.ctx va 4 ((c.body.drop 48).take len) with
      | (t, .ok _ _) =>
        if !s'.toHost c va then .next (t.fenceEnd cmd c)
        else if natBit (c.at 26 2) 15 then .next ((t.wroteHost cmd).flush cmd)
        else .next ((t.wroteHost cmd).complete cmd 0 0)
      | (_, .fail _ k) => .next (s.failCmd cmd (xltCode k) 0 (xltDetail c.ctx 1 0 0 0 0))
      | (t, .wait) => .next t
      | (_, .other) => .next (s.failCmd cmd 0x0C03 0 (xltDetail c.ctx 1 0 0 0 0))


/-- FENCE: waits for the earlier commands of its queue, then flushes when one of them wrote host memory. -/
def execFenceCommand (cmd : Nat) (s : State) : Host.Outcome State Fault Refusal :=
  match s.cmdOf cmd 6 with
  | none => .next s
  | some c =>
    let s := s.begin cmd
    if s.host.flushes.contains cmd || (s.queueCmds c.queue).any (fun x => decide (x.1 < cmd)) then .next s
    else if (s.queue c.queue).wrote then .next (s.flush cmd)
    else .next (s.fenceEnd cmd c)

/-- WIN_OPEN (R698). -/
def execWinOpen (cmd : Nat) (s : State) : Host.Outcome State Fault Refusal :=
  match s.cmdOf cmd 0x0B with
  | none => .next s
  | some c =>
    let w := natBits (c.at 16 2) 0 12
    if (kvGet (fun _ => {}) s.xlt.windows w).valid then .next (s.failCmd cmd 0x0E08 0 (detailOf [(52, 2, w)]))
    else
      let p := c.at 20 1
      let e : WinEnt := { valid := true, r := natBit p 0, w := natBit p 1, a := natBit p 2, unit := c.leaf, ctx := c.ctx,
                          peer := c.at 18 2, base := c.at 24 8 % 2 ^ 41, length := c.at 32 8 % 2 ^ 41 }
      let s := s.begin cmd
      .next (({ s with xlt := { s.xlt with windows := kvSet (fun _ => {}) s.xlt.windows w e } } : State).complete cmd 0 0)

/-- WIN_CLOSE (R635, R698): received accesses are performed as they are translated, so none is left under way; those that have arrived by this cycle are
still translated. -/
def execWinClose (cmd : Nat) (s : State) : Host.Outcome State Fault Refusal :=
  match s.cmdOf cmd 0x0C with
  | none => .next s
  | some c =>
    let w := natBits (c.at 16 2) 0 12
    let e := kvGet (fun _ => {}) s.xlt.windows w
    if e.valid ∧ e.unit ≠ c.leaf then .next (s.failCmd cmd 0x0E08 0 (detailOf [(52, 2, w)]))
    else
      let s := s.begin cmd
      let s := if e.valid then
        { s with xlt := { s.xlt with windows := kvSet (fun _ => {}) s.xlt.windows w { e with valid := false, closed := some s.now } } } else s
      .next (s.complete cmd 0 0)

/-! ### Functions (R670, R711, R712) -/

/-- Messages of vectors that were pending are sent once they are unmasked. -/
def State.unmaskVectors (s : State) (fn : Nat) : State :=
  if (s.fnSt fn).msixEn then
    (List.range 256).foldl (fun s v =>
      if kvGet (fun _ => false) s.host.pba (fn * 256 + v) && !s.vectorMasked fn v then
        { s with host := { s.host with
          pba := kvSet (fun _ => false) s.host.pba (fn * 256 + v) false, sent := s.host.sent ++ [(fn, v)] } }
      else s) s
  else s

/-- PCIE_CONFIG_WRITE: `field` 0 power state (0 D0, 3 D3hot), 1 the number of virtual functions enabled (physical function), 2
MSI-X control (bit 0 enable, bit 1 function mask). AER and other controls change nothing that the spec describes. -/
def execPcieConfigWrite (fn field value : Nat) (s : State) : Host.Outcome State Fault Refusal :=
  if 16 < fn ∨ (0 < fn ∧ !(s.fnSt fn).enabled) then .next s
  else
    match field with
    | 0 => if value = 0 ∨ value = 3 then .next (s.setFnSt fn { s.fnSt fn with d3 := value == 3 }) else .next s
    | 1 =>
      if fn = 0 ∧ value ≤ 16 then
        .next ((List.range 16).foldl (fun s i => s.setFnSt (i + 1) { s.fnSt (i + 1) with enabled := decide (i < value) }) s)
      else .next s
    | 2 => .next ((s.setFnSt fn { s.fnSt fn with msixEn := natBit value 0, msixMask := natBit value 1 }).unmaskVectors fn)
    | _ => .next s

/-- VF_FLR: a function level reset of a virtual function (R712). -/
def execVfFlr (fn : Nat) (s : State) : Host.Outcome State Fault Refusal :=
  if fn = 0 ∨ 16 < fn then .next s
  else
    let qs := s.ward.image.units.flatMap (fun u => if u.vf = fn then (List.range u.qcount).map (fun i => u.qbase + i) else [])
    let mine := fun (cmd : Nat) => match s.cmd cmd with
      | some c => qs.contains c.queue
      | none => false
    let s' := { s with host := { s.host with copies := s.host.copies.map (fun j => if mine j.cmd then { j with abort := 0x0E0A } else j) } }
    let s' := qs.foldl State.disableQueue s'
    let s' := qs.foldl (fun s q => s.setQueue q { s.queue q with tail := s.fld (RF.HIF_Q_SQHEAD_HEAD q) }) s'
    let s' := (s'.setFld (RF.HIF_EV_HEAD_HEAD.ofFn fn) (s'.fld (RF.HIF_EV_TAIL_TAIL.ofFn fn))).setFld
      (RF.HIF_NT_HEAD_HEAD.ofFn fn) (s'.fld (RF.HIF_NT_TAIL_TAIL.ofFn fn))
    .next ((s'.setFnSt fn { enabled := (s.fnSt fn).enabled }).syncQuiesced)

end Sys2Proof.Machine
end

