-- ==== Sys2Proof/Machine/Copy.lean ====
section
/-! DEFINITION. The copy engines (R699 to R703, R616 to R619) and the moves of staged ranges (R629, R630). A block of host data
arrives as the operand of COPY_BLOCK. -/

namespace Sys2Proof.Machine

/-! ### The command -/

/-- The fields of a COPY (Table 14.5). -/
structure CopyCmd where
  src : Nat
  dst : Nat
  len : Nat
  dir : Nat
  conv : Bool
  waitEn : Bool
  arvEn : Bool
  sfmt : Nat
  dfmt : Nat
  ssk : Nat
  dsk : Nat
  rule : Nat
  rnd : Nat
  sat : Bool
  redop : Nat
  rty : Nat
  sscale : Nat
  dscale : Nat
  waitTmb : Nat
  arvTmb : Nat
  waitOp : Nat
  deriving DecidableEq, Repr

def HostCmd.copy (c : HostCmd) : CopyCmd :=
  let f := c.at 36 1
  { src := c.at 16 8, dst := c.at 24 8, len := c.at 32 4, dir := natBits f 0 2, conv := natBit f 2, waitEn := natBit f 3
    arvEn := natBit f 4, sfmt := natBits (c.at 37 1) 0 4, dfmt := natBits (c.at 37 1) 4 4
    ssk := natBits (c.at 38 1) 0 2, dsk := natBits (c.at 38 1) 2 2, rule := natBits (c.at 38 1) 4 1
    rnd := natBits (c.at 38 1) 5 2, sat := natBit (c.at 38 1) 7, redop := natBits (c.at 39 1) 0 2, rty := natBits (c.at 39 1) 2 2
    sscale := c.at 40 8, dscale := c.at 48 8, waitTmb := natBits (c.at 56 2) 0 15, arvTmb := natBits (c.at 58 2) 0 15
    waitOp := c.at 60 4 }

/-- Bytes of a reduction's element: FP32, BF16, INT32. -/
def CopyCmd.redBytes (k : CopyCmd) : Nat := if k.rty = 1 then 2 else 4

/-- ATY of Table 8.9 for RTY, 4 for BF16. -/
def CopyCmd.redTy (k : CopyCmd) : Nat :=
  match k.rty with
  | 0 => 3
  | 1 => 4
  | _ => 1

/-- The checks of R699 to R702. -/
def CopyCmd.ok (k : CopyCmd) : Bool :=
  decide (1 ≤ k.len) && k.dir != 3
    && (!k.conv || (k.redop == 0 && blockOk k.sfmt k.ssk && blockOk k.dfmt k.dsk && k.dfmt != 0))
    && (k.redop == 0 || ((k.dir == 0 || k.dir == 2) && !k.conv && k.rty != 3 && k.len % k.redBytes == 0))

/-- Bytes of `n` elements of a format and block kind: a T2 block of 32 elements takes 8 bytes. -/
def fmtBytes (fmt sk n : Nat) : Nat := if sk = 3 then 8 * ceilDiv n 32 else ceilDiv (n * codeBits fmt) 8

/-- Elements that a conversion takes at a time: whole blocks of both sides. -/
def CopyCmd.unit (k : CopyCmd) : Nat := if (k.ssk = 2 ∧ k.dsk ≠ 1 ∧ k.dsk ≠ 3) ∨ (k.dsk = 2 ∧ k.ssk ≠ 1 ∧ k.ssk ≠ 3) then 16 else 32

/-- The address and the length in bytes, on a side, of elements (or bytes) `a` to `a + n`; a destination of blocks is written in whole blocks (R230). -/
def CopyCmd.sideRun (k : CopyCmd) (dstSide : Bool) (a n : Nat) : Nat × Nat :=
  let base := if dstSide then k.dst else k.src
  if k.conv then
    let (f, b) := if dstSide then (k.dfmt, k.dsk) else (k.sfmt, k.ssk)
    let o := fmtBytes f b a
    let e := if dstSide && (b == 1 || b == 2) then blockLen b * ceilDiv (a + n) (blockLen b) else a + n
    (base + o, fmtBytes f b e - o)
  else (base + a, n)

/-- Is a side in host memory, addressed on the bus? -/
def CopyCmd.hostSide (k : CopyCmd) (dstSide : Bool) : Bool := if dstSide then k.dir == 1 else k.dir == 0

/-- The side whose 4 KiB boundaries cut the blocks (R700). -/
def CopyCmd.cutsDst (k : CopyCmd) : Bool := k.dir != 1

/-- How many elements (or bytes) the block that starts at `pos` holds. -/
def CopyCmd.span (k : CopyCmd) (pos : Nat) : Nat :=
  if k.conv then
    let fits := fun (n : Nat) =>
      let (a, _) := k.sideRun k.cutsDst pos n
      let (b, _) := k.sideRun k.cutsDst (pos + n) 0
      decide (b / 4096 = a / 4096)
    let n := (List.range 512).foldl (fun n _ => if fits n then n + k.unit else n) k.unit
    min n (k.len - pos)
  else
    let (a, _) := k.sideRun k.cutsDst pos 0
    min (4096 - a % 4096) (k.len - pos)

/-- Source bytes moved when `pos` elements or bytes are done. -/
def CopyCmd.moved (k : CopyCmd) (pos : Nat) : Nat := if k.conv then fmtBytes k.sfmt k.ssk pos else pos

/-! ### Conversion (R701) -/

/-- Element `i` of a run of source bytes, decoded with its scale; FP64 first becomes FP32 (R232), and so does a scaled element on its way into a
block (R233). -/
def CopyCmd.elem (k : CopyCmd) (bs scales : List Byte) (i : Nat) : FVal :=
  if k.ssk = 3 then
    let blk := (bs.drop (8 * (i / 32))).take 8
    decodeScaled 11 3 (t2Digit blk (i % 32)) (blk.getD 7 0).toNat
  else
    let w := codeBits k.sfmt
    let b := w * i / 8
    let bits := natBits (le bs b 9) (w * i % 8) w
    let v := decodeScaled k.sfmt k.ssk bits (scales.getD (i / blockLen k.ssk) 0).toNat
    if k.sfmt = 0 ∨ (k.ssk ≠ 0 ∧ k.dsk ≠ 0) then fp32.decode (fp32.convert {} false v).bits else v

/-- Pack codes of w bits, the first at bit 0 (R217). -/
def packCodes (w : Nat) (cs : List Nat) : List Byte :=
  leBytes (ceilDiv (w * cs.length) 8) (cs.foldr (fun c v => c % 2 ^ w + 2 ^ w * v) 0)

/-- Cut a list into blocks of n. -/
def chunksOf {α : Type} (n : Nat) : Nat → List α → List (List α)
  | 0, _ => []
  | _ + 1, [] => []
  | f + 1, l => l.take n :: chunksOf n f (l.drop n)

/-- Convert values into the destination format: its bytes and its scale bytes. -/
def CopyCmd.encode (k : CopyCmd) (vs : List FVal) : List Byte × List Byte :=
  if k.dsk = 0 then
    (packCodes (codeBits k.dfmt) (vs.map (fun v => (toElem { rnd := k.rnd } k.sat k.dfmt v).bits)), [])
  else
    let len := blockLen k.dsk
    let blocks := (chunksOf len vs.length vs).map (fun b =>
      quantise k.dfmt k.dsk k.rule k.rnd (b ++ List.replicate (len - b.length) (.fin false 0 0)))
    if k.dsk = 3 then (blocks.flatMap (fun b => t2Block b.2 b.1), [])
    else (packCodes (codeBits k.dfmt) (blocks.flatMap (fun b => b.2)), blocks.map (fun b => BitVec.ofNat 8 b.1))

/-! ### Jobs -/

def State.job (s : State) (cmd : Nat) : Option CopyJob := s.host.copies.find? (fun j => j.cmd == cmd)

def State.setJob (s : State) (j : CopyJob) : State :=
  { s with host := { s.host with copies := s.host.copies.map (fun x => if x.cmd = j.cmd then j else x) } }

/-- HIF_CE_STAT.PLACES follows the copies an engine holds. -/
def State.syncPlaces (s : State) (e : Nat) : State :=
  s.setFld (RF.HIF_CE_STAT_PLACES e) (s.host.copies.filter (fun j => j.engine == e && j.placed)).length

/-- Give the places of an engine to its copies in the order they started; a placed copy begins its wait. -/
def State.placeCopies (s : State) (e : Nat) : Nat → State
  | 0 => s.syncPlaces e
  | n + 1 =>
    let held := (s.host.copies.filter (fun j => j.engine == e && j.placed)).length
    match s.host.copies.find? (fun j => j.engine == e && !j.placed) with
    | some j =>
      if held < 8 then
        match s.cmd j.cmd with
        | some c =>
          let k := c.copy
          let s := s.setJob { j with placed := true, regd := k.waitEn, waitFrom := s.now }
          let s := if k.waitEn then
              s.tmbWait { src := .hostCmd j.cmd, kind := 4, id := 16 * s.boot.leafSel + e, op := .wait, tmb := k.waitTmb, operand := k.waitOp }
            else s
          s.placeCopies e n
        | none => s.syncPlaces e
      else s.syncPlaces e
    | none => s.syncPlaces e

/-- A copy leaves its engine. -/
def State.dropJob (s : State) (j : CopyJob) : State :=
  let s := { s with host := { s.host with copies := s.host.copies.filter (fun x => !(x.cmd == j.cmd)) } }
  ((s.withdrawWaits (.hostCmd j.cmd)).placeCopies j.engine 8).syncXlt


/-- A copy fails (R708): its record has SRC_KIND 4, and RESULT gives the source bytes moved. -/
def State.failCopy (s : State) (j : CopyJob) (code : Nat) (d : Nat → List Byte) (rec_ : Bool) : State :=
  match s.cmd j.cmd with
  | none => s.dropJob j
  | some c =>
    let n := c.copy.moved j.pos
    let s := s.bump (RF.HIF_CE_FAILS_COUNT j.engine)
    let s := if code = 0x0E05 then s.bump RF.HIF_HOSTERR_COUNT else s
    let s := if rec_ then
        s.emit { code := code, fault := true, srcKind := 4, srcId := s.copyId j, unit := c.leaf, unitV := true, item := c.queue, detail := d n }
      else s
    (s.dropJob j).complete j.cmd code n

/-- A copy completes (R700): its arrival, then its completion. -/
def State.finishCopy (s : State) (j : CopyJob) : State :=
  match s.cmd j.cmd with
  | none => s.dropJob j
  | some c =>
    let k := c.copy
    if k.arvEn then
      let d := s.refusedDetail k.arvTmb 0
      let (s, ok) := s.tmbArrive k.arvTmb 1
      if ok then ((s.bump (RF.HIF_CE_COPIES_COUNT j.engine)).dropJob j).complete j.cmd 0 (k.moved k.len)
      else s.failCopy j 0x0D04 (fun _ => d) true
    else ((s.bump (RF.HIF_CE_COPIES_COUNT j.engine)).dropJob j).complete j.cmd 0 (k.moved k.len)

/-- COPY: checked and handed to its engine (R699). -/
def execCopy (cmd : Nat) (s : State) : Host.Outcome State Fault Refusal :=
  match s.cmdOf cmd 3 with
  | none => .next s
  | some c =>
    let k := c.copy
    let barred := fun (dstSide : Bool) => if k.hostSide dstSide then none else
      let (a, n) := k.sideRun dstSide 0 k.len
      s.sealedIn c.leaf c.ctx a n
    if !c.inflight then .next s
    else if !k.ok then .next (s.badCmd cmd c)
    else if k.waitEn && !s.queueTmb c.queue k.waitTmb then .next (s.failCmd cmd 0x0D04 0 (s.refusedDetail k.waitTmb 2))
    else if k.arvEn && !s.queueTmb c.queue k.arvTmb then .next (s.failCmd cmd 0x0D04 0 (s.refusedDetail k.arvTmb 0))
    else match (barred false).orElse (fun _ => barred true) with
      | some r => .next (s.failCmd cmd 0x1118 0 (sealedDetail c r))
      | none =>
        let e := (if k.dir = 1 then 8 else 0) + c.queue % 8
        let s := s.begin cmd
        let s := { s with host := { s.host with copies := s.host.copies ++ [({ cmd := cmd, engine := e } : CopyJob)] } }
        .next (s.placeCopies e 8)

/-! ### Holds (R616 to R619) -/

/-- The hold limit in cycles. -/
def State.holdLimit (s : State) : Nat := atLeast1 (s.fld RF.XLT_CTL_HOLD) * 2500

/-- A copy is held at its block: the record is written at once with a TOKEN. `srcId` is the walker's, or 0x20 + leaf. -/
def State.holdCopy (s : State) (j : CopyJob) (c : HostCmd) (va access reason srcId : Nat) : State :=
  let tok := s.xlt.nextToken
  let code := xltCode reason
  let s := { s with xlt := { s.xlt with nextToken := (tok + 1) % 65536 } }
  let s := s.setJob { j with token := some tok, holdFrom := s.now, holdCode := code, ready := true }
  let s := s.emit { code := code, fault := true, srcKind := 5, srcId := srcId, unit := c.leaf, unitV := true, addr := va, item := c.queue
                    detail := xltDetail c.ctx access 4 (s.copyId j) 1 tok }
  (s.bump RF.XLT_FAULTS_COUNT).syncXlt

def State.jobOfToken (s : State) (tok : Nat) : Option CopyJob := s.host.copies.find? (fun j => j.token == some tok)

/-- XLT_RESUME_GO: the held copy translates its block again (R617). -/
def execXltResumeGo (token : Nat) (s : State) : Host.Outcome State Fault Refusal :=
  if !s.serving then .next s
  else match s.jobOfToken token with
  | some j => .next ((s.setJob { j with token := none }).syncXlt)
  | none => .next s

/-- XLT_RESUME_ABORT: the held copy ends as failed with its fault's code (R617). -/
def execXltResumeAbort (token : Nat) (s : State) : Host.Outcome State Fault Refusal :=
  if !s.serving then .next s
  else match s.jobOfToken token with
  | some j => .next (s.failCopy j j.holdCode (fun _ => []) false)
  | none => .next s

/-- COPY_HOLD_EXPIRE: neither write came within XLT_CTL.HOLD microseconds (R618); one in the cycle of the expiry has won (R619). -/
def execCopyHoldExpire (token : Nat) (s : State) : Host.Outcome State Fault Refusal :=
  match s.jobOfToken token with
  | some j =>
    if j.holdFrom + s.holdLimit < s.now then
      let s := s.bump RF.XLT_HOLD_EXPIRED_COUNT
      let u := (s.cmd j.cmd).map (fun c => c.leaf)
      let s := s.emit { code := 0x0C05, srcKind := 5, srcId := 0x20 + s.boot.leafSel, unit := u.getD 0, unitV := u.isSome
                        detail := detailOf [(60, 2, token)] }
      .next (s.failCopy j 0x0C05 (fun _ => []) false)
    else .next s
  | none => .next s

/-! ### One block -/

/-- What the lookups of a block lead to. -/
inductive Look where
  | hit
  | miss (va : Nat)
  | hold (va access reason : Nat)
  | bad (reason : Nat)
  deriving DecidableEq, Repr

/-- Look the device addresses of a block up in the engine's range cache, in order (Table 12.4). -/
def State.lookRun (s : State) (q : Requester) (c : HostCmd) (access : Nat) : List Nat → State × Look
  | [] => (s, .hit)
  | va :: r =>
    let (s, e) := s.rcLookup q c.leaf c.ctx va
    match e with
    | none => (s, .miss va)
    | some e =>
      match e.target access va with
      | .fail 2 => (s, .bad 2)
      | .fail k => (s, .hold va access k)
      | .wait => (s, .miss va)
      | _ => s.lookRun q c access r

/-- Where a device run leads: device memory, the host bus, or a window of a peer. -/
inductive Side where
  | bus (a : Nat)
  | dev
  | win (peer window off : Nat)
  | bad
  deriving DecidableEq, Repr

def State.side (s : State) (c : HostCmd) (access va : Nat) : Side :=
  match s.xlate c.leaf c.ctx access va with
  | .dev _ => .dev
  | .host _ b => .bus b
  | .win r off => .win r.peer r.window off
  | _ => .bad

/-- Poison the lines of a device run (a poisoned TLP, R702). -/
def State.poisonRun (s : State) (c : HostCmd) (va len : Nat) : State :=
  (pieces va len).foldl (fun s p => match s.gran (granKey c.leaf c.ctx p.1) with
    | some g => s.poisonLine g p.2.1
    | none => s) s

/-- Apply the reductions of a run at its homes, element by element (R702, R514, R515). -/
def State.reduceRun (s : State) (c : HostCmd) (k : CopyCmd) : Nat → List (List Byte) → State
  | _, [] => s
  | va, e :: r =>
    let w := k.redBytes
    let ctl : HomeCtl := match s.rangeAt c.leaf c.ctx va with
      | some x => x.ctl 4 va
      | none => { cls := 4 }
    let (s, _, _) := s.lineAtomic (granKey c.leaf c.ctx (va / 65536)) (va % 65536 / 128) (va % 128) w
      (fun old => atomOp (k.redop - 1) k.redTy old (leNat e) 0) ctl
    s.reduceRun c k (va + w) r

/-- Where a run of a side leads: a host bus address is its own. -/
def State.sideOf (s : State) (c : HostCmd) (access : Nat) (host : Bool) (va : Nat) : Side := if host then .bus va else s.side c access va

/-- The runs of a side, each with a target of its own. -/
def sideRuns (host : Bool) (a n : Nat) : List (Bool × Nat × Nat) :=
  if n = 0 then [] else if host then [(true, a, n)] else (blockRuns a n).map (fun r => (false, r.1, r.2))

/-- The remote requests of a run of a copy's block; `part` is where its bytes stand among those that come back. -/
def State.remoteReqs (s : State) (j : CopyJob) (peer window off op size aop ty part : Nat) (data : List Byte) : List RemReq :=
  (cutRun (size + 1) off 0 size).map (fun p => { who := .copy j.cmd, leaf := s.boot.leafSel, peer := peer, op := op, window := window, off := off + p.1
                                                 size := p.2, data := (data.drop p.1).take p.2, aop := aop, ty := ty, part := part + p.1 })

/-- Send the requests of a block. -/
def State.sendParts (s : State) (j : CopyJob) (run : Nat × Nat) (qs : List RemReq) : State :=
  let s := s.setJob { ((s.job j.cmd).getD j) with left := qs.length, run := run, got := [], ready := false }
  { s with ptl := { s.ptl with reqs := s.ptl.reqs ++ qs } }

/-- Write, or reduce, bytes run by run: into host memory, at the home, or by requests to the device behind a window. -/
def State.copyPut (s : State) (j : CopyJob) (c : HostCmd) (k : CopyCmd) (poison : Bool) : List (Bool × Nat × Nat) → List Byte → State × List RemReq
  | [], _ => (s, [])
  | (host, a, n) :: r, bs =>
    let out := bs.take n
    let (s, q) : State × List RemReq := match s.sideOf c (if k.redop = 0 then 1 else 2) host a with
      | .bus b => ((s.hostWrite b out).wroteHost j.cmd, [])
      | .dev =>
        let s := if k.redop = 0 then (s.devWrite c.leaf c.ctx a 4 out).1 else s.reduceRun c k a (chunksOf k.redBytes out.length out)
        (if poison then s.poisonRun c a out.length else s, [])
      | .win p w off => (s, s.remoteReqs j p w off (if k.redop = 0 then 1 else 3) n (k.redop - 1) k.redTy 0 out)
      | .bad => (s, [])
    let (s, qs) := s.copyPut j c k poison r (bs.drop n)
    (s, q ++ qs)

/-- The block's source bytes and scales have been read: write them, and advance. -/
def State.writeBlock (s : State) (j : CopyJob) (c : HostCmd) (k : CopyCmd) (n : Nat) (bs scales : List Byte) (poison : Bool) : State :=
  let (da, dn) := k.sideRun true j.pos n
  let (out, sc) := if k.conv then k.encode ((List.range n).map (k.elem bs scales)) else (bs, [])
  let host := k.hostSide true
  let runs := sideRuns host da dn
  if !(k.redop == 0) && runs.any (fun r => match s.sideOf c 2 r.1 r.2.1 with
      | .bus _ => true
      | _ => false) then s.failCopy j 0x0C03 (fun _ => xltDetail c.ctx 2 4 (s.copyId j) 0 0) true
  else
    let (s, q1) := s.copyPut j c k poison runs out
    let (s, q2) := s.copyPut j c k false (sideRuns host (k.dscale + j.pos / blockLen k.dsk) sc.length) sc
    let j := { j with rdata := none }
    if (q1 ++ q2).isEmpty then s.setJob { j with pos := j.pos + n, ready := true }
    else (s.setJob { j with sent := n }).sendParts j (da, dn) (q1 ++ q2)

/-- After a block: the bytes are counted, the copy goes behind the others of its engine, and the last block ends it. -/
def State.afterBlock (s : State) (j : CopyJob) (k : CopyCmd) (n : Nat) : State :=
  match s.job j.cmd with
  | none => s
  | some j' =>
    if j'.pos = j.pos then s
    else
      let s := s.bump64 (RF.HIF_CE_BYTES_COUNT_LO j.engine) (RF.HIF_CE_BYTES_COUNT_HI j.engine) (k.moved (j.pos + n) - k.moved j.pos)
      let s := { s with host := { s.host with copies := s.host.copies.filter (fun x => !(x.cmd == j.cmd)) ++ [j'] } }
      if k.len ≤ j'.pos then
        match s.cmd j.cmd with
        | some c => if c.wroteHost then (s.setJob { j' with ready := false }).flush j.cmd else s.finishCopy j'
        | none => s.dropJob j'
      else s

/-- The DETAIL of 0x0E05 and 0x0E06. -/
def hostErrDetail (kind n : Nat) : List Byte := detailOf [(52, 1, kind), (56, 4, n)]

def Side.isBus : Side → Bool
  | .bus _ => true
  | _ => false

def Side.isDev : Side → Bool
  | .dev => true
  | _ => false

/-- The reads of a block's runs that lie behind windows. -/
def State.winReads (s : State) (j : CopyJob) : Nat → List (Side × Nat × Nat) → List RemReq
  | _, [] => []
  | part, (.win p w off, _, n) :: r => s.remoteReqs j p w off 0 n 0 0 part [] ++ s.winReads j (part + n) r
  | part, _ :: r => s.winReads j part r

/-- The bytes of a block's runs: read at the home, from what the host has sent, or from what has come back from windows; and whether a read at the home met
poison. -/
def State.gather (s : State) (c : HostCmd) : List (Side × Nat × Nat) → List Byte → List Byte → State × List Byte × Bool
  | [], _, _ => (s, [], false)
  | (.bus _, _, n) :: r, host, win =>
    let (t, bs, bad) := s.gather c r (host.drop n) win
    (t, host.take n ++ bs, bad)
  | (.win _ _ _, _, n) :: r, host, win =>
    let (t, bs, bad) := s.gather c r host (win.drop n)
    (t, win.take n ++ bs, bad)
  | (_, a, n) :: r, host, win =>
    match s.devRead c.leaf c.ctx 0 a n 4 with
    | (t, .ok b p) =>
      let (t, bs, bad) := t.gather c r host win
      (t, b ++ bs, p || bad)
    | (t, _) => t.gather c r host win

/-- Move one block: `data` and `scales` are what the host has sent for the parts of the source that lie in its memory, `err` says how a host read ended (0 well, 1 UR, 2 CA, 3 poisoned, 4 timed out). -/
def State.copyBlock (s : State) (j : CopyJob) (c : HostCmd) (data scales : List Byte) (err : Nat) : State :=
  let k := c.copy
  let n := k.span j.pos
  let (sa, sn) := k.sideRun false j.pos n
  let (da, dn) := k.sideRun true j.pos n
  let scN := if k.conv && (k.ssk == 1 || k.ssk == 2) then ceilDiv (j.pos + n) (blockLen k.ssk) - j.pos / blockLen k.ssk else 0
  let scA := k.sscale + j.pos / blockLen k.ssk
  let dcN := if k.conv && (k.dsk == 1 || k.dsk == 2) then ceilDiv (j.pos + n) (blockLen k.dsk) - j.pos / blockLen k.dsk else 0
  let dcA := k.dscale + j.pos / blockLen k.dsk
  let q : Requester := { kind := 4, id := s.copyId j }
  let look := fun (host : Bool) (a n : Nat) => if host || n == 0 then [] else blocksOf a n
  let (s, l1) := s.lookRun q c 0 (look (k.hostSide false) sa sn ++ look (k.hostSide false) scA scN)
  let (s, l2) := if l1 = .hit then
      s.lookRun q c (if k.redop = 0 then 1 else 2) (look (k.hostSide true) da dn ++ look (k.hostSide true) dcA dcN)
    else (s, l1)
  match l2 with
  | .miss va => ((s.setJob { j with ready := false }).addMiss s.boot.leafSel q c.leaf c.ctx va)
  | .hold va a r => s.holdCopy j c va a r (0x20 + s.boot.leafSel)
  | .bad _ => s.failCopy j 0x0C03 (fun _ => xltDetail c.ctx 0 4 (s.copyId j) 0 0) true
  | .hit =>
    let runs := (sideRuns (k.hostSide false) sa sn ++ sideRuns (k.hostSide false) scA scN).map (fun r => (s.sideOf c 0 r.1 r.2.1, r.2.1, r.2.2))
    let hostN := runs.foldl (fun m r => if r.1.isBus then m + r.2.2 else m) 0
    let wins := s.winReads j 0 runs
    let outs := (sideRuns (k.hostSide true) da dn ++ sideRuns (k.hostSide true) dcA dcN).map (fun r => (s.sideOf c 1 r.1 r.2.1, r.2.1, r.2.2))
    let ins := (runs.filter (fun r => r.1.isDev)).flatMap (fun r => pieces r.2.1 r.2.2)
    let puts := (outs.filter (fun r => r.1.isDev)).flatMap (fun r => pieces r.2.1 r.2.2)
    if runs.any (fun r => r.1 == Side.bad) then s
    else if s.piecesWait c.leaf c.ctx false ins || s.piecesWait c.leaf c.ctx true puts then
      (s.noteWaits c.leaf c.ctx false ins).noteWaits c.leaf c.ctx true puts
    else if !wins.isEmpty && j.rdata.isNone then s.sendParts j (sa, sn) wins
    else if decide (0 < hostN) && (err == 1 || err == 2 || err == 4) then
      let s := if err = 4 then s.bump RF.HIF_CPL_TO_COUNT else s
      s.failCopy j 0x0E05 (hostErrDetail (err - 1)) true
    else if !(hostN == 0) && !(data.length + scales.length == hostN) then s
    else
      let s := if hostN = 0 then s else s.bump64 RF.HIF_H2D_BYTES_COUNT_LO RF.HIF_H2D_BYTES_COUNT_HI hostN
      let (s, bytes, poison) := s.gather c runs (data ++ scales) (j.rdata.getD [])
      if poison then s.failCopy j 0x0E06 (hostErrDetail 0) true
      else
        let bad := decide (0 < hostN) && err == 3
        let t := s.writeBlock j c k n (bytes.take sn) (bytes.drop sn) bad
        if bad then t.failCopy j 0x0E05 (hostErrDetail 2) true else t.afterBlock j k n

/-! ### Staged moves (R629, R630) -/

/-- A staged move ends: the entry is valid again, with the new LOC or the old one, and waiting walks resume. -/
def State.endMove (s : State) (m : Move) (ok : Bool) : State :=
  let s := { s with xlt := { s.xlt with moves := s.xlt.moves.filter (fun x => !(x == m)) } }
  let s := match s.findRange m.unit m.ctx m.start with
    | some r => s.setRange { r with state := 0, loc := if ok then (if m.dir = 0 then 1 else 0) else r.loc, nohost := if ok then m.nohost else r.nohost }
    | none => s
  s.pumpInvals (2 * s.xlt.invals.length + 2)

/-- Move one 4 KiB block of a staged range. -/
def State.moveBlockOf (s : State) (m : Move) (cmd : Nat) (data : List Byte) (err : Nat) : State :=
  match s.findRange m.unit m.ctx m.start with
  | none => (s.endMove m false).complete cmd 0x0C0B 0
  | some r =>
    let va := r.start * 65536 + 4096 * m.block
    let bus := r.haddr * 4096 + 4096 * m.block
    let ps := pieces va 4096
    let next := fun (s : State) =>
      if m.block + 1 = 16 * r.length then (s.endMove m true).complete cmd 0 0
      else { s with xlt := { s.xlt with moves := s.xlt.moves.map (fun x => if x = m then { m with block := m.block + 1 } else x) } }
    if (m.dir = 1 || err == 0) && s.piecesWait m.unit m.ctx (m.dir == 0) ps then s.noteWaits m.unit m.ctx (m.dir == 0) ps
    else if m.dir = 0 then
      if err = 0 then
        if data.length = 4096 then
          let s := s.bump64 RF.HIF_H2D_BYTES_COUNT_LO RF.HIF_H2D_BYTES_COUNT_HI 4096
          next (s.runWrite m.unit m.ctx (r.ctl 4 va) ps data)
        else s
      else
        let s := if err = 4 then s.bump RF.HIF_CPL_TO_COUNT else s
        (s.endMove m false).failCmd cmd 0x0E05 0 (hostErrDetail (err - 1) (4096 * m.block))
    else
      let (s, bs, bad) := s.runRead m.unit m.ctx (r.ctl 4 va) ps
      if bad then (s.endMove m false).failCmd cmd 0x0E06 0 (hostErrDetail 0 (4096 * m.block))
      else next ((s.hostWrite bus bs).wroteHost cmd)

/-- One block of a copy, or of the staged move of a PREFETCH; one block of each copy of an engine in turn. -/
def State.oneBlock (s : State) (cmd : Nat) (data scales : List Byte) (err : Nat) : State :=
  match s.xlt.moves.find? (fun m => m.cmd == some cmd) with
  | some m => s.moveBlockOf m cmd data err
  | none =>
    match s.job cmd, s.cmd cmd with
    | some j, some c =>
      if j.abort ≠ 0 then s.failCopy j j.abort (fun _ => detailOf [(52, 1, s.queueFn c.queue)]) true
      else
        let can := fun (x : CopyJob) => x.placed && x.ready && !x.regd && x.token.isNone
        if can j && s.host.copies.find? (fun x => x.engine == j.engine && can x) == some j then s.copyBlock j c data scales err else s
    | _, _ => s

/-- COPY_BLOCK: the next block of a copy or of a staged move; `data`, `scales` and `err` are what the host sent where it reads host memory. -/
def execCopyBlock (cmd : Nat) (data : List Byte) (scales : List Byte) (err : Nat) (s : State) : Host.Outcome State Fault Refusal :=
  .next (s.oneBlock cmd data scales err)

/-- Does the next block of a command read host memory? -/
def State.readsHost (s : State) (cmd : Nat) : Bool :=
  match s.xlt.moves.find? (fun m => m.cmd == some cmd) with
  | some m => m.dir == 0
  | none =>
    match s.job cmd, s.cmd cmd with
    | some j, some c =>
      let k := c.copy
      k.hostSide false || (match s.side c 0 (k.sideRun false j.pos 0).1 with
        | .bus _ => true
        | _ => false)
    | _, _ => false

/-- COPY_WAIT_TIMEOUT: WAIT_TMB's wait has run out of TMO with no firing, or was ended as timed out (R702, R654). -/
def execCopyWaitTimeout (cmd : Nat) (s : State) : Host.Outcome State Fault Refusal :=
  match s.job cmd, s.cmd cmd with
  | some j, some c =>
    let out := match s.hostNote cmd with
      | some x => x.ans == TmbAns.timedOut
      | none => !(c.tmo == 0) && decide (j.waitFrom + c.tmo * 2500 < s.now)
    if j.regd && out then .next (s.failCopy j 0x0E07 (fun _ => detailOf [(52, 2, c.copy.waitTmb)]) true) else .next s
  | _, _ => .next s

/-- HOST_WAIT_FIRED: the firing reaches the host port: a COPY may start its first block, a TUMBLER WAIT completes with RESULT 0. A
refusal that returns fails the command (Table 13.2). -/
def execHostWaitFired (cmd : Nat) (s : State) : Host.Outcome State Fault Refusal :=
  match s.hostNote cmd, s.cmd cmd with
  | some x, some c =>
    match x.ans with
    | .fired =>
      let s := s.dropNote x
      match s.job cmd with
      | some j => .next (s.setJob { j with regd := false })
      | none => .next (s.complete cmd 0 0)
    | .refused op kind =>
      let d := detailOf [(52, 2, x.tmb), (54, 1, op), (55, 1, kind)]
      let s := s.dropNote x
      match s.job cmd with
      | some j => .next (s.failCopy j 0x0D04 (fun _ => d) true)
      | none => .next (s.failCmd cmd 0x0D04 0 d)
    | _ => .next (if c.inflight then s else s)
  | _, _ => .next s

/-- FLUSH_READ_COMPLETE: the zero-length read has returned, so a copy to host memory completes, or a FENCE goes on (R703, R704). -/
def execFlushReadComplete (cmd : Nat) (s : State) : Host.Outcome State Fault Refusal :=
  if s.host.flushes.contains cmd then
    let s := { s with host := { s.host with flushes := s.host.flushes.erase cmd } }
    match s.job cmd, s.cmd cmd with
    | some j, some _ => .next (s.finishCopy j)
    | none, some c => .next (s.fenceEnd cmd c)
    | _, none => .next s
  else .next s

end Sys2Proof.Machine
end

