-- ==== Sys2Proof/Machine/Pwr.lean ====
section
/-! DEFINITION. Power, droop and thermal control (chapter 16). The activity counts of a window, the sensors' readings and the
detectors' firings arrive with the commands; bubbled cycles are counted in closed form from the fractions in force. -/

namespace Sys2Proof.Machine

/-- A power and thermal record (R792). -/
def State.pwrRec (s : State) (code : Nat) (d : List (Nat × Nat × Nat)) : Rec :=
  { code := code, srcKind := 10, srcId := 2 * s.boot.leafSel, detail := detailOf d }

/-! ### Bubbles (R770 to R773, R795) -/

/-- The power fraction with the brake floor, the thermal fraction and the droop fraction of a die, each × 64. -/
def State.powerFrac (s : State) : Nat :=
  max (s.fld RF.PWR_STAT_BUBBLE) (if s.flag RF.PWR_STAT_BRAKE then min (s.fld RF.PWR_BRAKE_FRAC) 56 else 0)
def State.thermFrac (s : State) (d : Nat) : Nat := kvN s.pwr.therm d

/-- The end of a die's droop response as it stands: HOLD cycles after the last firing (R781). -/
def State.droopEnd (s : State) (d : Nat) : Nat := kvN s.pwr.droopLast d + s.fld (RF.PWR_D_DROOP_HOLD d)

/-- Does a droop response hold on a die in this cycle? -/
def State.droopHolds (s : State) (d : Nat) : Bool := s.flag (RF.PWR_D_STAT_DROOP d) && decide (s.now < s.droopEnd d)

/-- The first cycle that a droop response bubbles: within a frequency change it waits for cycle 384 (R783). -/
def State.droopFrom (s : State) (d : Nat) : Nat := if kvN s.pwr.changeAt d = 0 then 0 else kvN s.pwr.changeAt d + 256

/-- The droop fraction × 64 while a response bubbles. -/
def State.droopFrac (s : State) (d : Nat) : Nat := min (s.fld (RF.PWR_D_DROOP_FRAC d)) 56

/-- The fraction × 64 of a die's cores in this cycle: the largest (R773). -/
def State.dieFrac (s : State) (d : Nat) : Nat :=
  max s.powerFrac (max (s.thermFrac d) (if s.droopHolds d ∧ s.droopFrom d ≤ s.now then s.droopFrac d else 0))

/-- Is cycle `i` of the periods of 64 a bubble at a fraction n ÷ 64 (R772)? -/
def bubbleAt (n i : Nat) : Bool := decide (i % 64 * n / 64 < (i % 64 + 1) * n / 64)

/-- Bubbles among cycles [a, b) at a fraction n ÷ 64, periods counted from cycle 0 (R772). -/
def bubblesIn (n a b : Nat) : Nat := b * n / 64 - a * n / 64

/-- Count the bubbles of a die in [a, b) with a droop fraction q: each goes to the largest fraction, ties droop, thermal, power (R795). -/
def State.countSpan (s : State) (d q a b : Nat) : State :=
  let p := s.powerFrac
  let t := s.thermFrac d
  let n := max p (max t q)
  let k := bubblesIn n a b
  let s := { s with pwr := { s.pwr with bub := setN s.pwr.bub d (kvN s.pwr.bub d + k) } }
  if k = 0 then s
  else if q = n then s.bumpN (RF.PWR_D_DROOPCYC_COUNT d) k
  else if t = n then s.bumpN (RF.PWR_D_THERMCYC_COUNT d) k
  else s.bumpN (RF.PWR_D_PWRCYC_COUNT d) k

/-- Count the bubbles of a die up to now; those of a droop response from its first bubbled cycle to its end. -/
def State.accrueDie (s : State) (d : Nat) : State :=
  let a := s.pwr.accrued
  if s.flag (RF.PWR_D_STAT_DROOP d) then
    let stop := max a (min s.now (s.droopEnd d))
    let lo := min stop (max a (s.droopFrom d))
    let q := s.droopFrac d
    let s := { s with pwr := { s.pwr with droopCyc := setN s.pwr.droopCyc d (kvN s.pwr.droopCyc d + (stop - a)) } }
    ((s.countSpan d 0 a lo).countSpan d q lo stop).countSpan d 0 stop s.now
  else s.countSpan d 0 a s.now

/-- Count every die's bubbles up to now, before a fraction changes. -/
def State.accrue (s : State) : State :=
  let s := (List.range 8).foldl (fun s d => s.accrueDie d) s
  { s with pwr := { s.pwr with accrued := s.now } }

/-- Is any core of the device bubbled, or does a droop response stand? -/
def State.bubbling (s : State) : Bool :=
  !(s.powerFrac == 0) || (List.range 8).any (fun d => !(s.thermFrac d == 0) || s.flag (RF.PWR_D_STAT_DROOP d))

/-! ### Steps and set-points (R776, R777) -/

/-- The ceiling of a core in CORES bit order: T-cores 0–511, V-cores 512–639. -/
def State.coreCeil (s : State) (c : Nat) : Nat :=
  if c < 512 then s.fld (RF.TCW_FCUR_STEP c)
  else
    let vf := s.fld (RF.PWR_D_STAT_VFMAX ((c - 512) / 16))
    match s.ward.image.freq[c]? with
    | some x => if x ≤ 16 then min x vf else vf
    | none => vf

/-- The cores of a C-die. -/
def dieCores (d : Nat) : List Nat :=
  (List.range 64).map (fun i => 64 * d + i) ++ (List.range 16).map (fun i => 512 + 16 * d + i)

/-- The highest step that any core of a die runs at, at a boost level. -/
def State.topStep (s : State) (d bl : Nat) : Nat :=
  (dieCores d).foldl (fun m c => max m (min bl (s.coreCeil c))) 0

/-- The step a core runs at. -/
def State.coreStep (s : State) (c : Nat) : Nat :=
  min (s.fld (RF.PWR_D_STAT_BL (if c < 512 then c / 64 else (c - 512) / 16))) (s.coreCeil c)

/-- The cycle counter of a core (R376): cycles of its own clock, 2,300 + 25 × step MHz, since the cold start. -/
def State.coreClock (s : State) (c : Nat) : Nat :=
  let (t, n) := kvGet (fun _ => (0, 0)) s.tc.clockAt c
  n + (s.now - max t s.boot.coldAt) * (2300 + 25 * s.coreStep c) / 2500

/-- Is the core, in CORES bit order, in a bubble: a cycle of its own clock in which it issues nothing (R770, R772)? Its periods count from the cold
start (DESIGN CHOICE, log entry 118). -/
def State.bubbled (s : State) (c : Nat) : Bool := bubbleAt (s.dieFrac (if c < 512 then c / 64 else (c - 512) / 16)) (s.coreClock c)

/-- Carry the counters of cores over a change of their frequency. -/
def State.rebaseClocks (s : State) (cs : List Nat) : State :=
  cs.foldl (fun s c => { s with tc := { s.tc with clockAt := kvSet (fun _ => (0, 0)) s.tc.clockAt c (s.now, s.coreClock c) } }) s

/-- The set-point of a die at a boost level. -/
def State.voltFor (s : State) (d bl : Nat) : Nat := s.fld (RF.PWR_D_VF_MV d (s.topStep d bl))

def State.setVolt (s : State) (d mv : Nat) : State := s.setFld (RF.PWR_D_VOLT_MV d) mv

/-- Have both wardens of a die's leaf failed (R859)? -/
def State.railsHeld (s : State) (d : Nat) : Bool := natBits s.boot.wardenDead (2 * (d / 4)) 2 == 3

def State.pendingRaise (s : State) (d : Nat) : Bool :=
  s.flag (RF.PWR_D_STAT_PENDV d) && decide (s.fld (RF.PWR_D_STAT_BL d) < s.fld (RF.PWR_D_STAT_PEND d))

/-- A request for a die: a raise raises the set-point at once (R779, R780). -/
def State.request (s : State) (d req : Nat) : State :=
  let s := (s.setFld (RF.PWR_D_STAT_PEND d) req).setFlag (RF.PWR_D_STAT_PENDV d) true
  let s := { s with pwr := { s.pwr with pendAt := setN s.pwr.pendAt d s.now, confirmed := setB s.pwr.confirmed d false } }
  if s.fld (RF.PWR_D_STAT_BL d) < req then
    if s.railsHeld d then s else s.setVolt d (s.voltFor d req)
  else s

/-- The request a die's frame leads to (R779): `f` cycles of the closing frame. -/
def State.freqWant (s : State) (d f : Nat) : Nat :=
  let bl := s.fld (RF.PWR_D_STAT_BL d)
  let bub := kvN s.pwr.bub d
  if s.flag RF.PWR_CTL_FIXED then min (s.fld RF.PWR_CTL_FIXED_STEP) 16
  else if s.fld RF.PWR_BOOST_DOWN * f < bub * 1024 then bl - 1
  else if bub = 0 ∧ !kvB s.pwr.droopSeen d
      ∧ s.fld RF.PWR_EST_FRAME_P + s.fld RF.PWR_BOOST_MARGIN ≤ s.fld RF.PWR_CAP_CUR_WATTS
      ∧ (dieCores d).any (fun c => decide (bl < s.coreCeil c)) then min (bl + 1) 16
  else bl

/-- The decision for one die at the end-of-frame cycle (R779, R784). -/
def State.freqDecideDie (s : State) (f d : Nat) : State :=
  let s := if f < 8 * kvN s.pwr.droopCyc d then
      s.emit (s.pwrRec 0x1005 [(52, 1, d), (56, 4, kvN s.pwr.droopCyc d)]) else s
  let bl := s.fld (RF.PWR_D_STAT_BL d)
  let req := s.freqWant d f
  if req = bl then s
  else if s.flag (RF.PWR_D_STAT_PENDV d) then
    if s.pendingRaise d && decide (req < s.fld (RF.PWR_D_STAT_PEND d)) then s.request d req else s
  else s.request d req

/-- FREQ_DECISION: every die's decision from the closing frame, and the counts of the next frame begin. -/
def State.freqDecision (s : State) : State :=
  let s := s.accrue
  let f := s.now - s.pwr.frameStart
  let s := s.setFlag RF.PWR_STAT_FIXED (s.flag RF.PWR_CTL_FIXED)
  let s := (List.range 8).foldl (fun s d => s.freqDecideDie f d) s
  { s with pwr := { s.pwr with
    bub := [], droopCyc := [], frameStart := s.now
    droopSeen := (List.range 8).foldl (fun m d => setB m d (s.droopHolds d)) [] } }

/-- A change due at a tick is deferred: counted, and shown in the tick's snapshot record (R780, R782, R783). -/
def State.deferFreq (s : State) (d : Nat) : State :=
  let s := s.bump (RF.PWR_D_DEFERS_COUNT d)
  { s with tick := { s.tick with recDefer := true } }

/-- Is a die's request due at the tick `t`: decided before it (R780)? -/
def State.freqDue (s : State) (t d : Nat) : Bool := s.flag (RF.PWR_D_STAT_PENDV d) && decide (kvN s.pwr.pendAt d < t)

/-- Is a die's request free to be applied: no droop response, and a raise confirmed (R780, R782)? -/
def State.freqFree (s : State) (d : Nat) : Bool := !s.droopHolds d && !(s.pendingRaise d && !kvB s.pwr.confirmed d)

/-- Apply a die's pending request in cycle 128, or defer it. -/
def State.freqChangeDie (s : State) (t d : Nat) : State :=
  if s.freqDue t d then
    if !s.freqFree d then s.deferFreq d
    else
      let s := { s with pwr := { s.pwr with
        changeAt := setN s.pwr.changeAt d s.now
        oldStep := setN s.pwr.oldStep d (s.fld (RF.PWR_D_STAT_BL d))
        raised := setB s.pwr.raised d (s.pendingRaise d) } }
      let s := s.rebaseClocks (dieCores d)
      (s.setFld (RF.PWR_D_STAT_BL d) (s.fld (RF.PWR_D_STAT_PEND d))).setFlag (RF.PWR_D_STAT_PENDV d) false
  else s

/-- FREQ_CHANGE: in cycle 128 of a tick the pending requests are to be applied or deferred. That is settled when the cycle ends, so that a confirmation
or a firing of the cycle itself counts (R654, R780, R782). -/
def execFreqChange (s : State) : Host.Outcome State Fault Refusal :=
  match s.tick.lastTick with
  | some t => if s.now = t + 128 then .next { s with pwr := { s.pwr with changeDue := true } } else .next s
  | none => .next s

/-- The end of a cycle 128 in which FREQ_CHANGE came: the requests are applied or deferred, and the affected cores issue nothing through cycle 383. -/
def State.settleFreq (s : State) : State :=
  if s.pwr.changeDue then
    let s := { s.accrue with pwr := { s.accrue.pwr with changeDue := false } }
    match s.tick.lastTick with
    | some t => (List.range 8).foldl (fun s d => s.freqChangeDie t d) s
    | none => s
  else s

/-- Is a die within the cycles 128 to 383 of a frequency change, in which its cores issue nothing (Table 2.2)? -/
def State.changing (s : State) (d : Nat) : Bool :=
  let t := kvN s.pwr.changeAt d
  (decide (0 < t) && decide (t ≤ s.now) && decide (s.now < t + 256))
    || (match s.tick.lastTick with
      | some t => decide (s.now = t + 128) && s.freqDue t d && s.freqFree d
      | none => false)

/-- AVS_CONFIRM: the regulator of a die confirms the set-point of its pending raise. -/
def execAvsConfirm (die : Nat) (s : State) : Host.Outcome State Fault Refusal :=
  if s.pendingRaise die && !s.railsHeld die then
    .next { s with pwr := { s.pwr with confirmed := setB s.pwr.confirmed die true } }
  else .next s

/-- VOLT_RAISE_TIMEOUT: a raise not confirmed within 100 µs, 250,000 cycles, is cancelled with event 0x1007 (R780). -/
def execVoltRaiseTimeout (die : Nat) (s : State) : Host.Outcome State Fault Refusal :=
  if s.pendingRaise die && !kvB s.pwr.confirmed die && decide (kvN s.pwr.pendAt die + 250000 < s.now) then
    let req := s.fld (RF.PWR_D_STAT_PEND die)
    let mv := s.voltFor die req
    let s := s.setFlag (RF.PWR_D_STAT_PENDV die) false
    let s := if s.railsHeld die then s else s.setVolt die (s.voltFor die (s.fld (RF.PWR_D_STAT_BL die)))
    .next (s.emit (s.pwrRec 0x1007 [(52, 1, die), (53, 1, req), (54, 2, mv)]))
  else .next s

/-! ### The estimate and the cap (R766 to R769, R774, R775) -/

/-- The cap: the lesser of the two writers' values, each clamped. -/
def State.capNow (s : State) : Nat :=
  let c := fun (w : Nat) => min (max w 2000) 6000
  min (c (s.fld RF.PWR_CAP_HOST_WATTS)) (c (s.fld RF.PWR_CAP_MGT_WATTS))

/-- Round a figure in watts to its register. -/
def wattsOf (n d : Nat) : Nat :=
  min (if n % d = 0 then n / d else n / d + (if Config.roundUp n d then 1 else 0)) 65535

/-- Elements of a static term: its copies in the package (Table 16.1). -/
def staticCopies (n : Nat) : Nat :=
  match n with
  | 12 => 8
  | 14 => 32
  | 16 => 1
  | 17 => 2
  | _ => 0

/-- The dynamic terms that scale with voltage. -/
def scaledTerm (n : Nat) : Bool := [1, 2, 3, 4, 5, 6, 7, 9, 10].contains n

/-- The common denominator of a window's terms, in units of 2.5 µW: its length, (750 mV)², and 2^32. -/
def estUnit (len : Nat) : Nat := len * 562500 * 2 ^ 32

/-- An event term's contribution. -/
def State.eventTerm (s : State) (c : Nat × Nat × Nat) : Nat :=
  let w := s.fld (RF.PWR_W_WEIGHT c.1)
  let v := s.fld (RF.PWR_D_VOLT_MV c.2.1)
  if scaledTerm c.1 then w * c.2.2 * v * v * 2 ^ 32 else w * c.2.2 * 562500 * 2 ^ 32

def State.staticTerms (s : State) (len : Nat) : Nat :=
  let perDie := (List.range 8).foldl (fun a d =>
    a + 400 * (s.fld (RF.PWR_W_WEIGHT 0) + s.fld (RF.PWR_W_WEIGHT 8)) * len * s.fld (RF.PWR_D_VOLT_MV d) * 750
      * Config.leakFactor (s.fld (RF.PWR_D_TEMP_T d))) 0
  [12, 14, 16, 17].foldl (fun a n => a + 400 * s.fld (RF.PWR_W_WEIGHT n) * staticCopies n * estUnit len) perDie

/-- Is a term counted by events? -/
def eventIndex (n : Nat) : Bool := scaledTerm n || n == 11 || n == 13 || n == 15 || n == 18

/-- The estimate of a window that ends now, from its activity counts. -/
def State.estimate (s : State) (counts : List (Nat × Nat × Nat)) : State :=
  let len := s.now - s.pwr.winStart
  let cs := counts.filter (fun c => eventIndex c.1)
  let dyn := (cs.filter (fun c => scaledTerm c.1)).foldl (fun a c => a + s.eventTerm c) 0
  let rest := (cs.filter (fun c => !scaledTerm c.1)).foldl (fun a c => a + s.eventTerm c) 0
  let p := dyn + rest + s.staticTerms len
  let den := estUnit len * 400000
  let (sum, sden) := if s.pwr.frameDen = den then (s.pwr.frameSum + p, den)
    else (s.pwr.frameSum * den + p * s.pwr.frameDen, s.pwr.frameDen * den)
  let s := { s with pwr := { s.pwr with
    estP := p, estD := dyn, estDen := den, estB := s.fld RF.PWR_STAT_BUBBLE, frameSum := sum, frameDen := sden, frameN := s.pwr.frameN + 1 } }
  (s.setFld RF.PWR_EST_P (wattsOf p den)).setFld RF.PWR_EST_D (wattsOf dyn den)

/-- The power fraction that R775 sets, from the b of the window estimated (DEDUCED): with no reducible power the spec states no result, and the value is free. -/
def State.powerFraction (s : State) : Nat × State :=
  let n := min s.pwr.estB 56
  let cap := s.fld RF.PWR_CAP_CUR_WATTS
  let d := s.pwr.estD
  if d = 0 then
    let (i, s) := s.nextFree
    (Config.freeNat i % 57, s)
  else
    let num := (s.pwr.estP - d) * (64 - n) + 64 * d
    let sub := cap * s.pwr.estDen * (64 - n)
    (if num ≤ sub then 0 else min 56 (ceilDiv (64 * (num - sub)) (64 * d)), s)

/-- Set b for every core (R775): nothing before the first window has ended. -/
def State.setBubble (s : State) : State :=
  if s.pwr.estDen = 0 then s
  else
    let s := s.accrue
    let (n, s) := s.powerFraction
    s.setFld RF.PWR_STAT_BUBBLE n

/-- The thermal fraction of a die (R786). -/
def State.thermDie (s : State) (d : Nat) : State :=
  let t := s.fld (RF.PWR_D_TEMP_T d)
  let lim := s.fld (RF.PWR_D_TLIM_LIMIT d)
  let n := if lim ≤ t then min (4 * (t - lim + 1)) 56 else 0
  ({ s with pwr := { s.pwr with therm := setN s.pwr.therm d n } }).setFlag (RF.PWR_D_STAT_THERM d) (decide (0 < n))

/-- After a lowering the set-point falls, once cycle 383 has passed (R780): the wardens hold the set-point of R777. -/
def State.settleVolt (s : State) (d : Nat) : State :=
  let mv := s.voltFor d (s.fld (RF.PWR_D_STAT_BL d))
  if !s.pendingRaise d && !s.railsHeld d && decide (mv < s.fld (RF.PWR_D_VOLT_MV d)) then s.setVolt d mv else s

/-- The mean estimate of the frame that has closed, and the counts of a new frame (Table 16.4). -/
def State.frameMean (s : State) : State :=
  let s := if s.pwr.frameN = 0 then s else s.setFld RF.PWR_EST_FRAME_P (wattsOf s.pwr.frameSum (s.pwr.frameDen * s.pwr.frameN))
  { s with pwr := { s.pwr with frameSum := 0, frameDen := 1, frameN := 0 } }

/-- POWER_WINDOW: a window of 2 µs, 5,000 cycles, or the frame's last one at cycle 96 of the next tick, ends (R766, R775,
R786, R791). `counts` lists (term, die, events) of the window. -/
def execPowerWindow (counts : List (Nat × Nat × Nat)) (s : State) : Host.Outcome State Fault Refusal :=
  let ends := decide (s.now = s.pwr.winStart + 5000)
    || (decide (s.pwr.winStart < s.now) && (match s.tick.lastTick with
      | some t => decide (s.now = t + 96)
      | none => false))
  if s.flag RF.PWR_STAT_RUNNING && s.alive && ends then
    let s := s.accrue
    let s := (s.estimate counts).setBubble
    let s := (List.range 8).foldl (fun s d => (s.thermDie d).settleVolt d) s
    let s := if s.pwr.capAt = s.now then s.frameMean else s
    let s := match s.pwr.brakeHigh with
      | some h => if h < s.pwr.winStart then
          ({ s with pwr := { s.pwr with brakeHigh := none } }).setFlag RF.PWR_STAT_BRAKE false else s
      | none => s
    .next { s with pwr := { s.pwr with winStart := s.now } }
  else .next s

/-- POWER_CAP_UPDATE: at cycle 96 of a tick the cap takes effect and b follows from the latest estimate; the frame's mean
estimate is shown and a new frame's windows begin. The frame's last window ends in this cycle too (R766): one still to be taken closes the frame. -/
def execPowerCapUpdate (s : State) : Host.Outcome State Fault Refusal :=
  match s.tick.lastTick with
  | some t =>
    if s.now = t + 96 then
      let s := s.setFld RF.PWR_CAP_CUR_WATTS s.capNow
      let s := s.setBubble
      let s := { s with pwr := { s.pwr with capAt := s.now } }
      let open_ := s.flag RF.PWR_STAT_RUNNING && decide (s.pwr.winStart < s.now)
      .next (if open_ then s else ({ s.frameMean with pwr := { s.frameMean.pwr with winStart := s.now } }).setFlag RF.PWR_STAT_RUNNING true)
    else .next s
  | none => .next s

/-! ### Droop (R781 to R783) -/

/-- DROOP_DETECT: a detector of a die fires. A raise in cycles 129 to 383 is cancelled and stays pending; a lowering
completes. -/
def execDroopDetect (die : Nat) (s : State) : Host.Outcome State Fault Refusal :=
  if s.alive && decide (die < 8) then
    let s := s.accrue
    let s := if s.flag (RF.PWR_D_STAT_DROOP die) && decide (s.now ≤ s.droopEnd die) then s
      else (s.setFlag (RF.PWR_D_STAT_DROOP die) true).bump (RF.PWR_D_DROOPS_COUNT die)
    let s := { s with pwr := { s.pwr with
      droopSeen := setB s.pwr.droopSeen die true, droopLast := setN s.pwr.droopLast die s.now } }
    let at_ := kvN s.pwr.changeAt die
    if kvB s.pwr.raised die && decide (at_ < s.now) && decide (s.now ≤ at_ + 255) then
      let new := s.fld (RF.PWR_D_STAT_BL die)
      let s := { s with pwr := { s.pwr with raised := setB s.pwr.raised die false } }
      let s := s.rebaseClocks (dieCores die)
      .next ((((s.setFld (RF.PWR_D_STAT_BL die) (kvN s.pwr.oldStep die)).setFld (RF.PWR_D_STAT_PEND die) new).setFlag
        (RF.PWR_D_STAT_PENDV die) true).deferFreq die)
    else .next s
  else .next s

/-- DROOP_RESPONSE_END: HOLD cycles have passed with no detector firing; a firing in the cycle of the end wins (R654). -/
def execDroopResponseEnd (die : Nat) (s : State) : Host.Outcome State Fault Refusal :=
  if s.flag (RF.PWR_D_STAT_DROOP die) && decide (s.droopEnd die < s.now) then
    .next (s.accrue.setFlag (RF.PWR_D_STAT_DROOP die) false)
  else .next s

/-! ### Temperatures (R785 to R789) -/

/-- The highest reading of a place: (T, sensor). -/
def hottest (rs : List (Nat × Nat × Nat)) (place : Nat) : Option (Nat × Nat) :=
  (rs.filter (fun r => r.1 == place)).foldl (fun b r => match b with
    | some (t, k) => if t < r.2.2 then some (r.2.2, r.2.1) else some (t, k)
    | none => some (r.2.2, r.2.1)) none

/-- A thermal trip (R789): clocks and traffic stop, THERMTRIP_N is asserted, the black box takes record 0x1003. -/
def State.trip (s : State) (place sensor t : Nat) : State :=
  if s.boot.stopped then s
  else
    let s := { s with boot := { s.boot with stopped := true }, pins := { s.pins with therm := true } }
    s.bbEnter 2 (s.stamp (s.pwrRec 0x1003 [(52, 1, place), (53, 1, sensor), (54, 1, t)]))

/-- The alert and trip temperatures of a die. -/
def State.alertTemp (s : State) (d : Nat) : Nat := if d < 8 then s.fld (RF.PWR_D_TLIM_ALERT d) else Config.pdieAlert
def State.tripTemp (s : State) (d : Nat) : Nat := if d < 8 then s.fld (RF.PWR_D_TLIM_TRIP d) else Config.fuseTrip d

def State.dieTemp (s : State) (d : Nat) : Nat :=
  if d < 8 then s.fld (RF.PWR_D_TEMP_T d) else s.fld (RF.PWR_PD_TEMP_T (d - 8))

/-- The samples of a C-die or P-die. -/
def State.sampleDie (s : State) (rs : List (Nat × Nat × Nat)) (d : Nat) : State :=
  match hottest rs d with
  | none => s
  | some (t, k) =>
    let old := s.dieTemp d
    let s := if d < 8 then (s.setFld (RF.PWR_D_TEMP_T d) t).setFld (RF.PWR_D_TEMP_SENSOR d) k
      else s.setFld (RF.PWR_PD_TEMP_T (d - 8)) t
    let lim := s.fld (RF.PWR_D_TLIM_LIMIT d)
    let s := if 8 ≤ d then s
      else if lim ≤ t ∧ !kvB s.pwr.warned d then
        ({ s with pwr := { s.pwr with warned := setB s.pwr.warned d true } }).emit
          (s.pwrRec 0x1001 [(52, 1, d), (53, 1, k), (54, 1, t)])
      else if t + 2 < lim then { s with pwr := { s.pwr with warned := setB s.pwr.warned d false } }
      else s
    let al := s.alertTemp d
    let s := if al ≤ t ∧ old < al then s.emit (s.pwrRec 0x1002 [(52, 1, d), (53, 1, k), (54, 1, t)]) else s
    if s.tripTemp d ≤ t then s.trip d k t else s

/-- The sample of a stack: hot at the limit, until 3 °C below it (R788); a trip at 105 °C. -/
def State.sampleStack (s : State) (rs : List (Nat × Nat × Nat)) (k : Nat) : State :=
  match hottest rs (16 + k) with
  | none => s
  | some (t, sensor) =>
    let lim := s.fld RF.PWR_HBM_TLIM_LIMIT
    let s := s.setFld (RF.PWR_S_TEMP_T k) t
    let hot := s.flag (RF.PWR_S_TEMP_HOT k)
    let s := if lim ≤ t ∧ !hot then
        (s.setFlag (RF.PWR_S_TEMP_HOT k) true).emit (s.pwrRec 0x1006 [(52, 1, k), (54, 1, t)])
      else if hot ∧ t + 3 ≤ lim then s.setFlag (RF.PWR_S_TEMP_HOT k) false else s
    if 105 ≤ t then s.trip (16 + k) sensor t else s

/-- THERMAL_SAMPLE: the sensors' readings as (place, sensor, °C): places 0–7 C-dies, 8–9 P-dies, 16 + k stacks. -/
def execThermalSample (readings : List (Nat × Nat × Nat)) (s : State) : Host.Outcome State Fault Refusal :=
  if s.alive then
    let s := (List.range 10).foldl (fun s d => s.sampleDie readings d) s
    .next ((List.range 32).foldl (fun s k => s.sampleStack readings k) s)
  else .next s

/-! ### PWR_BRAKE_N (R791, R884) -/

/-- PWR_BRAKE_N is recognised low: the brake floor is in force (R791). -/
def State.brakeOn (s : State) : State :=
  let s := s.accrue
  let s := { s with pins := { s.pins with brakeN := false }, pwr := { s.pwr with brakeHigh := none } }
  let s := (s.setFlag RF.PWR_STAT_BRAKE true).bump RF.PWR_BRAKES_COUNT
  s.emit (s.pwrRec 0x1004 [(52, 1, s.fld RF.PWR_BRAKE_FRAC)])

/-- PWR_BRAKE_ASSERT: the pin has been low for 1 µs. It is sampled from the end of step 1 (R884), and not while PWROK is deasserted. -/
def execPwrBrakeAssert (s : State) : Host.Outcome State Fault Refusal :=
  if s.pins.brakeN && s.pins.pwrok then
    if s.alive && decide (2 ≤ s.boot.step) then .next s.brakeOn
    else .next { s with pins := { s.pins with brakeN := false } }
  else .next s

/-- PWR_BRAKE_DEASSERT: the pin is recognised high; the floor ends with the first window that begins after it. -/
def execPwrBrakeDeassert (s : State) : Host.Outcome State Fault Refusal :=
  if !s.pins.brakeN && s.pins.pwrok then
    .next { s with pins := { s.pins with brakeN := true }, pwr := { s.pwr with brakeHigh := some s.now } }
  else .next s

end Sys2Proof.Machine
end

