-- ==== Sys2Proof/Machine/TExec.lean ====
section
/-! DEFINITION. Issue of a T-core instruction (R154 to R172, R202 to R209, R362 to R371): its words, its form, its guard, the
checks made at issue, and registers. The words are what the core's fetch returned. -/

namespace Sys2Proof.Machine

/-! ### Instruction words (Table 8.1) -/

/-- The opcode map (Table 8.2). -/
def opcOf (w0 : BitVec 64) : Nat := natBits w0.toNat 1 8
def fD (w0 : BitVec 64) : Nat := natBits w0.toNat 13 8
def fA (w0 : BitVec 64) : Nat := natBits w0.toNat 21 8
def fB (w0 : BitVec 64) : Nat := natBits w0.toNat 29 8
def fC (w0 : BitVec 64) : Nat := natBits w0.toNat 37 8
def fBI (w0 : BitVec 64) : Bool := natBit w0.toNat 45
/-- IMM16, sign-extended. -/
def fImm16 (w0 : BitVec 64) : Int := toSigned 16 (natBits w0.toNat 29 16)
/-- A modifier field by its bits. -/
def fMod (w0 : BitVec 64) (hi lo : Nat) : Nat := natBits w0.toNat lo (hi - lo + 1)
def fImm32 (w1 : BitVec 64) : Nat := natBits w1.toNat 0 32
def fExt (w1 : BitVec 64) : Nat := natBits w1.toNat 32 32

/-- The form of an opcode: its words, its guard kind, whether it takes IMM16, its MOD fields as (hi, lo), the register operands
as (number, registers) and its predicate fields, of which the first `dst` and `pdst` are destinations, whether it must be group-uniform, and whether a
field holds an undefined value. -/
structure OpForm where
  words : Nat := 1
  group : Bool := false
  imm : Bool := false
  mods : List (Nat × Nat) := []
  regs : List (Nat × Nat) := []
  preds : List Nat := []
  dst : Nat := 0
  pdst : Nat := 0
  uniform : Bool := false
  bad : Bool := false
  deriving DecidableEq, Repr

/-- Bits of MOD outside the opcode's fields. -/
def OpForm.strayMod (f : OpForm) (w0 : BitVec 64) : Nat :=
  natBits (f.mods.foldl (fun v m => natSetBits v m.2 (m.1 - m.2 + 1) 0) w0.toNat) 46 16

/-- Does an instruction raise 0x0403 (R364 to R368)? -/
def OpForm.illegal (f : OpForm) (w0 : BitVec 64) : Bool :=
  !(natBits w0.toNat 0 1 + 1 == f.words) || !(natBits w0.toNat 62 2 == 0) || (fBI w0 && !f.imm)
    || (f.group && !(natBits w0.toNat 9 4 == 7)) || !(f.strayMod w0 == 0)
    || f.preds.any (fun p => decide (8 ≤ p)) || f.regs.any (fun r => !(r.1 % r.2 == 0)) || f.bad

/-! ### Registers of a lane (R154 to R156) -/

def TGroup.reg (g : TGroup) (lane r : Nat) : Nat := if r = 255 then 0 else kvGet (fun _ => 0) g.regs (32 * r + lane)

/-- Nothing on its way to a register or predicate of a lane will be delivered. -/
def TGroup.overtake (g : TGroup) (lane r : Nat) : TGroup := { g with pend := g.pend.filter (fun p => !(p.1 == r && p.2.1 == lane)) }

def TGroup.setReg (g : TGroup) (lane r v : Nat) : TGroup :=
  if r = 255 then g else { g.overtake lane r with regs := kvSet (fun _ => 0) g.regs (32 * r + lane) (v % 2 ^ 32) }

/-- An operand of `n` registers, the first lowest. -/
def TGroup.rd (g : TGroup) (lane r : Nat) : Nat → Nat
  | 0 => 0
  | n + 1 => g.reg lane r + 2 ^ 32 * g.rd lane (r + 1) n

def TGroup.wr (g : TGroup) (lane r v : Nat) : Nat → TGroup
  | 0 => g
  | n + 1 => (g.setReg lane r v).wr lane (r + 1) (v / 2 ^ 32) n

/-- Predicates: p7 reads 1 and takes no write. -/
def TGroup.pred (g : TGroup) (lane p : Nat) : Bool := if p = 7 then true else natBit (kvGet (fun _ => 0) g.preds p) lane

def TGroup.setPred (g : TGroup) (lane p : Nat) (b : Bool) : TGroup :=
  if p = 7 then g else
    { g.overtake lane (256 + p) with preds := kvSet (fun _ => 0) g.preds p (natSetBits (kvGet (fun _ => 0) g.preds p) lane 1 (if b then 1 else 0)) }

/-- An instruction that issues as number `tag` will deliver to registers, or predicates, of some lanes: it takes the place of what was on its way there. -/
def TGroup.await (g : TGroup) (tag : Nat) (lanes names : List Nat) : TGroup :=
  let new := lanes.flatMap (fun l => names.map (fun r => (r, l, tag)))
  { g with pend := g.pend.filter (fun p => !(lanes.contains p.2.1 && names.contains p.1)) ++ new }

/-- Is a value of an instruction still to be delivered? -/
def TGroup.awaits (g : TGroup) (tag lane r : Nat) : Bool := g.pend.contains (r, lane, tag)

/-- Deliver an operand of `n` registers, but for those that a later instruction has written since. -/
def TGroup.land (g : TGroup) (tag lane r v : Nat) : Nat → TGroup
  | 0 => g
  | n + 1 => (if g.awaits tag lane r then g.setReg lane r v else g).land tag lane (r + 1) (v / 2 ^ 32) n

def TGroup.landPred (g : TGroup) (tag lane p : Nat) (b : Bool) : TGroup := if g.awaits tag lane (256 + p) then g.setPred lane p b else g

def TGroup.setFlags (g : TGroup) (lane fl : Nat) : TGroup :=
  { g with flags := kvSet (fun _ => 0) g.flags lane (Nat.lor (kvGet (fun _ => 0) g.flags lane) fl) }

/-- The lanes in which an instruction acts (R367). -/
def TGroup.acting (g : TGroup) (w0 : BitVec 64) : List Nat :=
  (maskBits 32 g.active).filter (fun l => xor (g.pred l (natBits w0.toNat 9 3)) (natBit w0.toNat 12))

def TGroup.lowest (g : TGroup) : Nat := (maskBits 32 g.active).headD 0
def TGroup.diverged (g : TGroup) : Bool := !(g.live == g.active)

/-- Operand B, or IMM16 in its place at a width (R366). -/
def TGroup.opB (g : TGroup) (w0 : BitVec 64) (lane n : Nat) : Nat :=
  if fBI w0 then ofSigned (32 * n) (fImm16 w0) else g.rd lane (fB w0) n

/-! ### Faults of a group -/

/-- A precise fault of the instruction at PC. -/
def State.preciseFault (s : State) (core slot code lanes addr : Nat) (d : List Byte) : State :=
  s.tfault core slot { code := code, precise := true, lanes := lanes, addr := addr, detail := d }

/-- The leaf of a core's walkers. -/
def coreLeaf (core : Nat) : Nat := core / 64 / 4

/-- A translation fault of a T-core (R612): its record goes to the fault buffer, and its program ends. -/
def State.tXltFault (s : State) (core slot : Nat) (b : TBlock) (g : TGroup) (reason access va lanes srcId pc : Nat) : State :=
  s.raiseT core slot b.unit { code := xltCode reason, fault := true, terminated := true, srcKind := 5, srcId := srcId, unit := b.unit, unitV := true,
                              pc := if pc = 0 then g.pc else pc, addr := va, group := slot, groupV := true, lanes := lanes, item := b.item,
                              detail := xltDetail b.ctx access 1 core 0 0 } (some (b.ctx, va))

/-- Which of two faults is the program's (R208): the lower SRC_KIND, SRC_ID, then group slot. A failed translation counts as its T-core's. -/
def TFault.rank (f : TFault) : Nat :=
  (if f.xlt.isSome then 2 ^ 32 + f.core * 32 else f.rec_.srcKind * 2 ^ 32 + f.rec_.srcId * 32) + f.slot

/-- A program ends by a fault of its T-cores or engines, unless it has ended otherwise in the cycle. -/
def State.takeFault (s : State) (f : TFault) : State :=
  match s.prog f.unit with
  | some p =>
    if p.cmd = f.cmd then
      match f.xlt with
      | none => s.terminate f.unit f.rec_
      | some (ctx, va) => (s.holdRec f.rec_ ctx va).endProgram f.unit f.rec_.code
    else s
  | none => s

/-- The cycle's first fault of each program ends it (R208). -/
def State.settleFaults (s : State) : State :=
  let fs := s.tc.faults
  let first := fun (f : TFault) => fs.all (fun x => !(x.unit == f.unit) || decide (f.rank ≤ x.rank))
  (fs.filter first).foldl State.takeFault { s with tc := { s.tc with faults := [] } }

/-! ### Issue -/

/-- Does a core issue nothing in this cycle: a frequency change (Table 2.2), or a bubble (R770)? -/
def State.coreHeld (s : State) (core : Nat) : Bool := s.changing (core / 64) || s.bubbled core

/-- Is the line that holds an address poisoned where it is held? -/
def State.poisonAt (s : State) (unit ctx va : Nat) : Bool :=
  match s.gran (granKey unit ctx (va / 65536)) with
  | none => false
  | some g =>
    let l := g.lineLoc (va % 65536 / 128)
    let k := l.lineKey (va % 65536 / 128)
    match l with
    | .hbm _ _ => if s.vline k == noLine then (s.lineMeta k).poison else (s.vline k).poison
    | .scr _ _ => kvGet (fun _ => false) s.mem.scrPoison k

/-- Is a source of the form still on its way to an active lane (R160)? -/
def OpForm.late (f : OpForm) (g : TGroup) (w0 : BitVec 64) : Bool :=
  g.pend.any (fun p => natBit g.active p.2.1 &&
    ((f.regs.drop f.dst).any (fun r => decide (r.1 ≤ p.1) && decide (p.1 < r.1 + r.2))
      || (natBits w0.toNat 9 3 :: f.preds.drop f.pdst).any (fun q => p.1 == 256 + q)))

/-- Has a group a fault of this cycle? It issues nothing more. -/
def State.faulted (s : State) (core slot : Nat) : Bool := s.tc.faults.any (fun f => f.core == core && f.slot == slot)

/-- A group that can issue: it waits for nothing, its program is not stopped, and no source of the form is on its way
(R160, R173, R192). -/
def State.issuable (s : State) (core slot : Nat) (w0 : BitVec 64) (f : OpForm) : Option (TBlock × TGroup) :=
  match s.tgroup core slot with
  | none => none
  | some g =>
    match s.tblock core g.blk with
    | none => none
    | some b =>
      if s.alive && !(g.active == 0) && !b.stopped && g.wait == GWait.none && !f.late g w0 && !s.faulted core slot && !s.coreHeld core && decide (core < 512)
        then some (b, g) else none

/-- How the fetch of an instruction ends (R385); a failure has its reason and its address. -/
inductive Fetch where
  | ok
  | wait
  | fail (reason va : Nat)
  | poison
  deriving DecidableEq, Repr

/-- The fetch of an instruction's words, which may lie in two granules. -/
def State.fetchAt (s : State) (b : TBlock) (pc words : Nat) : Fetch :=
  let last := pc + 8 * (words - 1)
  match s.xlate b.unit b.ctx 3 pc, s.xlate b.unit b.ctx 3 last with
  | .fail r, _ => .fail r pc
  | .wait, _ => .wait
  | _, .fail r => .fail r last
  | _, .wait => .wait
  | _, _ => if s.poisonAt b.unit b.ctx pc || s.poisonAt b.unit b.ctx last then .poison else .ok

/-- The register that lies beyond the allocation (R155). -/
def OpForm.beyond (f : OpForm) (b : TBlock) : Option Nat :=
  (f.regs.flatMap (fun r => (List.range r.2).map (fun i => r.1 + i))).find? (fun r => !(r == 255) && decide (8 * b.regs ≤ r))

/-- The DETAIL of an illegal instruction. -/
def illegalDetail (w0 : BitVec 64) : List Byte := detailOf [(52, 8, w0.toNat)]

/-- An instruction issues on a core: TCW_ISSUE counts it, and the cycle is no stall. -/
def State.issuedOn (s : State) (core : Nat) : State :=
  State.bump { s with tc := { s.tc with issuedAt := kvSet (fun _ => 0) s.tc.issuedAt core (s.now + 1) } } (RF.TCW_ISSUE_COUNT core)

/-- The opcodes of Tables 8.2 to 8.13. -/
def definedOpcs : List Nat :=
  List.range 7 ++ (List.range 27).map (fun i => 0x10 + i) ++ (List.range 9).map (fun i => 0x30 + i) ++ [0x3A, 0x3B]
    ++ (List.range 10).map (fun i => 0x40 + i) ++ [0x50, 0x51, 0x52] ++ (List.range 5).map (fun i => 0x58 + i) ++ (List.range 14).map (fun i => 0x60 + i)

/-- The form by which a word is taken: its own, or, for a word of no defined opcode, one that is illegal (R209). -/
def OpForm.takes (f : OpForm) (opc : Nat) (w0 : BitVec 64) : Option OpForm :=
  if opcOf w0 = opc then some f else if definedOpcs.contains (opcOf w0) then none else some { bad := true }

/-- Issue an instruction: fetch, the checks of R370 in their order, then `act` on the block and the group, which carries out the
instruction or raises the faults of its own description. Words of another opcode are not this instruction; those of an undefined one, which have no row
of their own, raise 0x0403 under any (DESIGN CHOICE, log entry 117). -/
def State.issue (s : State) (core slot opc : Nat) (w0 : BitVec 64) (f : OpForm) (act : State → TBlock → TGroup → State) : State :=
  match f.takes opc w0 with
  | some f =>
    match s.issuable core slot w0 f with
    | none => s
    | some (b, g) =>
      match s.fetchAt b g.pc f.words with
      | .wait => s
      | .fail r va => s.tXltFault core slot b g r 3 va g.active (0x20 + coreLeaf core) g.pc
      | .poison => s.tfault core slot { code := 0x0409, lanes := g.active, addr := g.pc }
      | .ok =>
        if f.illegal w0 then s.preciseFault core slot 0x0403 g.active 0 (illegalDetail w0)
        else match f.beyond b with
          | some r => s.preciseFault core slot 0x0402 g.active 0 (detailOf [(52, 1, r), (53, 1, 8 * b.regs - 1)])
          | none =>
            if f.uniform && g.diverged then
              s.preciseFault core slot 0x0401 g.active 0 (detailOf [(52, 4, g.active), (56, 4, g.live)])
            else act (s.issuedOn core) b g
  | none => s

/-- Put a group back with the next instruction in sequence. -/
def State.advance (s : State) (core slot words : Nat) (g : TGroup) : State :=
  s.setTgroup core slot (some { g with pc := (g.pc + 8 * words) % 2 ^ 57, lockWait := [] })

/-- Issue an instruction that changes its group alone: `f` acts lane by lane in ascending order. -/
def State.lanesOp (s : State) (core slot opc : Nat) (w0 : BitVec 64) (form : OpForm) (f : TBlock → TGroup → Nat → TGroup → TGroup) : State :=
  s.issue core slot opc w0 form (fun s b g =>
    s.advance core slot form.words ((g.acting w0).foldl (fun h l => f b g l h) g))

/-! ### Exits and barriers (R163 to R173) -/

/-- Pop entries until a lane is active, or no lane is live (R165). -/
def popUntil (live : Nat) : List DivEnt → Nat → Nat → List DivEnt × Nat × Nat
  | [], pc, act => ([], pc, act)
  | e :: r, pc, act => if act = 0 ∧ live ≠ 0 then popUntil live r e.pc (Nat.land e.mask live) else (e :: r, pc, act)

/-- A barrier completes: the groups that wait at it go on (R169). -/
def State.releaseBar (s : State) (core : Nat) (b : TBlock) (bar : Nat) : State :=
  b.slots.foldl (fun s sl => match s.tgroup core sl with
    | some g => if g.wait = .bar bar then s.setTgroup core sl (some { g with wait := .none, pc := (g.pc + 8) % 2 ^ 57 }) else s
    | none => s) s

/-- The barriers after the exit of threads: each armed one counts the exits of threads that have not arrived (R171). -/
def Barrier.onExit (x : Barrier) (threads : List Nat) : Barrier :=
  if x.armed then
    let new := threads.filter (fun t => !x.arrived.contains t)
    { x with count := x.count + new.length, arrived := x.arrived ++ new }
  else x

/-- Complete every barrier whose arrivals have reached the expected count. -/
def State.settleBars (s : State) (core blk : Nat) : Nat → State
  | 0 => s
  | n + 1 =>
    let s := s.settleBars core blk n
    match s.tblock core blk with
    | none => s
    | some b =>
      match b.bars[n]? with
      | none => s
      | some x =>
        if x.armed && decide (x.expected ≤ x.count) then
          (s.setTblock core blk (some { b with bars := listSet b.bars n {} })).releaseBar core b n
        else s

/-- Lanes exit (R165): the masks lose them, and they arrive at the armed barriers. -/
def TGroup.exit (g : TGroup) (m : Nat) : TGroup :=
  let clear := fun (x : Nat) => x - Nat.land x m
  let live := clear g.live
  let st := g.stack.map (fun e => { e with mask := clear e.mask })
  let (st, pc, act) := popUntil live st g.pc (clear g.active)
  { g with live := live, active := act, stack := st, pc := pc }

/-- Live threads of a block. -/
def State.liveThreads (s : State) (core : Nat) (b : TBlock) : Nat :=
  b.slots.foldl (fun n sl => match s.tgroup core sl with
    | some g => n + (maskBits 32 g.live).length
    | none => n) 0

/-! ### Results of a wait -/

/-- A TMB.WAIT ends: D of every active lane receives 0 or 1, and the group goes on after its two words (R412). -/
def State.tmbWaitDone (s : State) (core slot v : Nat) : State :=
  match s.tgroup core slot with
  | some g =>
    match g.wait with
    | .tmb _ _ d _ _ =>
      let g := (maskBits 32 g.active).foldl (fun g l => g.setReg l d v) g
      s.setTgroup core slot (some { g with wait := .none, pc := (g.pc + 16) % 2 ^ 57 })
    | _ => s
  | none => s

end Sys2Proof.Machine
end

