-- ==== Sys2Proof/Machine/CohOps.lean ====
section
/-! DEFINITION. Coherence among V-cores (chapter 11): the directories' transactions, what an L2 does with a message, and dead agents. -/

namespace Sys2Proof.Machine

/-! ### Messages -/

def coreLeafV (core : Nat) : Nat := core / 64

def State.vdead (s : State) (core : Nat) : Bool := s.vc.dead.contains core

/-- A message leaves for an L2; snoops and Inv are counted. -/
def State.sendL2 (s : State) (m : CohMsg) : State :=
  let s := if m.kind < 4 then s.bump (RF.COH_L_SNOOP_COUNT (s.dirLeaf m.line)) else s
  { s with coh := { s.coh with msgs := s.coh.msgs ++ [{ m with since := s.now }] } }

/-- A request leaves an L2. -/
def State.sendDir (s : State) (r : CohReq) : State := { s with coh := { s.coh with misses := s.coh.misses ++ [r] } }

/-- A whole line as its home holds it; a dead home answers with the poison mark (R589). -/
def State.homeLine (s : State) (id : Nat) : State × List Byte × Bool :=
  match s.deadHome (id / 512) (id % 512) with
  | some leaf => (s.bump (RF.COH_L_POISONED_COUNT leaf), List.replicate 128 (0 : Byte), true)
  | none => s.cohRead (id / 512) (id % 512) 15 { cls := 5 }

/-- The holders of an entry. -/
def DirEnt.holders (e : DirEnt) : List Nat := (match e.owner with
  | some o => [o]
  | none => []) ++ e.sharers

def State.entryAt (s : State) (id : Nat) : DirEnt := (s.dirAt id).getD {}

def State.busyLine (s : State) (id : Nat) : Bool := s.coh.txns.any (fun t => t.req.line == id)

/-! ### Reclaim (R585 to R588) -/

/-- A poison write (R586). -/
def State.poisonHome (s : State) (id : Nat) : State :=
  let s := s.bump (RF.COH_L_POISONED_COUNT (s.dirLeaf id))
  match s.gran (id / 512) with
  | some g => s.poisonLine g (id % 512)
  | none => s

/-- Table 11.4 for one entry and one dead core; the second part says whether the entry held it, the third whether it was owner. -/
def State.reclaimLine (s : State) (core id : Nat) : State × Bool × Bool :=
  let e := s.entryAt id
  if e.owner = some core then
    let s := s.bumpN (RF.COH_L_SNOOP_COUNT (s.dirLeaf id)) (if e.ownedShared then e.sharers.length else 0)
    ((((e.sharers.foldl (fun s c => s.dropL2 c id) s).poisonHome id).setDir id {}), true, true)
  else if e.sharers.contains core then (s.setDir id { e with sharers := e.sharers.filter (fun c => !(c == core)) }, true, false)
  else (s, false, false)

/-! ### Grants -/

/-- A grant is sent and the entry takes its new state; of a requester that has died, Table 11.4 applies to the new role (R588). -/
def State.grantLine (s : State) (r : CohReq) (e : DirEnt) (st : Moesi) (data : Option (List Byte)) (poison : Bool) : State :=
  let s := s.setDir r.line e
  if s.vdead r.core then (s.reclaimLine r.core r.line).1
  else s.sendL2 { kind := 4, core := r.core, line := r.line, st := st, data := data, poison := poison, pf := r.pf }

/-- A grant with data from home. -/
def State.grantHome (s : State) (r : CohReq) (e : DirEnt) (st : Moesi) : State :=
  let (s, d, bad) := s.homeLine r.line
  s.grantLine r e st (some d) bad

/-- A grant with data from an owner. -/
def State.grantOwner (s : State) (r : CohReq) (e : DirEnt) (st : Moesi) (d : List Byte) (poison : Bool) : State :=
  (s.bump (RF.COH_L_C2C_COUNT (s.dirLeaf r.line))).grantLine r e st (some d) poison

/-! ### Serving a request (Table 11.2) -/

/-- Entries of the set of a line in its directory (R561). -/
def State.dirSetOf (s : State) (id : Nat) : List Nat :=
  (s.coh.dir.map (fun p => p.1)).filter (fun k => s.dirLeaf k == s.dirLeaf id && Config.dirSet k % 65536 == Config.dirSet id % 65536)

def State.enqueue (s : State) (r : CohReq) : State := { s with coh := { s.coh with queue := s.coh.queue ++ [r] } }

/-- A transaction begins: its messages are sent. -/
def State.beginTxn (s : State) (t : CohTxn) (msgs : List (Nat × Nat)) : State :=
  let s := { s with coh := { s.coh with txns := s.coh.txns ++ [{ t with awaiting := msgs.map (fun m => m.1) }] } }
  msgs.foldl (fun s m => s.sendL2 { kind := m.2, core := m.1, line := t.req.line }) s

/-- A victim of a full set is back-invalidated, and the request waits (R573, R574). -/
def State.evictDir (s : State) (r : CohReq) : State :=
  let vs := (s.dirSetOf r.line).filter (fun k => !s.busyLine k)
  let s := s.enqueue r
  let (i, s) := s.nextFree
  match vs[Config.freeNat i % vs.length]? with
  | none => s
  | some v =>
    let e := s.entryAt v
    let ms := (match e.owner with
      | some o => [(o, 2)]
      | none => []) ++ e.sharers.map (fun c => (c, 3))
    let leaf := s.dirLeaf v
    let s := (s.bump (RF.COH_L_DIREVICT_COUNT leaf)).bumpN (RF.COH_L_BACKINV_COUNT leaf) ms.length
    s.beginTxn { req := { core := r.core, line := v, op := 5 }, awaiting := [], evict := true } ms

/-- WbD: the owner's data goes home and is acknowledged; a line that it no longer owns is acknowledged unwritten (R569). -/
def State.serveWbd (s : State) (r : CohReq) : State :=
  let e := s.entryAt r.line
  let s := if e.owner = some r.core then
      (s.lineHome r.line r.data r.poison).setDir r.line { owner := none, sharers := e.sharers }
    else s.bump (RF.COH_L_STALEWB_COUNT (s.dirLeaf r.line))
  s.sendL2 { kind := 5, core := r.core, line := r.line }

/-- Serve a request on a line that has no transaction in progress. -/
def State.serve (s : State) (r : CohReq) : State :=
  let leaf := s.dirLeaf r.line
  let e := s.entryAt r.line
  let others := fun (cs : List Nat) => cs.filter (fun c => !(c == r.core))
  let op := if r.op = 2 ∧ !e.holders.contains r.core then 1 else r.op
  let r := { r with op := op }
  let needs := op ≤ 1 ∧ (s.dirAt r.line).isNone
  if needs ∧ 16 ≤ (s.dirSetOf r.line).length then s.evictDir r
  else
    let s := s.bump (RF.COH_L_REQ_COUNT leaf)
    let s := if coreLeafV r.core = leaf then s else s.bump (RF.COH_L_XLEAF_COUNT leaf)
    match op with
    | 3 => s.serveWbd r
    | 4 => s.setDir r.line { e with
        owner := if e.owner = some r.core then none else e.owner
        ownedShared := e.ownedShared && !(e.owner == some r.core)
        sharers := others e.sharers }
    | 0 =>
      match e.owner with
      | some o => s.beginTxn { req := r, awaiting := [] } [(o, 0)]
      | none => if e.sharers.isEmpty then s.grantHome r { owner := some r.core } .e
        else s.grantHome r { e with sharers := others e.sharers ++ [r.core] } .s
    | 1 =>
      let ms := (match e.owner with
        | some o => if o = r.core then [] else [(o, 2)]
        | none => []) ++ (others e.sharers).map (fun c => (c, 3))
      if ms.isEmpty then s.grantHome r { owner := some r.core } .m else s.beginTxn { req := r, awaiting := [] } ms
    | _ =>
      let ms := (others e.holders).map (fun c => (c, 3))
      if ms.isEmpty then s.grantLine r { owner := some r.core } .m none false else s.beginTxn { req := r, awaiting := [] } ms

/-- A request reaches its directory: one on a line in a transaction waits in arrival order (R566). A dead core's messages are discarded and
counted (R584). -/
def State.arriveDir (s : State) (r : CohReq) : State :=
  if s.vdead r.core then s.bump (RF.COH_L_STALEWB_COUNT (s.dirLeaf r.line))
  else if s.busyLine r.line || s.coh.queue.any (fun q => q.line == r.line) then s.enqueue r
  else s.serve r

/-- Serve the requests that need wait no longer, in their order. -/
def State.pumpDir (s : State) : State :=
  let q := s.coh.queue
  q.foldl (fun s r =>
    if s.busyLine r.line || s.coh.queue.any (fun x => x.line == r.line) then s.enqueue r else s.serve r)
    { s with coh := { s.coh with queue := [] } }

/-! ### The end of a transaction -/

/-- Every reply is in: the grant is sent, or the victim's entry is freed. Dirty data of a line that its owner has lost, with only a sharer to
come, goes home. -/
def State.finishTxn (s : State) (t : CohTxn) : State :=
  let r := t.req
  let e := s.entryAt r.line
  let s := { s with coh := { s.coh with txns := s.coh.txns.filter (fun x => !(x.req.line == r.line)) } }
  let s :=
    if t.evict then
      (match t.data with
        | some d => s.lineHome r.line d t.poison
        | none => s).setDir r.line {}
    else match r.op with
      | 0 =>
        let rest := e.sharers.filter (fun c => !(c == r.core)) ++ [r.core]
        match t.data with
        | some d =>
          if t.kept then s.grantOwner r { owner := e.owner, ownedShared := true, sharers := rest } .s d t.poison
          else (s.lineHome r.line d t.poison).grantOwner r { owner := none, sharers := rest } .s d t.poison
        | none => s.grantHome r { owner := none, sharers := (match e.owner with
            | some o => if t.kept then [o] else []
            | none => []) ++ rest } .s
      | 1 =>
        match t.data with
        | some d => s.grantOwner r { owner := some r.core } .m d t.poison
        | none => s.grantHome r { owner := some r.core } .m
      | _ => if (s.l2At r.core r.line).isSome then s.grantLine r { owner := some r.core } .m none false
        else s.grantHome r { owner := some r.core } .m
  s.pumpDir

/-- A reply counts for its transaction; the last one ends it. -/
def State.takeReply (s : State) (r : CohReply) : State :=
  match s.coh.txns.find? (fun t => t.req.line == r.line && t.awaiting.contains r.core) with
  | none => s
  | some t =>
    let t' := { t with
      awaiting := t.awaiting.filter (fun c => !(c == r.core))
      data := if r.data.isSome && !(t.req.op == 2) then r.data else t.data
      poison := t.poison || (r.data.isSome && r.poison)
      kept := t.kept || r.kept }
    let s := { s with coh := { s.coh with txns := s.coh.txns.map (fun x => if x = t then t' else x) } }
    if t'.awaiting.isEmpty then s.finishTxn t' else s

/-! ### What an L2 does with a message (Table 11.1) -/

def State.sendReply (s : State) (r : CohReply) : State := { s with coh := { s.coh with replies := s.coh.replies ++ [r] } }

/-- Answer a snoop or an Inv. A line marked evicting answers as M or O would, and goes to I (R569). -/
def State.answerL2 (s : State) (core id kind since : Nat) : State :=
  let s := s.syncL1 core id
  match s.l2At core id with
  | none => s.sendReply { core := core, line := id, since := since }
  | some x =>
    let dirty := if x.st.dirty && !(kind == 3) then some x.data else none
    let r : CohReply := { core := core, line := id, data := dirty, poison := x.poison, since := since }
    if x.evicting || kind == 2 || kind == 3 then (s.dropL2 core id).sendReply r
    else
      let st : Moesi := match x.st, kind with
        | .m, 0 => .o
        | .m, _ => .e
        | .o, 0 => .o
        | .o, _ => .s
        | .e, 0 => .s
        | .e, _ => .e
        | .s, _ => .s
      (s.setL2 core id (some { x with st := st })).sendReply { r with kept := true }

/-- The first message on its way to an L2 about a line. -/
def State.nextMsg (s : State) (core id : Nat) : Option CohMsg := s.coh.msgs.find? (fun m => m.core == core && m.line == id)

def State.dropMsg (s : State) (m : CohMsg) : State := { s with coh := { s.coh with msgs := s.coh.msgs.erase m } }

/-- A snoop or Inv reaches an L2: it waits while the line is held (R571). -/
def State.snoopL2 (s : State) (core id kind : Nat) : State :=
  match s.nextMsg core id with
  | some m =>
    if m.kind = kind then
      let s := s.dropMsg m
      match s.l2At core id with
      | some x =>
        if x.held s.now || !x.waiting.isEmpty then
          (s.setL2 core id (some { x with waiting := x.waiting ++ [(kind, m.since)] })).bump (RF.COH_L_HOLDWAIT_COUNT (s.dirLeaf id))
        else s.answerL2 core id kind m.since
      | none => s.answerL2 core id kind m.since
    else s
  | none => s

/-- The hold of a line ends, and the messages that waited are served in their order. -/
def State.endHold (s : State) (core id : Nat) : State :=
  match s.l2At core id with
  | some x =>
    let s := s.setL2 core id (some { x with holdUntil := none, waiting := [], recalled := false })
    x.waiting.foldl (fun s m => s.answerL2 core id m.1 m.2) s
  | none => s

/-! ### Fills and evictions (R467 to R469, R568) -/

/-- The ways of a V-core's cache, and its sets (Table 9.8): 0 L1I, 1 L1D, 2 L2. -/
def vcacheWays (cache : Nat) : Nat := if cache = 0 then 4 else if cache = 1 then 8 else 16
def vcacheSets (cache : Nat) : Nat := if cache = 0 then 128 else if cache = 1 then 64 else 1024

/-- The lines of a core in one of its caches, with their last uses. -/
def State.cacheLines (s : State) (cache core : Nat) : List (Nat × Nat) :=
  let keep := fun (k n : Nat) => if k % 128 = core then some (k / 128, n) else none
  match cache with
  | 0 => s.coh.l1i.filterMap (fun p => p.2.bind (keep p.1))
  | 1 => s.coh.l1d.filterMap (fun p => p.2.bind (fun y => keep p.1 y.used))
  | _ => s.coh.l2.filterMap (fun p => p.2.bind (fun x => keep p.1 x.used))

/-- The lines of a core's cache in the set of a line, with their last uses. -/
def State.linesOfSet (s : State) (cache core id : Nat) : List (Nat × Nat) :=
  (s.cacheLines cache core).filter (fun k =>
    !(k.1 == id) && Config.vcacheSet cache k.1 % vcacheSets cache == Config.vcacheSet cache id % vcacheSets cache)

/-- The victim of a full set: pseudo-LRU spares the line used last, and which of the others leaves is a free value (R466). -/
def State.victimOf (s : State) (ks : List (Nat × Nat)) : Option Nat × State :=
  let newest := ks.foldl (fun m k => max m k.2) 0
  let old := ks.filter (fun k => decide (k.2 < newest))
  let cs := if old.isEmpty then ks else old
  let (i, s) := s.nextFree
  ((cs[Config.freeNat i % cs.length]?).map (fun k => k.1), s)

/-- A dirty line is written to its home (R469, R568): its L1 copies leave with it, what L1D had changed first written to L2. -/
def State.writeBackL2 (s : State) (core id : Nat) (poison : Bool) : State :=
  let s := (s.syncL1 core id).dropL1 core id
  match s.l2At core id with
  | some x =>
    (s.setL2 core id (some { x with evicting := true, poison := x.poison || poison })).sendDir
      { core := core, line := id, op := 3, data := x.data, poison := x.poison || poison }
  | none => s

/-- Make room for a fill: a clean victim leaves at once with an EvC; a dirty one is written back, and the fill waits. -/
def State.roomL2 (s : State) (core id : Nat) : State × Bool :=
  let ks := s.linesOfSet 2 core id
  if ks.length < 16 then (s, true)
  else if ks.any (fun k => match s.l2At core k.1 with
      | some x => x.evicting
      | none => false) then (s, false)
  else
    match s.victimOf ks with
    | (none, s) => (s, true)
    | (some v, s) =>
      match s.l2At core v with
      | none => (s, true)
      | some x =>
        if x.st.dirty then (s.writeBackL2 core v false, false)
        else ((s.dropL2 core v).sendDir { core := core, line := v, op := 4 }, true)

/-- A use of a line is counted, for its replacement. -/
def State.nextUse (s : State) : Nat × State := (s.coh.uses + 1, { s with coh := { s.coh with uses := s.coh.uses + 1 } })

/-- Install a line of L2 in L1D; a dirty victim is written to L2 first (R469). -/
def State.fillL1d (s : State) (core id : Nat) : State :=
  match s.l2At core id with
  | none => s
  | some x =>
    let ks := s.linesOfSet 1 core id
    let s := if ks.length < vcacheWays 1 then s
      else match s.victimOf ks with
        | (some v, s) => (s.syncL1 core v).setL1d core v none
        | (none, s) => s
    let (n, s) := s.nextUse
    s.setL1d core id (some { data := x.data, poison := x.poison, used := n })

/-- A line is used in L1I, which fetches it from L2 when it has not got it. -/
def State.useL1i (s : State) (core id : Nat) : State :=
  let s := if (s.l1iAt core id).isSome then s
    else
      let s := s.syncL1 core id
      let ks := s.linesOfSet 0 core id
      if ks.length < vcacheWays 0 then s
      else match s.victimOf ks with
        | (some v, s) => s.setL1i core v none
        | (none, s) => s
  let (n, s) := s.nextUse
  s.setL1i core id (some n)

/-- A grant reaches its L2 and installs the line; E and M are held for 64 cycles. -/
def State.installL2 (s : State) (m : CohMsg) : State :=
  let held := match m.st with
    | .s => none
    | _ => some (s.now + 64)
  match m.data with
  | none =>
    match s.l2At m.core m.line with
    | some x => (s.dropMsg m).setL2 m.core m.line (some { x with st := m.st, holdUntil := held, recalled := false })
    | none => s.dropMsg m
  | some d =>
    let (s, room) := if (s.l2At m.core m.line).isSome then (s, true) else s.roomL2 m.core m.line
    if room then
      let (n, s) := ((s.dropMsg m).dropL1 m.core m.line).nextUse
      s.setL2 m.core m.line (some { st := m.st, data := d, poison := m.poison, holdUntil := held, pf := m.pf, used := n })
    else s

/-! ### Dead agents (R580 to R590) -/

/-- Every entry that has no transaction gives up a dead core (Table 11.4): the entries reclaimed and the poison writes. -/
def State.reclaimAll (s : State) (core : Nat) : State × Nat × Nat :=
  (s.coh.dir.map (fun p => p.1)).foldl (fun (a : State × Nat × Nat) id =>
    if a.1.busyLine id then a
    else
      let (s, held, owned) := a.1.reclaimLine core id
      (s, a.2.1 + (if held then 1 else 0), a.2.2 + (if owned then 1 else 0))) (s, 0, 0)

/-- A core leaves the transactions in progress (R588): an owner that owed data leaves its line poisoned, a sharer's reply counts as
received. -/
def State.leaveTxns (s : State) (core : Nat) : State :=
  s.coh.txns.foldl (fun s t =>
    let e := s.entryAt t.req.line
    let s := if t.awaiting.contains core then
        let s := if e.owner = some core ∧ !(t.req.op == 2) then s.poisonHome t.req.line else s
        s.takeReply { core := core, line := t.req.line }
      else s
    let e := s.entryAt t.req.line
    if e.sharers.contains core then s.setDir t.req.line { e with sharers := e.sharers.filter (fun c => !(c == core)) } else s) s

/-- A V-core is declared dead: what it had in its caches and on its way is lost. -/
def State.killCore (s : State) (core : Nat) : State × Nat × Nat :=
  let s := { s with
    vc := { s.vc with dead := s.vc.dead ++ [core] }
    coh := { s.coh with
      l2 := s.coh.l2.filter (fun p => !(p.1 % 128 == core))
      l1d := s.coh.l1d.filter (fun p => !(p.1 % 128 == core))
      l1i := s.coh.l1i.filter (fun p => !(p.1 % 128 == core))
      msgs := s.coh.msgs.filter (fun m => !(m.core == core)) } }
  let s := (s.setFld (RF.COH_DEAD_MASK (core / 32)) (natSetBits (s.fld (RF.COH_DEAD_MASK (core / 32))) (core % 32) 1 1)).setFlag
    (RF.VCW_STAT_DEAD core) true
  let s := (s.setFlag RF.COH_STAT_DEADSEEN true).setFlag RF.COH_STAT_RECLAIM true
  (s.leaveTxns core).reclaimAll core

def State.addReclaim (s : State) (r : Reclaim) : State :=
  { s with coh := { s.coh with reclaims := s.coh.reclaims ++ [{ r with since := s.now }] } }

/-- The cause of a declaration, by V-core, or by 128 + die (Table 11.5). -/
def State.noteCause (s : State) (k cause : Nat) : State := { s with coh := { s.coh with causes := setN s.coh.causes k cause } }

/-- Declare one V-core dead (R584): the program on it ends, with 0x0B02 unless another fault ends it. -/
def State.declareCore (s : State) (core cause : Nat) : State :=
  if s.vdead core || decide (128 ≤ core) then s
  else
    let v := s.vcore core
    let (s, n, p) := (s.noteCause core cause).killCore core
    let s := s.addReclaim { agent := core, die := false, cause := cause, entries := n, poisons := p }
    if v.running ∧ cause ≠ 0 then
      s.vfault core { code := 0x0B02, detail := detailOf [(52, 1, cause), (54, 1, core / 16)] }
    else s

/-- Is anything of a unit on a C-die? -/
def State.onDie (s : State) (unit d : Nat) : Bool := (dieCoresOf d).any (s.holds unit)
where
  dieCoresOf (d : Nat) : List Nat := (List.range 64).map (fun i => 64 * d + i) ++ (List.range 16).map (fun i => 512 + 16 * d + i)

/-- Declare a C-die dead (R582, R583): its V-cores are dead, and every program with anything resident on it ends. -/
def State.declareDie (s : State) (d cause : Nat) : State :=
  if s.coh.deadDies.contains d || decide (8 ≤ d) then s
  else
    let s := s.noteCause (128 + d) cause
    let s := { s with coh := { s.coh with deadDies := s.coh.deadDies ++ [d] } }
    let s := s.setFld RF.COH_DEADDIE_MASK (natSetBits (s.fld RF.COH_DEADDIE_MASK) d 1 1)
    let hit := (s.ward.image.units.filter (fun u => s.onDie u.slot d)).map (fun u => u.slot)
    let (s, n, p) := (List.range 16).foldl (fun (a : State × Nat × Nat) j =>
      if a.1.vdead (16 * d + j) then a
      else
        let (s, n, p) := a.1.killCore (16 * d + j)
        (s, a.2.1 + n, a.2.2 + p)) (s, 0, 0)
    let s := s.addReclaim { agent := d, die := true, cause := cause, entries := n, poisons := p }
    hit.foldl (fun s u => s.terminate u { code := 0x0B02, detail := detailOf [(52, 1, cause), (53, 1, 1), (54, 1, d)] }) s

end Sys2Proof.Machine
end

