-- ==== Sys2Proof/Machine/VDec.lean ====
section
/-! DEFINITION. The instruction formats of RISC-V that a V-core decodes (R419, Table 9.1), the expansion of compressed instructions, and the
vendor formats of Table 9.3. PRESUMED (the RISC-V unprivileged specification), where R419 only names it. -/

namespace Sys2Proof.Machine

/-! ### Fields -/

def iOp (w : Nat) : Nat := natBits w 0 7
def iRd (w : Nat) : Nat := natBits w 7 5
def iF3 (w : Nat) : Nat := natBits w 12 3
def iRs1 (w : Nat) : Nat := natBits w 15 5
def iRs2 (w : Nat) : Nat := natBits w 20 5
def iRs3 (w : Nat) : Nat := natBits w 27 5
def iF7 (w : Nat) : Nat := natBits w 25 7

def immI (w : Nat) : Int := toSigned 12 (natBits w 20 12)
def immS (w : Nat) : Int := toSigned 12 (natBits w 7 5 + 32 * natBits w 25 7)
def immB (w : Nat) : Int := toSigned 13 (2 * natBits w 8 4 + 32 * natBits w 25 6 + 2048 * natBits w 7 1 + 4096 * natBits w 31 1)
def immU (w : Nat) : Int := toSigned 32 (natBits w 12 20 * 4096)
def immJ (w : Nat) : Int := toSigned 21 (2 * natBits w 21 10 + 2048 * natBits w 20 1 + 4096 * natBits w 12 8 + 2 ^ 20 * natBits w 31 1)

/-! ### Words -/

def rWord (f7 rs2 rs1 f3 rd op : Nat) : Nat := f7 * 2 ^ 25 + rs2 * 2 ^ 20 + rs1 * 2 ^ 15 + f3 * 2 ^ 12 + rd * 2 ^ 7 + op
def iWord (imm rs1 f3 rd op : Nat) : Nat := imm % 4096 * 2 ^ 20 + rs1 * 2 ^ 15 + f3 * 2 ^ 12 + rd * 2 ^ 7 + op
def sWord (imm rs2 rs1 f3 op : Nat) : Nat := rWord (imm / 32 % 128) rs2 rs1 f3 (imm % 32) op
def bWord (imm rs1 f3 : Nat) : Nat :=
  rWord (64 * natBits imm 12 1 + natBits imm 5 6) 0 rs1 f3 (2 * natBits imm 1 4 + natBits imm 11 1) 0x63
def jWord (imm rd : Nat) : Nat :=
  natBits imm 20 1 * 2 ^ 31 + natBits imm 1 10 * 2 ^ 21 + natBits imm 11 1 * 2 ^ 20 + natBits imm 12 8 * 2 ^ 12 + rd * 2 ^ 7 + 0x6F

/-! ### Compressed instructions -/

/-- A 6-bit immediate of bits 12 and 6:2, sign-extended to a width. -/
def cImm6 (h w : Nat) : Nat := ofSigned w (toSigned 6 (32 * natBits h 12 1 + natBits h 2 5))
def cShamt (h : Nat) : Nat := 32 * natBits h 12 1 + natBits h 2 5

/-- Quadrant 0. -/
def expandC0 (h : Nat) : Option Nat :=
  let rd := 8 + natBits h 2 3
  let rs := 8 + natBits h 7 3
  let dOff := 8 * natBits h 10 3 + 64 * natBits h 5 2
  let wOff := 8 * natBits h 10 3 + 4 * natBits h 6 1 + 64 * natBits h 5 1
  match natBits h 13 3 with
  | 0 =>
    let imm := 16 * natBits h 11 2 + 64 * natBits h 7 4 + 4 * natBits h 6 1 + 8 * natBits h 5 1
    if imm = 0 then none else some (iWord imm 2 0 rd 0x13)
  | 1 => some (iWord dOff rs 3 rd 0x07)
  | 2 => some (iWord wOff rs 2 rd 0x03)
  | 3 => some (iWord dOff rs 3 rd 0x03)
  | 5 => some (sWord dOff rd rs 3 0x27)
  | 6 => some (sWord wOff rd rs 2 0x23)
  | 7 => some (sWord dOff rd rs 3 0x23)
  | _ => none

/-- Quadrant 1. -/
def expandC1 (h : Nat) : Option Nat :=
  let rd := natBits h 7 5
  let rs := 8 + natBits h 7 3
  let rt := 8 + natBits h 2 3
  let imm := cImm6 h 12
  match natBits h 13 3 with
  | 0 => some (iWord imm rd 0 rd 0x13)
  | 1 => if rd = 0 then none else some (iWord imm rd 0 rd 0x1B)
  | 2 => some (iWord imm 0 0 rd 0x13)
  | 3 =>
    if rd = 2 then
      let z := ofSigned 12 (toSigned 10 (512 * natBits h 12 1 + 16 * natBits h 6 1 + 64 * natBits h 5 1 + 128 * natBits h 3 2 + 32 * natBits h 2 1))
      if z = 0 then none else some (iWord z 2 0 2 0x13)
    else if cShamt h = 0 then none
    else some (cImm6 h 20 * 2 ^ 12 + rd * 2 ^ 7 + 0x37)
  | 4 =>
    match natBits h 10 2 with
    | 0 => some (iWord (cShamt h) rs 5 rs 0x13)
    | 1 => some (iWord (1024 + cShamt h) rs 5 rs 0x13)
    | 2 => some (iWord imm rs 7 rs 0x13)
    | _ =>
      match natBits h 12 1, natBits h 5 2 with
      | 0, 0 => some (rWord 32 rt rs 0 rs 0x33)
      | 0, 1 => some (rWord 0 rt rs 4 rs 0x33)
      | 0, 2 => some (rWord 0 rt rs 6 rs 0x33)
      | 0, _ => some (rWord 0 rt rs 7 rs 0x33)
      | _, 0 => some (rWord 32 rt rs 0 rs 0x3B)
      | _, 1 => some (rWord 0 rt rs 0 rs 0x3B)
      | _, _ => none
  | 5 =>
    let z := 2048 * natBits h 12 1 + 16 * natBits h 11 1 + 256 * natBits h 9 2 + 1024 * natBits h 8 1 + 64 * natBits h 7 1 + 128 * natBits h 6 1
      + 2 * natBits h 3 3 + 32 * natBits h 2 1
    some (jWord (ofSigned 21 (toSigned 12 z)) 0)
  | n =>
    let z := 256 * natBits h 12 1 + 8 * natBits h 10 2 + 64 * natBits h 5 2 + 2 * natBits h 3 2 + 32 * natBits h 2 1
    some (bWord (ofSigned 13 (toSigned 9 z)) rs (n - 6))

/-- Quadrant 2. -/
def expandC2 (h : Nat) : Option Nat :=
  let rd := natBits h 7 5
  let rt := natBits h 2 5
  let dOff := 32 * natBits h 12 1 + 8 * natBits h 5 2 + 64 * natBits h 2 3
  let sOff := 8 * natBits h 10 3 + 64 * natBits h 7 3
  match natBits h 13 3 with
  | 0 => some (iWord (cShamt h) rd 1 rd 0x13)
  | 1 => some (iWord dOff 2 3 rd 0x07)
  | 2 => if rd = 0 then none else some (iWord (32 * natBits h 12 1 + 4 * natBits h 4 3 + 64 * natBits h 2 2) 2 2 rd 0x03)
  | 3 => if rd = 0 then none else some (iWord dOff 2 3 rd 0x03)
  | 4 =>
    if natBits h 12 1 = 0 then
      if rt = 0 then (if rd = 0 then none else some (iWord 0 rd 0 0 0x67)) else some (rWord 0 rt 0 0 rd 0x33)
    else if rt = 0 then (if rd = 0 then some 0x00100073 else some (iWord 0 rd 0 1 0x67))
    else some (rWord 0 rt rd 0 rd 0x33)
  | 5 => some (sWord sOff rt 2 3 0x27)
  | 6 => some (sWord (4 * natBits h 9 4 + 64 * natBits h 7 2) rt 2 2 0x23)
  | _ => some (sWord sOff rt 2 3 0x23)

/-- Bytes of an instruction. -/
def iLen (w : BitVec 32) : Nat := if w.toNat % 4 = 3 then 4 else 2

/-- The 32-bit form of an instruction; `none`: its compressed form is undefined. -/
def iWide (w : BitVec 32) : Option Nat :=
  let h := w.toNat % 65536
  match w.toNat % 4 with
  | 0 => expandC0 h
  | 1 => expandC1 h
  | 2 => expandC2 h
  | _ => some w.toNat

/-! ### The vendor formats (Tables 9.3 and 13.3) -/

def xMk (w : Nat) : Nat := natBits w 12 3
def xS2 (w : Nat) : Nat := natBits w 25 2
def xOp (w : Nat) : Nat := natBits w 27 5
def xFmt (w : Nat) : Nat := natBits w 25 4
def xMode (w : Nat) : Nat := natBits w 29 3
def xT (w : Nat) : Nat := natBits w 25 2

end Sys2Proof.Machine
end

