-- ==== Sys2Proof/Machine/VOps.lean ====
section
/-! DEFINITION. What every V-core instruction shares: registers, mstatus, translation (R433 to R436), traps (R432), the fetch and the issue of
an instruction, and the answers a tumbler's home sends it (R661 to R663). -/

namespace Sys2Proof.Machine

/-! ### Registers -/

/-- x0 reads 0 and takes no write. -/
def VCore.rx (v : VCore) (r : Nat) : Nat := if r = 0 then 0 else kvGet (fun _ => 0) v.x r

def VCore.wx (v : VCore) (r n : Nat) : VCore := if r = 0 then v else { v with x := kvSet (fun _ => 0) v.x r (n % 2 ^ 64) }

/-- Reset values of the CSRs that a core keeps (Table 9.11). -/
def csrReset (n : Nat) : Nat :=
  match n with
  | 0x7C0 => 0x11
  | 0x7C1 => 2 ^ 64 - 1
  | _ => 0

def VCore.csrv (v : VCore) (n : Nat) : Nat := kvGet csrReset v.csr n
def VCore.setCsr (v : VCore) (n x : Nat) : VCore := { v with csr := kvSet csrReset v.csr n x }

/-- A field of mstatus. -/
def VCore.ms (v : VCore) (lo w : Nat) : Nat := natBits (v.csrv 0x300) lo w
def VCore.setMs (v : VCore) (lo w x : Nat) : VCore := v.setCsr 0x300 (natSetBits (v.csrv 0x300) lo w x)

def VCore.fsOn (v : VCore) : Bool := !(v.ms 13 2 == 0)
def VCore.xsOn (v : VCore) : Bool := !(v.ms 15 2 == 0)
def VCore.dirtyF (v : VCore) : VCore := v.setMs 13 2 3
def VCore.dirtyX (v : VCore) : VCore := v.setMs 15 2 3

/-- Vector register N, 8,192 bits; its low 64 bits are fN (R437). -/
def VCore.vr (v : VCore) (r : Nat) : Nat := kvGet (fun _ => 0) v.v r
def VCore.fr (v : VCore) (r : Nat) : Nat := v.vr r % 2 ^ 64

/-- A scalar write to fN: FS becomes 3. -/
def VCore.wf (v : VCore) (r n : Nat) : VCore := VCore.dirtyF { v with v := kvSet (fun _ => 0) v.v r (natSetBits (v.vr r) 0 64 n) }

/-- A write to a vector register: XS and FS become 3 (R442). -/
def VCore.wv (v : VCore) (r n : Nat) : VCore := (VCore.dirtyX { v with v := kvSet (fun _ => 0) v.v r n }).dirtyF

/-- fN as a single-precision value: one that is not NaN-boxed counts as the canonical NaN. -/
def VCore.fs (v : VCore) (r : Nat) : Nat := if v.fr r / 2 ^ 32 = 2 ^ 32 - 1 then v.fr r % 2 ^ 32 else fp32.nanCode

def boxS (n : Nat) : Nat := n % 2 ^ 32 + (2 ^ 32 - 1) * 2 ^ 32

/-- The rounding mode of frm; fflags. -/
def VCore.frm (v : VCore) : Nat := natBits (v.csrv 3) 5 3

/-- Accrue flags; the bits of fflags are NV 4, DZ 3, OF 2, UF 1, NX 0. -/
def VCore.accrue (v : VCore) (fl : Nat) : VCore :=
  if fl % 32 = 0 then v
  else
    let m := 16 * natBits fl 0 1 + 8 * natBits fl 1 1 + 4 * natBits fl 2 1 + 2 * natBits fl 3 1 + natBits fl 4 1
    (v.setCsr 3 (Nat.lor (v.csrv 3) m)).dirtyF

/-! ### Counters -/

def State.vctr (s : State) (core n : Nat) : Nat := kvGet (fun _ => 0) s.vc.ctrs (core * 16 + n)
def State.setVctr (s : State) (core n x : Nat) : State :=
  { s with vc := { s.vc with ctrs := kvSet (fun _ => 0) s.vc.ctrs (core * 16 + n) (x % 2 ^ 64) } }
def State.addVctr (s : State) (core n k : Nat) : State := s.setVctr core n (s.vctr core n + k)

/-! ### Traps (R432) -/

def State.setVmode (s : State) (core mode : Nat) : State :=
  (s.setVcore core { s.vcore core with mode := mode }).setFld (RF.VCW_STAT_PRIV core) mode

/-- An instruction raises a trap, which VCORE_TRAP takes; nothing issues before. -/
def State.vraise (s : State) (core cause : Nat) (addr : Bool) (tval : Nat) : State :=
  s.setVcore core { s.vcore core with trap := some { cause := cause, addr := addr, tval := tval }, gap := none, missed := [] }

/-- Illegal instruction, cause 2; whether mtval holds the word is the implementation's. -/
def State.villegal (s : State) (core : Nat) (w : BitVec 32) : State :=
  s.vraise core 2 false (if Config.trapTval then (if iLen w = 2 then w.toNat % 65536 else w.toNat) else 0)

/-- XVFERR.REASON; IDX too when the trap is of an Xslv instruction. XVFERR is state of Xslv, so XS becomes 3 (R442). -/
def VCore.setVferr (v : VCore) (reason : Nat) (idx : Option Nat) : VCore :=
  (v.setCsr 0xCC0 (match idx with
    | some i => reason % 16 * 4096 + i % 512
    | none => natSetBits (v.csrv 0xCC0) 12 4 reason)).dirtyX

/-- The cause of an access that fails (R435): `access` as in Table 12.3, `page`: MODE 15 translates it. -/
def xltCause (access reason : Nat) (page : Bool) : Nat :=
  if reason = 3 then (if access = 0 then 4 else 6)
  else
    let pf := page && decide (reason ≤ 1)
    match access with
    | 0 => if pf then 13 else 5
    | 3 => if pf then 12 else 1
    | _ => if pf then 15 else 7

/-- An access of the core's instruction fails. -/
def State.vaccFail (s : State) (core access reason va : Nat) (page : Bool) (idx : Option Nat) : State :=
  State.vraise (s.setVcore core ((s.vcore core).setVferr reason idx)) core (xltCause access reason page) true va

/-- Take a trap or an interrupt: its state is saved, and the handler's address entered. A reservation is lost (R424). With no machine handler,
0x0902. -/
def State.takeTrap (s : State) (core cause : Nat) (intr addr : Bool) (tval : Nat) : State :=
  let v := { s.vcore core with trap := none, resv := none, gap := none, missed := [] }
  let s := s.setVcore core v
  let code := cause + if intr then 2 ^ 63 else 0
  let target := fun (tvec : Nat) => tvec / 4 * 4 + if intr && tvec % 4 == 1 then 4 * cause else 0
  if v.mode ≤ 1 ∧ natBit (v.csrv (if intr then 0x303 else 0x302)) cause then
    let v := (((v.setCsr 0x142 code).setCsr 0x141 v.pc).setCsr 0x143 tval)
    let v := ((v.setMs 8 1 v.mode).setMs 5 1 (v.ms 1 1)).setMs 1 1 0
    State.setVmode (s.setVcore core { v with pc := target (v.csrv 0x105) % 2 ^ 64 }) core 1
  else if v.csrv 0x305 = 0 then
    s.vfault core { code := 0x0902, precise := true, addr := if addr then tval else 0
                    detail := detailOf [(52, 8, code), (60, 2, natBits (v.csrv 0xCC0) 0 9), (62, 1, natBits (v.csrv 0xCC0) 12 4)] }
  else
    let v := (((v.setCsr 0x342 code).setCsr 0x341 v.pc).setCsr 0x343 tval)
    let v := ((v.setMs 11 2 v.mode).setMs 7 1 (v.ms 3 1)).setMs 3 1 0
    State.setVmode (s.setVcore core { v with pc := target (v.csrv 0x305) % 2 ^ 64 }) core 3

/-! ### Translation (R433 to R435, Table 12.3) -/

/-- The privilege of an access: MPRV lends data accesses of machine mode that of MPP. -/
def VCore.effMode (v : VCore) (access : Nat) : Nat :=
  if v.mode = 3 ∧ access ≠ 3 ∧ v.ms 17 1 = 1 then v.ms 11 2 else v.mode

def VCore.range15 (v : VCore) (access : Nat) : Bool := natBits (v.csrv 0x180) 60 4 == 15 && !(v.effMode access == 3)

/-- The translation context and the ASID. -/
def VCore.ctxOf (v : VCore) (access : Nat) : Nat := if v.range15 access then v.csrv 0x180 % 65536 else 0
def VCore.asidOf (v : VCore) (access : Nat) : Nat := if v.range15 access then natBits (v.csrv 0x180) 44 16 else 0

/-- Does a range permit an access of the core? -/
def RangeEnt.vpermits (r : RangeEnt) (v : VCore) (access : Nat) : Bool :=
  let m := v.effMode access
  let base := r.permits access || (access == 0 && m == 1 && r.x && v.ms 19 1 == 1)
  base && (match m with
    | 0 => r.u
    | 1 => !r.u || (!(access == 3) && v.ms 18 1 == 1)
    | _ => true)

/-- Where an address leads for a core, its permission decided. -/
def RangeEnt.vtarget (r : RangeEnt) (v : VCore) (access va : Nat) : Xl :=
  if r.state = 1 ∨ r.state = 2 then .wait
  else if !r.vpermits v access then .fail 1
  else RangeEnt.target { r with r := true, w := true, x := true } access va

/-- Look an address up in the core's range cache; a miss waits for a walk. -/
def State.vlook (s : State) (core access va : Nat) : State × Xl :=
  let v := s.vcore core
  let ctx := v.ctxOf access
  let q : Requester := { kind := 3, id := core, asid := v.asidOf access }
  if 2 ^ 57 ≤ va then (s, .fail 0)
  else
    match s.rcLookup q v.unit ctx va with
    | (s, some r) => (s, if access = 3 ∧ s.sealBars v.unit r then .fail 2 else r.vtarget v access va)
    | (s, none) =>
      if v.gap = some (ctx, va / 4096) then (s, .fail 0)
      else
        let new := !s.xlt.misses.any (fun x => x.req == q && x.unit == v.unit && x.ctx == ctx && x.va == va / 4096 * 4096)
        let s := if new then s.addVctr core 9 1 else s
        (s.addMiss (core / 64) q v.unit ctx (va / 4096 * 4096), .wait)

/-- Look up the first and the last byte of a run: where the run leads, or the first failure with its address. A run that only in part lies in device
memory leads where its other part does (R422). -/
def State.vlookRun (s : State) (core access va len : Nat) : State × Xl × Nat :=
  let last := (va + len - 1) % 2 ^ 64
  match s.vlook core access va with
  | (s, .fail k) => (s, .fail k, va)
  | (s, .wait) => (s, .wait, va)
  | (s, t) =>
    if last / 65536 = va / 65536 then (s, t, va)
    else match s.vlook core access last with
      | (s, .fail k) => (s, .fail k, last / 65536 * 65536)
      | (s, .wait) => (s, .wait, va)
      | (s, u) => (s, if t.isDev then u else t, va)

/-! ### Lines of the L2 -/

/-- The line of an address in a context. -/
def lineOf (unit ctx va : Nat) : Nat := lineId (granKey unit ctx (va / 65536)) (va % 65536 / 128)

/-- Is a request of the core about a line on its way, waiting, in service, or answered by a grant still on its way? -/
def State.l2Asked (s : State) (core id : Nat) : Bool :=
  let mine := fun (r : CohReq) => r.core == core && r.line == id && decide (r.op ≤ 2)
  s.coh.misses.any mine || s.coh.queue.any mine || s.coh.txns.any (fun t => mine t.req)
    || s.coh.msgs.any (fun m => m.kind == 4 && m.core == core && m.line == id)

/-- Has the L2 a line in a state that serves a load, or a store (Table 11.1)? -/
def State.l2Serves (s : State) (core id : Nat) (wr : Bool) : Bool :=
  match s.l2At core id with
  | some x => !x.evicting && (!wr || x.st == .m || x.st == .e)
  | none => false

/-- Ask for a line that the L2 cannot serve: RdS, RdX or Upg. A demand miss of the L2 is counted once. -/
def State.l2Ask (s : State) (core id : Nat) (wr : Bool) : State :=
  if s.l2Asked core id then s
  else
    match s.l2At core id with
    | some x => if x.evicting then s else s.sendDir { core := core, line := id, op := 2 }
    | none =>
      ((s.bump (RF.VCW_L2MISS_COUNT core)).addVctr core 4 1).sendDir { core := core, line := id, op := if wr then 1 else 0 }

/-- A demand access uses a line of L2: a prefetched one is counted. -/
def State.l2Used (s : State) (core id : Nat) : State :=
  match s.l2At core id with
  | some x =>
    let s := if x.pf then (s.bump (RF.VCW_PFUSED_COUNT core)).addVctr core 8 1 else s
    let (n, s) := s.nextUse
    s.setL2 core id (some { x with pf := false, used := n })
  | none => s

/-- A line is used by an access that L2 performs itself: what L1D has changed of it is written to L2 first, and the copies of a line that is written
leave L1D (R462). -/
def State.l2Claim (s : State) (core id : Nat) (wr : Bool) : State :=
  let s := (s.syncL1 core id).l2Used core id
  if wr then s.setL1d core id none else s

/-! ### Issue -/

def State.acc (s : State) (id : Nat) : Option Acc := kvGet (fun _ => none) s.accs id
def State.setAcc (s : State) (id : Nat) (a : Option Acc) : State := { s with accs := kvSet (fun _ => none) s.accs id a }

/-- Does a V-core issue nothing in this cycle: a frequency change of its die (Table 2.2), or a bubble (R770)? -/
def State.vheld (s : State) (core : Nat) : Bool := s.changing (core / 16) || s.bubbled (512 + core)

/-- A scalar load or atomic of the core is on its way to the host or a remote device. -/
def State.vloading (s : State) (core : Nat) : Bool :=
  s.accs.any (fun p => match p.2 with
    | some a => !a.tcore && a.core == core && a.slot == 0 && (a.kind == 0 || a.kind == 2)
    | none => false)

/-- An access of the core is on its way: what a release or a fence at system scope waits for. Its accesses to device memory other than reductions are
performed as they issue. -/
def State.vstoring (s : State) (core : Nat) : Bool :=
  s.accs.any (fun p => match p.2 with
    | some a => !a.tcore && a.core == core
    | none => false)

/-- The reductions of the core that are on their way to their homes. -/
def State.vreducing (s : State) (core : Nat) : Bool :=
  s.accs.any (fun p => match p.2 with
    | some a => !a.tcore && a.core == core && a.kind == 3
    | none => false)

/-- Can the core take an instruction: an item runs, no trap is pending, and nothing it waits for is outstanding? -/
def State.vready (s : State) (core : Nat) : Bool :=
  let v := s.vcore core
  s.alive && decide (core < 128) && v.running && !v.stopped && v.trap.isNone && !v.waitTmb && v.twait.isNone && v.xslv.isNone
    && !s.vloading core && !s.vheld core && !s.vdead core && (s.moveOn (core + 512)).isNone

/-- The fetch of an instruction's bytes: translated as a fetch, from device memory only (R470), through L1I and L2. -/
def State.vfetch (s : State) (core len : Nat) : State × Bool :=
  let v := s.vcore core
  match s.vlookRun core 3 v.pc len with
  | (s, .fail k, va) => (s.vaccFail core 3 k va (v.range15 3) none, false)
  | (s, .dev _, _) =>
    let ids := [lineOf v.unit (v.ctxOf 3) v.pc, lineOf v.unit (v.ctxOf 3) (v.pc + len - 1)].eraseDups
    match ids.find? (fun id => (s.l1iAt core id).isNone && !s.l2Serves core id false) with
    | some id => (s.l2Ask core id false, false)
    | none =>
      if ids.any (fun id => (s.l1iAt core id).isNone && (match (s.syncL1 core id).l2At core id with
          | some x => x.poison
          | none => false)) then (s.vfault core { code := 0x0904, addr := v.pc, detail := detailOf [(52, 1, 2)] }, false)
      else (ids.foldl (fun s id => State.useL1i (if (s.l1iAt core id).isSome then s else s.l2Used core id) core id) s, true)
  | (s, _, _) => (s, false)

/-- The instruction at pc retires: pc moves on, and it is counted once (R421). -/
def State.vretireTo (s : State) (core pc : Nat) : State :=
  let s := (s.bump (RF.VCW_INSTRET_COUNT core)).addVctr core 2 1
  s.setVcore core { s.vcore core with pc := pc % 2 ^ 64, gap := none, missed := [] }

def State.vretire (s : State) (core : Nat) (w : BitVec 32) : State := s.vretireTo core ((s.vcore core).pc + iLen w)

/-- Issue an instruction: `f` acts on the state with the 32-bit form of the word. An undefined compressed form is illegal. -/
def State.vissue (s : State) (core : Nat) (w : BitVec 32) (f : State → Nat → State) : State :=
  if s.vready core then
    match s.vfetch core (iLen w) with
    | (s, true) =>
      match iWide w with
      | some x => f s x
      | none => s.villegal core w
    | (s, false) => s
  else s

/-! ### Errors of the caches (R475, R476) -/

/-- A double-bit error is counted, and event 0x0907 written: `cache` 0 L1I, 1 L1D, 2 L2. -/
def State.ueEvent (s : State) (core cache : Nat) (dirty : Bool) : State :=
  (s.bump (RF.VCW_ECC_UE_COUNT core)).emit { code := 0x0907, srcKind := 3, srcId := core, pc := (s.vcore core).pc
                                             detail := detailOf [(52, 1, cache), (53, 1, if dirty then 1 else 0)] }

/-- A double-bit error in the data of a line of L1I (0), L1D (1) or L2 (2): a clean line is invalidated, to be fetched again; a dirty one is dropped,
and its home written poisoned. -/
def State.cacheUe (s : State) (core id cache : Nat) : State :=
  match cache with
  | 0 => if (s.l1iAt core id).isSome then (s.ueEvent core 0 false).setL1i core id none else s
  | 1 =>
    match s.l1dAt core id with
    | some y => if y.dirty then (s.ueEvent core 1 true).writeBackL2 core id true else (s.ueEvent core 1 false).setL1d core id none
    | none => s
  | _ =>
    match s.l2At core id with
    | none => s
    | some x =>
      if x.evicting then s
      else if x.st.dirty then (s.ueEvent core 2 true).writeBackL2 core id true
      else ((s.ueEvent core 2 false).dropL2 core id).sendDir { core := core, line := id, op := 4 }

/-- A tag parity error of L1D (0) or L2 (1): the program ends with 0x0905, and the core is dead. -/
def State.tagParity (s : State) (core cache : Nat) : State :=
  (s.vfault core { code := 0x0905, detail := detailOf [(52, 1, cache)] }).declareCore core 0

/-- What the arrays report of the line of an access: 0 nothing; 1 a single-bit error of a data array; 2, 3 a double-bit error in L1D, L2; 4, 5 a tag
parity error in L1D, L2. -/
def State.cacheErr (s : State) (core id err : Nat) : State :=
  match err with
  | 1 => s.bump (RF.VCW_ECC_CE_COUNT core)
  | 2 => s.cacheUe core id 1
  | 3 => s.cacheUe core id 2
  | 4 => s.tagParity core 0
  | 5 => s.tagParity core 1
  | _ => s

/-- All of L1I is invalidated. -/
def State.flushL1i (s : State) (core : Nat) : State :=
  { s with coh := { s.coh with l1i := s.coh.l1i.filter (fun p => !(p.1 % 128 == core)) } }

/-- What the arrays report of the line of a fetch: as of an access, and 6, 7 a double-bit error, a tag parity error in L1I. -/
def State.fetchErr (s : State) (core err : Nat) : State :=
  let v := s.vcore core
  let id := lineOf v.unit (v.ctxOf 3) v.pc
  match err with
  | 0 => s
  | 2 => s
  | 4 => s
  | 6 => s.cacheUe core id 0
  | 7 => (s.bump (RF.VCW_ECC_UE_COUNT core)).flushL1i core
  | n => s.cacheErr core id n

/-! ### Tumblers -/

/-- A tumbler operation of a V-core ends: rd is written and the core goes on. -/
def State.vtmbReply (s : State) (core rd n : Nat) : State :=
  let v := s.vcore core
  if v.running && v.waitTmb then s.setVcore core { v.wx rd n with waitTmb := false } else s

/-- A TWAIT ends: rd := 0 when fired, 1 when timed out, and the core goes on after it. -/
def State.vtmbWaitEnd (s : State) (core n : Nat) : State :=
  let v := s.vcore core
  match v.twait with
  | some (_, rd, _) => if v.running then State.vretireTo (s.setVcore core { v.wx rd n with twait := none }) core (v.pc + 4) else s
  | none => s

end Sys2Proof.Machine
end

