-- ==== Sys2Proof/Machine/VAcc.lean ====
section
/-! DEFINITION. A scalar access of a V-core to host memory or a remote window comes back (R423, R457, R458, R634). -/

namespace Sys2Proof.Machine

/-- A loaded value by funct3 of the load: LB, LH, LW, LD, LBU, LHU, LWU. -/
def vloadExt (f3 n : Nat) : Nat :=
  if f3 < 3 then ofSigned 64 (toSigned (8 * 2 ^ f3) n) else n % 2 ^ (8 * 2 ^ (f3 % 4))

/-- What a load or an atomic delivers to its register. -/
def VCore.deliver (v : VCore) (w n : Nat) : VCore :=
  match iOp w with
  | 0x07 => v.wf (iRd w) (if iF3 w = 2 then boxS n else n)
  | 0x03 => v.wx (iRd w) (vloadExt (iF3 w) n)
  | _ => v.wx (iRd w) (if iF3 w = 2 then ofSigned 64 (toSigned 32 n) else n)

/-- Is the item that made an access still on its core? -/
def State.vmine (s : State) (a : Acc) : Bool :=
  let v := s.vcore a.core
  v.running && v.unit == a.unit && v.item == a.item

/-- A failed part of an access: a refused load or AMO is an access fault with REASON 1, one that failed at the host an access fault; a store
that failed, and a request that ended without a response, end the program. -/
def State.vaccError (s : State) (a : Acc) (l : AccLane) (code : Nat) (d : List Byte) (idx : Option Nat) : State :=
  let load := a.kind == 0 || a.kind == 2
  let cause := if a.kind = 0 then 5 else 7
  if load && code == 0x0C04 then State.vraise (s.setVcore a.core ((s.vcore a.core).setVferr 1 idx)) a.core cause true l.va
  else if load && code == 0x0806 then s.vraise a.core cause true l.va
  else s.vfault a.core { code := code, pc := a.pc, addr := l.va, detail := d }

/-- A scalar access ends. An Xslv access ends with XSLV_ACCESS_DONE. -/
def State.finishVacc (s : State) (id : Nat) (a : Acc) : State :=
  let xslv := match (s.vcore a.core).xslv with
    | some x => x.acc == some id
    | none => false
  if a.slot = 1 && xslv then s
  else
    let s := s.setAcc id none
    if !s.vmine a then s
    else match a.lanes.find? (fun l => l.err.isSome), a.lanes.find? (fun l => l.poison) with
      | some l, _ =>
        let (code, d) := l.err.getD (0, [])
        s.vaccError a l code d none
      | none, some l => s.vfault a.core { code := 0x0904, pc := a.pc, addr := l.va, detail := detailOf [(52, 1, 0)] }
      | none, none =>
        if a.kind = 0 ∨ a.kind = 2 then
          let n := leNat (a.lanes.flatMap (fun l => l.data))
          let s := s.setVcore a.core ((s.vcore a.core).deliver a.w0.toNat n)
          s.vretireTo a.core (a.pc + a.w1.toNat)
        else s

end Sys2Proof.Machine
end

