-- ==== Sys2Proof/Machine/TMem.lean ====
section
/-! DEFINITION. The memory instructions of a T-core (R386 to R402, R904 to R906), the L1 data cache (R181 to R183), and an access's way
to its home and back. Latencies are left out. -/

namespace Sys2Proof.Machine

/-! ### Checks of an access (R905) -/

/-- The lanes whose address fails a test, as a mask, with the address of the lowest. -/
def firstBad (xs : List (Nat × Nat)) (p : Nat → Bool) : Option (Nat × Nat) :=
  let bad := xs.filter (fun x => p x.2)
  match bad with
  | [] => none
  | _ =>
    let m := maskOf (bad.map (fun x => x.1))
    let low := (maskBits 32 m).headD 0
    some (m, match bad.find? (fun x => x.1 == low) with
      | some x => x.2
      | none => 0)

/-- 0x0805 for every global address the instruction forms (R388). -/
def State.rangeFault (s : State) (core slot : Nat) (addrs : List (Nat × Nat)) : Option State :=
  match firstBad addrs (fun a => decide (2 ^ 57 ≤ a)) with
  | some (m, a) => some (s.preciseFault core slot 0x0805 m a (detailOf [(52, 8, a)]))
  | none => none

/-- 0x0404 for addresses that are no multiple of `n` (R189, R394). -/
def State.alignFault (s : State) (core slot n : Nat) (addrs : List (Nat × Nat)) : Option State :=
  match firstBad addrs (fun a => !(a % n == 0)) with
  | some (m, a) => some (s.preciseFault core slot 0x0404 m a (detailOf [(52, 1, n)]))
  | none => none

/-- 0x0405 for local accesses at or beyond LOCAL × 4 KiB (R387). -/
def State.localFault (s : State) (core slot limit size : Nat) (addrs : List (Nat × Nat)) : Option State :=
  match firstBad addrs (fun a => decide (limit < a + size)) with
  | some (m, a) => some (s.preciseFault core slot 0x0405 m a (detailOf [(52, 4, a)]))
  | none => none

/-! ### Local memory -/

/-- Cycles of the local memory unit (R190). -/
def bankCycles (addrs : List Nat) : Nat :=
  (List.range 16).foldl (fun m b => max m ((addrs.filter (fun a => a / 64 % 16 == b)).map (fun a => a / 1024)).eraseDups.length) 1

/-- The spans that the descriptors of a block's engines lock: a matrix descriptor's from its MXA on, since its operand reads see no later write
(R278, R280), a vector descriptor's from its copy on (R350). -/
def State.lockedSpans (s : State) (core : Nat) (b : TBlock) : List Span :=
  b.engs.flatMap (fun e => (s.engine core e).mq.flatMap Desc.mSpans ++ ((s.engine core e).vq.filter (fun d => d.accepted)).flatMap (fun d => d.vSpans b.localMem))

/-- The engines of a block whose matrix descriptors lock a span that a write touches. -/
def State.lockersOf (s : State) (core : Nat) (b : TBlock) (xs : List Span) : List Nat :=
  b.engs.filter (fun e => anyMeet xs ((s.engine core e).mq.flatMap Desc.mSpans))

/-- A local access: `wr`: it writes, so it waits for locks (R279); `atom` doubles the unit's cycles (R392); `f` acts for a lane at its
address on the local memory and the group. -/
def State.localOp (s0 : State) (core slot opc : Nat) (w0 : BitVec 64) (form : OpForm) (size : Nat) (atom wr : Bool)
    (f : TGroup → Nat → Nat → KV Byte × TGroup → KV Byte × TGroup) : State :=
  s0.issue core slot opc w0 form (fun s b g =>
    let addrs := (g.acting w0).map (fun l =>
      (l, if atom then g.reg l (fA w0)
          else (((g.reg l (fA w0) : Int) + (if fBI w0 then fImm16 w0 else (g.reg l (fB w0) : Int))) % 2 ^ 19).toNat))
    match s.alignFault core slot size addrs with
    | some t => t
    | none =>
      match s.localFault core slot (4096 * b.localUnits) size addrs with
      | some t => t
      | none =>
        if wr && anyMeet (addrs.map (fun x => ⟨x.2, size⟩)) (s.lockedSpans core b) then
          s0.setTgroup core slot (some { g with lockWait := s.lockersOf core b (addrs.map (fun x => ⟨x.2, size⟩)) })
        else
          let c := bankCycles (addrs.map (fun x => x.2)) * (if atom then 2 else 1)
          let s := s.bumpN (RF.TCW_BANKCONF_COUNT core) (if addrs.isEmpty then 0 else c - 1)
          let (mem, g') := addrs.foldl (fun acc x => f g x.1 x.2 acc) (b.localMem, g)
          (s.setTblock core g.blk (some { b with localMem := mem })).advance core slot 1 g')

/-- The bytes of an access by SZ, and the registers it takes. -/
def szBytes (w0 : BitVec 64) : Nat := 2 ^ fMod w0 48 46
def szRegs (w0 : BitVec 64) : Nat := if szBytes w0 < 4 then 1 else szBytes w0 / 4
def szBad (w0 : BitVec 64) : Bool := decide (5 ≤ fMod w0 48 46)

/-- A loaded value in its registers: sign copies fill a short one when SX = 1. -/
def loadExt (w0 : BitVec 64) (size v : Nat) : Nat :=
  if natBit w0.toNat 49 && decide (size < 4) then ofSigned 32 (toSigned (8 * size) v) else v

def plainRegs (w0 : BitVec 64) (dRegs aRegs : Nat) : List (Nat × Nat) :=
  (fD w0, dRegs) :: (fA w0, aRegs) :: (if fBI w0 then [] else [(fB w0, 1)])

/-- LDL: D := local memory. -/
def execLdl (core slot : Nat) (w0 _w1 : BitVec 64) (s : State) : Host.Outcome State Fault Refusal :=
  let n := szBytes w0
  .next (s.localOp core slot 0x50 w0 { imm := true, mods := [(49, 46)], bad := szBad w0, regs := plainRegs w0 (szRegs w0) 1, dst := 1 } n false false
    (fun _ l a acc => (acc.1, acc.2.wr l (fD w0) (loadExt w0 n (leNat (kvBytes acc.1 a n))) (szRegs w0))))

/-- STL: local memory := D. -/
def execStl (core slot : Nat) (w0 _w1 : BitVec 64) (s : State) : Host.Outcome State Fault Refusal :=
  let n := szBytes w0
  .next (s.localOp core slot 0x51 w0 { imm := true, mods := [(48, 46)], bad := szBad w0, regs := plainRegs w0 (szRegs w0) 1 } n false true
    (fun g l a acc => (hostWriteBytes acc.1 a (leBytes n (g.rd l (fD w0) (szRegs w0))), acc.2)))

def atyRegs (w0 : BitVec 64) : Nat := if fMod w0 51 50 = 2 then 2 else 1
def aopBad (w0 : BitVec 64) : Bool :=
  let aop := fMod w0 49 46
  decide (8 ≤ aop) || (decide (3 ≤ aop) && decide (aop ≤ 5) && fMod w0 51 50 == 3)

/-- ATOML (R390): lanes of one address in ascending order. -/
def execAtoml (core slot : Nat) (w0 _w1 : BitVec 64) (s : State) : Host.Outcome State Fault Refusal :=
  let k := atyRegs w0
  .next (s.localOp core slot 0x52 w0
    { mods := [(51, 46)], bad := aopBad w0, regs := [(fD w0, k), (fA w0, 1), (fB w0, k), (fC w0, k)], dst := 1 } (4 * k) true true
    (fun g l a acc =>
      let old := leNat (kvBytes acc.1 a (4 * k))
      let new := atomOp (fMod w0 49 46) (fMod w0 51 50) old (g.rd l (fB w0) k) (g.rd l (fC w0) k)
      (hostWriteBytes acc.1 a (leBytes (4 * k) new), acc.2.wr l (fD w0) old k)))

/-! ### The L1 data cache -/

def State.l1At (s : State) (key : Nat) : Option (List Byte) := kvGet (fun _ => none) s.tc.l1 key
def State.setL1 (s : State) (key : Nat) (x : Option (List Byte)) : State :=
  { s with tc := { s.tc with l1 := kvSet (fun _ => none) s.tc.l1 key x } }

/-- Every line of a core's L1 is invalidated (Table 4.6). -/
def State.clearL1 (s : State) (core : Nat) : State :=
  { s with tc := { s.tc with l1 := s.tc.l1.filter (fun p => !(p.1 % 512 == core)) } }

/-- The sector addresses that a run touches. -/
def sectorVas (va len : Nat) : List Nat :=
  if len = 0 then [] else (List.range ((va + len - 1) / 32 - va / 32 + 1)).map (fun i => (va / 32 + i) * 32)

/-- A store reaches L1: whole bytes update a present sector; a partial byte, an atomic or a reduction invalidates it (R182). -/
def State.l1Store (s : State) (core unit ctx : Nat) (l : AccLane) (whole : Bool) : State :=
  (sectorVas l.va l.size).foldl (fun s sv =>
    let k := l1Key core unit ctx sv
    match s.l1At k with
    | none => s
    | some bs =>
      if whole then
        s.setL1 k (some ((List.range 32).map (fun i =>
          if decide (l.va ≤ sv + i) && decide (sv + i < l.va + l.size) then l.data.getD (sv + i - l.va) 0 else bs.getD i 0)))
      else s.setL1 k none) s

/-- The bytes of a run in L1, when every sector of it is present. -/
def State.l1Run (s : State) (core unit ctx va len : Nat) : Option (List Byte) :=
  if (sectorVas va len).all (fun sv => (s.l1At (l1Key core unit ctx sv)).isSome) then
    some ((List.range len).map (fun i => match s.l1At (l1Key core unit ctx (va + i)) with
      | some bs => bs.getD ((va + i) % 32) 0
      | none => 0))
  else none

/-! ### Accesses in flight -/

/-- A range entry as an access whose translation has been decided sees it (R623). -/
def RangeEnt.held (r : RangeEnt) : RangeEnt := { r with state := 0, r := true, w := true }

/-- The access kind of Table 12.3. -/
def Acc.access (a : Acc) : Nat := if a.kind = 0 then 0 else if a.kind = 1 then 1 else 2

/-- Where an address of an access leads. -/
def State.accTarget (s : State) (a : Acc) (va : Nat) : Xl :=
  match s.rangeAt a.unit a.ctx va with
  | some r => r.held.target a.access va
  | none => .fail 0

/-- The accesses of a core's group issued before a number; `dead`: those of programs that have ended. -/
def State.groupAccs (s : State) (core slot before : Nat) (dead : Bool) : List Acc :=
  s.accs.filterMap (fun p => match p.2 with
    | some a => if a.tcore && a.core == core && a.slot == slot && a.dead == dead && decide (p.1 < before) then some a else none
    | none => none)

/-- Does a fence at a scope find every earlier access done (Table 4.6)? -/
def State.fenceMet (s : State) (core slot scope before : Nat) (dead : Bool) : Bool :=
  let as := s.groupAccs core slot before dead
  match scope with
  | 0 => true
  | 1 => as.all (fun a => a.kind == 1 && a.need.isEmpty)
  | 2 => as.all (fun a => a.need.isEmpty && a.lanes.all (fun l => !(s.accTarget a l.va).isDev))
  | _ => as.isEmpty

/-- A group that waits at a fence goes on when it is met. -/
def State.settleFence (s : State) (core slot : Nat) : State :=
  match s.tgroup core slot with
  | some g =>
    match g.wait with
    | .fence sc =>
      if s.fenceMet core slot sc s.nextAcc false then
        (if 2 ≤ sc then s.clearL1 core else s).advance core slot 1 { g with wait := .none }
      else s
    | _ => s
  | none => s

/-- Every translation of an access has been decided: it fails as a whole (R904), or goes on, its stores passing L1. -/
def State.accReady (s : State) (id : Nat) (a : Acc) : State :=
  if a.bad.isEmpty then
    if a.kind = 0 then s
    else a.lanes.foldl (fun s l => s.l1Store a.core a.unit a.ctx l (a.kind == 1 && l.mask.isEmpty)) s
  else
    let s := s.setAcc id none
    if a.dead then s else
    let isBad := fun (va : Nat) => a.bad.any (fun x => x.1 == va / 4096)
    match firstBad a.addrs isBad, s.tgroup a.core a.slot with
    | some (m, va), some g =>
      match s.tblock a.core g.blk, a.bad.find? (fun x => x.1 == va / 4096) with
      | some b, some x => s.tXltFault a.core a.slot b g x.2.1 a.access va m x.2.2 a.pc
      | _, _ => s
    | _, _ => s

/-- Look up each distinct 4 KiB block of an access in the core's range cache (Table 12.4). -/
def State.lookAcc (s : State) (q : Requester) (leaf : Nat) (a : Acc) : List Nat → State × Acc
  | [] => (s, a)
  | blk :: r =>
    let va := match a.addrs.find? (fun x => x.2 / 4096 == blk) with
      | some x => x.2
      | none => blk * 4096
    let (s, e) := s.rcLookup q a.unit a.ctx va
    match e with
    | none => (s.addMiss leaf q a.unit a.ctx va).lookAcc q leaf { a with need := a.need ++ [blk] } r
    | some e =>
      match e.target a.access va with
      | .fail k => s.lookAcc q leaf { a with bad := a.bad ++ [(blk, k, 0x20 + leaf)] } r
      | .wait => (s.addMiss leaf q a.unit a.ctx va).lookAcc q leaf { a with need := a.need ++ [blk] } r
      | _ => s.lookAcc q leaf a r

/-- Do two runs share a sector, or a byte? -/
def shareSector (a b : AccLane) : Bool :=
  decide (a.va / 32 ≤ (b.va + b.size - 1) / 32) && decide (b.va / 32 ≤ (a.va + a.size - 1) / 32)
def shareByte (a b : AccLane) : Bool := decide (a.va < b.va + b.size) && decide (b.va < a.va + a.size)

/-- Must a lane's part wait for an earlier one: R181 for a load or atomic behind a store of the core to its sector; program order of
one thread to one address (R178); and the lane order within an instruction (R389)? -/
def State.accWaits (s : State) (id : Nat) (a : Acc) (l : AccLane) : Bool :=
  s.accs.any (fun p => match p.2 with
    | some x =>
      x.tcore == a.tcore && x.core == a.core && x.unit == a.unit && x.ctx == a.ctx && decide (p.1 < id) && x.lanes.any (fun y =>
        !y.performed && ((x.kind == 1 && !(a.kind == 1) && shareSector y l) ||
          (x.slot == a.slot && y.lane % 32 == l.lane % 32 && shareByte y l)))
    | none => false)
  || (!(a.kind == 0) && a.lanes.any (fun y => !y.performed && decide (y.lane < l.lane) && shareByte y l))
  || (a.release && !s.fenceMet a.core a.slot a.scope id a.dead)

/-- Serve a load from L1 at issue, when it passes nothing that it must follow. R183 permits it at group and block scope; whether a sector once present
is still there is an implementation's replacement, a free value. -/
def State.tryL1 (s : State) (id : Nat) (a : Acc) : State × Acc :=
  if a.kind = 0 ∧ a.scope ≤ 1 ∧ a.need = [] ∧ a.bad = [] ∧ a.lanes.all (fun l => !s.accWaits id a l) then
    let (i, s) := s.nextFree
    let got := a.lanes.map (fun l => (l, s.l1Run a.core a.unit a.ctx l.va l.size))
    if Config.freeNat i % 2 = 0 && got.all (fun x => x.2.isSome && (s.accTarget a x.1.va).isDev) then
      (s, { a with lanes := got.map (fun x => { x.1 with data := x.2.getD [], performed := true }) })
    else (s, a)
  else (s, a)

/-- Cut a lane's run at granule bounds, so that each part leads to one target. -/
def AccLane.cut (l : AccLane) : List AccLane :=
  let n := 65536 - l.va % 65536
  if l.size ≤ n then [l]
  else [{ l with size := n, data := l.data.take n, mask := l.mask.take n },
        { l with va := l.va + n, size := l.size - n, data := l.data.drop n, mask := l.mask.drop n }]

/-- Issue an access: sectors are charged (R188), translation starts, and the group goes on past the instruction. -/
def State.issueAcc (s : State) (core slot words : Nat) (g : TGroup) (a : Acc) : State :=
  let s := s.bumpN (RF.TCW_SECTORS_COUNT core) (max 1 (a.lanes.flatMap (fun l => sectorVas l.va l.size)).eraseDups.length)
  if a.lanes.isEmpty then s.advance core slot words g
  else
    let id := s.nextAcc
    let s := { s with nextAcc := id + 1 }
    let wait : GWait := if a.acquire then .access else .none
    let s := s.advance core slot words { g.await id (a.lanes.map (fun l => l.lane % 32)).eraseDups a.dest with wait := wait }
    let addrs := a.lanes.flatMap (fun l => (blocksOf l.va l.size).map (fun va => (l.lane % 32, va)))
    let a := { a with lanes := a.lanes.flatMap AccLane.cut, addrs := addrs, issued := s.now }
    let (s, a) := s.lookAcc { kind := 1, id := core } (coreLeaf core) a (addrs.map (fun x => x.2 / 4096)).eraseDups
    let (s, a) := s.tryL1 id a
    let s := s.setAcc id (some a)
    if a.need.isEmpty then s.accReady id a else s

/-! ### Global loads, stores and atomics -/

/-- The fields every access of a group shares. -/
def TBlock.newAcc (b : TBlock) (core slot : Nat) (g : TGroup) (kind : Nat) (w0 w1 : BitVec 64) (lanes : List AccLane) : Acc :=
  { tcore := true, core := core, slot := slot, pc := g.pc, unit := b.unit, ctx := b.ctx, item := b.item, kind := kind,
    w0 := w0, w1 := w1, lanes := lanes }

/-- Pair A, plus B as a signed 32-bit value or IMM16. -/
def globalAddr (g : TGroup) (w0 : BitVec 64) (l : Nat) : Nat :=
  (((g.rd l (fA w0) 2 : Int) + (if fBI w0 then fImm16 w0 else toSigned 32 (g.reg l (fB w0)))) % 2 ^ 64).toNat

/-- The checks of a plain global access, then its issue. -/
def State.globalOp (s : State) (core slot size : Nat) (g : TGroup) (addrs : List (Nat × Nat)) (a : Acc) : State :=
  match s.rangeFault core slot addrs with
  | some t => t
  | none =>
    match s.alignFault core slot size addrs with
    | some t => t
    | none => s.issueAcc core slot 1 g a

def destOf (r n : Nat) : List Nat := ((List.range n).map (fun i => r + i)).filter (fun x => !(x == 255))

/-- LD: D := memory, L1 used by SCOPE. -/
def execLd (core slot : Nat) (w0 w1 : BitVec 64) (s : State) : Host.Outcome State Fault Refusal :=
  let n := szBytes w0
  .next (s.issue core slot 0x58 w0 { imm := true, mods := [(51, 46)], bad := szBad w0, regs := plainRegs w0 (szRegs w0) 2, dst := 1 } (fun s b g =>
    let addrs := (g.acting w0).map (fun l => (l, globalAddr g w0 l))
    let a := b.newAcc core slot g 0 w0 w1 (addrs.map (fun x => { lane := x.1, va := x.2, size := n }))
    s.globalOp core slot n g addrs { a with scope := fMod w0 51 50, dest := destOf (fD w0) (szRegs w0) }))

/-- ST: memory := D; SCOPE is 0. -/
def execSt (core slot : Nat) (w0 w1 : BitVec 64) (s : State) : Host.Outcome State Fault Refusal :=
  let n := szBytes w0
  .next (s.issue core slot 0x59 w0
    { imm := true, mods := [(48, 46), (51, 50)], bad := szBad w0 || !(fMod w0 51 50 == 0), regs := plainRegs w0 (szRegs w0) 2 } (fun s b g =>
    let addrs := (g.acting w0).map (fun l => (l, globalAddr g w0 l))
    s.globalOp core slot n g addrs (b.newAcc core slot g 1 w0 w1 (addrs.map (fun x =>
      { lane := x.1, va := x.2, size := n, data := leBytes n (g.rd x.1 (fD w0) (szRegs w0)) })))))

/-- Is an ATOM a reduction (R514)? -/
def atomReduces (w0 : BitVec 64) : Bool :=
  fD w0 == 255 && decide (fMod w0 49 46 ≤ 2) && !(fMod w0 51 50 == 2) && fMod w0 55 54 == 0

/-- ATOM (R390), with its scope and ordering (R184). -/
def execAtom (core slot : Nat) (w0 w1 : BitVec 64) (s : State) : Host.Outcome State Fault Refusal :=
  let k := atyRegs w0
  let ord := fMod w0 55 54
  .next (s.issue core slot 0x5A w0
    { mods := [(55, 46)], bad := aopBad w0, regs := [(fD w0, k), (fA w0, 2), (fB w0, k), (fC w0, k)], dst := 1 } (fun s b g =>
    let addrs := (g.acting w0).map (fun l => (l, g.rd l (fA w0) 2))
    let red := atomReduces w0
    let a := b.newAcc core slot g (if red then 3 else 2) w0 w1 (addrs.map (fun x =>
      { lane := x.1, va := x.2, size := 4 * k, data := leBytes (4 * k) (g.rd x.1 (fB w0) k), cmp := leBytes (4 * k) (g.rd x.1 (fC w0) k) }))
    s.globalOp core slot (4 * k) g addrs { a with
      aop := fMod w0 49 46, ty := fMod w0 51 50, scope := fMod w0 53 52
      acquire := natBit ord 0, release := natBit ord 1, dest := if red then [] else destOf (fD w0) k }))

/-! ### Converting loads and stores (R393 to R402) -/

/-- The bytes of an element (Table 8.10): offset from EB, and length. -/
def elemSpan (fmt e : Nat) : Nat × Nat :=
  if fmt = 11 then (8 * (e / 32), 8)
  else if codeBits fmt = 6 then (3 * (e / 4), 3)
  else if codeBits fmt = 4 then (e / 2, 1)
  else (e * (codeBits fmt / 8), codeBits fmt / 8)

/-- Bit offset of an element within its bytes. -/
def elemShift (fmt e : Nat) : Nat :=
  if codeBits fmt = 6 then 6 * (e % 4) else if codeBits fmt = 4 then 4 * (e % 2) else 0

/-- An element's bits from its bytes. -/
def elemBits (fmt e : Nat) (bs : List Byte) : Nat :=
  if fmt = 11 then t2Digit bs (e % 32) else natBits (leNat bs) (elemShift fmt e) (codeBits fmt)

/-- The alignment of EB (R394), and that of FP32 elements (R189). -/
def ebAlign (fmt : Nat) : Nat := if fmt = 11 then 8 else if fmt = 1 then 4 else if fmt = 2 ∨ fmt = 3 then 2 else 1

/-- The element index of a lane (R393). -/
def elemIndex (g : TGroup) (w0 w1 : BitVec 64) (l : Nat) : Nat := (g.reg l (fB w0) + fImm32 w1) % 2 ^ 32

/-- The code of Table 6.2 that DT and ST name: FP32, FP16, BF16, INT32. -/
def dtCode (dt : Nat) : Nat :=
  match dt with
  | 0 => 1
  | 1 => 3
  | 2 => 2
  | _ => 12

/-- Table 8.11. -/
def ldcOk (fmt sk dt : Nat) : Bool :=
  match fmt with
  | 4 => decide (sk ≤ 2) && decide (dt ≤ 2)
  | 5 => decide (sk ≤ 2) && decide (dt ≤ 2)
  | 6 => (sk == 1 || sk == 2) && decide (dt ≤ 2)
  | 7 => (sk == 1 || sk == 2) && decide (dt ≤ 2)
  | 8 => (sk == 1 || sk == 2) && decide (dt ≤ 2)
  | 9 => sk == 0 || (sk == 1 && decide (dt ≤ 2))
  | 10 => sk == 0 || (sk == 1 && decide (dt ≤ 2))
  | 11 => sk == 3 && decide (dt ≤ 2)
  | 3 => sk == 0 && (dt == 0 || dt == 2)
  | 2 => sk == 0 && (dt == 0 || dt == 1)
  | _ => false

/-- The first state among the faults of a converting access: range, then alignment. -/
def State.convFault (s : State) (core slot align : Nat) (forms ebs : List (Nat × Nat)) : Option State :=
  match s.rangeFault core slot forms with
  | some t => some t
  | none => s.alignFault core slot align ebs

/-- LDC: element e of each acting lane, decoded with its scale when its data returns. -/
def execLdc (core slot : Nat) (w0 w1 : BitVec 64) (s : State) : Host.Outcome State Fault Refusal :=
  let fmt := fMod w0 49 46
  let sk := fMod w0 51 50
  let scaled := sk == 1 || sk == 2
  .next (s.issue core slot 0x5B w0
    { words := 2, mods := [(59, 46)], bad := !ldcOk fmt sk (fMod w0 53 52) || !(fExt w1 == 0),
      regs := [(fD w0, 1), (fA w0, 2), (fB w0, 1), (fC w0, 2)], dst := 1 } (fun s b g =>
    let ls := g.acting w0
    let ebs := ls.map (fun l => (l, g.rd l (fA w0) 2))
    let sbs := if scaled then ls.map (fun l => (l, g.rd l (fC w0) 2)) else []
    let elems := ls.map (fun l => (l, g.rd l (fA w0) 2 + (elemSpan fmt (elemIndex g w0 w1 l)).1))
    let scales := if scaled then ls.map (fun l => (l, g.rd l (fC w0) 2 + elemIndex g w0 w1 l / blockLen sk)) else []
    let ends := ls.map (fun l => let x := elemSpan fmt (elemIndex g w0 w1 l); (l, g.rd l (fA w0) 2 + x.1 + x.2 - 1))
    match s.convFault core slot (ebAlign fmt) (ebs ++ sbs ++ elems ++ ends ++ scales) ebs with
    | some t => t
    | none =>
      let lanes : List AccLane := elems.map (fun x => { lane := x.1, va := x.2, size := (elemSpan fmt (elemIndex g w0 w1 x.1)).2 })
      let more : List AccLane := scales.map (fun x => { lane := 32 + x.1, va := x.2, size := 1 })
      let a := b.newAcc core slot g 0 w0 w1 (lanes ++ more)
      -- element e and the mode travel with the access: B may change before the data returns
      let es := ls.foldl (fun (m : KV Nat) l => kvSet (fun _ => 0) m l (elemIndex g w0 w1 l)) []
      s.issueAcc core slot 2 g { a with scope := fMod w0 58 57, dest := destOf (fD w0) 1, elems := es }))

/-- The value of D of a lane by ST. -/
def stcValue (w0 : BitVec 64) (x : Nat) : FVal :=
  match fMod w0 53 52 with
  | 0 => fp32.decode x
  | 1 => fp16.decode (x % 65536)
  | 2 => bf16.decode (x % 65536)
  | _ => elemValue 12 x

/-- STC with SK = 0: each acting lane's element alone (R399). -/
def State.stcPlain (s : State) (core slot : Nat) (w0 w1 : BitVec 64) (b : TBlock) (g : TGroup) : State :=
  let fmt := fMod w0 49 46
  let ls := g.acting w0
  let ebs := ls.map (fun l => (l, g.rd l (fA w0) 2))
  let elems := ls.map (fun l => (l, g.rd l (fA w0) 2 + (elemSpan fmt (elemIndex g w0 w1 l)).1))
  let ends := ls.map (fun l => let x := elemSpan fmt (elemIndex g w0 w1 l); (l, g.rd l (fA w0) 2 + x.1 + x.2 - 1))
  match s.convFault core slot (ebAlign fmt) (ebs ++ elems ++ ends) ebs with
  | some t => t
  | none =>
    let m : FMode := { rnd := fMod w0 55 54, strict := b.strict || natBit w0.toNat 58 }
    let res := fun (l : Nat) => toElem m (natBit w0.toNat 56) fmt (stcValue w0 (g.reg l (fD w0)))
    let g' := ls.foldl (fun h l => h.setFlags l (res l).flags) g
    let lanes : List AccLane := elems.map (fun x =>
      let n := (elemSpan fmt (elemIndex g w0 w1 x.1)).2
      let sh := elemShift fmt (elemIndex g w0 w1 x.1)
      { lane := x.1, va := x.2, size := n, data := leBytes n ((res x.1).bits * 2 ^ sh),
        mask := if codeBits fmt < 8 then leBytes n ((2 ^ codeBits fmt - 1) * 2 ^ sh) else [] })
    s.issueAcc core slot 2 g' (b.newAcc core slot g 1 w0 w1 lanes)

/-- The value a lane gives to a block (R400, R230): an INT32 is rounded to nearest FP32 first. -/
def stcBlockValue (g : TGroup) (w0 : BitVec 64) (ls : List Nat) (l : Nat) : FVal :=
  if ls.contains l then
    let v := stcValue w0 (g.reg l (fD w0))
    if fMod w0 53 52 = 3 then fp32.decode (fp32.convert {} false v).bits else v
  else .fin false 0 0

/-- The flags of a lane's value on its way into a block, in strict mode (R254): those of an INT32's rounding, and of its element's. -/
def stcBlockFlags (g : TGroup) (w0 : BitVec 64) (l fl : Nat) : Nat :=
  if fMod w0 53 52 = 3 then Nat.lor fl (fp32.convert { strict := true } false (stcValue w0 (g.reg l (fD w0)))).flags else fl

/-- STC with SK not 0: one MX or T2 block, or two fine-scale blocks, from the index of the lowest acting lane (R400, R401). -/
def State.stcBlocks (s : State) (core slot : Nat) (w0 w1 : BitVec 64) (b : TBlock) (g : TGroup) : State :=
  let fmt := fMod w0 49 46
  let sk := fMod w0 51 50
  let ls := g.acting w0
  match ls.head? with
  | none => s.issueAcc core slot 2 g (b.newAcc core slot g 1 w0 w1 [])
  | some l0 =>
    let per := blockLen sk
    let e0 := elemIndex g w0 w1 l0
    let eb := g.rd l0 (fA w0) 2
    let sb := g.rd l0 (fC w0) 2
    let va := eb + (elemSpan fmt e0).1
    let n := if fmt = 11 then 8 else 4 * codeBits fmt
    let sva := sb + e0 / per
    let forms := [(l0, eb), (l0, va), (l0, va + n - 1)] ++ (if sk = 3 then [] else [(l0, sb), (l0, sva), (l0, sva + 32 / per - 1)])
    match s.convFault core slot (ebAlign fmt) forms [(l0, eb)] with
    | some t => t
    | none =>
      if !(e0 % per == 0) then s.preciseFault core slot 0x0404 (maskOf ls) eb (detailOf [(52, 1, per)])
      else
        let vs := (List.range 32).map (stcBlockValue g w0 ls)
        let blocks := (chunksOf per 32 vs).map (quantise fmt sk (fMod w0 57 57) (fMod w0 55 54))
        let codes := blocks.flatMap (fun x => x.2)
        let scales : List Byte := blocks.map (fun x => BitVec.ofNat 8 x.1)
        let data := if fmt = 11 then t2Block codes (match blocks with
          | x :: _ => x.1
          | [] => 0) else packCodes (codeBits fmt) codes
        let lanes : List AccLane := { lane := l0, va := va, size := n, data := data } ::
          (if sk = 3 then [] else [{ lane := l0, va := sva, size := scales.length, data := scales }])
        let fls := (chunksOf per 32 vs).flatMap (quantiseFlags fmt sk (fMod w0 57 57) (fMod w0 55 54))
        let g := if b.strict || natBit w0.toNat 58 then ls.foldl (fun h l => h.setFlags l (stcBlockFlags g w0 l (fls.getD l 0))) g else g
        s.issueAcc core slot 2 g (b.newAcc core slot g 1 w0 w1 lanes)

/-- STC (R398): FP64, the integers of 32 bits and combinations that Table 5.3 does not permit are undefined. -/
def execStc (core slot : Nat) (w0 w1 : BitVec 64) (s : State) : Host.Outcome State Fault Refusal :=
  let fmt := fMod w0 49 46
  let sk := fMod w0 51 50
  .next (s.issue core slot 0x5C w0
    { words := 2, mods := [(58, 46)], bad := fmt == 0 || !blockOk fmt sk || !(fExt w1 == 0),
      regs := [(fD w0, 1), (fA w0, 2), (fB w0, 1), (fC w0, 2)] } (fun s b g =>
    if sk = 0 then s.stcPlain core slot w0 w1 b g else s.stcBlocks core slot w0 w1 b g))

/-! ### At the home (R178 to R184, R497) -/

/-- The writes of the core to a sector that have passed L1 and are still on their way to the home: each with whether it is a plain store. -/
def State.sectorWrites (s : State) (id : Nat) (a : Acc) (sv : Nat) : List (AccLane × Bool) :=
  s.accs.flatMap (fun p => match p.2 with
    | some x =>
      if x.tcore && x.core == a.core && x.unit == a.unit && x.ctx == a.ctx && !(x.kind == 0) && x.need.isEmpty && !(p.1 == id) then
        (x.lanes.filter (fun y => !y.performed && shareSector y { lane := 0, va := sv, size := 32 })).map
          (fun y => (y, x.kind == 1 && y.mask.isEmpty))
      else []
    | none => [])

/-- Fill or refresh L1 from a home read (R183). Bytes that a store of the core on its way has written stay in a present sector, and no sector is
filled that a write on its way touches. -/
def State.l1Fill (s : State) (id : Nat) (a : Acc) (va : Nat) (line : List Byte) (mask : Nat) : State :=
  (maskBits 4 mask).foldl (fun s i =>
    let sv := va / 128 * 128 + 32 * i
    let k := l1Key a.core a.unit a.ctx sv
    let ws := s.sectorWrites id a sv
    match s.l1At k with
    | none => if ws.isEmpty && decide (a.scope ≤ 1) then s.setL1 k (some ((line.drop (32 * i)).take 32)) else s
    | some old =>
      if ws.all (fun w => w.2) then
        s.setL1 k (some ((List.range 32).map (fun j =>
          if ws.any (fun w => shareByte w.1 { lane := 0, va := sv + j, size := 1 }) then old.getD j 0 else line.getD (32 * i + j) 0)))
      else s) s

/-- Read a run at the home for a core, filling L1. -/
def State.homeLoad (s : State) (id : Nat) (a : Acc) (c : HomeCtl) : List (Nat × Nat × Nat × Nat) → State × List Byte × Bool
  | [] => (s, [], false)
  | (gr, line, off, len) :: r =>
    let m := sectorsOf off len
    let (s, data, bad) := s.lineRead (granKey a.unit a.ctx gr) line m c
    let s := if bad then s else s.l1Fill id a (gr * 65536 + line * 128) data m
    let (s, rest, bad') := s.homeLoad id a c r
    (s, (data.drop off).take len ++ rest, bad || bad')

/-- The reductions accepted at the home slice of a die (R516). -/
def State.redsAt (s : State) (d : Nat) : Nat := (s.mem.reds.filter (fun r => r.loc.die == d)).length

/-- A host atomic that PCIe carries (R391). -/
def hostAtomOk (aop ty : Nat) : Bool := (aop == 0 && (ty == 0 || ty == 2)) || aop == 6 || aop == 7

/-- Merge a partial byte write: the bits under the mask are the new ones. -/
def mergeBits (old new mask : Nat) : Nat := Nat.lor (old - Nat.land old mask) (Nat.land new mask)

/-- The leaf of the core that makes an access. -/
def Acc.leaf (a : Acc) : Nat := if a.tcore then coreLeaf a.core else a.core / 64

/-- Perform one lane's part: at the home in device memory, or as a request to the host or to a remote device. `none`: it waits. -/
def State.performLane (s : State) (id : Nat) (a : Acc) (l : AccLane) : Option (State × AccLane) :=
  let gk := granKey a.unit a.ctx (l.va / 65536)
  let line := l.va % 65536 / 128
  match s.accTarget a l.va with
  | .dev r =>
    let c := r.ctl (if a.tcore then r.cls else 5) l.va
    let ps := pieces l.va l.size
    if s.piecesWait a.unit a.ctx (!(a.kind == 0)) ps then none
    else
      match a.kind with
      | 0 =>
        let (s, bs, bad) := s.homeLoad id a c ps
        some (s, { l with data := bs, poison := bad, performed := true })
      | 1 =>
        if l.mask.isEmpty then some (s.runWrite a.unit a.ctx c ps l.data, { l with performed := true })
        else
          let t := ps.foldl (fun (acc : State × Nat) p =>
            let v := leNat ((l.data.drop acc.2).take p.2.2.2)
            let m := leNat ((l.mask.drop acc.2).take p.2.2.2)
            ((acc.1.lineAtomic (granKey a.unit a.ctx p.1) p.2.1 p.2.2.1 p.2.2.2 (fun old => mergeBits old v m) c).1, acc.2 + p.2.2.2)) (s, 0)
          some (t.1, { l with performed := true })
      | 2 =>
        let (s, old, bad) := s.lineAtomic gk line (l.va % 128) l.size (fun old => atomOp a.aop a.ty old (leNat l.data) (leNat l.cmp)) c
        some (s, { l with data := leBytes l.size old, poison := bad, performed := true })
      | _ =>
        match s.deadHome gk line, s.gran gk with
        | none, some g =>
          let loc := g.lineLoc line
          if s.redsAt loc.die < 256 then
            let s := s.recallWrite (lineId gk line)
            some ({ s with mem := { s.mem with
              reds := s.mem.reds ++ [{ loc := loc, line := line, off := l.va % 128, aop := a.aop, ty := a.ty, val := leNat l.data, ctl := { c with atomic := true } }] } },
              { l with performed := true })
          else none
        | some leaf, _ => some (s.bump (RF.COH_L_POISONED_COUNT leaf), { l with performed := true })
        | none, none => some (s, { l with performed := true })
  | .host _ bus =>
    match a.kind with
    | 0 => some (s, { l with remote := true })
    | 1 => if l.mask.isEmpty then some (s.hostWrite bus l.data, { l with performed := true }) else some (s, { l with remote := true })
    | _ =>
      if hostAtomOk a.aop a.ty then some (s, { l with remote := true })
      else some (s, { l with performed := true, err := some (0x0804, detailOf [(52, 1, a.aop), (53, 1, a.ty)]) })
  | .win r off =>
    let q : RemReq := { who := .acc id l.lane, leaf := a.leaf, peer := r.peer
                        op := if !l.mask.isEmpty then 0 else if a.kind = 3 ∧ a.ty = 0 ∧ a.aop ≠ 0 then 2 else a.kind, window := r.window, off := off,
                        size := l.size, data := if a.kind = 0 || !l.mask.isEmpty then [] else l.data, cmp := l.cmp, aop := a.aop, ty := a.ty }
    some ({ s with ptl := { s.ptl with reqs := s.ptl.reqs ++ [q] } }, { l with remote := true })
  | _ => none

/-- Replace a lane's part. -/
def Acc.setLane (a : Acc) (old new : AccLane) : Acc := { a with lanes := a.lanes.map (fun x => if x = old then new else x) }

/-- Perform several parts as one operation (R402). -/
def State.performAll (s : State) (id : Nat) (a : Acc) : List AccLane → Option (State × Acc)
  | [] => some (s, a)
  | l :: r =>
    match s.performLane id a l with
    | some (s, l') => s.performAll id (a.setLane l l') r
    | none => none

/-- Does an access write a block with its scales in one operation? -/
def Acc.isBlockStore (a : Acc) : Bool := a.tcore && opcOf a.w0 == 0x5C && !(fMod a.w0 51 50 == 0)

/-- The parts that are performed with a part as one operation: a block store's are all one, and an LDC's element and scale are (R402). -/
def Acc.together (a : Acc) (l : AccLane) : List AccLane :=
  if a.isBlockStore then a.lanes
  else if a.tcore && opcOf a.w0 == 0x5B then a.lanes.filter (fun x => x.lane % 32 == l.lane % 32 && !x.performed && !x.remote)
  else [l]

/-- What the arrays of the home vault report when a part reaches them (R550). -/
def State.homeErr (s : State) (a : Acc) (l : AccLane) (err : Nat) : State :=
  match s.accTarget a l.va, s.gran (granKey a.unit a.ctx (l.va / 65536)) with
  | .dev _, some g => s.vaultErr g (l.va % 65536 / 128) (l.va % 128) l.va err
  | _, _ => s

/-- A part that waits for the hold of its line (R571). -/
def State.noteLane (s : State) (a : Acc) (l : AccLane) : State :=
  if (s.accTarget a l.va).isDev then s.noteWaits a.unit a.ctx (!(a.kind == 0)) (pieces l.va l.size) else s

/-- HOME_ACCESS: a lane's part of an access reaches its home. A V-core's accesses to device memory other than reductions go through its L2. `err` is
what the home vault's arrays report. -/
def execHomeAccess (acc lane err : Nat) (s : State) : Host.Outcome State Fault Refusal :=
  match s.acc acc with
  | some a =>
    if !a.tcore ∧ a.kind ≠ 3 then .next s else
    match a.lanes.find? (fun l => l.lane == lane && !l.performed && !l.remote) with
    | some l =>
      let ls := a.together l
      if !a.need.isEmpty || !s.alive || ls.any (s.accWaits acc a) then .next s
      else match (s.homeErr a l err).performAll acc a ls with
        | some (t, a') => .next (t.setAcc acc (some a'))
        | none => .next (ls.foldl (fun s l => s.noteLane a l) s)
    | none => .next s
  | none => .next s

/-! ### Return to the core -/

/-- Deliver the data of the access numbered `id` to the registers of a lane. -/
def Acc.deliver (a : Acc) (id : Nat) (b : TBlock) (g : TGroup) (l : AccLane) : TGroup :=
  if 32 ≤ l.lane then g
  else match opcOf a.w0 with
    | 0x58 => g.land id l.lane (fD a.w0) (loadExt a.w0 l.size (leNat l.data)) (szRegs a.w0)
    | 0x5A => g.land id l.lane (fD a.w0) (leNat l.data) (atyRegs a.w0)
    | _ =>
      let fmt := fMod a.w0 49 46
      let sk := fMod a.w0 51 50
      let parts := (a.lanes.filter (fun x => x.lane == l.lane)).flatMap (fun x => x.data)
      let e := kvGet (fun _ => 0) a.elems l.lane
      let scale := if sk = 3 then (parts.getD 7 0).toNat else match a.lanes.find? (fun x => x.lane == 32 + l.lane) with
        | some x => leNat x.data
        | none => 0
      let m : FMode := { rnd := fMod a.w0 55 54, strict := b.strict || natBit a.w0.toNat 59 }
      let r := toElem m (natBit a.w0.toNat 56) (dtCode (fMod a.w0 53 52)) (decodeScaled fmt sk (elemBits fmt e parts) scale)
      (g.land id l.lane (fD a.w0) r.bits 1).setFlags l.lane r.flags

/-- How a part has failed: a code and its DETAIL. -/
def AccLane.failure (l : AccLane) : Option (Nat × List Byte) := match l.err with
  | some e => some e
  | none => if l.poison then some (0x0409, []) else none

/-- The failed part of the lowest lane (R206), its element before its scale. -/
def Acc.failed (a : Acc) : Option AccLane :=
  (List.range 64).findSome? (fun i => a.lanes.find? (fun l => l.lane == i / 2 + 32 * (i % 2) && l.failure.isSome))

/-- An access ends: its failure is reported, or its data delivered; the group's waits on it end. -/
def State.finishAcc (s : State) (id : Nat) (a : Acc) : State :=
  if !a.tcore then s.finishVacc id a else
  let s := s.setAcc id none
  if a.dead then s else
  match s.tgroup a.core a.slot with
  | none => s
  | some g =>
    match s.tblock a.core g.blk with
    | none => s
    | some b =>
      match a.failed with
      | some l =>
        let (code, d) := l.failure.getD (0, [])
        let m := maskOf ((a.lanes.filter (fun x => x.failure.any (fun e => e.1 == code))).map (fun x => x.lane % 32))
        s.tfault a.core a.slot { code := code, pc := a.pc, lanes := m, addr := l.va, detail := d }
      | none =>
        let g := if a.kind = 0 ∨ a.kind = 2 then a.lanes.foldl (fun g l => a.deliver id b g l) g else g
        let g := { g with
          pend := g.pend.filter (fun p => !(p.2.2 == id))
          wait := if a.acquire && g.wait == GWait.access then .none else g.wait }
        let s := s.setTgroup a.core a.slot (some g)
        (if a.acquire && decide (2 ≤ a.scope) then s.clearL1 a.core else s).settleFence a.core a.slot

/-- Complete an access whose every part has been performed. -/
def State.tryFinish (s : State) (id : Nat) : State :=
  match s.acc id with
  | some a => if a.lanes.all (fun l => l.performed) then s.finishAcc id a else s
  | none => s

/-- The parts of an access that await the host. -/
def State.hostParts (s : State) (a : Acc) : List AccLane :=
  a.lanes.filter (fun l => l.remote && !l.performed && (match s.accTarget a l.va with
    | .host _ _ => true
    | _ => false))

/-- How a host completion ends (R906): 0 well, 1 UR, 2 CA, 3 poisoned, 4 timed out. A store reports no error. -/
def AccLane.hostEnd (l : AccLane) (kind err : Nat) (bs : List Byte) : AccLane :=
  if kind = 1 then { l with performed := true }
  else if err = 1 ∨ err = 2 ∨ err = 4 then { l with performed := true, err := some (0x0806, detailOf [(52, 1, err - 1)]) }
  else { l with performed := true, poison := err == 3, data := bs }

/-- What a partial byte write makes of the old bytes. -/
def AccLane.merged (l : AccLane) (old : List Byte) : List Byte := leBytes l.size (mergeBits (leNat old) (leNat l.data) (leNat l.mask))

/-- Host data reaches the waiting parts, in lane order; a host atomic leaves its new value in host memory, a partial byte write its
merged byte. -/
def State.hostData (s : State) (id : Nat) (a : Acc) (err : Nat) : List AccLane → List Byte → State
  | [], _ => s.setAcc id (some a)
  | l :: r, data =>
    let bs := data.take l.size
    let s := if (a.kind == 2 || a.kind == 3) && err == 0 then (match s.accTarget a l.va with
      | .host _ bus => s.hostWrite bus (leBytes l.size (atomOp a.aop a.ty (leNat bs) (leNat l.data) (leNat l.cmp)))
      | _ => s)
      else if a.kind = 1 && err == 0 then (match s.accTarget a l.va with
      | .host _ bus => s.hostWrite bus (l.merged bs)
      | _ => s) else s
    s.hostData id (a.setLane l (l.hostEnd a.kind err bs)) err r (data.drop l.size)

/-- LOAD_DATA_RETURN: the data of an access returns; `data` and `err` are what the host sent to the parts that went there. -/
def execLoadDataReturn (acc : Nat) (data : List Byte) (err : Nat) (s : State) : Host.Outcome State Fault Refusal :=
  match s.acc acc with
  | some a =>
    let hs := s.hostParts a
    if a.kind = 1 ∧ hs = [] then .next s
    else
      let n := hs.foldl (fun m l => m + l.size) 0
      if hs.isEmpty || (decide (err ≤ 3) && (data.length == n || err == 1 || err == 2)) then
        let s := if hs.isEmpty then s
          else (s.bump64 RF.HIF_H2D_BYTES_COUNT_LO RF.HIF_H2D_BYTES_COUNT_HI data.length).hostData acc a err hs data
        .next (if a.kind = 1 then s else s.tryFinish acc)
      else .next s
  | none => .next s

/-- STORE_ACK: the home acknowledges a store, or an atomic that returns nothing. -/
def execStoreAck (acc : Nat) (s : State) : Host.Outcome State Fault Refusal :=
  match s.acc acc with
  | some a => if a.kind = 0 then .next s else .next (s.tryFinish acc)
  | none => .next s

end Sys2Proof.Machine
end

