-- ==== Sys2Proof/Machine/TEngine.lean ====
section
/-! DEFINITION. The engines of a T-core: the instructions that hand them descriptors and act on accumulation groups (R403 to R406), the
order of the operations on a group (R266), and what the matrix and vector engines do with a descriptor (R273 to R301, R322 to R358). -/

namespace Sys2Proof.Machine

/-! ### The order of the operations on a group -/

/-- Has an engine raised a fault in this cycle? It does nothing more (R276). -/
def State.engFaulted (s : State) (core eng : Nat) : Bool := s.tc.faults.any (fun f => f.rec_.srcKind == 2 && f.rec_.srcId == 4 * core + eng)

/-- The block whose engine a physical engine is, while it has raised no fault. -/
def State.engBlock (s : State) (core eng : Nat) : Option TBlock :=
  if s.engFaulted core eng then none else ((s.coreBlocks core).find? (fun x => x.2.engs.contains eng)).map (fun x => x.2)

/-- The number of the next operation on the engines of a block. -/
def State.nextIssue (s : State) (core : Nat) (b : TBlock) : Nat := b.engs.foldl (fun n e => max n (s.engine core e).issue) 0

def Engine.grp (e : Engine) (g : Nat) : AccGroup := kvGet (fun _ => {}) e.acc g
def Engine.setGrp (e : Engine) (g : Nat) (x : AccGroup) : Engine := { e with acc := kvSet (fun _ => {}) e.acc g x }

/-- The effective mode of a matrix descriptor, and of a vector descriptor, in a block. -/
def Desc.mmode (d : Desc) (b : TBlock) : Bool × Nat := effMode (d.b 0 4) (d.f 0 6 5) b.strict b.rnd
def Desc.vmode (d : Desc) (b : TBlock) : Bool × Nat := effMode (d.b 0 2) (d.f 0 4 3) b.strict b.rnd

def Desc.vNames (d : Desc) (b : TBlock) (g : Nat) : Bool := d.sgrp == g && d.namesGrp (d.vmode b).1

/-- Earlier operations on a group that have not ended, by kind of operation. -/
def Engine.mBefore (e : Engine) (g issue : Nat) : Bool := e.mq.any (fun d => d.grp == g && decide (d.issue < issue))
def Engine.vBefore (e : Engine) (b : TBlock) (g issue : Nat) : Bool := e.vq.any (fun d => d.vNames b g && decide (d.issue < issue))
def Engine.opBefore (e : Engine) (g issue : Nat) : Bool := e.ops.any (fun o => o.grp == g && decide (o.issue < issue))

/-- Is a span written by a vector operation, or read by a matrix descriptor, that was issued before a place on any engine of the block (R279, R280,
R350)? -/
def State.vWritesBefore (s : State) (core : Nat) (b : TBlock) (issue : Nat) (xs : List Span) : Bool :=
  b.engs.any (fun e => (s.engine core e).vq.any (fun v => decide (v.issue < issue) && anyMeet xs v.vWrites))
def State.mReadsBefore (s : State) (core : Nat) (b : TBlock) (issue : Nat) (xs : List Span) : Bool :=
  b.engs.any (fun e => (s.engine core e).mq.any (fun d => decide (d.issue < issue) && anyMeet d.mSpans xs))

/-- Is a vector descriptor held back under R349: by an earlier operation on the group it names (R266), or by one of its engine that writes what it
reads? -/
def Engine.vHeld (e : Engine) (b : TBlock) (d : Desc) : Bool :=
  (d.namesGrp (d.vmode b).1 && (e.mBefore d.sgrp d.issue || e.opBefore d.sgrp d.issue))
    || e.vq.any (fun x => decide (x.issue < d.issue) && anyMeet x.vWrites (d.vReads b.localMem ++ d.vBoth))

/-- The descriptor whose units are being summed: the oldest with units left. -/
def Engine.current (e : Engine) (b : TBlock) : Option Desc := e.mq.find? (fun d => decide (d.next < d.units (d.mmode b).1))

def insertBy (x : Nat × AccGroup) : List (Nat × AccGroup) → List (Nat × AccGroup)
  | [] => [x]
  | y :: r => if x.1 ≤ y.1 then x :: y :: r else y :: insertBy x r

/-- A group as the operations issued before a place leave it: the last one that opens or frees it decides. -/
def Engine.viewAt (e : Engine) (b : TBlock) (g issue : Nat) : AccGroup :=
  let evs := (e.mq.filterMap (fun d => if d.grp = g ∧ d.init ∧ !d.opened ∧ d.issue < issue then
      some (d.issue, d.opens (d.mmode b).1 (d.mmode b).2) else none))
    ++ (e.vq.filterMap (fun d => if d.sgrp = g ∧ d.rel ∧ d.issue < issue then some (d.issue, ({} : AccGroup)) else none))
    ++ (e.ops.filterMap (fun o => if o.grp = g ∧ o.kind = 0 ∧ o.issue < issue then some (o.issue, ({} : AccGroup)) else none))
  match (evs.foldr insertBy []).getLast? with
  | some x => x.2
  | none => e.grp g

/-! ### Registers -/

/-- Replace a field's bits in a word being built. -/
def putField (v : Nat) (f : RegField) (x : Nat) : Nat := natSetBits v f.lo (f.hi - f.lo + 1) x

/-- MXE_STAT, MXE_SCALE and VXE_STAT follow the engine (Tables 6.13, 7.12): operands stream for a started descriptor with units left, unless the
engine has stopped for a preemption. -/
def State.syncEngine (s : State) (core eng : Nat) : State :=
  let e := s.engine core eng
  let opens := maskOf ((List.range 4).filter (fun g => (e.grp g).isOpen))
  let blk := ((s.coreBlocks core).find? (fun x => x.2.engs.contains eng)).map (fun x => x.2)
  let run := blk.bind (fun b => (e.current b).bind (fun d => if d.started && (!b.stopped || e.finishing) then some d else none))
  let st := putField (putField (putField (putField 0 (RF.MXE_STAT_OPEN core eng) opens) (RF.MXE_STAT_QUEUED core eng)
      (e.mq.filter (fun d => d.accepted)).length)
    (RF.MXE_STAT_REPLAYING core eng) (match run with
      | some d => if 0 < d.replays then 1 else 0
      | none => 0)) (RF.MXE_STAT_BUSY core eng) (if run.isSome then 1 else 0)
  let sc := (List.range 4).foldl (fun a g => a + ofSigned 8 (e.grp g).sigma * 256 ^ g) 0
  let vb := e.vq.any (fun d => d.started)
  let vw := match blk, e.vq.find? (fun d => !d.started) with
    | some b, some d => d.accepted && e.vHeld b d
    | _, _ => false
  let vs := putField (putField (putField 0 (RF.VXE_STAT_QUEUED core eng) (e.vq.filter (fun d => d.accepted)).length) (RF.VXE_STAT_WAITING core eng) (if vw then 1 else 0))
    (RF.VXE_STAT_BUSY core eng) (if vb then 1 else 0)
  ((s.setReg (RA.MXE_STAT core eng) (BitVec.ofNat 32 st)).setReg (RA.MXE_SCALE core eng) (BitVec.ofNat 32 sc)).setReg
    (RA.VXE_STAT core eng) (BitVec.ofNat 32 vs)

/-! ### WAITQ -/

/-- Does the condition of a WAITQ hold in a block (R404)? -/
def State.waitqMet (s : State) (core : Nat) (b : TBlock) (w0 : BitVec 64) : Bool :=
  if natBit w0.toNat 54 then b.engs.all (fun e => (s.engine core e).mq.isEmpty && (s.engine core e).vq.isEmpty)
  else match b.engs[fMod w0 47 46]? with
    | some e =>
      let q := if natBit w0.toNat 50 then (s.engine core e).vq else (s.engine core e).mq
      decide (q.length ≤ fMod w0 53 51)
    | none => true

/-- The groups of a block whose WAITQ is met go on. -/
def State.settleWaitq (s : State) (core : Nat) (b : TBlock) : State :=
  if b.stopped then s
  else b.slots.foldl (fun s sl => match s.tgroup core sl with
    | some g =>
      match g.wait with
      | .waitq w0 => if s.waitqMet core b w0 then s.setTgroup core sl (some { g with wait := .none, pc := (g.pc + 8) % 2 ^ 57 }) else s
      | _ => s
    | none => s) s

/-! ### What an engine does of itself -/

/-- Bits [31:0] of a group's state word (Table 6.1). -/
def AccGroup.word (g : AccGroup) : Nat :=
  (if g.isOpen then 1 else 0) + (if g.wide then 2 else 0) + (if g.strict then 4 else 0) + (if g.intCell then 8 else 0) + 16 * (g.rnd % 4)
    + (if g.isat then 128 else 0) + 256 * (g.flags % 32) + 2 ^ 16 * (g.cls % 8) + 2 ^ 24 * ofSigned 8 g.sigma

/-- The bits of a group's state word that Table 6.1 gives a field, but for OPEN. -/
def grpWordMask : Nat := 0xFF071FBE

/-- Carry out an accumulator instruction in its turn. The fields of a free group are free values but for OPEN. -/
def State.doAccOp (s : State) (core eng : Nat) (o : AccOp) : State :=
  let e := s.engine core eng
  let e := { e with ops := e.ops.erase o }
  let g := e.grp o.grp
  match o.kind with
  | 0 => s.setEngine core eng (e.setGrp o.grp {})
  | 1 => s.setEngine core eng (e.setGrp o.grp { g with flags := 0 })
  | _ =>
    let (i, s) := if g.isOpen then (0, s) else s.nextFree
    let v := if g.isOpen then g.word else Nat.land (Config.freeNat i) grpWordMask
    let s := s.setEngine core eng e
    match s.tgroup core o.slot with
    | some t =>
      s.setTgroup core o.slot (some ((maskBits 32 o.lanes).foldl (fun t l => t.land o.tag l o.dest v 1) t))
    | none => s

/-- May a matrix descriptor start its first operand cycle (R266, R283, R350)? -/
def State.mReady (s : State) (core : Nat) (e : Engine) (b : TBlock) (d : Desc) : Bool :=
  d.accepted && (d.opened || !d.init) && !e.vBefore b d.grp d.issue && !e.opBefore d.grp d.issue && !s.vWritesBefore core b d.issue d.mSpans

/-- Replace a descriptor in a queue, by its place in the order. -/
def putDesc (q : List Desc) (d : Desc) : List Desc := q.map (fun x => if x.issue = d.issue then d else x)

/-- Open groups, carry out accumulator instructions and start the current descriptor, each as soon as its turn comes. -/
def State.settleEngine (s : State) (core eng : Nat) (b : TBlock) : Nat → State
  | 0 => (s.syncEngine core eng).settleWaitq core b
  | n + 1 =>
    let e := s.engine core eng
    match e.ops.find? (fun o => !e.mBefore o.grp o.issue && !e.vBefore b o.grp o.issue && !e.opBefore o.grp o.issue) with
    | some o => (s.doAccOp core eng o).settleEngine core eng b n
    | none =>
      match e.mq.find? (fun d => d.accepted && d.init && !d.opened && !e.mBefore d.grp d.issue && !e.vBefore b d.grp d.issue
          && !e.opBefore d.grp d.issue) with
      | some d =>
        let (st, rnd) := d.mmode b
        (s.setEngine core eng ({ e with mq := putDesc e.mq { d with opened := true } }.setGrp d.grp (d.opens st rnd))).settleEngine core eng b n
      | none =>
        match e.current b with
        | some d =>
          if !d.started && !b.stopped && s.mReady core e b d then
            (s.setEngine core eng { e with mq := putDesc e.mq { d with started := true } }).settleEngine core eng b n
          else s.settleEngine core eng b n
        | none => s.settleEngine core eng b n

/-- Settle an engine after a change, and the block's others, whose descriptors may have waited for it. -/
def State.pumpEngine (s : State) (core eng : Nat) : State :=
  match s.engBlock core eng with
  | some b =>
    (eng :: b.engs.filter (fun e => !(e == eng))).foldl (fun s e =>
      if s.engFaulted core e then s else s.settleEngine core e b ((s.engine core e).ops.length + 2 * (s.engine core e).mq.length + 2)) s
  | none => s.syncEngine core eng

/-- A fault of an engine (R317): the record names the descriptor's instruction and group, and the physical engine. -/
def State.engFault (s : State) (core eng code : Nat) (d : Desc) (detail : List Byte) : State :=
  s.tfault core d.slot { code := code, srcKind := 2, srcId := 4 * core + eng, pc := d.pc, engine := eng, engineV := true, detail := detail }

/-! ### Instructions -/

/-- The form of the engine instructions: a group guard, one word, no immediate. -/
def engForm (w0 : BitVec 64) (mods regs : List (Nat × Nat)) (uniform : Bool) : OpForm :=
  { group := true, mods := mods, regs := regs, uniform := uniform, bad := fBI w0 }

/-- The physical engine that ENG names, or fault 0x0604 (R273). -/
def State.withEng (s : State) (core slot : Nat) (w0 : BitVec 64) (b : TBlock) (g : TGroup) (k : Nat → State) : State :=
  match b.engs[fMod w0 47 46]? with
  | some e => k e
  | none => s.preciseFault core slot 0x0604 g.active 0 (detailOf [(52, 1, fMod w0 47 46), (53, 1, b.engs.length)])

/-- Is the queue full of the engine that a group's word names? -/
def State.queueFull (s : State) (core slot : Nat) (w0 : BitVec 64) (vec : Bool) : Bool :=
  match (s.tgroup core slot).bind (fun g => (s.tblock core g.blk).bind (fun b => b.engs[fMod w0 47 46]?)) with
  | some e => if vec then decide (2 ≤ (s.engine core e).vq.length) else decide (8 ≤ (s.engine core e).mq.length)
  | none => false

/-- MXA and VXA: not ready while the engine's queue is full (R274, R324); then the checks of R273, and the descriptor is handed over. Its bytes are
those of the cycle in which its read enters the local-memory unit (R280, Table 6.6). -/
def State.handOver (s0 : State) (core slot opc : Nat) (w0 : BitVec 64) (vec : Bool) : State :=
  if s0.queueFull core slot w0 vec then s0 else
  s0.issue core slot opc w0 (engForm w0 [(47, 46)] [(fA w0, 1)] true) (fun s b g =>
    s.withEng core slot w0 b g (fun eng =>
      let a := g.reg g.lowest (fA w0)
      if !(a % 64 == 0) then s.preciseFault core slot 0x0404 g.active a (detailOf [(52, 1, 64)])
      else if 4096 * b.localUnits < a + 64 then s.preciseFault core slot 0x0405 g.active a (detailOf [(52, 4, a)])
      else
        let e := s.engine core eng
        let n := s.nextIssue core b
        let d : Desc := { bytes := localBytes b.localMem a 64, addr := a, slot := slot, pc := g.pc, issue := n }
        let e := if vec then { e with vq := e.vq ++ [d] } else { e with mq := e.mq ++ [d] }
        (s.setEngine core eng { e with issue := n + 1 }).advance core slot 1 g))

/-- MXA: hands a descriptor to a matrix engine. -/
def execMxa (core slot : Nat) (w0 _w1 : BitVec 64) (s : State) : Host.Outcome State Fault Refusal :=
  .next (s.handOver core slot 0x60 w0 false)

/-- VXA: hands a descriptor to a vector engine. -/
def execVxa (core slot : Nat) (w0 _w1 : BitVec 64) (s : State) : Host.Outcome State Fault Refusal :=
  .next (s.handOver core slot 0x61 w0 true)

/-- WAITQ: the group waits until a queue holds at most N descriptors, or with ALL until every queue of the block is empty. -/
def execWaitq (core slot : Nat) (w0 _w1 : BitVec 64) (s : State) : Host.Outcome State Fault Refusal :=
  let all := natBit w0.toNat 54
  let form := { engForm w0 [(47, 46), (54, 50)] [] false with
    bad := fBI w0 || (all && (!(fMod w0 47 46 == 0) || !(fMod w0 53 50 == 0))) }
  .next (s.issue core slot 0x62 w0 form (fun s b g =>
    let go := (s.setTgroup core slot (some { g with wait := .waitq w0 })).settleWaitq core b
    if all then go else s.withEng core slot w0 b g (fun _ => go)))

/-- An accumulator instruction takes its place in the order, and a number among the accesses for what it delivers. -/
def State.accOp (s : State) (core slot opc : Nat) (w0 : BitVec 64) (kind : Nat) (regs : List (Nat × Nat)) : State :=
  s.issue core slot opc w0 { engForm w0 [(49, 46)] regs true with dst := 1 } (fun s b g =>
    s.withEng core slot w0 b g (fun eng =>
      let e := s.engine core eng
      let n := s.nextIssue core b
      let tag := s.nextAcc
      let o : AccOp := { kind := kind, grp := fMod w0 49 48, issue := n, slot := slot, dest := if kind = 2 then fD w0 else 255,
                         lanes := g.active, tag := tag }
      let g := g.await tag (maskBits 32 g.active) (if kind = 2 then destOf (fD w0) 1 else [])
      let s : State := { s with nextAcc := tag + 1 }
      let s := (s.setEngine core eng { e with issue := n + 1, ops := e.ops ++ [o] }).advance core slot 1 g
      s.pumpEngine core eng))

/-- ACC.REL: frees an accumulation group, in its turn. -/
def execAccRel (core slot : Nat) (w0 _w1 : BitVec 64) (s : State) : Host.Outcome State Fault Refusal :=
  .next (s.accOp core slot 0x63 w0 0 [])

/-- ACC.RDS: D := bits [31:0] of the group's state word, in its turn. -/
def execAccRds (core slot : Nat) (w0 _w1 : BitVec 64) (s : State) : Host.Outcome State Fault Refusal :=
  .next (s.accOp core slot 0x64 w0 2 [(fD w0, 1)])

/-- ACC.FCLR: clears the group's flags, in its turn. -/
def execAccFclr (core slot : Nat) (w0 _w1 : BitVec 64) (s : State) : Host.Outcome State Fault Refusal :=
  .next (s.accOp core slot 0x65 w0 1 [])

/-! ### The matrix engine -/

/-- What a descriptor is checked against. -/
def State.descEnv (s : State) (b : TBlock) (mode : Bool × Nat) (g : AccGroup) : DescEnv :=
  let (base, cnt) := match s.unitEnt b.unit with
    | some u => (u.tmbBase, u.tmbCount)
    | none => (0, 0)
  { limit := 4096 * b.localUnits, tmbBase := base, tmbCount := cnt, strict := mode.1, rnd := mode.2, group := g }

/-- MXE_DESC_ACCEPT: the oldest descriptor not yet accepted is copied and checked (R275, R276); an invalid one raises 0x0603. -/
def execMxeDescAccept (core eng : Nat) (s : State) : Host.Outcome State Fault Refusal :=
  let e := s.engine core eng
  match s.engBlock core eng, e.mq.find? (fun d => !d.accepted) with
  | some b, some d =>
    match d.mInvalid (s.descEnv b (d.mmode b) (e.viewAt b d.grp d.issue)) with
    | some k => .next (s.engFault core eng 0x0603 d (detailOf [(52, 1, k), (53, 1, d.grp), (56, 4, d.addr)]))
    | none => .next ((s.setEngine core eng { e with mq := putDesc e.mq { d with accepted := true } }).pumpEngine core eng)
  | _, _ => .next s

/-- The DETAIL of 0x0601 and 0x0602. -/
def overflowDetail (d : Desc) (σ : Int) (p : Nat × Nat) : List Byte :=
  detailOf [(52, 1, d.grp), (53, 1, d.replays), (54, 1, ofSigned 8 σ), (56, 2, d.next), (58, 1, p.1), (59, 1, p.2)]

/-- A cell has overflowed where replay applies (R297 to R299): the descriptor starts again with SIGMA raised, or faults. -/
def State.mxeReplay (s : State) (core eng : Nat) (d : Desc) (p : Nat × Nat) : State :=
  let e := s.engine core eng
  let g := e.grp d.grp
  let σ := g.sigma + d.f 0 26 22
  if d.f 0 30 27 ≤ d.replays then s.engFault core eng 0x0601 d (overflowDetail d g.sigma p)
  else if 127 < σ then s.engFault core eng 0x0602 d (overflowDetail d g.sigma p)
  else
    let e := { e with mq := putDesc e.mq { d with next := 0, replays := d.replays + 1 }, finishing := false }
    ((s.setEngine core eng (e.setGrp d.grp { g with sigma := σ, cells := [] })).bump (RF.MXE_REPLAY_COUNT core eng)).pumpEngine core eng

/-- MXE_CHUNK_COMMIT: the current descriptor's next chunk (in strict mode, K-step) is committed. An engine whose program stops commits the
one in progress (R309). -/
def execMxeChunkCommit (core eng : Nat) (s : State) : Host.Outcome State Fault Refusal :=
  let e := s.engine core eng
  match s.engBlock core eng with
  | some b =>
    match e.current b with
    | some d =>
      if d.started && (!b.stopped || e.finishing) && s.alive then
        let (st, rnd) := d.mmode b
        let s := s.bumpN (RF.MXE_BUSY_CYCLES core eng) (chunkCycles d.cls st)
        let (g, overs) := d.commit b.localMem st rnd (e.grp d.grp)
        match overs with
        | p :: _ => if d.replayable st then .next (s.mxeReplay core eng d p)
          else .next ((s.setEngine core eng ({ e with mq := putDesc e.mq { d with next := d.next + 1 }, finishing := false }.setGrp d.grp g)).pumpEngine core eng)
        | [] => .next ((s.setEngine core eng ({ e with mq := putDesc e.mq { d with next := d.next + 1 }, finishing := false }.setGrp d.grp g)).pumpEngine core eng)
      else .next s
    | none => .next s
  | none => .next s

/-- MXE_DESC_RETIRE: the oldest descriptor, all of it committed, retires: its locks end, and its arrival is sent. -/
def execMxeDescRetire (core eng : Nat) (s : State) : Host.Outcome State Fault Refusal :=
  let e := s.engine core eng
  match s.engBlock core eng, e.mq with
  | some b, d :: rest =>
    if d.started && decide (d.units (d.mmode b).1 ≤ d.next) then
      let s := (s.setEngine core eng { e with mq := rest }).bump (RF.MXE_DESC_COUNT core eng)
      let s := if d.b 0 7 then s.devArrive 2 (4 * core + eng) (d.f 8 22 8) else s
      .next (s.pumpEngine core eng)
    else .next s
  | _, _ => .next s

/-! ### The vector engine -/

/-- VXE_DESC_ACCEPT: the oldest vector descriptor not yet accepted is copied and checked (R354); an invalid one raises 0x0701. -/
def execVxeDescAccept (core eng : Nat) (s : State) : Host.Outcome State Fault Refusal :=
  let e := s.engine core eng
  match s.engBlock core eng, e.vq.find? (fun d => !d.accepted) with
  | some b, some d =>
    match d.vInvalid b.localMem (s.descEnv b (d.vmode b) (e.viewAt b d.sgrp d.issue)) with
    | some (k, i) => .next (s.engFault core eng 0x0701 d (detailOf [(52, 1, k), (53, 1, i), (56, 4, d.addr)]))
    | none => .next ((s.setEngine core eng { e with vq := putDesc e.vq { d with accepted := true } }).pumpEngine core eng)
  | _, _ => .next s

/-- May a vector descriptor start its first slot (R266, R279, R349)? None starts in a bubble (R770). -/
def State.vReady (s : State) (core : Nat) (e : Engine) (b : TBlock) (d : Desc) : Bool :=
  d.accepted && !d.started && !e.vHeld b d && !s.mReadsBefore core b d.issue d.vWrites
    && !e.vq.any (fun x => decide (x.issue < d.issue) && !x.started) && !s.bubbled core

/-- VXE_DESC_START: the oldest vector descriptor not yet started starts; a PADD of partials that differ raises 0x0605 (R346). -/
def execVxeDescStart (core eng : Nat) (s : State) : Host.Outcome State Fault Refusal :=
  let e := s.engine core eng
  match s.engBlock core eng, e.vq.find? (fun d => !d.started) with
  | some b, some d =>
    if s.vReady core e b d && !b.stopped && s.alive then
      if d.form == 2 && partialsDiffer (d.paddX b.localMem (e.grp d.sgrp)) (d.paddY b.localMem) then
        .next (s.engFault core eng 0x0605 d (detailOf [(52, 8, d.f 52 18 0)]))
      else .next ((s.setEngine core eng { e with vq := putDesc e.vq { d with started := true } }).pumpEngine core eng)
    else .next s
  | _, _ => .next s

/-- VXE_DESC_COMPLETE: the oldest vector descriptor completes: its results stand in local memory, its flags in the group, its locks end,
its arrival is sent, and REL frees the group. -/
def execVxeDescComplete (core eng : Nat) (s : State) : Host.Outcome State Fault Refusal :=
  let e := s.engine core eng
  match (s.coreBlocks core).find? (fun x => x.2.engs.contains eng), e.vq with
  | some (blk, b), d :: rest =>
    if d.started && !s.engFaulted core eng then
      let (st, rnd) := d.vmode b
      let g := e.grp d.sgrp
      let o := d.vrun b.localMem st rnd g
      let g := if st then { g with flags := Nat.lor g.flags o.flags } else g
      let s := s.setTblock core blk (some { b with localMem := o.mem })
      let s := s.setEngine core eng ({ e with vq := rest }.setGrp d.sgrp (if d.rel then {} else g))
      let s := ((s.bump (RF.VXE_DESC_COUNT core eng)).bumpN (RF.VXE_ROWS_COUNT core eng) o.slots).bumpN (RF.VXE_SAT_COUNT core eng) o.sats
      let s := if d.b 0 5 then s.devArrive 2 (4 * core + eng) (d.f 8 14 0) else s
      .next (s.pumpEngine core eng)
    else .next s
  | _, _ => .next s

end Sys2Proof.Machine
end

