-- ==== Sys2Proof/Machine/TSync.lean ====
section
/-! DEFINITION. The barrier, fence and tumbler instructions of a T-core (R167 to R173, R180, R407 to R415), and the barrier watchdog. -/

namespace Sys2Proof.Machine

/-! ### Barriers -/

/-- The form of BAR.SYNC and BAR.ARV (R407, R408). -/
def barForm (w0 : BitVec 64) : OpForm :=
  let cnt := natBit w0.toNat 50
  { group := true, imm := true, mods := [(50, 46)]
    regs := if cnt && !fBI w0 then [(fB w0, 1)] else []
    bad := !cnt && !(natBits w0.toNat 29 17 == 0) }

/-- The DETAIL of 0x0408. -/
def barDetail (bar expected arrived : Nat) : List Byte := detailOf [(52, 1, bar), (54, 2, expected), (56, 2, arrived)]

/-- Arrive at a barrier: `wait` for BAR.SYNC. The first arrival arms it with the count, or with the live threads; threads that exited
in the arming cycle count as live and as arrived, with a count as arrived only (R168 to R172). -/
def State.arriveBar (s : State) (core slot : Nat) (w0 : BitVec 64) (wait : Bool) (b : TBlock) (g : TGroup) : State :=
  let n := fMod w0 49 46
  match b.bars[n]? with
  | none => s.preciseFault core slot 0x0408 g.active 0 (barDetail n 0 0)
  | some x =>
    let threads := (maskBits 32 g.active).map (fun l => 32 * g.idx + l)
    let count : Int := if fBI w0 then fImm16 w0 else (g.reg g.lowest (fB w0) : Int)
    let hasCount := natBit w0.toNat 50
    let gone := if b.exitAt = s.now then b.exits else []
    if !x.armed && hasCount && (decide (count < 1) || decide ((b.threads : Int) < count)) then
      s.preciseFault core slot 0x0408 g.active 0 (barDetail n (ofSigned 16 count) 0)
    else
      let x := if x.armed then x
        else { armed := true, expected := if hasCount then count.toNat else s.liveThreads core b + gone.length,
               count := gone.length, arrived := gone, ticks := 0, armedAt := s.now }
      if x.expected < x.count + threads.length then s.preciseFault core slot 0x0408 g.active 0 (barDetail n x.expected x.count)
      else
        let x := { x with count := x.count + threads.length, arrived := x.arrived ++ threads }
        let s := s.setTblock core g.blk (some { b with bars := listSet b.bars n x })
        let s := if wait then s.setTgroup core slot (some { g with wait := .bar n }) else s.advance core slot 1 g
        s.settleBars core g.blk 16

/-- BAR.SYNC: arrive, and wait until the barrier completes. -/
def execBarSync (core slot : Nat) (w0 _w1 : BitVec 64) (s : State) : Host.Outcome State Fault Refusal :=
  .next (s.issue core slot 0x66 w0 (barForm w0) (fun s b g => s.arriveBar core slot w0 true b g))

/-- BAR.ARV: arrive, and go on. -/
def execBarArv (core slot : Nat) (w0 _w1 : BitVec 64) (s : State) : Host.Outcome State Fault Refusal :=
  .next (s.issue core slot 0x67 w0 (barForm w0) (fun s b g => s.arriveBar core slot w0 false b g))

/-- The groups of a block with live lanes that have not arrived at a barrier, as a mask of group slots, and the lanes of a group. -/
def State.missing (s : State) (core : Nat) (b : TBlock) (x : Barrier) (slot : Nat) : Nat :=
  match s.tgroup core slot with
  | some g => if b.slots.contains slot then maskOf ((maskBits 32 g.live).filter (fun l => !x.arrived.contains (32 * g.idx + l))) else 0
  | none => 0

/-- A barrier of a block has come to its watchdog's tick count (R175). -/
def State.watchdogDue (s : State) (b : TBlock) (x : Barrier) : Bool :=
  match s.unitEnt b.unit with
  | some u => x.armed && decide (0 < u.barrierWd) && decide (u.barrierWd ≤ x.ticks)
  | none => false

/-- Fault 0x0407: PC, GROUP and LANES are those of the lowest group slot with missing lanes. -/
def State.fireWatchdog (s : State) (core : Nat) (b : TBlock) (bar : Nat) (x : Barrier) : State :=
  let ms := b.slots.filter (fun sl => !(s.missing core b x sl == 0))
  let slot := (maskBits 32 (maskOf ms)).headD (b.slots.headD 0)
  let d := detailOf [(52, 1, bar), (54, 2, x.expected), (56, 2, x.count), (60, 4, maskOf ms)]
  s.tfault core slot { code := 0x0407, lanes := s.missing core b x slot, detail := d }

/-- The saved state of a core that holds a block, with the block. -/
def State.savedBlock (s : State) (core blk : Nat) : Option (TSave × TBlock) :=
  (List.range 8).findSome? (fun p => match kvGet (fun _ => none) s.tc.saves (core * 8 + p) with
    | some x => (x.blocks.find? (fun b => b.1 == blk)).map (fun b => (x, b.2))
    | none => none)

/-- The same fault of a block that is saved. -/
def State.fireSaved (s : State) (core : Nat) (sv : TSave) (b : TBlock) (bar : Nat) (x : Barrier) : State :=
  let miss := fun (sl : Nat) => match sv.groups.find? (fun g => g.1 == sl) with
    | some g => maskOf ((maskBits 32 g.2.live).filter (fun l => !x.arrived.contains (32 * g.2.idx + l)))
    | none => 0
  let ms := b.slots.filter (fun sl => !(miss sl == 0))
  let slot := (maskBits 32 (maskOf ms)).headD (b.slots.headD 0)
  let pc := match sv.groups.find? (fun g => g.1 == slot) with
    | some g => g.2.pc
    | none => 0
  s.raiseT core slot b.unit { code := 0x0407, srcKind := 1, srcId := core, pc := pc, group := slot, groupV := true, lanes := miss slot, item := b.item,
                              detail := detailOf [(52, 1, bar), (54, 2, x.expected), (56, 2, x.count), (60, 4, maskOf ms)] } none

/-- BARRIER_WATCHDOG: a barrier's tick count has reached BARRIER_WD; a saved block's barriers count too (R174). A barrier that completes in the
end-of-frame cycle in which its count got there has won (R176). -/
def execBarrierWatchdog (core blk bar : Nat) (s : State) : Host.Outcome State Fault Refusal :=
  let saved : Option (TSave × TBlock × Barrier) := match s.savedBlock core blk with
    | some (sv, b) => (b.bars[bar]?).bind (fun x => if s.watchdogDue b x then some (sv, b, x) else none)
    | none => none
  let here : Option (TBlock × Barrier) := match s.tblock core blk with
    | some b => (b.bars[bar]?).bind (fun x => if s.watchdogDue b x then some (b, x) else none)
    | none => none
  if s.now ≤ s.tick.lastTick.getD 0 + 32 then .next s else
  match here, saved with
  | some (b, x), _ => .next (s.fireWatchdog core b bar x)
  | none, some (sv, b, x) => .next (s.fireSaved core sv b bar x)
  | none, none => .next s

/-! ### Fence -/

/-- FENCE (R409): the group goes on once every earlier access of it is done at SCOPE. -/
def execFence (core slot : Nat) (w0 _w1 : BitVec 64) (s : State) : Host.Outcome State Fault Refusal :=
  .next (s.issue core slot 0x68 w0 { group := true, mods := [(47, 46)] } (fun s _ g =>
    (s.setTgroup core slot (some { g with wait := .fence (fMod w0 47 46) })).settleFence core slot))

/-! ### Tumblers (R410 to R414) -/

/-- The tumbler number of a lane, as computed. -/
def tmbNumber (g : TGroup) (w0 : BitVec 64) (l : Nat) : Int :=
  ((g.reg l (fA w0) % 32768 : Nat) : Int) + if fBI w0 then fImm16 w0 else 0

/-- The check of R410: the lanes that fail, with the record's DETAIL. -/
def State.tmbRangeFault (s : State) (core slot : Nat) (w0 : BitVec 64) (b : TBlock) (g : TGroup) (ls : List Nat) : Option State :=
  let (base, cnt) := match s.unitEnt b.unit with
    | some u => (u.tmbBase, u.tmbCount)
    | none => (0, 0)
  let bad := ls.filter (fun l =>
    let x := tmbNumber g w0 l
    decide (32768 ≤ g.reg l (fA w0)) || decide (x < 0) || decide (32768 ≤ x) || decide (x < base) || decide ((base + cnt : Nat) ≤ x))
  match bad with
  | [] => none
  | l :: _ => some (s.preciseFault core slot 0x0801 (maskOf bad) 0
      (detailOf [(52, 4, ofSigned 32 (tmbNumber g w0 l)), (56, 2, base), (58, 2, min cnt 65535)]))

/-- The request of a lane to its tumbler's home. -/
def State.tmbReqOf (s : State) (core slot : Nat) (w0 : BitVec 64) (b : TBlock) (g : TGroup) (op : TmbOp) (operand lane : Nat) : TmbReq :=
  { src := .tgroup core slot, kind := 1, id := core, op := op, tmb := (tmbNumber g w0 lane).toNat, operand := operand, unit := b.unit,
    lane := lane, pc := g.pc, after := s.nextAcc, sys := fMod w0 47 46 == 3 }

/-- SCOPE 0 and 1 are undefined. -/
def scopeBad (w0 : BitVec 64) : Bool := decide (fMod w0 47 46 < 2)

/-- Send one operation for each acting lane, in ascending order; `dest` and `pd` receive what comes back, which an acquire waits for. The instruction
takes a number among the accesses. -/
def State.tmbLanes (s : State) (core slot : Nat) (w0 : BitVec 64) (b : TBlock) (g : TGroup) (op : TmbOp) (operand : Nat → Nat)
    (dest pd : Nat) (acq : Bool) : State :=
  let ls := g.acting w0
  match s.tmbRangeFault core slot w0 b g ls with
  | some t => t
  | none =>
    let tag := s.nextAcc
    let t := ls.foldl (fun t l => t.sendTmb { s.tmbReqOf core slot w0 b g op (operand l) l with dest := dest, pd := pd, acq := acq, tag := tag })
      { s with nextAcc := tag + 1 }
    t.advance core slot 1 { g.await tag ls (destOf dest 1 ++ (if pd = 7 then [] else [256 + pd])) with wait := if acq && !ls.isEmpty then .tmbOp tag else .none }

/-- TMB.ARV: one arrival a lane, of weight C when VAL = 1 (BI is then 0). A release. -/
def execTmbArv (core slot : Nat) (w0 _w1 : BitVec 64) (s : State) : Host.Outcome State Fault Refusal :=
  let val := natBit w0.toNat 48
  .next (s.issue core slot 0x69 w0
    { imm := true, mods := [(48, 46)], bad := scopeBad w0 || (val && fBI w0),
      regs := (fA w0, 1) :: (if val then [(fC w0, 1)] else []) }
    (fun s b g => s.tmbLanes core slot w0 b g .arrive (fun l => if val then g.reg l (fC w0) else 1) 255 7 false))

/-- TMB.POLL: D := the state word; an acquire with ACQ = 1. -/
def execTmbPoll (core slot : Nat) (w0 _w1 : BitVec 64) (s : State) : Host.Outcome State Fault Refusal :=
  .next (s.issue core slot 0x6A w0
    { imm := true, mods := [(47, 46), (49, 49)], bad := scopeBad w0, regs := [(fD w0, 1), (fA w0, 1)], dst := 1 }
    (fun s b g => s.tmbLanes core slot w0 b g .poll (fun _ => 0) (fD w0) 7 (natBit w0.toNat 49)))

/-- TMB.WAIT (R412): the group waits until the tumbler fires or IMM32 cycles of the core's clock have passed. -/
def execTmbWait (core slot : Nat) (w0 w1 : BitVec 64) (s : State) : Host.Outcome State Fault Refusal :=
  .next (s.issue core slot 0x6B w0
    { words := 2, group := true, imm := true, mods := [(47, 46)], bad := scopeBad w0, regs := [(fD w0, 1), (fA w0, 1)], dst := 1 } (fun s b g =>
    match s.tmbRangeFault core slot w0 b g [g.lowest] with
    | some t => t
    | none =>
      let r := s.tmbReqOf core slot w0 b g .wait (fExt w1) g.lowest
      let deadline := if fImm32 w1 = 0 then none else some (s.coreClock core + fImm32 w1)
      (s.sendTmb r).setTgroup core slot (some { g with wait := .tmb r.tmb (fExt w1) (fD w0) deadline (fMod w0 47 46) })))

/-- TMB.TAKE: takes one token. An acquire. -/
def execTmbTake (core slot : Nat) (w0 _w1 : BitVec 64) (s : State) : Host.Outcome State Fault Refusal :=
  .next (s.issue core slot 0x6C w0
    { imm := true, mods := [(47, 46), (52, 50)], bad := scopeBad w0, regs := [(fD w0, 1), (fA w0, 1)], dst := 1, preds := [fMod w0 52 50], pdst := 1 }
    (fun s b g => s.tmbLanes core slot w0 b g .take (fun _ => 0) (fD w0) (fMod w0 52 50) true))

/-- TMB.PUT: puts token C. A release. -/
def execTmbPut (core slot : Nat) (w0 _w1 : BitVec 64) (s : State) : Host.Outcome State Fault Refusal :=
  .next (s.issue core slot 0x6D w0
    { imm := true, mods := [(47, 46), (52, 50)], bad := scopeBad w0, regs := [(fA w0, 1), (fC w0, 1)], preds := [fMod w0 52 50], pdst := 1 }
    (fun s b g => s.tmbLanes core slot w0 b g .put (fun l => g.reg l (fC w0)) 255 (fMod w0 52 50) false))

/-! ### What comes back from a tumbler's home -/

/-- The operations of a group that are still on their way. -/
def State.groupReqs (s : State) (core slot : Nat) : List TmbReq :=
  s.tmb.reqs.filter (fun r => r.src == TmbSrc.tgroup core slot && !(r.op == TmbOp.wait) && !r.dead)

/-- A lane's answer: `f` writes its results. An acquire ends with the last answer of its instruction. -/
def State.tmbAnswer (s : State) (core slot : Nat) (r : TmbReq) (f : TGroup → TGroup) : State :=
  match s.tgroup core slot with
  | none => s
  | some g =>
    let g := f g
    let last := !(s.groupReqs core slot).any (fun x => x.tag == r.tag)
    let s := s.setTgroup core slot (some { g with wait := if last && g.wait == GWait.tmbOp r.tag then .none else g.wait })
    if last && r.acq then s.clearL1 core else s

/-- A TMB.WAIT ends as fired (0), an acquire at its scope, or as timed out (1). -/
def State.endTmbWait (s : State) (core slot v : Nat) : State :=
  let s := s.tmbWaitDone core slot v
  if v = 0 then s.clearL1 core else s

end Sys2Proof.Machine
end

