-- ==== Sys2Proof/Machine/Tmb.lean ====
section
/-! DEFINITION. Tumblers at their homes, what their answers do at a core, and their configuration (chapter 13). A request on its way is
named by its place in `tmb.reqs`, an answer by its place in `tmb.notes`. -/

namespace Sys2Proof.Machine

/-! ### Requests that reach a home -/

/-- Is a release held at its core until the accesses before it have been performed at its scope (R411)? -/
def State.releaseHeld (s : State) (r : TmbReq) : Bool :=
  match r.src, r.op with
  | .tgroup core slot, .arrive => !s.fenceMet core slot (if r.sys then 3 else 2) r.after r.dead
  | .tgroup core slot, .put => !s.fenceMet core slot (if r.sys then 3 else 2) r.after r.dead
  | .vcore core, .arrive => if r.sys then s.vstoring core else s.vreducing core
  | .vcore core, .put => if r.sys then s.vstoring core else s.vreducing core
  | _, _ => false

/-- The operations applied so far in this cycle: tumbler, SRC_KIND, SRC_ID. -/
def State.appliedNow (s : State) : List (Nat × Nat × Nat) := if s.tmb.appliedAt = s.now then s.tmb.applied else []

/-- The n-th request, when it is of an operation and can reach its home now: operations of one source reach one home in the order
sent (R27), and those that reach one tumbler in one cycle come in ascending SRC_KIND and SRC_ID (R642). -/
def State.homeReq (s : State) (n : Nat) (op : TmbOp) : Option (State × TmbReq) :=
  match s.tmb.reqs[n]? with
  | some r =>
    let behind := (s.tmb.reqs.take n).any (fun x => x.kind == r.kind && x.id == r.id && tmbLeaf x.tmb == tmbLeaf r.tmb && !s.releaseHeld x)
    let late := s.appliedNow.any (fun x => x.1 == r.tmb && (decide (r.kind < x.2.1) || (r.kind == x.2.1 && decide (r.id < x.2.2))))
    if r.op = op ∧ !behind ∧ !late ∧ !s.releaseHeld r ∧ s.alive then
      some ({ s with tmb := { s.tmb with reqs := s.tmb.reqs.eraseIdx n, applied := (r.tmb, r.kind, r.id) :: s.appliedNow, appliedAt := s.now } }, r)
    else none
  | none => none

/-- An operation has been performed: its results reach the source. -/
def State.tmbDone (s : State) (r : TmbReq) (f : TGroup → TGroup) (v : Nat) : State :=
  match r.src with
  | .tgroup core slot => if r.dead then s else s.tmbAnswer core slot r f
  | .vcore core => s.vtmbReply core r.dest v
  | _ => s

/-- A refusal of a core's operation goes back to it; the home has counted it (R648). -/
def State.tmbRefusedBack (s : State) (r : TmbReq) : State :=
  match r.src with
  | .tgroup _ _ => if r.dead then s else s.refuse r (s.tmbAt r.tmb).kind
  | .vcore _ => s.refuse r (s.tmbAt r.tmb).kind
  | _ => s

/-- TMB_HOME_ARRIVE: an ARRIVE is applied by kind, or refused. -/
def execTmbHomeArrive (n : Nat) (s : State) : Host.Outcome State Fault Refusal :=
  match s.homeReq n .arrive with
  | some (s, r) =>
    let (s, ok) := s.tmbArrive r.tmb r.operand
    .next (if ok then s.tmbDone r (fun g => g) 0 else s.tmbRefusedBack r)
  | none => .next s

/-- TMB_HOME_POLL: the home returns the state word. -/
def execTmbHomePoll (n : Nat) (s : State) : Host.Outcome State Fault Refusal :=
  match s.homeReq n .poll with
  | some (s, r) =>
    let (s, w) := s.tmbPoll r.tmb
    .next (s.tmbDone r (fun g => g.land r.tag r.lane r.dest w 1) w)
  | none => .next s

/-- TMB_HOME_WAIT: a wait reaches its home. -/
def execTmbHomeWait (n : Nat) (s : State) : Host.Outcome State Fault Refusal :=
  match s.homeReq n .wait with
  | some (s, r) => .next (s.tmbWait r)
  | none => .next s

/-- TMB_HOME_TAKE. -/
def execTmbHomeTake (n : Nat) (s : State) : Host.Outcome State Fault Refusal :=
  match s.homeReq n .take with
  | some (s, r) =>
    match s.tmbTake r.tmb with
    | (s, .took x) => .next (s.tmbDone r (fun g => (g.land r.tag r.lane r.dest x 1).landPred r.tag r.lane r.pd true) (x + 2 ^ 32))
    | (s, .empty) => .next (s.tmbDone r (fun g => (g.land r.tag r.lane r.dest 0 1).landPred r.tag r.lane r.pd false) 0)
    | (s, _) => .next (s.tmbRefusedBack r)
  | none => .next s

/-- TMB_HOME_PUT. -/
def execTmbHomePut (n : Nat) (s : State) : Host.Outcome State Fault Refusal :=
  match s.homeReq n .put with
  | some (s, r) =>
    match s.tmbPut r.tmb r.operand with
    | (s, .putOk) => .next (s.tmbDone r (fun g => g.landPred r.tag r.lane r.pd true) 1)
    | (s, .putFull) => .next (s.tmbDone r (fun g => g.landPred r.tag r.lane r.pd false) 0)
    | (s, _) => .next (s.tmbRefusedBack r)
  | none => .next s

/-- WAIT_REGISTRATION_RESERVED: the n-th wait told of its reservation travels to its home (R659). -/
def execWaitRegistrationReserved (n : Nat) (s : State) : Host.Outcome State Fault Refusal :=
  match s.tmb.told[n]? with
  | some r => .next { s with tmb := { s.tmb with told := s.tmb.told.eraseIdx n, reqs := s.tmb.reqs ++ [r] } }
  | none => .next s

/-! ### Answers that reach a core -/

/-- Take the n-th answer off its way. -/
def State.takeNote (s : State) (n : Nat) : State := { s with tmb := { s.tmb with notes := s.tmb.notes.eraseIdx n } }

/-- A wait of a core ends with a value: 0 fired, 1 timed out. -/
def State.coreWaitEnds (s : State) (src : TmbSrc) (v : Nat) : State :=
  match src with
  | .tgroup core slot => s.endTmbWait core slot v
  | .vcore core => s.vtmbWaitEnd core v
  | _ => s

/-- TMB_FIRE_NOTIFY: the n-th answer, a firing or the end of a wait whose tumbler was configured anew (R656), reaches its core. -/
def execTmbFireNotify (n : Nat) (s : State) : Host.Outcome State Fault Refusal :=
  match s.tmb.notes[n]? with
  | some x =>
    match x.src, x.ans with
    | .tgroup _ _, .fired => .next ((s.takeNote n).coreWaitEnds x.src 0)
    | .vcore _, .fired => .next ((s.takeNote n).coreWaitEnds x.src 0)
    | .tgroup _ _, .timedOut => .next ((s.takeNote n).coreWaitEnds x.src 1)
    | .vcore _, .timedOut => .next ((s.takeNote n).coreWaitEnds x.src 1)
    | _, _ => .next s
  | none => .next s

/-- Has the timeout of a core's wait ended (R413, R661)? A firing that reaches the core in the timeout's own cycle wins (R414). -/
def State.waitExpired (s : State) (src : TmbSrc) : Bool :=
  match src with
  | .tgroup core slot =>
    match s.tgroup core slot with
    | some g =>
      match g.wait with
      | .tmb _ _ _ (some t) _ => decide (t < s.coreClock core) && (match s.tblock core g.blk with
        | some b => !b.stopped
        | none => false)
      | _ => false
    | none => false
  | .vcore core =>
    match (s.vcore core).twait with
    | some (_, _, some t) => decide (t < s.coreClock (512 + core))
    | _ => false
  | _ => false

/-- TMB_WAIT_TIMEOUT: the timeout of a core's TMB.WAIT or TWAIT ends; the wait is withdrawn. -/
def execTmbWaitTimeout (tcore : Bool) (core slot : Nat) (s : State) : Host.Outcome State Fault Refusal :=
  let src := if tcore then TmbSrc.tgroup core slot else TmbSrc.vcore core
  if s.waitExpired src then .next ((s.withdrawWaits src).coreWaitEnds src 1) else .next s

/-- The opcode of a T-core's tumbler operation, by its row of Table 13.2. -/
def tmbOpcode (op : Nat) : Nat :=
  match op with
  | 0 => 0x69
  | 1 => 0x6A
  | 2 => 0x6B
  | 3 => 0x6C
  | _ => 0x6D

/-- A unit's gated program ends because its wait is refused (R82): 0x0D04, whether it is the unit's first program or not. -/
def State.dropGated (s : State) (unit : Nat) (r : Rec) : State :=
  let u := s.unitRun unit
  match u.active.findIdx? (fun p => p.gate == .registered) with
  | some 0 => s.terminate unit r
  | some i =>
    match u.active[i]? with
    | some p =>
      let s := s.emit { r with fault := true, terminated := true, unit := unit, unitV := true }
      let s := s.setUnit unit { u with active := u.active.eraseIdx i }
      (((s.setFlag (RF.TCK_U_STAT_HALTED unit) true).endLaunch p r.code).syncUnit unit).syncQuiesced
    | none => s
  | none => s

/-- TMB_REFUSAL_RETURN: the n-th answer, a refusal, reaches its core, which raises 0x0802 (R415) or 0x0D04 (R662), or the dispatch complex,
which ends the gated program. -/
def execTmbRefusalReturn (n : Nat) (s : State) : Host.Outcome State Fault Refusal :=
  match s.tmb.notes[n]? with
  | some x =>
    match x.src, x.ans with
    | .tgroup core slot, .refused op _ =>
      let m := if op = 2 then (match s.tgroup core slot with
        | some g => g.active
        | none => 0) else 2 ^ x.lane
      .next ((s.takeNote n).tfault core slot { code := 0x0802, pc := x.pc, lanes := m, detail := detailOf [(52, 2, x.tmb), (54, 1, tmbOpcode op)] })
    | .vcore core, .refused op kind =>
      .next ((s.takeNote n).vfault core { code := 0x0D04, pc := x.pc, detail := detailOf [(52, 2, x.tmb), (54, 1, op), (55, 1, kind)] })
    | .gate unit, .refused op kind =>
      .next ((s.takeNote n).dropGated unit { code := 0x0D04, srcKind := 6, srcId := s.boot.leafSel,
                                             detail := detailOf [(52, 2, x.tmb), (54, 1, op), (55, 1, kind)] })
    | _, _ => .next s
  | none => .next s

/-! ### Configuration and register operations (R649, R650, R656, R657) -/

/-- Does a token queue's ring overlap that of another token queue of its home? -/
def State.ringOverlaps (s : State) (n start size : Nat) : Bool :=
  s.tmb.tmbs.any (fun p => !(p.1 == n) && p.2.kind == 4 && tmbLeaf p.1 == tmbLeaf n
    && decide (16 * p.2.ring < start + size) && decide (start < 16 * p.2.ring + 2 ^ p.2.log2))

/-- Is a write of TMB_CFG valid with TMB_PARAM as it stands (R657)? -/
def State.tmbCfgOk (s : State) (n v : Nat) : Bool :=
  let kind := natBits v 0 3
  let p := (s.reg (RA.TMB_PARAM n)).toNat
  let log2 := natBits p 12 4
  let start := 16 * natBits p 0 12
  decide (kind ≤ 4) && (natBits v 16 16 == 0 || kind == 1) && !(kind == 2 && natBits p 0 16 == 0)
    && !(kind == 4 && (decide (log2 < 4) || decide (12 < log2) || !(start % 2 ^ log2 == 0) || s.ringOverlaps n start (2 ^ log2)))

/-- TMB_CFG_WRITE: the tumbler takes its kind and the initial state of R650; GEN is kept, and registered waits end as timed out. -/
def execTmbCfgWrite (tmb : Nat) (value : Word) (s : State) : Host.Outcome State Fault Refusal :=
  let v := value.toNat
  if decide (32768 ≤ tmb) || !s.serving then .next s
  else if s.tmbCfgOk tmb v then
    let s := s.dropWaits tmb
    let p := (s.reg (RA.TMB_PARAM tmb)).toNat
    let kind := natBits v 0 3
    let t : Tmb := { kind := kind, step := natBits v 16 16, gen := (s.tmbAt tmb).gen, notify := natBit v 4, remote := natBit v 5,
                     target := if kind = 1 then p else 0, expected := if kind = 2 then natBits p 0 16 else 0,
                     log2 := if kind = 4 then natBits p 12 4 else 0, ring := if kind = 4 then natBits p 0 12 else 0 }
    .next ((s.putTmb tmb t).setReg (RA.TMB_CFG tmb) (BitVec.ofNat 32 (natBits v 16 16 * 65536 + natBits v 4 2 * 16 + kind)))
  else
    .next ((s.tmbRefused tmb).emit { code := 0x0D01, detail := detailOf [(52, 2, tmb), (56, 4, v)] })

/-- TMB_OP_ARRIVE: a host write of TMB_OP with OP 1 makes an arrival of WEIGHT. -/
def execTmbOpArrive (tmb weight : Nat) (s : State) : Host.Outcome State Fault Refusal :=
  if decide (tmb < 32768) && decide (weight < 2 ^ 30) && s.serving then .next (s.tmbArrive tmb weight).1 else .next s

/-- TMB_OP_RESET: a host write of TMB_OP with OP 2 resets the tumbler. -/
def execTmbOpReset (tmb : Nat) (s : State) : Host.Outcome State Fault Refusal :=
  if decide (tmb < 32768) && s.serving then .next (s.tmbReset tmb) else .next s

end Sys2Proof.Machine
end

