-- ==== Sys2Proof/Machine/Block.lean ====
section
/-! DEFINITION. Blocks of a frame program on T-cores: the block descriptor, launch and completion (R145 to R153), and preemption, save and
restore (R192 to R201, R309 to R316, R356). -/

namespace Sys2Proof.Machine

/-- The primary dispatch complex: that of the primary P-die (Table 4.12). -/
def State.primary (s : State) : Nat := s.boot.leafSel

/-! ### Preemption requests (R84, R88) -/

/-- Ask for preemption of the units of lower priority that hold cores on which a unit can run. -/
def State.askLower (s : State) (unit : Nat) : State :=
  match s.openProg unit with
  | some p =>
    let cs := (s.unitCores unit).filter (fun c => p.desc.isEmpty || s.runnable unit c)
    (s.ward.image.units.filter (fun u => decide (s.prioOf unit < u.priority))).foldl (fun s u =>
      s.askPreempt u.slot (cs.filter (fun c => s.holds u.slot c
        || (match s.moveOn c with
          | some m => m.unit == u.slot && m.stage == 3
          | none => false)))) s
  | none => s

/-! ### The descriptor at ENTRY -/

def dNat (d : List Byte) (off n : Nat) : Nat := leNat ((d.drop off).take n)

/-- Is a block descriptor valid (Table 4.1, R148)? -/
def blockDescOk (d : List Byte) : Bool :=
  let t := dNat d 0 2
  let r := dNat d 2 1
  let threads := t % 2048
  decide (1 ≤ threads) && decide (threads ≤ 1024) && decide (t < 2048) && decide (1 ≤ r) && decide (r ≤ 32) && decide (dNat d 3 1 ≤ 128)
    && decide (dNat d 4 1 ≤ 4) && decide (dNat d 5 1 ≤ 16) && (d.drop 6).all (fun b => b == 0) && decide (ceilDiv threads 32 * r ≤ 256)

/-- Is a V-core entry descriptor valid (Table 9.2, R428)? -/
def vDescOk (d : List Byte) : Bool :=
  let mode := dNat d 16 8 / 2 ^ 60
  decide (dNat d 0 1 < 4) && !(dNat d 0 1 == 2) && dNat d 1 3 == 0 && (mode == 0 || mode == 15)

/-- A program ends because of its descriptor: SRC_KIND 6. -/
def State.descFault (s : State) (unit code addr : Nat) (detail : List Byte) : State :=
  s.terminate unit { code := code, srcKind := 6, srcId := s.primary, addr := addr, detail := detail }

/-- The read of a descriptor fails in translation: a record of the fault buffer, with requester kind 6 (R148, R612). The dispatch complex has no range
cache (R605), so a walker of its leaf finds the failure: which of the 16 is a free value. -/
def State.descXlt (s : State) (unit : Nat) (p : FrameProg) (va reason : Nat) : State :=
  let (i, s) := s.nextFree
  let r : Rec := { code := xltCode reason, fault := true, terminated := true, srcKind := 5, srcId := 16 * s.primary + Config.freeNat i % 16, unit := unit, unitV := true,
                   addr := va, detail := xltDetail p.ctx 3 6 s.primary 0 0 }
  (s.holdRec r p.ctx va).endProgram unit (xltCode reason)

/-- The class a range gives its accesses (R502). -/
def State.rangeCls (s : State) (unit ctx va : Nat) : Nat :=
  match s.rangeAt unit ctx va with
  | some r => r.cls
  | none => 0

/-- Does a unit's program await its descriptor: it is the unit's first, its gate is open, and it is not carried? -/
def State.wantsDesc (s : State) (unit : Nat) : Option FrameProg :=
  match s.openProg unit with
  | some p => if s.alive && p.desc.isEmpty then some p else none
  | none => none

/-- BLOCK_DESCRIPTOR_FETCH: ENTRY is checked for alignment, the descriptor is read as an instruction fetch, and checked; a program whose leaf has no
live core of its kind is terminated (R583). -/
def execBlockDescriptorFetch (unit : Nat) (s : State) : Host.Outcome State Fault Refusal :=
  match s.wantsDesc unit with
  | none => .next s
  | some p =>
    if !(p.entry % 32 == 0) then .next (s.descFault unit (if (s.unitCores unit).all (fun c => decide (512 ≤ c)) then 0x0901 else 0x040B) 0 [])
    else
      match s.devRead unit p.ctx 3 p.entry 32 (s.rangeCls unit p.ctx p.entry) with
      | (t, .ok d bad) =>
        let t := t.walkOnce s.primary
        if bad then .next (t.descFault unit 0x0409 p.entry [])
        else
          let first := detailOf [(52, 8, dNat d 0 8)]
          let onV := natBit (d.getD 31 0).toNat 7
          let kind := fun (c : Nat) => decide (512 ≤ c) == onV
          let mine := (t.unitCores unit).any kind
          if !mine || !(if onV then vDescOk d else blockDescOk d) then .next (t.descFault unit (if onV then 0x0901 else 0x040B) 0 first)
          else if t.noLive unit kind then .next (t.terminate unit (t.lostRec unit kind))
          else .next ((t.setProg unit { p with desc := d }).askLower unit)
      | (_, .fail va r) => .next ((s.walkOnce s.primary).descXlt unit p va r)
      | (t, .wait) => .next t
      | (_, .other) => .next ((s.walkOnce s.primary).descXlt unit p p.entry 2)

/-! ### Launch -/

/-- What a block of a descriptor takes on a core. -/
structure BlockNeed where
  threads : Nat
  regs : Nat
  loc : Nat
  engs : Nat
  bars : Nat
  deriving DecidableEq, Repr

def blockNeed (d : List Byte) : BlockNeed := ⟨dNat d 0 2 % 2048, dNat d 2 1, dNat d 3 1, dNat d 4 1, dNat d 5 1⟩

def BlockNeed.groups (n : BlockNeed) : Nat := ceilDiv n.threads 32

def State.freeSlots (s : State) (core : Nat) : List Nat := (List.range 32).filter (fun i => (s.tgroup core i).isNone)

def State.freeEngs (s : State) (core : Nat) : List Nat :=
  (List.range 4).filter (fun e => !(s.coreBlocks core).any (fun b => b.2.engs.contains e))

/-- Is everything a block needs free on the core at once (R149)? -/
def State.fits (s : State) (core : Nat) (n : BlockNeed) : Bool :=
  let bs := s.coreBlocks core
  let sum := fun (f : TBlock → Nat) => bs.foldl (fun a b => a + f b.2) 0
  decide (n.groups ≤ (s.freeSlots core).length) && decide (sum (fun b => b.regs * b.slots.length) + n.regs * n.groups ≤ 256)
    && decide (sum (fun b => b.localUnits) + n.loc ≤ 128) && decide (n.engs ≤ (s.freeEngs core).length)
    && decide (sum (fun b => b.bars.length) + n.bars ≤ 64)

/-- A group at launch (R147, R150, Table 4.2). -/
def launchGroup (blk idx threads item args core entry : Nat) : TGroup :=
  let lanes := List.range (min 32 (threads - 32 * idx))
  let g : TGroup := { blk := blk, idx := idx, pc := (entry + 32) % 2 ^ 57, live := maskOf lanes, active := maskOf lanes }
  lanes.foldl (fun g l => ((((g.setReg l 0 item).setReg l 1 (l + 32 * idx)).setReg l 2 (args % 2 ^ 32)).setReg l 3 (args / 2 ^ 32 % 2 ^ 25)).setReg
    l 4 core) g

/-- Put a work item's block on a core. -/
def State.putBlock (s : State) (p : FrameProg) (core item : Nat) : State :=
  let n := blockNeed p.desc
  let slots := (s.freeSlots core).take n.groups
  let blk := slots.headD 0
  let b : TBlock := { unit := p.unit, ctx := p.ctx, item := item, entry := p.entry, threads := n.threads, regs := n.regs, localUnits := n.loc,
                      engs := (s.freeEngs core).take n.engs, slots := slots, bars := List.replicate n.bars {}, strict := p.strict, rnd := p.rnd }
  let s := s.setTblock core blk (some b)
  let s := (slots.zipIdx).foldl (fun s x => s.setTgroup core x.1 (some (launchGroup blk x.2 n.threads item p.args core p.entry))) s
  s.syncTcore core

/-- An item of a program has been issued: the program runs from its first one (R69). -/
def State.itemIssued (s : State) (unit item : Nat) : State :=
  match s.prog unit with
  | some p => (((s.setProg unit { p with issued := p.issued ++ [item] }).syncClock unit).syncUnit unit).traceItem unit item false
  | none => s

/-- May a unit's program start an item: which core takes it (R540)? No item issues in the cycle of its gate's firing (R86). -/
def State.itemCore (s : State) (unit item : Nat) (onV : Bool) : Option (FrameProg × Nat) :=
  match s.prog unit with
  | some p =>
    let o := s.spread unit onV
    match o[item % o.length]? with
    | some c =>
      if s.alive && (!p.startEn || decide (p.firedAt < s.now)) && p.onV == onV && decide (item < p.items) && !p.issued.contains item && s.runnable unit c && !s.outranked unit c
          && s.freeFor unit c && !s.savedOn unit c then some (p, c) else none
    | none => none
  | none => none

/-- BLOCK_LAUNCH: a work item's block is launched on its core when everything it needs is free. -/
def execBlockLaunch (unit item : Nat) (s : State) : Host.Outcome State Fault Refusal :=
  match s.itemCore unit item false with
  | some (p, c) => .next (if s.fits c (blockNeed p.desc) then (s.putBlock p c item).itemIssued unit item else s)
  | none => .next s

/-! ### Completion -/

/-- Has a group nothing in flight: no access, no tumbler operation and no refusal on its way? -/
def State.groupQuiet (s : State) (core slot : Nat) : Bool :=
  !s.accs.any (fun p => match p.2 with
      | some a => a.tcore && a.core == core && a.slot == slot && !a.dead
      | none => false) && (s.groupReqs core slot).isEmpty
    && !s.tmb.notes.any (fun x => x.src == TmbSrc.tgroup core slot && (match x.ans with
      | .refused _ _ => true
      | _ => false))

/-- An item of a program has completed. -/
def State.itemDone (s : State) (unit item : Nat) : State :=
  match s.prog unit with
  | some p => (((s.setProg unit { p with done := p.done ++ [item] }).syncClock unit).syncUnit unit).traceItem unit item true
  | none => s

/-- A move of a unit that has nothing left on the core ends. -/
def State.dropMove (s : State) (core unit : Nat) : State :=
  match s.moveOn core with
  | some m =>
    if m.unit = unit ∧ m.stage ≠ 3 ∧ !s.holds unit core then
      State.setFlag { s with tc := { s.tc with moves := s.tc.moves.erase m } } (RF.TCW_STAT_SAVING core) false
    else s
  | none => s

/-- BLOCK_COMPLETE: all threads have exited, every access and tumbler operation is done, and every descriptor has retired (R152). -/
def execBlockComplete (core blk : Nat) (s : State) : Host.Outcome State Fault Refusal :=
  match s.tblock core blk with
  | some b =>
    let dead := b.slots.all (fun sl => match s.tgroup core sl with
      | some g => g.live == 0
      | none => true)
    let idle := b.engs.all (fun e => (s.engine core e).mq.isEmpty && (s.engine core e).vq.isEmpty && (s.engine core e).ops.isEmpty)
    if decide (core < 512) && s.alive && dead && idle && b.slots.all (s.groupQuiet core) then
      .next ((((s.freeBlock core blk).itemDone b.unit b.item).dropMove core b.unit).pumpRestores [core])
    else .next s
  | none => .next s

/-! ### Preemption (R192, R193) -/

/-- Take the preemption requests of a core's unit off the list; a restore in progress is given up. -/
def State.takePreempt (s : State) (c unit : Nat) : State :=
  { s with
    preempts := s.preempts.filter (fun p => !(p == (c, unit)))
    tc := { s.tc with moves := s.tc.moves.filter (fun m => !(m.core == c && m.unit == unit && m.stage == 3)) } }

/-- T_PREEMPT: a preemption request reaches a T-core: no group of the program issues any further instruction, and each engine finishes the
chunk in progress (R192, R309). Its waits at tumblers are withdrawn at the end of the cycle (State.stopWaits). -/
def execTPreempt (core : Nat) (s : State) : Host.Outcome State Fault Refusal :=
  match s.preempts.find? (fun p => p.1 == core) with
  | some (_, unit) =>
    if core < 512 ∧ s.alive then
      let s := (s.takePreempt core unit).setFlag (RF.TCW_STAT_RESTORING core) false
      let mine := (s.coreBlocks core).filter (fun b => b.2.unit == unit)
      if mine.isEmpty || (s.moveOn core).isSome then .next (s.syncClock unit)
      else
        let s := mine.foldl (fun s b =>
          let s := b.2.engs.foldl (fun s e =>
            let busy := (s.engine core e).mq.any (fun d => d.started && decide (d.next < d.units (d.mmode b.2).1))
            s.setEngine core e { s.engine core e with finishing := busy }) s
          s.setTblock core b.1 (some { b.2 with stopped := true })) s
        let s := { s with tc := { s.tc with moves := s.tc.moves ++ [({ core := core, unit := unit, stage := 1, since := s.now } : TMove)] } }
        .next ((s.setFlag (RF.TCW_STAT_SAVING core) true).syncClock unit)
    else .next s
  | none => .next s

/-- Has everything of a unit on a core ended that a drain waits for (R193, R309, R310)? -/
def State.drained (s : State) (core unit : Nat) : Bool :=
  ((s.coreBlocks core).filter (fun b => b.2.unit == unit)).all (fun b =>
    b.2.slots.all (s.groupQuiet core) && b.2.engs.all (fun e =>
      !(s.engine core e).finishing
        && (s.engine core e).mq.all (fun d => d.accepted && !(d.started && decide (d.units (d.mmode b.2).1 ≤ d.next))) && (s.engine core e).vq.all (fun d => d.accepted && !d.started)))

/-- T_DRAIN_DONE: the drain, which begins in the cycle after issue stops, ends, and the save begins. -/
def execTDrainDone (core : Nat) (s : State) : Host.Outcome State Fault Refusal :=
  match s.tc.moves.find? (fun m => m.core == core && m.stage == 1) with
  | some m =>
    if s.alive && decide (m.since < s.now) && s.drained core m.unit then
      let s := { s with tc := { s.tc with moves := s.tc.moves.map (fun x => if x = m then { x with stage := 2 } else x) } }
      .next (s.setFld (RF.TCW_DRAIN_MAX_CYCLES core) (max (s.fld (RF.TCW_DRAIN_MAX_CYCLES core)) (min (s.now - m.since) (2 ^ 32 - 1))))
    else .next s
  | none => .next s

/-! ### The save slot (Table 4.9) -/

/-- Bytes that the spec does not state: free values. -/
def State.freeBytes (s : State) (n : Nat) : List Byte × State :=
  ((List.range n).map (fun i => BitVec.ofNat 8 (Config.freeNat (s.freeCtr + i))), { s with freeCtr := s.freeCtr + n })

/-- Put bytes over others at an offset. -/
def overlay (base : List Byte) (off : Nat) (bs : List Byte) : List Byte := base.take off ++ bs ++ base.drop (off + bs.length)

/-- The progress word of an engine (Table 6.11). -/
def Engine.progress (e : Engine) (b : TBlock) : Nat :=
  e.mq.length + (match e.current b with
    | some d => if d.started then 16 + 256 * d.next + 2 ^ 24 * d.replays else 0
    | none => 0)

/-- The engine parts of the core header (Tables 6.10 and 7.9): `k` counts the engines held, in the order of their blocks. -/
def headerEngine (h : List Byte) (b : TBlock) (k : Nat) (e : Engine) : List Byte :=
  let h := (e.mq.zipIdx).foldl (fun h x => overlay h (0x400 + 0x200 * k + 64 * x.2) x.1.bytes) h
  let h := (List.range 4).foldl (fun h g => overlay h (0xC00 + 8 * (4 * k + g)) (leBytes 8 (e.grp g).word)) h
  let h := overlay h (0xC80 + 8 * k) (leBytes 8 (e.progress b))
  let h := overlay h (0xD00 + 0xC0 * k) (leBytes 8 e.vq.length)
  (e.vq.zipIdx).foldl (fun h x => overlay h (0xD40 + 0xC0 * k + 64 * x.2) x.1.bytes) h

/-- Blocks with their offsets, packed by a size. -/
def packed (size : TBlock → Nat) : Nat → List (Nat × TBlock) → List (Nat × TBlock)
  | _, [] => []
  | at_, b :: r => (at_, b.2) :: packed size (at_ + size b.2) r

/-- The parts of a slot that a save writes: offsets and lengths. -/
def saveParts (blocks : List (Nat × TBlock)) (engs : List Engine) : List (Nat × Nat) :=
  [(0, 4096)] ++ (blocks.flatMap (fun b => b.2.slots.map (fun sl => (0x1000 + 1024 * sl, 1024))))
  ++ (packed (fun b => 1024 * b.regs * b.slots.length) 0x10000 blocks).map (fun x => (x.1, 1024 * x.2.regs * x.2.slots.length))
  ++ (packed (fun b => 4096 * b.localUnits) 0x50000 blocks).map (fun x => (x.1, 4096 * x.2.localUnits))
  ++ (engs.zipIdx).flatMap (fun e => ((List.range 4).filter (fun g => (e.1.grp g).isOpen)).map (fun g => (0xD0000 + (4 * e.2 + g) * 0x8000, 32768)))

/-- The bytes of a save whose layout the spec gives: the header's engine parts over free values, local memory, and open groups. -/
def State.saveImage (s : State) (blocks : List (Nat × TBlock)) (engs : List (TBlock × Engine)) : List (Nat × List Byte) × State :=
  let (h, s) := s.freeBytes 4096
  let h := (engs.zipIdx).foldl (fun h x => headerEngine h x.1.1 x.2 x.1.2) h
  let (recs, s) := (blocks.flatMap (fun b => b.2.slots)).foldl (fun (acc : List (Nat × List Byte) × State) sl =>
    let (bs, s) := acc.2.freeBytes 1024
    (acc.1 ++ [(0x1000 + 1024 * sl, bs)], s)) ([], s)
  let (regs, s) := (packed (fun b => 1024 * b.regs * b.slots.length) 0x10000 blocks).foldl (fun (acc : List (Nat × List Byte) × State) x =>
    let (bs, s) := acc.2.freeBytes (1024 * x.2.regs * x.2.slots.length)
    (acc.1 ++ [(x.1, bs)], s)) ([], s)
  let locs := (packed (fun b => 4096 * b.localUnits) 0x50000 blocks).map (fun x => (x.1, localBytes x.2.localMem 0 (4096 * x.2.localUnits)))
  let accs := (engs.zipIdx).flatMap (fun e => ((List.range 4).filter (fun g => (e.1.2.grp g).isOpen)).map (fun g =>
    (0xD0000 + (4 * e.2 + g) * 0x8000, (List.range 4096).flatMap (fun i => leBytes 8 ((e.1.2.grp g).cell i)))))
  ([(0, h)] ++ recs ++ regs ++ locs ++ accs, s)

/-- May a save slot's part stand where it is: in a sealed partition of the unit when the unit has one (R200)? -/
def State.sealOk (s : State) (unit ctx va len : Nat) : Bool :=
  match s.unitEnt unit with
  | some u =>
    let sealed := (maskBits 64 u.partMask).filter s.sealedPart
    sealed.isEmpty || (blocksOf va len).all (fun a => match s.rangeAt unit ctx a with
      | some r => (r.kind == 0 || r.kind == 3) && sealed.contains r.part
      | none => false)
  | none => true

/-- The bytes of a save slot (R194). -/
def tSlotLen : Nat := 0x180000

/-- How the parts of a slot translate: 0 all do, 1 one waits, 2 one fails. -/
def State.slotXlt (s : State) (unit ctx access base : Nat) (parts : List (Nat × Nat)) : Nat :=
  parts.foldl (fun a p => if p.2 = 0 then a else max a (match s.runFails unit ctx access (base + p.1) p.2 with
    | some (_, .wait) => 1
    | some _ => 2
    | none => if s.piecesWait unit ctx (access == 1) (s.devPieces unit ctx access (base + p.1) p.2) then 1 else 0)) 0

/-- A slot whose lines are held waits for them (R571). -/
def State.noteSlot (s : State) (unit ctx access base : Nat) (parts : List (Nat × Nat)) : State :=
  parts.foldl (fun s p => if p.2 = 0 then s else s.noteWaits unit ctx (access == 1) (s.devPieces unit ctx access (base + p.1) p.2)) s

def State.tSaveBase (s : State) (core p : Nat) : Nat :=
  s.fld (RF.TCW_SAVE_BASE_LO_BASE core p) * 4096 + 2 ^ 32 * s.fld (RF.TCW_SAVE_BASE_HI_BASE core p)

/-- Fault 0x040C (R199). -/
def State.saveFail (s : State) (core unit p dir : Nat) : State :=
  ((s.bump (RF.TCW_FAULTS_COUNT core)).setFlag (RF.TCW_STAT_FAULTED core) true).terminate unit
    { code := 0x040C, srcKind := 1, srcId := core, detail := detailOf [(52, 1, p), (53, 1, dir)] }

/-- Write a run of a slot: to device memory, to host memory, or as requests to the device behind a window. -/
def State.putRun (s : State) (core unit ctx va : Nat) (bs : List Byte) : State :=
  match s.xlate unit ctx 1 va with
  | .win r off =>
    let leaf := if core < 512 then coreLeaf core else (core - 512) / 64
    let qs := (cutRun (bs.length + 1) off 0 bs.length).map (fun p =>
      ({ who := .save core, leaf := leaf, peer := r.peer, op := 1, window := r.window, off := off + p.1, size := p.2, data := (bs.drop p.1).take p.2 } : RemReq))
    { s with ptl := { s.ptl with reqs := s.ptl.reqs ++ qs } }
  | _ => (s.devWrite unit ctx va (s.rangeCls unit ctx va) bs).1

/-- Write the parts of a slot, block by block: each block has a target of its own (R197). -/
def State.putParts (s : State) (core unit ctx base : Nat) (parts : List (Nat × List Byte)) : State :=
  parts.foldl (fun s x => if x.2.isEmpty then s
    else (blockRuns (base + x.1) x.2.length).foldl (fun s r => s.putRun core unit ctx r.1 ((x.2.drop (r.1 - (base + x.1))).take r.2)) s) s

/-- The runs of a slot's parts. -/
def slotRuns (base : Nat) (parts : List (Nat × Nat)) : List (Nat × Nat) :=
  parts.flatMap (fun x => if x.2 = 0 then [] else blockRuns (base + x.1) x.2)

/-- How many bytes of a slot lie outside device memory. -/
def State.slotAway (s : State) (unit ctx base : Nat) (parts : List (Nat × Nat)) : Nat :=
  (slotRuns base parts).foldl (fun n r => if (s.xlate unit ctx 0 r.1).isDev then n else n + r.2) 0

/-- Read the runs of a slot: its bytes, those outside device memory from `ext`, and whether any is poisoned. -/
def State.getRuns (s : State) (unit ctx : Nat) : List (Nat × Nat) → List Byte → State × List Byte × Bool
  | [], _ => (s, [], false)
  | r :: rest, ext =>
    match s.devRead unit ctx 0 r.1 r.2 (s.rangeCls unit ctx r.1) with
    | (t, .ok bs bad) =>
      let (u, tail, bad') := t.getRuns unit ctx rest ext
      (u, bs ++ tail, bad || bad')
    | _ =>
      let (u, tail, bad') := s.getRuns unit ctx rest (ext.drop r.2)
      (u, ext.take r.2 ++ tail, bad')

/-- The parts of a slot with their bytes, from the bytes of all of them in order. -/
def partBytes : List (Nat × Nat) → List Byte → List (Nat × List Byte)
  | [], _ => []
  | x :: r, bs => (x.1, bs.take x.2) :: partBytes r (bs.drop x.2)

/-- The bytes of the part at an offset. -/
def partAt (img : List (Nat × List Byte)) (off : Nat) : List Byte := match img.find? (fun x => x.1 == off) with
  | some x => x.2
  | none => []

/-! ### What a restore takes from the slot (R314, R356) -/

/-- A group from its state word (Table 6.1) and its cells. -/
def AccGroup.ofWord (w : Nat) (cells : List Byte) : AccGroup :=
  { isOpen := natBit w 0, wide := natBit w 1, strict := natBit w 2, intCell := natBit w 3, rnd := natBits w 4 2, isat := natBit w 7,
    flags := natBits w 8 5, cls := natBits w 16 3, sigma := toSigned 8 (natBits w 24 8)
    cells := (List.range (cells.length / 8)).foldl (fun c i => kvSet (fun _ => (0 : BitVec 64)) c i (BitVec.ofNat 64 (dNat cells (8 * i) 8))) [] }

/-- The descriptors of a saved queue, their bytes from the slot. -/
def slotDescs (q : List Desc) (count : Nat) (bytes : Nat → List Byte) : List Desc :=
  (List.range count).map (fun i => { q.getD i { bytes := [], addr := 0, slot := 0, pc := 0, issue := i, accepted := true } with bytes := bytes i })

/-- An engine as the slot holds it: its groups, its descriptors and its progress (Tables 6.10, 6.11 and 7.9); `k` counts the engines held. The order of its
operations and what waits for its turn have no layout, and come from the saved copy. -/
def Engine.fromSlot (e : Engine) (img : List (Nat × List Byte)) (k : Nat) : Engine :=
  let h := partAt img 0
  let word := fun (g : Nat) => dNat h (0xC00 + 8 * (4 * k + g)) 8
  let p := dNat h (0xC80 + 8 * k) 8
  let mq := slotDescs e.mq (min (p % 16) 8) (fun i => (h.drop (0x400 + 0x200 * k + 64 * i)).take 64)
  let vq := slotDescs e.vq (min (dNat h (0xD00 + 0xC0 * k) 8) 2) (fun i => (h.drop (0xD40 + 0xC0 * k + 64 * i)).take 64)
  { e with
    acc := (List.range 4).foldl (fun a g => kvSet (fun _ => {}) a g (AccGroup.ofWord (word g) (if natBit (word g) 0 then partAt img (0xD0000 + (4 * k + g) * 0x8000)
      else []))) []
    mq := (mq.zipIdx).map (fun x => if x.2 = 0 then { x.1 with started := natBit p 4, next := natBits p 8 13, replays := natBits p 24 4 }
      else { x.1 with started := false, next := 0, replays := 0 })
    vq := vq }

/-- The saved state of a program on a core with what the slot's bytes say of it: local memory, engines and groups. -/
def TSave.fromSlot (sv : TSave) (img : List (Nat × List Byte)) : TSave :=
  let locs := packed (fun b => 4096 * b.localUnits) 0x50000 sv.blocks
  { sv with
    blocks := (sv.blocks.zip locs).map (fun x => (x.1.1, { x.1.2 with localMem := localPut [] 0 (partAt img x.2.1) }))
    engines := (sv.engines.zipIdx).map (fun e => (e.1.1, e.1.2.fromSlot img e.2)) }

/-- T_SAVE_DONE: the program's state on the core has been written to its slot, or the save fails (R194 to R200). -/
def execTSaveDone (core : Nat) (s : State) : Host.Outcome State Fault Refusal :=
  match s.tc.moves.find? (fun m => m.core == core && m.stage == 2) with
  | some m =>
    match s.prog m.unit with
    | some p =>
      let prio := s.prioOf m.unit
      let base := s.tSaveBase core prio
      let blocks := (s.coreBlocks core).filter (fun b => b.2.unit == m.unit)
      let engs := blocks.flatMap (fun b => b.2.engs.map (fun e => (b.2, e, s.engine core e)))
      let parts := saveParts blocks (engs.map (fun e => e.2.2))
      if !s.alive then .next s
      else if base = 0 then .next (s.saveFail core m.unit prio 0)
      else
        match s.slotXlt m.unit p.ctx 1 base parts with
        | 0 =>
          if !s.sealOk m.unit p.ctx base tSlotLen then .next (s.saveFail core m.unit prio 0)
          else
            let save : TSave :=
              { unit := m.unit
                blocks := blocks
                groups := blocks.flatMap (fun b => b.2.slots.filterMap (fun sl => (s.tgroup core sl).map (fun g => (sl, g))))
                engines := engs.map (fun e => (e.2.1, e.2.2)) }
            let (image, s) := s.saveImage blocks (engs.map (fun e => (e.1, e.2.2)))
            let s := s.putParts core m.unit p.ctx base image
            let s := blocks.foldl (fun s b => s.freeBlock core b.1) s
            let s := { s with tc := { s.tc with
              saves := kvSet (fun _ => none) s.tc.saves (core * 8 + prio) (some save)
              moves := s.tc.moves.erase m } }
            let s := s.setFld (RF.TCW_SAVED_SLOT core) (natSetBits (s.fld (RF.TCW_SAVED_SLOT core)) prio 1 1)
            let s := (s.setFlag (RF.TCW_STAT_SAVING core) false).bump (RF.TCW_PREEMPT_COUNT core)
            .next (s.pumpRestores [core])
        | 1 => .next (s.noteSlot m.unit p.ctx 1 base parts)
        | _ => .next (s.saveFail core m.unit prio 0)
    | none => .next s
  | none => .next s

/-- A restored group goes on: a TMB.WAIT is sent again with the rest of its timeout (R416). -/
def State.resumeGroup (s : State) (core unit : Nat) (x : Nat × TGroup) : State :=
  match x.2.wait with
  | .tmb n op d dl sc =>
    let s := s.sendTmb { src := .tgroup core x.1, kind := 1, id := core, op := .wait, tmb := n, operand := op, unit := unit,
                         lane := x.2.lowest, pc := x.2.pc, after := s.nextAcc, sys := sc == 3 }
    s.setTgroup core x.1 (some { x.2 with wait := .tmb n op d (dl.map (fun t => t + s.coreClock core)) sc })
  | _ => s.setTgroup core x.1 (some x.2)

/-- T_RESTORE_DONE: the saved state of a program has been read back, or the restore fails (R198, R199, R314, R416). `ext` is what the slot's parts outside
device memory hold, and `poison` says that one of them is poisoned. -/
def execTRestoreDone (core : Nat) (ext : List Byte) (poison : Bool) (s : State) : Host.Outcome State Fault Refusal :=
  match s.tc.moves.find? (fun m => m.core == core && m.stage == 3) with
  | some m =>
    let prio := s.prioOf m.unit
    match s.prog m.unit, kvGet (fun _ => none) s.tc.saves (core * 8 + prio) with
    | some p, some sv =>
      let base := s.tSaveBase core prio
      let parts := saveParts sv.blocks (sv.engines.map (fun e => e.2))
      if !s.alive || !(sv.unit == m.unit) then .next s
      else if base = 0 then .next (s.saveFail core m.unit prio 1)
      else
        match s.slotXlt m.unit p.ctx 0 base parts with
        | 0 =>
          if !(ext.length == s.slotAway m.unit p.ctx base parts) then .next s else
          let (s, bytes, bad) := s.getRuns m.unit p.ctx (slotRuns base parts) ext
          if bad || (poison && !ext.isEmpty) then .next (s.saveFail core m.unit prio 1)
          else
            let sv := sv.fromSlot (partBytes parts bytes)
            let s := { s with tc := { s.tc with
              saves := kvSet (fun _ => none) s.tc.saves (core * 8 + prio) none
              moves := s.tc.moves.erase m } }
            let s := s.setFld (RF.TCW_SAVED_SLOT core) (natSetBits (s.fld (RF.TCW_SAVED_SLOT core)) prio 1 0)
            let s := sv.blocks.foldl (fun s b => s.setTblock core b.1 (some { b.2 with stopped := false })) s
            let s := sv.groups.foldl (fun s g => s.resumeGroup core m.unit g) s
            let s := sv.engines.foldl (fun s e => s.setEngine core e.1 e.2) s
            let s := sv.engines.foldl (fun s e => s.pumpEngine core e.1) s
            let s := sv.blocks.foldl (fun s b => s.settleWaitq core { b.2 with stopped := false }) s
            .next (((s.setFlag (RF.TCW_STAT_RESTORING core) false).syncTcore core).syncClock m.unit)
        | 1 => .next (s.noteSlot m.unit p.ctx 0 base parts)
        | _ => .next (s.saveFail core m.unit prio 1)
    | _, _ => .next s
  | none => .next s

end Sys2Proof.Machine
end

