-- ==== Sys2Proof/Machine/Fabric.lean ====
section
/-! DEFINITION. The on-package fabric (chapter 1): routes, the resend protocol of a link, retraining, and links that go down. -/

namespace Sys2Proof.Machine

/-! ### Routes (R23 to R27, R41) -/

/-- The two ends of a link (Table 1.3); dies 0–7 are C0–C7, 8 is P0, 9 is P1. -/
def linkEnds : List (Nat × Nat) :=
  [(8, 0), (8, 1), (0, 1), (0, 2), (1, 3), (2, 3), (9, 4), (9, 5), (4, 5), (4, 6), (5, 7), (6, 7), (2, 6), (3, 7)]

/-- The link joining two dies. -/
def linkOf (a b : Nat) : Option Nat :=
  (List.range 14).find? (fun l =>
    let e := linkEnds.getD l (0, 0)
    e == (a, b) || e == (b, a))

/-- A link's direction out of a die: 2 × link, plus 1 for direction B. -/
def dirFrom (l die : Nat) : Nat := if (linkEnds.getD l (0, 0)).1 = die then 2 * l else 2 * l + 1

def dieLeaf (d : Nat) : Nat := if d = 8 then 0 else if d = 9 then 1 else d / 4
def dieCol (d : Nat) : Nat := d % 2

/-- The next die of the fixed route from a die to a destination (R24 to R26). -/
def nextDie (cur dst : Nat) : Nat :=
  if 8 ≤ cur then
    let col := if 8 ≤ dst then 0 else dieCol dst
    4 * (cur - 8) + col
  else
    let leaf := dieLeaf dst
    let col := if 8 ≤ dst then dieCol cur else dieCol dst
    let base := 4 * (cur / 4)
    if cur / 4 = leaf then
      let target := if 8 ≤ dst then 4 * leaf + col else dst
      if cur = target then dst
      else if dieCol cur ≠ dieCol target then base + (cur % 4) / 2 * 2 + dieCol target
      else target
    else
      if dieCol cur ≠ col then base + (cur % 4) / 2 * 2 + col
      else if cur % 4 < 2 then cur + 2
      else if cur / 4 = 0 then cur + 4 else cur - 4

/-- The dies within n crossings of a destination, over links that are up and through dies that `via` admits. -/
def within (up via : Nat → Bool) (dst : Nat) : Nat → List Nat
  | 0 => [dst]
  | n + 1 =>
    let r := within up via dst n
    let on := r.filter (fun d => d == dst || via d)
    (List.range 10).filter (fun d => r.contains d || (List.range 14).any (fun l =>
      let e := linkEnds.getD l (0, 0)
      up l && ((e.1 == d && on.contains e.2) || (e.2 == d && on.contains e.1))))

/-- The next die of a shortest path over links that are up and through dies that `via` admits. -/
def pathDie (up via : Nat → Bool) (cur dst : Nat) : Option Nat :=
  let ok := fun (n d : Nat) => (within up via dst n).contains d && (d == dst || via d)
  (List.range 10).findSome? (fun n =>
    if (within up via dst n).contains cur then none
    else if (within up via dst (n + 1)).contains cur then
      (List.range 14).findSome? (fun l =>
        let e := linkEnds.getD l (0, 0)
        if up l then
          if e.1 = cur ∧ ok n e.2 then some e.2
          else if e.2 = cur ∧ ok n e.1 then some e.1 else none
        else none)
    else none)

/-- The next die of a detour (R41): a shortest path through the grid, where a detour inside it adds two crossings, else through a P-die. -/
def detourDie (up : Nat → Bool) (cur dst : Nat) : Option Nat :=
  match pathDie up (fun d => decide (d < 8)) cur dst with
  | some d => some d
  | none => pathDie up (fun _ => true) cur dst

/-- Are all the links of the fixed route up? -/
def routeUp (up : Nat → Bool) (dst : Nat) : Nat → Nat → Bool
  | 0, _ => true
  | n + 1, cur =>
    if cur = dst then true
    else
      let d := nextDie cur dst
      match linkOf cur d with
      | some l => up l && routeUp up dst n d
      | none => false

def State.linkUp (s : State) (l : Nat) : Bool := !s.flag (RF.MGT_FAB_STAT_DOWN l)

/-- The direction on which a block leaves a die for a destination. -/
def State.outDir (s : State) (cur dst : Nat) : Option Nat :=
  let d := if routeUp s.linkUp dst 8 cur then some (nextDie cur dst) else detourDie s.linkUp cur dst
  match d with
  | some d => (linkOf cur d).map (fun l => dirFrom l cur)
  | none => none

/-! ### The block on the wire (R28, R29) -/

/-- One bit through the reflected CRC-32 register; 0xEDB8_8320 is the polynomial 0x04C1_1DB7 reflected. -/
def crcBit (c : BitVec 32) : BitVec 32 := if c.getLsbD 0 then (c >>> 1) ^^^ 0xEDB88320#32 else c >>> 1

def crcByte (c : BitVec 32) (b : Byte) : BitVec 32 :=
  crcBit (crcBit (crcBit (crcBit (crcBit (crcBit (crcBit (crcBit (c ^^^ b.setWidth 32))))))))

/-- The IEEE 802.3 CRC-32 (R29). -/
def crc32 (bs : List Byte) : BitVec 32 := bs.foldl crcByte 0xFFFFFFFF#32 ^^^ 0xFFFFFFFF#32

/-- The first 96 bits of a block (Table 1.4). -/
def FabBlock.head (b : FabBlock) : Nat :=
  b.seq % 2 ^ 12 + 2 ^ 12 * (b.ack.getD 0 % 2 ^ 12) + 2 ^ 24 * b.ack.isSome.toNat + 2 ^ 25 * b.nak.toNat + 2 ^ 26 * (b.vc % 4)
    + 2 ^ 28 * b.poison.toNat + 2 ^ 29 * b.idle.toNat + 2 ^ 32 * (b.dst % 16) + 2 ^ 36 * (b.src % 16) + 2 ^ 40 * (b.sect % 256)
    + 2 ^ 48 * (b.tag % 2 ^ 16)

/-- Bytes 0 to 267: the head and a payload of 256 bytes. -/
def FabBlock.bytes (b : FabBlock) : List Byte :=
  leBytes 12 b.head ++ b.payload.take 256 ++ List.replicate (256 - b.payload.length) 0

/-- The 272 bytes of a block: its CRC stands last. -/
def FabBlock.frame (b : FabBlock) : List Byte := b.bytes ++ leBytes 4 (crc32 b.bytes).toNat

/-- The fields that 272 bytes carry. -/
def FabBlock.ofFrame (bs : List Byte) : FabBlock :=
  let h := leNat (bs.take 12)
  let f := fun (lo w : Nat) => h / 2 ^ lo % 2 ^ w
  { seq := f 0 12, vc := f 26 2, poison := f 28 1 == 1, dst := f 32 4, src := f 36 4, sect := f 40 8, tag := f 48 16
    payload := (bs.drop 12).take 256, ack := if f 24 1 = 1 then some (f 12 12) else none, nak := f 25 1 == 1, idle := f 29 1 == 1 }

/-- Bytes as a link's bit errors leave them: `noise` is what is added to each byte modulo 2, nothing beyond its end. -/
def disturbed (bs noise : List Byte) : List Byte := bs.zipIdx.map (fun x => x.1 ^^^ noise.getD x.2 0)

/-- What a receiver makes of a block: nothing when its CRC fails. -/
def FabBlock.arrive (b : FabBlock) (noise : List Byte) : Option FabBlock :=
  let bs := disturbed b.frame noise
  if (crc32 (bs.take 268)).toNat = leNat (bs.drop 268) then some (FabBlock.ofFrame bs) else none

/-! ### Senders and receivers -/

def State.linkDir (s : State) (d : Nat) : LinkDir := kvGet (fun _ => {}) s.links d
def State.setLinkDir (s : State) (d : Nat) (x : LinkDir) : State := { s with links := kvSet (fun _ => {}) s.links d x }

/-- The opposite direction of the same link. -/
def revDir (d : Nat) : Nat := if d % 2 = 0 then d + 1 else d - 1

/-- Place a new block on a direction: it takes the next SEQ and stays in the replay buffer until acknowledged (R31). -/
def State.launchBlock (s : State) (d : Nat) (b : FabBlock) : State :=
  let x := s.linkDir d
  let b := { b with seq := x.nextSeq, ack := (s.linkDir (revDir d)).acked }
  s.setLinkDir d { x with
    nextSeq := (x.nextSeq + 1) % 4096
    replay := x.replay ++ [b]
    wire := x.wire ++ [b]
    lastAdvance := if x.replay.isEmpty then s.now else x.lastAdvance
    expired := if x.replay.isEmpty then 0 else x.expired }

/-- Has the sender of a direction room for a new block (R31)? Blocks that wait from a link that went down go first (R41). -/
def LinkDir.hasRoom (x : LinkDir) : Bool := !x.stopped && decide (x.replay.length < 512) && x.waiting.isEmpty

/-- The blocks that wait on a direction go out as far as its sender has room. -/
def State.launchWaiting (s : State) (d : Nat) : State :=
  let x := s.linkDir d
  let n := if x.stopped then 0 else 512 - x.replay.length
  (x.waiting.take n).foldl (fun s b => s.launchBlock d b) (s.setLinkDir d { x with waiting := x.waiting.drop n })

/-- An IDLE block carrying an acknowledgement or a NAK of direction `d`, on the opposite direction (R32 to R34). -/
def State.sendAck (s : State) (d : Nat) (nak : Bool) : State :=
  let r := revDir d
  let x := s.linkDir d
  let ack := (x.expected + 4095) % 4096
  let s := s.setLinkDir d { x with acked := some ack, nakOut := nak || x.nakOut }
  let y := s.linkDir r
  s.setLinkDir r { y with wire := y.wire ++ [{ seq := 0, vc := 0, poison := false, dst := 0, src := 0, sect := 0, tag := 0,
                                               payload := [], ack := some ack, nak := nak, idle := true }] }

/-- Retraining begins: the link stops sending both ways (R38). UP stays as it is (DESIGN CHOICE, log entry 107). -/
def State.retrainStart (s : State) (l : Nat) : State :=
  let stop := fun (s : State) d => s.setLinkDir d { s.linkDir d with stopped := true, retrainAt := s.now, wire := [] }
  ((stop (stop s (2 * l)) (2 * l + 1)).setFlag (RF.MGT_FAB_STAT_RETRAIN l) true).bump (RF.MGT_FAB_RETRAIN_COUNT l)

/-- Resend every unacknowledged block in sequence order (R35, R36), or retrain at the replay limit (R38). What is still on its way is taken off the
wire (DESIGN CHOICE, log entry 105). -/
def State.replay (s : State) (d : Nat) : State :=
  let x := s.linkDir d
  let l := d / 2
  if x.replay.isEmpty || x.stopped then s
  else if atLeast1 (s.fld (RF.MGT_FAB_CTL_REPLAY_LIMIT l)) ≤ x.replays then s.retrainStart l
  else (s.setLinkDir d { x with
      wire := x.wire.filter (fun b => b.idle) ++ x.replay, replays := x.replays + 1, nakOut := false }).bump
    (RF.MGT_FAB_REPLAY_COUNT l)

/-- An ACK frees the blocks it covers (R31); a NAK begins a replay (R35). -/
def State.takeAck (s : State) (d ack : Nat) (nak : Bool) : State :=
  let x := s.linkDir d
  let s := match x.replay.findIdx? (fun b => b.seq == ack) with
    | some i => s.setLinkDir d { x with replay := x.replay.drop (i + 1), replays := 0, lastAdvance := s.now, expired := 0 }
    | none => s
  (if nak then s.replay d else s).launchWaiting d

/-- FAB_BLOCK_SEND: a die sends a block towards its destination when the sender has room (R31). -/
def execFabBlockSend (die vc : Nat) (poison : Bool) (dst src sect tag : Nat) (payload : List Byte) (s : State) :
    Host.Outcome State Fault Refusal :=
  match s.outDir die dst with
  | none => .next s
  | some d =>
    if (s.linkDir d).hasRoom then
      .next (s.launchBlock d { seq := 0, vc := vc, poison := poison, dst := dst, src := src, sect := sect, tag := tag, payload := payload })
    else .next s

/-- A receiver's verdict on a block (R32 to R34). -/
def State.receiveBlock (s : State) (d : Nat) (b : FabBlock) : State :=
  let x := s.linkDir d
  let l := d / 2
  if b.seq = x.expected then
    let s := if b.poison then s.setFlag (RF.MGT_FAB_STAT_POISON_SEEN l) true else s
    (s.setLinkDir d { x with expected := (x.expected + 1) % 4096, nakOut := false, delivered := x.delivered ++ [b] }).sendAck d false
  else if (x.expected + 4096 - b.seq) % 4096 ≤ 2048 then
    (s.bump (RF.MGT_FAB_DUPDROP_COUNT l)).sendAck d false
  else if x.nakOut then s else s.sendAck d true

/-- FAB_BLOCK_RECEIVE: the receiver of a direction takes the oldest block on it whole, with the bit errors `noise` of the link. -/
def execFabBlockReceive (dir : Nat) (noise : List Byte) (s : State) : Host.Outcome State Fault Refusal :=
  let x := s.linkDir dir
  match x.wire with
  | [] => .next s
  | sent :: r =>
    let s := s.setLinkDir dir { x with wire := r }
    match sent.arrive noise with
    | some b =>
      let s := match b.ack with
        | some a => s.takeAck (revDir dir) a b.nak
        | none => s
      .next (if b.idle then s else s.receiveBlock dir b)
    | none =>
      let s := s.bump (RF.MGT_FAB_CRCERR_COUNT (dir / 2))
      .next (if (s.linkDir dir).nakOut then s else s.sendAck dir true)

/-- FAB_ACK_TIMEOUT: no ACK advanced the oldest block within the timeout, in units of 0.25 µs, 625 cycles, counted from the last ACK advance
(R36). An ACK of the timeout's own cycle wins, so that the timeout acts once that cycle is over (R37). -/
def execFabAckTimeout (dir : Nat) (s : State) : Host.Outcome State Fault Refusal :=
  let x := s.linkDir dir
  let lim := atLeast1 (s.fld (RF.MGT_FAB_CTL_ACK_TIMEOUT (dir / 2))) * 625
  if !x.replay.isEmpty && !x.stopped && decide (x.lastAdvance + (x.expired + 1) * lim < s.now) then
    .next ((s.setLinkDir dir { x with expired := x.expired + 1 }).replay dir)
  else .next s

/-! ### Lanes (R846 to R851) -/

/-- Bundles of each direction of a link. -/
def linkBundles (l : Nat) : Nat := if l < 12 then 40 else 32

def laneKey (l dir bundle : Nat) : Nat := (2 * l + dir) * 64 + bundle

/-- Usable lanes of a bundle, of 68. -/
def State.usable (s : State) (l dir b : Nat) : Nat :=
  68 - (maskBits 68 (kvGet (fun _ => 0) s.boot.badLanes (laneKey l dir b))).length

/-- Bundles in service of a direction (R849). -/
def State.bundlesUp (s : State) (l dir : Nat) : Nat :=
  ((List.range (linkBundles l)).filter (fun b => decide (64 ≤ s.usable l dir b))).length

/-- Data position k uses the (k + 1)-th lane that is not bad (R849): positions moved off their own lane. -/
def sparedIn (bad : Nat) : Nat :=
  match (List.range 64).find? (fun i => natBit bad i) with
  | some i => 64 - i
  | none => 0

/-- MGT_LANE_A and MGT_LANE_B show a direction's bundles in service, its positions moved, and its least free spares. -/
def State.syncLanes (s : State) (l dir : Nat) : State :=
  let bs := (List.range (linkBundles l)).filter (fun b => decide (64 ≤ s.usable l dir b))
  let moved := bs.foldl (fun a b => a + sparedIn (kvGet (fun _ => 0) s.boot.badLanes (laneKey l dir b))) 0
  let free := bs.foldl (fun m b => min m (s.usable l dir b - 64)) 4
  let a := if dir = 0 then RA.MGT_LANE_A l else RA.MGT_LANE_B l
  ((s.setFld ⟨a, 7, 0⟩ bs.length).setFld ⟨a, 15, 8⟩ (min moved 255)).setFld ⟨a, 31, 24⟩ (if bs.isEmpty then 0 else free)

/-- Mark a lane bad: event 0x1204, and 0x1206 when its bundle goes out of service. -/
def State.laneBad (s : State) (l dir b lane by_ : Nat) : State :=
  let k := laneKey l dir b
  let m := kvGet (fun _ => 0) s.boot.badLanes k
  if natBit m lane then s
  else
    let was := s.usable l dir b
    let s := { s with boot := { s.boot with badLanes := kvSet (fun _ => 0) s.boot.badLanes k (Nat.lor m (2 ^ lane)) } }
    let s := s.syncLanes l dir
    let s := s.emit { code := 0x1204, srcKind := 7, srcId := l, detail := detailOf [(52, 1, l), (53, 1, dir), (54, 1, b), (55, 1, lane), (56, 1, by_)] }
    if was = 64 then
      s.emit { code := 0x1206, srcKind := 7, srcId := l, detail := detailOf [(52, 1, l), (53, 1, dir), (54, 1, s.bundlesUp l dir)] }
    else s

/-- A block of a link that went down leaves its die again, over the detour, as soon as the sender there has room (R41, R31). With no path left it
is lost (DESIGN CHOICE, log entry 106). -/
def State.resendOver (s : State) (die : Nat) (b : FabBlock) : State :=
  match s.outDir die b.dst with
  | some d => (s.setLinkDir d { s.linkDir d with waiting := (s.linkDir d).waiting ++ [b] }).launchWaiting d
  | none => s

/-- Is a P-die cut off: both its links down (R42)? -/
def State.isolated (s : State) : Bool := (!s.linkUp 0 && !s.linkUp 1) || (!s.linkUp 6 && !s.linkUp 7)

/-- Are all the links of a C-die down (R582)? -/
def State.dieCut (s : State) (d : Nat) : Bool :=
  (List.range 14).all (fun l =>
    let e := linkEnds.getD l (0, 0)
    !(e.1 == d || e.2 == d) || !s.linkUp l)

/-- A link goes down (R40 to R42, R850): its record, and its replay buffers resent over the detour. A C-die that it cuts off is declared dead. -/
def State.linkDown (s : State) (l reason : Nat) : State :=
  let e := linkEnds.getD l (0, 0)
  let a := (s.linkDir (2 * l)).replay ++ (s.linkDir (2 * l)).waiting
  let b := (s.linkDir (2 * l + 1)).replay ++ (s.linkDir (2 * l + 1)).waiting
  let s := ((s.setFlag (RF.MGT_FAB_STAT_DOWN l) true).setFlag (RF.MGT_FAB_STAT_UP l) false).setFlag (RF.MGT_FAB_STAT_RETRAIN l) false
  let clear := fun (s : State) d => s.setLinkDir d { s.linkDir d with replay := [], waiting := [], wire := [], stopped := true, down := true }
  let s := clear (clear s (2 * l)) (2 * l + 1)
  let s := s.emit { code := 0x1205, fault := true, fatal := s.isolated, srcKind := 7, srcId := l, detail := detailOf [(52, 1, l), (53, 1, reason)] }
  let s := b.foldl (fun s x => s.resendOver e.2 x) (a.foldl (fun s x => s.resendOver e.1 x) s)
  [e.1, e.2].foldl (fun s d => if decide (d < 8) && s.dieCut d then s.declareDie d 2 else s) s

/-- FAB_RETRAIN_DONE: the lanes that failed are removed, then the sender replays from its oldest block (R39, R851); its acknowledgement timeout
counts from here (DESIGN CHOICE, log entry 105). -/
def execFabRetrainDone (link : Nat) (bad : List LaneId) (s : State) : Host.Outcome State Fault Refusal :=
  if (s.linkDir (2 * link)).stopped && !(s.linkDir (2 * link)).down then
    let s := bad.foldl (fun s x =>
      let old := kvGet (fun _ => 0) s.boot.badLanes (laneKey link x.1 x.2.1)
      if natBit old x.2.2 then s
      else (s.laneBad link x.1 x.2.1 x.2.2 1).bump (RF.MGT_LANE_RT_COUNT link)) s
    if decide (linkBundles link ≤ 2 * s.bundlesUp link 0) && decide (linkBundles link ≤ 2 * s.bundlesUp link 1) then
      let go := fun (s : State) d =>
        let x := s.linkDir d
        s.setLinkDir d { x with stopped := false, replays := 0, wire := x.replay, lastAdvance := s.now, expired := 0, nakOut := false }
      let go := fun (s : State) d => (go s d).launchWaiting d
      .next ((go (go s (2 * link)) (2 * link + 1)).setFlag (RF.MGT_FAB_STAT_RETRAIN link) false)
    else .next (s.linkDown link 1)
  else .next s

/-- FAB_RETRAIN_TIMEOUT: retraining has not succeeded within 10 µs, 25,000 cycles (R40). -/
def execFabRetrainTimeout (link : Nat) (s : State) : Host.Outcome State Fault Refusal :=
  let x := s.linkDir (2 * link)
  if x.stopped && !x.down && decide (x.retrainAt + 25000 < s.now) then .next (s.linkDown link 0) else .next s

end Sys2Proof.Machine
end

