-- ==== Sys2Proof/Machine/Kept.lean ====
section
/-! DEFINITION. The registers that a warm start keeps: the counters (R44, R103, R144, R212, R321, R361, R487, R557, R596, R640, R669, R717, R764,
R798, R838, R877) and those that the spec says keep their values. Each is named by its address and the strides of its copies. -/

namespace Sys2Proof.Machine

def keptRows0 : List (Nat × List (Nat × Nat)) :=
  [ (0x4, []),
    (0x8, []),
    (0x10, []),
    (0x18, []),
    (0x20, []),
    (0x24, []),
    (0x28, []),
    (0x114, []),
    (0x12C, []),
    (0x404, [(0x20, 16)]),
    (0x408, [(0x20, 16)]),
    (0x410, [(0x20, 16)]),
    (0x10024, [(0x40, 4096)]),
    (0x10028, [(0x40, 4096)]),
    (0x100028, []),
    (0x10002C, []),
    (0x100030, []),
    (0x100040, []),
    (0x101004, [(0x20, 1024)]),
    (0x101008, [(0x20, 1024)]),
    (0x10100C, [(0x20, 1024)]),
    (0x101010, [(0x20, 1024)]),
    (0x200030, []),
    (0x200034, []),
    (0x80000C, []) ]

def keptRows1 : List (Nat × List (Nat × Nat)) :=
  [ (0x800010, []),
    (0x800018, []),
    (0x80001C, []),
    (0x800020, []),
    (0x800024, []),
    (0x801000, [(0x100, 2)]),
    (0x801004, [(0x100, 2)]),
    (0x801008, [(0x100, 2)]),
    (0x80100C, [(0x100, 2)]),
    (0xA00018, []),
    (0xA0001C, []),
    (0xA00020, []),
    (0xA00024, []),
    (0xA00028, []),
    (0xA0002C, []),
    (0xA01004, [(0x200, 8)]),
    (0xA01008, [(0x200, 8)]),
    (0xA0100C, [(0x200, 8)]),
    (0xA01010, [(0x200, 8)]),
    (0xA01014, [(0x200, 8)]),
    (0xA01040, [(0x200, 8), (0x18, 6)]),
    (0xA01048, [(0x200, 8), (0x18, 6)]),
    (0xA01050, [(0x200, 8), (0x18, 6)]),
    (0xA10000, [(0x100, 32)]),
    (0xA10004, [(0x100, 32)]) ]

def keptRows2 : List (Nat × List (Nat × Nat)) :=
  [ (0xA10008, [(0x100, 32)]),
    (0xA1000C, [(0x100, 32)]),
    (0xA10010, [(0x100, 32)]),
    (0xA10018, [(0x100, 32)]),
    (0xA10080, [(0x100, 32), (0x4, 32)]),
    (0xA20008, [(0x40, 64)]),
    (0xA20010, [(0x40, 64)]),
    (0xA20014, [(0x40, 64)]),
    (0xA20018, [(0x40, 64)]),
    (0xC0000C, []),
    (0xC00010, [(0x4, 4)]),
    (0xC01004, [(0x100, 2)]),
    (0xC01008, [(0x100, 2)]),
    (0xC0100C, [(0x100, 2)]),
    (0xC01010, [(0x100, 2)]),
    (0xC01014, [(0x100, 2)]),
    (0xC01018, [(0x100, 2)]),
    (0xC0101C, [(0x100, 2)]),
    (0xC01020, [(0x100, 2)]),
    (0xC01024, [(0x100, 2)]),
    (0xC01028, [(0x100, 2)]),
    (0xC0102C, [(0x100, 2)]),
    (0xD00004, []),
    (0xD00008, []),
    (0xD0000C, []) ]

def keptRows3 : List (Nat × List (Nat × Nat)) :=
  [ (0xD00028, []),
    (0xD01014, [(0x100, 8)]),
    (0xD01018, [(0x100, 8)]),
    (0xD0101C, [(0x100, 8)]),
    (0xD01020, [(0x100, 8)]),
    (0xD01024, [(0x100, 8)]),
    (0xE00014, []),
    (0xE00018, []),
    (0xE0001C, []),
    (0xE00020, []),
    (0xE00024, []),
    (0xE00028, []),
    (0xE0002C, []),
    (0xE00030, []),
    (0xE0100C, [(0x40, 16)]),
    (0xE01010, [(0x40, 16)]),
    (0xE01014, [(0x40, 16)]),
    (0xE01018, [(0x40, 16)]),
    (0xE0101C, [(0x40, 16)]),
    (0xE01020, [(0x40, 16)]),
    (0x1000084, []),
    (0x100008C, []),
    (0x1000090, [(0x4, 64)]),
    (0x1000190, []),
    (0x1000194, []) ]

def keptRows4 : List (Nat × List (Nat × Nat)) :=
  [ (0x1000198, []),
    (0x1100004, []),
    (0x1100018, []),
    (0x110001C, []),
    (0x1100044, []),
    (0x1100100, []),
    (0x1100104, []),
    (0x1100108, []),
    (0x110010C, []),
    (0x1100110, []),
    (0x1100114, []),
    (0x1100118, []),
    (0x110011C, []),
    (0x1100120, []),
    (0x1100124, []),
    (0x1100180, [(0x4, 32)]),
    (0x1101000, [(0x10, 14)]),
    (0x1101004, [(0x10, 14)]),
    (0x1101008, [(0x10, 14)]),
    (0x1180004, [(0x40, 14)]),
    (0x1180008, [(0x40, 14)]),
    (0x118000C, [(0x40, 14)]),
    (0x1180010, [(0x40, 14)]),
    (0x1190000, [(0x40, 2)]),
    (0x1190004, [(0x40, 2)]) ]

def keptRows5 : List (Nat × List (Nat × Nat)) :=
  [ (0x1190008, [(0x40, 2)]),
    (0x119000C, [(0x40, 2)]),
    (0x1190010, [(0x40, 2)]),
    (0x2000010, [(0x4000, 512), (0x8, 8)]),
    (0x2000014, [(0x4000, 512), (0x8, 8)]),
    (0x2000050, [(0x4000, 512)]),
    (0x2000054, [(0x4000, 512)]),
    (0x2000058, [(0x4000, 512)]),
    (0x200005C, [(0x4000, 512)]),
    (0x2000060, [(0x4000, 512)]),
    (0x2000064, [(0x4000, 512)]),
    (0x2000068, [(0x4000, 512)]),
    (0x2000108, [(0x4000, 512), (0x20, 4)]),
    (0x200010C, [(0x4000, 512), (0x20, 4)]),
    (0x2000110, [(0x4000, 512), (0x20, 4)]),
    (0x2000114, [(0x4000, 512), (0x20, 4)]),
    (0x2000184, [(0x4000, 512), (0x20, 4)]),
    (0x2000188, [(0x4000, 512), (0x20, 4)]),
    (0x200018C, [(0x4000, 512), (0x20, 4)]),
    (0x2000190, [(0x4000, 512), (0x20, 4)]),
    (0x2000194, [(0x4000, 512), (0x20, 4)]),
    (0x3000010, [(0x10000, 128), (0x8, 8)]),
    (0x3000014, [(0x10000, 128), (0x8, 8)]),
    (0x3000050, [(0x10000, 128)]),
    (0x3000054, [(0x10000, 128)]) ]

def keptRows6 : List (Nat × List (Nat × Nat)) :=
  [ (0x3000058, [(0x10000, 128)]),
    (0x300005C, [(0x10000, 128)]),
    (0x3000060, [(0x10000, 128)]),
    (0x3000064, [(0x10000, 128)]),
    (0x3000068, [(0x10000, 128)]),
    (0x300006C, [(0x10000, 128)]),
    (0x3000070, [(0x10000, 128)]),
    (0x10000114, [(0x2000000, 16)]),
    (0x1000012C, [(0x2000000, 16)]) ]

def keptRows : List (Nat × List (Nat × Nat)) :=
  keptRows0 ++ keptRows1 ++ keptRows2 ++ keptRows3 ++ keptRows4 ++ keptRows5 ++ keptRows6

/-- Does a warm start keep the register at an address? -/
def keptReg (a : Nat) : Bool := keptRows.any (fun r => decide (r.1 ≤ a) && regCopy (a - r.1) r.2)

end Sys2Proof.Machine
end

