-- ==== Sys2Proof/Machine/Xlt.lean ====
section
/-! DEFINITION. Range walks and what they answer (R608 to R612), the fault buffer's flush (R613), invalidation acknowledgements
(Table 12.8), the range-store window (R637), and host completion timeouts (R906). -/

namespace Sys2Proof.Machine

/-! ### Walks -/

/-- The device addresses that a copy's next block looks up, each with its access kind. -/
def CopyJob.vas (j : CopyJob) (k : CopyCmd) : List (Nat × Nat) :=
  let n := k.span j.pos
  let (sa, sn) := k.sideRun false j.pos n
  let (da, dn) := k.sideRun true j.pos n
  let run := fun (host : Bool) (acc a n : Nat) => if host || n == 0 then [] else (blocksOf a n).map (fun va => (va, acc))
  let sc := fun (sk : Nat) => if k.conv && (sk == 1 || sk == 2) then ceilDiv (j.pos + n) (blockLen sk) - j.pos / blockLen sk else 0
  let acc := if k.redop = 0 then 1 else 2
  run (k.hostSide false) 0 sa sn ++ run (k.hostSide false) 0 (k.sscale + j.pos / blockLen k.ssk) (sc k.ssk)
    ++ run (k.hostSide true) acc da dn ++ run (k.hostSide true) acc (k.dscale + j.pos / blockLen k.dsk) (sc k.dsk)

/-- A walk's result reaches a copy engine: its block goes on, or its copy is held or fails (Table 12.5). -/
def State.answerCopy (s : State) (m : Miss) (srcId : Nat) : State :=
  s.host.copies.foldl (fun s j =>
    match s.cmd j.cmd with
    | some c =>
      if s.copyId j == m.req.id && c.leaf == m.unit && c.ctx == m.ctx && !j.ready && j.sent == 0 && j.token.isNone then
        match (j.vas c.copy).find? (fun x => x.1 == m.va) with
        | some (_, acc) =>
          match s.xlate m.unit m.ctx acc m.va with
          | .fail 2 => s.failCopy j 0x0C03 (fun _ => xltDetail c.ctx acc 4 (s.copyId j) 0 0) true
          | .fail k => s.holdCopy j c m.va acc k srcId
          | _ => s.setJob { j with ready := true }
        | none => s
      else s
    | none => s) s

/-- A walk's result reaches a T-core: the accesses that need its 4 KiB block go on once every block they need is decided. -/
def State.answerCore (s : State) (m : Miss) (srcId : Nat) : State :=
  s.accs.foldl (fun s p =>
    match s.acc p.1 with
    | some a =>
      if a.tcore && a.core == m.req.id && a.unit == m.unit && a.ctx == m.ctx && a.need.contains (m.va / 4096) then
        let a := { a with need := a.need.filter (fun b => !(b == m.va / 4096)) }
        let a := match s.xlate a.unit a.ctx a.access m.va with
          | .fail k => { a with bad := a.bad ++ [(m.va / 4096, k, srcId)] }
          | _ => a
        let s := s.setAcc p.1 (some a)
        if a.need.isEmpty then s.accReady p.1 a else s
      else s
    | none => s) s

/-- A walk's result reaches a V-core: where it found no range, the core's next access to that block fails; the translation phase that waits
for the block goes on. -/
def State.answerVcore (s : State) (m : Miss) : State :=
  let v := s.vcore m.req.id
  if v.running && v.unit == m.unit then
    let x := v.xslv.map (fun x => { x with need := x.need.filter (fun b => !(b == m.va / 4096)) })
    let gap := if (s.rangeAt m.unit m.ctx m.va).isNone then some (m.ctx, m.va / 4096) else v.gap
    s.setVcore m.req.id { v with xslv := x, gap := if x.isSome then v.gap else gap }
  else s

/-- A walk's result reaches a Pintle receive path: the accesses that wait for it are checked on what it found (R633). -/
def State.answerWindow (s : State) (m : Miss) : State :=
  { s with ptl := { s.ptl with inbox := s.ptl.inbox.map (fun b =>
      let e := kvGet (fun _ => ({} : WinEnt)) s.xlt.windows b.window
      if b.rx = m.req.id ∧ e.unit = m.unit ∧ e.ctx = m.ctx ∧ e.base * 65536 + b.off = m.va then { b with walked := true } else b) } }

/-- Answer a miss with the result of a walk: the requester's range cache is refilled. -/
def State.answerMiss (s : State) (m : Miss) (srcId : Nat) : State :=
  let s := match s.rangeAt m.unit m.ctx m.va with
    | some r => s.rcFill m.req r
    | none => s
  match m.req.kind with
  | 1 => s.answerCore m srcId
  | 3 => s.answerVcore m
  | 5 => s.answerWindow m
  | _ => s.answerCopy m srcId

/-- RANGE_WALK_DONE: a walker ends its walk. An entry that is invalidating or moving keeps it waiting (R610); waiting misses that
lie in the range found, or in the same gap, are answered with it (R609). -/
def execRangeWalkDone (leaf walker : Nat) (s : State) : Host.Outcome State Fault Refusal :=
  match s.xlt.misses.find? (fun m => m.leaf == leaf && m.walker == some walker) with
  | none => .next s
  | some m =>
    let busy := match s.rangeAt m.unit m.ctx m.va with
      | some r => decide (r.state = 1) || decide (r.state = 2)
      | none => false
    if busy then .next s
    else
      let same := fun (x : Miss) => x.leaf == leaf && x.walker.isNone && x.unit == m.unit && x.ctx == m.ctx
        && s.spanAt x.unit x.ctx x.va == s.spanAt m.unit m.ctx m.va
        && ((s.rangeAt x.unit x.ctx x.va).isSome == (s.rangeAt m.unit m.ctx m.va).isSome)
      let joined := ((s.xlt.misses.filter (fun x => x.leaf == leaf)).take 256).filter same
      let src := 16 * leaf + walker
      let s := s.bump (RF.XLT_L_WALKS_COUNT leaf)
      let s := s.bumpN (RF.XLT_L_WALKCYC_CYCLES leaf) (s.now - m.since)
      let s := s.bumpN (RF.XLT_L_JOINED_COUNT leaf) joined.length
      let s := { s with xlt := { s.xlt with misses := s.xlt.misses.filter (fun x => !(x == m) && !joined.contains x) } }
      let s := (m :: joined).foldl (fun s x => s.answerMiss x src) s
      .next (s.assignWalkers leaf 16)

/-! ### The fault buffer -/

/-- FAULT_RECORD_FLUSH: 2 µs after its first fault, a held record is written, with the faults of that cycle counted (R615). -/
def execFaultRecordFlush (n : Nat) (s : State) : Host.Outcome State Fault Refusal :=
  match s.xlt.held[n]? with
  | some h => if h.since + 5000 < s.now then .next (s.flushHeld h) else .next s
  | none => .next s

/-! ### Invalidation -/

/-- INVAL_ACK: a range cache acknowledges the invalidation in progress, once no access of its core under the old entry is left. -/
def execInvalAck (kind id : Nat) (s : State) : Host.Outcome State Fault Refusal :=
  match s.xlt.invals with
  | v :: rest =>
    match s.findRange v.unit v.ctx v.start with
    | some r =>
      let mine := fun (q : Requester) => q.kind == kind && q.id == id
      let waits := (s.ackers r).any mine
      if v.begun.isSome && v.acks.any mine && !waits then
        let s := { s with xlt := { s.xlt with invals := { v with acks := v.acks.filter (fun q => !mine q) } :: rest } }
        .next (s.pumpInvals (2 * s.xlt.invals.length + 2))
      else .next s
    | none => .next s
  | [] => .next s

/-! ### The range-store window -/

/-- The 32 bytes of a range entry (Table 12.2). -/
def RangeEnt.bytes (r : RangeEnt) : List Byte :=
  let b := fun (x : Bool) (i : Nat) => if x then 2 ^ i else 0
  leBytes 8 (r.start % 2 ^ 41) ++ leBytes 8 (r.length % 2 ^ 41)
    ++ leBytes 4 (r.kind % 4 + b r.r 2 + b r.w 3 + b r.x 4 + b r.u 5 + r.part % 64 * 256 + r.cls % 4 * 2 ^ 14
        + r.loc % 2 * 2 ^ 16 + b r.nohost 17 + r.state % 4 * 2 ^ 18)
    ++ leBytes 4 (r.unit % 1024 + r.ctx % 256 * 1024)
    ++ leBytes 8 (match r.kind with
      | 0 => 0
      | 2 => r.peer % 65536 + r.window % 4096 * 2 ^ 16 + r.off % 2 ^ 36 * 2 ^ 28
      | _ => r.haddr % 2 ^ 52)

/-- Order ranges by START. -/
def insertRange (r : RangeEnt) : List RangeEnt → List RangeEnt
  | [] => [r]
  | x :: l => if r.start < x.start then r :: x :: l else x :: insertRange r l

/-- XLT_RD_IDX_WRITE: the INDEX-th range of the context that XLT_RD_CTX names is latched; all 0 when there is none. -/
def execXltRdIdxWrite (index : Nat) (s : State) : Host.Outcome State Fault Refusal :=
  if !s.serving then .next s
  else
  let index := index % 2 ^ 19
  let mine := s.xlt.ranges.filter (fun r => r.unit == s.fld RF.XLT_RD_CTX_UNIT && r.ctx == s.fld RF.XLT_RD_CTX_CTX && !r.reserved)
  let bs := match (mine.foldr insertRange [])[index]? with
    | some r => r.bytes
    | none => List.replicate 32 0
  let s := s.setFld RF.XLT_RD_IDX_INDEX index
  .next ((List.range 8).foldl (fun s k => s.setReg (RA.XLT_RD_DATA k) (BitVec.ofNat 32 (leNat ((bs.drop (4 * k)).take 4)))) s)

/-! ### Host completion timeouts -/

/-- HOST_COMPLETION_TIMEOUT: a read of host memory or a host AtomicOp gets no completion: an access of a core fails with 0x0806, a
copy with 0x0E05. -/
def execHostCompletionTimeout (isCopy : Bool) (id : Nat) (s : State) : Host.Outcome State Fault Refusal :=
  if isCopy then .next (if s.readsHost id then s.oneBlock id [] [] 4 else s)
  else
    match s.acc id with
    | some a =>
      let hs := s.hostParts a
      if hs.isEmpty then .next s
      else
        let a := hs.foldl (fun a l => a.setLane l (l.hostEnd a.kind 4 [])) a
        let s := (s.bump RF.HIF_CPL_TO_COUNT).setAcc id (some a)
        .next (s.tryFinish id)
    | none => .next s

end Sys2Proof.Machine
end

