-- ==== Sys2Proof/Machine/Kwy.lean ====
section
/-! DEFINITION. The keyway (chapter 17): anti-rollback commit, weight keys and sealed loads, generations and erase, measurements
and the SPDM responder. -/

namespace Sys2Proof.Machine

/-! ### Registers that hold bytes -/

/-- The bytes of `n` registers in a row. -/
def State.regBytes (s : State) (a : Nat → Nat) (n : Nat) : List Byte :=
  (List.range n).flatMap (fun k => leBytes 4 (s.reg (a k)).toNat)

/-- Write bytes to `n` registers in a row. -/
def State.setRegBytes (s : State) (a : Nat → Nat) (n : Nat) (bs : List Byte) : State :=
  (List.range n).foldl (fun s k => s.setReg (a k) (BitVec.ofNat 32 (leNat ((bs.drop (4 * k)).take 4)))) s

/-- Measurements 2 and 4 and PM[n] (Table 17.4). -/
def State.fwMeas (s : State) : List Byte := s.regBytes RA.KWY_FWMEAS 8
def State.wardMeas (s : State) : List Byte := s.regBytes RA.KWY_WARDMEAS 8
def State.partMeas (s : State) (n : Nat) : List Byte := s.regBytes (RA.KWY_PMEAS n) 8
def State.setPartMeas (s : State) (n : Nat) (bs : List Byte) : State := s.setRegBytes (RA.KWY_PMEAS n) 8 bs

/-- A keyway record (R836): the primary keyway's. -/
def State.kwyRec (s : State) (code : Nat) (d : List (Nat × Nat × Nat)) : Rec :=
  { code := code, fault := true, srcKind := 9, srcId := s.boot.leafSel, detail := detailOf d }

/-- A refusal or failure: KWY_SL_STAT.CODE and a record. -/
def State.kwyFail (s : State) (code : Nat) (d : List (Nat × Nat × Nat)) : State :=
  (s.setFld RF.KWY_SL_STAT_CODE code).emit (s.kwyRec code d)

/-! ### Weight-key slots (R817) -/

def State.wkey (s : State) (n : Nat) : Option WeightKey := kvGet (fun _ => none) s.kwy.slots n

/-- Fill or empty a slot; its KWY_WK entry follows. -/
def State.setWkey (s : State) (n : Nat) (k : Option WeightKey) : State :=
  let s := { s with kwy := { s.kwy with slots := kvSet (fun _ => none) s.kwy.slots n k } }
  match k with
  | some k => (s.setFlag (RF.KWY_WK_VALID n) true).setFld (RF.KWY_WK_PART n) k.part
  | none => (s.setFlag (RF.KWY_WK_VALID n) false).setFld (RF.KWY_WK_PART n) 0

/-- Empty the slots whose partition passes a test. -/
def State.emptyKeys (s : State) (p : Nat → Bool) : State :=
  (List.range 64).foldl (fun s n => match s.wkey n with
    | some k => if p k.part then s.setWkey n none else s
    | none => s) s

/-- The LOAD ends. -/
def State.endLoad (s : State) : State :=
  let s := { s with kwy := { s.kwy with load := none } }
  (s.setFlag RF.KWY_SL_STAT_BUSY false).setFlag RF.KWY_SL_STAT_DONE true

/-! ### Generations (R827 to R831) -/

/-- L1 sectors and L2 lines of a partition's granules are invalidated; dirty data is discarded (step 3 of R829). -/
def State.dropPartCaches (s : State) (part : Nat) : State :=
  let mine := fun (gk : Nat) => match s.gran gk with
    | some g => g.part == part
    | none => false
  let s := { s with tc := { s.tc with l1 := s.tc.l1.filter (fun p => !mine (granKey (p.1 / 512 / 2 ^ 52 / 256) (p.1 / 512 / 2 ^ 52 % 256)
      (p.1 / 512 % 2 ^ 52 / 2048))) } }
  let s := (s.coh.l2.filter (fun p => mine (p.1 / 128 / 512))).foldl (fun s p => s.dropL2 (p.1 % 128) (p.1 / 128)) s
  (s.coh.dir.filter (fun p => mine (p.1 / 512))).foldl (fun s p => s.setDir p.1 {}) s

/-- The generation of a partition advances (R829). Chunks of a LOAD move one at a time, so none is under way. -/
def State.genAdvance (s : State) (n : Nat) : State :=
  let s := match s.kwy.load with
    | some j => if j.part = n then (s.kwyFail 0x1117 [(52, 4, j.next)]).endLoad else s
    | none => s
  let s := s.emptyKeys (fun p => p == n)
  let s := (s.dropPartCaches n).dropPart n
  let s := s.setFld (RF.KWY_GEN_GEN n) (s.fld (RF.KWY_GEN_GEN n) + 1)
  (s.setPartMeas n (List.replicate 32 0)).bump RF.KWY_ERASES_COUNT

/-- An erase (R830): refused while a range maps the partition, while a LOAD to it runs, or at the last generation. -/
def State.eraseNow (s : State) (n : Nat) : State :=
    let why := if s.xlt.ranges.any (fun r => (r.kind == 0 || r.kind == 3) && r.part == n) then some 0
      else if (match s.kwy.load with
        | some j => j.part == n
        | none => false) then some 1
      else if s.fld (RF.KWY_GEN_GEN n) = 2 ^ 32 - 1 then some 2
      else none
    match why with
    | some w => (s.kwyFail 0x1119 [(52, 1, n), (53, 1, w)]).bump RF.KWY_REFUSALS_COUNT
    | none => s.genAdvance n

/-- KWY_ERASE: asks for an erase, which is taken when the cycle ends: a RELEASE or LOAD that completes in the cycle is taken first (R831). -/
def execKwyErase (value : Word) (s : State) : Host.Outcome State Fault Refusal :=
  if !natBit value.toNat 31 || !s.alive then .next s
  else .next { s with kwy := { s.kwy with erases := s.kwy.erases ++ [value.toNat % 64] } }

/-- The erases that a cycle asked for. -/
def State.settleErases (s : State) : State :=
  s.kwy.erases.foldl State.eraseNow { s with kwy := { s.kwy with erases := [] } }

/-! ### Anti-rollback (R808, R809) -/

/-- Set the lowest fuse bit not yet set; the commit ends when the fused SVN is the one asked for. -/
def State.setFuse (s : State) (t : Nat) : State :=
  let n := s.kwy.fusedSvn + 1
  let s := ({ s with kwy := { s.kwy with fusedSvn := n, commit := if n < t then some t else none } }).setFld RF.KWY_STAT_FUSED_SVN n
  if n < t then s else s.bump RF.KWY_ARB_COMMITS_COUNT

/-- A commit goes on by one fuse bit in a cycle (R809; the pace is a DESIGN CHOICE, log entry 119). -/
def State.settleFuse (s : State) : State :=
  match s.kwy.commit with
  | some t => if s.alive && decide (s.kwy.fusedSvn < t) then s.setFuse t else s
  | none => s

/-- ARB_COMMIT: a commit begins, unless the fused SVN is already the bundle's or above. Fuse bits are set one at a time from the cycle's end on, until
the fused SVN is the SVN of the bundle in force. -/
def execArbCommit (value : Word) (s : State) : Host.Outcome State Fault Refusal :=
  if natBit value.toNat 31 && s.alive && decide (s.kwy.fusedSvn < s.boot.bundleSvn) then
    .next { s with kwy := { s.kwy with commit := some s.boot.bundleSvn } }
  else .next s

/-! ### Weight keys (R815 to R822) -/

/-- A write of KWY_SL_CTL with GO = 1 and an OP: its SLOT and OP fields are written; while an operation runs, GO is discarded. -/
def State.slGo (s : State) (value : Word) (op : Nat) (run : State → Nat → State) : State :=
  if natBit value.toNat 31 && value.toNat % 4 == op && s.alive then
    let slot := natBits value.toNat 24 6
    let t := (s.setFld RF.KWY_SL_CTL_SLOT slot).setFld RF.KWY_SL_CTL_OP op
    if s.flag RF.KWY_SL_STAT_BUSY then t.bump RF.KWY_REFUSALS_COUNT else run t slot
  else s

/-- A refused RELEASE or LOAD. -/
def State.slRefuse (s : State) (code : Nat) (d : List (Nat × Nat × Nat)) : State :=
  ((s.kwyFail code d).bump RF.KWY_REFUSALS_COUNT).setFlag RF.KWY_SL_STAT_DONE true

/-- An envelope's magic, format and reserved fields (Table 17.7). -/
def envelopeOk (e : List Byte) : Bool :=
  le e 0 4 == 0x4C455657 && le e 4 2 == 0x0100 && le e 6 2 == 0 && natBits (le e 80 1) 6 2 == 0 && le e 81 3 == 0
    && le e 104 8 == 0 && le e 272 16 == 0 && le e 8 8 == deviceId

/-- RELEASE: the checks of R816 in order; `env` is the envelope as the host holds it. -/
def execRelease (value : Word) (env : List Byte) (s : State) : Host.Outcome State Fault Refusal :=
  if !(env.length == 288) then .next s
  else .next (s.slGo value 1 (fun s slot =>
    let part := natBits (le env 80 1) 0 6
    if !envelopeOk env then s.slRefuse 0x1110 [(52, 1, 1)]
    else match sm2Decrypt Config.identityKey (bytesAt env 112 160) with
      | none => s.slRefuse 0x1110 [(52, 1, 2)]
      | some w =>
        if !(w.drop 32 == sm3 (env.take 112)) || !(w.length == 64) then s.slRefuse 0x1110 [(52, 1, 2)]
        else if !(bytesAt env 16 32 == s.fwMeas) then s.slRefuse 0x1111 [(52, 1, 2)]
        else if !(bytesAt env 48 32 == s.wardMeas) then s.slRefuse 0x1111 [(52, 1, 4)]
        else if !s.sealedPart part then s.slRefuse 0x1113 [(52, 1, part)]
        else if !(le env 84 4 == s.fld (RF.KWY_GEN_GEN part)) then
          s.slRefuse 0x1112 [(52, 1, part), (56, 4, s.fld (RF.KWY_GEN_GEN part))]
        else if (s.wkey slot).isSome then s.slRefuse 0x1114 [(52, 1, slot)]
        else
          ((s.setWkey slot (some { key := w.take 32, part := part, head := env.take 112 })).bump RF.KWY_RELEASES_COUNT).setFlag
            RF.KWY_SL_STAT_DONE true))

/-- DROP: the slot is emptied. -/
def execDrop (value : Word) (s : State) : Host.Outcome State Fault Refusal :=
  .next (s.slGo value 3 (fun s slot => (s.setWkey slot none).setFlag RF.KWY_SL_STAT_DONE true))

/-- Does a run lie within writable device ranges of a partition (R819)? -/
def State.runInPart (s : State) (unit ctx part : Nat) : Nat → Nat → Nat → Bool
  | 0, _, _ => false
  | n + 1, va, len =>
    match s.rangeAt unit ctx va with
    | none => false
    | some r =>
      if r.kind == 0 && r.part == part && r.w then
        let stop := (r.start + r.length) * 65536
        if va + len ≤ stop then true else s.runInPart unit ctx part n stop (va + len - stop)
      else false

def WeightKey.length (k : WeightKey) : Nat := le k.head 96 8

/-- SEALED_LOAD: the checks of R819; the LOAD then runs. -/
def execSealedLoad (value : Word) (s : State) : Host.Outcome State Fault Refusal :=
  .next (s.slGo value 2 (fun s slot =>
    let dst := s.fld64 RF.KWY_SL_DST_LO_ADDR RF.KWY_SL_DST_HI_ADDR
    let unit := s.fld RF.KWY_SL_CTX_UNIT
    let ctx := s.fld RF.KWY_SL_CTX_CTX
    match s.wkey slot with
    | none => s.slRefuse 0x1114 [(52, 1, slot)]
    | some k =>
      let owns := match s.unitEnt unit with
        | some u => !u.group && natBit u.partMask k.part
        | none => false
      if !owns || !s.runInPart unit ctx k.part (s.xlt.ranges.length + 1) dst k.length then s.slRefuse 0x1116 [(52, 8, dst)]
      else
        let s := { s with kwy := { s.kwy with
          load := some { slot := slot, part := k.part, length := k.length, dst := dst, unit := unit, ctx := ctx } } }
        (s.setFld RF.KWY_SL_CHUNKS_COUNT 0).setFlag RF.KWY_SL_STAT_BUSY true))

/-- A LOAD fails. -/
def State.failLoad (s : State) (code : Nat) (d : List (Nat × Nat × Nat)) : State := (s.kwyFail code d).endLoad

/-- SEALED_LOAD_CHUNK: the next chunk is read, its tag checked, and its plaintext written at system scope; the last one extends
PM[PART]. `err` says how the host read ended; a chunk that could not be read passes no check. -/
def execSealedLoadChunk (data : List Byte) (err : Nat) (s : State) : Host.Outcome State Fault Refusal :=
  match s.kwy.load with
  | none => .next s
  | some j =>
    match s.wkey j.slot with
    | none => .next s
    | some k =>
      let n := min 65536 (j.length - 65536 * j.next)
      let tag := data.drop n
      let plain := if err = 0 then
          gcmDecrypt k.key (bytesAt k.head 88 8 ++ leBytes 4 j.next) (leBytes 4 j.next ++ leBytes 8 j.length) tag (data.take n)
        else none
      if !s.alive || (err == 0 && !(data.length == n + 16)) then .next s
      else match plain with
        | none => .next (s.failLoad 0x1115 [(52, 4, j.next)])
        | some bs =>
          let va := j.dst + 65536 * j.next
          match s.devWrite j.unit j.ctx va 4 (bs.take n) with
          | (t, .wait) => .next t
          | (t, .ok _ _) =>
            let t := t.bump RF.KWY_SL_CHUNKS_COUNT
            if 65536 * (j.next + 1) < j.length then .next { t with kwy := { t.kwy with load := some { j with next := j.next + 1 } } }
            else .next (t.setPartMeas j.part (extend (t.partMeas j.part) (sm3 (k.head ++ tag)))).endLoad
          | _ => .next (s.failLoad 0x1116 [(52, 8, j.dst)])

/-! ### Measurements (R811) -/

/-- A measurement block in the DMTF form: index, specification 1, and the value with its type (bit 7: raw bits). -/
def measBlock (index type : Nat) (v : List Byte) : List Byte :=
  leBytes 1 index ++ leBytes 1 1 ++ leBytes 2 (v.length + 3) ++ leBytes 1 type ++ leBytes 2 v.length ++ v

/-- The block of a measurement index (Table 17.4). -/
def State.measAt (s : State) (i : Nat) : Option (List Byte) :=
  match i with
  | 1 => some (measBlock 1 0 Config.romHash)
  | 2 => some (measBlock 2 1 s.fwMeas)
  | 3 => some (measBlock 3 0x82 (leBytes 3 Config.domain ++ leBytes 1 s.kwy.fusedSvn ++ leBytes 1 (2 ^ Config.stepping) ++ leBytes 8 deviceId))
  | 4 => some (measBlock 4 3 s.wardMeas)
  | 5 => some (measBlock 5 0x82 (s.regBytes RA.KWY_GEN 64))
  | _ => if 0x10 ≤ i ∧ i < 0x50 then some (measBlock i 4 (s.partMeas (i - 0x10))) else none

/-- The indices reported. -/
def measIndices : List Nat := [1, 2, 3, 4, 5] ++ (List.range 64).map (fun n => 0x10 + n)

/-! ### SPDM (R812, DSP0274) -/

/-- Send a message of the management plane. -/
def State.sendMgt (s : State) (m : MgtMsg) : State := { s with mgt := { s.mgt with sent := s.mgt.sent ++ [m] } }

/-- The endpoint answers from the start of firmware to the next start, unless both wardens of the primary P-die have failed (R859, R860). -/
def State.mctpUp (s : State) (b : Nat) : Bool :=
  s.alive && s.boot.fwRunning && decide (b < 2) && !(natBits s.boot.wardenDead (2 * s.boot.leafSel) 2 == 3)

/-- An SPDM response: its code and bytes; 0x7F is ERROR, with its error code in `status`. -/
def State.spdmReply (s : State) (b code : Nat) (bs : List Byte) : State :=
  s.sendMgt { kind := 5, code := code, status := 0, bytes := bs, binding := b }
def State.spdmError (s : State) (b e : Nat) : State := s.sendMgt { kind := 5, code := 0x7F, status := e, bytes := [], binding := b }

/-- What DSP0274 fixes of a response. -/
def spdmStd (code : Nat) (req : List Byte) : List Byte := Config.stdResponse 5 code req

def State.spdmStage (s : State) (b : Nat) : Nat := kvGet (fun _ => 0) s.kwy.stage b
def State.setSpdmStage (s : State) (b n : Nat) : State := { s with kwy := { s.kwy with stage := kvSet (fun _ => 0) s.kwy.stage b n } }

def State.session (s : State) (b id : Nat) : Option SpdmSession := s.kwy.sessions.find? (fun x => x.id == id && x.binding == b)

/-- Does a request arrive outside every session, or within an established one of its transport? -/
def State.sessionOk (s : State) (b : Nat) (session : Option Nat) : Bool :=
  match session with
  | none => true
  | some id => match s.session b id with
    | some x => x.established
    | none => false

/-- A request is handled while the endpoint answers (R860); out of order it is answered with an unexpected-request error. -/
def State.spdm (s : State) (b : Nat) (ok : Bool) (f : State → State) : State :=
  if s.mctpUp b then (if ok then f s else s.spdmError b 4) else s

/-- GET_VERSION begins a connection anew and ends the sessions of its transport. -/
def execGetVersion (binding : Nat) (session : Option Nat) (data : List Byte) (s : State) : Host.Outcome State Fault Refusal :=
  .next (s.spdm binding session.isNone (fun s =>
    let s := { s with kwy := { s.kwy with sessions := s.kwy.sessions.filter (fun x => !(x.binding == binding)) } }
    (s.setSpdmStage binding 1).spdmReply binding 0x04 (spdmStd 0x04 data)))

/-- GET_CAPABILITIES follows GET_VERSION. -/
def execGetCapabilities (binding : Nat) (session : Option Nat) (data : List Byte) (s : State) : Host.Outcome State Fault Refusal :=
  .next (s.spdm binding (session.isNone && s.spdmStage binding == 1) (fun s => (s.setSpdmStage binding 2).spdmReply binding 0x61 (spdmStd 0x61 data)))

/-- NEGOTIATE_ALGORITHMS follows GET_CAPABILITIES. -/
def execNegotiateAlgorithms (binding : Nat) (session : Option Nat) (data : List Byte) (s : State) : Host.Outcome State Fault Refusal :=
  .next (s.spdm binding (session.isNone && s.spdmStage binding == 2) (fun s => (s.setSpdmStage binding 3).spdmReply binding 0x63 (spdmStd 0x63 data)))

/-- GET_DIGESTS: the digest of the chain of slot 0. -/
def execGetDigests (binding : Nat) (session : Option Nat) (data : List Byte) (s : State) : Host.Outcome State Fault Refusal :=
  .next (s.spdm binding (s.spdmStage binding == 3 && s.sessionOk binding session) (fun s => s.spdmReply binding 0x01 (spdmStd 0x01 data)))

/-- Param 1 and Param 2 of a request. -/
def spdmParam (data : List Byte) (n : Nat) : Nat := le data (1 + n) 1

/-- GET_CERTIFICATE: slot 0 only. -/
def execGetCertificate (binding : Nat) (session : Option Nat) (data : List Byte) (s : State) : Host.Outcome State Fault Refusal :=
  .next (s.spdm binding (s.spdmStage binding == 3 && s.sessionOk binding session) (fun s =>
    if spdmParam data 1 % 16 = 0 then s.spdmReply binding 0x02 (spdmStd 0x02 data) else s.spdmError binding 1))

/-- CHALLENGE: slot 0 only, outside a session; the answer is signed with the identity key over the measurements. -/
def execChallenge (binding : Nat) (session : Option Nat) (data : List Byte) (s : State) : Host.Outcome State Fault Refusal :=
  .next (s.spdm binding (session.isNone && s.spdmStage binding == 3) (fun s =>
    if spdmParam data 1 % 16 = 0 then
      s.spdmReply binding 0x03 (spdmStd 0x03 (data ++ sm3 (measIndices.flatMap (fun i => (s.measAt i).getD []))))
    else s.spdmError binding 1))

/-- GET_MEASUREMENTS: Param 2 asks for the count (0), for all (0xFF), or for one index. -/
def execGetMeasurements (binding : Nat) (session : Option Nat) (data : List Byte) (s : State) : Host.Outcome State Fault Refusal :=
  .next (s.spdm binding (s.spdmStage binding == 3 && s.sessionOk binding session) (fun s =>
    let op := spdmParam data 2
    if op = 0 then s.spdmReply binding 0x60 (leBytes 1 measIndices.length ++ spdmStd 0x60 data)
    else if op = 0xFF then
      let bs := measIndices.flatMap (fun i => (s.measAt i).getD [])
      s.spdmReply binding 0x60 (bs ++ spdmStd 0x60 (data ++ bs))
    else match s.measAt op with
      | some bs => s.spdmReply binding 0x60 (bs ++ spdmStd 0x60 (data ++ bs))
      | none => s.spdmError binding 1))

/-- KEY_EXCHANGE: a session begins its handshake, up to 4 at once (Table 17.5). -/
def execKeyExchange (binding : Nat) (session : Option Nat) (data : List Byte) (s : State) : Host.Outcome State Fault Refusal :=
  .next (s.spdm binding (session.isNone && s.spdmStage binding == 3) (fun s =>
    if 4 ≤ s.kwy.sessions.length then s.spdmError binding 0x0A
    else if !(spdmParam data 2 % 16 == 0) then s.spdmError binding 1
    else
      let id := s.kwy.nextSession
      let s := { s with kwy := { s.kwy with sessions := s.kwy.sessions ++ [({ id := id, binding := binding } : SpdmSession)], nextSession := id + 1 } }
      s.spdmReply binding 0x64 (leBytes 2 id ++ spdmStd 0x64 data)))

/-- FINISH: the handshake of a session ends. -/
def execFinish (binding : Nat) (session : Option Nat) (data : List Byte) (s : State) : Host.Outcome State Fault Refusal :=
  match session.bind (s.session binding) with
  | some x => .next (s.spdm binding (!x.established) (fun s =>
      let s := { s with kwy := { s.kwy with sessions := s.kwy.sessions.map (fun y => if y = x then { x with established := true } else y) } }
      s.spdmReply binding 0x65 (spdmStd 0x65 data)))
  | none => .next (s.spdm binding false id)

/-- HEARTBEAT, within a session. -/
def execHeartbeat (binding : Nat) (session : Option Nat) (data : List Byte) (s : State) : Host.Outcome State Fault Refusal :=
  .next (s.spdm binding (session.isSome && s.sessionOk binding session) (fun s => s.spdmReply binding 0x68 (spdmStd 0x68 data)))

/-- KEY_UPDATE, within a session. -/
def execKeyUpdate (binding : Nat) (session : Option Nat) (data : List Byte) (s : State) : Host.Outcome State Fault Refusal :=
  .next (s.spdm binding (session.isSome && s.sessionOk binding session) (fun s => s.spdmReply binding 0x69 (spdmStd 0x69 data)))

/-- END_SESSION: the session ends. -/
def execEndSession (binding : Nat) (session : Option Nat) (data : List Byte) (s : State) : Host.Outcome State Fault Refusal :=
  .next (s.spdm binding (session.isSome && s.sessionOk binding session) (fun s =>
    let s := { s with kwy := { s.kwy with sessions := s.kwy.sessions.filter (fun x => !(some x.id == session && x.binding == binding)) } }
    s.spdmReply binding 0x6C (spdmStd 0x6C data)))

end Sys2Proof.Machine
end

