-- ==== Sys2Proof/Machine/WardLoad.lean ====
section
/-! DEFINITION. Loading a ward image, full or partial (R128 to R144, R697, R828). -/

namespace Sys2Proof.Machine

/-! ### Refusals (R130 to R132, R909) -/

/-- A record of Table 3.9; before the first load only the black box takes it. `root`: the ROOT_SLOT of a partial image. -/
def State.wardRecord (s : State) (code : Nat) (root : Option Nat) (d : List Byte) : State :=
  let r : Rec := { code := code, unit := root.getD 0, unitV := root.isSome, detail := d }
  if s.flag RF.WRD_STAT_LOADED then s.emit r else s.bbEnter 1 (s.stamp r)

/-- A claim as WRD_LOAD_ERR_A shows it. -/
def claimWord (c : Claim) : Nat := c.1 * 2 ^ 24 + c.2 % 2 ^ 24

/-- An image is refused: nothing is applied; the WARD command that asked for it completes with the code. A refusal that is no conflict clears
WRD_LOAD_ERR_A, _B and _RES (DESIGN CHOICE, log entry 112). -/
def State.wardRefuse (s : State) (r : WardRefusal) (root cmd : Option Nat) : State :=
  let (a, b, x) := match r.conflict with
    | some c => (claimWord c.a, claimWord c.b, c.cls * 2 ^ 24 + c.index % 2 ^ 24)
    | none => (0, 0, 0)
  let s := s.setFld RF.WRD_LOAD_ERR_CODE r.code
  let s := s.setReg RA.WRD_LOAD_ERR_A (BitVec.ofNat 32 a)
  let s := s.setReg RA.WRD_LOAD_ERR_B (BitVec.ofNat 32 b)
  let s := s.setReg RA.WRD_LOAD_ERR_RES (BitVec.ofNat 32 x)
  let s := s.bump RF.WRD_REFUSED_COUNT
  let s := s.wardRecord r.code root (if r.conflict.isSome then detailOf [(52, 4, a), (56, 4, b), (60, 4, x)] else [])
  match cmd with
  | some id => s.complete id r.code 0
  | none => s

/-! ### Starting (R128, R131, R908) -/

/-- Start a load, or refuse it for its size or because one is in progress or pending. -/
def State.startWard (s : State) (addr size : Nat) (cmd : Option Nat) : State :=
  if size < 64 ∨ 0x1000000 < size then s.wardRefuse { code := 0x0305 } none cmd
  else if s.flag RF.WRD_STAT_BUSY || s.flag RF.WRD_STAT_PARTIAL_PENDING then s.wardRefuse { code := 0x0306 } none cmd
  else
    let q : LoadReq := { addr := addr, size := size, cmd := cmd, quiesced := s.flag RF.WRD_STAT_QUIESCED
                         qslot := s.fld RF.WRD_QUIESCE_SLOT }
    State.setFlag { s with ward := { s.ward with load := some q } } RF.WRD_STAT_BUSY true

/-- WARD_LOAD_GO: a write of WRD_LOAD_CTL.GO. The WRD_ registers are reached once firmware runs (R845). -/
def execWardLoadGo (s : State) : Host.Outcome State Fault Refusal :=
  if s.serving then
    .next (s.startWard (s.fld RF.WRD_LOAD_ADDR_LO_ADDR * 64 + 2 ^ 32 * s.fld RF.WRD_LOAD_ADDR_HI_ADDR) (s.fld RF.WRD_LOAD_SIZE_SIZE) none)
  else .next s

/-- A WARD command is accepted only when no unit at or above its queue's unit is exported (R697). -/
def State.wardBarred (s : State) (c : HostCmd) : Bool :=
  match s.queueUnit c.queue with
  | some u => (s.path u.slot).any (fun x => match s.unitEnt x with
      | some e => !(e.vf == 0)
      | none => false)
  | none => false

def State.wardCmd (s : State) (cmd op : Nat) (run : State → HostCmd → State) : State :=
  match s.cmdOf cmd 0x0D with
  | none => s
  | some c =>
    if !c.inflight || !(c.at 16 1 % 2 == op) then s
    else if s.wardBarred c then s.failCmd cmd 0x0E04 0 (detailOf [(52, 1, c.opc)])
    else run (s.begin cmd) c

/-- WARD_LOAD: OP 0 loads the image at ADDR; the command completes when it is applied or refused. -/
def execWardLoad (cmd : Nat) (s : State) : Host.Outcome State Fault Refusal :=
  .next (s.wardCmd cmd 0 (fun s c => s.startWard (c.at 24 8 / 64 * 64) (c.at 32 4 % 2 ^ 25) (some cmd)))

/-! ### Quiesce (R133, R141) -/

/-- Write WRD_QUIESCE. An EN of 0 ends the quiesce, and refuses a partial image that waits on it, at the next admission cycle. -/
def State.writeQuiesce (s : State) (en : Bool) (slot : Nat) : State :=
  let ends := s.flag RF.WRD_QUIESCE_EN && !en
  let s := (s.setFlag RF.WRD_QUIESCE_EN en).setFld RF.WRD_QUIESCE_SLOT slot
  State.syncQuiesced { s with ward := { s.ward with quiesceEnds := s.ward.quiesceEnds || ends } }

/-- WARD_QUIESCE: a write of WRD_QUIESCE with EN = 1. -/
def execWardQuiesce (slot : Nat) (s : State) : Host.Outcome State Fault Refusal :=
  if s.serving then .next (s.writeQuiesce true slot) else .next s

/-- WARD_QUIESCE_CANCEL: a write of WRD_QUIESCE with EN = 0. -/
def execWardQuiesceCancel (slot : Nat) (s : State) : Host.Outcome State Fault Refusal :=
  if s.serving then .next (s.writeQuiesce false slot) else .next s

/-- WARD_QUIESCE_COMMAND: OP 1 writes WRD_QUIESCE and completes at once. -/
def execWardQuiesceCommand (cmd : Nat) (s : State) : Host.Outcome State Fault Refusal :=
  .next (s.wardCmd cmd 1 (fun s c => (s.writeQuiesce (natBit (c.at 36 4) 31) (c.at 36 4 % 1024)).complete cmd 0 0))

/-- A load in progress ends in a refusal. -/
def State.refuseLoad (s : State) (q : LoadReq) (code : Nat) (root : Option Nat) : State :=
  State.wardRefuse (({ s with ward := { s.ward with load := none } }).setFlag RF.WRD_STAT_BUSY false) { code := code } root q.cmd

/-- At an admission cycle: a quiesce that was called off ends, and the partial image that waited on it is refused (R141), be it still verifying. A
load in progress while a full image is in force is taken to be a partial one, of the slot that was quiesced at GO (DEDUCED, log entry 115). -/
def State.endQuiesce (s : State) : State :=
  if s.ward.quiesceEnds then
    let s := { s with ward := { s.ward with quiesceEnds := false } }
    let s := match s.ward.load with
      | some q => if s.flag RF.WRD_STAT_LOADED then s.refuseLoad q 0x0308 (some q.qslot) else s
      | none => s
    match s.ward.pending with
    | some p =>
      let s := ({ s with ward := { s.ward with pending := none } }).setFlag RF.WRD_STAT_PARTIAL_PENDING false
      s.wardRefuse { code := 0x0308 } (some p.image.rootSlot) p.cmd
    | none => s
  else s

/-- The ROOT_SLOT of a partial image, from the bytes of its header (R909). -/
def partialRoot (image : List Byte) : Option Nat :=
  if 40 ≤ image.length ∧ le image 6 2 = 1 then some (le image 36 4 % 1024) else none

/-- WARD_FETCH_ERROR: a host read of the image fails or times out, after the bytes `got` have been fetched (R908). -/
def execWardFetchError (got : List Byte) (s : State) : Host.Outcome State Fault Refusal :=
  match s.ward.load with
  | some q => .next (s.refuseLoad q 0x030D (partialRoot got))
  | none => .next s

/-! ### Applying -/

/-- Clear the registers in a span of addresses. -/
def State.clearRegs (s : State) (lo hi : Nat) : State :=
  { s with regs := s.regs.filter (fun p => !(decide (lo ≤ p.1) && decide (p.1 < hi))) }

/-- The read-back registers of a slot (R143), its policy and its counters (R103, R83, R260); a slot without a unit reads 0. -/
def State.redefineSlot (s : State) (n : Nat) : State :=
  let stat := s.reg (RA.TCK_U_STAT n)
  let s := (s.clearRegs (RA.TCK_U_STAT n) (RA.TCK_U_STAT n + 0x20)).setReg (RA.TCK_U_STAT n) stat
  let s := (s.setReg (RA.WRD_U_NUM n) 0).clearRegs (RA.WRD_U_TREE n) (RA.WRD_U_TREE n + 0x10)
  match s.unitEnt n with
  | none => s.setReg (RA.TCK_U_STAT n) 0
  | some u =>
    let s := (((s.setFlag (RF.WRD_U_TREE_VALID n) true).setFlag (RF.WRD_U_TREE_GROUP n) u.group).setFld (RF.WRD_U_TREE_DEPTH n) u.depth)
    let s := (((s.setFld (RF.WRD_U_TREE_VF n) u.vf).setFlag (RF.WRD_U_TREE_ROOT n) u.root).setFld (RF.WRD_U_TREE_PARENT n)
      (if u.root then 0 else u.parent)).setFld (RF.WRD_U_TREE_ORD n) u.ord
    let s := (s.setFld (RF.WRD_U_QUEUE_QCOUNT n) u.qcount).setFld (RF.WRD_U_QUEUE_QBASE n) u.qbase
    let s := (s.setFld (RF.WRD_U_TMB_COUNT n) u.tmbCount).setFld (RF.WRD_U_TMB_BASE n) u.tmbBase
    if u.group then s
    else ((s.setFld (RF.TCK_U_POLICY_CARRY_LIMIT n) u.carryLimit).setFld (RF.TCK_U_POLICY_PRIORITY n) u.priority).setFld
      (RF.TCK_U_POLICY_OVERRUN_POL n) u.overrunPol

/-- The registers and the state of host queues that no unit holds (R676). -/
def State.dropQueues (s : State) : State :=
  let gone := fun (q : Nat) => (s.queueUnit q).isNone
  { s with
    regs := s.regs.filter (fun p => !(decide (0x10000 ≤ p.1) && decide (p.1 < 0x50000) && gone ((p.1 - 0x10000) / 64)))
    host := { s.host with queues := s.host.queues.filter (fun p => !gone p.1) } }

/-- Partitions of an image: those redefined lose their counters (R557) and begin their cycle of places anew (R519). -/
def State.definePart (s : State) (p : PartEnt) : State :=
  let s := if p.keep then s else
    let s := s.clearRegs (RA.MEM_P_STAT p.index) (RA.MEM_P_STAT p.index + 0x40)
    { s with mem := { s.mem with lastStack := kvSet (fun _ => 0) (kvSet (fun _ => 0) s.mem.lastStack p.index 0) (64 + p.index) 0 } }
  s.setFlag (RF.MEM_P_STAT_VALID p.index) true

/-- A range leaves with everything that refers to it, without waiting for acknowledgements (R625). -/
def State.removeRange (s : State) (r : RangeEnt) : State :=
  ((s.rcDropRange r.unit r.ctx r.start).dropRange r).freeRange r

/-- The next window of each stack is its first after a load (R533). -/
def State.firstWindows (s : State) : State := { s with mem := { s.mem with regFirst := 2 ^ 32 - 1 } }

def State.setImageId (s : State) (id : Nat) : State := s.setFld64 RF.WRD_IMAGE_ID_LO_ID RF.WRD_IMAGE_ID_HI_ID id

/-- WRD_MFP_IN shows the asserted state of each FUNC 1 pin (Table 3.7). -/
def State.syncMfp (s : State) : State :=
  s.setFld RF.WRD_MFP_IN_LEVEL (maskOf ((List.range 16).filter (fun n =>
    match s.ward.image.pins[n]? with
    | some p => p.func == 1 && natBit s.pins.mfpIn n
    | none => false)))

/-- The ceilings of the FREQ section (R123, R124): a ceiling above the fused maximum is clamped. -/
def State.applyFreq (s : State) : State :=
  let s := s.accrue.rebaseClocks (List.range 640)
  let s := (List.range 640).foldl (fun s c =>
    let fused := if c < 512 then s.fld (RF.TCW_FMAX_STEP c) else s.fld (RF.PWR_D_STAT_VFMAX ((c - 512) / 16))
    let x := s.ward.image.freq.getD c 255
    let s := if x ≤ 16 ∧ fused < x then s.setFlag RF.WRD_STAT_CLAMPED true else s
    if c < 512 then s.setFld (RF.TCW_FCUR_STEP c) (if x ≤ 16 then min x fused else fused) else s) s
  (List.range 8).foldl (fun s d => s.setVolt d (s.voltFor d (s.fld (RF.PWR_D_STAT_BL d)))) s

/-- Every port trains when a full image is applied (R721). -/
def State.portsAnew (s : State) : State :=
  let s : State := { s with ptl := { s.ptl with ports := [] } }
  ((List.range 16).foldl (fun s p => s.setReg (RA.PTL_P_STAT p) 0) s).setReg RA.PTL_STAT 0

/-- A full image is applied (steps 5 to 7 of R128, R626, R658, R778, R828). The loss of TICK_IN is watched for from here on (DESIGN CHOICE, log
entry 108). -/
def State.applyFull (s : State) (im : Image) (bs : List Byte) : State :=
  let s := s.xlt.ranges.foldl State.removeRange s
  let s := { s with xlt := { s.xlt with ranges := [], windows := [], caches := [], misses := [], invals := [], moves := [] } }
  let s := (List.range 64).foldl State.genAdvance s
  let s := { s with
    ward := { s.ward with image := im, load := none, pending := none, quiesceEnds := false }
    units := []
    tick := { lastGen := s.now, lossRef := s.now } }
  let s := ((s.setFlag RF.WRD_STAT_LOADED true).setFlag RF.WRD_STAT_BUSY false).setFlag RF.TCK_STAT_RUNNING true
  let s := (s.setFld RF.TCK_CTL_SRC im.tick.src).setFld RF.TCK_CTL_TOUT im.tick.tout
  let s := ((s.setFld RF.TCK_PERIOD_P im.tick.p).setFld RF.TCK_GUARD_G im.tick.g).setFld RF.TCK_HOLDWIN_H im.tick.h
  let s := s.setFld RF.TCK_SNAP_SIZE_SIZE im.tick.snapSize
  let s := (List.range 1024).foldl State.redefineSlot s
  let s := (s.setFld RF.WRD_UNITS_COUNT im.units.length).setImageId im.imageId
  let s := im.parts.foldl State.definePart s
  let s := (List.range 8).foldl (fun s d =>
    let w := im.scratchWays.getD d 0
    (s.setFld (RF.MEM_D_STAT_SCRATCH_WAYS d) w).setFld (RF.MEM_D_STAT_CACHE_WAYS d) (16 - w)) s
  let s := im.ports.foldl (fun s p => s.setFld (RF.PTL_P_STAT_ROLE p.1) p.2) s.portsAnew
  let s := (s.tmbIdleAll s.tmbsInUse).applyFreq.firstWindows.syncFree.syncMfp.dropQueues.syncXlt.syncQuiesced
  let s := s.setRegBytes RA.KWY_WARDMEAS 8 (sm3 bs)
  let s := s.setFld (RF.MGT_STEP_TIME_US 8) (min ((s.now - s.boot.stepAt) / 2500) (2 ^ 32 - 1))
  (s.bump RF.WRD_LOADS_COUNT).wardRecord 0x0300 none []

/-- The slots that a partial image redefines: those of the old subtree and of the new. -/
def redefinedSlots (old new : Image) : List Nat :=
  ((old.units.filter (fun u => isUnder old.units new.rootSlot u.slot)).map (fun u => u.slot) ++ new.units.map (fun u => u.slot)).eraseDups

/-- Does a range stay when its leaf is redefined: its partition is kept and its slot remains a leaf (R625)? -/
def rangeStays (new : Image) (r : RangeEnt) : Bool :=
  (r.kind == 0 || r.kind == 3) && new.parts.any (fun p => p.index == r.part && p.keep) && new.units.any (fun u => u.slot == r.unit && !u.group)

/-- A partial image is applied (R139, R140, R625, R817, R828). -/
def State.applyPartial (s : State) (p : PendImage) : State :=
  let old := s.ward.image
  let new := p.image
  let slots := redefinedSlots old new
  let s := (s.xlt.ranges.filter (fun r => slots.contains r.unit && !rangeStays new r)).foldl State.removeRange s
  let s := { s with xlt := { s.xlt with windows := s.xlt.windows.filter (fun w => !slots.contains w.2.unit) } }
  let s := s.emptyKeys (fun n => (old.units ++ new.units).any (fun u => slots.contains u.slot && !u.group && natBit u.partMask n))
  let s := (advancing new).foldl State.genAdvance s
  let s := { s with
    ward := { s.ward with image := mergeImage old new, pending := none, quiesceEnds := false }
    units := s.units.filter (fun x => !slots.contains x.1) }
  let s := slots.foldl State.redefineSlot s
  let s := new.parts.foldl State.definePart s
  let s := (s.setFlag RF.WRD_STAT_PARTIAL_PENDING false).setFlag RF.WRD_QUIESCE_EN false
  let s := match s.unitEnt new.rootSlot with
    | some u => s.tmbIdleAll (s.tmbsInUse.filter (fun n => decide (u.tmbBase ≤ n) && decide (n < u.tmbBase + u.tmbCount)))
    | none => s
  let s := (s.setFld RF.WRD_UNITS_COUNT s.ward.image.units.length).setImageId new.imageId
  let s := s.firstWindows.syncFree.dropQueues.syncXlt.syncQuiesced
  let s := s.setRegBytes RA.KWY_WARDMEAS 8 (extend s.wardMeas p.hash)
  let s := (s.bump RF.WRD_LOADS_COUNT).wardRecord 0x0300 (some new.rootSlot) []
  match p.cmd with
  | some id => s.complete id 0 0
  | none => s

/-- VERIFICATION_COMPLETE: the checks of R127 on the image as it was fetched. A full image is applied at once; a partial image awaits its
tick. -/
def execVerificationComplete (image : List Byte) (s : State) : Host.Outcome State Fault Refusal :=
  match s.ward.load with
  | none => .next s
  | some q =>
    if !(image.length == q.size) || !s.alive then .next s
    else
      let root := partialRoot image
      let im := parseImage image
      let t := ({ s with ward := { s.ward with load := none } }).setFlag RF.WRD_STAT_BUSY false
      match s.wardCheck q image with
      | some r => .next (t.wardRefuse r root q.cmd)
      | none =>
        if im.kind = 0 then
          let t := t.applyFull im image
          .next (match q.cmd with
            | some id => t.complete id 0 0
            | none => t)
        else .next (({ t with ward := { t.ward with
            pending := some { image := im, hash := sm3 image, cmd := q.cmd, since := s.now } } }).setFlag RF.WRD_STAT_PARTIAL_PENDING true)

/-- PARTIAL_IMAGE_APPLY: in cycles 128 to 383 of the first tick whose cycle 0 does not come before the verification's end (R138). -/
def execPartialImageApply (s : State) : Host.Outcome State Fault Refusal :=
  match s.ward.pending, s.tick.lastTick with
  | some p, some t =>
    if s.alive && decide (p.since ≤ t) && decide (t + 128 ≤ s.now) && decide (s.now ≤ t + 383) && !s.ward.quiesceEnds then
      .next (s.applyPartial p)
    else .next s
  | _, _ => .next s

end Sys2Proof.Machine
end

