-- ==== Sys2Proof/Machine/Frames.lean ====
section
/-! DEFINITION. Frame programs (R69 to R91): LAUNCH, admission, start gates, retirement, and the resumption of a halted unit. -/

namespace Sys2Proof.Machine

/-! ### LAUNCH (R71, R72, R695) -/

/-- A program from its header (Table 2.3). -/
def headerProg (unit ctx cmd : Nat) (h : List Byte) : FrameProg :=
  { unit := unit, ctx := ctx, cmd := cmd, budget := dNat h 0 4 % 2 ^ 24, startTmb := dNat h 4 4 % 2 ^ 15, startEn := natBit (dNat h 4 4) 15,
    doneTmb := dNat h 8 4 % 2 ^ 15, doneEn := natBit (dNat h 8 4) 15, items := dNat h 12 4, entry := dNat h 16 8 % 2 ^ 57,
    args := dNat h 24 8 % 2 ^ 57 }

/-- LAUNCH: the header is read once, and the program enters its leaf's queue of 256; while the queue is full the command waits. -/
def execLaunch (cmd : Nat) (s : State) : Host.Outcome State Fault Refusal :=
  match s.cmdOf cmd 2 with
  | none => .next s
  | some c =>
    let va := c.at 16 8 % 2 ^ 57
    let r := s.unitRun c.leaf
    if !c.inflight || !s.alive then .next s
    else if !(va % 32 == 0) then .next (s.badCmd cmd c)
    else if 256 ≤ r.waiting.length then .next s
    else
      match s.devRead c.leaf c.ctx 0 va 32 (s.rangeCls c.leaf c.ctx va) with
      | (t, .ok h bad) =>
        if bad then .next (t.failCmd cmd 0x0E06 0 (detailOf []))
        else
          let t := t.begin cmd
          .next (t.setUnit c.leaf { r with waiting := r.waiting ++ [headerProg c.leaf c.ctx cmd h] }).syncQuiesced
      | (_, .fail _ k) => .next (s.failCmd cmd (xltCode k) 0 (xltDetail c.ctx 0 6 s.primary 0 0))
      | (t, .wait) => .next t
      | (_, .other) => .next (s.failCmd cmd 0x0C03 0 (xltDetail c.ctx 0 6 s.primary 0 0))

/-! ### Admission (R73 to R80) -/

/-- Is a program rejected under R73, whichever tumblers it enables, or under R76? -/
def badProg (u : UnitEnt) (usable : Nat) (p : FrameProg) : Bool :=
  let out := fun (t : Nat) => decide (t < u.tmbBase) || decide (u.tmbBase + u.tmbCount ≤ t)
  out p.startTmb || out p.doneTmb || p.budget == 0 || p.items == 0 || decide (usable < p.budget)

/-- A program is admitted: it takes its unit's mode unless it has one already (R258), and its gate is to be registered in this cycle (R82). -/
def State.admitProg (s : State) (unit : Nat) (p : FrameProg) : State :=
  let (st, rnd) := if p.modesSet then (p.strict, p.rnd) else s.numMode unit
  let p := { p with gate := if p.startEn then .pending else .none, gateFrom := s.now, modesSet := true
                    modesAt := if p.modesSet then p.modesAt else some s.now, strict := st, rnd := rnd }
  let r := s.unitRun unit
  ((s.setUnit unit { r with active := r.active ++ [p], waiting := r.waiting.drop 1, halted := false }).bump (RF.TCK_U_ADMIT_COUNT unit)).syncUnit unit

/-- Admit from the head of a unit's queue (R77, R79): `load` the charge of each core in 10 ns, `n` the programs admitted. A leaf without a live
core has its program terminated, which halts it (R583). -/
def State.admitUnit (s : State) (u : UnitEnt) (usable : Nat) : Nat → Nat → KV Nat → State × KV Nat
  | 0, _, load => (s, load)
  | f + 1, n, load =>
    let r := s.unitRun u.slot
    match r.waiting with
    | [] => (s, load)
    | p :: rest =>
      if 16 ≤ n then (s, load)
      else if badProg u usable p then
        ((s.setUnit u.slot { r with waiting := rest }).failCmd p.cmd 0x0201 (s.tickCount % 2 ^ 32 * 2 ^ 32) (detailOf [])).admitUnit u usable f n load
      else if (maskBits 640 u.cores).any (fun c => decide (usable < kvN load c + p.budget)) then (s, load)
      else
        let load := (maskBits 640 u.cores).foldl (fun l c => setN l c (kvN l c + p.budget)) load
        if s.noLive u.slot (fun _ => true) && r.active.isEmpty then
          ((s.admitProg u.slot p).terminate u.slot (s.lostRec u.slot (fun _ => true)), load)
        else (s.admitProg u.slot p).admitUnit u usable f (n + 1) load

/-- The charge of a carried program at the cycle of admission (R88). -/
def chargeOf (now : Nat) (p : FrameProg) (g : Nat) : Nat := max (p.budget - used10 (p.usedNow now)) g

/-- A leaf that a quiesce holds (R133). -/
def State.quiescing (s : State) (slot : Nat) : Bool :=
  s.flag RF.WRD_QUIESCE_EN && s.under (s.fld RF.WRD_QUIESCE_SLOT) slot

/-- Admit for every unit, by priority and then unit index. -/
def State.admitAll (s : State) : State :=
  let p := s.fld RF.TCK_PERIOD_P
  let g := s.fld RF.TCK_GUARD_G
  let leaves := s.ward.image.units.filter (fun u => !u.group)
  let load : KV Nat := leaves.foldl (fun l u => (s.unitRun u.slot).active.foldl (fun l q =>
    (maskBits 640 u.cores).foldl (fun l c => setN l c (kvN l c + chargeOf s.now q g)) l) l) []
  let order := (List.range 8).flatMap (fun k => (List.range 1024).filterMap (fun i => leaves.find? (fun u => u.slot == i && u.priority == k)))
  (order.foldl (fun (acc : State × KV Nat) u =>
    if acc.1.flag (RF.TCK_U_STAT_HALTED u.slot) || acc.1.quiescing u.slot then acc
    else acc.1.admitUnit u (p - g) ((acc.1.unitRun u.slot).waiting.length) 0 acc.2) (s, load)).1

/-- The carried programs resume after admission (R68, R80). -/
def State.resumeCarried (s : State) : State :=
  let s := s.ward.image.units.foldl (fun s u =>
    s.setUnit u.slot { s.unitRun u.slot with active := (s.unitRun u.slot).active.map (fun p => { p with carried := false }) }) s
  (s.ward.image.units.foldl (fun s u => s.askLower u.slot) s).pumpRestores (List.range 640)

/-- ADMISSION: at cycle 384 of a tick, once, after its end-of-frame cycle. A quiesce that was called off ends here (R141). -/
def execAdmission (s : State) : Host.Outcome State Fault Refusal :=
  match s.tick.lastTick with
  | some t =>
    if s.alive && s.now == t + 384 && s.tick.closed && !s.tick.admitted then
      let s := if s.flag RF.TCK_CTL_ADMIT_HOLD || s.boot.fatal then s else s.admitAll
      let s := s.resumeCarried
      .next (State.syncQuiesced { s with tick := { s.tick with admitted := true } }).endQuiesce
    else .next s
  | none => .next s

/-! ### Start gates (R82, R907) -/

/-- The program of a unit whose gate is the next to register: the first whose gate has not opened. A unit's later gates are registered one at a
time, each from the cycle in which the one before it opened, since each firing opens one gate and moves the cursor on (DESIGN CHOICE, log entry 110). -/
def State.nextGate (s : State) (unit : Nat) : Option FrameProg :=
  (s.unitRun unit).active.find? (fun p => p.startEn && !(p.gate == .opened))

/-- Change the program whose gate is the next to register. -/
def State.setGate (s : State) (unit : Nat) (f : FrameProg → FrameProg) : State :=
  let r := s.unitRun unit
  match r.active.findIdx? (fun p => p.startEn && !(p.gate == .opened)) with
  | some i => (s.setUnit unit { r with active := r.active.zipIdx.map (fun x => if x.2 = i then f x.1 else x.1) }).syncUnit unit
  | none => s

/-- The wait operand of a gate (Table 2.10). -/
def gateOperand (kind cursor : Nat) : Nat :=
  match kind with
  | 1 => cursor
  | 2 => cursor % 65536
  | 3 => 65536 + cursor % 65536
  | _ => 0

/-- The cursor after a gate has opened. -/
def gateCursor (kind step cursor : Nat) : Nat :=
  match kind with
  | 1 => (cursor + (if step = 0 then 1 else step)) % 2 ^ 32
  | 2 => cursor / 65536 * 65536 + (cursor + 1) % 65536
  | 3 => cursor / 65536 * 65536 + (cursor + 1) % 65536
  | _ => cursor

/-- May a message of the start gates between the primary P-die and the home of a tumbler arrive now, when it was sent in cycle `t` (R907)? In the
home's own P-die it takes no time, else at most 400 cycles. -/
def State.gateTimely (s : State) (tmb t : Nat) : Bool :=
  decide (t ≤ s.now) && decide (s.now ≤ t + if tmbLeaf tmb = s.primary then 0 else 400)

/-- START_GATE_REGISTER: the wait of a unit's next gate is registered at the home of START_TMB (R82, R907). -/
def execStartGateRegister (unit : Nat) (s : State) : Host.Outcome State Fault Refusal :=
  match s.nextGate unit with
  | some p =>
    if s.alive && p.gate == .pending && s.gateTimely p.startTmb p.gateFrom then
      let s := s.setGate unit (fun p => { p with gate := .registered })
      .next (s.tmbWait { src := .gate unit, kind := 6, id := s.primary, op := .wait, tmb := p.startTmb, unit := unit,
                         operand := gateOperand (s.tmbAt p.startTmb).kind (s.fld (RF.TCK_U_START_CURSOR unit)) })
    else .next s
  | none => .next s

/-- A gate opens by a firing of cycle `at_`: the cursor advances, preemption of lower programs is requested (R84), and the unit's next gate may be
registered. -/
def State.openGate (s : State) (unit : Nat) (p : FrameProg) (at_ : Nat) : State :=
  let cur := s.fld (RF.TCK_U_START_CURSOR unit)
  let t := s.tmbAt p.startTmb
  let s := s.setGate unit (fun p => { p with gate := .opened, cursor := some cur, firedAt := at_ })
  let s := s.setGate unit (fun p => { p with gateFrom := s.now })
  let s := s.setFld (RF.TCK_U_START_CURSOR unit) (gateCursor t.kind t.step cur)
  (s.syncUnit unit).askLower unit

/-- START_GATE_OPEN: the firing notification of a start gate reaches the primary dispatch complex (R82, R907). A wait that a new configuration
ended is registered again (R656). -/
def execStartGateOpen (unit : Nat) (s : State) : Host.Outcome State Fault Refusal :=
  match s.tmb.notes.findIdx? (fun x => x.src == TmbSrc.gate unit && (x.ans == TmbAns.fired || x.ans == TmbAns.timedOut)), s.nextGate unit with
  | some i, some p =>
    match s.tmb.notes[i]? with
    | some x =>
      if s.gateTimely p.startTmb x.at_ then
        let s := s.takeNote i
        .next (if x.ans == TmbAns.fired then s.openGate unit p x.at_
          else s.setGate unit (fun p => { p with gate := .pending, gateFrom := s.now }))
      else .next s
    | none => .next s
  | _, _ => .next s

/-! ### Retirement (R69, R90) -/

/-- Has the last work item of a unit's program completed? -/
def State.retiring (s : State) (unit : Nat) : Option FrameProg :=
  match s.prog unit with
  | some p => if s.alive && decide (0 < p.items) && p.done.length == p.items then some p else none
  | none => none

/-- A program retires: USED is shown, DONE_TMB receives its arrival, and the LAUNCH completes. -/
def State.retire (s : State) (unit : Nat) : State :=
  match s.retiring unit with
  | some p =>
    let used := used10 (p.usedNow s.now)
    let s := s.setFld (RF.TCK_U_USED_USED unit) (min used (2 ^ 24 - 1))
    let s := if p.budget < used then s.bump (RF.TCK_U_EXCESS_COUNT unit) else s
    let s := s.setUnit unit { s.unitRun unit with active := (s.unitRun unit).active.drop 1 }
    let s := if p.doneEn then s.devArrive 6 s.primary p.doneTmb else s
    ((((s.endLaunch p 0).syncUnit unit).syncQuiesced).askLower unit).pumpRestores (s.unitCores unit)
  | none => s

/-- PROGRAM_RETIRE: the last work item of a unit's program has completed, in this cycle (R69): when the cycle ends the program has retired
(`State.idle`). -/
def execProgramRetire (unit : Nat) (s : State) : Host.Outcome State Fault Refusal := .next (s.retire unit)

/-- Every program whose last work item has completed retires. -/
def State.endRetired (s : State) : State :=
  ((s.units.map (fun p => p.1)).filter (fun u => (s.retiring u).isSome)).foldl State.retire s

/-- TCK_U_HALTED_CLEAR: the driver writes 1 to HALTED; admission resumes at the next tick (R87). -/
def execTckUHaltedClear (unit : Nat) (s : State) : Host.Outcome State Fault Refusal :=
  .next (if decide (unit < 1024) && s.serving then s.setFlag (RF.TCK_U_STAT_HALTED unit) false else s)

end Sys2Proof.Machine
end

