-- ==== Sys2Proof/Machine/Tick.lean ====
section
/-! DEFINITION. The frame tick's sources (R46 to R64) and the tick itself (R55, R61, R68, Table 2.2). -/

namespace Sys2Proof.Machine

/-- Are ticks taken: a full image is in force, and the device runs (R128, R884)? -/
def State.ticking (s : State) : Bool := s.alive && s.flag RF.WRD_STAT_LOADED

/-- P in cycles of `now`. -/
def State.periodCycles (s : State) : Nat := refPeriod * s.fld RF.TCK_PERIOD_P

/-- An edge is filtered (R50, R51). -/
def State.glitch (s : State) : State := (s.bump RF.TCK_GLITCH_COUNT).setFlag RF.TCK_STAT_GLITCH true

/-- A tick is due, and its cycle 0 is cycle `at_`. -/
def State.dueTick (s : State) (src : TickSrc) (at_ : Nat) : State :=
  { s with tick := { s.tick with due := some src, dueAt := at_ } }

/-- The cycle of the last tick, one that is due counted; a holdover tick of this very cycle is not, since an edge takes its place (R654). -/
def State.tickBefore (s : State) : Option Nat :=
  match s.tick.due with
  | some _ => if s.tick.dueAt < s.now then some s.tick.dueAt else s.tick.lastTick
  | none => s.tick.lastTick

/-- Has an edge been recognised within the last 2 P (Table 2.8)? -/
def State.edgePresent (s : State) : Bool :=
  match s.tick.lastEdge with
  | some e => decide (s.now - e < 2 * s.periodCycles)
  | none => false

/-- A record of the tick (Table 4.12). -/
def State.tickRec (s : State) (code : Nat) : Rec := { code := code, srcKind := 6, srcId := s.boot.leafSel }

/-- A recognised edge under an external source: a tick, or filtered as too early; it ends holdover (R51, R59). After a filtered edge that ended
holdover the loss is watched for from that edge on (DESIGN CHOICE, log entry 108). -/
def State.extEdge (s : State) : State :=
  let early := match s.tickBefore with
    | some t => decide (2 * (s.now - t) < s.periodCycles)
    | none => false
  let held := s.flag RF.TCK_STAT_HOLDOVER
  let s := s.setFlag RF.TCK_STAT_HOLDOVER false
  if early then
    let s := s.glitch
    if held then { s with tick := { s.tick with lossRef := s.now, lossSeen := false } } else s
  else State.dueTick { s with tick := { s.tick with riseTicked := true } } .ext s.now

/-- In repeat mode TICK_OUT follows a pulse of TICK_IN from its rising edge on, glitches included (R63). -/
def State.repeatPulse (s : State) (high : Nat) : State :=
  if s.fld RF.TCK_CTL_TOUT = 1 then
    { s with tick := { s.tick with
      outHigh := decide (100 ≤ high), outRose := some (s.now - high), outFell := if high < 100 then some s.now else none } }
  else s

/-- TICK_IN_RISING_EDGE: `high` is how many cycles the input has stayed high; from 100 on the edge is recognised (R50), and a shorter pulse has
ended. -/
def execTickInRisingEdge (high : Nat) (s : State) : Host.Outcome State Fault Refusal :=
  if !s.ticking then .next s
  else
    let s := s.repeatPulse high
    if high < 100 then .next s.glitch
    else
      let s := { s with tick := { s.tick with riseAt := some s.now, riseTicked := false, lastEdge := some s.now } }
      let s := s.setFlag RF.TCK_STAT_EXT_PRESENT true
      .next (if s.fld RF.TCK_CTL_SRC = 0 then s else s.extEdge)

/-- TICK_IN_FALLING_EDGE: a recognised pulse that was high for 600 ns or longer is a sync tick: TCK_SYNC_LOAD is held for the next tick (R53,
R54). The pulse of a tick shows in that tick's record (Table 2.4). -/
def execTickInFallingEdge (width : Nat) (s : State) : Host.Outcome State Fault Refusal :=
  match s.tick.riseAt with
  | none => .next s
  | some _ =>
    let sync := decide (1500 ≤ width)
    let v := s.fld64 RF.TCK_SYNC_LOAD_LO_VALUE RF.TCK_SYNC_LOAD_HI_VALUE
    .next { s with tick := { s.tick with
      riseAt := none, riseTicked := false, outHigh := false
      outFell := if s.tick.outHigh then some s.now else s.tick.outFell
      held := if sync then some v else s.tick.held
      recPulse := s.tick.recPulse || (s.tick.riseTicked && sync) } }

/-- INTERNAL_TICK: under SRC 0 the generator issues a tick every P reference periods (R48). -/
def execInternalTick (s : State) : Host.Outcome State Fault Refusal :=
  if s.ticking && s.fld RF.TCK_CTL_SRC == 0 && s.tick.due.isNone && s.now == s.tick.lastGen + s.periodCycles then
    .next (s.dueTick .gen s.now)
  else .next s

/-- TICK_LOSS: no edge came by P + H (R56). An edge in the deadline's own cycle wins, so that the loss is detected once that cycle is over; the
holdover tick under SRC 2 is a tick of the deadline's cycle (R57, R58). -/
def execTickLoss (s : State) : Host.Outcome State Fault Refusal :=
  if s.ticking && !(s.fld RF.TCK_CTL_SRC == 0) && !s.flag RF.TCK_STAT_HOLDOVER && !s.tick.lossSeen && s.tick.due.isNone
      && decide (s.tick.lossRef + s.periodCycles + refPeriod * s.fld RF.TCK_HOLDWIN_H < s.now) then
    let s := { s with tick := { s.tick with lossSeen := true } }
    let s := ((s.setFlag RF.TCK_STAT_LOST true).bump RF.TCK_LOST_COUNT).emit (s.tickRec 0x0204)
    .next (if s.fld RF.TCK_CTL_SRC = 2 then (s.setFlag RF.TCK_STAT_HOLDOVER true).dueTick .holdover (s.now - 1) else s)
  else .next s

/-- HOLDOVER_TICK: in holdover the generator issues a tick every P (R57). -/
def execHoldoverTick (s : State) : Host.Outcome State Fault Refusal :=
  if s.ticking && s.flag RF.TCK_STAT_HOLDOVER && s.tick.due.isNone && s.now == s.tick.lastGen + s.periodCycles then
    .next (s.dueTick .holdover s.now)
  else .next s

/-- SYNC_REQ: the next driven pulse is a sync pulse (R64). -/
def execSyncReq (s : State) : Host.Outcome State Fault Refusal :=
  if s.serving then .next { s with tick := { s.tick with syncReq := true } } else .next s

/-- The number of the tick (R54, R55). -/
def State.tickNumber (s : State) : Nat :=
  if s.tick.first then 0 else s.tick.held.getD ((s.tickCount + 1) % 2 ^ 64)

/-- In drive mode an internally generated tick sends a pulse of 200 ns, or of 1,000 ns after SYNC_REQ (R64). The pulse that the device itself
drives latches nothing for its own next tick (DESIGN CHOICE, log entry 109). -/
def State.drivePulse (s : State) (src : TickSrc) (t : Nat) : State :=
  if s.fld RF.TCK_CTL_TOUT = 2 ∧ src ≠ .ext then
    { s with tick := { s.tick with outUntil := t + (if s.tick.syncReq then 2500 else 500), outSync := s.tick.syncReq, syncReq := false } }
  else s

/-- TICK: the tick that is due is cycle 0 of a new frame. -/
def execTick (s : State) : Host.Outcome State Fault Refusal :=
  match s.tick.due with
  | none => .next s
  | some src =>
    let t := s.tick.dueAt
    let len := match s.tick.lastTick with
      | some l => t - l
      | none => 0
    let p := s.periodCycles
    let off := len * 200 - p * 200 + (p * 200 - len * 200)
    let bad := s.tick.lastTick.isSome && decide (src = .ext) && decide (p < off)
    let n := s.tickNumber
    let was := !s.tick.first && s.tick.held.isSome
    let s := s.setFld64 RF.TCK_COUNT_LO_COUNT RF.TCK_COUNT_HI_COUNT n
    let s := if s.tick.lastTick.isSome then s.setFld RF.TCK_MEAS_LEN (min (used10 len) (2 ^ 32 - 1)) else s
    let s := s.setFlag RF.TCK_STAT_EXT_PRESENT s.edgePresent
    let s := { s with tick := { s.tick with
      lastTick := some t, lastGen := t, due := none, first := false, held := none, lossRef := t, lossSeen := false
      recSync := was, recHold := src == TickSrc.holdover, recOverrun := false, recDefer := false, recPulse := false
      recTick := n, recLen := if s.tick.lastTick.isSome then min (used10 len) (2 ^ 32 - 1) else 0
      closed := false, admitted := false } }
    let s := s.drivePulse src t
    .next (if bad then (s.setFlag RF.TCK_STAT_MISMATCH true).emit (s.tickRec 0x0205) else s)

end Sys2Proof.Machine
end

