-- ==== Sys2Proof/Machine/Mgmt.lean ====
section
/-! DEFINITION. The management plane and the black box (chapter 18): MCTP, PLDM and vendor-defined messages, alerts, the
wardens' watchdog, the writer of the NOR die. -/

namespace Sys2Proof.Machine

/-! ### MCTP control messages (Table 18.3, DSP0236) -/

/-- A control request on a binding; the discovery messages exist on PCIe VDM only. -/
def State.mctp (s : State) (b : Nat) (vdmOnly : Bool) (f : State → State) : State :=
  if s.mctpUp b && (!vdmOnly || b == 0) then f s else s

/-- A control response: its command, completion code and bytes. -/
def State.mctpReply (s : State) (b code status : Nat) (bs : List Byte) : State :=
  s.sendMgt { kind := 0, code := code, status := status, bytes := bs, binding := b }

/-- What DSP0236 fixes of a control response. -/
def mctpStd (code : Nat) (req : List Byte) : List Byte := Config.stdResponse 0 code req

/-- SET_ENDPOINT_ID: the endpoint takes the EID; the null and the broadcast EID are no endpoint's (completion code 2). -/
def execSetEndpointId (binding eid : Nat) (s : State) : Host.Outcome State Fault Refusal :=
  .next (s.mctp binding false (fun s =>
    if eid % 256 = 0 ∨ eid % 256 = 255 then s.mctpReply binding 1 2 []
    else State.mctpReply { s with mgt := { s.mgt with eid := eid % 256, discovered := true } } binding 1 0
      (mctpStd 1 (leBytes 1 eid))))

/-- GET_ENDPOINT_ID: the EID, and a simple endpoint's type byte. -/
def execGetEndpointId (binding : Nat) (s : State) : Host.Outcome State Fault Refusal :=
  .next (s.mctp binding false (fun s => s.mctpReply binding 2 0 (leBytes 1 s.mgt.eid ++ mctpStd 2 [])))

/-- GET_ENDPOINT_UUID: the endpoint's identifier. -/
def execGetEndpointUuid (binding : Nat) (s : State) : Host.Outcome State Fault Refusal :=
  .next (s.mctp binding false (fun s => s.mctpReply binding 3 0 (mctpStd 3 (leBytes 8 deviceId))))

/-- GET_MCTP_VERSION_SUPPORT: the versions of the standards that Table 18.3 names. -/
def execGetMctpVersionSupport (binding : Nat) (s : State) : Host.Outcome State Fault Refusal :=
  .next (s.mctp binding false (fun s => s.mctpReply binding 4 0 (mctpStd 4 [])))

/-- GET_MESSAGE_TYPE_SUPPORT: the message types of Table 18.3 besides control. -/
def execGetMessageTypeSupport (binding : Nat) (s : State) : Host.Outcome State Fault Refusal :=
  .next (s.mctp binding false (fun s =>
    s.mctpReply binding 5 0 (leBytes 1 4 ++ leBytes 1 0x01 ++ leBytes 1 0x05 ++ leBytes 1 0x06 ++ leBytes 1 0x7E)))

/-- GET_VENDOR_DEFINED_MESSAGE_SUPPORT: the PCI vendor ID that the physical function reports. -/
def execGetVendorDefinedMessageSupport (binding : Nat) (s : State) : Host.Outcome State Fault Refusal :=
  .next (s.mctp binding false (fun s => s.mctpReply binding 6 0 (mctpStd 6 [])))

/-- PREPARE_FOR_ENDPOINT_DISCOVERY: the endpoint counts as not discovered. -/
def execPrepareForEndpointDiscovery (binding : Nat) (s : State) : Host.Outcome State Fault Refusal :=
  .next (s.mctp binding true (fun s =>
    State.mctpReply { s with mgt := { s.mgt with discovered := false } } binding 0x0B 0 []))

/-- ENDPOINT_DISCOVERY: an endpoint not yet discovered answers. -/
def execEndpointDiscovery (binding : Nat) (s : State) : Host.Outcome State Fault Refusal :=
  .next (s.mctp binding true (fun s => if s.mgt.discovered then s else s.mctpReply binding 0x0C 0 []))

/-- DISCOVERY_NOTIFY. -/
def execDiscoveryNotify (binding : Nat) (s : State) : Host.Outcome State Fault Refusal :=
  .next (s.mctp binding true (fun s => s.mctpReply binding 0x0D 0 []))

/-! ### PLDM (DSP0240, DSP0248) -/

/-- What the sensors show: die and stack temperatures, the frame's power, the cap in force, and the step. -/
def State.sensors (s : State) : List Byte :=
  (List.range 8).flatMap (fun d => leBytes 1 (s.fld (RF.PWR_D_TEMP_T d)))
  ++ (List.range 2).flatMap (fun d => leBytes 1 (s.fld (RF.PWR_PD_TEMP_T d)))
  ++ (List.range 32).flatMap (fun k => leBytes 1 (s.fld (RF.PWR_S_TEMP_T k)))
  ++ leBytes 2 (s.fld RF.PWR_EST_FRAME_P) ++ leBytes 2 (s.fld RF.PWR_CAP_CUR_WATTS) ++ leBytes 1 (s.fld RF.MGT_BOOT_STAT_STEP)

/-- PLDM_REQUEST: types 0 and 2 are answered from the sensors and the repository; another type is not supported (0x20). -/
def execPldmRequest (binding kind cmd : Nat) (data : List Byte) (s : State) : Host.Outcome State Fault Refusal :=
  if !s.mctpUp binding then .next s
  else if kind = 0 ∨ kind = 2 then
    .next (s.sendMgt { kind := 2, code := cmd, status := 0, binding := binding
                       bytes := Config.stdResponse (64 + kind) cmd (data ++ s.sensors) })
  else .next (s.sendMgt { kind := 2, code := cmd, status := 0x20, bytes := [], binding := binding })

/-! ### Vendor-defined messages (Table 18.4) -/

def State.vendorReply (s : State) (b code status : Nat) (bs : List Byte) : State :=
  s.sendMgt { kind := 3, code := code, status := status, bytes := bs, binding := b }

/-- A secured command needs an established SPDM session of its binding (R861). -/
def State.secured (s : State) (b : Nat) (secured : Bool) : Bool :=
  secured && s.kwy.sessions.any (fun x => x.binding == b && x.established)

/-- GET_STATUS: four status registers. -/
def execGetStatus (binding : Nat) (s : State) : Host.Outcome State Fault Refusal :=
  if s.mctpUp binding then
    .next (s.vendorReply binding 1 0 ([RA.MGT_BOOT_STAT, RA.KWY_STAT, RA.PWR_STAT, RA.MGT_ALERT].flatMap (fun a => leBytes 4 (s.reg a).toNat)))
  else .next s

/-- EV_READ: up to `count` of the oldest unread records, which are read by it. A count outside 1–4 reads nothing; the spec states no
completion code for it. -/
def execEvRead (binding count : Nat) (s : State) : Host.Outcome State Fault Refusal :=
  if !s.mctpUp binding then .next s
  else if 1 ≤ count ∧ count ≤ 4 then
    let rs := s.mgt.queue.take count
    let s := { s with mgt := { s.mgt with queue := s.mgt.queue.drop count } }
    .next (s.vendorReply binding 2 0 (rs.flatMap Rec.bytes))
  else
    let (i, s) := s.nextFree
    .next (s.vendorReply binding 2 (Config.freeNat i) [])

/-- CHAIN of the last entry; 32 zero bytes before the first. -/
def State.bbChain (s : State) : List Byte := if s.bb.chain = [] then List.replicate 32 0 else s.bb.chain

/-- BB_INFO. -/
def execBbInfo (binding : Nat) (s : State) : Host.Outcome State Fault Refusal :=
  if s.mctpUp binding then
    .next (s.vendorReply binding 3 0 ([RA.MGT_BB_HEAD_LO, RA.MGT_BB_HEAD_HI, RA.MGT_BB_OLDEST_LO, RA.MGT_BB_OLDEST_HI].flatMap
      (fun a => leBytes 4 (s.reg a).toNat) ++ s.bbChain))
  else .next s

/-- The entry that the record area holds under an INDEX. -/
def State.bbEntry (s : State) (index : Nat) : Option (List Byte) :=
  (s.bb.slots.find? (fun p => !p.2.torn && leNat (p.2.bytes.take 8) == index)).map (fun p => p.2.bytes)

/-- BB_READ. -/
def execBbRead (binding index : Nat) (s : State) : Host.Outcome State Fault Refusal :=
  if !s.mctpUp binding then .next s
  else match s.bbEntry index with
    | some bs => .next (s.vendorReply binding 4 0 bs)
    | none => .next (s.vendorReply binding 4 0x82 [])

/-- CAP_SET: PWR_CAP_MGT is written; the cap in force follows at cycle 96 of a tick (R774). -/
def execCapSet (binding : Nat) (secured : Bool) (watts : Nat) (s : State) : Host.Outcome State Fault Refusal :=
  if !s.mctpUp binding then .next s
  else if s.secured binding secured then .next ((s.setFld RF.PWR_CAP_MGT_WATTS watts).vendorReply binding 5 0 [])
  else .next (s.vendorReply binding 5 0x81 [])

/-- KILL: held for the next end-of-frame cycle, which writes it and sends the response; refused while ticks do not run (R862). -/
def execKill (binding : Nat) (secured : Bool) (value : Word) (s : State) : Host.Outcome State Fault Refusal :=
  if !s.mctpUp binding then .next s
  else if !s.secured binding secured then .next (s.vendorReply binding 6 0x81 [])
  else if !s.ticking then .next (s.vendorReply binding 6 0x83 [])
  else .next { s with mgt := { s.mgt with heldKill := s.mgt.heldKill ++ [(binding, value.toNat)] } }

/-- Every alert-class record that arrived before this cycle is acknowledged (R864). -/
def State.ackAlerts (s : State) : State :=
  let n := if s.mgt.alertAt = s.now then s.mgt.alertN else 0
  let s := ({ s with mgt := { s.mgt with unacked := n, alertN := n } }).setFld RF.MGT_ALERT_PENDING (min n 65535)
  s.setFlag RF.MGT_ALERT_ASSERTED (n != 0)

/-- ALERT_ACK. -/
def execAlertAck (binding : Nat) (s : State) : Host.Outcome State Fault Refusal :=
  if s.mctpUp binding then .next (s.ackAlerts.vendorReply binding 7 0 []) else .next s

/-- MGT_ALERT_WRITE: a write of 1 to MGT_ALERT.ASSERTED. -/
def execMgtAlertWrite (value : Word) (s : State) : Host.Outcome State Fault Refusal :=
  if s.alive && natBit value.toNat 0 then .next s.ackAlerts else .next s

/-! ### Wardens (R858, R859) -/

/-- WARDEN_WATCHDOG: the writer records 0x1208 and the warden's bit is set; when both wardens of a P-die have failed, raises requested there are
cancelled under R780, since no set-point is confirmed any more. -/
def execWardenWatchdog (warden : Nat) (s : State) : Host.Outcome State Fault Refusal :=
  if s.alive && s.boot.fwRunning && decide (warden < 4) && !natBit s.boot.wardenDead warden then
    let s := { s with boot := { s.boot with wardenDead := Nat.lor s.boot.wardenDead (2 ^ warden) } }
    let s := s.setFld RF.MGT_WDOG_EXPIRED (Nat.lor (s.fld RF.MGT_WDOG_EXPIRED) (2 ^ warden))
    .next (s.emit { code := 0x1208, srcKind := 10, srcId := warden, detail := detailOf [(52, 1, warden)] })
  else .next s

/-! ### The black box (R865 to R873) -/

/-- Slots of the record area and of a sector (Table 18.5). -/
def bbSlots : Nat := 983040
def bbPerSector : Nat := 512

/-- MGT_BB_HEAD, MGT_BB_OLDEST and ERASING follow the record area. -/
def State.syncHead (s : State) : State :=
  let old := s.bb.slots.foldl (fun m p => if p.2.torn then m else min m (leNat (p.2.bytes.take 8))) s.bb.index
  let s := s.setFld64 RF.MGT_BB_HEAD_LO_INDEX RF.MGT_BB_HEAD_HI_INDEX s.bb.index
  let s := s.setFld64 RF.MGT_BB_OLDEST_LO_INDEX RF.MGT_BB_OLDEST_HI_INDEX old
  s.setFlag RF.MGT_BB_STAT_ERASING s.bb.erasing.isSome

/-- Bytes 0–95 of an entry (Table 18.6). -/
def State.bbBody (s : State) (e : BbPend) : List Byte :=
  leBytes 8 s.bb.index ++ leBytes 4 (s.fld RF.MGT_COLD_STARTS_COUNT) ++ leBytes 2 e.suppressed ++ leBytes 1 (e.source % 4)
    ++ leBytes 1 0 ++ leBytes 8 e.uptime ++ e.rec_.bytes ++ leBytes 8 0

def State.setSlot (s : State) (n : Nat) (x : BbSlot) : State :=
  { s with bb := { s.bb with slots := kvSet (fun _ => {}) s.bb.slots n x } }

/-- The head moves on a slot; past the midpoint of a sector the next sector is to be erased (R871). -/
def State.advanceHead (s : State) : State :=
  let h := (s.bb.head + 1) % bbSlots
  let s := { s with bb := { s.bb with head := h } }
  if h % bbPerSector = bbPerSector / 2 then
    { s with bb := { s.bb with erasing := some ((h / bbPerSector + 1) % (bbSlots / bbPerSector)) } }
  else s

/-- BB_ENTRY_PROGRAM: the first buffered entry goes into the slot at the head, chained to the last (R868, R869). With space in the
buffer again, what was lost is entered as 0x1207. -/
def execBbEntryProgram (s : State) : Host.Outcome State Fault Refusal :=
  match s.bb.buffer with
  | [] => .next s
  | e :: r =>
    if s.flag RF.MGT_BB_STAT_READY && !(s.bb.erasing == some (s.bb.head / bbPerSector)) then
      let body := s.bbBody e
      let chain := sm3 (s.bbChain ++ body)
      let s := s.setSlot s.bb.head { bytes := body ++ chain }
      let s := { s with bb := { s.bb with buffer := r, index := s.bb.index + 1, chain := chain } }
      let s := ((s.bump RF.MGT_BB_WRITTEN_COUNT).syncBb.advanceHead).syncHead
      .next (if s.bb.lostRun = 0 then s else
        State.emit { s with bb := { s.bb with lostRun := 0 } } { code := 0x1207, detail := detailOf [(52, 4, s.bb.lostRun)] })
    else .next s

/-- BB_SECTOR_ERASE: the erase completes, and MGT_BB_OLDEST advances. -/
def execBbSectorErase (s : State) : Host.Outcome State Fault Refusal :=
  match s.bb.erasing with
  | none => .next s
  | some k =>
    .next (State.syncHead { s with bb := { s.bb with
      erasing := none, slots := s.bb.slots.filter (fun p => !(p.1 / bbPerSector == k)) } })

/-- BB_RD_IDX_WRITE: a write of MGT_BB_RD_IDX_LO starts a latch of the entry that both words name. -/
def execBbRdIdxWrite (value : Word) (s : State) : Host.Outcome State Fault Refusal :=
  if s.alive && decide (1 ≤ s.boot.step) then
    let s := s.setReg RA.MGT_BB_RD_IDX_LO value
    .next (({ s with bb := { s.bb with rdIdx := some (s.fld64 RF.MGT_BB_RD_IDX_LO_INDEX RF.MGT_BB_RD_IDX_HI_INDEX) } }).setFlag
      RF.MGT_BB_STAT_RD_BUSY true)
  else .next s

/-- BB_RD_LATCH_DONE: the entry, or 128 zero bytes, stands in MGT_BB_RD_DATA. -/
def execBbRdLatchDone (s : State) : Host.Outcome State Fault Refusal :=
  match s.bb.rdIdx with
  | none => .next s
  | some i =>
    let bs := (s.bbEntry i).getD (List.replicate 128 0)
    .next (((State.setRegBytes { s with bb := { s.bb with rdIdx := none } } RA.MGT_BB_RD_DATA 32 bs)).setFlag RF.MGT_BB_STAT_RD_BUSY false)

end Sys2Proof.Machine
end

