-- ==== Sys2Proof/Machine/Boot.lean ====
section
/-! DEFINITION. Starts (R839 to R857): the steps of a cold and of a warm start, the firmware bundle, PWROK and PERST_N. -/

namespace Sys2Proof.Machine

/-! ### What a start ends (R841) and clears -/

/-- A start ends every program, copy, queue and tick: nothing of the work in progress is left. The agents declared dead, the clocks' counts, the
keyway's SALT and fuses, the management queue and the black box are kept. -/
def State.teardown (s : State) : State :=
  let s := s.rebaseClocks (List.range 640)
  { s with
    units := [], xlt := {}, tmb := {}, accs := [], preempts := [], tick := {}, ward := {}, mem := {}, links := [], ptl := {}
    host := { mem := s.host.mem, poisoned := s.host.poisoned, nextCmd := s.host.nextCmd, sent := s.host.sent }
    tc := { clockAt := s.tc.clockAt }
    vc := { dead := s.vc.dead, ctrs := s.vc.ctrs.filter (fun p => p.1 % 16 == 0) }
    coh := { deadDies := s.coh.deadDies, causes := s.coh.causes }
    pwr := { accrued := s.now, winStart := s.now, frameStart := s.now }
    kwy := { fusedSvn := s.kwy.fusedSvn, salt := s.kwy.salt, nextSession := s.kwy.nextSession }
    mgt := { queue := s.mgt.queue, unacked := s.mgt.unacked, alertAt := s.mgt.alertAt, alertN := s.mgt.alertN, sent := s.mgt.sent }
    pins := { s.pins with markerUntil := [], tmbOutUntil := [], overrunOut := false, captures := [], timerBase := [] }
    boot := { s.boot with push := none, fwRunning := false, bundleSvn := 0, bundleWardSvn := 0, signers := [], wardenDead := 0 } }

/-- The registers a warm start resets. A dead V-core stays dead (R476). -/
def State.warmRegs (s : State) : State :=
  s.vc.dead.foldl (fun s c => s.setFlag (RF.VCW_STAT_DEAD c) true) { s with regs := s.regs.filter (fun p => keptReg p.1) }

/-- What power has kept at a cold start: the fuses, the NOR die, the host, the pins. -/
def State.coldState (s : State) : State :=
  { pending := s.pending, now := s.now, freeCtr := s.freeCtr
    host := { mem := s.host.mem, poisoned := s.host.poisoned, nextCmd := s.host.nextCmd, sent := s.host.sent }
    bb := { slots := s.bb.slots, head := s.bb.head, index := s.bb.index, chain := s.bb.chain, erasing := s.bb.erasing }
    boot := { coldCount := s.boot.coldCount, repair := s.boot.repair }
    mgt := { sent := s.mgt.sent }
    jtag := s.jtag
    kwy := { fusedSvn := s.kwy.fusedSvn }
    pins := { pwrok := s.pins.pwrok, perst := false, leafSel := s.pins.leafSel, mfpIn := s.pins.mfpIn, brakeN := s.pins.brakeN } }

/-! ### Steps -/

/-- The bounds of steps 1 to 6 in µs (Table 18.1). -/
def stepBounds : List Nat := [2000, 150000, 20000, 250000, 1000, 40000]

/-- Step `n` begins. -/
def State.beginStep (s : State) (n : Nat) : State :=
  ({ s with boot := { s.boot with step := n, stepAt := s.now } }).setFld RF.MGT_BOOT_STAT_STEP n

/-- Step `n` takes `us` microseconds, at most its bound; its duration is recorded. -/
def State.spendStep (s : State) (n us : Nat) : State :=
  let us := min us (stepBounds.getD (n - 1) 0)
  ({ s with now := s.now + 2500 * us }).setFld (RF.MGT_STEP_TIME_US n) us

/-- Has the start stopped (R844)? -/
def State.startDead (s : State) : Bool := s.flag RF.MGT_BOOT_STAT_FATAL

/-- A step fails: the start stops. -/
def State.stopStart (s : State) (code : Nat) : State :=
  (s.setFlag RF.MGT_BOOT_STAT_FATAL true).setFld RF.MGT_BOOT_STAT_CODE code

/-- Run a step unless the start has stopped. -/
def State.runStep (s : State) (n us : Nat) (f : State → State) : State :=
  if s.startDead then s else f ((s.beginStep n).spendStep n us)

/-- Step 1: the fuses load what Table 18.1 names; a step is one of 0 to 16 (R896). -/
def State.loadFuses (s : State) : State :=
  let step := fun (n : Nat) => min n 16
  let s := (List.range 512).foldl (fun s c => (s.setFld (RF.TCW_FMAX_STEP c) (step (Config.fuseFmax c))).setFld (RF.TCW_FCUR_STEP c) (step (Config.fuseFmax c))) s
  let s := (List.range 8).foldl (fun s d =>
    let s := (List.range 17).foldl (fun s k => s.setFld (RF.PWR_D_VF_MV d k) (Config.fuseVf d k)) s
    (s.setFld (RF.PWR_D_TLIM_TRIP d) (Config.fuseTrip d)).setFld (RF.PWR_D_STAT_VFMAX d) (step (Config.fuseVfmax d))) s
  let s := (List.range 19).foldl (fun s n => s.setReg (RA.PWR_W n) (BitVec.ofNat 32 (Config.fuseW n))) s
  let s := (s.setFld RF.KWY_STAT_FUSED_SVN s.kwy.fusedSvn).setFld RF.KWY_DOMAIN_CODE Config.domain
  let s := s.setFld64 RF.KWY_DEVID_LO_ID RF.KWY_DEVID_HI_ID deviceId
  (List.range 8).foldl (fun s d => (s.setFld (RF.PWR_D_STAT_BL d) 8).setVolt d (s.voltFor d 8)) s

/-- Step 1: the writer finds the head (R870). A slot at the head that did not take its entry is torn. -/
def State.findHead (s : State) : State :=
  let torn := fun (n : Nat) => (kvGet (fun _ => ({} : BbSlot)) s.bb.slots n).torn
  let s := if torn s.bb.head then s.advanceHead else s
  let last := (s.bb.head + bbSlots - 1) % bbSlots
  let s := (s.setFlag RF.MGT_BB_STAT_READY true).syncHead
  if torn last then s.emit { code := 0x1209, detail := detailOf [(52, 4, last)] } else s

/-- The host link trains at step 1, to a width and a speed that the spec does not fix (R843, Table 14.7). -/
def State.hostLinkUp (s : State) : State :=
  let s := (s.setFld RF.HIF_STAT_WIDTH (Config.pcieWidth s.now % 4)).setFld RF.HIF_STAT_SPEED (1 + Config.pcieSpeed s.now % 6)
  (s.setFld RF.HIF_STAT_PRIMARY s.boot.leafSel).setFlag RF.HIF_STAT_LINKUP true

/-- Step 1 of both starts. -/
def State.step1 (s : State) : State := s.loadFuses.findHead.hostLinkUp

/-- The lanes that the assembly-test map lists (R847). -/
def State.assemblyLanes (s : State) (l : Nat) : State :=
  let ks := (List.range 2).flatMap (fun dir => (List.range (linkBundles l)).map (fun b => laneKey l dir b))
  { s with boot := { s.boot with badLanes := ks.foldl (fun m k => kvSet (fun _ => 0) m k (Config.assemblyBad k % 2 ^ 68)) s.boot.badLanes } }

/-- Event 0x1206 for the bundles that the assembly-test map leaves with fewer than 64 lanes (R849). -/
def State.assemblyBundles (s : State) (l : Nat) : State :=
  (List.range 2).foldl (fun s dir => (List.range (linkBundles l)).foldl (fun s b =>
    if s.usable l dir b < 64 then
      s.emit { code := 0x1206, srcKind := 7, srcId := l, detail := detailOf [(52, 1, l), (53, 1, dir), (54, 1, s.bundlesUp l dir)] }
    else s) s) s

/-- Train a link from the assembly-test map: `bad` lists the lanes that fail the test (R848, R849). -/
def State.trainLink (s : State) (l : Nat) (bad : List (Nat × LaneId)) : State :=
  let s := (s.assemblyLanes l).assemblyBundles l
  (bad.filter (fun x => x.1 == l)).foldl (fun s x =>
    if decide (x.2.1 < 2) && decide (x.2.2.1 < linkBundles l) && decide (x.2.2.2 < 68) then s.laneBad l x.2.1 x.2.2.1 x.2.2.2 0 else s) s

/-- A link comes up when each direction has half its bundles, and is down otherwise (R850). -/
def State.bringUp (s : State) (l : Nat) : State :=
  let s := (s.syncLanes l 0).syncLanes l 1
  if linkBundles l ≤ 2 * s.bundlesUp l 0 ∧ linkBundles l ≤ 2 * s.bundlesUp l 1 then
    (s.setFlag (RF.MGT_FAB_STAT_UP l) true).setFlag (RF.MGT_FAB_STAT_DOWN l) false
  else s.linkDown l 1

/-- Step 3. A P-die cut off is fatal, and the start stops (R42, R844). -/
def State.step3 (s : State) (train : List Nat) (bad : List (Nat × LaneId)) : State :=
  let s := train.foldl (fun s l => s.trainLink l bad) s
  let s := (List.range 14).foldl State.bringUp s
  if s.isolated then s.stopStart 0x1205 else s

/-- Step 4: channels that fail training or that the repair map lists go out of service (R852). -/
def State.step4 (s : State) (bad : List (Nat × Nat)) : State :=
  (List.range 32).foldl (fun s k => (List.range 32).foldl (fun s ch =>
    let repaired := natBit (kvGet (fun _ => 0) s.boot.repair k) ch
    if (repaired || bad.contains (k, ch)) && !s.startDead then
      let m := s.fld (RF.MEM_S_INSERVICE_MASK k)
      let m := natSetBits m ch 1 0
      let s := s.setFld (RF.MEM_S_INSERVICE_MASK k) m
      let fatal := (maskBits 32 m).length == 23
      let s := s.emit { code := 0x1203, fatal := fatal
                        detail := detailOf [(52, 1, k), (53, 1, ch), (54, 1, if repaired then 1 else 0), (56, 4, m)] }
      if fatal then s.stopStart 0x1203 else s
    else s) s) s

/-- Step 5: the keys are loaded; a cold start draws SALT and has set every GEN to 0 (R804, R825, R827). -/
def State.step5 (s : State) (salt : Option (List Byte)) : State :=
  let s := match salt with
    | some b => { s with kwy := { s.kwy with salt := b } }
    | none => s
  s.setFlag RF.KWY_STAT_KEYS_READY true

/-- Step 7 begins to wait: for a push, or for the check of the kept bundle (R857). -/
def State.step7 (s : State) : State :=
  if s.startDead then s
  else
    let s := if s.flag RF.MGT_BOOT_CTL_REPUSH then { s with boot := { s.boot with bundle := [] } } else s
    { s.beginStep 7 with boot := { (s.beginStep 7).boot with coldDone := true } }

/-- The start proper: the device runs from its step 1 on. -/
def State.begin_ (s : State) (warm : Bool) : State :=
  let s := { s with boot := { s.boot with power := .running, warm := warm, startAt := s.now, coldReq := false }, pins := { s.pins with perst := false } }
  s.setFlag RF.MGT_BOOT_STAT_WARM warm

/-! ### Cold start -/

/-- A cold start, from step 1 to the wait of step 7 (R839, R843). -/
def State.coldStart (s : State) (times : List Nat) (salt : List Byte) (selfFail : Option (Nat × Nat)) (badLanes : List (Nat × LaneId))
    (badChannels : List (Nat × Nat)) : State :=
  let us := fun (n : Nat) => times.getD (n - 1) 0
  let s := s.coldState
  let s := { s with boot := { s.boot with coldAt := s.now, coldCount := s.boot.coldCount + 1, leafSel := if s.pins.leafSel then 1 else 0 } }
  let s := (s.begin_ false).setFld RF.MGT_COLD_STARTS_COUNT s.boot.coldCount
  let s := s.runStep 1 (us 1) (fun s =>
    let s := s.step1
    if s.pins.brakeN then s else s.brakeOn)
  let s := s.runStep 2 (us 2) (fun s => match selfFail with
    | some (die, logic) =>
      (s.emit { code := 0x1202, fatal := true, detail := detailOf [(52, 1, die), (53, 1, logic)] }).stopStart 0x1202
    | none => s)
  let s := s.runStep 3 (us 3) (fun s => s.step3 (List.range 14) badLanes)
  let s := s.runStep 4 (us 4) (fun s => s.step4 badChannels)
  let s := s.runStep 5 (us 5) (fun s => s.step5 (some salt))
  let s := s.runStep 6 (us 6) (fun s => s.syncFree.syncXlt)
  s.step7

/-- COLD_START: PERST_N is deasserted; a cold start is due while no start since PWROK has completed step 6 (R839, R842). `times` are the durations of
steps 1 to 6 in µs, `salt` the 32 bytes drawn, `selfFail` the die that fails its self-test and how, `badLanes` and `badChannels` what fails
training. Without PWROK the pin is ignored (R883). -/
def execColdStart (times : List Nat) (salt : List Byte) (selfFail : Option (Nat × Nat)) (badLanes : List (Nat × LaneId)) (badChannels : List (Nat × Nat))
    (s : State) : Host.Outcome State Fault Refusal :=
  if !s.pins.pwrok then .next { s with pins := { s.pins with perst := false } }
  else if (s.pins.perst || s.boot.coldReq) && s.boot.power == PowerState.inReset && !s.boot.coldDone && !s.boot.stopped && salt.length == 32 then
    .next (s.coldStart times salt selfFail badLanes badChannels)
  else .next s

/-! ### Warm start -/

/-- A warm start, from step 1 to step 7 (R840, R841, R843). A link that does not come up on its retained map is trained as at a cold start. -/
def State.warmStart (s : State) (times : List Nat) (badLanes : List (Nat × LaneId)) : State :=
  let us := fun (n : Nat) => times.getD (n - 1) 0
  let fresh := (List.range 14).filter (fun l => badLanes.any (fun x => x.1 == l))
  let s := (s.teardown.warmRegs.begin_ true).bump RF.MGT_WARM_STARTS_COUNT
  let s := s.runStep 1 (us 1) (fun s =>
    let s := s.step1
    if s.pins.brakeN then s else s.setFlag RF.PWR_STAT_BRAKE true)
  let s := s.runStep 3 (us 3) (fun s => s.step3 fresh badLanes)
  let s := s.runStep 5 (us 5) (fun s => s.step5 none)
  (if s.startDead then s else s.syncFree.syncXlt).step7

/-- A request for a warm start: before step 6 of the cold start it is carried out as a cold start (R842). -/
def State.warmRequest (s : State) (times : List Nat) (badLanes : List (Nat × LaneId)) : State :=
  if s.boot.coldDone then s.warmStart times badLanes
  else { s with boot := { s.boot with power := .inReset, coldReq := true } }

/-- WARM_START: PERST_N has been pulsed with PWROK held, or the physical function has been reset (R840). A device that has tripped stays as
it is (R882). -/
def execWarmStart (times : List Nat) (badLanes : List (Nat × LaneId)) (s : State) : Host.Outcome State Fault Refusal :=
  if s.pins.pwrok && !s.boot.stopped && (s.boot.power == PowerState.running || (s.pins.perst && s.boot.coldDone)) then
    .next (s.warmRequest times badLanes)
  else .next s

/-- WARM_GO: a write of MGT_BOOT_CTL; its REPUSH field is written, and WARM_GO begins a warm start. -/
def execWarmGo (value : Word) (times : List Nat) (badLanes : List (Nat × LaneId)) (s : State) : Host.Outcome State Fault Refusal :=
  if s.alive then
    let s := s.setFlag RF.MGT_BOOT_CTL_REPUSH (natBit value.toNat 1)
    .next (if natBit value.toNat 0 then s.warmRequest times badLanes else s)
  else .next s

/-! ### Power and reset pins -/

/-- PWROK_DEASSERT: every clock stops (R885). An entry being programmed may be left torn: which, the spec leaves open. -/
def execPwrokDeassert (s : State) : Host.Outcome State Fault Refusal :=
  if !s.pins.pwrok then .next s
  else
    let writing := s.flag RF.MGT_BB_STAT_READY && !s.bb.buffer.isEmpty && !(s.bb.erasing == some (s.bb.head / bbPerSector))
    let (i, s) := s.nextFree
    let t := s.teardown
    let t := { t with
      regs := []
      bb := { slots := s.bb.slots, head := s.bb.head, index := s.bb.index, chain := s.bb.chain, erasing := s.bb.erasing }
      boot := { power := .unpowered, coldCount := s.boot.coldCount, repair := s.boot.repair }
      pins := { t.pins with pwrok := false, therm := false }
      mgt := { sent := s.mgt.sent } }
    .next (if writing && Config.freeNat i % 2 == 1 then t.setSlot t.bb.head { torn := true } else t)

/-- PWROK_ASSERT: the device is in reset; a start awaits a later deassertion of PERST_N (R883). -/
def execPwrokAssert (s : State) : Host.Outcome State Fault Refusal :=
  if s.pins.pwrok then .next s
  else .next { s with pins := { s.pins with pwrok := true }, boot := { s.boot with power := .inReset } }

/-- PERST_N_ASSERT: with PWROK held, the device is in reset, where nothing runs, and its outputs are released (Table 19.3); without it the pin is
ignored. -/
def execPerstNAssert (s : State) : Host.Outcome State Fault Refusal :=
  let t := { s with pins := { s.pins with perst := true } }
  if s.pins.pwrok then
    .next { t.teardown with boot := { t.teardown.boot with power := .inReset } }
  else .next t

/-! ### Firmware (R805 to R807, R854 to R857) -/

/-- FW_PUSH_GO: the fetch of a bundle begins. It is discarded during a fetch or check, while firmware runs, or before step 6 is done. -/
def execFwPushGo (value : Word) (s : State) : Host.Outcome State Fault Refusal :=
  if natBit value.toNat 0 && s.alive && s.boot.step == 7 && !s.boot.fwRunning && s.boot.push.isNone && s.boot.bundle.isEmpty && !s.startDead then
    let a := s.fld RF.MGT_FW_ADDR_LO_ADDR * 4096 + 2 ^ 32 * s.fld RF.MGT_FW_ADDR_HI_ADDR
    .next { s with boot := { s.boot with push := some (a, s.fld RF.MGT_FW_SIZE_SIZE) } }
  else .next s

/-- Check 1 of R806: the header's form (Table 17.3). -/
def bundleForm (bs : List Byte) : Bool :=
  let sig := le bs 40 8
  let signers := le bs 24 1
  decide (576 ≤ bs.length) && decide (bs.length ≤ 0x2000000) && le bs 0 4 == 0x38574D46 && le bs 4 2 == 0x0100 && le bs 6 2 == 0
    && le bs 8 4 == bs.length && bs.length == sig + 128 && sig % 64 == 0 && decide (576 ≤ sig) && decide (le bs 12 4 ≤ 64)
    && decide (le bs 20 1 < 4) && decide (1 ≤ signers) && decide (signers ≤ 8) && le bs 25 7 == 0 && le bs 60 4 == 0 && le bs 336 176 == 0

/-- The first check of R806 that a bundle fails. -/
def State.bundleCheck (s : State) (bs : List Byte) : Option Nat :=
  let sig := le bs 40 8
  let pub := bytesAt bs sig 64
  if !bundleForm bs then some 0x1106
  else if !(sm3 pub == Config.fwSignerHash && sm2Verify pub (bs.take sig) (bytesAt bs (sig + 64) 64)) then some 0x1101
  else if le bs 12 4 < s.kwy.fusedSvn then some 0x1102
  else if !(le bs 21 3 == Config.domain) then some 0x1103
  else if !natBit (le bs 20 1) Config.stepping then some 0x1104
  else if (gcmDecrypt (firmwareKey (bytesAt bs 32 8)) (bytesAt bs 48 12) (bs.take 64) (bytesAt bs 64 16) ((bs.take sig).drop 512)).isNone then some 0x1105
  else none

/-- A bundle is refused: nothing runs, and step 7 waits on (R806, R855). -/
def State.refuseBundle (s : State) (code : Nat) (bs : List Byte) : State :=
  let s := { s with boot := { s.boot with bundle := [], push := none } }
  let s := (s.setFld RF.KWY_BOOT_ERR_CODE code).setFld RF.MGT_BOOT_STAT_CODE code
  s.bbEnter 0 (s.stamp (s.kwyRec code [(52, 4, le bs 12 4), (56, 1, s.kwy.fusedSvn)]))

/-- A bundle is accepted: its firmware starts, and the start is done (R807, R856). -/
def State.acceptBundle (s : State) (bs : List Byte) : State :=
  let sig := le bs 40 8
  let signers := (List.range (le bs 24 1)).map (fun n => bytesAt bs (80 + 32 * n) 32)
  let took := (s.now - s.boot.stepAt) / 2500
  let s := { s with boot := { s.boot with
    bundle := bs, push := none, bundleSvn := le bs 12 4, bundleWardSvn := le bs 16 4, signers := signers, fwRunning := true } }
  let s := ((s.setFlag RF.MGT_BOOT_STAT_FW_RUNNING true).setFlag RF.MGT_BOOT_CTL_REPUSH false).setFlag RF.KWY_STAT_FW_OK true
  let s := (s.setFld RF.KWY_FW_SVN_SVN (le bs 12 4)).setRegBytes RA.KWY_FWMEAS 8 (sm3 (bs.take sig))
  let s := (s.setFld (RF.MGT_STEP_TIME_US 7) (min took (2 ^ 32 - 1))).beginStep 8
  s.emit { code := 0x1201, detail := detailOf [(52, 1, if s.boot.warm then 1 else 0), (56, 4, (s.now - s.boot.startAt) / 2500000)] }

/-- FW_CHECK_DONE: the checks of the bundle pushed, or of the one kept over a warm start, end. A fetch that failed brings no bytes, which
fail check 1. -/
def execFwCheckDone (bundle : List Byte) (s : State) : Host.Outcome State Fault Refusal :=
  let due := match s.boot.push with
    | some (_, n) => bundle.length == n || bundle.isEmpty
    | none => !s.boot.bundle.isEmpty && bundle == s.boot.bundle
  if s.alive && s.boot.step == 7 && !s.boot.fwRunning && !s.startDead && due then
    .next (match s.bundleCheck bundle with
      | some code => s.refuseBundle code bundle
      | none => s.acceptBundle bundle)
  else .next s

end Sys2Proof.Machine
end

