-- ==== Sys2Proof/Machine/Coh.lean ====
section
/-! DEFINITION. The commands of the coherence protocol (chapter 11): a request, a message or a reply reaches its end, and agents are declared dead. -/

namespace Sys2Proof.Machine

/-- The first request of a core about a line, in the order sent (R567), when it is of the named kind. -/
def State.nextReq (s : State) (core line op : Nat) : Option CohReq :=
  match s.coh.misses.find? (fun r => r.core == core && r.line == line) with
  | some r => if r.op = op then some r else none
  | none => none

/-- A request reaches its home directory. -/
def State.reachDir (s : State) (core line op : Nat) : State :=
  match s.nextReq core line op with
  | some r => if s.alive then State.arriveDir { s with coh := { s.coh with misses := s.coh.misses.erase r } } r else s
  | none => s

/-- A read request reaches its home directory, whose arrays report of the entry `err` (R591): 1 a single-bit error, corrected; 2 a double-bit error, a
fatal event, and the request goes unserved. -/
def State.readDir (s : State) (core line op err : Nat) : State :=
  match s.nextReq core line op with
  | none => s
  | some _ =>
    let leaf := s.dirLeaf line
    if !s.alive then s
    else if err = 2 then
      s.emit { code := 0x0B03, fatal := true, detail := detailOf [(52, 1, leaf), (56, 4, Config.dirSet line % 65536)] }
    else (if err = 1 then s.bump (RF.COH_L_DIR_CE_COUNT leaf) else s).reachDir core line op

/-- RDS: a read-shared request reaches the home directory. -/
def execRds (core line err : Nat) (s : State) : Host.Outcome State Fault Refusal := .next (s.readDir core line 0 err)

/-- RDX: a read-exclusive request reaches the home directory. -/
def execRdx (core line err : Nat) (s : State) : Host.Outcome State Fault Refusal := .next (s.readDir core line 1 err)

/-- UPG: an upgrade request reaches the home directory. -/
def execUpg (core line : Nat) (s : State) : Host.Outcome State Fault Refusal := .next (s.reachDir core line 2)

/-- WBD: a dirty write-back reaches the directory. -/
def execWbd (core line : Nat) (s : State) : Host.Outcome State Fault Refusal := .next (s.reachDir core line 3)

/-- EVC: a clean eviction notice reaches the directory. -/
def execEvc (core line : Nat) (s : State) : Host.Outcome State Fault Refusal := .next (s.reachDir core line 4)

/-- SNPS: a shared snoop reaches an L2. -/
def execSnps (core line : Nat) (s : State) : Host.Outcome State Fault Refusal := .next (if s.alive then s.snoopL2 core line 0 else s)

/-- SNPW: a write-back snoop reaches an L2. -/
def execSnpw (core line : Nat) (s : State) : Host.Outcome State Fault Refusal := .next (if s.alive then s.snoopL2 core line 1 else s)

/-- SNPI: an invalidating snoop reaches an L2. -/
def execSnpi (core line : Nat) (s : State) : Host.Outcome State Fault Refusal := .next (if s.alive then s.snoopL2 core line 2 else s)

/-- INV: an invalidation reaches a sharer's L2. -/
def execInv (core line : Nat) (s : State) : Host.Outcome State Fault Refusal := .next (if s.alive then s.snoopL2 core line 3 else s)

/-- SNOOP_REPLY: a reply reaches the directory; a dead core's is discarded and counted. -/
def execSnoopReply (core line : Nat) (s : State) : Host.Outcome State Fault Refusal :=
  match s.coh.replies.find? (fun r => r.core == core && r.line == line) with
  | some r =>
    if s.alive then
      let s := { s with coh := { s.coh with replies := s.coh.replies.erase r } }
      .next (if s.vdead core then s.bump (RF.COH_L_STALEWB_COUNT (s.dirLeaf line)) else s.takeReply r)
    else .next s
  | none => .next s

/-- GRANT: a grant installs its line, unless the fill waits for its victim. -/
def execGrant (core line : Nat) (s : State) : Host.Outcome State Fault Refusal :=
  match s.nextMsg core line with
  | some m => .next (if m.kind = 4 ∧ s.alive then s.installL2 m else s)
  | none => .next s

/-- WRITEBACK_ACK: the way of an evicted line is free. -/
def execWritebackAck (core line : Nat) (s : State) : Host.Outcome State Fault Refusal :=
  match s.nextMsg core line with
  | some m =>
    if m.kind = 5 ∧ s.alive then
      let s := s.dropMsg m
      .next (match s.l2At core line with
        | some x => if x.evicting then s.dropL2 core line else s
        | none => s)
    else .next s
  | none => .next s

/-- HOLD_END: 64 cycles after it was won, a line's hold ends. -/
def execHoldEnd (core line : Nat) (s : State) : Host.Outcome State Fault Refusal :=
  match s.l2At core line with
  | some x =>
    match x.holdUntil with
    | some t => .next (if t ≤ s.now ∧ s.alive then s.endHold core line else s)
    | none => .next s
  | none => .next s

/-- SNP_TO in cycles (Table 11.6). -/
def State.snoopLimit (s : State) : Nat := 2500 * max 16 (s.fld RF.COH_CTL_SNP_TO)

/-- The issue cycles of the snoops and Inv that a core has yet to answer. -/
def State.owed (s : State) (core : Nat) : List Nat :=
  (s.coh.msgs.filter (fun m => m.core == core && decide (m.kind < 4))).map (fun m => m.since)
    ++ (s.coh.l2.filter (fun p => p.1 % 128 == core)).flatMap (fun p => match p.2 with
      | some x => x.waiting.map (fun w => w.2)
      | none => [])
    ++ (s.coh.replies.filter (fun r => r.core == core)).map (fun r => r.since)

/-- SNOOP_TIMEOUT: a V-core has not answered within SNP_TO, and is declared dead; an answer in the cycle of the expiry has won (R581). -/
def execSnoopTimeout (core : Nat) (s : State) : Host.Outcome State Fault Refusal :=
  .next (if s.alive && (s.owed core).any (fun t => decide (t + s.snoopLimit < s.now)) then s.declareCore core 1 else s)

/-- A write of COH_KILL (Table 11.6). -/
def State.cohKill (s : State) (v : Nat) : State :=
  if !natBit v 31 then s
  else if natBit v 8 then s.declareDie (v % 8) 3
  else s.declareCore (v % 128) 3

/-- COH_KILL_CORE: a write of COH_KILL with DIE = 0. -/
def execCohKillCore (value : Word) (s : State) : Host.Outcome State Fault Refusal :=
  .next (if s.serving && !natBit value.toNat 8 then s.cohKill value.toNat else s)

/-- COH_KILL_DIE: a write of COH_KILL with DIE = 1. -/
def execCohKillDie (value : Word) (s : State) : Host.Outcome State Fault Refusal :=
  .next (if s.serving && natBit value.toNat 8 then s.cohKill value.toNat else s)

/-- RECLAIM_WALK_DONE: both walks have ended, and the declaration's event is written (R587, R590). -/
def execReclaimWalkDone (s : State) : Host.Outcome State Fault Refusal :=
  match s.coh.reclaims with
  | r :: rest =>
    if s.alive && decide (r.since + 65536 ≤ s.now) then
      let s := ({ s with coh := { s.coh with reclaims := rest } }).setFlag RF.COH_STAT_RECLAIM (!rest.isEmpty)
      .next (s.emit { code := 0x0B01, srcKind := if r.die then 0 else 3, srcId := if r.die then 0 else r.agent
                      detail := detailOf [(52, 1, r.cause), (53, 1, if r.die then 1 else 0),
                        (54, 1, if r.die then r.agent else r.agent / 16), (56, 4, r.entries), (60, 4, r.poisons)] })
    else .next s
  | [] => .next s

end Sys2Proof.Machine
end

