-- ==== Sys2Proof/Machine/Mem.lean ====
section
/-! DEFINITION. The memory system's own actions (chapter 10): retiring reductions, migration, bandwidth regulators, saturation,
errors of stack lines, patrol scrub and channel map-out. -/

namespace Sys2Proof.Machine

/-! ### Reductions (R515 to R518) -/

/-- REDUCTION_RETIRE: the n-th accepted reduction is applied to its line, with any fill it needs. -/
def execReductionRetire (n : Nat) (s : State) : Host.Outcome State Fault Refusal :=
  match s.mem.reds[n]? with
  | none => .next s
  | some r =>
    if (s.mem.reds.take n).any (fun x => x.loc == r.loc && x.line == r.line) then .next s
    else
      let s := { s with mem := { s.mem with reds := s.mem.reds.eraseIdx n } }
      match s.granAt r.loc with
      | none => .next s
      | some (k, g) => .next (s.reduceAt k g r.line r)

/-! ### Migration (R523 to R531) -/

def keyUnit (k : Nat) : Nat := k / 2 ^ 41 / 256
def keyCtx (k : Nat) : Nat := k / 2 ^ 41 % 256
def keyGran (k : Nat) : Nat := k % 2 ^ 41

/-- The range that holds a granule. -/
def State.rangeOf (s : State) (k : Nat) : Option RangeEnt :=
  s.xlt.ranges.find? (fun r => r.unit == keyUnit k && r.ctx == keyCtx k && decide (r.start ≤ keyGran k)
    && decide (keyGran k < r.start + r.length))

/-- Dies on which R537 suspends copies, and dead dies. -/
def State.copyBarred (s : State) (d : Nat) : Bool := natBit s.mem.suspend d || s.coh.deadDies.contains d

/-- Where a promotion goes (R525): a free scratch granule of the home die, of the leaf, then of the other leaf; `only`: the leaf of LEAF advice, in
which moves of the range stay. -/
def State.promoteTo (s : State) (g : Granule) (only : Option Nat) : Option Nat :=
  if s.allowance g.part false = 0 then none
  else
    let used := s.usedLocs
    let home := g.loc.die
    let order := home :: ((List.range 4).map (fun i => home / 4 * 4 + i) ++ List.range 8)
    order.find? (fun d => decide (0 < s.freeScr used d) && (match only with
      | some l => d / 4 == l
      | none => true))

/-- A candidate or a victim of a decision: its key and its count. -/
abbrev Cand := Nat × Nat

/-- Insert by descending count, ties by ascending key. -/
def insCand (c : Cand) : List Cand → List Cand
  | [] => [c]
  | d :: r => if d.2 < c.2 ∨ (d.2 = c.2 ∧ c.1 < d.1) then c :: d :: r else d :: insCand c r

def byCount : List Cand → List Cand
  | [] => []
  | c :: r => insCand c (byCount r)

/-- The pairing of R524: `free` scratch granules, then victims by ascending count while v's count is below half of c's. -/
def decidePairs : Nat → List Cand → List Cand → List (Nat × Bool)
  | _, [], _ => []
  | n + 1, c :: cs, vs => (c.1, true) :: decidePairs n cs vs
  | 0, _ :: _, [] => []
  | 0, c :: cs, v :: vs => if 2 * v.2 < c.2 then (v.1, false) :: (c.1, true) :: decidePairs 0 cs vs else []

/-- The decision for one partition with MIGRATE_EN = 1 (R524). -/
def State.migratePart (s : State) (part : Nat) : State :=
  let pl := s.placeEnt part
  let up := s.fld (RF.MEM_MIGTHR_UP_UP pl.migThresh)
  let down := s.fld (RF.MEM_MIGTHR_DOWN_DOWN pl.migThresh)
  let hold := s.fld (RF.MEM_MIGTHR_HOLD_HOLD pl.migThresh)
  let queued := fun (k : Nat) => s.mem.migr.any (fun m => granKey m.unit m.ctx m.gran == k)
  let gs : List (Nat × Granule) := s.mem.backing.filterMap (fun p => match p.2 with
    | some g => if g.part = part ∧ !queued p.1 then some (p.1, g) else none
    | none => none)
  let u := if gs.any (fun p => natBit s.mem.halveUp p.2.loc.die) then up / 2 else up
  let eligible := fun (k : Nat) (g : Granule) => match s.rangeOf k with
    | some r =>
      !r.cold && !r.stream && !(u == 0) && (decide (u ≤ g.count) || ((r.hot || g.demoted) && pl.hot == 2))
    | none => false
  let cands := byCount ((gs.filter (fun p => p.2.loc.isHbm && eligible p.1 p.2)).map (fun p => (p.1, p.2.count)))
  let migrated := gs.filter (fun p => !p.2.loc.isHbm && p.2.resv.isSome && !p.2.pinned)
  let victims := (byCount ((migrated.filter (fun p => decide (hold ≤ p.2.res))).map (fun p => (p.1, p.2.count)))).reverse
  let promos := (s.mem.migr.filter (fun m => m.promote && (match s.gran (granKey m.unit m.ctx m.gran) with
    | some g => g.part == part && g.copyTo.isNone
    | none => false))).length
  let demos := (s.mem.migr.filter (fun m => !m.promote && (match s.gran (granKey m.unit m.ctx m.gran) with
    | some g => g.part == part
    | none => false))).length
  let free := min (s.allowance part false) ((List.range 8).foldl (fun a d => a + s.freeScr s.usedLocs d) 0) - (promos - demos)
  let plan := if up = 0 then [] else decidePairs free cands victims
  let isCold := fun (k : Nat) => match s.rangeOf k with
    | some r => r.cold
    | none => false
  let lows := (migrated.filter (fun p => !plan.any (fun q => q.1 == p.1)
    && (isCold p.1 || (!(hold == 0) && decide (hold ≤ (if p.2.count < down then p.2.low + 1 else 0)))))).map (fun p => (p.1, false))
  { s with mem := { s.mem with migr := s.mem.migr ++ (plan ++ lows).map (fun p =>
      { unit := keyUnit p.1, ctx := keyCtx p.1, gran := keyGran p.1, promote := p.2 }) } }

/-- A granule at the start of a frame: its count restarts (R523); a migrated granule's frames of residence and of low counts
go on. -/
def Granule.newFrame (g : Granule) (down : Nat) : Granule :=
  let moved := !g.loc.isHbm && g.resv.isSome
  { g with count := 0, low := if moved ∧ g.count < down then g.low + 1 else 0, res := if moved then g.res + 1 else 0 }

def State.restartCounts (s : State) : State :=
  let f : Nat → Option Granule → Option Granule := fun _ g =>
    g.map (fun g => g.newFrame (s.fld (RF.MEM_MIGTHR_DOWN_DOWN (s.placeEnt g.part).migThresh)))
  { s with mem := { s.mem with backing := kvMap (fun _ => none) f s.mem.backing } }

/-- MIGRATION_DECISION: every partition with MIGRATE_EN = 1, at the end-of-frame cycle. -/
def State.migrationDecision (s : State) : State :=
  let ps := (s.ward.image.parts.filter (fun p => (s.placeEnt p.index).migrateEn)).map (fun p => p.index)
  let s := (ps.foldl State.migratePart s).restartCounts
  { s with mem := { s.mem with halveUp := 0, uesFrame := [] } }

/-- Give a migration its destination: a demotion's reserved stack granule, or the scratch granule of R525. LEAF advice restricts it, or under a hint
binding leads it as far as there is room: the granule then counts in MEM_ADV_PARTIAL (R505), which the second part says. A granule that a pin or a
release has moved meanwhile has none. -/
def State.migrTarget (s : State) (m : Migr) (g : Granule) : Option Loc × Bool :=
  if m.promote then
    let only := (s.rangeOf (granKey m.unit m.ctx m.gran)).bind (fun r => r.leafAff)
    if !g.loc.isHbm then (none, false)
    else match s.promoteTo g only with
      | some d => (some (s.newLoc false d), false)
      | none => if (s.placeEnt g.part).leafAff = 1 then ((s.promoteTo g none).map (fun d => s.newLoc false d), only.isSome) else (none, false)
  else if g.loc.isHbm || g.pinned then (none, false) else (g.resv.map (fun p => Loc.hbm p.1 p.2), false)

/-- A copy ends: its granule is served from the new backing (R525, R527). -/
def State.migrDone (s : State) (n k : Nat) (g : Granule) (l : Loc) (promote : Bool) : State :=
  let old := g.loc
  let pin := match s.rangeOf k with
    | some r => r.pinned
    | none => false
  let s := if promote then
      (match old with
        | .hbm st i => s.setGran k (some { loc := l, part := g.part, home := g.home, resv := some (st, i), pinned := pin })
        | .scr _ _ => s.setGran k (some { loc := l, part := g.part, home := g.home, pinned := pin }))
    else (s.initGran old).setGran k (some { loc := l, part := g.part, home := g.home })
  let s := s.bump (if promote then RF.MEM_PROMOTED_COUNT else RF.MEM_DEMOTED_COUNT)
  State.syncFree { s with mem := { s.mem with migr := s.mem.migr.eraseIdx n } }

/-- MIGRATION_BLOCK_COPY: the next 4 KiB block of the n-th queued migration is copied. Copies go in decision order, those of
dies with saturated stacks first; none starts under MIG_HOLD or while its die is suspended. -/
def execMigrationBlockCopy (n : Nat) (s : State) : Host.Outcome State Fault Refusal :=
  match s.mem.migr[n]? with
  | none => .next s
  | some m =>
    let k := granKey m.unit m.ctx m.gran
    match s.gran k with
    | none => .next { s with mem := { s.mem with migr := s.mem.migr.eraseIdx n } }
    | some g =>
      let ahead := fun (m : Migr) => match s.gran (granKey m.unit m.ctx m.gran) with
        | some g => m.promote && natBit (s.fld RF.MEM_STAT_HSAT) g.loc.die
        | none => false
      let first := n == 0 || (ahead m && !(s.mem.migr.take n).any ahead)
      if !first || s.flag RF.MEM_CTL_MIG_HOLD then .next s
      else
        match g.copyTo with
        | some l =>
          let s := (s.moveBlock g.part g.loc l g.block).bumpN (RF.MEM_P_MIGLINES_COUNT g.part) 32
          if g.block + 1 = 16 then .next (s.migrDone n k g l m.promote)
          else .next (s.setGran k (some { g with block := g.block + 1 }))
        | none =>
          match s.migrTarget m g with
          | (none, _) => .next { s with mem := { s.mem with migr := s.mem.migr.eraseIdx n } }
          | (some l, short) =>
            if s.copyBarred g.loc.die || s.copyBarred l.die then .next s
            else
              let s := (s.initGran l).bumpN RF.MEM_ADV_PARTIAL_COUNT (if short then 1 else 0)
              let s := (s.moveBlock g.part g.loc l 0).bumpN (RF.MEM_P_MIGLINES_COUNT g.part) 32
              .next ((s.setGran k (some { g with copyTo := some l, block := 1 })).syncFree)

/-! ### Regulators (R532 to R535) -/

/-- A partition in a window: its index, share, demand, cap, grant. -/
structure Reg where
  part : Nat
  share : Nat
  d : Nat
  cap : Nat
  g : Nat
  deriving DecidableEq, Repr

def grantSum (rs : List Reg) : Nat := rs.foldl (fun a r => a + r.g) 0

/-- One round of the loop of R533. -/
def regRound (total : Nat) (rs : List Reg) : List Reg :=
  let spare := total - grantSum rs
  let short := fun (r : Reg) => decide (r.g < r.cap)
  let sig := (rs.filter short).foldl (fun a r => a + max r.share 1) 0
  let next := rs.map (fun r => if short r then { r with g := r.g + min (spare * max r.share 1 / sig) (r.cap - r.g) } else r)
  if next = rs then
    (rs.foldl (fun (acc : Nat × List Reg) r =>
      if short r ∧ 0 < acc.1 then (acc.1 - 1, acc.2 ++ [{ r with g := r.g + 1 }]) else (acc.1, acc.2 ++ [r])) (spare, [])).2
  else next

/-- The loop, which ends when nothing is spare or every grant has reached its cap; each round grants at least one byte. -/
def regLoop (total : Nat) : Nat → List Reg → List Reg
  | 0, rs => rs
  | n + 1, rs =>
    if total ≤ grantSum rs ∨ !(rs.any (fun r => decide (r.g < r.cap))) then rs else regLoop total n (regRound total rs)

/-- The grants of a stack's window. -/
def State.regGrants (s : State) (stack : Nat) : List Reg :=
  let first := natBit s.mem.regFirst stack
  let total := if s.flag (RF.PWR_S_TEMP_HOT stack) then 512 else 1024
  let rs := (s.ward.image.parts.filter (fun p => natBit p.stackMask stack)).map (fun p =>
    let b := kvGet (fun _ => 0) s.mem.demand (stack * 64 + p.index)
    let d := if first then p.bwShare
      else b / 1024 + (if b % 1024 = 0 then 0 else if Config.roundUp b 1024 then 1 else 0)
    ({ part := p.index, share := p.bwShare, d := d, cap := min d p.bwCeil, g := min d p.bwShare } : Reg))
  regLoop total 1024 rs

/-- Count one partition's window on a stack (R535). -/
def State.regCount (s : State) (stack : Nat) (r : Reg) : State :=
  let key := stack * 64 + r.part
  let short := r.g < r.d
  let s := if short then s.bump (RF.MEM_P_THROTTLE_COUNT r.part) else s
  let s := if r.share < r.g then s.bump (RF.MEM_P_BORROW_COUNT r.part) else s
  let thr := kvGet (fun _ => 0) s.mem.thr r.part
  let thr := natSetBits thr stack 1 (if short then 1 else 0)
  let s := { s with mem := { s.mem with
    thr := kvSet (fun _ => 0) s.mem.thr r.part thr
    grants := kvSet (fun _ => 0) s.mem.grants key r.g
    demand := kvSet (fun _ => 0) s.mem.demand key 0 } }
  s.setFlag (RF.MEM_P_STAT_THROTTLED r.part) (!(thr == 0))

/-- REGULATOR_WINDOW: a window of 1,024 cycles starts on a stack. -/
def execRegulatorWindow (stack : Nat) (s : State) : Host.Outcome State Fault Refusal :=
  let at_ := kvGet (fun _ => 0) s.mem.regAt stack
  if stack < 32 ∧ (at_ = 0 ∨ at_ + 1023 ≤ s.now) then
    let rs := s.regGrants stack
    let s := rs.foldl (fun s r => s.regCount stack r) s
    .next { s with mem := { s.mem with
      regAt := kvSet (fun _ => 0) s.mem.regAt stack (s.now + 1)
      regFirst := natSetBits s.mem.regFirst stack 1 0 } }
  else .next s

/-! ### Saturation (R536 to R538) -/

/-- Table 10.4 for one die: its stacks carried `h` lines of 8 × 16,384 each, its vault `v` accesses of 64 × 16,384. -/
def State.satDie (s : State) (d : Nat) : State :=
  let h := ((List.range 4).map (fun i => kvGet (fun _ => 0) s.mem.hbmBusy (4 * d + i))).foldl (· + ·) 0
  let v := kvGet (fun _ => 0) s.mem.vaultBusy d
  let hAll := 4 * 8 * 16384
  let vAll := 64 * 16384
  let hSat := decide (9 * hAll ≤ 10 * h)
  let hIdle := decide (2 * h ≤ hAll)
  let vSat := decide (9 * vAll ≤ 10 * v)
  let vLow := decide (4 * v < 3 * vAll)
  let s := (s.setFld RF.MEM_STAT_HSAT (natSetBits (s.fld RF.MEM_STAT_HSAT) d 1 (if hSat then 1 else 0))).setFld
    RF.MEM_STAT_VSAT (natSetBits (s.fld RF.MEM_STAT_VSAT) d 1 (if vSat then 1 else 0))
  let susp := fun (s : State) (b : Bool) =>
    { s with mem := { s.mem with suspend := natSetBits s.mem.suspend d 1 (if b then 1 else 0) } }
  let lvl := s.fld (RF.MEM_D_STAT_BYPASS d)
  if hSat && vSat then (susp s true).bump RF.MEM_MIG_SUSP_COUNT
  else
    let s := susp s false
    if hSat then
      (({ s with mem := { s.mem with halveUp := natSetBits s.mem.halveUp d 1 1 } } : State).bump (RF.MEM_D_HSATWIN_COUNT d))
    else if hIdle && vSat then
      let s := s.bump (RF.MEM_D_VSATWIN_COUNT d)
      if s.flag RF.MEM_CTL_BYPASS_EN then s.setFld (RF.MEM_D_STAT_BYPASS d) (min (lvl + 1) 4) else s
    else if vLow then s.setFld (RF.MEM_D_STAT_BYPASS d) (lvl - 1)
    else s

/-- A die whose stacks are saturated and whose vault is below 75 % keeps its bypass level: row 3 asks for stacks that are not
saturated. SATURATION_WINDOW: a window of 16,384 cycles ends. -/
def execSaturationWindow (s : State) : Host.Outcome State Fault Refusal :=
  if s.mem.satAt + 16384 ≤ s.now then
    let s := (List.range 8).foldl State.satDie s
    .next { s with mem := { s.mem with satAt := s.now, hbmBusy := [], vaultBusy := [] } }
  else .next s

/-! ### Lines of a stack (R543 to R546) -/

/-- The device virtual address of a stack's line, 0 when no granule is backed there. -/
def State.lineVa (s : State) (stack idx line : Nat) : Nat :=
  match s.granAt (.hbm stack idx) with
  | some (k, _) => keyGran k * 65536 + line * 128
  | none => 0

/-- Granules of a stack with lines on a channel, those reserved for a promoted granule among them: (key, place). -/
def State.onChannel (s : State) (stack ch : Nat) : List (Nat × Loc) :=
  s.mem.backing.flatMap (fun p => match p.2 with
    | some g =>
      let locs := g.loc :: (match g.resv with
        | some (k, i) => [Loc.hbm k i]
        | none => []) ++ (match g.copyTo with
        | some l => if g.resv.isSome then [] else [l]
        | none => [])
      (locs.filter (fun l => l.isHbm && l.place == stack && (List.range 512).any (fun x => s.channelOf (l.lineKey x) == ch))).map (fun l => (p.1, l))
    | none => [])

/-- The black box's record of a channel for the next cold start. -/
def State.noteRepair (s : State) (stack ch : Nat) : State :=
  let m := Nat.lor (kvGet (fun _ => 0) s.boot.repair stack) (2 ^ ch)
  { s with boot := { s.boot with repair := kvSet (fun _ => 0) s.boot.repair stack m } }

/-- A channel becomes a map-out candidate (R548): there is room for its granules, or it is left in service and marked. -/
def State.mapoutGo (s : State) (stack ch : Nat) : State :=
  if s.mem.mapouts.contains (stack, ch) || !natBit (s.fld (RF.MEM_S_INSERVICE_MASK stack)) ch then s
  else
    let used := s.usedLocs
    let need := (s.onChannel stack ch).length
    let mask := (s.ward.image.parts.filter (fun p => natBit p.stackMask stack)).foldl (fun m p => Nat.lor m p.stackMask) 0
    let room := (maskBits 32 mask).foldl (fun a k => a + s.freeHbm used k) 0
    if need ≤ room then { s with mem := { s.mem with mapouts := s.mem.mapouts ++ [(stack, ch)] } }
    else
      let s := s.setFld (RF.MEM_S_FAILING_MASK stack) (Nat.lor (s.fld (RF.MEM_S_FAILING_MASK stack)) (2 ^ ch))
      let s := s.noteRepair stack ch
      s.emit (memRec 0x0A05 false ch stack 0 (detailOf [(52, 4, need - room)]))

/-- What a read of a stack's line finds (R543, R544): `err` 0 nothing, 1 a corrected error, 2 an uncorrectable one, 3 a tag that
does not match. A line that does not match under the key in force fails its tag check too. -/
def State.lineCheck (s : State) (stack idx line err addr : Nat) : State :=
  let k := (Loc.hbm stack idx).lineKey line
  let ch := s.channelOf k
  let md := s.lineMeta k
  let s := s.bufferLine k
  if err = 1 then
    let s := (s.bump (RF.MEM_S_CE_COUNT stack)).bump (RF.MEM_S_CHCE_COUNT stack ch)
    let n := s.fld (RF.MEM_S_CHCE_COUNT stack ch)
    let thr := s.fld RF.MEM_CE_THRESH_COUNT
    if thr ≠ 0 ∧ n % thr = 0 then s.emit (memRec 0x0A01 false ch stack addr (detailOf [(52, 4, n)])) else s
  else if err = 2 then
    let s := (s.markBad k).bump (RF.MEM_S_UE_COUNT stack)
    let s := s.emit (memRec 0x0A02 false ch stack addr (detailOf [(52, 1, md.part)]))
    let n := kvGet (fun _ => 0) s.mem.uesFrame (32 * stack + ch) + 1
    let s := { s with mem := { s.mem with uesFrame := kvSet (fun _ => 0) s.mem.uesFrame (32 * stack + ch) n } }
    if n = 4 then s.mapoutGo stack ch else s
  else if md.valid && (err == 3 || !s.tagOk k) then
    let s := (s.markBad k).bump (RF.MEM_S_TAGFAIL_COUNT stack)
    s.emit (memRec 0x0A03 false ch stack addr (detailOf [(52, 1, md.part)]))
  else s

/-- Is a line within a stack's capacity in service? -/
def State.lineExists (s : State) (stack idx line : Nat) : Bool :=
  decide (stack < 32) && decide (idx < s.stackCapacity stack) && decide (line < 512)

/-- HBM_LINE_READ: the base die reads one line for an access, and handles the error it finds. -/
def execHbmLineRead (stack granule line err : Nat) (s : State) : Host.Outcome State Fault Refusal :=
  if s.lineExists stack granule line then .next (s.lineCheck stack granule line err (s.lineVa stack granule line)) else .next s

/-- PATROL_SCRUB: the scrubber reads the next line of a stack (R546), unless it is paused on a hot stack (R788). -/
def execPatrolScrub (stack granule line err : Nat) (s : State) : Host.Outcome State Fault Refusal :=
  let pos := kvGet (fun _ => 0) s.mem.scrubbed stack
  if s.flag RF.MEM_CTL_SCRUB_EN && !s.flag (RF.PWR_S_TEMP_HOT stack) && s.lineExists stack granule line
      && pos == granule * 512 + line then
    let s := s.lineCheck stack granule line err 0
    let last := decide (s.stackCapacity stack * 512 ≤ pos + 1)
    let s := { s with mem := { s.mem with scrubbed := kvSet (fun _ => 0) s.mem.scrubbed stack (if last then 0 else pos + 1) } }
    .next (if last then s.bump (RF.MEM_S_SCRUB_COUNT stack) else s)
  else .next s

/-! ### Channel map-out (R548) -/

/-- MEM_MAPOUT_GO: the driver names a channel in MEM_MAPOUT. -/
def execMemMapoutGo (stack channel : Nat) (s : State) : Host.Outcome State Fault Refusal :=
  if decide (stack < 32) && decide (channel < 32) && s.serving then .next (s.mapoutGo stack channel) else .next s

/-- A granule takes a new place for an old one, in each part it plays. -/
def Granule.replace (g : Granule) (old new : Loc) : Granule :=
  let sw := fun (l : Loc) => if l = old then new else l
  { g with loc := sw g.loc, copyTo := g.copyTo.map sw
           resv := g.resv.map (fun p => match sw (.hbm p.1 p.2) with
             | .hbm k i => (k, i)
             | .scr _ _ => p) }

/-- Move one granule off a channel: in its stack when there is room, else to another stack of its partition. Second and third part: granules moved, and
lines written poisoned. -/
def State.moveOff (s : State) (stack : Nat) (p : Nat × Loc) : State × Nat × Nat :=
  match s.gran p.1 with
  | none => (s, 0, 0)
  | some g =>
  let old := p.2
  let used := s.usedLocs
  let mask := match s.partEnt g.part with
    | some e => e.stackMask
    | none => 0
  let dst := if 0 < s.freeHbm used stack then some stack
    else (maskBits 32 mask).find? (fun k => decide (0 < s.freeHbm used k) && !s.copyBarred (k / 4))
  match dst with
  | none => (s, 0, 0)
  | some k =>
    let l := s.newLoc true k
    let s := (s.initGran l).moveWhole g.part old l
    let bad := ((List.range 512).filter (fun i => (s.lineMeta (l.lineKey i)).poison)).length
    ((s.initGran old).setGran p.1 (some (g.replace old l)), 1, bad)

/-- CHANNEL_MAPOUT_DONE: the granules of a channel have moved; the channel is removed and recorded. -/
def execChannelMapoutDone (stack channel : Nat) (s : State) : Host.Outcome State Fault Refusal :=
  if s.mem.mapouts.contains (stack, channel) then
    let gs := s.onChannel stack channel
    let mask := s.fld (RF.MEM_S_INSERVICE_MASK stack)
    let s := s.setFld (RF.MEM_S_INSERVICE_MASK stack) (natSetBits mask channel 1 0)
    let (s, moved, bad) := gs.foldl (fun (a : State × Nat × Nat) p =>
      let (s, m, b) := a.1.moveOff stack p
      (s, a.2.1 + m, a.2.2 + b)) (s, 0, 0)
    let s := ({ s with mem := { s.mem with
      mapouts := s.mem.mapouts.filter (fun x => !(x == (stack, channel))) } } : State).noteRepair stack channel
    .next ((s.emit (memRec 0x0A04 false channel stack 0 (detailOf [(52, 4, moved), (56, 4, bad)]))).syncFree)
  else .next s

end Sys2Proof.Machine
end

