-- ==== Sys2Proof/Machine/Ptl.lean ====
section
/-! DEFINITION. Pintle (chapter 15): ports, the hop and path layers, remote requests and their responses. A block that arrives is given as its 256
bytes on the link. -/

namespace Sys2Proof.Machine

/-! ### Ports (R718 to R726) -/

def State.port (s : State) (p : Nat) : PortSt := kvGet (fun _ => {}) s.ptl.ports p

def State.role (s : State) (p : Nat) : Nat := s.fld (RF.PTL_P_STAT_ROLE p)

def PortSt.up (x : PortSt) : Bool := x.trained && !x.down && !x.retraining

/-- Write a port's state; PTL_P_STAT and PTL_STAT follow. -/
def State.setPort (s : State) (p : Nat) (x : PortSt) : State :=
  let s := { s with ptl := { s.ptl with ports := kvSet (fun _ => {}) s.ptl.ports p x } }
  let s := (((s.setFld (RF.PTL_P_STAT_LANES p) x.lanes).setFlag (RF.PTL_P_STAT_ENGAGED p) x.engagedFor.isSome).setFlag (RF.PTL_P_STAT_DOWN p) x.down).setFlag
    (RF.PTL_P_STAT_RETRAIN p) x.retraining
  let s := s.setFlag (RF.PTL_P_STAT_UP p) x.up
  let bit := fun (m : Nat) (b : Bool) => natSetBits m p 1 (if b then 1 else 0)
  let s := s.setFld RF.PTL_STAT_UP (bit (s.fld RF.PTL_STAT_UP) x.up)
  s.setFld RF.PTL_STAT_DEGRADED (bit (s.fld RF.PTL_STAT_DEGRADED) (x.lanes == 15 || x.lanes == 240))

/-- Does a port hold its place in a set? One that retrains keeps it until it is down, so that no destination moves (R736, R739). -/
def PortSt.inPlace (x : PortSt) : Bool := x.trained && !x.down

/-- The place a port holds in the in-group set: its own, or that of the port it stands in for (R739). -/
def State.placeOf (s : State) (p : Nat) : Option Nat :=
  let x := s.port p
  if !x.inPlace then none
  else match x.engagedFor with
    | some q => some q
    | none => if s.role p = 1 ∧ x.joined ∧ !x.asSpare then some p else none

/-- The in-group set, in the order of the places, and the outside set (R726). -/
def State.inSet (s : State) : List Nat := (List.range 16).filterMap (fun q => (List.range 16).find? (fun p => s.placeOf p == some q))
def State.outSet (s : State) : List Nat := (List.range 16).filter (fun p => s.role p == 2 && (s.port p).inPlace && (s.port p).joined)

def State.phys (s : State) : Nat := s.fld RF.PTL_PHYS_PHYS

/-- The port by which a block leaves for a physical address. -/
def State.portFor (s : State) (d : Nat) : Option Nat :=
  if d / 65536 = s.phys / 65536 then s.inSet[d % 65536 % s.inSet.length]? else s.outSet[d / 65536 % s.outSet.length]?

/-! ### Address map (R724) -/

def State.mapValid (s : State) (l : Nat) : Bool := decide (l < 65535) && s.flag (RF.PTL_MAP_VALID_VALID l)
def State.mapPhys (s : State) (l : Nat) : Nat := s.fld (RF.PTL_MAP_PHYS_WORD l)

def State.peer (s : State) (l : Nat) : PeerSt := kvGet (fun _ => {}) s.ptl.peers l
def State.setPeer (s : State) (l : Nat) (x : PeerSt) : State :=
  { s with ptl := { s.ptl with peers := kvSet (fun _ => {}) s.ptl.peers l x } }

def State.epoch (s : State) : Nat := s.fld RF.PTL_EPOCH_CURRENT

/-- The DEVICE_ID of a peer, by the address map. -/
def State.deviceId (s : State) (l : Nat) : Nat := s.fld (RF.PTL_MAP_ID_LO_WORD l) + 2 ^ 32 * s.fld (RF.PTL_MAP_ID_HI_WORD l)

/-! ### The block on a link (R733, R741, Tables 15.3 and 15.4) -/

/-- OPMOD of a body. -/
def PathBlk.opmod (b : PathBlk) : Nat :=
  match b.kind with
  | 2 => if b.ty = 5 then Config.signed64Opmod b.aop else b.aop % 16 + 16 * (b.ty % 4)
  | 3 => (b.aop + 1) % 4 + 4 * (if b.ty = 3 then 0 else if b.ty = 4 then 1 else 2)
  | _ => 0

/-- The data bytes of a body. -/
def PathBlk.payload (b : PathBlk) : List Byte :=
  match b.kind with
  | 2 => leBytes 8 (leNat b.data) ++ leBytes 8 (leNat b.cmp)
  | 4 => leBytes 4 b.weight
  | 10 => leBytes 8 (leNat b.data)
  | _ => b.data

/-- The 208 bytes of a body. -/
def PathBlk.body (b : PathBlk) : List Byte :=
  let len := if b.kind = 0 ∨ b.kind = 1 ∨ b.kind = 3 ∨ b.kind = 8 then b.size else 0
  let d := b.payload.take 192
  leBytes 1 b.kind ++ leBytes 1 (b.reason % 8 + if b.poison then 128 else 0) ++ leBytes 2 b.tag ++ leBytes 2 (if b.kind = 4 then b.tmb else b.window)
    ++ leBytes 1 b.opmod ++ leBytes 1 len ++ leBytes 8 b.off ++ d ++ List.replicate (192 - d.length) (0 : Byte)

/-- The IV of a counter. -/
def pathIv (ctr : Nat) : List Byte := leBytes 7 ctr ++ List.replicate 5 (0 : Byte)

/-- Bytes 8 to 251 of a path block: its header in the clear, its body encrypted under the pair key of this direction (R741, R832). -/
def State.pathWire (s : State) (b : PathBlk) : List Byte :=
  let head := leBytes 4 b.dst ++ leBytes 4 s.phys ++ leBytes 2 (s.fld RF.PTL_SELF_LOGICAL) ++ leBytes 2 b.epoch ++ leBytes 7 b.ctr ++ [0]
  let c := gcmEncrypt (Sys2Proof.Machine.pairKey Sys2Proof.Machine.deviceId (s.deviceId b.peer) b.epoch) (pathIv b.ctr) head b.body
  head ++ c.1 ++ c.2

/-- Bytes 8 to 251 of a HELLO (R722). -/
def State.helloWire (s : State) (p : Nat) : List Byte :=
  List.replicate 4 (0 : Byte) ++ leBytes 4 s.phys ++ List.replicate 12 (0 : Byte) ++ leBytes 1 (s.role p % 4) ++ List.replicate 223 (0 : Byte)

/-- The XOFF bits that a port's receiver sets: one for each VC whose buffer has fewer than 2,048 free places (R738). -/
def State.xoffBits (s : State) : Nat :=
  ((List.range 2).map (fun v => if Config.pintlePlaces < (s.ptl.inbox.filter (fun b => b.vc == v)).length + 2048 then 2 ^ v else 0)).foldl (· + ·) 0

/-- The 256 bytes that a port puts on its link for a block of its replay buffer, or, with `none`, for an IDLE block. -/
def State.linkBlock (s : State) (p : Nat) (r : Option (Nat × PathBlk)) : List Byte :=
  let x := s.port p
  let (seq, vc, rest) : Nat × Nat × List Byte := match r with
    | some (q, b) => (q, b.vc, b.wire)
    | none => (0, 0, List.replicate 244 (0 : Byte))
  let flags := 1 + (if x.nakOut then 2 else 0) + (if r.isNone then 4 else 0) + 8 * (vc % 4)
  let bs := leBytes 2 seq ++ leBytes 2 (x.expected + 65535) ++ leBytes 1 flags ++ leBytes 1 s.xoffBits ++ [0, 0] ++ rest
  bs ++ leBytes 4 (crc32 bs).toNat

/-! ### The end of a remote request (R634, R753, R758) -/

def State.dropReq (s : State) (q : RemReq) : State := { s with ptl := { s.ptl with reqs := s.ptl.reqs.erase q } }

/-- A path event: SRC_KIND 8, SRC_ID 0x100 + leaf (R760). -/
def pathRec (code leaf : Nat) (d : List (Nat × Nat × Nat)) : Rec := { code := code, srcKind := 8, srcId := 0x100 + leaf, detail := detailOf d }

/-- A relayed arrival fails (R758). -/
def State.relayFailed (s : State) (q : RemReq) (entry why reason : Nat) : State :=
  (s.bump RF.PTL_RELAY_REFUSED_COUNT).emit (pathRec 0x0F04 q.leaf [(52, 2, entry), (54, 1, why), (55, 1, reason)])

/-- A request fails with a code; `why` and `reason` say how a relayed arrival ended. -/
def State.failReq (s : State) (q : RemReq) (code : Nat) (d : List Byte) (why reason : Nat) : State :=
  let s := s.dropReq q
  match q.who with
  | .acc id lane =>
    match s.acc id with
    | some a =>
      let a := { a with lanes := a.lanes.map (fun l => if l.lane = lane ∧ l.remote ∧ !l.performed then { l with performed := true, err := some (code, d) } else l) }
      (s.setAcc id (some a)).tryFinish id
    | none => s
  | .copy cmd => match s.job cmd with
    | some j => s.failCopy j code (fun _ => d) true
    | none => s
  | .relay e => s.relayFailed q e why reason
  | .save _ => s

/-- Every request outstanding to some peers fails with 0x0F07 (R732, R746). -/
def State.resetPeers (s : State) (p : Nat → Bool) (how : Nat) : State :=
  (s.ptl.reqs.filter (fun q => q.issued.isSome && p q.peer)).foldl (fun s q => s.failReq q 0x0F07 (detailOf [(52, 2, q.peer), (54, 1, how)]) 0 0) s

/-! ### Sending (R727, R738 to R744) -/

/-- A block leaves by a port: it takes the next SEQ and stays in the replay buffer. -/
def State.hopSend (s : State) (p : Nat) (b : PathBlk) : State :=
  let x := s.port p
  s.setPort p { x with
    nextSeq := (x.nextSeq + 1) % 65536
    replay := x.replay ++ [(x.nextSeq, s.now, b)]
    lastAdvance := if x.replay.isEmpty then s.now else x.lastAdvance
    expired := if x.replay.isEmpty then 0 else x.expired }

/-- May a block leave for its destination by a port now? The VC is not held (R738), and the port that the destination left holds nothing for it (R740). -/
def State.canSend (s : State) (p : Nat) (b : PathBlk) : Bool :=
  let x := s.port p
  x.up && !natBit x.xoff b.vc && decide (x.replay.length < 16384)
    && !(List.range 16).any (fun o => !(o == p) && !(s.port o).down && (s.port o).replay.any (fun r => r.2.2.dst == b.dst && !(r.2.2.kind == 16)))

def keyOf (p peer : Nat) : Nat := 65536 * (p / 8) + peer

/-- A quarantined peer (R833). -/
def State.quarantined (s : State) (l : Nat) : Bool := s.ptl.quarantined.contains l

/-- Encrypt a block with the next counter and send it; `none`: it waits, as it does for a quarantined peer (R833). The key becomes the latest used. -/
def State.pathSend (s : State) (b : PathBlk) : Option State :=
  let x := s.peer b.peer
  let b := { b with dst := s.mapPhys b.peer, epoch := s.epoch, ctr := x.sendCtr }
  match s.portFor b.dst with
  | none => none
  | some p =>
    let k := keyOf p b.peer
    if s.epoch = 0 || s.quarantined b.peer then none
    else if 2 ^ 56 ≤ x.sendCtr then
      (if x.exhausted then none
        else some ((s.setPeer b.peer { x with exhausted := true }).emit (pathRec 0x0F05 (p / 8) [(52, 2, b.peer)])))
    else if !s.ptl.keyCache.contains k || !s.canSend p b then none
    else
      let s := { s with ptl := { s.ptl with keyCache := k :: s.ptl.keyCache.erase k } }
      let s := (s.setPeer b.peer { x with sendCtr := x.sendCtr + 1 }).bump64 (RF.PTL_P_TXBLK_COUNT_LO p) (RF.PTL_P_TXBLK_COUNT_HI p) 1
      some (s.hopSend p { b with wire := s.pathWire b })

/-- The block of a request. -/
def RemReq.block (q : RemReq) : PathBlk :=
  { peer := q.peer, vc := 0, kind := q.op, tag := q.tag, window := q.window, off := q.off, size := q.size, data := q.data, cmp := q.cmp
    aop := q.aop, ty := q.ty, tmb := q.tmb, weight := q.weight }

/-- Requests of a P-die that hold a place (R751). -/
def State.outstanding (s : State) (leaf : Nat) : Nat := (s.ptl.reqs.filter (fun q => q.leaf == leaf && q.issued.isSome)).length

def State.setReq (s : State) (old new : RemReq) : State :=
  { s with ptl := { s.ptl with reqs := s.ptl.reqs.map (fun x => if x = old then new else x) } }

/-- A request is issued: it fails when its peer is not mapped or is quarantined (R833), or no port serves it (R725), else takes a tag. -/
def State.issueReq (s : State) (q : RemReq) : State × Option RemReq :=
  if q.issued.isSome then (s, some q)
  else if !s.mapValid q.peer || q.peer == s.fld RF.PTL_SELF_LOGICAL || s.quarantined q.peer then (s.failReq q 0x0F06 (detailOf [(52, 2, q.peer)]) 0 0, none)
  else if (s.portFor (s.mapPhys q.peer)).isNone then (s.failReq q 0x0F06 (detailOf [(52, 2, q.peer), (54, 1, 1)]) 0 0, none)
  else if 4096 ≤ s.outstanding q.leaf then (s, none)
  else
    let q' := { q with issued := some s.now, tag := s.ptl.nextTag }
    (State.setReq { s with ptl := { s.ptl with nextTag := (s.ptl.nextTag + 1) % 65536 } } q q', some q')

/-- PINTLE_BLOCK_SEND: a response that waits (`req` false), or a request, is sent: the first to its peer. -/
def execPintleBlockSend (req : Bool) (n : Nat) (s : State) : Host.Outcome State Fault Refusal :=
  if !s.alive then .next s
  else if req then
    match s.ptl.reqs[n]? with
    | some q =>
      if q.sent || s.ptl.reqs.find? (fun x => x.peer == q.peer && !x.sent) != some q then .next s
      else
        match s.issueReq q with
        | (t, none) => .next t
        | (t, some q') => .next (match t.pathSend q'.block with
          | some u => if (t.peer q.peer).sendCtr < 2 ^ 56 then u.setReq q' { q' with sent := true } else u
          | none => t)
    | none => .next s
  else
    match s.ptl.outBlks[n]? with
    | some b =>
      if s.ptl.outBlks.find? (fun x => x.peer == b.peer) != some b then .next s
      else .next (match s.pathSend b with
        | some u => if (s.peer b.peer).sendCtr < 2 ^ 56 then { u with ptl := { u.ptl with outBlks := u.ptl.outBlks.erase b } } else u
        | none => s)
    | none => .next s

/-- PAIR_KEY_DERIVED: a pair key stands in the cache of a P-die, in place of the least recently used of 1,024. -/
def execPairKeyDerived (leaf peer : Nat) (s : State) : Host.Outcome State Fault Refusal :=
  let k := 65536 * leaf + peer
  if s.alive && decide (leaf < 2) && decide (peer < 65535) && s.mapValid peer && !(s.epoch == 0) && !s.ptl.keyCache.contains k then
    let mine := s.ptl.keyCache.filter (fun x => x / 65536 == leaf)
    let keep := if 1024 ≤ mine.length then (match mine.getLast? with
      | some old => s.ptl.keyCache.erase old
      | none => s.ptl.keyCache) else s.ptl.keyCache
    .next { s with ptl := { s.ptl with keyCache := k :: keep } }
  else .next s

/-! ### Training (R721, R722, R735 to R740) -/

def portRec (code port : Nat) (d : List (Nat × Nat × Nat)) : Rec := { code := code, srcKind := 8, srcId := port, detail := detailOf d }

/-- After a training the port runs on all its lanes or on four, and sends its HELLO (R722, R737). `none`: the lanes do not serve. -/
def lanesFor (usable : Nat) : Option Nat :=
  if usable % 256 = 255 then some 255
  else if Nat.land usable 15 = 15 then some 15
  else if Nat.land usable 240 = 240 then some 240
  else none

def State.portUp (s : State) (p lanes : Nat) : State :=
  let x := s.port p
  let s := s.setPort p { x with trained := true, down := false, retraining := false, lanes := lanes, replays := 0, lastAdvance := s.now, expired := 0, nakOut := false }
  let s := s.hopSend p { vc := 2, kind := 16, wire := s.helloWire p }
  if lanes = 255 then s else s.emit (portRec 0x0F03 p [(52, 1, p), (53, 1, lanes)])

/-- PORT_TRAINED: a port of a role other than 0 finishes the training that a full image begins. -/
def execPortTrained (port lanes : Nat) (s : State) : Host.Outcome State Fault Refusal :=
  if s.alive && decide (port < 16) && s.flag RF.WRD_STAT_LOADED && !(s.role port == 0) && !(s.port port).trained then
    .next (match lanesFor lanes with
      | some m => s.portUp port m
      | none => s)
  else .next s

/-- A retrain begins (R735). -/
def State.portRetrain (s : State) (p : Nat) : State :=
  (s.setPort p { s.port p with retraining := true, since := s.now }).bump (RF.PTL_P_RETRAIN_COUNT p)

/-- PINTLE_RETRAIN_DONE: a retrain ends on the lanes that are usable. A port that had gone down comes up as a spare when its place is held, and joins
its set at the next end-of-frame cycle otherwise. -/
def execPintleRetrainDone (port lanes : Nat) (s : State) : Host.Outcome State Fault Refusal :=
  let x := s.port port
  if s.alive && x.retraining then
    match lanesFor lanes with
    | none => .next s
    | some m =>
      let held := (List.range 16).any (fun p => (s.port p).engagedFor == some port)
      let s := s.setPort port { x with joined := x.joined && !x.down, asSpare := x.asSpare || (x.down && held) }
      .next (s.portUp port m)
  else .next s

/-- PORT_RETRAIN_RETRY: a down port tries again every 1 ms. -/
def execPortRetrainRetry (port : Nat) (s : State) : Host.Outcome State Fault Refusal :=
  let x := s.port port
  if s.alive && x.down && !x.retraining && decide (x.since + 2500000 ≤ s.now) then .next (s.portRetrain port) else .next s

/-- PTL_RETRAIN_REQ: a write of PTL_P_CTL; RETRAIN_REQ retrains a trained port. The RWL fields are written until an image is loaded. -/
def execPtlRetrainReq (port : Nat) (value : Word) (s : State) : Host.Outcome State Fault Refusal :=
  if s.serving && decide (port < 16) then
    let s := if s.flag RF.WRD_STAT_LOADED then s
      else (s.setFld (RF.PTL_P_CTL_REPLAY_LIMIT port) (natBits value.toNat 8 8)).setFld (RF.PTL_P_CTL_ACK_TO port) (value.toNat % 256)
    .next (if natBit value.toNat 31 && (s.port port).up then s.portRetrain port else s)
  else .next s

/-- The blocks of a port that went down leave again by the ports that now serve their destinations, before newer blocks (R739): the number
resent. HELLO blocks stay behind. -/
def State.resendBlocks (s : State) : List (Nat × Nat × PathBlk) → State × Nat
  | [] => (s, 0)
  | r :: rest =>
    let (s, k) := if r.2.2.kind = 16 then (s, 0) else match s.portFor r.2.2.dst with
      | some p => (s.hopSend p r.2.2, 1)
      | none => (s, 0)
    let (s, n) := s.resendBlocks rest
    (s, n + k)

/-- A port goes down (R736, R739). -/
def State.portDown (s : State) (p why : Nat) : State :=
  let x := s.port p
  let was := if s.role p = 1 then s.placeOf p else none
  let blocks := x.replay
  let s := s.setPort p { x with down := true, retraining := false, since := s.now, joined := false, engagedFor := none, replay := [] }
  let spare := match was with
    | some _ => (List.range 16).find? (fun q => q / 8 == p / 8 && !(q == p) && (s.port q).up && (s.port q).engagedFor.isNone
        && (s.role q == 3 || (s.port q).asSpare))
    | none => none
  let s := match spare with
    | some q => (s.setPort q { s.port q with engagedFor := was }).emit (portRec 0x0F08 q [(52, 1, q), (53, 1, p)])
    | none => s
  let (t, n) := s.resendBlocks blocks
  t.emit (portRec 0x0F02 p [(52, 1, p), (53, 1, why), (56, 4, n)])

/-- The resend bound of 20 µs. -/
def resendBound : Nat := 50000

/-- PORT_DOWN_TIMEOUT: the oldest block has been held for the resend bound, or a retrain has not succeeded within it. -/
def execPortDownTimeout (port : Nat) (s : State) : Host.Outcome State Fault Refusal :=
  let x := s.port port
  if !s.alive || !x.trained then .next s
  else if x.retraining && decide (x.since + resendBound < s.now) then
    .next (if x.down then s.setPort port { x with retraining := false, since := s.now } else s.portDown port 1)
  else match x.replay with
    | r :: _ => .next (if !x.down && decide (r.2.1 + resendBound < s.now) then s.portDown port 0 else s)
    | [] => .next s

/-- At an end-of-frame cycle, ports that came up join their sets (R740). -/
def State.joinPorts (s : State) : State :=
  (List.range 16).foldl (fun s p =>
    let x := s.port p
    if x.up && !x.joined && !x.asSpare && (s.role p == 1 || s.role p == 2) then s.setPort p { x with joined := true } else s) s

/-! ### Receiving: the hop layer (R734) -/

/-- Resend every unacknowledged block, or retrain at the replay limit. -/
def State.hopReplay (s : State) (p : Nat) : State :=
  let x := s.port p
  if x.replay.isEmpty || x.retraining || x.down then s
  else if atLeast1 (s.fld (RF.PTL_P_CTL_REPLAY_LIMIT p)) ≤ x.replays then s.portRetrain p
  else (s.setPort p { x with replays := x.replays + 1 }).bump (RF.PTL_P_REPLAY_COUNT p)

/-- The hop fields of a block (Table 15.3): an ACK frees what it covers, a NAK begins a replay, XOFF holds new blocks. -/
def State.hopFields (s : State) (p : Nat) (bs : List Byte) : State :=
  let x := s.port p
  let f := dNat bs 4 1
  let x := { x with xoff := dNat bs 5 1 % 16 }
  let x := if natBit f 0 then (match x.replay.findIdx? (fun r => r.1 == dNat bs 2 2) with
      | some i => { x with replay := x.replay.drop (i + 1), replays := 0, lastAdvance := s.now, expired := 0 }
      | none => x) else x
  let s := s.setPort p x
  if natBit f 0 && natBit f 1 then s.hopReplay p else s

/-- Is a block, by its SEQ, the next one? A duplicate is counted, a gap asks once for a resend. -/
def State.hopAccept (s : State) (p seq : Nat) : State × Bool :=
  let x := s.port p
  if seq = x.expected then (s.setPort p { x with expected := (x.expected + 1) % 65536, nakOut := false }, true)
  else if (x.expected + 65536 - seq) % 65536 ≤ 32768 then (s.bump (RF.PTL_P_DUPDROP_COUNT p), false)
  else (s.setPort p { x with nakOut := true }, false)

/-- A block is taken whole by the hop layer: is it accepted? Its CRC stands in bytes 252 to 255 (R29, R33). -/
def State.hopTake (s : State) (p : Nat) (bs : List Byte) : State × Bool :=
  if !((crc32 (bs.take 252)).toNat == leNat (bs.drop 252)) then ((s.setPort p { s.port p with nakOut := true }).bump (RF.PTL_P_CRCERR_COUNT p), false)
  else
    let s := s.hopFields p bs
    if natBit (dNat bs 4 1) 2 then (s, false) else s.hopAccept p (dNat bs 0 2)

/-- HELLO: a block of VC 2 names the neighbour. -/
def execHello (port : Nat) (data : List Byte) (s : State) : Host.Outcome State Fault Refusal :=
  if s.alive && decide (port < 16) && (s.port port).up && data.length == 256 && natBits (dNat data 4 1) 3 2 == 2 then
    let (s, ok) := s.hopTake port data
    .next (if ok then s.setFld (RF.PTL_P_NEIGH_PHYS port) (dNat data 12 4) else s)
  else .next s

/-- PINTLE_ACK_TIMEOUT: no ACK has advanced within ACK_TO, in units of 0.1 µs, 250 cycles, counted from the last ACK advance; one of the timeout's own
cycle wins (R36, R37). -/
def execPintleAckTimeout (port : Nat) (s : State) : Host.Outcome State Fault Refusal :=
  let x := s.port port
  let lim := 250 * min 100 (atLeast1 (s.fld (RF.PTL_P_CTL_ACK_TO port)))
  if s.alive && x.up && !x.replay.isEmpty && decide (x.lastAdvance + (x.expired + 1) * lim < s.now) then
    .next ((s.setPort port { x with expired := x.expired + 1 }).hopReplay port)
  else .next s

/-! ### Receiving: the path layer (R728, R729, R745) -/

/-- The sender's logical address (R728). -/
def State.senderOf (s : State) (src srcl : Nat) : Option Nat :=
  if src / 65536 = s.phys / 65536 then (if s.mapValid srcl && s.mapPhys srcl == src then some srcl else none)
  else (s.regs.filterMap (fun p => if 0xF00000 ≤ p.1 ∧ p.1 < 0x1000000 then some ((p.1 - 0xF00000) / 16) else none)).find? (fun l =>
    decide (8192 ≤ l) && s.mapValid l && s.mapPhys l == src)

/-- The bytes of an atomic's operand (Table 8.9's ATY). -/
def atyBytes (ty : Nat) : Nat := if ty = 2 then 8 else if ty = 4 then 2 else 4

/-- A path block's body (Table 15.4). -/
def parseBody (peer vc : Nat) (b : List Byte) : PathBlk :=
  let op := dNat b 0 1 % 16
  let m := dNat b 6 1
  let rty := natBits m 2 2
  { peer := peer, vc := vc, kind := op, tag := dNat b 2 2, window := dNat b 4 2 % 4096, off := dNat b 8 8, size := dNat b 7 1
    data := if op = 2 then (b.drop 16).take (atyBytes (natBits m 4 2)) else if op = 10 then (b.drop 16).take 8 else (b.drop 16).take (dNat b 7 1)
    cmp := (b.drop 24).take (atyBytes (natBits m 4 2))
    aop := if op = 3 then m % 4 else m % 16
    ty := if op = 3 then (if rty = 0 then 3 else if rty = 1 then 4 else if rty = 2 then 1 else 5) else natBits m 4 2
    tmb := dNat b 4 2 % 32768, weight := dNat b 16 4, reason := dNat b 1 1 % 8, poison := natBit (dNat b 1 1) 7 }

def State.respond (s : State) (b : PathBlk) : State := { s with ptl := { s.ptl with outBlks := s.ptl.outBlks ++ [b] } }

/-- A refusal with its reason (R750). -/
def State.refuseReq (s : State) (b : PathBlk) (reason : Nat) : State :=
  s.respond { peer := b.peer, vc := 1, kind := 11, tag := b.tag, reason := reason }

/-- The body of a path block from a peer, when it authenticates under the pair key of the current epoch (R741, R745); none passes while CURRENT is 0
(R747). -/
def State.pathOpen (s : State) (l : Nat) (bs : List Byte) : Option (List Byte) :=
  if s.epoch = 0 then none
  else gcmDecrypt (Sys2Proof.Machine.pairKey (s.deviceId l) Sys2Proof.Machine.deviceId s.epoch) (pathIv (dNat bs 20 7)) ((bs.drop 8).take 20)
    ((bs.drop 236).take 16) ((bs.drop 28).take 208)

/-- The checks of a path block, in order, that of R833 before the third; an accepted block awaits its command, and an OP that is none is refused or
dropped. -/
def State.pathTake (s : State) (rx : Nat) (bs : List Byte) : State :=
  if !(dNat bs 8 4 == s.phys) then s.bump RF.PTL_MISROUTE_COUNT
  else
    match s.senderOf (dNat bs 12 4) (dNat bs 16 2) with
    | none => s.bump RF.PTL_UNKNOWN_COUNT
    | some l =>
      if s.quarantined l then s.bump RF.PTL_STALE_COUNT
      else match s.pathOpen l bs with
      | none => s.bump (if s.epoch = 0 ∨ dNat bs 18 2 ≠ s.epoch then RF.PTL_STALE_COUNT else RF.PTL_AUTHFAIL_COUNT)
      | some body =>
      if dNat bs 20 7 ≤ (s.peer l).mark then s.bump RF.PTL_DUP_COUNT
      else
        let s := s.setPeer l { s.peer l with mark := dNat bs 20 7, lastAccept := s.now }
        let vc := natBits (dNat bs 4 1) 3 2
        let b := parseBody l vc body
        let bad := if vc = 0 then !(decide (b.kind ≤ 4)) else !(decide (8 ≤ b.kind) && decide (b.kind ≤ 11))
        if bad then (if vc = 0 then s.refuseReq b 6 else s)
        else { s with ptl := { s.ptl with inbox := s.ptl.inbox ++ [{ b with at_ := s.now, rx := rx }] } }

/-- PINTLE_BLOCK_RECEIVE: a block is taken whole; VC 3 is refused, and a HELLO is another command's. -/
def execPintleBlockReceive (port : Nat) (data : List Byte) (s : State) : Host.Outcome State Fault Refusal :=
  let vc := natBits (dNat data 4 1) 3 2
  if s.alive && decide (port < 16) && (s.port port).up && data.length == 256 && !(vc == 2) then
    let (s, ok) := s.hopTake port data
    .next (if ok && decide (vc < 2) then s.pathTake (port / 8) data else s)
  else .next s

/-! ### Requests from remote devices (R633, R750) -/

def State.takeIn (s : State) (b : PathBlk) : State := { s with ptl := { s.ptl with inbox := s.ptl.inbox.erase b } }

/-- The address of a received access in its window's context, or the number of the check that refuses it; `wait`: its range is changing. -/
inductive WinRes where
  | ok (e : WinEnt) (va : Nat)
  | refuse (reason : Nat)
  | wait
  deriving DecidableEq, Repr

def State.winCheck (s : State) (b : PathBlk) (size access : Nat) : WinRes :=
  let e := kvGet (fun _ => ({} : WinEnt)) s.xlt.windows b.window
  let va := e.base * 65536 + b.off
  if !(e.valid || (match e.closed with
    | some t => decide (b.at_ ≤ t)
    | none => false)) then .refuse 0
  else if !(e.peer == b.peer || (e.peer == 0xFFFF && decide (b.peer < 8192))) then .refuse 1
  else if e.length * 65536 < b.off + size then .refuse 2
  else if !(match access with
    | 0 => e.r
    | 1 => e.w
    | _ => e.r && e.w && e.a) then .refuse 3
  else match s.runFails e.unit e.ctx access va size with
    | some (_, .wait) => .wait
    | some _ => .refuse 4
    | none => if (blocksOf va size).all (fun a => match s.xlate e.unit e.ctx access a with
        | .dev r => !s.sealedPart r.part
        | _ => false) then (if s.piecesWait e.unit e.ctx (!(access == 0)) (pieces va size) then .wait else .ok e va) else .refuse 4

/-- A request that waits for the hold of a line (R571). -/
def State.noteIn (s : State) (b : PathBlk) (size access : Nat) : State :=
  let e := kvGet (fun _ => ({} : WinEnt)) s.xlt.windows b.window
  let va := e.base * 65536 + b.off
  if (s.runFails e.unit e.ctx access va size).isNone then s.noteWaits e.unit e.ctx (!(access == 0)) (pieces va size) else s

/-- A received access is looked up once in its receive path's range cache (Table 12.4); one that misses waits for a walk. -/
def State.lookWindow (s : State) (b : PathBlk) : State × Bool :=
  if b.walked then (s, true)
  else
    let e := kvGet (fun _ => ({} : WinEnt)) s.xlt.windows b.window
    let va := e.base * 65536 + b.off
    match s.rcLookup { kind := 5, id := b.rx } e.unit e.ctx va with
    | (s, some _) => (s, true)
    | (s, none) => (s.addMiss b.rx { kind := 5, id := b.rx } e.unit e.ctx va, false)

/-- A request that a check refuses. -/
def State.refuseIn (s : State) (b : PathBlk) (r : Nat) : State := ((s.takeIn b).bump RF.XLT_WIN_REFUSED_COUNT).refuseReq b r

/-- Check a request in the inbox and carry it out. -/
def State.serveReq (s : State) (n op size access : Nat) (bad : PathBlk → Bool) (run : State → PathBlk → WinEnt → Nat → State) : State :=
  match s.ptl.inbox[n]? with
  | some b =>
    if !(b.vc == 0 && b.kind == op && s.alive) then s
    else if bad b then (s.takeIn b).refuseReq b 6
    else
      let size := if size = 0 then b.size else size
      match s.winCheck b size access with
      | .wait => s.noteIn b size access
      | .refuse r => if r < 4 then s.refuseIn b r else
        match s.lookWindow b with
        | (s, true) => s.refuseIn b r
        | (s, false) => s
      | .ok e va =>
        match s.lookWindow b with
        | (s, true) => run (s.takeIn b) b e va
        | (s, false) => s
  | none => s

/-- Is the length of a request outside 1 to 192? -/
def PathBlk.badLen (b : PathBlk) : Bool := b.size == 0 || decide (192 < b.size)

/-- READ: answered with RD_DATA. -/
def execRead (n : Nat) (s : State) : Host.Outcome State Fault Refusal :=
  .next (s.serveReq n 0 0 0 PathBlk.badLen (fun s b e va =>
    match s.devRead e.unit e.ctx 0 va b.size (s.rangeCls e.unit e.ctx va) with
    | (s, .ok bs bad) => s.respond { peer := b.peer, vc := 1, kind := 8, tag := b.tag, size := b.size, data := bs, poison := bad }
    | (s, _) => s))

/-- WRITE: performed and acknowledged. -/
def execWrite (n : Nat) (s : State) : Host.Outcome State Fault Refusal :=
  .next (s.serveReq n 1 0 1 PathBlk.badLen (fun s b e va =>
    (s.devWrite e.unit e.ctx va (s.rangeCls e.unit e.ctx va) b.data).1.respond { peer := b.peer, vc := 1, kind := 9, tag := b.tag }))

/-- Is a remote atomic none of Table 8.9, or not aligned to its size? -/
def PathBlk.badAtomic (b : PathBlk) : Bool := decide (7 < b.aop) || !(b.off % atyBytes b.ty == 0)

/-- ATOMIC: performed at the home and answered with the old value. -/
def execAtomic (n : Nat) (s : State) : Host.Outcome State Fault Refusal :=
  let w := match s.ptl.inbox[n]? with
    | some b => atyBytes b.ty
    | none => 4
  .next (s.serveReq n 2 w 2 PathBlk.badAtomic (fun s b e va =>
    let c := match s.rangeAt e.unit e.ctx va with
      | some r => r.ctl r.cls va
      | none => {}
    let (s, old, bad) := s.lineAtomic (granKey e.unit e.ctx (va / 65536)) (va % 65536 / 128) (va % 128) w
      (fun old => atomOp b.aop b.ty old (leNat b.data) (leNat b.cmp)) c
    s.respond { peer := b.peer, vc := 1, kind := 10, tag := b.tag, data := leBytes 8 old, poison := bad }))

/-- Apply a reduction's elements at their homes. -/
def State.remReduce (s : State) (b : PathBlk) (e : WinEnt) : Nat → List (List Byte) → State
  | _, [] => s
  | va, x :: r =>
    let c := match s.rangeAt e.unit e.ctx va with
      | some r => r.ctl r.cls va
      | none => {}
    let (s, _, _) := s.lineAtomic (granKey e.unit e.ctx (va / 65536)) (va % 65536 / 128) (va % 128) (atyBytes b.ty)
      (fun old => atomOp (b.aop - 1) b.ty old (leNat x) 0) c
    s.remReduce b e (va + atyBytes b.ty) r

/-- Is a remote reduction of no operation or type, or not of whole, aligned elements? -/
def PathBlk.badReduce (b : PathBlk) : Bool :=
  b.badLen || b.aop == 0 || decide (5 ≤ b.ty) || !(b.size % atyBytes b.ty == 0) || !(b.off % atyBytes b.ty == 0)

/-- REDUCE: reductions at the home, then an acknowledgement. -/
def execReduce (n : Nat) (s : State) : Host.Outcome State Fault Refusal :=
  .next (s.serveReq n 3 0 2 PathBlk.badReduce (fun s b e va =>
    (s.remReduce b e va (chunksOf (atyBytes b.ty) b.data.length b.data)).respond { peer := b.peer, vc := 1, kind := 9, tag := b.tag }))

/-- ARRIVE: applied to a tumbler with REMOTE = 1, or refused (R664). -/
def execArrive (n : Nat) (s : State) : Host.Outcome State Fault Refusal :=
  match s.ptl.inbox[n]? with
  | some b =>
    if !(b.vc == 0 && b.kind == 4 && s.alive) then .next s
    else
      let s := s.takeIn b
      if (s.tmbAt b.tmb).remote then
        let (s, ok) := s.tmbArrive b.tmb b.weight
        .next (if ok then s.respond { peer := b.peer, vc := 1, kind := 9, tag := b.tag } else s.refuseReq b 5)
      else
        .next (((s.tmbRefused b.tmb).emit { code := 0x0D02, detail := detailOf [(52, 2, b.tmb), (54, 2, b.peer), (56, 1, 1)] }).refuseReq b 5)
  | none => .next s

/-! ### Responses (R755, R756) -/

/-- A response in the inbox and the request it answers; one that answers none is discarded and counted. -/
def State.answer (s : State) (n kind : Nat) (ops : List Nat) (run : State → PathBlk → RemReq → State) : State :=
  match s.ptl.inbox[n]? with
  | some b =>
    if !(b.vc == 1 && b.kind == kind && s.alive) then s
    else
      let s := s.takeIn b
      match s.ptl.reqs.find? (fun q => q.sent && q.tag == b.tag && q.peer == b.peer && ops.contains q.op) with
      | some q => run s b q
      | none => s.bump RF.PTL_LATE_COUNT
  | none => s

/-- A copy's request has its answer: the last one of a block lets the copy go on. -/
def State.copyPart (s : State) (cmd part : Nat) (bs : List Byte) (read : Bool) : State :=
  match s.job cmd with
  | none => s
  | some j =>
    let j' := { j with left := j.left - 1, got := if read then j.got ++ [(part, bs)] else j.got }
    if !(j.left == 1) then s.setJob j'
    else if read then
      let all := (List.range 4096).filterMap (fun i => (j'.got.find? (fun g => decide (g.1 ≤ i) && decide (i < g.1 + g.2.length))).map
        (fun g => g.2.getD (i - g.1) 0))
      s.setJob { j' with rdata := some all, got := [], ready := true }
    else
      match s.cmd cmd with
      | some c => (s.setJob { j' with pos := j.pos + j.sent, sent := 0, ready := true }).afterBlock j c.copy j.sent
      | none => s.setJob j'

/-- The lane of an access that a request serves. -/
def Acc.remoteLane (a : Acc) (lane : Nat) : Option AccLane := a.lanes.find? (fun l => l.lane == lane && l.remote && !l.performed)

/-- RD_DATA: the data of a load, of a copy's block, or of a partial byte store, which now writes the merged bytes. -/
def execRdData (n : Nat) (s : State) : Host.Outcome State Fault Refusal :=
  .next (s.answer n 8 [0] (fun s b q =>
    let s := s.dropReq q
    match q.who with
    | .acc id lane =>
      match s.acc id with
      | some a =>
        match a.remoteLane lane with
        | some l =>
          if a.kind = 1 ∧ !l.mask.isEmpty ∧ !b.poison then
            let new := l.merged b.data
            let s := s.setAcc id (some (a.setLane l { l with data := new, mask := [] }))
            let w : RemReq := { who := .acc id lane, leaf := q.leaf, peer := q.peer, op := 1, window := q.window, off := q.off, size := q.size, data := new }
            { s with ptl := { s.ptl with reqs := s.ptl.reqs ++ [w] } }
          else (s.setAcc id (some (a.setLane l { l with performed := true, data := b.data, poison := b.poison }))).tryFinish id
        | none => s
      | none => s
    | .copy cmd =>
      if b.poison then (match s.job cmd with
        | some j => s.failCopy j 0x0E06 (fun _ => hostErrDetail 1 0) true
        | none => s)
      else s.copyPart cmd q.part b.data true
    | _ => s))

/-- ATOMIC_DATA: the old value of an atomic. -/
def execAtomicData (n : Nat) (s : State) : Host.Outcome State Fault Refusal :=
  .next (s.answer n 10 [2] (fun s b q =>
    let s := s.dropReq q
    match q.who with
    | .acc id lane =>
      match s.acc id with
      | some a =>
        match a.remoteLane lane with
        | some l => (s.setAcc id (some (a.setLane l { l with performed := true, data := b.data.take l.size, poison := b.poison }))).tryFinish id
        | none => s
      | none => s
    | _ => s))

/-- ACK: a write, a reduction or an arrival has been performed. -/
def execAck (n : Nat) (s : State) : Host.Outcome State Fault Refusal :=
  .next (s.answer n 9 [1, 3, 4] (fun s _ q =>
    let s := s.dropReq q
    match q.who with
    | .acc id lane =>
      match s.acc id with
      | some a =>
        match a.remoteLane lane with
        | some l => (s.setAcc id (some (a.setLane l { l with performed := true }))).tryFinish id
        | none => s
      | none => s
    | .copy cmd => s.copyPart cmd q.part [] false
    | _ => s))

/-- REFUSE: the requester reports it (R634, R758). -/
def execRefuse (n : Nat) (s : State) : Host.Outcome State Fault Refusal :=
  .next (s.answer n 11 [0, 1, 2, 3, 4] (fun s b q =>
    s.failReq q 0x0C04 (detailOf [(52, 1, b.reason), (54, 2, q.window), (56, 2, q.peer)]) 0 b.reason))

/-- RESPONSE_TIMEOUT: no response within RSP_TO of the later of the issue and the last block accepted from the peer (R753, R754). A response that has
arrived wins (R755). -/
def execResponseTimeout (n : Nat) (s : State) : Host.Outcome State Fault Refusal :=
  match s.ptl.reqs[n]? with
  | some q =>
    match q.issued with
    | some t =>
      let lim := 2500 * max 80 (s.fld RF.PTL_CTL_RSP_TO)
      let here := s.ptl.inbox.any (fun b => b.vc == 1 && b.tag == q.tag && b.peer == q.peer)
      if s.alive && !here && decide (max t (s.peer q.peer).lastAccept + lim < s.now) then
        .next ((s.bump RF.PTL_TIMEOUT_COUNT).failReq q 0x0F01
          (detailOf [(52, 2, q.peer), (54, 1, q.op), (56, 4, (s.now - t) / 2500)]) 1 0)
      else .next s
    | none => .next s
  | none => .next s

/-! ### The address map and the epoch (R732, R746) -/

/-- Discard what is held of some peers. -/
def State.forgetPeers (s : State) (p : Nat → Bool) : State :=
  { s with ptl := { s.ptl with
    peers := s.ptl.peers.filter (fun x => !p x.1)
    keyCache := s.ptl.keyCache.filter (fun k => !p (k % 65536)) } }

/-- A write of map entry L that leaves its DEVICE_ID as `was` quarantines the peer (R833). DEDUCED: an entry is four words, and the writes that follow a
change of its DEVICE_ID belong to it until the peer has been used. -/
def State.noteMapWrite (s : State) (l was : Nat) (fresh : Bool) : State :=
  if s.deviceId l = was then
    if fresh && s.ptl.renamed.contains l then s
    else
      let t := if s.quarantined l then s else s.emit { code := 0x111A, srcKind := 9, srcId := s.boot.leafSel, detail := detailOf [(52, 2, l)] }
      { t with ptl := { t.ptl with renamed := t.ptl.renamed.erase l, quarantined := t.ptl.quarantined.insert l } }
  else { s with ptl := { s.ptl with renamed := s.ptl.renamed.insert l } }

/-- ADDRESS_MAP_WRITE: word `word` of entry `entry` is written; entry 0xFFFF discards it. -/
def execAddressMapWrite (entry word : Nat) (value : Word) (s : State) : Host.Outcome State Fault Refusal :=
  if s.serving && decide (entry < 65535) && decide (word < 4) then
    let v := if word = 3 then value &&& 1 else value
    let t := s.setReg (0xF00000 + 16 * entry + 4 * word) v
    .next (((t.noteMapWrite entry (s.deviceId entry) (s.peer entry == {})).forgetPeers (fun l => l == entry)).resetPeers (fun l => l == entry) 0)
  else .next s

/-- At an end-of-frame cycle after a write of PTL_EPOCH.NEXT, the new epoch takes effect; a change of CURRENT ends every quarantine (R833). -/
def State.applyEpoch (s : State) : State :=
  if s.ptl.epochPending then
    let s := { s with ptl := { s.ptl with epochPending := false } }
    let s := if s.epoch = s.fld RF.PTL_EPOCH_NEXT then s else { s with ptl := { s.ptl with quarantined := [], renamed := [] } }
    let s := s.setFld RF.PTL_EPOCH_CURRENT (s.fld RF.PTL_EPOCH_NEXT)
    (s.forgetPeers (fun _ => true)).resetPeers (fun _ => true) 1
  else s

end Sys2Proof.Machine
end

