-- ==== Sys2Proof/Machine/EndFrame.lean ====
section
/-! DEFINITION. The end-of-frame cycle (R68, R70, R86 to R89, R174 to R177) and the counter snapshots (R92 to R99). -/

namespace Sys2Proof.Machine

/-! ### Barriers (R174) -/

/-- An armed barrier, armed before this cycle, counts the tick. -/
def Barrier.countTick (now : Nat) (x : Barrier) : Barrier :=
  if x.armed && decide (x.armedAt < now) then { x with ticks := x.ticks + 1 } else x

def TBlock.countTick (now : Nat) (b : TBlock) : TBlock := { b with bars := b.bars.map (Barrier.countTick now) }

/-- Every barrier of every block, resident or saved. -/
def State.countBarrierTicks (s : State) : State :=
  { s with tc := { s.tc with
    blocks := kvMap (fun _ => none) (fun _ b => b.map (TBlock.countTick s.now)) s.tc.blocks
    saves := kvMap (fun _ => none) (fun _ x => x.map (fun x : TSave =>
      { x with blocks := x.blocks.map (fun b => (b.1, b.2.countTick s.now)) })) s.tc.saves } }

/-- A watchdog of the unit is due: its fault comes in place of the overrun action (R177). -/
def State.watchdogOf (s : State) (unit : Nat) : Bool :=
  let due := fun (b : TBlock) => b.unit == unit && b.bars.any (s.watchdogDue b)
  s.tc.blocks.any (fun p => match p.2 with
    | some b => due b
    | none => false) || s.tc.saves.any (fun p => match p.2 with
    | some x => x.blocks.any (fun b => due b.2)
    | none => false)

/-! ### Programs that have issued nothing (R86) -/

/-- A program returns to its queue as it was before its admission; its modes stay (R258). -/
def FrameProg.unadmit (p : FrameProg) : FrameProg := { p with gate := .none, cursor := none, desc := [] }

/-- The unit's programs that have issued no item return to the head of its queue, in order; the cursor goes back to that of the first of them
whose gate had opened, and the wait of the next gate is withdrawn (R82, R86). -/
def State.returnUnissued (s : State) (unit : Nat) : State :=
  let r := s.unitRun unit
  let back := r.active.filter (fun p => p.issued.isEmpty)
  if back.isEmpty then s
  else
    let s := s.withdrawWaits (.gate unit)
    let s := match back.findSome? (fun p => p.cursor) with
      | some c => s.setFld (RF.TCK_U_START_CURSOR unit) c
      | none => s
    let s := s.setUnit unit { r with
      active := r.active.filter (fun p => !p.issued.isEmpty)
      waiting := back.map FrameProg.unadmit ++ r.waiting }
    (s.bumpN (RF.TCK_U_STARTMISS_COUNT unit) back.length).syncUnit unit

/-! ### Overrun (R87 to R89) -/

/-- CARRY: the program is preempted on every core that it holds or comes to hold, and it waits for its unit's admission cycle. -/
def State.carry (s : State) (unit : Nat) (p : FrameProg) : State :=
  let s := s.setProg unit { p with carries := p.carries + 1, carried := true }
  let s := s.askPreempt unit ((s.unitCores unit).filter (fun c => s.holds unit c || (match s.moveOn c with
    | some m => m.unit == unit && m.stage == 3
    | none => false)))
  (s.syncClock unit).syncUnit unit

/-- What the overrun policy does with a program. -/
def State.overrunAction (s : State) (unit : Nat) (u : UnitEnt) (p : FrameProg) : State :=
  if u.overrunPol = 0 then s.terminate unit (s.tickRec 0x0202)
  else if u.carryLimit ≠ 0 ∧ u.carryLimit ≤ p.carries then s.terminate unit (s.tickRec 0x0203)
  else s.carry unit p

/-- An overrun whose action a due watchdog has withheld (R177), at the end of the cycle: the action is taken after all where the barrier has
completed in it (R176) and the program has not retired. -/
def State.settleOverrun (s : State) (unit : Nat) : State :=
  let s := s.setUnit unit { s.unitRun unit with withheld := false }
  match s.prog unit, s.unitEnt unit with
  | some p, some u => if s.watchdogOf unit || p.done.length == p.items then s else s.overrunAction unit u p
  | _, _ => s

def State.settleOverruns (s : State) : State :=
  ((s.units.filter (fun x => x.2.withheld)).map (fun x => x.1)).foldl State.settleOverrun s

/-- The overrun of the program at the head of a unit: it has issued an item and has not retired (R70). -/
def State.overrun (s : State) (unit : Nat) : State :=
  match s.prog unit, s.unitEnt unit with
  | some p, some u =>
    if p.done.length = p.items then s
    else
      let s := ((s.bump (RF.TCK_U_OVERRUN_COUNT unit)).bump RF.TCK_OVERRUN_COUNT).setFlag RF.TCK_STAT_OVERRUN true
      let s := { s with tick := { s.tick with recOverrun := true } }
      if s.watchdogOf unit then s.setUnit unit { s.unitRun unit with withheld := true } else s.overrunAction unit u p
  | _, _ => s

/-! ### The snapshot (R92, R93, R99) -/

/-- A 32-bit counter, and a 64-bit counter of two words. -/
def State.ctr (s : State) (a : Nat) : Nat := (s.reg a).toNat
def State.ctr64 (s : State) (a : Nat) : Nat := s.ctr a + 2 ^ 32 * s.ctr (a + 4)

/-- For each of `n` copies in turn, each counter of a list. -/
def State.ctrs (s : State) (n : Nat) (cs : List (Nat → Nat)) : List Nat :=
  (List.range n).flatMap (fun i => cs.map (fun c => s.ctr (c i)))

/-- The engines in ascending SRC_ID: 4 × T-core + engine. -/
def State.engCtrs (s : State) (cs : List (Nat → Nat → Nat)) : List Nat := s.ctrs 2048 (cs.map (fun c i => c (i / 4) (i % 4)))

def State.snapA (s : State) : List (Nat × List Nat) :=
  [ (0x0001, s.ctrs 1 [fun _ => RA.TCK_LOST, fun _ => RA.TCK_GLITCH, fun _ => RA.TCK_OVERRUN, fun _ => RA.TCK_SNAP_LOST, fun _ => RA.TCK_MEAS]),
    (0x0002, s.ctrs 14 [RA.MGT_FAB_CRCERR, RA.MGT_FAB_REPLAY, RA.MGT_FAB_DUPDROP, RA.MGT_FAB_RETRAIN]),
    (0x0003, ((List.range 1024).filter (fun u => (s.unitEnt u).isSome)).flatMap (fun u =>
      [RA.TCK_U_ADMIT, RA.TCK_U_OVERRUN, RA.TCK_U_EXCESS, RA.TCK_U_STARTMISS, RA.TCK_U_USED].map (fun c => s.ctr (c u)))),
    (0x0040, s.ctrs 512 [RA.TCW_ISSUE, RA.TCW_STALL, RA.TCW_BANKCONF, RA.TCW_SECTORS, RA.TCW_PREEMPT]),
    (0x0060, s.engCtrs [RA.MXE_DESC, RA.MXE_REPLAY, RA.MXE_BUSY]),
    (0x0070, s.engCtrs [RA.VXE_DESC, RA.VXE_ROWS, RA.VXE_SAT]),
    (0x0080, [s.fld RF.PWR_EST_FRAME_P, s.fld RF.PWR_CAP_CUR_WATTS, s.ctr RA.PWR_BRAKES] ++ (List.range 8).flatMap (fun d =>
      [s.ctr (RA.PWR_D_PWRCYC d), s.ctr (RA.PWR_D_THERMCYC d), s.ctr (RA.PWR_D_DROOPCYC d), s.ctr (RA.PWR_D_DEFERS d), s.fld (RF.PWR_D_STAT_BL d)])),
    (0x0090, s.ctrs 128 [RA.VCW_INSTRET, RA.VCW_VBUSY, RA.VCW_MBUSY, RA.VCW_L1MISS, RA.VCW_L2MISS]) ]

def State.snapB (s : State) : List (Nat × List Nat) :=
  [ (0x00A0, (List.range 48).flatMap (fun i =>
      [RA.MEM_D_LOOKUP, RA.MEM_D_HIT, RA.MEM_D_PARTIAL].map (fun c => s.ctr64 (c (i / 6) (i % 6))))),
    (0x00A1, s.ctrs 32 [RA.MEM_S_CE, RA.MEM_S_UE, RA.MEM_S_TAGFAIL]),
    (0x00A2, (List.range 64).flatMap (fun n => if s.flag (RF.MEM_P_STAT_VALID n) then
      [s.ctr64 (RA.MEM_P_LINES n), s.ctr (RA.MEM_P_THROTTLE n), s.ctr (RA.MEM_P_BORROW n)] else [0, 0, 0])),
    (0x00A3, s.ctrs 1 [fun _ => RA.MEM_PROMOTED, fun _ => RA.MEM_DEMOTED, fun _ => RA.MEM_MIG_SUSP, fun _ => RA.MEM_PIN_DEMOTE,
      fun _ => RA.MEM_ADV_PARTIAL, fun _ => RA.MEM_REDWAIT]),
    (0x00B0, s.ctrs 2 [RA.COH_L_REQ, RA.COH_L_XLEAF, RA.COH_L_C2C, RA.COH_L_SNOOP, RA.COH_L_HOLDWAIT, RA.COH_L_DIREVICT, RA.COH_L_BACKINV,
      RA.COH_L_NCRECALL, RA.COH_L_POISONED, RA.COH_L_STALEWB]),
    (0x00C0, s.ctrs 1 [fun _ => RA.XLT_INVALS, fun _ => RA.XLT_FAULTS, fun _ => RA.XLT_COALESCED, fun _ => RA.XLT_WIN_REFUSED,
      fun _ => RA.XLT_HOLD_EXPIRED] ++ s.ctrs 2 [RA.XLT_L_WALKS, RA.XLT_L_JOINED, RA.XLT_L_QWAIT]),
    (0x00D0, s.ctrs 2 [RA.MGT_TMB_OPS, RA.MGT_TMB_FIRES, RA.MGT_TMB_REFUSED, RA.MGT_TMB_EXCESS, RA.MGT_TMB_WAITFULL]),
    (0x00E0, [s.ctr RA.HIF_CMDS, s.ctr RA.HIF_DUPS, s.ctr64 RA.HIF_H2D_BYTES, s.ctr64 RA.HIF_D2H_BYTES, s.ctr RA.HIF_CPL_TO, s.ctr RA.HIF_HOSTERR]
      ++ (List.range 16).flatMap (fun e => [s.ctr (RA.HIF_CE_COPIES e), s.ctr64 (RA.HIF_CE_BYTES e)])),
    (0x00F0, s.ctrs 1 [fun _ => RA.PTL_AUTHFAIL, fun _ => RA.PTL_STALE, fun _ => RA.PTL_DUP, fun _ => RA.PTL_MISROUTE, fun _ => RA.PTL_UNKNOWN,
      fun _ => RA.PTL_TIMEOUT, fun _ => RA.PTL_LATE, fun _ => RA.PTL_RELAY_REFUSED]
      ++ s.ctrs 16 [RA.PTL_P_CRCERR, RA.PTL_P_REPLAY, RA.PTL_P_DUPDROP, RA.PTL_P_RETRAIN]),
    (0x00F8, s.ctrs 1 [fun _ => RA.MGT_BB_WRITTEN, fun _ => RA.MGT_BB_LOST, fun _ => RA.MGT_BB_SUPPRESSED] ++ s.ctrs 14 [RA.MGT_LANE_RT]) ]

/-- Every snapshot group, in ascending ID order. -/
def State.snapGroups (s : State) : List (Nat × List Nat) := s.snapA ++ s.snapB

/-- Latch the groups; a record is owed while TCK_SNAP_CTL.EN is 1. -/
def State.latchSnapshot (s : State) : State :=
  { s with tick := { s.tick with snapshot := s.snapGroups, snapPending := s.flag RF.TCK_SNAP_CTL_EN } }

/-! ### The cycle -/

/-- The KILLs held for this cycle are written to COH_KILL, and their responses sent (R862). -/
def State.applyKills (s : State) : State :=
  let ks := s.mgt.heldKill
  ks.foldl (fun s k => (s.cohKill k.2).vendorReply k.1 6 0 []) { s with mgt := { s.mgt with heldKill := [] } }

/-- The programs at the end of their frame: those that have issued nothing return, those that run are overrun, unit by unit. -/
def State.endPrograms (s : State) : State :=
  let s := s.countBarrierTicks
  let s := ((List.range 1024).filter (fun u => s.isLeaf u)).foldl (fun s u => (s.returnUnissued u).overrun u) s
  { s with pins := { s.pins with overrunOut := s.tick.recOverrun } }

/-- END_OF_FRAME: cycle 32 of a tick, once. The counters are latched last, so that they show this cycle's overruns (Table 2.7). -/
def execEndOfFrame (s : State) : Host.Outcome State Fault Refusal :=
  match s.tick.lastTick with
  | some t =>
    if s.alive && s.now == t + 32 && !s.tick.closed then
      let s := s.endPrograms
      let s := ((((s.freqDecision).migrationDecision).applyEpoch).joinPorts).applyKills
      let s := s.latchSnapshot
      .next (State.syncQuiesced { s with tick := { s.tick with closed := true } })
    else .next s
  | none => .next s

/-! ### The record (Table 2.4, R94 to R97) -/

/-- A group of the record. -/
def groupBytes (g : Nat × List Nat) : List Byte := leBytes 2 g.1 ++ leBytes 2 g.2.length ++ leBytes 4 0 ++ g.2.flatMap (leBytes 8)

/-- Bytes 0 to 27 of the record. -/
def State.recordHead (s : State) : List Byte :=
  let t := s.tick
  leBytes 8 t.recTick ++ leBytes 4 (s.fld RF.TCK_SNAP_SIZE_SIZE)
    ++ leBytes 4 ((if t.recSync then 1 else 0) + (if t.recHold then 2 else 0) + (if t.recOverrun then 4 else 0) + (if t.recDefer then 8 else 0)
        + (if t.recPulse then 16 else 0))
    ++ leBytes 4 t.recLen ++ leBytes 4 t.snapshot.length ++ leBytes 4 0

/-- The bytes from 32 on: the groups, and up to SIZE bytes that the spec does not give, from the free value `i`. -/
def State.recordTail (s : State) (i : Nat) : List Byte :=
  let gs := s.tick.snapshot.flatMap groupBytes
  gs ++ (List.range (s.fld RF.TCK_SNAP_SIZE_SIZE - 32 - gs.length)).map (fun k => BitVec.ofNat 8 (Config.freeNat i / 256 ^ k))

/-- Can a block of the record not be written: it leads to a window, or meets a poisoned line? -/
def State.blockLost (s : State) (unit ctx cls : Nat) (b : Nat × Nat) : Bool :=
  match s.xlate unit ctx 1 b.1 with
  | .dev r => (pieces b.1 b.2).any (fun p => (s.lineRead (granKey unit ctx p.1) p.2.1 15 (r.ctl cls b.1)).2.2)
  | .host _ _ => false
  | _ => true

/-- Write a run block by block. -/
def State.putBlocks (s : State) (unit ctx cls : Nat) : List (Nat × Nat) → List Byte → State
  | [], _ => s
  | b :: r, bs => ((s.devWrite unit ctx b.1 cls (bs.take b.2)).1).putBlocks unit ctx cls r (bs.drop b.2)

/-- The record is abandoned (R97). -/
def State.loseRecord (s : State) : State := (s.bump RF.TCK_SNAP_LOST_COUNT).emit (s.tickRec 0x0206)

/-- Is a register a counter of the memory system or of coherence? Those are the counters that a write to memory moves. -/
def memCounter (a : Nat) : Bool := keptReg a && decide (0xA00000 ≤ a) && decide (a < 0xD00000)

/-- Writing a record changes no counter (R93): each stands as it stood in `old`. -/
def State.keepCounters (s old : State) : State :=
  (((s.regs ++ old.regs).map (fun p => p.1)).filter memCounter).foldl (fun s a => s.setReg a (old.reg a)) s

/-- Three writes in their order, the last of them the SEAL field's. -/
def State.putRecord (s : State) (unit ctx va cls : Nat) (head rest sealing : List Byte) : State :=
  let put := fun (s : State) (at_ : Nat) (bs : List Byte) => s.putBlocks unit ctx cls (blockRuns at_ bs.length) bs
  put (put (put s va head) (va + 32) rest) (va + 28) sealing

/-- Is all known that the record reports: FREQ_CHANGE has said what it defers, and the pulse of the tick has been classified (R53), which is waited
for as long as the record's 10 µs, 25,000 cycles, last (R95)? -/
def State.recordReady (s : State) : Bool :=
  let t := s.tick.lastTick.getD s.now
  s.tick.snapPending && s.tick.closed && decide (t + 128 < s.now) && (!s.tick.riseTicked || decide (t + 25000 ≤ s.now))

/-- SNAPSHOT_RECORD_WRITE: the record of the last tick goes to its slot, once all that it reports is known; a range that is invalidating or
moving is waited for. Its writes are of the class of the range at the slot's start (DESIGN CHOICE, log entry 111). -/
def execSnapshotRecordWrite (s : State) : Host.Outcome State Fault Refusal :=
  if s.alive && s.recordReady then
    let unit := s.fld RF.TCK_SNAP_CTX_UNIT
    let ctx := s.fld RF.TCK_SNAP_CTX_CTX
    let size := s.fld RF.TCK_SNAP_SIZE_SIZE
    let base := s.fld RF.TCK_SNAP_BASE_LO_BASE * 4096 + 2 ^ 32 * s.fld RF.TCK_SNAP_BASE_HI_BASE
    let va := base + s.tick.recTick % (s.fld RF.TCK_SNAP_CTL_DEPTH + 1) * size
    let cls := s.rangeCls unit ctx va
    let t : State := { s with tick := { s.tick with snapPending := false } }
    let ps := s.devPieces unit ctx 1 va size
    let waits := match s.runFails unit ctx 1 va size with
      | some (_, .wait) => true
      | some _ => false
      | none => s.piecesWait unit ctx true ps
    if s.isLeaf unit && waits then .next (s.noteWaits unit ctx true ps)
    else if !s.isLeaf unit || (s.runFails unit ctx 1 va size).isSome || (blockRuns va size).any (s.blockLost unit ctx cls) then .next t.loseRecord
    else
      let (i, t) := t.nextFree
      .next ((t.putRecord unit ctx va cls s.recordHead (s.recordTail i) (leBytes 4 s.tick.recTick)).keepCounters s)
  else .next s

/-! ### A cycle passes -/

/-- A cycle of a T-core with resident groups and no issue counts in TCW_STALL, in cycles of the core's own clock (Table 4.14, R771). -/
def State.countStall (s : State) (c : Nat) : State :=
  let n := State.coreClock { s with now := s.now + 1 } c - s.coreClock c
  s.bumpN (RF.TCW_STALL_COUNT c) (if kvGet (fun _ => 0) s.tc.issuedAt c = s.now + 1 then n - 1 else n)

/-- Is a block's next local write, a group's or the head vector descriptor's, held by an engine's locks (R279)? -/
def State.lockWaits (s : State) (c : Nat) (b : TBlock) (eng : Nat) : Bool :=
  b.slots.any (fun sl => match s.tgroup c sl with
    | some g => g.lockWait.contains eng
    | none => false)
  || b.engs.any (fun e => match (s.engine c e).vq.find? (fun d => !d.started) with
    | some d => d.accepted && (s.engine c eng).mq.any (fun m => decide (m.issue < d.issue) && anyMeet m.mSpans d.vWrites)
    | none => false)

/-- The cycles that an engine's head vector descriptor waits under R349 and that writes wait on its locks (Tables 6.13 and 7.12). -/
def State.countWaits (s : State) (c n : Nat) : State :=
  (s.coreBlocks c).foldl (fun s x => x.2.engs.foldl (fun s e =>
    let s := if s.flag (RF.VXE_STAT_WAITING c e) then s.bumpN (RF.VXE_WAIT_CYCLES c e) n else s
    if s.lockWaits c x.2 e then s.bumpN (RF.MXE_LOCKWAIT_CYCLES c e) n else s) s) s

/-- A cycle of a T-core: its stalls and its engines' waits. -/
def State.countCore (s : State) (c : Nat) : State :=
  (s.countStall c).countWaits c (State.coreClock { s with now := s.now + 1 } c - s.coreClock c)

/-- Does a port hold a new block back because the far end has set XOFF for its VC (R738)? -/
def State.xoffHolds (s : State) (p : Nat) (x : PortSt) : Bool :=
  !(x.xoff == 0)
    && ((natBit x.xoff 0 && s.ptl.reqs.any (fun q => !q.sent && s.portFor (s.mapPhys q.peer) == some p))
      || (natBit x.xoff 1 && s.ptl.outBlks.any (fun b => s.portFor (s.mapPhys b.peer) == some p)))

/-- Cycles with new blocks held by XOFF (Table 15.9). -/
def State.countXoff (s : State) : State :=
  s.ptl.ports.foldl (fun s p => if s.xoffHolds p.1 p.2 then s.bump (RF.PTL_P_XOFF_CYCLES p.1) else s) s

def State.countStalls (s : State) : State :=
  if s.alive then (((s.tc.blocks.map (fun p => p.1 / 32)).eraseDups).foldl State.countCore s).countXoff else s

/-- A waiting group of a block that has stopped in this cycle: a wait whose timeout ends in it has timed out (R417); another keeps the cycles left, and
is withdrawn (R416). -/
def State.stopGroup (s : State) (core slot : Nat) : State :=
  match s.tgroup core slot with
  | some g =>
    match g.wait with
    | .tmb n x d dl sc =>
      let s := s.withdrawWaits (.tgroup core slot)
      if dl.any (fun t => decide (t ≤ s.coreClock core)) then s.endTmbWait core slot 1
      else s.setTgroup core slot (some { g with wait := .tmb n x d (dl.map (fun t => t - s.coreClock core)) sc })
    | _ => s
  | none => s

/-- The waits at tumblers of the groups that have stopped in this cycle. -/
def State.stopWaits (s : State) : State :=
  (s.tc.moves.filter (fun m => m.stage == 1 && m.since == s.now)).foldl (fun s m =>
    ((s.coreBlocks m.core).filter (fun b => b.2.unit == m.unit)).foldl (fun s b => b.2.slots.foldl (fun s sl => s.stopGroup m.core sl) s) s) s

/-- At the end of an end-of-frame cycle the held translation records are written, the faults of that cycle counted in them (R613, R615). -/
def State.settleHeld (s : State) : State := if s.tick.lastTick = some (s.now - 32) ∧ 32 ≤ s.now ∧ s.tick.closed then s.flushAllHeld else s

/-- What the end of a cycle settles: faults, waits of stopped groups, withheld overruns, retirements, translation records, frequency
changes, erases and fuses. -/
def State.settleCycle (s : State) : State := s.settleFaults.stopWaits.settleOverruns.endRetired.settleHeld.settleFreq.settleErases.settleFuse

/-- One cycle of the 2.5 GHz clock passes with nothing commanded: what was due in it has been done, and EXT_PRESENT follows the time. -/
def State.idle (s : State) : State :=
  let s := s.settleCycle.countStalls
  let s := { s with now := s.now + 1 }
  let s := if s.bubbling && s.alive then s.accrue else s
  if s.flag RF.TCK_STAT_EXT_PRESENT && !s.edgePresent then s.setFlag RF.TCK_STAT_EXT_PRESENT false else s

end Sys2Proof.Machine
end

