-- ==== Sys2Proof/Machine/HostReg.lean ====
section
/-! DEFINITION. Host writes of registers that have no behaviour of their own (R9, R11, R674 to R677, R845). -/

namespace Sys2Proof.Machine

/-- Bits of a register word whose writes are commands of their own: they are left as they are here. -/
def ownBits (a : Nat) : Nat :=
  if 0x101000 ≤ a ∧ a < 0x109000 ∧ a % 0x20 = 0 then 8
  else if 0x10000 ≤ a ∧ a < 0x50000 ∧ a % 0x40 = 0x10 then 2 ^ 31
  else if a = RA.WRD_QUIESCE ∨ a = RA.XLT_RD_IDX ∨ a = RA.MGT_BB_RD_IDX_LO ∨ (0x400000 ≤ a ∧ a < 0x480000 ∧ a % 16 = 0)
      ∨ (0xF00000 ≤ a ∧ a < 0x1000000) then 2 ^ 32 - 1
  else if a = RA.MGT_ALERT then 1
  else 0

/-- The word after a write, by the access codes of its bits (Table 0.3). -/
def RegRow.written (r : RegRow) (loaded : Bool) (own : Nat) (old v : Word) : Word :=
  let keep := ~~~ BitVec.ofNat 32 own
  let m := BitVec.ofNat 32 (if loaded then r.rw else Nat.lor r.rw r.rwl) &&& keep
  (((old &&& ~~~ m) ||| (v &&& m)) &&& ~~~ (BitVec.ofNat 32 r.w1c &&& keep &&& v)) ||| (BitVec.ofNat 32 r.w1s &&& keep &&& v)

/-- A write of 0 to REPLAY_LIMIT or ACK_TIMEOUT of a link is taken as 1 (Table 1.5). -/
def linkCtlWord (a : Nat) (v : Word) : Word :=
  if 0x1180000 ≤ a ∧ a < 0x1180380 ∧ a % 0x40 = 0x14 then
    v ||| (if v &&& 0xFF#32 = 0#32 then 1#32 else 0#32) ||| (if v &&& 0xFF00#32 = 0#32 then 0x100#32 else 0#32)
  else v

/-- A write that the spec says is discarded: of a queue that is absent or enabled (R676, R677), of a start cursor while its unit has an admitted
or carried program (Table 2.9), of the numeric mode of an unused slot (R260). -/
def State.discards (s : State) (a : Nat) : Bool :=
  if 0x10000 ≤ a ∧ a < 0x50000 then
    let q := (a - 0x10000) / 0x40
    (s.queueUnit q).isNone || s.flag (RF.HIF_Q_CFG_EN q)
  else if 0x101000 ≤ a ∧ a < 0x109000 ∧ a % 0x20 = 0x1C then !(s.unitRun ((a - 0x101000) / 0x20)).active.isEmpty
  else if 0x210000 ≤ a ∧ a < 0x211000 then (s.unitEnt ((a - 0x210000) / 4)).isNone
  else false

/-- A write of a unit's numeric mode in the cycle in which programs took theirs comes before they did (R258, R655). -/
def State.remode (s : State) (u : Nat) : State :=
  let r := s.unitRun u
  let (st, rnd) := s.numMode u
  let new := fun (p : FrameProg) => if p.modesAt = some s.now then { p with strict := st, rnd := rnd } else p
  s.setUnit u { r with active := r.active.map new, waiting := r.waiting.map new }

/-- A write of the word at a BAR0 address of the physical function, or of a virtual function's own block. -/
def State.regWrite (s : State) (a : Nat) (v : Word) : State :=
  match regRow a with
  | some r =>
    if s.discards a then s
    else
      let s := s.setReg a (r.written (s.flag RF.WRD_STAT_LOADED) (ownBits a) (s.reg a) (linkCtlWord a v))
      if a = RA.PTL_EPOCH then { s with ptl := { s.ptl with epochPending := true } }
      else if 0x210000 ≤ a ∧ a < 0x211000 then (s.units.map (fun p => p.1)).foldl State.remode s
      else s
  | none => s

/-- Is an address of the physical function's BAR0 served? Until step 7 completes only the registers of Table 18.8 and the KWY block are (R845). -/
def State.served (s : State) (a : Nat) : Bool :=
  decide (a < 2 ^ 28) && ((s.boot.fwRunning && !s.boot.stopped) || (decide (0x1000000 ≤ a) && decide (a < 0x1180000)))

/-- A write of an MSI-X table entry; a vector that comes to be unmasked sends what was pending. -/
def State.msixWrite (s : State) (fn off : Nat) (v : Word) : State :=
  if off < (if fn = 0 then 4096 else 1024) then
    let w := off / 4 % 4
    State.unmaskVectors { s with host := { s.host with
      msix := kvSet msixDefault s.host.msix ((fn * 256 + off / 16) * 4 + w) (if w = 3 then v.toNat % 2 else v.toNat) } } fn
  else s

/-- A write of the word at an offset of a doorbell page: SQTAIL stands at 0x0 and CQHEAD at 0x4, and other writes are discarded (R680). -/
def State.pageWrite (s : State) (fn q off : Nat) (v : Word) : State :=
  if off = 0 then s.ringSqtail fn q v.toNat else if off = 4 then s.ringCqhead fn q v.toNat else s

/-- REGISTER_WRITE: a 4-byte write to BAR0 of function `fn`, or to its BAR2, which is addressed from 2^32 up. A virtual function reaches its
own function block, its unit's queues and their doorbell pages, by their local numbers (R674, R14). -/
def execRegisterWrite (fn addr : Nat) (value : Word) (s : State) : Host.Outcome State Fault Refusal :=
  if !(s.boot.power == PowerState.running) || !(addr % 4 == 0) || decide (16 < fn) || (decide (0 < fn) && !(s.fnSt fn).enabled) then .next s
  else if 2 ^ 32 ≤ addr then .next (s.msixWrite fn (addr - 2 ^ 32) value)
  else if fn = 0 then
    .next (if !s.served addr then s
      else if doorbellAddr 0 ≤ addr ∧ addr < doorbellAddr 4096 then
        s.pageWrite 0 ((addr - doorbellAddr 0) / 0x1000) ((addr - doorbellAddr 0) % 0x1000) value
      else s.regWrite addr value)
  else if vfDoorbellAddr 0 ≤ addr ∧ addr < 2 ^ 25 then
    .next (s.pageWrite fn ((addr - vfDoorbellAddr 0) / 0x1000) ((addr - vfDoorbellAddr 0) % 0x1000) value)
  else if 0x100 ≤ addr ∧ addr < 0x130 then .next (s.regWrite (addr + fnBase fn) value)
  else if 0x10000 ≤ addr ∧ addr < 0x50000 then
    match s.fnQueue fn ((addr - 0x10000) / 0x40) with
    | some q => .next (s.regWrite (0x10000 + 0x40 * q + addr % 0x40) value)
    | none => .next s
  else .next s

end Sys2Proof.Machine
end

