-- ==== Sys2Proof/Machine/Pins.lean ====
section
/-! DEFINITION. Multi-function pins and tick timers (R118 to R121, R880), and the test port (R835, IEEE 1149.1). -/

namespace Sys2Proof.Machine

/-! ### Tick timers -/

/-- TICK_TIMER_EXPIRE: OFFSET after the tick an enabled timer expires once: its marker pins pulse for 200 ns, and with FIRE = 1 it arrives on
its tumbler. A tick recognised in that cycle wins (R120). -/
def execTickTimerExpire (timer : Nat) (s : State) : Host.Outcome State Fault Refusal :=
  match s.ward.image.timers[timer]?, s.tick.lastTick with
  | some t, some at_ =>
    if s.ticking && t.en && s.tick.due.isNone && s.now == at_ + refPeriod * t.offset && !(kvN s.pins.timerBase timer == at_ + 1) then
      let marks := (List.range 16).filter (fun i =>
        let p := s.ward.image.pins.getD i {}
        p.func == 3 && p.timer == timer)
      let s := { s with pins := { s.pins with
        timerBase := setN s.pins.timerBase timer (at_ + 1)
        markerUntil := marks.foldl (fun m i => setN m i (s.now + 500)) s.pins.markerUntil } }
      .next (if t.fire then s.devArrive 6 s.boot.leafSel t.tumbler else s)
    else .next s
  | _, _ => .next s

/-! ### MFP inputs -/

/-- MFP_INPUT_EDGE: `high` counts the cycles for which a pin has now been in its asserted state (ACTIVE_LOW), 0 when it has left it. From 100 on
it is a recognised edge (R50), once each time: an arrival (FUNC 6), or a timestamp in its buffer (FUNC 7). A FUNC 1 pin shows its state in WRD_MFP_IN. -/
def execMfpInputEdge (pin high : Nat) (s : State) : Host.Outcome State Fault Refusal :=
  match s.ward.image.pins[pin]? with
  | some p =>
    if !s.ticking || decide (16 ≤ pin) then .next s
    else
      let m := s.pins.mfpIn
      let new := decide (100 ≤ high) && !natBit s.pins.mfpSeen pin
      let seen := if high = 0 then 0 else if 100 ≤ high then 1 else (natBit s.pins.mfpSeen pin).toNat
      let s := { s with pins := { s.pins with
        mfpIn := natSetBits m pin 1 (if high = 0 then 0 else 1), mfpSeen := natSetBits s.pins.mfpSeen pin 1 seen } }
      let s := s.syncMfp
      if !new then .next s
      else if p.func = 6 then .next (s.devArrive 6 s.boot.leafSel p.tumbler)
      else if p.func = 7 then .next (s.capture p.buffer none)
      else .next s
  | none => .next s

/-! ### MFP outputs -/

/-- What a pin puts on its land. -/
inductive PinLevel where
  | released | low | high
  deriving DecidableEq, Repr

/-- Is an output pin asserted: by WRD_MFP_OUT (FUNC 2), in its marker's pulse (3), in a frame after an overrun (4), in its tumbler's pulse (5)? -/
def State.mfpAsserted (s : State) (n : Nat) : Bool :=
  match (s.ward.image.pins.getD n {}).func with
  | 2 => natBit (s.fld RF.WRD_MFP_OUT_DRIVE) n
  | 3 => decide (s.now < kvN s.pins.markerUntil n)
  | 4 => s.pins.overrunOut
  | 5 => decide (s.now < kvN s.pins.tmbOutUntil n)
  | _ => false

/-- The level of a pin (Table 3.7): an output shows its asserted state as ACTIVE_LOW says, a FUNC 2 pin only pulls low, and every other pin is
released. WRD_MFP_OUT is ignored for pins of another function. -/
def State.mfpLevel (s : State) (n : Nat) : PinLevel :=
  let p := s.ward.image.pins.getD n {}
  let low := s.mfpAsserted n == p.activeLow
  if p.func = 2 then (if low then .low else .released)
  else if p.func = 3 ∨ p.func = 4 ∨ p.func = 5 then (if low then .low else .high)
  else .released

/-- The pins that are high, and those that are low, as masks. -/
def State.mfpMask (s : State) (l : PinLevel) : Nat := maskOf ((List.range 16).filter (fun n => s.mfpLevel n == l))

/-! ### The test port -/

/-- The next state of the test access port. -/
def Tap.next (t : Tap) (tms : Bool) : Tap :=
  match t with
  | .reset => if tms then .reset else .idle
  | .idle => if tms then .selDr else .idle
  | .selDr => if tms then .selIr else .capDr
  | .capDr => if tms then .exit1Dr else .shiftDr
  | .shiftDr => if tms then .exit1Dr else .shiftDr
  | .exit1Dr => if tms then .updDr else .pauseDr
  | .pauseDr => if tms then .exit2Dr else .pauseDr
  | .exit2Dr => if tms then .updDr else .shiftDr
  | .updDr => if tms then .selDr else .idle
  | .selIr => if tms then .reset else .capIr
  | .capIr => if tms then .exit1Ir else .shiftIr
  | .shiftIr => if tms then .exit1Ir else .shiftIr
  | .exit1Ir => if tms then .updIr else .pauseIr
  | .pauseIr => if tms then .exit2Ir else .pauseIr
  | .exit2Ir => if tms then .updIr else .shiftIr
  | .updIr => if tms then .selDr else .idle

/-- The `n` low bits of a number, bit 0 first. -/
def bitsOf (n v : Nat) : List Bool := (List.range n).map (fun i => natBit v i)

/-- What the data register captures: the identification code, which reset selects, the boundary cells, or the bypass bit. -/
def State.tapCapture (s : State) : List Bool :=
  match (if s.jtag.ir.isEmpty then 1 else Config.jtagSelect s.jtag.ir) with
  | 1 => bitsOf 32 Config.jtagIdcode
  | 2 => Config.jtagCells s.pins.mfpIn (s.mfpMask .high) (s.mfpMask .low)
  | _ => [false]

/-- The rising edge of TCK. -/
def State.tapRise (s : State) (tms tdi : Bool) : State :=
  let j := s.jtag
  let j := match j.tap with
    | .capDr => { j with dr := s.tapCapture }
    | .shiftDr => { j with dr := j.dr.drop 1 ++ [tdi] }
    | .capIr => { j with irShift := bitsOf Config.jtagIrLength 1 }
    | .shiftIr => { j with irShift := j.irShift.drop 1 ++ [tdi] }
    | _ => j
  { s with jtag := { j with tap := j.tap.next tms } }

/-- The falling edge of TCK: TDO is driven only while shifting (Table 19.3), and the instruction takes effect. -/
def State.tapFall (s : State) : State :=
  let j := s.jtag
  { s with jtag := match j.tap with
    | .shiftDr => { j with tdo := j.dr.head? }
    | .shiftIr => { j with tdo := j.irShift.head? }
    | .updIr => { j with ir := j.irShift, tdo := none }
    | .reset => { j with ir := [], tdo := none }
    | _ => { j with tdo := none } }

/-- JTAG_TCK_EDGE: an edge of TCK with TRST_N, TMS and TDI as they stand. TRST_N low holds the port in reset. The port reaches nothing else. -/
def execJtagTckEdge (rising trstN tms tdi : Bool) (s : State) : Host.Outcome State Fault Refusal :=
  if s.boot.power = .unpowered then .next s
  else if !trstN then .next { s with jtag := {} }
  else .next (if rising then s.tapRise tms tdi else s.tapFall)

end Sys2Proof.Machine
end

