-- ==== Sys2Proof/Machine/TCtl.lean ====
section
/-! DEFINITION. The control instructions of a T-core (R383, R384, Table 8.7; R162 to R165). -/

namespace Sys2Proof.Machine

/-- An address at a signed count of 8-byte units from the instruction. -/
def branchTo (pc imm : Nat) : Nat := ((pc : Int) + 8 * toSigned 32 imm).toNat % 2 ^ 57

/-- Lanes of a group exit: masks, armed barriers, and the group at its next instruction (R165, R171, R172). -/
def State.exitLanes (s : State) (core slot : Nat) (b : TBlock) (g : TGroup) (lanes : List Nat) : State :=
  let g := { g with pc := (g.pc + 8) % 2 ^ 57 }.exit (maskOf lanes)
  let threads := lanes.map (fun l => 32 * g.idx + l)
  let s := (s.setTblock core g.blk (some { b with
    exitAt := s.now, exits := (if b.exitAt = s.now then b.exits else []) ++ threads
    bars := b.bars.map (fun x => x.onExit threads) })).setTgroup core slot (some g)
  s.settleBars core g.blk 16

/-- EXIT: the lanes in which the guard holds exit. -/
def execExit (core slot : Nat) (w0 _w1 : BitVec 64) (s : State) : Host.Outcome State Fault Refusal :=
  .next (s.issue core slot 0x01 w0 {} (fun s b g => s.exitLanes core slot b g (g.acting w0)))

/-- BRA: uniform, or divergent with two entries pushed (R162 to R164). -/
def execBra (core slot : Nat) (w0 w1 : BitVec 64) (s : State) : Host.Outcome State Fault Refusal :=
  .next (s.issue core slot 0x02 w0 { words := 2 } (fun s _ g =>
    let t := maskOf (g.acting w0)
    let target := branchTo g.pc (fImm32 w1)
    let join := branchTo g.pc (fExt w1)
    let next := (g.pc + 16) % 2 ^ 57
    if t = g.active then s.setTgroup core slot (some { g with pc := target })
    else if t = 0 then s.setTgroup core slot (some { g with pc := next })
    else if 31 ≤ g.stack.length then s.preciseFault core slot 0x0406 g.active 0 []
    else
      let rest : DivEnt := { pc := next, mask := g.active - t, join := join }
      let all : DivEnt := { pc := (join + 8) % 2 ^ 57, mask := g.active, join := join }
      s.setTgroup core slot (some { g with stack := rest :: all :: g.stack, active := t, pc := target })))

/-- JOIN (R163): a popped mask with no live lane is popped again (R165). -/
def execJoin (core slot : Nat) (w0 _w1 : BitVec 64) (s : State) : Host.Outcome State Fault Refusal :=
  .next (s.issue core slot 0x03 w0 { group := true } (fun s _ g =>
    match g.stack with
    | e :: r =>
      if e.join = g.pc then
        let (st, pc, act) := popUntil g.live r e.pc (Nat.land e.mask g.live)
        s.setTgroup core slot (some { g with stack := st, pc := pc, active := act })
      else s.advance core slot 1 g
    | [] => s.advance core slot 1 g))

/-- CALL: pair D of every active lane := address + 16. -/
def execCall (core slot : Nat) (w0 w1 : BitVec 64) (s : State) : Host.Outcome State Fault Refusal :=
  .next (s.issue core slot 0x04 w0 { words := 2, group := true, regs := [(fD w0, 2)], dst := 1 } (fun s _ g =>
    let g' := (maskBits 32 g.active).foldl (fun h l => h.wr l (fD w0) (g.pc + 16) 2) g
    s.setTgroup core slot (some { g' with pc := branchTo g.pc (fImm32 w1) })))

/-- JMPR (R384): every active lane holds one address, a multiple of 8. -/
def execJmpr (core slot : Nat) (w0 _w1 : BitVec 64) (s : State) : Host.Outcome State Fault Refusal :=
  .next (s.issue core slot 0x05 w0 { group := true, regs := [(fA w0, 2)] } (fun s _ g =>
    let a := g.rd g.lowest (fA w0) 2
    let diff := maskOf ((maskBits 32 g.active).filter (fun l => !(g.rd l (fA w0) 2 == a)))
    if !(diff == 0) then s.preciseFault core slot 0x0803 diff 0 (detailOf [(52, 4, diff)])
    else if !(a % 8 == 0) then s.preciseFault core slot 0x0404 g.active a (detailOf [(52, 1, 8)])
    else s.setTgroup core slot (some { g with pc := a })))

/-- TRAP: fault 0x040A for the lanes in which the guard holds; BI = 0 is undefined. -/
def execTrap (core slot : Nat) (w0 _w1 : BitVec 64) (s : State) : Host.Outcome State Fault Refusal :=
  .next (s.issue core slot 0x06 w0 { imm := true, bad := !fBI w0 } (fun s _ g =>
    let ls := g.acting w0
    if ls.isEmpty then s.advance core slot 1 g
    else s.preciseFault core slot 0x040A (maskOf ls) 0 (detailOf [(52, 4, ofSigned 32 (fImm16 w0))])))

end Sys2Proof.Machine
end

