-- ==== Sys2Proof/Machine/TFloat.lean ====
section
/-! DEFINITION. The lane floating-point instructions and the conversion of a T-core (R377 to R382, Tables 8.5 and 8.6). -/

namespace Sys2Proof.Machine

/-- The lane format of FT. -/
def laneFmt (dbl : Bool) (w0 : BitVec 64) : FFmt :=
  if dbl then fp64 else match fMod w0 47 46 with
    | 0 => fp32
    | 1 => fp16
    | _ => bf16

def isX2 (dbl : Bool) (w0 : BitVec 64) : Bool := !dbl && natBit w0.toNat 48

/-- The mode of a lane instruction: strict by its S bit or by its unit (R250); fast FP32 flushes subnormals (Table 5.9). -/
def laneMode (b : TBlock) (dbl : Bool) (w0 : BitVec 64) : FMode :=
  let st := b.strict || natBit w0.toNat 51
  { rnd := fMod w0 50 49, strict := st, flush := !st && !dbl && fMod w0 47 46 == 0 }

/-- The form of a lane instruction with `k` sources, and a register or a predicate destination. -/
def fpForm (dbl : Bool) (w0 : BitVec 64) (k : Nat) (toPred : Bool) : OpForm :=
  { mods := [if dbl then (54, 49) else (54, 46)] ++ (if toPred then [(57, 55)] else [])
    regs := ((if toPred then [] else [fD w0]) ++ [fA w0, fB w0, fC w0].take k).map (fun r => (r, if dbl then 2 else 1))
    dst := if toPred then 0 else 1, pdst := if toPred then 1 else 0
    preds := if toPred then [fD w0] else []
    bad := !dbl && (fMod w0 47 46 == 3 || (fMod w0 47 46 == 0 && isX2 dbl w0)) }

/-- The sources A, B, C of a lane for one half (0 low), with NA, NB and NC applied. -/
def TGroup.fpSrcs (g : TGroup) (dbl : Bool) (w0 : BitVec 64) (lane half : Nat) (k : Nat) : List Nat :=
  let f := laneFmt dbl w0
  ([(fA w0, 52), (fB w0, 53), (fC w0, 54)].take k).map (fun r =>
    let x := natBits (g.rd lane r.1 (if dbl then 2 else 1)) (16 * half) f.width
    if natBit w0.toNat r.2 then f.negate x else x)

/-- A lane instruction that writes D: `op` on the low half, and on the high half when X2 = 1 (R379), with the flags of both. -/
def State.fpOp (s : State) (core slot opc : Nat) (w0 : BitVec 64) (dbl : Bool) (k : Nat)
    (op : FFmt → FMode → List Nat → FRes) : State :=
  s.lanesOp core slot opc w0 (fpForm dbl w0 k false) (fun b g l h =>
    let m := laneMode b dbl w0
    let lo := op (laneFmt dbl w0) m (g.fpSrcs dbl w0 l 0 k)
    let hi := op (laneFmt dbl w0) m (g.fpSrcs dbl w0 l 1 k)
    if isX2 dbl w0 then ((h.wr l (fD w0) (lo.bits + 2 ^ 16 * hi.bits) 1).setFlags l lo.flags).setFlags l hi.flags
    else (h.wr l (fD w0) lo.bits (if dbl then 2 else 1)).setFlags l lo.flags)

/-- A − B: a NaN operand keeps its sign. -/
def FFmt.sub (f : FFmt) (m : FMode) (x y : Nat) : FRes := f.add m x (if (f.decode y).isNan then y else f.negate y)

def src (vs : List Nat) (i : Nat) : Nat := vs.getD i 0

/-- A comparison. With X2 = 1 two results meet one predicate: where they differ the spec does not say which is written, and the
predicate receives a free value. -/
def State.fpCmp (s : State) (core slot opc : Nat) (w0 : BitVec 64) (dbl : Bool) : State :=
  s.issue core slot opc w0 (fpForm dbl w0 2 true) (fun s b g =>
    let m := laneMode b dbl w0
    let cmp := fun (l half : Nat) =>
      let vs := g.fpSrcs dbl w0 l half 2
      (laneFmt dbl w0).cmpB m (fMod w0 57 55) (src vs 0) (src vs 1)
    let g' := (g.acting w0).foldl (fun h l =>
      let lo := cmp l 0
      let hi := cmp l 1
      if isX2 dbl w0 then
        let p := if lo.1 == hi.1 then lo.1 else Config.freeNat (s.freeCtr + l) % 2 == 1
        ((h.setPred l (fD w0) p).setFlags l lo.2).setFlags l hi.2
      else (h.setPred l (fD w0) lo.1).setFlags l lo.2) g
    { s.advance core slot 1 g' with freeCtr := s.freeCtr + 32 })

/-- FADD: D := A + B. -/
def execFadd (core slot : Nat) (w0 _w1 : BitVec 64) (s : State) : Host.Outcome State Fault Refusal :=
  .next (s.fpOp core slot 0x30 w0 false 2 (fun f m v => f.add m (src v 0) (src v 1)))

/-- FSUB: D := A − B. -/
def execFsub (core slot : Nat) (w0 _w1 : BitVec 64) (s : State) : Host.Outcome State Fault Refusal :=
  .next (s.fpOp core slot 0x31 w0 false 2 (fun f m v => f.sub m (src v 0) (src v 1)))

/-- FMUL: D := A × B. -/
def execFmul (core slot : Nat) (w0 _w1 : BitVec 64) (s : State) : Host.Outcome State Fault Refusal :=
  .next (s.fpOp core slot 0x32 w0 false 2 (fun f m v => f.mul m (src v 0) (src v 1)))

/-- FFMA: D := A × B + C, rounded once. -/
def execFfma (core slot : Nat) (w0 _w1 : BitVec 64) (s : State) : Host.Outcome State Fault Refusal :=
  .next (s.fpOp core slot 0x33 w0 false 3 (fun f m v => f.fma m (src v 0) (src v 1) (src v 2)))

/-- FMIN: D := minimumNumber(A, B). -/
def execFmin (core slot : Nat) (w0 _w1 : BitVec 64) (s : State) : Host.Outcome State Fault Refusal :=
  .next (s.fpOp core slot 0x34 w0 false 2 (fun f m v => f.minMaxB m false (src v 0) (src v 1)))

/-- FMAX: D := maximumNumber(A, B). -/
def execFmax (core slot : Nat) (w0 _w1 : BitVec 64) (s : State) : Host.Outcome State Fault Refusal :=
  .next (s.fpOp core slot 0x35 w0 false 2 (fun f m v => f.minMaxB m true (src v 0) (src v 1)))

/-- FSETP: p[D] := A CMP B (R380). -/
def execFsetp (core slot : Nat) (w0 _w1 : BitVec 64) (s : State) : Host.Outcome State Fault Refusal :=
  .next (s.fpCmp core slot 0x36 w0 false)

/-- FRND: D := A rounded to an integral value. -/
def execFrnd (core slot : Nat) (w0 _w1 : BitVec 64) (s : State) : Host.Outcome State Fault Refusal :=
  .next (s.fpOp core slot 0x37 w0 false 1 (fun f m v => f.rint m (src v 0)))

/-- FDIV: D := A ÷ B. -/
def execFdiv (core slot : Nat) (w0 _w1 : BitVec 64) (s : State) : Host.Outcome State Fault Refusal :=
  .next (s.fpOp core slot 0x3A w0 false 2 (fun f m v => f.div m (src v 0) (src v 1)))

/-- FSQRT: D := √A. -/
def execFsqrt (core slot : Nat) (w0 _w1 : BitVec 64) (s : State) : Host.Outcome State Fault Refusal :=
  .next (s.fpOp core slot 0x3B w0 false 1 (fun f m v => f.sqrt m (src v 0)))

/-- DADD: D := A + B. -/
def execDadd (core slot : Nat) (w0 _w1 : BitVec 64) (s : State) : Host.Outcome State Fault Refusal :=
  .next (s.fpOp core slot 0x40 w0 true 2 (fun f m v => f.add m (src v 0) (src v 1)))

/-- DSUB: D := A − B. -/
def execDsub (core slot : Nat) (w0 _w1 : BitVec 64) (s : State) : Host.Outcome State Fault Refusal :=
  .next (s.fpOp core slot 0x41 w0 true 2 (fun f m v => f.sub m (src v 0) (src v 1)))

/-- DMUL: D := A × B. -/
def execDmul (core slot : Nat) (w0 _w1 : BitVec 64) (s : State) : Host.Outcome State Fault Refusal :=
  .next (s.fpOp core slot 0x42 w0 true 2 (fun f m v => f.mul m (src v 0) (src v 1)))

/-- DFMA: D := A × B + C, rounded once. -/
def execDfma (core slot : Nat) (w0 _w1 : BitVec 64) (s : State) : Host.Outcome State Fault Refusal :=
  .next (s.fpOp core slot 0x43 w0 true 3 (fun f m v => f.fma m (src v 0) (src v 1) (src v 2)))

/-- DMIN: D := minimumNumber(A, B). -/
def execDmin (core slot : Nat) (w0 _w1 : BitVec 64) (s : State) : Host.Outcome State Fault Refusal :=
  .next (s.fpOp core slot 0x44 w0 true 2 (fun f m v => f.minMaxB m false (src v 0) (src v 1)))

/-- DMAX: D := maximumNumber(A, B). -/
def execDmax (core slot : Nat) (w0 _w1 : BitVec 64) (s : State) : Host.Outcome State Fault Refusal :=
  .next (s.fpOp core slot 0x45 w0 true 2 (fun f m v => f.minMaxB m true (src v 0) (src v 1)))

/-- DSETP: p[D] := A CMP B (R380). -/
def execDsetp (core slot : Nat) (w0 _w1 : BitVec 64) (s : State) : Host.Outcome State Fault Refusal :=
  .next (s.fpCmp core slot 0x46 w0 true)

/-- DRND: D := A rounded to an integral value. -/
def execDrnd (core slot : Nat) (w0 _w1 : BitVec 64) (s : State) : Host.Outcome State Fault Refusal :=
  .next (s.fpOp core slot 0x47 w0 true 1 (fun f m v => f.rint m (src v 0)))

/-- DDIV: D := A ÷ B. -/
def execDdiv (core slot : Nat) (w0 _w1 : BitVec 64) (s : State) : Host.Outcome State Fault Refusal :=
  .next (s.fpOp core slot 0x48 w0 true 2 (fun f m v => f.div m (src v 0) (src v 1)))

/-- DSQRT: D := √A. -/
def execDsqrt (core slot : Nat) (w0 _w1 : BitVec 64) (s : State) : Host.Outcome State Fault Refusal :=
  .next (s.fpOp core slot 0x49 w0 true 1 (fun f m v => f.sqrt m (src v 0)))

/-! ### CVT (R382) -/

/-- The codes a register holds under R218, with INT32 and UINT32. -/
def cvtCode (c : Nat) : Bool := decide (c ≤ 5) || c == 9 || c == 10 || c == 12 || c == 13

/-- Is an element selector defined? It is 0 for formats of 32 bits or more; its upper bits are reserved. -/
def selOk (code sel : Nat) : Bool := decide (sel < (if codeBits code < 32 then 32 / codeBits code else 1))

/-- CVT: element B of A (or A) converted under R234 to R238 into element C of D (or D). Subnormals are kept in both modes. -/
def execCvt (core slot : Nat) (w0 _w1 : BitVec 64) (s : State) : Host.Outcome State Fault Refusal :=
  let sf := fMod w0 49 46
  let df := fMod w0 53 50
  let bad := !(cvtCode sf && cvtCode df && selOk sf (fB w0) && selOk df (fC w0)) || sf == df
  .next (s.lanesOp core slot 0x38 w0
    { mods := [(57, 46)], bad := bad, regs := [(fD w0, if df = 0 then 2 else 1), (fA w0, if sf = 0 then 2 else 1)], dst := 1 }
    (fun b g l h =>
      let a := g.rd l (fA w0) (if sf = 0 then 2 else 1)
      let x := natBits a (if codeBits sf < 32 then codeBits sf * fB w0 else 0) (codeBits sf)
      let m : FMode := { rnd := fMod w0 55 54, strict := b.strict || natBit w0.toNat 57 }
      let r := toElem m (natBit w0.toNat 56) df (elemValue sf x)
      let v := if codeBits df < 32 then natSetBits (g.reg l (fD w0)) (codeBits df * fC w0) (codeBits df) r.bits else r.bits
      (h.wr l (fD w0) v (if df = 0 then 2 else 1)).setFlags l r.flags))

end Sys2Proof.Machine
end

