-- ==== Sys2Proof/Machine/TInt.lean ====
section
/-! DEFINITION. The integer, predicate and special instructions of a T-core (R372 to R376, Tables 8.3 and 8.4). -/

namespace Sys2Proof.Machine

/-! ### Operand forms -/

/-- Registers of an operand by TY (R372), and its signedness. -/
def tyRegs (w0 : BitVec 64) : Nat := if 2 ≤ fMod w0 47 46 then 2 else 1
def tySigned (w0 : BitVec 64) : Bool := fMod w0 47 46 % 2 == 1

/-- The form of an integer instruction with sources `srcs`; `b` when it has a B operand that IMM16 may replace. -/
def intForm (w0 : BitVec 64) (srcs : List Nat) (b : Bool) : OpForm :=
  { imm := b, mods := [(47, 46)],
    regs := (fD w0 :: srcs ++ (if b && !fBI w0 then [fB w0] else [])).map (fun r => (r, tyRegs w0)), dst := 1 }

/-- An instruction of one source A: `f` takes the width and A. -/
def State.intUn (s : State) (core slot opc : Nat) (w0 : BitVec 64) (f : Nat → Nat → Nat) : State :=
  s.lanesOp core slot opc w0 (intForm w0 [fA w0] false) (fun _ g l h =>
    let n := tyRegs w0
    h.wr l (fD w0) (f (32 * n) (g.rd l (fA w0) n)) n)

/-- An instruction of sources A and B (or IMM16): `f` takes the width, A and B. -/
def State.intBin (s : State) (core slot opc : Nat) (w0 : BitVec 64) (f : Nat → Nat → Nat → Nat) : State :=
  s.lanesOp core slot opc w0 (intForm w0 [fA w0] true) (fun _ g l h =>
    let n := tyRegs w0
    h.wr l (fD w0) (f (32 * n) (g.rd l (fA w0) n) (g.opB w0 l n)) n)

/-- An operand as the integer it is by TY. -/
def tyVal (w0 : BitVec 64) (w x : Nat) : Int := if tySigned w0 then toSigned w x else (x : Int)

/-- The comparisons of ISETP (Table 8.3). -/
def icmp (op : Nat) (a b : Int) : Bool :=
  match op with
  | 0 => a == b
  | 1 => a != b
  | 2 => decide (a < b)
  | 3 => decide (a ≤ b)
  | 4 => decide (b < a)
  | _ => decide (b ≤ a)

/-- Leading zeros in a width. -/
def clz (w x : Nat) : Nat := if x = 0 then w else w - 1 - x.log2

def popcount (w x : Nat) : Nat := (maskBits w x).length

/-- The lane that SHFL reads for lane `l` (R373): its offset is a signed value. -/
def shflLane (mode : Nat) (l : Nat) (b : Int) : Int :=
  match mode with
  | 0 => b
  | 1 => (l : Int) - b
  | 2 => (l : Int) + b
  | _ => if 0 ≤ b then (Nat.xor l b.toNat : Nat) else -1

/-- The logic operations of PLOP. -/
def plop (mode : Nat) (a b : Bool) : Bool :=
  match mode with
  | 0 => a && b
  | 1 => a || b
  | 2 => xor a b
  | _ => a && !b

/-- The value of a special register (Table 8.4); CLOCK_HI and TICK_HI read the value the group latched. -/
def State.specialReg (s : State) (core slot : Nat) (b : TBlock) (g : TGroup) (lane sr : Nat) : Nat :=
  match sr with
  | 0 => lane
  | 1 => slot
  | 2 => g.idx
  | 3 => g.active
  | 4 => g.live
  | 5 => s.coreClock core % 2 ^ 32
  | 6 => g.clockHi
  | 7 => s.tickCount % 2 ^ 32
  | 8 => g.tickHi
  | 9 => s.tickOffset
  | 10 => s.fld (RF.TCW_FCUR_STEP core)
  | _ => b.engs.length

/-- A read of CLOCK_LO or TICK_LO latches the high half for the group (R376). -/
def State.latchHi (s : State) (core sr : Nat) (g : TGroup) : TGroup :=
  match sr with
  | 5 => { g with clockHi := s.coreClock core / 2 ^ 32 % 2 ^ 32 }
  | 7 => { g with tickHi := s.tickCount / 2 ^ 32 % 2 ^ 32 }
  | _ => g

/-! ### The instructions -/

/-- NOP: no effect. -/
def execNop (core slot : Nat) (w0 _w1 : BitVec 64) (s : State) : Host.Outcome State Fault Refusal :=
  .next (s.lanesOp core slot 0x00 w0 {} (fun _ _ _ h => h))

/-- IADD: D := A + B. -/
def execIadd (core slot : Nat) (w0 _w1 : BitVec 64) (s : State) : Host.Outcome State Fault Refusal :=
  .next (s.intBin core slot 16 w0 (fun w a b => (a + b) % 2 ^ w))

/-- ISUB: D := A − B. -/
def execIsub (core slot : Nat) (w0 _w1 : BitVec 64) (s : State) : Host.Outcome State Fault Refusal :=
  .next (s.intBin core slot 17 w0 (fun w a b => (a + 2 ^ w - b) % 2 ^ w))

/-- IMUL: D := the low half of A × B. -/
def execImul (core slot : Nat) (w0 _w1 : BitVec 64) (s : State) : Host.Outcome State Fault Refusal :=
  .next (s.intBin core slot 18 w0 (fun w a b => a * b % 2 ^ w))

/-- IMULH: D := the high half of A × B, by TY. -/
def execImulh (core slot : Nat) (w0 _w1 : BitVec 64) (s : State) : Host.Outcome State Fault Refusal :=
  .next (s.intBin core slot 19 w0 (fun w a b => ofSigned w (tyVal w0 w a * tyVal w0 w b / 2 ^ w)))

/-- IMAD: D := the low half of A × B + C. -/
def execImad (core slot : Nat) (w0 _w1 : BitVec 64) (s : State) : Host.Outcome State Fault Refusal :=
  .next (s.lanesOp core slot 0x14 w0 (intForm w0 [fA w0, fB w0, fC w0] false) (fun _ g l h =>
    let n := tyRegs w0
    h.wr l (fD w0) ((g.rd l (fA w0) n * g.rd l (fB w0) n + g.rd l (fC w0) n) % 2 ^ (32 * n)) n))

/-- IMIN: D := the lesser, by TY. -/
def execImin (core slot : Nat) (w0 _w1 : BitVec 64) (s : State) : Host.Outcome State Fault Refusal :=
  .next (s.intBin core slot 21 w0 (fun w a b => if tyVal w0 w b < tyVal w0 w a then b else a))

/-- IMAX: D := the greater, by TY. -/
def execImax (core slot : Nat) (w0 _w1 : BitVec 64) (s : State) : Host.Outcome State Fault Refusal :=
  .next (s.intBin core slot 22 w0 (fun w a b => if tyVal w0 w a < tyVal w0 w b then b else a))

/-- IABS: D := |A|; the most negative value stays. An unsigned A is its own magnitude. -/
def execIabs (core slot : Nat) (w0 _w1 : BitVec 64) (s : State) : Host.Outcome State Fault Refusal :=
  .next (s.intUn core slot 23 w0 (fun w a => ofSigned w (tyVal w0 w a).natAbs))

/-- AND. -/
def execAnd (core slot : Nat) (w0 _w1 : BitVec 64) (s : State) : Host.Outcome State Fault Refusal :=
  .next (s.intBin core slot 24 w0 (fun _ a b => Nat.land a b))

/-- OR. -/
def execOr (core slot : Nat) (w0 _w1 : BitVec 64) (s : State) : Host.Outcome State Fault Refusal :=
  .next (s.intBin core slot 25 w0 (fun _ a b => Nat.lor a b))

/-- XOR. -/
def execXor (core slot : Nat) (w0 _w1 : BitVec 64) (s : State) : Host.Outcome State Fault Refusal :=
  .next (s.intBin core slot 26 w0 (fun _ a b => Nat.xor a b))

/-- NOT. -/
def execNot (core slot : Nat) (w0 _w1 : BitVec 64) (s : State) : Host.Outcome State Fault Refusal :=
  .next (s.intUn core slot 27 w0 (fun w a => 2 ^ w - 1 - a))

/-- SHL: by B mod width. -/
def execShl (core slot : Nat) (w0 _w1 : BitVec 64) (s : State) : Host.Outcome State Fault Refusal :=
  .next (s.intBin core slot 28 w0 (fun w a b => a * 2 ^ (b % w) % 2 ^ w))

/-- SHR: by B mod width, zero fill. -/
def execShr (core slot : Nat) (w0 _w1 : BitVec 64) (s : State) : Host.Outcome State Fault Refusal :=
  .next (s.intBin core slot 29 w0 (fun w a b => a / 2 ^ (b % w)))

/-- SAR: by B mod width, sign fill. -/
def execSar (core slot : Nat) (w0 _w1 : BitVec 64) (s : State) : Host.Outcome State Fault Refusal :=
  .next (s.intBin core slot 30 w0 (fun w a b => ofSigned w (toSigned w a / 2 ^ (b % w))))

/-- POPC. -/
def execPopc (core slot : Nat) (w0 _w1 : BitVec 64) (s : State) : Host.Outcome State Fault Refusal :=
  .next (s.intUn core slot 31 w0 (popcount))

/-- CLZ. -/
def execClz (core slot : Nat) (w0 _w1 : BitVec 64) (s : State) : Host.Outcome State Fault Refusal :=
  .next (s.intUn core slot 32 w0 (clz))

/-- MOV: D := A, or IMM16. -/
def execMov (core slot : Nat) (w0 _w1 : BitVec 64) (s : State) : Host.Outcome State Fault Refusal :=
  .next (s.lanesOp core slot 0x21 w0
    { imm := true, mods := [(47, 46)], regs := (fD w0 :: (if fBI w0 then [] else [fA w0])).map (fun r => (r, tyRegs w0)), dst := 1 }
    (fun _ g l h =>
      let n := tyRegs w0
      h.wr l (fD w0) (if fBI w0 then ofSigned (32 * n) (fImm16 w0) else g.rd l (fA w0) n) n))

/-- MOVI: D := IMM32, or EXT × 2^32 + IMM32. -/
def execMovi (core slot : Nat) (w0 w1 : BitVec 64) (s : State) : Host.Outcome State Fault Refusal :=
  .next (s.lanesOp core slot 0x22 w0 { words := 2, mods := [(47, 46)], regs := [(fD w0, tyRegs w0)], dst := 1 } (fun _ _ l h =>
    h.wr l (fD w0) (fImm32 w1 + 2 ^ 32 * fExt w1) (tyRegs w0)))

/-- SEL: D := A when p[C] is 1, else B. -/
def execSel (core slot : Nat) (w0 _w1 : BitVec 64) (s : State) : Host.Outcome State Fault Refusal :=
  .next (s.lanesOp core slot 0x23 w0 { intForm w0 [fA w0, fB w0] false with preds := [fC w0] } (fun _ g l h =>
    let n := tyRegs w0
    h.wr l (fD w0) (g.rd l (if g.pred l (fC w0) then fA w0 else fB w0) n) n))

/-- ISETP: p[D] := A CMP B, by TY; CMP 6 and 7 are undefined. -/
def execIsetp (core slot : Nat) (w0 _w1 : BitVec 64) (s : State) : Host.Outcome State Fault Refusal :=
  .next (s.lanesOp core slot 0x24 w0
    { imm := true, mods := [(50, 46)], preds := [fD w0], pdst := 1, bad := decide (6 ≤ fMod w0 50 48),
      regs := (fA w0 :: (if fBI w0 then [] else [fB w0])).map (fun r => (r, tyRegs w0)) }
    (fun _ g l h =>
      let n := tyRegs w0
      h.setPred l (fD w0) (icmp (fMod w0 50 48) (tyVal w0 (32 * n) (g.rd l (fA w0) n)) (tyVal w0 (32 * n) (g.opB w0 l n)))))

/-- PLOP: p[D] := p[A] op p[B], by MODE. -/
def execPlop (core slot : Nat) (w0 _w1 : BitVec 64) (s : State) : Host.Outcome State Fault Refusal :=
  .next (s.lanesOp core slot 0x25 w0 { mods := [(49, 46)], preds := [fD w0, fA w0, fB w0], pdst := 1 } (fun _ g l h =>
    h.setPred l (fD w0) (plop (fMod w0 49 48) (g.pred l (fA w0)) (g.pred l (fB w0)))))

/-- SHFL (R373): the source lane is used when it lies from 0 to 31 and is active. -/
def execShfl (core slot : Nat) (w0 _w1 : BitVec 64) (s : State) : Host.Outcome State Fault Refusal :=
  .next (s.lanesOp core slot 0x26 w0 { intForm w0 [fA w0] true with mods := [(49, 46)] } (fun _ g l h =>
    let n := tyRegs w0
    let x := shflLane (fMod w0 49 48) l (toSigned (32 * n) (g.opB w0 l n))
    let src := if decide (0 ≤ x) && decide (x < 32) && natBit g.active x.toNat then x.toNat else l
    h.wr l (fD w0) (g.rd src (fA w0) n) n))

/-- VOTE (R374): ANY and ALL write p[D] of every active lane, BALLOT register D; MODE 3 is undefined. -/
def execVote (core slot : Nat) (w0 _w1 : BitVec 64) (s : State) : Host.Outcome State Fault Refusal :=
  let mode := fMod w0 49 48
  .next (s.lanesOp core slot 0x27 w0
    { group := true, mods := [(49, 46)], preds := (if mode < 2 then [fD w0] else []) ++ [fA w0], pdst := if mode < 2 then 1 else 0, dst := 1
      regs := if mode = 2 then [(fD w0, 1)] else [], bad := mode == 3 }
    (fun _ g l h =>
      let act := maskBits 32 g.active
      match mode with
      | 0 => h.setPred l (fD w0) (act.any (fun k => g.pred k (fA w0)))
      | 1 => h.setPred l (fD w0) (act.all (fun k => g.pred k (fA w0)))
      | _ => h.setReg l (fD w0) (maskOf (act.filter (fun k => g.pred k (fA w0))))))

/-- S2R (R375): a value of SR outside Table 8.4 is undefined. -/
def execS2r (core slot : Nat) (w0 _w1 : BitVec 64) (s : State) : Host.Outcome State Fault Refusal :=
  let sr := fMod w0 51 46
  .next (s.issue core slot 0x28 w0 { mods := [(51, 46)], regs := [(fD w0, 1)], dst := 1, bad := decide (12 ≤ sr) } (fun s b g =>
    let ls := g.acting w0
    let g' := ls.foldl (fun h l => h.setReg l (fD w0) (s.specialReg core slot b g l sr)) g
    s.advance core slot 1 (if ls.isEmpty then g' else s.latchHi core sr g')))

/-- FLG.RD: D := the lane's flag state. -/
def execFlgRd (core slot : Nat) (w0 _w1 : BitVec 64) (s : State) : Host.Outcome State Fault Refusal :=
  .next (s.lanesOp core slot 0x29 w0 { regs := [(fD w0, 1)], dst := 1 } (fun _ g l h =>
    h.setReg l (fD w0) (kvGet (fun _ => 0) g.flags l % 32)))

/-- FLG.CLR: clears each lane flag whose bit is 1 in MASK. -/
def execFlgClr (core slot : Nat) (w0 _w1 : BitVec 64) (s : State) : Host.Outcome State Fault Refusal :=
  .next (s.lanesOp core slot 0x2A w0 { mods := [(50, 46)] } (fun _ g l h =>
    let x := kvGet (fun _ => 0) g.flags l
    { h with flags := kvSet (fun _ => 0) h.flags l (x - Nat.land x (fMod w0 50 46)) }))

end Sys2Proof.Machine
end

