-- ==== Sys2Proof/Machine/VBase.lean ====
section
/-! DEFINITION. The base instructions of a V-core: RV64I, M, F, D, C, Zba, Zbb, Zicond and the system instructions (R419, Table 9.1). PRESUMED
(the RISC-V unprivileged and privileged specifications), where R419 only names them. -/

namespace Sys2Proof.Machine

/-! ### Integer operations -/

def s64 (n : Nat) : Int := toSigned 64 n
def u64 (z : Int) : Nat := ofSigned 64 z
/-- A 32-bit result, sign-extended. -/
def sx32 (n : Nat) : Nat := ofSigned 64 (toSigned 32 n)

/-- Division and remainder of RISC-V at a width: by 0 they give all ones and the dividend. -/
def divS (w a b : Nat) : Nat :=
  if b % 2 ^ w = 0 then 2 ^ w - 1 else ofSigned w (Int.tdiv (toSigned w a) (toSigned w b))
def remS (w a b : Nat) : Nat :=
  if b % 2 ^ w = 0 then a % 2 ^ w else ofSigned w (Int.tmod (toSigned w a) (toSigned w b))
def divU (w a b : Nat) : Nat := if b % 2 ^ w = 0 then 2 ^ w - 1 else a % 2 ^ w / (b % 2 ^ w)
def remU (w a b : Nat) : Nat := if b % 2 ^ w = 0 then a % 2 ^ w else a % 2 ^ w % (b % 2 ^ w)

def rotL (w a k : Nat) : Nat := (a % 2 ^ w * 2 ^ (k % w)) % 2 ^ w + a % 2 ^ w / 2 ^ (w - k % w)
def rotR (w a k : Nat) : Nat := rotL w a (w - k % w)
def sarAt (w a k : Nat) : Nat := ofSigned w (toSigned w a / 2 ^ (k % w))
def clzAt (w a : Nat) : Nat := if a % 2 ^ w = 0 then w else w - 1 - (a % 2 ^ w).log2
def ctzAt (w a : Nat) : Nat := ((List.range w).find? (fun i => natBit a i)).getD w

/-- OP: register-register operations by funct7 and funct3. -/
def aluOp (f7 f3 a b : Nat) : Option Nat :=
  match f7, f3 with
  | 0, 0 => some ((a + b) % 2 ^ 64)
  | 0, 1 => some (a * 2 ^ (b % 64) % 2 ^ 64)
  | 0, 2 => some (if s64 a < s64 b then 1 else 0)
  | 0, 3 => some (if a < b then 1 else 0)
  | 0, 4 => some (Nat.xor a b)
  | 0, 5 => some (a / 2 ^ (b % 64))
  | 0, 6 => some (Nat.lor a b)
  | 0, 7 => some (Nat.land a b)
  | 0x20, 0 => some ((a + 2 ^ 64 - b) % 2 ^ 64)
  | 0x20, 4 => some (2 ^ 64 - 1 - Nat.xor a b)
  | 0x20, 5 => some (sarAt 64 a b)
  | 0x20, 6 => some (Nat.lor a (2 ^ 64 - 1 - b))
  | 0x20, 7 => some (Nat.land a (2 ^ 64 - 1 - b))
  | 1, 0 => some (a * b % 2 ^ 64)
  | 1, 1 => some (u64 (s64 a * s64 b / 2 ^ 64))
  | 1, 2 => some (u64 (s64 a * (b : Int) / 2 ^ 64))
  | 1, 3 => some (a * b / 2 ^ 64)
  | 1, 4 => some (divS 64 a b)
  | 1, 5 => some (divU 64 a b)
  | 1, 6 => some (remS 64 a b)
  | 1, 7 => some (remU 64 a b)
  | 0x10, 2 => some ((2 * a + b) % 2 ^ 64)
  | 0x10, 4 => some ((4 * a + b) % 2 ^ 64)
  | 0x10, 6 => some ((8 * a + b) % 2 ^ 64)
  | 5, 4 => some (if s64 b < s64 a then b else a)
  | 5, 5 => some (min a b)
  | 5, 6 => some (if s64 a < s64 b then b else a)
  | 5, 7 => some (max a b)
  | 0x30, 1 => some (rotL 64 a b)
  | 0x30, 5 => some (rotR 64 a b)
  | 7, 5 => some (if b = 0 then 0 else a)
  | 7, 7 => some (if b = 0 then a else 0)
  | _, _ => none

/-- OP-32; `rs2` tells ZEXT.H. -/
def aluOp32 (f7 f3 rs2 a b : Nat) : Option Nat :=
  match f7, f3 with
  | 0, 0 => some (sx32 (a + b))
  | 0, 1 => some (sx32 (a * 2 ^ (b % 32)))
  | 0, 5 => some (sx32 (a % 2 ^ 32 / 2 ^ (b % 32)))
  | 0x20, 0 => some (sx32 (a + 2 ^ 64 - b))
  | 0x20, 5 => some (sx32 (sarAt 32 a b))
  | 1, 0 => some (sx32 (a * b))
  | 1, 4 => some (sx32 (divS 32 a b))
  | 1, 5 => some (sx32 (divU 32 a b))
  | 1, 6 => some (sx32 (remS 32 a b))
  | 1, 7 => some (sx32 (remU 32 a b))
  | 4, 0 => some ((a % 2 ^ 32 + b) % 2 ^ 64)
  | 4, 4 => if rs2 = 0 then some (a % 2 ^ 16) else none
  | 0x10, 2 => some ((2 * (a % 2 ^ 32) + b) % 2 ^ 64)
  | 0x10, 4 => some ((4 * (a % 2 ^ 32) + b) % 2 ^ 64)
  | 0x10, 6 => some ((8 * (a % 2 ^ 32) + b) % 2 ^ 64)
  | 0x30, 1 => some (sx32 (rotL 32 a b))
  | 0x30, 5 => some (sx32 (rotR 32 a b))
  | _, _ => none

/-- OP-IMM; `i` is the immediate's 12 bits. -/
def aluImm (f3 i a : Nat) : Option Nat :=
  let z := u64 (toSigned 12 i)
  match f3 with
  | 1 =>
    match i / 64 with
    | 0 => some (a * 2 ^ (i % 64) % 2 ^ 64)
    | 0x18 =>
      match i % 64 with
      | 0 => some (clzAt 64 a)
      | 1 => some (ctzAt 64 a)
      | 2 => some (maskBits 64 a).length
      | 4 => some (u64 (toSigned 8 a))
      | 5 => some (u64 (toSigned 16 a))
      | _ => none
    | _ => none
  | 5 =>
    if i = 0x287 then some (leNat ((leBytes 8 a).map (fun b => if b = 0 then (0 : Byte) else 255)))
    else if i = 0x6B8 then some (leNat (leBytes 8 a).reverse)
    else match i / 64 with
      | 0 => some (a / 2 ^ (i % 64))
      | 0x10 => some (sarAt 64 a (i % 64))
      | 0x18 => some (rotR 64 a (i % 64))
      | _ => none
  | n => aluOp 0 n a z

/-- OP-IMM-32. -/
def aluImm32 (f3 i a : Nat) : Option Nat :=
  match f3 with
  | 0 => some (sx32 (a + u64 (toSigned 12 i)))
  | 1 =>
    if i / 64 = 2 then some (a % 2 ^ 32 * 2 ^ (i % 64) % 2 ^ 64)
    else if i / 32 = 0 then some (sx32 (a * 2 ^ (i % 32)))
    else if i / 32 = 0x30 then
      (match i % 32 with
        | 0 => some (clzAt 32 a)
        | 1 => some (ctzAt 32 a)
        | 2 => some (maskBits 32 a).length
        | _ => none)
    else none
  | 5 =>
    match i / 32 with
    | 0 => some (sx32 (a % 2 ^ 32 / 2 ^ (i % 32)))
    | 0x20 => some (sx32 (sarAt 32 a i))
    | 0x30 => some (sx32 (rotR 32 a i))
    | _ => none
  | _ => none

/-- The condition of a branch. -/
def branchIf (f3 a b : Nat) : Option Bool :=
  match f3 with
  | 0 => some (a == b)
  | 1 => some (a != b)
  | 4 => some (decide (s64 a < s64 b))
  | 5 => some (decide (s64 b ≤ s64 a))
  | 6 => some (decide (a < b))
  | 7 => some (decide (b ≤ a))
  | _ => none

/-! ### Floating-point operations -/

/-- A RISC-V result: a NaN is the canonical NaN. -/
def FFmt.canon (f : FFmt) (r : FRes) : FRes := if (f.decode r.bits).isNan then { r with bits := f.nanCode } else r

/-- The rounding mode of an instruction; `none`: a reserved one. -/
def VCore.rm (v : VCore) (f3 : Nat) : Option Nat :=
  if f3 ≤ 4 then some f3 else if f3 = 7 ∧ v.frm ≤ 4 then some v.frm else none

/-- ∞ × 0, which is an invalid operation of a fused multiply-add with a NaN addend too. -/
def FVal.infZero (x y : FVal) : Bool :=
  let half := fun (x y : FVal) => (match x with
    | .inf _ => true
    | _ => false) && y.isZero
  half x y || half y x

/-- The flags of a fused multiply-add of a V-core (R254). -/
def FRes.fmaFlags (r : FRes) (a b : FVal) : FRes := if a.infZero b then { r with flags := Nat.lor r.flags flagNV } else r

/-- a × b + c. -/
def FFmt.fmaRv (f : FFmt) (m : FMode) (a b c : Nat) : FRes := (f.canon (f.fma m a b c)).fmaFlags (f.decode a) (f.decode b)

/-- FCLASS. -/
def FFmt.classOf (f : FFmt) (x : Nat) : Nat :=
  match f.decode x with
  | .nan _ p => if p < 2 ^ 51 then 2 ^ 8 else 2 ^ 9
  | .inf s => if s then 2 ^ 0 else 2 ^ 7
  | .fin s n _ =>
    if n = 0 then (if s then 2 ^ 3 else 2 ^ 4)
    else if f.isSub x then (if s then 2 ^ 2 else 2 ^ 5)
    else if s then 2 ^ 1 else 2 ^ 6

/-- FCVT to an integer type (0 W, 1 WU, 2 L, 3 LU): a NaN gives the largest value. -/
def fcvtInt (rm ty : Nat) (v : FVal) : Nat × Nat :=
  let hi : Int := match ty with
    | 0 => 2 ^ 31 - 1
    | 1 => 2 ^ 32 - 1
    | 2 => 2 ^ 63 - 1
    | _ => 2 ^ 64 - 1
  let lo : Int := match ty with
    | 0 => - 2 ^ 31
    | 2 => - 2 ^ 63
    | _ => 0
  let (z, fl) := if v.isNan then (hi, flagNV) else toIntSat { rnd := rm, strict := true } lo hi v
  (if ty < 2 then sx32 (ofSigned 32 z) else u64 z, fl)

/-- An integer register as a value by type. -/
def intVal (ty n : Nat) : FVal :=
  let z : Int := match ty with
    | 0 => toSigned 32 n
    | 1 => ((n % 2 ^ 32 : Nat) : Int)
    | 2 => toSigned 64 n
    | _ => (n : Int)
  .fin (decide (z < 0)) z.natAbs 0

/-- The source and destination views of a format: 0 single, 1 double. -/
def VCore.fsrc (v : VCore) (fmt r : Nat) : Nat := if fmt = 0 then v.fs r else v.fr r
def VCore.fdst (v : VCore) (fmt r : Nat) (x : FRes) : VCore := (v.wf r (if fmt = 0 then boxS x.bits else x.bits)).accrue x.flags

/-- OP-FP: the core after the instruction; `none`: undefined. -/
def VCore.opFp (v : VCore) (x : Nat) : Option VCore :=
  let fmt := natBits x 25 2
  let f := if fmt = 0 then fp32 else fp64
  let a := v.fsrc fmt (iRs1 x)
  let b := v.fsrc fmt (iRs2 x)
  let rm := v.rm (iF3 x)
  let arith := fun (op : FMode → FRes) => rm.map (fun r => v.fdst fmt (iRd x) (f.canon (op { rnd := r, strict := true })))
  let sgn := 2 ^ (f.width - 1)
  if 2 ≤ fmt then none
  else match natBits x 27 5 with
    | 0 => arith (fun m => f.add m a b)
    | 1 => arith (fun m => f.add m a (f.negate b))
    | 2 => arith (fun m => f.mul m a b)
    | 3 => arith (fun m => f.div m a b)
    | 0x0B => if iRs2 x = 0 then arith (fun m => f.sqrt m a) else none
    | 4 =>
      let mag := a % sgn
      let s := match iF3 x with
        | 0 => some (b / sgn % 2)
        | 1 => some (1 - b / sgn % 2)
        | 2 => some ((a / sgn + b / sgn) % 2)
        | _ => none
      s.map (fun s => v.fdst fmt (iRd x) { bits := mag + s * sgn })
    | 5 => if 2 ≤ iF3 x then none else some (v.fdst fmt (iRd x) (f.canon (f.minMaxB { strict := true } (iF3 x == 1) a b)))
    | 0x14 =>
      match iF3 x with
      | 0 => let r := f.cmpB { strict := true } 3 a b; some ((v.wx (iRd x) (if r.1 then 1 else 0)).accrue r.2)
      | 1 => let r := f.cmpB { strict := true } 2 a b; some ((v.wx (iRd x) (if r.1 then 1 else 0)).accrue r.2)
      | 2 => let r := f.cmpB { strict := true } 0 a b; some ((v.wx (iRd x) (if r.1 then 1 else 0)).accrue r.2)
      | _ => none
    | 0x08 =>
      if (fmt = 0 ∧ iRs2 x = 1) ∨ (fmt = 1 ∧ iRs2 x = 0) then
        let y := if fmt = 0 then fp64.decode (v.fr (iRs1 x)) else fp32.decode (v.fs (iRs1 x))
        rm.map (fun r => v.fdst fmt (iRd x) (f.canon (f.convert { rnd := r, strict := true } false y)))
      else none
    | 0x18 =>
      if 4 ≤ iRs2 x then none
      else rm.map (fun r =>
        let y := fcvtInt r (iRs2 x) (f.decode a)
        (v.wx (iRd x) y.1).accrue y.2)
    | 0x1A =>
      if 4 ≤ iRs2 x then none
      else rm.map (fun r => v.fdst fmt (iRd x) (f.convert { rnd := r, strict := true } false (intVal (iRs2 x) (v.rx (iRs1 x)))))
    | 0x1C =>
      if iRs2 x = 0 ∧ iF3 x = 0 then some (v.wx (iRd x) (if fmt = 0 then sx32 (v.fr (iRs1 x)) else v.fr (iRs1 x)))
      else if iRs2 x = 0 ∧ iF3 x = 1 then some (v.wx (iRd x) (f.classOf a))
      else none
    | 0x1E =>
      if iRs2 x = 0 ∧ iF3 x = 0 then some (v.wf (iRd x) (if fmt = 0 then boxS (v.rx (iRs1 x)) else v.rx (iRs1 x))) else none
    | _ => none

/-- FMADD, FMSUB, FNMSUB and FNMADD. -/
def VCore.opFma (v : VCore) (x : Nat) : Option VCore :=
  let fmt := natBits x 25 2
  let f := if fmt = 0 then fp32 else fp64
  let op := natBits x 2 2
  let a := v.fsrc fmt (iRs1 x)
  let c := v.fsrc fmt (iRs3 x)
  if 2 ≤ fmt then none
  else (v.rm (iF3 x)).map (fun r =>
    v.fdst fmt (iRd x) (f.fmaRv { rnd := r, strict := true } (if 2 ≤ op then f.negate a else a) (v.fsrc fmt (iRs2 x))
      (if op = 1 ∨ op = 3 then f.negate c else c)))

/-! ### System instructions -/

/-- MRET: the mode and the interrupt enable that the trap saved come back. -/
def State.vmret (s : State) (core : Nat) : State :=
  let v := s.vcore core
  let m := v.ms 11 2
  let v' := (((v.setMs 3 1 (v.ms 7 1)).setMs 7 1 1).setMs 11 2 0)
  let v' := if m = 3 then v' else v'.setMs 17 1 0
  ((s.setVcore core v').setVmode core m).vretireTo core (v.csrv 0x341)

/-- SRET. -/
def State.vsret (s : State) (core : Nat) : State :=
  let v := s.vcore core
  let v' := ((((v.setMs 1 1 (v.ms 5 1)).setMs 5 1 1).setMs 8 1 0).setMs 17 1 0)
  ((s.setVcore core v').setVmode core (v.ms 8 1)).vretireTo core (v.csrv 0x141)

/-- ECALL, EBREAK, MRET, SRET and WFI, which ends at once. -/
def State.vsystem (s : State) (core : Nat) (w : BitVec 32) (x : Nat) : State :=
  let v := s.vcore core
  match x with
  | 0x00000073 => s.vraise core (8 + v.mode) false 0
  | 0x00100073 => s.vraise core 3 false (if Config.trapTval then v.pc else 0)
  | 0x30200073 => if v.mode = 3 then s.vmret core else s.villegal core w
  | 0x10200073 => if v.mode = 3 ∨ (v.mode = 1 ∧ v.ms 22 1 = 0) then s.vsret core else s.villegal core w
  | 0x10500073 => s.vretire core w
  | _ => s.villegal core w

/-- Has a word a command of its own: a load, a store, an atomic, a fence, a CSR or a vendor instruction? -/
def ownCommand (x : Nat) : Bool :=
  match iOp x with
  | 0x03 => true
  | 0x07 => true
  | 0x23 => true
  | 0x27 => true
  | 0x2F => true
  | 0x0F => true
  | 0x73 => !(iF3 x == 0) || iF7 x == 9
  | 0x5B => decide (xOp x ≤ 27)
  | 0x0B => decide (xMode x ≤ 5)
  | 0x7B => decide (xOp x ≤ 3)
  | 0x2B => decide (iF3 x ≤ 4)
  | _ => false

/-- An instruction that only writes registers: the core after it. -/
def VCore.baseRegs (v : VCore) (x : Nat) : Option VCore :=
  let a := v.rx (iRs1 x)
  let b := v.rx (iRs2 x)
  let put := fun (r : Option Nat) => r.map (fun n => v.wx (iRd x) n)
  match iOp x with
  | 0x37 => some (v.wx (iRd x) (u64 (immU x)))
  | 0x17 => some (v.wx (iRd x) (u64 ((v.pc : Int) + immU x)))
  | 0x13 => put (aluImm (iF3 x) (natBits x 20 12) a)
  | 0x1B => put (aluImm32 (iF3 x) (natBits x 20 12) a)
  | 0x33 => put (aluOp (iF7 x) (iF3 x) a b)
  | 0x3B => put (aluOp32 (iF7 x) (iF3 x) (iRs2 x) a b)
  | 0x53 => if v.fsOn then v.opFp x else none
  | 0x43 => if v.fsOn then v.opFma x else none
  | 0x47 => if v.fsOn then v.opFma x else none
  | 0x4B => if v.fsOn then v.opFma x else none
  | 0x4F => if v.fsOn then v.opFma x else none
  | _ => none

/-- A base instruction. -/
def State.vbase (s : State) (core : Nat) (w : BitVec 32) (x : Nat) : State :=
  let v := s.vcore core
  let link := u64 ((v.pc : Int) + iLen w)
  match iOp x with
  | 0x6F => State.vretireTo (s.setVcore core (v.wx (iRd x) link)) core (u64 ((v.pc : Int) + immJ x))
  | 0x67 =>
    if iF3 x = 0 then State.vretireTo (s.setVcore core (v.wx (iRd x) link)) core (u64 ((v.rx (iRs1 x) : Int) + immI x) / 2 * 2)
    else s.villegal core w
  | 0x63 =>
    match branchIf (iF3 x) (v.rx (iRs1 x)) (v.rx (iRs2 x)) with
    | some true => s.vretireTo core (u64 ((v.pc : Int) + immB x))
    | some false => s.vretire core w
    | none => s.villegal core w
  | 0x73 => s.vsystem core w x
  | _ =>
    match v.baseRegs x with
    | some v' => (s.setVcore core v').vretire core w
    | none => s.villegal core w

/-- VCORE_BASE_INSTRUCTION: a word without a command of its own; an undefined one is illegal. `err` is what the caches' arrays report of the fetch, of
whatever word (R475, R476). -/
def execVcoreBaseInstruction (core : Nat) (w : BitVec 32) (err : Nat) (s : State) : Host.Outcome State Fault Refusal :=
  let s := if s.vready core then s.fetchErr core err else s
  match iWide w with
  | some x => .next (if ownCommand x then s else s.vissue core w (fun s x => s.vbase core w x))
  | none => .next (s.vissue core w (fun s x => s.vbase core w x))

/-- VCORE_TRAP: the trap that an instruction has raised is taken (R424, R432). -/
def execVcoreTrap (core : Nat) (s : State) : Host.Outcome State Fault Refusal :=
  let v := s.vcore core
  match v.trap with
  | some t => .next (if s.alive && v.running && !v.stopped then s.takeTrap core t.cause false t.addr t.tval else s)
  | none => .next s

/-! ### Interrupts (R460) -/

/-- time, at 100 MHz from cold start (R421). -/
def State.vtime (s : State) : Nat := (s.now - s.boot.coldAt) / 25 % 2 ^ 64

/-- mip: MTIP is 1 while time has reached XSLTIMECMP (Table 9.11). -/
def State.vmip (s : State) (core : Nat) : Nat :=
  let v := s.vcore core
  Nat.land (v.csrv 0x344) 0x222 + if v.csrv 0x7C1 ≤ s.vtime then 0x80 else 0

/-- The interrupt that the core takes: those for machine mode first, in the order MEI, MSI, MTI, SEI, SSI, STI. -/
def State.vintr (s : State) (core : Nat) : Option Nat :=
  let v := s.vcore core
  let on := Nat.land (s.vmip core) (v.csrv 0x304)
  let order := [11, 3, 7, 9, 1, 5]
  let toS := fun (i : Nat) => natBit (v.csrv 0x303) i
  let mOn := decide (v.mode < 3) || v.ms 3 1 == 1
  let sOn := decide (v.mode < 1) || (v.mode == 1 && v.ms 1 1 == 1)
  match order.find? (fun i => natBit on i && !toS i && mOn) with
  | some i => some i
  | none => order.find? (fun i => natBit on i && toS i && sOn)

/-- VCORE_INTERRUPT: an interrupt is taken at an instruction boundary. A translation phase or a TWAIT is abandoned, and epc names it; an access
phase, a load on its way and a tumbler operation end first. -/
def execVcoreInterrupt (core : Nat) (s : State) : Host.Outcome State Fault Refusal :=
  let v := s.vcore core
  let inAccess := match v.xslv with
    | some x => x.acc.isSome
    | none => false
  if s.alive && decide (core < 128) && v.running && !v.stopped && v.trap.isNone && !v.waitTmb && !inAccess && !s.vloading core
      && (s.moveOn (core + 512)).isNone && !s.vheld core then
    match s.vintr core with
    | some i =>
      let s := if v.twait.isSome then s.withdrawWaits (.vcore core) else s
      .next ((s.setVcore core { s.vcore core with twait := none, xslv := none }).takeTrap core i true false 0)
    | none => .next s
  else .next s

end Sys2Proof.Machine
end

