-- ==== Sys2Proof/Machine/VCsr.lean ====
section
/-! DEFINITION. The CSRs of a V-core (R420, R421, R433, R439, R440, R442, R484, Table 9.11), and the end of a work item (R430, R431). Standard
CSRs are PRESUMED (the RISC-V privileged specification) where R419 only names them. -/

namespace Sys2Proof.Machine

/-! ### The Xslv type and length -/

def VCore.et (v : VCore) : Nat := v.csrv 0x801 % 8
def VCore.strict (v : VCore) : Bool := natBit (v.csrv 0x801) 3
def VCore.vl (v : VCore) : Nat := v.csrv 0x800

/-- SEW of an element type (R439). -/
def sewOf (et : Nat) : Nat := if et = 0 ∨ et = 2 ∨ et = 4 then 32 else 64
def vlMax (et : Nat) : Nat := 8192 / sewOf et

/-! ### Reads -/

/-- cycle of a core: its clock, with what a write of mcycle has added. -/
def State.vcycle (s : State) (core : Nat) : Nat := (s.coreClock (512 + core) + s.vctr core 0) % 2 ^ 64

/-- mcycle, minstret and mhpmcounter3 to mhpmcounter31 by number; those from 11 on read 0 (Table 9.1). -/
def State.vcounter (s : State) (core n : Nat) : Nat :=
  if n = 0 then s.vcycle core else if n = 1 then s.vtime else if n ≤ 10 then s.vctr core n else 0

def sstatusMask : Nat := 0xDE122
def mstatusMask : Nat := 0x7FF9AA

/-- mstatus as read: UXL and SXL are 2, SD is 1 when FS or XS is 3. -/
def VCore.mstatus (v : VCore) : Nat :=
  Nat.land (v.csrv 0x300) mstatusMask + 0xA00000000 + if v.ms 13 2 = 3 ∨ v.ms 15 2 = 3 then 2 ^ 63 else 0

/-- May the core's mode read an unprivileged counter (mcounteren, scounteren)? -/
def VCore.ctrOk (v : VCore) (n : Nat) : Bool :=
  v.mode == 3 || (natBit (v.csrv 0x306) n && (v.mode == 1 || natBit (v.csrv 0x106) n))

/-- CSRs that hold what was last written. -/
def plainCsr (n : Nat) : Bool :=
  [0x106, 0x10A, 0x140, 0x141, 0x142, 0x143, 0x105, 0x302, 0x303, 0x304, 0x305, 0x306, 0x30A, 0x340, 0x341, 0x342, 0x343, 0x7C0, 0x7C1].contains n

/-- The value of a CSR; `none`: there is none, or the mode or mstatus forbids it. -/
def State.csrRead (s : State) (core n : Nat) : Option Nat :=
  let v := s.vcore core
  let xs := v.fsOn && v.xsOn
  if v.mode < natBits n 8 2 then none
  else if plainCsr n then some (v.csrv n)
  else match n with
    | 0x001 => if v.fsOn then some (v.csrv 3 % 32) else none
    | 0x002 => if v.fsOn then some v.frm else none
    | 0x003 => if v.fsOn then some (v.csrv 3 % 256) else none
    | 0x800 => if xs then some (v.csrv n) else none
    | 0x801 => if xs then some (v.csrv n) else none
    | 0x802 => if xs then some (v.csrv n) else none
    | 0xCC0 => if xs then some (v.csrv n) else none
    | 0x8C0 => some 0
    | 0xCC1 => some (s.tickCount % 2 ^ 64)
    | 0xCC2 => some s.tickOffset
    | 0xFC0 => some (core + v.unit % 1024 * 65536)
    | 0x100 => some (Nat.land v.mstatus (sstatusMask + 0x300000000 + 2 ^ 63))
    | 0x104 => some (Nat.land (v.csrv 0x304) (v.csrv 0x303))
    | 0x144 => some (Nat.land (s.vmip core) (v.csrv 0x303))
    | 0x180 => if v.mode = 1 ∧ v.ms 20 1 = 1 then none else some (v.csrv n)
    | 0x300 => some v.mstatus
    | 0x301 => some 0x800000000094112D
    | 0x344 => some (s.vmip core)
    | 0x320 => some 0
    | 0xF11 => some 0
    | 0xF12 => some 0x8000000000000908
    | 0xF13 => some (if Config.stepping = 0 then 0x0A00 else 0x0B00)
    | 0xF14 => some core
    | 0xF15 => some 0
    | _ =>
      if 0xC00 ≤ n ∧ n ≤ 0xC1F then (if v.ctrOk (n - 0xC00) then some (s.vcounter core (n - 0xC00)) else none)
      else if 0xB00 ≤ n ∧ n ≤ 0xB1F ∧ n ≠ 0xB01 then some (s.vcounter core (n - 0xB00))
      else if 0x323 ≤ n ∧ n ≤ 0x33F then some 0
      else if (0x3A0 ≤ n ∧ n ≤ 0x3AF ∧ n % 2 = 0) ∨ (0x3B0 ≤ n ∧ n ≤ 0x3EF) then some 0
      else none

/-! ### Writes -/

/-- A write of mstatus under a mask; MPP takes no 2. -/
def VCore.putMstatus (v : VCore) (mask x : Nat) : VCore :=
  let old := v.csrv 0x300
  let new := old - Nat.land old mask + Nat.land x mask
  v.setCsr 0x300 (if natBits new 11 2 = 2 then natSetBits new 11 2 (natBits old 11 2) else new)

/-- A write of satp (R433): MODE 0 or 15; any other has no effect. -/
def VCore.putSatp (v : VCore) (x : Nat) : VCore :=
  match natBits x 60 4 with
  | 0 => v.setCsr 0x180 0
  | 15 => v.setCsr 0x180 (x % 65536 + natBits x 44 20 * 2 ^ 44)
  | _ => v

/-- A write of XVTYPE: ET 6 and 7 leave the field, and XVL is clamped (R440). -/
def VCore.putXvtype (v : VCore) (x : Nat) : VCore :=
  let et := if x % 8 < 6 then x % 8 else v.et
  let v := v.setCsr 0x801 (et + 8 * natBits x 3 1)
  (v.setCsr 0x800 (min v.vl (vlMax et))).dirtyX

/-- What a write does to the core's own CSRs. -/
def VCore.csrPut (v : VCore) (n x : Nat) : VCore :=
  match n with
  | 0x001 => (v.setCsr 3 (natSetBits (v.csrv 3) 0 5 x)).dirtyF
  | 0x002 => (v.setCsr 3 (natSetBits (v.csrv 3) 5 3 x)).dirtyF
  | 0x003 => (v.setCsr 3 (x % 256)).dirtyF
  | 0x800 => (v.setCsr 0x800 (min x (vlMax v.et))).dirtyX
  | 0x801 => v.putXvtype x
  | 0x802 => (v.setCsr 0x802 (Nat.land x 0x3F0)).dirtyX
  | 0x7C0 => v.setCsr n (Nat.land x 0x33)
  | 0x7C1 => v.setCsr n x
  | 0x100 => v.putMstatus sstatusMask x
  | 0x300 => v.putMstatus mstatusMask x
  | 0x104 =>
    let m := Nat.land (v.csrv 0x303) 0xAAA
    v.setCsr 0x304 (v.csrv 0x304 - Nat.land (v.csrv 0x304) m + Nat.land x m)
  | 0x304 => v.setCsr n (Nat.land x 0xAAA)
  | 0x144 =>
    let m := Nat.land (v.csrv 0x303) 2
    v.setCsr 0x344 (v.csrv 0x344 - Nat.land (v.csrv 0x344) m + Nat.land x m)
  | 0x344 => v.setCsr n (Nat.land x 0x222)
  | 0x302 => v.setCsr n (x % 65536)
  | 0x303 => v.setCsr n (x % 65536)
  | 0x105 => v.setCsr n (x - 2 * natBits x 1 1)
  | 0x305 => v.setCsr n (x - 2 * natBits x 1 1)
  | 0x141 => v.setCsr n (x / 2 * 2)
  | 0x341 => v.setCsr n (x / 2 * 2)
  | 0x106 => v.setCsr n (x % 2 ^ 32)
  | 0x306 => v.setCsr n (x % 2 ^ 32)
  | 0x10A => v.setCsr n (x % 2)
  | 0x30A => v.setCsr n (x % 2)
  | 0x180 => v.putSatp x
  | _ => if plainCsr n then v.setCsr n x else v

/-- A write of a CSR; writes of misa, of the PMP registers and of counters that read 0 are discarded. -/
def State.csrWrite (s : State) (core n x : Nat) : State :=
  let s := s.setVcore core ((s.vcore core).csrPut n x)
  if n = 0xB00 then s.setVctr core 0 (x + 2 ^ 64 - s.coreClock (512 + core) % 2 ^ 64)
  else if 0xB02 ≤ n ∧ n ≤ 0xB0A then s.setVctr core (n - 0xB00) x
  else s

/-! ### The end of a work item -/

/-- Has everything ended that the completion of an item waits for (R430)? -/
def State.vquiet (s : State) (core : Nat) : Bool :=
  !s.vstoring core && !s.tmb.reqs.any (fun r => r.src == TmbSrc.vcore core) && !s.tmb.notes.any (fun x => x.src == TmbSrc.vcore core)

/-- The item of a core completes (R430). -/
def State.vitemEnds (s : State) (core : Nat) : State :=
  let v := s.vcore core
  let s := (s.setVcore core {}).setFlag (RF.VCW_STAT_RUNNING core) false
  (s.itemDone v.unit v.item).pumpRestores [core + 512]

/-- A write of XSLITEM (R430, R431): ABORT comes before DONE, and DONE waits until the item's accesses have ended. -/
def State.xslItem (s : State) (core : Nat) (w : BitVec 32) (v' : VCore) (x : Nat) : State :=
  if natBit x 1 then s.vfault core { code := 0x0903, precise := true, detail := detailOf [(52, 2, natBits x 16 16)] }
  else if natBit x 0 then (if s.vquiet core then (s.vretire core w).vitemEnds core else s)
  else (s.setVcore core v').vretire core w

/-! ### The instructions -/

/-- What a CSR instruction writes, from the old value; `none`: it writes nothing. -/
def csrNew (v : VCore) (x old : Nat) : Option Nat :=
  let src := if iF3 x < 4 then v.rx (iRs1 x) else iRs1 x
  match iF3 x % 4 with
  | 1 => some src
  | 2 => if iRs1 x = 0 then none else some (Nat.lor old src)
  | _ => if iRs1 x = 0 then none else some (old - Nat.land old src)

/-- A Zicsr instruction: the old value goes to rd. The instruction retires before its write takes effect. -/
def State.csrInstr (s : State) (core : Nat) (w : BitVec 32) (x : Nat) : State :=
  let v := s.vcore core
  let n := natBits x 20 12
  if iF3 x % 4 = 0 then s.villegal core w
  else match s.csrRead core n with
    | none => s.villegal core w
    | some old =>
      match csrNew v x old with
      | none => (s.setVcore core (v.wx (iRd x) old)).vretire core w
      | some new =>
        if natBits n 10 2 = 3 then s.villegal core w
        else if n = 0x8C0 then s.xslItem core w (v.wx (iRd x) old) new
        else ((s.setVcore core (v.wx (iRd x) old)).vretire core w).csrWrite core n new

/-- VCORE_CSR_ACCESS: a Zicsr instruction. -/
def execVcoreCsrAccess (core : Nat) (w : BitVec 32) (s : State) : Host.Outcome State Fault Refusal :=
  .next (if iOp w.toNat = 0x73 ∧ iF3 w.toNat ≠ 0 then s.vissue core w (fun s x => s.csrInstr core w x) else s)

/-- The value that a word writes to XSLITEM, when it is a CSR instruction that writes XSLITEM. -/
def State.xslItemValue (s : State) (core : Nat) (w : BitVec 32) : Option Nat :=
  let x := w.toNat
  if iOp x = 0x73 ∧ iF3 x % 4 ≠ 0 ∧ natBits x 20 12 = 0x8C0 then csrNew (s.vcore core) x 0 else none

/-- XSLITEM_DONE: a write of XSLITEM with DONE = 1 and ABORT = 0. -/
def execXslitemDone (core : Nat) (w : BitVec 32) (s : State) : Host.Outcome State Fault Refusal :=
  match s.xslItemValue core w with
  | some n => .next (if natBit n 0 && !natBit n 1 then s.vissue core w (fun s x => s.csrInstr core w x) else s)
  | none => .next s

/-- XSLITEM_ABORT: a write of XSLITEM with ABORT = 1. -/
def execXslitemAbort (core : Nat) (w : BitVec 32) (s : State) : Host.Outcome State Fault Refusal :=
  match s.xslItemValue core w with
  | some n => .next (if natBit n 1 then s.vissue core w (fun s x => s.csrInstr core w x) else s)
  | none => .next s

end Sys2Proof.Machine
end

