-- ==== Sys2Proof/Machine/VVec.lean ====
section
/-! DEFINITION. Xslv arithmetic (R437 to R447, Table 9.4). -/

namespace Sys2Proof.Machine

/-! ### Elements and masks -/

/-- Element i of a register's bits (R439). -/
def elemOf (sew reg i : Nat) : Nat := natBits reg (sew * i) sew

/-- Mask register k; m0 is all ones and takes no write (R438). -/
def VCore.mr (v : VCore) (k : Nat) : Nat := if k = 0 then 2 ^ 256 - 1 else kvGet (fun _ => 0) v.m k
def VCore.wm (v : VCore) (k n : Nat) : VCore :=
  VCore.dirtyX (if k = 0 then v else { v with m := kvSet (fun _ => 0) v.m k (n % 2 ^ 256) })

/-- The active elements of an instruction (R440). -/
def VCore.actives (v : VCore) (x : Nat) : List Nat := (List.range v.vl).filter (fun i => natBit (v.mr (xMk x)) i)

/-- Set the listed elements of a register. -/
def putElems (sew : Nat) (reg : Nat) : List (Nat × Nat) → Nat
  | [] => reg
  | (i, n) :: r => putElems sew (natSetBits reg (sew * i) sew n) r

def etFloat (et : Nat) : Bool := decide (et ≤ 1)
def etFmt (et : Nat) : FFmt := if et = 0 then fp32 else fp64
def etSigned (et : Nat) : Bool := et == 2 || et == 3

/-- The second operand s of element i (Table 9.3). -/
def VCore.opS (v : VCore) (x i : Nat) : Nat :=
  let w := sewOf v.et
  match xS2 x with
  | 0 => elemOf w (v.vr (iRs2 x)) i
  | 1 => if v.et = 0 then v.fs (iRs2 x) else v.fr (iRs2 x) % 2 ^ w
  | _ => v.rx (iRs2 x) % 2 ^ w

/-- The effective mode (R250): strict by XVTYPE.STRICT or by the unit. -/
def State.vstrict (s : State) (core : Nat) : Bool :=
  (s.vcore core).strict || (match s.prog (s.vcore core).unit with
    | some p => p.strict
    | none => false)

/-- A result under R248 in fast mode: a NaN is the canonical NaN. -/
def FFmt.inXslv (f : FFmt) (strict : Bool) (r : FRes) : FRes := if strict then r else f.canon r

/-! ### The form of an instruction -/

/-- The operations that round. -/
def xaRounds (op : Nat) : Bool := decide (op ≤ 6) || op == 19 || op == 20

/-- Does the instruction exist: XS and FS are on, its operand selection, element type and rounding mode are defined (R442, R443)? -/
def VCore.xaOk (v : VCore) (x : Nat) (fp int : Bool) : Bool :=
  v.fsOn && v.xsOn && !(xS2 x == 3) && (if etFloat v.et then fp && (decide (v.frm ≤ 4) || !xaRounds (xOp x)) else int)

/-- Cycles with a pipe busy (Table 9.5), and the end of the instruction. -/
def State.xaEnd (s : State) (core : Nat) (w : BitVec 32) (cycles : Nat) : State :=
  ((s.bumpN (RF.VCW_VBUSY_CYCLES core) cycles).addVctr core 5 cycles).vretire core w

/-- An instruction of Table 9.4: `f` gives the core after it, or `none` where it is illegal. -/
def State.xaOp (s : State) (core : Nat) (w : BitVec 32) (op : Nat) (fp int : Bool) (cycles : VCore → Nat)
    (f : Bool → VCore → Nat → Option VCore) : State :=
  if iOp w.toNat = 0x5B ∧ xOp w.toNat = op then
    s.vissue core w (fun s x =>
      let v := s.vcore core
      if v.xaOk x fp int then
        match f (s.vstrict core) v x with
        | some v' => (s.setVcore core v').xaEnd core w (cycles v)
        | none => s.villegal core w
      else s.villegal core w)
  else s

/-- Write the results of the active elements to vd, and accrue their flags. -/
def VCore.putVd (v : VCore) (x sew : Nat) (rs : List (Nat × FRes)) : VCore :=
  (v.wv (iRd x) (putElems sew (v.vr (iRd x)) (rs.map (fun r => (r.1, r.2.bits))))).accrue (rs.foldl (fun a r => Nat.lor a r.2.flags) 0)

/-- An element-wise operation: `fF` and `fI` take vs1, s and vd, the latter with the width and the signedness. -/
def VCore.elementwise (v : VCore) (strict : Bool) (x : Nat) (fF : FFmt → FMode → Nat → Nat → Nat → FRes)
    (fI : Nat → Bool → Nat → Nat → Nat → Nat) : VCore :=
  let w := sewOf v.et
  let f := etFmt v.et
  let m : FMode := { rnd := v.frm, strict := true }
  v.putVd x w ((v.actives x).map (fun i =>
    let a := elemOf w (v.vr (iRs1 x)) i
    let d := elemOf w (v.vr (iRd x)) i
    let b := v.opS x i
    (i, if etFloat v.et then f.inXslv strict (fF f m a b d) else { bits := fI w (etSigned v.et) a b d % 2 ^ w })))

def State.xaEach (s : State) (core : Nat) (w : BitVec 32) (op : Nat) (fp int : Bool) (cycles : VCore → Nat)
    (fF : FFmt → FMode → Nat → Nat → Nat → FRes) (fI : Nat → Bool → Nat → Nat → Nat → Nat) : State :=
  s.xaOp core w op fp int cycles (fun strict v x => some (v.elementwise strict x fF fI))

def oneCycle (_ : VCore) : Nat := 1
def twoCycles (_ : VCore) : Nat := 2
def divCycles (v : VCore) : Nat := if v.et = 0 then 24 else 16

def noFloat (_ : FFmt) (_ : FMode) (_ _ _ : Nat) : FRes := { bits := 0 }
def noInt (_ : Nat) (_ : Bool) (_ _ _ : Nat) : Nat := 0

/-- An order of integers by signedness. -/
def ltInt (w : Nat) (sg : Bool) (a b : Nat) : Bool := if sg then decide (toSigned w a < toSigned w b) else decide (a < b)

/-! ### OP 0 to 14 -/

/-- VADD: vd := vs1 + s. -/
def execVadd (core : Nat) (w : BitVec 32) (s : State) : Host.Outcome State Fault Refusal :=
  .next (s.xaEach core w 0 true true oneCycle (fun f m a b _ => f.add m a b) (fun _ _ a b _ => a + b))

/-- VSUB: vd := vs1 − s. -/
def execVsub (core : Nat) (w : BitVec 32) (s : State) : Host.Outcome State Fault Refusal :=
  .next (s.xaEach core w 1 true true oneCycle (fun f m a b _ => f.sub m a b) (fun n _ a b _ => a + 2 ^ n - b))

/-- VMUL: vd := vs1 × s. -/
def execVmul (core : Nat) (w : BitVec 32) (s : State) : Host.Outcome State Fault Refusal :=
  .next (s.xaEach core w 2 true true oneCycle (fun f m a b _ => f.mul m a b) (fun _ _ a b _ => a * b))

/-- VFMA: vd := vs1 × s + vd, rounded once. -/
def execVfma (core : Nat) (w : BitVec 32) (s : State) : Host.Outcome State Fault Refusal :=
  .next (s.xaEach core w 3 true true oneCycle (fun f m a b d => (f.fma m a b d).fmaFlags (f.decode a) (f.decode b)) (fun _ _ a b d => a * b + d))

/-- VFNMS: vd := vd − vs1 × s, rounded once; a NaN operand keeps its sign. -/
def execVfnms (core : Nat) (w : BitVec 32) (s : State) : Host.Outcome State Fault Refusal :=
  .next (s.xaEach core w 4 true true oneCycle (fun f m a b d =>
      (f.fma m (if (f.decode a).isNan then a else f.negate a) b d).fmaFlags (f.decode a) (f.decode b))
    (fun n _ a b d => d + 2 ^ n - a * b % 2 ^ n))

/-- VDIV: vd := vs1 ÷ s. -/
def execVdiv (core : Nat) (w : BitVec 32) (s : State) : Host.Outcome State Fault Refusal :=
  .next (s.xaEach core w 5 true false divCycles (fun f m a b _ => f.div m a b) noInt)

/-- VSQRT: vd := √vs1; S2 and vs2 are 0. -/
def execVsqrt (core : Nat) (w : BitVec 32) (s : State) : Host.Outcome State Fault Refusal :=
  .next (s.xaOp core w 6 true false divCycles (fun strict v x =>
    if xS2 x = 0 ∧ iRs2 x = 0 then some (v.elementwise strict x (fun f m a _ _ => f.sqrt m a) noInt) else none))

/-- VMIN: by R240, or by signedness. -/
def execVmin (core : Nat) (w : BitVec 32) (s : State) : Host.Outcome State Fault Refusal :=
  .next (s.xaEach core w 7 true true oneCycle (fun f m a b _ => f.minMaxB m false a b) (fun n sg a b _ => if ltInt n sg b a then b else a))

/-- VMAX. -/
def execVmax (core : Nat) (w : BitVec 32) (s : State) : Host.Outcome State Fault Refusal :=
  .next (s.xaEach core w 8 true true oneCycle (fun f m a b _ => f.minMaxB m true a b) (fun n sg a b _ => if ltInt n sg a b then b else a))

/-- VAND. -/
def execVand (core : Nat) (w : BitVec 32) (s : State) : Host.Outcome State Fault Refusal :=
  .next (s.xaEach core w 9 false true oneCycle noFloat (fun _ _ a b _ => Nat.land a b))

/-- VOR. -/
def execVor (core : Nat) (w : BitVec 32) (s : State) : Host.Outcome State Fault Refusal :=
  .next (s.xaEach core w 10 false true oneCycle noFloat (fun _ _ a b _ => Nat.lor a b))

/-- VXOR. -/
def execVxor (core : Nat) (w : BitVec 32) (s : State) : Host.Outcome State Fault Refusal :=
  .next (s.xaEach core w 11 false true oneCycle noFloat (fun _ _ a b _ => Nat.xor a b))

/-- VSLL: by s mod SEW. -/
def execVsll (core : Nat) (w : BitVec 32) (s : State) : Host.Outcome State Fault Refusal :=
  .next (s.xaEach core w 12 false true oneCycle noFloat (fun n _ a b _ => a * 2 ^ (b % n)))

/-- VSRL. -/
def execVsrl (core : Nat) (w : BitVec 32) (s : State) : Host.Outcome State Fault Refusal :=
  .next (s.xaEach core w 13 false true oneCycle noFloat (fun n _ a b _ => a / 2 ^ (b % n)))

/-- VSRA. -/
def execVsra (core : Nat) (w : BitVec 32) (s : State) : Host.Outcome State Fault Refusal :=
  .next (s.xaEach core w 14 false true oneCycle noFloat (fun n _ a b _ => sarAt n a (b % n)))

/-! ### Merge, comparisons, move -/

/-- VMERGE: vd := vs1 where bit i of m[MK] is 1, else s; every i < XVL is written. -/
def execVmerge (core : Nat) (w : BitVec 32) (s : State) : Host.Outcome State Fault Refusal :=
  .next (s.xaOp core w 15 true true oneCycle (fun _ v x =>
    let n := sewOf v.et
    some (v.putVd x n ((List.range v.vl).map (fun i =>
      (i, { bits := if natBit (v.mr (xMk x)) i then elemOf n (v.vr (iRs1 x)) i else v.opS x i }))))))

/-- A comparison: bit i of m[vd[2:0]] := the result for each active i; vd[4:3] are 0. -/
def State.xaCmp (s : State) (core : Nat) (w : BitVec 32) (op fop : Nat) (fI : Nat → Bool → Nat → Nat → Bool) : State :=
  s.xaOp core w op true true oneCycle (fun _ v x =>
    if 8 ≤ iRd x then none
    else
      let n := sewOf v.et
      let rs := (v.actives x).map (fun i =>
        let a := elemOf n (v.vr (iRs1 x)) i
        let b := v.opS x i
        (i, if etFloat v.et then (etFmt v.et).cmpB { strict := true } fop a b else (fI n (etSigned v.et) a b, 0)))
      let m := rs.foldl (fun m r => natSetBits m r.1 1 (if r.2.1 then 1 else 0)) (v.mr (iRd x))
      some ((v.wm (iRd x) m).accrue (rs.foldl (fun a r => Nat.lor a r.2.2) 0)))

/-- VCMPEQ: as FEQ. -/
def execVcmpeq (core : Nat) (w : BitVec 32) (s : State) : Host.Outcome State Fault Refusal :=
  .next (s.xaCmp core w 16 0 (fun _ _ a b => a == b))

/-- VCMPLT: as FLT. -/
def execVcmplt (core : Nat) (w : BitVec 32) (s : State) : Host.Outcome State Fault Refusal :=
  .next (s.xaCmp core w 17 2 (fun n sg a b => ltInt n sg a b))

/-- VCMPLE: as FLE. -/
def execVcmple (core : Nat) (w : BitVec 32) (s : State) : Host.Outcome State Fault Refusal :=
  .next (s.xaCmp core w 18 3 (fun n sg a b => !ltInt n sg b a))

/-- VMV: vd := s. -/
def execVmv (core : Nat) (w : BitVec 32) (s : State) : Host.Outcome State Fault Refusal :=
  .next (s.xaOp core w 25 true true oneCycle (fun _ v x =>
    some (v.putVd x (sewOf v.et) ((v.actives x).map (fun i => (i, { bits := v.opS x i }))))))

/-! ### Reductions -/

/-- Add results one after another: the value, with the flags of every step. -/
def seqAdd (op : Nat → Nat → FRes) : FRes → List Nat → FRes
  | acc, [] => acc
  | acc, b :: r => let t := op acc.bits b; seqAdd op { t with flags := Nat.lor acc.flags t.flags } r

/-- One level of the tree of R303. -/
def pairLevel (op : Nat → Nat → FRes) : List Nat → List Nat × Nat
  | a :: b :: r =>
    let t := op a b
    let (q, fl) := pairLevel op r
    (t.bits :: q, Nat.lor t.flags fl)
  | l => (l, 0)

def treeAdd (op : Nat → Nat → FRes) : Nat → List Nat → FRes
  | 0, l => { bits := l.headD 0 }
  | n + 1, l =>
    match l with
    | [] => { bits := 0 }
    | [a] => { bits := a }
    | _ =>
      let (q, fl) := pairLevel op l
      let t := treeAdd op n q
      { t with flags := Nat.lor fl t.flags }

/-- The step of a reduction on the element type. -/
def VCore.redStep (v : VCore) (strict : Bool) (fF : FFmt → FMode → Nat → Nat → FRes) (fI : Nat → Bool → Nat → Nat → Nat) (a b : Nat) : FRes :=
  let w := sewOf v.et
  let f := etFmt v.et
  if etFloat v.et then f.inXslv strict (fF f { rnd := v.frm, strict := true } a b) else { bits := fI w (etSigned v.et) a b % 2 ^ w }

/-- A reduction into element 0 of vd: `g` combines vd[0] with the active elements of vs1 by the step. -/
def State.xaRed (s : State) (core : Nat) (w : BitVec 32) (op : Nat) (cycles : VCore → Nat) (fF : FFmt → FMode → Nat → Nat → FRes)
    (fI : Nat → Bool → Nat → Nat → Nat) (g : (Nat → Nat → FRes) → Nat → List Nat → FRes) : State :=
  s.xaOp core w op true true cycles (fun strict v x =>
    let n := sewOf v.et
    let es := (v.actives x).map (fun i => elemOf n (v.vr (iRs1 x)) i)
    let d := elemOf n (v.vr (iRd x)) 0
    some (v.putVd x n (if es.isEmpty then [] else [(0, g (v.redStep strict fF fI) d es)])))

/-- VREDOSUM: vd[0] plus the active elements in ascending i. -/
def execVredosum (core : Nat) (w : BitVec 32) (s : State) : Host.Outcome State Fault Refusal :=
  .next (s.xaRed core w 19 (fun v => v.vl) (fun f m a b => f.add m a b) (fun _ _ a b => a + b) (fun op d es => seqAdd op { bits := d } es))

/-- VREDTSUM: vd[0] plus their tree sum (R445). -/
def execVredtsum (core : Nat) (w : BitVec 32) (s : State) : Host.Outcome State Fault Refusal :=
  .next (s.xaRed core w 20 oneCycle (fun f m a b => f.add m a b) (fun _ _ a b => a + b) (fun op d es =>
    let t := treeAdd op es.length es
    let r := op d t.bits
    { r with flags := Nat.lor r.flags t.flags }))

/-- VREDMAX. -/
def execVredmax (core : Nat) (w : BitVec 32) (s : State) : Host.Outcome State Fault Refusal :=
  .next (s.xaRed core w 21 oneCycle (fun f m a b => f.minMaxB m true a b) (fun n sg a b => if ltInt n sg a b then b else a)
    (fun op d es => seqAdd op { bits := d } es))

/-- VREDMIN. -/
def execVredmin (core : Nat) (w : BitVec 32) (s : State) : Host.Outcome State Fault Refusal :=
  .next (s.xaRed core w 22 oneCycle (fun f m a b => f.minMaxB m false a b) (fun n sg a b => if ltInt n sg b a then b else a)
    (fun op d es => seqAdd op { bits := d } es))

/-! ### Slide, convert, population count, first -/

/-- VSLIDE: vd := vs1[i + k], k = x[rs2]; 0 when i + k ≥ XVL. S2 is 2. -/
def execVslide (core : Nat) (w : BitVec 32) (s : State) : Host.Outcome State Fault Refusal :=
  .next (s.xaOp core w 23 true true twoCycles (fun _ v x =>
    if xS2 x = 2 then
      let n := sewOf v.et
      let k := v.rx (iRs2 x)
      some (v.putVd x n ((v.actives x).map (fun i => (i, { bits := if i + k < v.vl then elemOf n (v.vr (iRs1 x)) (i + k) else 0 }))))
    else none))

/-- The value of an element by type. -/
def etVal (et bits : Nat) : FVal :=
  if et = 0 then fp32.decode bits
  else if et = 1 then fp64.decode bits
  else
    let z : Int := if etSigned et then toSigned (sewOf et) bits else (bits : Int)
    .fin (decide (z < 0)) z.natAbs 0

/-- A value converted to an element type; integers saturate (R236, R237). -/
def etConv (m : FMode) (sat strict : Bool) (et : Nat) (x : FVal) : FRes :=
  if etFloat et then (etFmt et).inXslv strict ((etFmt et).convert m sat x)
  else
    let w := sewOf et
    let (lo, hi) : Int × Int := if etSigned et then (- 2 ^ (w - 1), 2 ^ (w - 1) - 1) else (0, 2 ^ w - 1)
    let (z, fl) := toIntSat m lo hi x
    { bits := ofSigned w z, flags := fl }

/-- VCVT: to the type of code vs2[2:0]; types of two widths need XVL of at most 128 (R446). -/
def execVcvt (core : Nat) (w : BitVec 32) (s : State) : Host.Outcome State Fault Refusal :=
  .next (s.xaOp core w 24 true true twoCycles (fun strict v x =>
    let t := iRs2 x % 8
    if 6 ≤ t ∨ 4 < v.frm ∨ (sewOf t ≠ sewOf v.et ∧ 128 < v.vl) then none
    else some (v.putVd x (sewOf t) ((v.actives x).map (fun i =>
      (i, etConv { rnd := v.frm, strict := true } false strict t (etVal v.et (elemOf (sewOf v.et) (v.vr (iRs1 x)) i))))))))

/-- The active elements with their bit of m[vs1[2:0]] set. -/
def VCore.setBits (v : VCore) (x : Nat) : List Nat := (v.actives x).filter (fun i => natBit (v.mr (iRs1 x % 8)) i)

/-- VPOPC: x[vd] := their number. -/
def execVpopc (core : Nat) (w : BitVec 32) (s : State) : Host.Outcome State Fault Refusal :=
  .next (s.xaOp core w 26 true true twoCycles (fun _ v x => some (v.wx (iRd x) (v.setBits x).length)))

/-- VFIRST: x[vd] := the lowest, or −1. -/
def execVfirst (core : Nat) (w : BitVec 32) (s : State) : Host.Outcome State Fault Refusal :=
  .next (s.xaOp core w 27 true true twoCycles (fun _ v x => some (v.wx (iRd x) (match v.setBits x with
    | [] => 2 ^ 64 - 1
    | i :: _ => i))))

end Sys2Proof.Machine
end

