-- ==== Sys2Proof/Machine/VMat.lean ====
section
/-! DEFINITION. Xslm (R463 to R465, Table 9.7). -/

namespace Sys2Proof.Machine

/-- The format of a source element: FP64, FP32, BF16, FP16, E4M3, E5M2. -/
def xmFmt (n : Nat) : FFmt :=
  match n with
  | 0 => fp64
  | 1 => fp32
  | 2 => bf16
  | 3 => fp16
  | 4 => e4m3
  | _ => e5m2

/-- The largest K of a format (R464). -/
def xmLimit (n : Nat) : Nat := 1024 / (xmFmt n).width

def VCore.xaCell (v : VCore) (t r c : Nat) : Nat := kvGet (fun _ => 0) v.xa (64 * t + 8 * r + c)
def VCore.setCell (v : VCore) (t r c n : Nat) : VCore := { v with xa := kvSet (fun _ => 0) v.xa (64 * t + 8 * r + c) (n % 2 ^ 64) }

/-- The 64 cells, (row, column). -/
def xmCells : List (Nat × Nat) := (List.range 8).flatMap (fun r => (List.range 8).map (fun c => (r, c)))

/-- An instruction of Table 9.7: `f` gives the core after it, or `none` where it is illegal; the unit is busy for `cycles`. -/
def State.xmInstr (s : State) (core : Nat) (w : BitVec 32) (op : Nat) (cycles : VCore → Nat → Nat)
    (f : Bool → VCore → Nat → Option VCore) : State :=
  if iOp w.toNat = 0x7B ∧ xOp w.toNat = op then
    s.vissue core w (fun s x =>
      let v := s.vcore core
      match (if v.fsOn && v.xsOn then f (s.vstrict core) v x else none) with
      | some v' =>
        let n := cycles v x
        (((s.setVcore core v').bumpN (RF.VCW_MBUSY_CYCLES core) n).addVctr core 6 n).vretire core w
      | none => s.villegal core w)
  else s

/-- One cell of an outer product: a chain of fma in ascending k, with the flags of every step. -/
def xmChain (m : FMode) (strict : Bool) : List (FVal × FVal) → FRes → FRes
  | [], acc => acc
  | (a, b) :: r, acc =>
    let t := fp64.inXslv strict ((fp64.fmaV m a b (fp64.decode acc.bits)).fmaFlags a b)
    xmChain m strict r { t with flags := Nat.lor acc.flags t.flags }

/-- XMOP: xa[T] := xa[T] + the outer products of K column and row pairs. -/
def execXmop (core : Nat) (w : BitVec 32) (s : State) : Host.Outcome State Fault Refusal :=
  .next (s.xmInstr core w 0 (fun v x => v.rx (iRd x)) (fun strict v x =>
    let n := iF3 x
    let k := v.rx (iRd x)
    if 6 ≤ n ∨ k = 0 ∨ xmLimit n < k ∨ 4 < v.frm then none
    else
      let f := xmFmt n
      let at_ := fun (reg i : Nat) => f.decode (natBits reg (f.width * i) f.width)
      some (xmCells.foldl (fun u rc =>
        let ps := (List.range k).map (fun j => (at_ (v.vr (iRs1 x)) (8 * j + rc.1), at_ (v.vr (iRs2 x)) (8 * j + rc.2)))
        let y := xmChain { rnd := v.frm, strict := true } strict ps { bits := v.xaCell (xT x) rc.1 rc.2 }
        (u.setCell (xT x) rc.1 rc.2 y.bits).accrue y.flags) v.dirtyX)))

/-- XMZERO: every cell of xa[T] := +0. -/
def execXmzero (core : Nat) (w : BitVec 32) (s : State) : Host.Outcome State Fault Refusal :=
  .next (s.xmInstr core w 1 (fun _ _ => 1) (fun _ v x =>
    if iRd x = 0 ∧ iF3 x = 0 ∧ iRs1 x = 0 ∧ iRs2 x = 0 then some (xmCells.foldl (fun u rc => u.setCell (xT x) rc.1 rc.2 0) v.dirtyX)
    else none))

/-- XMRD: elements 0 to 63 of vd := the cells. -/
def execXmrd (core : Nat) (w : BitVec 32) (s : State) : Host.Outcome State Fault Refusal :=
  .next (s.xmInstr core w 2 (fun _ _ => 8) (fun _ v x =>
    if iF3 x = 0 ∧ iRs1 x = 0 ∧ iRs2 x = 0 then
      some (v.wv (iRd x) (putElems 64 (v.vr (iRd x)) (xmCells.map (fun rc => (8 * rc.1 + rc.2, v.xaCell (xT x) rc.1 rc.2)))))
    else none))

/-- XMWR: the cells := elements 0 to 63 of vs1. -/
def execXmwr (core : Nat) (w : BitVec 32) (s : State) : Host.Outcome State Fault Refusal :=
  .next (s.xmInstr core w 3 (fun _ _ => 8) (fun _ v x =>
    if iRd x = 0 ∧ iF3 x = 0 ∧ iRs2 x = 0 then
      some (xmCells.foldl (fun u rc => u.setCell (xT x) rc.1 rc.2 (elemOf 64 (v.vr (iRs1 x)) (8 * rc.1 + rc.2))) v.dirtyX)
    else none))

end Sys2Proof.Machine
end

