-- ==== Sys2Proof/Machine/VSys.lean ====
section
/-! DEFINITION. Work items on V-cores (R426 to R429), their preemption, save and restore (R477 to R481), fences (R425, R436, R471), and the
tumbler instructions of a V-core (R661 to R663). -/

namespace Sys2Proof.Machine

/-! ### Work items -/

/-- The core at the start of an item (R429, Table 9.2); a CSR takes of the descriptor's value what a write of it would leave. -/
def startItem (p : FrameProg) (unitPrio core item : Nat) : VCore :=
  let d := p.desc
  let v : VCore := { running := true, unit := p.unit, ctx := p.ctx, item := item, prio := unitPrio, pc := (p.entry + 32) % 2 ^ 64,
                     mode := dNat d 0 1 % 4 }
  let v := (((v.wx 10 item).wx 11 p.args).wx 12 core).wx 13 p.items
  let v := (v.setMs 13 2 1).setMs 15 2 1
  ((((v.csrPut 0x305 (dNat d 8 8)).csrPut 0x105 (dNat d 24 8 % 2 ^ 63)).csrPut 0x180 (dNat d 16 8)).csrPut 0x302 (dNat d 4 2)).csrPut 0x303 (dNat d 6 2)

/-- VCORE_ITEM_START: a work item starts on its core, which runs no other. -/
def execVcoreItemStart (unit item : Nat) (s : State) : Host.Outcome State Fault Refusal :=
  match s.itemCore unit item true with
  | some (p, c) =>
    let core := c - 512
    if (s.vcore core).running || s.vdead core then .next s
    else
      let v := startItem p (s.prioOf unit) core item
      .next ((((s.setVcore core v).setFlag (RF.VCW_STAT_RUNNING core) true).setFld (RF.VCW_STAT_PRIV core) v.mode).itemIssued unit item)
  | none => .next s

/-! ### Preemption -/

/-- A V-core stops at an instruction boundary: a translation phase and a TWAIT are abandoned (R460, R663), a trap not yet taken is raised again
when the instruction runs again, and a reservation is lost (R424). -/
def State.stopVcore (s : State) (core : Nat) : State :=
  let s := if (s.vcore core).twait.isSome then s.withdrawWaits (.vcore core) else s
  let v := s.vcore core
  let x := match v.xslv with
    | some x => if x.acc.isSome then some x else none
    | none => none
  s.setVcore core { v with stopped := true, twait := none, xslv := x, trap := none, resv := none, gap := none, missed := [] }

/-- V_PREEMPT: a preemption request reaches a V-core (R477). -/
def execVPreempt (core : Nat) (s : State) : Host.Outcome State Fault Refusal :=
  match s.preempts.find? (fun p => p.1 == core + 512) with
  | some (_, unit) =>
    if core < 128 ∧ s.alive then
      let s := { s with
        preempts := s.preempts.filter (fun p => !(p == (core + 512, unit)))
        vc := { s.vc with moves := s.vc.moves.filter (fun m => !(m.core == core && m.unit == unit && m.stage == 3)) } }
      let s := s.setFlag (RF.VCW_STAT_RESTORING core) false
      let v := s.vcore core
      if !(v.running && v.unit == unit) || (s.moveOn (core + 512)).isSome then .next (s.syncClock unit)
      else
        let s := s.stopVcore core
        let s := { s with vc := { s.vc with moves := s.vc.moves ++ [({ core := core, unit := unit, stage := 1, since := s.now } : TMove)] } }
        .next ((s.setFlag (RF.VCW_STAT_SAVING core) true).syncClock unit)
    else .next s
  | none => .next s

/-- The parts of a V-core's save slot (Table 9.9). -/
def vSaveParts : List (Nat × Nat) := [(0, 4096), (0x1000, 32768), (0x9000, 2048)]

def State.vSaveBase (s : State) (core p : Nat) : Nat :=
  s.fld (RF.VCW_SAVE_BASE_LO_BASE core p) * 4096 + 2 ^ 32 * s.fld (RF.VCW_SAVE_BASE_HI_BASE core p)

/-- Fault 0x0906 (R481); slot p is free. -/
def State.vSaveFail (s : State) (core unit p dir : Nat) : State :=
  ((s.bump (RF.VCW_FAULTS_COUNT core)).setFlag (RF.VCW_STAT_FAULTED core) true).terminate unit
    { code := 0x0906, srcKind := 3, srcId := core, detail := detailOf [(52, 1, p), (53, 1, dir)] }

/-- The bytes of a save: the first region has no layout in the spec, so its bytes are free values. -/
def State.vSaveImage (s : State) (v : VCore) : List (Nat × List Byte) × State :=
  let (h, s) := s.freeBytes 4096
  ([(0, h), (0x1000, (List.range 32).flatMap (fun r => leBytes 1024 (v.vr r))),
    (0x9000, (List.range 256).flatMap (fun i => leBytes 8 (kvGet (fun _ => 0) v.xa i)))], s)

/-- V_SAVE_DONE: after the drain, the core's state has been written to its slot, or the save fails (R478, R479, R481). -/
def execVSaveDone (core : Nat) (s : State) : Host.Outcome State Fault Refusal :=
  match s.vc.moves.find? (fun m => m.core == core && m.stage == 1) with
  | some m =>
    match s.prog m.unit with
    | some p =>
      let prio := s.prioOf m.unit
      let base := s.vSaveBase core prio
      let v := s.vcore core
      if !s.alive || v.xslv.isSome || v.waitTmb || !s.vquiet core then .next s
      else if base = 0 then .next (s.vSaveFail core m.unit prio 0)
      else
        match s.slotXlt m.unit p.ctx 1 base vSaveParts with
        | 0 =>
          if !s.sealOk m.unit p.ctx base 65536 then .next (s.vSaveFail core m.unit prio 0)
          else
            let (image, s) := s.vSaveImage v
            let s := s.putParts (512 + core) m.unit p.ctx base image
            let s := { s with vc := { s.vc with
              saves := kvSet (fun _ => none) s.vc.saves (core * 8 + prio) (some { v with trap := none })
              moves := s.vc.moves.erase m } }
            let s := s.setVcore core {}
            let s := s.setFld (RF.VCW_SAVED_SLOT core) (natSetBits (s.fld (RF.VCW_SAVED_SLOT core)) prio 1 1)
            let s := (s.setFlag (RF.VCW_STAT_SAVING core) false).setFlag (RF.VCW_STAT_RUNNING core) false
            .next (s.pumpRestores [core + 512])
        | 1 => .next (s.noteSlot m.unit p.ctx 1 base vSaveParts)
        | _ => .next (s.vSaveFail core m.unit prio 0)
    | none => .next s
  | none => .next s

/-- A saved core with what the slot's bytes say of v0 to v31 and of xa0 to xa3 (Table 9.9). -/
def VCore.fromSlot (v : VCore) (img : List (Nat × List Byte)) : VCore :=
  { v with
    v := (List.range 32).foldl (fun m r => kvSet (fun _ => 0) m r (dNat (partAt img 0x1000) (1024 * r) 1024)) []
    xa := (List.range 256).foldl (fun m i => kvSet (fun _ => 0) m i (dNat (partAt img 0x9000) (8 * i) 8)) [] }

/-- V_RESTORE_DONE: a saved item has been read back, or the restore fails (R480, R481). `ext` is what the slot's parts outside device memory hold, and
`poison` says that one of them is poisoned. -/
def execVRestoreDone (core : Nat) (ext : List Byte) (poison : Bool) (s : State) : Host.Outcome State Fault Refusal :=
  match s.vc.moves.find? (fun m => m.core == core && m.stage == 3) with
  | some m =>
    let prio := s.prioOf m.unit
    match s.prog m.unit, kvGet (fun _ => none) s.vc.saves (core * 8 + prio) with
    | some p, some v =>
      let base := s.vSaveBase core prio
      if !s.alive || !(v.unit == m.unit) then .next s
      else if base = 0 then .next (s.vSaveFail core m.unit prio 1)
      else
        match s.slotXlt m.unit p.ctx 0 base vSaveParts with
        | 0 =>
          if !(ext.length == s.slotAway m.unit p.ctx base vSaveParts) then .next s else
          let (s, bytes, bad) := s.getRuns m.unit p.ctx (slotRuns base vSaveParts) ext
          if bad || (poison && !ext.isEmpty) then .next (s.vSaveFail core m.unit prio 1)
          else
            let s := { s with vc := { s.vc with
              saves := kvSet (fun _ => none) s.vc.saves (core * 8 + prio) none
              moves := s.vc.moves.erase m } }
            let s := s.setFld (RF.VCW_SAVED_SLOT core) (natSetBits (s.fld (RF.VCW_SAVED_SLOT core)) prio 1 0)
            let v := v.fromSlot (partBytes vSaveParts bytes)
            let s := s.setVcore core { v with stopped := false }
            .next ((((s.setFlag (RF.VCW_STAT_RESTORING core) false).setFlag (RF.VCW_STAT_RUNNING core) true).setFld (RF.VCW_STAT_PRIV core) v.mode).syncClock
              m.unit)
        | 1 => .next (s.noteSlot m.unit p.ctx 0 base vSaveParts)
        | _ => .next (s.vSaveFail core m.unit prio 1)
    | _, _ => .next s
  | none => .next s

/-! ### Fences -/

/-- VCORE_FENCE: one that names I or O orders at system scope, and waits for every access of the core on its way; any other orders at
device scope, and waits for its reductions (R425). -/
def execVcoreFence (core : Nat) (w : BitVec 32) (s : State) : Host.Outcome State Fault Refusal :=
  let x := w.toNat
  let io := natBit x 27 || natBit x 26 || natBit x 23 || natBit x 22
  .next (if iOp x = 0x0F ∧ iF3 x ≠ 1 then s.vissue core w (fun s _ =>
    if iF3 x ≠ 0 then s.villegal core w
    else if (if io then s.vstoring core else s.vreducing core) then s
    else s.vretire core w) else s)

/-- FENCE_I: L1I is invalidated (R471). -/
def execFenceI (core : Nat) (w : BitVec 32) (s : State) : Host.Outcome State Fault Refusal :=
  .next (if iOp w.toNat = 0x0F ∧ iF3 w.toNat = 1 then s.vissue core w (fun s _ => (s.flushL1i core).vretire core w) else s)

/-- Invalidate the entries of a core's range cache for an ASID, or all, that hold an address, or all. -/
def State.sfence (s : State) (core : Nat) (asid va : Option Nat) : State :=
  let hit := fun (e : RcEnt) =>
    (match asid with
      | some a => e.asid == a
      | none => true) &&
    (match va with
      | some a => match s.rangeAt e.unit e.ctx a with
        | some r => e.holds r
        | none => false
      | none => true)
  let q : Requester := { kind := 3, id := core }
  s.setRcache q ((s.rcache q).filter (fun e => !hit e))

/-- SFENCE_VMA (R436): rs1 and rs2 = x0 stand for every address and every ASID. -/
def execSfenceVma (core : Nat) (w : BitVec 32) (s : State) : Host.Outcome State Fault Refusal :=
  let x := w.toNat
  .next (if iOp x = 0x73 ∧ iF3 x = 0 ∧ iF7 x = 9 then s.vissue core w (fun s x =>
    let v := s.vcore core
    if iRd x ≠ 0 ∨ v.mode = 0 ∨ (v.mode = 1 ∧ v.ms 20 1 = 1) then s.villegal core w
    else
      let asid := if iRs2 x = 0 then none else some (v.rx (iRs2 x) % 65536)
      let va := if iRs1 x = 0 then none else some (v.rx (iRs1 x))
      (s.sfence core asid va).vretire core w) else s)

/-! ### Tumblers (Table 13.3) -/

/-- The request of a V-core's instruction, or how it fails: an undefined form, or a number outside its unit's range (R662). -/
def State.vtmb (s : State) (core : Nat) (w : BitVec 32) (op : Nat) (f : State → Nat → TmbReq → State) : State :=
  if iOp w.toNat = 0x2B ∧ iF3 w.toNat = op then
    s.vissue core w (fun s x =>
      let v := s.vcore core
      let a := v.rx (iRs1 x)
      let n := a % 2 ^ 32
      let (base, cnt) := match s.unitEnt v.unit with
        | some u => (u.tmbBase, u.tmbCount)
        | none => (0, 0)
      if natBits x 27 5 ≠ 0 then s.villegal core w
      else if 32768 ≤ n ∨ (op ≠ 2 ∧ 2 ^ 32 ≤ a) ∨ n < base ∨ base + cnt ≤ n then
        s.vfault core { code := 0x0D03, precise := true, detail := detailOf [(52, 4, n)] }
      else
        f s x { src := .vcore core, kind := 3, id := core, op := .arrive, tmb := n, operand := v.rx (iRs2 x) % 2 ^ 32, unit := v.unit, dest := iRd x,
                pc := v.pc, after := s.nextAcc, sys := natBit x 26, acq := natBit x 25 })
  else s

/-- Send an operation and wait for its reply; pc has moved on. -/
def State.vtmbSend (s : State) (core : Nat) (w : BitVec 32) (r : TmbReq) : State :=
  let s := (s.sendTmb r).vretire core w
  s.setVcore core { s.vcore core with waitTmb := true }

/-- TARV: ARRIVE with weight x[rs2]; rd := 0. -/
def execTarv (core : Nat) (w : BitVec 32) (s : State) : Host.Outcome State Fault Refusal :=
  .next (s.vtmb core w 0 (fun s _ r => s.vtmbSend core w r))

/-- TPOLL: rd := the state word. -/
def execTpoll (core : Nat) (w : BitVec 32) (s : State) : Host.Outcome State Fault Refusal :=
  .next (s.vtmb core w 1 (fun s _ r => s.vtmbSend core w { r with op := .poll }))

/-- TWAIT: pc stays at it until it ends, and its timeout is x[rs1][63:32] core cycles. -/
def execTwait (core : Nat) (w : BitVec 32) (s : State) : Host.Outcome State Fault Refusal :=
  .next (s.vtmb core w 2 (fun s x r =>
    let v := s.vcore core
    let t := v.rx (iRs1 x) / 2 ^ 32
    let s := s.sendTmb { r with op := .wait }
    s.setVcore core { s.vcore core with twait := some (r.tmb, iRd x, if t = 0 then none else some (s.coreClock (512 + core) + t)) }))

/-- TTAKE: rd[31:0] := the token and rd[32] := 1; rd := 0 when the queue is empty. -/
def execTtake (core : Nat) (w : BitVec 32) (s : State) : Host.Outcome State Fault Refusal :=
  .next (s.vtmb core w 3 (fun s _ r => s.vtmbSend core w { r with op := .take }))

/-- TPUT: rd := 1 when the token is put, 0 when the queue is full. -/
def execTput (core : Nat) (w : BitVec 32) (s : State) : Host.Outcome State Fault Refusal :=
  .next (s.vtmb core w 4 (fun s _ r => s.vtmbSend core w { r with op := .put }))

end Sys2Proof.Machine
end

