-- ==== Sys2Proof/Machine/VMem.lean ====
section
/-! DEFINITION. The scalar memory instructions of a V-core (R422 to R424, R466 to R476). Device memory goes through L2; a miss sends a request, and the
instruction goes on once its lines are there. -/

namespace Sys2Proof.Machine

/-! ### Prefetch (R472 to R474) -/

/-- Prefetch the line of an address into L2 when the address translates to device memory the core may read. -/
def State.vprefetch (s : State) (core va : Nat) : State :=
  let v := s.vcore core
  let ctx := v.ctxOf 0
  match s.rangeAt v.unit ctx va with
  | some r =>
    match r.vtarget v 0 va with
    | .dev _ =>
      let id := lineOf v.unit ctx va
      if (s.l2At core id).isSome || s.l2Asked core id || decide (2 ^ 57 ≤ va) then s
      else (s.addVctr core 7 1).sendDir { core := core, line := id, op := 0, pf := true }
    | _ => s
  | none => s

/-- Next-line prefetch: the line after the missing one, in its 4 KiB block and its range. -/
def State.nextLine (s : State) (core va : Nat) : State :=
  let v := s.vcore core
  let next := va / 128 * 128 + 128
  if natBit (v.csrv 0x7C0) 0 && next / 4096 == va / 4096 then s.vprefetch core next else s

def strideOk (d : Int) : Bool := decide (d ≠ 0) && decide (d.natAbs ≤ 2048)

/-- The stride detector: eight slots keyed by PC, the most recently used first. -/
def State.strides (s : State) (core va : Nat) : State :=
  let v := s.vcore core
  if natBit (v.csrv 0x7C0) 1 then
    let ss := kvGet (fun _ => []) s.vc.streams core
    let (x, rest) : Stream × List Stream := match ss.find? (fun x => x.pc == v.pc) with
      | some x =>
        let d : Int := (va : Int) - x.last
        ({ x with last := va, stride := d, seen := if x.seen = 1 then 2 else if d = x.stride then x.seen + 1 else 2 }, ss.erase x)
      | none => ({ pc := v.pc, last := va }, ss)
    let s := { s with vc := { s.vc with streams := kvSet (fun _ => []) s.vc.streams core ((x :: rest).take 8) } }
    if 3 ≤ x.seen ∧ strideOk x.stride then
      (List.range (natBits (v.csrv 0x7C0) 4 2 + 1)).foldl (fun s (k : Nat) =>
        let a : Int := (va : Int) + x.stride * ((k : Int) + 1)
        if 0 ≤ a then s.vprefetch core a.toNat else s) s
    else s
  else s

/-- An L1D demand miss is counted once for an instruction and a line, and may prefetch. -/
def State.l1Miss (s : State) (core va : Nat) : State :=
  let v := s.vcore core
  let id := lineOf v.unit (v.ctxOf 0) va
  if v.missed.contains id then s
  else
    let s := ((s.bump (RF.VCW_L1MISS_COUNT core)).addVctr core 3 1).setVcore core { v with missed := v.missed ++ [id] }
    (s.nextLine core va).strides core va

/-! ### Lines of a scalar access -/

/-- The runs of an access within one line each: address and length. -/
def lineRuns (va len : Nat) : List (Nat × Nat) := (pieces va len).map (fun p => (p.1 * 65536 + p.2.1 * 128 + p.2.2.1, p.2.2.2))

/-- Make the lines of an access serve it: each that L2 holds as the access needs it is prepared by `use`, each other is asked for. Do all serve? -/
def State.withLines (s : State) (core ctx va len : Nat) (wr : Bool) (use miss : State → Nat → Nat → State) : State × Bool :=
  let v := s.vcore core
  (lineRuns va len).foldl (fun acc p =>
    let id := lineOf v.unit ctx p.1
    if acc.1.l2Serves core id wr then (use acc.1 id p.1, acc.2) else ((miss acc.1 id p.1).l2Ask core id wr, false)) (s, true)

/-- A scalar access uses a line that L2 serves: L1D hits it, or misses and takes it from L2 (R466, R468). -/
def State.l1Use (s : State) (core id va : Nat) : State :=
  match s.l1dAt core id with
  | some y =>
    let (n, s) := s.nextUse
    s.setL1d core id (some { y with used := n })
  | none => ((s.l1Miss core va).l2Used core id).fillL1d core id

/-- The lines of a load or store, in L1D. -/
def State.vlines (s : State) (core ctx va len : Nat) (wr : Bool) : State × Bool :=
  s.withLines core ctx va len wr (fun s id va => s.l1Use core id va) (fun s id va => if (s.l1dAt core id).isNone then s.l1Miss core va else s)

/-- The lines of an atomic, in L2, which performs it (R423). -/
def State.l2Lines (s : State) (core ctx va len : Nat) (wr : Bool) : State × Bool :=
  s.withLines core ctx va len wr (fun s id _ => s.l2Claim core id wr) (fun s _ _ => s)

/-- The bytes of a load whose lines are in L1D, and whether any is poisoned. -/
def State.l1Read (s : State) (core ctx va len : Nat) : List Byte × Bool :=
  let v := s.vcore core
  (lineRuns va len).foldl (fun acc p => match s.l1dAt core (lineOf v.unit ctx p.1) with
    | some y => (acc.1 ++ (y.data.drop (p.1 % 128)).take p.2, acc.2 || y.poison)
    | none => (acc.1 ++ List.replicate p.2 (0 : Byte), acc.2)) ([], false)

/-- Write bytes to lines in L1D, which L2 holds in M or E; E becomes M. -/
def State.l1Write (s : State) (core ctx va : Nat) (bs : List Byte) : State :=
  let v := s.vcore core
  ((lineRuns va bs.length).foldl (fun (acc : State × List Byte) p =>
    let id := lineOf v.unit ctx p.1
    match acc.1.l1dAt core id, acc.1.l2At core id with
    | some y, some x =>
      ((acc.1.setL2 core id (some { x with st := .m })).setL1d core id (some { y with data := patch y.data (p.1 % 128) (acc.2.take p.2), dirty := true }),
        acc.2.drop p.2)
    | _, _ => (acc.1, acc.2.drop p.2)) (s, bs)).1

/-- The bytes of an access whose lines are in L2, and whether any is poisoned. -/
def State.vread (s : State) (core ctx va len : Nat) : List Byte × Bool :=
  let v := s.vcore core
  (lineRuns va len).foldl (fun acc p => match s.l2At core (lineOf v.unit ctx p.1) with
    | some x => (acc.1 ++ (x.data.drop (p.1 % 128)).take p.2, acc.2 || x.poison)
    | none => (acc.1 ++ List.replicate p.2 (0 : Byte), acc.2)) ([], false)

/-- Write bytes to lines that L2 holds in M or E; E becomes M. -/
def State.vwrite (s : State) (core ctx va : Nat) (bs : List Byte) : State :=
  let v := s.vcore core
  ((lineRuns va bs.length).foldl (fun (acc : State × List Byte) p =>
    let id := lineOf v.unit ctx p.1
    match acc.1.l2At core id with
    | some x => (acc.1.setL2 core id (some { x with
        st := .m
        data := patch x.data (p.1 % 128) (acc.2.take p.2)
        poison := x.poison && decide (p.2 < 128) }), acc.2.drop p.2)
    | none => (acc.1, acc.2.drop p.2)) (s, bs)).1

/-- An access of the core to some of the bytes is on its way. -/
def State.vbytesBusy (s : State) (core ctx va len : Nat) : Bool :=
  s.accs.any (fun p => match p.2 with
    | some a => !a.tcore && a.core == core && a.ctx == ctx
        && a.lanes.any (fun l => !l.performed && decide (l.va < va + len) && decide (va < l.va + l.size))
    | none => false)

/-- A poisoned line is read: 0x0904 (R457, R475). -/
def State.vpoison (s : State) (core va kind : Nat) : State :=
  s.vfault core { code := 0x0904, addr := va, detail := detailOf [(52, 1, kind)] }

/-! ### Access to the host and to remote devices -/

/-- Issue a scalar access that leaves the device: a store to host memory is posted, anything else is on its way. -/
def State.vissueAcc (s : State) (core : Nat) (w : BitVec 32) (x ctx kind va size aop ty : Nat) (data : List Byte) : State :=
  let v := s.vcore core
  let id := s.nextAcc
  let l : AccLane := { lane := 0, va := va, size := size, data := data }
  let a : Acc := { tcore := false, core := core, slot := 0, pc := v.pc, unit := v.unit, ctx := ctx, item := v.item, kind := kind,
                   w0 := BitVec.ofNat 64 x, w1 := BitVec.ofNat 64 (iLen w), aop := aop, ty := ty, lanes := [l], issued := s.now }
  match State.performLane { s with nextAcc := id + 1 } id a l with
  | some (t, l') => if l'.performed then t else t.setAcc id (some { a with lanes := [l'] })
  | none => State.setAcc { s with nextAcc := id + 1 } id (some a)

/-! ### Loads and stores -/

/-- A scalar access, decoded: `access` as in Table 12.3, its address, size, and what a store writes. -/
structure VMemOp where
  access : Nat
  va : Nat
  size : Nat
  data : List Byte
  deriving DecidableEq, Repr

/-- Decode a load or store; `none`: undefined, or floating-point with FS off. -/
def VCore.memOp (v : VCore) (x : Nat) : Option VMemOp :=
  let la := u64 ((v.rx (iRs1 x) : Int) + immI x)
  let sa := u64 ((v.rx (iRs1 x) : Int) + immS x)
  let f3 := iF3 x
  match iOp x with
  | 0x03 => if f3 = 7 then none else some ⟨0, la, 2 ^ (f3 % 4), []⟩
  | 0x07 => if v.fsOn && (f3 == 2 || f3 == 3) then some ⟨0, la, 2 ^ f3, []⟩ else none
  | 0x23 => if 4 ≤ f3 then none else some ⟨1, sa, 2 ^ f3, leBytes (2 ^ f3) (v.rx (iRs2 x))⟩
  | 0x27 => if v.fsOn && (f3 == 2 || f3 == 3) then some ⟨1, sa, 2 ^ f3, leBytes (2 ^ f3) (v.fr (iRs2 x))⟩ else none
  | _ => none

/-- A load or store whose address leads to device memory. -/
def State.vdevAccess (s : State) (core : Nat) (w : BitVec 32) (x ctx : Nat) (o : VMemOp) (err : Nat) : State :=
  let (s, here) := s.vlines core ctx o.va o.size (o.access == 1)
  if !here then s
  else
    let id := lineOf (s.vcore core).unit ctx o.va
    let s := s.cacheErr core id err
    -- an error that takes the line, or the core, leaves the instruction to run again
    if !(s.vcore core).running || !s.l2Serves core id (o.access == 1) || (s.l1dAt core id).isNone then s
    else if o.access = 0 then
      let (bs, bad) := s.l1Read core ctx o.va o.size
      if bad then s.vpoison core o.va 0
      else (s.setVcore core ((s.vcore core).deliver x (leNat bs))).vretire core w
    else (s.l1Write core ctx o.va o.data).vretire core w

/-- A load or store (R422). -/
def State.vloadStore (s : State) (core : Nat) (w : BitVec 32) (x err : Nat) : State :=
  let v := s.vcore core
  match v.memOp x with
  | none => s.villegal core w
  | some o =>
    let ctx := v.ctxOf o.access
    match s.vlookRun core o.access o.va o.size with
    | (s, .fail k, va) => s.vaccFail core o.access k va (v.range15 o.access) none
    | (s, .wait, _) => s
    | (s, t, _) =>
      if s.vbytesBusy core ctx o.va o.size then s
      else if t.isDev then s.vdevAccess core w x ctx o err
      else if !(o.va % o.size == 0) then s.vaccFail core o.access 3 o.va false none
      else
        let s' := s.vissueAcc core w x ctx o.access o.va o.size 0 0 o.data
        if o.access = 0 then s' else s'.vretire core w

/-- VCORE_LOAD_STORE: a scalar load or store; `err` is what the caches' arrays report. -/
def execVcoreLoadStore (core : Nat) (w : BitVec 32) (err : Nat) (s : State) : Host.Outcome State Fault Refusal :=
  match iWide w with
  | some x =>
    .next (if iOp x = 0x03 ∨ iOp x = 0x07 ∨ iOp x = 0x23 ∨ iOp x = 0x27 then s.vissue core w (fun s x => s.vloadStore core w x err) else s)
  | none => .next s

/-! ### Atomics -/

/-- Bytes of an atomic; funct3 is 2 or 3. -/
def amoSize (x : Nat) : Nat := 2 ^ iF3 x

/-- The checks LR, SC and AMO share: the form, alignment, translation; `f` goes on with where the address leads. -/
def State.vatomic (s : State) (core : Nat) (w : BitVec 32) (x access : Nat) (f : State → Xl → State) : State :=
  let v := s.vcore core
  let va := v.rx (iRs1 x)
  if !(iF3 x == 2 || iF3 x == 3) then s.villegal core w
  else if !(va % amoSize x == 0) then s.vaccFail core access 3 va false none
  else
    match s.vlook core access va with
    | (s, .fail k) => s.vaccFail core access k va (v.range15 access) none
    | (s, .wait) => s
    | (s, t) => if s.vbytesBusy core (v.ctxOf access) va (amoSize x) then s else f s t

/-- Prepare an atomic's lines in L2, with what the arrays report of them: `f` goes on when the core and the lines are still there. -/
def State.l2Atomic (s : State) (core ctx va len : Nat) (wr : Bool) (err : Nat) (f : State → State) : State :=
  let id := lineOf (s.vcore core).unit ctx va
  let (s, here) := s.l2Lines core ctx va len wr
  if !here then s
  else
    let s := s.cacheErr core id err
    if !(s.vcore core).running || !s.l2Serves core id wr then s else f s

/-- LR: the value is loaded, and its line reserved. -/
def State.vlr (s : State) (core : Nat) (w : BitVec 32) (x err : Nat) : State :=
  let v := s.vcore core
  let va := v.rx (iRs1 x)
  if iRs2 x ≠ 0 then s.villegal core w
  else s.vatomic core w x 0 (fun s t =>
    if t.isDev then
      let ctx := v.ctxOf 0
      s.l2Atomic core ctx va (amoSize x) false err (fun s =>
        let (bs, bad) := s.vread core ctx va (amoSize x)
        if bad then s.vpoison core va 0
        else
          let u := (s.vcore core).deliver x (leNat bs)
          (s.setVcore core { u with resv := some (lineOf u.unit ctx va) }).vretire core w)
    else s.vaccFail core 0 2 va false none)

/-- LR; `err` is what the caches' arrays report. -/
def execLr (core : Nat) (w : BitVec 32) (err : Nat) (s : State) : Host.Outcome State Fault Refusal :=
  .next (if iOp w.toNat = 0x2F ∧ iRs3 w.toNat = 2 then s.vissue core w (fun s x => s.vlr core w x err) else s)

/-- SC: the store happens when the line is reserved; rd := 0, or 1 when it fails. The reservation ends. With rl it waits for the core's accesses on
their way (R425). -/
def State.vsc (s : State) (core : Nat) (w : BitVec 32) (x err : Nat) : State :=
  let v := s.vcore core
  let va := v.rx (iRs1 x)
  s.vatomic core w x 1 (fun s t =>
    if t.isDev then
      let ctx := v.ctxOf 1
      let fails := fun (s : State) => (s.setVcore core { (s.vcore core).wx (iRd x) 1 with resv := none }).vretire core w
      if natBit x 25 && s.vstoring core then s
      else if (s.vcore core).resv ≠ some (lineOf v.unit ctx va) then fails s
      else s.l2Atomic core ctx va (amoSize x) true err (fun s =>
        let s := s.vwrite core ctx va (leBytes (amoSize x) (v.rx (iRs2 x)))
        (s.setVcore core { (s.vcore core).wx (iRd x) 0 with resv := none }).vretire core w)
    else s.vaccFail core 1 2 va false none)

/-- SC; `err` is what the caches' arrays report. -/
def execSc (core : Nat) (w : BitVec 32) (err : Nat) (s : State) : Host.Outcome State Fault Refusal :=
  .next (if iOp w.toNat = 0x2F ∧ iRs3 w.toNat = 3 then s.vissue core w (fun s x => s.vsc core w x err) else s)

/-- The operation and type of Table 8.9 of an AMO (ty 5: signed 64-bit); `none`: undefined. -/
def amoOp (x : Nat) : Option (Nat × Nat) :=
  let u := if iF3 x = 2 then 0 else 2
  let sg := if iF3 x = 2 then 1 else 5
  match iRs3 x with
  | 0x00 => some (0, u)
  | 0x01 => some (6, u)
  | 0x04 => some (5, u)
  | 0x08 => some (4, u)
  | 0x0C => some (3, u)
  | 0x10 => some (1, sg)
  | 0x14 => some (2, sg)
  | 0x18 => some (1, u)
  | 0x1C => some (2, u)
  | _ => none

/-- Is an AMO a reduction (R514)? -/
def amoReduces (x : Nat) (aop : Nat) : Bool := iRd x == 0 && natBits x 25 2 == 0 && iF3 x == 2 && decide (aop ≤ 2)

/-- AMO by the class of its address (R423). With rl it waits for the core's accesses on their way (R425). -/
def State.vamo (s : State) (core : Nat) (w : BitVec 32) (x err : Nat) : State :=
  let v := s.vcore core
  let va := v.rx (iRs1 x)
  let n := amoSize x
  match amoOp x with
  | none => s.villegal core w
  | some (aop, ty) =>
    s.vatomic core w x 2 (fun s t =>
      let ctx := v.ctxOf 2
      let data := leBytes n (v.rx (iRs2 x))
      let leaves := fun (s : State) =>
        if natBit x 25 && s.vstoring core then s else s.vissueAcc core w x ctx 2 va n aop ty data
      match t with
      | .dev _ =>
        if amoReduces x aop then (s.vissueAcc core w x ctx 3 va n aop ty data).vretire core w
        else if natBit x 25 && s.vstoring core then s
        else s.l2Atomic core ctx va n true err (fun s =>
          let (bs, bad) := s.vread core ctx va n
          if bad then s.vpoison core va 0
          else
            let s := s.vwrite core ctx va (leBytes n (atomOp aop ty (leNat bs) (leNat data) 0))
            (s.setVcore core ((s.vcore core).deliver x (leNat bs))).vretire core w)
      | .host _ _ => if aop = 0 ∨ aop = 6 then leaves s else s.vaccFail core 2 2 va false none
      | .win _ _ => leaves s
      | _ => s)

/-- AMO; `err` is what the caches' arrays report. -/
def execAmo (core : Nat) (w : BitVec 32) (err : Nat) (s : State) : Host.Outcome State Fault Refusal :=
  .next (if iOp w.toNat = 0x2F ∧ iRs3 w.toNat ≠ 2 ∧ iRs3 w.toNat ≠ 3 then s.vissue core w (fun s x => s.vamo core w x err) else s)

end Sys2Proof.Machine
end

