-- ==== Sys2Proof/Machine/VXmem.lean ====
section
/-! DEFINITION. The memory instructions of Xslv: their decoding, translation phase and access phase (R448 to R462). A run of an instruction is numbered
16 × its element + 8 for a scale + its part, a part being what lies in one line. -/

namespace Sys2Proof.Machine

/-! ### The runs of an instruction -/

def VCore.sk (v : VCore) : Nat := natBits (v.csrv 0x802) 4 2
def VCore.cvRnd (v : VCore) : Nat := natBits (v.csrv 0x802) 6 2
def VCore.cvSat (v : VCore) : Bool := natBit (v.csrv 0x802) 8
def VCore.cvRule (v : VCore) : Nat := natBits (v.csrv 0x802) 9 1

def at64 (a : Int) : Nat := u64 a

/-- VLD and VST: x[rs1] + i × SEW ÷ 8. -/
def VCore.unitRuns (v : VCore) (x : Nat) (store : Bool) : List AccLane :=
  let n := sewOf v.et / 8
  (v.actives x).map (fun i =>
    { lane := 16 * i, va := at64 ((v.rx (iRs1 x) + i * n : Nat) : Int), size := n,
      data := if store then leBytes n (elemOf (8 * n) (v.vr (iRd x)) i) else [] })

/-- VLDX and VSTX: x[rs1] + vs2[i], an unsigned offset. -/
def VCore.indexRuns (v : VCore) (x : Nat) (store : Bool) : List AccLane :=
  let n := sewOf v.et / 8
  (v.actives x).map (fun i =>
    { lane := 16 * i, va := at64 ((v.rx (iRs1 x) + elemOf (8 * n) (v.vr (iRs2 x)) i : Nat) : Int), size := n,
      data := if store then leBytes n (elemOf (8 * n) (v.vr (iRd x)) i) else [] })

/-- VLDC: an element's bytes, and its scale's (R393, R449). -/
def VCore.convLoadRuns (v : VCore) (x : Nat) : List AccLane :=
  let fmt := xFmt x
  let scaled := v.sk == 1 || v.sk == 2
  (v.actives x).flatMap (fun i =>
    ({ lane := 16 * i, va := at64 ((v.rx (iRs1 x) + (elemSpan fmt i).1 : Nat) : Int), size := (elemSpan fmt i).2 } : AccLane) ::
      (if scaled then [{ lane := 16 * i + 8, va := at64 ((v.rx (iRs2 x) + i / blockLen v.sk : Nat) : Int), size := 1 }] else []))

/-- Two 4-bit elements of one byte are written together. -/
def mergeRuns : List AccLane → List AccLane
  | a :: b :: r =>
    if a.va = b.va ∧ a.size = b.size then
      { a with data := leBytes a.size (leNat a.data + leNat b.data), mask := leBytes a.size (leNat a.mask + leNat b.mask) } :: mergeRuns r
    else a :: mergeRuns (b :: r)
  | l => l

/-- VSTC with SK = 0: each active element alone; its flags too (R450). -/
def VCore.convStoreRuns (v : VCore) (strict : Bool) (x : Nat) : List AccLane × Nat :=
  let fmt := xFmt x
  let m : FMode := { rnd := v.cvRnd, strict := true }
  let rs := (v.actives x).map (fun i =>
    let r := toElem m v.cvSat fmt (etVal v.et (elemOf (sewOf v.et) (v.vr (iRd x)) i))
    (i, match fmtOfCode fmt with
      | some f => f.inXslv strict r
      | none => r))
  (mergeRuns (rs.map (fun r =>
    let n := (elemSpan fmt r.1).2
    let sh := elemShift fmt r.1
    { lane := 16 * r.1, va := at64 ((v.rx (iRs1 x) + (elemSpan fmt r.1).1 : Nat) : Int), size := n, data := leBytes n (r.2.bits * 2 ^ sh)
      mask := if codeBits fmt < 8 then leBytes n ((2 ^ codeBits fmt - 1) * 2 ^ sh) else [] })),
   rs.foldl (fun a r => Nat.lor a r.2.flags) 0)

/-- The value an element gives to a block: FP64 and integers are rounded to nearest FP32 first (R232, R400); a missing one is +0 (R230). -/
def VCore.blockValue (v : VCore) (acts : List Nat) (x i : Nat) : FVal :=
  if acts.contains i then
    let y := etVal v.et (elemOf (sewOf v.et) (v.vr (iRd x)) i)
    if v.et = 0 then y else fp32.decode (fp32.convert {} false y).bits
  else .fin false 0 0

/-- VSTC with SK not 0: the blocks that hold an active element, with their scales (R450, R451). -/
def VCore.blockStoreRuns (v : VCore) (x : Nat) : List AccLane :=
  let fmt := xFmt x
  let per := blockLen v.sk
  let acts := v.actives x
  (List.range (ceilDiv v.vl per)).flatMap (fun b =>
    match acts.find? (fun i => decide (per * b ≤ i) && decide (i < per * (b + 1))) with
    | none => []
    | some i =>
      let (scale, codes) := quantise fmt v.sk v.cvRule v.cvRnd ((List.range per).map (fun k => v.blockValue acts x (per * b + k)))
      let data := if fmt = 11 then t2Block codes scale else packCodes (codeBits fmt) codes
      ({ lane := 16 * i, va := at64 ((v.rx (iRs1 x) + (elemSpan fmt (per * b)).1 : Nat) : Int), size := data.length, data := data } : AccLane) ::
        (if v.sk = 3 then [] else
          [{ lane := 16 * i + 8, va := at64 ((v.rx (iRs2 x) + b : Nat) : Int), size := 1, data := [BitVec.ofNat 8 scale] }]))

/-! ### Issue: the translation phase begins -/

/-- Is a form defined (Tables 9.3, 9.6, R449, R450)? -/
def VCore.xmemOk (v : VCore) (x : Nat) : Bool :=
  v.fsOn && v.xsOn && (match xMode x with
    | 0 => xFmt x == 0 && iRs2 x == 0
    | 1 => xFmt x == 0 && iRs2 x == 0
    | 2 => xFmt x == 0
    | 3 => xFmt x == 0
    | 4 => if etFloat v.et then ldcOk (xFmt x) v.sk 0 || (decide (xFmt x == 2 ∨ xFmt x == 3) && v.sk == 0)
           else etSigned v.et && v.sk == 0 && (xFmt x == 9 || xFmt x == 10)
    | 5 => blockOk (xFmt x) v.sk
    | _ => false)

/-- Look up the 4 KiB blocks of some addresses: those whose walks have not ended. -/
def State.vneeds (s : State) (core access : Nat) : List Nat → State × List Nat
  | [] => (s, [])
  | b :: r =>
    match s.vlook core access (b * 4096) with
    | (s, .wait) =>
      let (s, n) := s.vneeds core access r
      (s, b :: n)
    | (s, _) => s.vneeds core access r

/-- The runs that the translation phase checks, element by element: of a block store those of its active elements, then what it writes (R454). -/
def VCore.checkList (v : VCore) (x kind : Nat) (els : List AccLane) : List AccLane :=
  if kind = 1 ∧ xMode x = 5 ∧ v.sk ≠ 0 then v.convLoadRuns x ++ els else els

/-- Begin an Xslv memory instruction. -/
def State.xmemBegin (s : State) (core : Nat) (w : BitVec 32) (kind : Nat) (runs : List AccLane) : State :=
  let blocks := ((runs.filter (fun l => decide (l.va < 2 ^ 57))).flatMap (fun l => [l.va / 4096, (l.va + l.size - 1) / 4096])).eraseDups
  let (s, need) := s.vneeds core kind blocks
  s.setVcore core { s.vcore core with xslv := some { w := w, kind := kind, els := runs, need := need } }

/-- An Xslv memory instruction of a MODE: `runs` gives what it accesses. -/
def State.xmemOp (s : State) (core : Nat) (w : BitVec 32) (mode kind : Nat) (runs : Bool → VCore → Nat → List AccLane) : State :=
  if iOp w.toNat = 0x0B ∧ xMode w.toNat = mode then
    s.vissue core w (fun s x =>
      let v := s.vcore core
      if v.xmemOk x then s.xmemBegin core w kind (runs (s.vstrict core) v x) else s.villegal core w)
  else s

/-- VLD: a unit-stride load. -/
def execVld (core : Nat) (w : BitVec 32) (s : State) : Host.Outcome State Fault Refusal :=
  .next (s.xmemOp core w 0 0 (fun _ v x => v.unitRuns x false))

/-- VST: a unit-stride store. -/
def execVst (core : Nat) (w : BitVec 32) (s : State) : Host.Outcome State Fault Refusal :=
  .next (s.xmemOp core w 1 1 (fun _ v x => v.unitRuns x true))

/-- VLDX: a gather. -/
def execVldx (core : Nat) (w : BitVec 32) (s : State) : Host.Outcome State Fault Refusal :=
  .next (s.xmemOp core w 2 0 (fun _ v x => v.indexRuns x false))

/-- VSTX: a scatter. -/
def execVstx (core : Nat) (w : BitVec 32) (s : State) : Host.Outcome State Fault Refusal :=
  .next (s.xmemOp core w 3 1 (fun _ v x => v.indexRuns x true))

/-- VLDC: a converting load. -/
def execVldc (core : Nat) (w : BitVec 32) (s : State) : Host.Outcome State Fault Refusal :=
  .next (s.xmemOp core w 4 0 (fun _ v x => v.convLoadRuns x))

/-- VSTC: a converting store. -/
def execVstc (core : Nat) (w : BitVec 32) (s : State) : Host.Outcome State Fault Refusal :=
  .next (s.xmemOp core w 5 1 (fun strict v x => if v.sk = 0 then (v.convStoreRuns strict x).1 else v.blockStoreRuns x))

/-! ### The translation phase ends (R453 to R456) -/

/-- How an element's run checks: 0 it is well, 1 it waits, or 2 + REASON with the address. -/
def State.checkRun (s : State) (core : Nat) (x kind : Nat) (l : AccLane) : Nat × Nat :=
  let v := s.vcore core
  let mode := xMode x
  let n := sewOf v.et / 8
  let misaligned := ((mode == 2 || mode == 3) && !(l.va % n == 0))
    || ((mode == 4 || mode == 5) && !(v.rx (iRs1 x) % ebAlign (xFmt x) == 0))
  let look := fun (va : Nat) =>
    if 2 ^ 57 ≤ va then Xl.fail 0
    else match s.rangeAt v.unit (v.ctxOf kind) va with
      | none => .fail 0
      | some r => r.vtarget v kind va
  let last := (l.va + l.size - 1) % 2 ^ 64
  if misaligned then (5, l.va)
  else match look l.va, look last with
    | .fail k, _ => (2 + k, l.va)
    | _, .fail k => (2 + k, last / 65536 * 65536)
    | .wait, _ => (1, l.va)
    | _, .wait => (1, l.va)
    | t, _ => if (mode == 2 || mode == 3) && !t.isDev then (4, l.va) else (0, l.va)

/-- The first element that fails, or that waits. -/
def State.checkRuns (s : State) (core : Nat) (x kind : Nat) : List AccLane → Option (AccLane × Nat × Nat)
  | [] => none
  | l :: r =>
    match s.checkRun core x kind l with
    | (0, _) => s.checkRuns core x kind r
    | (k, va) => some (l, k, va)

/-- Cut a run at line bounds. -/
def AccLane.cutLines (l : AccLane) : List AccLane :=
  ((lineRuns l.va l.size).zipIdx).map (fun p =>
    let off := p.1.1 - l.va
    { l with lane := l.lane + p.2, va := p.1.1, size := p.1.2, data := (l.data.drop off).take p.1.2, mask := (l.mask.drop off).take p.1.2 })

/-- Send the parts of an access that leave the device. -/
def State.sendAway (s : State) (id : Nat) (a : Acc) : State × Acc :=
  a.lanes.foldl (fun acc l =>
    if (acc.1.accTarget a l.va).isDev then acc
    else match acc.1.performLane id acc.2 l with
      | some (t, l') => (t, acc.2.setLane l l')
      | none => acc) (s, a)

/-- The access phase begins. -/
def State.xslvAccess (s : State) (core : Nat) (x : XslvOp) : State :=
  let v := s.vcore core
  let id := s.nextAcc
  let a : Acc := { tcore := false, core := core, slot := 1, pc := v.pc, unit := v.unit, ctx := v.ctxOf x.kind, item := v.item, kind := x.kind,
                   w0 := BitVec.ofNat 64 x.w.toNat, w1 := 4, lanes := x.els.flatMap AccLane.cutLines, issued := s.now }
  let s := (State.setAcc { s with nextAcc := id + 1 } id (some a)).setVcore core { v with xslv := some { x with acc := some id } }
  let (s, a) := s.sendAway id a
  s.setAcc id (some a)

/-- XSLV_TRANSLATION_DONE: every walk has ended; the lowest failing element traps, or the access phase begins, once no earlier access of the core to
bytes of it is on its way (R459, R462). -/
def execXslvTranslationDone (core : Nat) (s : State) : Host.Outcome State Fault Refusal :=
  let v := s.vcore core
  match v.xslv with
  | some x =>
    if s.alive && v.running && !v.stopped && x.acc.isNone && x.need.isEmpty then
      match s.checkRuns core x.w.toNat x.kind (v.checkList x.w.toNat x.kind x.els) with
      | none => .next (if x.els.any (fun l => s.vbytesBusy core (v.ctxOf x.kind) l.va l.size) then s else s.xslvAccess core x)
      | some (l, k, va) =>
        if k = 1 then .next s
        else
          let s := s.setVcore core { v with xslv := none }
          .next (s.vaccFail core x.kind (k - 2) va (v.range15 x.kind) (some (l.lane / 16)))
    else .next s
  | none => .next s

/-! ### The access phase ends (R457, R458) -/

/-- Runs that are written together: the parts of a block with its scale (R451). -/
def xslvGroup (a : Acc) (sk : Nat) (l : AccLane) : List AccLane :=
  if a.kind = 1 ∧ xMode a.w0.toNat = 5 ∧ sk ≠ 0 then a.lanes.filter (fun y => y.lane / 16 == l.lane / 16) else [l]

/-- Perform a device run in L2. -/
def State.xslvRun (s : State) (core : Nat) (a : Acc) (l : AccLane) : State × AccLane :=
  let id := lineOf a.unit a.ctx l.va
  match s.l2At core id with
  | some y =>
    let s := s.l2Claim core id (a.kind == 1)
    let y := (s.l2At core id).getD y
    if a.kind = 0 then (s, { l with data := (y.data.drop (l.va % 128)).take l.size, poison := y.poison, performed := true })
    else
      let bs := if l.mask.isEmpty then l.data else l.merged ((y.data.drop (l.va % 128)).take l.size)
      (s.vwrite core a.ctx l.va bs, { l with performed := true })
  | none => (s, l)

/-- Perform the device runs whose lines L2 holds as they need, and ask for the others. -/
def State.xslvStep (s : State) (core sk : Nat) (a : Acc) : State × Acc :=
  a.lanes.foldl (fun acc l0 =>
    match acc.2.lanes.find? (fun y => y.lane == l0.lane) with
    | none => acc
    | some l =>
      if l.performed || l.remote then acc
      else
        let g := (xslvGroup acc.2 sk l).filter (fun y => !y.performed && !y.remote)
        let ready := g.all (fun y => acc.1.l2Serves core (lineOf a.unit a.ctx y.va) (a.kind == 1))
        if ready then
          g.foldl (fun acc y =>
            let (s, y') := acc.1.xslvRun core a y
            (s, acc.2.setLane y y')) acc
        else (g.foldl (fun s y =>
          let id := lineOf a.unit a.ctx y.va
          if s.l2Serves core id (a.kind == 1) then s else s.l2Ask core id (a.kind == 1)) acc.1, acc.2)) (s, a)

/-- The bytes that an element's runs have returned: `scale` selects its scale. -/
def Acc.elemBytes (a : Acc) (i : Nat) (scale : Bool) : List Byte :=
  (a.lanes.filter (fun l => l.lane / 16 == i && (l.lane / 8 % 2 == 1) == scale)).flatMap (fun l => l.data)

/-- A load writes vd. -/
def VCore.xslvLoad (v : VCore) (strict : Bool) (x : Nat) (a : Acc) : VCore :=
  let n := sewOf v.et
  if xMode x = 4 then
    let fmt := xFmt x
    let m : FMode := { rnd := v.cvRnd, strict := true }
    v.putVd x n ((v.actives x).map (fun i =>
      let bs := a.elemBytes i false
      let scale := if v.sk = 3 then (bs.getD 7 0).toNat else leNat (a.elemBytes i true)
      (i, etConv m v.cvSat strict v.et (decodeScaled fmt v.sk (elemBits fmt i bs) scale))))
  else v.putVd x n ((v.actives x).map (fun i => (i, { bits := leNat (a.elemBytes i false) })))

/-- An Xslv access whose every run has been performed ends its instruction. -/
def State.xslvEnd (s : State) (core : Nat) (x : XslvOp) (id : Nat) (a : Acc) : State :=
  let s := s.setAcc id none
  let v := s.vcore core
  let s := s.setVcore core { v with xslv := none }
  match a.lanes.find? (fun l => l.err.isSome), a.lanes.find? (fun l => l.poison) with
  | some l, _ =>
    let (code, d) := l.err.getD (0, [])
    s.vaccError a l code d (some (l.lane / 16))
  | none, some l => s.vpoison core l.va 1
  | none, none =>
    let w := x.w.toNat
    let strict := s.vstrict core
    let v := s.vcore core
    let v' := if a.kind = 0 then v.xslvLoad strict w a
      else if xMode w = 5 ∧ v.sk = 0 then v.accrue (v.convStoreRuns strict w).2 else v
    (s.setVcore core v').vretire core x.w

/-- What the arrays report of the first line that an access has yet to use (R475, R476). -/
def State.xslvErr (s : State) (core err : Nat) (a : Acc) : State :=
  match a.lanes.find? (fun l => !l.performed && !l.remote) with
  | some l => s.cacheErr core (lineOf a.unit a.ctx l.va) err
  | none => s

/-- XSLV_ACCESS_DONE: the runs are performed in L2 as their lines come; with the last one the access phase ends. `err` is what the caches' arrays
report. -/
def execXslvAccessDone (core : Nat) (err : Nat) (s : State) : Host.Outcome State Fault Refusal :=
  let v := s.vcore core
  match v.xslv with
  | some x =>
    match x.acc with
    | some id =>
      match s.acc id with
      | some a =>
        if s.alive && v.running then
          let s := s.xslvErr core err a
          if !(s.vcore core).running then .next s
          else
            let (s, a) := s.xslvStep core v.sk a
            let s := s.setAcc id (some a)
            .next (if a.lanes.all (fun l => l.performed) then s.xslvEnd core x id a else s)
        else .next s
      | none => .next s
    | none => .next s
  | none => .next s

end Sys2Proof.Machine
end

