-- ==== Sys2Proof/Machine/Dispatch.lean ====
section
/-! DEFINITION. One arm per command: each is one call of its meaning. -/

namespace Sys2Proof.Machine

def exec (i : Instr) (s : State) : Host.Outcome State Fault Refusal :=
  match i with
  | .registerWrite fn addr value => Sys2Proof.Machine.execRegisterWrite fn addr value s
  | .fabBlockSend die vc poison dst src sect tag payload => Sys2Proof.Machine.execFabBlockSend die vc poison dst src sect tag payload s
  | .fabBlockReceive dir noise => Sys2Proof.Machine.execFabBlockReceive dir noise s
  | .fabAckTimeout dir => Sys2Proof.Machine.execFabAckTimeout dir s
  | .fabRetrainDone link bad => Sys2Proof.Machine.execFabRetrainDone link bad s
  | .fabRetrainTimeout link => Sys2Proof.Machine.execFabRetrainTimeout link s
  | .tickInRisingEdge high => Sys2Proof.Machine.execTickInRisingEdge high s
  | .tickInFallingEdge width => Sys2Proof.Machine.execTickInFallingEdge width s
  | .internalTick => Sys2Proof.Machine.execInternalTick s
  | .tick => Sys2Proof.Machine.execTick s
  | .tickLoss => Sys2Proof.Machine.execTickLoss s
  | .holdoverTick => Sys2Proof.Machine.execHoldoverTick s
  | .syncReq => Sys2Proof.Machine.execSyncReq s
  | .endOfFrame => Sys2Proof.Machine.execEndOfFrame s
  | .barrierWatchdog core blk bar => Sys2Proof.Machine.execBarrierWatchdog core blk bar s
  | .snapshotRecordWrite => Sys2Proof.Machine.execSnapshotRecordWrite s
  | .powerCapUpdate => Sys2Proof.Machine.execPowerCapUpdate s
  | .freqChange => Sys2Proof.Machine.execFreqChange s
  | .partialImageApply => Sys2Proof.Machine.execPartialImageApply s
  | .admission => Sys2Proof.Machine.execAdmission s
  | .startGateRegister unit => Sys2Proof.Machine.execStartGateRegister unit s
  | .startGateOpen unit => Sys2Proof.Machine.execStartGateOpen unit s
  | .programRetire unit => Sys2Proof.Machine.execProgramRetire unit s
  | .tckUHaltedClear unit => Sys2Proof.Machine.execTckUHaltedClear unit s
  | .wardLoadGo => Sys2Proof.Machine.execWardLoadGo s
  | .wardFetchError got => Sys2Proof.Machine.execWardFetchError got s
  | .verificationComplete image => Sys2Proof.Machine.execVerificationComplete image s
  | .wardQuiesce slot => Sys2Proof.Machine.execWardQuiesce slot s
  | .wardQuiesceCancel slot => Sys2Proof.Machine.execWardQuiesceCancel slot s
  | .blockDescriptorFetch unit => Sys2Proof.Machine.execBlockDescriptorFetch unit s
  | .blockLaunch unit item => Sys2Proof.Machine.execBlockLaunch unit item s
  | .blockComplete core blk => Sys2Proof.Machine.execBlockComplete core blk s
  | .loadDataReturn acc data err => Sys2Proof.Machine.execLoadDataReturn acc data err s
  | .storeAck acc => Sys2Proof.Machine.execStoreAck acc s
  | .homeAccess acc lane err => Sys2Proof.Machine.execHomeAccess acc lane err s
  | .tPreempt core => Sys2Proof.Machine.execTPreempt core s
  | .tDrainDone core => Sys2Proof.Machine.execTDrainDone core s
  | .tSaveDone core => Sys2Proof.Machine.execTSaveDone core s
  | .tRestoreDone core ext poison => Sys2Proof.Machine.execTRestoreDone core ext poison s
  | .mxeDescAccept core eng => Sys2Proof.Machine.execMxeDescAccept core eng s
  | .mxeChunkCommit core eng => Sys2Proof.Machine.execMxeChunkCommit core eng s
  | .mxeDescRetire core eng => Sys2Proof.Machine.execMxeDescRetire core eng s
  | .vxeDescAccept core eng => Sys2Proof.Machine.execVxeDescAccept core eng s
  | .vxeDescStart core eng => Sys2Proof.Machine.execVxeDescStart core eng s
  | .vxeDescComplete core eng => Sys2Proof.Machine.execVxeDescComplete core eng s
  | .nop core slot w0 w1 => Sys2Proof.Machine.execNop core slot w0 w1 s
  | .iadd core slot w0 w1 => Sys2Proof.Machine.execIadd core slot w0 w1 s
  | .isub core slot w0 w1 => Sys2Proof.Machine.execIsub core slot w0 w1 s
  | .imul core slot w0 w1 => Sys2Proof.Machine.execImul core slot w0 w1 s
  | .imulh core slot w0 w1 => Sys2Proof.Machine.execImulh core slot w0 w1 s
  | .imad core slot w0 w1 => Sys2Proof.Machine.execImad core slot w0 w1 s
  | .imin core slot w0 w1 => Sys2Proof.Machine.execImin core slot w0 w1 s
  | .imax core slot w0 w1 => Sys2Proof.Machine.execImax core slot w0 w1 s
  | .iabs core slot w0 w1 => Sys2Proof.Machine.execIabs core slot w0 w1 s
  | .and core slot w0 w1 => Sys2Proof.Machine.execAnd core slot w0 w1 s
  | .or core slot w0 w1 => Sys2Proof.Machine.execOr core slot w0 w1 s
  | .xor core slot w0 w1 => Sys2Proof.Machine.execXor core slot w0 w1 s
  | .not core slot w0 w1 => Sys2Proof.Machine.execNot core slot w0 w1 s
  | .shl core slot w0 w1 => Sys2Proof.Machine.execShl core slot w0 w1 s
  | .shr core slot w0 w1 => Sys2Proof.Machine.execShr core slot w0 w1 s
  | .sar core slot w0 w1 => Sys2Proof.Machine.execSar core slot w0 w1 s
  | .popc core slot w0 w1 => Sys2Proof.Machine.execPopc core slot w0 w1 s
  | .clz core slot w0 w1 => Sys2Proof.Machine.execClz core slot w0 w1 s
  | .mov core slot w0 w1 => Sys2Proof.Machine.execMov core slot w0 w1 s
  | .movi core slot w0 w1 => Sys2Proof.Machine.execMovi core slot w0 w1 s
  | .sel core slot w0 w1 => Sys2Proof.Machine.execSel core slot w0 w1 s
  | .isetp core slot w0 w1 => Sys2Proof.Machine.execIsetp core slot w0 w1 s
  | .plop core slot w0 w1 => Sys2Proof.Machine.execPlop core slot w0 w1 s
  | .shfl core slot w0 w1 => Sys2Proof.Machine.execShfl core slot w0 w1 s
  | .vote core slot w0 w1 => Sys2Proof.Machine.execVote core slot w0 w1 s
  | .s2r core slot w0 w1 => Sys2Proof.Machine.execS2r core slot w0 w1 s
  | .flgRd core slot w0 w1 => Sys2Proof.Machine.execFlgRd core slot w0 w1 s
  | .flgClr core slot w0 w1 => Sys2Proof.Machine.execFlgClr core slot w0 w1 s
  | .fadd core slot w0 w1 => Sys2Proof.Machine.execFadd core slot w0 w1 s
  | .fsub core slot w0 w1 => Sys2Proof.Machine.execFsub core slot w0 w1 s
  | .fmul core slot w0 w1 => Sys2Proof.Machine.execFmul core slot w0 w1 s
  | .ffma core slot w0 w1 => Sys2Proof.Machine.execFfma core slot w0 w1 s
  | .fmin core slot w0 w1 => Sys2Proof.Machine.execFmin core slot w0 w1 s
  | .fmax core slot w0 w1 => Sys2Proof.Machine.execFmax core slot w0 w1 s
  | .fsetp core slot w0 w1 => Sys2Proof.Machine.execFsetp core slot w0 w1 s
  | .frnd core slot w0 w1 => Sys2Proof.Machine.execFrnd core slot w0 w1 s
  | .fdiv core slot w0 w1 => Sys2Proof.Machine.execFdiv core slot w0 w1 s
  | .fsqrt core slot w0 w1 => Sys2Proof.Machine.execFsqrt core slot w0 w1 s
  | .dadd core slot w0 w1 => Sys2Proof.Machine.execDadd core slot w0 w1 s
  | .dsub core slot w0 w1 => Sys2Proof.Machine.execDsub core slot w0 w1 s
  | .dmul core slot w0 w1 => Sys2Proof.Machine.execDmul core slot w0 w1 s
  | .dfma core slot w0 w1 => Sys2Proof.Machine.execDfma core slot w0 w1 s
  | .dmin core slot w0 w1 => Sys2Proof.Machine.execDmin core slot w0 w1 s
  | .dmax core slot w0 w1 => Sys2Proof.Machine.execDmax core slot w0 w1 s
  | .dsetp core slot w0 w1 => Sys2Proof.Machine.execDsetp core slot w0 w1 s
  | .drnd core slot w0 w1 => Sys2Proof.Machine.execDrnd core slot w0 w1 s
  | .ddiv core slot w0 w1 => Sys2Proof.Machine.execDdiv core slot w0 w1 s
  | .dsqrt core slot w0 w1 => Sys2Proof.Machine.execDsqrt core slot w0 w1 s
  | .cvt core slot w0 w1 => Sys2Proof.Machine.execCvt core slot w0 w1 s
  | .exit core slot w0 w1 => Sys2Proof.Machine.execExit core slot w0 w1 s
  | .bra core slot w0 w1 => Sys2Proof.Machine.execBra core slot w0 w1 s
  | .join core slot w0 w1 => Sys2Proof.Machine.execJoin core slot w0 w1 s
  | .call core slot w0 w1 => Sys2Proof.Machine.execCall core slot w0 w1 s
  | .jmpr core slot w0 w1 => Sys2Proof.Machine.execJmpr core slot w0 w1 s
  | .trap core slot w0 w1 => Sys2Proof.Machine.execTrap core slot w0 w1 s
  | .ldl core slot w0 w1 => Sys2Proof.Machine.execLdl core slot w0 w1 s
  | .stl core slot w0 w1 => Sys2Proof.Machine.execStl core slot w0 w1 s
  | .atoml core slot w0 w1 => Sys2Proof.Machine.execAtoml core slot w0 w1 s
  | .ld core slot w0 w1 => Sys2Proof.Machine.execLd core slot w0 w1 s
  | .st core slot w0 w1 => Sys2Proof.Machine.execSt core slot w0 w1 s
  | .atom core slot w0 w1 => Sys2Proof.Machine.execAtom core slot w0 w1 s
  | .ldc core slot w0 w1 => Sys2Proof.Machine.execLdc core slot w0 w1 s
  | .stc core slot w0 w1 => Sys2Proof.Machine.execStc core slot w0 w1 s
  | .mxa core slot w0 w1 => Sys2Proof.Machine.execMxa core slot w0 w1 s
  | .vxa core slot w0 w1 => Sys2Proof.Machine.execVxa core slot w0 w1 s
  | .waitq core slot w0 w1 => Sys2Proof.Machine.execWaitq core slot w0 w1 s
  | .accRel core slot w0 w1 => Sys2Proof.Machine.execAccRel core slot w0 w1 s
  | .accRds core slot w0 w1 => Sys2Proof.Machine.execAccRds core slot w0 w1 s
  | .accFclr core slot w0 w1 => Sys2Proof.Machine.execAccFclr core slot w0 w1 s
  | .barSync core slot w0 w1 => Sys2Proof.Machine.execBarSync core slot w0 w1 s
  | .barArv core slot w0 w1 => Sys2Proof.Machine.execBarArv core slot w0 w1 s
  | .fence core slot w0 w1 => Sys2Proof.Machine.execFence core slot w0 w1 s
  | .tmbArv core slot w0 w1 => Sys2Proof.Machine.execTmbArv core slot w0 w1 s
  | .tmbPoll core slot w0 w1 => Sys2Proof.Machine.execTmbPoll core slot w0 w1 s
  | .tmbWait core slot w0 w1 => Sys2Proof.Machine.execTmbWait core slot w0 w1 s
  | .tmbTake core slot w0 w1 => Sys2Proof.Machine.execTmbTake core slot w0 w1 s
  | .tmbPut core slot w0 w1 => Sys2Proof.Machine.execTmbPut core slot w0 w1 s
  | .tmbFireNotify n => Sys2Proof.Machine.execTmbFireNotify n s
  | .tmbWaitTimeout tcore core slot => Sys2Proof.Machine.execTmbWaitTimeout tcore core slot s
  | .tmbRefusalReturn n => Sys2Proof.Machine.execTmbRefusalReturn n s
  | .tmbHomeArrive n => Sys2Proof.Machine.execTmbHomeArrive n s
  | .tmbHomePoll n => Sys2Proof.Machine.execTmbHomePoll n s
  | .tmbHomeWait n => Sys2Proof.Machine.execTmbHomeWait n s
  | .tmbHomeTake n => Sys2Proof.Machine.execTmbHomeTake n s
  | .tmbHomePut n => Sys2Proof.Machine.execTmbHomePut n s
  | .tmbCfgWrite tmb value => Sys2Proof.Machine.execTmbCfgWrite tmb value s
  | .tmbOpArrive tmb weight => Sys2Proof.Machine.execTmbOpArrive tmb weight s
  | .tmbOpReset tmb => Sys2Proof.Machine.execTmbOpReset tmb s
  | .vcoreItemStart unit item => Sys2Proof.Machine.execVcoreItemStart unit item s
  | .vcoreLoadStore core w err => Sys2Proof.Machine.execVcoreLoadStore core w err s
  | .lr core w err => Sys2Proof.Machine.execLr core w err s
  | .sc core w err => Sys2Proof.Machine.execSc core w err s
  | .amo core w err => Sys2Proof.Machine.execAmo core w err s
  | .vcoreFence core w => Sys2Proof.Machine.execVcoreFence core w s
  | .fenceI core w => Sys2Proof.Machine.execFenceI core w s
  | .sfenceVma core w => Sys2Proof.Machine.execSfenceVma core w s
  | .vcoreTrap core => Sys2Proof.Machine.execVcoreTrap core s
  | .vcoreInterrupt core => Sys2Proof.Machine.execVcoreInterrupt core s
  | .vadd core w => Sys2Proof.Machine.execVadd core w s
  | .vsub core w => Sys2Proof.Machine.execVsub core w s
  | .vmul core w => Sys2Proof.Machine.execVmul core w s
  | .vfma core w => Sys2Proof.Machine.execVfma core w s
  | .vfnms core w => Sys2Proof.Machine.execVfnms core w s
  | .vdiv core w => Sys2Proof.Machine.execVdiv core w s
  | .vsqrt core w => Sys2Proof.Machine.execVsqrt core w s
  | .vmin core w => Sys2Proof.Machine.execVmin core w s
  | .vmax core w => Sys2Proof.Machine.execVmax core w s
  | .vand core w => Sys2Proof.Machine.execVand core w s
  | .vor core w => Sys2Proof.Machine.execVor core w s
  | .vxor core w => Sys2Proof.Machine.execVxor core w s
  | .vsll core w => Sys2Proof.Machine.execVsll core w s
  | .vsrl core w => Sys2Proof.Machine.execVsrl core w s
  | .vsra core w => Sys2Proof.Machine.execVsra core w s
  | .vmerge core w => Sys2Proof.Machine.execVmerge core w s
  | .vcmpeq core w => Sys2Proof.Machine.execVcmpeq core w s
  | .vcmplt core w => Sys2Proof.Machine.execVcmplt core w s
  | .vcmple core w => Sys2Proof.Machine.execVcmple core w s
  | .vredosum core w => Sys2Proof.Machine.execVredosum core w s
  | .vredtsum core w => Sys2Proof.Machine.execVredtsum core w s
  | .vredmax core w => Sys2Proof.Machine.execVredmax core w s
  | .vredmin core w => Sys2Proof.Machine.execVredmin core w s
  | .vslide core w => Sys2Proof.Machine.execVslide core w s
  | .vcvt core w => Sys2Proof.Machine.execVcvt core w s
  | .vmv core w => Sys2Proof.Machine.execVmv core w s
  | .vpopc core w => Sys2Proof.Machine.execVpopc core w s
  | .vfirst core w => Sys2Proof.Machine.execVfirst core w s
  | .vld core w => Sys2Proof.Machine.execVld core w s
  | .vst core w => Sys2Proof.Machine.execVst core w s
  | .vldx core w => Sys2Proof.Machine.execVldx core w s
  | .vstx core w => Sys2Proof.Machine.execVstx core w s
  | .vldc core w => Sys2Proof.Machine.execVldc core w s
  | .vstc core w => Sys2Proof.Machine.execVstc core w s
  | .xslvTranslationDone core => Sys2Proof.Machine.execXslvTranslationDone core s
  | .xslvAccessDone core err => Sys2Proof.Machine.execXslvAccessDone core err s
  | .xmop core w => Sys2Proof.Machine.execXmop core w s
  | .xmzero core w => Sys2Proof.Machine.execXmzero core w s
  | .xmrd core w => Sys2Proof.Machine.execXmrd core w s
  | .xmwr core w => Sys2Proof.Machine.execXmwr core w s
  | .tarv core w => Sys2Proof.Machine.execTarv core w s
  | .tpoll core w => Sys2Proof.Machine.execTpoll core w s
  | .twait core w => Sys2Proof.Machine.execTwait core w s
  | .ttake core w => Sys2Proof.Machine.execTtake core w s
  | .tput core w => Sys2Proof.Machine.execTput core w s
  | .xslitemDone core w => Sys2Proof.Machine.execXslitemDone core w s
  | .xslitemAbort core w => Sys2Proof.Machine.execXslitemAbort core w s
  | .vPreempt core => Sys2Proof.Machine.execVPreempt core s
  | .vSaveDone core => Sys2Proof.Machine.execVSaveDone core s
  | .vRestoreDone core ext poison => Sys2Proof.Machine.execVRestoreDone core ext poison s
  | .reductionRetire n => Sys2Proof.Machine.execReductionRetire n s
  | .adviceClear cmd => Sys2Proof.Machine.execAdviceClear cmd s
  | .adviceHot cmd => Sys2Proof.Machine.execAdviceHot cmd s
  | .adviceCold cmd => Sys2Proof.Machine.execAdviceCold cmd s
  | .adviceStream cmd => Sys2Proof.Machine.execAdviceStream cmd s
  | .advicePin cmd => Sys2Proof.Machine.execAdvicePin cmd s
  | .adviceUnpin cmd => Sys2Proof.Machine.execAdviceUnpin cmd s
  | .adviceLeaf cmd => Sys2Proof.Machine.execAdviceLeaf cmd s
  | .adviceDead cmd => Sys2Proof.Machine.execAdviceDead cmd s
  | .adviceDrop cmd => Sys2Proof.Machine.execAdviceDrop cmd s
  | .adviceClass cmd => Sys2Proof.Machine.execAdviceClass cmd s
  | .migrationBlockCopy n => Sys2Proof.Machine.execMigrationBlockCopy n s
  | .regulatorWindow stack => Sys2Proof.Machine.execRegulatorWindow stack s
  | .saturationWindow => Sys2Proof.Machine.execSaturationWindow s
  | .hbmLineRead stack granule line err => Sys2Proof.Machine.execHbmLineRead stack granule line err s
  | .patrolScrub stack granule line err => Sys2Proof.Machine.execPatrolScrub stack granule line err s
  | .memMapoutGo stack channel => Sys2Proof.Machine.execMemMapoutGo stack channel s
  | .channelMapoutDone stack channel => Sys2Proof.Machine.execChannelMapoutDone stack channel s
  | .rds core line err => Sys2Proof.Machine.execRds core line err s
  | .rdx core line err => Sys2Proof.Machine.execRdx core line err s
  | .upg core line => Sys2Proof.Machine.execUpg core line s
  | .wbd core line => Sys2Proof.Machine.execWbd core line s
  | .evc core line => Sys2Proof.Machine.execEvc core line s
  | .snps core line => Sys2Proof.Machine.execSnps core line s
  | .snpw core line => Sys2Proof.Machine.execSnpw core line s
  | .snpi core line => Sys2Proof.Machine.execSnpi core line s
  | .inv core line => Sys2Proof.Machine.execInv core line s
  | .snoopReply core line => Sys2Proof.Machine.execSnoopReply core line s
  | .grant core line => Sys2Proof.Machine.execGrant core line s
  | .holdEnd core line => Sys2Proof.Machine.execHoldEnd core line s
  | .snoopTimeout core => Sys2Proof.Machine.execSnoopTimeout core s
  | .cohKillCore value => Sys2Proof.Machine.execCohKillCore value s
  | .cohKillDie value => Sys2Proof.Machine.execCohKillDie value s
  | .reclaimWalkDone => Sys2Proof.Machine.execReclaimWalkDone s
  | .rangeWalkDone leaf walker => Sys2Proof.Machine.execRangeWalkDone leaf walker s
  | .faultRecordFlush n => Sys2Proof.Machine.execFaultRecordFlush n s
  | .xltResumeGo token => Sys2Proof.Machine.execXltResumeGo token s
  | .xltResumeAbort token => Sys2Proof.Machine.execXltResumeAbort token s
  | .copyHoldExpire token => Sys2Proof.Machine.execCopyHoldExpire token s
  | .invalAck kind id => Sys2Proof.Machine.execInvalAck kind id s
  | .xltRdIdxWrite index => Sys2Proof.Machine.execXltRdIdxWrite index s
  | .doorbellSqtail fn q value => Sys2Proof.Machine.execDoorbellSqtail fn q value s
  | .doorbellCqhead fn q value => Sys2Proof.Machine.execDoorbellCqhead fn q value s
  | .queueEnable fn q value => Sys2Proof.Machine.execQueueEnable fn q value s
  | .queueDisable fn q value => Sys2Proof.Machine.execQueueDisable fn q value s
  | .commandFetch q data => Sys2Proof.Machine.execCommandFetch q data s
  | .nopCommand cmd => Sys2Proof.Machine.execNopCommand cmd s
  | .launch cmd => Sys2Proof.Machine.execLaunch cmd s
  | .copy cmd => Sys2Proof.Machine.execCopy cmd s
  | .copyBlock cmd data scales err => Sys2Proof.Machine.execCopyBlock cmd data scales err s
  | .copyWaitTimeout cmd => Sys2Proof.Machine.execCopyWaitTimeout cmd s
  | .flushReadComplete cmd => Sys2Proof.Machine.execFlushReadComplete cmd s
  | .inline cmd => Sys2Proof.Machine.execInline cmd s
  | .tumblerArrive cmd => Sys2Proof.Machine.execTumblerArrive cmd s
  | .tumblerPoll cmd => Sys2Proof.Machine.execTumblerPoll cmd s
  | .tumblerWait cmd => Sys2Proof.Machine.execTumblerWait cmd s
  | .tumblerWaitTmo cmd => Sys2Proof.Machine.execTumblerWaitTmo cmd s
  | .tumblerTake cmd => Sys2Proof.Machine.execTumblerTake cmd s
  | .tumblerPut cmd => Sys2Proof.Machine.execTumblerPut cmd s
  | .tumblerReset cmd => Sys2Proof.Machine.execTumblerReset cmd s
  | .fenceCommand cmd => Sys2Proof.Machine.execFenceCommand cmd s
  | .map cmd => Sys2Proof.Machine.execMap cmd s
  | .unmap cmd => Sys2Proof.Machine.execUnmap cmd s
  | .prefetch cmd => Sys2Proof.Machine.execPrefetch cmd s
  | .winOpen cmd => Sys2Proof.Machine.execWinOpen cmd s
  | .winClose cmd => Sys2Proof.Machine.execWinClose cmd s
  | .wardLoad cmd => Sys2Proof.Machine.execWardLoad cmd s
  | .wardQuiesceCommand cmd => Sys2Proof.Machine.execWardQuiesceCommand cmd s
  | .vfFlr fn => Sys2Proof.Machine.execVfFlr fn s
  | .portTrained port lanes => Sys2Proof.Machine.execPortTrained port lanes s
  | .hello port data => Sys2Proof.Machine.execHello port data s
  | .pintleBlockSend req n => Sys2Proof.Machine.execPintleBlockSend req n s
  | .pintleBlockReceive port data => Sys2Proof.Machine.execPintleBlockReceive port data s
  | .pintleAckTimeout port => Sys2Proof.Machine.execPintleAckTimeout port s
  | .pintleRetrainDone port lanes => Sys2Proof.Machine.execPintleRetrainDone port lanes s
  | .portDownTimeout port => Sys2Proof.Machine.execPortDownTimeout port s
  | .portRetrainRetry port => Sys2Proof.Machine.execPortRetrainRetry port s
  | .ptlRetrainReq port value => Sys2Proof.Machine.execPtlRetrainReq port value s
  | .addressMapWrite entry word value => Sys2Proof.Machine.execAddressMapWrite entry word value s
  | .pairKeyDerived leaf peer => Sys2Proof.Machine.execPairKeyDerived leaf peer s
  | .read n => Sys2Proof.Machine.execRead n s
  | .write n => Sys2Proof.Machine.execWrite n s
  | .atomic n => Sys2Proof.Machine.execAtomic n s
  | .reduce n => Sys2Proof.Machine.execReduce n s
  | .arrive n => Sys2Proof.Machine.execArrive n s
  | .rdData n => Sys2Proof.Machine.execRdData n s
  | .atomicData n => Sys2Proof.Machine.execAtomicData n s
  | .ack n => Sys2Proof.Machine.execAck n s
  | .refuse n => Sys2Proof.Machine.execRefuse n s
  | .responseTimeout n => Sys2Proof.Machine.execResponseTimeout n s
  | .powerWindow counts => Sys2Proof.Machine.execPowerWindow counts s
  | .avsConfirm die => Sys2Proof.Machine.execAvsConfirm die s
  | .voltRaiseTimeout die => Sys2Proof.Machine.execVoltRaiseTimeout die s
  | .droopDetect die => Sys2Proof.Machine.execDroopDetect die s
  | .droopResponseEnd die => Sys2Proof.Machine.execDroopResponseEnd die s
  | .thermalSample readings => Sys2Proof.Machine.execThermalSample readings s
  | .pwrBrakeAssert => Sys2Proof.Machine.execPwrBrakeAssert s
  | .arbCommit value => Sys2Proof.Machine.execArbCommit value s
  | .release value env => Sys2Proof.Machine.execRelease value env s
  | .sealedLoad value => Sys2Proof.Machine.execSealedLoad value s
  | .sealedLoadChunk data err => Sys2Proof.Machine.execSealedLoadChunk data err s
  | .drop value => Sys2Proof.Machine.execDrop value s
  | .kwyErase value => Sys2Proof.Machine.execKwyErase value s
  | .getVersion binding session data => Sys2Proof.Machine.execGetVersion binding session data s
  | .getCapabilities binding session data => Sys2Proof.Machine.execGetCapabilities binding session data s
  | .negotiateAlgorithms binding session data => Sys2Proof.Machine.execNegotiateAlgorithms binding session data s
  | .getDigests binding session data => Sys2Proof.Machine.execGetDigests binding session data s
  | .getCertificate binding session data => Sys2Proof.Machine.execGetCertificate binding session data s
  | .challenge binding session data => Sys2Proof.Machine.execChallenge binding session data s
  | .getMeasurements binding session data => Sys2Proof.Machine.execGetMeasurements binding session data s
  | .keyExchange binding session data => Sys2Proof.Machine.execKeyExchange binding session data s
  | .finish binding session data => Sys2Proof.Machine.execFinish binding session data s
  | .heartbeat binding session data => Sys2Proof.Machine.execHeartbeat binding session data s
  | .keyUpdate binding session data => Sys2Proof.Machine.execKeyUpdate binding session data s
  | .endSession binding session data => Sys2Proof.Machine.execEndSession binding session data s
  | .coldStart times salt selfFail badLanes badChannels => Sys2Proof.Machine.execColdStart times salt selfFail badLanes badChannels s
  | .warmStart times badLanes => Sys2Proof.Machine.execWarmStart times badLanes s
  | .warmGo value times badLanes => Sys2Proof.Machine.execWarmGo value times badLanes s
  | .pwrokDeassert => Sys2Proof.Machine.execPwrokDeassert s
  | .fwPushGo value => Sys2Proof.Machine.execFwPushGo value s
  | .fwCheckDone bundle => Sys2Proof.Machine.execFwCheckDone bundle s
  | .wardenWatchdog warden => Sys2Proof.Machine.execWardenWatchdog warden s
  | .setEndpointId binding eid => Sys2Proof.Machine.execSetEndpointId binding eid s
  | .getEndpointId binding => Sys2Proof.Machine.execGetEndpointId binding s
  | .getEndpointUuid binding => Sys2Proof.Machine.execGetEndpointUuid binding s
  | .getMctpVersionSupport binding => Sys2Proof.Machine.execGetMctpVersionSupport binding s
  | .getMessageTypeSupport binding => Sys2Proof.Machine.execGetMessageTypeSupport binding s
  | .getVendorDefinedMessageSupport binding => Sys2Proof.Machine.execGetVendorDefinedMessageSupport binding s
  | .prepareForEndpointDiscovery binding => Sys2Proof.Machine.execPrepareForEndpointDiscovery binding s
  | .endpointDiscovery binding => Sys2Proof.Machine.execEndpointDiscovery binding s
  | .discoveryNotify binding => Sys2Proof.Machine.execDiscoveryNotify binding s
  | .pldmRequest binding kind cmd data => Sys2Proof.Machine.execPldmRequest binding kind cmd data s
  | .getStatus binding => Sys2Proof.Machine.execGetStatus binding s
  | .evRead binding count => Sys2Proof.Machine.execEvRead binding count s
  | .bbInfo binding => Sys2Proof.Machine.execBbInfo binding s
  | .bbRead binding index => Sys2Proof.Machine.execBbRead binding index s
  | .capSet binding secured watts => Sys2Proof.Machine.execCapSet binding secured watts s
  | .kill binding secured value => Sys2Proof.Machine.execKill binding secured value s
  | .alertAck binding => Sys2Proof.Machine.execAlertAck binding s
  | .mgtAlertWrite value => Sys2Proof.Machine.execMgtAlertWrite value s
  | .bbEntryProgram => Sys2Proof.Machine.execBbEntryProgram s
  | .bbSectorErase => Sys2Proof.Machine.execBbSectorErase s
  | .bbRdIdxWrite value => Sys2Proof.Machine.execBbRdIdxWrite value s
  | .bbRdLatchDone => Sys2Proof.Machine.execBbRdLatchDone s
  | .tickTimerExpire timer => Sys2Proof.Machine.execTickTimerExpire timer s
  | .mfpInputEdge pin high => Sys2Proof.Machine.execMfpInputEdge pin high s
  | .pwrBrakeDeassert => Sys2Proof.Machine.execPwrBrakeDeassert s
  | .pwrokAssert => Sys2Proof.Machine.execPwrokAssert s
  | .perstNAssert => Sys2Proof.Machine.execPerstNAssert s
  | .hostWaitFired cmd => Sys2Proof.Machine.execHostWaitFired cmd s
  | .waitRegistrationReserved n => Sys2Proof.Machine.execWaitRegistrationReserved n s
  | .hostCompletionTimeout isCopy id => Sys2Proof.Machine.execHostCompletionTimeout isCopy id s
  | .writebackAck core line => Sys2Proof.Machine.execWritebackAck core line s
  | .vcoreBaseInstruction core w err => Sys2Proof.Machine.execVcoreBaseInstruction core w err s
  | .vcoreCsrAccess core w => Sys2Proof.Machine.execVcoreCsrAccess core w s
  | .mapComplete cmd => Sys2Proof.Machine.execMapComplete cmd s
  | .pcieConfigWrite fn field value => Sys2Proof.Machine.execPcieConfigWrite fn field value s
  | .jtagTckEdge rising trstN tms tdi => Sys2Proof.Machine.execJtagTckEdge rising trstN tms tdi s

end Sys2Proof.Machine
end

