-- ==== Sys2Proof/Machine/Step.lean ====
section
/-! DEFINITION. One step of the block: the command at the front of the queue is executed; on an empty queue one cycle of the
2.5 GHz clock passes (DESIGN CHOICE, log entry 2). -/

namespace Sys2Proof.Machine

/-- The block with its queue's rest and a command to execute. -/
def step (s : State) : Host.Outcome State Fault Refusal :=
  match s.pending with
  | [] => .next s.idle
  | c :: r => exec c { s with pending := r }

/-- The command a word spells, put at the front of the queue; no row of the table has bits, so none is spelled (log entry 1). -/
def State.withFetchWord (s : State) (nbits w : Nat) : State :=
  match decodeTableWord nbits w with
  | some c => { s with pending := c :: s.pending }
  | none => s

end Sys2Proof.Machine
end

