-- ==== Sys2Proof/Safety.lean ====
section
/-! DEFINITION. The terms that claims use: the canonical form of registers and memories, and when a T-core instruction goes past every
check made at its issue. No command stops this block, so a run is safe by construction: what the spec calls a fault is a state. -/

namespace Sys2Proof.Machine

/-- The canonical form of a byte memory: addresses strictly rising, and no entry equal to what an unlisted address reads as. -/
def Memory.wf (m : KV Byte) : Bool := kvWf (fun _ => 0) m

/-- Registers, HBM, scratchpads and host memory are in canonical form: equal contents are equal data. -/
def State.memWf (s : State) : Bool :=
  kvWf regReset s.regs && Memory.wf s.mem.hbm && Memory.wf s.mem.scratch && Memory.wf s.host.mem

/-- What a step keeps between two states: the canonical form; the queue; a clock, an index of free values and a fused SVN that never run back (R808); every
bit programmed in the repair map (R853). -/
structure State.Keeps (s t : State) : Prop where
  memWf : s.memWf = true → t.memWf = true
  pending : t.pending = s.pending
  now : s.now ≤ t.now
  freeCtr : s.freeCtr ≤ t.freeCtr
  fusedSvn : s.kwy.fusedSvn ≤ t.kwy.fusedSvn
  repair : ∀ k n, natBit (kvGet (fun _ => 0) s.boot.repair k) n = true → natBit (kvGet (fun _ => 0) t.boot.repair k) n = true

/-- A T-core instruction goes past every check made at its issue (R160, R370, R385): its words are of its opcode, its group and block can
issue, its fetch is good, and its encoding, its registers and its uniformity are what its form asks for. -/
structure State.Issues (s : State) (core slot opc : Nat) (w0 : BitVec 64) (f : OpForm) (b : TBlock) (g : TGroup) : Prop where
  opcode : opcOf w0 = opc
  ready : s.issuable core slot w0 f = some (b, g)
  fetch : s.fetchAt b g.pc f.words = Fetch.ok
  legal : f.illegal w0 = false
  within : f.beyond b = none
  uniform : (f.uniform && g.diverged) = false

/-- `h` is `g` with registers d … d + n − 1 of each listed lane holding a value, lowest word first; register 255 takes no write and reads 0
(R154, R156), and every other register of every lane is as it was; nothing is on its way any more to a register written. -/
structure TGroup.Writes (g h : TGroup) (lanes : List Nat) (d n : Nat) (val : Nat → Nat) : Prop where
  written : ∀ l ∈ lanes, ∀ i < n, h.reg l (d + i) = if d + i = 255 then 0 else natBits (val l) (32 * i) 32
  others : ∀ l < 32, ∀ r, ¬ (l ∈ lanes ∧ d ≤ r ∧ r < d + n) → h.reg l r = g.reg l r
  pend : h.pend = g.pend.filter (fun q => !(lanes.contains q.2.1 && decide (d ≤ q.1 ∧ q.1 < d + n ∧ q.1 ≠ 255)))

/-- `h` is `g` with predicate p of each listed lane holding a truth value; p7 takes no write and reads 1 (R154), and every other predicate of
every lane is as it was. -/
structure TGroup.WritesPred (g h : TGroup) (lanes : List Nat) (p : Nat) (val : Nat → Bool) : Prop where
  written : ∀ l ∈ lanes, h.pred l p = if p = 7 then true else val l
  others : ∀ l q, ¬ (l ∈ lanes ∧ q = p) → h.pred l q = g.pred l q
  pend : h.pend = g.pend.filter (fun q => !(lanes.contains q.2.1 && decide (q.1 = 256 + p ∧ p ≠ 7)))

/-- `h` is `g` with flags joined into the flag state of each listed lane; the other lanes' flags are as they were. -/
structure TGroup.JoinsFlags (g h : TGroup) (lanes : List Nat) (fl : Nat → Nat) : Prop where
  joined : ∀ l ∈ lanes, kvGet (fun _ => 0) h.flags l = Nat.lor (kvGet (fun _ => 0) g.flags l) (fl l)
  others : ∀ l, l ∉ lanes → kvGet (fun _ => 0) h.flags l = kvGet (fun _ => 0) g.flags l

/-- `t` is `s` after a T-core instruction that changes its own group alone, to `g`: the core counts one issue (a counter that stops at its
largest value) and marks the cycle as one in which it has issued, every other register and group is as it was, and so is everything else, all of memory with it. -/
structure State.GroupTo (s t : State) (core slot : Nat) (g : TGroup) : Prop where
  count : t.fld (RF.TCW_ISSUE_COUNT core) = min (s.fld (RF.TCW_ISSUE_COUNT core) + 1) (2 ^ 32 - 1)
  regs : ∀ a, a ≠ (RF.TCW_ISSUE_COUNT core).addr → t.reg a = s.reg a
  group : t.tgroup core slot = some g
  groups : ∀ c k, c * 32 + k ≠ core * 32 + slot → t.tgroup c k = s.tgroup c k
  issued : t.tc.issuedAt = kvSet (fun _ => 0) s.tc.issuedAt core (s.now + 1)
  rest : t = { s with regs := t.regs, tc := { s.tc with groups := t.tc.groups, issuedAt := t.tc.issuedAt } }

/-- The same where the group is `h`, gone on past an instruction of `words` words; it waits for no lock. -/
def State.GroupStep (s t : State) (core slot words : Nat) (h : TGroup) : Prop :=
  s.GroupTo t core slot { h with pc := (h.pc + 8 * words) % 2 ^ 57, lockWait := [] }

/-- A V-core's instruction is issued: the core can issue, its fetch goes well and leaves `t`, and the word is defined, with 32-bit form `x`. -/
structure State.VIssues (s : State) (core : Nat) (w : BitVec 32) (t : State) (x : Nat) : Prop where
  ready : s.vready core = true
  fetch : s.vfetch core (iLen w) = (t, true)
  wide : iWide w = some x

/-- An instruction of a V-core retires: from `t`, the core is `v` at the address `pc`, instret counts one (a counter that stops at its largest
value), and no other core, no memory and no host memory changes. -/
structure State.VRetires (t u : State) (core : Nat) (v : VCore) (pc : Nat) : Prop where
  here : u.vcore core = { v with pc := pc % 2 ^ 64, gap := none, missed := [] }
  others : ∀ c, c ≠ core → u.vcore c = t.vcore c
  instret : u.fld (RF.VCW_INSTRET_COUNT core) = min (t.fld (RF.VCW_INSTRET_COUNT core) + 1) (2 ^ 32 - 1)
  mem : u.mem = t.mem
  host : u.host = t.host

end Sys2Proof.Machine
end

