-- ==== Sys2Proof/Certificates/Slice0/Obligations.lean ====
section
/-! DEFINITION. What is claimed of the block, rule by rule: each statement says what its commands do from every state that meets its hypotheses, that they
complete there, and what they leave as it was. -/

namespace Sys2Proof.Claims
open Sys2Proof.Machine

/-- A T-core instruction with one or two integer sources: its constructor, its opcode, whether it has a B operand, and D from the words,
the width, A and B (Table 8.3). -/
structure IntRow where
  instr : Nat → Nat → BitVec 64 → BitVec 64 → Instr
  opc : Nat
  two : Bool
  val : BitVec 64 → Nat → Nat → Nat → Nat

def intRows : List IntRow :=
  [{ instr := .iadd, opc := 0x10, two := true, val := fun _ w a b => (a + b) % 2 ^ w },
   { instr := .isub, opc := 0x11, two := true, val := fun _ w a b => (a + 2 ^ w - b) % 2 ^ w },
   { instr := .imul, opc := 0x12, two := true, val := fun _ w a b => a * b % 2 ^ w },
   { instr := .imulh, opc := 0x13, two := true, val := fun w0 w a b => ofSigned w (tyVal w0 w a * tyVal w0 w b / 2 ^ w) },
   { instr := .imin, opc := 0x15, two := true, val := fun w0 w a b => if tyVal w0 w b < tyVal w0 w a then b else a },
   { instr := .imax, opc := 0x16, two := true, val := fun w0 w a b => if tyVal w0 w a < tyVal w0 w b then b else a },
   { instr := .iabs, opc := 0x17, two := false, val := fun w0 w a _ => ofSigned w (tyVal w0 w a).natAbs },
   { instr := .and, opc := 0x18, two := true, val := fun _ _ a b => Nat.land a b },
   { instr := .or, opc := 0x19, two := true, val := fun _ _ a b => Nat.lor a b },
   { instr := .xor, opc := 0x1A, two := true, val := fun _ _ a b => Nat.xor a b },
   { instr := .not, opc := 0x1B, two := false, val := fun _ w a _ => 2 ^ w - 1 - a },
   { instr := .shl, opc := 0x1C, two := true, val := fun _ w a b => a * 2 ^ (b % w) % 2 ^ w },
   { instr := .shr, opc := 0x1D, two := true, val := fun _ w a b => a / 2 ^ (b % w) },
   { instr := .sar, opc := 0x1E, two := true, val := fun _ w a b => ofSigned w (toSigned w a / 2 ^ (b % w)) },
   { instr := .popc, opc := 0x1F, two := false, val := fun _ w a _ => ((List.range w).filter (fun i => natBit a i)).length },
   { instr := .clz, opc := 0x20, two := false, val := fun _ w a _ => if a = 0 then w else w - 1 - a.log2 }]

/-- A floating-point instruction that writes D: constructor, opcode, FP64 or not, its sources, its operation (Tables 8.5, 8.6). -/
structure FloatRow where
  instr : Nat → Nat → BitVec 64 → BitVec 64 → Instr
  opc : Nat
  dbl : Bool
  srcs : Nat
  op : FFmt → FMode → List Nat → FRes

def floatRows : List FloatRow :=
  [{ instr := .fadd, opc := 0x30, dbl := false, srcs := 2, op := fun f m v => f.add m (src v 0) (src v 1) },
   { instr := .fsub, opc := 0x31, dbl := false, srcs := 2, op := fun f m v => f.sub m (src v 0) (src v 1) },
   { instr := .fmul, opc := 0x32, dbl := false, srcs := 2, op := fun f m v => f.mul m (src v 0) (src v 1) },
   { instr := .ffma, opc := 0x33, dbl := false, srcs := 3, op := fun f m v => f.fma m (src v 0) (src v 1) (src v 2) },
   { instr := .fmin, opc := 0x34, dbl := false, srcs := 2, op := fun f m v => f.minMaxB m false (src v 0) (src v 1) },
   { instr := .fmax, opc := 0x35, dbl := false, srcs := 2, op := fun f m v => f.minMaxB m true (src v 0) (src v 1) },
   { instr := .frnd, opc := 0x37, dbl := false, srcs := 1, op := fun f m v => f.rint m (src v 0) },
   { instr := .fdiv, opc := 0x3A, dbl := false, srcs := 2, op := fun f m v => f.div m (src v 0) (src v 1) },
   { instr := .fsqrt, opc := 0x3B, dbl := false, srcs := 1, op := fun f m v => f.sqrt m (src v 0) },
   { instr := .dadd, opc := 0x40, dbl := true, srcs := 2, op := fun f m v => f.add m (src v 0) (src v 1) },
   { instr := .dsub, opc := 0x41, dbl := true, srcs := 2, op := fun f m v => f.sub m (src v 0) (src v 1) },
   { instr := .dmul, opc := 0x42, dbl := true, srcs := 2, op := fun f m v => f.mul m (src v 0) (src v 1) },
   { instr := .dfma, opc := 0x43, dbl := true, srcs := 3, op := fun f m v => f.fma m (src v 0) (src v 1) (src v 2) },
   { instr := .dmin, opc := 0x44, dbl := true, srcs := 2, op := fun f m v => f.minMaxB m false (src v 0) (src v 1) },
   { instr := .dmax, opc := 0x45, dbl := true, srcs := 2, op := fun f m v => f.minMaxB m true (src v 0) (src v 1) },
   { instr := .drnd, opc := 0x47, dbl := true, srcs := 1, op := fun f m v => f.rint m (src v 0) },
   { instr := .ddiv, opc := 0x48, dbl := true, srcs := 2, op := fun f m v => f.div m (src v 0) (src v 1) },
   { instr := .dsqrt, opc := 0x49, dbl := true, srcs := 1, op := fun f m v => f.sqrt m (src v 0) }]

/-- An Xslv arithmetic instruction (Table 9.4): its constructor, its OP, whether it takes floating-point and integer elements, its cycles
(Table 9.5), and the core after it from the effective mode, the core and the word, `none` where it is illegal. -/
structure VecRow where
  instr : Nat → BitVec 32 → Instr
  op : Nat
  fp : Bool
  int : Bool
  cycles : VCore → Nat
  f : Bool → VCore → Nat → Option VCore

/-- An element-wise operation on vs1, s and vd. -/
def eachRow (instr : Nat → BitVec 32 → Instr) (op : Nat) (fp int : Bool) (cycles : VCore → Nat) (fF : FFmt → FMode → Nat → Nat → Nat → FRes)
    (fI : Nat → Bool → Nat → Nat → Nat → Nat) : VecRow :=
  ⟨instr, op, fp, int, cycles, fun strict v x => some (v.elementwise strict x fF fI)⟩

/-- A comparison into a mask register. -/
def cmpRow (instr : Nat → BitVec 32 → Instr) (op fop : Nat) (fI : Nat → Bool → Nat → Nat → Bool) : VecRow :=
  ⟨instr, op, true, true, oneCycle, fun _ v x =>
    if 8 ≤ iRd x then none
    else
      let n := sewOf v.et
      let rs := (v.actives x).map (fun i =>
        (i, if etFloat v.et then (etFmt v.et).cmpB { strict := true } fop (elemOf n (v.vr (iRs1 x)) i) (v.opS x i)
            else (fI n (etSigned v.et) (elemOf n (v.vr (iRs1 x)) i) (v.opS x i), 0)))
      some ((v.wm (iRd x) (rs.foldl (fun m r => natSetBits m r.1 1 (if r.2.1 then 1 else 0)) (v.mr (iRd x)))).accrue
        (rs.foldl (fun a r => Nat.lor a r.2.2) 0))⟩

/-- A reduction of the active elements of vs1 into element 0 of vd. -/
def redRow (instr : Nat → BitVec 32 → Instr) (op : Nat) (cycles : VCore → Nat) (fF : FFmt → FMode → Nat → Nat → FRes)
    (fI : Nat → Bool → Nat → Nat → Nat) (g : (Nat → Nat → FRes) → Nat → List Nat → FRes) : VecRow :=
  ⟨instr, op, true, true, cycles, fun strict v x =>
    let n := sewOf v.et
    let es := (v.actives x).map (fun i => elemOf n (v.vr (iRs1 x)) i)
    some (v.putVd x n (if es.isEmpty then [] else [(0, g (v.redStep strict fF fI) (elemOf n (v.vr (iRd x)) 0) es)]))⟩

def vecRows : List VecRow :=
  [eachRow .vadd 0 true true oneCycle (fun f m a b _ => f.add m a b) (fun _ _ a b _ => a + b),
   eachRow .vsub 1 true true oneCycle (fun f m a b _ => f.sub m a b) (fun n _ a b _ => a + 2 ^ n - b),
   eachRow .vmul 2 true true oneCycle (fun f m a b _ => f.mul m a b) (fun _ _ a b _ => a * b),
   eachRow .vfma 3 true true oneCycle (fun f m a b d => (f.fma m a b d).fmaFlags (f.decode a) (f.decode b)) (fun _ _ a b d => a * b + d),
   eachRow .vfnms 4 true true oneCycle
     (fun f m a b d => (f.fma m (if (f.decode a).isNan then a else f.negate a) b d).fmaFlags (f.decode a) (f.decode b))
     (fun n _ a b d => d + 2 ^ n - a * b % 2 ^ n),
   eachRow .vdiv 5 true false divCycles (fun f m a b _ => f.div m a b) noInt,
   ⟨.vsqrt, 6, true, false, divCycles, fun strict v x =>
     if xS2 x = 0 ∧ iRs2 x = 0 then some (v.elementwise strict x (fun f m a _ _ => f.sqrt m a) noInt) else none⟩,
   eachRow .vmin 7 true true oneCycle (fun f m a b _ => f.minMaxB m false a b) (fun n sg a b _ => if ltInt n sg b a then b else a),
   eachRow .vmax 8 true true oneCycle (fun f m a b _ => f.minMaxB m true a b) (fun n sg a b _ => if ltInt n sg a b then b else a),
   eachRow .vand 9 false true oneCycle noFloat (fun _ _ a b _ => Nat.land a b),
   eachRow .vor 10 false true oneCycle noFloat (fun _ _ a b _ => Nat.lor a b),
   eachRow .vxor 11 false true oneCycle noFloat (fun _ _ a b _ => Nat.xor a b),
   eachRow .vsll 12 false true oneCycle noFloat (fun n _ a b _ => a * 2 ^ (b % n)),
   eachRow .vsrl 13 false true oneCycle noFloat (fun n _ a b _ => a / 2 ^ (b % n)),
   eachRow .vsra 14 false true oneCycle noFloat (fun n _ a b _ => ofSigned n (toSigned n a / 2 ^ (b % n)))] ++
  [⟨.vmerge, 15, true, true, oneCycle, fun _ v x => some (v.putVd x (sewOf v.et) ((List.range v.vl).map (fun i =>
     (i, { bits := if natBit (v.mr (xMk x)) i then elemOf (sewOf v.et) (v.vr (iRs1 x)) i else v.opS x i }))))⟩,
   cmpRow .vcmpeq 16 0 (fun _ _ a b => a == b),
   cmpRow .vcmplt 17 2 (fun n sg a b => ltInt n sg a b),
   cmpRow .vcmple 18 3 (fun n sg a b => !ltInt n sg b a),
   redRow .vredosum 19 (fun v => v.vl) (fun f m a b => f.add m a b) (fun _ _ a b => a + b) (fun op d es => seqAdd op { bits := d } es),
   redRow .vredtsum 20 oneCycle (fun f m a b => f.add m a b) (fun _ _ a b => a + b) (fun op d es =>
     { op d (treeAdd op es.length es).bits with flags := Nat.lor (op d (treeAdd op es.length es).bits).flags (treeAdd op es.length es).flags }),
   redRow .vredmax 21 oneCycle (fun f m a b => f.minMaxB m true a b) (fun n sg a b => if ltInt n sg a b then b else a)
     (fun op d es => seqAdd op { bits := d } es),
   redRow .vredmin 22 oneCycle (fun f m a b => f.minMaxB m false a b) (fun n sg a b => if ltInt n sg b a then b else a)
     (fun op d es => seqAdd op { bits := d } es)] ++
  [⟨.vslide, 23, true, true, twoCycles, fun _ v x =>
     if xS2 x = 2 then some (v.putVd x (sewOf v.et) ((v.actives x).map (fun i =>
       (i, { bits := if i + v.rx (iRs2 x) < v.vl then elemOf (sewOf v.et) (v.vr (iRs1 x)) (i + v.rx (iRs2 x)) else 0 })))) else none⟩,
   ⟨.vcvt, 24, true, true, twoCycles, fun strict v x =>
     if 6 ≤ iRs2 x % 8 ∨ 4 < v.frm ∨ (sewOf (iRs2 x % 8) ≠ sewOf v.et ∧ 128 < v.vl) then none
     else some (v.putVd x (sewOf (iRs2 x % 8)) ((v.actives x).map (fun i =>
       (i, etConv { rnd := v.frm, strict := true } false strict (iRs2 x % 8) (etVal v.et (elemOf (sewOf v.et) (v.vr (iRs1 x)) i))))))⟩,
   ⟨.vmv, 25, true, true, oneCycle, fun _ v x =>
     some (v.putVd x (sewOf v.et) ((v.actives x).map (fun i => (i, { bits := v.opS x i }))))⟩,
   ⟨.vpopc, 26, true, true, twoCycles, fun _ v x => some (v.wx (iRd x) (v.setBits x).length)⟩,
   ⟨.vfirst, 27, true, true, twoCycles, fun _ v x => some (v.wx (iRd x) (match v.setBits x with
     | [] => 2 ^ 64 - 1
     | i :: _ => i))⟩]

/-- Does a queued migration's copy go before those queued earlier: it is a promotion of a die whose stacks are saturated? -/
def goesAhead (s : State) (m : Migr) : Bool := match s.gran (granKey m.unit m.ctx m.gran) with
  | some g => m.promote && natBit (s.fld RF.MEM_STAT_HSAT) g.loc.die
  | none => false

/-- Is the n-th queued migration the next to copy? -/
def copiesNext (s : State) (n : Nat) (m : Migr) : Bool := n == 0 || (goesAhead s m && !(s.mem.migr.take n).any (goesAhead s))

/-- The registers that reset leaves at a value other than 0: address and value, as the register tables give them (of an indexed register, its first and last
copy): MGT_FAB_CTL, MEM_CTL, MEM_CE_THRESH, COH_CTL, XLT_CTL, HIF_EV_CFG, HIF_Q_CFG, PTL_CTL, PTL_P_CTL, PWR_CTL, PWR_CAP_HOST, PWR_CAP_MGT, PWR_CAP_CUR, PWR_BOOST, PWR_BRAKE, PWR_HBM_TLIM, PWR_D_STAT, PWR_D_TLIM, PWR_D_DROOP, MGT_BOOT_STAT, HIF_NT_CFG. -/
def resetValues : List (Nat × Word) := [
  (0x1180014, 0x00000808), (0x1180354, 0x00000808), (0x0A00004, 0x00000006), (0x0A00008, 0x00000100),
  (0x0C00000, 0x00000032), (0x0800004, 0x00000064), (0x0000108, 0x00000006), (0x0010010, 0x00440000),
  (0x004FFD0, 0x00440000), (0x0E00010, 0x000000C8), (0x0E01004, 0x00000414), (0x0E013C4, 0x00000414),
  (0x0D00004, 0x00000800), (0x0D00008, 0x000015E0), (0x0D0000C, 0x00001770), (0x0D00010, 0x000015E0),
  (0x0D0001C, 0x001000C8), (0x0D00020, 0x00000020), (0x0D00024, 0x0000005F), (0x0D01000, 0x08000000),
  (0x0D01700, 0x08000000), (0x0D01008, 0x006E645F), (0x0D01708, 0x006E645F), (0x0D0100C, 0x01002028),
  (0x0D0170C, 0x01002028), (0x1100000, 0x00000001), (0x0000120, 0x00000006)]

end Sys2Proof.Claims

open Sys2Proof Sys2Proof.Machine Sys2Proof.Claims

/-- Table 8.3 (after R372, R154, R156): each acting lane's D receives the operation of its own A and B (or IMM16), every lane from the group as
it was, and a load still on its way to a register so written loses it; no other register of any lane changes, the group goes to the next
instruction, the core counts one issue (and marks the cycle as one it issued in), and nothing else of the machine changes. -/
def Obligations.TCoreIntegerResult : Prop :=
  ∀ r ∈ intRows, ∀ (core slot : Nat) (w0 w1 : BitVec 64) (s : State) (b : TBlock) (g : TGroup),
    s.Issues core slot r.opc w0 (intForm w0 [fA w0] r.two) b g →
    ∃ (t : State) (h : TGroup), exec (r.instr core slot w0 w1) s = .next t ∧ s.GroupStep t core slot 1 h ∧ h = { g with regs := h.regs, pend := h.pend } ∧
      g.Writes h (g.acting w0) (fD w0) (tyRegs w0)
        (fun l => r.val w0 (32 * tyRegs w0) (g.rd l (fA w0) (tyRegs w0)) (g.opB w0 l (tyRegs w0)))

/-- NOP, IMAD, MOV, MOVI, SEL, SHFL, S2R and FLG.RD (Tables 8.3, 8.4; after R373, R375, R376): D of each acting lane, and nothing but D, the PC,
the issue count and what a read of a low half latches. ISETP, PLOP and VOTE (after R374): a predicate of each acting lane, or for VOTE with MODE 2 a register. FLG.CLR:
flags. -/
def Obligations.TCoreMovesAndPredicates : Prop :=
  (∀ (core slot : Nat) (w0 w1 : BitVec 64) (s : State) (b : TBlock) (g : TGroup),
    (s.Issues core slot 0x00 w0 {} b g →
      ∃ (t : State) (h : TGroup), exec (.nop core slot w0 w1) s = .next t ∧ s.GroupStep t core slot 1 h ∧ h = g) ∧
    (s.Issues core slot 0x14 w0 (intForm w0 [fA w0, fB w0, fC w0] false) b g →
      ∃ (t : State) (h : TGroup), exec (.imad core slot w0 w1) s = .next t ∧ s.GroupStep t core slot 1 h ∧ h = { g with regs := h.regs, pend := h.pend } ∧
        g.Writes h (g.acting w0) (fD w0) (tyRegs w0) (fun l => (g.rd l (fA w0) (tyRegs w0) * g.rd l (fB w0) (tyRegs w0)
          + g.rd l (fC w0) (tyRegs w0)) % 2 ^ (32 * tyRegs w0))) ∧
    (s.Issues core slot 0x21 w0 
        { imm := true, mods := [(47, 46)], regs := (fD w0 :: (if fBI w0 then [] else [fA w0])).map (fun r => (r, tyRegs w0)), dst := 1 } b g →
      ∃ (t : State) (h : TGroup), exec (.mov core slot w0 w1) s = .next t ∧ s.GroupStep t core slot 1 h ∧ h = { g with regs := h.regs, pend := h.pend } ∧
        g.Writes h (g.acting w0) (fD w0) (tyRegs w0)
          (fun l => if fBI w0 then ofSigned (32 * tyRegs w0) (fImm16 w0) else g.rd l (fA w0) (tyRegs w0))) ∧
    (s.Issues core slot 0x22 w0 { words := 2, mods := [(47, 46)], regs := [(fD w0, tyRegs w0)], dst := 1 } b g →
      ∃ (t : State) (h : TGroup), exec (.movi core slot w0 w1) s = .next t ∧ s.GroupStep t core slot 2 h ∧ h = { g with regs := h.regs, pend := h.pend } ∧
        g.Writes h (g.acting w0) (fD w0) (tyRegs w0) (fun _ => fImm32 w1 + 2 ^ 32 * fExt w1)) ∧
    (s.Issues core slot 0x23 w0 { intForm w0 [fA w0, fB w0] false with preds := [fC w0] } b g →
      ∃ (t : State) (h : TGroup), exec (.sel core slot w0 w1) s = .next t ∧ s.GroupStep t core slot 1 h ∧ h = { g with regs := h.regs, pend := h.pend } ∧
        g.Writes h (g.acting w0) (fD w0) (tyRegs w0) (fun l => g.rd l (if g.pred l (fC w0) then fA w0 else fB w0) (tyRegs w0))) ∧
    (s.Issues core slot 0x26 w0 { intForm w0 [fA w0] true with mods := [(49, 46)] } b g →
      ∃ (t : State) (h : TGroup), exec (.shfl core slot w0 w1) s = .next t ∧ s.GroupStep t core slot 1 h ∧ h = { g with regs := h.regs, pend := h.pend } ∧
        g.Writes h (g.acting w0) (fD w0) (tyRegs w0) (fun l =>
          let x := shflLane (fMod w0 49 48) l (toSigned (32 * tyRegs w0) (g.opB w0 l (tyRegs w0)))
          g.rd (if 0 ≤ x ∧ x < 32 ∧ natBit g.active x.toNat = true then x.toNat else l) (fA w0) (tyRegs w0))) ∧
    (s.Issues core slot 0x28 w0 { mods := [(51, 46)], regs := [(fD w0, 1)], dst := 1, bad := decide (12 ≤ fMod w0 51 46) } b g →
      ∃ (t : State) (h : TGroup), exec (.s2r core slot w0 w1) s = .next t ∧ s.GroupStep t core slot 1 h ∧ h = { g with regs := h.regs, pend := h.pend, clockHi := h.clockHi, tickHi := h.tickHi } ∧
        g.Writes h (g.acting w0) (fD w0) 1 (fun l => (s.issuedOn core).specialReg core slot b g l (fMod w0 51 46))) ∧
    (s.Issues core slot 0x29 w0 { regs := [(fD w0, 1)], dst := 1 } b g →
      ∃ (t : State) (h : TGroup), exec (.flgRd core slot w0 w1) s = .next t ∧ s.GroupStep t core slot 1 h ∧ h = { g with regs := h.regs, pend := h.pend } ∧
        g.Writes h (g.acting w0) (fD w0) 1 (fun l => kvGet (fun _ => 0) g.flags l % 32))) ∧
  ∀ (core slot : Nat) (w0 w1 : BitVec 64) (s : State) (b : TBlock) (g : TGroup),
    (s.Issues core slot 0x24 w0 
        { imm := true, mods := [(50, 46)], preds := [fD w0], pdst := 1, bad := decide (6 ≤ fMod w0 50 48),
          regs := (fA w0 :: (if fBI w0 then [] else [fB w0])).map (fun r => (r, tyRegs w0)) } b g →
      ∃ (t : State) (h : TGroup), exec (.isetp core slot w0 w1) s = .next t ∧ s.GroupStep t core slot 1 h ∧ h = { g with preds := h.preds, pend := h.pend } ∧
        g.WritesPred h (g.acting w0) (fD w0) (fun l => icmp (fMod w0 50 48) (tyVal w0 (32 * tyRegs w0) (g.rd l (fA w0) (tyRegs w0)))
          (tyVal w0 (32 * tyRegs w0) (g.opB w0 l (tyRegs w0))))) ∧
    (s.Issues core slot 0x25 w0 { mods := [(49, 46)], preds := [fD w0, fA w0, fB w0], pdst := 1 } b g →
      ∃ (t : State) (h : TGroup), exec (.plop core slot w0 w1) s = .next t ∧ s.GroupStep t core slot 1 h ∧ h = { g with preds := h.preds, pend := h.pend } ∧
        g.WritesPred h (g.acting w0) (fD w0) (fun l => plop (fMod w0 49 48) (g.pred l (fA w0)) (g.pred l (fB w0)))) ∧
    (fMod w0 49 48 = 0 → s.Issues core slot 0x27 w0 
        { group := true, mods := [(49, 46)], preds := [fD w0, fA w0], pdst := 1, dst := 1 } b g →
      ∃ (t : State) (h : TGroup), exec (.vote core slot w0 w1) s = .next t ∧ s.GroupStep t core slot 1 h ∧ h = { g with preds := h.preds, pend := h.pend } ∧
        g.WritesPred h (g.acting w0) (fD w0) (fun _ => decide (∃ k ∈ maskBits 32 g.active, g.pred k (fA w0) = true))) ∧
    (fMod w0 49 48 = 1 → s.Issues core slot 0x27 w0 
        { group := true, mods := [(49, 46)], preds := [fD w0, fA w0], pdst := 1, dst := 1 } b g →
      ∃ (t : State) (h : TGroup), exec (.vote core slot w0 w1) s = .next t ∧ s.GroupStep t core slot 1 h ∧ h = { g with preds := h.preds, pend := h.pend } ∧
        g.WritesPred h (g.acting w0) (fD w0) (fun _ => decide (∀ k ∈ maskBits 32 g.active, g.pred k (fA w0) = true))) ∧
    (fMod w0 49 48 = 2 → s.Issues core slot 0x27 w0 
        { group := true, mods := [(49, 46)], preds := [fA w0], dst := 1, regs := [(fD w0, 1)] } b g →
      ∃ (t : State) (h : TGroup), exec (.vote core slot w0 w1) s = .next t ∧ s.GroupStep t core slot 1 h ∧ h = { g with regs := h.regs, pend := h.pend } ∧
        g.Writes h (g.acting w0) (fD w0) 1 (fun _ => maskOf ((maskBits 32 g.active).filter (fun k => g.pred k (fA w0))))) ∧
    (s.Issues core slot 0x2A w0 { mods := [(50, 46)] } b g →
      ∃ (t : State) (h : TGroup), exec (.flgClr core slot w0 w1) s = .next t ∧ s.GroupStep t core slot 1 h ∧ h = { g with flags := h.flags } ∧
        ∀ l, kvGet (fun _ => 0) h.flags l = if l ∈ g.acting w0 then
          kvGet (fun _ => 0) g.flags l - Nat.land (kvGet (fun _ => 0) g.flags l) (fMod w0 50 46) else kvGet (fun _ => 0) g.flags l)

/-- Tables 8.5 and 8.6 (after R377 to R381): each acting lane's D receives the operation of its sources in the format and mode of the
instruction, for the low half and, with X2 = 1, the high half; the lane's flags gain those of both. -/
def Obligations.TCoreFloatResult : Prop :=
  ∀ r ∈ floatRows, ∀ (core slot : Nat) (w0 w1 : BitVec 64) (s : State) (b : TBlock) (g : TGroup),
    s.Issues core slot r.opc w0 (fpForm r.dbl w0 r.srcs false) b g →
    ∃ (t : State) (h : TGroup), exec (r.instr core slot w0 w1) s = .next t ∧ s.GroupStep t core slot 1 h ∧
      h = { g with regs := h.regs, pend := h.pend, flags := h.flags } ∧
      let res := fun l half => r.op (laneFmt r.dbl w0) (laneMode b r.dbl w0) (g.fpSrcs r.dbl w0 l half r.srcs)
      g.Writes h (g.acting w0) (fD w0) (if r.dbl then 2 else 1)
        (fun l => if isX2 r.dbl w0 then (res l 0).bits + 2 ^ 16 * (res l 1).bits else (res l 0).bits) ∧
      g.JoinsFlags h (g.acting w0) (fun l => if isX2 r.dbl w0 then Nat.lor (res l 0).flags (res l 1).flags else (res l 0).flags)

/-- FSETP and DSETP (after R380): p[D] of each acting lane receives the comparison; with X2 = 1, where the comparisons of the two halves differ,
the spec does not say which is written, and the statement says nothing of it (the model's free value). The freeCtr field is the model's own. -/
def Obligations.TCoreFloatCompare : Prop :=
  ∀ r ∈ [(Instr.fsetp, 0x36, false), (Instr.dsetp, 0x46, true)], ∀ (core slot : Nat) (w0 w1 : BitVec 64) (s : State) (b : TBlock) (g : TGroup),
    s.Issues core slot r.2.1 w0 (fpForm r.2.2 w0 2 true) b g →
    ∃ (t : State) (h : TGroup) (p : Nat → Bool) (n : Nat), exec (r.1 core slot w0 w1) s = .next { t with freeCtr := n } ∧
      s.GroupStep t core slot 1 h ∧ h = { g with preds := h.preds, pend := h.pend, flags := h.flags } ∧
      let cmp := fun l half => (laneFmt r.2.2 w0).cmpB (laneMode b r.2.2 w0) (fMod w0 57 55) (src (g.fpSrcs r.2.2 w0 l half 2) 0)
        (src (g.fpSrcs r.2.2 w0 l half 2) 1)
      g.WritesPred h (g.acting w0) (fD w0) p ∧
      (∀ l, isX2 r.2.2 w0 = false ∨ (cmp l 0).1 = (cmp l 1).1 → p l = (cmp l 0).1) ∧
      g.JoinsFlags h (g.acting w0) (fun l => if isX2 r.2.2 w0 then Nat.lor (cmp l 0).2 (cmp l 1).2 else (cmp l 0).2)

/-- CVT (after R382): the source element converted into the destination element of D, other elements of D as they were. -/
def Obligations.TCoreConvert : Prop :=
  ∀ (core slot : Nat) (w0 w1 : BitVec 64) (s : State) (b : TBlock) (g : TGroup),
    let sf := fMod w0 49 46
    let df := fMod w0 53 50
    s.Issues core slot 0x38 w0
      { mods := [(57, 46)], bad := !(cvtCode sf && cvtCode df && selOk sf (fB w0) && selOk df (fC w0)) || sf == df,
        regs := [(fD w0, if df = 0 then 2 else 1), (fA w0, if sf = 0 then 2 else 1)], dst := 1 } b g →
    let res := fun l => toElem { rnd := fMod w0 55 54, strict := b.strict || natBit w0.toNat 57 } (natBit w0.toNat 56) df
      (elemValue sf (natBits (g.rd l (fA w0) (if sf = 0 then 2 else 1)) (if codeBits sf < 32 then codeBits sf * fB w0 else 0) (codeBits sf)))
    ∃ (t : State) (h : TGroup), exec (.cvt core slot w0 w1) s = .next t ∧ s.GroupStep t core slot 1 h ∧
      h = { g with regs := h.regs, pend := h.pend, flags := h.flags } ∧
      g.Writes h (g.acting w0) (fD w0) (if df = 0 then 2 else 1)
        (fun l => if codeBits df < 32 then natSetBits (g.reg l (fD w0)) (codeBits df * fC w0) (codeBits df) (res l).bits else (res l).bits) ∧
      g.JoinsFlags h (g.acting w0) (fun l => (res l).flags)

/-- The control instructions (Table 8.7, after R162 to R165, R383, R384). BRA is uniform, not taken, or divergent with two entries pushed, whose
depth R164 limits; JOIN pops at its own address; CALL links; JMPR asks for one aligned address of all active lanes; TRAP and the faults are
those of their lanes; EXIT takes its lanes out of every mask. -/
def Obligations.TCoreControlFlow : Prop :=
  ∀ (core slot : Nat) (w0 w1 : BitVec 64) (s : State) (b : TBlock) (g : TGroup),
    let t0 := s.issuedOn core
    let taken := maskOf (g.acting w0)
    let at' := fun (imm : Nat) => ((g.pc : Int) + 8 * toSigned 32 imm).toNat % 2 ^ 57
    let next2 := (g.pc + 16) % 2 ^ 57
    (s.Issues core slot 0x02 w0 { words := 2 } b g → taken = g.active →
      ∃ t, exec (.bra core slot w0 w1) s = .next t ∧ s.GroupTo t core slot { g with pc := at' (fImm32 w1) }) ∧
    (s.Issues core slot 0x02 w0 { words := 2 } b g → taken ≠ g.active → taken = 0 →
      ∃ t, exec (.bra core slot w0 w1) s = .next t ∧ s.GroupTo t core slot { g with pc := next2 }) ∧
    (s.Issues core slot 0x02 w0 { words := 2 } b g → taken ≠ g.active → taken ≠ 0 → g.stack.length ≤ 30 →
      ∃ t, exec (.bra core slot w0 w1) s = .next t ∧ s.GroupTo t core slot { g with
        stack := { pc := next2, mask := g.active - taken, join := at' (fExt w1) } ::
          { pc := (at' (fExt w1) + 8) % 2 ^ 57, mask := g.active, join := at' (fExt w1) } :: g.stack
        active := taken, pc := at' (fImm32 w1) }) ∧
    (s.Issues core slot 0x02 w0 { words := 2 } b g → taken ≠ g.active → taken ≠ 0 → 31 ≤ g.stack.length →
      exec (.bra core slot w0 w1) s = .next (t0.preciseFault core slot 0x0406 g.active 0 [])) ∧
    (s.Issues core slot 0x03 w0 { group := true } b g → (∀ e r, g.stack = e :: r → e.join ≠ g.pc) →
      ∃ t, exec (.join core slot w0 w1) s = .next t ∧ s.GroupStep t core slot 1 g) ∧
    (∀ e r, s.Issues core slot 0x03 w0 { group := true } b g → g.stack = e :: r → e.join = g.pc → Nat.land e.mask g.live ≠ 0 →
      ∃ t, exec (.join core slot w0 w1) s = .next t ∧
        s.GroupTo t core slot { g with stack := r, pc := e.pc, active := Nat.land e.mask g.live }) ∧
    (∀ e r, s.Issues core slot 0x03 w0 { group := true } b g → g.stack = e :: r → e.join = g.pc →
      ∃ t, exec (.join core slot w0 w1) s = .next t ∧
        let p := popUntil g.live r e.pc (Nat.land e.mask g.live)
        s.GroupTo t core slot { g with stack := p.1, pc := p.2.1, active := p.2.2 }) ∧
    (s.Issues core slot 0x04 w0 { words := 2, group := true, regs := [(fD w0, 2)], dst := 1 } b g →
      ∃ t h, exec (.call core slot w0 w1) s = .next t ∧ s.GroupTo t core slot { h with pc := at' (fImm32 w1) } ∧
        h = { g with regs := h.regs, pend := h.pend } ∧ g.Writes h (maskBits 32 g.active) (fD w0) 2 (fun _ => g.pc + 16)) ∧
    (∀ a, s.Issues core slot 0x05 w0 { group := true, regs := [(fA w0, 2)] } b g →
      (∀ l ∈ g.lowest :: maskBits 32 g.active, g.rd l (fA w0) 2 = a) → a % 8 = 0 →
      ∃ t, exec (.jmpr core slot w0 w1) s = .next t ∧ s.GroupTo t core slot { g with pc := a }) ∧
    (∀ a, s.Issues core slot 0x05 w0 { group := true, regs := [(fA w0, 2)] } b g →
      (∀ l ∈ g.lowest :: maskBits 32 g.active, g.rd l (fA w0) 2 = a) → a % 8 ≠ 0 →
      exec (.jmpr core slot w0 w1) s = .next (t0.preciseFault core slot 0x0404 g.active a (detailOf [(52, 1, 8)]))) ∧
    (s.Issues core slot 0x05 w0 { group := true, regs := [(fA w0, 2)] } b g →
      let diff := maskOf ((maskBits 32 g.active).filter (fun l => g.rd l (fA w0) 2 != g.rd g.lowest (fA w0) 2))
      diff ≠ 0 → exec (.jmpr core slot w0 w1) s = .next (t0.preciseFault core slot 0x0803 diff 0 (detailOf [(52, 4, diff)]))) ∧
    (s.Issues core slot 0x06 w0 { imm := true, bad := !fBI w0 } b g → g.acting w0 = [] →
      ∃ t, exec (.trap core slot w0 w1) s = .next t ∧ s.GroupStep t core slot 1 g) ∧
    (s.Issues core slot 0x06 w0 { imm := true, bad := !fBI w0 } b g → g.acting w0 ≠ [] →
      exec (.trap core slot w0 w1) s =
        .next (t0.preciseFault core slot 0x040A taken 0 (detailOf [(52, 4, ofSigned 32 (fImm16 w0))]))) ∧
    (s.Issues core slot 0x01 w0 {} b g →
      exec (.exit core slot w0 w1) s = .next (t0.exitLanes core slot b g (g.acting w0)))

/-- LDL, STL and ATOML (after R387 to R392): each acting lane's address is A plus B or IMM16 modulo 2^19 (for ATOML, A itself), a multiple of the size
and within the block's local memory. A write that meets a span an engine of the block has locked waits: its group stays as it was, but for
the engines it waits for. LDL leaves local memory as it was; STL and ATOML write it lane by lane in
ascending order and change no byte outside the stored ones. -/
def Obligations.TCoreLocalMemory : Prop :=
  ∀ (core slot : Nat) (w0 w1 : BitVec 64) (s : State) (b : TBlock) (g : TGroup),
    let addr := fun (l : Nat) => (((g.reg l (fA w0) : Int) + (if fBI w0 then fImm16 w0 else (g.reg l (fB w0) : Int))) % 2 ^ 19).toNat
    let atomAddr := fun (l : Nat) => g.reg l (fA w0)
    let n := szBytes w0
    let k := atyRegs w0
    (s.Issues core slot 0x50 w0 { imm := true, mods := [(49, 46)], bad := szBad w0, regs := plainRegs w0 (szRegs w0) 1, dst := 1 } b g →
      (∀ l ∈ g.acting w0, addr l % n = 0 ∧ addr l + n ≤ 4096 * b.localUnits) →
      ∃ t h, exec (.ldl core slot w0 w1) s = .next t ∧ t.tgroup core slot = some { h with pc := (h.pc + 8) % 2 ^ 57, lockWait := [] } ∧
        h = { g with regs := h.regs, pend := h.pend } ∧
        g.Writes h (g.acting w0) (fD w0) (szRegs w0) (fun l => loadExt w0 n (leNat (kvBytes b.localMem (addr l) n))) ∧
        t.tblock core g.blk = some b ∧ t.mem = s.mem ∧ t.host = s.host ∧
        ∀ a, a ≠ (RF.TCW_ISSUE_COUNT core).addr → a ≠ (RF.TCW_BANKCONF_COUNT core).addr → t.reg a = s.reg a) ∧
    (s.Issues core slot 0x51 w0 { imm := true, mods := [(48, 46)], bad := szBad w0, regs := plainRegs w0 (szRegs w0) 1 } b g →
      (∀ l ∈ g.acting w0, addr l % n = 0 ∧ addr l + n ≤ 4096 * b.localUnits) →
      anyMeet ((g.acting w0).map (fun l => ⟨addr l, n⟩)) (s.lockedSpans core b) = false →
      ∃ t m, exec (.stl core slot w0 w1) s = .next t ∧ t.tgroup core slot = some { g with pc := (g.pc + 8) % 2 ^ 57, lockWait := [] } ∧
        t.tblock core g.blk = some { b with localMem := m } ∧
        m = (g.acting w0).foldl (fun m l => hostWriteBytes m (addr l) (leBytes n (g.rd l (fD w0) (szRegs w0)))) b.localMem ∧
        (∀ a, (∀ l ∈ g.acting w0, ¬ (addr l ≤ a ∧ a < addr l + n)) → kvGet (fun _ => 0) m a = kvGet (fun _ => 0) b.localMem a) ∧
        t.mem = s.mem ∧ t.host = s.host ∧
        ∀ a, a ≠ (RF.TCW_ISSUE_COUNT core).addr → a ≠ (RF.TCW_BANKCONF_COUNT core).addr → t.reg a = s.reg a) ∧
    (s.Issues core slot 0x51 w0 { imm := true, mods := [(48, 46)], bad := szBad w0, regs := plainRegs w0 (szRegs w0) 1 } b g →
      (∀ l ∈ g.acting w0, addr l % n = 0 ∧ addr l + n ≤ 4096 * b.localUnits) →
      anyMeet ((g.acting w0).map (fun l => ⟨addr l, n⟩)) (s.lockedSpans core b) = true →
      ∃ e, exec (.stl core slot w0 w1) s = .next (s.setTgroup core slot (some { g with lockWait := e }))) ∧
    (s.Issues core slot 0x52 w0
        { mods := [(51, 46)], bad := aopBad w0, regs := [(fD w0, k), (fA w0, 1), (fB w0, k), (fC w0, k)], dst := 1 } b g →
      (∀ l ∈ g.acting w0, atomAddr l % (4 * k) = 0 ∧ atomAddr l + 4 * k ≤ 4096 * b.localUnits) →
      anyMeet ((g.acting w0).map (fun l => ⟨atomAddr l, 4 * k⟩)) (s.lockedSpans core b) = false →
      ∃ t m h, exec (.atoml core slot w0 w1) s = .next t ∧ t.tgroup core slot = some { h with pc := (h.pc + 8) % 2 ^ 57, lockWait := [] } ∧
        t.tblock core g.blk = some { b with localMem := m } ∧ h = { g with regs := h.regs, pend := h.pend } ∧
        (m, h) = (g.acting w0).foldl (fun acc l =>
          let old := leNat (kvBytes acc.1 (atomAddr l) (4 * k))
          (hostWriteBytes acc.1 (atomAddr l)
            (leBytes (4 * k) (atomOp (fMod w0 49 46) (fMod w0 51 50) old (g.rd l (fB w0) k) (g.rd l (fC w0) k))),
           acc.2.wr l (fD w0) old k)) (b.localMem, g) ∧
        (∀ a, (∀ l ∈ g.acting w0, ¬ (atomAddr l ≤ a ∧ a < atomAddr l + 4 * k)) →
          kvGet (fun _ => 0) m a = kvGet (fun _ => 0) b.localMem a) ∧
        t.mem = s.mem ∧ t.host = s.host ∧
        ∀ a, a ≠ (RF.TCW_ISSUE_COUNT core).addr → a ≠ (RF.TCW_BANKCONF_COUNT core).addr → t.reg a = s.reg a)

/-- LD, ST and ATOM (after R386, R388 to R391): every address below 2^57 and aligned, the instruction issues one access that holds its lanes' addresses,
sizes and data, and the group goes on past it (issueAcc); a LD of an address at or beyond 2^57 raises 0x0805, and a ST whose addresses all lie below
raises 0x0404 where one is misaligned. -/
def Obligations.TCoreGlobalMemory : Prop :=
  ∀ (core slot : Nat) (w0 w1 : BitVec 64) (s : State) (b : TBlock) (g : TGroup),
    let t0 := s.issuedOn core
    let addr := fun (l : Nat) =>
      (((g.rd l (fA w0) 2 : Int) + (if fBI w0 then fImm16 w0 else toSigned 32 (g.reg l (fB w0)))) % 2 ^ 64).toNat
    let n := szBytes w0
    let k := atyRegs w0
    let ok := fun (addr : Nat → Nat) (n : Nat) => ∀ l ∈ g.acting w0, addr l < 2 ^ 57 ∧ addr l % n = 0
    let ldForm : OpForm := { imm := true, mods := [(51, 46)], bad := szBad w0, regs := plainRegs w0 (szRegs w0) 2, dst := 1 }
    let stForm : OpForm :=
      { imm := true, mods := [(48, 46), (51, 50)], bad := szBad w0 || !(fMod w0 51 50 == 0), regs := plainRegs w0 (szRegs w0) 2 }
    let atomForm : OpForm := { mods := [(55, 46)], bad := aopBad w0, regs := [(fD w0, k), (fA w0, 2), (fB w0, k), (fC w0, k)], dst := 1 }
    (s.Issues core slot 0x58 w0 ldForm b g → ok addr n →
      exec (.ld core slot w0 w1) s = .next (t0.issueAcc core slot 1 g
        { b.newAcc core slot g 0 w0 w1 ((g.acting w0).map (fun l => { lane := l, va := addr l, size := n })) with
          scope := fMod w0 51 50, dest := destOf (fD w0) (szRegs w0) })) ∧
    (s.Issues core slot 0x59 w0 stForm b g → ok addr n →
      exec (.st core slot w0 w1) s = .next (t0.issueAcc core slot 1 g
        (b.newAcc core slot g 1 w0 w1 ((g.acting w0).map (fun l =>
          { lane := l, va := addr l, size := n, data := leBytes n (g.rd l (fD w0) (szRegs w0)) }))))) ∧
    (s.Issues core slot 0x5A w0 atomForm b g → ok (fun l => g.rd l (fA w0) 2) (4 * k) →
      exec (.atom core slot w0 w1) s = .next (t0.issueAcc core slot 1 g
        { b.newAcc core slot g (if atomReduces w0 then 3 else 2) w0 w1 ((g.acting w0).map (fun l =>
            { lane := l, va := g.rd l (fA w0) 2, size := 4 * k, data := leBytes (4 * k) (g.rd l (fB w0) k),
              cmp := leBytes (4 * k) (g.rd l (fC w0) k) })) with
          aop := fMod w0 49 46, ty := fMod w0 51 50, scope := fMod w0 53 52
          acquire := natBit (fMod w0 55 54) 0, release := natBit (fMod w0 55 54) 1
          dest := if atomReduces w0 then [] else destOf (fD w0) k })) ∧
    (s.Issues core slot 0x58 w0 ldForm b g → ∀ m a, firstBad ((g.acting w0).map (fun l => (l, addr l))) (fun a => decide (2 ^ 57 ≤ a)) = some (m, a) →
      exec (.ld core slot w0 w1) s = .next (t0.preciseFault core slot 0x0805 m a (detailOf [(52, 8, a)]))) ∧
    (s.Issues core slot 0x59 w0 stForm b g → (∀ l ∈ g.acting w0, addr l < 2 ^ 57) →
      ∀ m a, firstBad ((g.acting w0).map (fun l => (l, addr l))) (fun a => !(a % n == 0)) = some (m, a) →
      exec (.st core slot w0 w1) s = .next (t0.preciseFault core slot 0x0404 m a (detailOf [(52, 1, n)])))

/-- LDC and STC (after R393 to R401): with every formed address below 2^57 and EB aligned, LDC issues the read of each acting lane's element and
scale, with the element's index; STC with SK = 0 issues the write of each acting lane's element, of its own bits alone where it shares a byte, and
otherwise goes to the block write. -/
def Obligations.TCoreConvertingMemory : Prop :=
  ∀ (core slot : Nat) (w0 w1 : BitVec 64) (s : State) (b : TBlock) (g : TGroup),
    let t0 := s.issuedOn core
    let fmt := fMod w0 49 46
    let sk := fMod w0 51 50
    let eb := fun (l : Nat) => g.rd l (fA w0) 2
    let sb := fun (l : Nat) => g.rd l (fC w0) 2
    let e := fun (l : Nat) => (g.reg l (fB w0) + fImm32 w1) % 2 ^ 32
    let va := fun (l : Nat) => eb l + (elemSpan fmt (e l)).1
    let last := fun (l : Nat) => va l + (elemSpan fmt (e l)).2 - 1
    let scaled := sk = 1 ∨ sk = 2
    let regs := [(fD w0, 1), (fA w0, 2), (fB w0, 1), (fC w0, 2)]
    (s.Issues core slot 0x5B w0
        { words := 2, mods := [(59, 46)], bad := !ldcOk fmt sk (fMod w0 53 52) || !(fExt w1 == 0), regs := regs, dst := 1 } b g →
      (∀ l ∈ g.acting w0, eb l < 2 ^ 57 ∧ va l < 2 ^ 57 ∧ last l < 2 ^ 57 ∧ eb l % ebAlign fmt = 0 ∧
        (scaled → sb l < 2 ^ 57 ∧ sb l + e l / blockLen sk < 2 ^ 57)) →
      ∃ a : Acc, exec (.ldc core slot w0 w1) s = .next (t0.issueAcc core slot 2 g a) ∧ a.kind = 0 ∧ a.scope = fMod w0 58 57 ∧ a.dest = destOf (fD w0) 1 ∧
        (∀ l ∈ g.acting w0, kvGet (fun _ => 0) a.elems l = e l) ∧
        a.lanes = (g.acting w0).map (fun l => { lane := l, va := va l, size := (elemSpan fmt (e l)).2 }) ++
          (if sk = 1 ∨ sk = 2 then (g.acting w0).map (fun l => { lane := 32 + l, va := sb l + e l / blockLen sk, size := 1 }) else [])) ∧
    (s.Issues core slot 0x5C w0
        { words := 2, mods := [(58, 46)], bad := fmt == 0 || !blockOk fmt sk || !(fExt w1 == 0), regs := regs } b g → sk = 0 →
      (∀ l ∈ g.acting w0, eb l < 2 ^ 57 ∧ va l < 2 ^ 57 ∧ last l < 2 ^ 57 ∧ eb l % ebAlign fmt = 0) →
      let res := fun (l : Nat) => toElem { rnd := fMod w0 55 54, strict := b.strict || natBit w0.toNat 58 } (natBit w0.toNat 56) fmt
        (stcValue w0 (g.reg l (fD w0)))
      ∃ (h : TGroup) (a : Acc), exec (.stc core slot w0 w1) s = .next (t0.issueAcc core slot 2 h a) ∧ h = { g with flags := h.flags } ∧
        g.JoinsFlags h (g.acting w0) (fun l => (res l).flags) ∧ a.kind = 1 ∧
        a.lanes.map (fun x => (x.lane, x.va, x.size, x.data, x.mask)) = (g.acting w0).map (fun l =>
          (l, va l, (elemSpan fmt (e l)).2, leBytes (elemSpan fmt (e l)).2 ((res l).bits * 2 ^ elemShift fmt (e l)),
            if codeBits fmt < 8 then leBytes (elemSpan fmt (e l)).2 ((2 ^ codeBits fmt - 1) * 2 ^ elemShift fmt (e l)) else []))) ∧
    (s.Issues core slot 0x5C w0
        { words := 2, mods := [(58, 46)], bad := fmt == 0 || !blockOk fmt sk || !(fExt w1 == 0), regs := regs } b g → sk ≠ 0 →
      exec (.stc core slot w0 w1) s = .next (t0.stcBlocks core slot w0 w1 b g))

/-- MXA, VXA, WAITQ and the accumulator instructions (after R273, R280, R403 to R406): ENG names an engine of the block; a descriptor address is a
multiple of 64 and within local memory; the queue has a place (8 or 2). The descriptor joins its queue and the group goes on; without a
place nothing changes, whatever the other checks would say; WAITQ waits by its condition; an accumulator instruction takes its place in the order of the engine. -/
def Obligations.TCoreEngineInstructions : Prop :=
  ∀ (core slot : Nat) (w0 w1 : BitVec 64) (s : State) (b : TBlock) (g : TGroup) (eng : Nat),
    let t0 := s.issuedOn core
    let a := g.reg g.lowest (fA w0)
    let e := s.engine core eng
    let n := s.nextIssue core b
    let d : Desc := { bytes := localBytes b.localMem a 64, addr := a, slot := slot, pc := g.pc, issue := n }
    let o : Nat → AccOp := fun kind =>
      { kind := kind, grp := fMod w0 49 48, issue := n, slot := slot, dest := if kind = 2 then fD w0 else 255, lanes := g.active, tag := s.nextAcc }
    let take := fun (kind : Nat) =>
      ((State.setEngine { t0 with nextAcc := s.nextAcc + 1 } core eng { e with issue := n + 1, ops := e.ops ++ [o kind] }).advance core slot 1
        (g.await s.nextAcc (maskBits 32 g.active) (if kind = 2 then destOf (fD w0) 1 else []))).pumpEngine core eng
    b.engs[fMod w0 47 46]? = some eng →
    (s.Issues core slot 0x60 w0 (engForm w0 [(47, 46)] [(fA w0, 1)] true) b g → a % 64 = 0 → a + 64 ≤ 4096 * b.localUnits → e.mq.length < 8 →
      ∃ t, exec (.mxa core slot w0 w1) s = .next t ∧ t.engine core eng = { e with issue := n + 1, mq := e.mq ++ [d] } ∧
        t.tgroup core slot = some { g with pc := (g.pc + 8) % 2 ^ 57, lockWait := [] }) ∧
    (s.tgroup core slot = some g → s.tblock core g.blk = some b → 8 ≤ e.mq.length → exec (.mxa core slot w0 w1) s = .next s) ∧
    (s.tgroup core slot = some g → s.tblock core g.blk = some b → 2 ≤ e.vq.length → exec (.vxa core slot w0 w1) s = .next s) ∧
    (s.Issues core slot 0x61 w0 (engForm w0 [(47, 46)] [(fA w0, 1)] true) b g → a % 64 = 0 → a + 64 ≤ 4096 * b.localUnits → e.vq.length < 2 →
      ∃ t, exec (.vxa core slot w0 w1) s = .next t ∧ t.engine core eng = { e with issue := n + 1, vq := e.vq ++ [d] } ∧
        t.tgroup core slot = some { g with pc := (g.pc + 8) % 2 ^ 57, lockWait := [] }) ∧
    (s.Issues core slot 0x61 w0 (engForm w0 [(47, 46)] [(fA w0, 1)] true) b g → e.vq.length < 2 → a % 64 ≠ 0 →
      exec (.vxa core slot w0 w1) s = .next (t0.preciseFault core slot 0x0404 g.active a (detailOf [(52, 1, 64)]))) ∧
    (s.Issues core slot 0x62 w0 { engForm w0 [(47, 46), (54, 50)] [] false with
        bad := fBI w0 || (natBit w0.toNat 54 && (!(fMod w0 47 46 == 0) || !(fMod w0 53 50 == 0))) } b g →
      exec (.waitq core slot w0 w1) s = .next ((t0.setTgroup core slot (some { g with wait := .waitq w0 })).settleWaitq core b)) ∧
    (s.Issues core slot 0x63 w0 { engForm w0 [(49, 46)] [] true with dst := 1 } b g → exec (.accRel core slot w0 w1) s = .next (take 0)) ∧
    (s.Issues core slot 0x64 w0 { engForm w0 [(49, 46)] [(fD w0, 1)] true with dst := 1 } b g →
      exec (.accRds core slot w0 w1) s = .next (take 2)) ∧
    (s.Issues core slot 0x65 w0 { engForm w0 [(49, 46)] [] true with dst := 1 } b g → exec (.accFclr core slot w0 w1) s = .next (take 1))

/-- BAR.SYNC, BAR.ARV and FENCE (after R168 to R172, R407 to R409): an arrival at an armed barrier within its expected count adds the group's
active threads to it; BAR.SYNC leaves the group waiting, BAR.ARV lets it go on, and barriers that are now complete end (settleBars); one arrival too
many raises 0x0408. FENCE waits at its scope. -/
def Obligations.TCoreBarriers : Prop :=
  ∀ (core slot : Nat) (w0 w1 : BitVec 64) (s : State) (b : TBlock) (g : TGroup) (x : Barrier),
    let t0 := s.issuedOn core
    let n := fMod w0 49 46
    let threads := (maskBits 32 g.active).map (fun l => 32 * g.idx + l)
    let b' : TBlock := { b with bars := listSet b.bars n { x with count := x.count + threads.length, arrived := x.arrived ++ threads } }
    (s.Issues core slot 0x66 w0 (barForm w0) b g → b.bars[n]? = some x → x.armed = true → x.count + threads.length ≤ x.expected →
      exec (.barSync core slot w0 w1) s =
        .next (((t0.setTblock core g.blk (some b')).setTgroup core slot (some { g with wait := .bar n })).settleBars core g.blk 16)) ∧
    (s.Issues core slot 0x67 w0 (barForm w0) b g → b.bars[n]? = some x → x.armed = true → x.count + threads.length ≤ x.expected →
      exec (.barArv core slot w0 w1) s =
        .next (((t0.setTblock core g.blk (some b')).advance core slot 1 g).settleBars core g.blk 16)) ∧
    (s.Issues core slot 0x66 w0 (barForm w0) b g → b.bars[n]? = some x → x.armed = true → x.expected < x.count + threads.length →
      exec (.barSync core slot w0 w1) s = .next (t0.preciseFault core slot 0x0408 g.active 0
        (detailOf [(52, 1, n), (54, 2, x.expected), (56, 2, x.count)]))) ∧
    (s.Issues core slot 0x66 w0 (barForm w0) b g → b.bars[n]? = some x → x.armed = false → natBit w0.toNat 50 = true → fBI w0 = true →
      (fImm16 w0 < 1 ∨ (b.threads : Int) < fImm16 w0) →
      exec (.barSync core slot w0 w1) s = .next (t0.preciseFault core slot 0x0408 g.active 0
        (detailOf [(52, 1, n), (54, 2, ofSigned 16 (fImm16 w0)), (56, 2, 0)]))) ∧
    (s.Issues core slot 0x68 w0 { group := true, mods := [(47, 46)] } b g →
      exec (.fence core slot w0 w1) s = .next ((t0.setTgroup core slot (some { g with wait := .fence (fMod w0 47 46) })).settleFence core slot))

/-- The tumbler instructions (after R410 to R414): with every acting lane's number within the unit's tumblers, TMB.ARV, TMB.POLL, TMB.TAKE and TMB.PUT send
one operation for each acting lane, in ascending order, and the group goes on, what it will receive being on its way to the lanes (an acquire waits
for it); TMB.WAIT sends one and waits until its deadline. A TMB.WAIT of a number
out of range raises 0x0801. -/
def Obligations.TCoreTumblers : Prop :=
  ∀ (core slot : Nat) (w0 w1 : BitVec 64) (s : State) (b : TBlock) (g : TGroup) (u : UnitEnt),
    let t0 := s.issuedOn core
    let val := natBit w0.toNat 48
    let num := fun (l : Nat) => ((g.reg l (fA w0) : Int) + (if fBI w0 then fImm16 w0 else 0))
    let inRange := fun (l : Nat) => g.reg l (fA w0) < 32768 ∧ 0 ≤ num l ∧ num l < 32768 ∧ (u.tmbBase : Int) ≤ num l ∧ num l < (u.tmbBase + u.tmbCount : Nat)
    let req : TmbOp → Nat → Nat → TmbReq := fun op operand l =>
      { src := .tgroup core slot, kind := 1, id := core, op := op, tmb := (num l).toNat, operand := operand, unit := b.unit, lane := l, pc := g.pc,
        after := s.nextAcc, sys := fMod w0 47 46 == 3 }
    let lanes := fun (x : Nat → TmbReq) => fun l => { x l with tag := s.nextAcc }
    let gone := fun (dest pd : Nat) (acq : Bool) => { g.await s.nextAcc (g.acting w0) (destOf dest 1 ++ (if pd = 7 then [] else [256 + pd])) with
      wait := if acq && !(g.acting w0).isEmpty then GWait.tmbOp s.nextAcc else GWait.none, pc := (g.pc + 8) % 2 ^ 57, lockWait := [] }
    let sent := fun (f : Nat → TmbReq) => s.tmb.reqs ++ (g.acting w0).map (lanes f)
    let arvForm : OpForm := { imm := true, mods := [(48, 46)], bad := scopeBad w0 || (val && fBI w0), regs := (fA w0, 1) :: (if val then [(fC w0, 1)] else []) }
    let waitForm : OpForm := { words := 2, group := true, imm := true, mods := [(47, 46)], bad := scopeBad w0, regs := [(fD w0, 1), (fA w0, 1)], dst := 1 }
    s.unitEnt b.unit = some u →
    (s.Issues core slot 0x69 w0 arvForm b g → (∀ l ∈ g.acting w0, inRange l) →
      ∃ t, exec (.tmbArv core slot w0 w1) s = .next t ∧
        t.tmb.reqs = sent (fun l => { req .arrive (if val then g.reg l (fC w0) else 1) l with dest := 255, pd := 7 }) ∧
        t.tgroup core slot = some (gone 255 7 false)) ∧
    (s.Issues core slot 0x6A w0 { imm := true, mods := [(47, 46), (49, 49)], bad := scopeBad w0, regs := [(fD w0, 1), (fA w0, 1)], dst := 1 } b g →
      (∀ l ∈ g.acting w0, inRange l) →
      ∃ t, exec (.tmbPoll core slot w0 w1) s = .next t ∧
        t.tmb.reqs = sent (fun l => { req .poll 0 l with dest := fD w0, pd := 7, acq := natBit w0.toNat 49 }) ∧
        t.tgroup core slot = some (gone (fD w0) 7 (natBit w0.toNat 49))) ∧
    (s.Issues core slot 0x6C w0
        { imm := true, mods := [(47, 46), (52, 50)], bad := scopeBad w0, regs := [(fD w0, 1), (fA w0, 1)], dst := 1, preds := [fMod w0 52 50], pdst := 1 } b g →
      (∀ l ∈ g.acting w0, inRange l) →
      ∃ t, exec (.tmbTake core slot w0 w1) s = .next t ∧
        t.tmb.reqs = sent (fun l => { req .take 0 l with dest := fD w0, pd := fMod w0 52 50, acq := true }) ∧
        t.tgroup core slot = some (gone (fD w0) (fMod w0 52 50) true)) ∧
    (s.Issues core slot 0x6D w0
        { imm := true, mods := [(47, 46), (52, 50)], bad := scopeBad w0, regs := [(fA w0, 1), (fC w0, 1)], preds := [fMod w0 52 50], pdst := 1 } b g →
      (∀ l ∈ g.acting w0, inRange l) →
      ∃ t, exec (.tmbPut core slot w0 w1) s = .next t ∧
        t.tmb.reqs = sent (fun l => { req .put (g.reg l (fC w0)) l with dest := 255, pd := fMod w0 52 50 }) ∧
        t.tgroup core slot = some (gone 255 (fMod w0 52 50) false)) ∧
    (s.Issues core slot 0x6B w0 waitForm b g → inRange g.lowest →
      ∃ t, exec (.tmbWait core slot w0 w1) s = .next t ∧ t.tmb.reqs = s.tmb.reqs ++ [req .wait (fExt w1) g.lowest] ∧
        t.tgroup core slot = some { g with
          wait := GWait.tmb (num g.lowest).toNat (fExt w1) (fD w0) (if fImm32 w1 = 0 then none else some (t0.coreClock core + fImm32 w1)) (fMod w0 47 46) }) ∧
    (s.Issues core slot 0x6B w0 waitForm b g → ¬ inRange g.lowest →
      ∃ d, exec (.tmbWait core slot w0 w1) s = .next (t0.preciseFault core slot 0x0801 (maskOf [g.lowest]) 0 d))

/-- The checks of R370 at issue, in their order: an undefined encoding raises 0x0403, whatever else holds; then a register beyond the
allocation 0x0402; then a divergent group at an instruction that must be uniform 0x0401. A stalled fetch or a group that cannot issue
changes nothing. An opcode that Tables 8.2 to 8.13 do not have raises 0x0403 under any
command (the model's choice, log entry 117). Said of IADD and of MXA. A precise fault is counted, and its record, with the PC, the lanes and the
address, is held to the end of the cycle; no group and no memory changes with it. -/
def Obligations.TCoreIssueChecks : Prop :=
  ∀ (core slot : Nat) (w0 w1 : BitVec 64) (s : State) (b : TBlock) (g : TGroup),
    let f := intForm w0 [fA w0] true
    let fm := engForm w0 [(47, 46)] [(fA w0, 1)] true
    (opcOf w0 = 0x10 → s.issuable core slot w0 f = none → exec (.iadd core slot w0 w1) s = .next s) ∧
    (opcOf w0 ≠ 0x10 → opcOf w0 ∈ definedOpcs → exec (.iadd core slot w0 w1) s = .next s) ∧
    (opcOf w0 ∉ definedOpcs → s.issuable core slot w0 { bad := true } = some (b, g) → s.fetchAt b g.pc 1 = .ok →
      exec (.iadd core slot w0 w1) s = .next (s.preciseFault core slot 0x0403 g.active 0 (detailOf [(52, 8, w0.toNat)]))) ∧
    (opcOf w0 = 0x10 → s.issuable core slot w0 f = some (b, g) → s.fetchAt b g.pc 1 = .wait → exec (.iadd core slot w0 w1) s = .next s) ∧
    (opcOf w0 = 0x10 → s.issuable core slot w0 f = some (b, g) → s.fetchAt b g.pc 1 = .ok → f.illegal w0 = true →
      exec (.iadd core slot w0 w1) s = .next (s.preciseFault core slot 0x0403 g.active 0 (detailOf [(52, 8, w0.toNat)]))) ∧
    (∀ r, opcOf w0 = 0x10 → s.issuable core slot w0 f = some (b, g) → s.fetchAt b g.pc 1 = .ok → f.illegal w0 = false → f.beyond b = some r →
      exec (.iadd core slot w0 w1) s = .next (s.preciseFault core slot 0x0402 g.active 0 (detailOf [(52, 1, r), (53, 1, 8 * b.regs - 1)]))) ∧
    (opcOf w0 = 0x60 → s.issuable core slot w0 fm = some (b, g) → s.fetchAt b g.pc 1 = .ok → fm.illegal w0 = false → fm.beyond b = none →
      g.live ≠ g.active → s.queueFull core slot w0 false = false →
      exec (.mxa core slot w0 w1) s =
        .next (s.preciseFault core slot 0x0401 g.active 0 (detailOf [(52, 4, g.active), (56, 4, g.live)]))) ∧
    (∀ (code lanes addr : Nat) (d : List Byte) (p : FrameProg), s.tgroup core slot = some g → s.tblock core g.blk = some b → s.prog b.unit = some p → g.pc ≠ 0 →
      let t := s.preciseFault core slot code lanes addr d
      let r : Rec := { code := code, precise := true, lanes := lanes, addr := addr, detail := d, srcKind := 1, srcId := core, pc := g.pc,
                       group := slot, groupV := true, item := b.item }
      t.tc.faults = s.tc.faults ++ [{ unit := b.unit, cmd := p.cmd, core := core, slot := slot, rec_ := r }] ∧
      (∀ c k, t.tgroup c k = s.tgroup c k) ∧ t.mem = s.mem ∧ t.host = s.host ∧
      t.fld (RF.TCW_FAULTS_COUNT core) = min (s.fld (RF.TCW_FAULTS_COUNT core) + 1) (2 ^ 32 - 1))

/-- Blocks on T-cores (after R145 to R153, R583): the descriptor is fetched (a walk of the primary leaf counted), checked and kept, or ends the program, as it does where no
core of its kind is live; a launch takes its place on its core
when everything it needs is free, and counts as issued; a block completes when its threads have exited and all its work has ended. -/
def Obligations.BlockLifeCycle : Prop :=
  ∀ (s u : State) (unit item core blk : Nat) (p : FrameProg) (b : TBlock) (d : List Byte),
    let t := u.walkOnce s.primary
    let bad := if (s.unitCores unit).all (fun c => decide (512 ≤ c)) then 0x0901 else 0x040B
    (s.wantsDesc unit = some p → p.entry % 32 ≠ 0 →
      exec (.blockDescriptorFetch unit) s =
        .next (s.terminate unit { code := bad, srcKind := 6, srcId := s.primary, addr := 0, detail := [] })) ∧
    (s.wantsDesc unit = some p → p.entry % 32 = 0 →
      s.devRead unit p.ctx 3 p.entry 32 (s.rangeCls unit p.ctx p.entry) = (u, .ok d false) →
      natBit (d.getD 31 0).toNat 7 = false → blockDescOk d = true → (∃ c ∈ t.unitCores unit, c < 512 ∧ t.deadCore c = false) →
      exec (.blockDescriptorFetch unit) s = .next ((t.setProg unit { p with desc := d }).askLower unit)) ∧
    (s.wantsDesc unit = some p → p.entry % 32 = 0 →
      s.devRead unit p.ctx 3 p.entry 32 (s.rangeCls unit p.ctx p.entry) = (u, .ok d false) →
      natBit (d.getD 31 0).toNat 7 = true → vDescOk d = true → (∃ c ∈ t.unitCores unit, 512 ≤ c ∧ t.deadCore c = false) →
      exec (.blockDescriptorFetch unit) s = .next ((t.setProg unit { p with desc := d }).askLower unit)) ∧
    (∀ v, s.wantsDesc unit = some p → p.entry % 32 = 0 →
      s.devRead unit p.ctx 3 p.entry 32 (s.rangeCls unit p.ctx p.entry) = (u, .ok d false) →
      natBit (d.getD 31 0).toNat 7 = v → (if v then vDescOk d else blockDescOk d) = true → (∃ c ∈ t.unitCores unit, decide (512 ≤ c) = v) →
      (∀ c ∈ t.unitCores unit, decide (512 ≤ c) = v → t.deadCore c = true) →
      exec (.blockDescriptorFetch unit) s = .next (t.terminate unit (t.lostRec unit (fun c => decide (512 ≤ c) == v)))) ∧
    (s.wantsDesc unit = some p → p.entry % 32 = 0 →
      s.devRead unit p.ctx 3 p.entry 32 (s.rangeCls unit p.ctx p.entry) = (u, .ok d false) →
      natBit (d.getD 31 0).toNat 7 = false → blockDescOk d = false →
      ∃ det, exec (.blockDescriptorFetch unit) s =
        .next (t.terminate unit { code := 0x040B, srcKind := 6, srcId := t.primary, addr := 0, detail := det })) ∧
    (s.itemCore unit item false = some (p, core) → s.fits core (blockNeed p.desc) = true →
      exec (.blockLaunch unit item) s = .next ((s.putBlock p core item).itemIssued unit item)) ∧
    (s.itemCore unit item false = some (p, core) → s.fits core (blockNeed p.desc) = false → exec (.blockLaunch unit item) s = .next s) ∧
    (s.tblock core blk = some b → core < 512 → s.alive = true →
      (∀ sl ∈ b.slots, s.groupQuiet core sl = true ∧ ∀ g, s.tgroup core sl = some g → g.live = 0) →
      (∀ e ∈ b.engs, (s.engine core e).mq = [] ∧ (s.engine core e).vq = [] ∧ (s.engine core e).ops = []) →
      exec (.blockComplete core blk) s =
        .next ((((s.freeBlock core blk).itemDone b.unit b.item).dropMove core b.unit).pumpRestores [core]))

/-- A launched group (after R147, R150, Table 4.2): its lanes are the block's threads, 32 to a group; r0 holds the item, r1 the thread, r2 and r3
ARGS, r4 the core; every other register, every predicate but p7, and the flags read 0, and nothing is on its way; the first instruction is at ENTRY + 32. -/
def Obligations.LaunchedGroup : Prop :=
  ∀ (blk idx threads item args core entry l : Nat), l < min 32 (threads - 32 * idx) →
    let g := launchGroup blk idx threads item args core entry
    g.reg l 0 = item % 2 ^ 32 ∧ g.reg l 1 = (l + 32 * idx) % 2 ^ 32 ∧ g.reg l 2 = args % 2 ^ 32 ∧ g.reg l 3 = args / 2 ^ 32 % 2 ^ 25 ∧
    g.reg l 4 = core % 2 ^ 32 ∧ (∀ r, 5 ≤ r → g.reg l r = 0) ∧ (∀ q, g.pred l q = decide (q = 7)) ∧ kvGet (fun _ => 0) g.flags l = 0 ∧
    g.pc = (entry + 32) % 2 ^ 57 ∧ g.wait = GWait.none ∧ g.live = g.active ∧ natBit g.active l = true ∧ g.pend = []

/-- Accesses of cores (after R178 to R184, R904 to R906): HOME_ACCESS performs one part of an access at its home, with what is one operation with it
(a block store's parts, an LDC's element and scale), when nothing it must follow is still on its way; data and acknowledgements return, and an access whose every part has been performed ends. -/
def Obligations.AccessLifeCycle : Prop :=
  ∀ (s t : State) (acc lane err : Nat) (a a' : Acc) (l : AccLane) (data : List Byte),
    s.acc acc = some a →
    ((a.tcore = true ∨ a.kind = 3) → a.lanes.find? (fun l => l.lane == lane && !l.performed && !l.remote) = some l → a.need = [] → s.alive = true →
      (∀ x ∈ a.together l, s.accWaits acc a x = false) → (s.homeErr a l err).performAll acc a (a.together l) = some (t, a') →
      exec (.homeAccess acc lane err) s = .next (t.setAcc acc (some a'))) ∧
    ((a.tcore = true ∨ a.kind = 3) → a.lanes.find? (fun l => l.lane == lane && !l.performed && !l.remote) = some l →
      (∃ x ∈ a.together l, s.accWaits acc a x = true) → exec (.homeAccess acc lane err) s = .next s) ∧
    (a.kind ≠ 1 → s.hostParts a = [] → (∀ l ∈ a.lanes, l.performed = true) → exec (.loadDataReturn acc data err) s = .next (s.finishAcc acc a)) ∧
    (s.hostParts a ≠ [] → err ≤ 3 → data.length = (s.hostParts a).foldl (fun m l => m + l.size) 0 →
      exec (.loadDataReturn acc data err) s =
        .next (let u := (s.bump64 RF.HIF_H2D_BYTES_COUNT_LO RF.HIF_H2D_BYTES_COUNT_HI data.length).hostData acc a err (s.hostParts a) data
               if a.kind = 1 then u else u.tryFinish acc)) ∧
    (a.kind ≠ 0 → (∀ l ∈ a.lanes, l.performed = true) → exec (.storeAck acc) s = .next (s.finishAcc acc a)) ∧
    ((∃ l ∈ a.lanes, l.performed = false) → exec (.storeAck acc) s = .next s)

/-- Preemption of a T-core (after R192 to R200): a drain ends and its longest length is kept; a save or a restore without a slot fails; T_PREEMPT of a
program without blocks on the core takes the request off the list, and of one with blocks begins the save. -/
def Obligations.CorePreemption : Prop :=
  ∀ (s : State) (core unit : Nat) (m : TMove) (p : FrameProg) (sv : TSave) (ext : List Byte) (poison : Bool),
    (s.preempts.find? (fun p => p.1 == core) = some (core, unit) → core < 512 → s.alive = true → (s.moveOn core).isNone = true →
      (∀ b ∈ s.coreBlocks core, b.2.unit ≠ unit) →
      exec (.tPreempt core) s = .next (((s.takePreempt core unit).setFlag (RF.TCW_STAT_RESTORING core) false).syncClock unit)) ∧
    (s.preempts.find? (fun p => p.1 == core) = some (core, unit) → core < 512 → s.alive = true → (s.moveOn core).isNone = true →
      (∃ b ∈ s.coreBlocks core, b.2.unit = unit) →
      ∃ t, exec (.tPreempt core) s = .next t ∧ t.flag (RF.TCW_STAT_SAVING core) = true) ∧
    (s.tc.moves.find? (fun m => m.core == core && m.stage == 1) = some m → s.alive = true → m.since < s.now → s.drained core m.unit = true →
      ∃ t, exec (.tDrainDone core) s = .next t ∧ t.tc.moves = s.tc.moves.map (fun x => if x = m then { x with stage := 2 } else x) ∧
        t.fld (RF.TCW_DRAIN_MAX_CYCLES core) = max (s.fld (RF.TCW_DRAIN_MAX_CYCLES core)) (min (s.now - m.since) (2 ^ 32 - 1))) ∧
    (s.tc.moves.find? (fun m => m.core == core && m.stage == 2) = some m → s.prog m.unit = some p → s.alive = true →
      s.tSaveBase core (s.prioOf m.unit) = 0 → exec (.tSaveDone core) s = .next (s.saveFail core m.unit (s.prioOf m.unit) 0)) ∧
    (s.tc.moves.find? (fun m => m.core == core && m.stage == 3) = some m → s.prog m.unit = some p →
      kvGet (fun _ => none) s.tc.saves (core * 8 + s.prioOf m.unit) = some sv → sv.unit = m.unit → s.alive = true →
      s.tSaveBase core (s.prioOf m.unit) = 0 → exec (.tRestoreDone core ext poison) s = .next (s.saveFail core m.unit (s.prioOf m.unit) 1))

/-- Table 9.4 (after R437 to R447): an instruction whose operand selection, element type and rounding mode are defined, with FS and XS on, leaves its core as
its row says and retires; an undefined one raises an illegal-instruction trap. -/
def Obligations.XslvArithmetic : Prop :=
  ∀ r ∈ vecRows, ∀ (core x : Nat) (w : BitVec 32) (s t : State), iOp w.toNat = 0x5B → xOp w.toNat = r.op → s.VIssues core w t x →
    (∀ v', (t.vcore core).xaOk x r.fp r.int = true → r.f (t.vstrict core) (t.vcore core) x = some v' →
      ∃ u, exec (r.instr core w) s = .next u ∧ t.VRetires u core v' (v'.pc + iLen w)) ∧
    ((t.vcore core).xaOk x r.fp r.int = false ∨ r.f (t.vstrict core) (t.vcore core) x = none →
      exec (r.instr core w) s = .next (t.villegal core w))

/-- R440, R439: a write of results to listed elements of vd changes those elements and no other bit of the register, and no other register. -/
def Obligations.XslvWritesActiveElements : Prop :=
  ∀ (v : VCore) (x sew : Nat) (rs : List (Nat × FRes)), (rs.map (fun r => r.1)).Nodup →
    (∀ r ∈ rs, elemOf sew ((v.putVd x sew rs).vr (iRd x)) r.1 = r.2.bits % 2 ^ sew) ∧
    (∀ i, i ∉ rs.map (fun r => r.1) → elemOf sew ((v.putVd x sew rs).vr (iRd x)) i = elemOf sew (v.vr (iRd x)) i) ∧
    (∀ k, k ≠ iRd x → (v.putVd x sew rs).vr k = v.vr k) ∧ (∀ k, (v.putVd x sew rs).rx k = v.rx k)

/-- The base instructions of a V-core (after R419): one that only writes registers leaves its core as the RISC-V rules say and retires; jumps and branches
go where they say; ECALL raises cause 8 + mode, an undefined word is illegal, and so is MRET below machine mode; WFI ends at once. What
the arrays of L1I report is taken before the fetch. -/
def Obligations.VcoreBaseInstructions : Prop :=
  ∀ (core x err : Nat) (w : BitVec 32) (s t : State) (v' : VCore), s.vready core = true → (s.fetchErr core err).VIssues core w t x → ownCommand x = false →
    let v := t.vcore core
    let link := ofSigned 64 ((v.pc : Int) + iLen w)
    (iOp x ≠ 0x6F → iOp x ≠ 0x67 → iOp x ≠ 0x63 → iOp x ≠ 0x73 → v.baseRegs x = some v' →
      ∃ u, exec (.vcoreBaseInstruction core w err) s = .next u ∧ t.VRetires u core v' (v'.pc + iLen w)) ∧
    (iOp x ≠ 0x6F → iOp x ≠ 0x67 → iOp x ≠ 0x63 → iOp x ≠ 0x73 → v.baseRegs x = none →
      exec (.vcoreBaseInstruction core w err) s = .next (t.villegal core w)) ∧
    (iOp x = 0x6F → ∃ u, exec (.vcoreBaseInstruction core w err) s = .next u ∧
      t.VRetires u core (v.wx (iRd x) link) (ofSigned 64 ((v.pc : Int) + immJ x))) ∧
    (iOp x = 0x67 → iF3 x = 0 → ∃ u, exec (.vcoreBaseInstruction core w err) s = .next u ∧
      t.VRetires u core (v.wx (iRd x) link) (ofSigned 64 ((v.rx (iRs1 x) : Int) + immI x) / 2 * 2)) ∧
    (iOp x = 0x63 → branchIf (iF3 x) (v.rx (iRs1 x)) (v.rx (iRs2 x)) = some true →
      exec (.vcoreBaseInstruction core w err) s = .next (t.vretireTo core (ofSigned 64 ((v.pc : Int) + immB x)))) ∧
    (iOp x = 0x63 → branchIf (iF3 x) (v.rx (iRs1 x)) (v.rx (iRs2 x)) = some false →
      exec (.vcoreBaseInstruction core w err) s = .next (t.vretire core w)) ∧
    (x = 0x00000073 → exec (.vcoreBaseInstruction core w err) s = .next (t.vraise core (8 + v.mode) false 0)) ∧
    (x = 0x10500073 → exec (.vcoreBaseInstruction core w err) s = .next (t.vretire core w)) ∧
    (x = 0x30200073 → v.mode ≠ 3 → exec (.vcoreBaseInstruction core w err) s = .next (t.villegal core w))

/-- Traps and CSRs of a V-core (after R424, R432, R460): a CSR instruction below the CSR's privilege, or of an undefined CSR, is illegal; otherwise the old
value goes to rd and the new one is written after it retires; a raised trap, and an enabled interrupt, is taken, its cause, the PC and its value saved: to supervisor mode where it is
delegated, else to machine mode where mtvec names a handler. -/
def Obligations.VcoreTrapsAndCsrs : Prop :=
  ∀ (core x : Nat) (w : BitVec 32) (s t : State),
    (iOp w.toNat = 0x73 → iF3 w.toNat ≠ 0 → s.VIssues core w t x → iF3 x % 4 ≠ 0 →
      t.csrRead core (natBits x 20 12) = none → exec (.vcoreCsrAccess core w) s = .next (t.villegal core w)) ∧
    (∀ old, iOp w.toNat = 0x73 → iF3 w.toNat ≠ 0 → s.VIssues core w t x → iF3 x % 4 ≠ 0 →
      t.csrRead core (natBits x 20 12) = some old → csrNew (t.vcore core) x old = none →
      ∃ u, exec (.vcoreCsrAccess core w) s = .next u ∧
        t.VRetires u core ((t.vcore core).wx (iRd x) old) (((t.vcore core).wx (iRd x) old).pc + iLen w)) ∧
    (∀ old new, iOp w.toNat = 0x73 → iF3 w.toNat ≠ 0 → s.VIssues core w t x → iF3 x % 4 ≠ 0 →
      t.csrRead core (natBits x 20 12) = some old → csrNew (t.vcore core) x old = some new → natBits x 20 12 / 1024 ≠ 3 → natBits x 20 12 ≠ 0x8C0 →
      exec (.vcoreCsrAccess core w) s =
        .next (((t.setVcore core ((t.vcore core).wx (iRd x) old)).vretire core w).csrWrite core (natBits x 20 12) new)) ∧
    (∀ tr, (s.vcore core).trap = some tr → s.alive = true → (s.vcore core).running = true → (s.vcore core).stopped = false →
      exec (.vcoreTrap core) s = .next (s.takeTrap core tr.cause false tr.addr tr.tval)) ∧
    (∀ cause addr tval, (s.vcore core).mode ≤ 1 → natBit ((s.vcore core).csrv 0x302) cause = true →
      let u := s.takeTrap core cause false addr tval
      let v := u.vcore core
      v.mode = 1 ∧ v.pc = (s.vcore core).csrv 0x105 / 4 * 4 % 2 ^ 64 ∧ v.csrv 0x142 = cause ∧ v.csrv 0x141 = (s.vcore core).pc ∧ v.csrv 0x143 = tval ∧
      v.trap = none ∧ v.resv = none ∧ u.mem = s.mem) ∧
    (∀ cause addr tval, ¬ ((s.vcore core).mode ≤ 1 ∧ natBit ((s.vcore core).csrv 0x302) cause = true) → (s.vcore core).csrv 0x305 ≠ 0 →
      let u := s.takeTrap core cause false addr tval
      let v := u.vcore core
      v.mode = 3 ∧ v.pc = (s.vcore core).csrv 0x305 / 4 * 4 % 2 ^ 64 ∧ v.csrv 0x342 = cause ∧ v.csrv 0x341 = (s.vcore core).pc ∧ v.csrv 0x343 = tval ∧
      v.trap = none ∧ v.resv = none ∧ u.mem = s.mem) ∧
    (∀ i, s.alive = true → core < 128 → (s.vcore core).running = true → (s.vcore core).stopped = false → (s.vcore core).trap = none →
      (s.vcore core).waitTmb = false → (s.vcore core).xslv = none → (s.vcore core).twait = none → s.vloading core = false →
      s.moveOn (core + 512) = none → s.vheld core = false → s.vintr core = some i →
      exec (.vcoreInterrupt core) s =
        .next ((s.setVcore core { s.vcore core with twait := none, xslv := none }).takeTrap core i true false 0))

/-- The scalar memory instructions of a V-core (after R422 to R425, R436, R470, R471). A load or store translates first (vlookRun); one of device memory
whose lines L1D holds delivers its bytes or writes them and retires; one of host memory or a window is sent. LR reserves its line; SC writes when the line
is reserved, and otherwise rd := 1; the reservation ends. An AMO on device memory returns the old value, or is sent as a reduction; one elsewhere is sent;
with rl an SC or AMO waits for the core's accesses on their way. A fence that has nothing to wait for retires; FENCE.I empties L1I and retires; SFENCE.VMA
is illegal in user mode, and in supervisor mode under TVM. -/
def Obligations.VcoreScalarMemory : Prop :=
  ∀ (core x err ctx va k : Nat) (w : BitVec 32) (s t t1 t2 : State) (o : VMemOp) (r : RangeEnt) (bs : List Byte),
    let v := t.vcore core
    let isMem := iOp x = 0x03 ∨ iOp x = 0x07 ∨ iOp x = 0x23 ∨ iOp x = 0x27
    let atom := fun (access n : Nat) => iOp w.toNat = 0x2F ∧ iRs3 w.toNat = n ∧ (iF3 x = 2 ∨ iF3 x = 3) ∧ v.rx (iRs1 x) % amoSize x = 0 ∧ ctx = v.ctxOf access ∧
      va = v.rx (iRs1 x) ∧ t1.vbytesBusy core ctx va (amoSize x) = false
    let lines := fun (wr : Bool) => t1.l2Lines core ctx va (amoSize x) wr = (t2, true) ∧ (t2.vcore core).running = true ∧
      t2.l2Serves core (lineOf (t1.vcore core).unit ctx va) wr = true
    let released := natBit x 25 = false ∨ t1.vstoring core = false
    s.VIssues core w t x →
    (isMem → v.memOp x = none → exec (.vcoreLoadStore core w err) s = .next (t.villegal core w)) ∧
    (isMem → v.memOp x = some o → t.vlookRun core o.access o.va o.size = (t1, .fail k, va) →
      exec (.vcoreLoadStore core w err) s = .next (t1.vaccFail core o.access k va (v.range15 o.access) none)) ∧
    (isMem → v.memOp x = some o → t.vlookRun core o.access o.va o.size = (t1, .dev r, va) → t1.vbytesBusy core (v.ctxOf o.access) o.va o.size = false →
      t1.vlines core (v.ctxOf o.access) o.va o.size false = (t2, true) → o.access = 0 → (t2.vcore core).running = true →
      t2.l2Serves core (lineOf (t2.vcore core).unit (v.ctxOf o.access) o.va) false = true →
      (t2.l1dAt core (lineOf (t2.vcore core).unit (v.ctxOf o.access) o.va)).isSome = true → t2.l1Read core (v.ctxOf o.access) o.va o.size = (bs, false) →
      ∃ u, exec (.vcoreLoadStore core w 0) s = .next u ∧ t2.VRetires u core ((t2.vcore core).deliver x (leNat bs))
        (((t2.vcore core).deliver x (leNat bs)).pc + iLen w)) ∧
    (isMem → v.memOp x = some o → t.vlookRun core o.access o.va o.size = (t1, .dev r, va) → t1.vbytesBusy core (v.ctxOf o.access) o.va o.size = false →
      t1.vlines core (v.ctxOf o.access) o.va o.size true = (t2, true) → o.access = 1 → (t2.vcore core).running = true →
      t2.l2Serves core (lineOf (t2.vcore core).unit (v.ctxOf o.access) o.va) true = true →
      (t2.l1dAt core (lineOf (t2.vcore core).unit (v.ctxOf o.access) o.va)).isSome = true →
      exec (.vcoreLoadStore core w 0) s = .next ((t2.l1Write core (v.ctxOf o.access) o.va o.data).vretire core w)) ∧
    (∀ tr, isMem → v.memOp x = some o → t.vlookRun core o.access o.va o.size = (t1, tr, va) → (∃ n b, tr = .host n b) ∨ (∃ e n, tr = .win e n) →
      t1.vbytesBusy core (v.ctxOf o.access) o.va o.size = false → o.va % o.size = 0 →
      exec (.vcoreLoadStore core w err) s = .next (let u := t1.vissueAcc core w x (v.ctxOf o.access) o.access o.va o.size 0 0 o.data
        if o.access = 0 then u else u.vretire core w)) ∧
    (atom 0 2 → iRs2 x = 0 → t.vlook core 0 va = (t1, .dev r) → lines false → t2.vread core ctx va (amoSize x) = (bs, false) →
      let u := (t2.vcore core).deliver x (leNat bs)
      ∃ y, exec (.lr core w 0) s = .next y ∧ t2.VRetires y core { u with resv := some (lineOf u.unit ctx va) } (u.pc + iLen w)) ∧
    (atom 1 3 → t.vlook core 1 va = (t1, .dev r) → released → (t1.vcore core).resv ≠ some (lineOf v.unit ctx va) →
      let u := (t1.vcore core).wx (iRd x) 1
      ∃ y, exec (.sc core w err) s = .next y ∧ t1.VRetires y core { u with resv := none } (u.pc + iLen w)) ∧
    (atom 1 3 → t.vlook core 1 va = (t1, .dev r) → released → (t1.vcore core).resv = some (lineOf v.unit ctx va) → lines true →
      let t3 := t2.vwrite core ctx va (leBytes (amoSize x) (v.rx (iRs2 x)))
      let u := (t3.vcore core).wx (iRd x) 0
      ∃ y, exec (.sc core w 0) s = .next y ∧ t3.VRetires y core { u with resv := none } (u.pc + iLen w)) ∧
    (∀ aop ty, atom 2 (iRs3 w.toNat) → iRs3 w.toNat ≠ 2 → iRs3 w.toNat ≠ 3 → amoOp x = some (aop, ty) → amoReduces x aop = false →
      t.vlook core 2 va = (t1, .dev r) → released → lines true → t2.vread core ctx va (amoSize x) = (bs, false) →
      let new := atomOp aop ty (leNat bs) (leNat (leBytes (amoSize x) (v.rx (iRs2 x)))) 0
      let t3 := t2.vwrite core ctx va (leBytes (amoSize x) new)
      let u := (t3.vcore core).deliver x (leNat bs)
      ∃ y, exec (.amo core w 0) s = .next y ∧ t3.VRetires y core u (u.pc + iLen w)) ∧
    (∀ aop ty, atom 2 (iRs3 w.toNat) → iRs3 w.toNat ≠ 2 → iRs3 w.toNat ≠ 3 → amoOp x = some (aop, ty) → amoReduces x aop = true →
      t.vlook core 2 va = (t1, .dev r) →
      exec (.amo core w err) s = .next ((t1.vissueAcc core w x ctx 3 va (amoSize x) aop ty (leBytes (amoSize x) (v.rx (iRs2 x)))).vretire core w)) ∧
    (∀ aop ty tr, atom 2 (iRs3 w.toNat) → iRs3 w.toNat ≠ 2 → iRs3 w.toNat ≠ 3 → amoOp x = some (aop, ty) → t.vlook core 2 va = (t1, tr) → released →
      ((∃ n b, tr = .host n b) ∧ (aop = 0 ∨ aop = 6)) ∨ (∃ e n, tr = .win e n) →
      exec (.amo core w err) s = .next (t1.vissueAcc core w x ctx 2 va (amoSize x) aop ty (leBytes (amoSize x) (v.rx (iRs2 x))))) ∧
    (iOp w.toNat = 0x0F → iF3 w.toNat = 0 → iF3 x = 0 →
      (if natBit w.toNat 27 || natBit w.toNat 26 || natBit w.toNat 23 || natBit w.toNat 22 then t.vstoring core else t.vreducing core) = false →
      exec (.vcoreFence core w) s = .next (t.vretire core w)) ∧
    (iOp w.toNat = 0x0F → iF3 w.toNat = 1 → exec (.fenceI core w) s = .next ((t.flushL1i core).vretire core w)) ∧
    (iOp w.toNat = 0x73 → iF3 w.toNat = 0 → iF7 w.toNat = 9 → iRd x = 0 → (v.mode = 3 ∨ (v.mode = 1 ∧ v.ms 20 1 ≠ 1)) →
      exec (.sfenceVma core w) s = .next ((t.sfence core (if iRs2 x = 0 then none else some (v.rx (iRs2 x) % 65536))
        (if iRs1 x = 0 then none else some (v.rx (iRs1 x)))).vretire core w)) ∧
    (iOp w.toNat = 0x73 → iF3 w.toNat = 0 → iF7 w.toNat = 9 → (v.mode = 0 ∨ (v.mode = 1 ∧ v.ms 20 1 = 1)) →
      exec (.sfenceVma core w) s = .next (t.villegal core w))

/-- Xslv memory and Xslm instructions (after R448 to R465): a memory instruction of a defined form begins with the translation of what it
accesses; its access phase begins when every block has translated, and it ends when every part has been performed; XMZERO, XMRD and XMWR act on
the cells of an accumulator, XMOP adds the outer products of K pairs. -/
def Obligations.XslvMemoryAndXslm : Prop :=
  ∀ (core x id : Nat) (w : BitVec 32) (s t : State) (y : XslvOp),
    (∀ q ∈ [(Instr.vld, 0, 0), (Instr.vst, 1, 1), (Instr.vldx, 2, 0), (Instr.vstx, 3, 1), (Instr.vldc, 4, 0), (Instr.vstc, 5, 1)],
      iOp w.toNat = 0x0B → xMode w.toNat = q.2.1 → s.VIssues core w t x →
      ((t.vcore core).xmemOk x = true → ∃ runs, exec (q.1 core w) s = .next (t.xmemBegin core w q.2.2 runs)) ∧
      ((t.vcore core).xmemOk x = false → exec (q.1 core w) s = .next (t.villegal core w))) ∧
    (iOp w.toNat = 0x0B → xMode w.toNat = 0 → s.VIssues core w t x → (t.vcore core).xmemOk x = true →
      exec (.vld core w) s = .next (t.xmemBegin core w 0 ((t.vcore core).unitRuns x false))) ∧
    ((s.vcore core).xslv = some y → s.alive = true → (s.vcore core).running = true → (s.vcore core).stopped = false → y.acc = none → y.need = [] →
      s.checkRuns core y.w.toNat y.kind ((s.vcore core).checkList y.w.toNat y.kind y.els) = none →
      (∀ l ∈ y.els, s.vbytesBusy core ((s.vcore core).ctxOf y.kind) l.va l.size = false) → exec (.xslvTranslationDone core) s = .next (s.xslvAccess core y)) ∧
    (∀ l va k, (s.vcore core).xslv = some y → s.alive = true → (s.vcore core).running = true → (s.vcore core).stopped = false → y.acc = none → y.need = [] →
      s.checkRuns core y.w.toNat y.kind ((s.vcore core).checkList y.w.toNat y.kind y.els) = some (l, k, va) → k ≠ 1 →
      exec (.xslvTranslationDone core) s = .next ((s.setVcore core { s.vcore core with xslv := none }).vaccFail core y.kind (k - 2) va
        ((s.vcore core).range15 y.kind) (some (l.lane / 16)))) ∧
    (∀ a a' : Acc, (s.vcore core).xslv = some y → y.acc = some id → s.acc id = some a → s.alive = true → (s.vcore core).running = true →
      s.xslvStep core (s.vcore core).sk a = (t, a') → (∀ l ∈ a'.lanes, l.performed = true) →
      exec (.xslvAccessDone core 0) s = .next ((t.setAcc id (some a')).xslvEnd core y id a')) ∧
    (∀ v', iOp w.toNat = 0x7B → xOp w.toNat = 0 → s.VIssues core w t x → (t.vcore core).fsOn = true → (t.vcore core).xsOn = true →
      iF3 x < 6 → 0 < (t.vcore core).rx (iRd x) → (t.vcore core).rx (iRd x) ≤ xmLimit (iF3 x) → (t.vcore core).frm ≤ 4 →
      v' = xmCells.foldl (fun u rc =>
        let at' := fun (reg i : Nat) => (xmFmt (iF3 x)).decode (natBits reg ((xmFmt (iF3 x)).width * i) (xmFmt (iF3 x)).width)
        let res := xmChain { rnd := (t.vcore core).frm, strict := true } (t.vstrict core) ((List.range ((t.vcore core).rx (iRd x))).map (fun j =>
          (at' ((t.vcore core).vr (iRs1 x)) (8 * j + rc.1), at' ((t.vcore core).vr (iRs2 x)) (8 * j + rc.2))))
          { bits := (t.vcore core).xaCell (xT x) rc.1 rc.2 }
        (u.setCell (xT x) rc.1 rc.2 res.bits).accrue res.flags) (t.vcore core).dirtyX →
      ∃ u, exec (.xmop core w) s = .next u ∧ t.VRetires u core v' (v'.pc + iLen w)) ∧
    (iOp w.toNat = 0x7B → xOp w.toNat = 1 → s.VIssues core w t x → (t.vcore core).fsOn = true → (t.vcore core).xsOn = true →
      iRd x = 0 → iF3 x = 0 → iRs1 x = 0 → iRs2 x = 0 →
      ∃ u v', exec (.xmzero core w) s = .next u ∧ t.VRetires u core v' (v'.pc + iLen w) ∧ ∀ r < 8, ∀ c < 8, v'.xaCell (xT x) r c = 0) ∧
    (iOp w.toNat = 0x7B → xOp w.toNat = 2 → s.VIssues core w t x → (t.vcore core).fsOn = true → (t.vcore core).xsOn = true →
      iF3 x = 0 → iRs1 x = 0 → iRs2 x = 0 →
      ∃ u v', exec (.xmrd core w) s = .next u ∧ t.VRetires u core v' (v'.pc + iLen w) ∧
        ∀ r < 8, ∀ c < 8, elemOf 64 (v'.vr (iRd x)) (8 * r + c) = (t.vcore core).xaCell (xT x) r c % 2 ^ 64) ∧
    (iOp w.toNat = 0x7B → xOp w.toNat = 3 → s.VIssues core w t x → (t.vcore core).fsOn = true → (t.vcore core).xsOn = true →
      iRd x = 0 → iF3 x = 0 → iRs2 x = 0 →
      ∃ u v', exec (.xmwr core w) s = .next u ∧ t.VRetires u core v' (v'.pc + iLen w) ∧
        ∀ r < 8, ∀ c < 8, v'.xaCell (xT x) r c = elemOf 64 ((t.vcore core).vr (iRs1 x)) (8 * r + c))

/-- The tumbler instructions of a V-core (after R661 to R663): TARV, TPOLL, TTAKE and TPUT send their operation, and the core waits for its reply; TWAIT
waits in place with its deadline; a number outside the unit's tumblers ends the program with 0x0D03. -/
def Obligations.VcoreTumblers : Prop :=
  ∀ (core x : Nat) (w : BitVec 32) (s t : State) (u : UnitEnt),
    let v := t.vcore core
    let a := v.rx (iRs1 x)
    let n := a % 2 ^ 32
    let req : TmbReq :=
      { src := .vcore core, kind := 3, id := core, op := .arrive, tmb := n, operand := v.rx (iRs2 x) % 2 ^ 32, unit := v.unit, dest := iRd x,
        pc := v.pc, after := t.nextAcc, sys := natBit x 26, acq := natBit x 25 }
    iOp w.toNat = 0x2B → s.VIssues core w t x → natBits x 27 5 = 0 → t.unitEnt v.unit = some u →
    (∀ q ∈ [(Instr.tarv, 0, TmbOp.arrive), (Instr.tpoll, 1, TmbOp.poll), (Instr.ttake, 3, TmbOp.take), (Instr.tput, 4, TmbOp.put)],
      iF3 w.toNat = q.2.1 → a < 2 ^ 32 → n < 32768 → u.tmbBase ≤ n → n < u.tmbBase + u.tmbCount →
      ∃ y, exec (q.1 core w) s = .next y ∧ y.tmb.reqs = t.tmb.reqs ++ [{ req with op := q.2.2 }] ∧
        y.vcore core = { v with pc := (v.pc + iLen w) % 2 ^ 64, gap := none, missed := [], waitTmb := true }) ∧
    (iF3 w.toNat = 2 → n < 32768 → u.tmbBase ≤ n → n < u.tmbBase + u.tmbCount →
      ∃ y, exec (.twait core w) s = .next y ∧ y.tmb.reqs = t.tmb.reqs ++ [{ req with op := .wait }] ∧
        y.vcore core = { v with twait := some (n, iRd x, if a / 2 ^ 32 = 0 then none else some (t.coreClock (512 + core) + a / 2 ^ 32)) }) ∧
    (iF3 w.toNat = 0 → (n < u.tmbBase ∨ u.tmbBase + u.tmbCount ≤ n ∨ 32768 ≤ n ∨ 2 ^ 32 ≤ a) →
      exec (.tarv core w) s = .next (t.vfault core { code := 0x0D03, precise := true, detail := detailOf [(52, 4, n)] }))

/-- Work items and preemption of a V-core (after R426 to R430, R477 to R481): an item starts with a0 to a3 holding the item, ARGS, the core and
the number of items; a write of XSLITEM with DONE ends it once everything it waits for has ended, with ABORT ends the program with 0x0903; a
preempted core stops; a save without a slot fails; a restore takes the core from what its slot holds. -/
def Obligations.VcoreItemLifeCycle : Prop :=
  ∀ (unit item core c x n : Nat) (w : BitVec 32) (s t : State) (p : FrameProg) (m : TMove) (sv : VCore) (old : Nat) (ext bs : List Byte) (poison : Bool),
    (s.itemCore unit item true = some (p, c) → (s.vcore (c - 512)).running = false → s.vdead (c - 512) = false →
      exec (.vcoreItemStart unit item) s = .next ((((s.setVcore (c - 512) (startItem p (s.prioOf unit) (c - 512) item)).setFlag
        (RF.VCW_STAT_RUNNING (c - 512)) true).setFld (RF.VCW_STAT_PRIV (c - 512)) (startItem p (s.prioOf unit) (c - 512) item).mode).itemIssued unit item)) ∧
    (let v := startItem p unit core item;
      v.running = true ∧ v.rx 10 = item % 2 ^ 64 ∧ v.rx 11 = p.args % 2 ^ 64 ∧ v.rx 12 = core % 2 ^ 64 ∧ v.rx 13 = p.items % 2 ^ 64 ∧
      v.pc = (p.entry + 32) % 2 ^ 64) ∧
    (s.xslItemValue core w = some n → natBit n 0 = true → natBit n 1 = false → s.VIssues core w t x → iF3 x % 4 ≠ 0 → natBits x 20 12 = 0x8C0 →
      t.csrRead core 0x8C0 = some old → csrNew (t.vcore core) x old = some n → t.vquiet core = true →
      exec (.xslitemDone core w) s = .next ((t.vretire core w).vitemEnds core)) ∧
    (s.xslItemValue core w = some n → natBit n 1 = true → s.VIssues core w t x → iF3 x % 4 ≠ 0 → natBits x 20 12 = 0x8C0 →
      t.csrRead core 0x8C0 = some old → csrNew (t.vcore core) x old = some n →
      exec (.xslitemAbort core w) s = .next (t.vfault core { code := 0x0903, precise := true, detail := detailOf [(52, 2, natBits n 16 16)] })) ∧
    (s.preempts.find? (fun p => p.1 == core + 512) = some (core + 512, unit) → core < 128 → s.alive = true → (s.moveOn (core + 512)).isNone = true →
      (s.vcore core).running = true → (s.vcore core).unit = unit →
      ∃ u, exec (.vPreempt core) s = .next u ∧ u.flag (RF.VCW_STAT_SAVING core) = true ∧ (u.vcore core).stopped = true ∧ (u.vcore core).resv = none) ∧
    (s.vc.moves.find? (fun m => m.core == core && m.stage == 1) = some m → s.prog m.unit = some p → s.alive = true → (s.vcore core).xslv = none →
      (s.vcore core).waitTmb = false → s.vquiet core = true → s.vSaveBase core (s.prioOf m.unit) = 0 →
      exec (.vSaveDone core) s = .next (s.vSaveFail core m.unit (s.prioOf m.unit) 0)) ∧
    (s.vc.moves.find? (fun m => m.core == core && m.stage == 3) = some m → s.prog m.unit = some p →
      kvGet (fun _ => none) s.vc.saves (core * 8 + s.prioOf m.unit) = some sv → sv.unit = m.unit → s.alive = true →
      s.vSaveBase core (s.prioOf m.unit) ≠ 0 → s.slotXlt m.unit p.ctx 0 (s.vSaveBase core (s.prioOf m.unit)) vSaveParts = 0 →
      ext.length = s.slotAway m.unit p.ctx (s.vSaveBase core (s.prioOf m.unit)) vSaveParts → poison = false ∨ ext = [] →
      s.getRuns m.unit p.ctx (slotRuns (s.vSaveBase core (s.prioOf m.unit)) vSaveParts) ext = (t, bs, false) →
      ∃ u, exec (.vRestoreDone core ext poison) s = .next u ∧ u.vcore core = { sv.fromSlot (partBytes vSaveParts bs) with stopped := false } ∧
        kvGet (fun _ => none) u.vc.saves (core * 8 + s.prioOf m.unit) = none)

/-- The engines of a T-core (after R275, R276, R283, R297 to R301, R309, R346, R354, R404) and the barrier watchdog (after R409), which acts after the end-of-frame cycle of
its frame: accepting an invalid
descriptor raises 0x0603 or 0x0701, accepting a valid one marks it accepted; a chunk that commits without an overflow advances the descriptor;
an overflow where replay applies starts it again or faults; a descriptor whose units are all committed retires and is counted; a vector
descriptor that may start starts, unless its partials differ (0x0605), and completes with its results in local memory. -/
def Obligations.EngineDescriptors : Prop :=
  ∀ (core eng k i : Nat) (p : Nat × Nat) (ps : List (Nat × Nat)) (g : AccGroup) (s : State) (b : TBlock) (d : Desc) (rest : List Desc),
    let e := s.engine core eng
    (s.engBlock core eng = some b → e.mq.find? (fun d => !d.accepted) = some d →
      d.mInvalid (s.descEnv b (d.mmode b) (e.viewAt b d.grp d.issue)) = some k →
      exec (.mxeDescAccept core eng) s = .next (s.engFault core eng 0x0603 d (detailOf [(52, 1, k), (53, 1, d.grp), (56, 4, d.addr)]))) ∧
    (s.engBlock core eng = some b → e.mq.find? (fun d => !d.accepted) = some d →
      d.mInvalid (s.descEnv b (d.mmode b) (e.viewAt b d.grp d.issue)) = none →
      exec (.mxeDescAccept core eng) s
        = .next ((s.setEngine core eng { e with mq := putDesc e.mq { d with accepted := true } }).pumpEngine core eng)) ∧
    (s.engBlock core eng = some b → e.current b = some d → d.started = true → b.stopped = false → s.alive = true →
      d.commit b.localMem (d.mmode b).1 (d.mmode b).2 (e.grp d.grp) = (g, []) →
      exec (.mxeChunkCommit core eng) s
        = .next (((s.bumpN (RF.MXE_BUSY_CYCLES core eng) (chunkCycles d.cls (d.mmode b).1)).setEngine core eng
            ({ e with mq := putDesc e.mq { d with next := d.next + 1 }, finishing := false }.setGrp d.grp g)).pumpEngine core eng)) ∧
    (s.engBlock core eng = some b → e.current b = some d → d.started = true → b.stopped = false → s.alive = true →
      d.commit b.localMem (d.mmode b).1 (d.mmode b).2 (e.grp d.grp) = (g, p :: ps) → d.replayable (d.mmode b).1 = true →
      exec (.mxeChunkCommit core eng) s
        = .next ((s.bumpN (RF.MXE_BUSY_CYCLES core eng) (chunkCycles d.cls (d.mmode b).1)).mxeReplay core eng d p)) ∧
    (s.engBlock core eng = some b → e.mq = d :: rest → d.started = true → d.units (d.mmode b).1 ≤ d.next →
      exec (.mxeDescRetire core eng) s
        = .next ((if d.b 0 7 then ((s.setEngine core eng { e with mq := rest }).bump (RF.MXE_DESC_COUNT core eng)).devArrive 2 (4 * core + eng) (d.f 8 22 8)
          else (s.setEngine core eng { e with mq := rest }).bump (RF.MXE_DESC_COUNT core eng)).pumpEngine core eng)) ∧
    (s.engBlock core eng = some b → e.vq.find? (fun d => !d.accepted) = some d →
      d.vInvalid b.localMem (s.descEnv b (d.vmode b) (e.viewAt b d.sgrp d.issue)) = some (k, i) →
      exec (.vxeDescAccept core eng) s = .next (s.engFault core eng 0x0701 d (detailOf [(52, 1, k), (53, 1, i), (56, 4, d.addr)]))) ∧
    (s.engBlock core eng = some b → e.vq.find? (fun d => !d.accepted) = some d →
      d.vInvalid b.localMem (s.descEnv b (d.vmode b) (e.viewAt b d.sgrp d.issue)) = none →
      exec (.vxeDescAccept core eng) s
        = .next ((s.setEngine core eng { e with vq := putDesc e.vq { d with accepted := true } }).pumpEngine core eng)) ∧
    (s.engBlock core eng = some b → e.vq.find? (fun d => !d.started) = some d → s.vReady core e b d = true → b.stopped = false → s.alive = true →
      exec (.vxeDescStart core eng) s
        = .next (if d.form == 2 && partialsDiffer (d.paddX b.localMem (e.grp d.sgrp)) (d.paddY b.localMem)
          then s.engFault core eng 0x0605 d (detailOf [(52, 8, d.f 52 18 0)])
          else (s.setEngine core eng { e with vq := putDesc e.vq { d with started := true } }).pumpEngine core eng)) ∧
    (∀ blk, (s.coreBlocks core).find? (fun x => x.2.engs.contains eng) = some (blk, b) → e.vq = d :: rest → d.started = true → s.engFaulted core eng = false →
      let o := d.vrun b.localMem (d.vmode b).1 (d.vmode b).2 (e.grp d.sgrp)
      let g := if (d.vmode b).1 then { e.grp d.sgrp with flags := Nat.lor (e.grp d.sgrp).flags o.flags } else e.grp d.sgrp
      let t := ((((s.setTblock core blk (some { b with localMem := o.mem })).setEngine core eng
        ({ e with vq := rest }.setGrp d.sgrp (if d.rel then {} else g))).bump (RF.VXE_DESC_COUNT core eng)).bumpN
          (RF.VXE_ROWS_COUNT core eng) o.slots).bumpN (RF.VXE_SAT_COUNT core eng) o.sats
      exec (.vxeDescComplete core eng) s
        = .next ((if d.b 0 5 then t.devArrive 2 (4 * core + eng) (d.f 8 14 0) else t).pumpEngine core eng)) ∧
    (∀ blk bar x, s.tick.lastTick.getD 0 + 32 < s.now → s.tblock core blk = some b → b.bars[bar]? = some x → s.watchdogDue b x = true →
      exec (.barrierWatchdog core blk bar) s = .next (s.fireWatchdog core b bar x)) ∧
    (∀ blk bar x sv, s.tick.lastTick.getD 0 + 32 < s.now → s.tblock core blk = none → s.savedBlock core blk = some (sv, b) → b.bars[bar]? = some x → s.watchdogDue b x = true →
      exec (.barrierWatchdog core blk bar) s = .next (s.fireSaved core sv b bar x))

/-- A device's arrival at its home (after R642 to R645, R648): a counter takes VALUE + w and fires when VALUE − TARGET, a signed 32-bit value, goes
from below 0 to 0 or more, which adds STEP to TARGET; a barrier fires at EXPECTED, back to COUNT 0, and counts its excess; an event is set
and fires, or is cleared by weight 0; each firing raises GEN by 1, modulo 2^16; any other kind refuses it, and only the refusal is counted. -/
def Obligations.TumblerArrival : Prop :=
  ∀ (n : Nat) (s s1 : State) (r : TmbReq), s.homeReq n .arrive = some (s1, r) → r.src = .dev →
    let t := s1.tmbAt r.tmb
    let w := r.operand
    (t.kind = 1 → ∃ u, exec (.tmbHomeArrive n) s = .next u ∧ (u.tmbAt r.tmb).kind = 1 ∧ (u.tmbAt r.tmb).value = (t.value + w) % 2 ^ 32 ∧
      (if (BitVec.ofNat 32 t.value - BitVec.ofNat 32 t.target).toInt < 0 ∧ 0 ≤ (BitVec.ofNat 32 (t.value + w) - BitVec.ofNat 32 t.target).toInt
       then (u.tmbAt r.tmb).gen = (t.gen + 1) % 65536 ∧ (u.tmbAt r.tmb).target = (t.target + t.step) % 2 ^ 32
       else (u.tmbAt r.tmb).gen = t.gen ∧ (u.tmbAt r.tmb).target = t.target)) ∧
    (t.kind = 2 → w ≤ 65535 → t.value + w < t.expected → ∃ u, exec (.tmbHomeArrive n) s = .next u ∧
      u.tmbAt r.tmb = { t with value := t.value + w }) ∧
    (t.kind = 2 → w ≤ 65535 → t.expected ≤ t.value + w → ∃ u, exec (.tmbHomeArrive n) s = .next u ∧
      (u.tmbAt r.tmb).value = 0 ∧ (u.tmbAt r.tmb).gen = (t.gen + 1) % 65536 ∧ (u.tmbAt r.tmb).expected = t.expected ∧
      u.fld (RF.MGT_TMB_EXCESS_COUNT (tmbLeaf r.tmb))
        = min (s1.fld (RF.MGT_TMB_EXCESS_COUNT (tmbLeaf r.tmb)) + (t.value + w - t.expected)) (2 ^ 32 - 1)) ∧
    (t.kind = 3 → w = 0 → ∃ u, exec (.tmbHomeArrive n) s = .next u ∧ u.tmbAt r.tmb = { t with value := 0 }) ∧
    (t.kind = 3 → w ≠ 0 → t.value = 0 → ∃ u, exec (.tmbHomeArrive n) s = .next u ∧
      (u.tmbAt r.tmb).value = 1 ∧ (u.tmbAt r.tmb).gen = (t.gen + 1) % 65536) ∧
    (t.kind = 3 → w ≠ 0 → t.value ≠ 0 → ∃ u, exec (.tmbHomeArrive n) s = .next u ∧ u.tmbAt r.tmb = t) ∧
    (t.takesArrival w = false → exec (.tmbHomeArrive n) s = .next (s1.tmbRefused r.tmb) ∧ (s1.tmbRefused r.tmb).tmbAt r.tmb = t ∧
      (s1.tmbRefused r.tmb).fld (RF.MGT_TMB_REFUSED_COUNT (tmbLeaf r.tmb))
        = min (s1.fld (RF.MGT_TMB_REFUSED_COUNT (tmbLeaf r.tmb)) + 1) (2 ^ 32 - 1))

/-- The other operations at a home (after R643, R646 to R648, R659): a POLL returns the state word and leaves the tumbler; a TAKE removes the oldest
token, a PUT appends one and fires the queue, and either fails on an empty or full queue, which changes nothing; a WAIT that has ended answers
at once, else it is registered, or turned back when no registration is free; what the kind does not permit is refused. -/
def Obligations.TumblerPollWaitTakePut : Prop :=
  ∀ (n x : Nat) (xs : List Nat) (s s1 : State) (r : TmbReq),
    let t := s1.tmbAt r.tmb
    let o := s1.bump (RF.MGT_TMB_OPS_COUNT (tmbLeaf r.tmb))
    o.tmbAt r.tmb = t ∧
    (s.homeReq n .poll = some (s1, r) → exec (.tmbHomePoll n) s = .next (o.tmbDone r (fun g => g.land r.tag r.lane r.dest t.word 1) t.word)) ∧
    (s.homeReq n .take = some (s1, r) → t.kind = 4 → t.tokens = x :: xs →
      exec (.tmbHomeTake n) s = .next ((o.putTmb r.tmb { t with tokens := xs }).tmbDone r
        (fun g => (g.land r.tag r.lane r.dest x 1).landPred r.tag r.lane r.pd true) (x + 2 ^ 32))) ∧
    (s.homeReq n .take = some (s1, r) → t.kind = 4 → t.tokens = [] →
      exec (.tmbHomeTake n) s = .next (o.tmbDone r (fun g => (g.land r.tag r.lane r.dest 0 1).landPred r.tag r.lane r.pd false) 0)) ∧
    (s.homeReq n .take = some (s1, r) → t.kind ≠ 4 → exec (.tmbHomeTake n) s = .next ((s1.tmbRefused r.tmb).tmbRefusedBack r)) ∧
    (s.homeReq n .put = some (s1, r) → t.kind = 4 → t.tokens.length < 2 ^ t.log2 →
      let f := (o.putTmb r.tmb { t with tokens := t.tokens ++ [r.operand % 2 ^ 32] }).fireTmb r.tmb
      exec (.tmbHomePut n) s = .next (f.tmbDone r (fun g => g.landPred r.tag r.lane r.pd true) 1) ∧
      (f.tmbAt r.tmb).tokens = t.tokens ++ [r.operand % 2 ^ 32] ∧ (f.tmbAt r.tmb).gen = (t.gen + 1) % 65536) ∧
    (s.homeReq n .put = some (s1, r) → t.kind = 4 → 2 ^ t.log2 ≤ t.tokens.length →
      exec (.tmbHomePut n) s = .next (o.tmbDone r (fun g => g.landPred r.tag r.lane r.pd false) 0)) ∧
    (s.homeReq n .wait = some (s1, r) → t.operandOk r.operand = true → t.ended r.operand = true → r.reserved = false →
      exec (.tmbHomeWait n) s = .next (o.note r.src r.tmb .fired)) ∧
    (s.homeReq n .wait = some (s1, r) → t.operandOk r.operand = true → t.ended r.operand = false → r.reserved = false →
      s1.waitsAt (tmbLeaf r.tmb) + kvGet (fun _ => 0) s1.tmb.reservations (tmbLeaf r.tmb) < 16384 →
      exec (.tmbHomeWait n) s = .next (o.putTmb r.tmb { t with waits := t.waits ++ [{ src := r.src, operand := r.operand }] })) ∧
    (s.homeReq n .wait = some (s1, r) → t.operandOk r.operand = true → t.ended r.operand = false → r.reserved = false →
      16384 ≤ s1.waitsAt (tmbLeaf r.tmb) + kvGet (fun _ => 0) s1.tmb.reservations (tmbLeaf r.tmb) →
      ∃ u, exec (.tmbHomeWait n) s = .next u ∧ u.tmb.turned = s1.tmb.turned ++ [r] ∧ u.tmbAt r.tmb = t) ∧
    (s.homeReq n .wait = some (s1, r) → t.operandOk r.operand = false → r.reserved = false →
      exec (.tmbHomeWait n) s = .next ((s1.tmbRefused r.tmb).refuse r t.kind)) ∧
    (s.tmb.told[n]? = some r →
      exec (.waitRegistrationReserved n) s = .next { s with tmb := { s.tmb with told := s.tmb.told.eraseIdx n, reqs := s.tmb.reqs ++ [r] } })

/-- What an answer does at a core (after R413 to R415, R648, R662, R663): a firing notification ends its wait with 0, a timeout ends it with 1; a refusal
ends the program with 0x0802 at a T-core and 0x0D04 at a V-core. -/
def Obligations.TumblerAnswers : Prop :=
  ∀ (n core slot op kind : Nat) (s : State) (x : TmbNote),
    (s.tmb.notes[n]? = some x → (x.src = .tgroup core slot ∨ x.src = .vcore core) → x.ans = .fired →
      exec (.tmbFireNotify n) s = .next ((s.takeNote n).coreWaitEnds x.src 0)) ∧
    (s.tmb.notes[n]? = some x → (x.src = .tgroup core slot ∨ x.src = .vcore core) → x.ans = .timedOut →
      exec (.tmbFireNotify n) s = .next ((s.takeNote n).coreWaitEnds x.src 1)) ∧
    (s.waitExpired (.tgroup core slot) = true →
      exec (.tmbWaitTimeout true core slot) s = .next ((s.withdrawWaits (.tgroup core slot)).coreWaitEnds (.tgroup core slot) 1)) ∧
    (s.waitExpired (.vcore core) = true →
      exec (.tmbWaitTimeout false core slot) s = .next ((s.withdrawWaits (.vcore core)).coreWaitEnds (.vcore core) 1)) ∧
    (s.tmb.notes[n]? = some x → x.src = .tgroup core slot → x.ans = .refused op kind → op ≠ 2 →
      exec (.tmbRefusalReturn n) s = .next ((s.takeNote n).tfault core slot
        { code := 0x0802, pc := x.pc, lanes := 2 ^ x.lane, detail := detailOf [(52, 2, x.tmb), (54, 1, tmbOpcode op)] })) ∧
    (∀ g, s.tmb.notes[n]? = some x → x.src = .tgroup core slot → x.ans = .refused 2 kind → s.tgroup core slot = some g →
      exec (.tmbRefusalReturn n) s = .next ((s.takeNote n).tfault core slot
        { code := 0x0802, pc := x.pc, lanes := g.active, detail := detailOf [(52, 2, x.tmb), (54, 1, 0x6B)] })) ∧
    (s.tmb.notes[n]? = some x → x.src = .vcore core → x.ans = .refused op kind →
      exec (.tmbRefusalReturn n) s = .next ((s.takeNote n).vfault core
        { code := 0x0D04, pc := x.pc, detail := detailOf [(52, 2, x.tmb), (54, 1, op), (55, 1, kind)] }))

/-- The registers of a tumbler, once firmware runs (after R650, R656, R657, R667, R845): a valid TMB_CFG takes KIND, STEP, NOTIFY and REMOTE, keeps GEN and starts at the kind's
initial state, and an invalid one is refused with 0x0D01; TMB_OP arrives with its weight or resets, which keeps GEN. -/
def Obligations.TumblerRegisters : Prop :=
  ∀ (tmb weight : Nat) (v : Word) (s : State), tmb < 32768 → s.alive = true → s.boot.fwRunning = true →
    (s.tmbCfgOk tmb v.toNat = true → ∃ u, exec (.tmbCfgWrite tmb v) s = .next u ∧
      (u.tmbAt tmb).kind = natBits v.toNat 0 3 ∧ (u.tmbAt tmb).step = natBits v.toNat 16 16 ∧ (u.tmbAt tmb).gen = (s.tmbAt tmb).gen ∧
      (u.tmbAt tmb).notify = natBit v.toNat 4 ∧ (u.tmbAt tmb).remote = natBit v.toNat 5 ∧ (u.tmbAt tmb).waits = [] ∧
      (u.tmbAt tmb).value = 0 ∧ (u.tmbAt tmb).tokens = []) ∧
    (s.tmbCfgOk tmb v.toNat = false →
      exec (.tmbCfgWrite tmb v) s = .next ((s.tmbRefused tmb).emit { code := 0x0D01, detail := detailOf [(52, 2, tmb), (56, 4, v.toNat)] })) ∧
    (weight < 2 ^ 30 → exec (.tmbOpArrive tmb weight) s = .next (s.tmbArrive tmb weight).1) ∧
    (∃ u, exec (.tmbOpReset tmb) s = .next u ∧ (u.tmbAt tmb).value = 0 ∧ (u.tmbAt tmb).tokens = [] ∧ (u.tmbAt tmb).gen = (s.tmbAt tmb).gen ∧
      (u.tmbAt tmb).expected = (s.tmbAt tmb).expected ∧ (u.tmbAt tmb).ring = (s.tmbAt tmb).ring ∧
      (u.tmbAt tmb).target = if (s.tmbAt tmb).kind = 1 then s.fld (RF.TMB_PARAM_PARAM tmb) else (s.tmbAt tmb).target)

/-- A save or restore of a core's state that nothing stops (after R191 to R195, R477 to R481): a save puts every part of the program's image on the
core in its slot, keeps it and frees its blocks; a restore takes what the slot holds and puts blocks, groups and engines where they were; a V-core's
save keeps its state in its slot and leaves the core idle. -/
def Obligations.SaveAndRestore : Prop :=
  ∀ (core : Nat) (s t : State) (m : TMove) (p : FrameProg) (sv : TSave) (ext bs : List Byte) (poison : Bool),
    let prio := s.prioOf m.unit
    let base := s.tSaveBase core prio
    let blocks := (s.coreBlocks core).filter (fun b => b.2.unit == m.unit)
    let engs := blocks.flatMap (fun b => b.2.engs.map (fun e => (b.2, e, s.engine core e)))
    let parts := saveParts blocks (engs.map (fun e => e.2.2))
    let save : TSave :=
      { unit := m.unit, blocks := blocks,
        groups := blocks.flatMap (fun b => b.2.slots.filterMap (fun sl => (s.tgroup core sl).map (fun g => (sl, g)))),
        engines := engs.map (fun e => (e.2.1, e.2.2)) }
    (∀ image, s.tc.moves.find? (fun m => m.core == core && m.stage == 2) = some m → s.prog m.unit = some p → s.alive = true → base ≠ 0 →
      s.slotXlt m.unit p.ctx 1 base parts = 0 → s.sealOk m.unit p.ctx base tSlotLen = true →
      s.saveImage blocks (engs.map (fun e => (e.1, e.2.2))) = (image, t) →
      let t1 := blocks.foldl (fun s b => s.freeBlock core b.1) (t.putParts core m.unit p.ctx base image)
      let t2 : State :=
        { t1 with tc := { t1.tc with
            saves := kvSet (fun _ => none) t1.tc.saves (core * 8 + prio) (some save)
            moves := t1.tc.moves.erase m } }
      let t3 := t2.setFld (RF.TCW_SAVED_SLOT core) (natSetBits (t2.fld (RF.TCW_SAVED_SLOT core)) prio 1 1)
      let u := (t3.setFlag (RF.TCW_STAT_SAVING core) false).bump (RF.TCW_PREEMPT_COUNT core)
      exec (.tSaveDone core) s = .next (u.pumpRestores [core]) ∧
        kvGet (fun _ => none) u.tc.saves (core * 8 + prio) = some save ∧ u.flag (RF.TCW_STAT_SAVING core) = false) ∧
    (s.tc.moves.find? (fun m => m.core == core && m.stage == 3) = some m → s.prog m.unit = some p →
      kvGet (fun _ => none) s.tc.saves (core * 8 + prio) = some sv → sv.unit = m.unit → s.alive = true → base ≠ 0 →
      s.slotXlt m.unit p.ctx 0 base (saveParts sv.blocks (sv.engines.map (fun e => e.2))) = 0 →
      ext.length = s.slotAway m.unit p.ctx base (saveParts sv.blocks (sv.engines.map (fun e => e.2))) → poison = false ∨ ext = [] →
      s.getRuns m.unit p.ctx (slotRuns base (saveParts sv.blocks (sv.engines.map (fun e => e.2)))) ext = (t, bs, false) →
      let sv := sv.fromSlot (partBytes (saveParts sv.blocks (sv.engines.map (fun e => e.2))) bs)
      let t1 : State :=
        { t with tc := { t.tc with
            saves := kvSet (fun _ => none) t.tc.saves (core * 8 + prio) none
            moves := t.tc.moves.erase m } }
      let t2 := t1.setFld (RF.TCW_SAVED_SLOT core) (natSetBits (t1.fld (RF.TCW_SAVED_SLOT core)) prio 1 0)
      let t3 := sv.blocks.foldl (fun s b => s.setTblock core b.1 (some { b.2 with stopped := false })) t2
      let t4 := sv.groups.foldl (fun s g => s.resumeGroup core m.unit g) t3
      let t5 := sv.engines.foldl (fun s e => s.pumpEngine core e.1) (sv.engines.foldl (fun s e => s.setEngine core e.1 e.2) t4)
      let t6 := sv.blocks.foldl (fun s b => s.settleWaitq core { b.2 with stopped := false }) t5
      exec (.tRestoreDone core ext poison) s = .next (((t6.setFlag (RF.TCW_STAT_RESTORING core) false).syncTcore core).syncClock m.unit)) ∧
    (∀ image, s.vc.moves.find? (fun m => m.core == core && m.stage == 1) = some m → s.prog m.unit = some p → s.alive = true →
      (s.vcore core).xslv = none → (s.vcore core).waitTmb = false → s.vquiet core = true → s.vSaveBase core prio ≠ 0 →
      s.slotXlt m.unit p.ctx 1 (s.vSaveBase core prio) vSaveParts = 0 →
      s.sealOk m.unit p.ctx (s.vSaveBase core prio) 65536 = true → s.vSaveImage (s.vcore core) = (image, t) →
      let t1 := t.putParts (512 + core) m.unit p.ctx (s.vSaveBase core prio) image
      let t2 : State :=
        { t1 with vc := { t1.vc with
            saves := kvSet (fun _ => none) t1.vc.saves (core * 8 + prio) (some { s.vcore core with trap := none })
            moves := t1.vc.moves.erase m } }
      let t3 := (t2.setVcore core {}).setFld (RF.VCW_SAVED_SLOT core) (natSetBits ((t2.setVcore core {}).fld (RF.VCW_SAVED_SLOT core)) prio 1 1)
      let u := (t3.setFlag (RF.VCW_STAT_SAVING core) false).setFlag (RF.VCW_STAT_RUNNING core) false
      exec (.vSaveDone core) s = .next (u.pumpRestores [core + 512]) ∧ u.vcore core = {} ∧
        kvGet (fun _ => none) u.vc.saves (core * 8 + prio) = some { s.vcore core with trap := none })

/-- The sources of the frame tick and its number (after R48, R50, R51, R53 to R57, R59, R61, R64, R68). Edges: one high for fewer than 100 cycles, or recognised less than
P/2 after the last tick, is counted in TCK_GLITCH and is no tick; another one under an external source makes a tick due, and either ends holdover; under SRC 0
TICK_IN is no source (the model's reading, log entry 120). A recognised pulse that was high for 1,500 cycles (600 ns) or longer holds TCK_SYNC_LOAD. The internal
generator makes a tick due exactly P after its last, and so it does in holdover. A loss sets LOST and counts, and under SRC 2 it makes a tick due and begins
holdover (that it acts from the cycle after its deadline on is the model's reading of R58, log entry 121). The tick is cycle 0 of a new frame: the first after
a load is number 0; a held number is taken, and the hold ends; otherwise the number rises by 1; a measured length too far from P is reported with 0x0205.
A command that comes when nothing of its event is due changes nothing. -/
def Obligations.TickSourcesAndNumbers : Prop :=
  ((∀ (s : State) (high t0 : Nat), s.ticking = true →
    (high < 100 → ∃ t, exec (.tickInRisingEdge high) s = .next t ∧ t.tick = (s.repeatPulse high).tick ∧ t.flag RF.TCK_STAT_GLITCH = true ∧
      t.fld RF.TCK_GLITCH_COUNT = min (s.fld RF.TCK_GLITCH_COUNT + 1) (2 ^ 32 - 1) ∧ t = { s with tick := t.tick, regs := t.regs } ∧
      ∀ a, a ≠ RA.TCK_GLITCH → a ≠ RA.TCK_STAT → t.reg a = s.reg a) ∧
    (100 ≤ high → s.fld RF.TCK_CTL_SRC ≠ 0 → s.tickBefore = some t0 → 2 * (s.now - t0) < s.periodCycles →
      ∃ t, exec (.tickInRisingEdge high) s = .next t ∧ t.tick.due = s.tick.due ∧ t.tick.riseAt = some s.now ∧ t.tick.riseTicked = false ∧
        t.flag RF.TCK_STAT_GLITCH = true ∧ t.flag RF.TCK_STAT_HOLDOVER = false ∧
        t.fld RF.TCK_GLITCH_COUNT = min (s.fld RF.TCK_GLITCH_COUNT + 1) (2 ^ 32 - 1) ∧ t = { s with tick := t.tick, regs := t.regs } ∧
        ∀ a, a ≠ RA.TCK_GLITCH → a ≠ RA.TCK_STAT → t.reg a = s.reg a) ∧
    (100 ≤ high → s.fld RF.TCK_CTL_SRC ≠ 0 → (∀ t0, s.tickBefore = some t0 → s.periodCycles ≤ 2 * (s.now - t0)) →
      ∃ t, exec (.tickInRisingEdge high) s = .next t ∧ t.tick.due = some .ext ∧ t.tick.dueAt = s.now ∧ t.tick.riseAt = some s.now ∧
        t.tick.riseTicked = true ∧ t.flag RF.TCK_STAT_HOLDOVER = false ∧ t = { s with tick := t.tick, regs := t.regs } ∧
        ∀ a, a ≠ RA.TCK_STAT → t.reg a = s.reg a) ∧
    (100 ≤ high → s.fld RF.TCK_CTL_SRC = 0 →
      ∃ t, exec (.tickInRisingEdge high) s = .next t ∧ t.tick.due = s.tick.due ∧ t.tick.riseAt = some s.now ∧
        t = { s with tick := t.tick, regs := t.regs } ∧ ∀ a, a ≠ RA.TCK_STAT → t.reg a = s.reg a)) ∧
  (∀ (s : State) (width t0 : Nat), s.tick.riseAt = some t0 → ∃ t, exec (.tickInFallingEdge width) s = .next t ∧ t.tick.riseAt = none ∧
    t.tick.held = (if 1500 ≤ width then some (s.fld64 RF.TCK_SYNC_LOAD_LO_VALUE RF.TCK_SYNC_LOAD_HI_VALUE) else s.tick.held) ∧
    t.tick.recPulse = (s.tick.recPulse || (s.tick.riseTicked && decide (1500 ≤ width))) ∧ t.tick.due = s.tick.due ∧
    t.tick.lastTick = s.tick.lastTick ∧ t = { s with tick := t.tick }) ∧
  (∀ (s : State) (width : Nat), s.tick.riseAt = none → exec (.tickInFallingEdge width) s = .next s) ∧
  (∀ s : State, s.ticking = true → s.fld RF.TCK_CTL_SRC = 0 → s.tick.due = none → s.now = s.tick.lastGen + s.periodCycles →
    exec .internalTick s = .next { s with tick := { s.tick with due := some .gen, dueAt := s.now } }) ∧
  (∀ s : State, s.now ≠ s.tick.lastGen + s.periodCycles → exec .internalTick s = .next s ∧ exec .holdoverTick s = .next s) ∧
  (∀ s : State, s.ticking = true → s.flag RF.TCK_STAT_HOLDOVER = true → s.tick.due = none → s.now = s.tick.lastGen + s.periodCycles →
    exec .holdoverTick s = .next { s with tick := { s.tick with due := some .holdover, dueAt := s.now } }) ∧
  (∀ s : State, s.ticking = true → s.fld RF.TCK_CTL_SRC ≠ 0 → s.flag RF.TCK_STAT_HOLDOVER = false → s.tick.lossSeen = false → s.tick.due = none →
    s.tick.lossRef + s.periodCycles + refPeriod * s.fld RF.TCK_HOLDWIN_H < s.now →
    ∃ u : State, u.flag RF.TCK_STAT_LOST = true ∧ u.fld RF.TCK_LOST_COUNT = min (s.fld RF.TCK_LOST_COUNT + 1) (2 ^ 32 - 1) ∧
      u.tick = { s.tick with lossSeen := true } ∧
      let e := u.emit (s.tickRec 0x0204)
      exec .tickLoss s = .next (if e.fld RF.TCK_CTL_SRC = 2 then (e.setFlag RF.TCK_STAT_HOLDOVER true).dueTick .holdover (e.now - 1) else e)) ∧
  (∀ s : State, s.now ≤ s.tick.lossRef + s.periodCycles + refPeriod * s.fld RF.TCK_HOLDWIN_H → exec .tickLoss s = .next s) ∧
  (∀ s : State, s.alive = true → s.boot.fwRunning = true → exec .syncReq s = .next { s with tick := { s.tick with syncReq := true } })) ∧
  (∀ s : State, s.tick.due = none → exec .tick s = .next s) ∧
  ∀ (s : State) (src : TickSrc), s.tick.due = some src →
    ∃ u : State, u.tick.due = none ∧ u.tick.lastTick = some s.tick.dueAt ∧
      u.tick.held = none ∧ u.tick.first = false ∧ u.tick.closed = false ∧ u.tick.admitted = false ∧
      (s.tick.first = true → u.tickCount = 0) ∧
      (∀ v, s.tick.first = false → s.tick.held = some v → v < 2 ^ 64 → u.tickCount = v) ∧
      (s.tick.first = false → s.tick.held = none → u.tickCount = (s.tickCount + 1) % 2 ^ 64) ∧
      (∀ l, s.tick.lastTick = some l → u.fld RF.TCK_MEAS_LEN = min (used10 (s.tick.dueAt - l)) (2 ^ 32 - 1)) ∧
      u = { s with tick := u.tick, regs := u.regs } ∧
      (∀ a, a ≠ RA.TCK_COUNT_LO → a ≠ RA.TCK_COUNT_HI → a ≠ RA.TCK_MEAS → a ≠ RA.TCK_STAT → u.reg a = s.reg a) ∧
      ((∀ l, src = .ext → s.tick.lastTick = some l →
          200 * (s.periodCycles - (s.tick.dueAt - l)) ≤ s.periodCycles ∧ 200 * (s.tick.dueAt - l - s.periodCycles) ≤ s.periodCycles) →
        exec .tick s = .next u) ∧
      ∀ l, src = .ext → s.tick.lastTick = some l →
        (s.periodCycles < 200 * (s.periodCycles - (s.tick.dueAt - l)) ∨ s.periodCycles < 200 * (s.tick.dueAt - l - s.periodCycles)) →
        exec .tick s = .next ((u.setFlag RF.TCK_STAT_MISMATCH true).emit (s.tickRec 0x0205))

/-- The end-of-frame cycle (after R70, R86 to R89, R92, R93, R97): it happens once, at cycle 32 of a tick; programs that have issued nothing return to the
head of their queue; a program that still runs is counted as overrun and, by its unit's policy, terminated with 0x0202, with 0x0203 at its carry
limit, or carried, unless a barrier's watchdog is due, which withholds the action until the cycle ends; latching the snapshot changes no counter; the
record is written once, waited for where its range invalidates or moves, or abandoned and counted, and writing it changes no counter of memory. -/
def Obligations.EndOfFrame : Prop :=
  ∀ (s : State) (l unit : Nat) (p : FrameProg) (u : UnitEnt),
    (s.tick.lastTick = some l → s.alive = true → s.now = l + 32 → s.tick.closed = false →
      let e := ((((s.endPrograms.freqDecision).migrationDecision).applyEpoch).joinPorts).applyKills.latchSnapshot
      exec .endOfFrame s = .next (State.syncQuiesced { e with tick := { e.tick with closed := true } })) ∧
    (s.tick.lastTick = some l → (s.tick.closed = true ∨ s.now ≠ l + 32) → exec .endOfFrame s = .next s) ∧
    ((s.unitRun unit).active.filter (fun p => p.issued.isEmpty) ≠ [] →
      ((s.returnUnissued unit).unitRun unit).waiting
        = ((s.unitRun unit).active.filter (fun p => p.issued.isEmpty)).map FrameProg.unadmit ++ (s.unitRun unit).waiting ∧
      ((s.returnUnissued unit).unitRun unit).active = (s.unitRun unit).active.filter (fun p => !p.issued.isEmpty)) ∧
    (s.prog unit = some p → s.unitEnt unit = some u → p.done.length = p.items → s.overrun unit = s) ∧
    (s.prog unit = some p → s.unitEnt unit = some u → p.done.length ≠ p.items →
      ∃ t : State, t.fld (RF.TCK_U_OVERRUN_COUNT unit) = min (s.fld (RF.TCK_U_OVERRUN_COUNT unit) + 1) (2 ^ 32 - 1) ∧
        t.fld RF.TCK_OVERRUN_COUNT = min (s.fld RF.TCK_OVERRUN_COUNT + 1) (2 ^ 32 - 1) ∧ t.flag RF.TCK_STAT_OVERRUN = true ∧ t.tick.recOverrun = true ∧
        s.overrun unit = (if t.watchdogOf unit then t.setUnit unit { t.unitRun unit with withheld := true }
          else if u.overrunPol = 0 then t.terminate unit (t.tickRec 0x0202)
          else if u.carryLimit ≠ 0 ∧ u.carryLimit ≤ p.carries then t.terminate unit (t.tickRec 0x0203)
          else t.carry unit p)) ∧
    (s.latchSnapshot.regs = s.regs ∧ s.latchSnapshot.tick.snapshot = s.snapGroups) ∧
    (s.alive = true → s.recordReady = true → s.isLeaf (s.fld RF.TCK_SNAP_CTX_UNIT) = false →
      exec .snapshotRecordWrite s = .next (State.loseRecord { s with tick := { s.tick with snapPending := false } })) ∧
    (∀ t : State, t.loseRecord = (t.bump RF.TCK_SNAP_LOST_COUNT).emit (t.tickRec 0x0206)) ∧
    (s.recordReady = false → exec .snapshotRecordWrite s = .next s) ∧
    (∀ (unit ctx size va : Nat), s.alive = true → s.recordReady = true →
      unit = s.fld RF.TCK_SNAP_CTX_UNIT → ctx = s.fld RF.TCK_SNAP_CTX_CTX → size = s.fld RF.TCK_SNAP_SIZE_SIZE →
      va = s.fld RF.TCK_SNAP_BASE_LO_BASE * 4096 + 2 ^ 32 * s.fld RF.TCK_SNAP_BASE_HI_BASE + s.tick.recTick % (s.fld RF.TCK_SNAP_CTL_DEPTH + 1) * size →
      s.isLeaf unit = true →
      (s.runFails unit ctx 1 va size = none → s.piecesWait unit ctx true (s.devPieces unit ctx 1 va size) = true →
        exec .snapshotRecordWrite s = .next (s.noteWaits unit ctx true (s.devPieces unit ctx 1 va size))) ∧
      (s.runFails unit ctx 1 va size = none → s.piecesWait unit ctx true (s.devPieces unit ctx 1 va size) = false →
        (blockRuns va size).any (s.blockLost unit ctx (s.rangeCls unit ctx va)) = true →
        exec .snapshotRecordWrite s = .next (State.loseRecord { s with tick := { s.tick with snapPending := false } })) ∧
      (s.runFails unit ctx 1 va size = none → s.piecesWait unit ctx true (s.devPieces unit ctx 1 va size) = false →
        (blockRuns va size).any (s.blockLost unit ctx (s.rangeCls unit ctx va)) = false →
        let t : State := { s with tick := { s.tick with snapPending := false } }
        exec .snapshotRecordWrite s = .next ((t.nextFree.2.putRecord unit ctx va (s.rangeCls unit ctx va) s.recordHead (s.recordTail t.nextFree.1)
          (leBytes 4 s.tick.recTick)).keepCounters s)))

/-- Admission (after R77, R80): at cycle 384 of a tick, once, after its end-of-frame cycle; while TCK_CTL.ADMIT_HOLD is 1 nothing is admitted, and carried
programs still resume. -/
def Obligations.AdmissionCycle : Prop :=
  ∀ (s : State) (l : Nat),
    s.tick.lastTick = some l → s.alive = true → s.now = l + 384 → s.tick.closed = true → s.tick.admitted = false →
    (s.flag RF.TCK_CTL_ADMIT_HOLD = false → s.boot.fatal = false →
      let t := s.admitAll.resumeCarried
      exec .admission s = .next (State.syncQuiesced { t with tick := { t.tick with admitted := true } }).endQuiesce) ∧
    (s.flag RF.TCK_CTL_ADMIT_HOLD = true →
      let t := s.resumeCarried
      exec .admission s = .next (State.syncQuiesced { t with tick := { t.tick with admitted := true } }).endQuiesce ∧
      ∀ u, (t.unitRun u).waiting = (s.unitRun u).waiting)

/-- Start gates, retirement and HALTED (after R69, R82, R84, R87, R90, R907): within 400 cycles of its cycle, or in it where the home is the primary P-die,
the next gate's wait is registered with its cursor's operand, and a firing opens the gate, moves the cursor and asks for preemption of lower programs; a wait that a new
configuration ended is registered again; a program whose last item has completed retires: USED takes its time, an excess is counted, DONE_TMB
receives its arrival and the LAUNCH completes; a write of HALTED clears it. -/
def Obligations.GatesAndRetirement : Prop :=
  ∀ (s : State) (unit i : Nat) (p : FrameProg) (x : TmbNote),
    (s.nextGate unit = some p → s.alive = true → p.gate = .pending → p.gateFrom ≤ s.now →
      s.now ≤ p.gateFrom + (if tmbLeaf p.startTmb = s.primary then 0 else 400) →
      let t := s.setGate unit (fun p => { p with gate := .registered })
      exec (.startGateRegister unit) s = .next (t.tmbWait
        { src := .gate unit, kind := 6, id := t.primary, op := .wait, tmb := p.startTmb, unit := unit,
          operand := gateOperand (t.tmbAt p.startTmb).kind (t.fld (RF.TCK_U_START_CURSOR unit)) })) ∧
    (s.tmb.notes.findIdx? (fun x => x.src == TmbSrc.gate unit && (x.ans == TmbAns.fired || x.ans == TmbAns.timedOut)) = some i →
      s.nextGate unit = some p → s.tmb.notes[i]? = some x → x.at_ ≤ s.now →
      s.now ≤ x.at_ + (if tmbLeaf p.startTmb = s.primary then 0 else 400) →
      let r := s.takeNote i
      let cur := r.fld (RF.TCK_U_START_CURSOR unit)
      let t := ((r.setGate unit (fun p => { p with gate := .opened, cursor := some cur, firedAt := x.at_ })).setGate unit
        (fun p => { p with gateFrom := (r.setGate unit (fun p => { p with gate := .opened, cursor := some cur, firedAt := x.at_ })).now })).setFld
          (RF.TCK_U_START_CURSOR unit) (gateCursor (r.tmbAt p.startTmb).kind (r.tmbAt p.startTmb).step cur)
      (x.ans = .fired → exec (.startGateOpen unit) s = .next ((t.syncUnit unit).askLower unit)) ∧
      (x.ans = .timedOut → exec (.startGateOpen unit) s = .next (r.setGate unit (fun p => { p with gate := .pending, gateFrom := r.now })))) ∧
    (s.prog unit = some p → s.alive = true → 0 < p.items → p.done.length = p.items →
      let used := used10 (p.usedNow s.now)
      let s1 := s.setFld (RF.TCK_U_USED_USED unit) (min used (2 ^ 24 - 1))
      let s2 := if p.budget < used then s1.bump (RF.TCK_U_EXCESS_COUNT unit) else s1
      let s3 := s2.setUnit unit { s2.unitRun unit with active := (s2.unitRun unit).active.drop 1 }
      let s4 := if p.doneEn then s3.devArrive 6 s3.primary p.doneTmb else s3
      exec (.programRetire unit) s
        = .next (((((s4.endLaunch p 0).syncUnit unit).syncQuiesced).askLower unit).pumpRestores (s4.unitCores unit))) ∧
    (s.prog unit = none ∨ (∃ p, s.prog unit = some p ∧ p.done.length ≠ p.items) → exec (.programRetire unit) s = .next s) ∧
    (unit < 1024 → s.alive = true → s.boot.fwRunning = true → ∃ t, exec (.tckUHaltedClear unit) s = .next t ∧ t.flag (RF.TCK_U_STAT_HALTED unit) = false ∧
      (∀ a, a ≠ RA.TCK_U_STAT unit → t.reg a = s.reg a) ∧ t = { s with regs := t.regs })

/-- The fabric (after R24 to R26, R28, R29, R31 to R41, R851): every fixed route ends at its destination; a block is sent with the next SEQ and kept in the replay
buffer; a block that no bit error has met arrives as it was sent; the expected block is delivered and EXPECTED rises; a duplicate is dropped and counted; any other one, or a failed CRC, is
answered with a NAK; an ACK frees what it covers; a timeout replays every unacknowledged block in order, or retrains at the limit; a retraining marks the lanes that failed and ends with a
replay, or with the link down. -/
def Obligations.FabricLink : Prop :=
  ∀ (s : State) (die vc dst src sect tag d dir link : Nat) (poison : Bool) (payload noise : List Byte) (b x : FabBlock) (r : List FabBlock) (bad : List LaneId),
    (∀ a < 10, ∀ c < 10, routeUp (fun _ => true) c 8 a = true ∧ (a ≠ c → (linkOf a (nextDie a c)).isSome = true)) ∧
    (s.outDir die dst = some d → (s.linkDir d).stopped = false → (s.linkDir d).replay.length < 512 → (s.linkDir d).waiting = [] →
      ∃ t, exec (.fabBlockSend die vc poison dst src sect tag payload) s = .next t ∧
        (t.linkDir d).replay = (s.linkDir d).replay ++ [{ seq := (s.linkDir d).nextSeq, vc := vc, poison := poison, dst := dst, src := src, sect := sect, tag := tag, payload := payload, ack := (s.linkDir (revDir d)).acked }] ∧
        (t.linkDir d).nextSeq = ((s.linkDir d).nextSeq + 1) % 4096 ∧ (∀ k, k ≠ d → t.linkDir k = s.linkDir k) ∧ t = { s with links := t.links }) ∧
    (s.outDir die dst = some d → (s.linkDir d).hasRoom = false → exec (.fabBlockSend die vc poison dst src sect tag payload) s = .next s) ∧
    (b.seq < 4096 → b.vc < 4 → b.dst < 16 → b.src < 16 → b.sect < 256 → b.tag < 65536 → b.payload.length = 256 → (∀ a, b.ack = some a → a < 4096) →
      b.arrive [] = some b ∧ b.frame.length = 272) ∧
    ((s.linkDir dir).wire = b :: r → b.arrive noise = some x → x.idle = false → x.ack = none → x.seq = (s.linkDir dir).expected →
      ∃ t, exec (.fabBlockReceive dir noise) s = .next t ∧ (t.linkDir dir).delivered = (s.linkDir dir).delivered ++ [x] ∧
        (t.linkDir dir).expected = ((s.linkDir dir).expected + 1) % 4096 ∧ (t.linkDir dir).wire = r) ∧
    ((s.linkDir dir).wire = b :: r → b.arrive noise = some x → x.idle = false → x.ack = none → x.seq ≠ (s.linkDir dir).expected →
      ((s.linkDir dir).expected + 4096 - x.seq) % 4096 ≤ 2048 →
      ∃ t, exec (.fabBlockReceive dir noise) s = .next t ∧ (t.linkDir dir).delivered = (s.linkDir dir).delivered ∧
        (t.linkDir dir).expected = (s.linkDir dir).expected ∧
        t.fld (RF.MGT_FAB_DUPDROP_COUNT (dir / 2)) = min (s.fld (RF.MGT_FAB_DUPDROP_COUNT (dir / 2)) + 1) (2 ^ 32 - 1)) ∧
    ((s.linkDir dir).wire = b :: r → b.arrive noise = some x → x.idle = false → x.ack = none → x.seq ≠ (s.linkDir dir).expected →
      2048 < ((s.linkDir dir).expected + 4096 - x.seq) % 4096 →
      ∃ t, exec (.fabBlockReceive dir noise) s = .next t ∧ (t.linkDir dir).delivered = (s.linkDir dir).delivered ∧
        (t.linkDir dir).expected = (s.linkDir dir).expected ∧ (t.linkDir dir).nakOut = true) ∧
    (∀ a, (s.linkDir dir).wire = b :: r → b.arrive noise = some x → x.ack = some a →
      let t := (s.setLinkDir dir { s.linkDir dir with wire := r }).takeAck (revDir dir) a x.nak
      exec (.fabBlockReceive dir noise) s = .next (if x.idle then t else t.receiveBlock dir x)) ∧
    (∀ a i, (s.linkDir d).replay.findIdx? (fun b => b.seq == a) = some i → (s.linkDir d).waiting = [] →
      ((s.takeAck d a false).linkDir d).replay = (s.linkDir d).replay.drop (i + 1) ∧ ((s.takeAck d a false).linkDir d).replays = 0 ∧
        ((s.takeAck d a false).linkDir d).lastAdvance = s.now) ∧
    ((s.linkDir dir).wire = b :: r → b.arrive noise = none →
      ∃ t, exec (.fabBlockReceive dir noise) s = .next t ∧ (t.linkDir dir).delivered = (s.linkDir dir).delivered ∧
        (t.linkDir dir).expected = (s.linkDir dir).expected ∧ (t.linkDir dir).nakOut = true ∧
        t.fld (RF.MGT_FAB_CRCERR_COUNT (dir / 2)) = min (s.fld (RF.MGT_FAB_CRCERR_COUNT (dir / 2)) + 1) (2 ^ 32 - 1)) ∧
    ((s.linkDir dir).replay ≠ [] → (s.linkDir dir).stopped = false →
      (s.linkDir dir).lastAdvance + ((s.linkDir dir).expired + 1) * (atLeast1 (s.fld (RF.MGT_FAB_CTL_ACK_TIMEOUT (dir / 2))) * 625) < s.now →
      ((s.linkDir dir).replays < atLeast1 (s.fld (RF.MGT_FAB_CTL_REPLAY_LIMIT (dir / 2))) →
        ∃ t, exec (.fabAckTimeout dir) s = .next t ∧
          (t.linkDir dir).wire = (s.linkDir dir).wire.filter (fun b => b.idle) ++ (s.linkDir dir).replay ∧
          (t.linkDir dir).replay = (s.linkDir dir).replay ∧ (t.linkDir dir).lastAdvance = (s.linkDir dir).lastAdvance ∧
          t.fld (RF.MGT_FAB_REPLAY_COUNT (dir / 2)) = min (s.fld (RF.MGT_FAB_REPLAY_COUNT (dir / 2)) + 1) (2 ^ 32 - 1)) ∧
      (atLeast1 (s.fld (RF.MGT_FAB_CTL_REPLAY_LIMIT (dir / 2))) ≤ (s.linkDir dir).replays →
        exec (.fabAckTimeout dir) s
          = .next ((s.setLinkDir dir { s.linkDir dir with expired := (s.linkDir dir).expired + 1 }).retrainStart (dir / 2)))) ∧
    ((s.linkDir dir).replay = [] ∨
        s.now ≤ (s.linkDir dir).lastAdvance + ((s.linkDir dir).expired + 1) * (atLeast1 (s.fld (RF.MGT_FAB_CTL_ACK_TIMEOUT (dir / 2))) * 625) →
      exec (.fabAckTimeout dir) s = .next s) ∧
    ((s.linkDir (2 * link)).stopped = true → (s.linkDir (2 * link)).down = false →
      let u := bad.foldl (fun s x => if natBit (kvGet (fun _ => 0) s.boot.badLanes (laneKey link x.1 x.2.1)) x.2.2 then s
        else (s.laneBad link x.1 x.2.1 x.2.2 1).bump (RF.MGT_LANE_RT_COUNT link)) s
      (linkBundles link ≤ 2 * u.bundlesUp link 0 → linkBundles link ≤ 2 * u.bundlesUp link 1 →
        ∃ t, exec (.fabRetrainDone link bad) s = .next t ∧ t.flag (RF.MGT_FAB_STAT_RETRAIN link) = false ∧
          ∀ k ∈ [2 * link, 2 * link + 1], (t.linkDir k).stopped = false ∧ (t.linkDir k).replays = 0 ∧ (t.linkDir k).wire = (t.linkDir k).replay ∧
            ∃ w, (t.linkDir k).replay = (u.linkDir k).replay ++ w) ∧
      ((2 * u.bundlesUp link 0 < linkBundles link ∨ 2 * u.bundlesUp link 1 < linkBundles link) →
        exec (.fabRetrainDone link bad) s = .next (u.linkDown link 1))) ∧
    ((s.linkDir (2 * link)).stopped = true → (s.linkDir (2 * link)).down = false → (s.linkDir (2 * link)).retrainAt + 25000 < s.now →
      exec (.fabRetrainTimeout link) s = .next (s.linkDown link 0))

/-- The memory system's own work (after R512 to R527, R534 to R540): a reduction retires in order and its home applies it; a granule's next 4 KiB block is
copied, and the last one ends its move; a move begins at its destination, is dropped when it has none, and waits for a die that suspends copies; the regulator and the saturation monitor take
their windows; a line's read is checked, and the patrol checks the line it stands at and changes no register but what the check changes and its position; a
channel that is mapped out is moved off and leaves service. -/
def Obligations.MemoryMaintenance : Prop :=
  ∀ (s : State) (n stack channel granule line err : Nat) (m : Migr) (g : Granule) (l : Loc),
    (∀ (r : Reduction) (k : Nat), s.mem.reds[n]? = some r → (s.mem.reds.take n).any (fun x => x.loc == r.loc && x.line == r.line) = false →
      let t : State := { s with mem := { s.mem with reds := s.mem.reds.eraseIdx n } }
      t.granAt r.loc = some (k, g) →
      ∀ u data, t.homeRead k g r.line (sectorsOf r.off r.width) r.ctl = (u, data, false) →
        exec (.reductionRetire n) s = .next (u.homeWrite k g r.line r.off (((r.apply data).drop r.off).take r.width) r.ctl)) ∧
    (s.mem.migr[n]? = some m → s.gran (granKey m.unit m.ctx m.gran) = some g → s.flag RF.MEM_CTL_MIG_HOLD = false → copiesNext s n m = true →
      let cut : State := { s with mem := { s.mem with migr := s.mem.migr.eraseIdx n } }
      (g.copyTo = some l →
        let u := (s.moveBlock g.part g.loc l g.block).bumpN (RF.MEM_P_MIGLINES_COUNT g.part) 32
        (g.block + 1 ≠ 16 → exec (.migrationBlockCopy n) s = .next (u.setGran (granKey m.unit m.ctx m.gran) (some { g with block := g.block + 1 }))) ∧
        (g.block + 1 = 16 → exec (.migrationBlockCopy n) s = .next (u.migrDone n (granKey m.unit m.ctx m.gran) g l m.promote))) ∧
      (∀ b, g.copyTo = none → s.migrTarget m g = (none, b) → exec (.migrationBlockCopy n) s = .next cut) ∧
      (∀ b, g.copyTo = none → s.migrTarget m g = (some l, b) → (s.copyBarred g.loc.die || s.copyBarred l.die) = true → exec (.migrationBlockCopy n) s = .next s) ∧
      (∀ b, g.copyTo = none → s.migrTarget m g = (some l, b) → (s.copyBarred g.loc.die || s.copyBarred l.die) = false →
        let u := ((s.initGran l).bumpN RF.MEM_ADV_PARTIAL_COUNT (if b then 1 else 0)).moveBlock g.part g.loc l 0
        exec (.migrationBlockCopy n) s
          = .next (((u.bumpN (RF.MEM_P_MIGLINES_COUNT g.part) 32).setGran (granKey m.unit m.ctx m.gran) (some { g with copyTo := some l, block := 1 })).syncFree))) ∧
    (s.mem.migr[n]? = some m → s.gran (granKey m.unit m.ctx m.gran) = none →
      exec (.migrationBlockCopy n) s = .next { s with mem := { s.mem with migr := s.mem.migr.eraseIdx n } }) ∧
    (s.mem.migr[n]? = some m → s.gran (granKey m.unit m.ctx m.gran) = some g → (s.flag RF.MEM_CTL_MIG_HOLD = true ∨ copiesNext s n m = false) →
      exec (.migrationBlockCopy n) s = .next s) ∧
    (stack < 32 → (kvGet (fun _ => 0) s.mem.regAt stack = 0 ∨ kvGet (fun _ => 0) s.mem.regAt stack + 1023 ≤ s.now) →
      ∃ t, exec (.regulatorWindow stack) s = .next t ∧ kvGet (fun _ => 0) t.mem.regAt stack = s.now + 1 ∧ natBit t.mem.regFirst stack = false) ∧
    (s.mem.satAt + 16384 ≤ s.now → ∃ t, exec .saturationWindow s = .next t ∧ t.mem.satAt = s.now ∧ t.mem.hbmBusy = [] ∧ t.mem.vaultBusy = []) ∧
    (s.lineExists stack granule line = true →
      exec (.hbmLineRead stack granule line err) s = .next (s.lineCheck stack granule line err (s.lineVa stack granule line))) ∧
    (s.flag RF.MEM_CTL_SCRUB_EN = true → s.flag (RF.PWR_S_TEMP_HOT stack) = false → s.lineExists stack granule line = true →
      kvGet (fun _ => 0) s.mem.scrubbed stack = granule * 512 + line →
      ∃ t, exec (.patrolScrub stack granule line err) s = .next t ∧ (∀ k, t.reg k = (s.lineCheck stack granule line err 0).reg k ∨ k = RA.MEM_S_SCRUB stack) ∧
        kvGet (fun _ => 0) t.mem.scrubbed stack
          = if (s.lineCheck stack granule line err 0).stackCapacity stack * 512 ≤ granule * 512 + line + 1 then 0 else granule * 512 + line + 1) ∧
    (stack < 32 → channel < 32 → s.alive = true → s.boot.fwRunning = true → exec (.memMapoutGo stack channel) s = .next (s.mapoutGo stack channel)) ∧
    (s.mem.mapouts.contains (stack, channel) = true →
      let a := (s.onChannel stack channel).foldl (fun (a : State × Nat × Nat) p => ((a.1.moveOff stack p).1, a.2.1 + (a.1.moveOff stack p).2.1, a.2.2 + (a.1.moveOff stack p).2.2))
        (s.setFld (RF.MEM_S_INSERVICE_MASK stack) (natSetBits (s.fld (RF.MEM_S_INSERVICE_MASK stack)) channel 1 0), 0, 0)
      let u := State.noteRepair { a.1 with mem := { a.1.mem with mapouts := a.1.mem.mapouts.filter (fun x => !(x == (stack, channel))) } } stack channel
      exec (.channelMapoutDone stack channel) s
        = .next ((u.emit (memRec 0x0A04 false channel stack 0 (detailOf [(52, 4, a.2.1), (56, 4, a.2.2)]))).syncFree))

/-- Advice, UNMAP, PREFETCH and MAP_COMPLETE (after R541 to R556, R617 to R622): advice on a range that exists is applied and the command completes; on a
host range it completes with nothing done; a range whose map has not completed is waited for; a range that does not exist fails it with 0x0C0B; CLASS, UNMAP and PREFETCH begin an
invalidation, PREFETCH of a sealed partition fails with 0x1118; a map completes with its range in force and its advice applied. -/
def Obligations.AdviceAndMaps : Prop :=
  ∀ (s t : State) (cmd : Nat) (c : HostCmd) (r : RangeEnt) (m : MapJob),
    (∀ q ∈ [(Instr.adviceClear, 0), (Instr.adviceHot, 1), (Instr.adviceCold, 2), (Instr.adviceStream, 3), (Instr.advicePin, 4), (Instr.adviceUnpin, 5),
        (Instr.adviceLeaf, 6), (Instr.adviceDead, 7), (Instr.adviceDrop, 8)],
      s.cmdOf cmd 0x09 = some c → c.at 24 1 % 16 = q.2 → (q.2 = 6 → c.at 25 1 % 4 < 2) →
      (s.namedRange c = none → exec (q.1 cmd) s = .next (s.noSuchRange cmd c)) ∧
      (s.namedRange c = some r → r.reserved = true → exec (q.1 cmd) s = .next (s.begin cmd)) ∧
      (s.namedRange c = some r → r.reserved = false → (r.kind = 1 ∨ r.kind = 2) → exec (q.1 cmd) s = .next ((s.begin cmd).complete cmd 0 0)) ∧
      (s.namedRange c = some r → r.reserved = false → r.kind ≠ 1 → r.kind ≠ 2 → (s.sealedPart r.part = false ∨ (q.2 ≠ 7 ∧ q.2 ≠ 8)) →
        (s.applyAdvice r q.2 (c.at 25 1 % 4) = (t, .done) → exec (q.1 cmd) s = .next ((t.begin cmd).complete cmd 0 0)) ∧
        ∀ code d, s.applyAdvice r q.2 (c.at 25 1 % 4) = (t, .fail code d) → exec (q.1 cmd) s = .next (s.failCmd cmd code 0 d)) ∧
      (s.namedRange c = some r → r.reserved = false → r.kind ≠ 1 → r.kind ≠ 2 → s.sealedPart r.part = true → (q.2 = 7 ∨ q.2 = 8) →
        exec (q.1 cmd) s = .next (s.failCmd cmd 0x1118 0 (sealedDetail c r)))) ∧
    (s.cmdOf cmd 0x09 = some c → c.at 24 1 % 16 = 9 → exec (.adviceClass cmd) s = .next (s.requestFor cmd c (.cls (c.at 25 1 % 4)))) ∧
    (s.cmdOf cmd 0x08 = some c → c.inflight = true → c.at 16 8 % 65536 = 0 →
      exec (.unmap cmd) s = .next ((s.begin cmd).requestInval
        { unit := c.leaf, ctx := c.ctx, start := c.at 16 8 % 2 ^ 57 / 65536, change := .unmap, cmd := some cmd })) ∧
    (s.cmdOf cmd 0x0A = some c → (∀ r, s.namedRange c = some r → r.kind = 3 → s.sealedPart r.part = true → c.inflight = false) →
      exec (.prefetch cmd) s = .next (s.requestFor cmd c (.move (c.at 24 1 % 2) (natBit (c.at 24 1) 1)))) ∧
    (s.cmdOf cmd 0x0A = some c → s.namedRange c = some r → r.kind = 3 → s.sealedPart r.part = true → c.inflight = true →
      exec (.prefetch cmd) s = .next (s.failCmd cmd 0x1118 0 (sealedDetail c r))) ∧
    (s.mem.maps.find? (fun m => m.cmd == cmd) = some m →
      let u : State := { s with mem := { s.mem with maps := s.mem.maps.filter (fun x => !(x.cmd == cmd)) } }
      u.findRange m.unit m.ctx m.start = some r →
      let r' : RangeEnt := { r with reserved := false }
      let w := u.setRange r'
      let w' := if m.adv = 0 ∨ r'.kind = 1 ∨ r'.kind = 2 then w else if m.adv = 9 then w.setRange { r' with cls := m.arg }
        else if m.adv = 4 ∧ w.mapScratch r' 4 then w.setRange { r' with pinned := true } else (w.applyAdvice r' m.adv m.arg).1
      let v := w'.complete cmd 0 0
      exec (.mapComplete cmd) s = .next (v.pumpInvals (2 * v.xlt.invals.length + 2)))

/-- Coherence (after R558 to R582, R591): a request that reaches its directory waits there while its line is busy, else it is served; a read whose entry has an
uncorrectable error is a fatal event; a message that reaches an L2 in a hold waits, else it is answered: a snoop for reading leaves a dirty line owned, an
invalidation drops it; a granted line is installed; a hold that has ended answers what waited; an L2 that is silent too long, or killed, is declared. -/
def Obligations.CoherenceProtocol : Prop :=
  ∀ (s : State) (core line err k : Nat) (r : CohReq) (m : CohMsg) (x : L2Line) (p : CohReply) (v : Word),
    s.alive = true →
    (∀ q ∈ [(Instr.rds core line err, 0), (Instr.rdx core line err, 1)], s.nextReq core line q.2 = some r → s.vdead r.core = false →
      (err ≠ 2 →
        let e := if err = 1 then s.bump (RF.COH_L_DIR_CE_COUNT (s.dirLeaf line)) else s
        let t : State := { e with coh := { e.coh with misses := e.coh.misses.erase r } }
        exec q.1 s = .next (if s.busyLine r.line || s.coh.queue.any (fun q => q.line == r.line) then t.enqueue r else t.serve r)) ∧
      (err = 2 → exec q.1 s = .next (s.emit
        { code := 0x0B03, fatal := true, detail := detailOf [(52, 1, s.dirLeaf line), (56, 4, Config.dirSet line % 65536)] }))) ∧
    (∀ q ∈ [(Instr.upg, 2), (Instr.wbd, 3), (Instr.evc, 4)], s.nextReq core line q.2 = some r → s.vdead r.core = false →
      let t : State := { s with coh := { s.coh with misses := s.coh.misses.erase r } }
      exec (q.1 core line) s = .next (if s.busyLine r.line || s.coh.queue.any (fun q => q.line == r.line) then t.enqueue r else t.serve r)) ∧
    (∀ q ∈ [(Instr.snps, 0), (Instr.snpw, 1), (Instr.snpi, 2), (Instr.inv, 3)], s.nextMsg core line = some m → m.kind = q.2 →
      ((∀ x, s.l2At core line = some x → x.waiting = [] ∧ ∀ h, x.holdUntil = some h → h ≤ s.now) →
        exec (q.1 core line) s = .next ((s.dropMsg m).answerL2 core line q.2 m.since)) ∧
      (s.l2At core line = some x → ((∃ h, x.holdUntil = some h ∧ s.now < h) ∨ x.waiting ≠ []) →
        ∃ t, exec (q.1 core line) s = .next t ∧ t.l2At core line = some { x with waiting := x.waiting ++ [(q.2, m.since)] } ∧
          t.fld (RF.COH_L_HOLDWAIT_COUNT (s.dirLeaf line)) = min (s.fld (RF.COH_L_HOLDWAIT_COUNT (s.dirLeaf line)) + 1) (2 ^ 32 - 1))) ∧
    ((s.syncL1 core line).l2At core line = some x → x.evicting = false → (s.answerL2 core line 0 k).l2At core line
      = some { x with st := match x.st with | .m => .o | .o => .o | .e => .s | .s => .s }) ∧
    ((s.answerL2 core line 3 k).l2At core line = none) ∧
    (s.coh.replies.find? (fun r => r.core == core && r.line == line) = some p → s.vdead core = false →
      exec (.snoopReply core line) s = .next (State.takeReply { s with coh := { s.coh with replies := s.coh.replies.erase p } } p)) ∧
    (s.nextMsg core line = some m → m.kind = 4 → m.core = core → m.line = line →
      let h := match m.st with | .s => none | _ => some (s.now + 64)
      (∀ d, m.data = some d → (s.l2At core line = some x ∨ (s.roomL2 core line).2 = true) →
        ∃ t n, exec (.grant core line) s = .next t ∧
          t.l2At core line = some { st := m.st, data := d, poison := m.poison, holdUntil := h, pf := m.pf, used := n }) ∧
      (m.data = none → s.l2At core line = some x →
        ∃ t, exec (.grant core line) s = .next t ∧ t.l2At core line = some { x with st := m.st, holdUntil := h, recalled := false })) ∧
    (s.nextMsg core line = some m → m.kind = 5 → s.l2At core line = some x → x.evicting = true →
      exec (.writebackAck core line) s = .next ((s.dropMsg m).dropL2 core line)) ∧
    (s.l2At core line = some x → x.holdUntil = some k → k ≤ s.now →
      exec (.holdEnd core line) s
        = .next (x.waiting.foldl (fun s m => s.answerL2 core line m.1 m.2)
          (s.setL2 core line (some { x with holdUntil := none, waiting := [], recalled := false })))) ∧
    ((s.owed core).any (fun t => decide (t + s.snoopLimit < s.now)) = true → exec (.snoopTimeout core) s = .next (s.declareCore core 1)) ∧
    (s.boot.fwRunning = true → natBit v.toNat 8 = false → natBit v.toNat 31 = true →
      exec (.cohKillCore v) s = .next (s.declareCore (v.toNat % 128) 3)) ∧
    (s.boot.fwRunning = true → natBit v.toNat 8 = true → natBit v.toNat 31 = true →
      exec (.cohKillDie v) s = .next (s.declareDie (v.toNat % 8) 3)) ∧
    (∀ q rest, s.coh.reclaims = q :: rest → q.since + 65536 ≤ s.now →
      let t := State.setFlag { s with coh := { s.coh with reclaims := rest } } RF.COH_STAT_RECLAIM (!rest.isEmpty)
      exec .reclaimWalkDone s = .next (t.emit
        { code := 0x0B01, srcKind := if q.die then 0 else 3, srcId := if q.die then 0 else q.agent,
          detail := detailOf [(52, 1, q.cause), (53, 1, if q.die then 1 else 0), (54, 1, if q.die then q.agent else q.agent / 16),
            (56, 4, q.entries), (60, 4, q.poisons)] }))

/-- Translation (after R589 to R622, R637): a walk that has found its range, or none, answers its miss and those that wait for the same range, and is counted; a held
fault record is flushed once 5,000 cycles are over; an acknowledgement ends a requester's wait in the first invalidation; XLT_RD_IDX loads the words of the
range it names; a host read that has not completed ends its accesses. -/
def Obligations.Translation : Prop :=
  ∀ (s : State) (leaf walker n kind id index : Nat) (m : Miss) (h : HeldRec) (v : Inval) (rest : List Inval) (r : RangeEnt) (a : Acc),
    (s.xlt.misses.find? (fun m => m.leaf == leaf && m.walker == some walker) = some m →
      (∀ e, s.rangeAt m.unit m.ctx m.va = some e → e.state ≠ 1 ∧ e.state ≠ 2) →
      let joined := ((s.xlt.misses.filter (fun x => x.leaf == leaf)).take 256).filter (fun (x : Miss) => x.leaf == leaf && x.walker.isNone && x.unit == m.unit
        && x.ctx == m.ctx && s.spanAt x.unit x.ctx x.va == s.spanAt m.unit m.ctx m.va
        && ((s.rangeAt x.unit x.ctx x.va).isSome == (s.rangeAt m.unit m.ctx m.va).isSome))
      let t := ((s.bump (RF.XLT_L_WALKS_COUNT leaf)).bumpN (RF.XLT_L_WALKCYC_CYCLES leaf) (s.now - m.since)).bumpN (RF.XLT_L_JOINED_COUNT leaf) joined.length
      let u : State := { t with xlt := { t.xlt with misses := t.xlt.misses.filter (fun x => !(x == m) && !joined.contains x) } }
      exec (.rangeWalkDone leaf walker) s
        = .next (((m :: joined).foldl (fun s x => s.answerMiss x (16 * leaf + walker)) u).assignWalkers leaf 16)) ∧
    (s.xlt.held[n]? = some h → h.since + 5000 < s.now → exec (.faultRecordFlush n) s = .next (s.flushHeld h)) ∧
    (s.xlt.invals = v :: rest → s.findRange v.unit v.ctx v.start = some r → v.begun.isSome = true →
      v.acks.any (fun q => q.kind == kind && q.id == id) = true → (s.ackers r).any (fun q => q.kind == kind && q.id == id) = false →
      let t : State := { s with xlt := { s.xlt with invals := { v with acks := v.acks.filter (fun q => !(q.kind == kind && q.id == id)) } :: rest } }
      exec (.invalAck kind id) s = .next (t.pumpInvals (2 * t.xlt.invals.length + 2))) ∧
    (s.alive = true → s.boot.fwRunning = true → ∃ t, exec (.xltRdIdxWrite index) s = .next t ∧ ∀ k < 8, t.reg (RA.XLT_RD_DATA k)
      = BitVec.ofNat 32 (leNat (((match ((s.xlt.ranges.filter (fun (r : RangeEnt) => r.unit == s.fld RF.XLT_RD_CTX_UNIT && r.ctx == s.fld RF.XLT_RD_CTX_CTX
          && !r.reserved)).foldr insertRange [])[index % 2 ^ 19]? with
        | some r => r.bytes
        | none => List.replicate 32 0).drop (4 * k)).take 4))) ∧
    (s.acc id = some a → s.hostParts a ≠ [] →
      exec (.hostCompletionTimeout false id) s
        = .next (((s.bump RF.HIF_CPL_TO_COUNT).setAcc id (some ((s.hostParts a).foldl (fun a l => a.setLane l (l.hostEnd a.kind 4 [])) a))).tryFinish id)) ∧
    (s.readsHost id = true → exec (.hostCompletionTimeout true id) s = .next (s.oneBlock id [] [] 4))

/-- Queues and functions of the host port (after R674, R678 to R680, R682, R690, R691, R712): a doorbell value below its ring's size is taken, any other
stops the queue with 0x0E02; enabling a queue sets its four indexes to 0; disabling it keeps running commands whose completions are discarded; a
fetched command of the next SEQ becomes a command, which fails at once with 0x030C where its ROUTE is not valid or with 0x0E05 where its slots are malformed, one further on stops the queue with 0x0E03, an earlier one is acknowledged as a duplicate; a
function level reset leaves nothing of a virtual function's state but whether it is enabled; a PCIe configuration write moves a function in or out of
D3, enables virtual functions, and masks MSI-X. -/
def Obligations.HostQueues : Prop :=
  ∀ (s : State) (fn q k v n : Nat) (w : Word) (u : UnitEnt) (data : List Byte),
    (s.fnQueue fn q = some k → v < 65536 → v < s.sqSize k →
      exec (.doorbellSqtail fn q v) s = .next ((s.setQueue k { s.queue k with tail := v }).syncQuiesced)) ∧
    (s.fnQueue fn q = some k → v < 65536 → s.sqSize k ≤ v →
      exec (.doorbellSqtail fn q v) s = .next (s.stopQueue k 0x0E02 (detailOf [(52, 2, v)]))) ∧
    (s.fnQueue fn q = some k → v < 65536 → v < s.cqSize k →
      let t := s.setQueue k { s.queue k with cqHead := v }
      exec (.doorbellCqhead fn q v) s = .next (t.drainCpls k (t.queue k).waiting.length)) ∧
    (s.fnQueue fn q = some k → v < 65536 → s.cqSize k ≤ v →
      exec (.doorbellCqhead fn q v) s = .next (s.stopQueue k 0x0E02 (detailOf [(52, 2, v)]))) ∧
    (s.fnQueue fn q = some k → s.flag (RF.HIF_Q_CFG_EN k) = false → natBit w.toNat 31 = true →
      ∃ t, exec (.queueEnable fn q w) s = .next t ∧ t.flag (RF.HIF_Q_CFG_EN k) = true ∧ t.fld (RF.HIF_Q_SQHEAD_HEAD k) = 0 ∧
        t.fld (RF.HIF_Q_CQTAIL_TAIL k) = 0 ∧ t.queue k = {} ∧ t.flag (RF.HIF_Q_STAT_STOPPED k) = false ∧
        t.fld (RF.HIF_Q_NEXTSEQ_NEXT k) = s.fld (RF.HIF_Q_NEXTSEQ_NEXT k)) ∧
    (s.fnQueue fn q = some k → s.flag (RF.HIF_Q_CFG_EN k) = true → natBit w.toNat 31 = false →
      ∃ t, exec (.queueDisable fn q w) s = .next t ∧ t.flag (RF.HIF_Q_CFG_EN k) = false ∧ (t.queue k).waiting = [] ∧
        ∀ i c, s.cmd i = some c → t.cmd i = some (if c.queue = k then { c with orphan := true } else c)) ∧
    (s.queueUnit q = some u → n = 1 + natBits (le data 1 1) 0 3 → s.fetchable q = true → s.nextTurn q = true → data.length = 64 * n →
      n ≤ ((s.queue q).tail + s.sqSize q - s.fld (RF.HIF_Q_SQHEAD_HEAD q)) % s.sqSize q →
      let s1 := s.bump64 RF.HIF_H2D_BYTES_COUNT_LO RF.HIF_H2D_BYTES_COUNT_HI data.length
      let t : State := { s1 with host := { s1.host with turn := q } }
      let next := t.fld (RF.HIF_Q_NEXTSEQ_NEXT q)
      let d := (le data 4 4 + 2 ^ 32 - next) % 2 ^ 32
      (d ≠ 0 → d < 2 ^ 31 → exec (.commandFetch q data) s = .next ((t.stopQueue q 0x0E03 (detailOf [(52, 4, next), (56, 4, le data 4 4)])).dueCpl q
        { seq := le data 4 4, tag := le data 8 4, status := 0x0E03, result := 0, irq := natBit (le data 1 1) 3 })) ∧
      (2 ^ 31 ≤ d → exec (.commandFetch q data) s = .next (((t.passSlots q n).duplicate q (le data 4 4) (le data 8 4) (natBit (le data 1 1) 3)).syncQuiesced)) ∧
      (d = 0 →
        let leaf := if usesLeaf (le data 0 1) then routedLeaf u (natBits (le data 2 1) 0 4) else some u.slot
        let t1 := (t.passSlots q n).setFld (RF.HIF_Q_NEXTSEQ_NEXT q) ((next + 1) % 2 ^ 32)
        let t2 : State := { t1 with host := { t1.host with nextCmd := t1.host.nextCmd + 1 } }
        let c : HostCmd :=
          { queue := q, opc := le data 0 1, slots := n - 1, irq := natBit (le data 1 1) 3, route := natBits (le data 2 1) 0 4, ctx := le data 3 1,
            seq := le data 4 4, tag := le data 8 4, tmo := le data 12 4, leaf := leaf.getD u.slot, body := data.drop 16, since := t1.now }
        let t3 := (t2.setCmd t1.host.nextCmd (some c)).syncActive q
        (headerOk data = true → leaf.isSome = true → exec (.commandFetch q data) s = .next t3.syncQuiesced) ∧
        (headerOk data = true → leaf.isSome = false → exec (.commandFetch q data) s = .next (t3.failCmd t1.host.nextCmd 0x030C 0 []).syncQuiesced) ∧
        (headerOk data = false → exec (.commandFetch q data) s = .next (t3.badCmd t1.host.nextCmd c).syncQuiesced))) ∧
    (fn ≤ 16 → (fn = 0 ∨ (s.fnSt fn).enabled = true) → (v = 0 ∨ v = 3) →
      exec (.pcieConfigWrite fn 0 v) s = .next (s.setFnSt fn { s.fnSt fn with d3 := v == 3 })) ∧
    (v ≤ 16 → ∃ t, exec (.pcieConfigWrite 0 1 v) s = .next t ∧ ∀ i, 1 ≤ i → i ≤ 16 → (t.fnSt i).enabled = decide (i ≤ v)) ∧
    (fn ≤ 16 → (fn = 0 ∨ (s.fnSt fn).enabled = true) → exec (.pcieConfigWrite fn 2 v) s
      = .next ((s.setFnSt fn { s.fnSt fn with msixEn := natBit v 0, msixMask := natBit v 1 }).unmaskVectors fn)) ∧
    (1 ≤ fn → fn ≤ 16 → ∃ t, exec (.vfFlr fn) s = .next t ∧ (t.fnSt fn) = { enabled := (s.fnSt fn).enabled })

/-- Commands of the host (after R684, R695, R697, R698, R704): NOP completes; INLINE writes its bytes and makes its arrival, behind a
flush where it wrote host memory; FENCE waits for the earlier commands of its
queue, flushes where they wrote host memory, and completes; WIN_OPEN fills a free window and is refused on an open one; WIN_CLOSE closes its own;
LAUNCH enters its leaf's program queue of 256 and waits while that is full; MAP refuses what its checks, an overlap, a forbidden advice or a lack of room refuse, else reserves the
range, with its granules where it lies in device memory. -/
def Obligations.HostCommands : Prop :=
  ∀ (s t : State) (cmd : Nat) (c : HostCmd) (h : List Byte) (x : RangeEnt),
    let win := natBits (c.at 16 2) 0 12
    let e := kvGet (fun _ => ({} : WinEnt)) s.xlt.windows win
    let va := c.at 16 8 % 2 ^ 57
    (s.cmdOf cmd 1 = some c → exec (.nopCommand cmd) s = .next ((s.begin cmd).complete cmd 0 0)) ∧
    (∀ l b, s.cmdOf cmd 4 = some c → s.host.flushes.contains cmd = false → s.sealedIn c.leaf c.ctx va (natBits (c.at 24 2) 0 9) = none →
      (s.begin cmd).devWrite c.leaf c.ctx va 4 ((c.body.drop 48).take (natBits (c.at 24 2) 0 9)) = (t, .ok l b) →
      exec (.inline cmd) s = .next (if (s.begin cmd).toHost c va
        then (if natBit (c.at 26 2) 15 then (t.wroteHost cmd).flush cmd else (t.wroteHost cmd).complete cmd 0 0)
        else t.cmdArrive cmd c (natBit (c.at 26 2) 15) (natBits (c.at 26 2) 0 15) 0)) ∧
    (∀ l k, s.cmdOf cmd 4 = some c → s.host.flushes.contains cmd = false → s.sealedIn c.leaf c.ctx va (natBits (c.at 24 2) 0 9) = none →
      (s.begin cmd).devWrite c.leaf c.ctx va 4 ((c.body.drop 48).take (natBits (c.at 24 2) 0 9)) = (t, .fail l k) →
      exec (.inline cmd) s = .next (s.failCmd cmd (xltCode k) 0 (xltDetail c.ctx 1 0 0 0 0))) ∧
    (s.cmdOf cmd 4 = some c → s.host.flushes.contains cmd = false → s.sealedIn c.leaf c.ctx va (natBits (c.at 24 2) 0 9) = some x →
      exec (.inline cmd) s = .next (s.failCmd cmd 0x1118 0 (sealedDetail c x))) ∧
    (s.cmdOf cmd 6 = some c → t = s.begin cmd → t.host.flushes.contains cmd = false → (t.queueCmds c.queue).any (fun x => decide (x.1 < cmd)) = false →
      ((t.queue c.queue).wrote = false → exec (.fenceCommand cmd) s = .next (t.fenceEnd cmd c)) ∧
      ((t.queue c.queue).wrote = true →
        exec (.fenceCommand cmd) s = .next (t.flush cmd))) ∧
    (s.cmdOf cmd 0x0B = some c → e.valid = true → exec (.winOpen cmd) s = .next (s.failCmd cmd 0x0E08 0 (detailOf [(52, 2, win)]))) ∧
    (s.cmdOf cmd 0x0B = some c → e.valid = false → ∃ u : State, exec (.winOpen cmd) s = .next (u.complete cmd 0 0) ∧
      kvGet (fun _ => {}) u.xlt.windows win = { valid := true, r := natBit (c.at 20 1) 0, w := natBit (c.at 20 1) 1, a := natBit (c.at 20 1) 2, unit := c.leaf, ctx := c.ctx, peer := c.at 18 2, base := c.at 24 8 % 2 ^ 41, length := c.at 32 8 % 2 ^ 41 }) ∧
    (s.cmdOf cmd 0x0C = some c → e.valid = true → e.unit ≠ c.leaf → exec (.winClose cmd) s = .next (s.failCmd cmd 0x0E08 0 (detailOf [(52, 2, win)]))) ∧
    (s.cmdOf cmd 0x0C = some c → e.valid = true → e.unit = c.leaf → ∃ u : State, exec (.winClose cmd) s = .next (u.complete cmd 0 0) ∧
      (kvGet (fun _ => ({} : WinEnt)) u.xlt.windows win).valid = false) ∧
    (s.cmdOf cmd 0x0C = some c → e.valid = false → exec (.winClose cmd) s = .next ((s.begin cmd).complete cmd 0 0)) ∧
    (s.cmdOf cmd 2 = some c → c.inflight = true → s.alive = true → va % 32 = 0 → (s.unitRun c.leaf).waiting.length < 256 →
      s.devRead c.leaf c.ctx 0 va 32 (s.rangeCls c.leaf c.ctx va) = (t, .ok h false) →
      exec (.launch cmd) s = .next (((t.begin cmd).setUnit c.leaf
        { s.unitRun c.leaf with waiting := (s.unitRun c.leaf).waiting ++ [headerProg c.leaf c.ctx cmd h] }).syncQuiesced)) ∧
    (s.cmdOf cmd 2 = some c → c.inflight = true → s.alive = true → va % 32 = 0 → 256 ≤ (s.unitRun c.leaf).waiting.length → exec (.launch cmd) s = .next s) ∧
    (s.cmdOf cmd 2 = some c → c.inflight = true → s.alive = true → va % 32 ≠ 0 → exec (.launch cmd) s = .next (s.badCmd cmd c)) ∧
    (s.cmdOf cmd 7 = some c → c.inflight = true → 9 < c.at 48 1 % 16 → exec (.map cmd) s = .next (s.badCmd cmd c)) ∧
    (∀ k, s.cmdOf cmd 7 = some c → c.inflight = true → c.at 48 1 % 16 ≤ 9 → s.mapInvalid c = some k →
      exec (.map cmd) s = .next (s.failCmd cmd 0x0C0A 0 (detailOf [(52, 1, k)]))) ∧
    (s.cmdOf cmd 7 = some c → c.inflight = true → c.at 48 1 % 16 ≤ 9 → s.mapInvalid c = none →
      s.xlt.ranges.find? (fun x => x.unit == c.mapEnt.unit && x.ctx == c.mapEnt.ctx && decide (x.start < c.mapEnt.start + c.mapEnt.length)
          && decide (c.mapEnt.start < x.start + x.length)) = some x →
      exec (.map cmd) s = .next (s.failCmd cmd 0x0C08 0 (detailOf [(52, 8, x.start)]))) ∧
    (s.cmdOf cmd 7 = some c → c.inflight = true → c.at 48 1 % 16 ≤ 9 → s.mapInvalid c = none →
      s.xlt.ranges.find? (fun x => x.unit == c.mapEnt.unit && x.ctx == c.mapEnt.ctx && decide (x.start < c.mapEnt.start + c.mapEnt.length)
          && decide (c.mapEnt.start < x.start + x.length)) = none →
      524288 ≤ s.xlt.ranges.length → exec (.map cmd) s = .next (s.failCmd cmd 0x0C09 0 [])) ∧
    (s.cmdOf cmd 7 = some c → c.inflight = true → c.at 48 1 % 16 ≤ 9 → s.mapInvalid c = none →
      s.xlt.ranges.find? (fun x => x.unit == c.mapEnt.unit && x.ctx == c.mapEnt.ctx && decide (x.start < c.mapEnt.start + c.mapEnt.length)
          && decide (c.mapEnt.start < x.start + x.length)) = none →
      s.xlt.ranges.length < 524288 → c.mapEnt.kind ≠ 1 → c.mapEnt.kind ≠ 2 →
      let adv := c.at 48 1 % 16
      let hbm := !s.mapScratch c.mapEnt adv
      let lead := if adv = 6 then some (c.at 49 1 % 2, (s.placeEnt c.mapEnt.part).leafAff) else none
      (adv ≠ 0 → (s.placeEnt c.mapEnt.part).binding adv = some 3 → exec (.map cmd) s = .next (s.failCmd cmd 0x0A07 0 (detailOf [(52, 1, adv)]))) ∧
      ((adv = 0 ∨ (s.placeEnt c.mapEnt.part).binding adv ≠ some 3) →
        (∀ room, s.chooseFor c.mapEnt.part c.mapEnt.length hbm lead = .short room →
          exec (.map cmd) s = .next (s.failCmd cmd 0x0A09 0 (detailOf [(52, 4, c.mapEnt.length), (56, 4, room)]))) ∧
        ∀ ps outside, s.chooseFor c.mapEnt.part c.mapEnt.length hbm lead = .places ps outside →
          let b := s.begin cmd
          let r : State := { b with
            xlt := { b.xlt with ranges := b.xlt.ranges ++ [c.mapEnt] }
            mem := { b.mem with maps := b.mem.maps ++ [{ unit := c.mapEnt.unit, ctx := c.mapEnt.ctx, start := c.mapEnt.start, adv := adv, arg := c.at 49 1 % 2, cmd := cmd }] } }
          exec (.map cmd) s = .next (((r.syncXlt.bumpN RF.MEM_ADV_PARTIAL_COUNT outside).backGranules c.mapEnt.unit c.mapEnt.ctx c.mapEnt.part hbm (!hbm)
            c.mapEnt.start ps).syncFree))) ∧
    (s.cmdOf cmd 7 = some c → c.inflight = true → c.at 48 1 % 16 ≤ 9 → s.mapInvalid c = none →
      s.xlt.ranges.find? (fun x => x.unit == c.mapEnt.unit && x.ctx == c.mapEnt.ctx && decide (x.start < c.mapEnt.start + c.mapEnt.length)
          && decide (c.mapEnt.start < x.start + x.length)) = none →
      s.xlt.ranges.length < 524288 → (c.mapEnt.kind = 1 ∨ c.mapEnt.kind = 2) →
      ∃ u, exec (.map cmd) s = .next u ∧ u.xlt.ranges = (s.begin cmd).xlt.ranges ++ [c.mapEnt] ∧
        u.mem.maps = (s.begin cmd).mem.maps ++ [{ unit := c.mapEnt.unit, ctx := c.mapEnt.ctx, start := c.mapEnt.start, adv := c.at 48 1 % 16, arg := c.at 49 1 % 2, cmd := cmd }])

/-- TUMBLER commands (after R696, R649): on a tumbler of its queue's unit the operation is applied and its result returned; outside it, or where the home
refuses, the command fails with 0x0D04; the operations 6 and 7 are malformed; a WAIT ends with a firing, with 1 after its timeout, or fails on a refusal, and so does the wait of a COPY. -/
def Obligations.HostTumblerCommands : Prop :=
  ∀ (s t : State) (cmd op kind k : Nat) (c : HostCmd) (x : TmbNote),
    let n := natBits (c.at 16 2) 0 15
    let v := c.at 20 4
    s.cmdOf cmd 5 = some c → c.inflight = true →
    (s.queueTmb c.queue n = true →
      (natBits (c.at 18 1) 0 3 = 0 → s.tmbArrive n v = (t, true) → exec (.tumblerArrive cmd) s = .next ((t.begin cmd).complete cmd 0 0)) ∧
      (natBits (c.at 18 1) 0 3 = 0 → s.tmbArrive n v = (t, false) →
        exec (.tumblerArrive cmd) s = .next (t.failCmd cmd 0x0D04 0 (s.refusedDetail n 0))) ∧
      (natBits (c.at 18 1) 0 3 = 1 →
        exec (.tumblerPoll cmd) s = .next (((s.bump (RF.MGT_TMB_OPS_COUNT (tmbLeaf n))).begin cmd).complete cmd 0 (s.tmbAt n).word)) ∧
      (natBits (c.at 18 1) 0 3 = 2 →
        exec (.tumblerWait cmd) s = .next ((s.begin cmd).tmbWait { src := .hostCmd cmd, kind := 0, id := 0, op := .wait, tmb := n, operand := v })) ∧
      (natBits (c.at 18 1) 0 3 = 3 → s.tmbTake n = (t, .took k) → exec (.tumblerTake cmd) s = .next ((t.begin cmd).complete cmd 0 (k + 2 ^ 32))) ∧
      (natBits (c.at 18 1) 0 3 = 3 → s.tmbTake n = (t, .empty) → exec (.tumblerTake cmd) s = .next ((t.begin cmd).complete cmd 0 0)) ∧
      (natBits (c.at 18 1) 0 3 = 4 → s.tmbPut n v = (t, .putOk) → exec (.tumblerPut cmd) s = .next ((t.begin cmd).complete cmd 0 1)) ∧
      (natBits (c.at 18 1) 0 3 = 4 → s.tmbPut n v = (t, .putFull) → exec (.tumblerPut cmd) s = .next ((t.begin cmd).complete cmd 0 0)) ∧
      (natBits (c.at 18 1) 0 3 = 5 → exec (.tumblerReset cmd) s = .next (((s.tmbReset n).begin cmd).complete cmd 0 0))) ∧
    (s.queueTmb c.queue n = false →
      ∀ q ∈ [(Instr.tumblerArrive, 0), (Instr.tumblerPoll, 1), (Instr.tumblerWait, 2), (Instr.tumblerTake, 3), (Instr.tumblerPut, 4), (Instr.tumblerReset, 5)],
        natBits (c.at 18 1) 0 3 = q.2 → exec (q.1 cmd) s = .next (s.failCmd cmd 0x0D04 0 (s.refusedDetail n q.2))) ∧
    (∀ s' : State, ∀ c', s'.cmdOf cmd 5 = some c' → c'.inflight = false → c'.holds = true → s'.hostNote cmd = none → c'.tmo ≠ 0 → c'.since + c'.tmo * 2500 < s'.now →
      exec (.tumblerWaitTmo cmd) s' = .next ((s'.withdrawWaits (.hostCmd cmd)).complete cmd 0 1)) ∧
    (s.hostNote cmd = some x → s.cmd cmd = some c → x.ans = .fired → (s.dropNote x).job cmd = none →
      exec (.hostWaitFired cmd) s = .next ((s.dropNote x).complete cmd 0 0)) ∧
    (∀ j, s.hostNote cmd = some x → s.cmd cmd = some c → x.ans = .fired → (s.dropNote x).job cmd = some j →
      exec (.hostWaitFired cmd) s = .next ((s.dropNote x).setJob { j with regd := false })) ∧
    (∀ j, s.hostNote cmd = some x → s.cmd cmd = some c → x.ans = .refused op kind → (s.dropNote x).job cmd = some j →
      exec (.hostWaitFired cmd) s = .next ((s.dropNote x).failCopy j 0x0D04 (fun _ => detailOf [(52, 2, x.tmb), (54, 1, op), (55, 1, kind)]) true)) ∧
    (6 ≤ natBits (c.at 18 1) 0 3 → exec (.tumblerReset cmd) s = .next (s.badCmd cmd c)) ∧
    (s.hostNote cmd = some x → s.cmd cmd = some c → x.ans = .refused op kind → (s.dropNote x).job cmd = none →
      exec (.hostWaitFired cmd) s = .next ((s.dropNote x).failCmd cmd 0x0D04 0 (detailOf [(52, 2, x.tmb), (54, 1, op), (55, 1, kind)])))

/-- Copies (after R699 to R704, R631, R632): a COPY of the right form goes to engine q mod 8 of its direction's set, and an engine holds 8; its next block
moves; a held copy resumes at its block, is aborted with the code that held it, or expires with 0x0C05; its WAIT_TMB times out with 0x0E07; a
flush that has ended lets its copy complete. -/
def Obligations.CopyCommands : Prop :=
  ∀ (s : State) (cmd token err : Nat) (c : HostCmd) (j : CopyJob) (x : RangeEnt) (data scales : List Byte),
    let k := c.copy
    let barred := fun (dstSide : Bool) => if k.hostSide dstSide then none else
      s.sealedIn c.leaf c.ctx (k.sideRun dstSide 0 k.len).1 (k.sideRun dstSide 0 k.len).2
    (s.cmdOf cmd 3 = some c → c.inflight = true → k.ok = false → exec (.copy cmd) s = .next (s.badCmd cmd c)) ∧
    (s.cmdOf cmd 3 = some c → c.inflight = true → k.ok = true → (k.waitEn = true → s.queueTmb c.queue k.waitTmb = true) →
      (k.arvEn = true → s.queueTmb c.queue k.arvTmb = true) → barred false = none → barred true = none →
      let t := s.begin cmd
      let e := (if k.dir = 1 then 8 else 0) + c.queue % 8
      exec (.copy cmd) s = .next (State.placeCopies { t with host := { t.host with copies := t.host.copies ++ [{ cmd := cmd, engine := e }] } } e 8)) ∧
    (s.cmdOf cmd 3 = some c → c.inflight = true → k.ok = true → (k.waitEn = true → s.queueTmb c.queue k.waitTmb = true) →
      (k.arvEn = true → s.queueTmb c.queue k.arvTmb = true) →
      (barred false = some x ∨ (barred false = none ∧ barred true = some x)) → exec (.copy cmd) s = .next (s.failCmd cmd 0x1118 0 (sealedDetail c x))) ∧
    (s.cmdOf cmd 3 = some c → c.inflight = true → k.ok = true → k.waitEn = true → s.queueTmb c.queue k.waitTmb = false →
      exec (.copy cmd) s = .next (s.failCmd cmd 0x0D04 0 (s.refusedDetail k.waitTmb 2))) ∧
    (s.cmdOf cmd 3 = some c → c.inflight = true → k.ok = true → (k.waitEn = true → s.queueTmb c.queue k.waitTmb = true) → k.arvEn = true →
      s.queueTmb c.queue k.arvTmb = false → exec (.copy cmd) s = .next (s.failCmd cmd 0x0D04 0 (s.refusedDetail k.arvTmb 0))) ∧
    (s.xlt.moves.find? (fun m => m.cmd == some cmd) = none → s.job cmd = some j → s.cmd cmd = some c → j.abort = 0 →
      s.host.copies.find? (fun x => x.engine == j.engine && (x.placed && x.ready && !x.regd && x.token.isNone)) = some j →
      exec (.copyBlock cmd data scales err) s = .next (s.copyBlock j c data scales err)) ∧
    (s.alive = true → s.boot.fwRunning = true → s.jobOfToken token = some j → exec (.xltResumeGo token) s = .next ((s.setJob { j with token := none }).syncXlt)) ∧
    (s.alive = true → s.boot.fwRunning = true → s.jobOfToken token = some j → exec (.xltResumeAbort token) s = .next (s.failCopy j j.holdCode (fun _ => []) false)) ∧
    (s.jobOfToken token = some j → j.holdFrom + s.holdLimit < s.now →
      let t := s.bump RF.XLT_HOLD_EXPIRED_COUNT
      let u := (t.cmd j.cmd).map (fun c => c.leaf)
      exec (.copyHoldExpire token) s = .next ((t.emit { code := 0x0C05, srcKind := 5, srcId := 0x20 + t.boot.leafSel, unit := u.getD 0, unitV := u.isSome, detail := detailOf [(60, 2, token)] }).failCopy j 0x0C05 (fun _ => []) false)) ∧
    (s.job cmd = some j → s.cmd cmd = some c → j.regd = true → s.hostNote cmd = none → c.tmo ≠ 0 → j.waitFrom + c.tmo * 2500 < s.now →
      exec (.copyWaitTimeout cmd) s = .next (s.failCopy j 0x0E07 (fun _ => detailOf [(52, 2, k.waitTmb)]) true)) ∧
    (s.host.flushes.contains cmd = true →
      let t : State := { s with host := { s.host with flushes := s.host.flushes.erase cmd } }
      (t.job cmd = some j → t.cmd cmd = some c →
        exec (.flushReadComplete cmd) s = .next (t.finishCopy j)) ∧
      (t.job cmd = none → t.cmd cmd = some c → exec (.flushReadComplete cmd) s = .next (t.fenceEnd cmd c)))

/-- Pintle ports (after R721 to R735, R741 to R747, R751, R769, R833): a port trained to 8 or 4 lanes comes up, and on fewer stays down; one whose retraining, or whose
oldest block, outlasts its bound goes down, and retrains 1 ms after that; a block with a bad CRC is counted and answered with a NAK; a block for
another device, one of an unknown or a quarantined sender, one of a stale epoch, one that does not authenticate and one with an old counter is dropped
and counted, and else its body waits to be served, is refused or is dropped; a timeout replays, and a request retrains; a response and a request
leave by their port; an address map write forgets its peer's state, and quarantines a peer whose DEVICE_ID it leaves unchanged, from and to which
nothing passes (which writes of an entry count as one is the model's reading, log entry 95); a pair key is cached. -/
def Obligations.PintlePorts : Prop :=
  ∀ (s t : State) (port lanes m n rx leaf peer entry word : Nat) (fresh : Bool) (data body : List Byte) (v : Word) (b : PathBlk) (q q' : RemReq),
    s.alive = true → port < 16 →
    (s.flag RF.WRD_STAT_LOADED = true → s.role port ≠ 0 → (s.port port).trained = false →
      (lanesFor lanes = some m → exec (.portTrained port lanes) s = .next (s.portUp port m)) ∧
      (lanesFor lanes = none → exec (.portTrained port lanes) s = .next s)) ∧
    ((s.port port).up = true → data.length = 256 → natBits (dNat data 4 1) 3 2 = 2 →
      (s.hopTake port data = (t, true) → exec (.hello port data) s = .next (t.setFld (RF.PTL_P_NEIGH_PHYS port) (dNat data 12 4))) ∧
      (s.hopTake port data = (t, false) → exec (.hello port data) s = .next t)) ∧
    ((s.port port).up = true → data.length = 256 → natBits (dNat data 4 1) 3 2 < 2 →
      (s.hopTake port data = (t, true) → exec (.pintleBlockReceive port data) s = .next (t.pathTake (port / 8) data)) ∧
      (s.hopTake port data = (t, false) → exec (.pintleBlockReceive port data) s = .next t)) ∧
    ((s.port port).up = true → data.length = 256 → natBits (dNat data 4 1) 3 2 ≠ 2 → (crc32 (data.take 252)).toNat ≠ leNat (data.drop 252) →
      ∃ u, exec (.pintleBlockReceive port data) s = .next u ∧
        u.port port = { s.port port with nakOut := true } ∧ u.ptl.inbox = s.ptl.inbox ∧
        u.fld (RF.PTL_P_CRCERR_COUNT port) = min (s.fld (RF.PTL_P_CRCERR_COUNT port) + 1) (2 ^ 32 - 1)) ∧
    (dNat data 8 4 ≠ s.phys → s.pathTake rx data = s.bump RF.PTL_MISROUTE_COUNT) ∧
    (dNat data 8 4 = s.phys → s.senderOf (dNat data 12 4) (dNat data 16 2) = none → s.pathTake rx data = s.bump RF.PTL_UNKNOWN_COUNT) ∧
    (∀ l, dNat data 8 4 = s.phys → s.senderOf (dNat data 12 4) (dNat data 16 2) = some l →
      (s.quarantined l = true → s.pathTake rx data = s.bump RF.PTL_STALE_COUNT) ∧
      (s.quarantined l = false → s.pathOpen l data = none → (s.epoch = 0 ∨ dNat data 18 2 ≠ s.epoch) → s.pathTake rx data = s.bump RF.PTL_STALE_COUNT) ∧
      (s.quarantined l = false → s.pathOpen l data = none → s.epoch ≠ 0 → dNat data 18 2 = s.epoch → s.pathTake rx data = s.bump RF.PTL_AUTHFAIL_COUNT) ∧
      (s.quarantined l = false → s.pathOpen l data = some body → dNat data 20 7 ≤ (s.peer l).mark → s.pathTake rx data = s.bump RF.PTL_DUP_COUNT) ∧
      (s.quarantined l = false → s.pathOpen l data = some body → (s.peer l).mark < dNat data 20 7 →
        let vc := natBits (dNat data 4 1) 3 2
        let x := parseBody l vc body
        let u := s.setPeer l { s.peer l with mark := dNat data 20 7, lastAccept := s.now }
        (u.peer l).mark = dNat data 20 7 ∧ (u.peer l).lastAccept = s.now ∧
        ((vc = 0 ∧ x.kind ≤ 4) ∨ (vc ≠ 0 ∧ 8 ≤ x.kind ∧ x.kind ≤ 11) →
          s.pathTake rx data = { u with ptl := { u.ptl with inbox := u.ptl.inbox ++ [{ x with at_ := s.now, rx := rx }] } }) ∧
        (vc = 0 → 4 < x.kind → s.pathTake rx data = u.refuseReq x 6) ∧
        (vc ≠ 0 → (x.kind < 8 ∨ 11 < x.kind) → s.pathTake rx data = u))) ∧
    (s.epoch = 0 → s.pathOpen peer data = none) ∧
    (s.ptl.outBlks[n]? = some b → s.ptl.outBlks.find? (fun x => x.peer == b.peer) = some b →
      (s.pathSend b = some t → (s.peer b.peer).sendCtr < 2 ^ 56 →
        exec (.pintleBlockSend false n) s = .next { t with ptl := { t.ptl with outBlks := t.ptl.outBlks.erase b } }) ∧
      (s.pathSend b = none → exec (.pintleBlockSend false n) s = .next s)) ∧
    (s.ptl.reqs[n]? = some q → q.sent = false → s.ptl.reqs.find? (fun x => x.peer == q.peer && !x.sent) = some q →
      (∀ u, s.issueReq q = (t, some q') → t.pathSend q'.block = some u → (t.peer q.peer).sendCtr < 2 ^ 56 →
        exec (.pintleBlockSend true n) s = .next (u.setReq q' { q' with sent := true })) ∧
      (s.issueReq q = (t, some q') → t.pathSend q'.block = none → exec (.pintleBlockSend true n) s = .next t) ∧
      (s.issueReq q = (t, none) → exec (.pintleBlockSend true n) s = .next t)) ∧
    (∀ p, s.portFor (s.mapPhys b.peer) = some p → s.epoch ≠ 0 → s.quarantined b.peer = false → (s.peer b.peer).sendCtr < 2 ^ 56 →
      s.ptl.keyCache.contains (keyOf p b.peer) = true → s.canSend p { b with dst := s.mapPhys b.peer, epoch := s.epoch, ctr := (s.peer b.peer).sendCtr } = true →
      ∃ u, s.pathSend b = some u ∧ (u.peer b.peer).sendCtr = (s.peer b.peer).sendCtr + 1 ∧ u.ptl.keyCache.head? = some (keyOf p b.peer)) ∧
    (let lim := 250 * min 100 (atLeast1 (s.fld (RF.PTL_P_CTL_ACK_TO port)))
      let x := s.port port
      x.up = true → x.replay ≠ [] →
        (x.lastAdvance + (x.expired + 1) * lim < s.now → exec (.pintleAckTimeout port) s = .next ((s.setPort port { x with expired := x.expired + 1 }).hopReplay port)) ∧
        (s.now ≤ x.lastAdvance + (x.expired + 1) * lim → exec (.pintleAckTimeout port) s = .next s)) ∧
    ((s.port port).retraining = true →
      (lanesFor lanes = some m → ∃ u : State, exec (.pintleRetrainDone port lanes) s = .next (u.portUp port m) ∧
        (u.port port).joined = ((s.port port).joined && !(s.port port).down)) ∧
      (lanesFor lanes = none → exec (.pintleRetrainDone port lanes) s = .next s)) ∧
    ((s.port port).trained = true → (s.port port).retraining = true → (s.port port).since + resendBound < s.now →
      exec (.portDownTimeout port) s
        = .next (if (s.port port).down then s.setPort port { s.port port with retraining := false, since := s.now } else s.portDown port 1)) ∧
    (∀ r rest, (s.port port).trained = true → (s.port port).down = false → (s.port port).retraining = false → (s.port port).replay = r :: rest →
      (r.2.1 + resendBound < s.now → exec (.portDownTimeout port) s = .next (s.portDown port 0)) ∧
      (s.now ≤ r.2.1 + resendBound → exec (.portDownTimeout port) s = .next s)) ∧
    ((s.port port).down = true → (s.port port).retraining = false →
      ((s.port port).since + 2500000 ≤ s.now → exec (.portRetrainRetry port) s = .next (s.portRetrain port)) ∧
      (s.now < (s.port port).since + 2500000 → exec (.portRetrainRetry port) s = .next s)) ∧
    (s.boot.fwRunning = true → s.flag RF.WRD_STAT_LOADED = true →
      (natBit v.toNat 31 = true → (s.port port).up = true → exec (.ptlRetrainReq port v) s = .next (s.portRetrain port)) ∧
      ((natBit v.toNat 31 = false ∨ (s.port port).up = false) → exec (.ptlRetrainReq port v) s = .next s)) ∧
    (s.boot.fwRunning = true → s.flag RF.WRD_STAT_LOADED = false → natBit v.toNat 31 = false →
      exec (.ptlRetrainReq port v) s
        = .next ((s.setFld (RF.PTL_P_CTL_REPLAY_LIMIT port) (natBits v.toNat 8 8)).setFld (RF.PTL_P_CTL_ACK_TO port) (v.toNat % 256))) ∧
    (s.boot.fwRunning = true → entry < 65535 → word < 4 →
      let u := s.setReg (0xF00000 + 16 * entry + 4 * word) (if word = 3 then v &&& 1 else v)
      exec (.addressMapWrite entry word v) s = .next (((u.noteMapWrite entry (s.deviceId entry) (s.peer entry == {})).forgetPeers
        (fun l => l == entry)).resetPeers (fun l => l == entry) 0)) ∧
    (s.deviceId entry ≠ n → s.noteMapWrite entry n fresh = { s with ptl := { s.ptl with renamed := s.ptl.renamed.insert entry } }) ∧
    ((fresh = false ∨ entry ∉ s.ptl.renamed) → (s.noteMapWrite entry (s.deviceId entry) fresh).quarantined entry = true) ∧
    (q.issued = none → s.quarantined q.peer = true → s.issueReq q = (s.failReq q 0x0F06 (detailOf [(52, 2, q.peer)]) 0 0, none)) ∧
    (s.quarantined b.peer = true → s.pathSend b = none) ∧
    (leaf < 2 → peer < 65535 → s.mapValid peer = true → s.epoch ≠ 0 → s.ptl.keyCache.contains (65536 * leaf + peer) = false →
      ∃ u, exec (.pairKeyDerived leaf peer) s = .next u ∧ u.ptl.keyCache.head? = some (65536 * leaf + peer))

/-- Requests and responses between devices (after R633, R634, R664, R749 to R757): a request through an open window is looked up in its receive path's range cache,
performed and answered, and waits for the walk where the cache misses; what its window refuses is counted and refused; one whose line is held waits; a
malformed one is refused with reason 6; an ARRIVE is applied where REMOTE is 1; a response ends its request, one too late is counted; a request
without a response in time ends with 0x0F01, unless the response has already arrived. -/
def Obligations.PintleRequests : Prop :=
  ∀ (s w t : State) (n va id lane k : Nat) (b : PathBlk) (e : WinEnt) (q : RemReq) (bs : List Byte) (bad : Bool) (a : Acc) (l : AccLane),
    s.ptl.inbox[n]? = some b → s.alive = true →
    let i := s.takeIn b
    let j := w.takeIn b
    (b.vc = 0 → b.kind = 0 → b.badLen = false → s.winCheck b b.size 0 = .ok e va → s.lookWindow b = (w, true) →
      j.devRead e.unit e.ctx 0 va b.size (j.rangeCls e.unit e.ctx va) = (t, .ok bs bad) →
      exec (.read n) s = .next (t.respond { peer := b.peer, vc := 1, kind := 8, tag := b.tag, size := b.size, data := bs, poison := bad })) ∧
    (b.vc = 0 → b.kind = 1 → b.badLen = false → s.winCheck b b.size 1 = .ok e va → s.lookWindow b = (w, true) →
      exec (.write n) s = .next ((j.devWrite e.unit e.ctx va (j.rangeCls e.unit e.ctx va) b.data).1.respond { peer := b.peer, vc := 1, kind := 9, tag := b.tag })) ∧
    (∀ r c old, b.vc = 0 → b.kind = 2 → b.badAtomic = false → c = atyBytes b.ty → c ≠ 0 → s.winCheck b c 2 = .ok e va → s.lookWindow b = (w, true) →
      j.rangeAt e.unit e.ctx va = some r →
      j.lineAtomic (granKey e.unit e.ctx (va / 65536)) (va % 65536 / 128) (va % 128) c (fun old => atomOp b.aop b.ty old (leNat b.data) (leNat b.cmp)) (r.ctl r.cls va) = (t, old, bad) →
      exec (.atomic n) s = .next (t.respond { peer := b.peer, vc := 1, kind := 10, tag := b.tag, data := leBytes 8 old, poison := bad })) ∧
    (b.vc = 0 → b.kind = 3 → b.badReduce = false → s.winCheck b b.size 2 = .ok e va → s.lookWindow b = (w, true) →
      exec (.reduce n) s = .next ((j.remReduce b e va (chunksOf (atyBytes b.ty) b.data.length b.data)).respond { peer := b.peer, vc := 1, kind := 9, tag := b.tag })) ∧
    (b.vc = 0 →
      (b.kind = 0 → b.badLen = false → s.winCheck b b.size 0 = .ok e va → s.lookWindow b = (w, false) → exec (.read n) s = .next w) ∧
      (b.kind = 1 → b.badLen = false → s.winCheck b b.size 1 = .ok e va → s.lookWindow b = (w, false) → exec (.write n) s = .next w) ∧
      (b.kind = 3 → b.badReduce = false → s.winCheck b b.size 2 = .ok e va → s.lookWindow b = (w, false) → exec (.reduce n) s = .next w)) ∧
    (∀ r, b.vc = 0 →
      (b.kind = 0 → b.badLen = false → s.winCheck b b.size 0 = .refuse r → r < 4 → exec (.read n) s = .next ((i.bump RF.XLT_WIN_REFUSED_COUNT).refuseReq b r)) ∧
      (b.kind = 0 → b.badLen = false → s.winCheck b b.size 0 = .refuse r → 4 ≤ r → s.lookWindow b = (w, true) →
        exec (.read n) s = .next ((j.bump RF.XLT_WIN_REFUSED_COUNT).refuseReq b r)) ∧
      (b.kind = 1 → b.badLen = false → s.winCheck b b.size 1 = .refuse r → r < 4 → exec (.write n) s = .next ((i.bump RF.XLT_WIN_REFUSED_COUNT).refuseReq b r)) ∧
      (b.kind = 3 → b.badReduce = false → s.winCheck b b.size 2 = .refuse r → r < 4 → exec (.reduce n) s = .next ((i.bump RF.XLT_WIN_REFUSED_COUNT).refuseReq b r))) ∧
    (b.vc = 0 → b.kind = 0 → b.badLen = false → s.winCheck b b.size 0 = .wait → exec (.read n) s = .next (s.noteIn b b.size 0)) ∧
    (b.vc = 0 → b.kind = 1 → b.badLen = false → s.winCheck b b.size 1 = .wait → exec (.write n) s = .next (s.noteIn b b.size 1)) ∧
    (b.vc = 0 → b.kind = 0 → b.badLen = true → exec (.read n) s = .next (i.refuseReq b 6)) ∧
    (b.vc = 0 → b.kind = 1 → b.badLen = true → exec (.write n) s = .next (i.refuseReq b 6)) ∧
    (b.vc = 0 → b.kind = 2 → b.badAtomic = true → exec (.atomic n) s = .next (i.refuseReq b 6)) ∧
    (b.vc = 0 → b.kind = 3 → b.badReduce = true → exec (.reduce n) s = .next (i.refuseReq b 6)) ∧
    (b.vc = 0 → b.kind = 4 → (i.tmbAt b.tmb).remote = true →
      (i.tmbArrive b.tmb b.weight = (t, true) → exec (.arrive n) s = .next (t.respond { peer := b.peer, vc := 1, kind := 9, tag := b.tag })) ∧
      (i.tmbArrive b.tmb b.weight = (t, false) → exec (.arrive n) s = .next (t.refuseReq b 5))) ∧
    (b.vc = 0 → b.kind = 4 → (i.tmbAt b.tmb).remote = false →
      exec (.arrive n) s = .next (((i.tmbRefused b.tmb).emit { code := 0x0D02, detail := detailOf [(52, 2, b.tmb), (54, 2, b.peer), (56, 1, 1)] }).refuseReq b 5)) ∧
    (b.vc = 1 → i.ptl.reqs.find? (fun q => q.sent && q.tag == b.tag && q.peer == b.peer && [0].contains q.op) = some q → q.who = .acc id lane →
      b.kind = 8 → (i.dropReq q).acc id = some a → a.remoteLane lane = some l →
      ((a.kind ≠ 1 ∨ l.mask = [] ∨ b.poison = true) →
        exec (.rdData n) s = .next (((i.dropReq q).setAcc id (some (a.setLane l { l with performed := true, data := b.data, poison := b.poison }))).tryFinish id)) ∧
      (a.kind = 1 → l.mask ≠ [] → b.poison = false → ∃ u : State, exec (.rdData n) s = .next u ∧
        u.ptl.reqs = ((i.dropReq q).setAcc id (some (a.setLane l { l with data := l.merged b.data, mask := [] }))).ptl.reqs ++
          [{ who := .acc id lane, leaf := q.leaf, peer := q.peer, op := 1, window := q.window, off := q.off, size := q.size, data := l.merged b.data }])) ∧
    (∀ c, b.vc = 1 → b.kind = 8 → i.ptl.reqs.find? (fun q => q.sent && q.tag == b.tag && q.peer == b.peer && [0].contains q.op) = some q → q.who = .copy c → b.poison = false →
      exec (.rdData n) s = .next ((i.dropReq q).copyPart c q.part b.data true)) ∧
    (b.vc = 1 → i.ptl.reqs.find? (fun q => q.sent && q.tag == b.tag && q.peer == b.peer && [2].contains q.op) = some q → q.who = .acc id lane →
      b.kind = 10 → (i.dropReq q).acc id = some a → a.remoteLane lane = some l →
      exec (.atomicData n) s
        = .next (((i.dropReq q).setAcc id (some (a.setLane l { l with performed := true, data := b.data.take l.size, poison := b.poison }))).tryFinish id)) ∧
    (b.vc = 1 → i.ptl.reqs.find? (fun q => q.sent && q.tag == b.tag && q.peer == b.peer && [1, 3, 4].contains q.op) = some q → q.who = .acc id lane →
      b.kind = 9 → (i.dropReq q).acc id = some a → a.remoteLane lane = some l →
      exec (.ack n) s = .next (((i.dropReq q).setAcc id (some (a.setLane l { l with performed := true }))).tryFinish id)) ∧
    (∀ c, b.vc = 1 → b.kind = 9 → i.ptl.reqs.find? (fun q => q.sent && q.tag == b.tag && q.peer == b.peer && [1, 3, 4].contains q.op) = some q → q.who = .copy c →
      exec (.ack n) s = .next ((i.dropReq q).copyPart c q.part [] false)) ∧
    (b.vc = 1 → b.kind = 11 → i.ptl.reqs.find? (fun q => q.sent && q.tag == b.tag && q.peer == b.peer && [0, 1, 2, 3, 4].contains q.op) = some q →
      exec (.refuse n) s = .next (i.failReq q 0x0C04 (detailOf [(52, 1, b.reason), (54, 2, q.window), (56, 2, q.peer)]) 0 b.reason)) ∧
    (b.vc = 1 →
      (b.kind = 8 → i.ptl.reqs.find? (fun q => q.sent && q.tag == b.tag && q.peer == b.peer && [0].contains q.op) = none → exec (.rdData n) s = .next (i.bump RF.PTL_LATE_COUNT)) ∧
      (b.kind = 10 → i.ptl.reqs.find? (fun q => q.sent && q.tag == b.tag && q.peer == b.peer && [2].contains q.op) = none → exec (.atomicData n) s = .next (i.bump RF.PTL_LATE_COUNT)) ∧
      (b.kind = 9 → i.ptl.reqs.find? (fun q => q.sent && q.tag == b.tag && q.peer == b.peer && [1, 3, 4].contains q.op) = none → exec (.ack n) s = .next (i.bump RF.PTL_LATE_COUNT)) ∧
      (b.kind = 11 → i.ptl.reqs.find? (fun q => q.sent && q.tag == b.tag && q.peer == b.peer && [0, 1, 2, 3, 4].contains q.op) = none →
        exec (.refuse n) s = .next (i.bump RF.PTL_LATE_COUNT))) ∧
    (∀ p, s.ptl.reqs[p]? = some q → q.issued = some k →
      let lim := max k (s.peer q.peer).lastAccept + 2500 * max 80 (s.fld RF.PTL_CTL_RSP_TO)
      let here := s.ptl.inbox.any (fun b => b.vc == 1 && b.tag == q.tag && b.peer == q.peer)
      (lim < s.now → here = false →
        exec (.responseTimeout p) s = .next ((s.bump RF.PTL_TIMEOUT_COUNT).failReq q 0x0F01
          (detailOf [(52, 2, q.peer), (54, 1, q.op), (56, 4, (s.now - k) / 2500)]) 1 0)) ∧
      ((s.now ≤ lim ∨ here = true) → exec (.responseTimeout p) s = .next s))

/-- Power, voltage and heat (after R766 to R791): 96 cycles after a tick the cap takes effect, and the frame's mean estimate is shown, at once or with the frame's
last window when that still ends in the cycle; a power window ends after 5,000 cycles; a FREQ_CHANGE of cycle 128 is settled when that cycle ends: each
pending request is then applied, unless a droop response holds or the raise is unconfirmed, which defers it (that it is settled at the end is the
model's reading of R654); an AVS confirmation is kept, its timeout is reported with 0x1007 and the raise called off; a droop is counted once per
response and held until HOLD cycles have passed since its last firing, and in the cycles 129 to 383 of a raise calls it off; each die and stack is
sampled; the brake pin brakes and its release is noted. -/
def Obligations.PowerAndHeat : Prop :=
  ∀ (s : State) (l die : Nat) (counts readings : List (Nat × Nat × Nat)),
    (s.tick.lastTick = some l → s.now = l + 96 →
      ((s.flag RF.PWR_STAT_RUNNING = false ∨ s.now ≤ s.pwr.winStart) → ∃ t, exec .powerCapUpdate s = .next t ∧ t.flag RF.PWR_STAT_RUNNING = true ∧
        t.pwr.capAt = s.now ∧ t.pwr.winStart = s.now ∧ t.pwr.frameN = 0 ∧ t.pwr.frameSum = 0) ∧
      (s.flag RF.PWR_STAT_RUNNING = true → s.pwr.winStart < s.now → ∃ t, exec .powerCapUpdate s = .next t ∧
        t.pwr.capAt = s.now ∧ t.pwr.winStart = s.pwr.winStart ∧ t.pwr.frameN = s.pwr.frameN)) ∧
    ((s.tick.lastTick = none ∨ ∃ l, s.tick.lastTick = some l ∧ s.now ≠ l + 96) → exec .powerCapUpdate s = .next s) ∧
    (s.tick.lastTick = some l → s.now = l + 128 → exec .freqChange s = .next { s with pwr := { s.pwr with changeDue := true } }) ∧
    ((s.tick.lastTick = none ∨ ∃ l, s.tick.lastTick = some l ∧ s.now ≠ l + 128) → exec .freqChange s = .next s) ∧
    (s.pwr.changeDue = false → s.settleFreq = s) ∧
    (s.pwr.changeDue = true → s.tick.lastTick = some l →
      s.settleFreq = (List.range 8).foldl (fun s d => s.freqChangeDie l d) { s.accrue with pwr := { s.accrue.pwr with changeDue := false } }) ∧
    (s.freqDue l die = false → s.freqChangeDie l die = s) ∧
    (s.freqDue l die = true → s.freqFree die = false → s.freqChangeDie l die = s.deferFreq die) ∧
    (s.freqDue l die = true → s.freqFree die = true → (s.freqChangeDie l die).flag (RF.PWR_D_STAT_PENDV die) = false ∧
      kvN (s.freqChangeDie l die).pwr.changeAt die = s.now ∧ kvN (s.freqChangeDie l die).pwr.oldStep die = s.fld (RF.PWR_D_STAT_BL die)) ∧
    (s.flag RF.PWR_STAT_RUNNING = true → s.alive = true → s.now = s.pwr.winStart + 5000 → ∃ t, exec (.powerWindow counts) s = .next t ∧ t.pwr.winStart = t.now) ∧
    (s.flag RF.PWR_STAT_RUNNING = true → s.alive = true → s.tick.lastTick = some l → s.now = l + 96 → s.pwr.winStart < s.now →
      ∃ t, exec (.powerWindow counts) s = .next t ∧ t.pwr.winStart = t.now) ∧
    (s.flag RF.PWR_STAT_RUNNING = false → exec (.powerWindow counts) s = .next s) ∧
    (s.pendingRaise die = true → s.railsHeld die = false → ∃ t, exec (.avsConfirm die) s = .next t ∧ kvB t.pwr.confirmed die = true ∧ t.regs = s.regs) ∧
    ((s.pendingRaise die = false ∨ s.railsHeld die = true) → exec (.avsConfirm die) s = .next s) ∧
    (s.pendingRaise die = true → kvB s.pwr.confirmed die = false → kvN s.pwr.pendAt die + 250000 < s.now →
      let rec_ := s.pwrRec 0x1007 [(52, 1, die), (53, 1, s.fld (RF.PWR_D_STAT_PEND die)), (54, 2, s.voltFor die (s.fld (RF.PWR_D_STAT_PEND die)))]
      let u := s.setFlag (RF.PWR_D_STAT_PENDV die) false
      u.flag (RF.PWR_D_STAT_PENDV die) = false ∧
      exec (.voltRaiseTimeout die) s
        = .next ((if u.railsHeld die then u else u.setVolt die (u.voltFor die (u.fld (RF.PWR_D_STAT_BL die)))).emit rec_)) ∧
    ((s.pendingRaise die = false ∨ kvB s.pwr.confirmed die = true ∨ s.now ≤ kvN s.pwr.pendAt die + 250000) → exec (.voltRaiseTimeout die) s = .next s) ∧
    (s.alive = true → die < 8 → s.flag (RF.PWR_D_STAT_DROOP die) = false → kvB s.pwr.raised die = false →
      ∃ t, exec (.droopDetect die) s = .next t ∧ t.flag (RF.PWR_D_STAT_DROOP die) = true ∧ kvN t.pwr.droopLast die = t.now ∧ kvB t.pwr.droopSeen die = true) ∧
    (s.alive = true → die < 8 → kvB s.pwr.raised die = true → kvN s.pwr.changeAt die < s.now → s.now ≤ kvN s.pwr.changeAt die + 255 →
      ∃ t u : State, exec (.droopDetect die) s = .next (t.deferFreq die) ∧ t = u.setFlag (RF.PWR_D_STAT_PENDV die) true ∧
        kvB u.pwr.raised die = false ∧ kvN u.pwr.droopLast die = s.now) ∧
    (s.alive = true → die < 8 → ∃ t, exec (.droopDetect die) s = .next t) ∧
    (s.flag (RF.PWR_D_STAT_DROOP die) = true → s.droopEnd die < s.now →
      ∃ t, exec (.droopResponseEnd die) s = .next t ∧ t.flag (RF.PWR_D_STAT_DROOP die) = false) ∧
    ((s.flag (RF.PWR_D_STAT_DROOP die) = false ∨ s.now ≤ s.droopEnd die) → exec (.droopResponseEnd die) s = .next s) ∧
    (s.alive = true → exec (.thermalSample readings) s
      = .next ((List.range 32).foldl (fun s k => s.sampleStack readings k) ((List.range 10).foldl (fun s d => s.sampleDie readings d) s))) ∧
    (s.pins.brakeN = true → s.pins.pwrok = true → s.alive = true → 2 ≤ s.boot.step → exec .pwrBrakeAssert s = .next s.brakeOn) ∧
    (s.pins.brakeN = true → s.pins.pwrok = true → (s.alive = false ∨ s.boot.step < 2) →
      exec .pwrBrakeAssert s = .next { s with pins := { s.pins with brakeN := false } }) ∧
    (s.pins.brakeN = false → s.pins.pwrok = true → exec .pwrBrakeDeassert s
      = .next { s with pins := { s.pins with brakeN := true }, pwr := { s.pwr with brakeHigh := some s.now } })

/-- Ward image loading (after R116, R128 to R141, R908, R909): a write of WRD_LOAD or a WARD command starts a load; its fetch may fail with 0x030D, which names the
ROOT_SLOT of a partial image whose header was fetched; a verified image that its checks refuse is refused with its code, a full one is applied at
once, a partial one waits for the next tick and is applied between cycles 128 and 383; a write of WRD_QUIESCE sets or ends a quiesce, and at the
admission cycle after its end what waits on it is refused with 0x0308. -/
def Obligations.WardImageLoads : Prop :=
  ∀ (s : State) (slot cmd t0 : Nat) (c : HostCmd) (q : LoadReq) (p : PendImage) (image : List Byte),
    (s.alive = true → s.boot.fwRunning = true →
      exec .wardLoadGo s = .next (s.startWard (s.fld RF.WRD_LOAD_ADDR_LO_ADDR * 64 + 2 ^ 32 * s.fld RF.WRD_LOAD_ADDR_HI_ADDR) (s.fld RF.WRD_LOAD_SIZE_SIZE) none) ∧
      exec (.wardQuiesce slot) s = .next (s.writeQuiesce true slot) ∧ exec (.wardQuiesceCancel slot) s = .next (s.writeQuiesce false slot)) ∧
    (s.cmdOf cmd 0x0D = some c → c.inflight = true → c.at 16 1 % 2 = 0 →
      (s.wardBarred c = true → exec (.wardLoad cmd) s = .next (s.failCmd cmd 0x0E04 0 (detailOf [(52, 1, c.opc)]))) ∧
      (s.wardBarred c = false → exec (.wardLoad cmd) s = .next ((s.begin cmd).startWard (c.at 24 8 / 64 * 64) (c.at 32 4 % 2 ^ 25) (some cmd)))) ∧
    (s.cmdOf cmd 0x0D = some c → c.inflight = true → c.at 16 1 % 2 = 1 →
      (s.wardBarred c = true → exec (.wardQuiesceCommand cmd) s = .next (s.failCmd cmd 0x0E04 0 (detailOf [(52, 1, c.opc)]))) ∧
      (s.wardBarred c = false →
        exec (.wardQuiesceCommand cmd) s = .next (((s.begin cmd).writeQuiesce (natBit (c.at 36 4) 31) (c.at 36 4 % 1024)).complete cmd 0 0))) ∧
    (s.ward.load = some q →
      let t := State.setFlag { s with ward := { s.ward with load := none } } RF.WRD_STAT_BUSY false
      t.ward.load = none ∧ t.flag RF.WRD_STAT_BUSY = false ∧
      (∀ got, exec (.wardFetchError got) s = .next (t.wardRefuse { code := 0x030D } (partialRoot got) q.cmd)) ∧
      (image.length = q.size → s.alive = true →
        ∃ u, exec (.verificationComplete image) s = .next u ∧
          match s.wardCheck q image with
          | some r => u = t.wardRefuse r (partialRoot image) q.cmd
          | none => if (parseImage image).kind = 0
              then u = (match q.cmd with | none => t.applyFull (parseImage image) image | some cmd => (t.applyFull (parseImage image) image).complete cmd 0 0)
              else u.flag RF.WRD_STAT_PARTIAL_PENDING = true ∧ u.ward.image = s.ward.image ∧
                u.ward.pending = some { image := parseImage image, hash := sm3 image, cmd := q.cmd, since := s.now }) ∧
      (image.length ≠ q.size → exec (.verificationComplete image) s = .next s)) ∧
    (s.ward.load = none → (∀ got, exec (.wardFetchError got) s = .next s) ∧ exec (.verificationComplete image) s = .next s) ∧
    (s.ward.quiesceEnds = true → s.ward.load = none → s.ward.pending = some p → ∃ u : State,
      u.ward.pending = none ∧ u.ward.quiesceEnds = false ∧ u.flag RF.WRD_STAT_PARTIAL_PENDING = false ∧
      s.endQuiesce = u.wardRefuse { code := 0x0308 } (some p.image.rootSlot) p.cmd) ∧
    (s.ward.quiesceEnds = true → s.ward.load = some q → s.flag RF.WRD_STAT_LOADED = true → 
      let u : State := { s with ward := { s.ward with quiesceEnds := false } }
      (u.refuseLoad q 0x0308 (some q.qslot)).ward.pending = none → s.endQuiesce = u.refuseLoad q 0x0308 (some q.qslot)) ∧
    (s.ward.quiesceEnds = false → s.endQuiesce = s) ∧
    (s.ward.pending = some p → s.tick.lastTick = some t0 → s.alive = true → p.since ≤ t0 → t0 + 128 ≤ s.now → s.now ≤ t0 + 383 → s.ward.quiesceEnds = false →
      exec .partialImageApply s = .next (s.applyPartial p)) ∧
    (s.ward.pending = some p → s.tick.lastTick = some t0 → (t0 < p.since ∨ s.now < t0 + 128 ∨ t0 + 383 < s.now) → exec .partialImageApply s = .next s) ∧
    (s.ward.pending = none → exec .partialImageApply s = .next s)

/-- Keyway (after R808, R809, R816 to R831): ARB_COMMIT begins a commit, which raises the fused SVN one fuse at a time up to the bundle's (one in a cycle is the model's
pace, log entry 119) and never lowers it; RELEASE fills an empty weight-key slot from an envelope that passes every check, and the first check that
fails refuses with its code; DROP empties a slot; a LOAD starts, writes chunk by chunk, and ends with the partition's measurement extended, or fails;
what KWY_ERASE asks for is taken when its cycle ends: the generation advances, or the erase is refused with 0x1119. -/
def Obligations.KeywayAndSealedLoads : Prop :=
  ∀ (s : State) (v : Word) (env w data bs : List Byte) (err : Nat) (k : WeightKey) (u : UnitEnt) (j : SealedJob),
    s.alive = true →
    let slot := natBits v.toNat 24 6
    let part := natBits (le env 80 1) 0 6
    let t (op : Nat) := (s.setFld RF.KWY_SL_CTL_SLOT slot).setFld RF.KWY_SL_CTL_OP op
    let dst := s.fld64 RF.KWY_SL_DST_LO_ADDR RF.KWY_SL_DST_HI_ADDR
    (natBit v.toNat 31 = true → s.kwy.fusedSvn < s.boot.bundleSvn →
      exec (.arbCommit v) s = .next { s with kwy := { s.kwy with commit := some s.boot.bundleSvn } }) ∧
    ((natBit v.toNat 31 = false ∨ s.boot.bundleSvn ≤ s.kwy.fusedSvn) → exec (.arbCommit v) s = .next s) ∧
    (s.kwy.commit = none → s.settleFuse = s) ∧
    (∀ n, s.kwy.commit = some n → s.kwy.fusedSvn < n → s.settleFuse.kwy = { s.kwy with
      fusedSvn := s.kwy.fusedSvn + 1, commit := if s.kwy.fusedSvn + 1 < n then some n else none }) ∧
    (natBit v.toNat 31 = true → s.flag RF.KWY_SL_STAT_BUSY = true → env.length = 288 →
      (v.toNat % 4 = 1 → exec (.release v env) s = .next ((t 1).bump RF.KWY_REFUSALS_COUNT)) ∧
      (v.toNat % 4 = 2 → exec (.sealedLoad v) s = .next ((t 2).bump RF.KWY_REFUSALS_COUNT)) ∧
      (v.toNat % 4 = 3 → exec (.drop v) s = .next ((t 3).bump RF.KWY_REFUSALS_COUNT))) ∧
    (natBit v.toNat 31 = true → s.flag RF.KWY_SL_STAT_BUSY = false → env.length = 288 → v.toNat % 4 = 1 →
      (envelopeOk env = false → exec (.release v env) s = .next ((t 1).slRefuse 0x1110 [(52, 1, 1)])) ∧
      (envelopeOk env = true → sm2Decrypt Config.identityKey (bytesAt env 112 160) = none → exec (.release v env) s = .next ((t 1).slRefuse 0x1110 [(52, 1, 2)])) ∧
      (envelopeOk env = true → sm2Decrypt Config.identityKey (bytesAt env 112 160) = some w → w.length = 64 → w.drop 32 = sm3 (env.take 112) →
        (bytesAt env 16 32 ≠ s.fwMeas → exec (.release v env) s = .next ((t 1).slRefuse 0x1111 [(52, 1, 2)])) ∧
        (bytesAt env 16 32 = s.fwMeas → bytesAt env 48 32 ≠ s.wardMeas → exec (.release v env) s = .next ((t 1).slRefuse 0x1111 [(52, 1, 4)])) ∧
        (bytesAt env 16 32 = s.fwMeas → bytesAt env 48 32 = s.wardMeas → s.sealedPart part = false → exec (.release v env) s = .next ((t 1).slRefuse 0x1113 [(52, 1, part)])) ∧
        (bytesAt env 16 32 = s.fwMeas → bytesAt env 48 32 = s.wardMeas → s.sealedPart part = true → le env 84 4 ≠ s.fld (RF.KWY_GEN_GEN part) →
          exec (.release v env) s = .next ((t 1).slRefuse 0x1112 [(52, 1, part), (56, 4, s.fld (RF.KWY_GEN_GEN part))])) ∧
        (bytesAt env 16 32 = s.fwMeas → bytesAt env 48 32 = s.wardMeas → s.sealedPart part = true → le env 84 4 = s.fld (RF.KWY_GEN_GEN part) → (s.wkey slot).isSome = true →
          exec (.release v env) s = .next ((t 1).slRefuse 0x1114 [(52, 1, slot)])) ∧
        (bytesAt env 16 32 = s.fwMeas → bytesAt env 48 32 = s.wardMeas → s.sealedPart part = true → le env 84 4 = s.fld (RF.KWY_GEN_GEN part) → s.wkey slot = none →
          ∃ u, exec (.release v env) s = .next u ∧ u.wkey slot = some { key := w.take 32, part := part, head := env.take 112 } ∧
            (∀ n, n ≠ slot → u.wkey n = s.wkey n) ∧ u.flag RF.KWY_SL_STAT_DONE = true ∧ u.mem = s.mem))) ∧
    (natBit v.toNat 31 = true → s.flag RF.KWY_SL_STAT_BUSY = false → v.toNat % 4 = 3 →
      ∃ u, exec (.drop v) s = .next u ∧ u.wkey slot = none ∧ (∀ n, n ≠ slot → u.wkey n = s.wkey n) ∧ u.flag RF.KWY_SL_STAT_DONE = true ∧ u.mem = s.mem) ∧
    (natBit v.toNat 31 = true → s.flag RF.KWY_SL_STAT_BUSY = false → v.toNat % 4 = 2 →
      (s.wkey slot = none → exec (.sealedLoad v) s = .next ((t 2).slRefuse 0x1114 [(52, 1, slot)])) ∧
      (s.wkey slot = some k → s.unitEnt (s.fld RF.KWY_SL_CTX_UNIT) = some u → u.group = false → natBit u.partMask k.part = true →
        s.runInPart (s.fld RF.KWY_SL_CTX_UNIT) (s.fld RF.KWY_SL_CTX_CTX) k.part (s.xlt.ranges.length + 1) dst k.length = true →
        ∃ u, exec (.sealedLoad v) s = .next u ∧ u.flag RF.KWY_SL_STAT_BUSY = true ∧ u.mem = s.mem ∧
          u.kwy.load = some { slot := slot, part := k.part, length := k.length, dst := dst, unit := s.fld RF.KWY_SL_CTX_UNIT, ctx := s.fld RF.KWY_SL_CTX_CTX })) ∧
    (s.kwy.load = some j → s.wkey j.slot = some k →
      let n := min 65536 (j.length - 65536 * j.next)
      (err ≠ 0 → exec (.sealedLoadChunk data err) s = .next ((s.kwyFail 0x1115 [(52, 4, j.next)]).endLoad)) ∧
      (data.length = n + 16 →
        gcmDecrypt k.key (bytesAt k.head 88 8 ++ leBytes 4 j.next) (leBytes 4 j.next ++ leBytes 8 j.length) (data.drop n) (data.take n) = none →
        exec (.sealedLoadChunk data 0) s = .next ((s.kwyFail 0x1115 [(52, 4, j.next)]).endLoad)) ∧
      (∀ x, data.length = n + 16 →
        gcmDecrypt k.key (bytesAt k.head 88 8 ++ leBytes 4 j.next) (leBytes 4 j.next ++ leBytes 8 j.length) (data.drop n) (data.take n) = some bs →
        s.devWrite j.unit j.ctx (j.dst + 65536 * j.next) 4 (bs.take n) = (x, .ok [] false) →
        let y := x.bump RF.KWY_SL_CHUNKS_COUNT
        exec (.sealedLoadChunk data 0) s = .next (if 65536 * (j.next + 1) < j.length then { y with kwy := { y.kwy with load := some { j with next := j.next + 1 } } }
          else (y.setPartMeas j.part (extend (y.partMeas j.part) (sm3 (k.head ++ data.drop n)))).endLoad))) ∧
    (natBit v.toNat 31 = true → exec (.kwyErase v) s = .next { s with kwy := { s.kwy with erases := s.kwy.erases ++ [v.toNat % 64] } }) ∧
    (natBit v.toNat 31 = false → exec (.kwyErase v) s = .next s) ∧
    (s.settleErases = s.kwy.erases.foldl State.eraseNow { s with kwy := { s.kwy with erases := [] } }) ∧
    (∀ n, let mapped := s.xlt.ranges.any (fun r => (r.kind == 0 || r.kind == 3) && r.part == n)
      let refused (w : Nat) := (s.kwyFail 0x1119 [(52, 1, n), (53, 1, w)]).bump RF.KWY_REFUSALS_COUNT
      (mapped = true → s.eraseNow n = refused 0) ∧
      (mapped = false → s.kwy.load = some j → j.part = n → s.eraseNow n = refused 1) ∧
      (mapped = false → (s.kwy.load = none ∨ ∃ i, s.kwy.load = some i ∧ i.part ≠ n) →
        (s.fld (RF.KWY_GEN_GEN n) = 2 ^ 32 - 1 → s.eraseNow n = refused 2) ∧
        (s.fld (RF.KWY_GEN_GEN n) ≠ 2 ^ 32 - 1 → s.eraseNow n = s.genAdvance n)))

/-- SPDM (after R811, R812): while the endpoint answers, a connection goes through GET_VERSION, GET_CAPABILITIES and NEGOTIATE_ALGORITHMS in this order, then answers digests,
the certificate of slot 0, challenges and measurements, also within an established session; up to 4 sessions are begun, finished, used and ended; what
comes out of order, or in a session where it may not, is an error and changes nothing else; while the endpoint is down nothing is answered. -/
def Obligations.SpdmResponder : Prop :=
  ∀ (s : State) (b id : Nat) (data : List Byte) (x : SpdmSession),
    (s.mctpUp b = false → ∀ o, exec (.getVersion b o data) s = .next s ∧ exec (.getCapabilities b o data) s = .next s ∧ exec (.negotiateAlgorithms b o data) s = .next s ∧
      exec (.getDigests b o data) s = .next s ∧ exec (.getCertificate b o data) s = .next s ∧ exec (.challenge b o data) s = .next s ∧
      exec (.getMeasurements b o data) s = .next s ∧ exec (.keyExchange b o data) s = .next s ∧ exec (.finish b o data) s = .next s ∧
      exec (.heartbeat b o data) s = .next s ∧ exec (.keyUpdate b o data) s = .next s ∧ exec (.endSession b o data) s = .next s) ∧
    (s.mctpUp b = true →
    let said (t : State) (code status : Nat) (bs : List Byte) := t.mgt.sent = s.mgt.sent ++ [{ kind := 5, code := code, status := status, bytes := bs, binding := b }]
    (∃ t, exec (.getVersion b none data) s = .next t ∧ t.spdmStage b = 1 ∧ t.kwy.sessions = s.kwy.sessions.filter (fun x => !(x.binding == b)) ∧
      said t 0x04 0 (Config.stdResponse 5 0x04 data)) ∧
    (s.spdmStage b = 1 → ∃ t, exec (.getCapabilities b none data) s = .next t ∧ t.spdmStage b = 2 ∧ t.kwy.sessions = s.kwy.sessions ∧ said t 0x61 0 (Config.stdResponse 5 0x61 data)) ∧
    (s.spdmStage b = 2 → ∃ t, exec (.negotiateAlgorithms b none data) s = .next t ∧ t.spdmStage b = 3 ∧ t.kwy.sessions = s.kwy.sessions ∧
      said t 0x63 0 (Config.stdResponse 5 0x63 data)) ∧
    (let bad (r : Host.Outcome State Fault Refusal) : Prop := ∃ t : State, r = .next t ∧ t.kwy = s.kwy ∧ said t 0x7F 4 [];
      (∀ o, s.spdmStage b ≠ 1 → bad (exec (.getCapabilities b o data) s)) ∧ (∀ o, s.spdmStage b ≠ 2 → bad (exec (.negotiateAlgorithms b o data) s)) ∧
      (∀ o, s.spdmStage b ≠ 3 → bad (exec (.getDigests b o data) s) ∧ bad (exec (.getCertificate b o data) s) ∧ bad (exec (.challenge b o data) s) ∧
        bad (exec (.getMeasurements b o data) s) ∧ bad (exec (.keyExchange b o data) s)) ∧
      bad (exec (.getVersion b (some id) data) s) ∧ bad (exec (.getCapabilities b (some id) data) s) ∧ bad (exec (.negotiateAlgorithms b (some id) data) s) ∧
      bad (exec (.challenge b (some id) data) s) ∧ bad (exec (.keyExchange b (some id) data) s) ∧
      bad (exec (.finish b none data) s) ∧ bad (exec (.heartbeat b none data) s) ∧ bad (exec (.keyUpdate b none data) s) ∧ bad (exec (.endSession b none data) s) ∧
      (s.session b id = none → bad (exec (.getDigests b (some id) data) s) ∧ bad (exec (.getCertificate b (some id) data) s) ∧ bad (exec (.getMeasurements b (some id) data) s) ∧
        bad (exec (.finish b (some id) data) s) ∧ bad (exec (.heartbeat b (some id) data) s) ∧ bad (exec (.keyUpdate b (some id) data) s) ∧
        bad (exec (.endSession b (some id) data) s))) ∧
    (s.spdmStage b = 3 → s.session b id = some x → x.established = true →
      (∃ t, exec (.getDigests b (some id) data) s = .next t ∧ t.kwy = s.kwy ∧ said t 0x01 0 (Config.stdResponse 5 0x01 data)) ∧
      (le data 2 1 % 16 = 0 → ∃ t, exec (.getCertificate b (some id) data) s = .next t ∧ t.kwy = s.kwy ∧ said t 0x02 0 (Config.stdResponse 5 0x02 data)) ∧
      (le data 3 1 = 0 → ∃ t, exec (.getMeasurements b (some id) data) s = .next t ∧ t.kwy = s.kwy ∧ said t 0x60 0 (leBytes 1 measIndices.length ++ Config.stdResponse 5 0x60 data))) ∧
    (s.spdmStage b = 3 →
      (∃ t, exec (.getDigests b none data) s = .next t ∧ t.kwy = s.kwy ∧ said t 0x01 0 (Config.stdResponse 5 0x01 data)) ∧
      (le data 2 1 % 16 = 0 → ∃ t, exec (.getCertificate b none data) s = .next t ∧ t.kwy = s.kwy ∧ said t 0x02 0 (Config.stdResponse 5 0x02 data)) ∧
      (le data 2 1 % 16 ≠ 0 → ∃ t, exec (.getCertificate b none data) s = .next t ∧ t.kwy = s.kwy ∧ said t 0x7F 1 []) ∧
      (le data 2 1 % 16 = 0 → ∃ t, exec (.challenge b none data) s = .next t ∧ t.kwy = s.kwy ∧
        said t 0x03 0 (Config.stdResponse 5 0x03 (data ++ sm3 (measIndices.flatMap (fun i => (s.measAt i).getD []))))) ∧
      (le data 3 1 = 0 → ∃ t, exec (.getMeasurements b none data) s = .next t ∧ t.kwy = s.kwy ∧ said t 0x60 0 (leBytes 1 measIndices.length ++ Config.stdResponse 5 0x60 data)) ∧
      (let bs := measIndices.flatMap (fun i => (s.measAt i).getD []);
        le data 3 1 = 0xFF → ∃ t, exec (.getMeasurements b none data) s = .next t ∧ t.kwy = s.kwy ∧ said t 0x60 0 (bs ++ Config.stdResponse 5 0x60 (data ++ bs))) ∧
      (∀ bs, le data 3 1 ≠ 0 → le data 3 1 ≠ 0xFF → s.measAt (le data 3 1) = some bs →
        ∃ t, exec (.getMeasurements b none data) s = .next t ∧ t.kwy = s.kwy ∧ said t 0x60 0 (bs ++ Config.stdResponse 5 0x60 (data ++ bs))) ∧
      (le data 3 1 ≠ 0 → le data 3 1 ≠ 0xFF → s.measAt (le data 3 1) = none → ∃ t, exec (.getMeasurements b none data) s = .next t ∧ t.kwy = s.kwy ∧ said t 0x7F 1 []) ∧
      (s.kwy.sessions.length < 4 → le data 3 1 % 16 = 0 → ∃ t, exec (.keyExchange b none data) s = .next t ∧
        t.kwy.sessions = s.kwy.sessions ++ [{ id := s.kwy.nextSession, binding := b }] ∧ said t 0x64 0 (leBytes 2 s.kwy.nextSession ++ Config.stdResponse 5 0x64 data)) ∧
      (4 ≤ s.kwy.sessions.length → ∃ t, exec (.keyExchange b none data) s = .next t ∧ t.kwy = s.kwy ∧ said t 0x7F 0x0A [])) ∧
    (s.session b id = some x → x.established = false →
      (∃ t, exec (.finish b (some id) data) s = .next t ∧ t.kwy.sessions = s.kwy.sessions.map (fun y => if y = x then { x with established := true } else y) ∧
        said t 0x65 0 (Config.stdResponse 5 0x65 data)) ∧
      (∃ t, exec (.heartbeat b (some id) data) s = .next t ∧ t.kwy = s.kwy ∧ said t 0x7F 4 [])) ∧
    (s.session b id = some x → x.established = true →
      (∃ t, exec (.heartbeat b (some id) data) s = .next t ∧ t.kwy = s.kwy ∧ said t 0x68 0 (Config.stdResponse 5 0x68 data)) ∧
      (∃ t, exec (.keyUpdate b (some id) data) s = .next t ∧ t.kwy = s.kwy ∧ said t 0x69 0 (Config.stdResponse 5 0x69 data)) ∧
      (∃ t, exec (.endSession b (some id) data) s = .next t ∧ t.session b id = none ∧ said t 0x6C 0 (Config.stdResponse 5 0x6C data))))

/-- MCTP and PLDM (after R859, R860, Table 18.3): the endpoint answers on its bindings: endpoint ID, identifier, versions, message types, vendor support; discovery over PCIe
VDM alone; PLDM types 0 and 2 from the sensors, another refused with 0x20; nothing is answered while it is down. -/
def Obligations.MctpAndPldm : Prop :=
  ∀ (s : State) (b eid kind cmd : Nat) (data : List Byte),
    let sent (k code status : Nat) (bs : List Byte) : MgtMsg := { kind := k, code := code, status := status, bytes := bs, binding := b }
    let reply (code status : Nat) (bs : List Byte) : State := { s with mgt := { s.mgt with sent := s.mgt.sent ++ [sent 0 code status bs] } }
    (s.mctpUp b = true →
      (eid % 256 ≠ 0 → eid % 256 ≠ 255 → ∃ t, exec (.setEndpointId b eid) s = .next t ∧ t.mgt.eid = eid % 256 ∧ t.mgt.discovered = true ∧
        t.mgt.sent = s.mgt.sent ++ [sent 0 1 0 (Config.stdResponse 0 1 (leBytes 1 eid))]) ∧
      (eid % 256 = 0 ∨ eid % 256 = 255 → exec (.setEndpointId b eid) s = .next (reply 1 2 [])) ∧
      exec (.getEndpointId b) s = .next (reply 2 0 (leBytes 1 s.mgt.eid ++ Config.stdResponse 0 2 [])) ∧
      exec (.getEndpointUuid b) s = .next (reply 3 0 (Config.stdResponse 0 3 (leBytes 8 deviceId))) ∧
      exec (.getMctpVersionSupport b) s = .next (reply 4 0 (Config.stdResponse 0 4 [])) ∧
      exec (.getMessageTypeSupport b) s = .next (reply 5 0 [4, 1, 5, 6, 0x7E]) ∧
      exec (.getVendorDefinedMessageSupport b) s = .next (reply 6 0 (Config.stdResponse 0 6 [])) ∧
      (b = 0 →
        (∃ t, exec (.prepareForEndpointDiscovery b) s = .next t ∧ t.mgt.discovered = false ∧ t.mgt.sent = s.mgt.sent ++ [sent 0 0x0B 0 []]) ∧
        (s.mgt.discovered = false → exec (.endpointDiscovery b) s = .next (reply 0x0C 0 [])) ∧
        (s.mgt.discovered = true → exec (.endpointDiscovery b) s = .next s) ∧
        exec (.discoveryNotify b) s = .next (reply 0x0D 0 [])) ∧
      (b ≠ 0 → exec (.prepareForEndpointDiscovery b) s = .next s ∧ exec (.endpointDiscovery b) s = .next s ∧ exec (.discoveryNotify b) s = .next s) ∧
      (kind = 0 ∨ kind = 2 → exec (.pldmRequest b kind cmd data) s
        = .next { s with mgt := { s.mgt with sent := s.mgt.sent ++ [sent 2 cmd 0 (Config.stdResponse (64 + kind) cmd (data ++ s.sensors))] } }) ∧
      (kind ≠ 0 → kind ≠ 2 → exec (.pldmRequest b kind cmd data) s = .next { s with mgt := { s.mgt with sent := s.mgt.sent ++ [sent 2 cmd 0x20 []] } })) ∧
    (s.mctpUp b = false → exec (.setEndpointId b eid) s = .next s ∧ exec (.getEndpointId b) s = .next s ∧ exec (.getEndpointUuid b) s = .next s ∧
      exec (.getMctpVersionSupport b) s = .next s ∧ exec (.getMessageTypeSupport b) s = .next s ∧ exec (.getVendorDefinedMessageSupport b) s = .next s ∧
      exec (.prepareForEndpointDiscovery b) s = .next s ∧ exec (.endpointDiscovery b) s = .next s ∧ exec (.discoveryNotify b) s = .next s ∧
      exec (.pldmRequest b kind cmd data) s = .next s)

/-- Vendor-defined messages and the black box (after R858 to R873): status, records and the chain are read; CAP_SET and KILL need a secured session; acknowledging ends an alert
that no newer record keeps up; a warden's watchdog is recorded with 0x1208; an entry is programmed at the head, chained to the one before; a sector is erased;
an entry is latched for reading, as 128 zero bytes where it is not held; nothing is answered while the endpoint is down. An EV_READ of another count than 1 to 4 reads
nothing (the spec states no answer to it: log entry 92). -/
def Obligations.VendorMessagesAndBlackBox : Prop :=
  ∀ (s : State) (b n wrd : Nat) (v : Word) (e : BbPend) (r : List BbPend),
    let say (t : State) (code status : Nat) (bs : List Byte) : State :=
      { t with mgt := { t.mgt with sent := t.mgt.sent ++ [{ kind := 3, code := code, status := status, bytes := bs, binding := b }] } }
    (s.mctpUp b = true →
      exec (.getStatus b) s
        = .next (say s 1 0 ([RA.MGT_BOOT_STAT, RA.KWY_STAT, RA.PWR_STAT, RA.MGT_ALERT].flatMap (fun a => leBytes 4 (s.reg a).toNat))) ∧
      (1 ≤ n → n ≤ 4 → exec (.evRead b n) s
        = .next (say { s with mgt := { s.mgt with queue := s.mgt.queue.drop n } } 2 0 ((s.mgt.queue.take n).flatMap Rec.bytes))) ∧
      exec (.bbInfo b) s = .next (say s 3 0 ([RA.MGT_BB_HEAD_LO, RA.MGT_BB_HEAD_HI, RA.MGT_BB_OLDEST_LO, RA.MGT_BB_OLDEST_HI].flatMap
        (fun a => leBytes 4 (s.reg a).toNat) ++ s.bbChain)) ∧
      (∀ bs, s.bbEntry n = some bs → exec (.bbRead b n) s = .next (say s 4 0 bs)) ∧
      (s.bbEntry n = none → exec (.bbRead b n) s = .next (say s 4 0x82 [])) ∧
      (∀ sec, s.secured b sec = false → exec (.capSet b sec n) s = .next (say s 5 0x81 []) ∧ exec (.kill b sec v) s = .next (say s 6 0x81 [])) ∧
      (∀ sec, s.secured b sec = true →
        exec (.capSet b sec n) s = .next (say (s.setFld RF.PWR_CAP_MGT_WATTS n) 5 0 []) ∧
        (s.ticking = true → exec (.kill b sec v) s = .next { s with mgt := { s.mgt with heldKill := s.mgt.heldKill ++ [(b, v.toNat)] } }) ∧
        (s.ticking = false → exec (.kill b sec v) s = .next (say s 6 0x83 []))) ∧
      exec (.alertAck b) s = .next (say s.ackAlerts 7 0 []) ∧
      ((n < 1 ∨ 4 < n) → ∃ t, exec (.evRead b n) s = .next t ∧ t.mgt.queue = s.mgt.queue ∧ t.regs = s.regs)) ∧
    (s.mctpUp b = false → exec (.getStatus b) s = .next s ∧ exec (.evRead b n) s = .next s ∧ exec (.bbInfo b) s = .next s ∧ exec (.bbRead b n) s = .next s ∧
      (∀ sec, exec (.capSet b sec n) s = .next s ∧ exec (.kill b sec v) s = .next s) ∧ exec (.alertAck b) s = .next s) ∧
    (natBit v.toNat 0 = false → exec (.mgtAlertWrite v) s = .next s) ∧
    (s.alive = true → natBit v.toNat 0 = true → exec (.mgtAlertWrite v) s = .next s.ackAlerts) ∧
    (s.mgt.alertAt ≠ s.now → s.ackAlerts.mgt.unacked = 0 ∧ s.ackAlerts.flag RF.MGT_ALERT_ASSERTED = false ∧ s.ackAlerts.fld RF.MGT_ALERT_PENDING = 0) ∧
    (s.alive = true → s.boot.fwRunning = true → wrd < 4 → natBit s.boot.wardenDead wrd = false →
      ∃ u : State, exec (.wardenWatchdog wrd) s = .next (u.emit { code := 0x1208, srcKind := 10, srcId := wrd, detail := detailOf [(52, 1, wrd)] }) ∧
        u.boot.wardenDead = Nat.lor s.boot.wardenDead (2 ^ wrd) ∧ u.mgt = s.mgt) ∧
    (s.bb.buffer = e :: r → s.flag RF.MGT_BB_STAT_READY = true → s.bb.erasing ≠ some (s.bb.head / bbPerSector) → s.bb.lostRun = 0 →
      ∃ u, exec .bbEntryProgram s = .next u ∧ u.bb.index = s.bb.index + 1 ∧ u.bb.chain = sm3 (s.bbChain ++ s.bbBody e) ∧ u.bb.buffer = r ∧
        u.bb.head = (s.bb.head + 1) % bbSlots ∧ kvGet (fun _ => {}) u.bb.slots s.bb.head = { bytes := s.bbBody e ++ sm3 (s.bbChain ++ s.bbBody e) } ∧
        ∀ k, k ≠ s.bb.head → kvGet (fun _ => {}) u.bb.slots k = kvGet (fun _ => {}) s.bb.slots k) ∧
    (s.bb.buffer = e :: r → s.flag RF.MGT_BB_STAT_READY = true → s.bb.erasing ≠ some (s.bb.head / bbPerSector) → s.bb.lostRun ≠ 0 →
      ∃ u : State, u.bb.lostRun = 0 ∧ u.bb.index = s.bb.index + 1 ∧ u.bb.chain = sm3 (s.bbChain ++ s.bbBody e) ∧ u.bb.buffer = r ∧
        exec .bbEntryProgram s = .next (u.emit { code := 0x1207, detail := detailOf [(52, 4, s.bb.lostRun)] })) ∧
    ((s.bb.buffer = [] ∨ s.flag RF.MGT_BB_STAT_READY = false ∨ s.bb.erasing = some (s.bb.head / bbPerSector)) → exec .bbEntryProgram s = .next s) ∧
    (s.bb.erasing = none → exec .bbSectorErase s = .next s) ∧ (s.bb.rdIdx = none → exec .bbRdLatchDone s = .next s) ∧
    (s.bb.erasing = some n → ∃ u, exec .bbSectorErase s = .next u ∧ u.bb.erasing = none ∧
      u.bb.slots = s.bb.slots.filter (fun p => !(p.1 / bbPerSector == n)) ∧ u.flag RF.MGT_BB_STAT_ERASING = false) ∧
    (s.alive = true → 1 ≤ s.boot.step → ∃ u, exec (.bbRdIdxWrite v) s = .next u ∧ u.flag RF.MGT_BB_STAT_RD_BUSY = true ∧ u.reg RA.MGT_BB_RD_IDX_LO = v ∧
      u.bb.rdIdx = some (v.toNat + 2 ^ 32 * s.fld RF.MGT_BB_RD_IDX_HI_INDEX)) ∧
    (s.bb.rdIdx = some n → ∃ u, exec .bbRdLatchDone s = .next u ∧ u.bb.rdIdx = none ∧ u.flag RF.MGT_BB_STAT_RD_BUSY = false ∧
      ∀ k, k < 32 → u.reg (RA.MGT_BB_RD_DATA k)
        = BitVec.ofNat 32 (leNat (((((s.bbEntry n).getD (List.replicate 128 0))).drop (4 * k)).take 4)))

/-- Starts (after R805 to R807, R839 to R857, R882 to R885): PWROK and PERST_N lead through reset into a cold start, which keeps the fuses, the black box and the host alone, or a
warm start, which keeps the firmware bundle, SALT and the alerts too; each step takes at most its bound; a start that has not stopped waits in step 7 for
its firmware; a push is fetched, checked, and accepted or refused with the code of its first failed check. -/
def Obligations.Starts : Prop :=
  ∀ (s : State) (times : List Nat) (salt bundle : List Byte) (selfFail : Option (Nat × Nat)) (badLanes : List (Nat × LaneId)) (badCh : List (Nat × Nat)) (v : Word) (n us : Nat),
    (s.pins.pwrok = true → (s.pins.perst = true ∨ s.boot.coldReq = true) → s.boot.power = .inReset → s.boot.coldDone = false → s.boot.stopped = false → salt.length = 32 →
      exec (.coldStart times salt selfFail badLanes badCh) s = .next (s.coldStart times salt selfFail badLanes badCh)) ∧
    (s.coldState.regs = [] ∧ s.coldState.mem = {} ∧ s.coldState.units = [] ∧ s.coldState.accs = [] ∧ s.coldState.bb.slots = s.bb.slots ∧ s.coldState.bb.chain = s.bb.chain ∧
      s.coldState.kwy.fusedSvn = s.kwy.fusedSvn ∧ s.coldState.kwy.salt = [] ∧ s.coldState.host.mem = s.host.mem ∧ s.coldState.boot.bundle = []) ∧
    (s.pins.pwrok = false → ∃ u, exec (.coldStart times salt selfFail badLanes badCh) s = .next u ∧ u.pins.perst = false ∧ u.boot = s.boot) ∧
    (s.pins.pwrok = true → s.boot.stopped = false → s.boot.coldDone = true → s.boot.power = .running ∨ s.pins.perst = true →
      exec (.warmStart times badLanes) s = .next (s.warmStart times badLanes)) ∧
    (s.pins.pwrok = true → s.boot.stopped = true → exec (.warmStart times badLanes) s = .next s) ∧
    (s.pins.pwrok = true → s.boot.stopped = false → s.boot.power = .running → s.boot.coldDone = false →
      ∃ u, exec (.warmStart times badLanes) s = .next u ∧ u.boot.power = .inReset ∧ u.boot.coldReq = true ∧ u.regs = s.regs) ∧
    (s.teardown.units = [] ∧ s.teardown.mem = {} ∧ s.teardown.xlt = {} ∧ s.teardown.ward = {} ∧ s.teardown.tick = {} ∧ s.teardown.accs = [] ∧ s.teardown.bb = s.bb ∧
      s.teardown.kwy.salt = s.kwy.salt ∧ s.teardown.mgt.queue = s.mgt.queue ∧ s.teardown.boot.bundle = s.boot.bundle ∧ s.teardown.boot.fwRunning = false) ∧
    (s.alive = true → natBit v.toNat 0 = false → exec (.warmGo v times badLanes) s = .next (s.setFlag RF.MGT_BOOT_CTL_REPUSH (natBit v.toNat 1))) ∧
    (s.alive = true → natBit v.toNat 0 = true → s.boot.coldDone = true →
      exec (.warmGo v times badLanes) s = .next ((s.setFlag RF.MGT_BOOT_CTL_REPUSH (natBit v.toNat 1)).warmStart times badLanes)) ∧
    (s.alive = true → natBit v.toNat 0 = true → s.boot.coldDone = false → ∃ u, exec (.warmGo v times badLanes) s = .next u ∧ u.boot.power = .inReset ∧ u.boot.coldReq = true) ∧
    (s.pins.pwrok = true → exec .pwrokAssert s = .next s) ∧ (s.pins.pwrok = false → exec .pwrokDeassert s = .next s ∧ exec (.warmStart times badLanes) s = .next s) ∧
    ((s.spendStep n us).now = s.now + 2500 * min us (stepBounds.getD (n - 1) 0)) ∧
    (s.startDead = false → s.step7.boot.step = 7 ∧ s.step7.boot.coldDone = true) ∧
    (s.startDead = true → s.step7 = s ∧ ∀ f, s.runStep n us f = s) ∧
    (s.pins.pwrok = false → ∃ u, exec .pwrokAssert s = .next u ∧ u.pins.pwrok = true ∧ u.boot.power = .inReset ∧ u.regs = s.regs) ∧
    (s.pins.pwrok = true → ∃ u, exec .pwrokDeassert s = .next u ∧ u.boot.power = .unpowered ∧ u.pins.pwrok = false ∧ u.regs = [] ∧ u.mem = {} ∧ u.boot.coldDone = false) ∧
    (s.pins.pwrok = true → ∃ u, exec .perstNAssert s = .next u ∧ u.pins.perst = true ∧ u.boot.power = .inReset ∧ u.boot.bundle = s.boot.bundle ∧ u.accs = []) ∧
    (s.pins.pwrok = false → ∃ u, exec .perstNAssert s = .next u ∧ u.pins.perst = true ∧ u.boot = s.boot ∧ u.regs = s.regs) ∧
    (natBit v.toNat 0 = true → s.alive = true → s.boot.step = 7 → s.boot.fwRunning = false → s.boot.push = none → s.boot.bundle = [] → s.startDead = false →
      exec (.fwPushGo v) s = .next { s with boot := { s.boot with push := some (s.fld RF.MGT_FW_ADDR_LO_ADDR * 4096 + 2 ^ 32 * s.fld RF.MGT_FW_ADDR_HI_ADDR, s.fld RF.MGT_FW_SIZE_SIZE) } }) ∧
    (s.boot.fwRunning = true → exec (.fwPushGo v) s = .next s ∧ exec (.fwCheckDone bundle) s = .next s) ∧
    (s.alive = true → s.boot.step = 7 → s.boot.fwRunning = false → s.startDead = false →
      ((∃ l, s.boot.push = some (n, l) ∧ (l = bundle.length ∨ bundle = [])) ∨ (s.boot.push = none ∧ bundle ≠ [] ∧ bundle = s.boot.bundle)) →
      exec (.fwCheckDone bundle) s = .next (match s.bundleCheck bundle with | some code => s.refuseBundle code bundle | none => s.acceptBundle bundle))

/-- Pins and the test port (after R835, R874 to R881): a tick timer expires once a tick, at its offset, and fires its tumbler where it is to; an edge that stays 100 cycles on a pin
is recognised, once, and fires or captures by the pin's function; a shorter one does not; an output pin shows its asserted state by its function and polarity; TRST_N resets the test port, and its controller moves on rising and shifts on falling
edges. -/
def Obligations.PinsAndTestPort : Prop :=
  ∀ (s : State) (n k at_ : Nat) (t : TimerEnt) (p : PinEnt) (tms tdi rise : Bool),
    (s.ward.image.timers[n]? = some t → s.tick.lastTick = some at_ → s.ticking = true → t.en = true → s.tick.due = none → s.now = at_ + refPeriod * t.offset →
      kvN s.pins.timerBase n ≠ at_ + 1 →
      ∃ u : State, kvN u.pins.timerBase n = at_ + 1 ∧ u.regs = s.regs ∧ u.mem = s.mem ∧
        exec (.tickTimerExpire n) s = .next (if t.fire then u.devArrive 6 s.boot.leafSel t.tumbler else u)) ∧
    (s.tick.lastTick = some at_ → kvN s.pins.timerBase n = at_ + 1 → exec (.tickTimerExpire n) s = .next s) ∧
    (s.ward.image.pins[n]? = some p → n < 16 → s.ticking = true →
      let u (seen : Nat) := State.syncMfp { s with pins := { s.pins with
        mfpIn := natSetBits s.pins.mfpIn n 1 (if k = 0 then 0 else 1), mfpSeen := natSetBits s.pins.mfpSeen n 1 seen } }
      (k = 0 → exec (.mfpInputEdge n k) s = .next (u 0)) ∧
      (k ≠ 0 → k < 100 → exec (.mfpInputEdge n k) s = .next (u (natBit s.pins.mfpSeen n).toNat)) ∧
      (100 ≤ k → natBit s.pins.mfpSeen n = true → exec (.mfpInputEdge n k) s = .next (u 1)) ∧
      (100 ≤ k → natBit s.pins.mfpSeen n = false →
        (p.func = 6 → exec (.mfpInputEdge n k) s = .next ((u 1).devArrive 6 s.boot.leafSel p.tumbler)) ∧
        (p.func = 7 → exec (.mfpInputEdge n k) s = .next ((u 1).capture p.buffer none)) ∧
        (p.func ≠ 6 → p.func ≠ 7 → exec (.mfpInputEdge n k) s = .next (u 1)))) ∧
    (s.ward.image.pins[n]? = some p →
      (p.func = 2 → s.mfpLevel n = if natBit (s.fld RF.WRD_MFP_OUT_DRIVE) n = p.activeLow then .low else .released) ∧
      (p.func = 3 → s.mfpLevel n = if decide (s.now < kvN s.pins.markerUntil n) = p.activeLow then .low else .high) ∧
      (p.func = 4 → s.mfpLevel n = if s.pins.overrunOut = p.activeLow then .low else .high) ∧
      (p.func = 5 → s.mfpLevel n = if decide (s.now < kvN s.pins.tmbOutUntil n) = p.activeLow then .low else .high) ∧
      ((p.func < 2 ∨ 5 < p.func) → s.mfpLevel n = .released)) ∧
    (s.boot.power ≠ .unpowered →
      exec (.jtagTckEdge rise false tms tdi) s = .next { s with jtag := {} } ∧
      (∃ u, exec (.jtagTckEdge true true tms tdi) s = .next u ∧ u.jtag.tap = s.jtag.tap.next tms ∧ u.jtag.tdo = s.jtag.tdo ∧ u.jtag.ir = s.jtag.ir ∧ u.regs = s.regs ∧
        (s.jtag.tap = .shiftDr → u.jtag.dr = s.jtag.dr.drop 1 ++ [tdi]) ∧ (s.jtag.tap = .shiftIr → u.jtag.irShift = s.jtag.irShift.drop 1 ++ [tdi])) ∧
      (∃ u, exec (.jtagTckEdge false true tms tdi) s = .next u ∧ u.jtag.tap = s.jtag.tap ∧ u.regs = s.regs ∧
        (s.jtag.tap = .shiftDr → u.jtag.tdo = s.jtag.dr.head?) ∧ (s.jtag.tap = .updIr → u.jtag.ir = s.jtag.irShift))) ∧
    (s.boot.power = .unpowered → exec (.jtagTckEdge rise true tms tdi) s = .next s)

/-- Register writes (after R9, R14, R258, R674, R675, R680): in a word of the physical function's BAR0, an RW bit takes the value written, an RWL bit does until the ward image is loaded and keeps
its value afterwards, a W1C bit is cleared by a 1, every other bit keeps its value (no register of the map has a W1S bit); a bit that a command of its own writes is left to that
command; no other register and no memory changes; REPLAY_LIMIT and ACK_TIMEOUT of a link take a 0 as 1; a write to a queue's doorbell page rings its doorbell; a virtual
function reaches its own block, its own queues and their doorbell pages. -/
def Obligations.RegisterWrites : Prop :=
  ∀ (s : State) (a k fn q : Nat) (v : Word) (r : RegRow),
    let bit (n : Nat) := n.testBit k
    (s.boot.power = .running → a % 4 = 0 → a < 2 ^ 28 → s.served a = true → s.discards a = false → regRow a = some r → k < 32 →
      (a < doorbellAddr 0 ∨ doorbellAddr 4096 ≤ a) →
      ∃ u, exec (.registerWrite 0 a v) s = .next u ∧ u.mem = s.mem ∧ ((a < 0x210000 ∨ 0x211000 ≤ a) → u.units = s.units) ∧ (∀ x, x ≠ a → u.reg x = s.reg x) ∧
        let v := linkCtlWord a v
        let new := (u.reg a).getLsbD k
        let old := (s.reg a).getLsbD k
        (bit (ownBits a) = true → new = old) ∧
        (bit (ownBits a) = false →
          (bit r.rw = true → bit r.w1c = false → bit r.w1s = false → new = v.getLsbD k) ∧
          (bit r.rw = false → bit r.rwl = true → bit r.w1c = false → bit r.w1s = false →
            new = if s.flag RF.WRD_STAT_LOADED then old else v.getLsbD k) ∧
          (bit r.rw = false → bit r.rwl = false → bit r.w1c = true → bit r.w1s = false → new = (old && !v.getLsbD k)) ∧
          (bit r.rw = false → bit r.rwl = false → bit r.w1c = false → bit r.w1s = false → new = old))) ∧
    ((a < 0x1180000 ∨ 0x1180380 ≤ a ∨ a % 0x40 ≠ 0x14) → linkCtlWord a v = v) ∧
    (0x1180000 ≤ a → a < 0x1180380 → a % 0x40 = 0x14 →
      (∀ k, k ≠ 0 → k ≠ 8 → (linkCtlWord a v).getLsbD k = v.getLsbD k) ∧
      (linkCtlWord a v).getLsbD 0 = (v.getLsbD 0 || decide (v &&& 0xFF#32 = 0#32)) ∧ (linkCtlWord a v).getLsbD 8 = (v.getLsbD 8 || decide (v &&& 0xFF00#32 = 0#32))) ∧
    (s.boot.power = .running → s.boot.fwRunning = true → s.boot.stopped = false → q < 4096 →
      exec (.registerWrite 0 (doorbellAddr q) v) s = .next (s.ringSqtail 0 q v.toNat) ∧ exec (.registerWrite 0 (doorbellAddr q + 4) v) s = .next (s.ringCqhead 0 q v.toNat)) ∧
    (s.boot.power = .running → a % 4 = 0 → a < 2 ^ 32 → s.served a = false → exec (.registerWrite 0 a v) s = .next s) ∧
    (s.boot.power = .running → a % 4 = 0 → 1 ≤ fn → fn ≤ 16 → (s.fnSt fn).enabled = true →
      (0x100 ≤ a → a < 0x130 → exec (.registerWrite fn a v) s = .next (s.regWrite (a + fnBase fn) v)) ∧
      (0x10000 ≤ a → a < 0x50000 → s.fnQueue fn ((a - 0x10000) / 0x40) = some q →
        exec (.registerWrite fn a v) s = .next (s.regWrite (0x10000 + 0x40 * q + a % 0x40) v)) ∧
      (q < 4096 → exec (.registerWrite fn (vfDoorbellAddr q) v) s = .next (s.ringSqtail fn q v.toNat) ∧
        exec (.registerWrite fn (vfDoorbellAddr q + 4) v) s = .next (s.ringCqhead fn q v.toNat)) ∧
      (0x10000 ≤ a → a < 0x50000 → s.fnQueue fn ((a - 0x10000) / 0x40) = none → exec (.registerWrite fn a v) s = .next s)) ∧
    (s.boot.power = .running → a % 4 = 0 → (fn = 0 ∨ (fn ≤ 16 ∧ (s.fnSt fn).enabled = true)) → 2 ^ 32 ≤ a →
      exec (.registerWrite fn a v) s = .next (s.msixWrite fn (a - 2 ^ 32) v)) ∧
    (1 ≤ fn → (s.fnSt fn).enabled = false → exec (.registerWrite fn a v) s = .next s)

/-- A step takes the command at the front of the queue and executes it on the state with the queue's rest; on an empty queue one cycle passes
(the model's choice, log entry 2). -/
def Obligations.StepRunsTheFrontCommand : Prop :=
  (∀ (c : Instr) (r : List Instr) (s : State), step { s with pending := c :: r } = exec c { s with pending := r }) ∧
  ∀ s : State, s.pending = [] → step s = .next s.idle

/-- After reset every register to which a table gives another value than 0 reads that value, and an address of no register reads 0; the registers and the byte
memories are in canonical form and no command waits. That the repair map has no bit and no security version is fused is the model's choice (log entry 6). -/
def Obligations.ResetState : Prop :=
  (∀ p ∈ resetValues, State.reset.reg p.1 = p.2) ∧ (∀ a, regRow a = none → State.reset.reg a = 0) ∧
  State.reset.memWf = true ∧ State.reset.pending = [] ∧ State.reset.kwy.fusedSvn = 0 ∧
  ∀ k n, natBit (kvGet (fun _ => 0) State.reset.boot.repair k) n = false

/-- Every step answers a next state; registers, HBM, scratchpads and host memory stay in canonical form, the queue loses its front and nothing else, and the
clock never runs back. -/
def Obligations.StepKeepsCanonicalForm : Prop :=
  ∀ s : State, ∃ t, step s = .next t ∧ (s.memWf = true → t.memWf = true) ∧ t.pending = s.pending.tail ∧ s.now ≤ t.now

/-- No command of the table stops the block: each answers a next state from every state, and none changes the queue of commands or takes back an index of
free values that another command has used. -/
def Obligations.NoCommandStops : Prop :=
  ∀ (c : Instr) (s : State), ∃ t, exec c s = .next t ∧ t.pending = s.pending ∧ s.freeCtr ≤ t.freeCtr

/-- What is burnt stays burnt: a map-out that ends programs its channel's bit in the repair map, no step erases a programmed bit (after R853), and no step lowers
the fused security version (after R808). -/
def Obligations.FusesArePermanent : Prop :=
  (∀ (stack channel : Nat) (s : State), s.mem.mapouts.contains (stack, channel) = true →
    ∃ t, exec (.channelMapoutDone stack channel) s = .next t ∧ natBit (kvGet (fun _ => 0) t.boot.repair stack) channel = true) ∧
  ∀ s t : State, step s = .next t →
    s.kwy.fusedSvn ≤ t.kwy.fusedSvn ∧
    ∀ k n, natBit (kvGet (fun _ => 0) s.boot.repair k) n = true → natBit (kvGet (fun _ => 0) t.boot.repair k) n = true
end

