-- ==== Sys2Proof/Laws/Bits.lean ====
section
/-! SUPPORT. Laws of the bit fields of natural numbers. -/

namespace Sys2Proof

theorem natBits_testBit (n lo w i : Nat) : (natBits n lo w).testBit i = (decide (i < w) && n.testBit (lo + i)) := by
  simp [natBits, Nat.testBit_mod_two_pow, Nat.testBit_div_two_pow, Nat.add_comm]

theorem natSetBits_testBit (n lo w v i : Nat) :
    (natSetBits n lo w v).testBit i = if lo ≤ i ∧ i < lo + w then v.testBit (i - lo) else n.testBit i := by
  have e : natSetBits n lo w v = 2 ^ lo * (2 ^ w * (n / 2 ^ (lo + w)) + v % 2 ^ w) + n % 2 ^ lo := by
    unfold natSetBits
    rw [pow_add]
    ring
  rw [e, Nat.testBit_two_pow_mul_add _ (Nat.mod_lt _ (Nat.two_pow_pos lo))]
  by_cases h1 : i < lo
  · have : ¬ (lo ≤ i ∧ i < lo + w) := by omega
    simp [h1, this, Nat.testBit_mod_two_pow]
  · simp only [h1, if_false]
    rw [Nat.testBit_two_pow_mul_add _ (Nat.mod_lt _ (Nat.two_pow_pos w))]
    by_cases h2 : i - lo < w
    · have : lo ≤ i ∧ i < lo + w := by omega
      simp [h2, this, Nat.testBit_mod_two_pow]
    · have h3 : ¬ (lo ≤ i ∧ i < lo + w) := by omega
      simp only [h2, if_false, h3]
      rw [Nat.testBit_div_two_pow]
      congr 1
      omega

/-- A field reads as the value last written into it. -/
theorem natBits_setBits_same (n lo w v : Nat) : natBits (natSetBits n lo w v) lo w = v % 2 ^ w := by
  apply Nat.eq_of_testBit_eq
  intro i
  rw [natBits_testBit, natSetBits_testBit, Nat.testBit_mod_two_pow]
  by_cases h : i < w
  · have : lo ≤ lo + i ∧ lo + i < lo + w := by omega
    simp [h, this]
  · simp [h]

/-- A write of a field leaves a disjoint field as it was. -/
theorem natBits_setBits_other (n lo w v lo' w' : Nat) (h : lo' + w' ≤ lo ∨ lo + w ≤ lo') :
    natBits (natSetBits n lo w v) lo' w' = natBits n lo' w' := by
  apply Nat.eq_of_testBit_eq
  intro i
  rw [natBits_testBit, natSetBits_testBit, natBits_testBit]
  by_cases hi : i < w'
  · have : ¬ (lo ≤ lo' + i ∧ lo' + i < lo + w) := by omega
    simp [hi, this]
  · simp [hi]

theorem natBits_mod (n lo w k : Nat) (h : lo + w ≤ k) : natBits (n % 2 ^ k) lo w = natBits n lo w := by
  apply Nat.eq_of_testBit_eq
  intro i
  rw [natBits_testBit, natBits_testBit, Nat.testBit_mod_two_pow]
  by_cases hi : i < w
  · have : lo + i < k := by omega
    simp [hi, this]
  · simp [hi]

end Sys2Proof
end

