-- ==== Sys2Proof/Laws/Kv.lean ====
section
/-! SUPPORT. Laws of the sparse maps: a read after a write, and the canonical form. -/

namespace Sys2Proof

variable {ν : Type}

theorem kvGet_insert (d : Nat → ν) (m : KV ν) (k : Nat) (v : ν) (j : Nat) (h : ∀ p ∈ m, p.1 ≠ k) :
    kvGet d (kvInsert k v m) j = if j = k then v else kvGet d m j := by
  induction m with
  | nil => simp [kvInsert, kvGet]
  | cons p r ih =>
    obtain ⟨k', v'⟩ := p
    have hk : k' ≠ k := h (k', v') (by simp)
    have hr : ∀ p ∈ r, p.1 ≠ k := fun p hp => h p (by simp [hp])
    unfold kvInsert
    by_cases hlt : k < k'
    · simp only [hlt, if_true, kvGet]
    · simp only [hlt, if_false, kvGet, ih hr]
      by_cases hj : j = k
      · subst hj; simp [Ne.symm hk]
      · simp [hj]

theorem kvErase_keys (k : Nat) (m : KV ν) : ∀ p ∈ kvErase k m, p.1 ≠ k := by
  induction m with
  | nil => simp [kvErase]
  | cons p r ih =>
    obtain ⟨k', v'⟩ := p
    unfold kvErase
    by_cases h : k = k'
    · simpa [h] using ih
    · simp only [h, if_false]
      intro q hq
      rcases List.mem_cons.mp hq with rfl | hq
      · exact fun e => h e.symm
      · exact ih q hq

theorem kvGet_erase (d : Nat → ν) (k : Nat) (m : KV ν) (j : Nat) :
    kvGet d (kvErase k m) j = if j = k then d j else kvGet d m j := by
  induction m with
  | nil => simp [kvErase, kvGet]
  | cons p r ih =>
    obtain ⟨k', v'⟩ := p
    unfold kvErase
    by_cases h : k = k'
    · subst h
      simp only [if_true, ih, kvGet]
      by_cases hj : j = k <;> simp [hj]
    · simp only [h, if_false, kvGet, ih]
      by_cases hj : j = k
      · subst hj; simp [h]
      · simp [hj]

/-- A read after a write: the value written, or what was there. -/
theorem kvGet_set [DecidableEq ν] (d : Nat → ν) (m : KV ν) (k : Nat) (v : ν) (j : Nat) :
    kvGet d (kvSet d m k v) j = if j = k then v else kvGet d m j := by
  unfold kvSet
  by_cases hv : v = d k
  · simp only [hv, if_true, kvGet_erase]
    by_cases hj : j = k
    · subst hj; simp
    · simp [hj]
  · simp only [hv, if_false, kvGet_insert d _ k v j (kvErase_keys k m), kvGet_erase]
    by_cases hj : j = k <;> simp [hj]

@[simp] theorem kvGet_set_same [DecidableEq ν] (d : Nat → ν) (m : KV ν) (k : Nat) (v : ν) : kvGet d (kvSet d m k v) k = v := by
  simp [kvGet_set]

theorem kvGet_set_other [DecidableEq ν] (d : Nat → ν) (m : KV ν) (k : Nat) (v : ν) {j : Nat} (h : j ≠ k) :
    kvGet d (kvSet d m k v) j = kvGet d m j := by
  simp [kvGet_set, h]

/-! ### The canonical form -/

theorem kvWf_cons [DecidableEq ν] {d : Nat → ν} {k : Nat} {v : ν} {r : KV ν} :
    kvWf d ((k, v) :: r) = true ↔ v ≠ d k ∧ (∀ p ∈ r, k < p.1) ∧ kvWf d r = true := by
  simp [kvWf, and_assoc]

theorem kvErase_wf [DecidableEq ν] (d : Nat → ν) (k : Nat) (m : KV ν) (h : kvWf d m = true) : kvWf d (kvErase k m) = true := by
  induction m with
  | nil => simpa [kvErase] using h
  | cons p r ih =>
    obtain ⟨k', v'⟩ := p
    rw [kvWf_cons] at h
    unfold kvErase
    by_cases hk : k = k'
    · simpa [hk] using ih h.2.2
    · simp only [hk, if_false]
      refine kvWf_cons.mpr ⟨h.1, ?_, ih h.2.2⟩
      intro q hq
      have : ∀ q ∈ kvErase k r, q ∈ r := by
        clear ih h hq
        induction r with
        | nil => simp [kvErase]
        | cons a t it =>
          obtain ⟨ka, va⟩ := a
          unfold kvErase
          by_cases e : k = ka
          · simp only [e, if_true]
            intro q hq
            rw [e] at it
            exact List.mem_cons_of_mem _ (it q hq)
          · simp only [e, if_false]
            intro q hq
            rcases List.mem_cons.mp hq with rfl | hq
            · simp
            · exact List.mem_cons_of_mem _ (it q hq)
      exact h.2.1 q (this q hq)

theorem kvInsert_mem (k : Nat) (v : ν) (m : KV ν) : ∀ p ∈ kvInsert k v m, p = (k, v) ∨ p ∈ m := by
  induction m with
  | nil => simp [kvInsert]
  | cons a r ih =>
    obtain ⟨ka, va⟩ := a
    unfold kvInsert
    by_cases h : k < ka
    · simp only [h, if_true]
      intro p hp
      rcases List.mem_cons.mp hp with rfl | hp
      · exact .inl rfl
      · exact .inr hp
    · simp only [h, if_false]
      intro p hp
      rcases List.mem_cons.mp hp with rfl | hp
      · exact .inr (by simp)
      · rcases ih p hp with e | e
        · exact .inl e
        · exact .inr (List.mem_cons_of_mem _ e)

theorem kvInsert_wf [DecidableEq ν] (d : Nat → ν) (k : Nat) (v : ν) (m : KV ν) (hv : v ≠ d k) (hk : ∀ p ∈ m, p.1 ≠ k)
    (h : kvWf d m = true) : kvWf d (kvInsert k v m) = true := by
  induction m with
  | nil => simpa [kvInsert, kvWf] using hv
  | cons a r ih =>
    obtain ⟨ka, va⟩ := a
    have hh := kvWf_cons.mp h
    unfold kvInsert
    by_cases e : k < ka
    · simp only [e, if_true]
      refine kvWf_cons.mpr ⟨hv, ?_, h⟩
      intro p hp
      rcases List.mem_cons.mp hp with rfl | hp
      · exact e
      · exact Nat.lt_trans e (hh.2.1 p hp)
    · simp only [e, if_false]
      have hka : ka ≠ k := hk (ka, va) (by simp)
      refine kvWf_cons.mpr ⟨hh.1, ?_, ih (fun p hp => hk p (List.mem_cons_of_mem _ hp)) hh.2.2⟩
      intro p hp
      rcases kvInsert_mem k v r p hp with rfl | hp
      · show ka < k
        omega
      · exact hh.2.1 p hp

/-- A write keeps the canonical form. -/
theorem kvSet_wf [DecidableEq ν] (d : Nat → ν) (m : KV ν) (k : Nat) (v : ν) (h : kvWf d m = true) : kvWf d (kvSet d m k v) = true := by
  unfold kvSet
  by_cases e : v = d k
  · simpa [e] using kvErase_wf d k m h
  · simpa [e] using kvInsert_wf d k v _ e (kvErase_keys k m) (kvErase_wf d k m h)

/-- Dropping entries keeps the canonical form. -/
theorem kvFilter_wf [DecidableEq ν] (d : Nat → ν) (p : Nat × ν → Bool) (m : KV ν) (h : kvWf d m = true) : kvWf d (m.filter p) = true := by
  induction m with
  | nil => simpa using h
  | cons a r ih =>
    obtain ⟨ka, va⟩ := a
    have hh := kvWf_cons.mp h
    by_cases e : p (ka, va)
    · rw [List.filter_cons_of_pos e]
      exact kvWf_cons.mpr ⟨hh.1, fun q hq => hh.2.1 q (List.mem_of_mem_filter hq), ih hh.2.2⟩
    · rw [List.filter_cons_of_neg e]
      exact ih hh.2.2

/-- A map over the listed values is a map over all values, when it keeps what an unlisted key reads as. -/
theorem kvGet_map [DecidableEq ν] (d : Nat → ν) (f : Nat → ν → ν) (hf : ∀ k, f k (d k) = d k) (m : KV ν) (j : Nat) :
    kvGet d (kvMap d f m) j = f j (kvGet d m j) := by
  induction m with
  | nil => exact (hf j).symm
  | cons p r ih =>
    obtain ⟨k, v⟩ := p
    simp only [kvMap, kvGet_set, kvGet, ih]
    split
    · rename_i h; rw [h]
    · rfl

end Sys2Proof
end

