-- ==== Sys2Proof/Laws/Keeps.lean ====
section
/-! SUPPORT. What every operation keeps (State.Keeps): the canonical form of registers and memories, the queue, a clock and an index of free values that do
not run back, the fused security version and the repair map. Here the shapes the lemmas take; the files KeepsShared, KeepsUnits, KeepsChip and KeepsPorts hold
one lemma per operation, in the order of the model's files. -/

namespace Sys2Proof.Machine

/-- An outcome is a next state, and it keeps what `State.Keeps` says. -/
structure KeepsOut (r : State) (o : Host.Outcome State Fault Refusal) : Prop where
  out : ∃ t, o = .next t ∧ r.Keeps t

/-- A state that may be absent. -/
structure KeepsOpt (r : State) (o : Option State) : Prop where
  out : ∀ t, o = some t → r.Keeps t

/-- A state beside a value, both of which may be absent. -/
structure KeepsPair {α : Type} (r : State) (o : Option (State × α)) : Prop where
  out : ∀ t a, o = some (t, a) → r.Keeps t

/-- A state beside a value. -/
structure KeepsFst {α : Type} (r : State) (p : State × α) : Prop where
  out : r.Keeps p.1

/-- A value beside a state. -/
structure KeepsSnd {α : Type} (r : State) (p : α × State) : Prop where
  out : r.Keeps p.2

theorem State.Keeps.refl (s : State) : s.Keeps s := ⟨id, rfl, Nat.le_refl _, Nat.le_refl _, Nat.le_refl _, fun _ _ h => h⟩

theorem State.Keeps.trans {s t u : State} (h : s.Keeps t) (k : t.Keeps u) : s.Keeps u :=
  ⟨fun w => k.memWf (h.memWf w), k.pending.trans h.pending, Nat.le_trans h.now k.now, Nat.le_trans h.freeCtr k.freeCtr,
    Nat.le_trans h.fusedSvn k.fusedSvn, fun i n w => k.repair i n (h.repair i n w)⟩

theorem keeps_next {r t : State} (h : r.Keeps t) : KeepsOut r (.next t) := ⟨_, rfl, h⟩
theorem keeps_some {r t : State} (h : r.Keeps t) : KeepsOpt r (some t) := ⟨fun _ e => by cases e; exact h⟩
theorem keeps_none {r : State} : KeepsOpt r none := ⟨fun _ e => by cases e⟩
theorem keeps_some_pair {α : Type} {r t : State} {a : α} (h : r.Keeps t) : KeepsPair r (some (t, a)) := ⟨fun _ _ e => by cases e; exact h⟩
theorem keeps_none_pair {α : Type} {r : State} : KeepsPair (α := α) r none := ⟨fun _ _ e => by cases e⟩
theorem keeps_of_some {r t : State} {o : Option State} (e : o = some t) (h : KeepsOpt r o) : r.Keeps t := h.out t e
theorem keeps_of_some_pair {α : Type} {r t : State} {a : α} {o : Option (State × α)} (e : o = some (t, a)) (h : KeepsPair r o) : r.Keeps t := h.out t a e
theorem keeps_of_some_pair' {α : Type} {r : State} {p : State × α} {o : Option (State × α)} (e : o = some p) (h : KeepsPair r o) : KeepsFst r p := ⟨h.out p.1 p.2 e⟩
theorem keeps_fst {α : Type} {r t : State} {a : α} {p : State × α} (e : p = (t, a)) (h : KeepsFst r p) : r.Keeps t := by subst e; exact h.out
theorem keeps_snd {α : Type} {r t : State} {a : α} {p : α × State} (e : p = (a, t)) (h : KeepsSnd r p) : r.Keeps t := by subst e; exact h.out
theorem keeps_mk_fst {α : Type} {r t : State} {a : α} : KeepsFst r (t, a) ↔ r.Keeps t := ⟨fun h => h.out, fun h => ⟨h⟩⟩
theorem keeps_mk_snd {α : Type} {r t : State} {a : α} : KeepsSnd r (a, t) ↔ r.Keeps t := ⟨fun h => h.out, fun h => ⟨h⟩⟩

theorem keeps_foldl {α : Type} {r : State} {f : State → α → State} {l : List α} {s : State} (h : r.Keeps s) (k : ∀ x a, r.Keeps x → r.Keeps (f x a)) :
    r.Keeps (l.foldl f s) := by
  induction l generalizing s with
  | nil => exact h
  | cons a l ih => exact ih (k s a h)

theorem keeps_foldl_fst {α β : Type} {r : State} {f : State × β → α → State × β} {l : List α} {p : State × β} (h : KeepsFst r p)
    (k : ∀ x b a, r.Keeps x → KeepsFst r (f (x, b) a)) : KeepsFst r (l.foldl f p) := by
  induction l generalizing p with
  | nil => exact h
  | cons a l ih => exact ih (k p.1 p.2 a h.out)

theorem keeps_foldl_snd {α β : Type} {r : State} {f : β × State → α → β × State} {l : List α} {p : β × State} (h : KeepsSnd r p)
    (k : ∀ x b a, r.Keeps x → KeepsSnd r (f (b, x) a)) : KeepsSnd r (l.foldl f p) := by
  induction l generalizing p with
  | nil => exact h
  | cons a l ih => exact ih (k p.2 p.1 a h.out)

/-- What `State.Keeps` asks of a state that is written out: its first four fields, HBM, scratchpads, host memory, the fused SVN and the repair map. -/
structure KeepsCore (r : State) (p : List Instr) (n f : Nat) (rg : KV Word) (hbm scr hm : KV Byte) (svn : Nat) (rep : KV Nat) : Prop where
  memWf : r.memWf = true → kvWf regReset rg = true ∧ Memory.wf hbm = true ∧ Memory.wf scr = true ∧ Memory.wf hm = true
  pending : p = r.pending
  now : r.now ≤ n
  freeCtr : r.freeCtr ≤ f
  fusedSvn : r.kwy.fusedSvn ≤ svn
  repair : ∀ k i, natBit (kvGet (fun _ => 0) r.boot.repair k) i = true → natBit (kvGet (fun _ => 0) rep k) i = true

theorem State.memWf_iff (s : State) : s.memWf = true ↔
    kvWf regReset s.regs = true ∧ Memory.wf s.mem.hbm = true ∧ Memory.wf s.mem.scratch = true ∧ Memory.wf s.host.mem = true := by
  simp [State.memWf, and_assoc]

theorem keeps_iff_core {r t : State} : r.Keeps t ↔ KeepsCore r t.pending t.now t.freeCtr t.regs t.mem.hbm t.mem.scratch t.host.mem t.kwy.fusedSvn t.boot.repair :=
  ⟨fun h => ⟨fun w => (State.memWf_iff t).mp (h.memWf w), h.pending, h.now, h.freeCtr, h.fusedSvn, h.repair⟩,
   fun h => ⟨fun w => (State.memWf_iff t).mpr (h.memWf w), h.pending, h.now, h.freeCtr, h.fusedSvn, h.repair⟩⟩

/-- A state that is written out. -/
theorem keeps_mk {r : State} {p n f rg links tick units ward xlt mem host bb tmb boot mgt pins tc ptl vc coh pwr kwy jtag accs nextAcc preempts} :
    r.Keeps (State.mk p n f rg links tick units ward xlt mem host bb tmb boot mgt pins tc ptl vc coh pwr kwy jtag accs nextAcc preempts)
      ↔ KeepsCore r p n f rg mem.hbm mem.scratch host.mem kwy.fusedSvn boot.repair := keeps_iff_core

/-- A record update that touches neither registers nor byte memories, the queue, the clock nor the index of free values. -/
theorem keeps_core {r x : State} (h : r.Keeps x) : KeepsCore r x.pending x.now x.freeCtr x.regs x.mem.hbm x.mem.scratch x.host.mem x.kwy.fusedSvn x.boot.repair := keeps_iff_core.mp h

/-- The same where the memory system's state is written out, its byte memories unchanged. -/
theorem keeps_core_mem {r x : State} {f3 f4 f5 f6 f7 f8 f9 f10 f11 f12 f13 f14 f15 f16 f17 f18 f19 f20 f21 f22 f23 f24 f25 f26} (h : r.Keeps x) :
    KeepsCore r x.pending x.now x.freeCtr x.regs
      (MemSt.mk x.mem.hbm x.mem.scratch f3 f4 f5 f6 f7 f8 f9 f10 f11 f12 f13 f14 f15 f16 f17 f18 f19 f20 f21 f22 f23 f24 f25 f26).hbm
      (MemSt.mk x.mem.hbm x.mem.scratch f3 f4 f5 f6 f7 f8 f9 f10 f11 f12 f13 f14 f15 f16 f17 f18 f19 f20 f21 f22 f23 f24 f25 f26).scratch x.host.mem x.kwy.fusedSvn x.boot.repair := keeps_iff_core.mp h

/-- The same where the host port's state is written out, host memory unchanged. -/
theorem keeps_core_host {r x : State} {f2 f3 f4 f5 f6 f7 f8 f9 f10 f11 f12} (h : r.Keeps x) :
    KeepsCore r x.pending x.now x.freeCtr x.regs x.mem.hbm x.mem.scratch (HostSt.mk x.host.mem f2 f3 f4 f5 f6 f7 f8 f9 f10 f11 f12).mem x.kwy.fusedSvn x.boot.repair := keeps_iff_core.mp h

/-- The same with the index of free values moved on. -/
theorem keeps_free {r x : State} {n : Nat} (h : r.Keeps x) : KeepsCore r x.pending x.now (x.freeCtr + n) x.regs x.mem.hbm x.mem.scratch x.host.mem x.kwy.fusedSvn x.boot.repair :=
  ⟨(keeps_core h).memWf, h.pending, h.now, Nat.le_trans h.freeCtr (Nat.le_add_right _ _), h.fusedSvn, h.repair⟩

/-- The same where memories and registers change, each to another in canonical form. -/
theorem keeps_wf {r x t : State} (h : r.Keeps x) (p : t.pending = x.pending) (n : x.now ≤ t.now) (f : x.freeCtr ≤ t.freeCtr) (v : t.kwy.fusedSvn = x.kwy.fusedSvn)
    (e : t.boot.repair = x.boot.repair) (m : x.memWf = true → t.memWf = true) : r.Keeps t :=
  ⟨fun w => m (h.memWf w), p.trans h.pending, Nat.le_trans h.now n, Nat.le_trans h.freeCtr f, v ▸ h.fusedSvn, e ▸ h.repair⟩

theorem hostWriteBytes_wf (m : KV Byte) (a : Nat) (bs : List Byte) (h : Memory.wf m = true) : Memory.wf (hostWriteBytes m a bs) = true := by
  induction bs generalizing m a with
  | nil => exact h
  | cons b r ih => exact ih _ _ (kvSet_wf _ _ _ _ h)

end Sys2Proof.Machine
end

