-- ==== Sys2Proof/Laws/KeepsShared.lean ====
section
/-! SUPPORT. What State.Keeps says, operation by operation: of the shared operations: registers, Tumbler, memory, devices, placement and translation. -/

open Sys2Proof
namespace Sys2Proof.Machine

set_option linter.all false

/-! Machine/Ops.lean -/

theorem State.setReg_keeps {r : State} (s : State) (a : Nat) (v : Word) (h : r.Keeps s) : r.Keeps (s.setReg a v) := by
  refine keeps_wf h rfl (Nat.le_refl _) (Nat.le_refl _) rfl rfl fun w => ?_
  rw [State.memWf_iff] at w ⊢
  exact ⟨kvSet_wf _ _ _ _ w.1, w.2⟩

theorem State.setFld_keeps {r : State} (s : State) (f : RegField) (v : Nat) (h : r.Keeps s) :
    r.Keeps (State.setFld s f v) := by
  unfold State.setFld
  with_reducible
    repeat' first
      | assumption | apply State.setReg_keeps | dsimp only

theorem State.setFlag_keeps {r : State} (s : State) (f : RegField) (b : Bool) (h : r.Keeps s) :
    r.Keeps (State.setFlag s f b) := by
  unfold State.setFlag
  with_reducible
    repeat' first
      | assumption | apply State.setFld_keeps | split | dsimp only

theorem State.bumpN_keeps {r : State} (s : State) (f : RegField) (n : Nat) (h : r.Keeps s) :
    r.Keeps (State.bumpN s f n) := by
  unfold State.bumpN
  with_reducible
    repeat' first
      | assumption | apply State.setFld_keeps | dsimp only

theorem State.bump_keeps {r : State} (s : State) (f : RegField) (h : r.Keeps s) :
    r.Keeps (State.bump s f) := by
  unfold State.bump
  with_reducible
    repeat' first
      | assumption | apply State.bumpN_keeps | dsimp only

theorem State.setFld64_keeps {r : State} (s : State) (lo : RegField) (hi : RegField) (v : Nat) (h : r.Keeps s) :
    r.Keeps (State.setFld64 s lo hi v) := by
  unfold State.setFld64
  with_reducible
    repeat' first
      | assumption | apply State.setFld_keeps | dsimp only

theorem State.bump64_keeps {r : State} (s : State) (lo : RegField) (hi : RegField) (n : Nat) (h : r.Keeps s) :
    r.Keeps (State.bump64 s lo hi n) := by
  unfold State.bump64
  with_reducible
    repeat' first
      | assumption | apply State.setFld64_keeps | dsimp only

theorem State.nextFree_keeps {r : State} (s : State) (h : r.Keeps s) :
    KeepsSnd r (State.nextFree s) := by
  unfold State.nextFree
  with_reducible
    repeat' first
      | assumption | simp -zeta -zetaUnused -zetaHave -proj only [keeps_mk, keeps_mk_snd] | apply keeps_core | apply keeps_free
      | (intro x; refine (have hx : State.Keeps r x := ?_; ?_); unfold x; rotate_left; clear_value x; rotate_left) | (intro x; clear_value x)
      | intro x | lift_lets | dsimp only

theorem State.hostWrite_keeps {r : State} (s : State) (a : Nat) (bs : List Byte) (h : r.Keeps s) : r.Keeps (s.hostWrite a bs) := by
  unfold State.hostWrite
  apply State.bump64_keeps
  rw [keeps_mk]
  refine ⟨fun w => ?_, h.pending, h.now, h.freeCtr, h.fusedSvn, h.repair⟩
  have w := (keeps_core h).memWf w
  exact ⟨w.1, w.2.1, w.2.2.1, hostWriteBytes_wf _ _ _ w.2.2.2⟩

theorem State.setFnSt_keeps {r : State} (s : State) (fn : Nat) (x : FnSt) (h : r.Keeps s) :
    r.Keeps (State.setFnSt s fn x) := by
  unfold State.setFnSt
  with_reducible
    repeat' first
      | assumption | simp -zeta -zetaUnused -zetaHave -proj only [keeps_mk] | apply keeps_core
      | (intro x; refine (have hx : State.Keeps r x := ?_; ?_); unfold x; rotate_left; clear_value x; rotate_left)
      | (intro x; have hm : HostSt.mem x = HostSt.mem x := rfl; clear hm) | (intro x; clear_value x) | intro x | lift_lets | dsimp only

theorem State.raiseVector_keeps {r : State} (s : State) (fn : Nat) (v : Nat) (h : r.Keeps s) :
    r.Keeps (State.raiseVector s fn v) := by
  unfold State.raiseVector
  with_reducible
    repeat' first
      | assumption | simp -zeta -zetaUnused -zetaHave -proj only [keeps_mk] | apply keeps_core
      | (intro x; refine (have hx : State.Keeps r x := ?_; ?_); unfold x; rotate_left; clear_value x; rotate_left)
      | (intro x; have hm : HostSt.mem x = HostSt.mem x := rfl; clear hm) | (intro x; clear_value x) | intro x | split | lift_lets | dsimp only

theorem State.evPut_keeps {r : State} (s : State) (fn : Nat) (r2 : Rec) (h : r.Keeps s) :
    r.Keeps (State.evPut s fn r2) := by
  unfold State.evPut
  with_reducible
    repeat' first
      | assumption | apply State.hostWrite_keeps | apply State.raiseVector_keeps | apply State.setFld_keeps
      | (intro x; refine (have hx : State.Keeps r x := ?_; ?_); unfold x; rotate_left; clear_value x; rotate_left) | (intro x; clear_value x)
      | intro x | lift_lets | dsimp only

theorem State.evRing_keeps {r : State} (s : State) (fn : Nat) (r2 : Rec) (h : r.Keeps s) :
    r.Keeps (State.evRing s fn r2) := by
  unfold State.evRing
  with_reducible
    repeat' first
      | assumption | apply State.setFnSt_keeps | apply State.bump_keeps | apply State.evPut_keeps
      | simp -zeta -zetaUnused -zetaHave -proj only [keeps_mk] | apply keeps_core
      | (intro x; refine (have hx : State.Keeps r x := ?_; ?_); unfold x; rotate_left; clear_value x; rotate_left) | (intro x; clear_value x)
      | intro x | split | lift_lets | dsimp only

theorem State.syncBb_keeps {r : State} (s : State) (h : r.Keeps s) :
    r.Keeps (State.syncBb s) := by
  unfold State.syncBb
  with_reducible
    repeat' first
      | assumption | apply State.setFld_keeps | dsimp only

theorem State.bbEnter_keeps {r : State} (s : State) (source : Nat) (r2 : Rec) (h : r.Keeps s) :
    r.Keeps (State.bbEnter s source r2) := by
  unfold State.bbEnter
  with_reducible
    repeat' first
      | assumption | apply State.bump_keeps | apply State.syncBb_keeps | simp -zeta -zetaUnused -zetaHave -proj only [keeps_mk] | apply keeps_core
      | (intro x; refine (have hx : State.Keeps r x := ?_; ?_); unfold x; rotate_left; clear_value x; rotate_left) | (intro x; clear_value x)
      | intro x | split | lift_lets | dsimp only

theorem State.mgtQueue_keeps {r : State} (s : State) (r1 : Rec) (h : r.Keeps s) :
    r.Keeps (State.mgtQueue s r1) := by
  unfold State.mgtQueue
  with_reducible
    repeat' first
      | assumption | simp -zeta -zetaUnused -zetaHave -proj only [keeps_mk] | apply keeps_core
      | (intro x; refine (have hx : State.Keeps r x := ?_; ?_); unfold x; rotate_left; clear_value x; rotate_left) | (intro x; clear_value x)
      | intro x | split | lift_lets | dsimp only

theorem State.alertRec_keeps {r : State} (s : State) (r1 : Rec) (h : r.Keeps s) :
    r.Keeps (State.alertRec s r1) := by
  unfold State.alertRec
  with_reducible
    repeat' first
      | assumption | apply State.setFlag_keeps | apply State.setFld_keeps | simp -zeta -zetaUnused -zetaHave -proj only [keeps_mk] | apply keeps_core
      | (intro x; refine (have hx : State.Keeps r x := ?_; ?_); unfold x; rotate_left; clear_value x; rotate_left) | (intro x; clear_value x)
      | intro x | split | lift_lets | dsimp only

theorem State.recRings_keeps {r : State} (s : State) (r1 : Rec) (h : r.Keeps s) :
    r.Keeps (State.recRings s r1) := by
  unfold State.recRings
  with_reducible
    repeat' first
      | assumption | apply State.evRing_keeps
      | (intro x; refine (have hx : State.Keeps r x := ?_; ?_); unfold x; rotate_left; clear_value x; rotate_left) | (intro x; clear_value x)
      | intro x | split | lift_lets | dsimp only

theorem State.markFatal_keeps {r : State} (s : State) (r1 : Rec) (h : r.Keeps s) :
    r.Keeps (State.markFatal s r1) := by
  unfold State.markFatal
  with_reducible
    repeat' first
      | assumption | simp -zeta -zetaUnused -zetaHave -proj only [keeps_mk] | apply keeps_core
      | (intro x; refine (have hx : State.Keeps r x := ?_; ?_); unfold x; rotate_left; clear_value x; rotate_left) | (intro x; clear_value x)
      | intro x | split | lift_lets | dsimp only

theorem State.emitStamped_keeps {r : State} (s : State) (r1 : Rec) (h : r.Keeps s) :
    r.Keeps (State.emitStamped s r1) := by
  unfold State.emitStamped
  with_reducible
    repeat' first
      | assumption | apply State.markFatal_keeps | apply State.bbEnter_keeps | apply State.alertRec_keeps | apply State.mgtQueue_keeps
      | apply State.recRings_keeps | dsimp only

theorem State.emit_keeps {r : State} (s : State) (r1 : Rec) (h : r.Keeps s) :
    r.Keeps (State.emit s r1) := by
  unfold State.emit
  with_reducible
    repeat' first
      | assumption | apply State.emitStamped_keeps | dsimp only

theorem State.capture_keeps {r : State} (s : State) (buf : Nat) (item : Option (Nat × Nat × Bool)) (h : r.Keeps s) :
    r.Keeps (State.capture s buf item) := by
  unfold State.capture
  with_reducible
    repeat' first
      | assumption | apply State.nextFree_keeps | refine (State.nextFree_keeps _ ?_).out | simp -zeta -zetaUnused -zetaHave -proj only [keeps_mk]
      | apply keeps_core | (intro x; refine (have hx : State.Keeps r x := ?_; ?_); unfold x; rotate_left; clear_value x; rotate_left)
      | (intro x; refine (have hfn : ∀ y, State.Keeps r y → State.Keeps r (x y) := ?_; ?_); unfold x; rotate_left; clear_value x; rotate_left)
      | (intro x; refine (have hfn : ∀ y z, State.Keeps r y → State.Keeps r (x y z) := ?_; ?_); unfold x; rotate_left; clear_value x; rotate_left)
      | apply hfn | (intro x; clear_value x) | intro x | split | refine keeps_snd (by assumption) ?_ | lift_lets | dsimp only

theorem State.traceItem_keeps {r : State} (s : State) (unit : Nat) (item : Nat) (ends : Bool) (h : r.Keeps s) :
    r.Keeps (State.traceItem s unit item ends) := by
  unfold State.traceItem
  with_reducible
    repeat' first
      | assumption | apply State.capture_keeps
      | (intro x; refine (have hx : State.Keeps r x := ?_; ?_); unfold x; rotate_left; clear_value x; rotate_left) | (intro x; clear_value x)
      | intro x | split | lift_lets | dsimp only

/-! Machine/TmbOps.lean -/

theorem State.setTmb_keeps {r : State} (s : State) (n : Nat) (t : Tmb) (h : r.Keeps s) :
    r.Keeps (State.setTmb s n t) := by
  unfold State.setTmb
  with_reducible
    repeat' first
      | assumption | simp -zeta -zetaUnused -zetaHave -proj only [keeps_mk] | apply keeps_core
      | (intro x; refine (have hx : State.Keeps r x := ?_; ?_); unfold x; rotate_left; clear_value x; rotate_left) | (intro x; clear_value x)
      | intro x | lift_lets | dsimp only

theorem State.putTmb_keeps {r : State} (s : State) (n : Nat) (t : Tmb) (h : r.Keeps s) :
    r.Keeps (State.putTmb s n t) := by
  unfold State.putTmb
  with_reducible
    repeat' first
      | assumption | apply State.setFld_keeps | apply State.setTmb_keeps | dsimp only

theorem State.note_keeps {r : State} (s : State) (src : TmbSrc) (n : Nat) (a : TmbAns) (h : r.Keeps s) :
    r.Keeps (State.note s src n a) := by
  unfold State.note
  with_reducible
    repeat' first
      | assumption | simp -zeta -zetaUnused -zetaHave -proj only [keeps_mk] | apply keeps_core
      | (intro x; refine (have hx : State.Keeps r x := ?_; ?_); unfold x; rotate_left; clear_value x; rotate_left) | (intro x; clear_value x)
      | intro x | lift_lets | dsimp only

theorem State.notes_keeps {r : State} (s : State) (n : Nat) (a : TmbAns) (x3 : List TmbWait) (h : r.Keeps s) :
    r.Keeps (State.notes s n a x3) := by
  induction x3 generalizing s n a with
  | nil =>
    unfold State.notes
    with_reducible
      repeat' first
        | assumption | apply State.note_keeps | dsimp only
  | cons y l ih =>
    unfold State.notes
    with_reducible
      repeat' first
        | assumption | apply ih | apply State.note_keeps | dsimp only

theorem State.offer_keeps {r : State} (s : State) (leaf : Nat) (x2 : Nat) (h : r.Keeps s) :
    r.Keeps (State.offer s leaf x2) := by
  induction x2 generalizing s leaf with
  | zero =>
    unfold State.offer
    with_reducible
      repeat' first
        | assumption | simp -zeta -zetaUnused -zetaHave -proj only [keeps_mk] | apply keeps_core
        | (intro x; refine (have hx : State.Keeps r x := ?_; ?_); unfold x; rotate_left; clear_value x; rotate_left) | (intro x; clear_value x)
        | intro x | split | lift_lets | dsimp only
  | succ k ih =>
    unfold State.offer
    with_reducible
      repeat' first
        | assumption | apply ih | simp -zeta -zetaUnused -zetaHave -proj only [keeps_mk] | apply keeps_core
        | (intro x; refine (have hx : State.Keeps r x := ?_; ?_); unfold x; rotate_left; clear_value x; rotate_left) | (intro x; clear_value x)
        | intro x | split | lift_lets | dsimp only

theorem State.endWaits_keeps {r : State} (s : State) (n : Nat) (h : r.Keeps s) :
    r.Keeps (State.endWaits s n) := by
  unfold State.endWaits
  with_reducible
    repeat' first
      | assumption | apply State.putTmb_keeps | apply State.offer_keeps | apply State.notes_keeps
      | simp -zeta -zetaUnused -zetaHave -proj only [keeps_mk] | apply keeps_core
      | (intro x; refine (have hx : State.Keeps r x := ?_; ?_); unfold x; rotate_left; clear_value x; rotate_left) | (intro x; clear_value x)
      | intro x | split | lift_lets | dsimp only

theorem State.notifyHost_keeps {r : State} (s : State) (n : Nat) (gen : Nat) (h : r.Keeps s) :
    r.Keeps (State.notifyHost s n gen) := by
  unfold State.notifyHost
  with_reducible
    repeat' first
      | assumption | apply State.bump_keeps | apply State.hostWrite_keeps | apply State.raiseVector_keeps | apply State.setFld_keeps
      | (intro x; refine (have hx : State.Keeps r x := ?_; ?_); unfold x; rotate_left; clear_value x; rotate_left) | (intro x; clear_value x)
      | intro x | split | lift_lets | dsimp only

theorem State.pulsePins_keeps {r : State} (s : State) (n : Nat) (h : r.Keeps s) :
    r.Keeps (State.pulsePins s n) := by
  unfold State.pulsePins
  with_reducible
    repeat' first
      | assumption | simp -zeta -zetaUnused -zetaHave -proj only [keeps_mk, keeps_mk_fst] | apply keeps_core | apply keeps_foldl
      | apply keeps_foldl_fst | apply keeps_foldl_snd
      | (intro x; refine (have hx : State.Keeps r x := ?_; ?_); unfold x; rotate_left; clear_value x; rotate_left) | (intro x; clear_value x)
      | intro x | lift_lets | dsimp only

theorem State.fireTmb_keeps {r : State} (s : State) (n : Nat) (h : r.Keeps s) :
    r.Keeps (State.fireTmb s n) := by
  unfold State.fireTmb
  with_reducible
    repeat' first
      | assumption | apply State.bump_keeps | apply State.putTmb_keeps | apply State.notifyHost_keeps | apply State.endWaits_keeps
      | apply State.pulsePins_keeps | simp -zeta -zetaUnused -zetaHave -proj only [keeps_mk] | apply keeps_core
      | (intro x; refine (have hx : State.Keeps r x := ?_; ?_); unfold x; rotate_left; clear_value x; rotate_left) | (intro x; clear_value x)
      | intro x | split | lift_lets | dsimp only

theorem State.relay_keeps {r : State} (s : State) (n : Nat) (w : Nat) (x3 : List Nat) (h : r.Keeps s) :
    r.Keeps (State.relay s n w x3) := by
  induction x3 generalizing s n w with
  | nil =>
    unfold State.relay
    with_reducible
      repeat' first
        | assumption | simp -zeta -zetaUnused -zetaHave -proj only [keeps_mk] | apply keeps_core
        | (intro x; refine (have hx : State.Keeps r x := ?_; ?_); unfold x; rotate_left; clear_value x; rotate_left) | (intro x; clear_value x)
        | intro x | lift_lets | dsimp only
  | cons y l ih =>
    unfold State.relay
    with_reducible
      repeat' first
        | assumption | apply ih | simp -zeta -zetaUnused -zetaHave -proj only [keeps_mk] | apply keeps_core
        | (intro x; refine (have hx : State.Keeps r x := ?_; ?_); unfold x; rotate_left; clear_value x; rotate_left) | (intro x; clear_value x)
        | intro x | lift_lets | dsimp only

theorem State.tmbRefused_keeps {r : State} (s : State) (n : Nat) (h : r.Keeps s) :
    r.Keeps (State.tmbRefused s n) := by
  unfold State.tmbRefused
  with_reducible
    repeat' first
      | assumption | apply State.bump_keeps | dsimp only

theorem State.arriveKind_keeps {r : State} (s : State) (n : Nat) (w : Nat) (h : r.Keeps s) :
    r.Keeps (State.arriveKind s n w) := by
  unfold State.arriveKind
  with_reducible
    repeat' first
      | assumption | apply State.fireTmb_keeps | apply State.putTmb_keeps | apply State.endWaits_keeps | apply State.bumpN_keeps
      | simp -zeta -zetaUnused -zetaHave -proj only [keeps_mk] | apply keeps_core
      | (intro x; refine (have hx : State.Keeps r x := ?_; ?_); unfold x; rotate_left; clear_value x; rotate_left) | (intro x; clear_value x)
      | intro x | split | lift_lets | dsimp only

theorem State.tmbArrive_keeps {r : State} (s : State) (n : Nat) (w : Nat) (h : r.Keeps s) :
    KeepsFst r (State.tmbArrive s n w) := by
  unfold State.tmbArrive
  with_reducible
    repeat' first
      | assumption | apply State.arriveKind_keeps | apply State.bump_keeps | apply State.relay_keeps | apply State.tmbRefused_keeps
      | simp -zeta -zetaUnused -zetaHave -proj only [keeps_mk_fst]
      | (intro x; refine (have hx : State.Keeps r x := ?_; ?_); unfold x; rotate_left; clear_value x; rotate_left) | (intro x; clear_value x)
      | intro x | split | lift_lets | dsimp only

theorem State.tmbPoll_keeps {r : State} (s : State) (n : Nat) (h : r.Keeps s) :
    KeepsFst r (State.tmbPoll s n) := by
  unfold State.tmbPoll
  with_reducible
    repeat' first
      | assumption | apply State.bump_keeps | simp -zeta -zetaUnused -zetaHave -proj only [keeps_mk_fst] | dsimp only

theorem State.tmbTake_keeps {r : State} (s : State) (n : Nat) (h : r.Keeps s) :
    KeepsFst r (State.tmbTake s n) := by
  unfold State.tmbTake
  with_reducible
    repeat' first
      | assumption | apply State.bump_keeps | apply State.putTmb_keeps | apply State.tmbRefused_keeps
      | simp -zeta -zetaUnused -zetaHave -proj only [keeps_mk, keeps_mk_fst] | apply keeps_core
      | (intro x; refine (have hx : State.Keeps r x := ?_; ?_); unfold x; rotate_left; clear_value x; rotate_left) | (intro x; clear_value x)
      | intro x | split | lift_lets | dsimp only

theorem State.tmbPut_keeps {r : State} (s : State) (n : Nat) (x : Nat) (h : r.Keeps s) :
    KeepsFst r (State.tmbPut s n x) := by
  unfold State.tmbPut
  with_reducible
    repeat' first
      | assumption | apply State.bump_keeps | apply State.fireTmb_keeps | apply State.putTmb_keeps | apply State.tmbRefused_keeps
      | simp -zeta -zetaUnused -zetaHave -proj only [keeps_mk, keeps_mk_fst] | apply keeps_core
      | (intro x; refine (have hx : State.Keeps r x := ?_; ?_); unfold x; rotate_left; clear_value x; rotate_left) | (intro x; clear_value x)
      | intro x | split | lift_lets | dsimp only

theorem State.refuse_keeps {r : State} (s : State) (r1 : TmbReq) (kind : Nat) (h : r.Keeps s) :
    r.Keeps (State.refuse s r1 kind) := by
  unfold State.refuse
  with_reducible
    repeat' first
      | assumption | simp -zeta -zetaUnused -zetaHave -proj only [keeps_mk] | apply keeps_core
      | (intro x; refine (have hx : State.Keeps r x := ?_; ?_); unfold x; rotate_left; clear_value x; rotate_left) | (intro x; clear_value x)
      | intro x | split | lift_lets | dsimp only

theorem State.tmbWait_keeps {r : State} (s : State) (r1 : TmbReq) (h : r.Keeps s) :
    r.Keeps (State.tmbWait s r1) := by
  unfold State.tmbWait
  with_reducible
    repeat' first
      | assumption | apply State.bump_keeps | apply State.offer_keeps | apply State.note_keeps | apply State.putTmb_keeps | apply State.refuse_keeps
      | apply State.tmbRefused_keeps | simp -zeta -zetaUnused -zetaHave -proj only [keeps_mk] | apply keeps_core
      | (intro x; refine (have hx : State.Keeps r x := ?_; ?_); unfold x; rotate_left; clear_value x; rotate_left)
      | (intro x; refine (have hfn : ∀ y, State.Keeps r y → State.Keeps r (x y) := ?_; ?_); unfold x; rotate_left; clear_value x; rotate_left)
      | (intro x; refine (have hfn : ∀ y z, State.Keeps r y → State.Keeps r (x y z) := ?_; ?_); unfold x; rotate_left; clear_value x; rotate_left)
      | apply hfn | (intro x; clear_value x) | intro x | split | lift_lets | dsimp only

theorem State.withdrawWaits_keeps {r : State} (s : State) (src : TmbSrc) (h : r.Keeps s) :
    r.Keeps (State.withdrawWaits s src) := by
  unfold State.withdrawWaits
  with_reducible
    repeat' first
      | assumption | apply State.offer_keeps | simp -zeta -zetaUnused -zetaHave -proj only [keeps_mk, keeps_mk_fst] | apply keeps_core
      | apply keeps_foldl | apply keeps_foldl_fst | apply keeps_foldl_snd
      | (intro x; refine (have hx : State.Keeps r x := ?_; ?_); unfold x; rotate_left; clear_value x; rotate_left) | (intro x; clear_value x)
      | intro x | split | lift_lets | dsimp only

theorem State.tmbReset_keeps {r : State} (s : State) (n : Nat) (h : r.Keeps s) :
    r.Keeps (State.tmbReset s n) := by
  unfold State.tmbReset
  with_reducible
    repeat' first
      | assumption | apply State.endWaits_keeps | apply State.putTmb_keeps | apply State.bump_keeps
      | simp -zeta -zetaUnused -zetaHave -proj only [keeps_mk] | apply keeps_core
      | (intro x; refine (have hx : State.Keeps r x := ?_; ?_); unfold x; rotate_left; clear_value x; rotate_left) | (intro x; clear_value x)
      | intro x | split | lift_lets | dsimp only

theorem State.dropWaits_keeps {r : State} (s : State) (n : Nat) (h : r.Keeps s) :
    r.Keeps (State.dropWaits s n) := by
  unfold State.dropWaits
  with_reducible
    repeat' first
      | assumption | apply State.setTmb_keeps | apply State.offer_keeps | apply State.notes_keeps
      | simp -zeta -zetaUnused -zetaHave -proj only [keeps_mk] | apply keeps_core
      | (intro x; refine (have hx : State.Keeps r x := ?_; ?_); unfold x; rotate_left; clear_value x; rotate_left) | (intro x; clear_value x)
      | intro x | lift_lets | dsimp only

theorem State.clearRelays_keeps {r : State} (s : State) (x1 : List Nat) (h : r.Keeps s) :
    r.Keeps (State.clearRelays s x1) := by
  induction x1 generalizing s with
  | nil =>
    unfold State.clearRelays
    with_reducible
      repeat' first
        | assumption | apply State.setReg_keeps | dsimp only
  | cons y l ih =>
    unfold State.clearRelays
    with_reducible
      repeat' first
        | assumption | apply ih | apply State.setReg_keeps | dsimp only

theorem State.tmbIdle_keeps {r : State} (s : State) (n : Nat) (h : r.Keeps s) :
    r.Keeps (State.tmbIdle s n) := by
  unfold State.tmbIdle
  with_reducible
    repeat' first
      | assumption | apply State.clearRelays_keeps | apply State.dropWaits_keeps | apply State.setReg_keeps | apply State.putTmb_keeps
      | (intro x; refine (have hx : State.Keeps r x := ?_; ?_); unfold x; rotate_left; clear_value x; rotate_left) | (intro x; clear_value x)
      | intro x | lift_lets | dsimp only

theorem State.tmbIdleAll_keeps {r : State} (s : State) (x1 : List Nat) (h : r.Keeps s) :
    r.Keeps (State.tmbIdleAll s x1) := by
  induction x1 generalizing s with
  | nil =>
    unfold State.tmbIdleAll
    with_reducible
      repeat' first
        | assumption | apply State.tmbIdle_keeps | dsimp only
  | cons y l ih =>
    unfold State.tmbIdleAll
    with_reducible
      repeat' first
        | assumption | apply ih | apply State.tmbIdle_keeps | dsimp only

theorem State.sendTmb_keeps {r : State} (s : State) (r1 : TmbReq) (h : r.Keeps s) :
    r.Keeps (State.sendTmb s r1) := by
  unfold State.sendTmb
  with_reducible
    repeat' first
      | assumption | simp -zeta -zetaUnused -zetaHave -proj only [keeps_mk] | apply keeps_core
      | (intro x; refine (have hx : State.Keeps r x := ?_; ?_); unfold x; rotate_left; clear_value x; rotate_left) | (intro x; clear_value x)
      | intro x | lift_lets | dsimp only

theorem State.devArrive_keeps {r : State} (s : State) (kind : Nat) (id : Nat) (n : Nat) (h : r.Keeps s) :
    r.Keeps (State.devArrive s kind id n) := by
  unfold State.devArrive
  with_reducible
    repeat' first
      | assumption | apply State.sendTmb_keeps | dsimp only

/-! Machine/MemOps.lean -/

theorem State.setGran_keeps {r : State} (s : State) (k : Nat) (g : Option Granule) (h : r.Keeps s) :
    r.Keeps (State.setGran s k g) := by
  unfold State.setGran
  with_reducible
    repeat' first
      | assumption | simp -zeta -zetaUnused -zetaHave -proj only [keeps_mk] | apply keeps_core
      | (intro x; refine (have hx : State.Keeps r x := ?_; ?_); unfold x; rotate_left; clear_value x; rotate_left)
      | (intro x; have hm : MemSt.hbm x = MemSt.hbm x := rfl; clear hm) | (intro x; clear_value x) | intro x | lift_lets | dsimp only

theorem State.setMeta_keeps {r : State} (s : State) (k : Nat) (m : LineMeta) (h : r.Keeps s) :
    r.Keeps (State.setMeta s k m) := by
  unfold State.setMeta
  with_reducible
    repeat' first
      | assumption | simp -zeta -zetaUnused -zetaHave -proj only [keeps_mk] | apply keeps_core
      | (intro x; refine (have hx : State.Keeps r x := ?_; ?_); unfold x; rotate_left; clear_value x; rotate_left)
      | (intro x; have hm : MemSt.hbm x = MemSt.hbm x := rfl; clear hm) | (intro x; clear_value x) | intro x | lift_lets | dsimp only

theorem State.markBad_keeps {r : State} (s : State) (k : Nat) (h : r.Keeps s) :
    r.Keeps (State.markBad s k) := by
  unfold State.markBad
  with_reducible
    repeat' first
      | assumption | apply State.setMeta_keeps | simp -zeta -zetaUnused -zetaHave -proj only [keeps_mk] | apply keeps_core
      | (intro x; refine (have hx : State.Keeps r x := ?_; ?_); unfold x; rotate_left; clear_value x; rotate_left) | (intro x; clear_value x)
      | intro x | split | lift_lets | dsimp only

theorem State.bufferLine_keeps {r : State} (s : State) (k : Nat) (h : r.Keeps s) :
    r.Keeps (State.bufferLine s k) := by
  unfold State.bufferLine
  with_reducible
    repeat' first
      | assumption | simp -zeta -zetaUnused -zetaHave -proj only [keeps_mk] | apply keeps_core
      | (intro x; refine (have hx : State.Keeps r x := ?_; ?_); unfold x; rotate_left; clear_value x; rotate_left)
      | (intro x; have hm : MemSt.hbm x = MemSt.hbm x := rfl; clear hm) | (intro x; clear_value x) | intro x | lift_lets | dsimp only

theorem State.countLine_keeps {r : State} (s : State) (k : Nat) (h : r.Keeps s) :
    r.Keeps (State.countLine s k) := by
  unfold State.countLine
  with_reducible
    repeat' first
      | assumption | apply State.setGran_keeps | simp -zeta -zetaUnused -zetaHave -proj only [keeps_mk] | apply keeps_core
      | (intro x; refine (have hx : State.Keeps r x := ?_; ?_); unfold x; rotate_left; clear_value x; rotate_left) | (intro x; clear_value x)
      | intro x | split | lift_lets | dsimp only

theorem State.stackTraffic_keeps {r : State} (s : State) (line : Nat) (part : Nat) (h : r.Keeps s) :
    r.Keeps (State.stackTraffic s line part) := by
  unfold State.stackTraffic
  with_reducible
    repeat' first
      | assumption | apply State.bump64_keeps | apply State.countLine_keeps | simp -zeta -zetaUnused -zetaHave -proj only [keeps_mk]
      | apply keeps_core | (intro x; refine (have hx : State.Keeps r x := ?_; ?_); unfold x; rotate_left; clear_value x; rotate_left)
      | (intro x; have hm : MemSt.hbm x = MemSt.hbm x := rfl; clear hm) | (intro x; clear_value x) | intro x | lift_lets | dsimp only

theorem State.baseRead_keeps {r : State} (s : State) (k : Nat) (addr : Nat) (h : r.Keeps s) :
    KeepsFst r (State.baseRead s k addr) := by
  unfold State.baseRead
  with_reducible
    repeat' first
      | assumption | apply State.bufferLine_keeps | apply State.bump_keeps | apply State.markBad_keeps | apply State.emit_keeps
      | simp -zeta -zetaUnused -zetaHave -proj only [keeps_mk_fst]
      | (intro x; refine (have hx : State.Keeps r x := ?_; ?_); unfold x; rotate_left; clear_value x; rotate_left) | (intro x; clear_value x)
      | intro x | split | lift_lets | dsimp only

theorem State.stackRead_keeps {r : State} (s : State) (k : Nat) (addr : Nat) (h : r.Keeps s) :
    KeepsFst r (State.stackRead s k addr) := by
  unfold State.stackRead
  with_reducible
    repeat' first
      | assumption | apply State.baseRead_keeps | apply State.stackTraffic_keeps | refine (State.baseRead_keeps _ _ _ ?_).out
      | simp -zeta -zetaUnused -zetaHave -proj only [keeps_mk_fst] | refine keeps_fst (by assumption) ?_ | dsimp only

theorem State.stackWrite_keeps {r : State} (s : State) (k : Nat) (addr : Nat) (part : Nat) (mask : Nat) (data : List Byte) (whole : Bool) (poison : Bool) (h : r.Keeps s) :
    r.Keeps (State.stackWrite s k addr part mask data whole poison) := by
  unfold State.stackWrite
  have hp : KeepsFst r (if mask = 15 then (s, data, (s.lineMeta k).poison) else s.baseRead k addr) := by
    split
    · exact ⟨h⟩
    · exact State.baseRead_keeps s k addr h
  generalize (if mask = 15 then (s, data, (s.lineMeta k).poison) else s.baseRead k addr) = p at hp
  obtain ⟨t, old, bad⟩ := p
  apply State.stackTraffic_keeps
  apply State.setMeta_keeps
  rw [keeps_mk]
  refine ⟨fun w => ?_, hp.out.pending, hp.out.now, hp.out.freeCtr, hp.out.fusedSvn, hp.out.repair⟩
  have w := (keeps_core hp.out).memWf w
  exact ⟨w.1, hostWriteBytes_wf _ _ _ w.2.1, w.2.2.1, w.2.2.2⟩

theorem State.setVline_keeps {r : State} (s : State) (k : Nat) (v : VLine) (h : r.Keeps s) :
    r.Keeps (State.setVline s k v) := by
  unfold State.setVline
  with_reducible
    repeat' first
      | assumption | simp -zeta -zetaUnused -zetaHave -proj only [keeps_mk] | apply keeps_core
      | (intro x; refine (have hx : State.Keeps r x := ?_; ?_); unfold x; rotate_left; clear_value x; rotate_left)
      | (intro x; have hm : MemSt.hbm x = MemSt.hbm x := rfl; clear hm) | (intro x; clear_value x) | intro x | lift_lets | dsimp only

theorem State.nextVuse_keeps {r : State} (s : State) (h : r.Keeps s) :
    KeepsSnd r (State.nextVuse s) := by
  unfold State.nextVuse
  with_reducible
    repeat' first
      | assumption | simp -zeta -zetaUnused -zetaHave -proj only [keeps_mk, keeps_mk_snd] | apply keeps_core
      | (intro x; refine (have hx : State.Keeps r x := ?_; ?_); unfold x; rotate_left; clear_value x; rotate_left)
      | (intro x; have hm : MemSt.hbm x = MemSt.hbm x := rfl; clear hm) | (intro x; clear_value x) | intro x | lift_lets | dsimp only

theorem State.useLine_keeps {r : State} (s : State) (k : Nat) (h : r.Keeps s) :
    r.Keeps (State.useLine s k) := by
  unfold State.useLine
  with_reducible
    repeat' first
      | assumption | apply State.nextVuse_keeps | apply State.setVline_keeps | refine (State.nextVuse_keeps _ ?_).out
      | simp -zeta -zetaUnused -zetaHave -proj only [keeps_mk] | apply keeps_core
      | (intro x; refine (have hx : State.Keeps r x := ?_; ?_); unfold x; rotate_left; clear_value x; rotate_left) | (intro x; clear_value x)
      | intro x | split | refine keeps_snd (by assumption) ?_ | lift_lets | dsimp only

theorem State.deadDrop_keeps {r : State} (s : State) (k : Nat) (h : r.Keeps s) :
    r.Keeps (State.deadDrop s k) := by
  unfold State.deadDrop
  with_reducible
    repeat' first
      | assumption | apply State.bump_keeps | apply State.setVline_keeps | dsimp only

theorem State.evict_keeps {r : State} (s : State) (k : Nat) (h : r.Keeps s) :
    r.Keeps (State.evict s k) := by
  unfold State.evict
  with_reducible
    repeat' first
      | assumption | apply State.deadDrop_keeps | apply State.setVline_keeps | apply State.stackWrite_keeps
      | (intro x; refine (have hx : State.Keeps r x := ?_; ?_); unfold x; rotate_left; clear_value x; rotate_left) | (intro x; clear_value x)
      | intro x | split | lift_lets | dsimp only

theorem State.fillSectors_keeps {r : State} (s : State) (k : Nat) (addr : Nat) (mask : Nat) (h : r.Keeps s) :
    r.Keeps (State.fillSectors s k addr mask) := by
  unfold State.fillSectors
  with_reducible
    repeat' first
      | assumption | apply State.stackRead_keeps | apply State.setVline_keeps | refine (State.stackRead_keeps _ _ _ ?_).out
      | simp -zeta -zetaUnused -zetaHave -proj only [keeps_mk] | apply keeps_core
      | (intro x; refine (have hx : State.Keeps r x := ?_; ?_); unfold x; rotate_left; clear_value x; rotate_left) | (intro x; clear_value x)
      | intro x | split | refine keeps_fst (by assumption) ?_ | lift_lets | dsimp only

theorem State.setAbuf_keeps {r : State} (s : State) (k : Nat) (v : VLine) (h : r.Keeps s) :
    r.Keeps (State.setAbuf s k v) := by
  unfold State.setAbuf
  with_reducible
    repeat' first
      | assumption | simp -zeta -zetaUnused -zetaHave -proj only [keeps_mk] | apply keeps_core
      | (intro x; refine (have hx : State.Keeps r x := ?_; ?_); unfold x; rotate_left; clear_value x; rotate_left)
      | (intro x; have hm : MemSt.hbm x = MemSt.hbm x := rfl; clear hm) | (intro x; clear_value x) | intro x | lift_lets | dsimp only

theorem State.abufFlush_keeps {r : State} (s : State) (k : Nat) (h : r.Keeps s) :
    r.Keeps (State.abufFlush s k) := by
  unfold State.abufFlush
  with_reducible
    repeat' first
      | assumption | apply State.setAbuf_keeps | apply State.stackWrite_keeps
      | (intro x; refine (have hx : State.Keeps r x := ?_; ?_); unfold x; rotate_left; clear_value x; rotate_left) | (intro x; clear_value x)
      | intro x | split | lift_lets | dsimp only

theorem State.retireAll_keeps {r : State} (s : State) (loc : Loc) (line : Nat) (count : Bool) (run : State → Reduction → State) (h : r.Keeps s) (hrun : ∀ y0 y1, r.Keeps y0 → r.Keeps (run y0 y1)) :
    r.Keeps (State.retireAll s loc line count run) := by
  unfold State.retireAll
  with_reducible
    repeat' first
      | assumption | apply hrun | apply State.bump_keeps | simp -zeta -zetaUnused -zetaHave -proj only [keeps_mk, keeps_mk_fst] | apply keeps_core
      | apply keeps_foldl | apply keeps_foldl_fst | apply keeps_foldl_snd
      | (intro x; refine (have hx : State.Keeps r x := ?_; ?_); unfold x; rotate_left; clear_value x; rotate_left)
      | (intro x; have hm : MemSt.hbm x = MemSt.hbm x := rfl; clear hm) | (intro x; clear_value x) | intro x | split | lift_lets | dsimp only

theorem State.retireOne_keeps {r : State} (s : State) (k : Nat) (r2 : Reduction) (h : r.Keeps s) :
    r.Keeps (State.retireOne s k r2) := by
  unfold State.retireOne
  with_reducible
    repeat' first
      | assumption | apply State.fillSectors_keeps | apply State.setVline_keeps | apply State.setAbuf_keeps | apply State.stackRead_keeps
      | apply State.stackWrite_keeps | refine (State.stackRead_keeps _ _ _ ?_).out | simp -zeta -zetaUnused -zetaHave -proj only [keeps_mk]
      | apply keeps_core | (intro x; refine (have hx : State.Keeps r x := ?_; ?_); unfold x; rotate_left; clear_value x; rotate_left)
      | (intro x; clear_value x) | intro x | split | refine keeps_fst (by assumption) ?_ | lift_lets | dsimp only

theorem State.retireLine_keeps {r : State} (s : State) (k : Nat) (count : Bool) (h : r.Keeps s) :
    r.Keeps (State.retireLine s k count) := by
  unfold State.retireLine
  with_reducible
    repeat' first
      | assumption | apply State.retireAll_keeps | apply State.retireOne_keeps | intro x | dsimp only

theorem State.dropDead_keeps {r : State} (s : State) (k : Nat) (h : r.Keeps s) :
    r.Keeps (State.dropDead s k) := by
  unfold State.dropDead
  with_reducible
    repeat' first
      | assumption | apply State.retireLine_keeps | apply State.deadDrop_keeps
      | (intro x; refine (have hx : State.Keeps r x := ?_; ?_); unfold x; rotate_left; clear_value x; rotate_left) | (intro x; clear_value x)
      | intro x | split | lift_lets | dsimp only

theorem State.vaultLru_keeps {r : State} (s : State) (ls : List Nat) (h : r.Keeps s) :
    KeepsSnd r (State.vaultLru s ls) := by
  unfold State.vaultLru
  with_reducible
    repeat' first
      | assumption | apply State.nextFree_keeps | refine (State.nextFree_keeps _ ?_).out
      | simp -zeta -zetaUnused -zetaHave -proj only [keeps_mk_snd, keeps_mk_fst] | apply keeps_foldl | apply keeps_foldl_fst | apply keeps_foldl_snd
      | (intro x; refine (have hx : State.Keeps r x := ?_; ?_); unfold x; rotate_left; clear_value x; rotate_left) | (intro x; clear_value x)
      | intro x | split | refine keeps_snd (by assumption) ?_ | lift_lets | dsimp only

theorem State.vaultRoom_keeps {r : State} (s : State) (k : Nat) (h : r.Keeps s) :
    KeepsOpt r (State.vaultRoom s k) := by
  unfold State.vaultRoom
  with_reducible
    repeat' first
      | assumption | apply keeps_some | exact keeps_none | apply State.evict_keeps | apply State.retireLine_keeps | apply State.vaultLru_keeps
      | refine (State.vaultLru_keeps _ _ ?_).out
      | (intro x; refine (have hx : State.Keeps r x := ?_; ?_); unfold x; rotate_left; clear_value x; rotate_left) | (intro x; clear_value x)
      | intro x | split | refine keeps_snd (by assumption) ?_ | lift_lets | dsimp only

theorem State.lookups_keeps {r : State} (s : State) (d : Nat) (cls : Nat) (look : Nat) (hit : Nat) (part : Nat) (h : r.Keeps s) :
    r.Keeps (State.lookups s d cls look hit part) := by
  unfold State.lookups
  with_reducible
    repeat' first
      | assumption | apply State.bump64_keeps
      | (intro x; refine (have hx : State.Keeps r x := ?_; ?_); unfold x; rotate_left; clear_value x; rotate_left) | (intro x; clear_value x)
      | intro x | lift_lets | dsimp only

theorem State.vaultCycle_keeps {r : State} (s : State) (d : Nat) (h : r.Keeps s) :
    r.Keeps (State.vaultCycle s d) := by
  unfold State.vaultCycle
  with_reducible
    repeat' first
      | assumption | simp -zeta -zetaUnused -zetaHave -proj only [keeps_mk] | apply keeps_core
      | (intro x; refine (have hx : State.Keeps r x := ?_; ?_); unfold x; rotate_left; clear_value x; rotate_left)
      | (intro x; have hm : MemSt.hbm x = MemSt.hbm x := rfl; clear hm) | (intro x; clear_value x) | intro x | lift_lets | dsimp only

theorem State.markDemoted_keeps {r : State} (s : State) (k : Nat) (h : r.Keeps s) :
    r.Keeps (State.markDemoted s k) := by
  unfold State.markDemoted
  with_reducible
    repeat' first
      | assumption | apply State.setGran_keeps | simp -zeta -zetaUnused -zetaHave -proj only [keeps_mk] | apply keeps_core
      | (intro x; refine (have hx : State.Keeps r x := ?_; ?_); unfold x; rotate_left; clear_value x; rotate_left) | (intro x; clear_value x)
      | intro x | split | lift_lets | dsimp only

theorem State.allocLine_keeps {r : State} (s : State) (k : Nat) (part : Nat) (c : HomeCtl) (h : r.Keeps s) :
    KeepsOpt r (State.allocLine s k part c) := by
  unfold State.allocLine
  with_reducible
    repeat' first
      | assumption | apply keeps_some | exact keeps_none | apply State.vaultRoom_keeps | apply State.markDemoted_keeps | apply State.bump_keeps
      | apply State.setVline_keeps | apply State.useLine_keeps
      | (intro x; refine (have hx : State.Keeps r x := ?_; ?_); unfold x; rotate_left; clear_value x; rotate_left) | (intro x; clear_value x)
      | intro x | split | refine keeps_of_some (by assumption) ?_ | lift_lets | dsimp only

theorem State.abufLoad_keeps {r : State} (s : State) (k : Nat) (part : Nat) (addr : Nat) (h : r.Keeps s) :
    r.Keeps (State.abufLoad s k part addr) := by
  unfold State.abufLoad
  with_reducible
    repeat' first
      | assumption | apply State.nextFree_keeps | apply State.abufFlush_keeps | apply State.retireLine_keeps | apply State.stackRead_keeps
      | apply State.setAbuf_keeps | refine (State.nextFree_keeps _ ?_).out | refine (State.stackRead_keeps _ _ _ ?_).out
      | (intro x; refine (have hx : State.Keeps r x := ?_; ?_); unfold x; rotate_left; clear_value x; rotate_left) | (intro x; clear_value x)
      | intro x | split | refine keeps_fst (by assumption) ?_ | refine keeps_snd (by assumption) ?_ | lift_lets | dsimp only

theorem State.bareRead_keeps {r : State} (s : State) (k : Nat) (part : Nat) (c : HomeCtl) (h : r.Keeps s) :
    KeepsFst r (State.bareRead s k part c) := by
  unfold State.bareRead
  with_reducible
    repeat' first
      | assumption | apply State.abufLoad_keeps | apply State.stackRead_keeps | apply State.abufFlush_keeps
      | refine (State.stackRead_keeps _ _ _ ?_).out | simp -zeta -zetaUnused -zetaHave -proj only [keeps_mk_fst]
      | (intro x; refine (have hx : State.Keeps r x := ?_; ?_); unfold x; rotate_left; clear_value x; rotate_left) | (intro x; clear_value x)
      | intro x | split | refine keeps_fst (by assumption) ?_ | lift_lets | dsimp only

theorem State.slcRead_keeps {r : State} (s : State) (k : Nat) (part : Nat) (mask : Nat) (c : HomeCtl) (h : r.Keeps s) :
    KeepsFst r (State.slcRead s k part mask c) := by
  have read : ∀ t : State, r.Keeps t → KeepsFst r (
      (if (t.vline k).dead && Nat.land (t.vline k).valid (Nat.lor (t.vline k).seen mask) == (t.vline k).valid then
        (t.setVline k { t.vline k with seen := Nat.lor (t.vline k).seen mask }).dropDead k
      else t.setVline k { t.vline k with seen := Nat.lor (t.vline k).seen mask }), (t.vline k).data, (t.vline k).poison) := by
    intro t ht
    refine keeps_mk_fst.mpr ?_
    split
    · exact State.dropDead_keeps _ _ (State.setVline_keeps _ _ _ ht)
    · exact State.setVline_keeps _ _ _ ht
  unfold State.slcRead
  dsimp only
  split
  · exact State.bareRead_keeps _ _ _ _ h
  · have hv := State.vaultCycle_keeps s (lineStack k / 4) h
    generalize s.vaultCycle (lineStack k / 4) = t at hv ⊢
    split
    · exact read _ (State.useLine_keeps _ _ (State.fillSectors_keeps _ _ _ _ (State.lookups_keeps _ _ _ _ _ _ hv)))
    · split
      · split
        · next he => exact read _ (State.fillSectors_keeps _ _ _ _ (State.lookups_keeps _ _ _ _ _ _ (keeps_of_some he (State.allocLine_keeps _ _ _ _ hv))))
        · exact State.stackRead_keeps _ _ _ hv
      · exact State.stackRead_keeps _ _ _ hv

theorem State.directWrite_keeps {r : State} (s : State) (k : Nat) (part : Nat) (off : Nat) (bs : List Byte) (addr : Nat) (h : r.Keeps s) :
    r.Keeps (State.directWrite s k part off bs addr) := by
  unfold State.directWrite
  with_reducible
    repeat' first
      | assumption | apply State.stackRead_keeps | apply State.stackWrite_keeps | refine (State.stackRead_keeps _ _ _ ?_).out
      | (intro x; refine (have hx : State.Keeps r x := ?_; ?_); unfold x; rotate_left; clear_value x; rotate_left) | (intro x; clear_value x)
      | intro x | split | refine keeps_fst (by assumption) ?_ | lift_lets | dsimp only

theorem State.bareWrite_keeps {r : State} (s : State) (k : Nat) (part : Nat) (off : Nat) (bs : List Byte) (c : HomeCtl) (h : r.Keeps s) :
    r.Keeps (State.bareWrite s k part off bs c) := by
  unfold State.bareWrite
  with_reducible
    repeat' first
      | assumption | apply State.abufLoad_keeps | apply State.setAbuf_keeps | apply State.directWrite_keeps | apply State.abufFlush_keeps
      | simp -zeta -zetaUnused -zetaHave -proj only [keeps_mk] | apply keeps_core
      | (intro x; refine (have hx : State.Keeps r x := ?_; ?_); unfold x; rotate_left; clear_value x; rotate_left) | (intro x; clear_value x)
      | intro x | split | lift_lets | dsimp only

theorem State.putBytes_keeps {r : State} (s : State) (k : Nat) (off : Nat) (bs : List Byte) (addr : Nat) (h : r.Keeps s) :
    r.Keeps (State.putBytes s k off bs addr) := by
  unfold State.putBytes
  with_reducible
    repeat' first
      | assumption | apply State.fillSectors_keeps | apply State.setVline_keeps | simp -zeta -zetaUnused -zetaHave -proj only [keeps_mk]
      | apply keeps_core | (intro x; refine (have hx : State.Keeps r x := ?_; ?_); unfold x; rotate_left; clear_value x; rotate_left)
      | (intro x; clear_value x) | intro x | split | lift_lets | dsimp only

theorem State.slcWrite_keeps {r : State} (s : State) (k : Nat) (part : Nat) (off : Nat) (bs : List Byte) (c : HomeCtl) (h : r.Keeps s) :
    r.Keeps (State.slcWrite s k part off bs c) := by
  unfold State.slcWrite
  with_reducible
    repeat' first
      | assumption | apply State.bareWrite_keeps | apply State.vaultCycle_keeps | apply State.useLine_keeps | apply State.putBytes_keeps
      | apply State.lookups_keeps | apply State.allocLine_keeps | apply State.directWrite_keeps
      | (intro x; refine (have hx : State.Keeps r x := ?_; ?_); unfold x; rotate_left; clear_value x; rotate_left) | (intro x; clear_value x)
      | intro x | split | refine keeps_of_some (by assumption) ?_ | lift_lets | dsimp only

theorem State.scrWrite_keeps {r : State} (s : State) (k off : Nat) (bs : List Byte) (h : r.Keeps s) : r.Keeps (s.scrWrite k off bs) := by
  unfold State.scrWrite
  rw [keeps_mk]
  refine ⟨fun w => ?_, h.pending, h.now, h.freeCtr, h.fusedSvn, h.repair⟩
  have w := (keeps_core h).memWf w
  exact ⟨w.1, w.2.1, hostWriteBytes_wf _ _ _ w.2.2.1, w.2.2.2⟩

theorem State.countGran_keeps {r : State} (s : State) (gk : Nat) (g : Granule) (l : Loc) (h : r.Keeps s) :
    r.Keeps (State.countGran s gk g l) := by
  unfold State.countGran
  with_reducible
    repeat' first
      | assumption | apply State.setGran_keeps | simp -zeta -zetaUnused -zetaHave -proj only [keeps_mk] | apply keeps_core
      | (intro x; refine (have hx : State.Keeps r x := ?_; ?_); unfold x; rotate_left; clear_value x; rotate_left) | (intro x; clear_value x)
      | intro x | split | lift_lets | dsimp only

theorem State.homeRead_keeps {r : State} (s : State) (gk : Nat) (g : Granule) (line : Nat) (mask : Nat) (c : HomeCtl) (h : r.Keeps s) :
    KeepsFst r (State.homeRead s gk g line mask c) := by
  unfold State.homeRead
  with_reducible
    repeat' first
      | assumption | apply State.countGran_keeps | apply State.slcRead_keeps | apply State.vaultCycle_keeps
      | refine (State.slcRead_keeps _ _ _ _ _ ?_).out | simp -zeta -zetaUnused -zetaHave -proj only [keeps_mk_fst]
      | (intro x; refine (have hx : State.Keeps r x := ?_; ?_); unfold x; rotate_left; clear_value x; rotate_left) | (intro x; clear_value x)
      | intro x | split | refine keeps_fst (by assumption) ?_ | lift_lets | dsimp only

theorem State.homeWrite_keeps {r : State} (s : State) (gk : Nat) (g : Granule) (line : Nat) (off : Nat) (bs : List Byte) (c : HomeCtl) (h : r.Keeps s) :
    r.Keeps (State.homeWrite s gk g line off bs c) := by
  unfold State.homeWrite
  with_reducible
    repeat' first
      | assumption | apply State.countGran_keeps | apply State.slcWrite_keeps | apply State.scrWrite_keeps | apply State.vaultCycle_keeps
      | (intro x; refine (have hx : State.Keeps r x := ?_; ?_); unfold x; rotate_left; clear_value x; rotate_left) | (intro x; clear_value x)
      | intro x | split | lift_lets | dsimp only

theorem State.poisonLine_keeps {r : State} (s : State) (g : Granule) (line : Nat) (h : r.Keeps s) :
    r.Keeps (State.poisonLine s g line) := by
  unfold State.poisonLine
  with_reducible
    repeat' first
      | assumption | apply State.setVline_keeps | apply State.setAbuf_keeps | apply State.setMeta_keeps
      | simp -zeta -zetaUnused -zetaHave -proj only [keeps_mk] | apply keeps_core
      | (intro x; refine (have hx : State.Keeps r x := ?_; ?_); unfold x; rotate_left; clear_value x; rotate_left)
      | (intro x; have hm : MemSt.hbm x = MemSt.hbm x := rfl; clear hm) | (intro x; clear_value x) | intro x | split | lift_lets | dsimp only

theorem State.vaultErr_keeps {r : State} (s : State) (g : Granule) (line : Nat) (off : Nat) (addr : Nat) (err : Nat) (h : r.Keeps s) :
    r.Keeps (State.vaultErr s g line off addr err) := by
  unfold State.vaultErr
  with_reducible
    repeat' first
      | assumption | apply State.emit_keeps | apply State.bump_keeps | apply State.poisonLine_keeps | apply State.setVline_keeps
      | simp -zeta -zetaUnused -zetaHave -proj only [keeps_mk] | apply keeps_core
      | (intro x; refine (have hx : State.Keeps r x := ?_; ?_); unfold x; rotate_left; clear_value x; rotate_left)
      | (intro x; refine (have hfn : ∀ y, State.Keeps r y → State.Keeps r (x y) := ?_; ?_); unfold x; rotate_left; clear_value x; rotate_left)
      | (intro x; refine (have hfn : ∀ y z, State.Keeps r y → State.Keeps r (x y z) := ?_; ?_); unfold x; rotate_left; clear_value x; rotate_left)
      | apply hfn | (intro x; clear_value x) | intro x | split | lift_lets | dsimp only

theorem State.reduceAt_keeps {r : State} (s : State) (gk : Nat) (g : Granule) (line : Nat) (r4 : Reduction) (h : r.Keeps s) :
    r.Keeps (State.reduceAt s gk g line r4) := by
  unfold State.reduceAt
  with_reducible
    repeat' first
      | assumption | apply State.homeRead_keeps | apply State.homeWrite_keeps | refine (State.homeRead_keeps _ _ _ _ _ _ ?_).out
      | (intro x; refine (have hx : State.Keeps r x := ?_; ?_); unfold x; rotate_left; clear_value x; rotate_left) | (intro x; clear_value x)
      | intro x | split | refine keeps_fst (by assumption) ?_ | lift_lets | dsimp only

theorem State.retireGran_keeps {r : State} (s : State) (gk : Nat) (g : Granule) (line : Nat) (h : r.Keeps s) :
    r.Keeps (State.retireGran s gk g line) := by
  unfold State.retireGran
  with_reducible
    repeat' first
      | assumption | apply State.retireAll_keeps | apply State.reduceAt_keeps | intro x | dsimp only

theorem State.cohRead_keeps {r : State} (s : State) (gk : Nat) (line : Nat) (mask : Nat) (c : HomeCtl) (h : r.Keeps s) :
    KeepsFst r (State.cohRead s gk line mask c) := by
  unfold State.cohRead
  with_reducible
    repeat' first
      | assumption | apply State.retireGran_keeps | apply State.homeRead_keeps | refine (State.homeRead_keeps _ _ _ _ _ _ ?_).out
      | simp -zeta -zetaUnused -zetaHave -proj only [keeps_mk_fst]
      | (intro x; refine (have hx : State.Keeps r x := ?_; ?_); unfold x; rotate_left; clear_value x; rotate_left) | (intro x; clear_value x)
      | intro x | split | refine keeps_fst (by assumption) ?_ | lift_lets | dsimp only

theorem State.cohWrite_keeps {r : State} (s : State) (gk : Nat) (line : Nat) (off : Nat) (bs : List Byte) (c : HomeCtl) (h : r.Keeps s) :
    r.Keeps (State.cohWrite s gk line off bs c) := by
  unfold State.cohWrite
  with_reducible
    repeat' first
      | assumption | apply State.retireGran_keeps | apply State.homeWrite_keeps
      | (intro x; refine (have hx : State.Keeps r x := ?_; ?_); unfold x; rotate_left; clear_value x; rotate_left) | (intro x; clear_value x)
      | intro x | split | lift_lets | dsimp only

theorem State.setL2_keeps {r : State} (s : State) (core : Nat) (id : Nat) (x : Option L2Line) (h : r.Keeps s) :
    r.Keeps (State.setL2 s core id x) := by
  unfold State.setL2
  with_reducible
    repeat' first
      | assumption | simp -zeta -zetaUnused -zetaHave -proj only [keeps_mk] | apply keeps_core
      | (intro x; refine (have hx : State.Keeps r x := ?_; ?_); unfold x; rotate_left; clear_value x; rotate_left) | (intro x; clear_value x)
      | intro x | lift_lets | dsimp only

theorem State.setL1d_keeps {r : State} (s : State) (core : Nat) (id : Nat) (x : Option L1Line) (h : r.Keeps s) :
    r.Keeps (State.setL1d s core id x) := by
  unfold State.setL1d
  with_reducible
    repeat' first
      | assumption | simp -zeta -zetaUnused -zetaHave -proj only [keeps_mk] | apply keeps_core
      | (intro x; refine (have hx : State.Keeps r x := ?_; ?_); unfold x; rotate_left; clear_value x; rotate_left) | (intro x; clear_value x)
      | intro x | lift_lets | dsimp only

theorem State.setL1i_keeps {r : State} (s : State) (core : Nat) (id : Nat) (x : Option Nat) (h : r.Keeps s) :
    r.Keeps (State.setL1i s core id x) := by
  unfold State.setL1i
  with_reducible
    repeat' first
      | assumption | simp -zeta -zetaUnused -zetaHave -proj only [keeps_mk] | apply keeps_core
      | (intro x; refine (have hx : State.Keeps r x := ?_; ?_); unfold x; rotate_left; clear_value x; rotate_left) | (intro x; clear_value x)
      | intro x | lift_lets | dsimp only

theorem State.setDir_keeps {r : State} (s : State) (id : Nat) (e : DirEnt) (h : r.Keeps s) :
    r.Keeps (State.setDir s id e) := by
  unfold State.setDir
  with_reducible
    repeat' first
      | assumption | apply State.setFld_keeps | simp -zeta -zetaUnused -zetaHave -proj only [keeps_mk] | apply keeps_core
      | (intro x; refine (have hx : State.Keeps r x := ?_; ?_); unfold x; rotate_left; clear_value x; rotate_left) | (intro x; clear_value x)
      | intro x | split | lift_lets | dsimp only

theorem State.syncL1_keeps {r : State} (s : State) (core : Nat) (id : Nat) (h : r.Keeps s) :
    r.Keeps (State.syncL1 s core id) := by
  unfold State.syncL1
  with_reducible
    repeat' first
      | assumption | apply State.setL1d_keeps | apply State.setL2_keeps | simp -zeta -zetaUnused -zetaHave -proj only [keeps_mk] | apply keeps_core
      | (intro x; refine (have hx : State.Keeps r x := ?_; ?_); unfold x; rotate_left; clear_value x; rotate_left) | (intro x; clear_value x)
      | intro x | split | lift_lets | dsimp only

theorem State.dropL1_keeps {r : State} (s : State) (core : Nat) (id : Nat) (h : r.Keeps s) :
    r.Keeps (State.dropL1 s core id) := by
  unfold State.dropL1
  with_reducible
    repeat' first
      | assumption | apply State.setL1i_keeps | apply State.setL1d_keeps | dsimp only

theorem State.dropL2_keeps {r : State} (s : State) (core : Nat) (id : Nat) (h : r.Keeps s) :
    r.Keeps (State.dropL2 s core id) := by
  unfold State.dropL2
  with_reducible
    repeat' first
      | assumption | apply State.dropL1_keeps | apply State.setL2_keeps | simp -zeta -zetaUnused -zetaHave -proj only [keeps_mk] | apply keeps_core
      | (intro x; refine (have hx : State.Keeps r x := ?_; ?_); unfold x; rotate_left; clear_value x; rotate_left) | (intro x; clear_value x)
      | intro x | split | lift_lets | dsimp only

theorem State.lineHome_keeps {r : State} (s : State) (id : Nat) (data : List Byte) (poison : Bool) (h : r.Keeps s) :
    r.Keeps (State.lineHome s id data poison) := by
  unfold State.lineHome
  with_reducible
    repeat' first
      | assumption | apply State.bump_keeps | apply State.cohWrite_keeps | apply State.poisonLine_keeps
      | (intro x; refine (have hx : State.Keeps r x := ?_; ?_); unfold x; rotate_left; clear_value x; rotate_left) | (intro x; clear_value x)
      | intro x | split | lift_lets | dsimp only

theorem State.settleLine_keeps {r : State} (s : State) (id : Nat) (h : r.Keeps s) :
    r.Keeps (State.settleLine s id) := by
  unfold State.settleLine
  with_reducible
    repeat' first
      | assumption | apply State.lineHome_keeps | simp -zeta -zetaUnused -zetaHave -proj only [keeps_mk, keeps_mk_fst] | apply keeps_core
      | apply keeps_foldl | apply keeps_foldl_fst | apply keeps_foldl_snd
      | (intro x; refine (have hx : State.Keeps r x := ?_; ?_); unfold x; rotate_left; clear_value x; rotate_left)
      | (intro x; refine (have hfn : ∀ y, State.Keeps r y → State.Keeps r (x y) := ?_; ?_); unfold x; rotate_left; clear_value x; rotate_left)
      | (intro x; refine (have hfn : ∀ y z, State.Keeps r y → State.Keeps r (x y z) := ?_; ?_); unfold x; rotate_left; clear_value x; rotate_left)
      | apply hfn | (intro x; clear_value x) | intro x | split | lift_lets | dsimp only

theorem State.recallRead_keeps {r : State} (s : State) (id : Nat) (h : r.Keeps s) :
    r.Keeps (State.recallRead s id) := by
  unfold State.recallRead
  with_reducible
    repeat' first
      | assumption | apply State.settleLine_keeps | apply State.syncL1_keeps | apply State.bump_keeps | apply State.lineHome_keeps
      | apply State.setDir_keeps | apply State.dropL2_keeps | apply State.setL2_keeps | simp -zeta -zetaUnused -zetaHave -proj only [keeps_mk]
      | apply keeps_core | (intro x; refine (have hx : State.Keeps r x := ?_; ?_); unfold x; rotate_left; clear_value x; rotate_left)
      | (intro x; clear_value x) | intro x | split | lift_lets | dsimp only

theorem State.recallWrite_keeps {r : State} (s : State) (id : Nat) (h : r.Keeps s) :
    r.Keeps (State.recallWrite s id) := by
  unfold State.recallWrite
  with_reducible
    repeat' first
      | assumption | apply State.settleLine_keeps | apply State.bumpN_keeps | apply State.bump_keeps | apply State.syncL1_keeps
      | apply State.dropL2_keeps | apply State.lineHome_keeps | apply State.setDir_keeps
      | simp -zeta -zetaUnused -zetaHave -proj only [keeps_mk, keeps_mk_fst] | apply keeps_core | apply keeps_foldl | apply keeps_foldl_fst
      | apply keeps_foldl_snd | (intro x; refine (have hx : State.Keeps r x := ?_; ?_); unfold x; rotate_left; clear_value x; rotate_left)
      | (intro x; clear_value x) | intro x | split | lift_lets | dsimp only

theorem State.noteHold_keeps {r : State} (s : State) (id : Nat) (core : Nat) (h : r.Keeps s) :
    r.Keeps (State.noteHold s id core) := by
  unfold State.noteHold
  with_reducible
    repeat' first
      | assumption | apply State.bump_keeps | apply State.setL2_keeps | simp -zeta -zetaUnused -zetaHave -proj only [keeps_mk] | apply keeps_core
      | (intro x; refine (have hx : State.Keeps r x := ?_; ?_); unfold x; rotate_left; clear_value x; rotate_left) | (intro x; clear_value x)
      | intro x | split | lift_lets | dsimp only

theorem State.noteWaits_keeps {r : State} (s : State) (unit : Nat) (ctx : Nat) (write : Bool) (ps : List (Nat × Nat × Nat × Nat)) (h : r.Keeps s) :
    r.Keeps (State.noteWaits s unit ctx write ps) := by
  unfold State.noteWaits
  with_reducible
    repeat' first
      | assumption | apply State.noteHold_keeps | simp -zeta -zetaUnused -zetaHave -proj only [keeps_mk_fst] | apply keeps_foldl
      | apply keeps_foldl_fst | apply keeps_foldl_snd
      | (intro x; refine (have hx : State.Keeps r x := ?_; ?_); unfold x; rotate_left; clear_value x; rotate_left) | (intro x; clear_value x)
      | intro x | lift_lets | dsimp only

theorem State.lineRead_keeps {r : State} (s : State) (gk : Nat) (line : Nat) (mask : Nat) (c : HomeCtl) (h : r.Keeps s) :
    KeepsFst r (State.lineRead s gk line mask c) := by
  unfold State.lineRead
  with_reducible
    repeat' first
      | assumption | apply State.bump_keeps | apply State.cohRead_keeps | apply State.recallRead_keeps | refine (State.cohRead_keeps _ _ _ _ _ ?_).out
      | simp -zeta -zetaUnused -zetaHave -proj only [keeps_mk_fst]
      | (intro x; refine (have hx : State.Keeps r x := ?_; ?_); unfold x; rotate_left; clear_value x; rotate_left) | (intro x; clear_value x)
      | intro x | split | refine keeps_fst (by assumption) ?_ | lift_lets | dsimp only

theorem State.lineWrite_keeps {r : State} (s : State) (gk : Nat) (line : Nat) (off : Nat) (bs : List Byte) (c : HomeCtl) (h : r.Keeps s) :
    r.Keeps (State.lineWrite s gk line off bs c) := by
  unfold State.lineWrite
  with_reducible
    repeat' first
      | assumption | apply State.bump_keeps | apply State.cohWrite_keeps | apply State.recallWrite_keeps
      | (intro x; refine (have hx : State.Keeps r x := ?_; ?_); unfold x; rotate_left; clear_value x; rotate_left) | (intro x; clear_value x)
      | intro x | split | lift_lets | dsimp only

theorem State.lineAtomic_keeps {r : State} (s : State) (gk : Nat) (line : Nat) (off : Nat) (w : Nat) (f : Nat → Nat) (c : HomeCtl) (h : r.Keeps s) :
    KeepsFst r (State.lineAtomic s gk line off w f c) := by
  unfold State.lineAtomic
  with_reducible
    repeat' first
      | assumption | apply State.bump_keeps | apply State.cohRead_keeps | apply State.recallWrite_keeps | apply State.cohWrite_keeps
      | refine (State.cohRead_keeps _ _ _ _ _ ?_).out | simp -zeta -zetaUnused -zetaHave -proj only [keeps_mk_fst]
      | (intro x; refine (have hx : State.Keeps r x := ?_; ?_); unfold x; rotate_left; clear_value x; rotate_left) | (intro x; clear_value x)
      | intro x | split | refine keeps_fst (by assumption) ?_ | lift_lets | dsimp only

theorem State.runRead_keeps {r : State} (s : State) (unit : Nat) (ctx : Nat) (c : HomeCtl) (x4 : List (Nat × Nat × Nat × Nat)) (h : r.Keeps s) :
    KeepsFst r (State.runRead s unit ctx c x4) := by
  induction x4 generalizing s unit ctx c with
  | nil =>
    unfold State.runRead
    with_reducible
      repeat' first
        | assumption | apply State.lineRead_keeps | refine (State.lineRead_keeps _ _ _ _ _ ?_).out
        | simp -zeta -zetaUnused -zetaHave -proj only [keeps_mk_fst]
        | (intro x; refine (have hx : State.Keeps r x := ?_; ?_); unfold x; rotate_left; clear_value x; rotate_left) | (intro x; clear_value x)
        | intro x | split | refine keeps_fst (by assumption) ?_ | lift_lets | dsimp only
  | cons y l ih =>
    unfold State.runRead
    with_reducible
      repeat' first
        | assumption | apply ih | refine (ih _ _ _ _ ?_).out | apply State.lineRead_keeps | refine (State.lineRead_keeps _ _ _ _ _ ?_).out
        | simp -zeta -zetaUnused -zetaHave -proj only [keeps_mk_fst]
        | (intro x; refine (have hx : State.Keeps r x := ?_; ?_); unfold x; rotate_left; clear_value x; rotate_left) | (intro x; clear_value x)
        | intro x | split | refine keeps_fst (by assumption) ?_ | lift_lets | dsimp only

theorem State.runWrite_keeps {r : State} (s : State) (unit : Nat) (ctx : Nat) (c : HomeCtl) (x4 : List (Nat × Nat × Nat × Nat)) (x5 : List Byte) (h : r.Keeps s) :
    r.Keeps (State.runWrite s unit ctx c x4 x5) := by
  induction x4 generalizing s unit ctx c x5 with
  | nil =>
    unfold State.runWrite
    with_reducible
      repeat' first
        | assumption | apply State.lineWrite_keeps | dsimp only
  | cons y l ih =>
    unfold State.runWrite
    with_reducible
      repeat' first
        | assumption | apply ih | apply State.lineWrite_keeps | dsimp only

/-! Machine/DevOps.lean -/

theorem State.devRead_keeps {r : State} (s : State) (unit : Nat) (ctx : Nat) (access : Nat) (va : Nat) (len : Nat) (cls : Nat) (h : r.Keeps s) :
    KeepsFst r (State.devRead s unit ctx access va len cls) := by
  unfold State.devRead
  with_reducible
    repeat' first
      | assumption | apply State.noteWaits_keeps | apply State.runRead_keeps | refine (State.runRead_keeps _ _ _ _ _ ?_).out
      | simp -zeta -zetaUnused -zetaHave -proj only [keeps_mk_fst]
      | (intro x; refine (have hx : State.Keeps r x := ?_; ?_); unfold x; rotate_left; clear_value x; rotate_left) | (intro x; clear_value x)
      | intro x | split | refine keeps_fst (by assumption) ?_ | lift_lets | dsimp only

theorem State.devWrite_keeps {r : State} (s : State) (unit : Nat) (ctx : Nat) (va : Nat) (cls : Nat) (bs : List Byte) (h : r.Keeps s) :
    KeepsFst r (State.devWrite s unit ctx va cls bs) := by
  unfold State.devWrite
  with_reducible
    repeat' first
      | assumption | apply State.noteWaits_keeps | apply State.runWrite_keeps | apply State.hostWrite_keeps
      | simp -zeta -zetaUnused -zetaHave -proj only [keeps_mk_fst]
      | (intro x; refine (have hx : State.Keeps r x := ?_; ?_); unfold x; rotate_left; clear_value x; rotate_left) | (intro x; clear_value x)
      | intro x | split | lift_lets | dsimp only

theorem State.setCmd_keeps {r : State} (s : State) (id : Nat) (c : Option HostCmd) (h : r.Keeps s) :
    r.Keeps (State.setCmd s id c) := by
  unfold State.setCmd
  with_reducible
    repeat' first
      | assumption | simp -zeta -zetaUnused -zetaHave -proj only [keeps_mk] | apply keeps_core
      | (intro x; refine (have hx : State.Keeps r x := ?_; ?_); unfold x; rotate_left; clear_value x; rotate_left)
      | (intro x; have hm : HostSt.mem x = HostSt.mem x := rfl; clear hm) | (intro x; clear_value x) | intro x | lift_lets | dsimp only

theorem State.setQueue_keeps {r : State} (s : State) (q : Nat) (x : QueueSt) (h : r.Keeps s) :
    r.Keeps (State.setQueue s q x) := by
  unfold State.setQueue
  with_reducible
    repeat' first
      | assumption | simp -zeta -zetaUnused -zetaHave -proj only [keeps_mk] | apply keeps_core
      | (intro x; refine (have hx : State.Keeps r x := ?_; ?_); unfold x; rotate_left; clear_value x; rotate_left)
      | (intro x; have hm : HostSt.mem x = HostSt.mem x := rfl; clear hm) | (intro x; clear_value x) | intro x | lift_lets | dsimp only

theorem State.syncQuiesced_keeps {r : State} (s : State) (h : r.Keeps s) :
    r.Keeps (State.syncQuiesced s) := by
  unfold State.syncQuiesced
  with_reducible
    repeat' first
      | assumption | apply State.setFlag_keeps | dsimp only

theorem State.postCpl_keeps {r : State} (s : State) (q : Nat) (c : Cpl) (h : r.Keeps s) :
    r.Keeps (State.postCpl s q c) := by
  unfold State.postCpl
  with_reducible
    repeat' first
      | assumption | apply State.hostWrite_keeps | apply State.setQueue_keeps | apply State.setFld_keeps | apply State.raiseVector_keeps
      | simp -zeta -zetaUnused -zetaHave -proj only [keeps_mk] | apply keeps_core
      | (intro x; refine (have hx : State.Keeps r x := ?_; ?_); unfold x; rotate_left; clear_value x; rotate_left) | (intro x; clear_value x)
      | intro x | split | lift_lets | dsimp only

theorem State.drainCpls_keeps {r : State} (s : State) (q : Nat) (x2 : Nat) (h : r.Keeps s) :
    r.Keeps (State.drainCpls s q x2) := by
  induction x2 generalizing s q with
  | zero =>
    unfold State.drainCpls
    with_reducible
      repeat' first
        | assumption | apply State.setQueue_keeps | apply State.postCpl_keeps | simp -zeta -zetaUnused -zetaHave -proj only [keeps_mk]
        | apply keeps_core | (intro x; refine (have hx : State.Keeps r x := ?_; ?_); unfold x; rotate_left; clear_value x; rotate_left)
        | (intro x; clear_value x) | intro x | split | lift_lets | dsimp only
  | succ k ih =>
    unfold State.drainCpls
    with_reducible
      repeat' first
        | assumption | apply ih | apply State.setQueue_keeps | apply State.postCpl_keeps | simp -zeta -zetaUnused -zetaHave -proj only [keeps_mk]
        | apply keeps_core | (intro x; refine (have hx : State.Keeps r x := ?_; ?_); unfold x; rotate_left; clear_value x; rotate_left)
        | (intro x; clear_value x) | intro x | split | lift_lets | dsimp only

theorem State.dueCpl_keeps {r : State} (s : State) (q : Nat) (c : Cpl) (h : r.Keeps s) :
    r.Keeps (State.dueCpl s q c) := by
  unfold State.dueCpl
  with_reducible
    repeat' first
      | assumption | apply State.setQueue_keeps | apply State.drainCpls_keeps | simp -zeta -zetaUnused -zetaHave -proj only [keeps_mk]
      | apply keeps_core | (intro x; refine (have hx : State.Keeps r x := ?_; ?_); unfold x; rotate_left; clear_value x; rotate_left)
      | (intro x; clear_value x) | intro x | split | lift_lets | dsimp only

theorem State.syncActive_keeps {r : State} (s : State) (q : Nat) (h : r.Keeps s) :
    r.Keeps (State.syncActive s q) := by
  unfold State.syncActive
  with_reducible
    repeat' first
      | assumption | apply State.setFlag_keeps
      | (intro x; refine (have hx : State.Keeps r x := ?_; ?_); unfold x; rotate_left; clear_value x; rotate_left) | (intro x; clear_value x)
      | intro x | split | lift_lets | dsimp only

theorem State.complete_keeps {r : State} (s : State) (id : Nat) (status : Nat) (result : Nat) (h : r.Keeps s) :
    r.Keeps (State.complete s id status result) := by
  unfold State.complete
  with_reducible
    repeat' first
      | assumption | apply State.setCmd_keeps | apply State.setQueue_keeps | apply State.dueCpl_keeps | apply State.syncQuiesced_keeps
      | apply State.syncActive_keeps | simp -zeta -zetaUnused -zetaHave -proj only [keeps_mk, keeps_mk_fst] | apply keeps_core | apply keeps_foldl
      | apply keeps_foldl_fst | apply keeps_foldl_snd
      | (intro x; refine (have hx : State.Keeps r x := ?_; ?_); unfold x; rotate_left; clear_value x; rotate_left) | (intro x; clear_value x)
      | intro x | split | lift_lets | dsimp only

theorem State.failCmd_keeps {r : State} (s : State) (id : Nat) (code : Nat) (result : Nat) (d : List Byte) (h : r.Keeps s) :
    r.Keeps (State.failCmd s id code result d) := by
  unfold State.failCmd
  with_reducible
    repeat' first
      | assumption | apply State.complete_keeps | apply State.emit_keeps
      | (intro x; refine (have hx : State.Keeps r x := ?_; ?_); unfold x; rotate_left; clear_value x; rotate_left) | (intro x; clear_value x)
      | intro x | split | lift_lets | dsimp only

theorem State.setUnit_keeps {r : State} (s : State) (u : Nat) (x : UnitRun) (h : r.Keeps s) :
    r.Keeps (State.setUnit s u x) := by
  unfold State.setUnit
  with_reducible
    repeat' first
      | assumption | simp -zeta -zetaUnused -zetaHave -proj only [keeps_mk] | apply keeps_core
      | (intro x; refine (have hx : State.Keeps r x := ?_; ?_); unfold x; rotate_left; clear_value x; rotate_left) | (intro x; clear_value x)
      | intro x | lift_lets | dsimp only

theorem State.setProg_keeps {r : State} (s : State) (u : Nat) (p : FrameProg) (h : r.Keeps s) :
    r.Keeps (State.setProg s u p) := by
  unfold State.setProg
  with_reducible
    repeat' first
      | assumption | apply State.setUnit_keeps | simp -zeta -zetaUnused -zetaHave -proj only [keeps_mk] | apply keeps_core
      | (intro x; refine (have hx : State.Keeps r x := ?_; ?_); unfold x; rotate_left; clear_value x; rotate_left) | (intro x; clear_value x)
      | intro x | lift_lets | dsimp only

theorem State.syncUnit_keeps {r : State} (s : State) (u : Nat) (h : r.Keeps s) :
    r.Keeps (State.syncUnit s u) := by
  unfold State.syncUnit
  with_reducible
    repeat' first
      | assumption | apply State.setFlag_keeps | apply State.setFld_keeps
      | (intro x; refine (have hx : State.Keeps r x := ?_; ?_); unfold x; rotate_left; clear_value x; rotate_left) | (intro x; clear_value x)
      | intro x | split | lift_lets | dsimp only

theorem State.setTblock_keeps {r : State} (s : State) (core : Nat) (blk : Nat) (b : Option TBlock) (h : r.Keeps s) :
    r.Keeps (State.setTblock s core blk b) := by
  unfold State.setTblock
  with_reducible
    repeat' first
      | assumption | simp -zeta -zetaUnused -zetaHave -proj only [keeps_mk] | apply keeps_core
      | (intro x; refine (have hx : State.Keeps r x := ?_; ?_); unfold x; rotate_left; clear_value x; rotate_left) | (intro x; clear_value x)
      | intro x | lift_lets | dsimp only

theorem State.setTgroup_keeps {r : State} (s : State) (core : Nat) (slot : Nat) (g : Option TGroup) (h : r.Keeps s) :
    r.Keeps (State.setTgroup s core slot g) := by
  unfold State.setTgroup
  with_reducible
    repeat' first
      | assumption | simp -zeta -zetaUnused -zetaHave -proj only [keeps_mk] | apply keeps_core
      | (intro x; refine (have hx : State.Keeps r x := ?_; ?_); unfold x; rotate_left; clear_value x; rotate_left) | (intro x; clear_value x)
      | intro x | lift_lets | dsimp only

theorem State.setEngine_keeps {r : State} (s : State) (core : Nat) (eng : Nat) (e : Engine) (h : r.Keeps s) :
    r.Keeps (State.setEngine s core eng e) := by
  unfold State.setEngine
  with_reducible
    repeat' first
      | assumption | simp -zeta -zetaUnused -zetaHave -proj only [keeps_mk] | apply keeps_core
      | (intro x; refine (have hx : State.Keeps r x := ?_; ?_); unfold x; rotate_left; clear_value x; rotate_left) | (intro x; clear_value x)
      | intro x | lift_lets | dsimp only

theorem State.syncTcore_keeps {r : State} (s : State) (core : Nat) (h : r.Keeps s) :
    r.Keeps (State.syncTcore s core) := by
  unfold State.syncTcore
  with_reducible
    repeat' first
      | assumption | apply State.setFld_keeps | apply State.setFlag_keeps | simp -zeta -zetaUnused -zetaHave -proj only [keeps_mk_fst]
      | apply keeps_foldl | apply keeps_foldl_fst | apply keeps_foldl_snd
      | (intro x; refine (have hx : State.Keeps r x := ?_; ?_); unfold x; rotate_left; clear_value x; rotate_left) | (intro x; clear_value x)
      | intro x | lift_lets | dsimp only

theorem State.freeBlock_keeps {r : State} (s : State) (core : Nat) (blk : Nat) (h : r.Keeps s) :
    r.Keeps (State.freeBlock s core blk) := by
  unfold State.freeBlock
  with_reducible
    repeat' first
      | assumption | apply State.setTgroup_keeps | apply State.setReg_keeps | apply State.setEngine_keeps | apply State.syncTcore_keeps
      | apply State.setTblock_keeps | simp -zeta -zetaUnused -zetaHave -proj only [keeps_mk_fst] | apply keeps_foldl | apply keeps_foldl_fst
      | apply keeps_foldl_snd | (intro x; refine (have hx : State.Keeps r x := ?_; ?_); unfold x; rotate_left; clear_value x; rotate_left)
      | (intro x; clear_value x) | intro x | split | lift_lets | dsimp only

theorem State.abandonRows_keeps {r : State} (s : State) (core : Nat) (eng : Nat) (h : r.Keeps s) :
    r.Keeps (State.abandonRows s core eng) := by
  unfold State.abandonRows
  with_reducible
    repeat' first
      | assumption | apply State.nextFree_keeps | apply State.bumpN_keeps | refine (State.nextFree_keeps _ ?_).out
      | simp -zeta -zetaUnused -zetaHave -proj only [keeps_mk_fst, keeps_mk_snd] | apply keeps_foldl | apply keeps_foldl_fst | apply keeps_foldl_snd
      | (intro x; refine (have hx : State.Keeps r x := ?_; ?_); unfold x; rotate_left; clear_value x; rotate_left) | (intro x; clear_value x)
      | intro x | split | refine keeps_snd (by assumption) ?_ | lift_lets | dsimp only

theorem State.killOnTcore_keeps {r : State} (s : State) (unit : Nat) (prio : Nat) (core : Nat) (h : r.Keeps s) :
    r.Keeps (State.killOnTcore s unit prio core) := by
  unfold State.killOnTcore
  with_reducible
    repeat' first
      | assumption | apply State.freeBlock_keeps | apply State.withdrawWaits_keeps | apply State.abandonRows_keeps | apply State.setFld_keeps
      | apply State.setFlag_keeps | simp -zeta -zetaUnused -zetaHave -proj only [keeps_mk, keeps_mk_fst] | apply keeps_core | apply keeps_foldl
      | apply keeps_foldl_fst | apply keeps_foldl_snd
      | (intro x; refine (have hx : State.Keeps r x := ?_; ?_); unfold x; rotate_left; clear_value x; rotate_left) | (intro x; clear_value x)
      | intro x | split | lift_lets | dsimp only

theorem State.endLaunch_keeps {r : State} (s : State) (p : FrameProg) (status : Nat) (h : r.Keeps s) :
    r.Keeps (State.endLaunch s p status) := by
  unfold State.endLaunch
  with_reducible
    repeat' first
      | assumption | apply State.complete_keeps
      | (intro x; refine (have hx : State.Keeps r x := ?_; ?_); unfold x; rotate_left; clear_value x; rotate_left) | (intro x; clear_value x)
      | intro x | lift_lets | dsimp only

theorem State.setVcore_keeps {r : State} (s : State) (c : Nat) (v : VCore) (h : r.Keeps s) :
    r.Keeps (State.setVcore s c v) := by
  unfold State.setVcore
  with_reducible
    repeat' first
      | assumption | simp -zeta -zetaUnused -zetaHave -proj only [keeps_mk] | apply keeps_core
      | (intro x; refine (have hx : State.Keeps r x := ?_; ?_); unfold x; rotate_left; clear_value x; rotate_left) | (intro x; clear_value x)
      | intro x | lift_lets | dsimp only

theorem State.killOnVcore_keeps {r : State} (s : State) (unit : Nat) (prio : Nat) (core : Nat) (h : r.Keeps s) :
    r.Keeps (State.killOnVcore s unit prio core) := by
  unfold State.killOnVcore
  with_reducible
    repeat' first
      | assumption | apply State.setFlag_keeps | apply State.setVcore_keeps | apply State.withdrawWaits_keeps | apply State.setFld_keeps
      | simp -zeta -zetaUnused -zetaHave -proj only [keeps_mk] | apply keeps_core
      | (intro x; refine (have hx : State.Keeps r x := ?_; ?_); unfold x; rotate_left; clear_value x; rotate_left) | (intro x; clear_value x)
      | intro x | split | lift_lets | dsimp only

theorem State.killUnit_keeps {r : State} (s : State) (unit : Nat) (h : r.Keeps s) :
    r.Keeps (State.killUnit s unit) := by
  unfold State.killUnit
  with_reducible
    repeat' first
      | assumption | apply State.killOnTcore_keeps | apply State.killOnVcore_keeps | simp -zeta -zetaUnused -zetaHave -proj only [keeps_mk_fst]
      | apply keeps_foldl | apply keeps_foldl_fst | apply keeps_foldl_snd
      | (intro x; refine (have hx : State.Keeps r x := ?_; ?_); unfold x; rotate_left; clear_value x; rotate_left) | (intro x; clear_value x)
      | intro x | split | lift_lets | dsimp only

theorem State.syncClock_keeps {r : State} (s : State) (unit : Nat) (h : r.Keeps s) :
    r.Keeps (State.syncClock s unit) := by
  unfold State.syncClock
  with_reducible
    repeat' first
      | assumption | apply State.setProg_keeps | simp -zeta -zetaUnused -zetaHave -proj only [keeps_mk] | apply keeps_core
      | (intro x; refine (have hx : State.Keeps r x := ?_; ?_); unfold x; rotate_left; clear_value x; rotate_left) | (intro x; clear_value x)
      | intro x | split | lift_lets | dsimp only

theorem State.startRestore_keeps {r : State} (s : State) (unit : Nat) (c : Nat) (h : r.Keeps s) :
    r.Keeps (State.startRestore s unit c) := by
  unfold State.startRestore
  with_reducible
    repeat' first
      | assumption | apply State.setFlag_keeps | apply State.syncClock_keeps | simp -zeta -zetaUnused -zetaHave -proj only [keeps_mk]
      | apply keeps_core | (intro x; refine (have hx : State.Keeps r x := ?_; ?_); unfold x; rotate_left; clear_value x; rotate_left)
      | (intro x; clear_value x) | intro x | split | lift_lets | dsimp only

theorem State.pumpRestores_keeps {r : State} (s : State) (cores : List Nat) (h : r.Keeps s) :
    r.Keeps (State.pumpRestores s cores) := by
  unfold State.pumpRestores
  with_reducible
    repeat' first
      | assumption | apply State.startRestore_keeps | simp -zeta -zetaUnused -zetaHave -proj only [keeps_mk_fst] | apply keeps_foldl
      | apply keeps_foldl_fst | apply keeps_foldl_snd | intro x | dsimp only

theorem State.endProgram_keeps {r : State} (s : State) (unit : Nat) (code : Nat) (h : r.Keeps s) :
    r.Keeps (State.endProgram s unit code) := by
  unfold State.endProgram
  with_reducible
    repeat' first
      | assumption | apply State.killUnit_keeps | apply State.withdrawWaits_keeps | apply State.setUnit_keeps | apply State.pumpRestores_keeps
      | apply State.syncQuiesced_keeps | apply State.syncUnit_keeps | apply State.endLaunch_keeps | apply State.setFlag_keeps
      | simp -zeta -zetaUnused -zetaHave -proj only [keeps_mk] | apply keeps_core
      | (intro x; refine (have hx : State.Keeps r x := ?_; ?_); unfold x; rotate_left; clear_value x; rotate_left) | (intro x; clear_value x)
      | intro x | split | lift_lets | dsimp only

theorem State.terminate_keeps {r : State} (s : State) (unit : Nat) (r2 : Rec) (h : r.Keeps s) :
    r.Keeps (State.terminate s unit r2) := by
  unfold State.terminate
  with_reducible
    repeat' first
      | assumption | apply State.endProgram_keeps | apply State.emit_keeps | simp -zeta -zetaUnused -zetaHave -proj only [keeps_mk] | apply keeps_core
      | (intro x; refine (have hx : State.Keeps r x := ?_; ?_); unfold x; rotate_left; clear_value x; rotate_left) | (intro x; clear_value x)
      | intro x | split | lift_lets | dsimp only

theorem State.raiseT_keeps {r : State} (s : State) (core : Nat) (slot : Nat) (unit : Nat) (r4 : Rec) (xlt : Option (Nat × Nat)) (h : r.Keeps s) :
    r.Keeps (State.raiseT s core slot unit r4 xlt) := by
  unfold State.raiseT
  with_reducible
    repeat' first
      | assumption | apply State.setFlag_keeps | apply State.bump_keeps | simp -zeta -zetaUnused -zetaHave -proj only [keeps_mk] | apply keeps_core
      | (intro x; refine (have hx : State.Keeps r x := ?_; ?_); unfold x; rotate_left; clear_value x; rotate_left) | (intro x; clear_value x)
      | intro x | split | lift_lets | dsimp only

theorem State.tfault_keeps {r : State} (s : State) (core : Nat) (slot : Nat) (r3 : Rec) (h : r.Keeps s) :
    r.Keeps (State.tfault s core slot r3) := by
  unfold State.tfault
  with_reducible
    repeat' first
      | assumption | apply State.raiseT_keeps | simp -zeta -zetaUnused -zetaHave -proj only [keeps_mk] | apply keeps_core
      | (intro x; refine (have hx : State.Keeps r x := ?_; ?_); unfold x; rotate_left; clear_value x; rotate_left) | (intro x; clear_value x)
      | intro x | split | lift_lets | dsimp only

theorem State.vfault_keeps {r : State} (s : State) (core : Nat) (r2 : Rec) (h : r.Keeps s) :
    r.Keeps (State.vfault s core r2) := by
  unfold State.vfault
  with_reducible
    repeat' first
      | assumption | apply State.setFlag_keeps | apply State.bump_keeps | apply State.terminate_keeps
      | simp -zeta -zetaUnused -zetaHave -proj only [keeps_mk] | apply keeps_core
      | (intro x; refine (have hx : State.Keeps r x := ?_; ?_); unfold x; rotate_left; clear_value x; rotate_left) | (intro x; clear_value x)
      | intro x | split | lift_lets | dsimp only

theorem State.askPreempt_keeps {r : State} (s : State) (unit : Nat) (cores : List Nat) (h : r.Keeps s) :
    r.Keeps (State.askPreempt s unit cores) := by
  unfold State.askPreempt
  with_reducible
    repeat' first
      | assumption | simp -zeta -zetaUnused -zetaHave -proj only [keeps_mk] | apply keeps_core
      | (intro x; refine (have hx : State.Keeps r x := ?_; ?_); unfold x; rotate_left; clear_value x; rotate_left) | (intro x; clear_value x)
      | intro x | lift_lets | dsimp only

/-! Machine/Place.lean -/

theorem State.syncFree_keeps {r : State} (s : State) (h : r.Keeps s) :
    r.Keeps (State.syncFree s) := by
  unfold State.syncFree
  with_reducible
    repeat' first
      | assumption | apply State.setFld_keeps | simp -zeta -zetaUnused -zetaHave -proj only [keeps_mk_fst] | apply keeps_foldl | apply keeps_foldl_fst
      | apply keeps_foldl_snd | (intro x; refine (have hx : State.Keeps r x := ?_; ?_); unfold x; rotate_left; clear_value x; rotate_left)
      | (intro x; clear_value x) | intro x | lift_lets | dsimp only

theorem State.initGran_keeps {r : State} (s : State) (l : Loc) (h : r.Keeps s) : r.Keeps (s.initGran l) := by
  unfold State.initGran
  cases l with
  | hbm a b => exact keeps_mk.mpr (keeps_core h)
  | scr a b =>
    refine keeps_mk.mpr ⟨fun w => ?_, h.pending, h.now, h.freeCtr, h.fusedSvn, h.repair⟩
    have w := (keeps_core h).memWf w
    exact ⟨w.1, w.2.1, kvFilter_wf _ _ _ w.2.2.1, w.2.2.2⟩

theorem State.backGranules_keeps {r : State} (s : State) (unit : Nat) (ctx : Nat) (part : Nat) (hbm : Bool) (pinned : Bool) (x6 : Nat) (x7 : List Nat) (h : r.Keeps s) :
    r.Keeps (State.backGranules s unit ctx part hbm pinned x6 x7) := by
  induction x7 generalizing s unit ctx part hbm pinned x6 with
  | nil =>
    unfold State.backGranules
    with_reducible
      repeat' first
        | assumption | apply State.initGran_keeps | apply State.setGran_keeps | simp -zeta -zetaUnused -zetaHave -proj only [keeps_mk]
        | apply keeps_core | (intro x; refine (have hx : State.Keeps r x := ?_; ?_); unfold x; rotate_left; clear_value x; rotate_left)
        | (intro x; have hm : MemSt.hbm x = MemSt.hbm x := rfl; clear hm) | (intro x; clear_value x) | intro x | lift_lets | dsimp only
  | cons y l ih =>
    unfold State.backGranules
    with_reducible
      repeat' first
        | assumption | apply ih | apply State.initGran_keeps | apply State.setGran_keeps | simp -zeta -zetaUnused -zetaHave -proj only [keeps_mk]
        | apply keeps_core | (intro x; refine (have hx : State.Keeps r x := ?_; ?_); unfold x; rotate_left; clear_value x; rotate_left)
        | (intro x; have hm : MemSt.hbm x = MemSt.hbm x := rfl; clear hm) | (intro x; clear_value x) | intro x | lift_lets | dsimp only

theorem State.freeGran_keeps {r : State} (s : State) (k : Nat) (h : r.Keeps s) :
    r.Keeps (State.freeGran s k) := by
  unfold State.freeGran
  with_reducible
    repeat' first
      | assumption | apply State.initGran_keeps | apply State.setGran_keeps
      | (intro x; refine (have hx : State.Keeps r x := ?_; ?_); unfold x; rotate_left; clear_value x; rotate_left) | (intro x; clear_value x)
      | intro x | split | lift_lets | dsimp only

theorem State.freeRange_keeps {r : State} (s : State) (r1 : RangeEnt) (h : r.Keeps s) :
    r.Keeps (State.freeRange s r1) := by
  unfold State.freeRange
  with_reducible
    repeat' first
      | assumption | apply State.freeGran_keeps | apply State.syncFree_keeps | simp -zeta -zetaUnused -zetaHave -proj only [keeps_mk, keeps_mk_fst]
      | apply keeps_core | apply keeps_foldl | apply keeps_foldl_fst | apply keeps_foldl_snd
      | (intro x; refine (have hx : State.Keeps r x := ?_; ?_); unfold x; rotate_left; clear_value x; rotate_left)
      | (intro x; have hm : MemSt.hbm x = MemSt.hbm x := rfl; clear hm) | (intro x; clear_value x) | intro x | split | lift_lets | dsimp only

theorem State.takeLine_keeps {r : State} (s : State) (l : Loc) (line : Nat) (h : r.Keeps s) :
    KeepsFst r (State.takeLine s l line) := by
  unfold State.takeLine
  with_reducible
    repeat' first
      | assumption | apply State.abufFlush_keeps | apply State.retireLine_keeps | apply State.stackRead_keeps | apply State.retireAll_keeps
      | apply State.scrWrite_keeps | refine (State.stackRead_keeps _ _ _ ?_).out
      | simp -zeta -zetaUnused -zetaHave -proj only [keeps_mk, keeps_mk_fst] | apply keeps_core
      | (intro x; refine (have hx : State.Keeps r x := ?_; ?_); unfold x; rotate_left; clear_value x; rotate_left)
      | (intro x; have hm : MemSt.hbm x = MemSt.hbm x := rfl; clear hm) | (intro x; clear_value x) | intro x | split
      | refine keeps_fst (by assumption) ?_ | lift_lets | dsimp only

theorem State.putLine_keeps {r : State} (s : State) (part : Nat) (l : Loc) (line : Nat) (data : List Byte) (bad : Bool) (h : r.Keeps s) :
    r.Keeps (State.putLine s part l line data bad) := by
  unfold State.putLine
  with_reducible
    repeat' first
      | assumption | apply State.stackWrite_keeps | apply State.scrWrite_keeps | simp -zeta -zetaUnused -zetaHave -proj only [keeps_mk]
      | apply keeps_core | (intro x; refine (have hx : State.Keeps r x := ?_; ?_); unfold x; rotate_left; clear_value x; rotate_left)
      | (intro x; have hm : MemSt.hbm x = MemSt.hbm x := rfl; clear hm) | (intro x; clear_value x) | intro x | split | lift_lets | dsimp only

theorem State.moveLine_keeps {r : State} (s : State) (part : Nat) (src : Loc) (dst : Loc) (line : Nat) (h : r.Keeps s) :
    r.Keeps (State.moveLine s part src dst line) := by
  unfold State.moveLine
  with_reducible
    repeat' first
      | assumption | apply State.takeLine_keeps | apply State.bump_keeps | apply State.putLine_keeps | refine (State.takeLine_keeps _ _ _ ?_).out
      | (intro x; refine (have hx : State.Keeps r x := ?_; ?_); unfold x; rotate_left; clear_value x; rotate_left) | (intro x; clear_value x)
      | intro x | split | refine keeps_fst (by assumption) ?_ | lift_lets | dsimp only

theorem State.moveBlock_keeps {r : State} (s : State) (part : Nat) (src : Loc) (dst : Loc) (block : Nat) (h : r.Keeps s) :
    r.Keeps (State.moveBlock s part src dst block) := by
  unfold State.moveBlock
  with_reducible
    repeat' first
      | assumption | apply State.moveLine_keeps | simp -zeta -zetaUnused -zetaHave -proj only [keeps_mk_fst] | apply keeps_foldl
      | apply keeps_foldl_fst | apply keeps_foldl_snd | intro x | dsimp only

theorem State.moveWhole_keeps {r : State} (s : State) (part : Nat) (src : Loc) (dst : Loc) (h : r.Keeps s) :
    r.Keeps (State.moveWhole s part src dst) := by
  unfold State.moveWhole
  with_reducible
    repeat' first
      | assumption | apply State.moveBlock_keeps | simp -zeta -zetaUnused -zetaHave -proj only [keeps_mk_fst] | apply keeps_foldl
      | apply keeps_foldl_fst | apply keeps_foldl_snd | intro x | dsimp only

theorem State.pinMoves_keeps {r : State} (s : State) (ks ds : List Nat) (h : r.Keeps s) : r.Keeps (State.pinMoves s ks ds) := by
  induction ks generalizing s ds with
  | nil => exact h
  | cons k ks ih =>
    cases ds with
    | nil => exact h
    | cons d ds =>
      unfold State.pinMoves
      split
      · exact ih _ _ h
      · exact ih _ _ (keeps_mk.mpr (keeps_core (State.setGran_keeps _ _ _ (State.initGran_keeps _ _ (State.moveWhole_keeps _ _ _ _ (State.initGran_keeps _ _ h))))))

theorem State.markPins_keeps {r : State} (s : State) (b : Bool) (ks : List Nat) (h : r.Keeps s) :
    r.Keeps (State.markPins s b ks) := by
  unfold State.markPins
  with_reducible
    repeat' first
      | assumption | apply State.setGran_keeps | simp -zeta -zetaUnused -zetaHave -proj only [keeps_mk, keeps_mk_fst] | apply keeps_core
      | apply keeps_foldl | apply keeps_foldl_fst | apply keeps_foldl_snd
      | (intro x; refine (have hx : State.Keeps r x := ?_; ?_); unfold x; rotate_left; clear_value x; rotate_left) | (intro x; clear_value x)
      | intro x | split | lift_lets | dsimp only

theorem State.unpinMoves_keeps {r : State} (s : State) (e : RangeEnt) (ks ps : List Nat) (h : r.Keeps s) : r.Keeps (State.unpinMoves s e ks ps) := by
  induction ks generalizing s ps with
  | nil => exact h
  | cons k ks ih =>
    cases ps with
    | nil => exact h
    | cons p ps =>
      unfold State.unpinMoves
      split
      · exact ih _ _ h
      · split
        · exact ih _ _ (State.setGran_keeps _ _ _ (State.initGran_keeps _ _ (State.moveWhole_keeps _ _ _ _ h)))
        · exact ih _ _ (keeps_mk.mpr (keeps_core (State.setGran_keeps _ _ _ (State.initGran_keeps _ _ (State.moveWhole_keeps _ _ _ _ (State.initGran_keeps _ _ h))))))

theorem State.dropPart_keeps {r : State} (s : State) (part : Nat) (h : r.Keeps s) :
    r.Keeps (State.dropPart s part) := by
  unfold State.dropPart
  with_reducible
    repeat' first
      | assumption | apply State.deadDrop_keeps | apply State.retireLine_keeps | apply State.initGran_keeps
      | simp -zeta -zetaUnused -zetaHave -proj only [keeps_mk_fst] | apply keeps_foldl | apply keeps_foldl_fst | apply keeps_foldl_snd
      | (intro x; refine (have hx : State.Keeps r x := ?_; ?_); unfold x; rotate_left; clear_value x; rotate_left) | (intro x; clear_value x)
      | intro x | split | lift_lets | dsimp only

/-! Machine/XltOps.lean -/

theorem State.setRcache_keeps {r : State} (s : State) (q : Requester) (es : List RcEnt) (h : r.Keeps s) :
    r.Keeps (State.setRcache s q es) := by
  unfold State.setRcache
  with_reducible
    repeat' first
      | assumption | simp -zeta -zetaUnused -zetaHave -proj only [keeps_mk] | apply keeps_core
      | (intro x; refine (have hx : State.Keeps r x := ?_; ?_); unfold x; rotate_left; clear_value x; rotate_left) | (intro x; clear_value x)
      | intro x | split | lift_lets | dsimp only

theorem State.rcLookup_keeps {r : State} (s : State) (q : Requester) (unit : Nat) (ctx : Nat) (va : Nat) (h : r.Keeps s) :
    KeepsFst r (State.rcLookup s q unit ctx va) := by
  unfold State.rcLookup
  with_reducible
    repeat' first
      | assumption | apply State.setRcache_keeps | simp -zeta -zetaUnused -zetaHave -proj only [keeps_mk_fst]
      | (intro x; refine (have hx : State.Keeps r x := ?_; ?_); unfold x; rotate_left; clear_value x; rotate_left) | (intro x; clear_value x)
      | intro x | split | lift_lets | dsimp only

theorem State.rcFill_keeps {r : State} (s : State) (q : Requester) (r2 : RangeEnt) (h : r.Keeps s) :
    r.Keeps (State.rcFill s q r2) := by
  unfold State.rcFill
  with_reducible
    repeat' first
      | assumption | apply State.setRcache_keeps
      | (intro x; refine (have hx : State.Keeps r x := ?_; ?_); unfold x; rotate_left; clear_value x; rotate_left) | (intro x; clear_value x)
      | intro x | lift_lets | dsimp only

theorem State.rcDropRange_keeps {r : State} (s : State) (unit : Nat) (ctx : Nat) (start : Nat) (h : r.Keeps s) :
    r.Keeps (State.rcDropRange s unit ctx start) := by
  unfold State.rcDropRange
  with_reducible
    repeat' first
      | assumption | simp -zeta -zetaUnused -zetaHave -proj only [keeps_mk] | apply keeps_core
      | (intro x; refine (have hx : State.Keeps r x := ?_; ?_); unfold x; rotate_left; clear_value x; rotate_left) | (intro x; clear_value x)
      | intro x | lift_lets | dsimp only

theorem State.assignWalkers_keeps {r : State} (s : State) (leaf : Nat) (x2 : Nat) (h : r.Keeps s) :
    r.Keeps (State.assignWalkers s leaf x2) := by
  induction x2 generalizing s leaf with
  | zero =>
    unfold State.assignWalkers
    with_reducible
      repeat' first
        | assumption | apply State.bumpN_keeps | simp -zeta -zetaUnused -zetaHave -proj only [keeps_mk] | apply keeps_core
        | (intro x; refine (have hx : State.Keeps r x := ?_; ?_); unfold x; rotate_left; clear_value x; rotate_left) | (intro x; clear_value x)
        | intro x | split | lift_lets | dsimp only
  | succ k ih =>
    unfold State.assignWalkers
    with_reducible
      repeat' first
        | assumption | apply ih | apply State.bumpN_keeps | simp -zeta -zetaUnused -zetaHave -proj only [keeps_mk] | apply keeps_core
        | (intro x; refine (have hx : State.Keeps r x := ?_; ?_); unfold x; rotate_left; clear_value x; rotate_left) | (intro x; clear_value x)
        | intro x | split | lift_lets | dsimp only

theorem State.addMiss_keeps {r : State} (s : State) (leaf : Nat) (q : Requester) (unit : Nat) (ctx : Nat) (va : Nat) (h : r.Keeps s) :
    r.Keeps (State.addMiss s leaf q unit ctx va) := by
  unfold State.addMiss
  with_reducible
    repeat' first
      | assumption | apply State.assignWalkers_keeps | simp -zeta -zetaUnused -zetaHave -proj only [keeps_mk] | apply keeps_core
      | (intro x; refine (have hx : State.Keeps r x := ?_; ?_); unfold x; rotate_left; clear_value x; rotate_left) | (intro x; clear_value x)
      | intro x | split | lift_lets | dsimp only

theorem State.walkOnce_keeps {r : State} (s : State) (leaf : Nat) (h : r.Keeps s) :
    r.Keeps (State.walkOnce s leaf) := by
  unfold State.walkOnce
  with_reducible
    repeat' first
      | assumption | apply State.nextFree_keeps | apply State.bumpN_keeps | apply State.bump_keeps | refine (State.nextFree_keeps _ ?_).out
      | (intro x; refine (have hx : State.Keeps r x := ?_; ?_); unfold x; rotate_left; clear_value x; rotate_left) | (intro x; clear_value x)
      | intro x | split | refine keeps_snd (by assumption) ?_ | lift_lets | dsimp only

theorem State.flushHeld_keeps {r : State} (s : State) (h1 : HeldRec) (h : r.Keeps s) :
    r.Keeps (State.flushHeld s h1) := by
  unfold State.flushHeld
  with_reducible
    repeat' first
      | assumption | apply State.bump_keeps | apply State.emitStamped_keeps | simp -zeta -zetaUnused -zetaHave -proj only [keeps_mk]
      | apply keeps_core | (intro x; refine (have hx : State.Keeps r x := ?_; ?_); unfold x; rotate_left; clear_value x; rotate_left)
      | (intro x; clear_value x) | intro x | lift_lets | dsimp only

theorem State.holdRec_keeps {r : State} (s : State) (r1 : Rec) (ctx : Nat) (va : Nat) (h : r.Keeps s) :
    r.Keeps (State.holdRec s r1 ctx va) := by
  unfold State.holdRec
  with_reducible
    repeat' first
      | assumption | apply State.bump_keeps | apply State.flushHeld_keeps | simp -zeta -zetaUnused -zetaHave -proj only [keeps_mk] | apply keeps_core
      | (intro x; refine (have hx : State.Keeps r x := ?_; ?_); unfold x; rotate_left; clear_value x; rotate_left) | (intro x; clear_value x)
      | intro x | split | lift_lets | dsimp only

theorem State.flushAllHeld_keeps {r : State} (s : State) (h : r.Keeps s) :
    r.Keeps (State.flushAllHeld s) := by
  unfold State.flushAllHeld
  with_reducible
    repeat' first
      | assumption | apply State.flushHeld_keeps | simp -zeta -zetaUnused -zetaHave -proj only [keeps_mk_fst] | apply keeps_foldl
      | apply keeps_foldl_fst | apply keeps_foldl_snd | intro x | dsimp only

theorem State.setRange_keeps {r : State} (s : State) (r1 : RangeEnt) (h : r.Keeps s) :
    r.Keeps (State.setRange s r1) := by
  unfold State.setRange
  with_reducible
    repeat' first
      | assumption | simp -zeta -zetaUnused -zetaHave -proj only [keeps_mk] | apply keeps_core
      | (intro x; refine (have hx : State.Keeps r x := ?_; ?_); unfold x; rotate_left; clear_value x; rotate_left) | (intro x; clear_value x)
      | intro x | split | lift_lets | dsimp only

theorem State.syncXlt_keeps {r : State} (s : State) (h : r.Keeps s) :
    r.Keeps (State.syncXlt s) := by
  unfold State.syncXlt
  with_reducible
    repeat' first
      | assumption | apply State.setFld_keeps | apply State.setFlag_keeps
      | (intro x; refine (have hx : State.Keeps r x := ?_; ?_); unfold x; rotate_left; clear_value x; rotate_left) | (intro x; clear_value x)
      | intro x | lift_lets | dsimp only

theorem State.dropCached_keeps {r : State} (s : State) (r1 : RangeEnt) (h : r.Keeps s) :
    r.Keeps (State.dropCached s r1) := by
  unfold State.dropCached
  with_reducible
    repeat' first
      | assumption | apply State.dropL2_keeps | apply State.setDir_keeps | simp -zeta -zetaUnused -zetaHave -proj only [keeps_mk, keeps_mk_fst]
      | apply keeps_core | apply keeps_foldl | apply keeps_foldl_fst | apply keeps_foldl_snd
      | (intro x; refine (have hx : State.Keeps r x := ?_; ?_); unfold x; rotate_left; clear_value x; rotate_left) | (intro x; clear_value x)
      | intro x | split | lift_lets | dsimp only

theorem State.dropRange_keeps {r : State} (s : State) (r1 : RangeEnt) (h : r.Keeps s) :
    r.Keeps (State.dropRange s r1) := by
  unfold State.dropRange
  with_reducible
    repeat' first
      | assumption | apply State.dropCached_keeps | simp -zeta -zetaUnused -zetaHave -proj only [keeps_mk] | apply keeps_core
      | (intro x; refine (have hx : State.Keeps r x := ?_; ?_); unfold x; rotate_left; clear_value x; rotate_left) | (intro x; clear_value x)
      | intro x | lift_lets | dsimp only

theorem State.finishInval_keeps {r : State} (s : State) (v : Inval) (h : r.Keeps s) :
    r.Keeps (State.finishInval s v) := by
  unfold State.finishInval
  with_reducible
    repeat' first
      | assumption | apply State.bump_keeps | apply State.setFld_keeps | apply State.complete_keeps | apply State.freeRange_keeps
      | apply State.dropRange_keeps | apply State.setRange_keeps | simp -zeta -zetaUnused -zetaHave -proj only [keeps_mk] | apply keeps_core
      | (intro x; refine (have hx : State.Keeps r x := ?_; ?_); unfold x; rotate_left; clear_value x; rotate_left)
      | (intro x; refine (have hfn : ∀ y, State.Keeps r y → State.Keeps r (x y) := ?_; ?_); unfold x; rotate_left; clear_value x; rotate_left)
      | (intro x; refine (have hfn : ∀ y z, State.Keeps r y → State.Keeps r (x y z) := ?_; ?_); unfold x; rotate_left; clear_value x; rotate_left)
      | apply hfn | (intro x; have hm : HostSt.mem x = HostSt.mem x := rfl; clear hm) | (intro x; clear_value x) | intro x | split | lift_lets
      | dsimp only

theorem State.pumpInvals_keeps {r : State} (s : State) (x1 : Nat) (h : r.Keeps s) :
    r.Keeps (State.pumpInvals s x1) := by
  induction x1 generalizing s with
  | zero =>
    unfold State.pumpInvals
    with_reducible
      repeat' first
        | assumption | apply State.syncXlt_keeps | apply State.finishInval_keeps | apply State.failCmd_keeps | apply State.setRange_keeps
        | apply State.rcDropRange_keeps | simp -zeta -zetaUnused -zetaHave -proj only [keeps_mk] | apply keeps_core
        | (intro x; refine (have hx : State.Keeps r x := ?_; ?_); unfold x; rotate_left; clear_value x; rotate_left) | (intro x; clear_value x)
        | intro x | split | lift_lets | dsimp only
  | succ k ih =>
    unfold State.pumpInvals
    with_reducible
      repeat' first
        | assumption | apply ih | apply State.syncXlt_keeps | apply State.finishInval_keeps | apply State.failCmd_keeps | apply State.setRange_keeps
        | apply State.rcDropRange_keeps | simp -zeta -zetaUnused -zetaHave -proj only [keeps_mk] | apply keeps_core
        | (intro x; refine (have hx : State.Keeps r x := ?_; ?_); unfold x; rotate_left; clear_value x; rotate_left) | (intro x; clear_value x)
        | intro x | split | lift_lets | dsimp only

theorem State.requestInval_keeps {r : State} (s : State) (v : Inval) (h : r.Keeps s) :
    r.Keeps (State.requestInval s v) := by
  unfold State.requestInval
  with_reducible
    repeat' first
      | assumption | apply State.pumpInvals_keeps | simp -zeta -zetaUnused -zetaHave -proj only [keeps_mk] | apply keeps_core
      | (intro x; refine (have hx : State.Keeps r x := ?_; ?_); unfold x; rotate_left; clear_value x; rotate_left) | (intro x; clear_value x)
      | intro x | lift_lets | dsimp only

/-! Machine/CmdOps.lean -/

theorem State.begin_keeps {r : State} (s : State) (id : Nat) (h : r.Keeps s) :
    r.Keeps (State.begin s id) := by
  unfold State.begin
  with_reducible
    repeat' first
      | assumption | apply State.bump_keeps | apply State.setCmd_keeps | simp -zeta -zetaUnused -zetaHave -proj only [keeps_mk] | apply keeps_core
      | (intro x; refine (have hx : State.Keeps r x := ?_; ?_); unfold x; rotate_left; clear_value x; rotate_left) | (intro x; clear_value x)
      | intro x | split | lift_lets | dsimp only

theorem State.wroteHost_keeps {r : State} (s : State) (id : Nat) (h : r.Keeps s) : r.Keeps (State.wroteHost s id) :=
  State.setCmd_keeps _ _ _ h

theorem State.badCmd_keeps {r : State} (s : State) (id : Nat) (c : HostCmd) (h : r.Keeps s) :
    r.Keeps (State.badCmd s id c) := by
  unfold State.badCmd
  with_reducible
    repeat' first
      | assumption | apply State.failCmd_keeps | dsimp only

/-! Machine/Advice.lean -/

theorem State.pinRange_keeps {r : State} (s : State) (r1 : RangeEnt) (binding : Nat) (h : r.Keeps s) :
    KeepsFst r (State.pinRange s r1 binding) := by
  unfold State.pinRange
  with_reducible
    repeat' first
      | assumption | apply State.pinMoves_keeps | apply State.markPins_keeps | apply State.syncFree_keeps | apply State.bumpN_keeps
      | apply State.setRange_keeps | simp -zeta -zetaUnused -zetaHave -proj only [keeps_mk, keeps_mk_fst] | apply keeps_core
      | (intro x; refine (have hx : State.Keeps r x := ?_; ?_); unfold x; rotate_left; clear_value x; rotate_left) | (intro x; clear_value x)
      | intro x | split | lift_lets | dsimp only

theorem State.clearDemoted_keeps {r : State} (s : State) (r1 : RangeEnt) (h : r.Keeps s) :
    r.Keeps (State.clearDemoted s r1) := by
  unfold State.clearDemoted
  with_reducible
    repeat' first
      | assumption | apply State.setGran_keeps | simp -zeta -zetaUnused -zetaHave -proj only [keeps_mk, keeps_mk_fst] | apply keeps_core
      | apply keeps_foldl | apply keeps_foldl_fst | apply keeps_foldl_snd
      | (intro x; refine (have hx : State.Keeps r x := ?_; ?_); unfold x; rotate_left; clear_value x; rotate_left) | (intro x; clear_value x)
      | intro x | split | lift_lets | dsimp only

theorem State.unpinRange_keeps {r : State} (s : State) (r1 : RangeEnt) (h : r.Keeps s) :
    KeepsFst r (State.unpinRange s r1) := by
  unfold State.unpinRange
  with_reducible
    repeat' first
      | assumption | apply State.bumpN_keeps | apply State.unpinMoves_keeps | apply State.setVline_keeps | apply State.clearDemoted_keeps
      | apply State.syncFree_keeps | apply State.setRange_keeps | simp -zeta -zetaUnused -zetaHave -proj only [keeps_mk, keeps_mk_fst]
      | apply keeps_core | apply keeps_foldl | apply keeps_foldl_fst | apply keeps_foldl_snd
      | (intro x; refine (have hx : State.Keeps r x := ?_; ?_); unfold x; rotate_left; clear_value x; rotate_left) | (intro x; clear_value x)
      | intro x | split | lift_lets | dsimp only

theorem State.markDead_keeps {r : State} (s : State) (r1 : RangeEnt) (h : r.Keeps s) :
    r.Keeps (State.markDead s r1) := by
  unfold State.markDead
  with_reducible
    repeat' first
      | assumption | apply State.setRange_keeps | apply State.setVline_keeps | simp -zeta -zetaUnused -zetaHave -proj only [keeps_mk, keeps_mk_fst]
      | apply keeps_core | apply keeps_foldl | apply keeps_foldl_fst | apply keeps_foldl_snd
      | (intro x; refine (have hx : State.Keeps r x := ?_; ?_); unfold x; rotate_left; clear_value x; rotate_left) | (intro x; clear_value x)
      | intro x | lift_lets | dsimp only

theorem State.dropLines_keeps {r : State} (s : State) (r1 : RangeEnt) (h : r.Keeps s) :
    r.Keeps (State.dropLines s r1) := by
  unfold State.dropLines
  with_reducible
    repeat' first
      | assumption | apply State.deadDrop_keeps | apply State.retireLine_keeps | simp -zeta -zetaUnused -zetaHave -proj only [keeps_mk_fst]
      | apply keeps_foldl | apply keeps_foldl_fst | apply keeps_foldl_snd | intro x | dsimp only

theorem State.applyAdvice_keeps {r : State} (s : State) (r1 : RangeEnt) (code : Nat) (arg : Nat) (h : r.Keeps s) :
    KeepsFst r (State.applyAdvice s r1 code arg) := by
  unfold State.applyAdvice
  with_reducible
    repeat' first
      | assumption | apply State.setRange_keeps | apply State.pinRange_keeps | apply State.unpinRange_keeps | apply State.markDead_keeps
      | apply State.dropLines_keeps | refine (State.pinRange_keeps _ _ _ ?_).out | refine (State.unpinRange_keeps _ _ ?_).out
      | simp -zeta -zetaUnused -zetaHave -proj only [keeps_mk, keeps_mk_fst] | apply keeps_core
      | (intro x; refine (have hx : State.Keeps r x := ?_; ?_); unfold x; rotate_left; clear_value x; rotate_left) | (intro x; clear_value x)
      | intro x | split | refine keeps_fst (by assumption) ?_ | lift_lets | dsimp only

theorem State.noSuchRange_keeps {r : State} (s : State) (id : Nat) (c : HostCmd) (h : r.Keeps s) :
    r.Keeps (State.noSuchRange s id c) := by
  unfold State.noSuchRange
  with_reducible
    repeat' first
      | assumption | apply State.failCmd_keeps | dsimp only

theorem State.advise_keeps {r : State} (s : State) (id : Nat) (code : Nat) (h : r.Keeps s) :
    r.Keeps (State.advise s id code) := by
  unfold State.advise
  with_reducible
    repeat' first
      | assumption | apply State.noSuchRange_keeps | apply State.begin_keeps | apply State.complete_keeps | apply State.failCmd_keeps
      | apply State.applyAdvice_keeps | refine (State.applyAdvice_keeps _ _ _ _ ?_).out
      | (intro x; refine (have hx : State.Keeps r x := ?_; ?_); unfold x; rotate_left; clear_value x; rotate_left) | (intro x; clear_value x)
      | intro x | split | refine keeps_fst (by assumption) ?_ | lift_lets | dsimp only

theorem execAdviceClear_keeps {r : State} (cmd : Nat) (s : State) (h : r.Keeps s) :
    KeepsOut r (execAdviceClear cmd s) := by
  unfold execAdviceClear
  with_reducible
    repeat' first
      | assumption | apply keeps_next | apply State.advise_keeps | dsimp only

theorem execAdviceHot_keeps {r : State} (cmd : Nat) (s : State) (h : r.Keeps s) :
    KeepsOut r (execAdviceHot cmd s) := by
  unfold execAdviceHot
  with_reducible
    repeat' first
      | assumption | apply keeps_next | apply State.advise_keeps | dsimp only

theorem execAdviceCold_keeps {r : State} (cmd : Nat) (s : State) (h : r.Keeps s) :
    KeepsOut r (execAdviceCold cmd s) := by
  unfold execAdviceCold
  with_reducible
    repeat' first
      | assumption | apply keeps_next | apply State.advise_keeps | dsimp only

theorem execAdviceStream_keeps {r : State} (cmd : Nat) (s : State) (h : r.Keeps s) :
    KeepsOut r (execAdviceStream cmd s) := by
  unfold execAdviceStream
  with_reducible
    repeat' first
      | assumption | apply keeps_next | apply State.advise_keeps | dsimp only

theorem execAdvicePin_keeps {r : State} (cmd : Nat) (s : State) (h : r.Keeps s) :
    KeepsOut r (execAdvicePin cmd s) := by
  unfold execAdvicePin
  with_reducible
    repeat' first
      | assumption | apply keeps_next | apply State.advise_keeps | dsimp only

theorem execAdviceUnpin_keeps {r : State} (cmd : Nat) (s : State) (h : r.Keeps s) :
    KeepsOut r (execAdviceUnpin cmd s) := by
  unfold execAdviceUnpin
  with_reducible
    repeat' first
      | assumption | apply keeps_next | apply State.advise_keeps | dsimp only

theorem execAdviceLeaf_keeps {r : State} (cmd : Nat) (s : State) (h : r.Keeps s) :
    KeepsOut r (execAdviceLeaf cmd s) := by
  unfold execAdviceLeaf
  with_reducible
    repeat' first
      | assumption | apply keeps_next | apply State.badCmd_keeps | apply State.advise_keeps
      | (intro x; refine (have hx : State.Keeps r x := ?_; ?_); unfold x; rotate_left; clear_value x; rotate_left) | (intro x; clear_value x)
      | intro x | split | lift_lets | dsimp only

theorem execAdviceDead_keeps {r : State} (cmd : Nat) (s : State) (h : r.Keeps s) :
    KeepsOut r (execAdviceDead cmd s) := by
  unfold execAdviceDead
  with_reducible
    repeat' first
      | assumption | apply keeps_next | apply State.advise_keeps | dsimp only

theorem execAdviceDrop_keeps {r : State} (cmd : Nat) (s : State) (h : r.Keeps s) :
    KeepsOut r (execAdviceDrop cmd s) := by
  unfold execAdviceDrop
  with_reducible
    repeat' first
      | assumption | apply keeps_next | apply State.advise_keeps | dsimp only

theorem State.requestFor_keeps {r : State} (s : State) (id : Nat) (c : HostCmd) (ch : Change) (h : r.Keeps s) :
    r.Keeps (State.requestFor s id c ch) := by
  unfold State.requestFor
  with_reducible
    repeat' first
      | assumption | apply State.requestInval_keeps | apply State.begin_keeps | apply State.noSuchRange_keeps
      | (intro x; refine (have hx : State.Keeps r x := ?_; ?_); unfold x; rotate_left; clear_value x; rotate_left) | (intro x; clear_value x)
      | intro x | split | lift_lets | dsimp only

theorem execAdviceClass_keeps {r : State} (cmd : Nat) (s : State) (h : r.Keeps s) :
    KeepsOut r (execAdviceClass cmd s) := by
  unfold execAdviceClass
  with_reducible
    repeat' first
      | assumption | apply keeps_next | apply State.requestFor_keeps
      | (intro x; refine (have hx : State.Keeps r x := ?_; ?_); unfold x; rotate_left; clear_value x; rotate_left) | (intro x; clear_value x)
      | intro x | split | lift_lets | dsimp only

theorem execUnmap_keeps {r : State} (cmd : Nat) (s : State) (h : r.Keeps s) :
    KeepsOut r (execUnmap cmd s) := by
  unfold execUnmap
  with_reducible
    repeat' first
      | assumption | apply keeps_next | apply State.requestFor_keeps
      | (intro x; refine (have hx : State.Keeps r x := ?_; ?_); unfold x; rotate_left; clear_value x; rotate_left) | (intro x; clear_value x)
      | intro x | split | lift_lets | dsimp only

theorem execPrefetch_keeps {r : State} (cmd : Nat) (s : State) (h : r.Keeps s) :
    KeepsOut r (execPrefetch cmd s) := by
  unfold execPrefetch
  with_reducible
    repeat' first
      | assumption | apply keeps_next | apply State.failCmd_keeps | apply State.requestFor_keeps
      | (intro x; refine (have hx : State.Keeps r x := ?_; ?_); unfold x; rotate_left; clear_value x; rotate_left) | (intro x; clear_value x)
      | intro x | split | lift_lets | dsimp only

theorem execMap_keeps {r : State} (cmd : Nat) (s : State) (h : r.Keeps s) :
    KeepsOut r (execMap cmd s) := by
  unfold execMap
  with_reducible
    repeat' first
      | assumption | apply keeps_next | apply State.badCmd_keeps | apply State.failCmd_keeps | apply State.syncXlt_keeps | apply State.begin_keeps
      | apply State.bumpN_keeps | apply State.syncFree_keeps | apply State.backGranules_keeps | simp -zeta -zetaUnused -zetaHave -proj only [keeps_mk]
      | apply keeps_core | (intro x; refine (have hx : State.Keeps r x := ?_; ?_); unfold x; rotate_left; clear_value x; rotate_left)
      | (intro x; refine (have hfn : ∀ y, State.Keeps r y → State.Keeps r (x y) := ?_; ?_); unfold x; rotate_left; clear_value x; rotate_left)
      | (intro x; refine (have hfn : ∀ y z, State.Keeps r y → State.Keeps r (x y z) := ?_; ?_); unfold x; rotate_left; clear_value x; rotate_left)
      | apply hfn | (intro x; have hm : MemSt.hbm x = MemSt.hbm x := rfl; clear hm) | (intro x; clear_value x) | intro x | split | lift_lets
      | dsimp only

theorem execMapComplete_keeps {r : State} (cmd : Nat) (s : State) (h : r.Keeps s) :
    KeepsOut r (execMapComplete cmd s) := by
  unfold execMapComplete
  with_reducible
    repeat' first
      | assumption | apply keeps_next | apply State.setRange_keeps | apply State.applyAdvice_keeps | apply State.complete_keeps
      | apply State.pumpInvals_keeps | refine (State.applyAdvice_keeps _ _ _ _ ?_).out | simp -zeta -zetaUnused -zetaHave -proj only [keeps_mk]
      | apply keeps_core | (intro x; refine (have hx : State.Keeps r x := ?_; ?_); unfold x; rotate_left; clear_value x; rotate_left)
      | (intro x; have hm : MemSt.hbm x = MemSt.hbm x := rfl; clear hm) | (intro x; clear_value x) | intro x | split
      | refine keeps_fst (by assumption) ?_ | lift_lets | dsimp only

/-! Machine/Pwr.lean -/

theorem State.countSpan_keeps {r : State} (s : State) (d : Nat) (q : Nat) (a : Nat) (b : Nat) (h : r.Keeps s) :
    r.Keeps (State.countSpan s d q a b) := by
  unfold State.countSpan
  with_reducible
    repeat' first
      | assumption | apply State.bumpN_keeps | simp -zeta -zetaUnused -zetaHave -proj only [keeps_mk] | apply keeps_core
      | (intro x; refine (have hx : State.Keeps r x := ?_; ?_); unfold x; rotate_left; clear_value x; rotate_left) | (intro x; clear_value x)
      | intro x | split | lift_lets | dsimp only

theorem State.accrueDie_keeps {r : State} (s : State) (d : Nat) (h : r.Keeps s) :
    r.Keeps (State.accrueDie s d) := by
  unfold State.accrueDie
  with_reducible
    repeat' first
      | assumption | apply State.countSpan_keeps | simp -zeta -zetaUnused -zetaHave -proj only [keeps_mk] | apply keeps_core
      | (intro x; refine (have hx : State.Keeps r x := ?_; ?_); unfold x; rotate_left; clear_value x; rotate_left) | (intro x; clear_value x)
      | intro x | split | lift_lets | dsimp only

theorem State.accrue_keeps {r : State} (s : State) (h : r.Keeps s) :
    r.Keeps (State.accrue s) := by
  unfold State.accrue
  repeat' first
    | with_reducible assumption
    | with_reducible apply keeps_next
    | with_reducible apply keeps_some_pair
    | with_reducible apply keeps_some
    | with_reducible exact keeps_none
    | with_reducible exact keeps_none_pair
    | with_reducible apply State.accrueDie_keeps
    | simp -zeta -zetaUnused -zetaHave -proj only [keeps_mk, keeps_mk_fst, keeps_mk_snd]
    | with_reducible apply keeps_core
    | with_reducible apply keeps_free
    | with_reducible apply keeps_foldl
    | with_reducible apply keeps_foldl_fst
    | with_reducible apply keeps_foldl_snd
    | (intro x; refine (have hx : State.Keeps r x := ?_; ?_); unfold x; rotate_left; clear_value x; rotate_left)
    | (intro x; have hm : MemSt.hbm x = MemSt.hbm x := rfl; clear hm)
    | (intro x; have hm : HostSt.mem x = HostSt.mem x := rfl; clear hm)
    | (intro x; clear_value x)
    | intro x
    | split
    | (refine keeps_fst (by with_reducible assumption) ?_)
    | (refine keeps_snd (by with_reducible assumption) ?_)
    | (refine keeps_of_some (by with_reducible assumption) ?_)
    | (refine keeps_of_some_pair (by with_reducible assumption) ?_)
    | (refine keeps_of_some_pair' (by with_reducible assumption) ?_)
    | lift_lets
    | dsimp only

theorem State.rebaseClocks_keeps {r : State} (s : State) (cs : List Nat) (h : r.Keeps s) :
    r.Keeps (State.rebaseClocks s cs) := by
  unfold State.rebaseClocks
  repeat' first
    | with_reducible assumption
    | with_reducible apply keeps_next
    | with_reducible apply keeps_some_pair
    | with_reducible apply keeps_some
    | with_reducible exact keeps_none
    | with_reducible exact keeps_none_pair
    | simp -zeta -zetaUnused -zetaHave -proj only [keeps_mk, keeps_mk_fst, keeps_mk_snd]
    | with_reducible apply keeps_core
    | with_reducible apply keeps_free
    | with_reducible apply keeps_foldl
    | with_reducible apply keeps_foldl_fst
    | with_reducible apply keeps_foldl_snd
    | (intro x; refine (have hx : State.Keeps r x := ?_; ?_); unfold x; rotate_left; clear_value x; rotate_left)
    | (intro x; have hm : MemSt.hbm x = MemSt.hbm x := rfl; clear hm)
    | (intro x; have hm : HostSt.mem x = HostSt.mem x := rfl; clear hm)
    | (intro x; clear_value x)
    | intro x
    | split
    | (refine keeps_fst (by with_reducible assumption) ?_)
    | (refine keeps_snd (by with_reducible assumption) ?_)
    | (refine keeps_of_some (by with_reducible assumption) ?_)
    | (refine keeps_of_some_pair (by with_reducible assumption) ?_)
    | (refine keeps_of_some_pair' (by with_reducible assumption) ?_)
    | lift_lets
    | dsimp only

theorem State.setVolt_keeps {r : State} (s : State) (d : Nat) (mv : Nat) (h : r.Keeps s) :
    r.Keeps (State.setVolt s d mv) := by
  unfold State.setVolt
  repeat' first
    | with_reducible assumption
    | with_reducible apply keeps_next
    | with_reducible apply keeps_some_pair
    | with_reducible apply keeps_some
    | with_reducible exact keeps_none
    | with_reducible exact keeps_none_pair
    | with_reducible apply State.setFld_keeps
    | simp -zeta -zetaUnused -zetaHave -proj only [keeps_mk, keeps_mk_fst, keeps_mk_snd]
    | with_reducible apply keeps_core
    | with_reducible apply keeps_free
    | with_reducible apply keeps_foldl
    | with_reducible apply keeps_foldl_fst
    | with_reducible apply keeps_foldl_snd
    | (intro x; refine (have hx : State.Keeps r x := ?_; ?_); unfold x; rotate_left; clear_value x; rotate_left)
    | (intro x; have hm : MemSt.hbm x = MemSt.hbm x := rfl; clear hm)
    | (intro x; have hm : HostSt.mem x = HostSt.mem x := rfl; clear hm)
    | (intro x; clear_value x)
    | intro x
    | split
    | (refine keeps_fst (by with_reducible assumption) ?_)
    | (refine keeps_snd (by with_reducible assumption) ?_)
    | (refine keeps_of_some (by with_reducible assumption) ?_)
    | (refine keeps_of_some_pair (by with_reducible assumption) ?_)
    | (refine keeps_of_some_pair' (by with_reducible assumption) ?_)
    | lift_lets
    | dsimp only

theorem State.request_keeps {r : State} (s : State) (d : Nat) (req : Nat) (h : r.Keeps s) :
    r.Keeps (State.request s d req) := by
  unfold State.request
  repeat' first
    | with_reducible assumption
    | with_reducible apply keeps_next
    | with_reducible apply keeps_some_pair
    | with_reducible apply keeps_some
    | with_reducible exact keeps_none
    | with_reducible exact keeps_none_pair
    | with_reducible apply State.setFlag_keeps
    | with_reducible apply State.setFld_keeps
    | with_reducible apply State.setVolt_keeps
    | simp -zeta -zetaUnused -zetaHave -proj only [keeps_mk, keeps_mk_fst, keeps_mk_snd]
    | with_reducible apply keeps_core
    | with_reducible apply keeps_free
    | with_reducible apply keeps_foldl
    | with_reducible apply keeps_foldl_fst
    | with_reducible apply keeps_foldl_snd
    | (intro x; refine (have hx : State.Keeps r x := ?_; ?_); unfold x; rotate_left; clear_value x; rotate_left)
    | (intro x; have hm : MemSt.hbm x = MemSt.hbm x := rfl; clear hm)
    | (intro x; have hm : HostSt.mem x = HostSt.mem x := rfl; clear hm)
    | (intro x; clear_value x)
    | intro x
    | split
    | (refine keeps_fst (by with_reducible assumption) ?_)
    | (refine keeps_snd (by with_reducible assumption) ?_)
    | (refine keeps_of_some (by with_reducible assumption) ?_)
    | (refine keeps_of_some_pair (by with_reducible assumption) ?_)
    | (refine keeps_of_some_pair' (by with_reducible assumption) ?_)
    | lift_lets
    | dsimp only

theorem State.freqDecideDie_keeps {r : State} (s : State) (f : Nat) (d : Nat) (h : r.Keeps s) :
    r.Keeps (State.freqDecideDie s f d) := by
  unfold State.freqDecideDie
  repeat' first
    | with_reducible assumption
    | with_reducible apply keeps_next
    | with_reducible apply keeps_some_pair
    | with_reducible apply keeps_some
    | with_reducible exact keeps_none
    | with_reducible exact keeps_none_pair
    | with_reducible apply State.emit_keeps
    | with_reducible apply State.request_keeps
    | simp -zeta -zetaUnused -zetaHave -proj only [keeps_mk, keeps_mk_fst, keeps_mk_snd]
    | with_reducible apply keeps_core
    | with_reducible apply keeps_free
    | with_reducible apply keeps_foldl
    | with_reducible apply keeps_foldl_fst
    | with_reducible apply keeps_foldl_snd
    | (intro x; refine (have hx : State.Keeps r x := ?_; ?_); unfold x; rotate_left; clear_value x; rotate_left)
    | (intro x; have hm : MemSt.hbm x = MemSt.hbm x := rfl; clear hm)
    | (intro x; have hm : HostSt.mem x = HostSt.mem x := rfl; clear hm)
    | (intro x; clear_value x)
    | intro x
    | split
    | (refine keeps_fst (by with_reducible assumption) ?_)
    | (refine keeps_snd (by with_reducible assumption) ?_)
    | (refine keeps_of_some (by with_reducible assumption) ?_)
    | (refine keeps_of_some_pair (by with_reducible assumption) ?_)
    | (refine keeps_of_some_pair' (by with_reducible assumption) ?_)
    | lift_lets
    | dsimp only

theorem State.freqDecision_keeps {r : State} (s : State) (h : r.Keeps s) :
    r.Keeps (State.freqDecision s) := by
  unfold State.freqDecision
  repeat' first
    | with_reducible assumption
    | with_reducible apply keeps_next
    | with_reducible apply keeps_some_pair
    | with_reducible apply keeps_some
    | with_reducible exact keeps_none
    | with_reducible exact keeps_none_pair
    | with_reducible apply State.accrue_keeps
    | with_reducible apply State.setFlag_keeps
    | with_reducible apply State.freqDecideDie_keeps
    | simp -zeta -zetaUnused -zetaHave -proj only [keeps_mk, keeps_mk_fst, keeps_mk_snd]
    | with_reducible apply keeps_core
    | with_reducible apply keeps_free
    | with_reducible apply keeps_foldl
    | with_reducible apply keeps_foldl_fst
    | with_reducible apply keeps_foldl_snd
    | (intro x; refine (have hx : State.Keeps r x := ?_; ?_); unfold x; rotate_left; clear_value x; rotate_left)
    | (intro x; have hm : MemSt.hbm x = MemSt.hbm x := rfl; clear hm)
    | (intro x; have hm : HostSt.mem x = HostSt.mem x := rfl; clear hm)
    | (intro x; clear_value x)
    | intro x
    | split
    | (refine keeps_fst (by with_reducible assumption) ?_)
    | (refine keeps_snd (by with_reducible assumption) ?_)
    | (refine keeps_of_some (by with_reducible assumption) ?_)
    | (refine keeps_of_some_pair (by with_reducible assumption) ?_)
    | (refine keeps_of_some_pair' (by with_reducible assumption) ?_)
    | lift_lets
    | dsimp only

theorem State.deferFreq_keeps {r : State} (s : State) (d : Nat) (h : r.Keeps s) :
    r.Keeps (State.deferFreq s d) := by
  unfold State.deferFreq
  repeat' first
    | with_reducible assumption
    | with_reducible apply keeps_next
    | with_reducible apply keeps_some_pair
    | with_reducible apply keeps_some
    | with_reducible exact keeps_none
    | with_reducible exact keeps_none_pair
    | with_reducible apply State.bump_keeps
    | simp -zeta -zetaUnused -zetaHave -proj only [keeps_mk, keeps_mk_fst, keeps_mk_snd]
    | with_reducible apply keeps_core
    | with_reducible apply keeps_free
    | with_reducible apply keeps_foldl
    | with_reducible apply keeps_foldl_fst
    | with_reducible apply keeps_foldl_snd
    | (intro x; refine (have hx : State.Keeps r x := ?_; ?_); unfold x; rotate_left; clear_value x; rotate_left)
    | (intro x; have hm : MemSt.hbm x = MemSt.hbm x := rfl; clear hm)
    | (intro x; have hm : HostSt.mem x = HostSt.mem x := rfl; clear hm)
    | (intro x; clear_value x)
    | intro x
    | split
    | (refine keeps_fst (by with_reducible assumption) ?_)
    | (refine keeps_snd (by with_reducible assumption) ?_)
    | (refine keeps_of_some (by with_reducible assumption) ?_)
    | (refine keeps_of_some_pair (by with_reducible assumption) ?_)
    | (refine keeps_of_some_pair' (by with_reducible assumption) ?_)
    | lift_lets
    | dsimp only

theorem State.freqChangeDie_keeps {r : State} (s : State) (t : Nat) (d : Nat) (h : r.Keeps s) :
    r.Keeps (State.freqChangeDie s t d) := by
  unfold State.freqChangeDie
  repeat' first
    | with_reducible assumption
    | with_reducible apply keeps_next
    | with_reducible apply keeps_some_pair
    | with_reducible apply keeps_some
    | with_reducible exact keeps_none
    | with_reducible exact keeps_none_pair
    | with_reducible apply State.deferFreq_keeps
    | with_reducible apply State.rebaseClocks_keeps
    | with_reducible apply State.setFlag_keeps
    | with_reducible apply State.setFld_keeps
    | simp -zeta -zetaUnused -zetaHave -proj only [keeps_mk, keeps_mk_fst, keeps_mk_snd]
    | with_reducible apply keeps_core
    | with_reducible apply keeps_free
    | with_reducible apply keeps_foldl
    | with_reducible apply keeps_foldl_fst
    | with_reducible apply keeps_foldl_snd
    | (intro x; refine (have hx : State.Keeps r x := ?_; ?_); unfold x; rotate_left; clear_value x; rotate_left)
    | (intro x; have hm : MemSt.hbm x = MemSt.hbm x := rfl; clear hm)
    | (intro x; have hm : HostSt.mem x = HostSt.mem x := rfl; clear hm)
    | (intro x; clear_value x)
    | intro x
    | split
    | (refine keeps_fst (by with_reducible assumption) ?_)
    | (refine keeps_snd (by with_reducible assumption) ?_)
    | (refine keeps_of_some (by with_reducible assumption) ?_)
    | (refine keeps_of_some_pair (by with_reducible assumption) ?_)
    | (refine keeps_of_some_pair' (by with_reducible assumption) ?_)
    | lift_lets
    | dsimp only

theorem execFreqChange_keeps {r : State} (s : State) (h : r.Keeps s) :
    KeepsOut r (execFreqChange s) := by
  unfold execFreqChange
  with_reducible
    repeat' first
      | assumption | apply keeps_next | simp -zeta -zetaUnused -zetaHave -proj only [keeps_mk] | apply keeps_core
      | (intro x; refine (have hx : State.Keeps r x := ?_; ?_); unfold x; rotate_left; clear_value x; rotate_left) | (intro x; clear_value x)
      | intro x | split | lift_lets | dsimp only

theorem State.settleFreq_keeps {r : State} (s : State) (h : r.Keeps s) :
    r.Keeps (State.settleFreq s) := by
  unfold State.settleFreq
  with_reducible
    repeat' first
      | assumption | apply State.accrue_keeps | apply State.freqChangeDie_keeps | simp -zeta -zetaUnused -zetaHave -proj only [keeps_mk, keeps_mk_fst]
      | apply keeps_core | apply keeps_foldl | apply keeps_foldl_fst | apply keeps_foldl_snd
      | (intro x; refine (have hx : State.Keeps r x := ?_; ?_); unfold x; rotate_left; clear_value x; rotate_left) | (intro x; clear_value x)
      | intro x | split | lift_lets | dsimp only

theorem execAvsConfirm_keeps {r : State} (die : Nat) (s : State) (h : r.Keeps s) :
    KeepsOut r (execAvsConfirm die s) := by
  unfold execAvsConfirm
  repeat' first
    | with_reducible assumption
    | with_reducible apply keeps_next
    | with_reducible apply keeps_some_pair
    | with_reducible apply keeps_some
    | with_reducible exact keeps_none
    | with_reducible exact keeps_none_pair
    | simp -zeta -zetaUnused -zetaHave -proj only [keeps_mk, keeps_mk_fst, keeps_mk_snd]
    | with_reducible apply keeps_core
    | with_reducible apply keeps_free
    | with_reducible apply keeps_foldl
    | with_reducible apply keeps_foldl_fst
    | with_reducible apply keeps_foldl_snd
    | (intro x; refine (have hx : State.Keeps r x := ?_; ?_); unfold x; rotate_left; clear_value x; rotate_left)
    | (intro x; have hm : MemSt.hbm x = MemSt.hbm x := rfl; clear hm)
    | (intro x; have hm : HostSt.mem x = HostSt.mem x := rfl; clear hm)
    | (intro x; clear_value x)
    | intro x
    | split
    | (refine keeps_fst (by with_reducible assumption) ?_)
    | (refine keeps_snd (by with_reducible assumption) ?_)
    | (refine keeps_of_some (by with_reducible assumption) ?_)
    | (refine keeps_of_some_pair (by with_reducible assumption) ?_)
    | (refine keeps_of_some_pair' (by with_reducible assumption) ?_)
    | lift_lets
    | dsimp only

theorem execVoltRaiseTimeout_keeps {r : State} (die : Nat) (s : State) (h : r.Keeps s) :
    KeepsOut r (execVoltRaiseTimeout die s) := by
  unfold execVoltRaiseTimeout
  repeat' first
    | with_reducible assumption
    | with_reducible apply keeps_next
    | with_reducible apply keeps_some_pair
    | with_reducible apply keeps_some
    | with_reducible exact keeps_none
    | with_reducible exact keeps_none_pair
    | with_reducible apply State.setFlag_keeps
    | with_reducible apply State.setVolt_keeps
    | with_reducible apply State.emit_keeps
    | simp -zeta -zetaUnused -zetaHave -proj only [keeps_mk, keeps_mk_fst, keeps_mk_snd]
    | with_reducible apply keeps_core
    | with_reducible apply keeps_free
    | with_reducible apply keeps_foldl
    | with_reducible apply keeps_foldl_fst
    | with_reducible apply keeps_foldl_snd
    | (intro x; refine (have hx : State.Keeps r x := ?_; ?_); unfold x; rotate_left; clear_value x; rotate_left)
    | (intro x; have hm : MemSt.hbm x = MemSt.hbm x := rfl; clear hm)
    | (intro x; have hm : HostSt.mem x = HostSt.mem x := rfl; clear hm)
    | (intro x; clear_value x)
    | intro x
    | split
    | (refine keeps_fst (by with_reducible assumption) ?_)
    | (refine keeps_snd (by with_reducible assumption) ?_)
    | (refine keeps_of_some (by with_reducible assumption) ?_)
    | (refine keeps_of_some_pair (by with_reducible assumption) ?_)
    | (refine keeps_of_some_pair' (by with_reducible assumption) ?_)
    | lift_lets
    | dsimp only

theorem State.estimate_keeps {r : State} (s : State) (counts : List (Nat × Nat × Nat)) (h : r.Keeps s) :
    r.Keeps (State.estimate s counts) := by
  unfold State.estimate
  repeat' first
    | with_reducible assumption
    | with_reducible apply keeps_next
    | with_reducible apply keeps_some_pair
    | with_reducible apply keeps_some
    | with_reducible exact keeps_none
    | with_reducible exact keeps_none_pair
    | with_reducible apply State.setFld_keeps
    | simp -zeta -zetaUnused -zetaHave -proj only [keeps_mk, keeps_mk_fst, keeps_mk_snd]
    | with_reducible apply keeps_core
    | with_reducible apply keeps_free
    | with_reducible apply keeps_foldl
    | with_reducible apply keeps_foldl_fst
    | with_reducible apply keeps_foldl_snd
    | (intro x; refine (have hx : State.Keeps r x := ?_; ?_); unfold x; rotate_left; clear_value x; rotate_left)
    | (intro x; have hm : MemSt.hbm x = MemSt.hbm x := rfl; clear hm)
    | (intro x; have hm : HostSt.mem x = HostSt.mem x := rfl; clear hm)
    | (intro x; clear_value x)
    | intro x
    | split
    | (refine keeps_fst (by with_reducible assumption) ?_)
    | (refine keeps_snd (by with_reducible assumption) ?_)
    | (refine keeps_of_some (by with_reducible assumption) ?_)
    | (refine keeps_of_some_pair (by with_reducible assumption) ?_)
    | (refine keeps_of_some_pair' (by with_reducible assumption) ?_)
    | lift_lets
    | dsimp only

theorem State.powerFraction_keeps {r : State} (s : State) (h : r.Keeps s) :
    KeepsSnd r (State.powerFraction s) := by
  unfold State.powerFraction
  repeat' first
    | with_reducible assumption
    | with_reducible apply keeps_next
    | with_reducible apply keeps_some_pair
    | with_reducible apply keeps_some
    | with_reducible exact keeps_none
    | with_reducible exact keeps_none_pair
    | with_reducible apply State.nextFree_keeps
    | with_reducible refine (State.nextFree_keeps _ ?_).out
    | simp -zeta -zetaUnused -zetaHave -proj only [keeps_mk, keeps_mk_fst, keeps_mk_snd]
    | with_reducible apply keeps_core
    | with_reducible apply keeps_free
    | with_reducible apply keeps_foldl
    | with_reducible apply keeps_foldl_fst
    | with_reducible apply keeps_foldl_snd
    | (intro x; refine (have hx : State.Keeps r x := ?_; ?_); unfold x; rotate_left; clear_value x; rotate_left)
    | (intro x; have hm : MemSt.hbm x = MemSt.hbm x := rfl; clear hm)
    | (intro x; have hm : HostSt.mem x = HostSt.mem x := rfl; clear hm)
    | (intro x; clear_value x)
    | intro x
    | split
    | (refine keeps_fst (by with_reducible assumption) ?_)
    | (refine keeps_snd (by with_reducible assumption) ?_)
    | (refine keeps_of_some (by with_reducible assumption) ?_)
    | (refine keeps_of_some_pair (by with_reducible assumption) ?_)
    | (refine keeps_of_some_pair' (by with_reducible assumption) ?_)
    | lift_lets
    | dsimp only

theorem State.setBubble_keeps {r : State} (s : State) (h : r.Keeps s) :
    r.Keeps (State.setBubble s) := by
  unfold State.setBubble
  repeat' first
    | with_reducible assumption
    | with_reducible apply keeps_next
    | with_reducible apply keeps_some_pair
    | with_reducible apply keeps_some
    | with_reducible exact keeps_none
    | with_reducible exact keeps_none_pair
    | with_reducible apply State.accrue_keeps
    | with_reducible apply State.powerFraction_keeps
    | with_reducible apply State.setFld_keeps
    | with_reducible refine (State.powerFraction_keeps _ ?_).out
    | simp -zeta -zetaUnused -zetaHave -proj only [keeps_mk, keeps_mk_fst, keeps_mk_snd]
    | with_reducible apply keeps_core
    | with_reducible apply keeps_free
    | with_reducible apply keeps_foldl
    | with_reducible apply keeps_foldl_fst
    | with_reducible apply keeps_foldl_snd
    | (intro x; refine (have hx : State.Keeps r x := ?_; ?_); unfold x; rotate_left; clear_value x; rotate_left)
    | (intro x; have hm : MemSt.hbm x = MemSt.hbm x := rfl; clear hm)
    | (intro x; have hm : HostSt.mem x = HostSt.mem x := rfl; clear hm)
    | (intro x; clear_value x)
    | intro x
    | split
    | (refine keeps_fst (by with_reducible assumption) ?_)
    | (refine keeps_snd (by with_reducible assumption) ?_)
    | (refine keeps_of_some (by with_reducible assumption) ?_)
    | (refine keeps_of_some_pair (by with_reducible assumption) ?_)
    | (refine keeps_of_some_pair' (by with_reducible assumption) ?_)
    | lift_lets
    | dsimp only

theorem State.thermDie_keeps {r : State} (s : State) (d : Nat) (h : r.Keeps s) :
    r.Keeps (State.thermDie s d) := by
  unfold State.thermDie
  repeat' first
    | with_reducible assumption
    | with_reducible apply keeps_next
    | with_reducible apply keeps_some_pair
    | with_reducible apply keeps_some
    | with_reducible exact keeps_none
    | with_reducible exact keeps_none_pair
    | with_reducible apply State.setFlag_keeps
    | simp -zeta -zetaUnused -zetaHave -proj only [keeps_mk, keeps_mk_fst, keeps_mk_snd]
    | with_reducible apply keeps_core
    | with_reducible apply keeps_free
    | with_reducible apply keeps_foldl
    | with_reducible apply keeps_foldl_fst
    | with_reducible apply keeps_foldl_snd
    | (intro x; refine (have hx : State.Keeps r x := ?_; ?_); unfold x; rotate_left; clear_value x; rotate_left)
    | (intro x; have hm : MemSt.hbm x = MemSt.hbm x := rfl; clear hm)
    | (intro x; have hm : HostSt.mem x = HostSt.mem x := rfl; clear hm)
    | (intro x; clear_value x)
    | intro x
    | split
    | (refine keeps_fst (by with_reducible assumption) ?_)
    | (refine keeps_snd (by with_reducible assumption) ?_)
    | (refine keeps_of_some (by with_reducible assumption) ?_)
    | (refine keeps_of_some_pair (by with_reducible assumption) ?_)
    | (refine keeps_of_some_pair' (by with_reducible assumption) ?_)
    | lift_lets
    | dsimp only

theorem State.settleVolt_keeps {r : State} (s : State) (d : Nat) (h : r.Keeps s) :
    r.Keeps (State.settleVolt s d) := by
  unfold State.settleVolt
  repeat' first
    | with_reducible assumption
    | with_reducible apply keeps_next
    | with_reducible apply keeps_some_pair
    | with_reducible apply keeps_some
    | with_reducible exact keeps_none
    | with_reducible exact keeps_none_pair
    | with_reducible apply State.setVolt_keeps
    | simp -zeta -zetaUnused -zetaHave -proj only [keeps_mk, keeps_mk_fst, keeps_mk_snd]
    | with_reducible apply keeps_core
    | with_reducible apply keeps_free
    | with_reducible apply keeps_foldl
    | with_reducible apply keeps_foldl_fst
    | with_reducible apply keeps_foldl_snd
    | (intro x; refine (have hx : State.Keeps r x := ?_; ?_); unfold x; rotate_left; clear_value x; rotate_left)
    | (intro x; have hm : MemSt.hbm x = MemSt.hbm x := rfl; clear hm)
    | (intro x; have hm : HostSt.mem x = HostSt.mem x := rfl; clear hm)
    | (intro x; clear_value x)
    | intro x
    | split
    | (refine keeps_fst (by with_reducible assumption) ?_)
    | (refine keeps_snd (by with_reducible assumption) ?_)
    | (refine keeps_of_some (by with_reducible assumption) ?_)
    | (refine keeps_of_some_pair (by with_reducible assumption) ?_)
    | (refine keeps_of_some_pair' (by with_reducible assumption) ?_)
    | lift_lets
    | dsimp only

theorem State.frameMean_keeps {r : State} (s : State) (h : r.Keeps s) :
    r.Keeps (State.frameMean s) := by
  unfold State.frameMean
  with_reducible
    repeat' first
      | assumption | apply State.setFld_keeps | simp -zeta -zetaUnused -zetaHave -proj only [keeps_mk] | apply keeps_core
      | (intro x; refine (have hx : State.Keeps r x := ?_; ?_); unfold x; rotate_left; clear_value x; rotate_left) | (intro x; clear_value x)
      | intro x | split | lift_lets | dsimp only

theorem execPowerWindow_keeps {r : State} (counts : List (Nat × Nat × Nat)) (s : State) (h : r.Keeps s) : KeepsOut r (execPowerWindow counts s) := by
  have k : r.Keeps ((List.range 8).foldl (fun s d => (s.thermDie d).settleVolt d) (s.accrue.estimate counts).setBubble) :=
    keeps_foldl (State.setBubble_keeps _ (State.estimate_keeps _ _ (State.accrue_keeps _ h))) fun _ _ hx => State.settleVolt_keeps _ _ (State.thermDie_keeps _ _ hx)
  have e : ∀ x : State, r.Keeps x → KeepsOut r (.next { x with pwr := { x.pwr with winStart := x.now } }) := fun x hx => keeps_next (keeps_mk.mpr (keeps_core hx))
  have e1 : ∀ x : State, r.Keeps x → r.Keeps (if x.pwr.capAt = x.now then x.frameMean else x) := by
    intro x hx
    split
    · exact State.frameMean_keeps _ hx
    · exact hx
  have e2 : ∀ x : State, r.Keeps x → r.Keeps (match x.pwr.brakeHigh with
    | some h => if h < x.pwr.winStart then
        ({ x with pwr := { x.pwr with brakeHigh := none } }).setFlag RF.PWR_STAT_BRAKE false else x
    | none => x) := by
    intro x hx
    split
    · split
      · exact State.setFlag_keeps _ _ _ (keeps_mk.mpr (keeps_core hx))
      · exact hx
    · exact hx
  unfold execPowerWindow
  generalize (_ || _ : Bool) = ends
  show KeepsOut r (if s.flag RF.PWR_STAT_RUNNING && s.alive && ends then _ else .next s)
  split
  · exact e _ (e2 _ (e1 _ k))
  · exact keeps_next h

theorem execPowerCapUpdate_keeps {r : State} (s : State) (h : r.Keeps s) :
    KeepsOut r (execPowerCapUpdate s) := by
  unfold execPowerCapUpdate
  with_reducible
    repeat' first
      | assumption | apply keeps_next | apply State.setFld_keeps | apply State.setBubble_keeps | apply State.setFlag_keeps
      | apply State.frameMean_keeps | simp -zeta -zetaUnused -zetaHave -proj only [keeps_mk] | apply keeps_core
      | (intro x; refine (have hx : State.Keeps r x := ?_; ?_); unfold x; rotate_left; clear_value x; rotate_left) | (intro x; clear_value x)
      | intro x | split | lift_lets | dsimp only

theorem execDroopDetect_keeps {r : State} (die : Nat) (s : State) (h : r.Keeps s) :
    KeepsOut r (execDroopDetect die s) := by
  unfold execDroopDetect
  with_reducible
    repeat' first
      | assumption | apply keeps_next | apply State.accrue_keeps | apply State.bump_keeps | apply State.setFlag_keeps | apply State.rebaseClocks_keeps
      | apply State.deferFreq_keeps | apply State.setFld_keeps | simp -zeta -zetaUnused -zetaHave -proj only [keeps_mk] | apply keeps_core
      | (intro x; refine (have hx : State.Keeps r x := ?_; ?_); unfold x; rotate_left; clear_value x; rotate_left) | (intro x; clear_value x)
      | intro x | split | lift_lets | dsimp only

theorem execDroopResponseEnd_keeps {r : State} (die : Nat) (s : State) (h : r.Keeps s) :
    KeepsOut r (execDroopResponseEnd die s) := by
  unfold execDroopResponseEnd
  repeat' first
    | with_reducible assumption
    | with_reducible apply keeps_next
    | with_reducible apply keeps_some_pair
    | with_reducible apply keeps_some
    | with_reducible exact keeps_none
    | with_reducible exact keeps_none_pair
    | with_reducible apply State.setFlag_keeps
    | with_reducible apply State.accrue_keeps
    | simp -zeta -zetaUnused -zetaHave -proj only [keeps_mk, keeps_mk_fst, keeps_mk_snd]
    | with_reducible apply keeps_core
    | with_reducible apply keeps_free
    | with_reducible apply keeps_foldl
    | with_reducible apply keeps_foldl_fst
    | with_reducible apply keeps_foldl_snd
    | (intro x; refine (have hx : State.Keeps r x := ?_; ?_); unfold x; rotate_left; clear_value x; rotate_left)
    | (intro x; have hm : MemSt.hbm x = MemSt.hbm x := rfl; clear hm)
    | (intro x; have hm : HostSt.mem x = HostSt.mem x := rfl; clear hm)
    | (intro x; clear_value x)
    | intro x
    | split
    | (refine keeps_fst (by with_reducible assumption) ?_)
    | (refine keeps_snd (by with_reducible assumption) ?_)
    | (refine keeps_of_some (by with_reducible assumption) ?_)
    | (refine keeps_of_some_pair (by with_reducible assumption) ?_)
    | (refine keeps_of_some_pair' (by with_reducible assumption) ?_)
    | lift_lets
    | dsimp only

theorem State.trip_keeps {r : State} (s : State) (place : Nat) (sensor : Nat) (t : Nat) (h : r.Keeps s) :
    r.Keeps (State.trip s place sensor t) := by
  unfold State.trip
  repeat' first
    | with_reducible assumption
    | with_reducible apply keeps_next
    | with_reducible apply keeps_some_pair
    | with_reducible apply keeps_some
    | with_reducible exact keeps_none
    | with_reducible exact keeps_none_pair
    | with_reducible apply State.bbEnter_keeps
    | simp -zeta -zetaUnused -zetaHave -proj only [keeps_mk, keeps_mk_fst, keeps_mk_snd]
    | with_reducible apply keeps_core
    | with_reducible apply keeps_free
    | with_reducible apply keeps_foldl
    | with_reducible apply keeps_foldl_fst
    | with_reducible apply keeps_foldl_snd
    | (intro x; refine (have hx : State.Keeps r x := ?_; ?_); unfold x; rotate_left; clear_value x; rotate_left)
    | (intro x; have hm : MemSt.hbm x = MemSt.hbm x := rfl; clear hm)
    | (intro x; have hm : HostSt.mem x = HostSt.mem x := rfl; clear hm)
    | (intro x; clear_value x)
    | intro x
    | split
    | (refine keeps_fst (by with_reducible assumption) ?_)
    | (refine keeps_snd (by with_reducible assumption) ?_)
    | (refine keeps_of_some (by with_reducible assumption) ?_)
    | (refine keeps_of_some_pair (by with_reducible assumption) ?_)
    | (refine keeps_of_some_pair' (by with_reducible assumption) ?_)
    | lift_lets
    | dsimp only

theorem State.sampleDie_keeps {r : State} (s : State) (rs : List (Nat × Nat × Nat)) (d : Nat) (h : r.Keeps s) :
    r.Keeps (State.sampleDie s rs d) := by
  unfold State.sampleDie
  repeat' first
    | with_reducible assumption
    | with_reducible apply keeps_next
    | with_reducible apply keeps_some_pair
    | with_reducible apply keeps_some
    | with_reducible exact keeps_none
    | with_reducible exact keeps_none_pair
    | with_reducible apply State.setFld_keeps
    | with_reducible apply State.emit_keeps
    | with_reducible apply State.trip_keeps
    | simp -zeta -zetaUnused -zetaHave -proj only [keeps_mk, keeps_mk_fst, keeps_mk_snd]
    | with_reducible apply keeps_core
    | with_reducible apply keeps_free
    | with_reducible apply keeps_foldl
    | with_reducible apply keeps_foldl_fst
    | with_reducible apply keeps_foldl_snd
    | (intro x; refine (have hx : State.Keeps r x := ?_; ?_); unfold x; rotate_left; clear_value x; rotate_left)
    | (intro x; have hm : MemSt.hbm x = MemSt.hbm x := rfl; clear hm)
    | (intro x; have hm : HostSt.mem x = HostSt.mem x := rfl; clear hm)
    | (intro x; clear_value x)
    | intro x
    | split
    | (refine keeps_fst (by with_reducible assumption) ?_)
    | (refine keeps_snd (by with_reducible assumption) ?_)
    | (refine keeps_of_some (by with_reducible assumption) ?_)
    | (refine keeps_of_some_pair (by with_reducible assumption) ?_)
    | (refine keeps_of_some_pair' (by with_reducible assumption) ?_)
    | lift_lets
    | dsimp only

theorem State.sampleStack_keeps {r : State} (s : State) (rs : List (Nat × Nat × Nat)) (k : Nat) (h : r.Keeps s) :
    r.Keeps (State.sampleStack s rs k) := by
  unfold State.sampleStack
  repeat' first
    | with_reducible assumption
    | with_reducible apply keeps_next
    | with_reducible apply keeps_some_pair
    | with_reducible apply keeps_some
    | with_reducible exact keeps_none
    | with_reducible exact keeps_none_pair
    | with_reducible apply State.setFld_keeps
    | with_reducible apply State.emit_keeps
    | with_reducible apply State.setFlag_keeps
    | with_reducible apply State.trip_keeps
    | simp -zeta -zetaUnused -zetaHave -proj only [keeps_mk, keeps_mk_fst, keeps_mk_snd]
    | with_reducible apply keeps_core
    | with_reducible apply keeps_free
    | with_reducible apply keeps_foldl
    | with_reducible apply keeps_foldl_fst
    | with_reducible apply keeps_foldl_snd
    | (intro x; refine (have hx : State.Keeps r x := ?_; ?_); unfold x; rotate_left; clear_value x; rotate_left)
    | (intro x; have hm : MemSt.hbm x = MemSt.hbm x := rfl; clear hm)
    | (intro x; have hm : HostSt.mem x = HostSt.mem x := rfl; clear hm)
    | (intro x; clear_value x)
    | intro x
    | split
    | (refine keeps_fst (by with_reducible assumption) ?_)
    | (refine keeps_snd (by with_reducible assumption) ?_)
    | (refine keeps_of_some (by with_reducible assumption) ?_)
    | (refine keeps_of_some_pair (by with_reducible assumption) ?_)
    | (refine keeps_of_some_pair' (by with_reducible assumption) ?_)
    | lift_lets
    | dsimp only

theorem execThermalSample_keeps {r : State} (readings : List (Nat × Nat × Nat)) (s : State) (h : r.Keeps s) :
    KeepsOut r (execThermalSample readings s) := by
  unfold execThermalSample
  repeat' first
    | with_reducible assumption
    | with_reducible apply keeps_next
    | with_reducible apply keeps_some_pair
    | with_reducible apply keeps_some
    | with_reducible exact keeps_none
    | with_reducible exact keeps_none_pair
    | with_reducible apply State.sampleDie_keeps
    | with_reducible apply State.sampleStack_keeps
    | simp -zeta -zetaUnused -zetaHave -proj only [keeps_mk, keeps_mk_fst, keeps_mk_snd]
    | with_reducible apply keeps_core
    | with_reducible apply keeps_free
    | with_reducible apply keeps_foldl
    | with_reducible apply keeps_foldl_fst
    | with_reducible apply keeps_foldl_snd
    | (intro x; refine (have hx : State.Keeps r x := ?_; ?_); unfold x; rotate_left; clear_value x; rotate_left)
    | (intro x; have hm : MemSt.hbm x = MemSt.hbm x := rfl; clear hm)
    | (intro x; have hm : HostSt.mem x = HostSt.mem x := rfl; clear hm)
    | (intro x; clear_value x)
    | intro x
    | split
    | (refine keeps_fst (by with_reducible assumption) ?_)
    | (refine keeps_snd (by with_reducible assumption) ?_)
    | (refine keeps_of_some (by with_reducible assumption) ?_)
    | (refine keeps_of_some_pair (by with_reducible assumption) ?_)
    | (refine keeps_of_some_pair' (by with_reducible assumption) ?_)
    | lift_lets
    | dsimp only

theorem State.brakeOn_keeps {r : State} (s : State) (h : r.Keeps s) :
    r.Keeps (State.brakeOn s) := by
  unfold State.brakeOn
  repeat' first
    | with_reducible assumption
    | with_reducible apply keeps_next
    | with_reducible apply keeps_some_pair
    | with_reducible apply keeps_some
    | with_reducible exact keeps_none
    | with_reducible exact keeps_none_pair
    | with_reducible apply State.accrue_keeps
    | with_reducible apply State.bump_keeps
    | with_reducible apply State.setFlag_keeps
    | with_reducible apply State.emit_keeps
    | simp -zeta -zetaUnused -zetaHave -proj only [keeps_mk, keeps_mk_fst, keeps_mk_snd]
    | with_reducible apply keeps_core
    | with_reducible apply keeps_free
    | with_reducible apply keeps_foldl
    | with_reducible apply keeps_foldl_fst
    | with_reducible apply keeps_foldl_snd
    | (intro x; refine (have hx : State.Keeps r x := ?_; ?_); unfold x; rotate_left; clear_value x; rotate_left)
    | (intro x; have hm : MemSt.hbm x = MemSt.hbm x := rfl; clear hm)
    | (intro x; have hm : HostSt.mem x = HostSt.mem x := rfl; clear hm)
    | (intro x; clear_value x)
    | intro x
    | split
    | (refine keeps_fst (by with_reducible assumption) ?_)
    | (refine keeps_snd (by with_reducible assumption) ?_)
    | (refine keeps_of_some (by with_reducible assumption) ?_)
    | (refine keeps_of_some_pair (by with_reducible assumption) ?_)
    | (refine keeps_of_some_pair' (by with_reducible assumption) ?_)
    | lift_lets
    | dsimp only

theorem execPwrBrakeAssert_keeps {r : State} (s : State) (h : r.Keeps s) :
    KeepsOut r (execPwrBrakeAssert s) := by
  unfold execPwrBrakeAssert
  repeat' first
    | with_reducible assumption
    | with_reducible apply keeps_next
    | with_reducible apply keeps_some_pair
    | with_reducible apply keeps_some
    | with_reducible exact keeps_none
    | with_reducible exact keeps_none_pair
    | with_reducible apply State.brakeOn_keeps
    | simp -zeta -zetaUnused -zetaHave -proj only [keeps_mk, keeps_mk_fst, keeps_mk_snd]
    | with_reducible apply keeps_core
    | with_reducible apply keeps_free
    | with_reducible apply keeps_foldl
    | with_reducible apply keeps_foldl_fst
    | with_reducible apply keeps_foldl_snd
    | (intro x; refine (have hx : State.Keeps r x := ?_; ?_); unfold x; rotate_left; clear_value x; rotate_left)
    | (intro x; have hm : MemSt.hbm x = MemSt.hbm x := rfl; clear hm)
    | (intro x; have hm : HostSt.mem x = HostSt.mem x := rfl; clear hm)
    | (intro x; clear_value x)
    | intro x
    | split
    | (refine keeps_fst (by with_reducible assumption) ?_)
    | (refine keeps_snd (by with_reducible assumption) ?_)
    | (refine keeps_of_some (by with_reducible assumption) ?_)
    | (refine keeps_of_some_pair (by with_reducible assumption) ?_)
    | (refine keeps_of_some_pair' (by with_reducible assumption) ?_)
    | lift_lets
    | dsimp only

theorem execPwrBrakeDeassert_keeps {r : State} (s : State) (h : r.Keeps s) :
    KeepsOut r (execPwrBrakeDeassert s) := by
  unfold execPwrBrakeDeassert
  repeat' first
    | with_reducible assumption
    | with_reducible apply keeps_next
    | with_reducible apply keeps_some_pair
    | with_reducible apply keeps_some
    | with_reducible exact keeps_none
    | with_reducible exact keeps_none_pair
    | simp -zeta -zetaUnused -zetaHave -proj only [keeps_mk, keeps_mk_fst, keeps_mk_snd]
    | with_reducible apply keeps_core
    | with_reducible apply keeps_free
    | with_reducible apply keeps_foldl
    | with_reducible apply keeps_foldl_fst
    | with_reducible apply keeps_foldl_snd
    | (intro x; refine (have hx : State.Keeps r x := ?_; ?_); unfold x; rotate_left; clear_value x; rotate_left)
    | (intro x; have hm : MemSt.hbm x = MemSt.hbm x := rfl; clear hm)
    | (intro x; have hm : HostSt.mem x = HostSt.mem x := rfl; clear hm)
    | (intro x; clear_value x)
    | intro x
    | split
    | (refine keeps_fst (by with_reducible assumption) ?_)
    | (refine keeps_snd (by with_reducible assumption) ?_)
    | (refine keeps_of_some (by with_reducible assumption) ?_)
    | (refine keeps_of_some_pair (by with_reducible assumption) ?_)
    | (refine keeps_of_some_pair' (by with_reducible assumption) ?_)
    | lift_lets
    | dsimp only

end Sys2Proof.Machine
end

