-- ==== Sys2Proof/Laws/KeepsUnits.lean ====
section
/-! SUPPORT. What State.Keeps says, operation by operation: of T-core execution, the host port, the copy engines, coherence, V-core scalar operations and the T-core families. -/

open Sys2Proof
namespace Sys2Proof.Machine

set_option linter.all false

/-! Machine/TExec.lean -/

theorem State.preciseFault_keeps {r : State} (s : State) (core : Nat) (slot : Nat) (code : Nat) (lanes : Nat) (addr : Nat) (d : List Byte) (h : r.Keeps s) :
    r.Keeps (State.preciseFault s core slot code lanes addr d) := by
  unfold State.preciseFault
  with_reducible
    repeat' first
      | assumption | apply State.tfault_keeps | dsimp only

theorem State.tXltFault_keeps {r : State} (s : State) (core : Nat) (slot : Nat) (b : TBlock) (g : TGroup) (reason : Nat) (access : Nat) (va : Nat) (lanes : Nat) (srcId : Nat) (pc : Nat) (h : r.Keeps s) :
    r.Keeps (State.tXltFault s core slot b g reason access va lanes srcId pc) := by
  unfold State.tXltFault
  with_reducible
    repeat' first
      | assumption | apply State.raiseT_keeps | split | dsimp only

theorem State.takeFault_keeps {r : State} (s : State) (f : TFault) (h : r.Keeps s) :
    r.Keeps (State.takeFault s f) := by
  unfold State.takeFault
  with_reducible
    repeat' first
      | assumption | apply State.terminate_keeps | apply State.endProgram_keeps | apply State.holdRec_keeps
      | (intro x; refine (have hx : State.Keeps r x := ?_; ?_); unfold x; rotate_left; clear_value x; rotate_left) | (intro x; clear_value x)
      | intro x | split | lift_lets | dsimp only

theorem State.settleFaults_keeps {r : State} (s : State) (h : r.Keeps s) :
    r.Keeps (State.settleFaults s) := by
  unfold State.settleFaults
  with_reducible
    repeat' first
      | assumption | apply State.takeFault_keeps | simp -zeta -zetaUnused -zetaHave -proj only [keeps_mk, keeps_mk_fst] | apply keeps_core
      | apply keeps_foldl | apply keeps_foldl_fst | apply keeps_foldl_snd
      | (intro x; refine (have hx : State.Keeps r x := ?_; ?_); unfold x; rotate_left; clear_value x; rotate_left) | (intro x; clear_value x)
      | intro x | split | lift_lets | dsimp only

theorem State.issuedOn_keeps {r : State} (s : State) (core : Nat) (h : r.Keeps s) :
    r.Keeps (State.issuedOn s core) := by
  unfold State.issuedOn
  with_reducible
    repeat' first
      | assumption | apply State.bump_keeps | simp -zeta -zetaUnused -zetaHave -proj only [keeps_mk] | apply keeps_core
      | (intro x; refine (have hx : State.Keeps r x := ?_; ?_); unfold x; rotate_left; clear_value x; rotate_left) | (intro x; clear_value x)
      | intro x | lift_lets | dsimp only

theorem State.issue_keeps {r : State} (s : State) (core : Nat) (slot : Nat) (opc : Nat) (w0 : BitVec 64) (f : OpForm) (act : State → TBlock → TGroup → State) (h : r.Keeps s) (hact : ∀ y0 y1 y2, r.Keeps y0 → r.Keeps (act y0 y1 y2)) :
    r.Keeps (State.issue s core slot opc w0 f act) := by
  unfold State.issue
  with_reducible
    repeat' first
      | assumption | apply hact | apply State.tXltFault_keeps | apply State.tfault_keeps | apply State.preciseFault_keeps | apply State.issuedOn_keeps
      | (intro x; refine (have hx : State.Keeps r x := ?_; ?_); unfold x; rotate_left; clear_value x; rotate_left) | (intro x; clear_value x)
      | intro x | split | lift_lets | dsimp only

theorem State.advance_keeps {r : State} (s : State) (core : Nat) (slot : Nat) (words : Nat) (g : TGroup) (h : r.Keeps s) :
    r.Keeps (State.advance s core slot words g) := by
  unfold State.advance
  with_reducible
    repeat' first
      | assumption | apply State.setTgroup_keeps | simp -zeta -zetaUnused -zetaHave -proj only [keeps_mk] | apply keeps_core
      | (intro x; refine (have hx : State.Keeps r x := ?_; ?_); unfold x; rotate_left; clear_value x; rotate_left) | (intro x; clear_value x)
      | intro x | lift_lets | dsimp only

theorem State.lanesOp_keeps {r : State} (s : State) (core : Nat) (slot : Nat) (opc : Nat) (w0 : BitVec 64) (form : OpForm) (f : TBlock → TGroup → Nat → TGroup → TGroup) (h : r.Keeps s) :
    r.Keeps (State.lanesOp s core slot opc w0 form f) := by
  unfold State.lanesOp
  with_reducible
    repeat' first
      | assumption | apply State.issue_keeps | apply State.advance_keeps | simp -zeta -zetaUnused -zetaHave -proj only [keeps_mk_fst]
      | apply keeps_foldl | apply keeps_foldl_fst | apply keeps_foldl_snd | intro x | dsimp only

theorem State.releaseBar_keeps {r : State} (s : State) (core : Nat) (b : TBlock) (bar : Nat) (h : r.Keeps s) :
    r.Keeps (State.releaseBar s core b bar) := by
  unfold State.releaseBar
  with_reducible
    repeat' first
      | assumption | apply State.setTgroup_keeps | simp -zeta -zetaUnused -zetaHave -proj only [keeps_mk, keeps_mk_fst] | apply keeps_core
      | apply keeps_foldl | apply keeps_foldl_fst | apply keeps_foldl_snd
      | (intro x; refine (have hx : State.Keeps r x := ?_; ?_); unfold x; rotate_left; clear_value x; rotate_left) | (intro x; clear_value x)
      | intro x | split | lift_lets | dsimp only

theorem State.settleBars_keeps {r : State} (s : State) (core : Nat) (blk : Nat) (x3 : Nat) (h : r.Keeps s) :
    r.Keeps (State.settleBars s core blk x3) := by
  induction x3 generalizing s core blk with
  | zero =>
    unfold State.settleBars
    with_reducible
      repeat' first
        | assumption | apply State.setTblock_keeps | apply State.releaseBar_keeps | simp -zeta -zetaUnused -zetaHave -proj only [keeps_mk]
        | apply keeps_core | (intro x; refine (have hx : State.Keeps r x := ?_; ?_); unfold x; rotate_left; clear_value x; rotate_left)
        | (intro x; clear_value x) | intro x | split | lift_lets | dsimp only
  | succ k ih =>
    unfold State.settleBars
    with_reducible
      repeat' first
        | assumption | apply ih | apply State.setTblock_keeps | apply State.releaseBar_keeps | simp -zeta -zetaUnused -zetaHave -proj only [keeps_mk]
        | apply keeps_core | (intro x; refine (have hx : State.Keeps r x := ?_; ?_); unfold x; rotate_left; clear_value x; rotate_left)
        | (intro x; clear_value x) | intro x | split | lift_lets | dsimp only

theorem State.tmbWaitDone_keeps {r : State} (s : State) (core : Nat) (slot : Nat) (v : Nat) (h : r.Keeps s) :
    r.Keeps (State.tmbWaitDone s core slot v) := by
  unfold State.tmbWaitDone
  with_reducible
    repeat' first
      | assumption | apply State.setTgroup_keeps | simp -zeta -zetaUnused -zetaHave -proj only [keeps_mk, keeps_mk_fst] | apply keeps_core
      | apply keeps_foldl | apply keeps_foldl_fst | apply keeps_foldl_snd
      | (intro x; refine (have hx : State.Keeps r x := ?_; ?_); unfold x; rotate_left; clear_value x; rotate_left) | (intro x; clear_value x)
      | intro x | split | lift_lets | dsimp only

/-! Machine/HostPort.lean -/

theorem State.stopQueue_keeps {r : State} (s : State) (q : Nat) (code : Nat) (d : List Byte) (h : r.Keeps s) :
    r.Keeps (State.stopQueue s q code d) := by
  unfold State.stopQueue
  with_reducible
    repeat' first
      | assumption | apply State.setFld_keeps | apply State.setFlag_keeps | apply State.emit_keeps
      | (intro x; refine (have hx : State.Keeps r x := ?_; ?_); unfold x; rotate_left; clear_value x; rotate_left) | (intro x; clear_value x)
      | intro x | split | lift_lets | dsimp only

theorem State.ringSqtail_keeps {r : State} (s : State) (fn : Nat) (q : Nat) (value : Nat) (h : r.Keeps s) :
    r.Keeps (State.ringSqtail s fn q value) := by
  unfold State.ringSqtail
  with_reducible
    repeat' first
      | assumption | apply State.stopQueue_keeps | apply State.syncQuiesced_keeps | apply State.setQueue_keeps
      | simp -zeta -zetaUnused -zetaHave -proj only [keeps_mk] | apply keeps_core
      | (intro x; refine (have hx : State.Keeps r x := ?_; ?_); unfold x; rotate_left; clear_value x; rotate_left) | (intro x; clear_value x)
      | intro x | split | lift_lets | dsimp only

theorem State.ringCqhead_keeps {r : State} (s : State) (fn : Nat) (q : Nat) (value : Nat) (h : r.Keeps s) :
    r.Keeps (State.ringCqhead s fn q value) := by
  unfold State.ringCqhead
  with_reducible
    repeat' first
      | assumption | apply State.stopQueue_keeps | apply State.setQueue_keeps | apply State.drainCpls_keeps
      | simp -zeta -zetaUnused -zetaHave -proj only [keeps_mk] | apply keeps_core
      | (intro x; refine (have hx : State.Keeps r x := ?_; ?_); unfold x; rotate_left; clear_value x; rotate_left) | (intro x; clear_value x)
      | intro x | split | lift_lets | dsimp only

theorem execDoorbellSqtail_keeps {r : State} (fn : Nat) (q : Nat) (value : Nat) (s : State) (h : r.Keeps s) :
    KeepsOut r (execDoorbellSqtail fn q value s) := by
  unfold execDoorbellSqtail
  with_reducible
    repeat' first
      | assumption | apply keeps_next | apply State.ringSqtail_keeps | dsimp only

theorem execDoorbellCqhead_keeps {r : State} (fn : Nat) (q : Nat) (value : Nat) (s : State) (h : r.Keeps s) :
    KeepsOut r (execDoorbellCqhead fn q value s) := by
  unfold execDoorbellCqhead
  with_reducible
    repeat' first
      | assumption | apply keeps_next | apply State.ringCqhead_keeps | dsimp only

theorem execQueueEnable_keeps {r : State} (fn : Nat) (q : Nat) (value : Word) (s : State) (h : r.Keeps s) :
    KeepsOut r (execQueueEnable fn q value s) := by
  unfold execQueueEnable
  with_reducible
    repeat' first
      | assumption | apply keeps_next | apply State.setFld_keeps | apply State.setFlag_keeps | apply State.syncQuiesced_keeps
      | apply State.setQueue_keeps | (intro x; refine (have hx : State.Keeps r x := ?_; ?_); unfold x; rotate_left; clear_value x; rotate_left)
      | (intro x; clear_value x) | intro x | split | lift_lets | dsimp only

theorem State.disableQueue_keeps {r : State} (s : State) (q : Nat) (h : r.Keeps s) :
    r.Keeps (State.disableQueue s q) := by
  unfold State.disableQueue
  with_reducible
    repeat' first
      | assumption | apply State.setFlag_keeps | apply State.setQueue_keeps | simp -zeta -zetaUnused -zetaHave -proj only [keeps_mk]
      | apply keeps_core | (intro x; refine (have hx : State.Keeps r x := ?_; ?_); unfold x; rotate_left; clear_value x; rotate_left)
      | (intro x; have hm : HostSt.mem x = HostSt.mem x := rfl; clear hm) | (intro x; clear_value x) | intro x | split | lift_lets | dsimp only

theorem execQueueDisable_keeps {r : State} (fn : Nat) (q : Nat) (value : Word) (s : State) (h : r.Keeps s) :
    KeepsOut r (execQueueDisable fn q value s) := by
  unfold execQueueDisable
  with_reducible
    repeat' first
      | assumption | apply keeps_next | apply State.disableQueue_keeps
      | (intro x; refine (have hx : State.Keeps r x := ?_; ?_); unfold x; rotate_left; clear_value x; rotate_left) | (intro x; clear_value x)
      | intro x | split | lift_lets | dsimp only

theorem State.passSlots_keeps {r : State} (s : State) (q : Nat) (n : Nat) (h : r.Keeps s) :
    r.Keeps (State.passSlots s q n) := by
  unfold State.passSlots
  with_reducible
    repeat' first
      | assumption | apply State.setFld_keeps | dsimp only

theorem State.duplicate_keeps {r : State} (s : State) (q : Nat) (seq : Nat) (tag : Nat) (irq : Bool) (h : r.Keeps s) :
    r.Keeps (State.duplicate s q seq tag irq) := by
  unfold State.duplicate
  with_reducible
    repeat' first
      | assumption | apply State.bump_keeps | apply State.setCmd_keeps | apply State.dueCpl_keeps
      | simp -zeta -zetaUnused -zetaHave -proj only [keeps_mk] | apply keeps_core
      | (intro x; refine (have hx : State.Keeps r x := ?_; ?_); unfold x; rotate_left; clear_value x; rotate_left) | (intro x; clear_value x)
      | intro x | split | lift_lets | dsimp only

theorem execCommandFetch_keeps {r : State} (q : Nat) (data : List Byte) (s : State) (h : r.Keeps s) : KeepsOut r (execCommandFetch q data s) := by
  have h2 : r.Keeps { s.bump64 RF.HIF_H2D_BYTES_COUNT_LO RF.HIF_H2D_BYTES_COUNT_HI data.length with
      host := { (s.bump64 RF.HIF_H2D_BYTES_COUNT_LO RF.HIF_H2D_BYTES_COUNT_HI data.length).host with turn := q } } :=
    keeps_mk.mpr (keeps_core_host (State.bump64_keeps _ _ _ _ h))
  unfold execCommandFetch
  split
  · exact keeps_next h
  · dsimp only at h2 ⊢
    obtain ⟨t, ht⟩ : ∃ t : State, t = { s.bump64 RF.HIF_H2D_BYTES_COUNT_LO RF.HIF_H2D_BYTES_COUNT_HI data.length with
      host := { (s.bump64 RF.HIF_H2D_BYTES_COUNT_LO RF.HIF_H2D_BYTES_COUNT_HI data.length).host with turn := q } } := ⟨_, rfl⟩
    rw [← ht] at h2 ⊢
    clear ht
    split
    · split
      · apply keeps_next
        apply State.syncQuiesced_keeps
        have h3 := State.setFld_keeps _ (RF.HIF_Q_NEXTSEQ_NEXT q) ((t.fld (RF.HIF_Q_NEXTSEQ_NEXT q) + 1) % 2 ^ 32) (State.passSlots_keeps t q (1 + natBits (le data 1 1) 0 3) h2)
        obtain ⟨u, hu⟩ : ∃ u, u = (t.passSlots q (1 + natBits (le data 1 1) 0 3)).setFld (RF.HIF_Q_NEXTSEQ_NEXT q) ((t.fld (RF.HIF_Q_NEXTSEQ_NEXT q) + 1) % 2 ^ 32) := ⟨_, rfl⟩
        rw [← hu] at h3 ⊢
        clear hu
        have h4 : r.Keeps { u with host := { u.host with nextCmd := u.host.nextCmd + 1 } } := keeps_mk.mpr (keeps_core_host h3)
        repeat' first
          | with_reducible assumption
          | with_reducible apply State.failCmd_keeps
          | with_reducible apply State.badCmd_keeps
          | with_reducible apply State.syncActive_keeps
          | with_reducible apply State.setCmd_keeps
          | split
      · split
        · exact keeps_next (State.dueCpl_keeps _ _ _ (State.stopQueue_keeps _ _ _ _ h2))
        · exact keeps_next (State.syncQuiesced_keeps _ (State.duplicate_keeps _ _ _ _ _ (State.passSlots_keeps _ _ _ h2)))
    · exact keeps_next h

theorem execNopCommand_keeps {r : State} (cmd : Nat) (s : State) (h : r.Keeps s) :
    KeepsOut r (execNopCommand cmd s) := by
  unfold execNopCommand
  with_reducible
    repeat' first
      | assumption | apply keeps_next | apply State.complete_keeps | apply State.begin_keeps
      | (intro x; refine (have hx : State.Keeps r x := ?_; ?_); unfold x; rotate_left; clear_value x; rotate_left) | (intro x; clear_value x)
      | intro x | split | lift_lets | dsimp only

theorem State.tmbCommand_keeps {r : State} (s : State) (id : Nat) (op : Nat) (run : State → HostCmd → Nat → Nat → State) (h : r.Keeps s) (hrun : ∀ y0 y1 y2 y3, r.Keeps y0 → r.Keeps (run y0 y1 y2 y3)) :
    r.Keeps (State.tmbCommand s id op run) := by
  unfold State.tmbCommand
  with_reducible
    repeat' first
      | assumption | apply hrun | apply State.failCmd_keeps
      | (intro x; refine (have hx : State.Keeps r x := ?_; ?_); unfold x; rotate_left; clear_value x; rotate_left) | (intro x; clear_value x)
      | intro x | split | lift_lets | dsimp only

theorem execTumblerArrive_keeps {r : State} (cmd : Nat) (s : State) (h : r.Keeps s) :
    KeepsOut r (execTumblerArrive cmd s) := by
  unfold execTumblerArrive
  with_reducible
    repeat' first
      | assumption | apply keeps_next | apply State.tmbCommand_keeps | apply State.tmbArrive_keeps | apply State.complete_keeps
      | apply State.begin_keeps | apply State.failCmd_keeps | refine (State.tmbArrive_keeps _ _ _ ?_).out
      | (intro x; refine (have hx : State.Keeps r x := ?_; ?_); unfold x; rotate_left; clear_value x; rotate_left) | (intro x; clear_value x)
      | intro x | split | refine keeps_fst (by assumption) ?_ | lift_lets | dsimp only

theorem execTumblerPoll_keeps {r : State} (cmd : Nat) (s : State) (h : r.Keeps s) :
    KeepsOut r (execTumblerPoll cmd s) := by
  unfold execTumblerPoll
  with_reducible
    repeat' first
      | assumption | apply keeps_next | apply State.tmbCommand_keeps | apply State.tmbPoll_keeps | apply State.complete_keeps
      | apply State.begin_keeps | refine (State.tmbPoll_keeps _ _ ?_).out
      | (intro x; refine (have hx : State.Keeps r x := ?_; ?_); unfold x; rotate_left; clear_value x; rotate_left) | (intro x; clear_value x)
      | intro x | split | refine keeps_fst (by assumption) ?_ | lift_lets | dsimp only

theorem execTumblerWait_keeps {r : State} (cmd : Nat) (s : State) (h : r.Keeps s) :
    KeepsOut r (execTumblerWait cmd s) := by
  unfold execTumblerWait
  with_reducible
    repeat' first
      | assumption | apply keeps_next | apply State.tmbCommand_keeps | apply State.tmbWait_keeps | apply State.begin_keeps | intro x | dsimp only

theorem execTumblerTake_keeps {r : State} (cmd : Nat) (s : State) (h : r.Keeps s) :
    KeepsOut r (execTumblerTake cmd s) := by
  unfold execTumblerTake
  with_reducible
    repeat' first
      | assumption | apply keeps_next | apply State.tmbCommand_keeps | apply State.tmbTake_keeps | apply State.complete_keeps
      | apply State.begin_keeps | apply State.failCmd_keeps | refine (State.tmbTake_keeps _ _ ?_).out
      | (intro x; refine (have hx : State.Keeps r x := ?_; ?_); unfold x; rotate_left; clear_value x; rotate_left) | (intro x; clear_value x)
      | intro x | split | refine keeps_fst (by assumption) ?_ | lift_lets | dsimp only

theorem execTumblerPut_keeps {r : State} (cmd : Nat) (s : State) (h : r.Keeps s) :
    KeepsOut r (execTumblerPut cmd s) := by
  unfold execTumblerPut
  with_reducible
    repeat' first
      | assumption | apply keeps_next | apply State.tmbCommand_keeps | apply State.tmbPut_keeps | apply State.complete_keeps | apply State.begin_keeps
      | apply State.failCmd_keeps | refine (State.tmbPut_keeps _ _ _ ?_).out
      | (intro x; refine (have hx : State.Keeps r x := ?_; ?_); unfold x; rotate_left; clear_value x; rotate_left) | (intro x; clear_value x)
      | intro x | split | refine keeps_fst (by assumption) ?_ | lift_lets | dsimp only

theorem execTumblerReset_keeps {r : State} (cmd : Nat) (s : State) (h : r.Keeps s) :
    KeepsOut r (execTumblerReset cmd s) := by
  unfold execTumblerReset
  with_reducible
    repeat' first
      | assumption | apply keeps_next | apply State.badCmd_keeps | apply State.tmbCommand_keeps | apply State.complete_keeps | apply State.begin_keeps
      | apply State.tmbReset_keeps | (intro x; refine (have hx : State.Keeps r x := ?_; ?_); unfold x; rotate_left; clear_value x; rotate_left)
      | (intro x; clear_value x) | intro x | split | lift_lets | dsimp only

theorem State.dropNote_keeps {r : State} (s : State) (x : TmbNote) (h : r.Keeps s) :
    r.Keeps (State.dropNote s x) := by
  unfold State.dropNote
  with_reducible
    repeat' first
      | assumption | simp -zeta -zetaUnused -zetaHave -proj only [keeps_mk] | apply keeps_core
      | (intro x; refine (have hx : State.Keeps r x := ?_; ?_); unfold x; rotate_left; clear_value x; rotate_left) | (intro x; clear_value x)
      | intro x | lift_lets | dsimp only

theorem execTumblerWaitTmo_keeps {r : State} (cmd : Nat) (s : State) (h : r.Keeps s) :
    KeepsOut r (execTumblerWaitTmo cmd s) := by
  unfold execTumblerWaitTmo
  with_reducible
    repeat' first
      | assumption | apply keeps_next | apply State.complete_keeps | apply State.withdrawWaits_keeps
      | (intro x; refine (have hx : State.Keeps r x := ?_; ?_); unfold x; rotate_left; clear_value x; rotate_left) | (intro x; clear_value x)
      | intro x | split | lift_lets | dsimp only

theorem State.cmdArrive_keeps {r : State} (s : State) (id : Nat) (c : HostCmd) (en : Bool) (n : Nat) (result : Nat) (h : r.Keeps s) :
    r.Keeps (State.cmdArrive s id c en n result) := by
  unfold State.cmdArrive
  with_reducible
    repeat' first
      | assumption | apply State.tmbArrive_keeps | apply State.complete_keeps | apply State.failCmd_keeps
      | refine (State.tmbArrive_keeps _ _ _ ?_).out
      | (intro x; refine (have hx : State.Keeps r x := ?_; ?_); unfold x; rotate_left; clear_value x; rotate_left) | (intro x; clear_value x)
      | intro x | split | refine keeps_fst (by assumption) ?_ | lift_lets | dsimp only

theorem State.fenceEnd_keeps {r : State} (s : State) (id : Nat) (c : HostCmd) (h : r.Keeps s) :
    r.Keeps (State.fenceEnd s id c) := by
  unfold State.fenceEnd
  with_reducible
    repeat' first
      | assumption | apply State.cmdArrive_keeps | dsimp only

theorem State.flush_keeps {r : State} (s : State) (id : Nat) (h : r.Keeps s) :
    r.Keeps (State.flush s id) := by
  unfold State.flush
  with_reducible
    repeat' first
      | assumption | apply State.bump_keeps | simp -zeta -zetaUnused -zetaHave -proj only [keeps_mk] | apply keeps_core
      | (intro x; refine (have hx : State.Keeps r x := ?_; ?_); unfold x; rotate_left; clear_value x; rotate_left)
      | (intro x; have hm : HostSt.mem x = HostSt.mem x := rfl; clear hm) | (intro x; clear_value x) | intro x | lift_lets | dsimp only

theorem execInline_keeps {r : State} (cmd : Nat) (s : State) (h : r.Keeps s) :
    KeepsOut r (execInline cmd s) := by
  unfold execInline
  with_reducible
    repeat' first
      | assumption | apply keeps_next | apply State.failCmd_keeps | apply State.begin_keeps | apply State.devWrite_keeps | apply State.fenceEnd_keeps | apply State.wroteHost_keeps | apply State.flush_keeps | apply State.complete_keeps
      | refine (State.devWrite_keeps _ _ _ _ _ _ ?_).out
      | (intro x; refine (have hx : State.Keeps r x := ?_; ?_); unfold x; rotate_left; clear_value x; rotate_left) | (intro x; clear_value x)
      | intro x | split | refine keeps_fst (by assumption) ?_ | lift_lets | dsimp only

theorem execFenceCommand_keeps {r : State} (cmd : Nat) (s : State) (h : r.Keeps s) :
    KeepsOut r (execFenceCommand cmd s) := by
  unfold execFenceCommand
  with_reducible
    repeat' first
      | assumption | apply keeps_next | apply State.begin_keeps | apply State.flush_keeps | apply State.setQueue_keeps | apply State.fenceEnd_keeps
      | simp -zeta -zetaUnused -zetaHave -proj only [keeps_mk] | apply keeps_core
      | (intro x; refine (have hx : State.Keeps r x := ?_; ?_); unfold x; rotate_left; clear_value x; rotate_left) | (intro x; clear_value x)
      | intro x | split | lift_lets | dsimp only

theorem execWinOpen_keeps {r : State} (cmd : Nat) (s : State) (h : r.Keeps s) :
    KeepsOut r (execWinOpen cmd s) := by
  unfold execWinOpen
  with_reducible
    repeat' first
      | assumption | apply keeps_next | apply State.failCmd_keeps | apply State.begin_keeps | apply State.complete_keeps
      | simp -zeta -zetaUnused -zetaHave -proj only [keeps_mk] | apply keeps_core
      | (intro x; refine (have hx : State.Keeps r x := ?_; ?_); unfold x; rotate_left; clear_value x; rotate_left) | (intro x; clear_value x)
      | intro x | split | lift_lets | dsimp only

theorem execWinClose_keeps {r : State} (cmd : Nat) (s : State) (h : r.Keeps s) :
    KeepsOut r (execWinClose cmd s) := by
  unfold execWinClose
  with_reducible
    repeat' first
      | assumption | apply keeps_next | apply State.failCmd_keeps | apply State.begin_keeps | apply State.complete_keeps
      | simp -zeta -zetaUnused -zetaHave -proj only [keeps_mk] | apply keeps_core
      | (intro x; refine (have hx : State.Keeps r x := ?_; ?_); unfold x; rotate_left; clear_value x; rotate_left) | (intro x; clear_value x)
      | intro x | split | lift_lets | dsimp only

theorem State.unmaskVectors_keeps {r : State} (s : State) (fn : Nat) (h : r.Keeps s) :
    r.Keeps (State.unmaskVectors s fn) := by
  unfold State.unmaskVectors
  with_reducible
    repeat' first
      | assumption | simp -zeta -zetaUnused -zetaHave -proj only [keeps_mk, keeps_mk_fst] | apply keeps_core | apply keeps_foldl
      | apply keeps_foldl_fst | apply keeps_foldl_snd
      | (intro x; refine (have hx : State.Keeps r x := ?_; ?_); unfold x; rotate_left; clear_value x; rotate_left)
      | (intro x; have hm : HostSt.mem x = HostSt.mem x := rfl; clear hm) | (intro x; clear_value x) | intro x | split | lift_lets | dsimp only

theorem execPcieConfigWrite_keeps {r : State} (fn : Nat) (field : Nat) (value : Nat) (s : State) (h : r.Keeps s) :
    KeepsOut r (execPcieConfigWrite fn field value s) := by
  unfold execPcieConfigWrite
  with_reducible
    repeat' first
      | assumption | apply keeps_next | apply State.setFnSt_keeps | apply State.unmaskVectors_keeps
      | simp -zeta -zetaUnused -zetaHave -proj only [keeps_mk, keeps_mk_fst] | apply keeps_core | apply keeps_foldl | apply keeps_foldl_fst
      | apply keeps_foldl_snd | (intro x; refine (have hx : State.Keeps r x := ?_; ?_); unfold x; rotate_left; clear_value x; rotate_left)
      | (intro x; clear_value x) | intro x | split | lift_lets | dsimp only

theorem execVfFlr_keeps {r : State} (fn : Nat) (s : State) (h : r.Keeps s) :
    KeepsOut r (execVfFlr fn s) := by
  unfold execVfFlr
  with_reducible
    repeat' first
      | assumption | apply keeps_next | apply State.disableQueue_keeps | apply State.setQueue_keeps | apply State.setFld_keeps
      | apply State.syncQuiesced_keeps | apply State.setFnSt_keeps | simp -zeta -zetaUnused -zetaHave -proj only [keeps_mk, keeps_mk_fst]
      | apply keeps_core | apply keeps_foldl | apply keeps_foldl_fst | apply keeps_foldl_snd
      | (intro x; refine (have hx : State.Keeps r x := ?_; ?_); unfold x; rotate_left; clear_value x; rotate_left)
      | (intro x; have hm : HostSt.mem x = HostSt.mem x := rfl; clear hm) | (intro x; clear_value x) | intro x | split | lift_lets | dsimp only

/-! Machine/Copy.lean -/

theorem State.setJob_keeps {r : State} (s : State) (j : CopyJob) (h : r.Keeps s) :
    r.Keeps (State.setJob s j) := by
  unfold State.setJob
  with_reducible
    repeat' first
      | assumption | simp -zeta -zetaUnused -zetaHave -proj only [keeps_mk] | apply keeps_core
      | (intro x; refine (have hx : State.Keeps r x := ?_; ?_); unfold x; rotate_left; clear_value x; rotate_left)
      | (intro x; have hm : HostSt.mem x = HostSt.mem x := rfl; clear hm) | (intro x; clear_value x) | intro x | split | lift_lets | dsimp only

theorem State.syncPlaces_keeps {r : State} (s : State) (e : Nat) (h : r.Keeps s) :
    r.Keeps (State.syncPlaces s e) := by
  unfold State.syncPlaces
  with_reducible
    repeat' first
      | assumption | apply State.setFld_keeps | dsimp only

theorem State.placeCopies_keeps {r : State} (s : State) (e : Nat) (x2 : Nat) (h : r.Keeps s) :
    r.Keeps (State.placeCopies s e x2) := by
  induction x2 generalizing s e with
  | zero =>
    unfold State.placeCopies
    with_reducible
      repeat' first
        | assumption | apply State.syncPlaces_keeps | apply State.setJob_keeps | apply State.tmbWait_keeps
        | simp -zeta -zetaUnused -zetaHave -proj only [keeps_mk] | apply keeps_core
        | (intro x; refine (have hx : State.Keeps r x := ?_; ?_); unfold x; rotate_left; clear_value x; rotate_left) | (intro x; clear_value x)
        | intro x | split | lift_lets | dsimp only
  | succ k ih =>
    unfold State.placeCopies
    with_reducible
      repeat' first
        | assumption | apply ih | apply State.syncPlaces_keeps | apply State.setJob_keeps | apply State.tmbWait_keeps
        | simp -zeta -zetaUnused -zetaHave -proj only [keeps_mk] | apply keeps_core
        | (intro x; refine (have hx : State.Keeps r x := ?_; ?_); unfold x; rotate_left; clear_value x; rotate_left) | (intro x; clear_value x)
        | intro x | split | lift_lets | dsimp only

theorem State.dropJob_keeps {r : State} (s : State) (j : CopyJob) (h : r.Keeps s) :
    r.Keeps (State.dropJob s j) := by
  unfold State.dropJob
  with_reducible
    repeat' first
      | assumption | apply State.syncXlt_keeps | apply State.placeCopies_keeps | apply State.withdrawWaits_keeps
      | simp -zeta -zetaUnused -zetaHave -proj only [keeps_mk] | apply keeps_core
      | (intro x; refine (have hx : State.Keeps r x := ?_; ?_); unfold x; rotate_left; clear_value x; rotate_left)
      | (intro x; have hm : HostSt.mem x = HostSt.mem x := rfl; clear hm) | (intro x; clear_value x) | intro x | lift_lets | dsimp only

theorem State.failCopy_keeps {r : State} (s : State) (j : CopyJob) (code : Nat) (d : Nat → List Byte) (rec_ : Bool) (h : r.Keeps s) :
    r.Keeps (State.failCopy s j code d rec_) := by
  unfold State.failCopy
  with_reducible
    repeat' first
      | assumption | apply State.dropJob_keeps | apply State.bump_keeps | apply State.emit_keeps | apply State.complete_keeps
      | (intro x; refine (have hx : State.Keeps r x := ?_; ?_); unfold x; rotate_left; clear_value x; rotate_left) | (intro x; clear_value x)
      | intro x | split | lift_lets | dsimp only

theorem State.finishCopy_keeps {r : State} (s : State) (j : CopyJob) (h : r.Keeps s) :
    r.Keeps (State.finishCopy s j) := by
  unfold State.finishCopy
  with_reducible
    repeat' first
      | assumption | apply State.dropJob_keeps | apply State.tmbArrive_keeps | apply State.complete_keeps | apply State.bump_keeps
      | apply State.failCopy_keeps | refine (State.tmbArrive_keeps _ _ _ ?_).out
      | (intro x; refine (have hx : State.Keeps r x := ?_; ?_); unfold x; rotate_left; clear_value x; rotate_left) | (intro x; clear_value x)
      | intro x | split | refine keeps_fst (by assumption) ?_ | lift_lets | dsimp only

theorem execCopy_keeps {r : State} (cmd : Nat) (s : State) (h : r.Keeps s) :
    KeepsOut r (execCopy cmd s) := by
  unfold execCopy
  with_reducible
    repeat' first
      | assumption | apply keeps_next | apply State.badCmd_keeps | apply State.failCmd_keeps | apply State.begin_keeps | apply State.placeCopies_keeps
      | simp -zeta -zetaUnused -zetaHave -proj only [keeps_mk] | apply keeps_core
      | (intro x; refine (have hx : State.Keeps r x := ?_; ?_); unfold x; rotate_left; clear_value x; rotate_left)
      | (intro x; have hm : HostSt.mem x = HostSt.mem x := rfl; clear hm) | (intro x; clear_value x) | intro x | split | lift_lets | dsimp only

theorem State.holdCopy_keeps {r : State} (s : State) (j : CopyJob) (c : HostCmd) (va : Nat) (access : Nat) (reason : Nat) (srcId : Nat) (h : r.Keeps s) :
    r.Keeps (State.holdCopy s j c va access reason srcId) := by
  unfold State.holdCopy
  with_reducible
    repeat' first
      | assumption | apply State.setJob_keeps | apply State.emit_keeps | apply State.syncXlt_keeps | apply State.bump_keeps
      | simp -zeta -zetaUnused -zetaHave -proj only [keeps_mk] | apply keeps_core
      | (intro x; refine (have hx : State.Keeps r x := ?_; ?_); unfold x; rotate_left; clear_value x; rotate_left) | (intro x; clear_value x)
      | intro x | lift_lets | dsimp only

theorem execXltResumeGo_keeps {r : State} (token : Nat) (s : State) (h : r.Keeps s) :
    KeepsOut r (execXltResumeGo token s) := by
  unfold execXltResumeGo
  with_reducible
    repeat' first
      | assumption | apply keeps_next | apply State.syncXlt_keeps | apply State.setJob_keeps | simp -zeta -zetaUnused -zetaHave -proj only [keeps_mk]
      | apply keeps_core | (intro x; refine (have hx : State.Keeps r x := ?_; ?_); unfold x; rotate_left; clear_value x; rotate_left)
      | (intro x; clear_value x) | intro x | split | lift_lets | dsimp only

theorem execXltResumeAbort_keeps {r : State} (token : Nat) (s : State) (h : r.Keeps s) :
    KeepsOut r (execXltResumeAbort token s) := by
  unfold execXltResumeAbort
  with_reducible
    repeat' first
      | assumption | apply keeps_next | apply State.failCopy_keeps
      | (intro x; refine (have hx : State.Keeps r x := ?_; ?_); unfold x; rotate_left; clear_value x; rotate_left) | (intro x; clear_value x)
      | intro x | split | lift_lets | dsimp only

theorem execCopyHoldExpire_keeps {r : State} (token : Nat) (s : State) (h : r.Keeps s) :
    KeepsOut r (execCopyHoldExpire token s) := by
  unfold execCopyHoldExpire
  with_reducible
    repeat' first
      | assumption | apply keeps_next | apply State.bump_keeps | apply State.emit_keeps | apply State.failCopy_keeps
      | (intro x; refine (have hx : State.Keeps r x := ?_; ?_); unfold x; rotate_left; clear_value x; rotate_left) | (intro x; clear_value x)
      | intro x | split | lift_lets | dsimp only

theorem State.lookRun_keeps {r : State} (s : State) (q : Requester) (c : HostCmd) (access : Nat) (x4 : List Nat) (h : r.Keeps s) :
    KeepsFst r (State.lookRun s q c access x4) := by
  induction x4 generalizing s q c access with
  | nil =>
    unfold State.lookRun
    with_reducible
      repeat' first
        | assumption | apply State.rcLookup_keeps | refine (State.rcLookup_keeps _ _ _ _ _ ?_).out
        | simp -zeta -zetaUnused -zetaHave -proj only [keeps_mk_fst]
        | (intro x; refine (have hx : State.Keeps r x := ?_; ?_); unfold x; rotate_left; clear_value x; rotate_left) | (intro x; clear_value x)
        | intro x | split | refine keeps_fst (by assumption) ?_ | lift_lets | dsimp only
  | cons y l ih =>
    unfold State.lookRun
    with_reducible
      repeat' first
        | assumption | apply ih | refine (ih _ _ _ _ ?_).out | apply State.rcLookup_keeps | refine (State.rcLookup_keeps _ _ _ _ _ ?_).out
        | simp -zeta -zetaUnused -zetaHave -proj only [keeps_mk_fst]
        | (intro x; refine (have hx : State.Keeps r x := ?_; ?_); unfold x; rotate_left; clear_value x; rotate_left) | (intro x; clear_value x)
        | intro x | split | refine keeps_fst (by assumption) ?_ | lift_lets | dsimp only

theorem State.poisonRun_keeps {r : State} (s : State) (c : HostCmd) (va : Nat) (len : Nat) (h : r.Keeps s) :
    r.Keeps (State.poisonRun s c va len) := by
  unfold State.poisonRun
  with_reducible
    repeat' first
      | assumption | apply State.poisonLine_keeps | simp -zeta -zetaUnused -zetaHave -proj only [keeps_mk_fst] | apply keeps_foldl
      | apply keeps_foldl_fst | apply keeps_foldl_snd
      | (intro x; refine (have hx : State.Keeps r x := ?_; ?_); unfold x; rotate_left; clear_value x; rotate_left) | (intro x; clear_value x)
      | intro x | split | lift_lets | dsimp only

theorem State.reduceRun_keeps {r : State} (s : State) (c : HostCmd) (k : CopyCmd) (x3 : Nat) (x4 : List (List Byte)) (h : r.Keeps s) :
    r.Keeps (State.reduceRun s c k x3 x4) := by
  induction x4 generalizing s c k x3 with
  | nil =>
    unfold State.reduceRun
    with_reducible
      repeat' first
        | assumption | apply State.lineAtomic_keeps | refine (State.lineAtomic_keeps _ _ _ _ _ _ _ ?_).out
        | (intro x; refine (have hx : State.Keeps r x := ?_; ?_); unfold x; rotate_left; clear_value x; rotate_left) | (intro x; clear_value x)
        | intro x | split | refine keeps_fst (by assumption) ?_ | lift_lets | dsimp only
  | cons y l ih =>
    unfold State.reduceRun
    with_reducible
      repeat' first
        | assumption | apply ih | apply State.lineAtomic_keeps | refine (State.lineAtomic_keeps _ _ _ _ _ _ _ ?_).out
        | (intro x; refine (have hx : State.Keeps r x := ?_; ?_); unfold x; rotate_left; clear_value x; rotate_left) | (intro x; clear_value x)
        | intro x | split | refine keeps_fst (by assumption) ?_ | lift_lets | dsimp only

theorem State.sendParts_keeps {r : State} (s : State) (j : CopyJob) (run : Nat × Nat) (qs : List RemReq) (h : r.Keeps s) :
    r.Keeps (State.sendParts s j run qs) := by
  unfold State.sendParts
  with_reducible
    repeat' first
      | assumption | apply State.setJob_keeps | simp -zeta -zetaUnused -zetaHave -proj only [keeps_mk] | apply keeps_core
      | (intro x; refine (have hx : State.Keeps r x := ?_; ?_); unfold x; rotate_left; clear_value x; rotate_left) | (intro x; clear_value x)
      | intro x | lift_lets | dsimp only

theorem State.copyPut_keeps {r : State} (s : State) (j : CopyJob) (c : HostCmd) (k : CopyCmd) (poison : Bool) (x5 : List (Bool × Nat × Nat)) (x6 : List Byte) (h : r.Keeps s) :
    KeepsFst r (State.copyPut s j c k poison x5 x6) := by
  induction x5 generalizing s j c k poison x6 with
  | nil =>
    unfold State.copyPut
    with_reducible
      repeat' first
        | assumption | apply State.hostWrite_keeps | apply State.wroteHost_keeps | apply State.devWrite_keeps | apply State.reduceRun_keeps
        | apply State.poisonRun_keeps | refine (State.devWrite_keeps _ _ _ _ _ _ ?_).out | simp -zeta -zetaUnused -zetaHave -proj only [keeps_mk_fst]
        | (intro x; refine (have hx : State.Keeps r x := ?_; ?_); unfold x; rotate_left; clear_value x; rotate_left) | (intro x; clear_value x)
        | intro x | split | refine keeps_fst (by assumption) ?_ | lift_lets | dsimp only
  | cons y l ih =>
    unfold State.copyPut
    with_reducible
      repeat' first
        | assumption | apply ih | refine (ih _ _ _ _ _ _ ?_).out | apply State.hostWrite_keeps | apply State.wroteHost_keeps | apply State.devWrite_keeps | apply State.reduceRun_keeps
        | apply State.poisonRun_keeps | refine (State.devWrite_keeps _ _ _ _ _ _ ?_).out | simp -zeta -zetaUnused -zetaHave -proj only [keeps_mk_fst]
        | (intro x; refine (have hx : State.Keeps r x := ?_; ?_); unfold x; rotate_left; clear_value x; rotate_left) | (intro x; clear_value x)
        | intro x | split | refine keeps_fst (by assumption) ?_ | lift_lets | dsimp only

theorem State.writeBlock_keeps {r : State} (s : State) (j : CopyJob) (c : HostCmd) (k : CopyCmd) (n : Nat) (bs : List Byte) (scales : List Byte) (poison : Bool) (h : r.Keeps s) :
    r.Keeps (State.writeBlock s j c k n bs scales poison) := by
  unfold State.writeBlock
  with_reducible
    repeat' first
      | assumption | apply State.failCopy_keeps | apply State.copyPut_keeps | apply State.setJob_keeps | apply State.sendParts_keeps
      | refine (State.copyPut_keeps _ _ _ _ _ _ _ ?_).out | simp -zeta -zetaUnused -zetaHave -proj only [keeps_mk] | apply keeps_core
      | (intro x; refine (have hx : State.Keeps r x := ?_; ?_); unfold x; rotate_left; clear_value x; rotate_left)
      | (intro x; have hm : HostSt.mem x = HostSt.mem x := rfl; clear hm) | (intro x; clear_value x) | intro x | split
      | refine keeps_fst (by assumption) ?_ | lift_lets | dsimp only

theorem State.afterBlock_keeps {r : State} (s : State) (j : CopyJob) (k : CopyCmd) (n : Nat) (h : r.Keeps s) :
    r.Keeps (State.afterBlock s j k n) := by
  unfold State.afterBlock
  with_reducible
    repeat' first
      | assumption | apply State.bump64_keeps | apply State.flush_keeps | apply State.setJob_keeps | apply State.finishCopy_keeps
      | apply State.dropJob_keeps | simp -zeta -zetaUnused -zetaHave -proj only [keeps_mk] | apply keeps_core
      | (intro x; refine (have hx : State.Keeps r x := ?_; ?_); unfold x; rotate_left; clear_value x; rotate_left)
      | (intro x; have hm : HostSt.mem x = HostSt.mem x := rfl; clear hm) | (intro x; clear_value x) | intro x | split | lift_lets | dsimp only

theorem State.gather_keeps {r : State} (s : State) (c : HostCmd) (x2 : List (Side × ℕ × ℕ)) (x3 x4 : List Byte) (h : r.Keeps s) :
    KeepsFst r (State.gather s c x2 x3 x4) := by
  induction x2 generalizing s x3 x4 with
  | nil => exact ⟨h⟩
  | cons y l ih =>
    have dev : ∀ a n, KeepsFst r (match s.devRead c.leaf c.ctx 0 a n 4 with
        | (t, .ok b p) => ((t.gather c l x3 x4).1, b ++ (t.gather c l x3 x4).2.1, p || (t.gather c l x3 x4).2.2)
        | (t, _) => t.gather c l x3 x4) := by
      intro a n
      have k := (State.devRead_keeps s c.leaf c.ctx 0 a n 4 h).out
      split
      · next e => exact keeps_mk_fst.mpr (ih _ _ _ (by rw [e] at k; exact k)).out
      · next e => exact ih _ _ _ (by rw [e] at k; exact k)
    obtain ⟨x, a, n⟩ := y
    cases x with
    | bus b => exact keeps_mk_fst.mpr (ih _ _ _ h).out
    | win => exact keeps_mk_fst.mpr (ih _ _ _ h).out
    | _ => exact dev a n

theorem State.copyBlock_keeps {r : State} (s : State) (j : CopyJob) (c : HostCmd) (data : List Byte) (scales : List Byte) (err : Nat) (h : r.Keeps s) :
    r.Keeps (State.copyBlock s j c data scales err) := by
  unfold State.copyBlock
  with_reducible
    repeat' first
      | assumption | apply State.lookRun_keeps | apply State.addMiss_keeps | apply State.setJob_keeps | apply State.holdCopy_keeps
      | apply State.failCopy_keeps | apply State.noteWaits_keeps | apply State.sendParts_keeps | apply State.bump_keeps | apply State.bump64_keeps
      | apply State.gather_keeps | apply State.writeBlock_keeps | apply State.afterBlock_keeps | refine (State.lookRun_keeps _ _ _ _ _ ?_).out
      | refine (State.gather_keeps _ _ _ _ _ ?_).out | simp -zeta -zetaUnused -zetaHave -proj only [keeps_mk, keeps_mk_fst] | apply keeps_core
      | apply keeps_foldl | apply keeps_foldl_fst | apply keeps_foldl_snd
      | (intro x; refine (have hx : State.Keeps r x := ?_; ?_); unfold x; rotate_left; clear_value x; rotate_left) | (intro x; clear_value x)
      | intro x | split | refine keeps_fst (by assumption) ?_ | lift_lets | dsimp only

theorem State.endMove_keeps {r : State} (s : State) (m : Move) (ok : Bool) (h : r.Keeps s) :
    r.Keeps (State.endMove s m ok) := by
  unfold State.endMove
  with_reducible
    repeat' first
      | assumption | apply State.setRange_keeps | apply State.pumpInvals_keeps | simp -zeta -zetaUnused -zetaHave -proj only [keeps_mk]
      | apply keeps_core | (intro x; refine (have hx : State.Keeps r x := ?_; ?_); unfold x; rotate_left; clear_value x; rotate_left)
      | (intro x; have hm : HostSt.mem x = HostSt.mem x := rfl; clear hm) | (intro x; clear_value x) | intro x | split | lift_lets | dsimp only

theorem State.moveBlockOf_keeps {r : State} (s : State) (m : Move) (cmd : Nat) (data : List Byte) (err : Nat) (h : r.Keeps s) :
    r.Keeps (State.moveBlockOf s m cmd data err) := by
  unfold State.moveBlockOf
  with_reducible
    repeat' first
      | assumption | apply State.complete_keeps | apply State.endMove_keeps | apply State.noteWaits_keeps | apply State.bump64_keeps
      | apply State.runWrite_keeps | apply State.bump_keeps | apply State.failCmd_keeps | apply State.runRead_keeps | apply State.wroteHost_keeps
      | apply State.hostWrite_keeps | refine (State.runRead_keeps _ _ _ _ _ ?_).out | simp -zeta -zetaUnused -zetaHave -proj only [keeps_mk]
      | apply keeps_core | (intro x; refine (have hx : State.Keeps r x := ?_; ?_); unfold x; rotate_left; clear_value x; rotate_left)
      | (intro x; refine (have hfn : ∀ y, State.Keeps r y → State.Keeps r (x y) := ?_; ?_); unfold x; rotate_left; clear_value x; rotate_left)
      | (intro x; refine (have hfn : ∀ y z, State.Keeps r y → State.Keeps r (x y z) := ?_; ?_); unfold x; rotate_left; clear_value x; rotate_left)
      | apply hfn | (intro x; clear_value x) | intro x | split | refine keeps_fst (by assumption) ?_ | lift_lets | dsimp only

theorem State.oneBlock_keeps {r : State} (s : State) (cmd : Nat) (data : List Byte) (scales : List Byte) (err : Nat) (h : r.Keeps s) :
    r.Keeps (State.oneBlock s cmd data scales err) := by
  unfold State.oneBlock
  with_reducible
    repeat' first
      | assumption | apply State.moveBlockOf_keeps | apply State.failCopy_keeps | apply State.copyBlock_keeps
      | (intro x; refine (have hx : State.Keeps r x := ?_; ?_); unfold x; rotate_left; clear_value x; rotate_left) | (intro x; clear_value x)
      | intro x | split | lift_lets | dsimp only

theorem execCopyBlock_keeps {r : State} (cmd : Nat) (data : List Byte) (scales : List Byte) (err : Nat) (s : State) (h : r.Keeps s) :
    KeepsOut r (execCopyBlock cmd data scales err s) := by
  unfold execCopyBlock
  with_reducible
    repeat' first
      | assumption | apply keeps_next | apply State.oneBlock_keeps | dsimp only

theorem execCopyWaitTimeout_keeps {r : State} (cmd : Nat) (s : State) (h : r.Keeps s) :
    KeepsOut r (execCopyWaitTimeout cmd s) := by
  unfold execCopyWaitTimeout
  with_reducible
    repeat' first
      | assumption | apply keeps_next | apply State.failCopy_keeps
      | (intro x; refine (have hx : State.Keeps r x := ?_; ?_); unfold x; rotate_left; clear_value x; rotate_left) | (intro x; clear_value x)
      | intro x | split | lift_lets | dsimp only

theorem execHostWaitFired_keeps {r : State} (cmd : Nat) (s : State) (h : r.Keeps s) :
    KeepsOut r (execHostWaitFired cmd s) := by
  unfold execHostWaitFired
  with_reducible
    repeat' first
      | assumption | apply keeps_next | apply State.dropNote_keeps | apply State.setJob_keeps | apply State.complete_keeps
      | apply State.failCopy_keeps | apply State.failCmd_keeps | simp -zeta -zetaUnused -zetaHave -proj only [keeps_mk] | apply keeps_core
      | (intro x; refine (have hx : State.Keeps r x := ?_; ?_); unfold x; rotate_left; clear_value x; rotate_left) | (intro x; clear_value x)
      | intro x | split | lift_lets | dsimp only

theorem execFlushReadComplete_keeps {r : State} (cmd : Nat) (s : State) (h : r.Keeps s) :
    KeepsOut r (execFlushReadComplete cmd s) := by
  unfold execFlushReadComplete
  with_reducible
    repeat' first
      | assumption | apply keeps_next | apply State.setCmd_keeps | apply State.finishCopy_keeps | apply State.fenceEnd_keeps
      | simp -zeta -zetaUnused -zetaHave -proj only [keeps_mk] | apply keeps_core
      | (intro x; refine (have hx : State.Keeps r x := ?_; ?_); unfold x; rotate_left; clear_value x; rotate_left)
      | (intro x; have hm : HostSt.mem x = HostSt.mem x := rfl; clear hm) | (intro x; clear_value x) | intro x | split | lift_lets | dsimp only

/-! Machine/CohOps.lean -/

theorem State.sendL2_keeps {r : State} (s : State) (m : CohMsg) (h : r.Keeps s) :
    r.Keeps (State.sendL2 s m) := by
  unfold State.sendL2
  with_reducible
    repeat' first
      | assumption | apply State.bump_keeps | simp -zeta -zetaUnused -zetaHave -proj only [keeps_mk] | apply keeps_core
      | (intro x; refine (have hx : State.Keeps r x := ?_; ?_); unfold x; rotate_left; clear_value x; rotate_left) | (intro x; clear_value x)
      | intro x | split | lift_lets | dsimp only

theorem State.sendDir_keeps {r : State} (s : State) (r1 : CohReq) (h : r.Keeps s) :
    r.Keeps (State.sendDir s r1) := by
  unfold State.sendDir
  with_reducible
    repeat' first
      | assumption | simp -zeta -zetaUnused -zetaHave -proj only [keeps_mk] | apply keeps_core
      | (intro x; refine (have hx : State.Keeps r x := ?_; ?_); unfold x; rotate_left; clear_value x; rotate_left) | (intro x; clear_value x)
      | intro x | lift_lets | dsimp only

theorem State.homeLine_keeps {r : State} (s : State) (id : Nat) (h : r.Keeps s) :
    KeepsFst r (State.homeLine s id) := by
  unfold State.homeLine
  with_reducible
    repeat' first
      | assumption | apply State.bump_keeps | apply State.cohRead_keeps | refine (State.cohRead_keeps _ _ _ _ _ ?_).out
      | simp -zeta -zetaUnused -zetaHave -proj only [keeps_mk_fst]
      | (intro x; refine (have hx : State.Keeps r x := ?_; ?_); unfold x; rotate_left; clear_value x; rotate_left) | (intro x; clear_value x)
      | intro x | split | refine keeps_fst (by assumption) ?_ | lift_lets | dsimp only

theorem State.poisonHome_keeps {r : State} (s : State) (id : Nat) (h : r.Keeps s) :
    r.Keeps (State.poisonHome s id) := by
  unfold State.poisonHome
  with_reducible
    repeat' first
      | assumption | apply State.bump_keeps | apply State.poisonLine_keeps
      | (intro x; refine (have hx : State.Keeps r x := ?_; ?_); unfold x; rotate_left; clear_value x; rotate_left) | (intro x; clear_value x)
      | intro x | split | lift_lets | dsimp only

theorem State.reclaimLine_keeps {r : State} (s : State) (core : Nat) (id : Nat) (h : r.Keeps s) :
    KeepsFst r (State.reclaimLine s core id) := by
  unfold State.reclaimLine
  with_reducible
    repeat' first
      | assumption | apply State.bumpN_keeps | apply State.setDir_keeps | apply State.poisonHome_keeps | apply State.dropL2_keeps
      | simp -zeta -zetaUnused -zetaHave -proj only [keeps_mk, keeps_mk_fst] | apply keeps_core | apply keeps_foldl | apply keeps_foldl_fst
      | apply keeps_foldl_snd | (intro x; refine (have hx : State.Keeps r x := ?_; ?_); unfold x; rotate_left; clear_value x; rotate_left)
      | (intro x; clear_value x) | intro x | split | lift_lets | dsimp only

theorem State.grantLine_keeps {r : State} (s : State) (r1 : CohReq) (e : DirEnt) (st : Moesi) (data : Option (List Byte)) (poison : Bool) (h : r.Keeps s) :
    r.Keeps (State.grantLine s r1 e st data poison) := by
  unfold State.grantLine
  with_reducible
    repeat' first
      | assumption | apply State.setDir_keeps | apply State.reclaimLine_keeps | apply State.sendL2_keeps
      | refine (State.reclaimLine_keeps _ _ _ ?_).out
      | (intro x; refine (have hx : State.Keeps r x := ?_; ?_); unfold x; rotate_left; clear_value x; rotate_left) | (intro x; clear_value x)
      | intro x | split | refine keeps_fst (by assumption) ?_ | lift_lets | dsimp only

theorem State.grantHome_keeps {r : State} (s : State) (r1 : CohReq) (e : DirEnt) (st : Moesi) (h : r.Keeps s) :
    r.Keeps (State.grantHome s r1 e st) := by
  unfold State.grantHome
  with_reducible
    repeat' first
      | assumption | apply State.homeLine_keeps | apply State.grantLine_keeps | refine (State.homeLine_keeps _ _ ?_).out
      | (intro x; refine (have hx : State.Keeps r x := ?_; ?_); unfold x; rotate_left; clear_value x; rotate_left) | (intro x; clear_value x)
      | intro x | split | refine keeps_fst (by assumption) ?_ | lift_lets | dsimp only

theorem State.grantOwner_keeps {r : State} (s : State) (r1 : CohReq) (e : DirEnt) (st : Moesi) (d : List Byte) (poison : Bool) (h : r.Keeps s) :
    r.Keeps (State.grantOwner s r1 e st d poison) := by
  unfold State.grantOwner
  with_reducible
    repeat' first
      | assumption | apply State.grantLine_keeps | apply State.bump_keeps | dsimp only

theorem State.enqueue_keeps {r : State} (s : State) (r1 : CohReq) (h : r.Keeps s) :
    r.Keeps (State.enqueue s r1) := by
  unfold State.enqueue
  with_reducible
    repeat' first
      | assumption | simp -zeta -zetaUnused -zetaHave -proj only [keeps_mk] | apply keeps_core
      | (intro x; refine (have hx : State.Keeps r x := ?_; ?_); unfold x; rotate_left; clear_value x; rotate_left) | (intro x; clear_value x)
      | intro x | lift_lets | dsimp only

theorem State.beginTxn_keeps {r : State} (s : State) (t : CohTxn) (msgs : List (Nat × Nat)) (h : r.Keeps s) :
    r.Keeps (State.beginTxn s t msgs) := by
  unfold State.beginTxn
  with_reducible
    repeat' first
      | assumption | apply State.sendL2_keeps | simp -zeta -zetaUnused -zetaHave -proj only [keeps_mk, keeps_mk_fst] | apply keeps_core
      | apply keeps_foldl | apply keeps_foldl_fst | apply keeps_foldl_snd
      | (intro x; refine (have hx : State.Keeps r x := ?_; ?_); unfold x; rotate_left; clear_value x; rotate_left) | (intro x; clear_value x)
      | intro x | lift_lets | dsimp only

theorem State.evictDir_keeps {r : State} (s : State) (r1 : CohReq) (h : r.Keeps s) :
    r.Keeps (State.evictDir s r1) := by
  unfold State.evictDir
  with_reducible
    repeat' first
      | assumption | apply State.enqueue_keeps | apply State.nextFree_keeps | apply State.bumpN_keeps | apply State.bump_keeps
      | apply State.beginTxn_keeps | refine (State.nextFree_keeps _ ?_).out
      | (intro x; refine (have hx : State.Keeps r x := ?_; ?_); unfold x; rotate_left; clear_value x; rotate_left) | (intro x; clear_value x)
      | intro x | split | refine keeps_snd (by assumption) ?_ | lift_lets | dsimp only

theorem State.serveWbd_keeps {r : State} (s : State) (r1 : CohReq) (h : r.Keeps s) :
    r.Keeps (State.serveWbd s r1) := by
  unfold State.serveWbd
  with_reducible
    repeat' first
      | assumption | apply State.setDir_keeps | apply State.lineHome_keeps | apply State.bump_keeps | apply State.sendL2_keeps
      | (intro x; refine (have hx : State.Keeps r x := ?_; ?_); unfold x; rotate_left; clear_value x; rotate_left) | (intro x; clear_value x)
      | intro x | split | lift_lets | dsimp only

theorem State.serve_keeps {r : State} (s : State) (r1 : CohReq) (h : r.Keeps s) :
    r.Keeps (State.serve s r1) := by
  unfold State.serve
  with_reducible
    repeat' first
      | assumption | apply State.evictDir_keeps | apply State.bump_keeps | apply State.serveWbd_keeps | apply State.setDir_keeps
      | apply State.beginTxn_keeps | apply State.grantHome_keeps | apply State.grantLine_keeps
      | simp -zeta -zetaUnused -zetaHave -proj only [keeps_mk] | apply keeps_core
      | (intro x; refine (have hx : State.Keeps r x := ?_; ?_); unfold x; rotate_left; clear_value x; rotate_left) | (intro x; clear_value x)
      | intro x | split | lift_lets | dsimp only

theorem State.arriveDir_keeps {r : State} (s : State) (r1 : CohReq) (h : r.Keeps s) :
    r.Keeps (State.arriveDir s r1) := by
  unfold State.arriveDir
  with_reducible
    repeat' first
      | assumption | apply State.bump_keeps | apply State.enqueue_keeps | apply State.serve_keeps | split | dsimp only

theorem State.pumpDir_keeps {r : State} (s : State) (h : r.Keeps s) :
    r.Keeps (State.pumpDir s) := by
  unfold State.pumpDir
  with_reducible
    repeat' first
      | assumption | apply State.enqueue_keeps | apply State.serve_keeps | simp -zeta -zetaUnused -zetaHave -proj only [keeps_mk, keeps_mk_fst]
      | apply keeps_core | apply keeps_foldl | apply keeps_foldl_fst | apply keeps_foldl_snd
      | (intro x; refine (have hx : State.Keeps r x := ?_; ?_); unfold x; rotate_left; clear_value x; rotate_left) | (intro x; clear_value x)
      | intro x | split | lift_lets | dsimp only

theorem State.finishTxn_keeps {r : State} (s : State) (t : CohTxn) (h : r.Keeps s) :
    r.Keeps (State.finishTxn s t) := by
  unfold State.finishTxn
  with_reducible
    repeat' first
      | assumption | apply State.setDir_keeps | apply State.lineHome_keeps | apply State.grantOwner_keeps | apply State.grantHome_keeps
      | apply State.grantLine_keeps | apply State.pumpDir_keeps | simp -zeta -zetaUnused -zetaHave -proj only [keeps_mk] | apply keeps_core
      | (intro x; refine (have hx : State.Keeps r x := ?_; ?_); unfold x; rotate_left; clear_value x; rotate_left) | (intro x; clear_value x)
      | intro x | split | lift_lets | dsimp only

theorem State.takeReply_keeps {r : State} (s : State) (r1 : CohReply) (h : r.Keeps s) :
    r.Keeps (State.takeReply s r1) := by
  unfold State.takeReply
  with_reducible
    repeat' first
      | assumption | apply State.finishTxn_keeps | simp -zeta -zetaUnused -zetaHave -proj only [keeps_mk] | apply keeps_core
      | (intro x; refine (have hx : State.Keeps r x := ?_; ?_); unfold x; rotate_left; clear_value x; rotate_left)
      | (intro x; refine (have hfn : ∀ y, State.Keeps r y → State.Keeps r (x y) := ?_; ?_); unfold x; rotate_left; clear_value x; rotate_left)
      | (intro x; refine (have hfn : ∀ y z, State.Keeps r y → State.Keeps r (x y z) := ?_; ?_); unfold x; rotate_left; clear_value x; rotate_left)
      | apply hfn | (intro x; clear_value x) | intro x | split | lift_lets | dsimp only

theorem State.sendReply_keeps {r : State} (s : State) (r1 : CohReply) (h : r.Keeps s) :
    r.Keeps (State.sendReply s r1) := by
  unfold State.sendReply
  with_reducible
    repeat' first
      | assumption | simp -zeta -zetaUnused -zetaHave -proj only [keeps_mk] | apply keeps_core
      | (intro x; refine (have hx : State.Keeps r x := ?_; ?_); unfold x; rotate_left; clear_value x; rotate_left) | (intro x; clear_value x)
      | intro x | lift_lets | dsimp only

theorem State.answerL2_keeps {r : State} (s : State) (core : Nat) (id : Nat) (kind : Nat) (since : Nat) (h : r.Keeps s) :
    r.Keeps (State.answerL2 s core id kind since) := by
  unfold State.answerL2
  with_reducible
    repeat' first
      | assumption | apply State.syncL1_keeps | apply State.sendReply_keeps | apply State.dropL2_keeps | apply State.setL2_keeps
      | simp -zeta -zetaUnused -zetaHave -proj only [keeps_mk] | apply keeps_core
      | (intro x; refine (have hx : State.Keeps r x := ?_; ?_); unfold x; rotate_left; clear_value x; rotate_left) | (intro x; clear_value x)
      | intro x | split | lift_lets | dsimp only

theorem State.dropMsg_keeps {r : State} (s : State) (m : CohMsg) (h : r.Keeps s) :
    r.Keeps (State.dropMsg s m) := by
  unfold State.dropMsg
  with_reducible
    repeat' first
      | assumption | simp -zeta -zetaUnused -zetaHave -proj only [keeps_mk] | apply keeps_core
      | (intro x; refine (have hx : State.Keeps r x := ?_; ?_); unfold x; rotate_left; clear_value x; rotate_left) | (intro x; clear_value x)
      | intro x | lift_lets | dsimp only

theorem State.snoopL2_keeps {r : State} (s : State) (core : Nat) (id : Nat) (kind : Nat) (h : r.Keeps s) :
    r.Keeps (State.snoopL2 s core id kind) := by
  unfold State.snoopL2
  with_reducible
    repeat' first
      | assumption | apply State.dropMsg_keeps | apply State.bump_keeps | apply State.setL2_keeps | apply State.answerL2_keeps
      | simp -zeta -zetaUnused -zetaHave -proj only [keeps_mk] | apply keeps_core
      | (intro x; refine (have hx : State.Keeps r x := ?_; ?_); unfold x; rotate_left; clear_value x; rotate_left) | (intro x; clear_value x)
      | intro x | split | lift_lets | dsimp only

theorem State.endHold_keeps {r : State} (s : State) (core : Nat) (id : Nat) (h : r.Keeps s) :
    r.Keeps (State.endHold s core id) := by
  unfold State.endHold
  with_reducible
    repeat' first
      | assumption | apply State.setL2_keeps | apply State.answerL2_keeps | simp -zeta -zetaUnused -zetaHave -proj only [keeps_mk, keeps_mk_fst]
      | apply keeps_core | apply keeps_foldl | apply keeps_foldl_fst | apply keeps_foldl_snd
      | (intro x; refine (have hx : State.Keeps r x := ?_; ?_); unfold x; rotate_left; clear_value x; rotate_left) | (intro x; clear_value x)
      | intro x | split | lift_lets | dsimp only

theorem State.victimOf_keeps {r : State} (s : State) (ks : List (Nat × Nat)) (h : r.Keeps s) :
    KeepsSnd r (State.victimOf s ks) := by
  unfold State.victimOf
  with_reducible
    repeat' first
      | assumption | apply State.nextFree_keeps | refine (State.nextFree_keeps _ ?_).out
      | simp -zeta -zetaUnused -zetaHave -proj only [keeps_mk_snd, keeps_mk_fst] | apply keeps_foldl | apply keeps_foldl_fst | apply keeps_foldl_snd
      | (intro x; refine (have hx : State.Keeps r x := ?_; ?_); unfold x; rotate_left; clear_value x; rotate_left) | (intro x; clear_value x)
      | intro x | split | refine keeps_snd (by assumption) ?_ | lift_lets | dsimp only

theorem State.writeBackL2_keeps {r : State} (s : State) (core : Nat) (id : Nat) (poison : Bool) (h : r.Keeps s) :
    r.Keeps (State.writeBackL2 s core id poison) := by
  unfold State.writeBackL2
  with_reducible
    repeat' first
      | assumption | apply State.dropL1_keeps | apply State.syncL1_keeps | apply State.sendDir_keeps | apply State.setL2_keeps
      | simp -zeta -zetaUnused -zetaHave -proj only [keeps_mk] | apply keeps_core
      | (intro x; refine (have hx : State.Keeps r x := ?_; ?_); unfold x; rotate_left; clear_value x; rotate_left) | (intro x; clear_value x)
      | intro x | split | lift_lets | dsimp only

theorem State.roomL2_keeps {r : State} (s : State) (core : Nat) (id : Nat) (h : r.Keeps s) :
    KeepsFst r (State.roomL2 s core id) := by
  unfold State.roomL2
  with_reducible
    repeat' first
      | assumption | apply State.victimOf_keeps | apply State.writeBackL2_keeps | apply State.sendDir_keeps | apply State.dropL2_keeps
      | refine (State.victimOf_keeps _ _ ?_).out | simp -zeta -zetaUnused -zetaHave -proj only [keeps_mk_fst]
      | (intro x; refine (have hx : State.Keeps r x := ?_; ?_); unfold x; rotate_left; clear_value x; rotate_left) | (intro x; clear_value x)
      | intro x | split | refine keeps_snd (by assumption) ?_ | lift_lets | dsimp only

theorem State.nextUse_keeps {r : State} (s : State) (h : r.Keeps s) :
    KeepsSnd r (State.nextUse s) := by
  unfold State.nextUse
  with_reducible
    repeat' first
      | assumption | simp -zeta -zetaUnused -zetaHave -proj only [keeps_mk, keeps_mk_snd] | apply keeps_core
      | (intro x; refine (have hx : State.Keeps r x := ?_; ?_); unfold x; rotate_left; clear_value x; rotate_left) | (intro x; clear_value x)
      | intro x | lift_lets | dsimp only

theorem State.fillL1d_keeps {r : State} (s : State) (core : Nat) (id : Nat) (h : r.Keeps s) :
    r.Keeps (State.fillL1d s core id) := by
  unfold State.fillL1d
  with_reducible
    repeat' first
      | assumption | apply State.victimOf_keeps | apply State.setL1d_keeps | apply State.syncL1_keeps | apply State.nextUse_keeps
      | refine (State.victimOf_keeps _ _ ?_).out | refine (State.nextUse_keeps _ ?_).out
      | (intro x; refine (have hx : State.Keeps r x := ?_; ?_); unfold x; rotate_left; clear_value x; rotate_left) | (intro x; clear_value x)
      | intro x | split | refine keeps_snd (by assumption) ?_ | lift_lets | dsimp only

theorem State.useL1i_keeps {r : State} (s : State) (core : Nat) (id : Nat) (h : r.Keeps s) :
    r.Keeps (State.useL1i s core id) := by
  unfold State.useL1i
  with_reducible
    repeat' first
      | assumption | apply State.syncL1_keeps | apply State.victimOf_keeps | apply State.setL1i_keeps | apply State.nextUse_keeps
      | refine (State.victimOf_keeps _ _ ?_).out | refine (State.nextUse_keeps _ ?_).out
      | (intro x; refine (have hx : State.Keeps r x := ?_; ?_); unfold x; rotate_left; clear_value x; rotate_left) | (intro x; clear_value x)
      | intro x | split | refine keeps_snd (by assumption) ?_ | lift_lets | dsimp only

theorem State.installL2_keeps {r : State} (s : State) (m : CohMsg) (h : r.Keeps s) :
    r.Keeps (State.installL2 s m) := by
  unfold State.installL2
  with_reducible
    repeat' first
      | assumption | apply State.setL2_keeps | apply State.dropMsg_keeps | apply State.roomL2_keeps | apply State.nextUse_keeps
      | apply State.dropL1_keeps | refine (State.roomL2_keeps _ _ _ ?_).out | refine (State.nextUse_keeps _ ?_).out
      | simp -zeta -zetaUnused -zetaHave -proj only [keeps_mk] | apply keeps_core
      | (intro x; refine (have hx : State.Keeps r x := ?_; ?_); unfold x; rotate_left; clear_value x; rotate_left) | (intro x; clear_value x)
      | intro x | split | refine keeps_fst (by assumption) ?_ | refine keeps_snd (by assumption) ?_ | lift_lets | dsimp only

theorem State.reclaimAll_keeps {r : State} (s : State) (core : Nat) (h : r.Keeps s) :
    KeepsFst r (State.reclaimAll s core) := by
  unfold State.reclaimAll
  with_reducible
    repeat' first
      | assumption | apply State.reclaimLine_keeps | refine (State.reclaimLine_keeps _ _ _ ?_).out
      | simp -zeta -zetaUnused -zetaHave -proj only [keeps_mk_fst] | apply keeps_foldl | apply keeps_foldl_fst | apply keeps_foldl_snd
      | (intro x; refine (have hx : State.Keeps r x := ?_; ?_); unfold x; rotate_left; clear_value x; rotate_left) | (intro x; clear_value x)
      | intro x | split | refine keeps_fst (by assumption) ?_ | lift_lets | dsimp only

theorem State.leaveTxns_keeps {r : State} (s : State) (core : Nat) (h : r.Keeps s) :
    r.Keeps (State.leaveTxns s core) := by
  unfold State.leaveTxns
  with_reducible
    repeat' first
      | assumption | apply State.poisonHome_keeps | apply State.takeReply_keeps | apply State.setDir_keeps
      | simp -zeta -zetaUnused -zetaHave -proj only [keeps_mk, keeps_mk_fst] | apply keeps_core | apply keeps_foldl | apply keeps_foldl_fst
      | apply keeps_foldl_snd | (intro x; refine (have hx : State.Keeps r x := ?_; ?_); unfold x; rotate_left; clear_value x; rotate_left)
      | (intro x; clear_value x) | intro x | split | lift_lets | dsimp only

theorem State.killCore_keeps {r : State} (s : State) (core : Nat) (h : r.Keeps s) :
    KeepsFst r (State.killCore s core) := by
  unfold State.killCore
  with_reducible
    repeat' first
      | assumption | apply State.setFlag_keeps | apply State.setFld_keeps | apply State.reclaimAll_keeps | apply State.leaveTxns_keeps
      | refine (State.reclaimAll_keeps _ _ ?_).out | simp -zeta -zetaUnused -zetaHave -proj only [keeps_mk, keeps_mk_fst] | apply keeps_core
      | (intro x; refine (have hx : State.Keeps r x := ?_; ?_); unfold x; rotate_left; clear_value x; rotate_left) | (intro x; clear_value x)
      | intro x | refine keeps_fst (by assumption) ?_ | lift_lets | dsimp only

theorem State.addReclaim_keeps {r : State} (s : State) (r1 : Reclaim) (h : r.Keeps s) :
    r.Keeps (State.addReclaim s r1) := by
  unfold State.addReclaim
  with_reducible
    repeat' first
      | assumption | simp -zeta -zetaUnused -zetaHave -proj only [keeps_mk] | apply keeps_core
      | (intro x; refine (have hx : State.Keeps r x := ?_; ?_); unfold x; rotate_left; clear_value x; rotate_left) | (intro x; clear_value x)
      | intro x | lift_lets | dsimp only

theorem State.noteCause_keeps {r : State} (s : State) (k cause : Nat) (h : r.Keeps s) : r.Keeps (State.noteCause s k cause) :=
  keeps_mk.mpr (keeps_core h)

theorem State.declareCore_keeps {r : State} (s : State) (core : Nat) (cause : Nat) (h : r.Keeps s) :
    r.Keeps (State.declareCore s core cause) := by
  unfold State.declareCore
  with_reducible
    repeat' first
      | assumption | apply State.noteCause_keeps | apply State.killCore_keeps | apply State.addReclaim_keeps | apply State.vfault_keeps | refine (State.killCore_keeps _ _ ?_).out
      | (intro x; refine (have hx : State.Keeps r x := ?_; ?_); unfold x; rotate_left; clear_value x; rotate_left) | (intro x; clear_value x)
      | intro x | split | refine keeps_fst (by assumption) ?_ | lift_lets | dsimp only

theorem State.declareDie_keeps {r : State} (s : State) (d cause : Nat) (h : r.Keeps s) : r.Keeps (s.declareDie d cause) := by
  have e3 : ∀ x : State, r.Keeps x → KeepsFst r ((List.range 16).foldl (fun (a : State × Nat × Nat) j => if a.1.vdead (16 * d + j) then a
      else
        let (s, n, p) := a.1.killCore (16 * d + j)
        (s, a.2.1 + n, a.2.2 + p)) (x, 0, 0)) := by
    intro x hx
    apply keeps_foldl_fst (keeps_mk_fst.mpr hx)
    intro y b a hy
    split
    · exact keeps_mk_fst.mpr hy
    · exact keeps_mk_fst.mpr (State.killCore_keeps _ _ hy).out
  have k : r.Keeps { s.noteCause (128 + d) cause with coh := { (s.noteCause (128 + d) cause).coh with deadDies := (s.noteCause (128 + d) cause).coh.deadDies ++ [d] } } :=
    keeps_mk.mpr (keeps_core (State.noteCause_keeps s (128 + d) cause h))
  unfold State.declareDie
  split
  · exact h
  · have k2 := fun v => State.setFld_keeps _ RF.COH_DEADDIE_MASK v k
    dsimp only at k2 ⊢
    generalize natSetBits _ d 1 1 = v
    have k3 := k2 v
    clear k2
    generalize State.setFld _ RF.COH_DEADDIE_MASK v = t at k3 ⊢
    have k4 := e3 t k3
    generalize List.foldl _ (t, 0, 0) _ = p at k4 ⊢
    exact keeps_foldl (State.addReclaim_keeps _ _ k4.out) fun _ _ hx => State.terminate_keeps _ _ _ hx

/-! Machine/VOps.lean -/

theorem State.setVctr_keeps {r : State} (s : State) (core : Nat) (n : Nat) (x : Nat) (h : r.Keeps s) :
    r.Keeps (State.setVctr s core n x) := by
  unfold State.setVctr
  with_reducible
    repeat' first
      | assumption | simp -zeta -zetaUnused -zetaHave -proj only [keeps_mk] | apply keeps_core
      | (intro x; refine (have hx : State.Keeps r x := ?_; ?_); unfold x; rotate_left; clear_value x; rotate_left) | (intro x; clear_value x)
      | intro x | lift_lets | dsimp only

theorem State.addVctr_keeps {r : State} (s : State) (core : Nat) (n : Nat) (k : Nat) (h : r.Keeps s) :
    r.Keeps (State.addVctr s core n k) := by
  unfold State.addVctr
  with_reducible
    repeat' first
      | assumption | apply State.setVctr_keeps | dsimp only

theorem State.setVmode_keeps {r : State} (s : State) (core : Nat) (mode : Nat) (h : r.Keeps s) :
    r.Keeps (State.setVmode s core mode) := by
  unfold State.setVmode
  with_reducible
    repeat' first
      | assumption | apply State.setFld_keeps | apply State.setVcore_keeps | simp -zeta -zetaUnused -zetaHave -proj only [keeps_mk] | apply keeps_core
      | (intro x; refine (have hx : State.Keeps r x := ?_; ?_); unfold x; rotate_left; clear_value x; rotate_left) | (intro x; clear_value x)
      | intro x | lift_lets | dsimp only

theorem State.vraise_keeps {r : State} (s : State) (core : Nat) (cause : Nat) (addr : Bool) (tval : Nat) (h : r.Keeps s) :
    r.Keeps (State.vraise s core cause addr tval) := by
  unfold State.vraise
  with_reducible
    repeat' first
      | assumption | apply State.setVcore_keeps | simp -zeta -zetaUnused -zetaHave -proj only [keeps_mk] | apply keeps_core
      | (intro x; refine (have hx : State.Keeps r x := ?_; ?_); unfold x; rotate_left; clear_value x; rotate_left) | (intro x; clear_value x)
      | intro x | lift_lets | dsimp only

theorem State.villegal_keeps {r : State} (s : State) (core : Nat) (w : BitVec 32) (h : r.Keeps s) :
    r.Keeps (State.villegal s core w) := by
  unfold State.villegal
  with_reducible
    repeat' first
      | assumption | apply State.vraise_keeps | split | dsimp only

theorem State.vaccFail_keeps {r : State} (s : State) (core : Nat) (access : Nat) (reason : Nat) (va : Nat) (page : Bool) (idx : Option Nat) (h : r.Keeps s) :
    r.Keeps (State.vaccFail s core access reason va page idx) := by
  unfold State.vaccFail
  with_reducible
    repeat' first
      | assumption | apply State.vraise_keeps | apply State.setVcore_keeps | dsimp only

theorem State.takeTrap_keeps {r : State} (s : State) (core : Nat) (cause : Nat) (intr : Bool) (addr : Bool) (tval : Nat) (h : r.Keeps s) :
    r.Keeps (State.takeTrap s core cause intr addr tval) := by
  unfold State.takeTrap
  with_reducible
    repeat' first
      | assumption | apply State.setVcore_keeps | apply State.setVmode_keeps | apply State.vfault_keeps
      | simp -zeta -zetaUnused -zetaHave -proj only [keeps_mk] | apply keeps_core
      | (intro x; refine (have hx : State.Keeps r x := ?_; ?_); unfold x; rotate_left; clear_value x; rotate_left) | (intro x; clear_value x)
      | intro x | split | lift_lets | dsimp only

theorem State.vlook_keeps {r : State} (s : State) (core : Nat) (access : Nat) (va : Nat) (h : r.Keeps s) :
    KeepsFst r (State.vlook s core access va) := by
  unfold State.vlook
  with_reducible
    repeat' first
      | assumption | apply State.rcLookup_keeps | apply State.addVctr_keeps | apply State.addMiss_keeps
      | refine (State.rcLookup_keeps _ _ _ _ _ ?_).out | simp -zeta -zetaUnused -zetaHave -proj only [keeps_mk_fst]
      | (intro x; refine (have hx : State.Keeps r x := ?_; ?_); unfold x; rotate_left; clear_value x; rotate_left) | (intro x; clear_value x)
      | intro x | split | refine keeps_fst (by assumption) ?_ | lift_lets | dsimp only

theorem State.vlookRun_keeps {r : State} (s : State) (core : Nat) (access : Nat) (va : Nat) (len : Nat) (h : r.Keeps s) :
    KeepsFst r (State.vlookRun s core access va len) := by
  unfold State.vlookRun
  with_reducible
    repeat' first
      | assumption | apply State.vlook_keeps | refine (State.vlook_keeps _ _ _ _ ?_).out | simp -zeta -zetaUnused -zetaHave -proj only [keeps_mk_fst]
      | (intro x; refine (have hx : State.Keeps r x := ?_; ?_); unfold x; rotate_left; clear_value x; rotate_left) | (intro x; clear_value x)
      | intro x | split | refine keeps_fst (by assumption) ?_ | lift_lets | dsimp only

theorem State.l2Ask_keeps {r : State} (s : State) (core : Nat) (id : Nat) (wr : Bool) (h : r.Keeps s) :
    r.Keeps (State.l2Ask s core id wr) := by
  unfold State.l2Ask
  with_reducible
    repeat' first
      | assumption | apply State.sendDir_keeps | apply State.addVctr_keeps | apply State.bump_keeps
      | (intro x; refine (have hx : State.Keeps r x := ?_; ?_); unfold x; rotate_left; clear_value x; rotate_left) | (intro x; clear_value x)
      | intro x | split | lift_lets | dsimp only

theorem State.l2Used_keeps {r : State} (s : State) (core : Nat) (id : Nat) (h : r.Keeps s) :
    r.Keeps (State.l2Used s core id) := by
  unfold State.l2Used
  with_reducible
    repeat' first
      | assumption | apply State.addVctr_keeps | apply State.bump_keeps | apply State.nextUse_keeps | apply State.setL2_keeps
      | refine (State.nextUse_keeps _ ?_).out | simp -zeta -zetaUnused -zetaHave -proj only [keeps_mk] | apply keeps_core
      | (intro x; refine (have hx : State.Keeps r x := ?_; ?_); unfold x; rotate_left; clear_value x; rotate_left) | (intro x; clear_value x)
      | intro x | split | refine keeps_snd (by assumption) ?_ | lift_lets | dsimp only

theorem State.l2Claim_keeps {r : State} (s : State) (core : Nat) (id : Nat) (wr : Bool) (h : r.Keeps s) :
    r.Keeps (State.l2Claim s core id wr) := by
  unfold State.l2Claim
  with_reducible
    repeat' first
      | assumption | apply State.l2Used_keeps | apply State.syncL1_keeps | apply State.setL1d_keeps
      | (intro x; refine (have hx : State.Keeps r x := ?_; ?_); unfold x; rotate_left; clear_value x; rotate_left) | (intro x; clear_value x)
      | intro x | split | lift_lets | dsimp only

theorem State.setAcc_keeps {r : State} (s : State) (id : Nat) (a : Option Acc) (h : r.Keeps s) :
    r.Keeps (State.setAcc s id a) := by
  unfold State.setAcc
  with_reducible
    repeat' first
      | assumption | simp -zeta -zetaUnused -zetaHave -proj only [keeps_mk] | apply keeps_core
      | (intro x; refine (have hx : State.Keeps r x := ?_; ?_); unfold x; rotate_left; clear_value x; rotate_left) | (intro x; clear_value x)
      | intro x | lift_lets | dsimp only

theorem State.vfetch_keeps {r : State} (s : State) (core len : Nat) (h : r.Keeps s) : KeepsFst r (s.vfetch core len) := by
  have k := State.vlookRun_keeps s core 3 (s.vcore core).pc len h
  unfold State.vfetch
  dsimp only
  obtain ⟨ids, hids⟩ : ∃ ids, ids = [lineOf (s.vcore core).unit ((s.vcore core).ctxOf 3) (s.vcore core).pc,
      lineOf (s.vcore core).unit ((s.vcore core).ctxOf 3) ((s.vcore core).pc + len - 1)].eraseDups := ⟨_, rfl⟩
  rw [← hids]
  clear hids
  obtain ⟨p, hp⟩ : ∃ p, p = s.vlookRun core 3 (s.vcore core).pc len := ⟨_, rfl⟩
  rw [← hp] at k ⊢
  clear hp
  obtain ⟨t, x, va⟩ := p
  have k := k.out
  cases x with
  | dev e =>
    dsimp only
    split
    · exact keeps_mk_fst.mpr (State.l2Ask_keeps _ _ _ _ k)
    · split
      · exact keeps_mk_fst.mpr (State.vfault_keeps _ _ _ k)
      · refine keeps_mk_fst.mpr (keeps_foldl k fun _ _ hx => State.useL1i_keeps _ _ _ ?_)
        split
        · exact hx
        · exact State.l2Used_keeps _ _ _ hx
  | fail e => exact keeps_mk_fst.mpr (State.vaccFail_keeps _ _ _ _ _ _ _ k)
  | _ => exact keeps_mk_fst.mpr k

theorem State.vretireTo_keeps {r : State} (s : State) (core : Nat) (pc : Nat) (h : r.Keeps s) :
    r.Keeps (State.vretireTo s core pc) := by
  unfold State.vretireTo
  with_reducible
    repeat' first
      | assumption | apply State.addVctr_keeps | apply State.bump_keeps | apply State.setVcore_keeps
      | simp -zeta -zetaUnused -zetaHave -proj only [keeps_mk] | apply keeps_core
      | (intro x; refine (have hx : State.Keeps r x := ?_; ?_); unfold x; rotate_left; clear_value x; rotate_left) | (intro x; clear_value x)
      | intro x | lift_lets | dsimp only

theorem State.vretire_keeps {r : State} (s : State) (core : Nat) (w : BitVec 32) (h : r.Keeps s) :
    r.Keeps (State.vretire s core w) := by
  unfold State.vretire
  with_reducible
    repeat' first
      | assumption | apply State.vretireTo_keeps | dsimp only

theorem State.vissue_keeps {r : State} (s : State) (core : Nat) (w : BitVec 32) (f : State → Nat → State) (h : r.Keeps s) (hf : ∀ y0 y1, r.Keeps y0 → r.Keeps (f y0 y1)) :
    r.Keeps (State.vissue s core w f) := by
  unfold State.vissue
  with_reducible
    repeat' first
      | assumption | apply hf | apply State.vfetch_keeps | apply State.villegal_keeps | refine (State.vfetch_keeps _ _ _ ?_).out
      | (intro x; refine (have hx : State.Keeps r x := ?_; ?_); unfold x; rotate_left; clear_value x; rotate_left) | (intro x; clear_value x)
      | intro x | split | refine keeps_fst (by assumption) ?_ | lift_lets | dsimp only

theorem State.ueEvent_keeps {r : State} (s : State) (core : Nat) (cache : Nat) (dirty : Bool) (h : r.Keeps s) :
    r.Keeps (State.ueEvent s core cache dirty) := by
  unfold State.ueEvent
  with_reducible
    repeat' first
      | assumption | apply State.emit_keeps | apply State.bump_keeps | split | dsimp only

theorem State.cacheUe_keeps {r : State} (s : State) (core : Nat) (id : Nat) (cache : Nat) (h : r.Keeps s) :
    r.Keeps (State.cacheUe s core id cache) := by
  unfold State.cacheUe
  with_reducible
    repeat' first
      | assumption | apply State.setL1i_keeps | apply State.ueEvent_keeps | apply State.writeBackL2_keeps | apply State.setL1d_keeps
      | apply State.sendDir_keeps | apply State.dropL2_keeps
      | (intro x; refine (have hx : State.Keeps r x := ?_; ?_); unfold x; rotate_left; clear_value x; rotate_left) | (intro x; clear_value x)
      | intro x | split | lift_lets | dsimp only

theorem State.tagParity_keeps {r : State} (s : State) (core : Nat) (cache : Nat) (h : r.Keeps s) :
    r.Keeps (State.tagParity s core cache) := by
  unfold State.tagParity
  with_reducible
    repeat' first
      | assumption | apply State.declareCore_keeps | apply State.vfault_keeps | dsimp only

theorem State.cacheErr_keeps {r : State} (s : State) (core : Nat) (id : Nat) (err : Nat) (h : r.Keeps s) :
    r.Keeps (State.cacheErr s core id err) := by
  unfold State.cacheErr
  with_reducible
    repeat' first
      | assumption | apply State.bump_keeps | apply State.cacheUe_keeps | apply State.tagParity_keeps | apply State.emit_keeps
      | (intro x; refine (have hx : State.Keeps r x := ?_; ?_); unfold x; rotate_left; clear_value x; rotate_left) | (intro x; clear_value x)
      | intro x | split | lift_lets | dsimp only

theorem State.flushL1i_keeps {r : State} (s : State) (core : Nat) (h : r.Keeps s) :
    r.Keeps (State.flushL1i s core) := by
  unfold State.flushL1i
  with_reducible
    repeat' first
      | assumption | simp -zeta -zetaUnused -zetaHave -proj only [keeps_mk] | apply keeps_core
      | (intro x; refine (have hx : State.Keeps r x := ?_; ?_); unfold x; rotate_left; clear_value x; rotate_left) | (intro x; clear_value x)
      | intro x | lift_lets | dsimp only

theorem State.fetchErr_keeps {r : State} (s : State) (core : Nat) (err : Nat) (h : r.Keeps s) :
    r.Keeps (State.fetchErr s core err) := by
  unfold State.fetchErr
  with_reducible
    repeat' first
      | assumption | apply State.cacheUe_keeps | apply State.flushL1i_keeps | apply State.bump_keeps | apply State.cacheErr_keeps
      | (intro x; refine (have hx : State.Keeps r x := ?_; ?_); unfold x; rotate_left; clear_value x; rotate_left) | (intro x; clear_value x)
      | intro x | split | lift_lets | dsimp only

theorem State.vtmbReply_keeps {r : State} (s : State) (core : Nat) (rd : Nat) (n : Nat) (h : r.Keeps s) :
    r.Keeps (State.vtmbReply s core rd n) := by
  unfold State.vtmbReply
  with_reducible
    repeat' first
      | assumption | apply State.setVcore_keeps | simp -zeta -zetaUnused -zetaHave -proj only [keeps_mk] | apply keeps_core
      | (intro x; refine (have hx : State.Keeps r x := ?_; ?_); unfold x; rotate_left; clear_value x; rotate_left) | (intro x; clear_value x)
      | intro x | split | lift_lets | dsimp only

theorem State.vtmbWaitEnd_keeps {r : State} (s : State) (core : Nat) (n : Nat) (h : r.Keeps s) :
    r.Keeps (State.vtmbWaitEnd s core n) := by
  unfold State.vtmbWaitEnd
  with_reducible
    repeat' first
      | assumption | apply State.vretireTo_keeps | apply State.setVcore_keeps | simp -zeta -zetaUnused -zetaHave -proj only [keeps_mk]
      | apply keeps_core | (intro x; refine (have hx : State.Keeps r x := ?_; ?_); unfold x; rotate_left; clear_value x; rotate_left)
      | (intro x; clear_value x) | intro x | split | lift_lets | dsimp only

/-! Machine/VAcc.lean -/

theorem State.vaccError_keeps {r : State} (s : State) (a : Acc) (l : AccLane) (code : Nat) (d : List Byte) (idx : Option Nat) (h : r.Keeps s) :
    r.Keeps (State.vaccError s a l code d idx) := by
  unfold State.vaccError
  with_reducible
    repeat' first
      | assumption | apply State.vraise_keeps | apply State.setVcore_keeps | apply State.vfault_keeps
      | (intro x; refine (have hx : State.Keeps r x := ?_; ?_); unfold x; rotate_left; clear_value x; rotate_left) | (intro x; clear_value x)
      | intro x | split | lift_lets | dsimp only

theorem State.finishVacc_keeps {r : State} (s : State) (id : Nat) (a : Acc) (h : r.Keeps s) :
    r.Keeps (State.finishVacc s id a) := by
  unfold State.finishVacc
  with_reducible
    repeat' first
      | assumption | apply State.setAcc_keeps | apply State.vaccError_keeps | apply State.vfault_keeps | apply State.setVcore_keeps
      | apply State.vretireTo_keeps | (intro x; refine (have hx : State.Keeps r x := ?_; ?_); unfold x; rotate_left; clear_value x; rotate_left)
      | (intro x; clear_value x) | intro x | split | lift_lets | dsimp only

/-! Machine/TMem.lean -/

theorem State.rangeFault_keeps {r : State} (s : State) (core : Nat) (slot : Nat) (addrs : List (Nat × Nat)) (h : r.Keeps s) :
    KeepsOpt r (State.rangeFault s core slot addrs) := by
  unfold State.rangeFault
  with_reducible
    repeat' first
      | assumption | apply keeps_some | exact keeps_none | apply State.preciseFault_keeps
      | (intro x; refine (have hx : State.Keeps r x := ?_; ?_); unfold x; rotate_left; clear_value x; rotate_left) | (intro x; clear_value x)
      | intro x | split | lift_lets | dsimp only

theorem State.alignFault_keeps {r : State} (s : State) (core : Nat) (slot : Nat) (n : Nat) (addrs : List (Nat × Nat)) (h : r.Keeps s) :
    KeepsOpt r (State.alignFault s core slot n addrs) := by
  unfold State.alignFault
  with_reducible
    repeat' first
      | assumption | apply keeps_some | exact keeps_none | apply State.preciseFault_keeps
      | (intro x; refine (have hx : State.Keeps r x := ?_; ?_); unfold x; rotate_left; clear_value x; rotate_left) | (intro x; clear_value x)
      | intro x | split | lift_lets | dsimp only

theorem State.localFault_keeps {r : State} (s : State) (core : Nat) (slot : Nat) (limit : Nat) (size : Nat) (addrs : List (Nat × Nat)) (h : r.Keeps s) :
    KeepsOpt r (State.localFault s core slot limit size addrs) := by
  unfold State.localFault
  with_reducible
    repeat' first
      | assumption | apply keeps_some | exact keeps_none | apply State.preciseFault_keeps
      | (intro x; refine (have hx : State.Keeps r x := ?_; ?_); unfold x; rotate_left; clear_value x; rotate_left) | (intro x; clear_value x)
      | intro x | split | lift_lets | dsimp only

theorem State.localOp_keeps {r : State} (s0 : State) (core : Nat) (slot : Nat) (opc : Nat) (w0 : BitVec 64) (form : OpForm) (size : Nat) (atom : Bool) (wr : Bool) (f : TGroup → Nat → Nat → KV Byte × TGroup → KV Byte × TGroup) (h : r.Keeps s0) :
    r.Keeps (State.localOp s0 core slot opc w0 form size atom wr f) := by
  unfold State.localOp
  with_reducible
    repeat' first
      | assumption | apply State.issue_keeps | apply State.alignFault_keeps | apply State.localFault_keeps | apply State.setTgroup_keeps
      | apply State.bumpN_keeps | apply State.advance_keeps | apply State.setTblock_keeps
      | simp -zeta -zetaUnused -zetaHave -proj only [keeps_mk, keeps_mk_fst] | apply keeps_core | apply keeps_foldl | apply keeps_foldl_fst
      | apply keeps_foldl_snd | (intro x; refine (have hx : State.Keeps r x := ?_; ?_); unfold x; rotate_left; clear_value x; rotate_left)
      | (intro x; clear_value x) | intro x | split | refine keeps_of_some (by assumption) ?_ | lift_lets | dsimp only

theorem execLdl_keeps {r : State} (core : Nat) (slot : Nat) (w0 : BitVec 64) (_w1 : BitVec 64) (s : State) (h : r.Keeps s) :
    KeepsOut r (execLdl core slot w0 _w1 s) := by
  unfold execLdl
  with_reducible
    repeat' first
      | assumption | apply keeps_next | apply State.localOp_keeps
      | (intro x; refine (have hx : State.Keeps r x := ?_; ?_); unfold x; rotate_left; clear_value x; rotate_left) | (intro x; clear_value x)
      | intro x | lift_lets | dsimp only

theorem execStl_keeps {r : State} (core : Nat) (slot : Nat) (w0 : BitVec 64) (_w1 : BitVec 64) (s : State) (h : r.Keeps s) :
    KeepsOut r (execStl core slot w0 _w1 s) := by
  unfold execStl
  with_reducible
    repeat' first
      | assumption | apply keeps_next | apply State.localOp_keeps
      | (intro x; refine (have hx : State.Keeps r x := ?_; ?_); unfold x; rotate_left; clear_value x; rotate_left) | (intro x; clear_value x)
      | intro x | lift_lets | dsimp only

theorem execAtoml_keeps {r : State} (core : Nat) (slot : Nat) (w0 : BitVec 64) (_w1 : BitVec 64) (s : State) (h : r.Keeps s) :
    KeepsOut r (execAtoml core slot w0 _w1 s) := by
  unfold execAtoml
  with_reducible
    repeat' first
      | assumption | apply keeps_next | apply State.localOp_keeps
      | (intro x; refine (have hx : State.Keeps r x := ?_; ?_); unfold x; rotate_left; clear_value x; rotate_left) | (intro x; clear_value x)
      | intro x | lift_lets | dsimp only

theorem State.setL1_keeps {r : State} (s : State) (key : Nat) (x : Option (List Byte)) (h : r.Keeps s) :
    r.Keeps (State.setL1 s key x) := by
  unfold State.setL1
  with_reducible
    repeat' first
      | assumption | simp -zeta -zetaUnused -zetaHave -proj only [keeps_mk] | apply keeps_core
      | (intro x; refine (have hx : State.Keeps r x := ?_; ?_); unfold x; rotate_left; clear_value x; rotate_left) | (intro x; clear_value x)
      | intro x | lift_lets | dsimp only

theorem State.clearL1_keeps {r : State} (s : State) (core : Nat) (h : r.Keeps s) :
    r.Keeps (State.clearL1 s core) := by
  unfold State.clearL1
  with_reducible
    repeat' first
      | assumption | simp -zeta -zetaUnused -zetaHave -proj only [keeps_mk] | apply keeps_core
      | (intro x; refine (have hx : State.Keeps r x := ?_; ?_); unfold x; rotate_left; clear_value x; rotate_left) | (intro x; clear_value x)
      | intro x | lift_lets | dsimp only

theorem State.l1Store_keeps {r : State} (s : State) (core : Nat) (unit : Nat) (ctx : Nat) (l : AccLane) (whole : Bool) (h : r.Keeps s) :
    r.Keeps (State.l1Store s core unit ctx l whole) := by
  unfold State.l1Store
  with_reducible
    repeat' first
      | assumption | apply State.setL1_keeps | simp -zeta -zetaUnused -zetaHave -proj only [keeps_mk_fst] | apply keeps_foldl | apply keeps_foldl_fst
      | apply keeps_foldl_snd | (intro x; refine (have hx : State.Keeps r x := ?_; ?_); unfold x; rotate_left; clear_value x; rotate_left)
      | (intro x; clear_value x) | intro x | split | lift_lets | dsimp only

theorem State.settleFence_keeps {r : State} (s : State) (core : Nat) (slot : Nat) (h : r.Keeps s) :
    r.Keeps (State.settleFence s core slot) := by
  unfold State.settleFence
  with_reducible
    repeat' first
      | assumption | apply State.advance_keeps | apply State.clearL1_keeps | simp -zeta -zetaUnused -zetaHave -proj only [keeps_mk] | apply keeps_core
      | (intro x; refine (have hx : State.Keeps r x := ?_; ?_); unfold x; rotate_left; clear_value x; rotate_left) | (intro x; clear_value x)
      | intro x | split | lift_lets | dsimp only

theorem State.accReady_keeps {r : State} (s : State) (id : Nat) (a : Acc) (h : r.Keeps s) :
    r.Keeps (State.accReady s id a) := by
  unfold State.accReady
  with_reducible
    repeat' first
      | assumption | apply State.l1Store_keeps | apply State.setAcc_keeps | apply State.tXltFault_keeps
      | simp -zeta -zetaUnused -zetaHave -proj only [keeps_mk_fst] | apply keeps_foldl | apply keeps_foldl_fst | apply keeps_foldl_snd
      | (intro x; refine (have hx : State.Keeps r x := ?_; ?_); unfold x; rotate_left; clear_value x; rotate_left) | (intro x; clear_value x)
      | intro x | split | lift_lets | dsimp only

theorem State.lookAcc_keeps {r : State} (s : State) (q : Requester) (leaf : Nat) (a : Acc) (x4 : List Nat) (h : r.Keeps s) :
    KeepsFst r (State.lookAcc s q leaf a x4) := by
  induction x4 generalizing s q leaf a with
  | nil =>
    unfold State.lookAcc
    with_reducible
      repeat' first
        | assumption | apply State.rcLookup_keeps | apply State.addMiss_keeps | refine (State.rcLookup_keeps _ _ _ _ _ ?_).out
        | simp -zeta -zetaUnused -zetaHave -proj only [keeps_mk, keeps_mk_fst] | apply keeps_core
        | (intro x; refine (have hx : State.Keeps r x := ?_; ?_); unfold x; rotate_left; clear_value x; rotate_left) | (intro x; clear_value x)
        | intro x | split | refine keeps_fst (by assumption) ?_ | lift_lets | dsimp only
  | cons y l ih =>
    unfold State.lookAcc
    with_reducible
      repeat' first
        | assumption | apply ih | refine (ih _ _ _ _ ?_).out | apply State.rcLookup_keeps | apply State.addMiss_keeps | refine (State.rcLookup_keeps _ _ _ _ _ ?_).out
        | simp -zeta -zetaUnused -zetaHave -proj only [keeps_mk, keeps_mk_fst] | apply keeps_core
        | (intro x; refine (have hx : State.Keeps r x := ?_; ?_); unfold x; rotate_left; clear_value x; rotate_left) | (intro x; clear_value x)
        | intro x | split | refine keeps_fst (by assumption) ?_ | lift_lets | dsimp only

theorem State.tryL1_keeps {r : State} (s : State) (id : Nat) (a : Acc) (h : r.Keeps s) :
    KeepsFst r (State.tryL1 s id a) := by
  unfold State.tryL1
  with_reducible
    repeat' first
      | assumption | apply State.nextFree_keeps | refine (State.nextFree_keeps _ ?_).out
      | simp -zeta -zetaUnused -zetaHave -proj only [keeps_mk, keeps_mk_fst] | apply keeps_core
      | (intro x; refine (have hx : State.Keeps r x := ?_; ?_); unfold x; rotate_left; clear_value x; rotate_left) | (intro x; clear_value x)
      | intro x | split | refine keeps_snd (by assumption) ?_ | lift_lets | dsimp only

theorem State.issueAcc_keeps {r : State} (s : State) (core : Nat) (slot : Nat) (words : Nat) (g : TGroup) (a : Acc) (h : r.Keeps s) :
    r.Keeps (State.issueAcc s core slot words g a) := by
  unfold State.issueAcc
  with_reducible
    repeat' first
      | assumption | apply State.bumpN_keeps | apply State.advance_keeps | apply State.lookAcc_keeps | apply State.tryL1_keeps
      | apply State.setAcc_keeps | apply State.accReady_keeps | refine (State.lookAcc_keeps _ _ _ _ _ ?_).out
      | refine (State.tryL1_keeps _ _ _ ?_).out | simp -zeta -zetaUnused -zetaHave -proj only [keeps_mk] | apply keeps_core
      | (intro x; refine (have hx : State.Keeps r x := ?_; ?_); unfold x; rotate_left; clear_value x; rotate_left) | (intro x; clear_value x)
      | intro x | split | refine keeps_fst (by assumption) ?_ | lift_lets | dsimp only

theorem State.globalOp_keeps {r : State} (s : State) (core : Nat) (slot : Nat) (size : Nat) (g : TGroup) (addrs : List (Nat × Nat)) (a : Acc) (h : r.Keeps s) :
    r.Keeps (State.globalOp s core slot size g addrs a) := by
  unfold State.globalOp
  with_reducible
    repeat' first
      | assumption | apply State.rangeFault_keeps | apply State.alignFault_keeps | apply State.issueAcc_keeps
      | (intro x; refine (have hx : State.Keeps r x := ?_; ?_); unfold x; rotate_left; clear_value x; rotate_left) | (intro x; clear_value x)
      | intro x | split | refine keeps_of_some (by assumption) ?_ | lift_lets | dsimp only

theorem execLd_keeps {r : State} (core : Nat) (slot : Nat) (w0 : BitVec 64) (w1 : BitVec 64) (s : State) (h : r.Keeps s) :
    KeepsOut r (execLd core slot w0 w1 s) := by
  unfold execLd
  with_reducible
    repeat' first
      | assumption | apply keeps_next | apply State.issue_keeps | apply State.globalOp_keeps | simp -zeta -zetaUnused -zetaHave -proj only [keeps_mk]
      | apply keeps_core | (intro x; refine (have hx : State.Keeps r x := ?_; ?_); unfold x; rotate_left; clear_value x; rotate_left)
      | (intro x; clear_value x) | intro x | lift_lets | dsimp only

theorem execSt_keeps {r : State} (core : Nat) (slot : Nat) (w0 : BitVec 64) (w1 : BitVec 64) (s : State) (h : r.Keeps s) :
    KeepsOut r (execSt core slot w0 w1 s) := by
  unfold execSt
  with_reducible
    repeat' first
      | assumption | apply keeps_next | apply State.issue_keeps | apply State.globalOp_keeps
      | (intro x; refine (have hx : State.Keeps r x := ?_; ?_); unfold x; rotate_left; clear_value x; rotate_left) | (intro x; clear_value x)
      | intro x | lift_lets | dsimp only

theorem execAtom_keeps {r : State} (core : Nat) (slot : Nat) (w0 : BitVec 64) (w1 : BitVec 64) (s : State) (h : r.Keeps s) :
    KeepsOut r (execAtom core slot w0 w1 s) := by
  unfold execAtom
  with_reducible
    repeat' first
      | assumption | apply keeps_next | apply State.issue_keeps | apply State.globalOp_keeps | simp -zeta -zetaUnused -zetaHave -proj only [keeps_mk]
      | apply keeps_core | (intro x; refine (have hx : State.Keeps r x := ?_; ?_); unfold x; rotate_left; clear_value x; rotate_left)
      | (intro x; clear_value x) | intro x | split | lift_lets | dsimp only

theorem State.convFault_keeps {r : State} (s : State) (core : Nat) (slot : Nat) (align : Nat) (forms : List (Nat × Nat)) (ebs : List (Nat × Nat)) (h : r.Keeps s) :
    KeepsOpt r (State.convFault s core slot align forms ebs) := by
  unfold State.convFault
  with_reducible
    repeat' first
      | assumption | apply keeps_some | exact keeps_none | apply State.rangeFault_keeps | apply State.alignFault_keeps
      | (intro x; refine (have hx : State.Keeps r x := ?_; ?_); unfold x; rotate_left; clear_value x; rotate_left) | (intro x; clear_value x)
      | intro x | split | refine keeps_of_some (by assumption) ?_ | lift_lets | dsimp only

theorem execLdc_keeps {r : State} (core : Nat) (slot : Nat) (w0 : BitVec 64) (w1 : BitVec 64) (s : State) (h : r.Keeps s) :
    KeepsOut r (execLdc core slot w0 w1 s) := by
  unfold execLdc
  with_reducible
    repeat' first
      | assumption | apply keeps_next | apply State.issue_keeps | apply State.convFault_keeps | apply State.issueAcc_keeps
      | simp -zeta -zetaUnused -zetaHave -proj only [keeps_mk, keeps_mk_fst] | apply keeps_core | apply keeps_foldl | apply keeps_foldl_fst
      | apply keeps_foldl_snd | (intro x; refine (have hx : State.Keeps r x := ?_; ?_); unfold x; rotate_left; clear_value x; rotate_left)
      | (intro x; clear_value x) | intro x | split | refine keeps_of_some (by assumption) ?_ | lift_lets | dsimp only

theorem State.stcPlain_keeps {r : State} (s : State) (core : Nat) (slot : Nat) (w0 : BitVec 64) (w1 : BitVec 64) (b : TBlock) (g : TGroup) (h : r.Keeps s) :
    r.Keeps (State.stcPlain s core slot w0 w1 b g) := by
  unfold State.stcPlain
  with_reducible
    repeat' first
      | assumption | apply State.convFault_keeps | apply State.issueAcc_keeps | simp -zeta -zetaUnused -zetaHave -proj only [keeps_mk_fst]
      | apply keeps_foldl | apply keeps_foldl_fst | apply keeps_foldl_snd
      | (intro x; refine (have hx : State.Keeps r x := ?_; ?_); unfold x; rotate_left; clear_value x; rotate_left) | (intro x; clear_value x)
      | intro x | split | refine keeps_of_some (by assumption) ?_ | lift_lets | dsimp only

theorem State.stcBlocks_keeps {r : State} (s : State) (core : Nat) (slot : Nat) (w0 : BitVec 64) (w1 : BitVec 64) (b : TBlock) (g : TGroup) (h : r.Keeps s) :
    r.Keeps (State.stcBlocks s core slot w0 w1 b g) := by
  unfold State.stcBlocks
  with_reducible
    repeat' first
      | assumption | apply State.issueAcc_keeps | apply State.convFault_keeps | apply State.preciseFault_keeps
      | (intro x; refine (have hx : State.Keeps r x := ?_; ?_); unfold x; rotate_left; clear_value x; rotate_left) | (intro x; clear_value x)
      | intro x | split | refine keeps_of_some (by assumption) ?_ | lift_lets | dsimp only

theorem execStc_keeps {r : State} (core : Nat) (slot : Nat) (w0 : BitVec 64) (w1 : BitVec 64) (s : State) (h : r.Keeps s) :
    KeepsOut r (execStc core slot w0 w1 s) := by
  unfold execStc
  with_reducible
    repeat' first
      | assumption | apply keeps_next | apply State.issue_keeps | apply State.stcPlain_keeps | apply State.stcBlocks_keeps
      | (intro x; refine (have hx : State.Keeps r x := ?_; ?_); unfold x; rotate_left; clear_value x; rotate_left) | (intro x; clear_value x)
      | intro x | split | lift_lets | dsimp only

theorem State.l1Fill_keeps {r : State} (s : State) (id : Nat) (a : Acc) (va : Nat) (line : List Byte) (mask : Nat) (h : r.Keeps s) :
    r.Keeps (State.l1Fill s id a va line mask) := by
  unfold State.l1Fill
  with_reducible
    repeat' first
      | assumption | apply State.setL1_keeps | simp -zeta -zetaUnused -zetaHave -proj only [keeps_mk_fst] | apply keeps_foldl | apply keeps_foldl_fst
      | apply keeps_foldl_snd | (intro x; refine (have hx : State.Keeps r x := ?_; ?_); unfold x; rotate_left; clear_value x; rotate_left)
      | (intro x; clear_value x) | intro x | split | lift_lets | dsimp only

theorem State.homeLoad_keeps {r : State} (s : State) (id : Nat) (a : Acc) (c : HomeCtl) (x4 : List (Nat × Nat × Nat × Nat)) (h : r.Keeps s) :
    KeepsFst r (State.homeLoad s id a c x4) := by
  induction x4 generalizing s id a c with
  | nil =>
    unfold State.homeLoad
    with_reducible
      repeat' first
        | assumption | apply State.lineRead_keeps | apply State.l1Fill_keeps | refine (State.lineRead_keeps _ _ _ _ _ ?_).out
        | simp -zeta -zetaUnused -zetaHave -proj only [keeps_mk_fst]
        | (intro x; refine (have hx : State.Keeps r x := ?_; ?_); unfold x; rotate_left; clear_value x; rotate_left) | (intro x; clear_value x)
        | intro x | split | refine keeps_fst (by assumption) ?_ | lift_lets | dsimp only
  | cons y l ih =>
    unfold State.homeLoad
    with_reducible
      repeat' first
        | assumption | apply ih | refine (ih _ _ _ _ ?_).out | apply State.lineRead_keeps | apply State.l1Fill_keeps | refine (State.lineRead_keeps _ _ _ _ _ ?_).out
        | simp -zeta -zetaUnused -zetaHave -proj only [keeps_mk_fst]
        | (intro x; refine (have hx : State.Keeps r x := ?_; ?_); unfold x; rotate_left; clear_value x; rotate_left) | (intro x; clear_value x)
        | intro x | split | refine keeps_fst (by assumption) ?_ | lift_lets | dsimp only

theorem State.performLane_keeps {r : State} (s : State) (id : Nat) (a : Acc) (l : AccLane) (h : r.Keeps s) : KeepsPair r (State.performLane s id a l) := by
  unfold State.performLane
  dsimp only
  split
  · split
    · exact keeps_none_pair
    · split
      · exact keeps_some_pair (State.homeLoad_keeps _ _ _ _ _ h).out
      · split
        · exact keeps_some_pair (State.runWrite_keeps _ _ _ _ _ _ h)
        · refine keeps_some_pair (keeps_foldl_fst (keeps_mk_fst.mpr h) ?_).out
          intro x b p hx
          exact keeps_mk_fst.mpr (State.lineAtomic_keeps _ _ _ _ _ _ _ hx).out
      · exact keeps_some_pair (State.lineAtomic_keeps _ _ _ _ _ _ _ h).out
      · split
        · split
          · exact keeps_some_pair (keeps_mk.mpr (keeps_core_mem (State.recallWrite_keeps _ _ h)))
          · exact keeps_none_pair
        · exact keeps_some_pair (State.bump_keeps _ _ h)
        · exact keeps_some_pair h
  · split
    · exact keeps_some_pair h
    · split
      · exact keeps_some_pair (State.hostWrite_keeps _ _ _ h)
      · exact keeps_some_pair h
    · split
      · exact keeps_some_pair h
      · exact keeps_some_pair h
  · exact keeps_some_pair (keeps_mk.mpr (keeps_core h))
  · exact keeps_none_pair

theorem State.performAll_keeps {r : State} (s : State) (id : Nat) (a : Acc) (x3 : List AccLane) (h : r.Keeps s) :
    KeepsPair r (State.performAll s id a x3) := by
  induction x3 generalizing s id a with
  | nil =>
    unfold State.performAll
    with_reducible
      repeat' first
        | assumption | apply keeps_some_pair | exact keeps_none_pair | apply State.performLane_keeps
        | (intro x; refine (have hx : State.Keeps r x := ?_; ?_); unfold x; rotate_left; clear_value x; rotate_left) | (intro x; clear_value x)
        | intro x | split | refine keeps_of_some_pair (by assumption) ?_ | refine keeps_of_some_pair' (by assumption) ?_ | lift_lets | dsimp only
  | cons y l ih =>
    unfold State.performAll
    with_reducible
      repeat' first
        | assumption | apply ih | apply keeps_some_pair | exact keeps_none_pair | apply State.performLane_keeps
        | (intro x; refine (have hx : State.Keeps r x := ?_; ?_); unfold x; rotate_left; clear_value x; rotate_left) | (intro x; clear_value x)
        | intro x | split | refine keeps_of_some_pair (by assumption) ?_ | refine keeps_of_some_pair' (by assumption) ?_ | lift_lets | dsimp only

theorem State.homeErr_keeps {r : State} (s : State) (a : Acc) (l : AccLane) (err : Nat) (h : r.Keeps s) :
    r.Keeps (State.homeErr s a l err) := by
  unfold State.homeErr
  with_reducible
    repeat' first
      | assumption | apply State.vaultErr_keeps
      | (intro x; refine (have hx : State.Keeps r x := ?_; ?_); unfold x; rotate_left; clear_value x; rotate_left) | (intro x; clear_value x)
      | intro x | split | lift_lets | dsimp only

theorem State.noteLane_keeps {r : State} (s : State) (a : Acc) (l : AccLane) (h : r.Keeps s) :
    r.Keeps (State.noteLane s a l) := by
  unfold State.noteLane
  with_reducible
    repeat' first
      | assumption | apply State.noteWaits_keeps | split | dsimp only

theorem execHomeAccess_keeps {r : State} (acc : Nat) (lane : Nat) (err : Nat) (s : State) (h : r.Keeps s) :
    KeepsOut r (execHomeAccess acc lane err s) := by
  unfold execHomeAccess
  with_reducible
    repeat' first
      | assumption | apply keeps_next | apply State.performAll_keeps | apply State.homeErr_keeps | apply State.setAcc_keeps
      | apply State.noteLane_keeps | simp -zeta -zetaUnused -zetaHave -proj only [keeps_mk_fst] | apply keeps_foldl | apply keeps_foldl_fst
      | apply keeps_foldl_snd | (intro x; refine (have hx : State.Keeps r x := ?_; ?_); unfold x; rotate_left; clear_value x; rotate_left)
      | (intro x; clear_value x) | intro x | split | refine keeps_of_some_pair (by assumption) ?_ | refine keeps_of_some_pair' (by assumption) ?_
      | lift_lets | dsimp only

theorem State.finishAcc_keeps {r : State} (s : State) (id : Nat) (a : Acc) (h : r.Keeps s) :
    r.Keeps (State.finishAcc s id a) := by
  unfold State.finishAcc
  with_reducible
    repeat' first
      | assumption | apply State.finishVacc_keeps | apply State.setAcc_keeps | apply State.tfault_keeps | apply State.setTgroup_keeps
      | apply State.settleFence_keeps | apply State.clearL1_keeps | simp -zeta -zetaUnused -zetaHave -proj only [keeps_mk, keeps_mk_fst]
      | apply keeps_core | apply keeps_foldl | apply keeps_foldl_fst | apply keeps_foldl_snd
      | (intro x; refine (have hx : State.Keeps r x := ?_; ?_); unfold x; rotate_left; clear_value x; rotate_left) | (intro x; clear_value x)
      | intro x | split | lift_lets | dsimp only

theorem State.tryFinish_keeps {r : State} (s : State) (id : Nat) (h : r.Keeps s) :
    r.Keeps (State.tryFinish s id) := by
  unfold State.tryFinish
  with_reducible
    repeat' first
      | assumption | apply State.finishAcc_keeps
      | (intro x; refine (have hx : State.Keeps r x := ?_; ?_); unfold x; rotate_left; clear_value x; rotate_left) | (intro x; clear_value x)
      | intro x | split | lift_lets | dsimp only

theorem State.hostData_keeps {r : State} (s : State) (id : Nat) (a : Acc) (err : Nat) (x4 : List AccLane) (x5 : List Byte) (h : r.Keeps s) :
    r.Keeps (State.hostData s id a err x4 x5) := by
  induction x4 generalizing s id a err x5 with
  | nil =>
    unfold State.hostData
    with_reducible
      repeat' first
        | assumption | apply State.setAcc_keeps | apply State.hostWrite_keeps
        | (intro x; refine (have hx : State.Keeps r x := ?_; ?_); unfold x; rotate_left; clear_value x; rotate_left) | (intro x; clear_value x)
        | intro x | split | lift_lets | dsimp only
  | cons y l ih =>
    unfold State.hostData
    with_reducible
      repeat' first
        | assumption | apply ih | apply State.setAcc_keeps | apply State.hostWrite_keeps
        | (intro x; refine (have hx : State.Keeps r x := ?_; ?_); unfold x; rotate_left; clear_value x; rotate_left) | (intro x; clear_value x)
        | intro x | split | lift_lets | dsimp only

theorem execLoadDataReturn_keeps {r : State} (acc : Nat) (data : List Byte) (err : Nat) (s : State) (h : r.Keeps s) :
    KeepsOut r (execLoadDataReturn acc data err s) := by
  unfold execLoadDataReturn
  with_reducible
    repeat' first
      | assumption | apply keeps_next | apply State.hostData_keeps | apply State.bump64_keeps | apply State.tryFinish_keeps
      | simp -zeta -zetaUnused -zetaHave -proj only [keeps_mk_fst] | apply keeps_foldl | apply keeps_foldl_fst | apply keeps_foldl_snd
      | (intro x; refine (have hx : State.Keeps r x := ?_; ?_); unfold x; rotate_left; clear_value x; rotate_left) | (intro x; clear_value x)
      | intro x | split | lift_lets | dsimp only

theorem execStoreAck_keeps {r : State} (acc : Nat) (s : State) (h : r.Keeps s) :
    KeepsOut r (execStoreAck acc s) := by
  unfold execStoreAck
  with_reducible
    repeat' first
      | assumption | apply keeps_next | apply State.tryFinish_keeps
      | (intro x; refine (have hx : State.Keeps r x := ?_; ?_); unfold x; rotate_left; clear_value x; rotate_left) | (intro x; clear_value x)
      | intro x | split | lift_lets | dsimp only

/-! Machine/TEngine.lean -/

theorem State.syncEngine_keeps {r : State} (s : State) (core : Nat) (eng : Nat) (h : r.Keeps s) :
    r.Keeps (State.syncEngine s core eng) := by
  unfold State.syncEngine
  with_reducible
    repeat' first
      | assumption | apply State.setReg_keeps | simp -zeta -zetaUnused -zetaHave -proj only [keeps_mk_fst] | apply keeps_foldl | apply keeps_foldl_fst
      | apply keeps_foldl_snd | (intro x; refine (have hx : State.Keeps r x := ?_; ?_); unfold x; rotate_left; clear_value x; rotate_left)
      | (intro x; clear_value x) | intro x | split | lift_lets | dsimp only

theorem State.settleWaitq_keeps {r : State} (s : State) (core : Nat) (b : TBlock) (h : r.Keeps s) :
    r.Keeps (State.settleWaitq s core b) := by
  unfold State.settleWaitq
  with_reducible
    repeat' first
      | assumption | apply State.setTgroup_keeps | simp -zeta -zetaUnused -zetaHave -proj only [keeps_mk, keeps_mk_fst] | apply keeps_core
      | apply keeps_foldl | apply keeps_foldl_fst | apply keeps_foldl_snd
      | (intro x; refine (have hx : State.Keeps r x := ?_; ?_); unfold x; rotate_left; clear_value x; rotate_left) | (intro x; clear_value x)
      | intro x | split | lift_lets | dsimp only

theorem State.doAccOp_keeps {r : State} (s : State) (core : Nat) (eng : Nat) (o : AccOp) (h : r.Keeps s) :
    r.Keeps (State.doAccOp s core eng o) := by
  unfold State.doAccOp
  with_reducible
    repeat' first
      | assumption | apply State.setEngine_keeps | apply State.nextFree_keeps | apply State.setTgroup_keeps | refine (State.nextFree_keeps _ ?_).out
      | simp -zeta -zetaUnused -zetaHave -proj only [keeps_mk, keeps_mk_fst, keeps_mk_snd] | apply keeps_core | apply keeps_foldl
      | apply keeps_foldl_fst | apply keeps_foldl_snd
      | (intro x; refine (have hx : State.Keeps r x := ?_; ?_); unfold x; rotate_left; clear_value x; rotate_left)
      | (intro x; refine (have hfn : ∀ y, State.Keeps r y → State.Keeps r (x y) := ?_; ?_); unfold x; rotate_left; clear_value x; rotate_left)
      | (intro x; refine (have hfn : ∀ y z, State.Keeps r y → State.Keeps r (x y z) := ?_; ?_); unfold x; rotate_left; clear_value x; rotate_left)
      | apply hfn | (intro x; clear_value x) | intro x | split | refine keeps_snd (by assumption) ?_ | lift_lets | dsimp only

theorem State.settleEngine_keeps {r : State} (s : State) (core : Nat) (eng : Nat) (b : TBlock) (x4 : Nat) (h : r.Keeps s) :
    r.Keeps (State.settleEngine s core eng b x4) := by
  induction x4 generalizing s core eng b with
  | zero =>
    unfold State.settleEngine
    with_reducible
      repeat' first
        | assumption | apply State.syncEngine_keeps | apply State.settleWaitq_keeps | apply State.issue_keeps | apply State.doAccOp_keeps
        | apply State.setEngine_keeps | simp -zeta -zetaUnused -zetaHave -proj only [keeps_mk] | apply keeps_core
        | (intro x; refine (have hx : State.Keeps r x := ?_; ?_); unfold x; rotate_left; clear_value x; rotate_left) | (intro x; clear_value x)
        | intro x | split | lift_lets | dsimp only
  | succ k ih =>
    unfold State.settleEngine
    with_reducible
      repeat' first
        | assumption | apply ih | apply State.syncEngine_keeps | apply State.settleWaitq_keeps | apply State.issue_keeps | apply State.doAccOp_keeps
        | apply State.setEngine_keeps | simp -zeta -zetaUnused -zetaHave -proj only [keeps_mk] | apply keeps_core
        | (intro x; refine (have hx : State.Keeps r x := ?_; ?_); unfold x; rotate_left; clear_value x; rotate_left) | (intro x; clear_value x)
        | intro x | split | lift_lets | dsimp only

theorem State.pumpEngine_keeps {r : State} (s : State) (core : Nat) (eng : Nat) (h : r.Keeps s) :
    r.Keeps (State.pumpEngine s core eng) := by
  unfold State.pumpEngine
  with_reducible
    repeat' first
      | assumption | apply State.settleEngine_keeps | apply State.syncEngine_keeps | simp -zeta -zetaUnused -zetaHave -proj only [keeps_mk_fst]
      | apply keeps_foldl | apply keeps_foldl_fst | apply keeps_foldl_snd
      | (intro x; refine (have hx : State.Keeps r x := ?_; ?_); unfold x; rotate_left; clear_value x; rotate_left) | (intro x; clear_value x)
      | intro x | split | lift_lets | dsimp only

theorem State.engFault_keeps {r : State} (s : State) (core : Nat) (eng : Nat) (code : Nat) (d : Desc) (detail : List Byte) (h : r.Keeps s) :
    r.Keeps (State.engFault s core eng code d detail) := by
  unfold State.engFault
  with_reducible
    repeat' first
      | assumption | apply State.tfault_keeps | dsimp only

theorem State.withEng_keeps {r : State} (s : State) (core : Nat) (slot : Nat) (w0 : BitVec 64) (b : TBlock) (g : TGroup) (k : Nat → State) (h : r.Keeps s) (hk : ∀ y0, r.Keeps (k y0)) :
    r.Keeps (State.withEng s core slot w0 b g k) := by
  unfold State.withEng
  with_reducible
    repeat' first
      | assumption | apply hk | apply State.preciseFault_keeps
      | (intro x; refine (have hx : State.Keeps r x := ?_; ?_); unfold x; rotate_left; clear_value x; rotate_left) | (intro x; clear_value x)
      | intro x | split | lift_lets | dsimp only

theorem State.handOver_keeps {r : State} (s0 : State) (core : Nat) (slot : Nat) (opc : Nat) (w0 : BitVec 64) (vec : Bool) (h : r.Keeps s0) :
    r.Keeps (State.handOver s0 core slot opc w0 vec) := by
  unfold State.handOver
  with_reducible
    repeat' first
      | assumption | apply State.issue_keeps | apply State.withEng_keeps | apply State.preciseFault_keeps | apply State.advance_keeps
      | apply State.setEngine_keeps | apply State.syncEngine_keeps | simp -zeta -zetaUnused -zetaHave -proj only [keeps_mk] | apply keeps_core
      | (intro x; refine (have hx : State.Keeps r x := ?_; ?_); unfold x; rotate_left; clear_value x; rotate_left) | (intro x; clear_value x)
      | intro x | split | lift_lets | dsimp only

theorem execMxa_keeps {r : State} (core : Nat) (slot : Nat) (w0 : BitVec 64) (_w1 : BitVec 64) (s : State) (h : r.Keeps s) :
    KeepsOut r (execMxa core slot w0 _w1 s) := by
  unfold execMxa
  with_reducible
    repeat' first
      | assumption | apply keeps_next | apply State.handOver_keeps | dsimp only

theorem execVxa_keeps {r : State} (core : Nat) (slot : Nat) (w0 : BitVec 64) (_w1 : BitVec 64) (s : State) (h : r.Keeps s) :
    KeepsOut r (execVxa core slot w0 _w1 s) := by
  unfold execVxa
  with_reducible
    repeat' first
      | assumption | apply keeps_next | apply State.handOver_keeps | dsimp only

theorem execWaitq_keeps {r : State} (core : Nat) (slot : Nat) (w0 : BitVec 64) (_w1 : BitVec 64) (s : State) (h : r.Keeps s) :
    KeepsOut r (execWaitq core slot w0 _w1 s) := by
  unfold execWaitq
  with_reducible
    repeat' first
      | assumption | apply keeps_next | apply State.issue_keeps | apply State.settleWaitq_keeps | apply State.setTgroup_keeps
      | apply State.withEng_keeps | simp -zeta -zetaUnused -zetaHave -proj only [keeps_mk] | apply keeps_core
      | (intro x; refine (have hx : State.Keeps r x := ?_; ?_); unfold x; rotate_left; clear_value x; rotate_left) | (intro x; clear_value x)
      | intro x | split | lift_lets | dsimp only

theorem State.accOp_keeps {r : State} (s : State) (core : Nat) (slot : Nat) (opc : Nat) (w0 : BitVec 64) (kind : Nat) (regs : List (Nat × Nat)) (h : r.Keeps s) :
    r.Keeps (State.accOp s core slot opc w0 kind regs) := by
  unfold State.accOp
  with_reducible
    repeat' first
      | assumption | apply State.issue_keeps | apply State.withEng_keeps | apply State.advance_keeps | apply State.setEngine_keeps
      | apply State.pumpEngine_keeps | simp -zeta -zetaUnused -zetaHave -proj only [keeps_mk] | apply keeps_core
      | (intro x; refine (have hx : State.Keeps r x := ?_; ?_); unfold x; rotate_left; clear_value x; rotate_left) | (intro x; clear_value x)
      | intro x | split | lift_lets | dsimp only

theorem execAccRel_keeps {r : State} (core : Nat) (slot : Nat) (w0 : BitVec 64) (_w1 : BitVec 64) (s : State) (h : r.Keeps s) :
    KeepsOut r (execAccRel core slot w0 _w1 s) := by
  unfold execAccRel
  with_reducible
    repeat' first
      | assumption | apply keeps_next | apply State.accOp_keeps | dsimp only

theorem execAccRds_keeps {r : State} (core : Nat) (slot : Nat) (w0 : BitVec 64) (_w1 : BitVec 64) (s : State) (h : r.Keeps s) :
    KeepsOut r (execAccRds core slot w0 _w1 s) := by
  unfold execAccRds
  with_reducible
    repeat' first
      | assumption | apply keeps_next | apply State.accOp_keeps | dsimp only

theorem execAccFclr_keeps {r : State} (core : Nat) (slot : Nat) (w0 : BitVec 64) (_w1 : BitVec 64) (s : State) (h : r.Keeps s) :
    KeepsOut r (execAccFclr core slot w0 _w1 s) := by
  unfold execAccFclr
  with_reducible
    repeat' first
      | assumption | apply keeps_next | apply State.accOp_keeps | dsimp only

theorem execMxeDescAccept_keeps {r : State} (core : Nat) (eng : Nat) (s : State) (h : r.Keeps s) :
    KeepsOut r (execMxeDescAccept core eng s) := by
  unfold execMxeDescAccept
  with_reducible
    repeat' first
      | assumption | apply keeps_next | apply State.engFault_keeps | apply State.pumpEngine_keeps | apply State.setEngine_keeps
      | simp -zeta -zetaUnused -zetaHave -proj only [keeps_mk] | apply keeps_core
      | (intro x; refine (have hx : State.Keeps r x := ?_; ?_); unfold x; rotate_left; clear_value x; rotate_left) | (intro x; clear_value x)
      | intro x | split | lift_lets | dsimp only

theorem State.mxeReplay_keeps {r : State} (s : State) (core : Nat) (eng : Nat) (d : Desc) (p : Nat × Nat) (h : r.Keeps s) :
    r.Keeps (State.mxeReplay s core eng d p) := by
  unfold State.mxeReplay
  with_reducible
    repeat' first
      | assumption | apply State.engFault_keeps | apply State.pumpEngine_keeps | apply State.bump_keeps | apply State.setEngine_keeps
      | simp -zeta -zetaUnused -zetaHave -proj only [keeps_mk] | apply keeps_core
      | (intro x; refine (have hx : State.Keeps r x := ?_; ?_); unfold x; rotate_left; clear_value x; rotate_left) | (intro x; clear_value x)
      | intro x | split | lift_lets | dsimp only

theorem execMxeChunkCommit_keeps {r : State} (core : Nat) (eng : Nat) (s : State) (h : r.Keeps s) :
    KeepsOut r (execMxeChunkCommit core eng s) := by
  unfold execMxeChunkCommit
  with_reducible
    repeat' first
      | assumption | apply keeps_next | apply State.bumpN_keeps | apply State.mxeReplay_keeps | apply State.pumpEngine_keeps
      | apply State.setEngine_keeps | simp -zeta -zetaUnused -zetaHave -proj only [keeps_mk] | apply keeps_core
      | (intro x; refine (have hx : State.Keeps r x := ?_; ?_); unfold x; rotate_left; clear_value x; rotate_left) | (intro x; clear_value x)
      | intro x | split | lift_lets | dsimp only

theorem execMxeDescRetire_keeps {r : State} (core : Nat) (eng : Nat) (s : State) (h : r.Keeps s) :
    KeepsOut r (execMxeDescRetire core eng s) := by
  unfold execMxeDescRetire
  with_reducible
    repeat' first
      | assumption | apply keeps_next | apply State.bump_keeps | apply State.setEngine_keeps | apply State.devArrive_keeps
      | apply State.pumpEngine_keeps | simp -zeta -zetaUnused -zetaHave -proj only [keeps_mk] | apply keeps_core
      | (intro x; refine (have hx : State.Keeps r x := ?_; ?_); unfold x; rotate_left; clear_value x; rotate_left) | (intro x; clear_value x)
      | intro x | split | lift_lets | dsimp only

theorem execVxeDescAccept_keeps {r : State} (core : Nat) (eng : Nat) (s : State) (h : r.Keeps s) :
    KeepsOut r (execVxeDescAccept core eng s) := by
  unfold execVxeDescAccept
  with_reducible
    repeat' first
      | assumption | apply keeps_next | apply State.engFault_keeps | apply State.pumpEngine_keeps | apply State.setEngine_keeps
      | simp -zeta -zetaUnused -zetaHave -proj only [keeps_mk] | apply keeps_core
      | (intro x; refine (have hx : State.Keeps r x := ?_; ?_); unfold x; rotate_left; clear_value x; rotate_left) | (intro x; clear_value x)
      | intro x | split | lift_lets | dsimp only

theorem execVxeDescStart_keeps {r : State} (core : Nat) (eng : Nat) (s : State) (h : r.Keeps s) :
    KeepsOut r (execVxeDescStart core eng s) := by
  unfold execVxeDescStart
  with_reducible
    repeat' first
      | assumption | apply keeps_next | apply State.engFault_keeps | apply State.pumpEngine_keeps | apply State.setEngine_keeps
      | simp -zeta -zetaUnused -zetaHave -proj only [keeps_mk] | apply keeps_core
      | (intro x; refine (have hx : State.Keeps r x := ?_; ?_); unfold x; rotate_left; clear_value x; rotate_left) | (intro x; clear_value x)
      | intro x | split | lift_lets | dsimp only

theorem execVxeDescComplete_keeps {r : State} (core : Nat) (eng : Nat) (s : State) (h : r.Keeps s) :
    KeepsOut r (execVxeDescComplete core eng s) := by
  unfold execVxeDescComplete
  with_reducible
    repeat' first
      | assumption | apply keeps_next | apply State.setTblock_keeps | apply State.setEngine_keeps | apply State.bumpN_keeps | apply State.bump_keeps
      | apply State.devArrive_keeps | apply State.pumpEngine_keeps | simp -zeta -zetaUnused -zetaHave -proj only [keeps_mk] | apply keeps_core
      | (intro x; refine (have hx : State.Keeps r x := ?_; ?_); unfold x; rotate_left; clear_value x; rotate_left) | (intro x; clear_value x)
      | intro x | split | lift_lets | dsimp only

/-! Machine/TSync.lean -/

theorem State.arriveBar_keeps {r : State} (s : State) (core : Nat) (slot : Nat) (w0 : BitVec 64) (wait : Bool) (b : TBlock) (g : TGroup) (h : r.Keeps s) :
    r.Keeps (State.arriveBar s core slot w0 wait b g) := by
  unfold State.arriveBar
  with_reducible
    repeat' first
      | assumption | apply State.preciseFault_keeps | apply State.setTblock_keeps | apply State.setTgroup_keeps | apply State.advance_keeps
      | apply State.settleBars_keeps | simp -zeta -zetaUnused -zetaHave -proj only [keeps_mk] | apply keeps_core
      | (intro x; refine (have hx : State.Keeps r x := ?_; ?_); unfold x; rotate_left; clear_value x; rotate_left) | (intro x; clear_value x)
      | intro x | split | lift_lets | dsimp only

theorem execBarSync_keeps {r : State} (core : Nat) (slot : Nat) (w0 : BitVec 64) (_w1 : BitVec 64) (s : State) (h : r.Keeps s) :
    KeepsOut r (execBarSync core slot w0 _w1 s) := by
  unfold execBarSync
  with_reducible
    repeat' first
      | assumption | apply keeps_next | apply State.issue_keeps | apply State.arriveBar_keeps | intro x | dsimp only

theorem execBarArv_keeps {r : State} (core : Nat) (slot : Nat) (w0 : BitVec 64) (_w1 : BitVec 64) (s : State) (h : r.Keeps s) :
    KeepsOut r (execBarArv core slot w0 _w1 s) := by
  unfold execBarArv
  with_reducible
    repeat' first
      | assumption | apply keeps_next | apply State.issue_keeps | apply State.arriveBar_keeps | intro x | dsimp only

theorem State.fireWatchdog_keeps {r : State} (s : State) (core : Nat) (b : TBlock) (bar : Nat) (x : Barrier) (h : r.Keeps s) :
    r.Keeps (State.fireWatchdog s core b bar x) := by
  unfold State.fireWatchdog
  with_reducible
    repeat' first
      | assumption | apply State.tfault_keeps
      | (intro x; refine (have hx : State.Keeps r x := ?_; ?_); unfold x; rotate_left; clear_value x; rotate_left) | (intro x; clear_value x)
      | intro x | lift_lets | dsimp only

theorem State.fireSaved_keeps {r : State} (s : State) (core : Nat) (sv : TSave) (b : TBlock) (bar : Nat) (x : Barrier) (h : r.Keeps s) :
    r.Keeps (State.fireSaved s core sv b bar x) := by
  unfold State.fireSaved
  with_reducible
    repeat' first
      | assumption | apply State.raiseT_keeps
      | (intro x; refine (have hx : State.Keeps r x := ?_; ?_); unfold x; rotate_left; clear_value x; rotate_left) | (intro x; clear_value x)
      | intro x | split | lift_lets | dsimp only

theorem execBarrierWatchdog_keeps {r : State} (core : Nat) (blk : Nat) (bar : Nat) (s : State) (h : r.Keeps s) :
    KeepsOut r (execBarrierWatchdog core blk bar s) := by
  unfold execBarrierWatchdog
  with_reducible
    repeat' first
      | assumption | apply keeps_next | apply State.fireWatchdog_keeps | apply State.fireSaved_keeps
      | (intro x; refine (have hx : State.Keeps r x := ?_; ?_); unfold x; rotate_left; clear_value x; rotate_left) | (intro x; clear_value x)
      | intro x | split | lift_lets | dsimp only

theorem execFence_keeps {r : State} (core : Nat) (slot : Nat) (w0 : BitVec 64) (_w1 : BitVec 64) (s : State) (h : r.Keeps s) :
    KeepsOut r (execFence core slot w0 _w1 s) := by
  unfold execFence
  with_reducible
    repeat' first
      | assumption | apply keeps_next | apply State.issue_keeps | apply State.settleFence_keeps | apply State.setTgroup_keeps
      | simp -zeta -zetaUnused -zetaHave -proj only [keeps_mk] | apply keeps_core
      | (intro x; refine (have hx : State.Keeps r x := ?_; ?_); unfold x; rotate_left; clear_value x; rotate_left) | (intro x; clear_value x)
      | intro x | lift_lets | dsimp only

theorem State.tmbRangeFault_keeps {r : State} (s : State) (core : Nat) (slot : Nat) (w0 : BitVec 64) (b : TBlock) (g : TGroup) (ls : List Nat) (h : r.Keeps s) :
    KeepsOpt r (State.tmbRangeFault s core slot w0 b g ls) := by
  unfold State.tmbRangeFault
  with_reducible
    repeat' first
      | assumption | apply keeps_some | exact keeps_none | apply State.preciseFault_keeps
      | (intro x; refine (have hx : State.Keeps r x := ?_; ?_); unfold x; rotate_left; clear_value x; rotate_left) | (intro x; clear_value x)
      | intro x | split | lift_lets | dsimp only

theorem State.tmbLanes_keeps {r : State} (s : State) (core : Nat) (slot : Nat) (w0 : BitVec 64) (b : TBlock) (g : TGroup) (op : TmbOp) (operand : Nat → Nat) (dest : Nat) (pd : Nat) (acq : Bool) (h : r.Keeps s) :
    r.Keeps (State.tmbLanes s core slot w0 b g op operand dest pd acq) := by
  unfold State.tmbLanes
  with_reducible
    repeat' first
      | assumption | apply State.tmbRangeFault_keeps | apply State.sendTmb_keeps | apply State.advance_keeps
      | simp -zeta -zetaUnused -zetaHave -proj only [keeps_mk, keeps_mk_fst] | apply keeps_core | apply keeps_foldl | apply keeps_foldl_fst
      | apply keeps_foldl_snd | (intro x; refine (have hx : State.Keeps r x := ?_; ?_); unfold x; rotate_left; clear_value x; rotate_left)
      | (intro x; refine (have hfn : ∀ y, State.Keeps r y → State.Keeps r (x y) := ?_; ?_); unfold x; rotate_left; clear_value x; rotate_left)
      | (intro x; refine (have hfn : ∀ y z, State.Keeps r y → State.Keeps r (x y z) := ?_; ?_); unfold x; rotate_left; clear_value x; rotate_left)
      | apply hfn | (intro x; clear_value x) | intro x | split | refine keeps_of_some (by assumption) ?_ | lift_lets | dsimp only

theorem execTmbArv_keeps {r : State} (core : Nat) (slot : Nat) (w0 : BitVec 64) (_w1 : BitVec 64) (s : State) (h : r.Keeps s) :
    KeepsOut r (execTmbArv core slot w0 _w1 s) := by
  unfold execTmbArv
  with_reducible
    repeat' first
      | assumption | apply keeps_next | apply State.issue_keeps | apply State.tmbLanes_keeps
      | (intro x; refine (have hx : State.Keeps r x := ?_; ?_); unfold x; rotate_left; clear_value x; rotate_left) | (intro x; clear_value x)
      | intro x | split | lift_lets | dsimp only

theorem execTmbPoll_keeps {r : State} (core : Nat) (slot : Nat) (w0 : BitVec 64) (_w1 : BitVec 64) (s : State) (h : r.Keeps s) :
    KeepsOut r (execTmbPoll core slot w0 _w1 s) := by
  unfold execTmbPoll
  with_reducible
    repeat' first
      | assumption | apply keeps_next | apply State.issue_keeps | apply State.tmbLanes_keeps | intro x | dsimp only

theorem execTmbWait_keeps {r : State} (core : Nat) (slot : Nat) (w0 : BitVec 64) (w1 : BitVec 64) (s : State) (h : r.Keeps s) :
    KeepsOut r (execTmbWait core slot w0 w1 s) := by
  unfold execTmbWait
  with_reducible
    repeat' first
      | assumption | apply keeps_next | apply State.issue_keeps | apply State.tmbRangeFault_keeps | apply State.setTgroup_keeps
      | apply State.sendTmb_keeps | simp -zeta -zetaUnused -zetaHave -proj only [keeps_mk] | apply keeps_core
      | (intro x; refine (have hx : State.Keeps r x := ?_; ?_); unfold x; rotate_left; clear_value x; rotate_left) | (intro x; clear_value x)
      | intro x | split | refine keeps_of_some (by assumption) ?_ | lift_lets | dsimp only

theorem execTmbTake_keeps {r : State} (core : Nat) (slot : Nat) (w0 : BitVec 64) (_w1 : BitVec 64) (s : State) (h : r.Keeps s) :
    KeepsOut r (execTmbTake core slot w0 _w1 s) := by
  unfold execTmbTake
  with_reducible
    repeat' first
      | assumption | apply keeps_next | apply State.issue_keeps | apply State.tmbLanes_keeps | intro x | dsimp only

theorem execTmbPut_keeps {r : State} (core : Nat) (slot : Nat) (w0 : BitVec 64) (_w1 : BitVec 64) (s : State) (h : r.Keeps s) :
    KeepsOut r (execTmbPut core slot w0 _w1 s) := by
  unfold execTmbPut
  with_reducible
    repeat' first
      | assumption | apply keeps_next | apply State.issue_keeps | apply State.tmbLanes_keeps | intro x | dsimp only

theorem State.tmbAnswer_keeps {r : State} (s : State) (core : Nat) (slot : Nat) (r3 : TmbReq) (f : TGroup → TGroup) (h : r.Keeps s) :
    r.Keeps (State.tmbAnswer s core slot r3 f) := by
  unfold State.tmbAnswer
  with_reducible
    repeat' first
      | assumption | apply State.setTgroup_keeps | apply State.clearL1_keeps | simp -zeta -zetaUnused -zetaHave -proj only [keeps_mk]
      | apply keeps_core | (intro x; refine (have hx : State.Keeps r x := ?_; ?_); unfold x; rotate_left; clear_value x; rotate_left)
      | (intro x; clear_value x) | intro x | split | lift_lets | dsimp only

theorem State.endTmbWait_keeps {r : State} (s : State) (core : Nat) (slot : Nat) (v : Nat) (h : r.Keeps s) :
    r.Keeps (State.endTmbWait s core slot v) := by
  unfold State.endTmbWait
  with_reducible
    repeat' first
      | assumption | apply State.tmbWaitDone_keeps | apply State.clearL1_keeps
      | (intro x; refine (have hx : State.Keeps r x := ?_; ?_); unfold x; rotate_left; clear_value x; rotate_left) | (intro x; clear_value x)
      | intro x | split | lift_lets | dsimp only

end Sys2Proof.Machine
end

