-- ==== Sys2Proof/Laws/KeepsChip.lean ====
section
/-! SUPPORT. What State.Keeps says, operation by operation: of the blocks of the chip: Tumbler, dispatch, translation, Keyway, Ward, frames, tick, management and fabric. -/

open Sys2Proof
namespace Sys2Proof.Machine

set_option linter.all false

/-! Machine/Tmb.lean -/

theorem State.homeReq_keeps {r : State} (s : State) (n : Nat) (op : TmbOp) (h : r.Keeps s) :
    KeepsPair r (State.homeReq s n op) := by
  unfold State.homeReq
  with_reducible
    repeat' first
      | assumption | apply keeps_some_pair | exact keeps_none_pair | simp -zeta -zetaUnused -zetaHave -proj only [keeps_mk] | apply keeps_core
      | (intro x; refine (have hx : State.Keeps r x := ?_; ?_); unfold x; rotate_left; clear_value x; rotate_left) | (intro x; clear_value x)
      | intro x | split | lift_lets | dsimp only

theorem State.tmbDone_keeps {r : State} (s : State) (r1 : TmbReq) (f : TGroup → TGroup) (v : Nat) (h : r.Keeps s) :
    r.Keeps (State.tmbDone s r1 f v) := by
  unfold State.tmbDone
  with_reducible
    repeat' first
      | assumption | apply State.tmbAnswer_keeps | apply State.vtmbReply_keeps
      | (intro x; refine (have hx : State.Keeps r x := ?_; ?_); unfold x; rotate_left; clear_value x; rotate_left) | (intro x; clear_value x)
      | intro x | split | lift_lets | dsimp only

theorem State.tmbRefusedBack_keeps {r : State} (s : State) (r1 : TmbReq) (h : r.Keeps s) :
    r.Keeps (State.tmbRefusedBack s r1) := by
  unfold State.tmbRefusedBack
  with_reducible
    repeat' first
      | assumption | apply State.refuse_keeps
      | (intro x; refine (have hx : State.Keeps r x := ?_; ?_); unfold x; rotate_left; clear_value x; rotate_left) | (intro x; clear_value x)
      | intro x | split | lift_lets | dsimp only

theorem execTmbHomeArrive_keeps {r : State} (n : Nat) (s : State) (h : r.Keeps s) :
    KeepsOut r (execTmbHomeArrive n s) := by
  unfold execTmbHomeArrive
  with_reducible
    repeat' first
      | assumption | apply keeps_next | apply State.homeReq_keeps | apply State.tmbArrive_keeps | apply State.tmbDone_keeps
      | apply State.tmbRefusedBack_keeps | refine (State.tmbArrive_keeps _ _ _ ?_).out
      | (intro x; refine (have hx : State.Keeps r x := ?_; ?_); unfold x; rotate_left; clear_value x; rotate_left) | (intro x; clear_value x)
      | intro x | split | refine keeps_fst (by assumption) ?_ | refine keeps_of_some_pair (by assumption) ?_
      | refine keeps_of_some_pair' (by assumption) ?_ | lift_lets | dsimp only

theorem execTmbHomePoll_keeps {r : State} (n : Nat) (s : State) (h : r.Keeps s) :
    KeepsOut r (execTmbHomePoll n s) := by
  unfold execTmbHomePoll
  with_reducible
    repeat' first
      | assumption | apply keeps_next | apply State.homeReq_keeps | apply State.tmbPoll_keeps | apply State.tmbDone_keeps
      | refine (State.tmbPoll_keeps _ _ ?_).out
      | (intro x; refine (have hx : State.Keeps r x := ?_; ?_); unfold x; rotate_left; clear_value x; rotate_left) | (intro x; clear_value x)
      | intro x | split | refine keeps_fst (by assumption) ?_ | refine keeps_of_some_pair (by assumption) ?_
      | refine keeps_of_some_pair' (by assumption) ?_ | lift_lets | dsimp only

theorem execTmbHomeWait_keeps {r : State} (n : Nat) (s : State) (h : r.Keeps s) :
    KeepsOut r (execTmbHomeWait n s) := by
  unfold execTmbHomeWait
  with_reducible
    repeat' first
      | assumption | apply keeps_next | apply State.homeReq_keeps | apply State.tmbWait_keeps
      | (intro x; refine (have hx : State.Keeps r x := ?_; ?_); unfold x; rotate_left; clear_value x; rotate_left) | (intro x; clear_value x)
      | intro x | split | refine keeps_of_some_pair (by assumption) ?_ | refine keeps_of_some_pair' (by assumption) ?_ | lift_lets | dsimp only

theorem execTmbHomeTake_keeps {r : State} (n : Nat) (s : State) (h : r.Keeps s) :
    KeepsOut r (execTmbHomeTake n s) := by
  unfold execTmbHomeTake
  with_reducible
    repeat' first
      | assumption | apply keeps_next | apply State.homeReq_keeps | apply State.tmbTake_keeps | apply State.tmbDone_keeps
      | apply State.tmbRefusedBack_keeps | refine (State.tmbTake_keeps _ _ ?_).out
      | (intro x; refine (have hx : State.Keeps r x := ?_; ?_); unfold x; rotate_left; clear_value x; rotate_left) | (intro x; clear_value x)
      | intro x | split | refine keeps_fst (by assumption) ?_ | refine keeps_of_some_pair (by assumption) ?_
      | refine keeps_of_some_pair' (by assumption) ?_ | lift_lets | dsimp only

theorem execTmbHomePut_keeps {r : State} (n : Nat) (s : State) (h : r.Keeps s) :
    KeepsOut r (execTmbHomePut n s) := by
  unfold execTmbHomePut
  with_reducible
    repeat' first
      | assumption | apply keeps_next | apply State.homeReq_keeps | apply State.tmbPut_keeps | apply State.tmbDone_keeps
      | apply State.tmbRefusedBack_keeps | refine (State.tmbPut_keeps _ _ _ ?_).out
      | (intro x; refine (have hx : State.Keeps r x := ?_; ?_); unfold x; rotate_left; clear_value x; rotate_left) | (intro x; clear_value x)
      | intro x | split | refine keeps_fst (by assumption) ?_ | refine keeps_of_some_pair (by assumption) ?_
      | refine keeps_of_some_pair' (by assumption) ?_ | lift_lets | dsimp only

theorem execWaitRegistrationReserved_keeps {r : State} (n : Nat) (s : State) (h : r.Keeps s) :
    KeepsOut r (execWaitRegistrationReserved n s) := by
  unfold execWaitRegistrationReserved
  with_reducible
    repeat' first
      | assumption | apply keeps_next | simp -zeta -zetaUnused -zetaHave -proj only [keeps_mk] | apply keeps_core
      | (intro x; refine (have hx : State.Keeps r x := ?_; ?_); unfold x; rotate_left; clear_value x; rotate_left) | (intro x; clear_value x)
      | intro x | split | lift_lets | dsimp only

theorem State.takeNote_keeps {r : State} (s : State) (n : Nat) (h : r.Keeps s) :
    r.Keeps (State.takeNote s n) := by
  unfold State.takeNote
  with_reducible
    repeat' first
      | assumption | simp -zeta -zetaUnused -zetaHave -proj only [keeps_mk] | apply keeps_core
      | (intro x; refine (have hx : State.Keeps r x := ?_; ?_); unfold x; rotate_left; clear_value x; rotate_left) | (intro x; clear_value x)
      | intro x | lift_lets | dsimp only

theorem State.coreWaitEnds_keeps {r : State} (s : State) (src : TmbSrc) (v : Nat) (h : r.Keeps s) :
    r.Keeps (State.coreWaitEnds s src v) := by
  unfold State.coreWaitEnds
  with_reducible
    repeat' first
      | assumption | apply State.endTmbWait_keeps | apply State.vtmbWaitEnd_keeps
      | (intro x; refine (have hx : State.Keeps r x := ?_; ?_); unfold x; rotate_left; clear_value x; rotate_left) | (intro x; clear_value x)
      | intro x | split | lift_lets | dsimp only

theorem execTmbFireNotify_keeps {r : State} (n : Nat) (s : State) (h : r.Keeps s) :
    KeepsOut r (execTmbFireNotify n s) := by
  unfold execTmbFireNotify
  with_reducible
    repeat' first
      | assumption | apply keeps_next | apply State.coreWaitEnds_keeps | apply State.takeNote_keeps
      | (intro x; refine (have hx : State.Keeps r x := ?_; ?_); unfold x; rotate_left; clear_value x; rotate_left) | (intro x; clear_value x)
      | intro x | split | lift_lets | dsimp only

theorem execTmbWaitTimeout_keeps {r : State} (tcore : Bool) (core : Nat) (slot : Nat) (s : State) (h : r.Keeps s) :
    KeepsOut r (execTmbWaitTimeout tcore core slot s) := by
  unfold execTmbWaitTimeout
  with_reducible
    repeat' first
      | assumption | apply keeps_next | apply State.coreWaitEnds_keeps | apply State.withdrawWaits_keeps
      | (intro x; refine (have hx : State.Keeps r x := ?_; ?_); unfold x; rotate_left; clear_value x; rotate_left) | (intro x; clear_value x)
      | intro x | split | lift_lets | dsimp only

theorem State.dropGated_keeps {r : State} (s : State) (unit : Nat) (r2 : Rec) (h : r.Keeps s) :
    r.Keeps (State.dropGated s unit r2) := by
  unfold State.dropGated
  with_reducible
    repeat' first
      | assumption | apply State.terminate_keeps | apply State.emit_keeps | apply State.setUnit_keeps | apply State.syncQuiesced_keeps
      | apply State.syncUnit_keeps | apply State.endLaunch_keeps | apply State.setFlag_keeps | simp -zeta -zetaUnused -zetaHave -proj only [keeps_mk]
      | apply keeps_core | (intro x; refine (have hx : State.Keeps r x := ?_; ?_); unfold x; rotate_left; clear_value x; rotate_left)
      | (intro x; clear_value x) | intro x | split | lift_lets | dsimp only

theorem execTmbRefusalReturn_keeps {r : State} (n : Nat) (s : State) (h : r.Keeps s) :
    KeepsOut r (execTmbRefusalReturn n s) := by
  unfold execTmbRefusalReturn
  with_reducible
    repeat' first
      | assumption | apply keeps_next | apply State.tfault_keeps | apply State.takeNote_keeps | apply State.vfault_keeps | apply State.dropGated_keeps
      | (intro x; refine (have hx : State.Keeps r x := ?_; ?_); unfold x; rotate_left; clear_value x; rotate_left) | (intro x; clear_value x)
      | intro x | split | lift_lets | dsimp only

theorem execTmbCfgWrite_keeps {r : State} (tmb : Nat) (value : Word) (s : State) (h : r.Keeps s) :
    KeepsOut r (execTmbCfgWrite tmb value s) := by
  unfold execTmbCfgWrite
  with_reducible
    repeat' first
      | assumption | apply keeps_next | apply State.dropWaits_keeps | apply State.setReg_keeps | apply State.putTmb_keeps | apply State.emit_keeps
      | apply State.tmbRefused_keeps | (intro x; refine (have hx : State.Keeps r x := ?_; ?_); unfold x; rotate_left; clear_value x; rotate_left)
      | (intro x; clear_value x) | intro x | split | lift_lets | dsimp only

theorem execTmbOpArrive_keeps {r : State} (tmb : Nat) (weight : Nat) (s : State) (h : r.Keeps s) :
    KeepsOut r (execTmbOpArrive tmb weight s) := by
  unfold execTmbOpArrive
  with_reducible
    repeat' first
      | assumption | apply keeps_next | apply State.tmbArrive_keeps | refine (State.tmbArrive_keeps _ _ _ ?_).out | split
      | refine keeps_fst (by assumption) ?_ | dsimp only

theorem execTmbOpReset_keeps {r : State} (tmb : Nat) (s : State) (h : r.Keeps s) :
    KeepsOut r (execTmbOpReset tmb s) := by
  unfold execTmbOpReset
  with_reducible
    repeat' first
      | assumption | apply keeps_next | apply State.tmbReset_keeps | split | dsimp only

/-! Machine/Block.lean -/

theorem State.askLower_keeps {r : State} (s : State) (unit : Nat) (h : r.Keeps s) :
    r.Keeps (State.askLower s unit) := by
  unfold State.askLower
  with_reducible
    repeat' first
      | assumption | apply State.askPreempt_keeps | simp -zeta -zetaUnused -zetaHave -proj only [keeps_mk_fst] | apply keeps_foldl
      | apply keeps_foldl_fst | apply keeps_foldl_snd
      | (intro x; refine (have hx : State.Keeps r x := ?_; ?_); unfold x; rotate_left; clear_value x; rotate_left) | (intro x; clear_value x)
      | intro x | split | lift_lets | dsimp only

theorem State.descFault_keeps {r : State} (s : State) (unit : Nat) (code : Nat) (addr : Nat) (detail : List Byte) (h : r.Keeps s) :
    r.Keeps (State.descFault s unit code addr detail) := by
  unfold State.descFault
  with_reducible
    repeat' first
      | assumption | apply State.terminate_keeps | dsimp only

theorem State.descXlt_keeps {r : State} (s : State) (unit : Nat) (p : FrameProg) (va : Nat) (reason : Nat) (h : r.Keeps s) :
    r.Keeps (State.descXlt s unit p va reason) := by
  unfold State.descXlt
  with_reducible
    repeat' first
      | assumption | apply State.nextFree_keeps | apply State.endProgram_keeps | apply State.holdRec_keeps | refine (State.nextFree_keeps _ ?_).out
      | (intro x; refine (have hx : State.Keeps r x := ?_; ?_); unfold x; rotate_left; clear_value x; rotate_left) | (intro x; clear_value x)
      | intro x | split | refine keeps_snd (by assumption) ?_ | lift_lets | dsimp only

theorem execBlockDescriptorFetch_keeps {r : State} (unit : Nat) (s : State) (h : r.Keeps s) :
    KeepsOut r (execBlockDescriptorFetch unit s) := by
  unfold execBlockDescriptorFetch
  with_reducible
    repeat' first
      | assumption | apply keeps_next | apply State.descFault_keeps | apply State.devRead_keeps | apply State.walkOnce_keeps
      | apply State.terminate_keeps | apply State.askLower_keeps | apply State.setProg_keeps | apply State.descXlt_keeps
      | refine (State.devRead_keeps _ _ _ _ _ _ _ ?_).out | simp -zeta -zetaUnused -zetaHave -proj only [keeps_mk] | apply keeps_core
      | (intro x; refine (have hx : State.Keeps r x := ?_; ?_); unfold x; rotate_left; clear_value x; rotate_left) | (intro x; clear_value x)
      | intro x | split | refine keeps_fst (by assumption) ?_ | lift_lets | dsimp only

theorem State.putBlock_keeps {r : State} (s : State) (p : FrameProg) (core : Nat) (item : Nat) (h : r.Keeps s) :
    r.Keeps (State.putBlock s p core item) := by
  unfold State.putBlock
  with_reducible
    repeat' first
      | assumption | apply State.setTblock_keeps | apply State.setTgroup_keeps | apply State.syncTcore_keeps
      | simp -zeta -zetaUnused -zetaHave -proj only [keeps_mk_fst] | apply keeps_foldl | apply keeps_foldl_fst | apply keeps_foldl_snd
      | (intro x; refine (have hx : State.Keeps r x := ?_; ?_); unfold x; rotate_left; clear_value x; rotate_left) | (intro x; clear_value x)
      | intro x | lift_lets | dsimp only

theorem State.itemIssued_keeps {r : State} (s : State) (unit : Nat) (item : Nat) (h : r.Keeps s) :
    r.Keeps (State.itemIssued s unit item) := by
  unfold State.itemIssued
  with_reducible
    repeat' first
      | assumption | apply State.traceItem_keeps | apply State.syncUnit_keeps | apply State.syncClock_keeps | apply State.setProg_keeps
      | simp -zeta -zetaUnused -zetaHave -proj only [keeps_mk] | apply keeps_core
      | (intro x; refine (have hx : State.Keeps r x := ?_; ?_); unfold x; rotate_left; clear_value x; rotate_left) | (intro x; clear_value x)
      | intro x | split | lift_lets | dsimp only

theorem execBlockLaunch_keeps {r : State} (unit : Nat) (item : Nat) (s : State) (h : r.Keeps s) :
    KeepsOut r (execBlockLaunch unit item s) := by
  unfold execBlockLaunch
  with_reducible
    repeat' first
      | assumption | apply keeps_next | apply State.itemIssued_keeps | apply State.putBlock_keeps
      | (intro x; refine (have hx : State.Keeps r x := ?_; ?_); unfold x; rotate_left; clear_value x; rotate_left) | (intro x; clear_value x)
      | intro x | split | lift_lets | dsimp only

theorem State.itemDone_keeps {r : State} (s : State) (unit : Nat) (item : Nat) (h : r.Keeps s) :
    r.Keeps (State.itemDone s unit item) := by
  unfold State.itemDone
  with_reducible
    repeat' first
      | assumption | apply State.traceItem_keeps | apply State.syncUnit_keeps | apply State.syncClock_keeps | apply State.setProg_keeps
      | simp -zeta -zetaUnused -zetaHave -proj only [keeps_mk] | apply keeps_core
      | (intro x; refine (have hx : State.Keeps r x := ?_; ?_); unfold x; rotate_left; clear_value x; rotate_left) | (intro x; clear_value x)
      | intro x | split | lift_lets | dsimp only

theorem State.dropMove_keeps {r : State} (s : State) (core : Nat) (unit : Nat) (h : r.Keeps s) :
    r.Keeps (State.dropMove s core unit) := by
  unfold State.dropMove
  with_reducible
    repeat' first
      | assumption | apply State.setFlag_keeps | simp -zeta -zetaUnused -zetaHave -proj only [keeps_mk] | apply keeps_core
      | (intro x; refine (have hx : State.Keeps r x := ?_; ?_); unfold x; rotate_left; clear_value x; rotate_left) | (intro x; clear_value x)
      | intro x | split | lift_lets | dsimp only

theorem execBlockComplete_keeps {r : State} (core : Nat) (blk : Nat) (s : State) (h : r.Keeps s) :
    KeepsOut r (execBlockComplete core blk s) := by
  unfold execBlockComplete
  with_reducible
    repeat' first
      | assumption | apply keeps_next | apply State.pumpRestores_keeps | apply State.dropMove_keeps | apply State.itemDone_keeps
      | apply State.freeBlock_keeps | (intro x; refine (have hx : State.Keeps r x := ?_; ?_); unfold x; rotate_left; clear_value x; rotate_left)
      | (intro x; clear_value x) | intro x | split | lift_lets | dsimp only

theorem State.takePreempt_keeps {r : State} (s : State) (c : Nat) (unit : Nat) (h : r.Keeps s) :
    r.Keeps (State.takePreempt s c unit) := by
  unfold State.takePreempt
  with_reducible
    repeat' first
      | assumption | simp -zeta -zetaUnused -zetaHave -proj only [keeps_mk] | apply keeps_core
      | (intro x; refine (have hx : State.Keeps r x := ?_; ?_); unfold x; rotate_left; clear_value x; rotate_left) | (intro x; clear_value x)
      | intro x | lift_lets | dsimp only

theorem execTPreempt_keeps {r : State} (core : Nat) (s : State) (h : r.Keeps s) :
    KeepsOut r (execTPreempt core s) := by
  unfold execTPreempt
  with_reducible
    repeat' first
      | assumption | apply keeps_next | apply State.setFlag_keeps | apply State.takePreempt_keeps | apply State.syncClock_keeps
      | apply State.setEngine_keeps | apply State.setTblock_keeps | simp -zeta -zetaUnused -zetaHave -proj only [keeps_mk, keeps_mk_fst]
      | apply keeps_core | apply keeps_foldl | apply keeps_foldl_fst | apply keeps_foldl_snd
      | (intro x; refine (have hx : State.Keeps r x := ?_; ?_); unfold x; rotate_left; clear_value x; rotate_left) | (intro x; clear_value x)
      | intro x | split | lift_lets | dsimp only

theorem execTDrainDone_keeps {r : State} (core : Nat) (s : State) (h : r.Keeps s) :
    KeepsOut r (execTDrainDone core s) := by
  unfold execTDrainDone
  with_reducible
    repeat' first
      | assumption | apply keeps_next | apply State.setFld_keeps | simp -zeta -zetaUnused -zetaHave -proj only [keeps_mk] | apply keeps_core
      | (intro x; refine (have hx : State.Keeps r x := ?_; ?_); unfold x; rotate_left; clear_value x; rotate_left) | (intro x; clear_value x)
      | intro x | split | lift_lets | dsimp only

theorem State.freeBytes_keeps {r : State} (s : State) (n : Nat) (h : r.Keeps s) :
    KeepsSnd r (State.freeBytes s n) := by
  unfold State.freeBytes
  with_reducible
    repeat' first
      | assumption | simp -zeta -zetaUnused -zetaHave -proj only [keeps_mk, keeps_mk_snd] | apply keeps_core | apply keeps_free
      | (intro x; refine (have hx : State.Keeps r x := ?_; ?_); unfold x; rotate_left; clear_value x; rotate_left) | (intro x; clear_value x)
      | intro x | lift_lets | dsimp only

theorem State.saveImage_keeps {r : State} (s : State) (blocks : List (Nat × TBlock)) (engs : List (TBlock × Engine)) (h : r.Keeps s) :
    KeepsSnd r (State.saveImage s blocks engs) := by
  have f : ∀ (t : State) n, r.Keeps t → r.Keeps (t.freeBytes n).2 := fun t n ht => (State.freeBytes_keeps t n ht).out
  unfold State.saveImage
  refine keeps_mk_snd.mpr ?_
  refine (keeps_foldl_snd (keeps_mk_snd.mpr (keeps_foldl_snd (keeps_mk_snd.mpr (f _ _ h)) ?_).out) ?_).out
  · intro x b a hx
    exact keeps_mk_snd.mpr (f _ _ hx)
  · intro x b a hx
    exact keeps_mk_snd.mpr (f _ _ hx)

theorem State.noteSlot_keeps {r : State} (s : State) (unit : Nat) (ctx : Nat) (access : Nat) (base : Nat) (parts : List (Nat × Nat)) (h : r.Keeps s) :
    r.Keeps (State.noteSlot s unit ctx access base parts) := by
  unfold State.noteSlot
  with_reducible
    repeat' first
      | assumption | apply State.noteWaits_keeps | simp -zeta -zetaUnused -zetaHave -proj only [keeps_mk_fst] | apply keeps_foldl
      | apply keeps_foldl_fst | apply keeps_foldl_snd | intro x | split | dsimp only

theorem State.saveFail_keeps {r : State} (s : State) (core : Nat) (unit : Nat) (p : Nat) (dir : Nat) (h : r.Keeps s) :
    r.Keeps (State.saveFail s core unit p dir) := by
  unfold State.saveFail
  with_reducible
    repeat' first
      | assumption | apply State.terminate_keeps | apply State.setFlag_keeps | apply State.bump_keeps | dsimp only

theorem State.putRun_keeps {r : State} (s : State) (core : Nat) (unit : Nat) (ctx : Nat) (va : Nat) (bs : List Byte) (h : r.Keeps s) :
    r.Keeps (State.putRun s core unit ctx va bs) := by
  unfold State.putRun
  with_reducible
    repeat' first
      | assumption | apply State.devWrite_keeps | refine (State.devWrite_keeps _ _ _ _ _ _ ?_).out
      | simp -zeta -zetaUnused -zetaHave -proj only [keeps_mk] | apply keeps_core
      | (intro x; refine (have hx : State.Keeps r x := ?_; ?_); unfold x; rotate_left; clear_value x; rotate_left) | (intro x; clear_value x)
      | intro x | split | refine keeps_fst (by assumption) ?_ | lift_lets | dsimp only

theorem State.putParts_keeps {r : State} (s : State) (core : Nat) (unit : Nat) (ctx : Nat) (base : Nat) (parts : List (Nat × List Byte)) (h : r.Keeps s) :
    r.Keeps (State.putParts s core unit ctx base parts) := by
  unfold State.putParts
  with_reducible
    repeat' first
      | assumption | apply State.putRun_keeps | simp -zeta -zetaUnused -zetaHave -proj only [keeps_mk_fst] | apply keeps_foldl | apply keeps_foldl_fst
      | apply keeps_foldl_snd | intro x | split | dsimp only

theorem State.getRuns_keeps {r : State} (s : State) (unit : Nat) (ctx : Nat) (x3 : List (Nat × Nat)) (x4 : List Byte) (h : r.Keeps s) :
    KeepsFst r (State.getRuns s unit ctx x3 x4) := by
  induction x3 generalizing s unit ctx x4 with
  | nil =>
    unfold State.getRuns
    with_reducible
      repeat' first
        | assumption | apply State.devRead_keeps | refine (State.devRead_keeps _ _ _ _ _ _ _ ?_).out
        | simp -zeta -zetaUnused -zetaHave -proj only [keeps_mk_fst]
        | (intro x; refine (have hx : State.Keeps r x := ?_; ?_); unfold x; rotate_left; clear_value x; rotate_left) | (intro x; clear_value x)
        | intro x | split | refine keeps_fst (by assumption) ?_ | lift_lets | dsimp only
  | cons y l ih =>
    unfold State.getRuns
    with_reducible
      repeat' first
        | assumption | apply ih | refine (ih _ _ _ _ ?_).out | apply State.devRead_keeps | refine (State.devRead_keeps _ _ _ _ _ _ _ ?_).out
        | simp -zeta -zetaUnused -zetaHave -proj only [keeps_mk_fst]
        | (intro x; refine (have hx : State.Keeps r x := ?_; ?_); unfold x; rotate_left; clear_value x; rotate_left) | (intro x; clear_value x)
        | intro x | split | refine keeps_fst (by assumption) ?_ | lift_lets | dsimp only

theorem execTSaveDone_keeps {r : State} (core : Nat) (s : State) (h : r.Keeps s) :
    KeepsOut r (execTSaveDone core s) := by
  unfold execTSaveDone
  with_reducible
    repeat' first
      | assumption | apply keeps_next | apply State.saveFail_keeps | apply State.saveImage_keeps | apply State.putParts_keeps
      | apply State.freeBlock_keeps | apply State.setFld_keeps | apply State.bump_keeps | apply State.setFlag_keeps | apply State.pumpRestores_keeps
      | apply State.noteSlot_keeps | refine (State.saveImage_keeps _ _ _ ?_).out
      | simp -zeta -zetaUnused -zetaHave -proj only [keeps_mk, keeps_mk_fst, keeps_mk_snd] | apply keeps_core | apply keeps_foldl
      | apply keeps_foldl_fst | apply keeps_foldl_snd
      | (intro x; refine (have hx : State.Keeps r x := ?_; ?_); unfold x; rotate_left; clear_value x; rotate_left) | (intro x; clear_value x)
      | intro x | split | refine keeps_snd (by assumption) ?_ | lift_lets | dsimp only

theorem State.resumeGroup_keeps {r : State} (s : State) (core : Nat) (unit : Nat) (x : Nat × TGroup) (h : r.Keeps s) :
    r.Keeps (State.resumeGroup s core unit x) := by
  unfold State.resumeGroup
  with_reducible
    repeat' first
      | assumption | apply State.sendTmb_keeps | apply State.setTgroup_keeps | simp -zeta -zetaUnused -zetaHave -proj only [keeps_mk]
      | apply keeps_core | (intro x; refine (have hx : State.Keeps r x := ?_; ?_); unfold x; rotate_left; clear_value x; rotate_left)
      | (intro x; refine (have hfn : ∀ y, State.Keeps r y → State.Keeps r (x y) := ?_; ?_); unfold x; rotate_left; clear_value x; rotate_left)
      | (intro x; refine (have hfn : ∀ y z, State.Keeps r y → State.Keeps r (x y z) := ?_; ?_); unfold x; rotate_left; clear_value x; rotate_left)
      | apply hfn | (intro x; clear_value x) | intro x | split | lift_lets | dsimp only

theorem execTRestoreDone_keeps {r : State} (core : Nat) (ext : List Byte) (poison : Bool) (s : State) (h : r.Keeps s) :
    KeepsOut r (execTRestoreDone core ext poison s) := by
  unfold execTRestoreDone
  with_reducible
    repeat' first
      | assumption | apply keeps_next | apply State.saveFail_keeps | apply State.getRuns_keeps | apply State.setFld_keeps
      | apply State.setTblock_keeps | apply State.resumeGroup_keeps | apply State.setEngine_keeps | apply State.pumpEngine_keeps
      | apply State.settleWaitq_keeps | apply State.syncClock_keeps | apply State.syncTcore_keeps | apply State.setFlag_keeps
      | apply State.noteSlot_keeps | refine (State.getRuns_keeps _ _ _ _ _ ?_).out
      | simp -zeta -zetaUnused -zetaHave -proj only [keeps_mk, keeps_mk_fst] | apply keeps_core | apply keeps_foldl | apply keeps_foldl_fst
      | apply keeps_foldl_snd | (intro x; refine (have hx : State.Keeps r x := ?_; ?_); unfold x; rotate_left; clear_value x; rotate_left)
      | (intro x; clear_value x) | intro x | split | refine keeps_fst (by assumption) ?_ | lift_lets | dsimp only

/-! Machine/Xlt.lean -/

theorem State.answerCopy_keeps {r : State} (s : State) (m : Miss) (srcId : Nat) (h : r.Keeps s) :
    r.Keeps (State.answerCopy s m srcId) := by
  unfold State.answerCopy
  with_reducible
    repeat' first
      | assumption | apply State.failCopy_keeps | apply State.holdCopy_keeps | apply State.setJob_keeps
      | simp -zeta -zetaUnused -zetaHave -proj only [keeps_mk, keeps_mk_fst] | apply keeps_core | apply keeps_foldl | apply keeps_foldl_fst
      | apply keeps_foldl_snd | (intro x; refine (have hx : State.Keeps r x := ?_; ?_); unfold x; rotate_left; clear_value x; rotate_left)
      | (intro x; clear_value x) | intro x | split | lift_lets | dsimp only

theorem State.answerCore_keeps {r : State} (s : State) (m : Miss) (srcId : Nat) (h : r.Keeps s) :
    r.Keeps (State.answerCore s m srcId) := by
  unfold State.answerCore
  with_reducible
    repeat' first
      | assumption | apply State.setAcc_keeps | apply State.accReady_keeps | simp -zeta -zetaUnused -zetaHave -proj only [keeps_mk, keeps_mk_fst]
      | apply keeps_core | apply keeps_foldl | apply keeps_foldl_fst | apply keeps_foldl_snd
      | (intro x; refine (have hx : State.Keeps r x := ?_; ?_); unfold x; rotate_left; clear_value x; rotate_left) | (intro x; clear_value x)
      | intro x | split | lift_lets | dsimp only

theorem State.answerVcore_keeps {r : State} (s : State) (m : Miss) (h : r.Keeps s) :
    r.Keeps (State.answerVcore s m) := by
  unfold State.answerVcore
  with_reducible
    repeat' first
      | assumption | apply State.setVcore_keeps | simp -zeta -zetaUnused -zetaHave -proj only [keeps_mk] | apply keeps_core
      | (intro x; refine (have hx : State.Keeps r x := ?_; ?_); unfold x; rotate_left; clear_value x; rotate_left) | (intro x; clear_value x)
      | intro x | split | lift_lets | dsimp only

theorem State.answerWindow_keeps {r : State} (s : State) (m : Miss) (h : r.Keeps s) :
    r.Keeps (State.answerWindow s m) := by
  unfold State.answerWindow
  with_reducible
    repeat' first
      | assumption | simp -zeta -zetaUnused -zetaHave -proj only [keeps_mk] | apply keeps_core
      | (intro x; refine (have hx : State.Keeps r x := ?_; ?_); unfold x; rotate_left; clear_value x; rotate_left) | (intro x; clear_value x)
      | intro x | split | lift_lets | dsimp only

theorem State.answerMiss_keeps {r : State} (s : State) (m : Miss) (srcId : Nat) (h : r.Keeps s) :
    r.Keeps (State.answerMiss s m srcId) := by
  unfold State.answerMiss
  with_reducible
    repeat' first
      | assumption | apply State.rcFill_keeps | apply State.answerCore_keeps | apply State.answerVcore_keeps | apply State.answerWindow_keeps
      | apply State.answerCopy_keeps | (intro x; refine (have hx : State.Keeps r x := ?_; ?_); unfold x; rotate_left; clear_value x; rotate_left)
      | (intro x; clear_value x) | intro x | split | lift_lets | dsimp only

theorem execRangeWalkDone_keeps {r : State} (leaf : Nat) (walker : Nat) (s : State) (h : r.Keeps s) :
    KeepsOut r (execRangeWalkDone leaf walker s) := by
  unfold execRangeWalkDone
  with_reducible
    repeat' first
      | assumption | apply keeps_next | apply State.bump_keeps | apply State.bumpN_keeps | apply State.answerMiss_keeps
      | apply State.assignWalkers_keeps | simp -zeta -zetaUnused -zetaHave -proj only [keeps_mk, keeps_mk_fst] | apply keeps_core | apply keeps_foldl
      | apply keeps_foldl_fst | apply keeps_foldl_snd
      | (intro x; refine (have hx : State.Keeps r x := ?_; ?_); unfold x; rotate_left; clear_value x; rotate_left) | (intro x; clear_value x)
      | intro x | split | lift_lets | dsimp only

theorem execFaultRecordFlush_keeps {r : State} (n : Nat) (s : State) (h : r.Keeps s) :
    KeepsOut r (execFaultRecordFlush n s) := by
  unfold execFaultRecordFlush
  with_reducible
    repeat' first
      | assumption | apply keeps_next | apply State.flushHeld_keeps
      | (intro x; refine (have hx : State.Keeps r x := ?_; ?_); unfold x; rotate_left; clear_value x; rotate_left) | (intro x; clear_value x)
      | intro x | split | lift_lets | dsimp only

theorem execInvalAck_keeps {r : State} (kind : Nat) (id : Nat) (s : State) (h : r.Keeps s) :
    KeepsOut r (execInvalAck kind id s) := by
  unfold execInvalAck
  with_reducible
    repeat' first
      | assumption | apply keeps_next | apply State.pumpInvals_keeps | simp -zeta -zetaUnused -zetaHave -proj only [keeps_mk] | apply keeps_core
      | (intro x; refine (have hx : State.Keeps r x := ?_; ?_); unfold x; rotate_left; clear_value x; rotate_left) | (intro x; clear_value x)
      | intro x | split | lift_lets | dsimp only

theorem execXltRdIdxWrite_keeps {r : State} (index : Nat) (s : State) (h : r.Keeps s) :
    KeepsOut r (execXltRdIdxWrite index s) := by
  unfold execXltRdIdxWrite
  with_reducible
    repeat' first
      | assumption | apply keeps_next | apply State.setFld_keeps | apply State.setReg_keeps
      | simp -zeta -zetaUnused -zetaHave -proj only [keeps_mk_fst] | apply keeps_foldl | apply keeps_foldl_fst | apply keeps_foldl_snd
      | (intro x; refine (have hx : State.Keeps r x := ?_; ?_); unfold x; rotate_left; clear_value x; rotate_left) | (intro x; clear_value x)
      | intro x | split | lift_lets | dsimp only

theorem execHostCompletionTimeout_keeps {r : State} (isCopy : Bool) (id : Nat) (s : State) (h : r.Keeps s) :
    KeepsOut r (execHostCompletionTimeout isCopy id s) := by
  unfold execHostCompletionTimeout
  with_reducible
    repeat' first
      | assumption | apply keeps_next | apply State.oneBlock_keeps | apply State.setAcc_keeps | apply State.bump_keeps | apply State.tryFinish_keeps
      | simp -zeta -zetaUnused -zetaHave -proj only [keeps_mk_fst] | apply keeps_foldl | apply keeps_foldl_fst | apply keeps_foldl_snd
      | (intro x; refine (have hx : State.Keeps r x := ?_; ?_); unfold x; rotate_left; clear_value x; rotate_left) | (intro x; clear_value x)
      | intro x | split | lift_lets | dsimp only

/-! Machine/Kwy.lean -/

theorem State.setRegBytes_keeps {r : State} (s : State) (a : Nat → Nat) (n : Nat) (bs : List Byte) (h : r.Keeps s) :
    r.Keeps (State.setRegBytes s a n bs) := by
  unfold State.setRegBytes
  with_reducible
    repeat' first
      | assumption | apply State.setReg_keeps | simp -zeta -zetaUnused -zetaHave -proj only [keeps_mk_fst] | apply keeps_foldl | apply keeps_foldl_fst
      | apply keeps_foldl_snd | intro x | dsimp only

theorem State.setPartMeas_keeps {r : State} (s : State) (n : Nat) (bs : List Byte) (h : r.Keeps s) :
    r.Keeps (State.setPartMeas s n bs) := by
  unfold State.setPartMeas
  with_reducible
    repeat' first
      | assumption | apply State.setRegBytes_keeps | dsimp only

theorem State.kwyFail_keeps {r : State} (s : State) (code : Nat) (d : List (Nat × Nat × Nat)) (h : r.Keeps s) :
    r.Keeps (State.kwyFail s code d) := by
  unfold State.kwyFail
  with_reducible
    repeat' first
      | assumption | apply State.emit_keeps | apply State.setFld_keeps | dsimp only

theorem State.setWkey_keeps {r : State} (s : State) (n : Nat) (k : Option WeightKey) (h : r.Keeps s) :
    r.Keeps (State.setWkey s n k) := by
  unfold State.setWkey
  with_reducible
    repeat' first
      | assumption | apply State.setFld_keeps | apply State.setFlag_keeps | simp -zeta -zetaUnused -zetaHave -proj only [keeps_mk] | apply keeps_core
      | (intro x; refine (have hx : State.Keeps r x := ?_; ?_); unfold x; rotate_left; clear_value x; rotate_left) | (intro x; clear_value x)
      | intro x | split | lift_lets | dsimp only

theorem State.emptyKeys_keeps {r : State} (s : State) (p : Nat → Bool) (h : r.Keeps s) :
    r.Keeps (State.emptyKeys s p) := by
  unfold State.emptyKeys
  with_reducible
    repeat' first
      | assumption | apply State.setWkey_keeps | simp -zeta -zetaUnused -zetaHave -proj only [keeps_mk_fst] | apply keeps_foldl
      | apply keeps_foldl_fst | apply keeps_foldl_snd
      | (intro x; refine (have hx : State.Keeps r x := ?_; ?_); unfold x; rotate_left; clear_value x; rotate_left) | (intro x; clear_value x)
      | intro x | split | lift_lets | dsimp only

theorem State.endLoad_keeps {r : State} (s : State) (h : r.Keeps s) :
    r.Keeps (State.endLoad s) := by
  unfold State.endLoad
  with_reducible
    repeat' first
      | assumption | apply State.setFlag_keeps | simp -zeta -zetaUnused -zetaHave -proj only [keeps_mk] | apply keeps_core
      | (intro x; refine (have hx : State.Keeps r x := ?_; ?_); unfold x; rotate_left; clear_value x; rotate_left) | (intro x; clear_value x)
      | intro x | lift_lets | dsimp only

theorem State.dropPartCaches_keeps {r : State} (s : State) (part : Nat) (h : r.Keeps s) :
    r.Keeps (State.dropPartCaches s part) := by
  unfold State.dropPartCaches
  with_reducible
    repeat' first
      | assumption | apply State.dropL2_keeps | apply State.setDir_keeps | simp -zeta -zetaUnused -zetaHave -proj only [keeps_mk, keeps_mk_fst]
      | apply keeps_core | apply keeps_foldl | apply keeps_foldl_fst | apply keeps_foldl_snd
      | (intro x; refine (have hx : State.Keeps r x := ?_; ?_); unfold x; rotate_left; clear_value x; rotate_left) | (intro x; clear_value x)
      | intro x | split | lift_lets | dsimp only

theorem State.genAdvance_keeps {r : State} (s : State) (n : Nat) (h : r.Keeps s) :
    r.Keeps (State.genAdvance s n) := by
  unfold State.genAdvance
  with_reducible
    repeat' first
      | assumption | apply State.endLoad_keeps | apply State.kwyFail_keeps | apply State.emptyKeys_keeps | apply State.dropPart_keeps
      | apply State.dropPartCaches_keeps | apply State.setFld_keeps | apply State.bump_keeps | apply State.setPartMeas_keeps
      | (intro x; refine (have hx : State.Keeps r x := ?_; ?_); unfold x; rotate_left; clear_value x; rotate_left) | (intro x; clear_value x)
      | intro x | split | lift_lets | dsimp only

theorem State.eraseNow_keeps {r : State} (s : State) (n : Nat) (h : r.Keeps s) :
    r.Keeps (State.eraseNow s n) := by
  unfold State.eraseNow
  with_reducible
    repeat' first
      | assumption | apply State.bump_keeps | apply State.kwyFail_keeps | apply State.genAdvance_keeps
      | (intro x; refine (have hx : State.Keeps r x := ?_; ?_); unfold x; rotate_left; clear_value x; rotate_left) | (intro x; clear_value x)
      | intro x | split | lift_lets | dsimp only

theorem execKwyErase_keeps {r : State} (value : Word) (s : State) (h : r.Keeps s) :
    KeepsOut r (execKwyErase value s) := by
  unfold execKwyErase
  with_reducible
    repeat' first
      | assumption | apply keeps_next | simp -zeta -zetaUnused -zetaHave -proj only [keeps_mk] | apply keeps_core
      | (intro x; refine (have hx : State.Keeps r x := ?_; ?_); unfold x; rotate_left; clear_value x; rotate_left) | (intro x; clear_value x)
      | intro x | split | lift_lets | dsimp only

theorem State.settleErases_keeps {r : State} (s : State) (h : r.Keeps s) :
    r.Keeps (State.settleErases s) := by
  unfold State.settleErases
  with_reducible
    repeat' first
      | assumption | apply State.eraseNow_keeps | simp -zeta -zetaUnused -zetaHave -proj only [keeps_mk, keeps_mk_fst] | apply keeps_core
      | apply keeps_foldl | apply keeps_foldl_fst | apply keeps_foldl_snd
      | (intro x; refine (have hx : State.Keeps r x := ?_; ?_); unfold x; rotate_left; clear_value x; rotate_left) | (intro x; clear_value x)
      | intro x | lift_lets | dsimp only

theorem State.setFuse_keeps {r : State} (s : State) (t : Nat) (h : r.Keeps s) :
    r.Keeps (State.setFuse s t) := by
  have k : ∀ c, r.Keeps { s with kwy := { s.kwy with fusedSvn := s.kwy.fusedSvn + 1, commit := c } } := fun c =>
    keeps_mk.mpr ⟨(keeps_core h).memWf, h.pending, h.now, h.freeCtr, Nat.le_succ_of_le h.fusedSvn, h.repair⟩
  unfold State.setFuse
  by_cases hn : s.kwy.fusedSvn + 1 < t
  · simp only [hn, if_true]
    exact State.setFld_keeps _ _ _ (k _)
  · simp only [hn, if_false]
    exact State.bump_keeps _ _ (State.setFld_keeps _ _ _ (k _))

theorem State.settleFuse_keeps {r : State} (s : State) (h : r.Keeps s) :
    r.Keeps (State.settleFuse s) := by
  unfold State.settleFuse
  with_reducible
    repeat' first
      | assumption | apply State.setFuse_keeps
      | (intro x; refine (have hx : State.Keeps r x := ?_; ?_); unfold x; rotate_left; clear_value x; rotate_left) | (intro x; clear_value x)
      | intro x | split | lift_lets | dsimp only

theorem execArbCommit_keeps {r : State} (value : Word) (s : State) (h : r.Keeps s) :
    KeepsOut r (execArbCommit value s) := by
  unfold execArbCommit
  with_reducible
    repeat' first
      | assumption | apply keeps_next | simp -zeta -zetaUnused -zetaHave -proj only [keeps_mk] | apply keeps_core
      | (intro x; refine (have hx : State.Keeps r x := ?_; ?_); unfold x; rotate_left; clear_value x; rotate_left) | (intro x; clear_value x)
      | intro x | split | lift_lets | dsimp only

theorem State.slGo_keeps {r : State} (s : State) (value : Word) (op : Nat) (run : State → Nat → State) (h : r.Keeps s) (hrun : ∀ y0 y1, r.Keeps y0 → r.Keeps (run y0 y1)) :
    r.Keeps (State.slGo s value op run) := by
  unfold State.slGo
  with_reducible
    repeat' first
      | assumption | apply hrun | apply State.setFld_keeps | apply State.bump_keeps
      | (intro x; refine (have hx : State.Keeps r x := ?_; ?_); unfold x; rotate_left; clear_value x; rotate_left) | (intro x; clear_value x)
      | intro x | split | lift_lets | dsimp only

theorem State.slRefuse_keeps {r : State} (s : State) (code : Nat) (d : List (Nat × Nat × Nat)) (h : r.Keeps s) :
    r.Keeps (State.slRefuse s code d) := by
  unfold State.slRefuse
  with_reducible
    repeat' first
      | assumption | apply State.setFlag_keeps | apply State.bump_keeps | apply State.kwyFail_keeps | dsimp only

theorem execRelease_keeps {r : State} (value : Word) (env : List Byte) (s : State) (h : r.Keeps s) :
    KeepsOut r (execRelease value env s) := by
  unfold execRelease
  with_reducible
    repeat' first
      | assumption | apply keeps_next | apply State.slGo_keeps | apply State.slRefuse_keeps | apply State.setFlag_keeps | apply State.bump_keeps
      | apply State.setWkey_keeps | (intro x; refine (have hx : State.Keeps r x := ?_; ?_); unfold x; rotate_left; clear_value x; rotate_left)
      | (intro x; clear_value x) | intro x | split | lift_lets | dsimp only

theorem execDrop_keeps {r : State} (value : Word) (s : State) (h : r.Keeps s) :
    KeepsOut r (execDrop value s) := by
  unfold execDrop
  with_reducible
    repeat' first
      | assumption | apply keeps_next | apply State.slGo_keeps | apply State.setFlag_keeps | apply State.setWkey_keeps | intro x | dsimp only

theorem execSealedLoad_keeps {r : State} (value : Word) (s : State) (h : r.Keeps s) :
    KeepsOut r (execSealedLoad value s) := by
  unfold execSealedLoad
  refine keeps_next (State.slGo_keeps _ _ _ _ h ?_)
  intro s slot h
  have e : ∀ z, r.Keeps { s with kwy := { s.kwy with load := z } } := fun z => keeps_mk.mpr (keeps_core h)
  dsimp only
  split
  · exact State.slRefuse_keeps _ _ _ h
  · split <;> split <;> first | exact State.slRefuse_keeps _ _ _ h | exact State.setFlag_keeps _ _ _ (State.setFld_keeps _ _ _ (e _))

theorem State.failLoad_keeps {r : State} (s : State) (code : Nat) (d : List (Nat × Nat × Nat)) (h : r.Keeps s) :
    r.Keeps (State.failLoad s code d) := by
  unfold State.failLoad
  with_reducible
    repeat' first
      | assumption | apply State.endLoad_keeps | apply State.kwyFail_keeps | dsimp only

theorem execSealedLoadChunk_keeps {r : State} (data : List Byte) (err : Nat) (s : State) (h : r.Keeps s) :
    KeepsOut r (execSealedLoadChunk data err s) := by
  unfold execSealedLoadChunk
  with_reducible
    repeat' first
      | assumption | apply keeps_next | apply State.failLoad_keeps | apply State.devWrite_keeps | apply State.bump_keeps | apply State.endLoad_keeps
      | apply State.setPartMeas_keeps | refine (State.devWrite_keeps _ _ _ _ _ _ ?_).out | simp -zeta -zetaUnused -zetaHave -proj only [keeps_mk]
      | apply keeps_core | (intro x; refine (have hx : State.Keeps r x := ?_; ?_); unfold x; rotate_left; clear_value x; rotate_left)
      | (intro x; clear_value x) | intro x | split | refine keeps_fst (by assumption) ?_ | lift_lets | dsimp only

theorem State.sendMgt_keeps {r : State} (s : State) (m : MgtMsg) (h : r.Keeps s) :
    r.Keeps (State.sendMgt s m) := by
  unfold State.sendMgt
  with_reducible
    repeat' first
      | assumption | simp -zeta -zetaUnused -zetaHave -proj only [keeps_mk] | apply keeps_core
      | (intro x; refine (have hx : State.Keeps r x := ?_; ?_); unfold x; rotate_left; clear_value x; rotate_left) | (intro x; clear_value x)
      | intro x | lift_lets | dsimp only

theorem State.spdmReply_keeps {r : State} (s : State) (b : Nat) (code : Nat) (bs : List Byte) (h : r.Keeps s) :
    r.Keeps (State.spdmReply s b code bs) := by
  unfold State.spdmReply
  with_reducible
    repeat' first
      | assumption | apply State.sendMgt_keeps | dsimp only

theorem State.spdmError_keeps {r : State} (s : State) (b : Nat) (e : Nat) (h : r.Keeps s) :
    r.Keeps (State.spdmError s b e) := by
  unfold State.spdmError
  with_reducible
    repeat' first
      | assumption | apply State.sendMgt_keeps | dsimp only

theorem State.setSpdmStage_keeps {r : State} (s : State) (b : Nat) (n : Nat) (h : r.Keeps s) :
    r.Keeps (State.setSpdmStage s b n) := by
  unfold State.setSpdmStage
  with_reducible
    repeat' first
      | assumption | simp -zeta -zetaUnused -zetaHave -proj only [keeps_mk] | apply keeps_core
      | (intro x; refine (have hx : State.Keeps r x := ?_; ?_); unfold x; rotate_left; clear_value x; rotate_left) | (intro x; clear_value x)
      | intro x | lift_lets | dsimp only

theorem State.spdm_keeps {r : State} (s : State) (b : Nat) (ok : Bool) (f : State → State) (h : r.Keeps s) (hf : ∀ y0, r.Keeps y0 → r.Keeps (f y0)) :
    r.Keeps (State.spdm s b ok f) := by
  unfold State.spdm
  with_reducible
    repeat' first
      | assumption | apply hf | apply State.spdmError_keeps | intro x | split | dsimp only

theorem execGetVersion_keeps {r : State} (binding : Nat) (session : Option Nat) (data : List Byte) (s : State) (h : r.Keeps s) :
    KeepsOut r (execGetVersion binding session data s) := by
  unfold execGetVersion
  with_reducible
    repeat' first
      | assumption | apply keeps_next | apply State.spdm_keeps | apply State.spdmReply_keeps | apply State.setSpdmStage_keeps
      | simp -zeta -zetaUnused -zetaHave -proj only [keeps_mk] | apply keeps_core
      | (intro x; refine (have hx : State.Keeps r x := ?_; ?_); unfold x; rotate_left; clear_value x; rotate_left) | (intro x; clear_value x)
      | intro x | lift_lets | dsimp only

theorem execGetCapabilities_keeps {r : State} (binding : Nat) (session : Option Nat) (data : List Byte) (s : State) (h : r.Keeps s) :
    KeepsOut r (execGetCapabilities binding session data s) := by
  unfold execGetCapabilities
  with_reducible
    repeat' first
      | assumption | apply keeps_next | apply State.spdm_keeps | apply State.spdmReply_keeps | apply State.setSpdmStage_keeps | intro x | dsimp only

theorem execNegotiateAlgorithms_keeps {r : State} (binding : Nat) (session : Option Nat) (data : List Byte) (s : State) (h : r.Keeps s) :
    KeepsOut r (execNegotiateAlgorithms binding session data s) := by
  unfold execNegotiateAlgorithms
  with_reducible
    repeat' first
      | assumption | apply keeps_next | apply State.spdm_keeps | apply State.spdmReply_keeps | apply State.setSpdmStage_keeps | intro x | dsimp only

theorem execGetDigests_keeps {r : State} (binding : Nat) (session : Option Nat) (data : List Byte) (s : State) (h : r.Keeps s) :
    KeepsOut r (execGetDigests binding session data s) := by
  unfold execGetDigests
  with_reducible
    repeat' first
      | assumption | apply keeps_next | apply State.spdm_keeps | apply State.spdmReply_keeps | intro x | dsimp only

theorem execGetCertificate_keeps {r : State} (binding : Nat) (session : Option Nat) (data : List Byte) (s : State) (h : r.Keeps s) :
    KeepsOut r (execGetCertificate binding session data s) := by
  unfold execGetCertificate
  with_reducible
    repeat' first
      | assumption | apply keeps_next | apply State.spdm_keeps | apply State.spdmReply_keeps | apply State.spdmError_keeps | intro x | split
      | dsimp only

theorem execChallenge_keeps {r : State} (binding : Nat) (session : Option Nat) (data : List Byte) (s : State) (h : r.Keeps s) :
    KeepsOut r (execChallenge binding session data s) := by
  unfold execChallenge
  with_reducible
    repeat' first
      | assumption | apply keeps_next | apply State.spdm_keeps | apply State.spdmReply_keeps | apply State.spdmError_keeps | intro x | split
      | dsimp only

theorem execGetMeasurements_keeps {r : State} (binding : Nat) (session : Option Nat) (data : List Byte) (s : State) (h : r.Keeps s) :
    KeepsOut r (execGetMeasurements binding session data s) := by
  unfold execGetMeasurements
  with_reducible
    repeat' first
      | assumption | apply keeps_next | apply State.spdm_keeps | apply State.spdmReply_keeps | apply State.spdmError_keeps
      | (intro x; refine (have hx : State.Keeps r x := ?_; ?_); unfold x; rotate_left; clear_value x; rotate_left) | (intro x; clear_value x)
      | intro x | split | lift_lets | dsimp only

theorem execKeyExchange_keeps {r : State} (binding : Nat) (session : Option Nat) (data : List Byte) (s : State) (h : r.Keeps s) :
    KeepsOut r (execKeyExchange binding session data s) := by
  unfold execKeyExchange
  with_reducible
    repeat' first
      | assumption | apply keeps_next | apply State.spdm_keeps | apply State.spdmError_keeps | apply State.spdmReply_keeps
      | simp -zeta -zetaUnused -zetaHave -proj only [keeps_mk] | apply keeps_core
      | (intro x; refine (have hx : State.Keeps r x := ?_; ?_); unfold x; rotate_left; clear_value x; rotate_left) | (intro x; clear_value x)
      | intro x | split | lift_lets | dsimp only

theorem execFinish_keeps {r : State} (binding : Nat) (session : Option Nat) (data : List Byte) (s : State) (h : r.Keeps s) :
    KeepsOut r (execFinish binding session data s) := by
  unfold execFinish
  split
  · refine keeps_next (State.spdm_keeps _ _ _ _ h fun t ht => ?_)
    exact State.spdmReply_keeps _ _ _ _ (keeps_mk.mpr (keeps_core ht))
  · exact keeps_next (State.spdm_keeps _ _ _ _ h fun t ht => ht)

theorem execHeartbeat_keeps {r : State} (binding : Nat) (session : Option Nat) (data : List Byte) (s : State) (h : r.Keeps s) :
    KeepsOut r (execHeartbeat binding session data s) := by
  unfold execHeartbeat
  with_reducible
    repeat' first
      | assumption | apply keeps_next | apply State.spdm_keeps | apply State.spdmReply_keeps | intro x | dsimp only

theorem execKeyUpdate_keeps {r : State} (binding : Nat) (session : Option Nat) (data : List Byte) (s : State) (h : r.Keeps s) :
    KeepsOut r (execKeyUpdate binding session data s) := by
  unfold execKeyUpdate
  with_reducible
    repeat' first
      | assumption | apply keeps_next | apply State.spdm_keeps | apply State.spdmReply_keeps | intro x | dsimp only

theorem execEndSession_keeps {r : State} (binding : Nat) (session : Option Nat) (data : List Byte) (s : State) (h : r.Keeps s) :
    KeepsOut r (execEndSession binding session data s) := by
  unfold execEndSession
  with_reducible
    repeat' first
      | assumption | apply keeps_next | apply State.spdm_keeps | apply State.spdmReply_keeps | simp -zeta -zetaUnused -zetaHave -proj only [keeps_mk]
      | apply keeps_core | (intro x; refine (have hx : State.Keeps r x := ?_; ?_); unfold x; rotate_left; clear_value x; rotate_left)
      | (intro x; clear_value x) | intro x | lift_lets | dsimp only

/-! Machine/WardLoad.lean -/

theorem State.wardRecord_keeps {r : State} (s : State) (code : Nat) (root : Option Nat) (d : List Byte) (h : r.Keeps s) :
    r.Keeps (State.wardRecord s code root d) := by
  unfold State.wardRecord
  with_reducible
    repeat' first
      | assumption | apply State.emit_keeps | apply State.bbEnter_keeps
      | (intro x; refine (have hx : State.Keeps r x := ?_; ?_); unfold x; rotate_left; clear_value x; rotate_left) | (intro x; clear_value x)
      | intro x | split | lift_lets | dsimp only

theorem State.wardRefuse_keeps {r : State} (s : State) (r1 : WardRefusal) (root : Option Nat) (cmd : Option Nat) (h : r.Keeps s) :
    r.Keeps (State.wardRefuse s r1 root cmd) := by
  unfold State.wardRefuse
  with_reducible
    repeat' first
      | assumption | apply State.setFld_keeps | apply State.setReg_keeps | apply State.bump_keeps | apply State.wardRecord_keeps
      | apply State.complete_keeps | (intro x; refine (have hx : State.Keeps r x := ?_; ?_); unfold x; rotate_left; clear_value x; rotate_left)
      | (intro x; clear_value x) | intro x | split | lift_lets | dsimp only

theorem State.startWard_keeps {r : State} (s : State) (addr : Nat) (size : Nat) (cmd : Option Nat) (h : r.Keeps s) :
    r.Keeps (State.startWard s addr size cmd) := by
  unfold State.startWard
  with_reducible
    repeat' first
      | assumption | apply State.wardRefuse_keeps | apply State.setFlag_keeps | simp -zeta -zetaUnused -zetaHave -proj only [keeps_mk]
      | apply keeps_core | (intro x; refine (have hx : State.Keeps r x := ?_; ?_); unfold x; rotate_left; clear_value x; rotate_left)
      | (intro x; clear_value x) | intro x | split | lift_lets | dsimp only

theorem execWardLoadGo_keeps {r : State} (s : State) (h : r.Keeps s) :
    KeepsOut r (execWardLoadGo s) := by
  unfold execWardLoadGo
  with_reducible
    repeat' first
      | assumption | apply keeps_next | apply State.startWard_keeps | split | dsimp only

theorem State.wardCmd_keeps {r : State} (s : State) (cmd : Nat) (op : Nat) (run : State → HostCmd → State) (h : r.Keeps s) (hrun : ∀ y0 y1, r.Keeps y0 → r.Keeps (run y0 y1)) :
    r.Keeps (State.wardCmd s cmd op run) := by
  unfold State.wardCmd
  with_reducible
    repeat' first
      | assumption | apply hrun | apply State.failCmd_keeps | apply State.begin_keeps
      | (intro x; refine (have hx : State.Keeps r x := ?_; ?_); unfold x; rotate_left; clear_value x; rotate_left) | (intro x; clear_value x)
      | intro x | split | lift_lets | dsimp only

theorem execWardLoad_keeps {r : State} (cmd : Nat) (s : State) (h : r.Keeps s) :
    KeepsOut r (execWardLoad cmd s) := by
  unfold execWardLoad
  with_reducible
    repeat' first
      | assumption | apply keeps_next | apply State.wardCmd_keeps | apply State.startWard_keeps | intro x | dsimp only

theorem State.writeQuiesce_keeps {r : State} (s : State) (en : Bool) (slot : Nat) (h : r.Keeps s) :
    r.Keeps (State.writeQuiesce s en slot) := by
  unfold State.writeQuiesce
  with_reducible
    repeat' first
      | assumption | apply State.setFld_keeps | apply State.setFlag_keeps | apply State.syncQuiesced_keeps
      | simp -zeta -zetaUnused -zetaHave -proj only [keeps_mk] | apply keeps_core
      | (intro x; refine (have hx : State.Keeps r x := ?_; ?_); unfold x; rotate_left; clear_value x; rotate_left) | (intro x; clear_value x)
      | intro x | lift_lets | dsimp only

theorem execWardQuiesce_keeps {r : State} (slot : Nat) (s : State) (h : r.Keeps s) :
    KeepsOut r (execWardQuiesce slot s) := by
  unfold execWardQuiesce
  with_reducible
    repeat' first
      | assumption | apply keeps_next | apply State.writeQuiesce_keeps | split | dsimp only

theorem execWardQuiesceCancel_keeps {r : State} (slot : Nat) (s : State) (h : r.Keeps s) :
    KeepsOut r (execWardQuiesceCancel slot s) := by
  unfold execWardQuiesceCancel
  with_reducible
    repeat' first
      | assumption | apply keeps_next | apply State.writeQuiesce_keeps | split | dsimp only

theorem execWardQuiesceCommand_keeps {r : State} (cmd : Nat) (s : State) (h : r.Keeps s) :
    KeepsOut r (execWardQuiesceCommand cmd s) := by
  unfold execWardQuiesceCommand
  with_reducible
    repeat' first
      | assumption | apply keeps_next | apply State.wardCmd_keeps | apply State.complete_keeps | apply State.writeQuiesce_keeps | intro x | dsimp only

theorem State.refuseLoad_keeps {r : State} (s : State) (q : LoadReq) (code : Nat) (root : Option Nat) (h : r.Keeps s) :
    r.Keeps (State.refuseLoad s q code root) := by
  unfold State.refuseLoad
  with_reducible
    repeat' first
      | assumption | apply State.wardRefuse_keeps | apply State.setFlag_keeps | simp -zeta -zetaUnused -zetaHave -proj only [keeps_mk]
      | apply keeps_core | (intro x; refine (have hx : State.Keeps r x := ?_; ?_); unfold x; rotate_left; clear_value x; rotate_left)
      | (intro x; clear_value x) | intro x | lift_lets | dsimp only

theorem State.endQuiesce_keeps {r : State} (s : State) (h : r.Keeps s) :
    r.Keeps (State.endQuiesce s) := by
  unfold State.endQuiesce
  with_reducible
    repeat' first
      | assumption | apply State.refuseLoad_keeps | apply State.setFlag_keeps | apply State.wardRefuse_keeps
      | simp -zeta -zetaUnused -zetaHave -proj only [keeps_mk] | apply keeps_core
      | (intro x; refine (have hx : State.Keeps r x := ?_; ?_); unfold x; rotate_left; clear_value x; rotate_left) | (intro x; clear_value x)
      | intro x | split | lift_lets | dsimp only

theorem execWardFetchError_keeps {r : State} (got : List Byte) (s : State) (h : r.Keeps s) :
    KeepsOut r (execWardFetchError got s) := by
  unfold execWardFetchError
  with_reducible
    repeat' first
      | assumption | apply keeps_next | apply State.refuseLoad_keeps
      | (intro x; refine (have hx : State.Keeps r x := ?_; ?_); unfold x; rotate_left; clear_value x; rotate_left) | (intro x; clear_value x)
      | intro x | split | lift_lets | dsimp only

theorem State.clearRegs_keeps {r : State} (s : State) (lo hi : Nat) (h : r.Keeps s) : r.Keeps (s.clearRegs lo hi) := by
  refine keeps_mk.mpr ⟨fun w => ?_, h.pending, h.now, h.freeCtr, h.fusedSvn, h.repair⟩
  have w := (keeps_core h).memWf w
  exact ⟨kvFilter_wf _ _ _ w.1, w.2⟩

theorem State.redefineSlot_keeps {r : State} (s : State) (n : Nat) (h : r.Keeps s) :
    r.Keeps (State.redefineSlot s n) := by
  unfold State.redefineSlot
  with_reducible
    repeat' first
      | assumption | apply State.setReg_keeps | apply State.clearRegs_keeps | apply State.setFld_keeps | apply State.setFlag_keeps
      | (intro x; refine (have hx : State.Keeps r x := ?_; ?_); unfold x; rotate_left; clear_value x; rotate_left) | (intro x; clear_value x)
      | intro x | split | lift_lets | dsimp only

theorem State.dropQueues_keeps {r : State} (s : State) (h : r.Keeps s) : r.Keeps s.dropQueues := by
  refine keeps_mk.mpr ⟨fun w => ?_, h.pending, h.now, h.freeCtr, h.fusedSvn, h.repair⟩
  have w := (keeps_core h).memWf w
  exact ⟨kvFilter_wf _ _ _ w.1, w.2⟩

theorem State.definePart_keeps {r : State} (s : State) (p : PartEnt) (h : r.Keeps s) :
    r.Keeps (State.definePart s p) := by
  unfold State.definePart
  with_reducible
    repeat' first
      | assumption | apply State.clearRegs_keeps | apply State.setFlag_keeps | simp -zeta -zetaUnused -zetaHave -proj only [keeps_mk]
      | apply keeps_core | (intro x; refine (have hx : State.Keeps r x := ?_; ?_); unfold x; rotate_left; clear_value x; rotate_left)
      | (intro x; have hm : MemSt.hbm x = MemSt.hbm x := rfl; clear hm) | (intro x; clear_value x) | intro x | split | lift_lets | dsimp only

theorem State.removeRange_keeps {r : State} (s : State) (r1 : RangeEnt) (h : r.Keeps s) :
    r.Keeps (State.removeRange s r1) := by
  unfold State.removeRange
  with_reducible
    repeat' first
      | assumption | apply State.freeRange_keeps | apply State.dropRange_keeps | apply State.rcDropRange_keeps | dsimp only

theorem State.firstWindows_keeps {r : State} (s : State) (h : r.Keeps s) :
    r.Keeps (State.firstWindows s) := by
  unfold State.firstWindows
  with_reducible
    repeat' first
      | assumption | simp -zeta -zetaUnused -zetaHave -proj only [keeps_mk] | apply keeps_core
      | (intro x; refine (have hx : State.Keeps r x := ?_; ?_); unfold x; rotate_left; clear_value x; rotate_left)
      | (intro x; have hm : MemSt.hbm x = MemSt.hbm x := rfl; clear hm) | (intro x; clear_value x) | intro x | lift_lets | dsimp only

theorem State.setImageId_keeps {r : State} (s : State) (id : Nat) (h : r.Keeps s) :
    r.Keeps (State.setImageId s id) := by
  unfold State.setImageId
  with_reducible
    repeat' first
      | assumption | apply State.setFld64_keeps | dsimp only

theorem State.syncMfp_keeps {r : State} (s : State) (h : r.Keeps s) :
    r.Keeps (State.syncMfp s) := by
  unfold State.syncMfp
  with_reducible
    repeat' first
      | assumption | apply State.setFld_keeps
      | (intro x; refine (have hx : State.Keeps r x := ?_; ?_); unfold x; rotate_left; clear_value x; rotate_left) | (intro x; clear_value x)
      | intro x | split | lift_lets | dsimp only

theorem State.applyFreq_keeps {r : State} (s : State) (h : r.Keeps s) :
    r.Keeps (State.applyFreq s) := by
  unfold State.applyFreq
  with_reducible
    repeat' first
      | assumption | apply State.rebaseClocks_keeps | apply State.accrue_keeps | apply State.setFlag_keeps | apply State.setFld_keeps
      | apply State.setVolt_keeps | simp -zeta -zetaUnused -zetaHave -proj only [keeps_mk_fst] | apply keeps_foldl | apply keeps_foldl_fst
      | apply keeps_foldl_snd | (intro x; refine (have hx : State.Keeps r x := ?_; ?_); unfold x; rotate_left; clear_value x; rotate_left)
      | (intro x; clear_value x) | intro x | split | lift_lets | dsimp only

theorem State.portsAnew_keeps {r : State} (s : State) (h : r.Keeps s) :
    r.Keeps (State.portsAnew s) := by
  unfold State.portsAnew
  with_reducible
    repeat' first
      | assumption | apply State.setReg_keeps | simp -zeta -zetaUnused -zetaHave -proj only [keeps_mk, keeps_mk_fst] | apply keeps_core
      | apply keeps_foldl | apply keeps_foldl_fst | apply keeps_foldl_snd
      | (intro x; refine (have hx : State.Keeps r x := ?_; ?_); unfold x; rotate_left; clear_value x; rotate_left) | (intro x; clear_value x)
      | intro x | lift_lets | dsimp only

theorem State.applyFull_keeps {r : State} (s : State) (im : Image) (bs : List Byte) (h : r.Keeps s) :
    r.Keeps (State.applyFull s im bs) := by
  unfold State.applyFull
  with_reducible
    repeat' first
      | assumption | apply State.removeRange_keeps | apply State.genAdvance_keeps | apply State.setFlag_keeps | apply State.setFld_keeps
      | apply State.redefineSlot_keeps | apply State.setImageId_keeps | apply State.definePart_keeps | apply State.portsAnew_keeps
      | apply State.syncQuiesced_keeps | apply State.syncXlt_keeps | apply State.dropQueues_keeps | apply State.syncMfp_keeps
      | apply State.syncFree_keeps | apply State.firstWindows_keeps | apply State.applyFreq_keeps | apply State.tmbIdleAll_keeps
      | apply State.setRegBytes_keeps | apply State.wardRecord_keeps | apply State.bump_keeps
      | simp -zeta -zetaUnused -zetaHave -proj only [keeps_mk, keeps_mk_fst] | apply keeps_core | apply keeps_foldl | apply keeps_foldl_fst
      | apply keeps_foldl_snd | (intro x; refine (have hx : State.Keeps r x := ?_; ?_); unfold x; rotate_left; clear_value x; rotate_left)
      | (intro x; clear_value x) | intro x | lift_lets | dsimp only

theorem State.applyPartial_keeps {r : State} (s : State) (p : PendImage) (h : r.Keeps s) :
    r.Keeps (State.applyPartial s p) := by
  unfold State.applyPartial
  with_reducible
    repeat' first
      | assumption | apply State.removeRange_keeps | apply State.emptyKeys_keeps | apply State.genAdvance_keeps | apply State.redefineSlot_keeps
      | apply State.definePart_keeps | apply State.setFlag_keeps | apply State.tmbIdleAll_keeps | apply State.setImageId_keeps
      | apply State.setFld_keeps | apply State.syncQuiesced_keeps | apply State.syncXlt_keeps | apply State.dropQueues_keeps
      | apply State.syncFree_keeps | apply State.firstWindows_keeps | apply State.setRegBytes_keeps | apply State.wardRecord_keeps
      | apply State.bump_keeps | apply State.complete_keeps | simp -zeta -zetaUnused -zetaHave -proj only [keeps_mk, keeps_mk_fst] | apply keeps_core
      | apply keeps_foldl | apply keeps_foldl_fst | apply keeps_foldl_snd
      | (intro x; refine (have hx : State.Keeps r x := ?_; ?_); unfold x; rotate_left; clear_value x; rotate_left) | (intro x; clear_value x)
      | intro x | split | lift_lets | dsimp only

theorem execVerificationComplete_keeps {r : State} (image : List Byte) (s : State) (h : r.Keeps s) :
    KeepsOut r (execVerificationComplete image s) := by
  unfold execVerificationComplete
  with_reducible
    repeat' first
      | assumption | apply keeps_next | apply State.setFlag_keeps | apply State.wardRefuse_keeps | apply State.applyFull_keeps
      | apply State.complete_keeps | simp -zeta -zetaUnused -zetaHave -proj only [keeps_mk] | apply keeps_core
      | (intro x; refine (have hx : State.Keeps r x := ?_; ?_); unfold x; rotate_left; clear_value x; rotate_left) | (intro x; clear_value x)
      | intro x | split | lift_lets | dsimp only

theorem execPartialImageApply_keeps {r : State} (s : State) (h : r.Keeps s) :
    KeepsOut r (execPartialImageApply s) := by
  unfold execPartialImageApply
  with_reducible
    repeat' first
      | assumption | apply keeps_next | apply State.applyPartial_keeps
      | (intro x; refine (have hx : State.Keeps r x := ?_; ?_); unfold x; rotate_left; clear_value x; rotate_left) | (intro x; clear_value x)
      | intro x | split | lift_lets | dsimp only

/-! Machine/Frames.lean -/

theorem execLaunch_keeps {r : State} (cmd : Nat) (s : State) (h : r.Keeps s) :
    KeepsOut r (execLaunch cmd s) := by
  unfold execLaunch
  with_reducible
    repeat' first
      | assumption | apply keeps_next | apply State.badCmd_keeps | apply State.devRead_keeps | apply State.failCmd_keeps | apply State.begin_keeps
      | apply State.syncQuiesced_keeps | apply State.setUnit_keeps | refine (State.devRead_keeps _ _ _ _ _ _ _ ?_).out
      | simp -zeta -zetaUnused -zetaHave -proj only [keeps_mk] | apply keeps_core
      | (intro x; refine (have hx : State.Keeps r x := ?_; ?_); unfold x; rotate_left; clear_value x; rotate_left) | (intro x; clear_value x)
      | intro x | split | refine keeps_fst (by assumption) ?_ | lift_lets | dsimp only

theorem State.admitProg_keeps {r : State} (s : State) (unit : Nat) (p : FrameProg) (h : r.Keeps s) :
    r.Keeps (State.admitProg s unit p) := by
  unfold State.admitProg
  with_reducible
    repeat' first
      | assumption | apply State.syncUnit_keeps | apply State.bump_keeps | apply State.setUnit_keeps
      | simp -zeta -zetaUnused -zetaHave -proj only [keeps_mk] | apply keeps_core
      | (intro x; refine (have hx : State.Keeps r x := ?_; ?_); unfold x; rotate_left; clear_value x; rotate_left) | (intro x; clear_value x)
      | intro x | split | lift_lets | dsimp only

theorem State.admitUnit_keeps {r : State} (s : State) (u : UnitEnt) (usable : Nat) (x3 : Nat) (x4 : Nat) (x5 : KV Nat) (h : r.Keeps s) :
    KeepsFst r (State.admitUnit s u usable x3 x4 x5) := by
  induction x3 generalizing s u usable x4 x5 with
  | zero =>
    unfold State.admitUnit
    with_reducible
      repeat' first
        | assumption | apply State.setUnit_keeps | apply State.failCmd_keeps | apply State.terminate_keeps | apply State.admitProg_keeps
        | simp -zeta -zetaUnused -zetaHave -proj only [keeps_mk, keeps_mk_fst] | apply keeps_core | apply keeps_foldl | apply keeps_foldl_fst
        | apply keeps_foldl_snd | (intro x; refine (have hx : State.Keeps r x := ?_; ?_); unfold x; rotate_left; clear_value x; rotate_left)
        | (intro x; clear_value x) | intro x | split | lift_lets | dsimp only
  | succ k ih =>
    unfold State.admitUnit
    with_reducible
      repeat' first
        | assumption | apply ih | refine (ih _ _ _ _ _ ?_).out | apply State.setUnit_keeps | apply State.failCmd_keeps | apply State.terminate_keeps | apply State.admitProg_keeps
        | simp -zeta -zetaUnused -zetaHave -proj only [keeps_mk, keeps_mk_fst] | apply keeps_core | apply keeps_foldl | apply keeps_foldl_fst
        | apply keeps_foldl_snd | (intro x; refine (have hx : State.Keeps r x := ?_; ?_); unfold x; rotate_left; clear_value x; rotate_left)
        | (intro x; clear_value x) | intro x | split | lift_lets | dsimp only

theorem State.admitAll_keeps {r : State} (s : State) (h : r.Keeps s) : r.Keeps s.admitAll := by
  unfold State.admitAll
  refine (keeps_foldl_fst (keeps_mk_fst.mpr h) ?_).out
  intro x b a hx
  dsimp only
  split
  · exact ⟨hx⟩
  · exact State.admitUnit_keeps _ _ _ _ _ _ hx

theorem State.resumeCarried_keeps {r : State} (s : State) (h : r.Keeps s) :
    r.Keeps (State.resumeCarried s) := by
  unfold State.resumeCarried
  with_reducible
    repeat' first
      | assumption | apply State.setUnit_keeps | apply State.pumpRestores_keeps | apply State.askLower_keeps
      | simp -zeta -zetaUnused -zetaHave -proj only [keeps_mk, keeps_mk_fst] | apply keeps_core | apply keeps_foldl | apply keeps_foldl_fst
      | apply keeps_foldl_snd | (intro x; refine (have hx : State.Keeps r x := ?_; ?_); unfold x; rotate_left; clear_value x; rotate_left)
      | (intro x; clear_value x) | intro x | lift_lets | dsimp only

theorem execAdmission_keeps {r : State} (s : State) (h : r.Keeps s) :
    KeepsOut r (execAdmission s) := by
  unfold execAdmission
  with_reducible
    repeat' first
      | assumption | apply keeps_next | apply State.admitAll_keeps | apply State.resumeCarried_keeps | apply State.endQuiesce_keeps
      | apply State.syncQuiesced_keeps | simp -zeta -zetaUnused -zetaHave -proj only [keeps_mk] | apply keeps_core
      | (intro x; refine (have hx : State.Keeps r x := ?_; ?_); unfold x; rotate_left; clear_value x; rotate_left) | (intro x; clear_value x)
      | intro x | split | lift_lets | dsimp only

theorem State.setGate_keeps {r : State} (s : State) (unit : Nat) (f : FrameProg → FrameProg) (h : r.Keeps s) :
    r.Keeps (State.setGate s unit f) := by
  unfold State.setGate
  with_reducible
    repeat' first
      | assumption | apply State.syncUnit_keeps | apply State.setUnit_keeps | simp -zeta -zetaUnused -zetaHave -proj only [keeps_mk]
      | apply keeps_core | (intro x; refine (have hx : State.Keeps r x := ?_; ?_); unfold x; rotate_left; clear_value x; rotate_left)
      | (intro x; clear_value x) | intro x | split | lift_lets | dsimp only

theorem execStartGateRegister_keeps {r : State} (unit : Nat) (s : State) (h : r.Keeps s) :
    KeepsOut r (execStartGateRegister unit s) := by
  unfold execStartGateRegister
  with_reducible
    repeat' first
      | assumption | apply keeps_next | apply State.setGate_keeps | apply State.tmbWait_keeps | simp -zeta -zetaUnused -zetaHave -proj only [keeps_mk]
      | apply keeps_core | (intro x; refine (have hx : State.Keeps r x := ?_; ?_); unfold x; rotate_left; clear_value x; rotate_left)
      | (intro x; clear_value x) | intro x | split | lift_lets | dsimp only

theorem State.openGate_keeps {r : State} (s : State) (unit : Nat) (p : FrameProg) (at_ : Nat) (h : r.Keeps s) :
    r.Keeps (State.openGate s unit p at_) := by
  unfold State.openGate
  with_reducible
    repeat' first
      | assumption | apply State.setGate_keeps | apply State.setFld_keeps | apply State.askLower_keeps | apply State.syncUnit_keeps
      | simp -zeta -zetaUnused -zetaHave -proj only [keeps_mk] | apply keeps_core
      | (intro x; refine (have hx : State.Keeps r x := ?_; ?_); unfold x; rotate_left; clear_value x; rotate_left) | (intro x; clear_value x)
      | intro x | lift_lets | dsimp only

theorem execStartGateOpen_keeps {r : State} (unit : Nat) (s : State) (h : r.Keeps s) :
    KeepsOut r (execStartGateOpen unit s) := by
  unfold execStartGateOpen
  with_reducible
    repeat' first
      | assumption | apply keeps_next | apply State.takeNote_keeps | apply State.openGate_keeps | apply State.setGate_keeps
      | simp -zeta -zetaUnused -zetaHave -proj only [keeps_mk] | apply keeps_core
      | (intro x; refine (have hx : State.Keeps r x := ?_; ?_); unfold x; rotate_left; clear_value x; rotate_left) | (intro x; clear_value x)
      | intro x | split | lift_lets | dsimp only

theorem State.retire_keeps {r : State} (s : State) (unit : Nat) (h : r.Keeps s) :
    r.Keeps (State.retire s unit) := by
  unfold State.retire
  with_reducible
    repeat' first
      | assumption | apply State.setFld_keeps | apply State.bump_keeps | apply State.setUnit_keeps | apply State.devArrive_keeps
      | apply State.pumpRestores_keeps | apply State.askLower_keeps | apply State.syncQuiesced_keeps | apply State.syncUnit_keeps
      | apply State.endLaunch_keeps | simp -zeta -zetaUnused -zetaHave -proj only [keeps_mk] | apply keeps_core
      | (intro x; refine (have hx : State.Keeps r x := ?_; ?_); unfold x; rotate_left; clear_value x; rotate_left) | (intro x; clear_value x)
      | intro x | split | lift_lets | dsimp only

theorem execProgramRetire_keeps {r : State} (unit : Nat) (s : State) (h : r.Keeps s) :
    KeepsOut r (execProgramRetire unit s) := by
  unfold execProgramRetire
  with_reducible
    repeat' first
      | assumption | apply keeps_next | apply State.retire_keeps | dsimp only

theorem State.endRetired_keeps {r : State} (s : State) (h : r.Keeps s) :
    r.Keeps (State.endRetired s) := by
  unfold State.endRetired
  with_reducible
    repeat' first
      | assumption | apply State.retire_keeps | simp -zeta -zetaUnused -zetaHave -proj only [keeps_mk_fst] | apply keeps_foldl | apply keeps_foldl_fst
      | apply keeps_foldl_snd | intro x | dsimp only

theorem execTckUHaltedClear_keeps {r : State} (unit : Nat) (s : State) (h : r.Keeps s) :
    KeepsOut r (execTckUHaltedClear unit s) := by
  unfold execTckUHaltedClear
  with_reducible
    repeat' first
      | assumption | apply keeps_next | apply State.setFlag_keeps | split | dsimp only

/-! Machine/Tick.lean -/

theorem State.glitch_keeps {r : State} (s : State) (h : r.Keeps s) :
    r.Keeps (State.glitch s) := by
  unfold State.glitch
  with_reducible
    repeat' first
      | assumption | apply State.setFlag_keeps | apply State.bump_keeps | dsimp only

theorem State.dueTick_keeps {r : State} (s : State) (src : TickSrc) (at_ : Nat) (h : r.Keeps s) :
    r.Keeps (State.dueTick s src at_) := by
  unfold State.dueTick
  with_reducible
    repeat' first
      | assumption | simp -zeta -zetaUnused -zetaHave -proj only [keeps_mk] | apply keeps_core
      | (intro x; refine (have hx : State.Keeps r x := ?_; ?_); unfold x; rotate_left; clear_value x; rotate_left) | (intro x; clear_value x)
      | intro x | lift_lets | dsimp only

theorem State.extEdge_keeps {r : State} (s : State) (h : r.Keeps s) :
    r.Keeps (State.extEdge s) := by
  unfold State.extEdge
  with_reducible
    repeat' first
      | assumption | apply State.setFlag_keeps | apply State.glitch_keeps | apply State.dueTick_keeps
      | simp -zeta -zetaUnused -zetaHave -proj only [keeps_mk] | apply keeps_core
      | (intro x; refine (have hx : State.Keeps r x := ?_; ?_); unfold x; rotate_left; clear_value x; rotate_left) | (intro x; clear_value x)
      | intro x | split | lift_lets | dsimp only

theorem State.repeatPulse_keeps {r : State} (s : State) (high : Nat) (h : r.Keeps s) :
    r.Keeps (State.repeatPulse s high) := by
  unfold State.repeatPulse
  with_reducible
    repeat' first
      | assumption | simp -zeta -zetaUnused -zetaHave -proj only [keeps_mk] | apply keeps_core
      | (intro x; refine (have hx : State.Keeps r x := ?_; ?_); unfold x; rotate_left; clear_value x; rotate_left) | (intro x; clear_value x)
      | intro x | split | lift_lets | dsimp only

theorem execTickInRisingEdge_keeps {r : State} (high : Nat) (s : State) (h : r.Keeps s) :
    KeepsOut r (execTickInRisingEdge high s) := by
  unfold execTickInRisingEdge
  split
  · exact keeps_next h
  · have k := State.repeatPulse_keeps s high h
    dsimp only
    generalize s.repeatPulse high = t at k ⊢
    split
    · exact keeps_next (State.glitch_keeps _ k)
    · have k2 : r.Keeps ({ t with tick := { t.tick with riseAt := some t.now, riseTicked := false, lastEdge := some t.now } }.setFlag RF.TCK_STAT_EXT_PRESENT true) :=
        State.setFlag_keeps _ _ _ (keeps_mk.mpr (keeps_core k))
      generalize State.setFlag _ RF.TCK_STAT_EXT_PRESENT true = u at k2 ⊢
      apply keeps_next
      split
      · exact k2
      · exact State.extEdge_keeps _ k2

theorem execTickInFallingEdge_keeps {r : State} (width : Nat) (s : State) (h : r.Keeps s) :
    KeepsOut r (execTickInFallingEdge width s) := by
  unfold execTickInFallingEdge
  with_reducible
    repeat' first
      | assumption | apply keeps_next | simp -zeta -zetaUnused -zetaHave -proj only [keeps_mk] | apply keeps_core
      | (intro x; refine (have hx : State.Keeps r x := ?_; ?_); unfold x; rotate_left; clear_value x; rotate_left) | (intro x; clear_value x)
      | intro x | split | lift_lets | dsimp only

theorem execInternalTick_keeps {r : State} (s : State) (h : r.Keeps s) :
    KeepsOut r (execInternalTick s) := by
  unfold execInternalTick
  with_reducible
    repeat' first
      | assumption | apply keeps_next | apply State.dueTick_keeps | split | dsimp only

theorem execTickLoss_keeps {r : State} (s : State) (h : r.Keeps s) :
    KeepsOut r (execTickLoss s) := by
  unfold execTickLoss
  with_reducible
    repeat' first
      | assumption | apply keeps_next | apply State.emit_keeps | apply State.bump_keeps | apply State.setFlag_keeps | apply State.dueTick_keeps
      | simp -zeta -zetaUnused -zetaHave -proj only [keeps_mk] | apply keeps_core
      | (intro x; refine (have hx : State.Keeps r x := ?_; ?_); unfold x; rotate_left; clear_value x; rotate_left) | (intro x; clear_value x)
      | intro x | split | lift_lets | dsimp only

theorem execHoldoverTick_keeps {r : State} (s : State) (h : r.Keeps s) :
    KeepsOut r (execHoldoverTick s) := by
  unfold execHoldoverTick
  with_reducible
    repeat' first
      | assumption | apply keeps_next | apply State.dueTick_keeps | split | dsimp only

theorem execSyncReq_keeps {r : State} (s : State) (h : r.Keeps s) :
    KeepsOut r (execSyncReq s) := by
  unfold execSyncReq
  with_reducible
    repeat' first
      | assumption | apply keeps_next | simp -zeta -zetaUnused -zetaHave -proj only [keeps_mk] | apply keeps_core
      | (intro x; refine (have hx : State.Keeps r x := ?_; ?_); unfold x; rotate_left; clear_value x; rotate_left) | (intro x; clear_value x)
      | intro x | split | lift_lets | dsimp only

theorem State.drivePulse_keeps {r : State} (s : State) (src : TickSrc) (t : Nat) (h : r.Keeps s) :
    r.Keeps (State.drivePulse s src t) := by
  unfold State.drivePulse
  with_reducible
    repeat' first
      | assumption | simp -zeta -zetaUnused -zetaHave -proj only [keeps_mk] | apply keeps_core
      | (intro x; refine (have hx : State.Keeps r x := ?_; ?_); unfold x; rotate_left; clear_value x; rotate_left) | (intro x; clear_value x)
      | intro x | split | lift_lets | dsimp only

theorem execTick_keeps {r : State} (s : State) (h : r.Keeps s) :
    KeepsOut r (execTick s) := by
  unfold execTick
  with_reducible
    repeat' first
      | assumption | apply keeps_next | apply State.setFld64_keeps | apply State.setFld_keeps | apply State.setFlag_keeps
      | apply State.drivePulse_keeps | apply State.emit_keeps | simp -zeta -zetaUnused -zetaHave -proj only [keeps_mk] | apply keeps_core
      | (intro x; refine (have hx : State.Keeps r x := ?_; ?_); unfold x; rotate_left; clear_value x; rotate_left) | (intro x; clear_value x)
      | intro x | split | lift_lets | dsimp only

/-! Machine/Mgmt.lean -/

theorem State.mctp_keeps {r : State} (s : State) (b : Nat) (vdmOnly : Bool) (f : State → State) (h : r.Keeps s) (hf : ∀ y0, r.Keeps y0 → r.Keeps (f y0)) :
    r.Keeps (State.mctp s b vdmOnly f) := by
  unfold State.mctp
  with_reducible
    repeat' first
      | assumption | apply hf | intro x | split | dsimp only

theorem State.mctpReply_keeps {r : State} (s : State) (b : Nat) (code : Nat) (status : Nat) (bs : List Byte) (h : r.Keeps s) :
    r.Keeps (State.mctpReply s b code status bs) := by
  unfold State.mctpReply
  with_reducible
    repeat' first
      | assumption | apply State.sendMgt_keeps | dsimp only

theorem execSetEndpointId_keeps {r : State} (binding : Nat) (eid : Nat) (s : State) (h : r.Keeps s) :
    KeepsOut r (execSetEndpointId binding eid s) := by
  unfold execSetEndpointId
  with_reducible
    repeat' first
      | assumption | apply keeps_next | apply State.mctp_keeps | apply State.mctpReply_keeps | simp -zeta -zetaUnused -zetaHave -proj only [keeps_mk]
      | apply keeps_core | (intro x; refine (have hx : State.Keeps r x := ?_; ?_); unfold x; rotate_left; clear_value x; rotate_left)
      | (intro x; clear_value x) | intro x | split | lift_lets | dsimp only

theorem execGetEndpointId_keeps {r : State} (binding : Nat) (s : State) (h : r.Keeps s) :
    KeepsOut r (execGetEndpointId binding s) := by
  unfold execGetEndpointId
  with_reducible
    repeat' first
      | assumption | apply keeps_next | apply State.mctp_keeps | apply State.mctpReply_keeps | intro x | dsimp only

theorem execGetEndpointUuid_keeps {r : State} (binding : Nat) (s : State) (h : r.Keeps s) :
    KeepsOut r (execGetEndpointUuid binding s) := by
  unfold execGetEndpointUuid
  with_reducible
    repeat' first
      | assumption | apply keeps_next | apply State.mctp_keeps | apply State.mctpReply_keeps | intro x | dsimp only

theorem execGetMctpVersionSupport_keeps {r : State} (binding : Nat) (s : State) (h : r.Keeps s) :
    KeepsOut r (execGetMctpVersionSupport binding s) := by
  unfold execGetMctpVersionSupport
  with_reducible
    repeat' first
      | assumption | apply keeps_next | apply State.mctp_keeps | apply State.mctpReply_keeps | intro x | dsimp only

theorem execGetMessageTypeSupport_keeps {r : State} (binding : Nat) (s : State) (h : r.Keeps s) :
    KeepsOut r (execGetMessageTypeSupport binding s) := by
  unfold execGetMessageTypeSupport
  with_reducible
    repeat' first
      | assumption | apply keeps_next | apply State.mctp_keeps | apply State.mctpReply_keeps | intro x | dsimp only

theorem execGetVendorDefinedMessageSupport_keeps {r : State} (binding : Nat) (s : State) (h : r.Keeps s) :
    KeepsOut r (execGetVendorDefinedMessageSupport binding s) := by
  unfold execGetVendorDefinedMessageSupport
  with_reducible
    repeat' first
      | assumption | apply keeps_next | apply State.mctp_keeps | apply State.mctpReply_keeps | intro x | dsimp only

theorem execPrepareForEndpointDiscovery_keeps {r : State} (binding : Nat) (s : State) (h : r.Keeps s) :
    KeepsOut r (execPrepareForEndpointDiscovery binding s) := by
  unfold execPrepareForEndpointDiscovery
  with_reducible
    repeat' first
      | assumption | apply keeps_next | apply State.mctp_keeps | apply State.mctpReply_keeps | simp -zeta -zetaUnused -zetaHave -proj only [keeps_mk]
      | apply keeps_core | (intro x; refine (have hx : State.Keeps r x := ?_; ?_); unfold x; rotate_left; clear_value x; rotate_left)
      | (intro x; clear_value x) | intro x | lift_lets | dsimp only

theorem execEndpointDiscovery_keeps {r : State} (binding : Nat) (s : State) (h : r.Keeps s) :
    KeepsOut r (execEndpointDiscovery binding s) := by
  unfold execEndpointDiscovery
  with_reducible
    repeat' first
      | assumption | apply keeps_next | apply State.mctp_keeps | apply State.mctpReply_keeps | intro x | split | dsimp only

theorem execDiscoveryNotify_keeps {r : State} (binding : Nat) (s : State) (h : r.Keeps s) :
    KeepsOut r (execDiscoveryNotify binding s) := by
  unfold execDiscoveryNotify
  with_reducible
    repeat' first
      | assumption | apply keeps_next | apply State.mctp_keeps | apply State.mctpReply_keeps | intro x | dsimp only

theorem execPldmRequest_keeps {r : State} (binding : Nat) (kind : Nat) (cmd : Nat) (data : List Byte) (s : State) (h : r.Keeps s) :
    KeepsOut r (execPldmRequest binding kind cmd data s) := by
  unfold execPldmRequest
  with_reducible
    repeat' first
      | assumption | apply keeps_next | apply State.sendMgt_keeps | split | dsimp only

theorem State.vendorReply_keeps {r : State} (s : State) (b : Nat) (code : Nat) (status : Nat) (bs : List Byte) (h : r.Keeps s) :
    r.Keeps (State.vendorReply s b code status bs) := by
  unfold State.vendorReply
  with_reducible
    repeat' first
      | assumption | apply State.sendMgt_keeps | dsimp only

theorem execGetStatus_keeps {r : State} (binding : Nat) (s : State) (h : r.Keeps s) :
    KeepsOut r (execGetStatus binding s) := by
  unfold execGetStatus
  with_reducible
    repeat' first
      | assumption | apply keeps_next | apply State.vendorReply_keeps | split | dsimp only

theorem execEvRead_keeps {r : State} (binding : Nat) (count : Nat) (s : State) (h : r.Keeps s) :
    KeepsOut r (execEvRead binding count s) := by
  unfold execEvRead
  with_reducible
    repeat' first
      | assumption | apply keeps_next | apply State.vendorReply_keeps | apply State.nextFree_keeps | refine (State.nextFree_keeps _ ?_).out
      | simp -zeta -zetaUnused -zetaHave -proj only [keeps_mk] | apply keeps_core
      | (intro x; refine (have hx : State.Keeps r x := ?_; ?_); unfold x; rotate_left; clear_value x; rotate_left) | (intro x; clear_value x)
      | intro x | split | refine keeps_snd (by assumption) ?_ | lift_lets | dsimp only

theorem execBbInfo_keeps {r : State} (binding : Nat) (s : State) (h : r.Keeps s) :
    KeepsOut r (execBbInfo binding s) := by
  unfold execBbInfo
  with_reducible
    repeat' first
      | assumption | apply keeps_next | apply State.vendorReply_keeps | split | dsimp only

theorem execBbRead_keeps {r : State} (binding : Nat) (index : Nat) (s : State) (h : r.Keeps s) :
    KeepsOut r (execBbRead binding index s) := by
  unfold execBbRead
  with_reducible
    repeat' first
      | assumption | apply keeps_next | apply State.vendorReply_keeps
      | (intro x; refine (have hx : State.Keeps r x := ?_; ?_); unfold x; rotate_left; clear_value x; rotate_left) | (intro x; clear_value x)
      | intro x | split | lift_lets | dsimp only

theorem execCapSet_keeps {r : State} (binding : Nat) (secured : Bool) (watts : Nat) (s : State) (h : r.Keeps s) :
    KeepsOut r (execCapSet binding secured watts s) := by
  unfold execCapSet
  with_reducible
    repeat' first
      | assumption | apply keeps_next | apply State.vendorReply_keeps | apply State.setFld_keeps | split | dsimp only

theorem execKill_keeps {r : State} (binding : Nat) (secured : Bool) (value : Word) (s : State) (h : r.Keeps s) :
    KeepsOut r (execKill binding secured value s) := by
  unfold execKill
  with_reducible
    repeat' first
      | assumption | apply keeps_next | apply State.vendorReply_keeps | simp -zeta -zetaUnused -zetaHave -proj only [keeps_mk] | apply keeps_core
      | (intro x; refine (have hx : State.Keeps r x := ?_; ?_); unfold x; rotate_left; clear_value x; rotate_left) | (intro x; clear_value x)
      | intro x | split | lift_lets | dsimp only

theorem State.ackAlerts_keeps {r : State} (s : State) (h : r.Keeps s) :
    r.Keeps (State.ackAlerts s) := by
  unfold State.ackAlerts
  with_reducible
    repeat' first
      | assumption | apply State.setFld_keeps | apply State.setFlag_keeps | simp -zeta -zetaUnused -zetaHave -proj only [keeps_mk] | apply keeps_core
      | (intro x; refine (have hx : State.Keeps r x := ?_; ?_); unfold x; rotate_left; clear_value x; rotate_left) | (intro x; clear_value x)
      | intro x | split | lift_lets | dsimp only

theorem execAlertAck_keeps {r : State} (binding : Nat) (s : State) (h : r.Keeps s) :
    KeepsOut r (execAlertAck binding s) := by
  unfold execAlertAck
  with_reducible
    repeat' first
      | assumption | apply keeps_next | apply State.vendorReply_keeps | apply State.ackAlerts_keeps | split | dsimp only

theorem execMgtAlertWrite_keeps {r : State} (value : Word) (s : State) (h : r.Keeps s) :
    KeepsOut r (execMgtAlertWrite value s) := by
  unfold execMgtAlertWrite
  with_reducible
    repeat' first
      | assumption | apply keeps_next | apply State.ackAlerts_keeps | split | dsimp only

theorem execWardenWatchdog_keeps {r : State} (warden : Nat) (s : State) (h : r.Keeps s) :
    KeepsOut r (execWardenWatchdog warden s) := by
  unfold execWardenWatchdog
  with_reducible
    repeat' first
      | assumption | apply keeps_next | apply State.setFld_keeps | apply State.emit_keeps | simp -zeta -zetaUnused -zetaHave -proj only [keeps_mk]
      | apply keeps_core | (intro x; refine (have hx : State.Keeps r x := ?_; ?_); unfold x; rotate_left; clear_value x; rotate_left)
      | (intro x; clear_value x) | intro x | split | lift_lets | dsimp only

theorem State.syncHead_keeps {r : State} (s : State) (h : r.Keeps s) :
    r.Keeps (State.syncHead s) := by
  unfold State.syncHead
  with_reducible
    repeat' first
      | assumption | apply State.setFld64_keeps | apply State.setFlag_keeps | simp -zeta -zetaUnused -zetaHave -proj only [keeps_mk_fst]
      | apply keeps_foldl | apply keeps_foldl_fst | apply keeps_foldl_snd
      | (intro x; refine (have hx : State.Keeps r x := ?_; ?_); unfold x; rotate_left; clear_value x; rotate_left) | (intro x; clear_value x)
      | intro x | split | lift_lets | dsimp only

theorem State.setSlot_keeps {r : State} (s : State) (n : Nat) (x : BbSlot) (h : r.Keeps s) :
    r.Keeps (State.setSlot s n x) := by
  unfold State.setSlot
  with_reducible
    repeat' first
      | assumption | simp -zeta -zetaUnused -zetaHave -proj only [keeps_mk] | apply keeps_core
      | (intro x; refine (have hx : State.Keeps r x := ?_; ?_); unfold x; rotate_left; clear_value x; rotate_left) | (intro x; clear_value x)
      | intro x | lift_lets | dsimp only

theorem State.advanceHead_keeps {r : State} (s : State) (h : r.Keeps s) :
    r.Keeps (State.advanceHead s) := by
  unfold State.advanceHead
  with_reducible
    repeat' first
      | assumption | simp -zeta -zetaUnused -zetaHave -proj only [keeps_mk] | apply keeps_core
      | (intro x; refine (have hx : State.Keeps r x := ?_; ?_); unfold x; rotate_left; clear_value x; rotate_left) | (intro x; clear_value x)
      | intro x | split | lift_lets | dsimp only

theorem execBbEntryProgram_keeps {r : State} (s : State) (h : r.Keeps s) :
    KeepsOut r (execBbEntryProgram s) := by
  unfold execBbEntryProgram
  with_reducible
    repeat' first
      | assumption | apply keeps_next | apply State.setSlot_keeps | apply State.syncHead_keeps | apply State.advanceHead_keeps
      | apply State.syncBb_keeps | apply State.bump_keeps | apply State.emit_keeps | simp -zeta -zetaUnused -zetaHave -proj only [keeps_mk]
      | apply keeps_core | (intro x; refine (have hx : State.Keeps r x := ?_; ?_); unfold x; rotate_left; clear_value x; rotate_left)
      | (intro x; clear_value x) | intro x | split | lift_lets | dsimp only

theorem execBbSectorErase_keeps {r : State} (s : State) (h : r.Keeps s) :
    KeepsOut r (execBbSectorErase s) := by
  unfold execBbSectorErase
  with_reducible
    repeat' first
      | assumption | apply keeps_next | apply State.syncHead_keeps | simp -zeta -zetaUnused -zetaHave -proj only [keeps_mk] | apply keeps_core
      | (intro x; refine (have hx : State.Keeps r x := ?_; ?_); unfold x; rotate_left; clear_value x; rotate_left) | (intro x; clear_value x)
      | intro x | split | lift_lets | dsimp only

theorem execBbRdIdxWrite_keeps {r : State} (value : Word) (s : State) (h : r.Keeps s) :
    KeepsOut r (execBbRdIdxWrite value s) := by
  unfold execBbRdIdxWrite
  with_reducible
    repeat' first
      | assumption | apply keeps_next | apply State.setReg_keeps | apply State.setFlag_keeps | simp -zeta -zetaUnused -zetaHave -proj only [keeps_mk]
      | apply keeps_core | (intro x; refine (have hx : State.Keeps r x := ?_; ?_); unfold x; rotate_left; clear_value x; rotate_left)
      | (intro x; clear_value x) | intro x | split | lift_lets | dsimp only

theorem execBbRdLatchDone_keeps {r : State} (s : State) (h : r.Keeps s) :
    KeepsOut r (execBbRdLatchDone s) := by
  unfold execBbRdLatchDone
  with_reducible
    repeat' first
      | assumption | apply keeps_next | apply State.setFlag_keeps | apply State.setRegBytes_keeps
      | simp -zeta -zetaUnused -zetaHave -proj only [keeps_mk] | apply keeps_core
      | (intro x; refine (have hx : State.Keeps r x := ?_; ?_); unfold x; rotate_left; clear_value x; rotate_left) | (intro x; clear_value x)
      | intro x | split | lift_lets | dsimp only

/-! Machine/Fabric.lean -/

theorem State.setLinkDir_keeps {r : State} (s : State) (d : Nat) (x : LinkDir) (h : r.Keeps s) :
    r.Keeps (State.setLinkDir s d x) := by
  unfold State.setLinkDir
  with_reducible
    repeat' first
      | assumption | simp -zeta -zetaUnused -zetaHave -proj only [keeps_mk] | apply keeps_core
      | (intro x; refine (have hx : State.Keeps r x := ?_; ?_); unfold x; rotate_left; clear_value x; rotate_left) | (intro x; clear_value x)
      | intro x | lift_lets | dsimp only

theorem State.launchBlock_keeps {r : State} (s : State) (d : Nat) (b : FabBlock) (h : r.Keeps s) :
    r.Keeps (State.launchBlock s d b) := by
  unfold State.launchBlock
  with_reducible
    repeat' first
      | assumption | apply State.setLinkDir_keeps | simp -zeta -zetaUnused -zetaHave -proj only [keeps_mk] | apply keeps_core
      | (intro x; refine (have hx : State.Keeps r x := ?_; ?_); unfold x; rotate_left; clear_value x; rotate_left) | (intro x; clear_value x)
      | intro x | split | lift_lets | dsimp only

theorem State.launchWaiting_keeps {r : State} (s : State) (d : Nat) (h : r.Keeps s) :
    r.Keeps (State.launchWaiting s d) := by
  unfold State.launchWaiting
  with_reducible
    repeat' first
      | assumption | apply State.launchBlock_keeps | apply State.setLinkDir_keeps
      | simp -zeta -zetaUnused -zetaHave -proj only [keeps_mk, keeps_mk_fst] | apply keeps_core | apply keeps_foldl | apply keeps_foldl_fst
      | apply keeps_foldl_snd | (intro x; refine (have hx : State.Keeps r x := ?_; ?_); unfold x; rotate_left; clear_value x; rotate_left)
      | (intro x; clear_value x) | intro x | split | lift_lets | dsimp only

theorem State.sendAck_keeps {r : State} (s : State) (d : Nat) (nak : Bool) (h : r.Keeps s) :
    r.Keeps (State.sendAck s d nak) := by
  unfold State.sendAck
  with_reducible
    repeat' first
      | assumption | apply State.setLinkDir_keeps | simp -zeta -zetaUnused -zetaHave -proj only [keeps_mk] | apply keeps_core
      | (intro x; refine (have hx : State.Keeps r x := ?_; ?_); unfold x; rotate_left; clear_value x; rotate_left) | (intro x; clear_value x)
      | intro x | lift_lets | dsimp only

theorem State.retrainStart_keeps {r : State} (s : State) (l : Nat) (h : r.Keeps s) :
    r.Keeps (State.retrainStart s l) := by
  unfold State.retrainStart
  with_reducible
    repeat' first
      | assumption | apply State.setLinkDir_keeps | apply State.bump_keeps | apply State.setFlag_keeps
      | simp -zeta -zetaUnused -zetaHave -proj only [keeps_mk] | apply keeps_core
      | (intro x; refine (have hx : State.Keeps r x := ?_; ?_); unfold x; rotate_left; clear_value x; rotate_left)
      | (intro x; refine (have hfn : ∀ y, State.Keeps r y → State.Keeps r (x y) := ?_; ?_); unfold x; rotate_left; clear_value x; rotate_left)
      | (intro x; refine (have hfn : ∀ y z, State.Keeps r y → State.Keeps r (x y z) := ?_; ?_); unfold x; rotate_left; clear_value x; rotate_left)
      | apply hfn | (intro x; clear_value x) | intro x | split | lift_lets | dsimp only

theorem State.replay_keeps {r : State} (s : State) (d : Nat) (h : r.Keeps s) :
    r.Keeps (State.replay s d) := by
  unfold State.replay
  with_reducible
    repeat' first
      | assumption | apply State.retrainStart_keeps | apply State.bump_keeps | apply State.setLinkDir_keeps
      | simp -zeta -zetaUnused -zetaHave -proj only [keeps_mk] | apply keeps_core
      | (intro x; refine (have hx : State.Keeps r x := ?_; ?_); unfold x; rotate_left; clear_value x; rotate_left) | (intro x; clear_value x)
      | intro x | split | lift_lets | dsimp only

theorem State.takeAck_keeps {r : State} (s : State) (d : Nat) (ack : Nat) (nak : Bool) (h : r.Keeps s) :
    r.Keeps (State.takeAck s d ack nak) := by
  unfold State.takeAck
  with_reducible
    repeat' first
      | assumption | apply State.setLinkDir_keeps | apply State.launchWaiting_keeps | apply State.replay_keeps
      | simp -zeta -zetaUnused -zetaHave -proj only [keeps_mk] | apply keeps_core
      | (intro x; refine (have hx : State.Keeps r x := ?_; ?_); unfold x; rotate_left; clear_value x; rotate_left) | (intro x; clear_value x)
      | intro x | split | lift_lets | dsimp only

theorem execFabBlockSend_keeps {r : State} (die : Nat) (vc : Nat) (poison : Bool) (dst : Nat) (src : Nat) (sect : Nat) (tag : Nat) (payload : List Byte) (s : State) (h : r.Keeps s) :
    KeepsOut r (execFabBlockSend die vc poison dst src sect tag payload s) := by
  unfold execFabBlockSend
  with_reducible
    repeat' first
      | assumption | apply keeps_next | apply State.launchBlock_keeps
      | (intro x; refine (have hx : State.Keeps r x := ?_; ?_); unfold x; rotate_left; clear_value x; rotate_left) | (intro x; clear_value x)
      | intro x | split | lift_lets | dsimp only

theorem State.receiveBlock_keeps {r : State} (s : State) (d : Nat) (b : FabBlock) (h : r.Keeps s) :
    r.Keeps (State.receiveBlock s d b) := by
  unfold State.receiveBlock
  with_reducible
    repeat' first
      | assumption | apply State.setFlag_keeps | apply State.sendAck_keeps | apply State.setLinkDir_keeps | apply State.bump_keeps
      | simp -zeta -zetaUnused -zetaHave -proj only [keeps_mk] | apply keeps_core
      | (intro x; refine (have hx : State.Keeps r x := ?_; ?_); unfold x; rotate_left; clear_value x; rotate_left) | (intro x; clear_value x)
      | intro x | split | lift_lets | dsimp only

theorem execFabBlockReceive_keeps {r : State} (dir : Nat) (noise : List Byte) (s : State) (h : r.Keeps s) :
    KeepsOut r (execFabBlockReceive dir noise s) := by
  unfold execFabBlockReceive
  with_reducible
    repeat' first
      | assumption | apply keeps_next | apply State.setLinkDir_keeps | apply State.takeAck_keeps | apply State.receiveBlock_keeps
      | apply State.bump_keeps | apply State.sendAck_keeps | simp -zeta -zetaUnused -zetaHave -proj only [keeps_mk] | apply keeps_core
      | (intro x; refine (have hx : State.Keeps r x := ?_; ?_); unfold x; rotate_left; clear_value x; rotate_left) | (intro x; clear_value x)
      | intro x | split | lift_lets | dsimp only

theorem execFabAckTimeout_keeps {r : State} (dir : Nat) (s : State) (h : r.Keeps s) :
    KeepsOut r (execFabAckTimeout dir s) := by
  unfold execFabAckTimeout
  with_reducible
    repeat' first
      | assumption | apply keeps_next | apply State.replay_keeps | apply State.setLinkDir_keeps
      | simp -zeta -zetaUnused -zetaHave -proj only [keeps_mk] | apply keeps_core
      | (intro x; refine (have hx : State.Keeps r x := ?_; ?_); unfold x; rotate_left; clear_value x; rotate_left) | (intro x; clear_value x)
      | intro x | split | lift_lets | dsimp only

theorem State.syncLanes_keeps {r : State} (s : State) (l : Nat) (dir : Nat) (h : r.Keeps s) :
    r.Keeps (State.syncLanes s l dir) := by
  unfold State.syncLanes
  with_reducible
    repeat' first
      | assumption | apply State.setFld_keeps | simp -zeta -zetaUnused -zetaHave -proj only [keeps_mk_fst] | apply keeps_foldl | apply keeps_foldl_fst
      | apply keeps_foldl_snd | (intro x; refine (have hx : State.Keeps r x := ?_; ?_); unfold x; rotate_left; clear_value x; rotate_left)
      | (intro x; clear_value x) | intro x | split | lift_lets | dsimp only

theorem State.laneBad_keeps {r : State} (s : State) (l : Nat) (dir : Nat) (b : Nat) (lane : Nat) (by_ : Nat) (h : r.Keeps s) :
    r.Keeps (State.laneBad s l dir b lane by_) := by
  have e : ∀ z, r.Keeps { s with boot := { s.boot with badLanes := z } } := fun z => keeps_mk.mpr (keeps_core h)
  unfold State.laneBad
  dsimp only
  split
  · exact h
  · split
    · exact State.emit_keeps _ _ (State.emit_keeps _ _ (State.syncLanes_keeps _ _ _ (e _)))
    · exact State.emit_keeps _ _ (State.syncLanes_keeps _ _ _ (e _))

theorem State.resendOver_keeps {r : State} (s : State) (die : Nat) (b : FabBlock) (h : r.Keeps s) :
    r.Keeps (State.resendOver s die b) := by
  unfold State.resendOver
  with_reducible
    repeat' first
      | assumption | apply State.launchWaiting_keeps | apply State.setLinkDir_keeps | simp -zeta -zetaUnused -zetaHave -proj only [keeps_mk]
      | apply keeps_core | (intro x; refine (have hx : State.Keeps r x := ?_; ?_); unfold x; rotate_left; clear_value x; rotate_left)
      | (intro x; clear_value x) | intro x | split | lift_lets | dsimp only

theorem State.linkDown_keeps {r : State} (s : State) (l : Nat) (reason : Nat) (h : r.Keeps s) :
    r.Keeps (State.linkDown s l reason) := by
  unfold State.linkDown
  with_reducible
    repeat' first
      | assumption | apply State.setFlag_keeps | apply State.setLinkDir_keeps | apply State.emit_keeps | apply State.resendOver_keeps
      | apply State.declareDie_keeps | simp -zeta -zetaUnused -zetaHave -proj only [keeps_mk, keeps_mk_fst] | apply keeps_core | apply keeps_foldl
      | apply keeps_foldl_fst | apply keeps_foldl_snd
      | (intro x; refine (have hx : State.Keeps r x := ?_; ?_); unfold x; rotate_left; clear_value x; rotate_left)
      | (intro x; refine (have hfn : ∀ y, State.Keeps r y → State.Keeps r (x y) := ?_; ?_); unfold x; rotate_left; clear_value x; rotate_left)
      | (intro x; refine (have hfn : ∀ y z, State.Keeps r y → State.Keeps r (x y z) := ?_; ?_); unfold x; rotate_left; clear_value x; rotate_left)
      | apply hfn | (intro x; clear_value x) | intro x | split | lift_lets | dsimp only

theorem execFabRetrainDone_keeps {r : State} (link : Nat) (bad : List LaneId) (s : State) (h : r.Keeps s) :
    KeepsOut r (execFabRetrainDone link bad s) := by
  unfold execFabRetrainDone
  with_reducible
    repeat' first
      | assumption | apply keeps_next | apply State.bump_keeps | apply State.laneBad_keeps | apply State.setLinkDir_keeps
      | apply State.launchWaiting_keeps | apply State.setFlag_keeps | apply State.linkDown_keeps
      | simp -zeta -zetaUnused -zetaHave -proj only [keeps_mk, keeps_mk_fst] | apply keeps_core | apply keeps_foldl | apply keeps_foldl_fst
      | apply keeps_foldl_snd | (intro x; refine (have hx : State.Keeps r x := ?_; ?_); unfold x; rotate_left; clear_value x; rotate_left)
      | (intro x; refine (have hfn : ∀ y, State.Keeps r y → State.Keeps r (x y) := ?_; ?_); unfold x; rotate_left; clear_value x; rotate_left)
      | (intro x; refine (have hfn : ∀ y z, State.Keeps r y → State.Keeps r (x y z) := ?_; ?_); unfold x; rotate_left; clear_value x; rotate_left)
      | apply hfn | (intro x; clear_value x) | intro x | split | lift_lets | dsimp only

theorem execFabRetrainTimeout_keeps {r : State} (link : Nat) (s : State) (h : r.Keeps s) :
    KeepsOut r (execFabRetrainTimeout link s) := by
  unfold execFabRetrainTimeout
  with_reducible
    repeat' first
      | assumption | apply keeps_next | apply State.linkDown_keeps
      | (intro x; refine (have hx : State.Keeps r x := ?_; ?_); unfold x; rotate_left; clear_value x; rotate_left) | (intro x; clear_value x)
      | intro x | split | lift_lets | dsimp only

end Sys2Proof.Machine
end

