-- ==== Sys2Proof/Laws/KeepsPorts.lean ====
section
/-! SUPPORT. What State.Keeps says, operation by operation: of reset and boot, coherence, pintle, memory maintenance, end of frame, host registers, pins, and of the T-core and V-core instruction families. -/

open Sys2Proof
namespace Sys2Proof.Machine

set_option linter.all false

/-! Machine/Boot.lean -/

theorem State.teardown_keeps {r : State} (s : State) (h : r.Keeps s) : r.Keeps s.teardown := by
  have k := State.rebaseClocks_keeps s (List.range 640) h
  unfold State.teardown
  generalize s.rebaseClocks (List.range 640) = t at k ⊢
  exact keeps_mk.mpr ⟨fun w => ⟨((keeps_core k).memWf w).1, rfl, rfl, ((keeps_core k).memWf w).2.2.2⟩, k.pending, k.now, k.freeCtr, k.fusedSvn, k.repair⟩

theorem State.warmRegs_keeps {r : State} (s : State) (h : r.Keeps s) : r.Keeps s.warmRegs := by
  unfold State.warmRegs
  refine keeps_foldl (keeps_mk.mpr ⟨fun w => ?_, h.pending, h.now, h.freeCtr, h.fusedSvn, h.repair⟩) fun _ _ hx => State.setFlag_keeps _ _ _ hx
  have w := (keeps_core h).memWf w
  exact ⟨kvFilter_wf _ _ _ w.1, w.2⟩

theorem State.coldState_keeps {r : State} (s : State) (h : r.Keeps s) : r.Keeps s.coldState :=
  keeps_mk.mpr ⟨fun w => ⟨rfl, rfl, rfl, ((keeps_core h).memWf w).2.2.2⟩, h.pending, h.now, h.freeCtr, h.fusedSvn, h.repair⟩

theorem State.beginStep_keeps {r : State} (s : State) (n : Nat) (h : r.Keeps s) :
    r.Keeps (State.beginStep s n) := by
  unfold State.beginStep
  with_reducible
    repeat' first
      | assumption | apply State.setFld_keeps | simp -zeta -zetaUnused -zetaHave -proj only [keeps_mk] | apply keeps_core
      | (intro x; refine (have hx : State.Keeps r x := ?_; ?_); unfold x; rotate_left; clear_value x; rotate_left) | (intro x; clear_value x)
      | intro x | lift_lets | dsimp only

theorem State.spendStep_keeps {r : State} (s : State) (n us : Nat) (h : r.Keeps s) : r.Keeps (s.spendStep n us) := by
  unfold State.spendStep
  apply State.setFld_keeps
  exact keeps_mk.mpr ⟨(keeps_core h).memWf, h.pending, Nat.le_trans h.now (Nat.le_add_right _ _), h.freeCtr, h.fusedSvn, h.repair⟩

theorem State.stopStart_keeps {r : State} (s : State) (code : Nat) (h : r.Keeps s) :
    r.Keeps (State.stopStart s code) := by
  unfold State.stopStart
  with_reducible
    repeat' first
      | assumption | apply State.setFld_keeps | apply State.setFlag_keeps | dsimp only

theorem State.runStep_keeps {r : State} (s : State) (n : Nat) (us : Nat) (f : State → State) (h : r.Keeps s) (hf : ∀ y0, r.Keeps y0 → r.Keeps (f y0)) :
    r.Keeps (State.runStep s n us f) := by
  unfold State.runStep
  with_reducible
    repeat' first
      | assumption | apply hf | apply State.spendStep_keeps | apply State.beginStep_keeps | intro x | split | dsimp only

theorem State.loadFuses_keeps {r : State} (s : State) (h : r.Keeps s) :
    r.Keeps (State.loadFuses s) := by
  unfold State.loadFuses
  with_reducible
    repeat' first
      | assumption | apply State.setFld_keeps | apply State.setReg_keeps | apply State.setFld64_keeps | apply State.setVolt_keeps
      | simp -zeta -zetaUnused -zetaHave -proj only [keeps_mk_fst] | apply keeps_foldl | apply keeps_foldl_fst | apply keeps_foldl_snd
      | (intro x; refine (have hx : State.Keeps r x := ?_; ?_); unfold x; rotate_left; clear_value x; rotate_left) | (intro x; clear_value x)
      | intro x | lift_lets | dsimp only

theorem State.findHead_keeps {r : State} (s : State) (h : r.Keeps s) :
    r.Keeps (State.findHead s) := by
  unfold State.findHead
  with_reducible
    repeat' first
      | assumption | apply State.advanceHead_keeps | apply State.syncHead_keeps | apply State.setFlag_keeps | apply State.emit_keeps
      | (intro x; refine (have hx : State.Keeps r x := ?_; ?_); unfold x; rotate_left; clear_value x; rotate_left) | (intro x; clear_value x)
      | intro x | split | lift_lets | dsimp only

theorem State.hostLinkUp_keeps {r : State} (s : State) (h : r.Keeps s) :
    r.Keeps (State.hostLinkUp s) := by
  unfold State.hostLinkUp
  with_reducible
    repeat' first
      | assumption | apply State.setFlag_keeps | apply State.setFld_keeps
      | (intro x; refine (have hx : State.Keeps r x := ?_; ?_); unfold x; rotate_left; clear_value x; rotate_left) | (intro x; clear_value x)
      | intro x | lift_lets | dsimp only

theorem State.step1_keeps {r : State} (s : State) (h : r.Keeps s) :
    r.Keeps (State.step1 s) := by
  unfold State.step1
  with_reducible
    repeat' first
      | assumption | apply State.hostLinkUp_keeps | apply State.findHead_keeps | apply State.loadFuses_keeps | apply State.setFld_keeps
      | (intro x; refine (have hx : State.Keeps r x := ?_; ?_); unfold x; rotate_left; clear_value x; rotate_left) | (intro x; clear_value x)
      | intro x | lift_lets | dsimp only

theorem State.assemblyLanes_keeps {r : State} (s : State) (l : Nat) (h : r.Keeps s) :
    r.Keeps (State.assemblyLanes s l) := by
  unfold State.assemblyLanes
  with_reducible
    repeat' first
      | assumption | simp -zeta -zetaUnused -zetaHave -proj only [keeps_mk, keeps_mk_fst] | apply keeps_core | apply keeps_foldl
      | apply keeps_foldl_fst | apply keeps_foldl_snd
      | (intro x; refine (have hx : State.Keeps r x := ?_; ?_); unfold x; rotate_left; clear_value x; rotate_left) | (intro x; clear_value x)
      | intro x | lift_lets | dsimp only

theorem State.assemblyBundles_keeps {r : State} (s : State) (l : Nat) (h : r.Keeps s) :
    r.Keeps (State.assemblyBundles s l) := by
  unfold State.assemblyBundles
  with_reducible
    repeat' first
      | assumption | apply State.emit_keeps | simp -zeta -zetaUnused -zetaHave -proj only [keeps_mk_fst] | apply keeps_foldl | apply keeps_foldl_fst
      | apply keeps_foldl_snd | intro x | split | dsimp only

theorem State.trainLink_keeps {r : State} (s : State) (l : Nat) (bad : List (Nat × LaneId)) (h : r.Keeps s) :
    r.Keeps (State.trainLink s l bad) := by
  unfold State.trainLink
  with_reducible
    repeat' first
      | assumption | apply State.assemblyBundles_keeps | apply State.assemblyLanes_keeps | apply State.laneBad_keeps
      | simp -zeta -zetaUnused -zetaHave -proj only [keeps_mk_fst] | apply keeps_foldl | apply keeps_foldl_fst | apply keeps_foldl_snd
      | (intro x; refine (have hx : State.Keeps r x := ?_; ?_); unfold x; rotate_left; clear_value x; rotate_left) | (intro x; clear_value x)
      | intro x | split | lift_lets | dsimp only

theorem State.bringUp_keeps {r : State} (s : State) (l : Nat) (h : r.Keeps s) :
    r.Keeps (State.bringUp s l) := by
  unfold State.bringUp
  with_reducible
    repeat' first
      | assumption | apply State.syncLanes_keeps | apply State.setFlag_keeps | apply State.linkDown_keeps
      | (intro x; refine (have hx : State.Keeps r x := ?_; ?_); unfold x; rotate_left; clear_value x; rotate_left) | (intro x; clear_value x)
      | intro x | split | lift_lets | dsimp only

theorem State.step3_keeps {r : State} (s : State) (train : List Nat) (bad : List (Nat × LaneId)) (h : r.Keeps s) :
    r.Keeps (State.step3 s train bad) := by
  unfold State.step3
  with_reducible
    repeat' first
      | assumption | apply State.trainLink_keeps | apply State.bringUp_keeps | apply State.stopStart_keeps
      | simp -zeta -zetaUnused -zetaHave -proj only [keeps_mk_fst] | apply keeps_foldl | apply keeps_foldl_fst | apply keeps_foldl_snd
      | (intro x; refine (have hx : State.Keeps r x := ?_; ?_); unfold x; rotate_left; clear_value x; rotate_left) | (intro x; clear_value x)
      | intro x | split | lift_lets | dsimp only

theorem State.step4_keeps {r : State} (s : State) (bad : List (Nat × Nat)) (h : r.Keeps s) :
    r.Keeps (State.step4 s bad) := by
  unfold State.step4
  with_reducible
    repeat' first
      | assumption | apply State.setFld_keeps | apply State.emit_keeps | apply State.stopStart_keeps
      | simp -zeta -zetaUnused -zetaHave -proj only [keeps_mk_fst] | apply keeps_foldl | apply keeps_foldl_fst | apply keeps_foldl_snd
      | (intro x; refine (have hx : State.Keeps r x := ?_; ?_); unfold x; rotate_left; clear_value x; rotate_left) | (intro x; clear_value x)
      | intro x | split | lift_lets | dsimp only

theorem State.step5_keeps {r : State} (s : State) (salt : Option (List Byte)) (h : r.Keeps s) :
    r.Keeps (State.step5 s salt) := by
  unfold State.step5
  with_reducible
    repeat' first
      | assumption | apply State.setFlag_keeps | simp -zeta -zetaUnused -zetaHave -proj only [keeps_mk] | apply keeps_core
      | (intro x; refine (have hx : State.Keeps r x := ?_; ?_); unfold x; rotate_left; clear_value x; rotate_left) | (intro x; clear_value x)
      | intro x | split | lift_lets | dsimp only

theorem State.step7_keeps {r : State} (s : State) (h : r.Keeps s) :
    r.Keeps (State.step7 s) := by
  unfold State.step7
  with_reducible
    repeat' first
      | assumption | apply State.beginStep_keeps | simp -zeta -zetaUnused -zetaHave -proj only [keeps_mk] | apply keeps_core
      | (intro x; refine (have hx : State.Keeps r x := ?_; ?_); unfold x; rotate_left; clear_value x; rotate_left) | (intro x; clear_value x)
      | intro x | split | lift_lets | dsimp only

theorem State.begin__keeps {r : State} (s : State) (warm : Bool) (h : r.Keeps s) :
    r.Keeps (State.begin_ s warm) := by
  unfold State.begin_
  with_reducible
    repeat' first
      | assumption | apply State.setFlag_keeps | simp -zeta -zetaUnused -zetaHave -proj only [keeps_mk] | apply keeps_core
      | (intro x; refine (have hx : State.Keeps r x := ?_; ?_); unfold x; rotate_left; clear_value x; rotate_left) | (intro x; clear_value x)
      | intro x | lift_lets | dsimp only

theorem State.coldStart_keeps {r : State} (s : State) (times : List Nat) (salt : List Byte) (selfFail : Option (Nat × Nat)) (badLanes : List (Nat × LaneId)) (badChannels : List (Nat × Nat)) (h : r.Keeps s) :
    r.Keeps (State.coldStart s times salt selfFail badLanes badChannels) := by
  unfold State.coldStart
  with_reducible
    repeat' first
      | assumption | apply State.coldState_keeps | apply State.setFld_keeps | apply State.begin__keeps | apply State.runStep_keeps
      | apply State.step1_keeps | apply State.brakeOn_keeps | apply State.stopStart_keeps | apply State.emit_keeps | apply State.step3_keeps
      | apply State.step4_keeps | apply State.step5_keeps | apply State.syncFree_keeps | apply State.syncXlt_keeps | apply State.step7_keeps
      | simp -zeta -zetaUnused -zetaHave -proj only [keeps_mk] | apply keeps_core
      | (intro x; refine (have hx : State.Keeps r x := ?_; ?_); unfold x; rotate_left; clear_value x; rotate_left) | (intro x; clear_value x)
      | intro x | split | lift_lets | dsimp only

theorem execColdStart_keeps {r : State} (times : List Nat) (salt : List Byte) (selfFail : Option (Nat × Nat)) (badLanes : List (Nat × LaneId)) (badChannels : List (Nat × Nat)) (s : State) (h : r.Keeps s) :
    KeepsOut r (execColdStart times salt selfFail badLanes badChannels s) := by
  unfold execColdStart
  with_reducible
    repeat' first
      | assumption | apply keeps_next | apply State.coldStart_keeps | simp -zeta -zetaUnused -zetaHave -proj only [keeps_mk] | apply keeps_core
      | (intro x; refine (have hx : State.Keeps r x := ?_; ?_); unfold x; rotate_left; clear_value x; rotate_left) | (intro x; clear_value x)
      | intro x | split | lift_lets | dsimp only

theorem State.warmStart_keeps {r : State} (s : State) (times : List Nat) (badLanes : List (Nat × LaneId)) (h : r.Keeps s) :
    r.Keeps (State.warmStart s times badLanes) := by
  unfold State.warmStart
  with_reducible
    repeat' first
      | assumption | apply State.bump_keeps | apply State.begin__keeps | apply State.warmRegs_keeps | apply State.teardown_keeps
      | apply State.runStep_keeps | apply State.step1_keeps | apply State.setFlag_keeps | apply State.step3_keeps | apply State.step5_keeps
      | apply State.step7_keeps | apply State.syncFree_keeps | apply State.syncXlt_keeps
      | (intro x; refine (have hx : State.Keeps r x := ?_; ?_); unfold x; rotate_left; clear_value x; rotate_left) | (intro x; clear_value x)
      | intro x | split | lift_lets | dsimp only

theorem State.warmRequest_keeps {r : State} (s : State) (times : List Nat) (badLanes : List (Nat × LaneId)) (h : r.Keeps s) :
    r.Keeps (State.warmRequest s times badLanes) := by
  unfold State.warmRequest
  with_reducible
    repeat' first
      | assumption | apply State.warmStart_keeps | simp -zeta -zetaUnused -zetaHave -proj only [keeps_mk] | apply keeps_core
      | (intro x; refine (have hx : State.Keeps r x := ?_; ?_); unfold x; rotate_left; clear_value x; rotate_left) | (intro x; clear_value x)
      | intro x | split | lift_lets | dsimp only

theorem execWarmStart_keeps {r : State} (times : List Nat) (badLanes : List (Nat × LaneId)) (s : State) (h : r.Keeps s) :
    KeepsOut r (execWarmStart times badLanes s) := by
  unfold execWarmStart
  with_reducible
    repeat' first
      | assumption | apply keeps_next | apply State.warmRequest_keeps | split | dsimp only

theorem execWarmGo_keeps {r : State} (value : Word) (times : List Nat) (badLanes : List (Nat × LaneId)) (s : State) (h : r.Keeps s) :
    KeepsOut r (execWarmGo value times badLanes s) := by
  unfold execWarmGo
  with_reducible
    repeat' first
      | assumption | apply keeps_next | apply State.setFlag_keeps | apply State.warmRequest_keeps
      | (intro x; refine (have hx : State.Keeps r x := ?_; ?_); unfold x; rotate_left; clear_value x; rotate_left) | (intro x; clear_value x)
      | intro x | split | lift_lets | dsimp only

theorem execPwrokDeassert_keeps {r : State} (s : State) (h : r.Keeps s) : KeepsOut r (execPwrokDeassert s) := by
  unfold execPwrokDeassert
  split
  · exact keeps_next h
  · have k := State.teardown_keeps _ (State.nextFree_keeps s h).out
    apply keeps_next
    change r.Keeps (if _ then State.setSlot { (s.nextFree.2).teardown with regs := [], bb := _, boot := { power := _, coldCount := _, repair := s.boot.repair }, pins := _, mgt := _ } _ _ else { (s.nextFree.2).teardown with regs := [], bb := _, boot := _, pins := _, mgt := _ })
    generalize (s.nextFree.2).teardown = t at k
    have e : ∀ b c o p m, r.Keeps { t with regs := [], bb := b, boot := { power := o, coldCount := c, repair := s.boot.repair }, pins := p, mgt := m } := fun b c o p m =>
      keeps_mk.mpr ⟨fun w => ⟨rfl, ((keeps_core k).memWf w).2⟩, k.pending, k.now, k.freeCtr, k.fusedSvn, h.repair⟩
    split
    · exact State.setSlot_keeps _ _ _ (e _ _ _ _ _)
    · exact e _ _ _ _ _

theorem execPwrokAssert_keeps {r : State} (s : State) (h : r.Keeps s) :
    KeepsOut r (execPwrokAssert s) := by
  unfold execPwrokAssert
  with_reducible
    repeat' first
      | assumption | apply keeps_next | simp -zeta -zetaUnused -zetaHave -proj only [keeps_mk] | apply keeps_core
      | (intro x; refine (have hx : State.Keeps r x := ?_; ?_); unfold x; rotate_left; clear_value x; rotate_left) | (intro x; clear_value x)
      | intro x | split | lift_lets | dsimp only

theorem execPerstNAssert_keeps {r : State} (s : State) (h : r.Keeps s) :
    KeepsOut r (execPerstNAssert s) := by
  unfold execPerstNAssert
  with_reducible
    repeat' first
      | assumption | apply keeps_next | apply State.teardown_keeps | simp -zeta -zetaUnused -zetaHave -proj only [keeps_mk] | apply keeps_core
      | (intro x; refine (have hx : State.Keeps r x := ?_; ?_); unfold x; rotate_left; clear_value x; rotate_left) | (intro x; clear_value x)
      | intro x | split | lift_lets | dsimp only

theorem execFwPushGo_keeps {r : State} (value : Word) (s : State) (h : r.Keeps s) :
    KeepsOut r (execFwPushGo value s) := by
  unfold execFwPushGo
  with_reducible
    repeat' first
      | assumption | apply keeps_next | simp -zeta -zetaUnused -zetaHave -proj only [keeps_mk] | apply keeps_core
      | (intro x; refine (have hx : State.Keeps r x := ?_; ?_); unfold x; rotate_left; clear_value x; rotate_left) | (intro x; clear_value x)
      | intro x | split | lift_lets | dsimp only

theorem State.refuseBundle_keeps {r : State} (s : State) (code : Nat) (bs : List Byte) (h : r.Keeps s) :
    r.Keeps (State.refuseBundle s code bs) := by
  unfold State.refuseBundle
  with_reducible
    repeat' first
      | assumption | apply State.setFld_keeps | apply State.bbEnter_keeps | simp -zeta -zetaUnused -zetaHave -proj only [keeps_mk] | apply keeps_core
      | (intro x; refine (have hx : State.Keeps r x := ?_; ?_); unfold x; rotate_left; clear_value x; rotate_left) | (intro x; clear_value x)
      | intro x | lift_lets | dsimp only

theorem State.acceptBundle_keeps {r : State} (s : State) (bs : List Byte) (h : r.Keeps s) :
    r.Keeps (State.acceptBundle s bs) := by
  unfold State.acceptBundle
  with_reducible
    repeat' first
      | assumption | apply State.setFlag_keeps | apply State.setRegBytes_keeps | apply State.setFld_keeps | apply State.beginStep_keeps
      | apply State.emit_keeps | simp -zeta -zetaUnused -zetaHave -proj only [keeps_mk] | apply keeps_core
      | (intro x; refine (have hx : State.Keeps r x := ?_; ?_); unfold x; rotate_left; clear_value x; rotate_left) | (intro x; clear_value x)
      | intro x | split | lift_lets | dsimp only

theorem execFwCheckDone_keeps {r : State} (bundle : List Byte) (s : State) (h : r.Keeps s) :
    KeepsOut r (execFwCheckDone bundle s) := by
  unfold execFwCheckDone
  with_reducible
    repeat' first
      | assumption | apply keeps_next | apply State.refuseBundle_keeps | apply State.acceptBundle_keeps
      | (intro x; refine (have hx : State.Keeps r x := ?_; ?_); unfold x; rotate_left; clear_value x; rotate_left) | (intro x; clear_value x)
      | intro x | split | lift_lets | dsimp only

/-! Machine/Coh.lean -/

theorem State.reachDir_keeps {r : State} (s : State) (core : Nat) (line : Nat) (op : Nat) (h : r.Keeps s) :
    r.Keeps (State.reachDir s core line op) := by
  unfold State.reachDir
  with_reducible
    repeat' first
      | assumption | apply State.arriveDir_keeps | simp -zeta -zetaUnused -zetaHave -proj only [keeps_mk] | apply keeps_core
      | (intro x; refine (have hx : State.Keeps r x := ?_; ?_); unfold x; rotate_left; clear_value x; rotate_left) | (intro x; clear_value x)
      | intro x | split | lift_lets | dsimp only

theorem State.readDir_keeps {r : State} (s : State) (core : Nat) (line : Nat) (op : Nat) (err : Nat) (h : r.Keeps s) :
    r.Keeps (State.readDir s core line op err) := by
  unfold State.readDir
  with_reducible
    repeat' first
      | assumption | apply State.emit_keeps | apply State.reachDir_keeps | apply State.bump_keeps
      | (intro x; refine (have hx : State.Keeps r x := ?_; ?_); unfold x; rotate_left; clear_value x; rotate_left) | (intro x; clear_value x)
      | intro x | split | lift_lets | dsimp only

theorem execRds_keeps {r : State} (core : Nat) (line : Nat) (err : Nat) (s : State) (h : r.Keeps s) :
    KeepsOut r (execRds core line err s) := by
  unfold execRds
  with_reducible
    repeat' first
      | assumption | apply keeps_next | apply State.readDir_keeps | dsimp only

theorem execRdx_keeps {r : State} (core : Nat) (line : Nat) (err : Nat) (s : State) (h : r.Keeps s) :
    KeepsOut r (execRdx core line err s) := by
  unfold execRdx
  with_reducible
    repeat' first
      | assumption | apply keeps_next | apply State.readDir_keeps | dsimp only

theorem execUpg_keeps {r : State} (core : Nat) (line : Nat) (s : State) (h : r.Keeps s) :
    KeepsOut r (execUpg core line s) := by
  unfold execUpg
  with_reducible
    repeat' first
      | assumption | apply keeps_next | apply State.reachDir_keeps | dsimp only

theorem execWbd_keeps {r : State} (core : Nat) (line : Nat) (s : State) (h : r.Keeps s) :
    KeepsOut r (execWbd core line s) := by
  unfold execWbd
  with_reducible
    repeat' first
      | assumption | apply keeps_next | apply State.reachDir_keeps | dsimp only

theorem execEvc_keeps {r : State} (core : Nat) (line : Nat) (s : State) (h : r.Keeps s) :
    KeepsOut r (execEvc core line s) := by
  unfold execEvc
  with_reducible
    repeat' first
      | assumption | apply keeps_next | apply State.reachDir_keeps | dsimp only

theorem execSnps_keeps {r : State} (core : Nat) (line : Nat) (s : State) (h : r.Keeps s) :
    KeepsOut r (execSnps core line s) := by
  unfold execSnps
  with_reducible
    repeat' first
      | assumption | apply keeps_next | apply State.snoopL2_keeps | split | dsimp only

theorem execSnpw_keeps {r : State} (core : Nat) (line : Nat) (s : State) (h : r.Keeps s) :
    KeepsOut r (execSnpw core line s) := by
  unfold execSnpw
  with_reducible
    repeat' first
      | assumption | apply keeps_next | apply State.snoopL2_keeps | split | dsimp only

theorem execSnpi_keeps {r : State} (core : Nat) (line : Nat) (s : State) (h : r.Keeps s) :
    KeepsOut r (execSnpi core line s) := by
  unfold execSnpi
  with_reducible
    repeat' first
      | assumption | apply keeps_next | apply State.snoopL2_keeps | split | dsimp only

theorem execInv_keeps {r : State} (core : Nat) (line : Nat) (s : State) (h : r.Keeps s) :
    KeepsOut r (execInv core line s) := by
  unfold execInv
  with_reducible
    repeat' first
      | assumption | apply keeps_next | apply State.snoopL2_keeps | split | dsimp only

theorem execSnoopReply_keeps {r : State} (core : Nat) (line : Nat) (s : State) (h : r.Keeps s) :
    KeepsOut r (execSnoopReply core line s) := by
  unfold execSnoopReply
  with_reducible
    repeat' first
      | assumption | apply keeps_next | apply State.bump_keeps | apply State.takeReply_keeps | simp -zeta -zetaUnused -zetaHave -proj only [keeps_mk]
      | apply keeps_core | (intro x; refine (have hx : State.Keeps r x := ?_; ?_); unfold x; rotate_left; clear_value x; rotate_left)
      | (intro x; clear_value x) | intro x | split | lift_lets | dsimp only

theorem execGrant_keeps {r : State} (core : Nat) (line : Nat) (s : State) (h : r.Keeps s) :
    KeepsOut r (execGrant core line s) := by
  unfold execGrant
  with_reducible
    repeat' first
      | assumption | apply keeps_next | apply State.installL2_keeps
      | (intro x; refine (have hx : State.Keeps r x := ?_; ?_); unfold x; rotate_left; clear_value x; rotate_left) | (intro x; clear_value x)
      | intro x | split | lift_lets | dsimp only

theorem execWritebackAck_keeps {r : State} (core : Nat) (line : Nat) (s : State) (h : r.Keeps s) :
    KeepsOut r (execWritebackAck core line s) := by
  unfold execWritebackAck
  with_reducible
    repeat' first
      | assumption | apply keeps_next | apply State.dropMsg_keeps | apply State.dropL2_keeps
      | (intro x; refine (have hx : State.Keeps r x := ?_; ?_); unfold x; rotate_left; clear_value x; rotate_left) | (intro x; clear_value x)
      | intro x | split | lift_lets | dsimp only

theorem execHoldEnd_keeps {r : State} (core : Nat) (line : Nat) (s : State) (h : r.Keeps s) :
    KeepsOut r (execHoldEnd core line s) := by
  unfold execHoldEnd
  with_reducible
    repeat' first
      | assumption | apply keeps_next | apply State.endHold_keeps
      | (intro x; refine (have hx : State.Keeps r x := ?_; ?_); unfold x; rotate_left; clear_value x; rotate_left) | (intro x; clear_value x)
      | intro x | split | lift_lets | dsimp only

theorem execSnoopTimeout_keeps {r : State} (core : Nat) (s : State) (h : r.Keeps s) :
    KeepsOut r (execSnoopTimeout core s) := by
  unfold execSnoopTimeout
  with_reducible
    repeat' first
      | assumption | apply keeps_next | apply State.declareCore_keeps | split | dsimp only

theorem State.cohKill_keeps {r : State} (s : State) (v : Nat) (h : r.Keeps s) :
    r.Keeps (State.cohKill s v) := by
  unfold State.cohKill
  with_reducible
    repeat' first
      | assumption | apply State.declareDie_keeps | apply State.declareCore_keeps | split | dsimp only

theorem execCohKillCore_keeps {r : State} (value : Word) (s : State) (h : r.Keeps s) :
    KeepsOut r (execCohKillCore value s) := by
  unfold execCohKillCore
  with_reducible
    repeat' first
      | assumption | apply keeps_next | apply State.cohKill_keeps | split | dsimp only

theorem execCohKillDie_keeps {r : State} (value : Word) (s : State) (h : r.Keeps s) :
    KeepsOut r (execCohKillDie value s) := by
  unfold execCohKillDie
  with_reducible
    repeat' first
      | assumption | apply keeps_next | apply State.cohKill_keeps | split | dsimp only

theorem execReclaimWalkDone_keeps {r : State} (s : State) (h : r.Keeps s) :
    KeepsOut r (execReclaimWalkDone s) := by
  unfold execReclaimWalkDone
  with_reducible
    repeat' first
      | assumption | apply keeps_next | apply State.setFlag_keeps | apply State.emit_keeps | simp -zeta -zetaUnused -zetaHave -proj only [keeps_mk]
      | apply keeps_core | (intro x; refine (have hx : State.Keeps r x := ?_; ?_); unfold x; rotate_left; clear_value x; rotate_left)
      | (intro x; clear_value x) | intro x | split | lift_lets | dsimp only

/-! Machine/Ptl.lean -/

theorem State.setPort_keeps {r : State} (s : State) (p : Nat) (x : PortSt) (h : r.Keeps s) :
    r.Keeps (State.setPort s p x) := by
  unfold State.setPort
  with_reducible
    repeat' first
      | assumption | apply State.setFlag_keeps | apply State.setFld_keeps | simp -zeta -zetaUnused -zetaHave -proj only [keeps_mk] | apply keeps_core
      | (intro x; refine (have hx : State.Keeps r x := ?_; ?_); unfold x; rotate_left; clear_value x; rotate_left) | (intro x; clear_value x)
      | intro x | split | lift_lets | dsimp only

theorem State.setPeer_keeps {r : State} (s : State) (l : Nat) (x : PeerSt) (h : r.Keeps s) :
    r.Keeps (State.setPeer s l x) := by
  unfold State.setPeer
  with_reducible
    repeat' first
      | assumption | simp -zeta -zetaUnused -zetaHave -proj only [keeps_mk] | apply keeps_core
      | (intro x; refine (have hx : State.Keeps r x := ?_; ?_); unfold x; rotate_left; clear_value x; rotate_left) | (intro x; clear_value x)
      | intro x | lift_lets | dsimp only

theorem State.dropReq_keeps {r : State} (s : State) (q : RemReq) (h : r.Keeps s) :
    r.Keeps (State.dropReq s q) := by
  unfold State.dropReq
  with_reducible
    repeat' first
      | assumption | simp -zeta -zetaUnused -zetaHave -proj only [keeps_mk] | apply keeps_core
      | (intro x; refine (have hx : State.Keeps r x := ?_; ?_); unfold x; rotate_left; clear_value x; rotate_left) | (intro x; clear_value x)
      | intro x | lift_lets | dsimp only

theorem State.relayFailed_keeps {r : State} (s : State) (q : RemReq) (entry : Nat) (why : Nat) (reason : Nat) (h : r.Keeps s) :
    r.Keeps (State.relayFailed s q entry why reason) := by
  unfold State.relayFailed
  with_reducible
    repeat' first
      | assumption | apply State.emit_keeps | apply State.bump_keeps | dsimp only

theorem State.failReq_keeps {r : State} (s : State) (q : RemReq) (code : Nat) (d : List Byte) (why : Nat) (reason : Nat) (h : r.Keeps s) :
    r.Keeps (State.failReq s q code d why reason) := by
  unfold State.failReq
  with_reducible
    repeat' first
      | assumption | apply State.dropReq_keeps | apply State.tryFinish_keeps | apply State.setAcc_keeps | apply State.failCopy_keeps
      | apply State.relayFailed_keeps | simp -zeta -zetaUnused -zetaHave -proj only [keeps_mk] | apply keeps_core
      | (intro x; refine (have hx : State.Keeps r x := ?_; ?_); unfold x; rotate_left; clear_value x; rotate_left) | (intro x; clear_value x)
      | intro x | split | lift_lets | dsimp only

theorem State.resetPeers_keeps {r : State} (s : State) (p : Nat → Bool) (how : Nat) (h : r.Keeps s) :
    r.Keeps (State.resetPeers s p how) := by
  unfold State.resetPeers
  with_reducible
    repeat' first
      | assumption | apply State.failReq_keeps | simp -zeta -zetaUnused -zetaHave -proj only [keeps_mk_fst] | apply keeps_foldl
      | apply keeps_foldl_fst | apply keeps_foldl_snd | intro x | dsimp only

theorem State.hopSend_keeps {r : State} (s : State) (p : Nat) (b : PathBlk) (h : r.Keeps s) :
    r.Keeps (State.hopSend s p b) := by
  unfold State.hopSend
  with_reducible
    repeat' first
      | assumption | apply State.setPort_keeps | simp -zeta -zetaUnused -zetaHave -proj only [keeps_mk] | apply keeps_core
      | (intro x; refine (have hx : State.Keeps r x := ?_; ?_); unfold x; rotate_left; clear_value x; rotate_left) | (intro x; clear_value x)
      | intro x | split | lift_lets | dsimp only

theorem State.pathSend_keeps {r : State} (s : State) (b : PathBlk) (h : r.Keeps s) :
    KeepsOpt r (State.pathSend s b) := by
  unfold State.pathSend
  with_reducible
    repeat' first
      | assumption | apply keeps_some | exact keeps_none | apply State.emit_keeps | apply State.setPeer_keeps | apply State.bump64_keeps
      | apply State.hopSend_keeps | simp -zeta -zetaUnused -zetaHave -proj only [keeps_mk] | apply keeps_core
      | (intro x; refine (have hx : State.Keeps r x := ?_; ?_); unfold x; rotate_left; clear_value x; rotate_left) | (intro x; clear_value x)
      | intro x | split | lift_lets | dsimp only

theorem State.setReq_keeps {r : State} (s : State) (old : RemReq) (new : RemReq) (h : r.Keeps s) :
    r.Keeps (State.setReq s old new) := by
  unfold State.setReq
  with_reducible
    repeat' first
      | assumption | simp -zeta -zetaUnused -zetaHave -proj only [keeps_mk] | apply keeps_core
      | (intro x; refine (have hx : State.Keeps r x := ?_; ?_); unfold x; rotate_left; clear_value x; rotate_left) | (intro x; clear_value x)
      | intro x | split | lift_lets | dsimp only

theorem State.issueReq_keeps {r : State} (s : State) (q : RemReq) (h : r.Keeps s) :
    KeepsFst r (State.issueReq s q) := by
  unfold State.issueReq
  with_reducible
    repeat' first
      | assumption | apply State.failReq_keeps | apply State.setReq_keeps | simp -zeta -zetaUnused -zetaHave -proj only [keeps_mk, keeps_mk_fst]
      | apply keeps_core | (intro x; refine (have hx : State.Keeps r x := ?_; ?_); unfold x; rotate_left; clear_value x; rotate_left)
      | (intro x; clear_value x) | intro x | split | lift_lets | dsimp only

theorem execPintleBlockSend_keeps {r : State} (req : Bool) (n : Nat) (s : State) (h : r.Keeps s) :
    KeepsOut r (execPintleBlockSend req n s) := by
  unfold execPintleBlockSend
  with_reducible
    repeat' first
      | assumption | apply keeps_next | apply State.issueReq_keeps | apply State.pathSend_keeps | apply State.setReq_keeps
      | refine (State.issueReq_keeps _ _ ?_).out | simp -zeta -zetaUnused -zetaHave -proj only [keeps_mk] | apply keeps_core
      | (intro x; refine (have hx : State.Keeps r x := ?_; ?_); unfold x; rotate_left; clear_value x; rotate_left) | (intro x; clear_value x)
      | intro x | split | refine keeps_fst (by assumption) ?_ | refine keeps_of_some (by assumption) ?_ | lift_lets | dsimp only

theorem execPairKeyDerived_keeps {r : State} (leaf : Nat) (peer : Nat) (s : State) (h : r.Keeps s) :
    KeepsOut r (execPairKeyDerived leaf peer s) := by
  unfold execPairKeyDerived
  with_reducible
    repeat' first
      | assumption | apply keeps_next | simp -zeta -zetaUnused -zetaHave -proj only [keeps_mk] | apply keeps_core
      | (intro x; refine (have hx : State.Keeps r x := ?_; ?_); unfold x; rotate_left; clear_value x; rotate_left) | (intro x; clear_value x)
      | intro x | split | lift_lets | dsimp only

theorem State.portUp_keeps {r : State} (s : State) (p : Nat) (lanes : Nat) (h : r.Keeps s) :
    r.Keeps (State.portUp s p lanes) := by
  unfold State.portUp
  with_reducible
    repeat' first
      | assumption | apply State.setPort_keeps | apply State.hopSend_keeps | apply State.emit_keeps
      | simp -zeta -zetaUnused -zetaHave -proj only [keeps_mk] | apply keeps_core
      | (intro x; refine (have hx : State.Keeps r x := ?_; ?_); unfold x; rotate_left; clear_value x; rotate_left) | (intro x; clear_value x)
      | intro x | split | lift_lets | dsimp only

theorem execPortTrained_keeps {r : State} (port : Nat) (lanes : Nat) (s : State) (h : r.Keeps s) :
    KeepsOut r (execPortTrained port lanes s) := by
  unfold execPortTrained
  with_reducible
    repeat' first
      | assumption | apply keeps_next | apply State.portUp_keeps
      | (intro x; refine (have hx : State.Keeps r x := ?_; ?_); unfold x; rotate_left; clear_value x; rotate_left) | (intro x; clear_value x)
      | intro x | split | lift_lets | dsimp only

theorem State.portRetrain_keeps {r : State} (s : State) (p : Nat) (h : r.Keeps s) :
    r.Keeps (State.portRetrain s p) := by
  unfold State.portRetrain
  with_reducible
    repeat' first
      | assumption | apply State.bump_keeps | apply State.setPort_keeps | simp -zeta -zetaUnused -zetaHave -proj only [keeps_mk] | apply keeps_core
      | (intro x; refine (have hx : State.Keeps r x := ?_; ?_); unfold x; rotate_left; clear_value x; rotate_left) | (intro x; clear_value x)
      | intro x | lift_lets | dsimp only

theorem execPintleRetrainDone_keeps {r : State} (port : Nat) (lanes : Nat) (s : State) (h : r.Keeps s) :
    KeepsOut r (execPintleRetrainDone port lanes s) := by
  unfold execPintleRetrainDone
  with_reducible
    repeat' first
      | assumption | apply keeps_next | apply State.setPort_keeps | apply State.portUp_keeps | simp -zeta -zetaUnused -zetaHave -proj only [keeps_mk]
      | apply keeps_core | (intro x; refine (have hx : State.Keeps r x := ?_; ?_); unfold x; rotate_left; clear_value x; rotate_left)
      | (intro x; clear_value x) | intro x | split | lift_lets | dsimp only

theorem execPortRetrainRetry_keeps {r : State} (port : Nat) (s : State) (h : r.Keeps s) :
    KeepsOut r (execPortRetrainRetry port s) := by
  unfold execPortRetrainRetry
  with_reducible
    repeat' first
      | assumption | apply keeps_next | apply State.portRetrain_keeps
      | (intro x; refine (have hx : State.Keeps r x := ?_; ?_); unfold x; rotate_left; clear_value x; rotate_left) | (intro x; clear_value x)
      | intro x | split | lift_lets | dsimp only

theorem execPtlRetrainReq_keeps {r : State} (port : Nat) (value : Word) (s : State) (h : r.Keeps s) :
    KeepsOut r (execPtlRetrainReq port value s) := by
  unfold execPtlRetrainReq
  with_reducible
    repeat' first
      | assumption | apply keeps_next | apply State.setFld_keeps | apply State.portRetrain_keeps
      | (intro x; refine (have hx : State.Keeps r x := ?_; ?_); unfold x; rotate_left; clear_value x; rotate_left) | (intro x; clear_value x)
      | intro x | split | lift_lets | dsimp only

theorem State.resendBlocks_keeps {r : State} (s : State) (x1 : List (Nat × Nat × PathBlk)) (h : r.Keeps s) :
    KeepsFst r (State.resendBlocks s x1) := by
  induction x1 generalizing s with
  | nil =>
    unfold State.resendBlocks
    with_reducible
      repeat' first
        | assumption | apply State.hopSend_keeps | simp -zeta -zetaUnused -zetaHave -proj only [keeps_mk_fst]
        | (intro x; refine (have hx : State.Keeps r x := ?_; ?_); unfold x; rotate_left; clear_value x; rotate_left) | (intro x; clear_value x)
        | intro x | split | lift_lets | dsimp only
  | cons y l ih =>
    unfold State.resendBlocks
    with_reducible
      repeat' first
        | assumption | apply ih | refine (ih _ ?_).out | apply State.hopSend_keeps | simp -zeta -zetaUnused -zetaHave -proj only [keeps_mk_fst]
        | (intro x; refine (have hx : State.Keeps r x := ?_; ?_); unfold x; rotate_left; clear_value x; rotate_left) | (intro x; clear_value x)
        | intro x | split | lift_lets | dsimp only

theorem State.portDown_keeps {r : State} (s : State) (p : Nat) (why : Nat) (h : r.Keeps s) :
    r.Keeps (State.portDown s p why) := by
  unfold State.portDown
  with_reducible
    repeat' first
      | assumption | apply State.setPort_keeps | apply State.emit_keeps | apply State.resendBlocks_keeps
      | refine (State.resendBlocks_keeps _ _ ?_).out | simp -zeta -zetaUnused -zetaHave -proj only [keeps_mk] | apply keeps_core
      | (intro x; refine (have hx : State.Keeps r x := ?_; ?_); unfold x; rotate_left; clear_value x; rotate_left) | (intro x; clear_value x)
      | intro x | split | refine keeps_fst (by assumption) ?_ | lift_lets | dsimp only

theorem execPortDownTimeout_keeps {r : State} (port : Nat) (s : State) (h : r.Keeps s) :
    KeepsOut r (execPortDownTimeout port s) := by
  unfold execPortDownTimeout
  with_reducible
    repeat' first
      | assumption | apply keeps_next | apply State.setPort_keeps | apply State.portDown_keeps
      | simp -zeta -zetaUnused -zetaHave -proj only [keeps_mk] | apply keeps_core
      | (intro x; refine (have hx : State.Keeps r x := ?_; ?_); unfold x; rotate_left; clear_value x; rotate_left) | (intro x; clear_value x)
      | intro x | split | lift_lets | dsimp only

theorem State.joinPorts_keeps {r : State} (s : State) (h : r.Keeps s) :
    r.Keeps (State.joinPorts s) := by
  unfold State.joinPorts
  with_reducible
    repeat' first
      | assumption | apply State.setPort_keeps | simp -zeta -zetaUnused -zetaHave -proj only [keeps_mk, keeps_mk_fst] | apply keeps_core
      | apply keeps_foldl | apply keeps_foldl_fst | apply keeps_foldl_snd
      | (intro x; refine (have hx : State.Keeps r x := ?_; ?_); unfold x; rotate_left; clear_value x; rotate_left) | (intro x; clear_value x)
      | intro x | split | lift_lets | dsimp only

theorem State.hopReplay_keeps {r : State} (s : State) (p : Nat) (h : r.Keeps s) :
    r.Keeps (State.hopReplay s p) := by
  unfold State.hopReplay
  with_reducible
    repeat' first
      | assumption | apply State.portRetrain_keeps | apply State.bump_keeps | apply State.setPort_keeps
      | simp -zeta -zetaUnused -zetaHave -proj only [keeps_mk] | apply keeps_core
      | (intro x; refine (have hx : State.Keeps r x := ?_; ?_); unfold x; rotate_left; clear_value x; rotate_left) | (intro x; clear_value x)
      | intro x | split | lift_lets | dsimp only

theorem State.hopFields_keeps {r : State} (s : State) (p : Nat) (bs : List Byte) (h : r.Keeps s) :
    r.Keeps (State.hopFields s p bs) := by
  unfold State.hopFields
  with_reducible
    repeat' first
      | assumption | apply State.setPort_keeps | apply State.hopReplay_keeps | simp -zeta -zetaUnused -zetaHave -proj only [keeps_mk]
      | apply keeps_core | (intro x; refine (have hx : State.Keeps r x := ?_; ?_); unfold x; rotate_left; clear_value x; rotate_left)
      | (intro x; clear_value x) | intro x | split | lift_lets | dsimp only

theorem State.hopAccept_keeps {r : State} (s : State) (p : Nat) (seq : Nat) (h : r.Keeps s) :
    KeepsFst r (State.hopAccept s p seq) := by
  unfold State.hopAccept
  with_reducible
    repeat' first
      | assumption | apply State.setPort_keeps | apply State.bump_keeps | simp -zeta -zetaUnused -zetaHave -proj only [keeps_mk, keeps_mk_fst]
      | apply keeps_core | (intro x; refine (have hx : State.Keeps r x := ?_; ?_); unfold x; rotate_left; clear_value x; rotate_left)
      | (intro x; clear_value x) | intro x | split | lift_lets | dsimp only

theorem State.hopTake_keeps {r : State} (s : State) (p : Nat) (bs : List Byte) (h : r.Keeps s) :
    KeepsFst r (State.hopTake s p bs) := by
  unfold State.hopTake
  with_reducible
    repeat' first
      | assumption | apply State.bump_keeps | apply State.setPort_keeps | apply State.hopFields_keeps | apply State.hopAccept_keeps
      | refine (State.hopAccept_keeps _ _ _ ?_).out | simp -zeta -zetaUnused -zetaHave -proj only [keeps_mk, keeps_mk_fst] | apply keeps_core
      | (intro x; refine (have hx : State.Keeps r x := ?_; ?_); unfold x; rotate_left; clear_value x; rotate_left) | (intro x; clear_value x)
      | intro x | split | refine keeps_fst (by assumption) ?_ | lift_lets | dsimp only

theorem execHello_keeps {r : State} (port : Nat) (data : List Byte) (s : State) (h : r.Keeps s) :
    KeepsOut r (execHello port data s) := by
  unfold execHello
  with_reducible
    repeat' first
      | assumption | apply keeps_next | apply State.hopTake_keeps | apply State.setFld_keeps | refine (State.hopTake_keeps _ _ _ ?_).out
      | (intro x; refine (have hx : State.Keeps r x := ?_; ?_); unfold x; rotate_left; clear_value x; rotate_left) | (intro x; clear_value x)
      | intro x | split | refine keeps_fst (by assumption) ?_ | lift_lets | dsimp only

theorem execPintleAckTimeout_keeps {r : State} (port : Nat) (s : State) (h : r.Keeps s) :
    KeepsOut r (execPintleAckTimeout port s) := by
  unfold execPintleAckTimeout
  with_reducible
    repeat' first
      | assumption | apply keeps_next | apply State.hopReplay_keeps | apply State.setPort_keeps
      | simp -zeta -zetaUnused -zetaHave -proj only [keeps_mk] | apply keeps_core
      | (intro x; refine (have hx : State.Keeps r x := ?_; ?_); unfold x; rotate_left; clear_value x; rotate_left) | (intro x; clear_value x)
      | intro x | split | lift_lets | dsimp only

theorem State.respond_keeps {r : State} (s : State) (b : PathBlk) (h : r.Keeps s) :
    r.Keeps (State.respond s b) := by
  unfold State.respond
  with_reducible
    repeat' first
      | assumption | simp -zeta -zetaUnused -zetaHave -proj only [keeps_mk] | apply keeps_core
      | (intro x; refine (have hx : State.Keeps r x := ?_; ?_); unfold x; rotate_left; clear_value x; rotate_left) | (intro x; clear_value x)
      | intro x | lift_lets | dsimp only

theorem State.refuseReq_keeps {r : State} (s : State) (b : PathBlk) (reason : Nat) (h : r.Keeps s) :
    r.Keeps (State.refuseReq s b reason) := by
  unfold State.refuseReq
  with_reducible
    repeat' first
      | assumption | apply State.respond_keeps | dsimp only

theorem State.pathTake_keeps {r : State} (s : State) (rx : Nat) (bs : List Byte) (h : r.Keeps s) :
    r.Keeps (State.pathTake s rx bs) := by
  unfold State.pathTake
  with_reducible
    repeat' first
      | assumption | apply State.bump_keeps | apply State.setPeer_keeps | apply State.refuseReq_keeps
      | simp -zeta -zetaUnused -zetaHave -proj only [keeps_mk] | apply keeps_core
      | (intro x; refine (have hx : State.Keeps r x := ?_; ?_); unfold x; rotate_left; clear_value x; rotate_left) | (intro x; clear_value x)
      | intro x | split | lift_lets | dsimp only

theorem execPintleBlockReceive_keeps {r : State} (port : Nat) (data : List Byte) (s : State) (h : r.Keeps s) :
    KeepsOut r (execPintleBlockReceive port data s) := by
  unfold execPintleBlockReceive
  repeat' first
    | with_reducible assumption
    | with_reducible apply keeps_next
    | with_reducible apply keeps_some_pair
    | with_reducible apply keeps_some
    | with_reducible exact keeps_none
    | with_reducible exact keeps_none_pair
    | with_reducible apply State.hopTake_keeps
    | with_reducible apply State.pathTake_keeps
    | with_reducible refine (State.hopTake_keeps _ _ _ ?_).out
    | simp -zeta -zetaUnused -zetaHave -proj only [keeps_mk, keeps_mk_fst, keeps_mk_snd]
    | with_reducible apply keeps_core
    | with_reducible apply keeps_free
    | with_reducible apply keeps_foldl
    | with_reducible apply keeps_foldl_fst
    | with_reducible apply keeps_foldl_snd
    | (intro x; refine (have hx : State.Keeps r x := ?_; ?_); unfold x; rotate_left; clear_value x; rotate_left)
    | (intro x; have hm : MemSt.hbm x = MemSt.hbm x := rfl; clear hm)
    | (intro x; have hm : HostSt.mem x = HostSt.mem x := rfl; clear hm)
    | (intro x; clear_value x)
    | intro x
    | split
    | (refine keeps_fst (by with_reducible assumption) ?_)
    | (refine keeps_snd (by with_reducible assumption) ?_)
    | (refine keeps_of_some (by with_reducible assumption) ?_)
    | (refine keeps_of_some_pair (by with_reducible assumption) ?_)
    | (refine keeps_of_some_pair' (by with_reducible assumption) ?_)
    | lift_lets
    | dsimp only

theorem State.takeIn_keeps {r : State} (s : State) (b : PathBlk) (h : r.Keeps s) :
    r.Keeps (State.takeIn s b) := by
  unfold State.takeIn
  with_reducible
    repeat' first
      | assumption | simp -zeta -zetaUnused -zetaHave -proj only [keeps_mk] | apply keeps_core
      | (intro x; refine (have hx : State.Keeps r x := ?_; ?_); unfold x; rotate_left; clear_value x; rotate_left) | (intro x; clear_value x)
      | intro x | lift_lets | dsimp only

theorem State.noteIn_keeps {r : State} (s : State) (b : PathBlk) (size : Nat) (access : Nat) (h : r.Keeps s) :
    r.Keeps (State.noteIn s b size access) := by
  unfold State.noteIn
  with_reducible
    repeat' first
      | assumption | apply State.noteWaits_keeps
      | (intro x; refine (have hx : State.Keeps r x := ?_; ?_); unfold x; rotate_left; clear_value x; rotate_left) | (intro x; clear_value x)
      | intro x | split | lift_lets | dsimp only

theorem State.lookWindow_keeps {r : State} (s : State) (b : PathBlk) (h : r.Keeps s) :
    KeepsFst r (State.lookWindow s b) := by
  unfold State.lookWindow
  with_reducible
    repeat' first
      | assumption | apply State.rcLookup_keeps | apply State.addMiss_keeps | refine (State.rcLookup_keeps _ _ _ _ _ ?_).out
      | simp -zeta -zetaUnused -zetaHave -proj only [keeps_mk_fst]
      | (intro x; refine (have hx : State.Keeps r x := ?_; ?_); unfold x; rotate_left; clear_value x; rotate_left) | (intro x; clear_value x)
      | intro x | split | refine keeps_fst (by assumption) ?_ | lift_lets | dsimp only

theorem State.refuseIn_keeps {r : State} (s : State) (b : PathBlk) (r2 : Nat) (h : r.Keeps s) :
    r.Keeps (State.refuseIn s b r2) := by
  unfold State.refuseIn
  with_reducible
    repeat' first
      | assumption | apply State.refuseReq_keeps | apply State.bump_keeps | apply State.takeIn_keeps | dsimp only

theorem State.serveReq_keeps {r : State} (s : State) (n : Nat) (op : Nat) (size : Nat) (access : Nat) (bad : PathBlk → Bool) (run : State → PathBlk → WinEnt → Nat → State) (h : r.Keeps s) (hrun : ∀ y0 y1 y2 y3, r.Keeps y0 → r.Keeps (run y0 y1 y2 y3)) :
    r.Keeps (State.serveReq s n op size access bad run) := by
  unfold State.serveReq
  with_reducible
    repeat' first
      | assumption | apply hrun | apply State.refuseReq_keeps | apply State.takeIn_keeps | apply State.noteIn_keeps | apply State.refuseIn_keeps
      | apply State.lookWindow_keeps | refine (State.lookWindow_keeps _ _ ?_).out
      | (intro x; refine (have hx : State.Keeps r x := ?_; ?_); unfold x; rotate_left; clear_value x; rotate_left) | (intro x; clear_value x)
      | intro x | split | refine keeps_fst (by assumption) ?_ | lift_lets | dsimp only

theorem execRead_keeps {r : State} (n : Nat) (s : State) (h : r.Keeps s) :
    KeepsOut r (execRead n s) := by
  unfold execRead
  with_reducible
    repeat' first
      | assumption | apply keeps_next | apply State.serveReq_keeps | apply State.devRead_keeps | apply State.respond_keeps
      | refine (State.devRead_keeps _ _ _ _ _ _ _ ?_).out
      | (intro x; refine (have hx : State.Keeps r x := ?_; ?_); unfold x; rotate_left; clear_value x; rotate_left) | (intro x; clear_value x)
      | intro x | split | refine keeps_fst (by assumption) ?_ | lift_lets | dsimp only

theorem execWrite_keeps {r : State} (n : Nat) (s : State) (h : r.Keeps s) :
    KeepsOut r (execWrite n s) := by
  unfold execWrite
  with_reducible
    repeat' first
      | assumption | apply keeps_next | apply State.serveReq_keeps | apply State.respond_keeps | apply State.devWrite_keeps
      | refine (State.devWrite_keeps _ _ _ _ _ _ ?_).out | intro x | refine keeps_fst (by assumption) ?_ | dsimp only

theorem execAtomic_keeps {r : State} (n : Nat) (s : State) (h : r.Keeps s) :
    KeepsOut r (execAtomic n s) := by
  unfold execAtomic
  with_reducible
    repeat' first
      | assumption | apply keeps_next | apply State.serveReq_keeps | apply State.lineAtomic_keeps | apply State.respond_keeps
      | refine (State.lineAtomic_keeps _ _ _ _ _ _ _ ?_).out
      | (intro x; refine (have hx : State.Keeps r x := ?_; ?_); unfold x; rotate_left; clear_value x; rotate_left) | (intro x; clear_value x)
      | intro x | split | refine keeps_fst (by assumption) ?_ | lift_lets | dsimp only

theorem State.remReduce_keeps {r : State} (s : State) (b : PathBlk) (e : WinEnt) (x3 : Nat) (x4 : List (List Byte)) (h : r.Keeps s) :
    r.Keeps (State.remReduce s b e x3 x4) := by
  induction x4 generalizing s b e x3 with
  | nil =>
    unfold State.remReduce
    with_reducible
      repeat' first
        | assumption | apply State.lineAtomic_keeps | refine (State.lineAtomic_keeps _ _ _ _ _ _ _ ?_).out
        | (intro x; refine (have hx : State.Keeps r x := ?_; ?_); unfold x; rotate_left; clear_value x; rotate_left) | (intro x; clear_value x)
        | intro x | split | refine keeps_fst (by assumption) ?_ | lift_lets | dsimp only
  | cons y l ih =>
    unfold State.remReduce
    with_reducible
      repeat' first
        | assumption | apply ih | apply State.lineAtomic_keeps | refine (State.lineAtomic_keeps _ _ _ _ _ _ _ ?_).out
        | (intro x; refine (have hx : State.Keeps r x := ?_; ?_); unfold x; rotate_left; clear_value x; rotate_left) | (intro x; clear_value x)
        | intro x | split | refine keeps_fst (by assumption) ?_ | lift_lets | dsimp only

theorem execReduce_keeps {r : State} (n : Nat) (s : State) (h : r.Keeps s) :
    KeepsOut r (execReduce n s) := by
  unfold execReduce
  with_reducible
    repeat' first
      | assumption | apply keeps_next | apply State.serveReq_keeps | apply State.respond_keeps | apply State.remReduce_keeps | intro x | dsimp only

theorem execArrive_keeps {r : State} (n : Nat) (s : State) (h : r.Keeps s) :
    KeepsOut r (execArrive n s) := by
  unfold execArrive
  with_reducible
    repeat' first
      | assumption | apply keeps_next | apply State.takeIn_keeps | apply State.tmbArrive_keeps | apply State.respond_keeps
      | apply State.refuseReq_keeps | apply State.emit_keeps | apply State.tmbRefused_keeps | refine (State.tmbArrive_keeps _ _ _ ?_).out
      | (intro x; refine (have hx : State.Keeps r x := ?_; ?_); unfold x; rotate_left; clear_value x; rotate_left) | (intro x; clear_value x)
      | intro x | split | refine keeps_fst (by assumption) ?_ | lift_lets | dsimp only

theorem State.answer_keeps {r : State} (s : State) (n : Nat) (kind : Nat) (ops : List Nat) (run : State → PathBlk → RemReq → State) (h : r.Keeps s) (hrun : ∀ y0 y1 y2, r.Keeps y0 → r.Keeps (run y0 y1 y2)) :
    r.Keeps (State.answer s n kind ops run) := by
  unfold State.answer
  with_reducible
    repeat' first
      | assumption | apply hrun | apply State.takeIn_keeps | apply State.bump_keeps
      | (intro x; refine (have hx : State.Keeps r x := ?_; ?_); unfold x; rotate_left; clear_value x; rotate_left) | (intro x; clear_value x)
      | intro x | split | lift_lets | dsimp only

theorem State.copyPart_keeps {r : State} (s : State) (cmd : Nat) (part : Nat) (bs : List Byte) (read : Bool) (h : r.Keeps s) :
    r.Keeps (State.copyPart s cmd part bs read) := by
  unfold State.copyPart
  with_reducible
    repeat' first
      | assumption | apply State.setJob_keeps | apply State.afterBlock_keeps | simp -zeta -zetaUnused -zetaHave -proj only [keeps_mk]
      | apply keeps_core | (intro x; refine (have hx : State.Keeps r x := ?_; ?_); unfold x; rotate_left; clear_value x; rotate_left)
      | (intro x; clear_value x) | intro x | split | lift_lets | dsimp only

theorem execRdData_keeps {r : State} (n : Nat) (s : State) (h : r.Keeps s) :
    KeepsOut r (execRdData n s) := by
  unfold execRdData
  with_reducible
    repeat' first
      | assumption | apply keeps_next | apply State.answer_keeps | apply State.dropReq_keeps | apply State.setAcc_keeps | apply State.tryFinish_keeps
      | apply State.failCopy_keeps | apply State.copyPart_keeps | simp -zeta -zetaUnused -zetaHave -proj only [keeps_mk] | apply keeps_core
      | (intro x; refine (have hx : State.Keeps r x := ?_; ?_); unfold x; rotate_left; clear_value x; rotate_left) | (intro x; clear_value x)
      | intro x | split | lift_lets | dsimp only

theorem execAtomicData_keeps {r : State} (n : Nat) (s : State) (h : r.Keeps s) :
    KeepsOut r (execAtomicData n s) := by
  unfold execAtomicData
  with_reducible
    repeat' first
      | assumption | apply keeps_next | apply State.answer_keeps | apply State.dropReq_keeps | apply State.tryFinish_keeps | apply State.setAcc_keeps
      | simp -zeta -zetaUnused -zetaHave -proj only [keeps_mk] | apply keeps_core
      | (intro x; refine (have hx : State.Keeps r x := ?_; ?_); unfold x; rotate_left; clear_value x; rotate_left) | (intro x; clear_value x)
      | intro x | split | lift_lets | dsimp only

theorem execAck_keeps {r : State} (n : Nat) (s : State) (h : r.Keeps s) :
    KeepsOut r (execAck n s) := by
  unfold execAck
  with_reducible
    repeat' first
      | assumption | apply keeps_next | apply State.answer_keeps | apply State.dropReq_keeps | apply State.tryFinish_keeps | apply State.setAcc_keeps
      | apply State.copyPart_keeps | simp -zeta -zetaUnused -zetaHave -proj only [keeps_mk] | apply keeps_core
      | (intro x; refine (have hx : State.Keeps r x := ?_; ?_); unfold x; rotate_left; clear_value x; rotate_left) | (intro x; clear_value x)
      | intro x | split | lift_lets | dsimp only

theorem execRefuse_keeps {r : State} (n : Nat) (s : State) (h : r.Keeps s) :
    KeepsOut r (execRefuse n s) := by
  unfold execRefuse
  with_reducible
    repeat' first
      | assumption | apply keeps_next | apply State.answer_keeps | apply State.failReq_keeps | intro x | dsimp only

theorem execResponseTimeout_keeps {r : State} (n : Nat) (s : State) (h : r.Keeps s) :
    KeepsOut r (execResponseTimeout n s) := by
  unfold execResponseTimeout
  with_reducible
    repeat' first
      | assumption | apply keeps_next | apply State.failReq_keeps | apply State.bump_keeps
      | (intro x; refine (have hx : State.Keeps r x := ?_; ?_); unfold x; rotate_left; clear_value x; rotate_left) | (intro x; clear_value x)
      | intro x | split | lift_lets | dsimp only

theorem State.forgetPeers_keeps {r : State} (s : State) (p : Nat → Bool) (h : r.Keeps s) :
    r.Keeps (State.forgetPeers s p) := by
  unfold State.forgetPeers
  with_reducible
    repeat' first
      | assumption | simp -zeta -zetaUnused -zetaHave -proj only [keeps_mk] | apply keeps_core
      | (intro x; refine (have hx : State.Keeps r x := ?_; ?_); unfold x; rotate_left; clear_value x; rotate_left) | (intro x; clear_value x)
      | intro x | lift_lets | dsimp only

theorem State.noteMapWrite_keeps {r : State} (s : State) (l was : Nat) (fresh : Bool) (h : r.Keeps s) :
    r.Keeps (State.noteMapWrite s l was fresh) := by
  unfold State.noteMapWrite
  with_reducible
    repeat' first
      | assumption | apply State.emit_keeps | simp -zeta -zetaUnused -zetaHave -proj only [keeps_mk] | apply keeps_core
      | (intro x; refine (have hx : State.Keeps r x := ?_; ?_); unfold x; rotate_left; clear_value x; rotate_left) | (intro x; clear_value x)
      | intro x | split | lift_lets | dsimp only

theorem execAddressMapWrite_keeps {r : State} (entry : Nat) (word : Nat) (value : Word) (s : State) (h : r.Keeps s) :
    KeepsOut r (execAddressMapWrite entry word value s) := by
  unfold execAddressMapWrite
  with_reducible
    repeat' first
      | assumption | apply keeps_next | apply State.setReg_keeps | apply State.resetPeers_keeps | apply State.forgetPeers_keeps | apply State.noteMapWrite_keeps
      | (intro x; refine (have hx : State.Keeps r x := ?_; ?_); unfold x; rotate_left; clear_value x; rotate_left) | (intro x; clear_value x)
      | intro x | split | lift_lets | dsimp only

theorem State.applyEpoch_keeps {r : State} (s : State) (h : r.Keeps s) :
    r.Keeps (State.applyEpoch s) := by
  unfold State.applyEpoch
  with_reducible
    repeat' first
      | assumption | apply State.setFld_keeps | apply State.resetPeers_keeps | apply State.forgetPeers_keeps
      | simp -zeta -zetaUnused -zetaHave -proj only [keeps_mk] | apply keeps_core
      | (intro x; refine (have hx : State.Keeps r x := ?_; ?_); unfold x; rotate_left; clear_value x; rotate_left) | (intro x; clear_value x)
      | intro x | split | lift_lets | dsimp only

/-! Machine/Mem.lean -/

theorem natBit_lor (a b n : Nat) : natBit (Nat.lor a b) n = (natBit a n || natBit b n) := by
  have e : ∀ m, natBit m n = m.testBit n := fun m => by
    rw [Nat.testBit_eq_decide_div_mod_eq]; rfl
  rw [e, e, e]
  exact Nat.testBit_lor ..

theorem execReductionRetire_keeps {r : State} (n : Nat) (s : State) (h : r.Keeps s) :
    KeepsOut r (execReductionRetire n s) := by
  unfold execReductionRetire
  with_reducible
    repeat' first
      | assumption | apply keeps_next | apply State.reduceAt_keeps | simp -zeta -zetaUnused -zetaHave -proj only [keeps_mk] | apply keeps_core
      | (intro x; refine (have hx : State.Keeps r x := ?_; ?_); unfold x; rotate_left; clear_value x; rotate_left)
      | (intro x; have hm : MemSt.hbm x = MemSt.hbm x := rfl; clear hm) | (intro x; clear_value x) | intro x | split | lift_lets | dsimp only

theorem State.migratePart_keeps {r : State} (s : State) (part : Nat) (h : r.Keeps s) :
    r.Keeps (State.migratePart s part) := by
  unfold State.migratePart
  with_reducible
    repeat' first
      | assumption | simp -zeta -zetaUnused -zetaHave -proj only [keeps_mk] | apply keeps_core
      | (intro x; refine (have hx : State.Keeps r x := ?_; ?_); unfold x; rotate_left; clear_value x; rotate_left)
      | (intro x; have hm : MemSt.hbm x = MemSt.hbm x := rfl; clear hm) | (intro x; clear_value x) | intro x | split | lift_lets | dsimp only

theorem State.restartCounts_keeps {r : State} (s : State) (h : r.Keeps s) :
    r.Keeps (State.restartCounts s) := by
  unfold State.restartCounts
  with_reducible
    repeat' first
      | assumption | simp -zeta -zetaUnused -zetaHave -proj only [keeps_mk] | apply keeps_core
      | (intro x; refine (have hx : State.Keeps r x := ?_; ?_); unfold x; rotate_left; clear_value x; rotate_left)
      | (intro x; have hm : MemSt.hbm x = MemSt.hbm x := rfl; clear hm) | (intro x; clear_value x) | intro x | lift_lets | dsimp only

theorem State.migrationDecision_keeps {r : State} (s : State) (h : r.Keeps s) :
    r.Keeps (State.migrationDecision s) := by
  unfold State.migrationDecision
  with_reducible
    repeat' first
      | assumption | apply State.restartCounts_keeps | apply State.migratePart_keeps
      | simp -zeta -zetaUnused -zetaHave -proj only [keeps_mk, keeps_mk_fst] | apply keeps_core | apply keeps_foldl | apply keeps_foldl_fst
      | apply keeps_foldl_snd | (intro x; refine (have hx : State.Keeps r x := ?_; ?_); unfold x; rotate_left; clear_value x; rotate_left)
      | (intro x; have hm : MemSt.hbm x = MemSt.hbm x := rfl; clear hm) | (intro x; clear_value x) | intro x | lift_lets | dsimp only

theorem State.migrDone_keeps {r : State} (s : State) (n : Nat) (k : Nat) (g : Granule) (l : Loc) (promote : Bool) (h : r.Keeps s) :
    r.Keeps (State.migrDone s n k g l promote) := by
  unfold State.migrDone
  with_reducible
    repeat' first
      | assumption | apply State.setGran_keeps | apply State.initGran_keeps | apply State.bump_keeps | apply State.syncFree_keeps
      | simp -zeta -zetaUnused -zetaHave -proj only [keeps_mk] | apply keeps_core
      | (intro x; refine (have hx : State.Keeps r x := ?_; ?_); unfold x; rotate_left; clear_value x; rotate_left)
      | (intro x; have hm : MemSt.hbm x = MemSt.hbm x := rfl; clear hm) | (intro x; clear_value x) | intro x | split | lift_lets | dsimp only

theorem execMigrationBlockCopy_keeps {r : State} (n : Nat) (s : State) (h : r.Keeps s) :
    KeepsOut r (execMigrationBlockCopy n s) := by
  unfold execMigrationBlockCopy
  with_reducible
    repeat' first
      | assumption | apply keeps_next | apply State.bumpN_keeps | apply State.moveBlock_keeps | apply State.migrDone_keeps | apply State.setGran_keeps
      | apply State.initGran_keeps | apply State.syncFree_keeps | simp -zeta -zetaUnused -zetaHave -proj only [keeps_mk] | apply keeps_core
      | (intro x; refine (have hx : State.Keeps r x := ?_; ?_); unfold x; rotate_left; clear_value x; rotate_left)
      | (intro x; have hm : MemSt.hbm x = MemSt.hbm x := rfl; clear hm) | (intro x; clear_value x) | intro x | split | lift_lets | dsimp only

theorem State.regCount_keeps {r : State} (s : State) (stack : Nat) (r2 : Reg) (h : r.Keeps s) :
    r.Keeps (State.regCount s stack r2) := by
  unfold State.regCount
  with_reducible
    repeat' first
      | assumption | apply State.bump_keeps | apply State.setFlag_keeps | simp -zeta -zetaUnused -zetaHave -proj only [keeps_mk] | apply keeps_core
      | (intro x; refine (have hx : State.Keeps r x := ?_; ?_); unfold x; rotate_left; clear_value x; rotate_left)
      | (intro x; have hm : MemSt.hbm x = MemSt.hbm x := rfl; clear hm) | (intro x; clear_value x) | intro x | split | lift_lets | dsimp only

theorem execRegulatorWindow_keeps {r : State} (stack : Nat) (s : State) (h : r.Keeps s) :
    KeepsOut r (execRegulatorWindow stack s) := by
  unfold execRegulatorWindow
  with_reducible
    repeat' first
      | assumption | apply keeps_next | apply State.regCount_keeps | simp -zeta -zetaUnused -zetaHave -proj only [keeps_mk, keeps_mk_fst]
      | apply keeps_core | apply keeps_foldl | apply keeps_foldl_fst | apply keeps_foldl_snd
      | (intro x; refine (have hx : State.Keeps r x := ?_; ?_); unfold x; rotate_left; clear_value x; rotate_left)
      | (intro x; have hm : MemSt.hbm x = MemSt.hbm x := rfl; clear hm) | (intro x; clear_value x) | intro x | split | lift_lets | dsimp only

theorem State.satDie_keeps {r : State} (s : State) (d : Nat) (h : r.Keeps s) :
    r.Keeps (State.satDie s d) := by
  unfold State.satDie
  with_reducible
    repeat' first
      | assumption | apply State.setFld_keeps | apply State.bump_keeps | simp -zeta -zetaUnused -zetaHave -proj only [keeps_mk, keeps_mk_fst]
      | apply keeps_core | apply keeps_foldl | apply keeps_foldl_fst | apply keeps_foldl_snd
      | (intro x; refine (have hx : State.Keeps r x := ?_; ?_); unfold x; rotate_left; clear_value x; rotate_left)
      | (intro x; refine (have hfn : ∀ y, State.Keeps r y → State.Keeps r (x y) := ?_; ?_); unfold x; rotate_left; clear_value x; rotate_left)
      | (intro x; refine (have hfn : ∀ y z, State.Keeps r y → State.Keeps r (x y z) := ?_; ?_); unfold x; rotate_left; clear_value x; rotate_left)
      | apply hfn | (intro x; have hm : MemSt.hbm x = MemSt.hbm x := rfl; clear hm) | (intro x; clear_value x) | intro x | split | lift_lets
      | dsimp only

theorem execSaturationWindow_keeps {r : State} (s : State) (h : r.Keeps s) :
    KeepsOut r (execSaturationWindow s) := by
  unfold execSaturationWindow
  with_reducible
    repeat' first
      | assumption | apply keeps_next | apply State.satDie_keeps | simp -zeta -zetaUnused -zetaHave -proj only [keeps_mk, keeps_mk_fst]
      | apply keeps_core | apply keeps_foldl | apply keeps_foldl_fst | apply keeps_foldl_snd
      | (intro x; refine (have hx : State.Keeps r x := ?_; ?_); unfold x; rotate_left; clear_value x; rotate_left)
      | (intro x; have hm : MemSt.hbm x = MemSt.hbm x := rfl; clear hm) | (intro x; clear_value x) | intro x | split | lift_lets | dsimp only

theorem State.noteRepair_keeps {r : State} (s : State) (stack : Nat) (ch : Nat) (h : r.Keeps s) :
    r.Keeps (State.noteRepair s stack ch) := by
  unfold State.noteRepair
  refine keeps_mk.mpr ⟨(keeps_core h).memWf, h.pending, h.now, h.freeCtr, h.fusedSvn, fun k i w => ?_⟩
  have w := h.repair k i w
  show natBit (kvGet (fun _ => 0) (kvSet (fun _ => 0) s.boot.repair stack _) k) i = true
  by_cases e : k = stack
  · subst e; rw [kvGet_set, if_pos rfl, natBit_lor, w, Bool.true_or]
  · rw [kvGet_set_other _ _ _ _ e]; exact w

theorem State.mapoutGo_keeps {r : State} (s : State) (stack : Nat) (ch : Nat) (h : r.Keeps s) :
    r.Keeps (State.mapoutGo s stack ch) := by
  unfold State.mapoutGo
  with_reducible
    repeat' first
      | assumption | apply State.setFld_keeps | apply State.noteRepair_keeps | apply State.emit_keeps
      | simp -zeta -zetaUnused -zetaHave -proj only [keeps_mk, keeps_mk_fst] | apply keeps_core | apply keeps_foldl | apply keeps_foldl_fst
      | apply keeps_foldl_snd | (intro x; refine (have hx : State.Keeps r x := ?_; ?_); unfold x; rotate_left; clear_value x; rotate_left)
      | (intro x; have hm : MemSt.hbm x = MemSt.hbm x := rfl; clear hm) | (intro x; clear_value x) | intro x | split | lift_lets | dsimp only

theorem State.lineCheck_keeps {r : State} (s : State) (stack idx line err addr : Nat) (h : r.Keeps s) : r.Keeps (s.lineCheck stack idx line err addr) := by
  have k := State.bufferLine_keeps s ((Loc.hbm stack idx).lineKey line) h
  unfold State.lineCheck
  dsimp only
  generalize s.bufferLine ((Loc.hbm stack idx).lineKey line) = t at k ⊢
  generalize s.channelOf ((Loc.hbm stack idx).lineKey line) = ch
  split
  · have k2 := State.bump_keeps _ (RF.MEM_S_CHCE_COUNT stack ch) (State.bump_keeps _ (RF.MEM_S_CE_COUNT stack) k)
    split
    · exact State.emit_keeps _ _ k2
    · exact k2
  · split
    · have k2 := fun d => State.emit_keeps _ d (State.bump_keeps _ (RF.MEM_S_UE_COUNT stack) (State.markBad_keeps _ ((Loc.hbm stack idx).lineKey line) k))
      split
      · exact State.mapoutGo_keeps _ _ _ (keeps_mk.mpr (keeps_core_mem (k2 _)))
      · exact keeps_mk.mpr (keeps_core_mem (k2 _))
    · split
      · exact State.emit_keeps _ _ (State.bump_keeps _ _ (State.markBad_keeps _ _ k))
      · exact k

theorem execHbmLineRead_keeps {r : State} (stack : Nat) (granule : Nat) (line : Nat) (err : Nat) (s : State) (h : r.Keeps s) :
    KeepsOut r (execHbmLineRead stack granule line err s) := by
  unfold execHbmLineRead
  with_reducible
    repeat' first
      | assumption | apply keeps_next | apply State.lineCheck_keeps | split | dsimp only

theorem execPatrolScrub_keeps {r : State} (stack : Nat) (granule : Nat) (line : Nat) (err : Nat) (s : State) (h : r.Keeps s) :
    KeepsOut r (execPatrolScrub stack granule line err s) := by
  unfold execPatrolScrub
  with_reducible
    repeat' first
      | assumption | apply keeps_next | apply State.lineCheck_keeps | apply State.bump_keeps | simp -zeta -zetaUnused -zetaHave -proj only [keeps_mk]
      | apply keeps_core | (intro x; refine (have hx : State.Keeps r x := ?_; ?_); unfold x; rotate_left; clear_value x; rotate_left)
      | (intro x; have hm : MemSt.hbm x = MemSt.hbm x := rfl; clear hm) | (intro x; clear_value x) | intro x | split | lift_lets | dsimp only

theorem execMemMapoutGo_keeps {r : State} (stack : Nat) (channel : Nat) (s : State) (h : r.Keeps s) :
    KeepsOut r (execMemMapoutGo stack channel s) := by
  unfold execMemMapoutGo
  with_reducible
    repeat' first
      | assumption | apply keeps_next | apply State.mapoutGo_keeps | split | dsimp only

theorem State.moveOff_keeps {r : State} (s : State) (stack : Nat) (p : Nat × Loc) (h : r.Keeps s) :
    KeepsFst r (State.moveOff s stack p) := by
  unfold State.moveOff
  with_reducible
    repeat' first
      | assumption | apply State.moveWhole_keeps | apply State.initGran_keeps | apply State.setGran_keeps
      | simp -zeta -zetaUnused -zetaHave -proj only [keeps_mk_fst]
      | (intro x; refine (have hx : State.Keeps r x := ?_; ?_); unfold x; rotate_left; clear_value x; rotate_left) | (intro x; clear_value x)
      | intro x | split | lift_lets | dsimp only

theorem execChannelMapoutDone_keeps {r : State} (stack channel : Nat) (s : State) (h : r.Keeps s) : KeepsOut r (execChannelMapoutDone stack channel s) := by
  unfold execChannelMapoutDone
  split
  · apply keeps_next
    refine State.syncFree_keeps _ (State.emit_keeps _ _ (State.noteRepair_keeps _ _ _ (keeps_mk.mpr (keeps_core ?_))))
    refine (keeps_foldl_fst (keeps_mk_fst.mpr (State.setFld_keeps _ _ _ h)) ?_).out
    intro x b a hx
    exact ⟨(State.moveOff_keeps _ _ _ hx).out⟩
  · exact keeps_next h

/-! Machine/EndFrame.lean -/

theorem State.countBarrierTicks_keeps {r : State} (s : State) (h : r.Keeps s) :
    r.Keeps (State.countBarrierTicks s) := by
  unfold State.countBarrierTicks
  with_reducible
    repeat' first
      | assumption | simp -zeta -zetaUnused -zetaHave -proj only [keeps_mk] | apply keeps_core
      | (intro x; refine (have hx : State.Keeps r x := ?_; ?_); unfold x; rotate_left; clear_value x; rotate_left) | (intro x; clear_value x)
      | intro x | lift_lets | dsimp only

theorem State.returnUnissued_keeps {r : State} (s : State) (unit : Nat) (h : r.Keeps s) :
    r.Keeps (State.returnUnissued s unit) := by
  unfold State.returnUnissued
  with_reducible
    repeat' first
      | assumption | apply State.withdrawWaits_keeps | apply State.setFld_keeps | apply State.setUnit_keeps | apply State.syncUnit_keeps
      | apply State.bumpN_keeps | simp -zeta -zetaUnused -zetaHave -proj only [keeps_mk] | apply keeps_core
      | (intro x; refine (have hx : State.Keeps r x := ?_; ?_); unfold x; rotate_left; clear_value x; rotate_left) | (intro x; clear_value x)
      | intro x | split | lift_lets | dsimp only

theorem State.carry_keeps {r : State} (s : State) (unit : Nat) (p : FrameProg) (h : r.Keeps s) :
    r.Keeps (State.carry s unit p) := by
  unfold State.carry
  with_reducible
    repeat' first
      | assumption | apply State.setProg_keeps | apply State.askPreempt_keeps | apply State.syncUnit_keeps | apply State.syncClock_keeps
      | simp -zeta -zetaUnused -zetaHave -proj only [keeps_mk] | apply keeps_core
      | (intro x; refine (have hx : State.Keeps r x := ?_; ?_); unfold x; rotate_left; clear_value x; rotate_left) | (intro x; clear_value x)
      | intro x | split | lift_lets | dsimp only

theorem State.overrunAction_keeps {r : State} (s : State) (unit : Nat) (u : UnitEnt) (p : FrameProg) (h : r.Keeps s) :
    r.Keeps (State.overrunAction s unit u p) := by
  unfold State.overrunAction
  with_reducible
    repeat' first
      | assumption | apply State.terminate_keeps | apply State.carry_keeps | split | dsimp only

theorem State.settleOverrun_keeps {r : State} (s : State) (unit : Nat) (h : r.Keeps s) :
    r.Keeps (State.settleOverrun s unit) := by
  unfold State.settleOverrun
  with_reducible
    repeat' first
      | assumption | apply State.setUnit_keeps | apply State.overrunAction_keeps | simp -zeta -zetaUnused -zetaHave -proj only [keeps_mk]
      | apply keeps_core | (intro x; refine (have hx : State.Keeps r x := ?_; ?_); unfold x; rotate_left; clear_value x; rotate_left)
      | (intro x; clear_value x) | intro x | split | lift_lets | dsimp only

theorem State.settleOverruns_keeps {r : State} (s : State) (h : r.Keeps s) :
    r.Keeps (State.settleOverruns s) := by
  unfold State.settleOverruns
  with_reducible
    repeat' first
      | assumption | apply State.settleOverrun_keeps | simp -zeta -zetaUnused -zetaHave -proj only [keeps_mk_fst] | apply keeps_foldl
      | apply keeps_foldl_fst | apply keeps_foldl_snd
      | (intro x; refine (have hx : State.Keeps r x := ?_; ?_); unfold x; rotate_left; clear_value x; rotate_left) | (intro x; clear_value x)
      | intro x | lift_lets | dsimp only

theorem State.overrun_keeps {r : State} (s : State) (unit : Nat) (h : r.Keeps s) :
    r.Keeps (State.overrun s unit) := by
  unfold State.overrun
  with_reducible
    repeat' first
      | assumption | apply State.setFlag_keeps | apply State.bump_keeps | apply State.setUnit_keeps | apply State.overrunAction_keeps
      | simp -zeta -zetaUnused -zetaHave -proj only [keeps_mk] | apply keeps_core
      | (intro x; refine (have hx : State.Keeps r x := ?_; ?_); unfold x; rotate_left; clear_value x; rotate_left) | (intro x; clear_value x)
      | intro x | split | lift_lets | dsimp only

theorem State.latchSnapshot_keeps {r : State} (s : State) (h : r.Keeps s) :
    r.Keeps (State.latchSnapshot s) := by
  unfold State.latchSnapshot
  with_reducible
    repeat' first
      | assumption | simp -zeta -zetaUnused -zetaHave -proj only [keeps_mk] | apply keeps_core
      | (intro x; refine (have hx : State.Keeps r x := ?_; ?_); unfold x; rotate_left; clear_value x; rotate_left) | (intro x; clear_value x)
      | intro x | lift_lets | dsimp only

theorem State.applyKills_keeps {r : State} (s : State) (h : r.Keeps s) :
    r.Keeps (State.applyKills s) := by
  unfold State.applyKills
  with_reducible
    repeat' first
      | assumption | apply State.vendorReply_keeps | apply State.cohKill_keeps | simp -zeta -zetaUnused -zetaHave -proj only [keeps_mk, keeps_mk_fst]
      | apply keeps_core | apply keeps_foldl | apply keeps_foldl_fst | apply keeps_foldl_snd
      | (intro x; refine (have hx : State.Keeps r x := ?_; ?_); unfold x; rotate_left; clear_value x; rotate_left) | (intro x; clear_value x)
      | intro x | lift_lets | dsimp only

theorem State.endPrograms_keeps {r : State} (s : State) (h : r.Keeps s) :
    r.Keeps (State.endPrograms s) := by
  unfold State.endPrograms
  with_reducible
    repeat' first
      | assumption | apply State.countBarrierTicks_keeps | apply State.overrun_keeps | apply State.returnUnissued_keeps
      | simp -zeta -zetaUnused -zetaHave -proj only [keeps_mk, keeps_mk_fst] | apply keeps_core | apply keeps_foldl | apply keeps_foldl_fst
      | apply keeps_foldl_snd | (intro x; refine (have hx : State.Keeps r x := ?_; ?_); unfold x; rotate_left; clear_value x; rotate_left)
      | (intro x; clear_value x) | intro x | lift_lets | dsimp only

theorem execEndOfFrame_keeps {r : State} (s : State) (h : r.Keeps s) :
    KeepsOut r (execEndOfFrame s) := by
  unfold execEndOfFrame
  with_reducible
    repeat' first
      | assumption | apply keeps_next | apply State.endPrograms_keeps | apply State.flushAllHeld_keeps | apply State.applyKills_keeps
      | apply State.joinPorts_keeps | apply State.applyEpoch_keeps | apply State.migrationDecision_keeps | apply State.freqDecision_keeps
      | apply State.latchSnapshot_keeps | apply State.syncQuiesced_keeps | simp -zeta -zetaUnused -zetaHave -proj only [keeps_mk] | apply keeps_core
      | (intro x; refine (have hx : State.Keeps r x := ?_; ?_); unfold x; rotate_left; clear_value x; rotate_left) | (intro x; clear_value x)
      | intro x | split | lift_lets | dsimp only

theorem State.putBlocks_keeps {r : State} (s : State) (unit : Nat) (ctx : Nat) (cls : Nat) (x4 : List (Nat × Nat)) (x5 : List Byte) (h : r.Keeps s) :
    r.Keeps (State.putBlocks s unit ctx cls x4 x5) := by
  induction x4 generalizing s unit ctx cls x5 with
  | nil =>
    unfold State.putBlocks
    with_reducible
      repeat' first
        | assumption | apply State.devWrite_keeps | refine (State.devWrite_keeps _ _ _ _ _ _ ?_).out | refine keeps_fst (by assumption) ?_ | dsimp only
  | cons y l ih =>
    unfold State.putBlocks
    with_reducible
      repeat' first
        | assumption | apply ih | apply State.devWrite_keeps | refine (State.devWrite_keeps _ _ _ _ _ _ ?_).out | refine keeps_fst (by assumption) ?_ | dsimp only

theorem State.loseRecord_keeps {r : State} (s : State) (h : r.Keeps s) :
    r.Keeps (State.loseRecord s) := by
  unfold State.loseRecord
  with_reducible
    repeat' first
      | assumption | apply State.emit_keeps | apply State.bump_keeps | dsimp only

theorem State.keepCounters_keeps {r : State} (s : State) (old : State) (h : r.Keeps s) :
    r.Keeps (State.keepCounters s old) := by
  unfold State.keepCounters
  with_reducible
    repeat' first
      | assumption | apply State.setReg_keeps | simp -zeta -zetaUnused -zetaHave -proj only [keeps_mk_fst] | apply keeps_foldl | apply keeps_foldl_fst
      | apply keeps_foldl_snd | intro x | dsimp only

theorem State.putRecord_keeps {r : State} (s : State) (unit : Nat) (ctx : Nat) (va : Nat) (cls : Nat) (head : List Byte) (rest : List Byte) (sealing : List Byte) (h : r.Keeps s) :
    r.Keeps (State.putRecord s unit ctx va cls head rest sealing) := by
  unfold State.putRecord
  with_reducible
    repeat' first
      | assumption | apply State.putBlocks_keeps
      | (intro x; refine (have hx : State.Keeps r x := ?_; ?_); unfold x; rotate_left; clear_value x; rotate_left)
      | (intro x; refine (have hfn : ∀ y, State.Keeps r y → State.Keeps r (x y) := ?_; ?_); unfold x; rotate_left; clear_value x; rotate_left)
      | (intro x; refine (have hfn : ∀ y z, State.Keeps r y → State.Keeps r (x y z) := ?_; ?_); unfold x; rotate_left; clear_value x; rotate_left)
      | apply hfn | (intro x; clear_value x) | intro x | split | lift_lets | dsimp only

theorem execSnapshotRecordWrite_keeps {r : State} (s : State) (h : r.Keeps s) :
    KeepsOut r (execSnapshotRecordWrite s) := by
  unfold execSnapshotRecordWrite
  with_reducible
    repeat' first
      | assumption | apply keeps_next | apply State.noteWaits_keeps | apply State.loseRecord_keeps | apply State.nextFree_keeps
      | apply State.keepCounters_keeps | apply State.putRecord_keeps | refine (State.nextFree_keeps _ ?_).out
      | simp -zeta -zetaUnused -zetaHave -proj only [keeps_mk] | apply keeps_core
      | (intro x; refine (have hx : State.Keeps r x := ?_; ?_); unfold x; rotate_left; clear_value x; rotate_left) | (intro x; clear_value x)
      | intro x | split | refine keeps_snd (by assumption) ?_ | lift_lets | dsimp only

theorem State.countStall_keeps {r : State} (s : State) (c : Nat) (h : r.Keeps s) :
    r.Keeps (State.countStall s c) := by
  unfold State.countStall
  with_reducible
    repeat' first
      | assumption | apply State.bumpN_keeps | simp -zeta -zetaUnused -zetaHave -proj only [keeps_mk] | apply keeps_core
      | (intro x; refine (have hx : State.Keeps r x := ?_; ?_); unfold x; rotate_left; clear_value x; rotate_left) | (intro x; clear_value x)
      | intro x | split | lift_lets | dsimp only

theorem State.countWaits_keeps {r : State} (s : State) (c : Nat) (n : Nat) (h : r.Keeps s) :
    r.Keeps (State.countWaits s c n) := by
  unfold State.countWaits
  with_reducible
    repeat' first
      | assumption | apply State.bumpN_keeps | simp -zeta -zetaUnused -zetaHave -proj only [keeps_mk_fst] | apply keeps_foldl | apply keeps_foldl_fst
      | apply keeps_foldl_snd | (intro x; refine (have hx : State.Keeps r x := ?_; ?_); unfold x; rotate_left; clear_value x; rotate_left)
      | (intro x; clear_value x) | intro x | split | lift_lets | dsimp only

theorem State.countCore_keeps {r : State} (s : State) (c : Nat) (h : r.Keeps s) :
    r.Keeps (State.countCore s c) := by
  unfold State.countCore
  with_reducible
    repeat' first
      | assumption | apply State.countWaits_keeps | apply State.countStall_keeps | simp -zeta -zetaUnused -zetaHave -proj only [keeps_mk]
      | apply keeps_core | (intro x; refine (have hx : State.Keeps r x := ?_; ?_); unfold x; rotate_left; clear_value x; rotate_left)
      | (intro x; clear_value x) | intro x | lift_lets | dsimp only

theorem State.countXoff_keeps {r : State} (s : State) (h : r.Keeps s) :
    r.Keeps (State.countXoff s) := by
  unfold State.countXoff
  with_reducible
    repeat' first
      | assumption | apply State.bump_keeps | simp -zeta -zetaUnused -zetaHave -proj only [keeps_mk_fst] | apply keeps_foldl | apply keeps_foldl_fst
      | apply keeps_foldl_snd | intro x | split | dsimp only

theorem State.countStalls_keeps {r : State} (s : State) (h : r.Keeps s) :
    r.Keeps (State.countStalls s) := by
  unfold State.countStalls
  with_reducible
    repeat' first
      | assumption | apply State.countXoff_keeps | apply State.countCore_keeps | simp -zeta -zetaUnused -zetaHave -proj only [keeps_mk_fst]
      | apply keeps_foldl | apply keeps_foldl_fst | apply keeps_foldl_snd | intro x | split | dsimp only

theorem State.stopGroup_keeps {r : State} (s : State) (core : Nat) (slot : Nat) (h : r.Keeps s) :
    r.Keeps (State.stopGroup s core slot) := by
  unfold State.stopGroup
  with_reducible
    repeat' first
      | assumption | apply State.withdrawWaits_keeps | apply State.endTmbWait_keeps | apply State.setTgroup_keeps
      | simp -zeta -zetaUnused -zetaHave -proj only [keeps_mk] | apply keeps_core
      | (intro x; refine (have hx : State.Keeps r x := ?_; ?_); unfold x; rotate_left; clear_value x; rotate_left)
      | (intro x; refine (have hfn : ∀ y, State.Keeps r y → State.Keeps r (x y) := ?_; ?_); unfold x; rotate_left; clear_value x; rotate_left)
      | (intro x; refine (have hfn : ∀ y z, State.Keeps r y → State.Keeps r (x y z) := ?_; ?_); unfold x; rotate_left; clear_value x; rotate_left)
      | apply hfn | (intro x; clear_value x) | intro x | split | lift_lets | dsimp only

theorem State.stopWaits_keeps {r : State} (s : State) (h : r.Keeps s) :
    r.Keeps (State.stopWaits s) := by
  unfold State.stopWaits
  with_reducible
    repeat' first
      | assumption | apply State.stopGroup_keeps | simp -zeta -zetaUnused -zetaHave -proj only [keeps_mk_fst] | apply keeps_foldl
      | apply keeps_foldl_fst | apply keeps_foldl_snd | intro x | dsimp only

theorem State.settleHeld_keeps {r : State} (s : State) (h : r.Keeps s) :
    r.Keeps (State.settleHeld s) := by
  unfold State.settleHeld
  with_reducible
    repeat' first
      | assumption | apply State.flushAllHeld_keeps | split | dsimp only

theorem State.settleCycle_keeps {r : State} (s : State) (h : r.Keeps s) :
    r.Keeps (State.settleCycle s) := by
  unfold State.settleCycle
  with_reducible
    repeat' first
      | assumption | apply State.settleFuse_keeps | apply State.settleErases_keeps | apply State.settleFreq_keeps | apply State.settleHeld_keeps
      | apply State.endRetired_keeps | apply State.settleOverruns_keeps | apply State.stopWaits_keeps | apply State.settleFaults_keeps | dsimp only

theorem State.idle_keeps {r : State} (s : State) (h : r.Keeps s) : r.Keeps s.idle := by
  have k := State.countStalls_keeps _ (State.settleCycle_keeps _ h)
  unfold State.idle
  dsimp only
  generalize s.settleCycle.countStalls = t at k ⊢
  have k2 : r.Keeps { t with now := t.now + 1 } :=
    keeps_mk.mpr ⟨(keeps_core k).memWf, k.pending, Nat.le_succ_of_le k.now, k.freeCtr, k.fusedSvn, k.repair⟩
  generalize ({ t with now := t.now + 1 } : State) = u at k2 ⊢
  have k3 : r.Keeps (if u.bubbling && u.alive then u.accrue else u) := by
    split
    · exact State.accrue_keeps _ k2
    · exact k2
  generalize (if u.bubbling && u.alive then u.accrue else u) = v at k3 ⊢
  split
  · exact State.setFlag_keeps _ _ _ k3
  · exact k3

/-! Machine/HostReg.lean -/

theorem State.remode_keeps {r : State} (s : State) (u : Nat) (h : r.Keeps s) :
    r.Keeps (State.remode s u) := by
  unfold State.remode
  with_reducible
    repeat' first
      | assumption | apply State.setUnit_keeps | simp -zeta -zetaUnused -zetaHave -proj only [keeps_mk] | apply keeps_core
      | (intro x; refine (have hx : State.Keeps r x := ?_; ?_); unfold x; rotate_left; clear_value x; rotate_left) | (intro x; clear_value x)
      | intro x | split | lift_lets | dsimp only

theorem State.regWrite_keeps {r : State} (s : State) (a : Nat) (v : Word) (h : r.Keeps s) :
    r.Keeps (State.regWrite s a v) := by
  unfold State.regWrite
  with_reducible
    repeat' first
      | assumption | apply State.setReg_keeps | apply State.remode_keeps | simp -zeta -zetaUnused -zetaHave -proj only [keeps_mk, keeps_mk_fst]
      | apply keeps_core | apply keeps_foldl | apply keeps_foldl_fst | apply keeps_foldl_snd
      | (intro x; refine (have hx : State.Keeps r x := ?_; ?_); unfold x; rotate_left; clear_value x; rotate_left) | (intro x; clear_value x)
      | intro x | split | lift_lets | dsimp only

theorem State.msixWrite_keeps {r : State} (s : State) (fn : Nat) (off : Nat) (v : Word) (h : r.Keeps s) :
    r.Keeps (State.msixWrite s fn off v) := by
  unfold State.msixWrite
  with_reducible
    repeat' first
      | assumption | apply State.unmaskVectors_keeps | simp -zeta -zetaUnused -zetaHave -proj only [keeps_mk] | apply keeps_core
      | (intro x; refine (have hx : State.Keeps r x := ?_; ?_); unfold x; rotate_left; clear_value x; rotate_left)
      | (intro x; have hm : HostSt.mem x = HostSt.mem x := rfl; clear hm) | (intro x; clear_value x) | intro x | split | lift_lets | dsimp only

theorem State.pageWrite_keeps {r : State} (s : State) (fn : Nat) (q : Nat) (off : Nat) (v : Word) (h : r.Keeps s) :
    r.Keeps (State.pageWrite s fn q off v) := by
  unfold State.pageWrite
  with_reducible
    repeat' first
      | assumption | apply State.ringSqtail_keeps | apply State.ringCqhead_keeps | split | dsimp only

theorem execRegisterWrite_keeps {r : State} (fn : Nat) (addr : Nat) (value : Word) (s : State) (h : r.Keeps s) :
    KeepsOut r (execRegisterWrite fn addr value s) := by
  unfold execRegisterWrite
  with_reducible
    repeat' first
      | assumption | apply keeps_next | apply State.msixWrite_keeps | apply State.pageWrite_keeps | apply State.regWrite_keeps
      | (intro x; refine (have hx : State.Keeps r x := ?_; ?_); unfold x; rotate_left; clear_value x; rotate_left) | (intro x; clear_value x)
      | intro x | split | lift_lets | dsimp only

/-! Machine/Pins.lean -/

theorem execTickTimerExpire_keeps {r : State} (timer : Nat) (s : State) (h : r.Keeps s) :
    KeepsOut r (execTickTimerExpire timer s) := by
  unfold execTickTimerExpire
  with_reducible
    repeat' first
      | assumption | apply keeps_next | apply State.devArrive_keeps | simp -zeta -zetaUnused -zetaHave -proj only [keeps_mk, keeps_mk_fst]
      | apply keeps_core | apply keeps_foldl | apply keeps_foldl_fst | apply keeps_foldl_snd
      | (intro x; refine (have hx : State.Keeps r x := ?_; ?_); unfold x; rotate_left; clear_value x; rotate_left) | (intro x; clear_value x)
      | intro x | split | lift_lets | dsimp only

theorem execMfpInputEdge_keeps {r : State} (pin : Nat) (high : Nat) (s : State) (h : r.Keeps s) :
    KeepsOut r (execMfpInputEdge pin high s) := by
  unfold execMfpInputEdge
  with_reducible
    repeat' first
      | assumption | apply keeps_next | apply State.syncMfp_keeps | apply State.devArrive_keeps | apply State.capture_keeps
      | simp -zeta -zetaUnused -zetaHave -proj only [keeps_mk] | apply keeps_core
      | (intro x; refine (have hx : State.Keeps r x := ?_; ?_); unfold x; rotate_left; clear_value x; rotate_left) | (intro x; clear_value x)
      | intro x | split | lift_lets | dsimp only

theorem State.tapRise_keeps {r : State} (s : State) (tms : Bool) (tdi : Bool) (h : r.Keeps s) :
    r.Keeps (State.tapRise s tms tdi) := by
  unfold State.tapRise
  with_reducible
    repeat' first
      | assumption | simp -zeta -zetaUnused -zetaHave -proj only [keeps_mk] | apply keeps_core
      | (intro x; refine (have hx : State.Keeps r x := ?_; ?_); unfold x; rotate_left; clear_value x; rotate_left) | (intro x; clear_value x)
      | intro x | split | lift_lets | dsimp only

theorem State.tapFall_keeps {r : State} (s : State) (h : r.Keeps s) :
    r.Keeps (State.tapFall s) := by
  unfold State.tapFall
  with_reducible
    repeat' first
      | assumption | simp -zeta -zetaUnused -zetaHave -proj only [keeps_mk] | apply keeps_core
      | (intro x; refine (have hx : State.Keeps r x := ?_; ?_); unfold x; rotate_left; clear_value x; rotate_left) | (intro x; clear_value x)
      | intro x | split | lift_lets | dsimp only

theorem execJtagTckEdge_keeps {r : State} (rising : Bool) (trstN : Bool) (tms : Bool) (tdi : Bool) (s : State) (h : r.Keeps s) :
    KeepsOut r (execJtagTckEdge rising trstN tms tdi s) := by
  unfold execJtagTckEdge
  with_reducible
    repeat' first
      | assumption | apply keeps_next | apply State.tapRise_keeps | apply State.tapFall_keeps | simp -zeta -zetaUnused -zetaHave -proj only [keeps_mk]
      | apply keeps_core | (intro x; refine (have hx : State.Keeps r x := ?_; ?_); unfold x; rotate_left; clear_value x; rotate_left)
      | (intro x; clear_value x) | intro x | split | lift_lets | dsimp only

/-! Machine/TCtl.lean -/

theorem State.exitLanes_keeps {r : State} (s : State) (core : Nat) (slot : Nat) (b : TBlock) (g : TGroup) (lanes : List Nat) (h : r.Keeps s) :
    r.Keeps (State.exitLanes s core slot b g lanes) := by
  unfold State.exitLanes
  with_reducible
    repeat' first
      | assumption | apply State.setTgroup_keeps | apply State.setTblock_keeps | apply State.settleBars_keeps
      | simp -zeta -zetaUnused -zetaHave -proj only [keeps_mk] | apply keeps_core
      | (intro x; refine (have hx : State.Keeps r x := ?_; ?_); unfold x; rotate_left; clear_value x; rotate_left) | (intro x; clear_value x)
      | intro x | split | lift_lets | dsimp only

theorem execExit_keeps {r : State} (core : Nat) (slot : Nat) (w0 : BitVec 64) (_w1 : BitVec 64) (s : State) (h : r.Keeps s) :
    KeepsOut r (execExit core slot w0 _w1 s) := by
  unfold execExit
  with_reducible
    repeat' first
      | assumption | apply keeps_next | apply State.issue_keeps | apply State.exitLanes_keeps | intro x | dsimp only

theorem execBra_keeps {r : State} (core : Nat) (slot : Nat) (w0 : BitVec 64) (w1 : BitVec 64) (s : State) (h : r.Keeps s) :
    KeepsOut r (execBra core slot w0 w1 s) := by
  unfold execBra
  with_reducible
    repeat' first
      | assumption | apply keeps_next | apply State.issue_keeps | apply State.setTgroup_keeps | apply State.preciseFault_keeps
      | simp -zeta -zetaUnused -zetaHave -proj only [keeps_mk] | apply keeps_core
      | (intro x; refine (have hx : State.Keeps r x := ?_; ?_); unfold x; rotate_left; clear_value x; rotate_left) | (intro x; clear_value x)
      | intro x | split | lift_lets | dsimp only

theorem execJoin_keeps {r : State} (core : Nat) (slot : Nat) (w0 : BitVec 64) (_w1 : BitVec 64) (s : State) (h : r.Keeps s) :
    KeepsOut r (execJoin core slot w0 _w1 s) := by
  unfold execJoin
  with_reducible
    repeat' first
      | assumption | apply keeps_next | apply State.issue_keeps | apply State.setTgroup_keeps | apply State.advance_keeps
      | simp -zeta -zetaUnused -zetaHave -proj only [keeps_mk] | apply keeps_core
      | (intro x; refine (have hx : State.Keeps r x := ?_; ?_); unfold x; rotate_left; clear_value x; rotate_left) | (intro x; clear_value x)
      | intro x | split | lift_lets | dsimp only

theorem execCall_keeps {r : State} (core : Nat) (slot : Nat) (w0 : BitVec 64) (w1 : BitVec 64) (s : State) (h : r.Keeps s) :
    KeepsOut r (execCall core slot w0 w1 s) := by
  unfold execCall
  with_reducible
    repeat' first
      | assumption | apply keeps_next | apply State.issue_keeps | apply State.setTgroup_keeps
      | simp -zeta -zetaUnused -zetaHave -proj only [keeps_mk, keeps_mk_fst] | apply keeps_core | apply keeps_foldl | apply keeps_foldl_fst
      | apply keeps_foldl_snd | (intro x; refine (have hx : State.Keeps r x := ?_; ?_); unfold x; rotate_left; clear_value x; rotate_left)
      | (intro x; clear_value x) | intro x | lift_lets | dsimp only

theorem execJmpr_keeps {r : State} (core : Nat) (slot : Nat) (w0 : BitVec 64) (_w1 : BitVec 64) (s : State) (h : r.Keeps s) :
    KeepsOut r (execJmpr core slot w0 _w1 s) := by
  unfold execJmpr
  with_reducible
    repeat' first
      | assumption | apply keeps_next | apply State.issue_keeps | apply State.preciseFault_keeps | apply State.setTgroup_keeps
      | simp -zeta -zetaUnused -zetaHave -proj only [keeps_mk] | apply keeps_core
      | (intro x; refine (have hx : State.Keeps r x := ?_; ?_); unfold x; rotate_left; clear_value x; rotate_left) | (intro x; clear_value x)
      | intro x | split | lift_lets | dsimp only

theorem execTrap_keeps {r : State} (core : Nat) (slot : Nat) (w0 : BitVec 64) (_w1 : BitVec 64) (s : State) (h : r.Keeps s) :
    KeepsOut r (execTrap core slot w0 _w1 s) := by
  unfold execTrap
  with_reducible
    repeat' first
      | assumption | apply keeps_next | apply State.issue_keeps | apply State.advance_keeps | apply State.preciseFault_keeps
      | (intro x; refine (have hx : State.Keeps r x := ?_; ?_); unfold x; rotate_left; clear_value x; rotate_left) | (intro x; clear_value x)
      | intro x | split | lift_lets | dsimp only

/-! Machine/TFloat.lean -/

theorem State.fpOp_keeps {r : State} (s : State) (core : Nat) (slot : Nat) (opc : Nat) (w0 : BitVec 64) (dbl : Bool) (k : Nat) (op : FFmt → FMode → List Nat → FRes) (h : r.Keeps s) :
    r.Keeps (State.fpOp s core slot opc w0 dbl k op) := by
  unfold State.fpOp
  with_reducible
    repeat' first
      | assumption | apply State.lanesOp_keeps
      | (intro x; refine (have hx : State.Keeps r x := ?_; ?_); unfold x; rotate_left; clear_value x; rotate_left) | (intro x; clear_value x)
      | intro x | split | lift_lets | dsimp only

theorem State.fpCmp_keeps {r : State} (s : State) (core slot opc : Nat) (w0 : BitVec 64) (dbl : Bool) (h : r.Keeps s) : r.Keeps (State.fpCmp s core slot opc w0 dbl) := by
  unfold State.fpCmp
  refine State.issue_keeps _ _ _ _ _ _ _ h fun t b g ht => ?_
  have k := fun g' => State.advance_keeps t core slot 1 g' ht
  exact keeps_mk.mpr ⟨(keeps_core (k _)).memWf, (k g).pending, (k g).now, Nat.le_trans ht.freeCtr (Nat.le_add_right _ _), (k g).fusedSvn, (k g).repair⟩

theorem execFadd_keeps {r : State} (core : Nat) (slot : Nat) (w0 : BitVec 64) (_w1 : BitVec 64) (s : State) (h : r.Keeps s) :
    KeepsOut r (execFadd core slot w0 _w1 s) := by
  unfold execFadd
  with_reducible
    repeat' first
      | assumption | apply keeps_next | apply State.fpOp_keeps | dsimp only

theorem execFsub_keeps {r : State} (core : Nat) (slot : Nat) (w0 : BitVec 64) (_w1 : BitVec 64) (s : State) (h : r.Keeps s) :
    KeepsOut r (execFsub core slot w0 _w1 s) := by
  unfold execFsub
  with_reducible
    repeat' first
      | assumption | apply keeps_next | apply State.fpOp_keeps | dsimp only

theorem execFmul_keeps {r : State} (core : Nat) (slot : Nat) (w0 : BitVec 64) (_w1 : BitVec 64) (s : State) (h : r.Keeps s) :
    KeepsOut r (execFmul core slot w0 _w1 s) := by
  unfold execFmul
  with_reducible
    repeat' first
      | assumption | apply keeps_next | apply State.fpOp_keeps | dsimp only

theorem execFfma_keeps {r : State} (core : Nat) (slot : Nat) (w0 : BitVec 64) (_w1 : BitVec 64) (s : State) (h : r.Keeps s) :
    KeepsOut r (execFfma core slot w0 _w1 s) := by
  unfold execFfma
  with_reducible
    repeat' first
      | assumption | apply keeps_next | apply State.fpOp_keeps | dsimp only

theorem execFmin_keeps {r : State} (core : Nat) (slot : Nat) (w0 : BitVec 64) (_w1 : BitVec 64) (s : State) (h : r.Keeps s) :
    KeepsOut r (execFmin core slot w0 _w1 s) := by
  unfold execFmin
  with_reducible
    repeat' first
      | assumption | apply keeps_next | apply State.fpOp_keeps | dsimp only

theorem execFmax_keeps {r : State} (core : Nat) (slot : Nat) (w0 : BitVec 64) (_w1 : BitVec 64) (s : State) (h : r.Keeps s) :
    KeepsOut r (execFmax core slot w0 _w1 s) := by
  unfold execFmax
  with_reducible
    repeat' first
      | assumption | apply keeps_next | apply State.fpOp_keeps | dsimp only

theorem execFsetp_keeps {r : State} (core : Nat) (slot : Nat) (w0 : BitVec 64) (_w1 : BitVec 64) (s : State) (h : r.Keeps s) :
    KeepsOut r (execFsetp core slot w0 _w1 s) := by
  unfold execFsetp
  with_reducible
    repeat' first
      | assumption | apply keeps_next | apply State.fpCmp_keeps | dsimp only

theorem execFrnd_keeps {r : State} (core : Nat) (slot : Nat) (w0 : BitVec 64) (_w1 : BitVec 64) (s : State) (h : r.Keeps s) :
    KeepsOut r (execFrnd core slot w0 _w1 s) := by
  unfold execFrnd
  with_reducible
    repeat' first
      | assumption | apply keeps_next | apply State.fpOp_keeps | dsimp only

theorem execFdiv_keeps {r : State} (core : Nat) (slot : Nat) (w0 : BitVec 64) (_w1 : BitVec 64) (s : State) (h : r.Keeps s) :
    KeepsOut r (execFdiv core slot w0 _w1 s) := by
  unfold execFdiv
  with_reducible
    repeat' first
      | assumption | apply keeps_next | apply State.fpOp_keeps | dsimp only

theorem execFsqrt_keeps {r : State} (core : Nat) (slot : Nat) (w0 : BitVec 64) (_w1 : BitVec 64) (s : State) (h : r.Keeps s) :
    KeepsOut r (execFsqrt core slot w0 _w1 s) := by
  unfold execFsqrt
  with_reducible
    repeat' first
      | assumption | apply keeps_next | apply State.fpOp_keeps | dsimp only

theorem execDadd_keeps {r : State} (core : Nat) (slot : Nat) (w0 : BitVec 64) (_w1 : BitVec 64) (s : State) (h : r.Keeps s) :
    KeepsOut r (execDadd core slot w0 _w1 s) := by
  unfold execDadd
  with_reducible
    repeat' first
      | assumption | apply keeps_next | apply State.fpOp_keeps | dsimp only

theorem execDsub_keeps {r : State} (core : Nat) (slot : Nat) (w0 : BitVec 64) (_w1 : BitVec 64) (s : State) (h : r.Keeps s) :
    KeepsOut r (execDsub core slot w0 _w1 s) := by
  unfold execDsub
  with_reducible
    repeat' first
      | assumption | apply keeps_next | apply State.fpOp_keeps | dsimp only

theorem execDmul_keeps {r : State} (core : Nat) (slot : Nat) (w0 : BitVec 64) (_w1 : BitVec 64) (s : State) (h : r.Keeps s) :
    KeepsOut r (execDmul core slot w0 _w1 s) := by
  unfold execDmul
  with_reducible
    repeat' first
      | assumption | apply keeps_next | apply State.fpOp_keeps | dsimp only

theorem execDfma_keeps {r : State} (core : Nat) (slot : Nat) (w0 : BitVec 64) (_w1 : BitVec 64) (s : State) (h : r.Keeps s) :
    KeepsOut r (execDfma core slot w0 _w1 s) := by
  unfold execDfma
  with_reducible
    repeat' first
      | assumption | apply keeps_next | apply State.fpOp_keeps | dsimp only

theorem execDmin_keeps {r : State} (core : Nat) (slot : Nat) (w0 : BitVec 64) (_w1 : BitVec 64) (s : State) (h : r.Keeps s) :
    KeepsOut r (execDmin core slot w0 _w1 s) := by
  unfold execDmin
  with_reducible
    repeat' first
      | assumption | apply keeps_next | apply State.fpOp_keeps | dsimp only

theorem execDmax_keeps {r : State} (core : Nat) (slot : Nat) (w0 : BitVec 64) (_w1 : BitVec 64) (s : State) (h : r.Keeps s) :
    KeepsOut r (execDmax core slot w0 _w1 s) := by
  unfold execDmax
  with_reducible
    repeat' first
      | assumption | apply keeps_next | apply State.fpOp_keeps | dsimp only

theorem execDsetp_keeps {r : State} (core : Nat) (slot : Nat) (w0 : BitVec 64) (_w1 : BitVec 64) (s : State) (h : r.Keeps s) :
    KeepsOut r (execDsetp core slot w0 _w1 s) := by
  unfold execDsetp
  with_reducible
    repeat' first
      | assumption | apply keeps_next | apply State.fpCmp_keeps | dsimp only

theorem execDrnd_keeps {r : State} (core : Nat) (slot : Nat) (w0 : BitVec 64) (_w1 : BitVec 64) (s : State) (h : r.Keeps s) :
    KeepsOut r (execDrnd core slot w0 _w1 s) := by
  unfold execDrnd
  with_reducible
    repeat' first
      | assumption | apply keeps_next | apply State.fpOp_keeps | dsimp only

theorem execDdiv_keeps {r : State} (core : Nat) (slot : Nat) (w0 : BitVec 64) (_w1 : BitVec 64) (s : State) (h : r.Keeps s) :
    KeepsOut r (execDdiv core slot w0 _w1 s) := by
  unfold execDdiv
  with_reducible
    repeat' first
      | assumption | apply keeps_next | apply State.fpOp_keeps | dsimp only

theorem execDsqrt_keeps {r : State} (core : Nat) (slot : Nat) (w0 : BitVec 64) (_w1 : BitVec 64) (s : State) (h : r.Keeps s) :
    KeepsOut r (execDsqrt core slot w0 _w1 s) := by
  unfold execDsqrt
  with_reducible
    repeat' first
      | assumption | apply keeps_next | apply State.fpOp_keeps | dsimp only

theorem execCvt_keeps {r : State} (core : Nat) (slot : Nat) (w0 : BitVec 64) (_w1 : BitVec 64) (s : State) (h : r.Keeps s) :
    KeepsOut r (execCvt core slot w0 _w1 s) := by
  unfold execCvt
  with_reducible
    repeat' first
      | assumption | apply keeps_next | apply State.lanesOp_keeps
      | (intro x; refine (have hx : State.Keeps r x := ?_; ?_); unfold x; rotate_left; clear_value x; rotate_left) | (intro x; clear_value x)
      | intro x | split | lift_lets | dsimp only

/-! Machine/TInt.lean -/

theorem State.intUn_keeps {r : State} (s : State) (core : Nat) (slot : Nat) (opc : Nat) (w0 : BitVec 64) (f : Nat → Nat → Nat) (h : r.Keeps s) :
    r.Keeps (State.intUn s core slot opc w0 f) := by
  unfold State.intUn
  with_reducible
    repeat' first
      | assumption | apply State.lanesOp_keeps
      | (intro x; refine (have hx : State.Keeps r x := ?_; ?_); unfold x; rotate_left; clear_value x; rotate_left) | (intro x; clear_value x)
      | intro x | lift_lets | dsimp only

theorem State.intBin_keeps {r : State} (s : State) (core : Nat) (slot : Nat) (opc : Nat) (w0 : BitVec 64) (f : Nat → Nat → Nat → Nat) (h : r.Keeps s) :
    r.Keeps (State.intBin s core slot opc w0 f) := by
  unfold State.intBin
  with_reducible
    repeat' first
      | assumption | apply State.lanesOp_keeps
      | (intro x; refine (have hx : State.Keeps r x := ?_; ?_); unfold x; rotate_left; clear_value x; rotate_left) | (intro x; clear_value x)
      | intro x | lift_lets | dsimp only

theorem execNop_keeps {r : State} (core : Nat) (slot : Nat) (w0 : BitVec 64) (_w1 : BitVec 64) (s : State) (h : r.Keeps s) :
    KeepsOut r (execNop core slot w0 _w1 s) := by
  unfold execNop
  with_reducible
    repeat' first
      | assumption | apply keeps_next | apply State.lanesOp_keeps | dsimp only

theorem execIadd_keeps {r : State} (core : Nat) (slot : Nat) (w0 : BitVec 64) (_w1 : BitVec 64) (s : State) (h : r.Keeps s) :
    KeepsOut r (execIadd core slot w0 _w1 s) := by
  unfold execIadd
  with_reducible
    repeat' first
      | assumption | apply keeps_next | apply State.intBin_keeps | dsimp only

theorem execIsub_keeps {r : State} (core : Nat) (slot : Nat) (w0 : BitVec 64) (_w1 : BitVec 64) (s : State) (h : r.Keeps s) :
    KeepsOut r (execIsub core slot w0 _w1 s) := by
  unfold execIsub
  with_reducible
    repeat' first
      | assumption | apply keeps_next | apply State.intBin_keeps | dsimp only

theorem execImul_keeps {r : State} (core : Nat) (slot : Nat) (w0 : BitVec 64) (_w1 : BitVec 64) (s : State) (h : r.Keeps s) :
    KeepsOut r (execImul core slot w0 _w1 s) := by
  unfold execImul
  with_reducible
    repeat' first
      | assumption | apply keeps_next | apply State.intBin_keeps | dsimp only

theorem execImulh_keeps {r : State} (core : Nat) (slot : Nat) (w0 : BitVec 64) (_w1 : BitVec 64) (s : State) (h : r.Keeps s) :
    KeepsOut r (execImulh core slot w0 _w1 s) := by
  unfold execImulh
  with_reducible
    repeat' first
      | assumption | apply keeps_next | apply State.intBin_keeps | dsimp only

theorem execImad_keeps {r : State} (core : Nat) (slot : Nat) (w0 : BitVec 64) (_w1 : BitVec 64) (s : State) (h : r.Keeps s) :
    KeepsOut r (execImad core slot w0 _w1 s) := by
  unfold execImad
  with_reducible
    repeat' first
      | assumption | apply keeps_next | apply State.lanesOp_keeps
      | (intro x; refine (have hx : State.Keeps r x := ?_; ?_); unfold x; rotate_left; clear_value x; rotate_left) | (intro x; clear_value x)
      | intro x | lift_lets | dsimp only

theorem execImin_keeps {r : State} (core : Nat) (slot : Nat) (w0 : BitVec 64) (_w1 : BitVec 64) (s : State) (h : r.Keeps s) :
    KeepsOut r (execImin core slot w0 _w1 s) := by
  unfold execImin
  with_reducible
    repeat' first
      | assumption | apply keeps_next | apply State.intBin_keeps | split | dsimp only

theorem execImax_keeps {r : State} (core : Nat) (slot : Nat) (w0 : BitVec 64) (_w1 : BitVec 64) (s : State) (h : r.Keeps s) :
    KeepsOut r (execImax core slot w0 _w1 s) := by
  unfold execImax
  with_reducible
    repeat' first
      | assumption | apply keeps_next | apply State.intBin_keeps | split | dsimp only

theorem execIabs_keeps {r : State} (core : Nat) (slot : Nat) (w0 : BitVec 64) (_w1 : BitVec 64) (s : State) (h : r.Keeps s) :
    KeepsOut r (execIabs core slot w0 _w1 s) := by
  unfold execIabs
  with_reducible
    repeat' first
      | assumption | apply keeps_next | apply State.intUn_keeps | dsimp only

theorem execAnd_keeps {r : State} (core : Nat) (slot : Nat) (w0 : BitVec 64) (_w1 : BitVec 64) (s : State) (h : r.Keeps s) :
    KeepsOut r (execAnd core slot w0 _w1 s) := by
  unfold execAnd
  with_reducible
    repeat' first
      | assumption | apply keeps_next | apply State.intBin_keeps | dsimp only

theorem execOr_keeps {r : State} (core : Nat) (slot : Nat) (w0 : BitVec 64) (_w1 : BitVec 64) (s : State) (h : r.Keeps s) :
    KeepsOut r (execOr core slot w0 _w1 s) := by
  unfold execOr
  with_reducible
    repeat' first
      | assumption | apply keeps_next | apply State.intBin_keeps | dsimp only

theorem execXor_keeps {r : State} (core : Nat) (slot : Nat) (w0 : BitVec 64) (_w1 : BitVec 64) (s : State) (h : r.Keeps s) :
    KeepsOut r (execXor core slot w0 _w1 s) := by
  unfold execXor
  with_reducible
    repeat' first
      | assumption | apply keeps_next | apply State.intBin_keeps | dsimp only

theorem execNot_keeps {r : State} (core : Nat) (slot : Nat) (w0 : BitVec 64) (_w1 : BitVec 64) (s : State) (h : r.Keeps s) :
    KeepsOut r (execNot core slot w0 _w1 s) := by
  unfold execNot
  with_reducible
    repeat' first
      | assumption | apply keeps_next | apply State.intUn_keeps | dsimp only

theorem execShl_keeps {r : State} (core : Nat) (slot : Nat) (w0 : BitVec 64) (_w1 : BitVec 64) (s : State) (h : r.Keeps s) :
    KeepsOut r (execShl core slot w0 _w1 s) := by
  unfold execShl
  with_reducible
    repeat' first
      | assumption | apply keeps_next | apply State.intBin_keeps | dsimp only

theorem execShr_keeps {r : State} (core : Nat) (slot : Nat) (w0 : BitVec 64) (_w1 : BitVec 64) (s : State) (h : r.Keeps s) :
    KeepsOut r (execShr core slot w0 _w1 s) := by
  unfold execShr
  with_reducible
    repeat' first
      | assumption | apply keeps_next | apply State.intBin_keeps | dsimp only

theorem execSar_keeps {r : State} (core : Nat) (slot : Nat) (w0 : BitVec 64) (_w1 : BitVec 64) (s : State) (h : r.Keeps s) :
    KeepsOut r (execSar core slot w0 _w1 s) := by
  unfold execSar
  with_reducible
    repeat' first
      | assumption | apply keeps_next | apply State.intBin_keeps | dsimp only

theorem execPopc_keeps {r : State} (core : Nat) (slot : Nat) (w0 : BitVec 64) (_w1 : BitVec 64) (s : State) (h : r.Keeps s) :
    KeepsOut r (execPopc core slot w0 _w1 s) := by
  unfold execPopc
  with_reducible
    repeat' first
      | assumption | apply keeps_next | apply State.intUn_keeps | dsimp only

theorem execClz_keeps {r : State} (core : Nat) (slot : Nat) (w0 : BitVec 64) (_w1 : BitVec 64) (s : State) (h : r.Keeps s) :
    KeepsOut r (execClz core slot w0 _w1 s) := by
  unfold execClz
  with_reducible
    repeat' first
      | assumption | apply keeps_next | apply State.intUn_keeps | dsimp only

theorem execMov_keeps {r : State} (core : Nat) (slot : Nat) (w0 : BitVec 64) (_w1 : BitVec 64) (s : State) (h : r.Keeps s) :
    KeepsOut r (execMov core slot w0 _w1 s) := by
  unfold execMov
  with_reducible
    repeat' first
      | assumption | apply keeps_next | apply State.lanesOp_keeps
      | (intro x; refine (have hx : State.Keeps r x := ?_; ?_); unfold x; rotate_left; clear_value x; rotate_left) | (intro x; clear_value x)
      | intro x | split | lift_lets | dsimp only

theorem execMovi_keeps {r : State} (core : Nat) (slot : Nat) (w0 : BitVec 64) (w1 : BitVec 64) (s : State) (h : r.Keeps s) :
    KeepsOut r (execMovi core slot w0 w1 s) := by
  unfold execMovi
  with_reducible
    repeat' first
      | assumption | apply keeps_next | apply State.lanesOp_keeps | dsimp only

theorem execSel_keeps {r : State} (core : Nat) (slot : Nat) (w0 : BitVec 64) (_w1 : BitVec 64) (s : State) (h : r.Keeps s) :
    KeepsOut r (execSel core slot w0 _w1 s) := by
  unfold execSel
  with_reducible
    repeat' first
      | assumption | apply keeps_next | apply State.lanesOp_keeps | simp -zeta -zetaUnused -zetaHave -proj only [keeps_mk] | apply keeps_core
      | (intro x; refine (have hx : State.Keeps r x := ?_; ?_); unfold x; rotate_left; clear_value x; rotate_left) | (intro x; clear_value x)
      | intro x | split | lift_lets | dsimp only

theorem execIsetp_keeps {r : State} (core : Nat) (slot : Nat) (w0 : BitVec 64) (_w1 : BitVec 64) (s : State) (h : r.Keeps s) :
    KeepsOut r (execIsetp core slot w0 _w1 s) := by
  unfold execIsetp
  with_reducible
    repeat' first
      | assumption | apply keeps_next | apply State.lanesOp_keeps
      | (intro x; refine (have hx : State.Keeps r x := ?_; ?_); unfold x; rotate_left; clear_value x; rotate_left) | (intro x; clear_value x)
      | intro x | split | lift_lets | dsimp only

theorem execPlop_keeps {r : State} (core : Nat) (slot : Nat) (w0 : BitVec 64) (_w1 : BitVec 64) (s : State) (h : r.Keeps s) :
    KeepsOut r (execPlop core slot w0 _w1 s) := by
  unfold execPlop
  with_reducible
    repeat' first
      | assumption | apply keeps_next | apply State.lanesOp_keeps | dsimp only

theorem execShfl_keeps {r : State} (core : Nat) (slot : Nat) (w0 : BitVec 64) (_w1 : BitVec 64) (s : State) (h : r.Keeps s) :
    KeepsOut r (execShfl core slot w0 _w1 s) := by
  unfold execShfl
  with_reducible
    repeat' first
      | assumption | apply keeps_next | apply State.lanesOp_keeps | simp -zeta -zetaUnused -zetaHave -proj only [keeps_mk] | apply keeps_core
      | (intro x; refine (have hx : State.Keeps r x := ?_; ?_); unfold x; rotate_left; clear_value x; rotate_left) | (intro x; clear_value x)
      | intro x | split | lift_lets | dsimp only

theorem execVote_keeps {r : State} (core : Nat) (slot : Nat) (w0 : BitVec 64) (_w1 : BitVec 64) (s : State) (h : r.Keeps s) :
    KeepsOut r (execVote core slot w0 _w1 s) := by
  unfold execVote
  with_reducible
    repeat' first
      | assumption | apply keeps_next | apply State.lanesOp_keeps
      | (intro x; refine (have hx : State.Keeps r x := ?_; ?_); unfold x; rotate_left; clear_value x; rotate_left) | (intro x; clear_value x)
      | intro x | split | lift_lets | dsimp only

theorem execS2r_keeps {r : State} (core : Nat) (slot : Nat) (w0 : BitVec 64) (_w1 : BitVec 64) (s : State) (h : r.Keeps s) :
    KeepsOut r (execS2r core slot w0 _w1 s) := by
  unfold execS2r
  with_reducible
    repeat' first
      | assumption | apply keeps_next | apply State.issue_keeps | apply State.advance_keeps
      | simp -zeta -zetaUnused -zetaHave -proj only [keeps_mk_fst] | apply keeps_foldl | apply keeps_foldl_fst | apply keeps_foldl_snd
      | (intro x; refine (have hx : State.Keeps r x := ?_; ?_); unfold x; rotate_left; clear_value x; rotate_left) | (intro x; clear_value x)
      | intro x | split | lift_lets | dsimp only

theorem execFlgRd_keeps {r : State} (core : Nat) (slot : Nat) (w0 : BitVec 64) (_w1 : BitVec 64) (s : State) (h : r.Keeps s) :
    KeepsOut r (execFlgRd core slot w0 _w1 s) := by
  unfold execFlgRd
  with_reducible
    repeat' first
      | assumption | apply keeps_next | apply State.lanesOp_keeps | dsimp only

theorem execFlgClr_keeps {r : State} (core : Nat) (slot : Nat) (w0 : BitVec 64) (_w1 : BitVec 64) (s : State) (h : r.Keeps s) :
    KeepsOut r (execFlgClr core slot w0 _w1 s) := by
  unfold execFlgClr
  with_reducible
    repeat' first
      | assumption | apply keeps_next | apply State.lanesOp_keeps | simp -zeta -zetaUnused -zetaHave -proj only [keeps_mk] | apply keeps_core
      | (intro x; refine (have hx : State.Keeps r x := ?_; ?_); unfold x; rotate_left; clear_value x; rotate_left) | (intro x; clear_value x)
      | intro x | lift_lets | dsimp only

/-! Machine/VBase.lean -/

theorem State.vmret_keeps {r : State} (s : State) (core : Nat) (h : r.Keeps s) :
    r.Keeps (State.vmret s core) := by
  unfold State.vmret
  with_reducible
    repeat' first
      | assumption | apply State.vretireTo_keeps | apply State.setVmode_keeps | apply State.setVcore_keeps
      | (intro x; refine (have hx : State.Keeps r x := ?_; ?_); unfold x; rotate_left; clear_value x; rotate_left) | (intro x; clear_value x)
      | intro x | split | lift_lets | dsimp only

theorem State.vsret_keeps {r : State} (s : State) (core : Nat) (h : r.Keeps s) :
    r.Keeps (State.vsret s core) := by
  unfold State.vsret
  with_reducible
    repeat' first
      | assumption | apply State.vretireTo_keeps | apply State.setVmode_keeps | apply State.setVcore_keeps
      | (intro x; refine (have hx : State.Keeps r x := ?_; ?_); unfold x; rotate_left; clear_value x; rotate_left) | (intro x; clear_value x)
      | intro x | lift_lets | dsimp only

theorem State.vsystem_keeps {r : State} (s : State) (core : Nat) (w : BitVec 32) (x : Nat) (h : r.Keeps s) :
    r.Keeps (State.vsystem s core w x) := by
  unfold State.vsystem
  with_reducible
    repeat' first
      | assumption | apply State.vraise_keeps | apply State.vmret_keeps | apply State.villegal_keeps | apply State.vsret_keeps
      | apply State.vretire_keeps | (intro x; refine (have hx : State.Keeps r x := ?_; ?_); unfold x; rotate_left; clear_value x; rotate_left)
      | (intro x; clear_value x) | intro x | split | lift_lets | dsimp only

theorem State.vbase_keeps {r : State} (s : State) (core : Nat) (w : BitVec 32) (x : Nat) (h : r.Keeps s) :
    r.Keeps (State.vbase s core w x) := by
  unfold State.vbase
  with_reducible
    repeat' first
      | assumption | apply State.vretireTo_keeps | apply State.setVcore_keeps | apply State.villegal_keeps | apply State.vretire_keeps
      | apply State.vsystem_keeps | (intro x; refine (have hx : State.Keeps r x := ?_; ?_); unfold x; rotate_left; clear_value x; rotate_left)
      | (intro x; clear_value x) | intro x | split | lift_lets | dsimp only

theorem execVcoreBaseInstruction_keeps {r : State} (core : Nat) (w : BitVec 32) (err : Nat) (s : State) (h : r.Keeps s) :
    KeepsOut r (execVcoreBaseInstruction core w err s) := by
  unfold execVcoreBaseInstruction
  with_reducible
    repeat' first
      | assumption | apply keeps_next | apply State.fetchErr_keeps | apply State.vissue_keeps | apply State.vbase_keeps
      | (intro x; refine (have hx : State.Keeps r x := ?_; ?_); unfold x; rotate_left; clear_value x; rotate_left) | (intro x; clear_value x)
      | intro x | split | lift_lets | dsimp only

theorem execVcoreTrap_keeps {r : State} (core : Nat) (s : State) (h : r.Keeps s) :
    KeepsOut r (execVcoreTrap core s) := by
  unfold execVcoreTrap
  with_reducible
    repeat' first
      | assumption | apply keeps_next | apply State.takeTrap_keeps
      | (intro x; refine (have hx : State.Keeps r x := ?_; ?_); unfold x; rotate_left; clear_value x; rotate_left) | (intro x; clear_value x)
      | intro x | split | lift_lets | dsimp only

theorem execVcoreInterrupt_keeps {r : State} (core : Nat) (s : State) (h : r.Keeps s) :
    KeepsOut r (execVcoreInterrupt core s) := by
  unfold execVcoreInterrupt
  with_reducible
    repeat' first
      | assumption | apply keeps_next | apply State.withdrawWaits_keeps | apply State.takeTrap_keeps | apply State.setVcore_keeps
      | simp -zeta -zetaUnused -zetaHave -proj only [keeps_mk] | apply keeps_core
      | (intro x; refine (have hx : State.Keeps r x := ?_; ?_); unfold x; rotate_left; clear_value x; rotate_left) | (intro x; clear_value x)
      | intro x | split | lift_lets | dsimp only

/-! Machine/VCsr.lean -/

theorem State.csrWrite_keeps {r : State} (s : State) (core : Nat) (n : Nat) (x : Nat) (h : r.Keeps s) :
    r.Keeps (State.csrWrite s core n x) := by
  unfold State.csrWrite
  with_reducible
    repeat' first
      | assumption | apply State.setVcore_keeps | apply State.setVctr_keeps
      | (intro x; refine (have hx : State.Keeps r x := ?_; ?_); unfold x; rotate_left; clear_value x; rotate_left) | (intro x; clear_value x)
      | intro x | split | lift_lets | dsimp only

theorem State.vitemEnds_keeps {r : State} (s : State) (core : Nat) (h : r.Keeps s) :
    r.Keeps (State.vitemEnds s core) := by
  unfold State.vitemEnds
  with_reducible
    repeat' first
      | assumption | apply State.setFlag_keeps | apply State.setVcore_keeps | apply State.pumpRestores_keeps | apply State.itemDone_keeps
      | (intro x; refine (have hx : State.Keeps r x := ?_; ?_); unfold x; rotate_left; clear_value x; rotate_left) | (intro x; clear_value x)
      | intro x | lift_lets | dsimp only

theorem State.xslItem_keeps {r : State} (s : State) (core : Nat) (w : BitVec 32) (v : VCore) (x : Nat) (h : r.Keeps s) :
    r.Keeps (State.xslItem s core w v x) := by
  unfold State.xslItem
  with_reducible
    repeat' first
      | assumption | apply State.vfault_keeps | apply State.vitemEnds_keeps | apply State.vretire_keeps | apply State.setVcore_keeps | split
      | dsimp only

theorem State.csrInstr_keeps {r : State} (s : State) (core : Nat) (w : BitVec 32) (x : Nat) (h : r.Keeps s) :
    r.Keeps (State.csrInstr s core w x) := by
  unfold State.csrInstr
  with_reducible
    repeat' first
      | assumption | apply State.villegal_keeps | apply State.vretire_keeps | apply State.setVcore_keeps | apply State.xslItem_keeps
      | apply State.csrWrite_keeps | (intro x; refine (have hx : State.Keeps r x := ?_; ?_); unfold x; rotate_left; clear_value x; rotate_left)
      | (intro x; clear_value x) | intro x | split | lift_lets | dsimp only

theorem execVcoreCsrAccess_keeps {r : State} (core : Nat) (w : BitVec 32) (s : State) (h : r.Keeps s) :
    KeepsOut r (execVcoreCsrAccess core w s) := by
  unfold execVcoreCsrAccess
  with_reducible
    repeat' first
      | assumption | apply keeps_next | apply State.vissue_keeps | apply State.csrInstr_keeps | intro x | split | dsimp only

theorem execXslitemDone_keeps {r : State} (core : Nat) (w : BitVec 32) (s : State) (h : r.Keeps s) :
    KeepsOut r (execXslitemDone core w s) := by
  unfold execXslitemDone
  with_reducible
    repeat' first
      | assumption | apply keeps_next | apply State.vissue_keeps | apply State.csrInstr_keeps
      | (intro x; refine (have hx : State.Keeps r x := ?_; ?_); unfold x; rotate_left; clear_value x; rotate_left) | (intro x; clear_value x)
      | intro x | split | lift_lets | dsimp only

theorem execXslitemAbort_keeps {r : State} (core : Nat) (w : BitVec 32) (s : State) (h : r.Keeps s) :
    KeepsOut r (execXslitemAbort core w s) := by
  unfold execXslitemAbort
  with_reducible
    repeat' first
      | assumption | apply keeps_next | apply State.vissue_keeps | apply State.csrInstr_keeps
      | (intro x; refine (have hx : State.Keeps r x := ?_; ?_); unfold x; rotate_left; clear_value x; rotate_left) | (intro x; clear_value x)
      | intro x | split | lift_lets | dsimp only

/-! Machine/VVec.lean -/

theorem State.xaEnd_keeps {r : State} (s : State) (core : Nat) (w : BitVec 32) (cycles : Nat) (h : r.Keeps s) :
    r.Keeps (State.xaEnd s core w cycles) := by
  unfold State.xaEnd
  with_reducible
    repeat' first
      | assumption | apply State.vretire_keeps | apply State.addVctr_keeps | apply State.bumpN_keeps | dsimp only

theorem State.xaOp_keeps {r : State} (s : State) (core : Nat) (w : BitVec 32) (op : Nat) (fp : Bool) (int : Bool) (cycles : VCore → Nat) (f : Bool → VCore → Nat → Option VCore) (h : r.Keeps s) :
    r.Keeps (State.xaOp s core w op fp int cycles f) := by
  unfold State.xaOp
  with_reducible
    repeat' first
      | assumption | apply State.vissue_keeps | apply State.xaEnd_keeps | apply State.setVcore_keeps | apply State.villegal_keeps
      | (intro x; refine (have hx : State.Keeps r x := ?_; ?_); unfold x; rotate_left; clear_value x; rotate_left) | (intro x; clear_value x)
      | intro x | split | lift_lets | dsimp only

theorem State.xaEach_keeps {r : State} (s : State) (core : Nat) (w : BitVec 32) (op : Nat) (fp : Bool) (int : Bool) (cycles : VCore → Nat) (fF : FFmt → FMode → Nat → Nat → Nat → FRes) (fI : Nat → Bool → Nat → Nat → Nat → Nat) (h : r.Keeps s) :
    r.Keeps (State.xaEach s core w op fp int cycles fF fI) := by
  unfold State.xaEach
  with_reducible
    repeat' first
      | assumption | apply State.xaOp_keeps | dsimp only

theorem execVadd_keeps {r : State} (core : Nat) (w : BitVec 32) (s : State) (h : r.Keeps s) :
    KeepsOut r (execVadd core w s) := by
  unfold execVadd
  with_reducible
    repeat' first
      | assumption | apply keeps_next | apply State.xaEach_keeps | dsimp only

theorem execVsub_keeps {r : State} (core : Nat) (w : BitVec 32) (s : State) (h : r.Keeps s) :
    KeepsOut r (execVsub core w s) := by
  unfold execVsub
  with_reducible
    repeat' first
      | assumption | apply keeps_next | apply State.xaEach_keeps | dsimp only

theorem execVmul_keeps {r : State} (core : Nat) (w : BitVec 32) (s : State) (h : r.Keeps s) :
    KeepsOut r (execVmul core w s) := by
  unfold execVmul
  with_reducible
    repeat' first
      | assumption | apply keeps_next | apply State.xaEach_keeps | dsimp only

theorem execVfma_keeps {r : State} (core : Nat) (w : BitVec 32) (s : State) (h : r.Keeps s) :
    KeepsOut r (execVfma core w s) := by
  unfold execVfma
  with_reducible
    repeat' first
      | assumption | apply keeps_next | apply State.xaEach_keeps | dsimp only

theorem execVfnms_keeps {r : State} (core : Nat) (w : BitVec 32) (s : State) (h : r.Keeps s) :
    KeepsOut r (execVfnms core w s) := by
  unfold execVfnms
  with_reducible
    repeat' first
      | assumption | apply keeps_next | apply State.xaEach_keeps | split | dsimp only

theorem execVdiv_keeps {r : State} (core : Nat) (w : BitVec 32) (s : State) (h : r.Keeps s) :
    KeepsOut r (execVdiv core w s) := by
  unfold execVdiv
  with_reducible
    repeat' first
      | assumption | apply keeps_next | apply State.xaEach_keeps | dsimp only

theorem execVsqrt_keeps {r : State} (core : Nat) (w : BitVec 32) (s : State) (h : r.Keeps s) :
    KeepsOut r (execVsqrt core w s) := by
  unfold execVsqrt
  with_reducible
    repeat' first
      | assumption | apply keeps_next | apply State.xaOp_keeps | split | dsimp only

theorem execVmin_keeps {r : State} (core : Nat) (w : BitVec 32) (s : State) (h : r.Keeps s) :
    KeepsOut r (execVmin core w s) := by
  unfold execVmin
  with_reducible
    repeat' first
      | assumption | apply keeps_next | apply State.xaEach_keeps | split | dsimp only

theorem execVmax_keeps {r : State} (core : Nat) (w : BitVec 32) (s : State) (h : r.Keeps s) :
    KeepsOut r (execVmax core w s) := by
  unfold execVmax
  with_reducible
    repeat' first
      | assumption | apply keeps_next | apply State.xaEach_keeps | split | dsimp only

theorem execVand_keeps {r : State} (core : Nat) (w : BitVec 32) (s : State) (h : r.Keeps s) :
    KeepsOut r (execVand core w s) := by
  unfold execVand
  with_reducible
    repeat' first
      | assumption | apply keeps_next | apply State.xaEach_keeps | dsimp only

theorem execVor_keeps {r : State} (core : Nat) (w : BitVec 32) (s : State) (h : r.Keeps s) :
    KeepsOut r (execVor core w s) := by
  unfold execVor
  with_reducible
    repeat' first
      | assumption | apply keeps_next | apply State.xaEach_keeps | dsimp only

theorem execVxor_keeps {r : State} (core : Nat) (w : BitVec 32) (s : State) (h : r.Keeps s) :
    KeepsOut r (execVxor core w s) := by
  unfold execVxor
  with_reducible
    repeat' first
      | assumption | apply keeps_next | apply State.xaEach_keeps | dsimp only

theorem execVsll_keeps {r : State} (core : Nat) (w : BitVec 32) (s : State) (h : r.Keeps s) :
    KeepsOut r (execVsll core w s) := by
  unfold execVsll
  with_reducible
    repeat' first
      | assumption | apply keeps_next | apply State.xaEach_keeps | dsimp only

theorem execVsrl_keeps {r : State} (core : Nat) (w : BitVec 32) (s : State) (h : r.Keeps s) :
    KeepsOut r (execVsrl core w s) := by
  unfold execVsrl
  with_reducible
    repeat' first
      | assumption | apply keeps_next | apply State.xaEach_keeps | dsimp only

theorem execVsra_keeps {r : State} (core : Nat) (w : BitVec 32) (s : State) (h : r.Keeps s) :
    KeepsOut r (execVsra core w s) := by
  unfold execVsra
  with_reducible
    repeat' first
      | assumption | apply keeps_next | apply State.xaEach_keeps | dsimp only

theorem execVmerge_keeps {r : State} (core : Nat) (w : BitVec 32) (s : State) (h : r.Keeps s) :
    KeepsOut r (execVmerge core w s) := by
  unfold execVmerge
  with_reducible
    repeat' first
      | assumption | apply keeps_next | apply State.xaOp_keeps
      | (intro x; refine (have hx : State.Keeps r x := ?_; ?_); unfold x; rotate_left; clear_value x; rotate_left) | (intro x; clear_value x)
      | intro x | split | lift_lets | dsimp only

theorem State.xaCmp_keeps {r : State} (s : State) (core : Nat) (w : BitVec 32) (op : Nat) (fop : Nat) (fI : Nat → Bool → Nat → Nat → Bool) (h : r.Keeps s) :
    r.Keeps (State.xaCmp s core w op fop fI) := by
  unfold State.xaCmp
  with_reducible
    repeat' first
      | assumption | apply State.xaOp_keeps | simp -zeta -zetaUnused -zetaHave -proj only [keeps_mk_fst] | apply keeps_foldl | apply keeps_foldl_fst
      | apply keeps_foldl_snd | (intro x; refine (have hx : State.Keeps r x := ?_; ?_); unfold x; rotate_left; clear_value x; rotate_left)
      | (intro x; clear_value x) | intro x | split | lift_lets | dsimp only

theorem execVcmpeq_keeps {r : State} (core : Nat) (w : BitVec 32) (s : State) (h : r.Keeps s) :
    KeepsOut r (execVcmpeq core w s) := by
  unfold execVcmpeq
  with_reducible
    repeat' first
      | assumption | apply keeps_next | apply State.xaCmp_keeps | dsimp only

theorem execVcmplt_keeps {r : State} (core : Nat) (w : BitVec 32) (s : State) (h : r.Keeps s) :
    KeepsOut r (execVcmplt core w s) := by
  unfold execVcmplt
  with_reducible
    repeat' first
      | assumption | apply keeps_next | apply State.xaCmp_keeps | dsimp only

theorem execVcmple_keeps {r : State} (core : Nat) (w : BitVec 32) (s : State) (h : r.Keeps s) :
    KeepsOut r (execVcmple core w s) := by
  unfold execVcmple
  with_reducible
    repeat' first
      | assumption | apply keeps_next | apply State.xaCmp_keeps | dsimp only

theorem execVmv_keeps {r : State} (core : Nat) (w : BitVec 32) (s : State) (h : r.Keeps s) :
    KeepsOut r (execVmv core w s) := by
  unfold execVmv
  with_reducible
    repeat' first
      | assumption | apply keeps_next | apply State.xaOp_keeps | dsimp only

theorem State.xaRed_keeps {r : State} (s : State) (core : Nat) (w : BitVec 32) (op : Nat) (cycles : VCore → Nat) (fF : FFmt → FMode → Nat → Nat → FRes) (fI : Nat → Bool → Nat → Nat → Nat) (g : (Nat → Nat → FRes) → Nat → List Nat → FRes) (h : r.Keeps s) :
    r.Keeps (State.xaRed s core w op cycles fF fI g) := by
  unfold State.xaRed
  with_reducible
    repeat' first
      | assumption | apply State.xaOp_keeps
      | (intro x; refine (have hx : State.Keeps r x := ?_; ?_); unfold x; rotate_left; clear_value x; rotate_left) | (intro x; clear_value x)
      | intro x | split | lift_lets | dsimp only

theorem execVredosum_keeps {r : State} (core : Nat) (w : BitVec 32) (s : State) (h : r.Keeps s) :
    KeepsOut r (execVredosum core w s) := by
  unfold execVredosum
  with_reducible
    repeat' first
      | assumption | apply keeps_next | apply State.xaRed_keeps | dsimp only

theorem execVredtsum_keeps {r : State} (core : Nat) (w : BitVec 32) (s : State) (h : r.Keeps s) :
    KeepsOut r (execVredtsum core w s) := by
  unfold execVredtsum
  with_reducible
    repeat' first
      | assumption | apply keeps_next | apply State.xaRed_keeps | simp -zeta -zetaUnused -zetaHave -proj only [keeps_mk] | apply keeps_core
      | (intro x; refine (have hx : State.Keeps r x := ?_; ?_); unfold x; rotate_left; clear_value x; rotate_left) | (intro x; clear_value x)
      | intro x | lift_lets | dsimp only

theorem execVredmax_keeps {r : State} (core : Nat) (w : BitVec 32) (s : State) (h : r.Keeps s) :
    KeepsOut r (execVredmax core w s) := by
  unfold execVredmax
  with_reducible
    repeat' first
      | assumption | apply keeps_next | apply State.xaRed_keeps | split | dsimp only

theorem execVredmin_keeps {r : State} (core : Nat) (w : BitVec 32) (s : State) (h : r.Keeps s) :
    KeepsOut r (execVredmin core w s) := by
  unfold execVredmin
  with_reducible
    repeat' first
      | assumption | apply keeps_next | apply State.xaRed_keeps | split | dsimp only

theorem execVslide_keeps {r : State} (core : Nat) (w : BitVec 32) (s : State) (h : r.Keeps s) :
    KeepsOut r (execVslide core w s) := by
  unfold execVslide
  with_reducible
    repeat' first
      | assumption | apply keeps_next | apply State.xaOp_keeps
      | (intro x; refine (have hx : State.Keeps r x := ?_; ?_); unfold x; rotate_left; clear_value x; rotate_left) | (intro x; clear_value x)
      | intro x | split | lift_lets | dsimp only

theorem execVcvt_keeps {r : State} (core : Nat) (w : BitVec 32) (s : State) (h : r.Keeps s) :
    KeepsOut r (execVcvt core w s) := by
  unfold execVcvt
  with_reducible
    repeat' first
      | assumption | apply keeps_next | apply State.xaOp_keeps
      | (intro x; refine (have hx : State.Keeps r x := ?_; ?_); unfold x; rotate_left; clear_value x; rotate_left) | (intro x; clear_value x)
      | intro x | split | lift_lets | dsimp only

theorem execVpopc_keeps {r : State} (core : Nat) (w : BitVec 32) (s : State) (h : r.Keeps s) :
    KeepsOut r (execVpopc core w s) := by
  unfold execVpopc
  with_reducible
    repeat' first
      | assumption | apply keeps_next | apply State.xaOp_keeps | dsimp only

theorem execVfirst_keeps {r : State} (core : Nat) (w : BitVec 32) (s : State) (h : r.Keeps s) :
    KeepsOut r (execVfirst core w s) := by
  unfold execVfirst
  with_reducible
    repeat' first
      | assumption | apply keeps_next | apply State.xaOp_keeps
      | (intro x; refine (have hx : State.Keeps r x := ?_; ?_); unfold x; rotate_left; clear_value x; rotate_left) | (intro x; clear_value x)
      | intro x | split | lift_lets | dsimp only

/-! Machine/VMat.lean -/

theorem State.xmInstr_keeps {r : State} (s : State) (core : Nat) (w : BitVec 32) (op : Nat) (cycles : VCore → Nat → Nat) (f : Bool → VCore → Nat → Option VCore) (h : r.Keeps s) :
    r.Keeps (State.xmInstr s core w op cycles f) := by
  unfold State.xmInstr
  with_reducible
    repeat' first
      | assumption | apply State.vissue_keeps | apply State.vretire_keeps | apply State.addVctr_keeps | apply State.bumpN_keeps
      | apply State.setVcore_keeps | apply State.villegal_keeps
      | (intro x; refine (have hx : State.Keeps r x := ?_; ?_); unfold x; rotate_left; clear_value x; rotate_left) | (intro x; clear_value x)
      | intro x | split | lift_lets | dsimp only

theorem execXmop_keeps {r : State} (core : Nat) (w : BitVec 32) (s : State) (h : r.Keeps s) :
    KeepsOut r (execXmop core w s) := by
  unfold execXmop
  with_reducible
    repeat' first
      | assumption | apply keeps_next | apply State.xmInstr_keeps | simp -zeta -zetaUnused -zetaHave -proj only [keeps_mk_fst] | apply keeps_foldl
      | apply keeps_foldl_fst | apply keeps_foldl_snd
      | (intro x; refine (have hx : State.Keeps r x := ?_; ?_); unfold x; rotate_left; clear_value x; rotate_left) | (intro x; clear_value x)
      | intro x | split | lift_lets | dsimp only

theorem execXmzero_keeps {r : State} (core : Nat) (w : BitVec 32) (s : State) (h : r.Keeps s) :
    KeepsOut r (execXmzero core w s) := by
  unfold execXmzero
  with_reducible
    repeat' first
      | assumption | apply keeps_next | apply State.xmInstr_keeps | simp -zeta -zetaUnused -zetaHave -proj only [keeps_mk_fst] | apply keeps_foldl
      | apply keeps_foldl_fst | apply keeps_foldl_snd | intro x | split | dsimp only

theorem execXmrd_keeps {r : State} (core : Nat) (w : BitVec 32) (s : State) (h : r.Keeps s) :
    KeepsOut r (execXmrd core w s) := by
  unfold execXmrd
  with_reducible
    repeat' first
      | assumption | apply keeps_next | apply State.xmInstr_keeps | split | dsimp only

theorem execXmwr_keeps {r : State} (core : Nat) (w : BitVec 32) (s : State) (h : r.Keeps s) :
    KeepsOut r (execXmwr core w s) := by
  unfold execXmwr
  with_reducible
    repeat' first
      | assumption | apply keeps_next | apply State.xmInstr_keeps | simp -zeta -zetaUnused -zetaHave -proj only [keeps_mk_fst] | apply keeps_foldl
      | apply keeps_foldl_fst | apply keeps_foldl_snd | intro x | split | dsimp only

/-! Machine/VSys.lean -/

theorem execVcoreItemStart_keeps {r : State} (unit : Nat) (item : Nat) (s : State) (h : r.Keeps s) :
    KeepsOut r (execVcoreItemStart unit item s) := by
  unfold execVcoreItemStart
  with_reducible
    repeat' first
      | assumption | apply keeps_next | apply State.itemIssued_keeps | apply State.setFld_keeps | apply State.setFlag_keeps
      | apply State.setVcore_keeps | (intro x; refine (have hx : State.Keeps r x := ?_; ?_); unfold x; rotate_left; clear_value x; rotate_left)
      | (intro x; clear_value x) | intro x | split | lift_lets | dsimp only

theorem State.stopVcore_keeps {r : State} (s : State) (core : Nat) (h : r.Keeps s) :
    r.Keeps (State.stopVcore s core) := by
  unfold State.stopVcore
  with_reducible
    repeat' first
      | assumption | apply State.withdrawWaits_keeps | apply State.setVcore_keeps | simp -zeta -zetaUnused -zetaHave -proj only [keeps_mk]
      | apply keeps_core | (intro x; refine (have hx : State.Keeps r x := ?_; ?_); unfold x; rotate_left; clear_value x; rotate_left)
      | (intro x; clear_value x) | intro x | split | lift_lets | dsimp only

theorem execVPreempt_keeps {r : State} (core : Nat) (s : State) (h : r.Keeps s) :
    KeepsOut r (execVPreempt core s) := by
  unfold execVPreempt
  with_reducible
    repeat' first
      | assumption | apply keeps_next | apply State.setFlag_keeps | apply State.syncClock_keeps | apply State.stopVcore_keeps
      | simp -zeta -zetaUnused -zetaHave -proj only [keeps_mk] | apply keeps_core
      | (intro x; refine (have hx : State.Keeps r x := ?_; ?_); unfold x; rotate_left; clear_value x; rotate_left) | (intro x; clear_value x)
      | intro x | split | lift_lets | dsimp only

theorem State.vSaveFail_keeps {r : State} (s : State) (core : Nat) (unit : Nat) (p : Nat) (dir : Nat) (h : r.Keeps s) :
    r.Keeps (State.vSaveFail s core unit p dir) := by
  unfold State.vSaveFail
  with_reducible
    repeat' first
      | assumption | apply State.terminate_keeps | apply State.setFlag_keeps | apply State.bump_keeps | dsimp only

theorem State.vSaveImage_keeps {r : State} (s : State) (v : VCore) (h : r.Keeps s) :
    KeepsSnd r (State.vSaveImage s v) := by
  unfold State.vSaveImage
  with_reducible
    repeat' first
      | assumption | apply State.freeBytes_keeps | refine (State.freeBytes_keeps _ _ ?_).out
      | simp -zeta -zetaUnused -zetaHave -proj only [keeps_mk_snd]
      | (intro x; refine (have hx : State.Keeps r x := ?_; ?_); unfold x; rotate_left; clear_value x; rotate_left) | (intro x; clear_value x)
      | intro x | split | refine keeps_snd (by assumption) ?_ | lift_lets | dsimp only

theorem execVSaveDone_keeps {r : State} (core : Nat) (s : State) (h : r.Keeps s) :
    KeepsOut r (execVSaveDone core s) := by
  unfold execVSaveDone
  with_reducible
    repeat' first
      | assumption | apply keeps_next | apply State.vSaveFail_keeps | apply State.vSaveImage_keeps | apply State.putParts_keeps
      | apply State.setVcore_keeps | apply State.setFld_keeps | apply State.setFlag_keeps | apply State.pumpRestores_keeps
      | apply State.noteSlot_keeps | refine (State.vSaveImage_keeps _ _ ?_).out | simp -zeta -zetaUnused -zetaHave -proj only [keeps_mk]
      | apply keeps_core | (intro x; refine (have hx : State.Keeps r x := ?_; ?_); unfold x; rotate_left; clear_value x; rotate_left)
      | (intro x; clear_value x) | intro x | split | refine keeps_snd (by assumption) ?_ | lift_lets | dsimp only

theorem execVRestoreDone_keeps {r : State} (core : Nat) (ext : List Byte) (poison : Bool) (s : State) (h : r.Keeps s) :
    KeepsOut r (execVRestoreDone core ext poison s) := by
  unfold execVRestoreDone
  with_reducible
    repeat' first
      | assumption | apply keeps_next | apply State.vSaveFail_keeps | apply State.getRuns_keeps | apply State.setFld_keeps
      | apply State.setVcore_keeps | apply State.syncClock_keeps | apply State.setFlag_keeps | apply State.noteSlot_keeps
      | refine (State.getRuns_keeps _ _ _ _ _ ?_).out | simp -zeta -zetaUnused -zetaHave -proj only [keeps_mk] | apply keeps_core
      | (intro x; refine (have hx : State.Keeps r x := ?_; ?_); unfold x; rotate_left; clear_value x; rotate_left) | (intro x; clear_value x)
      | intro x | split | refine keeps_fst (by assumption) ?_ | lift_lets | dsimp only

theorem execVcoreFence_keeps {r : State} (core : Nat) (w : BitVec 32) (s : State) (h : r.Keeps s) :
    KeepsOut r (execVcoreFence core w s) := by
  unfold execVcoreFence
  with_reducible
    repeat' first
      | assumption | apply keeps_next | apply State.vissue_keeps | apply State.villegal_keeps | apply State.vretire_keeps
      | (intro x; refine (have hx : State.Keeps r x := ?_; ?_); unfold x; rotate_left; clear_value x; rotate_left) | (intro x; clear_value x)
      | intro x | split | lift_lets | dsimp only

theorem execFenceI_keeps {r : State} (core : Nat) (w : BitVec 32) (s : State) (h : r.Keeps s) :
    KeepsOut r (execFenceI core w s) := by
  unfold execFenceI
  with_reducible
    repeat' first
      | assumption | apply keeps_next | apply State.vissue_keeps | apply State.vretire_keeps | apply State.flushL1i_keeps | intro x | split
      | dsimp only

theorem State.sfence_keeps {r : State} (s : State) (core : Nat) (asid : Option Nat) (va : Option Nat) (h : r.Keeps s) :
    r.Keeps (State.sfence s core asid va) := by
  unfold State.sfence
  with_reducible
    repeat' first
      | assumption | apply State.setRcache_keeps
      | (intro x; refine (have hx : State.Keeps r x := ?_; ?_); unfold x; rotate_left; clear_value x; rotate_left) | (intro x; clear_value x)
      | intro x | split | lift_lets | dsimp only

theorem execSfenceVma_keeps {r : State} (core : Nat) (w : BitVec 32) (s : State) (h : r.Keeps s) :
    KeepsOut r (execSfenceVma core w s) := by
  unfold execSfenceVma
  with_reducible
    repeat' first
      | assumption | apply keeps_next | apply State.vissue_keeps | apply State.villegal_keeps | apply State.vretire_keeps | apply State.sfence_keeps
      | (intro x; refine (have hx : State.Keeps r x := ?_; ?_); unfold x; rotate_left; clear_value x; rotate_left) | (intro x; clear_value x)
      | intro x | split | lift_lets | dsimp only

theorem State.vtmb_keeps {r : State} (s : State) (core : Nat) (w : BitVec 32) (op : Nat) (f : State → Nat → TmbReq → State) (h : r.Keeps s) (hf : ∀ y0 y1 y2, r.Keeps y0 → r.Keeps (f y0 y1 y2)) :
    r.Keeps (State.vtmb s core w op f) := by
  unfold State.vtmb
  with_reducible
    repeat' first
      | assumption | apply hf | apply State.vissue_keeps | apply State.villegal_keeps | apply State.vfault_keeps
      | (intro x; refine (have hx : State.Keeps r x := ?_; ?_); unfold x; rotate_left; clear_value x; rotate_left) | (intro x; clear_value x)
      | intro x | split | lift_lets | dsimp only

theorem State.vtmbSend_keeps {r : State} (s : State) (core : Nat) (w : BitVec 32) (r3 : TmbReq) (h : r.Keeps s) :
    r.Keeps (State.vtmbSend s core w r3) := by
  unfold State.vtmbSend
  with_reducible
    repeat' first
      | assumption | apply State.vretire_keeps | apply State.sendTmb_keeps | apply State.setVcore_keeps
      | simp -zeta -zetaUnused -zetaHave -proj only [keeps_mk] | apply keeps_core
      | (intro x; refine (have hx : State.Keeps r x := ?_; ?_); unfold x; rotate_left; clear_value x; rotate_left) | (intro x; clear_value x)
      | intro x | lift_lets | dsimp only

theorem execTarv_keeps {r : State} (core : Nat) (w : BitVec 32) (s : State) (h : r.Keeps s) :
    KeepsOut r (execTarv core w s) := by
  unfold execTarv
  with_reducible
    repeat' first
      | assumption | apply keeps_next | apply State.vtmb_keeps | apply State.vtmbSend_keeps | intro x | dsimp only

theorem execTpoll_keeps {r : State} (core : Nat) (w : BitVec 32) (s : State) (h : r.Keeps s) :
    KeepsOut r (execTpoll core w s) := by
  unfold execTpoll
  with_reducible
    repeat' first
      | assumption | apply keeps_next | apply State.vtmb_keeps | apply State.vtmbSend_keeps | simp -zeta -zetaUnused -zetaHave -proj only [keeps_mk]
      | apply keeps_core | (intro x; refine (have hx : State.Keeps r x := ?_; ?_); unfold x; rotate_left; clear_value x; rotate_left)
      | (intro x; clear_value x) | intro x | lift_lets | dsimp only

theorem execTwait_keeps {r : State} (core : Nat) (w : BitVec 32) (s : State) (h : r.Keeps s) :
    KeepsOut r (execTwait core w s) := by
  unfold execTwait
  with_reducible
    repeat' first
      | assumption | apply keeps_next | apply State.vtmb_keeps | apply State.sendTmb_keeps | apply State.setVcore_keeps
      | simp -zeta -zetaUnused -zetaHave -proj only [keeps_mk] | apply keeps_core
      | (intro x; refine (have hx : State.Keeps r x := ?_; ?_); unfold x; rotate_left; clear_value x; rotate_left) | (intro x; clear_value x)
      | intro x | split | lift_lets | dsimp only

theorem execTtake_keeps {r : State} (core : Nat) (w : BitVec 32) (s : State) (h : r.Keeps s) :
    KeepsOut r (execTtake core w s) := by
  unfold execTtake
  with_reducible
    repeat' first
      | assumption | apply keeps_next | apply State.vtmb_keeps | apply State.vtmbSend_keeps | simp -zeta -zetaUnused -zetaHave -proj only [keeps_mk]
      | apply keeps_core | (intro x; refine (have hx : State.Keeps r x := ?_; ?_); unfold x; rotate_left; clear_value x; rotate_left)
      | (intro x; clear_value x) | intro x | lift_lets | dsimp only

theorem execTput_keeps {r : State} (core : Nat) (w : BitVec 32) (s : State) (h : r.Keeps s) :
    KeepsOut r (execTput core w s) := by
  unfold execTput
  with_reducible
    repeat' first
      | assumption | apply keeps_next | apply State.vtmb_keeps | apply State.vtmbSend_keeps | simp -zeta -zetaUnused -zetaHave -proj only [keeps_mk]
      | apply keeps_core | (intro x; refine (have hx : State.Keeps r x := ?_; ?_); unfold x; rotate_left; clear_value x; rotate_left)
      | (intro x; clear_value x) | intro x | lift_lets | dsimp only

/-! Machine/VMem.lean -/

theorem State.vprefetch_keeps {r : State} (s : State) (core : Nat) (va : Nat) (h : r.Keeps s) :
    r.Keeps (State.vprefetch s core va) := by
  unfold State.vprefetch
  with_reducible
    repeat' first
      | assumption | apply State.sendDir_keeps | apply State.addVctr_keeps
      | (intro x; refine (have hx : State.Keeps r x := ?_; ?_); unfold x; rotate_left; clear_value x; rotate_left) | (intro x; clear_value x)
      | intro x | split | lift_lets | dsimp only

theorem State.nextLine_keeps {r : State} (s : State) (core : Nat) (va : Nat) (h : r.Keeps s) :
    r.Keeps (State.nextLine s core va) := by
  unfold State.nextLine
  with_reducible
    repeat' first
      | assumption | apply State.vprefetch_keeps
      | (intro x; refine (have hx : State.Keeps r x := ?_; ?_); unfold x; rotate_left; clear_value x; rotate_left) | (intro x; clear_value x)
      | intro x | split | lift_lets | dsimp only

theorem State.strides_keeps {r : State} (s : State) (core : Nat) (va : Nat) (h : r.Keeps s) :
    r.Keeps (State.strides s core va) := by
  unfold State.strides
  with_reducible
    repeat' first
      | assumption | apply State.vprefetch_keeps | simp -zeta -zetaUnused -zetaHave -proj only [keeps_mk, keeps_mk_fst] | apply keeps_core
      | apply keeps_foldl | apply keeps_foldl_fst | apply keeps_foldl_snd
      | (intro x; refine (have hx : State.Keeps r x := ?_; ?_); unfold x; rotate_left; clear_value x; rotate_left) | (intro x; clear_value x)
      | intro x | split | lift_lets | dsimp only

theorem State.l1Miss_keeps {r : State} (s : State) (core : Nat) (va : Nat) (h : r.Keeps s) :
    r.Keeps (State.l1Miss s core va) := by
  unfold State.l1Miss
  with_reducible
    repeat' first
      | assumption | apply State.setVcore_keeps | apply State.addVctr_keeps | apply State.bump_keeps | apply State.strides_keeps
      | apply State.nextLine_keeps | simp -zeta -zetaUnused -zetaHave -proj only [keeps_mk] | apply keeps_core
      | (intro x; refine (have hx : State.Keeps r x := ?_; ?_); unfold x; rotate_left; clear_value x; rotate_left) | (intro x; clear_value x)
      | intro x | split | lift_lets | dsimp only

theorem State.withLines_keeps {r : State} (s : State) (core : Nat) (ctx : Nat) (va : Nat) (len : Nat) (wr : Bool) (use : State → Nat → Nat → State) (miss : State → Nat → Nat → State) (h : r.Keeps s) (huse : ∀ y0 y1 y2, r.Keeps y0 → r.Keeps (use y0 y1 y2)) (hmiss : ∀ y0 y1 y2, r.Keeps y0 → r.Keeps (miss y0 y1 y2)) :
    KeepsFst r (State.withLines s core ctx va len wr use miss) := by
  unfold State.withLines
  with_reducible
    repeat' first
      | assumption | apply huse | apply hmiss | apply State.l2Ask_keeps | simp -zeta -zetaUnused -zetaHave -proj only [keeps_mk_fst]
      | apply keeps_foldl | apply keeps_foldl_fst | apply keeps_foldl_snd
      | (intro x; refine (have hx : State.Keeps r x := ?_; ?_); unfold x; rotate_left; clear_value x; rotate_left) | (intro x; clear_value x)
      | intro x | split | lift_lets | dsimp only

theorem State.l1Use_keeps {r : State} (s : State) (core : Nat) (id : Nat) (va : Nat) (h : r.Keeps s) :
    r.Keeps (State.l1Use s core id va) := by
  unfold State.l1Use
  with_reducible
    repeat' first
      | assumption | apply State.nextUse_keeps | apply State.setL1d_keeps | apply State.fillL1d_keeps | apply State.l2Used_keeps
      | apply State.l1Miss_keeps | refine (State.nextUse_keeps _ ?_).out | simp -zeta -zetaUnused -zetaHave -proj only [keeps_mk] | apply keeps_core
      | (intro x; refine (have hx : State.Keeps r x := ?_; ?_); unfold x; rotate_left; clear_value x; rotate_left) | (intro x; clear_value x)
      | intro x | split | refine keeps_snd (by assumption) ?_ | lift_lets | dsimp only

theorem State.vlines_keeps {r : State} (s : State) (core : Nat) (ctx : Nat) (va : Nat) (len : Nat) (wr : Bool) (h : r.Keeps s) :
    KeepsFst r (State.vlines s core ctx va len wr) := by
  unfold State.vlines
  with_reducible
    repeat' first
      | assumption | apply State.withLines_keeps | apply State.l1Use_keeps | apply State.l1Miss_keeps
      | refine (State.withLines_keeps _ _ _ _ _ _ _ _ ?_ ?_ ?_).out | simp -zeta -zetaUnused -zetaHave -proj only [keeps_mk_fst]
      | (intro x; refine (have hx : State.Keeps r x := ?_; ?_); unfold x; rotate_left; clear_value x; rotate_left) | (intro x; clear_value x)
      | intro x | split | refine keeps_fst (by assumption) ?_ | lift_lets | dsimp only

theorem State.l2Lines_keeps {r : State} (s : State) (core : Nat) (ctx : Nat) (va : Nat) (len : Nat) (wr : Bool) (h : r.Keeps s) :
    KeepsFst r (State.l2Lines s core ctx va len wr) := by
  unfold State.l2Lines
  with_reducible
    repeat' first
      | assumption | apply State.withLines_keeps | apply State.l2Claim_keeps | refine (State.withLines_keeps _ _ _ _ _ _ _ _ ?_ ?_ ?_).out
      | simp -zeta -zetaUnused -zetaHave -proj only [keeps_mk_fst]
      | (intro x; refine (have hx : State.Keeps r x := ?_; ?_); unfold x; rotate_left; clear_value x; rotate_left) | (intro x; clear_value x)
      | intro x | refine keeps_fst (by assumption) ?_ | lift_lets | dsimp only

theorem State.l1Write_keeps {r : State} (s : State) (core ctx va : Nat) (bs : List Byte) (h : r.Keeps s) :
    r.Keeps (State.l1Write s core ctx va bs) := by
  unfold State.l1Write
  dsimp only
  refine (keeps_foldl_fst (keeps_mk_fst.mpr h) ?_).out
  intro x b a hx
  dsimp only
  split
  · exact keeps_mk_fst.mpr (State.setL1d_keeps _ _ _ _ (State.setL2_keeps _ _ _ _ hx))
  · exact keeps_mk_fst.mpr hx

theorem State.vwrite_keeps {r : State} (s : State) (core ctx va : Nat) (bs : List Byte) (h : r.Keeps s) : r.Keeps (s.vwrite core ctx va bs) := by
  unfold State.vwrite
  refine (keeps_foldl_fst (keeps_mk_fst.mpr h) ?_).out
  intro x b a hx
  dsimp only
  split
  · exact ⟨State.setL2_keeps _ _ _ _ hx⟩
  · exact ⟨hx⟩

theorem State.vpoison_keeps {r : State} (s : State) (core : Nat) (va : Nat) (kind : Nat) (h : r.Keeps s) :
    r.Keeps (State.vpoison s core va kind) := by
  unfold State.vpoison
  with_reducible
    repeat' first
      | assumption | apply State.vfault_keeps | dsimp only

theorem State.vissueAcc_keeps {r : State} (s : State) (core : Nat) (w : BitVec 32) (x : Nat) (ctx : Nat) (kind : Nat) (va : Nat) (size : Nat) (aop : Nat) (ty : Nat) (data : List Byte) (h : r.Keeps s) :
    r.Keeps (State.vissueAcc s core w x ctx kind va size aop ty data) := by
  unfold State.vissueAcc
  with_reducible
    repeat' first
      | assumption | apply State.performLane_keeps | apply State.setAcc_keeps | simp -zeta -zetaUnused -zetaHave -proj only [keeps_mk]
      | apply keeps_core | (intro x; refine (have hx : State.Keeps r x := ?_; ?_); unfold x; rotate_left; clear_value x; rotate_left)
      | (intro x; clear_value x) | intro x | split | refine keeps_of_some_pair (by assumption) ?_ | refine keeps_of_some_pair' (by assumption) ?_
      | lift_lets | dsimp only

theorem State.vdevAccess_keeps {r : State} (s : State) (core : Nat) (w : BitVec 32) (x : Nat) (ctx : Nat) (o : VMemOp) (err : Nat) (h : r.Keeps s) :
    r.Keeps (State.vdevAccess s core w x ctx o err) := by
  unfold State.vdevAccess
  with_reducible
    repeat' first
      | assumption | apply State.vlines_keeps | apply State.cacheErr_keeps | apply State.vpoison_keeps | apply State.vretire_keeps
      | apply State.setVcore_keeps | apply State.l1Write_keeps | refine (State.vlines_keeps _ _ _ _ _ _ ?_).out
      | (intro x; refine (have hx : State.Keeps r x := ?_; ?_); unfold x; rotate_left; clear_value x; rotate_left) | (intro x; clear_value x)
      | intro x | split | refine keeps_fst (by assumption) ?_ | lift_lets | dsimp only

theorem State.vloadStore_keeps {r : State} (s : State) (core : Nat) (w : BitVec 32) (x : Nat) (err : Nat) (h : r.Keeps s) :
    r.Keeps (State.vloadStore s core w x err) := by
  unfold State.vloadStore
  with_reducible
    repeat' first
      | assumption | apply State.villegal_keeps | apply State.vlookRun_keeps | apply State.vaccFail_keeps | apply State.vdevAccess_keeps
      | apply State.vissueAcc_keeps | apply State.vretire_keeps | refine (State.vlookRun_keeps _ _ _ _ _ ?_).out
      | (intro x; refine (have hx : State.Keeps r x := ?_; ?_); unfold x; rotate_left; clear_value x; rotate_left) | (intro x; clear_value x)
      | intro x | split | refine keeps_fst (by assumption) ?_ | lift_lets | dsimp only

theorem execVcoreLoadStore_keeps {r : State} (core : Nat) (w : BitVec 32) (err : Nat) (s : State) (h : r.Keeps s) :
    KeepsOut r (execVcoreLoadStore core w err s) := by
  unfold execVcoreLoadStore
  with_reducible
    repeat' first
      | assumption | apply keeps_next | apply State.vissue_keeps | apply State.vloadStore_keeps
      | (intro x; refine (have hx : State.Keeps r x := ?_; ?_); unfold x; rotate_left; clear_value x; rotate_left) | (intro x; clear_value x)
      | intro x | split | lift_lets | dsimp only

theorem State.vatomic_keeps {r : State} (s : State) (core : Nat) (w : BitVec 32) (x : Nat) (access : Nat) (f : State → Xl → State) (h : r.Keeps s) (hf : ∀ y0 y1, r.Keeps y0 → r.Keeps (f y0 y1)) :
    r.Keeps (State.vatomic s core w x access f) := by
  unfold State.vatomic
  with_reducible
    repeat' first
      | assumption | apply hf | apply State.villegal_keeps | apply State.vaccFail_keeps | apply State.vlook_keeps
      | refine (State.vlook_keeps _ _ _ _ ?_).out
      | (intro x; refine (have hx : State.Keeps r x := ?_; ?_); unfold x; rotate_left; clear_value x; rotate_left) | (intro x; clear_value x)
      | intro x | split | refine keeps_fst (by assumption) ?_ | lift_lets | dsimp only

theorem State.l2Atomic_keeps {r : State} (s : State) (core : Nat) (ctx : Nat) (va : Nat) (len : Nat) (wr : Bool) (err : Nat) (f : State → State) (h : r.Keeps s) (hf : ∀ y0, r.Keeps y0 → r.Keeps (f y0)) :
    r.Keeps (State.l2Atomic s core ctx va len wr err f) := by
  unfold State.l2Atomic
  with_reducible
    repeat' first
      | assumption | apply hf | apply State.l2Lines_keeps | apply State.cacheErr_keeps | refine (State.l2Lines_keeps _ _ _ _ _ _ ?_).out
      | (intro x; refine (have hx : State.Keeps r x := ?_; ?_); unfold x; rotate_left; clear_value x; rotate_left) | (intro x; clear_value x)
      | intro x | split | refine keeps_fst (by assumption) ?_ | lift_lets | dsimp only

theorem State.vlr_keeps {r : State} (s : State) (core : Nat) (w : BitVec 32) (x : Nat) (err : Nat) (h : r.Keeps s) :
    r.Keeps (State.vlr s core w x err) := by
  unfold State.vlr
  with_reducible
    repeat' first
      | assumption | apply State.villegal_keeps | apply State.vatomic_keeps | apply State.l2Atomic_keeps | apply State.vpoison_keeps
      | apply State.vretire_keeps | apply State.setVcore_keeps | apply State.vaccFail_keeps | simp -zeta -zetaUnused -zetaHave -proj only [keeps_mk]
      | apply keeps_core | (intro x; refine (have hx : State.Keeps r x := ?_; ?_); unfold x; rotate_left; clear_value x; rotate_left)
      | (intro x; clear_value x) | intro x | split | lift_lets | dsimp only

theorem execLr_keeps {r : State} (core : Nat) (w : BitVec 32) (err : Nat) (s : State) (h : r.Keeps s) :
    KeepsOut r (execLr core w err s) := by
  unfold execLr
  with_reducible
    repeat' first
      | assumption | apply keeps_next | apply State.vissue_keeps | apply State.vlr_keeps | intro x | split | dsimp only

theorem State.vsc_keeps {r : State} (s : State) (core : Nat) (w : BitVec 32) (x : Nat) (err : Nat) (h : r.Keeps s) :
    r.Keeps (State.vsc s core w x err) := by
  unfold State.vsc
  with_reducible
    repeat' first
      | assumption | apply State.vatomic_keeps | apply State.vretire_keeps | apply State.setVcore_keeps | apply State.l2Atomic_keeps
      | apply State.vwrite_keeps | apply State.vaccFail_keeps | simp -zeta -zetaUnused -zetaHave -proj only [keeps_mk] | apply keeps_core
      | (intro x; refine (have hx : State.Keeps r x := ?_; ?_); unfold x; rotate_left; clear_value x; rotate_left)
      | (intro x; refine (have hfn : ∀ y, State.Keeps r y → State.Keeps r (x y) := ?_; ?_); unfold x; rotate_left; clear_value x; rotate_left)
      | (intro x; refine (have hfn : ∀ y z, State.Keeps r y → State.Keeps r (x y z) := ?_; ?_); unfold x; rotate_left; clear_value x; rotate_left)
      | apply hfn | (intro x; clear_value x) | intro x | split | lift_lets | dsimp only

theorem execSc_keeps {r : State} (core : Nat) (w : BitVec 32) (err : Nat) (s : State) (h : r.Keeps s) :
    KeepsOut r (execSc core w err s) := by
  unfold execSc
  with_reducible
    repeat' first
      | assumption | apply keeps_next | apply State.vissue_keeps | apply State.vsc_keeps | intro x | split | dsimp only

theorem State.vamo_keeps {r : State} (s : State) (core : Nat) (w : BitVec 32) (x : Nat) (err : Nat) (h : r.Keeps s) :
    r.Keeps (State.vamo s core w x err) := by
  unfold State.vamo
  with_reducible
    repeat' first
      | assumption | apply State.villegal_keeps | apply State.vatomic_keeps | apply State.vissueAcc_keeps | apply State.vretire_keeps
      | apply State.l2Atomic_keeps | apply State.vpoison_keeps | apply State.vwrite_keeps | apply State.setVcore_keeps | apply State.vaccFail_keeps
      | (intro x; refine (have hx : State.Keeps r x := ?_; ?_); unfold x; rotate_left; clear_value x; rotate_left)
      | (intro x; refine (have hfn : ∀ y, State.Keeps r y → State.Keeps r (x y) := ?_; ?_); unfold x; rotate_left; clear_value x; rotate_left)
      | (intro x; refine (have hfn : ∀ y z, State.Keeps r y → State.Keeps r (x y z) := ?_; ?_); unfold x; rotate_left; clear_value x; rotate_left)
      | apply hfn | (intro x; clear_value x) | intro x | split | lift_lets | dsimp only

theorem execAmo_keeps {r : State} (core : Nat) (w : BitVec 32) (err : Nat) (s : State) (h : r.Keeps s) :
    KeepsOut r (execAmo core w err s) := by
  unfold execAmo
  with_reducible
    repeat' first
      | assumption | apply keeps_next | apply State.vissue_keeps | apply State.vamo_keeps | intro x | split | dsimp only

/-! Machine/VXmem.lean -/

theorem State.vneeds_keeps {r : State} (s : State) (core : Nat) (access : Nat) (x3 : List Nat) (h : r.Keeps s) :
    KeepsFst r (State.vneeds s core access x3) := by
  induction x3 generalizing s core access with
  | nil =>
    unfold State.vneeds
    with_reducible
      repeat' first
        | assumption | apply State.vlook_keeps | refine (State.vlook_keeps _ _ _ _ ?_).out | simp -zeta -zetaUnused -zetaHave -proj only [keeps_mk_fst]
        | (intro x; refine (have hx : State.Keeps r x := ?_; ?_); unfold x; rotate_left; clear_value x; rotate_left) | (intro x; clear_value x)
        | intro x | split | refine keeps_fst (by assumption) ?_ | lift_lets | dsimp only
  | cons y l ih =>
    unfold State.vneeds
    with_reducible
      repeat' first
        | assumption | apply ih | refine (ih _ _ _ ?_).out | apply State.vlook_keeps | refine (State.vlook_keeps _ _ _ _ ?_).out | simp -zeta -zetaUnused -zetaHave -proj only [keeps_mk_fst]
        | (intro x; refine (have hx : State.Keeps r x := ?_; ?_); unfold x; rotate_left; clear_value x; rotate_left) | (intro x; clear_value x)
        | intro x | split | refine keeps_fst (by assumption) ?_ | lift_lets | dsimp only

theorem State.xmemBegin_keeps {r : State} (s : State) (core : Nat) (w : BitVec 32) (kind : Nat) (runs : List AccLane) (h : r.Keeps s) :
    r.Keeps (State.xmemBegin s core w kind runs) := by
  unfold State.xmemBegin
  with_reducible
    repeat' first
      | assumption | apply State.vneeds_keeps | apply State.setVcore_keeps | refine (State.vneeds_keeps _ _ _ _ ?_).out
      | simp -zeta -zetaUnused -zetaHave -proj only [keeps_mk] | apply keeps_core
      | (intro x; refine (have hx : State.Keeps r x := ?_; ?_); unfold x; rotate_left; clear_value x; rotate_left) | (intro x; clear_value x)
      | intro x | split | refine keeps_fst (by assumption) ?_ | lift_lets | dsimp only

theorem State.xmemOp_keeps {r : State} (s : State) (core : Nat) (w : BitVec 32) (mode : Nat) (kind : Nat) (runs : Bool → VCore → Nat → List AccLane) (h : r.Keeps s) :
    r.Keeps (State.xmemOp s core w mode kind runs) := by
  unfold State.xmemOp
  with_reducible
    repeat' first
      | assumption | apply State.vissue_keeps | apply State.xmemBegin_keeps | apply State.villegal_keeps
      | (intro x; refine (have hx : State.Keeps r x := ?_; ?_); unfold x; rotate_left; clear_value x; rotate_left) | (intro x; clear_value x)
      | intro x | split | lift_lets | dsimp only

theorem execVld_keeps {r : State} (core : Nat) (w : BitVec 32) (s : State) (h : r.Keeps s) :
    KeepsOut r (execVld core w s) := by
  unfold execVld
  with_reducible
    repeat' first
      | assumption | apply keeps_next | apply State.xmemOp_keeps | dsimp only

theorem execVst_keeps {r : State} (core : Nat) (w : BitVec 32) (s : State) (h : r.Keeps s) :
    KeepsOut r (execVst core w s) := by
  unfold execVst
  with_reducible
    repeat' first
      | assumption | apply keeps_next | apply State.xmemOp_keeps | dsimp only

theorem execVldx_keeps {r : State} (core : Nat) (w : BitVec 32) (s : State) (h : r.Keeps s) :
    KeepsOut r (execVldx core w s) := by
  unfold execVldx
  with_reducible
    repeat' first
      | assumption | apply keeps_next | apply State.xmemOp_keeps | dsimp only

theorem execVstx_keeps {r : State} (core : Nat) (w : BitVec 32) (s : State) (h : r.Keeps s) :
    KeepsOut r (execVstx core w s) := by
  unfold execVstx
  with_reducible
    repeat' first
      | assumption | apply keeps_next | apply State.xmemOp_keeps | dsimp only

theorem execVldc_keeps {r : State} (core : Nat) (w : BitVec 32) (s : State) (h : r.Keeps s) :
    KeepsOut r (execVldc core w s) := by
  unfold execVldc
  with_reducible
    repeat' first
      | assumption | apply keeps_next | apply State.xmemOp_keeps | dsimp only

theorem execVstc_keeps {r : State} (core : Nat) (w : BitVec 32) (s : State) (h : r.Keeps s) :
    KeepsOut r (execVstc core w s) := by
  unfold execVstc
  with_reducible
    repeat' first
      | assumption | apply keeps_next | apply State.xmemOp_keeps | split | dsimp only

theorem State.sendAway_keeps {r : State} (s : State) (id : Nat) (a : Acc) (h : r.Keeps s) :
    KeepsFst r (State.sendAway s id a) := by
  unfold State.sendAway
  with_reducible
    repeat' first
      | assumption | apply State.performLane_keeps | simp -zeta -zetaUnused -zetaHave -proj only [keeps_mk_fst] | apply keeps_foldl
      | apply keeps_foldl_fst | apply keeps_foldl_snd
      | (intro x; refine (have hx : State.Keeps r x := ?_; ?_); unfold x; rotate_left; clear_value x; rotate_left) | (intro x; clear_value x)
      | intro x | split | refine keeps_of_some_pair (by assumption) ?_ | refine keeps_of_some_pair' (by assumption) ?_ | lift_lets | dsimp only

theorem State.xslvAccess_keeps {r : State} (s : State) (core : Nat) (x : XslvOp) (h : r.Keeps s) :
    r.Keeps (State.xslvAccess s core x) := by
  unfold State.xslvAccess
  with_reducible
    repeat' first
      | assumption | apply State.setVcore_keeps | apply State.setAcc_keeps | apply State.sendAway_keeps | refine (State.sendAway_keeps _ _ _ ?_).out
      | simp -zeta -zetaUnused -zetaHave -proj only [keeps_mk] | apply keeps_core
      | (intro x; refine (have hx : State.Keeps r x := ?_; ?_); unfold x; rotate_left; clear_value x; rotate_left) | (intro x; clear_value x)
      | intro x | split | refine keeps_fst (by assumption) ?_ | lift_lets | dsimp only

theorem execXslvTranslationDone_keeps {r : State} (core : Nat) (s : State) (h : r.Keeps s) :
    KeepsOut r (execXslvTranslationDone core s) := by
  unfold execXslvTranslationDone
  with_reducible
    repeat' first
      | assumption | apply keeps_next | apply State.xslvAccess_keeps | apply State.setVcore_keeps | apply State.vaccFail_keeps
      | simp -zeta -zetaUnused -zetaHave -proj only [keeps_mk] | apply keeps_core
      | (intro x; refine (have hx : State.Keeps r x := ?_; ?_); unfold x; rotate_left; clear_value x; rotate_left) | (intro x; clear_value x)
      | intro x | split | lift_lets | dsimp only

theorem State.xslvRun_keeps {r : State} (s : State) (core : Nat) (a : Acc) (l : AccLane) (h : r.Keeps s) :
    KeepsFst r (State.xslvRun s core a l) := by
  unfold State.xslvRun
  with_reducible
    repeat' first
      | assumption | apply State.l2Claim_keeps | apply State.vwrite_keeps | simp -zeta -zetaUnused -zetaHave -proj only [keeps_mk, keeps_mk_fst]
      | apply keeps_core | (intro x; refine (have hx : State.Keeps r x := ?_; ?_); unfold x; rotate_left; clear_value x; rotate_left)
      | (intro x; clear_value x) | intro x | split | lift_lets | dsimp only

theorem State.xslvStep_keeps {r : State} (s : State) (core : Nat) (sk : Nat) (a : Acc) (h : r.Keeps s) :
    KeepsFst r (State.xslvStep s core sk a) := by
  unfold State.xslvStep
  with_reducible
    repeat' first
      | assumption | apply State.xslvRun_keeps | apply State.l2Ask_keeps | refine (State.xslvRun_keeps _ _ _ _ ?_).out
      | simp -zeta -zetaUnused -zetaHave -proj only [keeps_mk_fst] | apply keeps_foldl | apply keeps_foldl_fst | apply keeps_foldl_snd
      | (intro x; refine (have hx : State.Keeps r x := ?_; ?_); unfold x; rotate_left; clear_value x; rotate_left) | (intro x; clear_value x)
      | intro x | split | refine keeps_fst (by assumption) ?_ | lift_lets | dsimp only

theorem State.xslvEnd_keeps {r : State} (s : State) (core : Nat) (x : XslvOp) (id : Nat) (a : Acc) (h : r.Keeps s) :
    r.Keeps (State.xslvEnd s core x id a) := by
  unfold State.xslvEnd
  with_reducible
    repeat' first
      | assumption | apply State.setAcc_keeps | apply State.setVcore_keeps | apply State.vaccError_keeps | apply State.vpoison_keeps
      | apply State.vretire_keeps | simp -zeta -zetaUnused -zetaHave -proj only [keeps_mk] | apply keeps_core
      | (intro x; refine (have hx : State.Keeps r x := ?_; ?_); unfold x; rotate_left; clear_value x; rotate_left) | (intro x; clear_value x)
      | intro x | split | lift_lets | dsimp only

theorem State.xslvErr_keeps {r : State} (s : State) (core : Nat) (err : Nat) (a : Acc) (h : r.Keeps s) :
    r.Keeps (State.xslvErr s core err a) := by
  unfold State.xslvErr
  with_reducible
    repeat' first
      | assumption | apply State.cacheErr_keeps
      | (intro x; refine (have hx : State.Keeps r x := ?_; ?_); unfold x; rotate_left; clear_value x; rotate_left) | (intro x; clear_value x)
      | intro x | split | lift_lets | dsimp only

theorem execXslvAccessDone_keeps {r : State} (core : Nat) (err : Nat) (s : State) (h : r.Keeps s) :
    KeepsOut r (execXslvAccessDone core err s) := by
  unfold execXslvAccessDone
  with_reducible
    repeat' first
      | assumption | apply keeps_next | apply State.xslvErr_keeps | apply State.xslvStep_keeps | apply State.setAcc_keeps | apply State.xslvEnd_keeps
      | refine (State.xslvStep_keeps _ _ _ _ ?_).out
      | (intro x; refine (have hx : State.Keeps r x := ?_; ?_); unfold x; rotate_left; clear_value x; rotate_left) | (intro x; clear_value x)
      | intro x | split | refine keeps_fst (by assumption) ?_ | lift_lets | dsimp only

end Sys2Proof.Machine
end

