-- ==== Sys2Proof/Laws/State.lean ====
section
/-! SUPPORT. Laws of the state's updates: what each named update leaves as it was, and reads of registers after writes. -/

namespace Sys2Proof.Machine

/-! ### setReg -/

@[simp] theorem State.setReg_pending (s : State) (a : Nat) (v : Word) : (s.setReg a v).pending = s.pending := by unfold State.setReg; rfl
@[simp] theorem State.setReg_now (s : State) (a : Nat) (v : Word) : (s.setReg a v).now = s.now := by unfold State.setReg; rfl
@[simp] theorem State.setReg_freeCtr (s : State) (a : Nat) (v : Word) : (s.setReg a v).freeCtr = s.freeCtr := by unfold State.setReg; rfl
@[simp] theorem State.setReg_links (s : State) (a : Nat) (v : Word) : (s.setReg a v).links = s.links := by unfold State.setReg; rfl
@[simp] theorem State.setReg_tick (s : State) (a : Nat) (v : Word) : (s.setReg a v).tick = s.tick := by unfold State.setReg; rfl
@[simp] theorem State.setReg_units (s : State) (a : Nat) (v : Word) : (s.setReg a v).units = s.units := by unfold State.setReg; rfl
@[simp] theorem State.setReg_ward (s : State) (a : Nat) (v : Word) : (s.setReg a v).ward = s.ward := by unfold State.setReg; rfl
@[simp] theorem State.setReg_xlt (s : State) (a : Nat) (v : Word) : (s.setReg a v).xlt = s.xlt := by unfold State.setReg; rfl
@[simp] theorem State.setReg_mem (s : State) (a : Nat) (v : Word) : (s.setReg a v).mem = s.mem := by unfold State.setReg; rfl
@[simp] theorem State.setReg_host (s : State) (a : Nat) (v : Word) : (s.setReg a v).host = s.host := by unfold State.setReg; rfl
@[simp] theorem State.setReg_bb (s : State) (a : Nat) (v : Word) : (s.setReg a v).bb = s.bb := by unfold State.setReg; rfl
@[simp] theorem State.setReg_tmb (s : State) (a : Nat) (v : Word) : (s.setReg a v).tmb = s.tmb := by unfold State.setReg; rfl
@[simp] theorem State.setReg_boot (s : State) (a : Nat) (v : Word) : (s.setReg a v).boot = s.boot := by unfold State.setReg; rfl
@[simp] theorem State.setReg_mgt (s : State) (a : Nat) (v : Word) : (s.setReg a v).mgt = s.mgt := by unfold State.setReg; rfl
@[simp] theorem State.setReg_pins (s : State) (a : Nat) (v : Word) : (s.setReg a v).pins = s.pins := by unfold State.setReg; rfl
@[simp] theorem State.setReg_tc (s : State) (a : Nat) (v : Word) : (s.setReg a v).tc = s.tc := by unfold State.setReg; rfl
@[simp] theorem State.setReg_ptl (s : State) (a : Nat) (v : Word) : (s.setReg a v).ptl = s.ptl := by unfold State.setReg; rfl
@[simp] theorem State.setReg_vc (s : State) (a : Nat) (v : Word) : (s.setReg a v).vc = s.vc := by unfold State.setReg; rfl
@[simp] theorem State.setReg_coh (s : State) (a : Nat) (v : Word) : (s.setReg a v).coh = s.coh := by unfold State.setReg; rfl
@[simp] theorem State.setReg_pwr (s : State) (a : Nat) (v : Word) : (s.setReg a v).pwr = s.pwr := by unfold State.setReg; rfl
@[simp] theorem State.setReg_kwy (s : State) (a : Nat) (v : Word) : (s.setReg a v).kwy = s.kwy := by unfold State.setReg; rfl
@[simp] theorem State.setReg_jtag (s : State) (a : Nat) (v : Word) : (s.setReg a v).jtag = s.jtag := by unfold State.setReg; rfl
@[simp] theorem State.setReg_accs (s : State) (a : Nat) (v : Word) : (s.setReg a v).accs = s.accs := by unfold State.setReg; rfl
@[simp] theorem State.setReg_nextAcc (s : State) (a : Nat) (v : Word) : (s.setReg a v).nextAcc = s.nextAcc := by unfold State.setReg; rfl
@[simp] theorem State.setReg_preempts (s : State) (a : Nat) (v : Word) : (s.setReg a v).preempts = s.preempts := by unfold State.setReg; rfl

/-! ### setFld -/

@[simp] theorem State.setFld_pending (s : State) (f : RegField) (v : Nat) : (s.setFld f v).pending = s.pending := s.setReg_pending _ _
@[simp] theorem State.setFld_now (s : State) (f : RegField) (v : Nat) : (s.setFld f v).now = s.now := s.setReg_now _ _
@[simp] theorem State.setFld_freeCtr (s : State) (f : RegField) (v : Nat) : (s.setFld f v).freeCtr = s.freeCtr := s.setReg_freeCtr _ _
@[simp] theorem State.setFld_links (s : State) (f : RegField) (v : Nat) : (s.setFld f v).links = s.links := s.setReg_links _ _
@[simp] theorem State.setFld_tick (s : State) (f : RegField) (v : Nat) : (s.setFld f v).tick = s.tick := s.setReg_tick _ _
@[simp] theorem State.setFld_units (s : State) (f : RegField) (v : Nat) : (s.setFld f v).units = s.units := s.setReg_units _ _
@[simp] theorem State.setFld_ward (s : State) (f : RegField) (v : Nat) : (s.setFld f v).ward = s.ward := s.setReg_ward _ _
@[simp] theorem State.setFld_xlt (s : State) (f : RegField) (v : Nat) : (s.setFld f v).xlt = s.xlt := s.setReg_xlt _ _
@[simp] theorem State.setFld_mem (s : State) (f : RegField) (v : Nat) : (s.setFld f v).mem = s.mem := s.setReg_mem _ _
@[simp] theorem State.setFld_host (s : State) (f : RegField) (v : Nat) : (s.setFld f v).host = s.host := s.setReg_host _ _
@[simp] theorem State.setFld_bb (s : State) (f : RegField) (v : Nat) : (s.setFld f v).bb = s.bb := s.setReg_bb _ _
@[simp] theorem State.setFld_tmb (s : State) (f : RegField) (v : Nat) : (s.setFld f v).tmb = s.tmb := s.setReg_tmb _ _
@[simp] theorem State.setFld_boot (s : State) (f : RegField) (v : Nat) : (s.setFld f v).boot = s.boot := s.setReg_boot _ _
@[simp] theorem State.setFld_mgt (s : State) (f : RegField) (v : Nat) : (s.setFld f v).mgt = s.mgt := s.setReg_mgt _ _
@[simp] theorem State.setFld_pins (s : State) (f : RegField) (v : Nat) : (s.setFld f v).pins = s.pins := s.setReg_pins _ _
@[simp] theorem State.setFld_tc (s : State) (f : RegField) (v : Nat) : (s.setFld f v).tc = s.tc := s.setReg_tc _ _
@[simp] theorem State.setFld_ptl (s : State) (f : RegField) (v : Nat) : (s.setFld f v).ptl = s.ptl := s.setReg_ptl _ _
@[simp] theorem State.setFld_vc (s : State) (f : RegField) (v : Nat) : (s.setFld f v).vc = s.vc := s.setReg_vc _ _
@[simp] theorem State.setFld_coh (s : State) (f : RegField) (v : Nat) : (s.setFld f v).coh = s.coh := s.setReg_coh _ _
@[simp] theorem State.setFld_pwr (s : State) (f : RegField) (v : Nat) : (s.setFld f v).pwr = s.pwr := s.setReg_pwr _ _
@[simp] theorem State.setFld_kwy (s : State) (f : RegField) (v : Nat) : (s.setFld f v).kwy = s.kwy := s.setReg_kwy _ _
@[simp] theorem State.setFld_jtag (s : State) (f : RegField) (v : Nat) : (s.setFld f v).jtag = s.jtag := s.setReg_jtag _ _
@[simp] theorem State.setFld_accs (s : State) (f : RegField) (v : Nat) : (s.setFld f v).accs = s.accs := s.setReg_accs _ _
@[simp] theorem State.setFld_nextAcc (s : State) (f : RegField) (v : Nat) : (s.setFld f v).nextAcc = s.nextAcc := s.setReg_nextAcc _ _
@[simp] theorem State.setFld_preempts (s : State) (f : RegField) (v : Nat) : (s.setFld f v).preempts = s.preempts := s.setReg_preempts _ _

/-! ### setFlag -/

@[simp] theorem State.setFlag_pending (s : State) (f : RegField) (b : Bool) : (s.setFlag f b).pending = s.pending := s.setFld_pending _ _
@[simp] theorem State.setFlag_now (s : State) (f : RegField) (b : Bool) : (s.setFlag f b).now = s.now := s.setFld_now _ _
@[simp] theorem State.setFlag_freeCtr (s : State) (f : RegField) (b : Bool) : (s.setFlag f b).freeCtr = s.freeCtr := s.setFld_freeCtr _ _
@[simp] theorem State.setFlag_links (s : State) (f : RegField) (b : Bool) : (s.setFlag f b).links = s.links := s.setFld_links _ _
@[simp] theorem State.setFlag_tick (s : State) (f : RegField) (b : Bool) : (s.setFlag f b).tick = s.tick := s.setFld_tick _ _
@[simp] theorem State.setFlag_units (s : State) (f : RegField) (b : Bool) : (s.setFlag f b).units = s.units := s.setFld_units _ _
@[simp] theorem State.setFlag_ward (s : State) (f : RegField) (b : Bool) : (s.setFlag f b).ward = s.ward := s.setFld_ward _ _
@[simp] theorem State.setFlag_xlt (s : State) (f : RegField) (b : Bool) : (s.setFlag f b).xlt = s.xlt := s.setFld_xlt _ _
@[simp] theorem State.setFlag_mem (s : State) (f : RegField) (b : Bool) : (s.setFlag f b).mem = s.mem := s.setFld_mem _ _
@[simp] theorem State.setFlag_host (s : State) (f : RegField) (b : Bool) : (s.setFlag f b).host = s.host := s.setFld_host _ _
@[simp] theorem State.setFlag_bb (s : State) (f : RegField) (b : Bool) : (s.setFlag f b).bb = s.bb := s.setFld_bb _ _
@[simp] theorem State.setFlag_tmb (s : State) (f : RegField) (b : Bool) : (s.setFlag f b).tmb = s.tmb := s.setFld_tmb _ _
@[simp] theorem State.setFlag_boot (s : State) (f : RegField) (b : Bool) : (s.setFlag f b).boot = s.boot := s.setFld_boot _ _
@[simp] theorem State.setFlag_mgt (s : State) (f : RegField) (b : Bool) : (s.setFlag f b).mgt = s.mgt := s.setFld_mgt _ _
@[simp] theorem State.setFlag_pins (s : State) (f : RegField) (b : Bool) : (s.setFlag f b).pins = s.pins := s.setFld_pins _ _
@[simp] theorem State.setFlag_tc (s : State) (f : RegField) (b : Bool) : (s.setFlag f b).tc = s.tc := s.setFld_tc _ _
@[simp] theorem State.setFlag_ptl (s : State) (f : RegField) (b : Bool) : (s.setFlag f b).ptl = s.ptl := s.setFld_ptl _ _
@[simp] theorem State.setFlag_vc (s : State) (f : RegField) (b : Bool) : (s.setFlag f b).vc = s.vc := s.setFld_vc _ _
@[simp] theorem State.setFlag_coh (s : State) (f : RegField) (b : Bool) : (s.setFlag f b).coh = s.coh := s.setFld_coh _ _
@[simp] theorem State.setFlag_pwr (s : State) (f : RegField) (b : Bool) : (s.setFlag f b).pwr = s.pwr := s.setFld_pwr _ _
@[simp] theorem State.setFlag_kwy (s : State) (f : RegField) (b : Bool) : (s.setFlag f b).kwy = s.kwy := s.setFld_kwy _ _
@[simp] theorem State.setFlag_jtag (s : State) (f : RegField) (b : Bool) : (s.setFlag f b).jtag = s.jtag := s.setFld_jtag _ _
@[simp] theorem State.setFlag_accs (s : State) (f : RegField) (b : Bool) : (s.setFlag f b).accs = s.accs := s.setFld_accs _ _
@[simp] theorem State.setFlag_nextAcc (s : State) (f : RegField) (b : Bool) : (s.setFlag f b).nextAcc = s.nextAcc := s.setFld_nextAcc _ _
@[simp] theorem State.setFlag_preempts (s : State) (f : RegField) (b : Bool) : (s.setFlag f b).preempts = s.preempts := s.setFld_preempts _ _

/-! ### bumpN -/

@[simp] theorem State.bumpN_pending (s : State) (f : RegField) (n : Nat) : (s.bumpN f n).pending = s.pending := s.setFld_pending _ _
@[simp] theorem State.bumpN_now (s : State) (f : RegField) (n : Nat) : (s.bumpN f n).now = s.now := s.setFld_now _ _
@[simp] theorem State.bumpN_freeCtr (s : State) (f : RegField) (n : Nat) : (s.bumpN f n).freeCtr = s.freeCtr := s.setFld_freeCtr _ _
@[simp] theorem State.bumpN_links (s : State) (f : RegField) (n : Nat) : (s.bumpN f n).links = s.links := s.setFld_links _ _
@[simp] theorem State.bumpN_tick (s : State) (f : RegField) (n : Nat) : (s.bumpN f n).tick = s.tick := s.setFld_tick _ _
@[simp] theorem State.bumpN_units (s : State) (f : RegField) (n : Nat) : (s.bumpN f n).units = s.units := s.setFld_units _ _
@[simp] theorem State.bumpN_ward (s : State) (f : RegField) (n : Nat) : (s.bumpN f n).ward = s.ward := s.setFld_ward _ _
@[simp] theorem State.bumpN_xlt (s : State) (f : RegField) (n : Nat) : (s.bumpN f n).xlt = s.xlt := s.setFld_xlt _ _
@[simp] theorem State.bumpN_mem (s : State) (f : RegField) (n : Nat) : (s.bumpN f n).mem = s.mem := s.setFld_mem _ _
@[simp] theorem State.bumpN_host (s : State) (f : RegField) (n : Nat) : (s.bumpN f n).host = s.host := s.setFld_host _ _
@[simp] theorem State.bumpN_bb (s : State) (f : RegField) (n : Nat) : (s.bumpN f n).bb = s.bb := s.setFld_bb _ _
@[simp] theorem State.bumpN_tmb (s : State) (f : RegField) (n : Nat) : (s.bumpN f n).tmb = s.tmb := s.setFld_tmb _ _
@[simp] theorem State.bumpN_boot (s : State) (f : RegField) (n : Nat) : (s.bumpN f n).boot = s.boot := s.setFld_boot _ _
@[simp] theorem State.bumpN_mgt (s : State) (f : RegField) (n : Nat) : (s.bumpN f n).mgt = s.mgt := s.setFld_mgt _ _
@[simp] theorem State.bumpN_pins (s : State) (f : RegField) (n : Nat) : (s.bumpN f n).pins = s.pins := s.setFld_pins _ _
@[simp] theorem State.bumpN_tc (s : State) (f : RegField) (n : Nat) : (s.bumpN f n).tc = s.tc := s.setFld_tc _ _
@[simp] theorem State.bumpN_ptl (s : State) (f : RegField) (n : Nat) : (s.bumpN f n).ptl = s.ptl := s.setFld_ptl _ _
@[simp] theorem State.bumpN_vc (s : State) (f : RegField) (n : Nat) : (s.bumpN f n).vc = s.vc := s.setFld_vc _ _
@[simp] theorem State.bumpN_coh (s : State) (f : RegField) (n : Nat) : (s.bumpN f n).coh = s.coh := s.setFld_coh _ _
@[simp] theorem State.bumpN_pwr (s : State) (f : RegField) (n : Nat) : (s.bumpN f n).pwr = s.pwr := s.setFld_pwr _ _
@[simp] theorem State.bumpN_kwy (s : State) (f : RegField) (n : Nat) : (s.bumpN f n).kwy = s.kwy := s.setFld_kwy _ _
@[simp] theorem State.bumpN_jtag (s : State) (f : RegField) (n : Nat) : (s.bumpN f n).jtag = s.jtag := s.setFld_jtag _ _
@[simp] theorem State.bumpN_accs (s : State) (f : RegField) (n : Nat) : (s.bumpN f n).accs = s.accs := s.setFld_accs _ _
@[simp] theorem State.bumpN_nextAcc (s : State) (f : RegField) (n : Nat) : (s.bumpN f n).nextAcc = s.nextAcc := s.setFld_nextAcc _ _
@[simp] theorem State.bumpN_preempts (s : State) (f : RegField) (n : Nat) : (s.bumpN f n).preempts = s.preempts := s.setFld_preempts _ _

/-! ### bump -/

@[simp] theorem State.bump_pending (s : State) (f : RegField) : (s.bump f).pending = s.pending := s.bumpN_pending _ _
@[simp] theorem State.bump_now (s : State) (f : RegField) : (s.bump f).now = s.now := s.bumpN_now _ _
@[simp] theorem State.bump_freeCtr (s : State) (f : RegField) : (s.bump f).freeCtr = s.freeCtr := s.bumpN_freeCtr _ _
@[simp] theorem State.bump_links (s : State) (f : RegField) : (s.bump f).links = s.links := s.bumpN_links _ _
@[simp] theorem State.bump_tick (s : State) (f : RegField) : (s.bump f).tick = s.tick := s.bumpN_tick _ _
@[simp] theorem State.bump_units (s : State) (f : RegField) : (s.bump f).units = s.units := s.bumpN_units _ _
@[simp] theorem State.bump_ward (s : State) (f : RegField) : (s.bump f).ward = s.ward := s.bumpN_ward _ _
@[simp] theorem State.bump_xlt (s : State) (f : RegField) : (s.bump f).xlt = s.xlt := s.bumpN_xlt _ _
@[simp] theorem State.bump_mem (s : State) (f : RegField) : (s.bump f).mem = s.mem := s.bumpN_mem _ _
@[simp] theorem State.bump_host (s : State) (f : RegField) : (s.bump f).host = s.host := s.bumpN_host _ _
@[simp] theorem State.bump_bb (s : State) (f : RegField) : (s.bump f).bb = s.bb := s.bumpN_bb _ _
@[simp] theorem State.bump_tmb (s : State) (f : RegField) : (s.bump f).tmb = s.tmb := s.bumpN_tmb _ _
@[simp] theorem State.bump_boot (s : State) (f : RegField) : (s.bump f).boot = s.boot := s.bumpN_boot _ _
@[simp] theorem State.bump_mgt (s : State) (f : RegField) : (s.bump f).mgt = s.mgt := s.bumpN_mgt _ _
@[simp] theorem State.bump_pins (s : State) (f : RegField) : (s.bump f).pins = s.pins := s.bumpN_pins _ _
@[simp] theorem State.bump_tc (s : State) (f : RegField) : (s.bump f).tc = s.tc := s.bumpN_tc _ _
@[simp] theorem State.bump_ptl (s : State) (f : RegField) : (s.bump f).ptl = s.ptl := s.bumpN_ptl _ _
@[simp] theorem State.bump_vc (s : State) (f : RegField) : (s.bump f).vc = s.vc := s.bumpN_vc _ _
@[simp] theorem State.bump_coh (s : State) (f : RegField) : (s.bump f).coh = s.coh := s.bumpN_coh _ _
@[simp] theorem State.bump_pwr (s : State) (f : RegField) : (s.bump f).pwr = s.pwr := s.bumpN_pwr _ _
@[simp] theorem State.bump_kwy (s : State) (f : RegField) : (s.bump f).kwy = s.kwy := s.bumpN_kwy _ _
@[simp] theorem State.bump_jtag (s : State) (f : RegField) : (s.bump f).jtag = s.jtag := s.bumpN_jtag _ _
@[simp] theorem State.bump_accs (s : State) (f : RegField) : (s.bump f).accs = s.accs := s.bumpN_accs _ _
@[simp] theorem State.bump_nextAcc (s : State) (f : RegField) : (s.bump f).nextAcc = s.nextAcc := s.bumpN_nextAcc _ _
@[simp] theorem State.bump_preempts (s : State) (f : RegField) : (s.bump f).preempts = s.preempts := s.bumpN_preempts _ _

/-! ### setFld64 -/

@[simp] theorem State.setFld64_pending (s : State) (lo hi : RegField) (v : Nat) : (s.setFld64 lo hi v).pending = s.pending := ((s.setFld lo v).setFld_pending _ _).trans (s.setFld_pending _ _)
@[simp] theorem State.setFld64_now (s : State) (lo hi : RegField) (v : Nat) : (s.setFld64 lo hi v).now = s.now := ((s.setFld lo v).setFld_now _ _).trans (s.setFld_now _ _)
@[simp] theorem State.setFld64_freeCtr (s : State) (lo hi : RegField) (v : Nat) : (s.setFld64 lo hi v).freeCtr = s.freeCtr := ((s.setFld lo v).setFld_freeCtr _ _).trans (s.setFld_freeCtr _ _)
@[simp] theorem State.setFld64_links (s : State) (lo hi : RegField) (v : Nat) : (s.setFld64 lo hi v).links = s.links := ((s.setFld lo v).setFld_links _ _).trans (s.setFld_links _ _)
@[simp] theorem State.setFld64_tick (s : State) (lo hi : RegField) (v : Nat) : (s.setFld64 lo hi v).tick = s.tick := ((s.setFld lo v).setFld_tick _ _).trans (s.setFld_tick _ _)
@[simp] theorem State.setFld64_units (s : State) (lo hi : RegField) (v : Nat) : (s.setFld64 lo hi v).units = s.units := ((s.setFld lo v).setFld_units _ _).trans (s.setFld_units _ _)
@[simp] theorem State.setFld64_ward (s : State) (lo hi : RegField) (v : Nat) : (s.setFld64 lo hi v).ward = s.ward := ((s.setFld lo v).setFld_ward _ _).trans (s.setFld_ward _ _)
@[simp] theorem State.setFld64_xlt (s : State) (lo hi : RegField) (v : Nat) : (s.setFld64 lo hi v).xlt = s.xlt := ((s.setFld lo v).setFld_xlt _ _).trans (s.setFld_xlt _ _)
@[simp] theorem State.setFld64_mem (s : State) (lo hi : RegField) (v : Nat) : (s.setFld64 lo hi v).mem = s.mem := ((s.setFld lo v).setFld_mem _ _).trans (s.setFld_mem _ _)
@[simp] theorem State.setFld64_host (s : State) (lo hi : RegField) (v : Nat) : (s.setFld64 lo hi v).host = s.host := ((s.setFld lo v).setFld_host _ _).trans (s.setFld_host _ _)
@[simp] theorem State.setFld64_bb (s : State) (lo hi : RegField) (v : Nat) : (s.setFld64 lo hi v).bb = s.bb := ((s.setFld lo v).setFld_bb _ _).trans (s.setFld_bb _ _)
@[simp] theorem State.setFld64_tmb (s : State) (lo hi : RegField) (v : Nat) : (s.setFld64 lo hi v).tmb = s.tmb := ((s.setFld lo v).setFld_tmb _ _).trans (s.setFld_tmb _ _)
@[simp] theorem State.setFld64_boot (s : State) (lo hi : RegField) (v : Nat) : (s.setFld64 lo hi v).boot = s.boot := ((s.setFld lo v).setFld_boot _ _).trans (s.setFld_boot _ _)
@[simp] theorem State.setFld64_mgt (s : State) (lo hi : RegField) (v : Nat) : (s.setFld64 lo hi v).mgt = s.mgt := ((s.setFld lo v).setFld_mgt _ _).trans (s.setFld_mgt _ _)
@[simp] theorem State.setFld64_pins (s : State) (lo hi : RegField) (v : Nat) : (s.setFld64 lo hi v).pins = s.pins := ((s.setFld lo v).setFld_pins _ _).trans (s.setFld_pins _ _)
@[simp] theorem State.setFld64_tc (s : State) (lo hi : RegField) (v : Nat) : (s.setFld64 lo hi v).tc = s.tc := ((s.setFld lo v).setFld_tc _ _).trans (s.setFld_tc _ _)
@[simp] theorem State.setFld64_ptl (s : State) (lo hi : RegField) (v : Nat) : (s.setFld64 lo hi v).ptl = s.ptl := ((s.setFld lo v).setFld_ptl _ _).trans (s.setFld_ptl _ _)
@[simp] theorem State.setFld64_vc (s : State) (lo hi : RegField) (v : Nat) : (s.setFld64 lo hi v).vc = s.vc := ((s.setFld lo v).setFld_vc _ _).trans (s.setFld_vc _ _)
@[simp] theorem State.setFld64_coh (s : State) (lo hi : RegField) (v : Nat) : (s.setFld64 lo hi v).coh = s.coh := ((s.setFld lo v).setFld_coh _ _).trans (s.setFld_coh _ _)
@[simp] theorem State.setFld64_pwr (s : State) (lo hi : RegField) (v : Nat) : (s.setFld64 lo hi v).pwr = s.pwr := ((s.setFld lo v).setFld_pwr _ _).trans (s.setFld_pwr _ _)
@[simp] theorem State.setFld64_kwy (s : State) (lo hi : RegField) (v : Nat) : (s.setFld64 lo hi v).kwy = s.kwy := ((s.setFld lo v).setFld_kwy _ _).trans (s.setFld_kwy _ _)
@[simp] theorem State.setFld64_jtag (s : State) (lo hi : RegField) (v : Nat) : (s.setFld64 lo hi v).jtag = s.jtag := ((s.setFld lo v).setFld_jtag _ _).trans (s.setFld_jtag _ _)
@[simp] theorem State.setFld64_accs (s : State) (lo hi : RegField) (v : Nat) : (s.setFld64 lo hi v).accs = s.accs := ((s.setFld lo v).setFld_accs _ _).trans (s.setFld_accs _ _)
@[simp] theorem State.setFld64_nextAcc (s : State) (lo hi : RegField) (v : Nat) : (s.setFld64 lo hi v).nextAcc = s.nextAcc := ((s.setFld lo v).setFld_nextAcc _ _).trans (s.setFld_nextAcc _ _)
@[simp] theorem State.setFld64_preempts (s : State) (lo hi : RegField) (v : Nat) : (s.setFld64 lo hi v).preempts = s.preempts := ((s.setFld lo v).setFld_preempts _ _).trans (s.setFld_preempts _ _)

/-! ### bump64 -/

@[simp] theorem State.bump64_pending (s : State) (lo hi : RegField) (n : Nat) : (s.bump64 lo hi n).pending = s.pending := s.setFld64_pending _ _ _
@[simp] theorem State.bump64_now (s : State) (lo hi : RegField) (n : Nat) : (s.bump64 lo hi n).now = s.now := s.setFld64_now _ _ _
@[simp] theorem State.bump64_freeCtr (s : State) (lo hi : RegField) (n : Nat) : (s.bump64 lo hi n).freeCtr = s.freeCtr := s.setFld64_freeCtr _ _ _
@[simp] theorem State.bump64_links (s : State) (lo hi : RegField) (n : Nat) : (s.bump64 lo hi n).links = s.links := s.setFld64_links _ _ _
@[simp] theorem State.bump64_tick (s : State) (lo hi : RegField) (n : Nat) : (s.bump64 lo hi n).tick = s.tick := s.setFld64_tick _ _ _
@[simp] theorem State.bump64_units (s : State) (lo hi : RegField) (n : Nat) : (s.bump64 lo hi n).units = s.units := s.setFld64_units _ _ _
@[simp] theorem State.bump64_ward (s : State) (lo hi : RegField) (n : Nat) : (s.bump64 lo hi n).ward = s.ward := s.setFld64_ward _ _ _
@[simp] theorem State.bump64_xlt (s : State) (lo hi : RegField) (n : Nat) : (s.bump64 lo hi n).xlt = s.xlt := s.setFld64_xlt _ _ _
@[simp] theorem State.bump64_mem (s : State) (lo hi : RegField) (n : Nat) : (s.bump64 lo hi n).mem = s.mem := s.setFld64_mem _ _ _
@[simp] theorem State.bump64_host (s : State) (lo hi : RegField) (n : Nat) : (s.bump64 lo hi n).host = s.host := s.setFld64_host _ _ _
@[simp] theorem State.bump64_bb (s : State) (lo hi : RegField) (n : Nat) : (s.bump64 lo hi n).bb = s.bb := s.setFld64_bb _ _ _
@[simp] theorem State.bump64_tmb (s : State) (lo hi : RegField) (n : Nat) : (s.bump64 lo hi n).tmb = s.tmb := s.setFld64_tmb _ _ _
@[simp] theorem State.bump64_boot (s : State) (lo hi : RegField) (n : Nat) : (s.bump64 lo hi n).boot = s.boot := s.setFld64_boot _ _ _
@[simp] theorem State.bump64_mgt (s : State) (lo hi : RegField) (n : Nat) : (s.bump64 lo hi n).mgt = s.mgt := s.setFld64_mgt _ _ _
@[simp] theorem State.bump64_pins (s : State) (lo hi : RegField) (n : Nat) : (s.bump64 lo hi n).pins = s.pins := s.setFld64_pins _ _ _
@[simp] theorem State.bump64_tc (s : State) (lo hi : RegField) (n : Nat) : (s.bump64 lo hi n).tc = s.tc := s.setFld64_tc _ _ _
@[simp] theorem State.bump64_ptl (s : State) (lo hi : RegField) (n : Nat) : (s.bump64 lo hi n).ptl = s.ptl := s.setFld64_ptl _ _ _
@[simp] theorem State.bump64_vc (s : State) (lo hi : RegField) (n : Nat) : (s.bump64 lo hi n).vc = s.vc := s.setFld64_vc _ _ _
@[simp] theorem State.bump64_coh (s : State) (lo hi : RegField) (n : Nat) : (s.bump64 lo hi n).coh = s.coh := s.setFld64_coh _ _ _
@[simp] theorem State.bump64_pwr (s : State) (lo hi : RegField) (n : Nat) : (s.bump64 lo hi n).pwr = s.pwr := s.setFld64_pwr _ _ _
@[simp] theorem State.bump64_kwy (s : State) (lo hi : RegField) (n : Nat) : (s.bump64 lo hi n).kwy = s.kwy := s.setFld64_kwy _ _ _
@[simp] theorem State.bump64_jtag (s : State) (lo hi : RegField) (n : Nat) : (s.bump64 lo hi n).jtag = s.jtag := s.setFld64_jtag _ _ _
@[simp] theorem State.bump64_accs (s : State) (lo hi : RegField) (n : Nat) : (s.bump64 lo hi n).accs = s.accs := s.setFld64_accs _ _ _
@[simp] theorem State.bump64_nextAcc (s : State) (lo hi : RegField) (n : Nat) : (s.bump64 lo hi n).nextAcc = s.nextAcc := s.setFld64_nextAcc _ _ _
@[simp] theorem State.bump64_preempts (s : State) (lo hi : RegField) (n : Nat) : (s.bump64 lo hi n).preempts = s.preempts := s.setFld64_preempts _ _ _

/-! ### nextFree -/

@[simp] theorem State.nextFree_pending (s : State)  : (s.nextFree.2).pending = s.pending := by unfold State.nextFree; rfl
@[simp] theorem State.nextFree_now (s : State)  : (s.nextFree.2).now = s.now := by unfold State.nextFree; rfl
@[simp] theorem State.nextFree_regs (s : State)  : (s.nextFree.2).regs = s.regs := by unfold State.nextFree; rfl
@[simp] theorem State.nextFree_links (s : State)  : (s.nextFree.2).links = s.links := by unfold State.nextFree; rfl
@[simp] theorem State.nextFree_tick (s : State)  : (s.nextFree.2).tick = s.tick := by unfold State.nextFree; rfl
@[simp] theorem State.nextFree_units (s : State)  : (s.nextFree.2).units = s.units := by unfold State.nextFree; rfl
@[simp] theorem State.nextFree_ward (s : State)  : (s.nextFree.2).ward = s.ward := by unfold State.nextFree; rfl
@[simp] theorem State.nextFree_xlt (s : State)  : (s.nextFree.2).xlt = s.xlt := by unfold State.nextFree; rfl
@[simp] theorem State.nextFree_mem (s : State)  : (s.nextFree.2).mem = s.mem := by unfold State.nextFree; rfl
@[simp] theorem State.nextFree_host (s : State)  : (s.nextFree.2).host = s.host := by unfold State.nextFree; rfl
@[simp] theorem State.nextFree_bb (s : State)  : (s.nextFree.2).bb = s.bb := by unfold State.nextFree; rfl
@[simp] theorem State.nextFree_tmb (s : State)  : (s.nextFree.2).tmb = s.tmb := by unfold State.nextFree; rfl
@[simp] theorem State.nextFree_boot (s : State)  : (s.nextFree.2).boot = s.boot := by unfold State.nextFree; rfl
@[simp] theorem State.nextFree_mgt (s : State)  : (s.nextFree.2).mgt = s.mgt := by unfold State.nextFree; rfl
@[simp] theorem State.nextFree_pins (s : State)  : (s.nextFree.2).pins = s.pins := by unfold State.nextFree; rfl
@[simp] theorem State.nextFree_tc (s : State)  : (s.nextFree.2).tc = s.tc := by unfold State.nextFree; rfl
@[simp] theorem State.nextFree_ptl (s : State)  : (s.nextFree.2).ptl = s.ptl := by unfold State.nextFree; rfl
@[simp] theorem State.nextFree_vc (s : State)  : (s.nextFree.2).vc = s.vc := by unfold State.nextFree; rfl
@[simp] theorem State.nextFree_coh (s : State)  : (s.nextFree.2).coh = s.coh := by unfold State.nextFree; rfl
@[simp] theorem State.nextFree_pwr (s : State)  : (s.nextFree.2).pwr = s.pwr := by unfold State.nextFree; rfl
@[simp] theorem State.nextFree_kwy (s : State)  : (s.nextFree.2).kwy = s.kwy := by unfold State.nextFree; rfl
@[simp] theorem State.nextFree_jtag (s : State)  : (s.nextFree.2).jtag = s.jtag := by unfold State.nextFree; rfl
@[simp] theorem State.nextFree_accs (s : State)  : (s.nextFree.2).accs = s.accs := by unfold State.nextFree; rfl
@[simp] theorem State.nextFree_nextAcc (s : State)  : (s.nextFree.2).nextAcc = s.nextAcc := by unfold State.nextFree; rfl
@[simp] theorem State.nextFree_preempts (s : State)  : (s.nextFree.2).preempts = s.preempts := by unfold State.nextFree; rfl

/-! ### setFnSt -/

@[simp] theorem State.setFnSt_pending (s : State) (fn : Nat) (x : FnSt) : (s.setFnSt fn x).pending = s.pending := by unfold State.setFnSt; rfl
@[simp] theorem State.setFnSt_now (s : State) (fn : Nat) (x : FnSt) : (s.setFnSt fn x).now = s.now := by unfold State.setFnSt; rfl
@[simp] theorem State.setFnSt_freeCtr (s : State) (fn : Nat) (x : FnSt) : (s.setFnSt fn x).freeCtr = s.freeCtr := by unfold State.setFnSt; rfl
@[simp] theorem State.setFnSt_regs (s : State) (fn : Nat) (x : FnSt) : (s.setFnSt fn x).regs = s.regs := by unfold State.setFnSt; rfl
@[simp] theorem State.setFnSt_links (s : State) (fn : Nat) (x : FnSt) : (s.setFnSt fn x).links = s.links := by unfold State.setFnSt; rfl
@[simp] theorem State.setFnSt_tick (s : State) (fn : Nat) (x : FnSt) : (s.setFnSt fn x).tick = s.tick := by unfold State.setFnSt; rfl
@[simp] theorem State.setFnSt_units (s : State) (fn : Nat) (x : FnSt) : (s.setFnSt fn x).units = s.units := by unfold State.setFnSt; rfl
@[simp] theorem State.setFnSt_ward (s : State) (fn : Nat) (x : FnSt) : (s.setFnSt fn x).ward = s.ward := by unfold State.setFnSt; rfl
@[simp] theorem State.setFnSt_xlt (s : State) (fn : Nat) (x : FnSt) : (s.setFnSt fn x).xlt = s.xlt := by unfold State.setFnSt; rfl
@[simp] theorem State.setFnSt_mem (s : State) (fn : Nat) (x : FnSt) : (s.setFnSt fn x).mem = s.mem := by unfold State.setFnSt; rfl
@[simp] theorem State.setFnSt_bb (s : State) (fn : Nat) (x : FnSt) : (s.setFnSt fn x).bb = s.bb := by unfold State.setFnSt; rfl
@[simp] theorem State.setFnSt_tmb (s : State) (fn : Nat) (x : FnSt) : (s.setFnSt fn x).tmb = s.tmb := by unfold State.setFnSt; rfl
@[simp] theorem State.setFnSt_boot (s : State) (fn : Nat) (x : FnSt) : (s.setFnSt fn x).boot = s.boot := by unfold State.setFnSt; rfl
@[simp] theorem State.setFnSt_mgt (s : State) (fn : Nat) (x : FnSt) : (s.setFnSt fn x).mgt = s.mgt := by unfold State.setFnSt; rfl
@[simp] theorem State.setFnSt_pins (s : State) (fn : Nat) (x : FnSt) : (s.setFnSt fn x).pins = s.pins := by unfold State.setFnSt; rfl
@[simp] theorem State.setFnSt_tc (s : State) (fn : Nat) (x : FnSt) : (s.setFnSt fn x).tc = s.tc := by unfold State.setFnSt; rfl
@[simp] theorem State.setFnSt_ptl (s : State) (fn : Nat) (x : FnSt) : (s.setFnSt fn x).ptl = s.ptl := by unfold State.setFnSt; rfl
@[simp] theorem State.setFnSt_vc (s : State) (fn : Nat) (x : FnSt) : (s.setFnSt fn x).vc = s.vc := by unfold State.setFnSt; rfl
@[simp] theorem State.setFnSt_coh (s : State) (fn : Nat) (x : FnSt) : (s.setFnSt fn x).coh = s.coh := by unfold State.setFnSt; rfl
@[simp] theorem State.setFnSt_pwr (s : State) (fn : Nat) (x : FnSt) : (s.setFnSt fn x).pwr = s.pwr := by unfold State.setFnSt; rfl
@[simp] theorem State.setFnSt_kwy (s : State) (fn : Nat) (x : FnSt) : (s.setFnSt fn x).kwy = s.kwy := by unfold State.setFnSt; rfl
@[simp] theorem State.setFnSt_jtag (s : State) (fn : Nat) (x : FnSt) : (s.setFnSt fn x).jtag = s.jtag := by unfold State.setFnSt; rfl
@[simp] theorem State.setFnSt_accs (s : State) (fn : Nat) (x : FnSt) : (s.setFnSt fn x).accs = s.accs := by unfold State.setFnSt; rfl
@[simp] theorem State.setFnSt_nextAcc (s : State) (fn : Nat) (x : FnSt) : (s.setFnSt fn x).nextAcc = s.nextAcc := by unfold State.setFnSt; rfl
@[simp] theorem State.setFnSt_preempts (s : State) (fn : Nat) (x : FnSt) : (s.setFnSt fn x).preempts = s.preempts := by unfold State.setFnSt; rfl

/-! ### hostWrite -/

@[simp] theorem State.hostWrite_pending (s : State) (a : Nat) (bs : List Byte) : (s.hostWrite a bs).pending = s.pending := by unfold State.hostWrite; simp
@[simp] theorem State.hostWrite_now (s : State) (a : Nat) (bs : List Byte) : (s.hostWrite a bs).now = s.now := by unfold State.hostWrite; simp
@[simp] theorem State.hostWrite_freeCtr (s : State) (a : Nat) (bs : List Byte) : (s.hostWrite a bs).freeCtr = s.freeCtr := by unfold State.hostWrite; simp
@[simp] theorem State.hostWrite_links (s : State) (a : Nat) (bs : List Byte) : (s.hostWrite a bs).links = s.links := by unfold State.hostWrite; simp
@[simp] theorem State.hostWrite_tick (s : State) (a : Nat) (bs : List Byte) : (s.hostWrite a bs).tick = s.tick := by unfold State.hostWrite; simp
@[simp] theorem State.hostWrite_units (s : State) (a : Nat) (bs : List Byte) : (s.hostWrite a bs).units = s.units := by unfold State.hostWrite; simp
@[simp] theorem State.hostWrite_ward (s : State) (a : Nat) (bs : List Byte) : (s.hostWrite a bs).ward = s.ward := by unfold State.hostWrite; simp
@[simp] theorem State.hostWrite_xlt (s : State) (a : Nat) (bs : List Byte) : (s.hostWrite a bs).xlt = s.xlt := by unfold State.hostWrite; simp
@[simp] theorem State.hostWrite_mem (s : State) (a : Nat) (bs : List Byte) : (s.hostWrite a bs).mem = s.mem := by unfold State.hostWrite; simp
@[simp] theorem State.hostWrite_bb (s : State) (a : Nat) (bs : List Byte) : (s.hostWrite a bs).bb = s.bb := by unfold State.hostWrite; simp
@[simp] theorem State.hostWrite_tmb (s : State) (a : Nat) (bs : List Byte) : (s.hostWrite a bs).tmb = s.tmb := by unfold State.hostWrite; simp
@[simp] theorem State.hostWrite_boot (s : State) (a : Nat) (bs : List Byte) : (s.hostWrite a bs).boot = s.boot := by unfold State.hostWrite; simp
@[simp] theorem State.hostWrite_mgt (s : State) (a : Nat) (bs : List Byte) : (s.hostWrite a bs).mgt = s.mgt := by unfold State.hostWrite; simp
@[simp] theorem State.hostWrite_pins (s : State) (a : Nat) (bs : List Byte) : (s.hostWrite a bs).pins = s.pins := by unfold State.hostWrite; simp
@[simp] theorem State.hostWrite_tc (s : State) (a : Nat) (bs : List Byte) : (s.hostWrite a bs).tc = s.tc := by unfold State.hostWrite; simp
@[simp] theorem State.hostWrite_ptl (s : State) (a : Nat) (bs : List Byte) : (s.hostWrite a bs).ptl = s.ptl := by unfold State.hostWrite; simp
@[simp] theorem State.hostWrite_vc (s : State) (a : Nat) (bs : List Byte) : (s.hostWrite a bs).vc = s.vc := by unfold State.hostWrite; simp
@[simp] theorem State.hostWrite_coh (s : State) (a : Nat) (bs : List Byte) : (s.hostWrite a bs).coh = s.coh := by unfold State.hostWrite; simp
@[simp] theorem State.hostWrite_pwr (s : State) (a : Nat) (bs : List Byte) : (s.hostWrite a bs).pwr = s.pwr := by unfold State.hostWrite; simp
@[simp] theorem State.hostWrite_kwy (s : State) (a : Nat) (bs : List Byte) : (s.hostWrite a bs).kwy = s.kwy := by unfold State.hostWrite; simp
@[simp] theorem State.hostWrite_jtag (s : State) (a : Nat) (bs : List Byte) : (s.hostWrite a bs).jtag = s.jtag := by unfold State.hostWrite; simp
@[simp] theorem State.hostWrite_accs (s : State) (a : Nat) (bs : List Byte) : (s.hostWrite a bs).accs = s.accs := by unfold State.hostWrite; simp
@[simp] theorem State.hostWrite_nextAcc (s : State) (a : Nat) (bs : List Byte) : (s.hostWrite a bs).nextAcc = s.nextAcc := by unfold State.hostWrite; simp
@[simp] theorem State.hostWrite_preempts (s : State) (a : Nat) (bs : List Byte) : (s.hostWrite a bs).preempts = s.preempts := by unfold State.hostWrite; simp

/-! ### Registers -/

theorem State.reg_setReg (s : State) (a b : Nat) (v : Word) : (s.setReg a v).reg b = if b = a then v else s.reg b := by
  simp [State.reg, State.setReg, kvGet_set]

@[simp] theorem State.reg_setReg_same (s : State) (a : Nat) (v : Word) : (s.setReg a v).reg a = v := by simp [State.reg_setReg]

theorem State.reg_setReg_other (s : State) {a b : Nat} (v : Word) (h : b ≠ a) : (s.setReg a v).reg b = s.reg b := by
  simp [State.reg_setReg, h]

theorem State.reg_setFld_other (s : State) (f : RegField) (v : Nat) {a : Nat} (h : a ≠ f.addr) : (s.setFld f v).reg a = s.reg a :=
  s.reg_setReg_other _ h

/-- A field reads as the value last written into it. -/
theorem State.fld_setFld_same (s : State) (f : RegField) (v : Nat) (h1 : f.lo ≤ f.hi) (h2 : f.hi < 32) :
    (s.setFld f v).fld f = v % 2 ^ (f.hi - f.lo + 1) := by
  have hw : f.lo + (f.hi - f.lo + 1) ≤ 32 := by omega
  simp only [State.fld, State.setFld, State.reg_setReg_same, BitVec.toNat_ofNat]
  rw [natBits_mod _ _ _ _ hw, natBits_setBits_same]

theorem State.fld_setFld_other (s : State) (f g : RegField) (v : Nat) (h : g.addr ≠ f.addr) : (s.setFld f v).fld g = s.fld g := by
  simp [State.fld, s.reg_setFld_other f v h]

theorem State.fld_setFld_disjoint (s : State) (f g : RegField) (v : Nat) (ha : g.addr = f.addr) (hf : f.lo ≤ f.hi)
    (hg : g.lo ≤ g.hi) (h2 : g.hi < 32) (h : g.hi < f.lo ∨ f.hi < g.lo) : (s.setFld f v).fld g = s.fld g := by
  have hw : g.lo + (g.hi - g.lo + 1) ≤ 32 := by omega
  have hd : g.lo + (g.hi - g.lo + 1) ≤ f.lo ∨ f.lo + (f.hi - f.lo + 1) ≤ g.lo := by omega
  simp only [State.fld, State.setFld, ha, State.reg_setReg_same, BitVec.toNat_ofNat]
  rw [natBits_mod _ _ _ _ hw, natBits_setBits_other _ _ _ _ _ _ hd]

theorem State.fld_setFlag_other (s : State) (f g : RegField) (b : Bool) (h : g.addr ≠ f.addr) : (s.setFlag f b).fld g = s.fld g :=
  s.fld_setFld_other f g _ h

theorem State.flag_setFlag_same (s : State) (f : RegField) (b : Bool) (h1 : f.lo = f.hi) (h2 : f.hi < 32) : (s.setFlag f b).flag f = b := by
  have := s.fld_setFld_same f (if b then 1 else 0) (Nat.le_of_eq h1) h2
  simp only [State.flag, State.setFlag, this, h1, Nat.sub_self]
  cases b <;> rfl

theorem State.flag_setFlag_other (s : State) (f g : RegField) (b : Bool) (h : g.addr ≠ f.addr) : (s.setFlag f b).flag g = s.flag g := by
  simp [State.flag, s.fld_setFlag_other f g b h]

theorem State.fld_bump_other (s : State) (f g : RegField) (h : g.addr ≠ f.addr) : (s.bump f).fld g = s.fld g :=
  s.fld_setFld_other f g _ h

theorem State.flag_setFld_other (s : State) (f g : RegField) (v : Nat) (h : g.addr ≠ f.addr) : (s.setFld f v).flag g = s.flag g := by
  simp [State.flag, s.fld_setFld_other f g v h]

/-- A counter that saturates counts one, up to its largest value. -/
theorem State.fld_bump_same (s : State) (f : RegField) (h1 : f.lo ≤ f.hi) (h2 : f.hi < 32) :
    (s.bump f).fld f = min (s.fld f + 1) (2 ^ (f.hi - f.lo + 1) - 1) := by
  have e := s.fld_setFld_same f (min (s.fld f + 1) (2 ^ (f.hi - f.lo + 1) - 1)) h1 h2
  have hlt : min (s.fld f + 1) (2 ^ (f.hi - f.lo + 1) - 1) < 2 ^ (f.hi - f.lo + 1) := by
    have := Nat.two_pow_pos (f.hi - f.lo + 1)
    omega
  rw [Nat.mod_eq_of_lt hlt] at e
  exact e

end Sys2Proof.Machine
end

