-- ==== Sys2Proof/Laws/TCore.lean ====
section
/-! SUPPORT. Laws of T-core issue and of the registers of a lane. -/

namespace Sys2Proof.Machine

/-- An instruction that goes past the checks of its issue is counted and carried out. -/
theorem State.issue_of_issues {s : State} {core slot opc : Nat} {w0 : BitVec 64} {f : OpForm} {b : TBlock} {g : TGroup}
    (h : s.Issues core slot opc w0 f b g) (act : State → TBlock → TGroup → State) :
    s.issue core slot opc w0 f act = act (s.issuedOn core) b g := by
  obtain ⟨h1, h2, h3, h4, h5, h6⟩ := h
  have h0 : f.takes opc w0 = some f := if_pos h1
  simp only [State.issue, h0, h2, h3, h4, h5, h6, Bool.false_eq_true, if_false]

theorem State.lanesOp_of_issues {s : State} {core slot opc : Nat} {w0 : BitVec 64} {f : OpForm} {b : TBlock} {g : TGroup}
    (h : s.Issues core slot opc w0 f b g) (op : TBlock → TGroup → Nat → TGroup → TGroup) :
    s.lanesOp core slot opc w0 f op =
      (s.issuedOn core).advance core slot f.words ((g.acting w0).foldl (fun h l => op b g l h) g) := by
  rw [State.lanesOp, State.issue_of_issues h]

theorem maskBits_nodup (n m : Nat) : (maskBits n m).Nodup := (List.nodup_range).filter _

theorem maskBits_lt {n m i : Nat} (h : i ∈ maskBits n m) : i < n := by
  simp only [maskBits, List.mem_filter, List.mem_range] at h
  exact h.1

theorem TGroup.acting_nodup (g : TGroup) (w0 : BitVec 64) : (g.acting w0).Nodup := (maskBits_nodup _ _).filter _

theorem TGroup.acting_lt {g : TGroup} {w0 : BitVec 64} {l : Nat} (h : l ∈ g.acting w0) : l < 32 := by
  simp only [TGroup.acting, List.mem_filter] at h
  exact maskBits_lt h.1

@[simp] theorem State.reg_setTgroup (s : State) (core slot : Nat) (g : Option TGroup) (a : Nat) : (s.setTgroup core slot g).reg a = s.reg a := by
  simp only [State.setTgroup, State.reg]

@[simp] theorem State.fld_setTgroup (s : State) (core slot : Nat) (g : Option TGroup) (f : RegField) :
    (s.setTgroup core slot g).fld f = s.fld f := by
  simp only [State.fld, State.reg_setTgroup]

theorem State.tgroup_setTgroup (s : State) (core slot : Nat) (g : Option TGroup) (c k : Nat) :
    (s.setTgroup core slot g).tgroup c k = if c * 32 + k = core * 32 + slot then g else s.tgroup c k := by
  simp only [State.setTgroup, State.tgroup, kvGet_set]

theorem State.setReg_rest (s : State) (a : Nat) (v : Word) : s.setReg a v = { s with regs := (s.setReg a v).regs } := rfl

theorem State.bump_rest (s : State) (f : RegField) : s.bump f = { s with regs := (s.bump f).regs } := s.setReg_rest _ _

theorem State.setTgroup_rest (s : State) (core slot : Nat) (g : Option TGroup) :
    s.setTgroup core slot g = { s with tc := { s.tc with groups := (s.setTgroup core slot g).tc.groups } } := rfl

theorem State.issuedOn_rest (s : State) (core : Nat) : s.issuedOn core =
    { s with regs := (s.issuedOn core).regs, tc := { s.tc with issuedAt := kvSet (fun _ => 0) s.tc.issuedAt core (s.now + 1) } } := State.bump_rest _ _

theorem State.reg_issuedOn_other (s : State) (core : Nat) {a : Nat} (h : a ≠ (RF.TCW_ISSUE_COUNT core).addr) : (s.issuedOn core).reg a = s.reg a :=
  State.reg_setFld_other { s with tc := { s.tc with issuedAt := kvSet (fun _ => 0) s.tc.issuedAt core (s.now + 1) } } _ _ h

theorem State.fld_issuedOn (s : State) (core : Nat) : (s.issuedOn core).fld (RF.TCW_ISSUE_COUNT core) =
    min (s.fld (RF.TCW_ISSUE_COUNT core) + 1) (2 ^ 32 - 1) :=
  State.fld_bump_same { s with tc := { s.tc with issuedAt := kvSet (fun _ => 0) s.tc.issuedAt core (s.now + 1) } } (RF.TCW_ISSUE_COUNT core)
    (by simp [RF.TCW_ISSUE_COUNT]) (by simp [RF.TCW_ISSUE_COUNT])

@[simp] theorem State.tgroup_issuedOn (s : State) (core c k : Nat) : (s.issuedOn core).tgroup c k = s.tgroup c k := by
  rw [State.tgroup, State.issuedOn, State.bump_tc, State.tgroup]

@[simp] theorem State.issuedAt_issuedOn (s : State) (core : Nat) :
    (s.issuedOn core).tc.issuedAt = kvSet (fun _ => 0) s.tc.issuedAt core (s.now + 1) := by
  rw [State.issuedOn, State.bump_tc]

theorem State.setTgroup_issuedAt (s : State) (core slot : Nat) (g : Option TGroup) : (s.setTgroup core slot g).tc.issuedAt = s.tc.issuedAt := rfl

theorem State.groupTo_rest {s x : State} {core slot : Nat} {g : Option TGroup} {a : KV Nat}
    (e : x = { s with regs := x.regs, tc := { s.tc with issuedAt := a } }) :
    x.setTgroup core slot g = { s with
      regs := (x.setTgroup core slot g).regs
      tc := { s.tc with groups := (x.setTgroup core slot g).tc.groups, issuedAt := (x.setTgroup core slot g).tc.issuedAt } } := by
  generalize x.regs = R at e
  subst e
  rfl

/-- An instruction that puts its group back changes that group and the issue count alone. -/
theorem State.setTgroup_groupTo (s : State) (core slot : Nat) (g : TGroup) :
    s.GroupTo ((s.issuedOn core).setTgroup core slot (some g)) core slot g where
  count := by rw [State.fld_setTgroup, State.fld_issuedOn]
  regs := fun a ha => by rw [State.reg_setTgroup, State.reg_issuedOn_other _ _ ha]
  group := by rw [State.tgroup_setTgroup, if_pos rfl]
  groups := fun c k hk => by rw [State.tgroup_setTgroup, if_neg hk, State.tgroup_issuedOn]
  issued := (State.setTgroup_issuedAt _ core slot _).trans (State.issuedAt_issuedOn s core)
  rest := State.groupTo_rest (State.issuedOn_rest s core)

theorem State.advance_groupStep (s : State) (core slot words : Nat) (h : TGroup) :
    s.GroupStep ((s.issuedOn core).advance core slot words h) core slot words h :=
  s.setTgroup_groupTo core slot _

/-! ### Registers of a lane -/

theorem TGroup.reg_255 (g : TGroup) (l : Nat) : g.reg l 255 = 0 := by simp [TGroup.reg]

theorem TGroup.reg_setReg (g : TGroup) {l l' : Nat} (r v r' : Nat) (hl : l < 32) (hl' : l' < 32) :
    (g.setReg l r v).reg l' r' = if l' = l ∧ r' = r ∧ r ≠ 255 then v % 2 ^ 32 else g.reg l' r' := by
  by_cases hr : r = 255
  · simp [TGroup.setReg, hr]
  · by_cases h255 : r' = 255
    · simp [h255, TGroup.reg_255, Ne.symm hr]
    · simp only [TGroup.setReg, hr, if_false, TGroup.reg, h255, kvGet_set, not_false_eq_true, and_true, ne_eq]
      have : (32 * r' + l' = 32 * r + l) ↔ (l' = l ∧ r' = r) := by omega
      simp only [this]

theorem TGroup.setReg_rest (g : TGroup) (l r v : Nat) :
    g.setReg l r v = { g with regs := (g.setReg l r v).regs, pend := (g.setReg l r v).pend } := by
  unfold TGroup.setReg
  split <;> rfl

theorem TGroup.setReg_pend (g : TGroup) (l r v : Nat) :
    (g.setReg l r v).pend = g.pend.filter (fun q => !(q.2.1 == l && decide (q.1 = r ∧ r ≠ 255))) := by
  unfold TGroup.setReg
  split
  · next h => simp [h]
  · next h =>
    simp only [TGroup.overtake, h, ne_eq, not_false_eq_true, and_true]
    apply List.filter_congr
    intro q _
    by_cases h1 : q.1 = r <;> by_cases h2 : q.2.1 = l <;> simp [h1, h2]

theorem TGroup.wr_rest (g : TGroup) (l r v n : Nat) : g.wr l r v n = { g with regs := (g.wr l r v n).regs, pend := (g.wr l r v n).pend } := by
  induction n generalizing g r v with
  | zero => rfl
  | succ n ih =>
    simp only [TGroup.wr]
    rw [ih, TGroup.setReg_rest]

theorem TGroup.wr_pend (g : TGroup) (l r v n : Nat) :
    (g.wr l r v n).pend = g.pend.filter (fun q => !(q.2.1 == l && decide (r ≤ q.1 ∧ q.1 < r + n ∧ q.1 ≠ 255))) := by
  induction n generalizing g r v with
  | zero =>
    rw [TGroup.wr, eq_comm, List.filter_eq_self]
    intro q _
    have : decide (r ≤ q.1 ∧ q.1 < r + 0 ∧ q.1 ≠ 255) = false := decide_eq_false (by omega)
    rw [this, Bool.and_false]
    rfl
  | succ n ih =>
    rw [TGroup.wr, ih, TGroup.setReg_pend, List.filter_filter]
    apply List.filter_congr
    intro q _
    have : (r ≤ q.1 ∧ q.1 < r + (n + 1) ∧ q.1 ≠ 255) ↔ (r + 1 ≤ q.1 ∧ q.1 < r + 1 + n ∧ q.1 ≠ 255) ∨ (q.1 = r ∧ r ≠ 255) := by omega
    simp only [this]
    cases h : (q.2.1 == l) <;> simp

theorem TGroup.reg_wr (g : TGroup) {l l' : Nat} (r v n r' : Nat) (hl : l < 32) (hl' : l' < 32) :
    (g.wr l r v n).reg l' r' =
      if l' = l ∧ r ≤ r' ∧ r' < r + n ∧ r' ≠ 255 then natBits v (32 * (r' - r)) 32 else g.reg l' r' := by
  induction n generalizing g r v with
  | zero => simp only [TGroup.wr]; rw [if_neg (by omega)]
  | succ n ih =>
    simp only [TGroup.wr, ih, TGroup.reg_setReg g r v r' hl hl']
    by_cases h1 : l' = l ∧ r + 1 ≤ r' ∧ r' < r + 1 + n ∧ r' ≠ 255
    · have h2 : l' = l ∧ r ≤ r' ∧ r' < r + (n + 1) ∧ r' ≠ 255 := by omega
      rw [if_pos h1, if_pos h2]
      have e : 32 * (r' - r) = 32 + 32 * (r' - (r + 1)) := by omega
      rw [e]
      simp only [natBits, pow_add, Nat.div_div_eq_div_mul]
    · rw [if_neg h1]
      by_cases h3 : l' = l ∧ r' = r ∧ r ≠ 255
      · have h2 : l' = l ∧ r ≤ r' ∧ r' < r + (n + 1) ∧ r' ≠ 255 := by omega
        rw [if_pos h3, if_pos h2]
        simp [natBits, h3.2.1]
      · rw [if_neg h3, if_neg (by omega)]

/-- Writing a value lane by lane, each lane's computed from the group as it was. -/
theorem TGroup.foldl_wr_writes (g : TGroup) (d n : Nat) (val : Nat → Nat) (lanes : List Nat) (hnd : lanes.Nodup) (hlt : ∀ l ∈ lanes, l < 32) :
    g.Writes (lanes.foldl (fun h l => h.wr l d (val l) n) g) lanes d n val ∧
      (lanes.foldl (fun h l => h.wr l d (val l) n) g) =
        { g with regs := (lanes.foldl (fun h l => h.wr l d (val l) n) g).regs, pend := (lanes.foldl (fun h l => h.wr l d (val l) n) g).pend } := by
  have key : ∀ (ls : List Nat) (g0 : TGroup), ls.Nodup → (∀ l ∈ ls, l < 32) →
      (∀ l' < 32, ∀ r', (ls.foldl (fun h l => h.wr l d (val l) n) g0).reg l' r' =
        if l' ∈ ls ∧ d ≤ r' ∧ r' < d + n ∧ r' ≠ 255 then natBits (val l') (32 * (r' - d)) 32 else g0.reg l' r') ∧
      (ls.foldl (fun h l => h.wr l d (val l) n) g0).pend =
        g0.pend.filter (fun q => !(ls.contains q.2.1 && decide (d ≤ q.1 ∧ q.1 < d + n ∧ q.1 ≠ 255))) ∧
      ∃ R P, (ls.foldl (fun h l => h.wr l d (val l) n) g0) = { g0 with regs := R, pend := P } := by
    intro ls
    induction ls with
    | nil => intro g0 _ _; exact ⟨fun l' _ r' => by simp, by simp, g0.regs, g0.pend, rfl⟩
    | cons a t ih =>
      intro g0 hn hl
      have hn' := List.nodup_cons.mp hn
      obtain ⟨i1, i3, R, P, i2⟩ := ih (g0.wr a d (val a) n) hn'.2 (fun l h => hl l (by simp [h]))
      refine ⟨?_, ?_, ?_⟩
      · intro l' hl' r'
        simp only [List.foldl_cons, i1 l' hl' r', TGroup.reg_wr g0 d (val a) n r' (hl a (by simp)) hl', List.mem_cons]
        by_cases e : l' = a
        · subst e
          by_cases c : d ≤ r' ∧ r' < d + n ∧ r' ≠ 255
          · simp [hn'.1, c]
          · have c1 : ¬ (l' ∈ t ∧ d ≤ r' ∧ r' < d + n ∧ r' ≠ 255) := fun h => c h.2
            simp [c1, c]
        · simp [e]
      · rw [List.foldl_cons, i3, TGroup.wr_pend, List.filter_filter]
        apply List.filter_congr
        intro q _
        rw [List.contains_cons]
        cases (q.2.1 == a) <;> cases t.contains q.2.1 <;> simp
      · refine ⟨R, P, ?_⟩
        rw [List.foldl_cons, i2, TGroup.wr_rest g0 a d (val a) n]
  obtain ⟨k1, k3, R, P, k2⟩ := key lanes g hnd hlt
  refine ⟨⟨?_, ?_, k3⟩, by rw [k2]⟩
  · intro l hl i hi
    rw [k1 l (hlt l hl)]
    by_cases e : d + i = 255
    · have : ¬ (l ∈ lanes ∧ d ≤ d + i ∧ d + i < d + n ∧ d + i ≠ 255) := fun h => h.2.2.2 e
      rw [if_neg this, if_pos e, e, TGroup.reg_255]
    · rw [if_pos ⟨hl, by omega, by omega, e⟩, if_neg e]
      congr 2
      omega
  · intro l hl r h
    rw [k1 l hl, if_neg]
    exact fun h' => h ⟨h'.1, h'.2.1, h'.2.2.1⟩

/-! ### Predicates and flags of a lane -/

theorem natBit_setBits (x l v j : Nat) : natBit (natSetBits x l 1 v) j = if j = l then v % 2 == 1 else natBit x j := by
  have e : ∀ y i, natBit y i = Nat.testBit y i := fun y i => by
    rw [natBit, Nat.testBit_eq_decide_div_mod_eq]
    by_cases h : y / 2 ^ i % 2 = 1 <;> simp [h]
  rw [e, natSetBits_testBit]
  by_cases h : j = l
  · subst h
    have : j ≤ j ∧ j < j + 1 := by omega
    rw [if_pos this, if_pos rfl, Nat.sub_self, ← e, natBit]
    simp
  · rw [if_neg (by omega), if_neg h, e]

theorem TGroup.pred_setPred (g : TGroup) (l p : Nat) (b : Bool) (l' q : Nat) :
    (g.setPred l p b).pred l' q = if l' = l ∧ q = p ∧ p ≠ 7 then b else g.pred l' q := by
  by_cases hp : p = 7
  · simp [TGroup.setPred, hp]
  · by_cases hq : q = 7
    · have : ¬ (l' = l ∧ q = p ∧ p ≠ 7) := by omega
      rw [if_neg this]
      simp [TGroup.pred, hq]
    · simp only [TGroup.setPred, TGroup.pred, hp, hq, if_false, kvGet_set]
      by_cases h : q = p
      · subst h
        simp only [if_true, natBit_setBits]
        by_cases hl : l' = l
        · cases b <;> simp [hl, hq]
        · simp [hl]
      · simp [h]

theorem TGroup.setPred_pend (g : TGroup) (l p : Nat) (b : Bool) :
    (g.setPred l p b).pend = g.pend.filter (fun q => !(q.2.1 == l && decide (q.1 = 256 + p ∧ p ≠ 7))) := by
  unfold TGroup.setPred
  split
  · next h => simp [h]
  · next h =>
    simp only [TGroup.overtake, h, ne_eq, not_false_eq_true, and_true]
    apply List.filter_congr
    intro q _
    by_cases h1 : q.1 = 256 + p <;> by_cases h2 : q.2.1 = l <;> simp [h1, h2]

theorem TGroup.foldl_setPred_writes (g : TGroup) (p : Nat) (val : Nat → Bool) (lanes : List Nat) :
    g.WritesPred (lanes.foldl (fun h l => h.setPred l p (val l)) g) lanes p val ∧
      ∃ P N, (lanes.foldl (fun h l => h.setPred l p (val l)) g) = { g with preds := P, pend := N } := by
  have key : ∀ (ls : List Nat) (g0 : TGroup),
      (∀ l' q, (ls.foldl (fun h l => h.setPred l p (val l)) g0).pred l' q = if l' ∈ ls ∧ q = p ∧ p ≠ 7 then val l' else g0.pred l' q) ∧
      (ls.foldl (fun h l => h.setPred l p (val l)) g0).pend = g0.pend.filter (fun q => !(ls.contains q.2.1 && decide (q.1 = 256 + p ∧ p ≠ 7))) ∧
      ∃ P N, (ls.foldl (fun h l => h.setPred l p (val l)) g0) = { g0 with preds := P, pend := N } := by
    intro ls
    induction ls with
    | nil => intro g0; exact ⟨fun l' q => by simp, by simp, g0.preds, g0.pend, rfl⟩
    | cons a t ih =>
      intro g0
      obtain ⟨i1, i3, P, N, i2⟩ := ih (g0.setPred a p (val a))
      refine ⟨fun l' q => ?_, ?_, P, N, ?_⟩
      · rw [List.foldl_cons, i1, TGroup.pred_setPred]
        by_cases e : l' = a
        · subst e
          by_cases c : q = p ∧ p ≠ 7 <;> simp [c]
        · simp [e]
      · rw [List.foldl_cons, i3, TGroup.setPred_pend, List.filter_filter]
        apply List.filter_congr
        intro q _
        rw [List.contains_cons]
        cases (q.2.1 == a) <;> cases t.contains q.2.1 <;> simp
      · rw [List.foldl_cons, i2, TGroup.setPred]
        split <;> rfl
  obtain ⟨k1, k3, k2⟩ := key lanes g
  refine ⟨⟨fun l hl => ?_, fun l q h => ?_, k3⟩, k2⟩
  · rw [k1]
    by_cases e : p = 7
    · simp [e, TGroup.pred]
    · simp [e, hl]
  · rw [k1, if_neg (fun h' => h ⟨h'.1, h'.2.1⟩)]

theorem TGroup.setFlags_regs (g : TGroup) (l x : Nat) : (g.setFlags l x).regs = g.regs := rfl

theorem TGroup.flags_setFlags (g : TGroup) (l x l' : Nat) : kvGet (fun _ => 0) (g.setFlags l x).flags l' =
    if l' = l then Nat.lor (kvGet (fun _ => 0) g.flags l) x else kvGet (fun _ => 0) g.flags l' := by
  simp only [TGroup.setFlags, kvGet_set]

/-- Lane by lane, a step that joins flags into its lane. -/
theorem TGroup.foldl_joins (g : TGroup) (f : TGroup → Nat → TGroup) (fl : Nat → Nat)
    (hf : ∀ h l l', kvGet (fun _ => 0) (f h l).flags l' =
      if l' = l then Nat.lor (kvGet (fun _ => 0) h.flags l) (fl l) else kvGet (fun _ => 0) h.flags l')
    (lanes : List Nat) (hnd : lanes.Nodup) : g.JoinsFlags (lanes.foldl f g) lanes fl := by
  have key : ∀ (ls : List Nat) (g0 : TGroup), ls.Nodup → ∀ l',
      kvGet (fun _ => 0) (ls.foldl f g0).flags l' =
        if l' ∈ ls then Nat.lor (kvGet (fun _ => 0) g0.flags l') (fl l') else kvGet (fun _ => 0) g0.flags l' := by
    intro ls
    induction ls with
    | nil => intro g0 _ l'; simp
    | cons a t ih =>
      intro g0 hn l'
      have hn' := List.nodup_cons.mp hn
      rw [List.foldl_cons, ih _ hn'.2, hf]
      by_cases e : l' = a
      · subst e; simp [hn'.1]
      · simp [e]
  exact ⟨fun l hl => by rw [key lanes g hnd, if_pos hl], fun l hl => by rw [key lanes g hnd, if_neg hl]⟩

/-- Lane by lane, a step that writes D of its lane and changes flags: the registers, and what is on its way, are those of the writes alone. -/
theorem TGroup.foldl_wr_flags (g : TGroup) (d n : Nat) (val : Nat → Nat) (f : TGroup → Nat → TGroup)
    (hf : ∀ h l, ∃ F, f h l = { h.wr l d (val l) n with flags := F }) (lanes : List Nat) :
    (lanes.foldl f g).regs = (lanes.foldl (fun h l => h.wr l d (val l) n) g).regs ∧
      (lanes.foldl f g).pend = (lanes.foldl (fun h l => h.wr l d (val l) n) g).pend ∧
      ∃ R P F, lanes.foldl f g = { g with regs := R, pend := P, flags := F } := by
  have hw : ∀ (k a r v : Nat) (x y : TGroup), x.regs = y.regs → (x.wr a r v k).regs = (y.wr a r v k).regs := by
    intro k
    induction k with
    | zero => intro a r v x y e; exact e
    | succ k ihk =>
      intro a r v x y e
      refine ihk _ _ _ _ _ ?_
      simp only [TGroup.setReg]
      split
      · exact e
      · simp only [e]
  have key : ∀ (ls : List Nat) (g0 g1 : TGroup), g0.regs = g1.regs → g0.pend = g1.pend →
      (ls.foldl f g0).regs = (ls.foldl (fun h l => h.wr l d (val l) n) g1).regs ∧
      (ls.foldl f g0).pend = (ls.foldl (fun h l => h.wr l d (val l) n) g1).pend ∧
      ∃ R P F, ls.foldl f g0 = { g0 with regs := R, pend := P, flags := F } := by
    intro ls
    induction ls with
    | nil => intro g0 g1 h hp; exact ⟨h, hp, g0.regs, g0.pend, g0.flags, rfl⟩
    | cons a t ih =>
      intro g0 g1 h hp
      obtain ⟨F0, h0⟩ := hf g0 a
      obtain ⟨i1, i3, R, P, F, i2⟩ := ih (f g0 a) (g1.wr a d (val a) n) (by rw [h0]; exact hw _ _ _ _ _ _ h)
        (by rw [h0]; show (g0.wr a d (val a) n).pend = _; rw [TGroup.wr_pend, TGroup.wr_pend, hp])
      refine ⟨by rw [List.foldl_cons, List.foldl_cons]; exact i1, by rw [List.foldl_cons, List.foldl_cons]; exact i3, R, P, F, ?_⟩
      rw [List.foldl_cons, i2, h0, TGroup.wr_rest g0 a d (val a) n]
  exact key lanes g g rfl rfl

/-- Lane by lane, a step that writes a predicate of its lane and changes flags. -/
theorem TGroup.foldl_setPred_flags (g : TGroup) (p : Nat) (val : Nat → Bool) (f : TGroup → Nat → TGroup)
    (hf : ∀ h l, ∃ F, f h l = { h.setPred l p (val l) with flags := F }) (lanes : List Nat) :
    (lanes.foldl f g).preds = (lanes.foldl (fun h l => h.setPred l p (val l)) g).preds ∧
      (lanes.foldl f g).pend = (lanes.foldl (fun h l => h.setPred l p (val l)) g).pend ∧
      ∃ P N F, lanes.foldl f g = { g with preds := P, pend := N, flags := F } := by
  have key : ∀ (ls : List Nat) (g0 g1 : TGroup), g0.preds = g1.preds → g0.pend = g1.pend →
      (ls.foldl f g0).preds = (ls.foldl (fun h l => h.setPred l p (val l)) g1).preds ∧
      (ls.foldl f g0).pend = (ls.foldl (fun h l => h.setPred l p (val l)) g1).pend ∧
      ∃ P N F, ls.foldl f g0 = { g0 with preds := P, pend := N, flags := F } := by
    intro ls
    induction ls with
    | nil => intro g0 g1 h hp; exact ⟨h, hp, g0.preds, g0.pend, g0.flags, rfl⟩
    | cons a t ih =>
      intro g0 g1 h hp
      obtain ⟨F0, h0⟩ := hf g0 a
      obtain ⟨i1, i3, P, N, F, i2⟩ := ih (f g0 a) (g1.setPred a p (val a)) (by
        rw [h0]
        simp only [TGroup.setPred]
        split
        · exact h
        · simp only [h])
        (by rw [h0]; show (g0.setPred a p (val a)).pend = _; rw [TGroup.setPred_pend, TGroup.setPred_pend, hp])
      refine ⟨by rw [List.foldl_cons, List.foldl_cons]; exact i1, by rw [List.foldl_cons, List.foldl_cons]; exact i3, P, N, F, ?_⟩
      rw [List.foldl_cons, i2, h0, TGroup.setPred]
      split <;> rfl
  exact key lanes g g rfl rfl

theorem TGroup.Writes.congr {g h h' : TGroup} {lanes : List Nat} {d n : Nat} {val : Nat → Nat} (w : g.Writes h lanes d n val)
    (e : h'.regs = h.regs) (p : h'.pend = h.pend) : g.Writes h' lanes d n val := by
  have r : ∀ l r, h'.reg l r = h.reg l r := fun l r => by simp only [TGroup.reg, e]
  exact ⟨fun l hl i hi => by rw [r, w.written l hl i hi], fun l hl q hq => by rw [r, w.others l hl q hq], p.trans w.pend⟩

theorem TGroup.WritesPred.congr {g h h' : TGroup} {lanes : List Nat} {p : Nat} {val : Nat → Bool} (w : g.WritesPred h lanes p val)
    (e : h'.preds = h.preds) (q : h'.pend = h.pend) : g.WritesPred h' lanes p val := by
  have r : ∀ l q, h'.pred l q = h.pred l q := fun l q => by simp only [TGroup.pred, e]
  exact ⟨fun l hl => by rw [r, w.written l hl], fun l q hq => by rw [r, w.others l q hq], q.trans w.pend⟩

end Sys2Proof.Machine
end

