-- ==== Sys2Proof/Laws/Tmb.lean ====
section
/-! SUPPORT. What the operations of a tumbler's home leave in the tumblers and in their counters. -/

namespace Sys2Proof.Machine

@[simp] theorem State.tmbAt_setFld (s : State) (f : RegField) (v n : Nat) : (s.setFld f v).tmbAt n = s.tmbAt n := by
  unfold State.tmbAt; rw [State.setFld_tmb]
@[simp] theorem State.tmbAt_setReg (s : State) (a : Nat) (v : Word) (n : Nat) : (s.setReg a v).tmbAt n = s.tmbAt n := by
  unfold State.tmbAt; rw [State.setReg_tmb]
@[simp] theorem State.tmbAt_bump (s : State) (f : RegField) (n : Nat) : (s.bump f).tmbAt n = s.tmbAt n := by
  unfold State.tmbAt; rw [State.bump_tmb]
@[simp] theorem State.tmbAt_bumpN (s : State) (f : RegField) (k n : Nat) : (s.bumpN f k).tmbAt n = s.tmbAt n := by
  unfold State.tmbAt; rw [State.bumpN_tmb]
@[simp] theorem State.tmbAt_setTmb (s : State) (n m : Nat) (t : Tmb) : (s.setTmb n t).tmbAt m = if m = n then t else s.tmbAt m := by
  unfold State.tmbAt State.setTmb; simp only [kvGet_set]
@[simp] theorem State.tmbAt_putTmb (s : State) (n m : Nat) (t : Tmb) : (s.putTmb n t).tmbAt m = if m = n then t else s.tmbAt m := by
  unfold State.putTmb; rw [State.tmbAt_setFld, State.tmbAt_setTmb]
@[simp] theorem State.tmbAt_note (s : State) (x : TmbSrc) (n m : Nat) (a : TmbAns) : (s.note x n a).tmbAt m = s.tmbAt m := rfl
@[simp] theorem State.tmbAt_notes (n m : Nat) (a : TmbAns) : ∀ (ws : List TmbWait) (s : State), (s.notes n a ws).tmbAt m = s.tmbAt m
  | [], _ => rfl
  | w :: r, s => by rw [State.notes, State.tmbAt_notes n m a r, State.tmbAt_note]
@[simp] theorem State.tmbAt_offer (leaf m : Nat) : ∀ (k : Nat) (s : State), (s.offer leaf k).tmbAt m = s.tmbAt m
  | 0, _ => rfl
  | k + 1, s => by
    unfold State.offer
    split
    · rfl
    · exact State.tmbAt_offer leaf m k _
/-- A wait's end leaves its tumbler with the waits whose condition does not hold. -/
theorem State.tmbAt_endWaits (s : State) (n : Nat) :
    (s.endWaits n).tmbAt n = { s.tmbAt n with waits := ((s.tmbAt n).waits.partition (fun w => (s.tmbAt n).ended w.operand)).2 } := by
  simp only [State.endWaits, State.tmbAt_offer, State.tmbAt_notes, State.tmbAt_putTmb, if_true]
@[simp] theorem State.raiseVector_tmb (s : State) (fn v : Nat) : (s.raiseVector fn v).tmb = s.tmb := by
  simp only [State.raiseVector]; repeat' split
  all_goals rfl
@[simp] theorem State.notifyHost_tmb (s : State) (n g : Nat) : (s.notifyHost n g).tmb = s.tmb := by
  simp only [State.notifyHost]
  split
  · split
    · rw [State.bump_tmb]
    · rw [State.raiseVector_tmb, State.setFld_tmb, State.hostWrite_tmb]
  · rfl
@[simp] theorem State.tmbAt_pulsePins (s : State) (n m : Nat) : (s.pulsePins n).tmbAt m = s.tmbAt m := rfl
/-- A firing raises GEN by 1 and ends the waits whose condition then holds. -/
theorem State.tmbAt_fireTmb (s : State) (n : Nat) :
    ∃ ws, (s.fireTmb n).tmbAt n = { s.tmbAt n with gen := ((s.tmbAt n).gen + 1) % 65536, waits := ws } := by
  have e : ∀ u : State, (u.notifyHost n (((s.tmbAt n).gen + 1) % 65536)).tmbAt n = u.tmbAt n := fun u => by
    unfold State.tmbAt; rw [State.notifyHost_tmb]
  simp only [State.fireTmb, State.tmbAt_endWaits, State.tmbAt_pulsePins]
  split
  · simp only [e, State.tmbAt_bump, State.tmbAt_putTmb, if_true]; exact ⟨_, rfl⟩
  · simp only [State.tmbAt_bump, State.tmbAt_putTmb, if_true]; exact ⟨_, rfl⟩
@[simp] theorem State.fireTmb_gen (s : State) (n : Nat) : ((s.fireTmb n).tmbAt n).gen = ((s.tmbAt n).gen + 1) % 65536 := by
  obtain ⟨ws, e⟩ := s.tmbAt_fireTmb n; rw [e]
@[simp] theorem State.fireTmb_kind (s : State) (n : Nat) : ((s.fireTmb n).tmbAt n).kind = (s.tmbAt n).kind := by
  obtain ⟨ws, e⟩ := s.tmbAt_fireTmb n; rw [e]
@[simp] theorem State.fireTmb_value (s : State) (n : Nat) : ((s.fireTmb n).tmbAt n).value = (s.tmbAt n).value := by
  obtain ⟨ws, e⟩ := s.tmbAt_fireTmb n; rw [e]
@[simp] theorem State.fireTmb_target (s : State) (n : Nat) : ((s.fireTmb n).tmbAt n).target = (s.tmbAt n).target := by
  obtain ⟨ws, e⟩ := s.tmbAt_fireTmb n; rw [e]
@[simp] theorem State.fireTmb_expected (s : State) (n : Nat) : ((s.fireTmb n).tmbAt n).expected = (s.tmbAt n).expected := by
  obtain ⟨ws, e⟩ := s.tmbAt_fireTmb n; rw [e]
@[simp] theorem State.fireTmb_tokens (s : State) (n : Nat) : ((s.fireTmb n).tmbAt n).tokens = (s.tmbAt n).tokens := by
  obtain ⟨ws, e⟩ := s.tmbAt_fireTmb n; rw [e]
@[simp] theorem State.tmbAt_relay (n w m : Nat) : ∀ (l : List Nat) (s : State), (s.relay n w l).tmbAt m = s.tmbAt m
  | [], _ => rfl
  | i :: r, s => by rw [State.relay, State.tmbAt_relay n w m r]; rfl

theorem State.reg_hostWrite (s : State) (a : Nat) (bs : List Byte) (b : Nat) (h : b ≠ RA.HIF_D2H_BYTES ∧ b ≠ RA.HIF_D2H_BYTES + 4) :
    (s.hostWrite a bs).reg b = s.reg b := by
  simp only [State.hostWrite, State.bump64, State.setFld64]
  rw [State.reg_setFld_other _ _ _ h.2, State.reg_setFld_other _ _ _ h.1]
  simp only [State.reg]
@[simp] theorem State.reg_raiseVector (s : State) (fn v a : Nat) : (s.raiseVector fn v).reg a = s.reg a := by
  simp only [State.raiseVector]; repeat' split
  all_goals simp only [State.reg]
theorem State.reg_notes (n : Nat) (x : TmbAns) (a : Nat) : ∀ (ws : List TmbWait) (s : State), (s.notes n x ws).reg a = s.reg a
  | [], _ => rfl
  | w :: r, s => by rw [State.notes, State.reg_notes n x a r]; simp only [State.note, State.reg]
theorem State.reg_offer (leaf a : Nat) : ∀ (k : Nat) (s : State), (s.offer leaf k).reg a = s.reg a
  | 0, _ => rfl
  | k + 1, s => by
    unfold State.offer
    split
    · rfl
    · rw [State.reg_offer leaf a k]; simp only [State.reg]
theorem State.reg_putTmb (s : State) (n : Nat) (t : Tmb) (a : Nat) (h : a ≠ RA.TMB_STATE n) : (s.putTmb n t).reg a = s.reg a := by
  unfold State.putTmb; rw [State.reg_setFld_other _ _ _ h]; simp only [State.setTmb, State.reg]
theorem State.reg_relay (n w a : Nat) : ∀ (l : List Nat) (s : State), (s.relay n w l).reg a = s.reg a
  | [], _ => rfl
  | i :: r, s => by rw [State.relay, State.reg_relay n w a r]; simp only [State.reg]
theorem State.reg_endWaits (s : State) (n a : Nat) (h : a ≠ RA.TMB_STATE n) : (s.endWaits n).reg a = s.reg a := by
  simp only [State.endWaits]; rw [State.reg_offer, State.reg_notes, State.reg_putTmb _ _ _ _ h]
/-- A firing changes no register but the tumbler's state, the count of firings and the host's notification and byte counters. -/
theorem State.reg_fireTmb (s : State) (n a : Nat) (h1 : a ≠ RA.TMB_STATE n) (h2 : a ≠ RA.MGT_TMB_FIRES (tmbLeaf n))
    (h3 : a ≠ RA.HIF_D2H_BYTES ∧ a ≠ RA.HIF_D2H_BYTES + 4) (h4 : ∀ fn, a ≠ RA.HIF_NT_TAIL + fnBase fn) (h5 : ∀ fn, a ≠ RA.HIF_NT_LOST + fnBase fn) :
    (s.fireTmb n).reg a = s.reg a := by
  have e : ∀ (u : State) g, (u.notifyHost n g).reg a = u.reg a := fun u g => by
    simp only [State.notifyHost]
    split
    · split
      · exact State.reg_setFld_other _ _ _ (h5 _)
      · rw [State.reg_raiseVector, State.reg_setFld_other _ _ _ (h4 _), State.reg_hostWrite _ _ _ _ h3]
    · rfl
  have p : ∀ u : State, (u.pulsePins n).reg a = u.reg a := fun u => by simp only [State.pulsePins, State.reg]
  simp only [State.fireTmb]
  rw [State.reg_endWaits _ _ _ h1, p]
  split
  · rw [e, State.bump, State.bumpN, State.reg_setFld_other _ _ _ h2, State.reg_putTmb _ _ _ _ h1]
  · rw [State.bump, State.bumpN, State.reg_setFld_other _ _ _ h2, State.reg_putTmb _ _ _ _ h1]

end Sys2Proof.Machine
end

