-- ==== Sys2Proof/Laws/VCore.lean ====
section
/-! SUPPORT. Laws of V-core issue and retirement. -/

namespace Sys2Proof.Machine

theorem State.vissue_of_vissues {s t : State} {core x : Nat} {w : BitVec 32} (h : s.VIssues core w t x) (f : State → Nat → State) :
    s.vissue core w f = f t x := by
  obtain ⟨h1, h2, h3⟩ := h
  simp only [State.vissue, h1, h2, h3, if_true]

@[simp] theorem State.vcore_setVcore (s : State) (c : Nat) (v : VCore) (c' : Nat) :
    (s.setVcore c v).vcore c' = if c' = c then v else s.vcore c' := by
  simp only [State.vcore, State.setVcore, kvGet_set]

theorem State.vcore_setReg (s : State) (a : Nat) (v : Word) (c : Nat) : (s.setReg a v).vcore c = s.vcore c := by
  simp only [State.vcore, State.setReg_vc]

@[simp] theorem State.vcore_setFld (s : State) (f : RegField) (n c : Nat) : (s.setFld f n).vcore c = s.vcore c := s.vcore_setReg _ _ _
@[simp] theorem State.vcore_setFlag (s : State) (f : RegField) (b : Bool) (c : Nat) : (s.setFlag f b).vcore c = s.vcore c := s.vcore_setFld _ _ _
@[simp] theorem State.vcore_bumpN (s : State) (f : RegField) (n c : Nat) : (s.bumpN f n).vcore c = s.vcore c := s.vcore_setFld _ _ _
@[simp] theorem State.vcore_bump (s : State) (f : RegField) (c : Nat) : (s.bump f).vcore c = s.vcore c := s.vcore_setFld _ _ _
@[simp] theorem State.vcore_addVctr (s : State) (k n x c : Nat) : (s.addVctr k n x).vcore c = s.vcore c := by
  simp only [State.addVctr, State.setVctr, State.vcore]

@[simp] theorem State.reg_setVcore (s : State) (c : Nat) (v : VCore) (a : Nat) : (s.setVcore c v).reg a = s.reg a := by
  simp only [State.setVcore, State.reg]
@[simp] theorem State.fld_setVcore (s : State) (c : Nat) (v : VCore) (f : RegField) : (s.setVcore c v).fld f = s.fld f := by
  simp only [State.fld, State.reg_setVcore]
@[simp] theorem State.reg_addVctr (s : State) (k n x a : Nat) : (s.addVctr k n x).reg a = s.reg a := by
  simp only [State.addVctr, State.setVctr, State.reg]
@[simp] theorem State.fld_addVctr (s : State) (k n x : Nat) (f : RegField) : (s.addVctr k n x).fld f = s.fld f := by
  simp only [State.fld, State.reg_addVctr]
@[simp] theorem State.mem_setVcore (s : State) (c : Nat) (v : VCore) : (s.setVcore c v).mem = s.mem := by simp only [State.setVcore]
@[simp] theorem State.host_setVcore (s : State) (c : Nat) (v : VCore) : (s.setVcore c v).host = s.host := by simp only [State.setVcore]
@[simp] theorem State.mem_addVctr (s : State) (k n x : Nat) : (s.addVctr k n x).mem = s.mem := by simp only [State.addVctr, State.setVctr]
@[simp] theorem State.host_addVctr (s : State) (k n x : Nat) : (s.addVctr k n x).host = s.host := by simp only [State.addVctr, State.setVctr]

/-- An instruction that leaves its core as `v` and retires. -/
theorem State.vretireTo_retires (t : State) (core : Nat) (v : VCore) (pc : Nat) :
    t.VRetires ((t.setVcore core v).vretireTo core pc) core v pc where
  here := by simp [State.vretireTo]
  others := fun c hc => by simp [State.vretireTo, hc]
  instret := by
    have e : ((t.setVcore core v).vretireTo core pc).fld (RF.VCW_INSTRET_COUNT core) =
        ((t.setVcore core v).bump (RF.VCW_INSTRET_COUNT core)).fld (RF.VCW_INSTRET_COUNT core) := by
      simp only [State.vretireTo, State.fld_setVcore, State.fld_addVctr]
    rw [e, State.fld_bump_same, State.fld_setVcore]
    all_goals simp [RF.VCW_INSTRET_COUNT]
  mem := by simp [State.vretireTo]
  host := by simp [State.vretireTo]

theorem State.vretire_retires (t : State) (core : Nat) (v : VCore) (w : BitVec 32) :
    t.VRetires ((t.setVcore core v).vretire core w) core v (v.pc + iLen w) := by
  have h := t.vretireTo_retires core v (v.pc + iLen w)
  rw [State.vretire]
  simpa using h

/-- The same with a busy counter of another register counted first. -/
theorem State.busy_retires (t : State) (core : Nat) (v : VCore) (w : BitVec 32) (f : RegField) (n k : Nat)
    (hf : f.addr ≠ (RF.VCW_INSTRET_COUNT core).addr) :
    t.VRetires ((((t.setVcore core v).bumpN f n).addVctr core k n).vretire core w) core v (v.pc + iLen w) where
  here := by simp [State.vretire, State.vretireTo]
  others := fun c hc => by simp [State.vretire, State.vretireTo, hc]
  instret := by
    have e : ((((t.setVcore core v).bumpN f n).addVctr core k n).vretire core w).fld (RF.VCW_INSTRET_COUNT core) =
        ((((t.setVcore core v).bumpN f n).addVctr core k n).bump (RF.VCW_INSTRET_COUNT core)).fld (RF.VCW_INSTRET_COUNT core) := by
      simp only [State.vretire, State.vretireTo, State.fld_setVcore, State.fld_addVctr]
    have e2 : ((t.setVcore core v).bumpN f n).fld (RF.VCW_INSTRET_COUNT core) = t.fld (RF.VCW_INSTRET_COUNT core) := by
      simp only [State.fld, State.bumpN]
      rw [State.reg_setFld_other _ _ _ (Ne.symm hf)]
      simp
    rw [e, State.fld_bump_same, State.fld_addVctr, e2]
    all_goals simp [RF.VCW_INSTRET_COUNT]
  mem := by simp [State.vretire, State.vretireTo]
  host := by simp [State.vretire, State.vretireTo]

end Sys2Proof.Machine
end

