-- ==== Sys2Proof/WellFormed.lean ====
section
/-! DEFINITION. Well-formed commands: every number among a command's operands names something the device has. No command is refused for it:
an ill-formed command is one that no sender can send, and a statement may exclude it. -/

namespace Sys2Proof

/-- Lanes of a link: its direction, one of at most 40 bundles, one of 68 lanes (R846). -/
def laneIds (l : List LaneId) : Bool := l.all (fun x => decide (x.1 < 2) && decide (x.2.1 < 40) && decide (x.2.2 < 68))

/-- Is a command well-formed? -/
def Instr.wf : Instr → Bool
  | .registerWrite fn _ _ => decide (fn < 17)
  | .fabBlockSend die vc _ dst src sect tag payload => decide (die < 10) && decide (vc < 4) && decide (dst < 10) && decide (src < 10) && decide (sect < 256) && decide (tag < 65536) && decide (payload.length = 256)
  | .fabBlockReceive dir _ => decide (dir < 28)
  | .fabAckTimeout dir => decide (dir < 28)
  | .fabRetrainDone link bad => decide (link < 14) && laneIds bad
  | .fabRetrainTimeout link => decide (link < 14)
  | .tickInRisingEdge _ => true
  | .tickInFallingEdge _ => true
  | .internalTick => true
  | .tick => true
  | .tickLoss => true
  | .holdoverTick => true
  | .syncReq => true
  | .endOfFrame => true
  | .barrierWatchdog core blk bar => decide (core < 512) && decide (blk < 32) && decide (bar < 16)
  | .snapshotRecordWrite => true
  | .powerCapUpdate => true
  | .freqChange => true
  | .partialImageApply => true
  | .admission => true
  | .startGateRegister unit => decide (unit < 1024)
  | .startGateOpen unit => decide (unit < 1024)
  | .programRetire unit => decide (unit < 1024)
  | .tckUHaltedClear unit => decide (unit < 1024)
  | .wardLoadGo => true
  | .wardFetchError _ => true
  | .verificationComplete _ => true
  | .wardQuiesce slot => decide (slot < 1024)
  | .wardQuiesceCancel slot => decide (slot < 1024)
  | .blockDescriptorFetch unit => decide (unit < 1024)
  | .blockLaunch unit _ => decide (unit < 1024)
  | .blockComplete core blk => decide (core < 512) && decide (blk < 32)
  | .loadDataReturn _ _ _ => true
  | .storeAck _ => true
  | .homeAccess _ _ _ => true
  | .tPreempt core => decide (core < 512)
  | .tDrainDone core => decide (core < 512)
  | .tSaveDone core => decide (core < 512)
  | .tRestoreDone core _ _ => decide (core < 512)
  | .mxeDescAccept core eng => decide (core < 512) && decide (eng < 4)
  | .mxeChunkCommit core eng => decide (core < 512) && decide (eng < 4)
  | .mxeDescRetire core eng => decide (core < 512) && decide (eng < 4)
  | .vxeDescAccept core eng => decide (core < 512) && decide (eng < 4)
  | .vxeDescStart core eng => decide (core < 512) && decide (eng < 4)
  | .vxeDescComplete core eng => decide (core < 512) && decide (eng < 4)
  | .nop core slot _ _ => decide (core < 512) && decide (slot < 32)
  | .iadd core slot _ _ => decide (core < 512) && decide (slot < 32)
  | .isub core slot _ _ => decide (core < 512) && decide (slot < 32)
  | .imul core slot _ _ => decide (core < 512) && decide (slot < 32)
  | .imulh core slot _ _ => decide (core < 512) && decide (slot < 32)
  | .imad core slot _ _ => decide (core < 512) && decide (slot < 32)
  | .imin core slot _ _ => decide (core < 512) && decide (slot < 32)
  | .imax core slot _ _ => decide (core < 512) && decide (slot < 32)
  | .iabs core slot _ _ => decide (core < 512) && decide (slot < 32)
  | .and core slot _ _ => decide (core < 512) && decide (slot < 32)
  | .or core slot _ _ => decide (core < 512) && decide (slot < 32)
  | .xor core slot _ _ => decide (core < 512) && decide (slot < 32)
  | .not core slot _ _ => decide (core < 512) && decide (slot < 32)
  | .shl core slot _ _ => decide (core < 512) && decide (slot < 32)
  | .shr core slot _ _ => decide (core < 512) && decide (slot < 32)
  | .sar core slot _ _ => decide (core < 512) && decide (slot < 32)
  | .popc core slot _ _ => decide (core < 512) && decide (slot < 32)
  | .clz core slot _ _ => decide (core < 512) && decide (slot < 32)
  | .mov core slot _ _ => decide (core < 512) && decide (slot < 32)
  | .movi core slot _ _ => decide (core < 512) && decide (slot < 32)
  | .sel core slot _ _ => decide (core < 512) && decide (slot < 32)
  | .isetp core slot _ _ => decide (core < 512) && decide (slot < 32)
  | .plop core slot _ _ => decide (core < 512) && decide (slot < 32)
  | .shfl core slot _ _ => decide (core < 512) && decide (slot < 32)
  | .vote core slot _ _ => decide (core < 512) && decide (slot < 32)
  | .s2r core slot _ _ => decide (core < 512) && decide (slot < 32)
  | .flgRd core slot _ _ => decide (core < 512) && decide (slot < 32)
  | .flgClr core slot _ _ => decide (core < 512) && decide (slot < 32)
  | .fadd core slot _ _ => decide (core < 512) && decide (slot < 32)
  | .fsub core slot _ _ => decide (core < 512) && decide (slot < 32)
  | .fmul core slot _ _ => decide (core < 512) && decide (slot < 32)
  | .ffma core slot _ _ => decide (core < 512) && decide (slot < 32)
  | .fmin core slot _ _ => decide (core < 512) && decide (slot < 32)
  | .fmax core slot _ _ => decide (core < 512) && decide (slot < 32)
  | .fsetp core slot _ _ => decide (core < 512) && decide (slot < 32)
  | .frnd core slot _ _ => decide (core < 512) && decide (slot < 32)
  | .fdiv core slot _ _ => decide (core < 512) && decide (slot < 32)
  | .fsqrt core slot _ _ => decide (core < 512) && decide (slot < 32)
  | .dadd core slot _ _ => decide (core < 512) && decide (slot < 32)
  | .dsub core slot _ _ => decide (core < 512) && decide (slot < 32)
  | .dmul core slot _ _ => decide (core < 512) && decide (slot < 32)
  | .dfma core slot _ _ => decide (core < 512) && decide (slot < 32)
  | .dmin core slot _ _ => decide (core < 512) && decide (slot < 32)
  | .dmax core slot _ _ => decide (core < 512) && decide (slot < 32)
  | .dsetp core slot _ _ => decide (core < 512) && decide (slot < 32)
  | .drnd core slot _ _ => decide (core < 512) && decide (slot < 32)
  | .ddiv core slot _ _ => decide (core < 512) && decide (slot < 32)
  | .dsqrt core slot _ _ => decide (core < 512) && decide (slot < 32)
  | .cvt core slot _ _ => decide (core < 512) && decide (slot < 32)
  | .exit core slot _ _ => decide (core < 512) && decide (slot < 32)
  | .bra core slot _ _ => decide (core < 512) && decide (slot < 32)
  | .join core slot _ _ => decide (core < 512) && decide (slot < 32)
  | .call core slot _ _ => decide (core < 512) && decide (slot < 32)
  | .jmpr core slot _ _ => decide (core < 512) && decide (slot < 32)
  | .trap core slot _ _ => decide (core < 512) && decide (slot < 32)
  | .ldl core slot _ _ => decide (core < 512) && decide (slot < 32)
  | .stl core slot _ _ => decide (core < 512) && decide (slot < 32)
  | .atoml core slot _ _ => decide (core < 512) && decide (slot < 32)
  | .ld core slot _ _ => decide (core < 512) && decide (slot < 32)
  | .st core slot _ _ => decide (core < 512) && decide (slot < 32)
  | .atom core slot _ _ => decide (core < 512) && decide (slot < 32)
  | .ldc core slot _ _ => decide (core < 512) && decide (slot < 32)
  | .stc core slot _ _ => decide (core < 512) && decide (slot < 32)
  | .mxa core slot _ _ => decide (core < 512) && decide (slot < 32)
  | .vxa core slot _ _ => decide (core < 512) && decide (slot < 32)
  | .waitq core slot _ _ => decide (core < 512) && decide (slot < 32)
  | .accRel core slot _ _ => decide (core < 512) && decide (slot < 32)
  | .accRds core slot _ _ => decide (core < 512) && decide (slot < 32)
  | .accFclr core slot _ _ => decide (core < 512) && decide (slot < 32)
  | .barSync core slot _ _ => decide (core < 512) && decide (slot < 32)
  | .barArv core slot _ _ => decide (core < 512) && decide (slot < 32)
  | .fence core slot _ _ => decide (core < 512) && decide (slot < 32)
  | .tmbArv core slot _ _ => decide (core < 512) && decide (slot < 32)
  | .tmbPoll core slot _ _ => decide (core < 512) && decide (slot < 32)
  | .tmbWait core slot _ _ => decide (core < 512) && decide (slot < 32)
  | .tmbTake core slot _ _ => decide (core < 512) && decide (slot < 32)
  | .tmbPut core slot _ _ => decide (core < 512) && decide (slot < 32)
  | .tmbFireNotify _ => true
  | .tmbWaitTimeout tcore core slot => decide (core < if tcore then 512 else 128) && decide (slot < 32)
  | .tmbRefusalReturn _ => true
  | .tmbHomeArrive _ => true
  | .tmbHomePoll _ => true
  | .tmbHomeWait _ => true
  | .tmbHomeTake _ => true
  | .tmbHomePut _ => true
  | .tmbCfgWrite tmb _ => decide (tmb < 32768)
  | .tmbOpArrive tmb _ => decide (tmb < 32768)
  | .tmbOpReset tmb => decide (tmb < 32768)
  | .vcoreItemStart unit _ => decide (unit < 1024)
  | .vcoreLoadStore core _ _ => decide (core < 128)
  | .lr core _ _ => decide (core < 128)
  | .sc core _ _ => decide (core < 128)
  | .amo core _ _ => decide (core < 128)
  | .vcoreFence core _ => decide (core < 128)
  | .fenceI core _ => decide (core < 128)
  | .sfenceVma core _ => decide (core < 128)
  | .vcoreTrap core => decide (core < 128)
  | .vcoreInterrupt core => decide (core < 128)
  | .vadd core _ => decide (core < 128)
  | .vsub core _ => decide (core < 128)
  | .vmul core _ => decide (core < 128)
  | .vfma core _ => decide (core < 128)
  | .vfnms core _ => decide (core < 128)
  | .vdiv core _ => decide (core < 128)
  | .vsqrt core _ => decide (core < 128)
  | .vmin core _ => decide (core < 128)
  | .vmax core _ => decide (core < 128)
  | .vand core _ => decide (core < 128)
  | .vor core _ => decide (core < 128)
  | .vxor core _ => decide (core < 128)
  | .vsll core _ => decide (core < 128)
  | .vsrl core _ => decide (core < 128)
  | .vsra core _ => decide (core < 128)
  | .vmerge core _ => decide (core < 128)
  | .vcmpeq core _ => decide (core < 128)
  | .vcmplt core _ => decide (core < 128)
  | .vcmple core _ => decide (core < 128)
  | .vredosum core _ => decide (core < 128)
  | .vredtsum core _ => decide (core < 128)
  | .vredmax core _ => decide (core < 128)
  | .vredmin core _ => decide (core < 128)
  | .vslide core _ => decide (core < 128)
  | .vcvt core _ => decide (core < 128)
  | .vmv core _ => decide (core < 128)
  | .vpopc core _ => decide (core < 128)
  | .vfirst core _ => decide (core < 128)
  | .vld core _ => decide (core < 128)
  | .vst core _ => decide (core < 128)
  | .vldx core _ => decide (core < 128)
  | .vstx core _ => decide (core < 128)
  | .vldc core _ => decide (core < 128)
  | .vstc core _ => decide (core < 128)
  | .xslvTranslationDone core => decide (core < 128)
  | .xslvAccessDone core _ => decide (core < 128)
  | .xmop core _ => decide (core < 128)
  | .xmzero core _ => decide (core < 128)
  | .xmrd core _ => decide (core < 128)
  | .xmwr core _ => decide (core < 128)
  | .tarv core _ => decide (core < 128)
  | .tpoll core _ => decide (core < 128)
  | .twait core _ => decide (core < 128)
  | .ttake core _ => decide (core < 128)
  | .tput core _ => decide (core < 128)
  | .xslitemDone core _ => decide (core < 128)
  | .xslitemAbort core _ => decide (core < 128)
  | .vPreempt core => decide (core < 128)
  | .vSaveDone core => decide (core < 128)
  | .vRestoreDone core _ _ => decide (core < 128)
  | .reductionRetire _ => true
  | .adviceClear _ => true
  | .adviceHot _ => true
  | .adviceCold _ => true
  | .adviceStream _ => true
  | .advicePin _ => true
  | .adviceUnpin _ => true
  | .adviceLeaf _ => true
  | .adviceDead _ => true
  | .adviceDrop _ => true
  | .adviceClass _ => true
  | .migrationBlockCopy _ => true
  | .regulatorWindow stack => decide (stack < 32)
  | .saturationWindow => true
  | .hbmLineRead stack _ _ _ => decide (stack < 32)
  | .patrolScrub stack _ _ _ => decide (stack < 32)
  | .memMapoutGo stack channel => decide (stack < 32) && decide (channel < 32)
  | .channelMapoutDone stack channel => decide (stack < 32) && decide (channel < 32)
  | .rds core _ _ => decide (core < 128)
  | .rdx core _ _ => decide (core < 128)
  | .upg core _ => decide (core < 128)
  | .wbd core _ => decide (core < 128)
  | .evc core _ => decide (core < 128)
  | .snps core _ => decide (core < 128)
  | .snpw core _ => decide (core < 128)
  | .snpi core _ => decide (core < 128)
  | .inv core _ => decide (core < 128)
  | .snoopReply core _ => decide (core < 128)
  | .grant core _ => decide (core < 128)
  | .holdEnd core _ => decide (core < 128)
  | .snoopTimeout core => decide (core < 128)
  | .cohKillCore _ => true
  | .cohKillDie _ => true
  | .reclaimWalkDone => true
  | .rangeWalkDone leaf walker => decide (leaf < 2) && decide (walker < 8)
  | .faultRecordFlush _ => true
  | .xltResumeGo token => decide (token < 65536)
  | .xltResumeAbort token => decide (token < 65536)
  | .copyHoldExpire token => decide (token < 65536)
  | .invalAck _ _ => true
  | .xltRdIdxWrite index => decide (index < 524288)
  | .doorbellSqtail fn q _ => decide (fn < 17) && decide (q < 4096)
  | .doorbellCqhead fn q _ => decide (fn < 17) && decide (q < 4096)
  | .queueEnable fn q _ => decide (fn < 17) && decide (q < 4096)
  | .queueDisable fn q _ => decide (fn < 17) && decide (q < 4096)
  | .commandFetch q _ => decide (q < 4096)
  | .nopCommand _ => true
  | .launch _ => true
  | .copy _ => true
  | .copyBlock _ _ _ _ => true
  | .copyWaitTimeout _ => true
  | .flushReadComplete _ => true
  | .inline _ => true
  | .tumblerArrive _ => true
  | .tumblerPoll _ => true
  | .tumblerWait _ => true
  | .tumblerWaitTmo _ => true
  | .tumblerTake _ => true
  | .tumblerPut _ => true
  | .tumblerReset _ => true
  | .fenceCommand _ => true
  | .map _ => true
  | .unmap _ => true
  | .prefetch _ => true
  | .winOpen _ => true
  | .winClose _ => true
  | .wardLoad _ => true
  | .wardQuiesceCommand _ => true
  | .vfFlr fn => decide (fn < 17)
  | .portTrained port lanes => decide (port < 16) && decide (lanes < 256)
  | .hello port _ => decide (port < 16)
  | .pintleBlockSend _ _ => true
  | .pintleBlockReceive port _ => decide (port < 16)
  | .pintleAckTimeout port => decide (port < 16)
  | .pintleRetrainDone port lanes => decide (port < 16) && decide (lanes < 256)
  | .portDownTimeout port => decide (port < 16)
  | .portRetrainRetry port => decide (port < 16)
  | .ptlRetrainReq port _ => decide (port < 16)
  | .addressMapWrite entry word _ => decide (entry < 65535) && decide (word < 4)
  | .pairKeyDerived leaf _ => decide (leaf < 2)
  | .read _ => true
  | .write _ => true
  | .atomic _ => true
  | .reduce _ => true
  | .arrive _ => true
  | .rdData _ => true
  | .atomicData _ => true
  | .ack _ => true
  | .refuse _ => true
  | .responseTimeout _ => true
  | .powerWindow _ => true
  | .avsConfirm die => decide (die < 8)
  | .voltRaiseTimeout die => decide (die < 8)
  | .droopDetect die => decide (die < 8)
  | .droopResponseEnd die => decide (die < 8)
  | .thermalSample _ => true
  | .pwrBrakeAssert => true
  | .arbCommit _ => true
  | .release _ _ => true
  | .sealedLoad _ => true
  | .sealedLoadChunk _ _ => true
  | .drop _ => true
  | .kwyErase _ => true
  | .getVersion binding _ _ => decide (binding < 2)
  | .getCapabilities binding _ _ => decide (binding < 2)
  | .negotiateAlgorithms binding _ _ => decide (binding < 2)
  | .getDigests binding _ _ => decide (binding < 2)
  | .getCertificate binding _ _ => decide (binding < 2)
  | .challenge binding _ _ => decide (binding < 2)
  | .getMeasurements binding _ _ => decide (binding < 2)
  | .keyExchange binding _ _ => decide (binding < 2)
  | .finish binding _ _ => decide (binding < 2)
  | .heartbeat binding _ _ => decide (binding < 2)
  | .keyUpdate binding _ _ => decide (binding < 2)
  | .endSession binding _ _ => decide (binding < 2)
  | .coldStart _ _ _ badLanes _ => laneIds (badLanes.map (fun p => p.2))
  | .warmStart _ badLanes => laneIds (badLanes.map (fun p => p.2))
  | .warmGo _ _ badLanes => laneIds (badLanes.map (fun p => p.2))
  | .pwrokDeassert => true
  | .fwPushGo _ => true
  | .fwCheckDone _ => true
  | .wardenWatchdog warden => decide (warden < 4)
  | .setEndpointId binding eid => decide (binding < 2) && decide (eid < 256)
  | .getEndpointId binding => decide (binding < 2)
  | .getEndpointUuid binding => decide (binding < 2)
  | .getMctpVersionSupport binding => decide (binding < 2)
  | .getMessageTypeSupport binding => decide (binding < 2)
  | .getVendorDefinedMessageSupport binding => decide (binding < 2)
  | .prepareForEndpointDiscovery binding => decide (binding < 2)
  | .endpointDiscovery binding => decide (binding < 2)
  | .discoveryNotify binding => decide (binding < 2)
  | .pldmRequest binding _ _ _ => decide (binding < 2)
  | .getStatus binding => decide (binding < 2)
  | .evRead binding _ => decide (binding < 2)
  | .bbInfo binding => decide (binding < 2)
  | .bbRead binding _ => decide (binding < 2)
  | .capSet binding _ _ => decide (binding < 2)
  | .kill binding _ _ => decide (binding < 2)
  | .alertAck binding => decide (binding < 2)
  | .mgtAlertWrite _ => true
  | .bbEntryProgram => true
  | .bbSectorErase => true
  | .bbRdIdxWrite _ => true
  | .bbRdLatchDone => true
  | .tickTimerExpire timer => decide (timer < 8)
  | .mfpInputEdge pin _ => decide (pin < 16)
  | .pwrBrakeDeassert => true
  | .pwrokAssert => true
  | .perstNAssert => true
  | .hostWaitFired _ => true
  | .waitRegistrationReserved _ => true
  | .hostCompletionTimeout _ _ => true
  | .writebackAck core _ => decide (core < 128)
  | .vcoreBaseInstruction core _ _ => decide (core < 128)
  | .vcoreCsrAccess core _ => decide (core < 128)
  | .mapComplete _ => true
  | .pcieConfigWrite fn _ _ => decide (fn < 17)
  | .jtagTckEdge _ _ _ _ => true

end Sys2Proof
end

