-- ==== Sys2Proof/Tests/Slice0.lean ====
section
/-! SUPPORT. Tests: the checks of WellFormed, a witness for the hypotheses of every clause of every statement, and a few values worked out by hand from the spec. -/

open Sys2Proof Sys2Proof.Machine Sys2Proof.Claims

namespace Sys2Proof.Tests

set_option Elab.async false

theorem fst_ex {α β : Type} {p : α × β} {b : β} (h : p.2 = b) : ∃ a, p = (a, b) := ⟨p.1, by cases p; cases h; rfl⟩

/-! ### The states -/

/-- A leaf unit in slot 1 with T-core 511 and V-core 127, tumblers 0 to 63, and partition 0. -/
def unit1 : UnitEnt :=
  { slot := 1, parent := 1, root := true, depth := 1, group := false, priority := 0, overrunPol := 0, carryLimit := 0, vf := 0, ord := 0, qbase := 0, qcount := 8,
    tmbBase := 0, tmbCount := 64, partMask := 1, barrierWd := 0, traceBuf := 0, traceEn := false, routes := [1], cores := 2 ^ 511 + 2 ^ 639 }

/-- A device range of 1,024 granules from granule 1 on, with all permissions, in context 0 of unit 1. -/
def range1 : RangeEnt :=
  { start := 1, length := 1024, kind := 0, r := true, w := true, x := true, u := true, part := 0, cls := 0, loc := 1, nohost := false, state := 0, unit := 1, ctx := 0,
    haddr := 0, peer := 0, window := 0, off := 0 }

/-- The device running, with that unit and that range. -/
def M : State :=
  { boot := { power := .running, step := 8, fwRunning := true, coldDone := true }, ward := { image := { units := [unit1] } }, xlt := { ranges := [range1] },
    tick := { lastTick := some 0 }, pins := { pwrok := true } }

/-- Its registers, with WRD_STAT.LOADED. -/
def L : State := M.setFlag RF.WRD_STAT_LOADED true

/-! ### WellFormed: each check lets its largest value through and refuses the next -/

theorem test_wf_1 : (
    ((Instr.registerWrite 16 0 0).wf && !(Instr.registerWrite 17 0 0).wf) &&
    ((Instr.fabBlockSend 9 3 false 9 9 255 65535 (List.replicate 256 0)).wf && !(Instr.fabBlockSend 10 3 false 9 9 255 65535 (List.replicate 256 0)).wf &&
    !(Instr.fabBlockSend 9 4 false 9 9 255 65535 (List.replicate 256 0)).wf && !(Instr.fabBlockSend 9 3 false 10 9 255 65535 (List.replicate 256 0)).wf &&
    !(Instr.fabBlockSend 9 3 false 9 10 255 65535 (List.replicate 256 0)).wf && !(Instr.fabBlockSend 9 3 false 9 9 256 65535 (List.replicate 256 0)).wf &&
    !(Instr.fabBlockSend 9 3 false 9 9 255 65536 (List.replicate 256 0)).wf && !(Instr.fabBlockSend 9 3 false 9 9 255 65535 []).wf) &&
    ((Instr.fabBlockReceive 27 []).wf && !(Instr.fabBlockReceive 28 []).wf) &&
    ((Instr.fabAckTimeout 27).wf && !(Instr.fabAckTimeout 28).wf) &&
    ((Instr.fabRetrainDone 13 []).wf && !(Instr.fabRetrainDone 14 []).wf && !(Instr.fabRetrainDone 13 [(0, 0, 68)]).wf) &&
    ((Instr.fabRetrainTimeout 13).wf && !(Instr.fabRetrainTimeout 14).wf) &&
    ((Instr.barrierWatchdog 511 31 15).wf && !(Instr.barrierWatchdog 512 31 15).wf && !(Instr.barrierWatchdog 511 32 15).wf && !(Instr.barrierWatchdog 511
    31 16).wf) &&
    ([Instr.startGateRegister, .startGateOpen, .programRetire, .tckUHaltedClear, .wardQuiesce, .wardQuiesceCancel, .blockDescriptorFetch].all (fun c => (c
    1023).wf && !(c 1024).wf)) &&
    ([Instr.blockLaunch, .vcoreItemStart].all (fun c => (c 1023 0).wf && !(c 1024 0).wf)) &&
    ((Instr.blockComplete 511 31).wf && !(Instr.blockComplete 512 31).wf && !(Instr.blockComplete 511 32).wf) &&
    ([Instr.tPreempt, .tDrainDone, .tSaveDone].all (fun c => (c 511).wf && !(c 512).wf)) &&
    ((Instr.tRestoreDone 511 [] false).wf && !(Instr.tRestoreDone 512 [] false).wf) &&
    ([Instr.mxeDescAccept, .mxeChunkCommit, .mxeDescRetire, .vxeDescAccept, .vxeDescStart, .vxeDescComplete].all (fun c => (c 511 3).wf && !(c 512 3).wf
    && !(c 511 4).wf)) &&
    ([Instr.nop, .iadd, .isub, .imul, .imulh, .imad, .imin, .imax, .iabs, .and, .or, .xor, .not, .shl, .shr, .sar, .popc, .clz, .mov, .movi, .sel, .isetp,
    .plop, .shfl, .vote, .s2r, .flgRd, .flgClr, .fadd, .fsub, .fmul, .ffma, .fmin, .fmax, .fsetp, .frnd, .fdiv, .fsqrt, .dadd, .dsub, .dmul, .dfma, .dmin,
    .dmax, .dsetp, .drnd, .ddiv, .dsqrt, .cvt, .exit, .bra, .join, .call, .jmpr, .trap, .ldl, .stl, .atoml, .ld, .st, .atom, .ldc, .stc, .mxa, .vxa,
    .waitq, .accRel, .accRds, .accFclr, .barSync, .barArv, .fence, .tmbArv, .tmbPoll, .tmbWait, .tmbTake, .tmbPut].all (fun c => (c 511 31 0 0).wf && !(c
    512 31 0 0).wf && !(c 511 32 0 0).wf))) = true := by decide +kernel

theorem test_wf_2 : (
    ((Instr.tmbWaitTimeout false 127 31).wf && !(Instr.tmbWaitTimeout false 512 31).wf && !(Instr.tmbWaitTimeout false 127 32).wf) &&
    ((Instr.tmbCfgWrite 32767 0).wf && !(Instr.tmbCfgWrite 32768 0).wf) &&
    ((Instr.tmbOpArrive 32767 0).wf && !(Instr.tmbOpArrive 32768 0).wf) &&
    ((Instr.tmbOpReset 32767).wf && !(Instr.tmbOpReset 32768).wf) &&
    ([Instr.vcoreLoadStore, .lr, .sc, .amo, .vcoreBaseInstruction].all (fun c => (c 127 0 0).wf && !(c 128 0 0).wf)) &&
    ([Instr.vcoreFence, .fenceI, .sfenceVma, .vadd, .vsub, .vmul, .vfma, .vfnms, .vdiv, .vsqrt, .vmin, .vmax, .vand, .vor, .vxor, .vsll, .vsrl, .vsra,
    .vmerge, .vcmpeq, .vcmplt, .vcmple, .vredosum, .vredtsum, .vredmax, .vredmin, .vslide, .vcvt, .vmv, .vpopc, .vfirst, .vld, .vst, .vldx, .vstx, .vldc,
    .vstc, .xmop, .xmzero, .xmrd, .xmwr, .tarv, .tpoll, .twait, .ttake, .tput, .xslitemDone, .xslitemAbort, .vcoreCsrAccess].all (fun c => (c 127 0).wf &&
    !(c 128 0).wf)) &&
    ([Instr.vcoreTrap, .vcoreInterrupt, .xslvTranslationDone, .vPreempt, .vSaveDone, .snoopTimeout].all (fun c => (c 127).wf && !(c 128).wf)) &&
    ([Instr.xslvAccessDone, .upg, .wbd, .evc, .snps, .snpw, .snpi, .inv, .snoopReply, .grant, .holdEnd, .writebackAck].all (fun c => (c 127 0).wf && !(c
    128 0).wf)) &&
    ((Instr.vRestoreDone 127 [] false).wf && !(Instr.vRestoreDone 128 [] false).wf) &&
    ((Instr.regulatorWindow 31).wf && !(Instr.regulatorWindow 32).wf) &&
    ([Instr.hbmLineRead, .patrolScrub].all (fun c => (c 31 0 0 0).wf && !(c 32 0 0 0).wf)) &&
    ([Instr.memMapoutGo, .channelMapoutDone].all (fun c => (c 31 31).wf && !(c 32 31).wf && !(c 31 32).wf)) &&
    ([Instr.rds, .rdx].all (fun c => (c 127 0 0).wf && !(c 128 0 0).wf)) &&
    ((Instr.rangeWalkDone 1 7).wf && !(Instr.rangeWalkDone 2 7).wf && !(Instr.rangeWalkDone 1 8).wf)) = true := by decide +kernel

theorem test_wf_3 : (
    ([Instr.xltResumeGo, .xltResumeAbort, .copyHoldExpire].all (fun c => (c 65535).wf && !(c 65536).wf)) &&
    ((Instr.xltRdIdxWrite 524287).wf && !(Instr.xltRdIdxWrite 524288).wf) &&
    ([Instr.doorbellSqtail, .doorbellCqhead].all (fun c => (c 16 4095 0).wf && !(c 17 4095 0).wf && !(c 16 4096 0).wf)) &&
    ([Instr.queueEnable, .queueDisable].all (fun c => (c 16 4095 0).wf && !(c 17 4095 0).wf && !(c 16 4096 0).wf)) &&
    ((Instr.commandFetch 4095 []).wf && !(Instr.commandFetch 4096 []).wf) &&
    ((Instr.vfFlr 16).wf && !(Instr.vfFlr 17).wf) &&
    ([Instr.portTrained, .pintleRetrainDone].all (fun c => (c 15 255).wf && !(c 16 255).wf && !(c 15 256).wf)) &&
    ([Instr.hello, .pintleBlockReceive].all (fun c => (c 15 []).wf && !(c 16 []).wf)) &&
    ([Instr.pintleAckTimeout, .portDownTimeout, .portRetrainRetry].all (fun c => (c 15).wf && !(c 16).wf)) &&
    ((Instr.ptlRetrainReq 15 0).wf && !(Instr.ptlRetrainReq 16 0).wf) &&
    ((Instr.addressMapWrite 65534 3 0).wf && !(Instr.addressMapWrite 65535 3 0).wf && !(Instr.addressMapWrite 65534 4 0).wf) &&
    ([Instr.pairKeyDerived, .evRead, .bbRead].all (fun c => (c 1 0).wf && !(c 2 0).wf)) &&
    ([Instr.avsConfirm, .voltRaiseTimeout, .droopDetect, .droopResponseEnd, .tickTimerExpire].all (fun c => (c 7).wf && !(c 8).wf)) &&
    ([Instr.getVersion, .getCapabilities, .negotiateAlgorithms, .getDigests, .getCertificate, .challenge, .getMeasurements, .keyExchange, .finish,
    .heartbeat, .keyUpdate, .endSession].all (fun c => (c 1 none []).wf && !(c 2 none []).wf))) = true := by decide +kernel

theorem test_wf_4 : (
    ((Instr.coldStart [] [] none [] []).wf && !(Instr.coldStart [] [] none [(0, 0, 40, 0)] []).wf) &&
    ((Instr.warmStart [] []).wf && !(Instr.warmStart [] [(0, 0, 40, 0)]).wf) &&
    ((Instr.warmGo 0 [] []).wf && !(Instr.warmGo 0 [] [(0, 0, 40, 0)]).wf) &&
    ((Instr.wardenWatchdog 3).wf && !(Instr.wardenWatchdog 4).wf) &&
    ((Instr.setEndpointId 1 255).wf && !(Instr.setEndpointId 2 255).wf && !(Instr.setEndpointId 1 256).wf) &&
    ([Instr.getEndpointId, .getEndpointUuid, .getMctpVersionSupport, .getMessageTypeSupport, .getVendorDefinedMessageSupport,
    .prepareForEndpointDiscovery, .endpointDiscovery, .discoveryNotify, .getStatus, .bbInfo, .alertAck].all (fun c => (c 1).wf && !(c 2).wf)) &&
    ((Instr.pldmRequest 1 0 0 []).wf && !(Instr.pldmRequest 2 0 0 []).wf) &&
    ((Instr.capSet 1 false 0).wf && !(Instr.capSet 2 false 0).wf) &&
    ((Instr.kill 1 false 0).wf && !(Instr.kill 2 false 0).wf) &&
    ((Instr.mfpInputEdge 15 0).wf && !(Instr.mfpInputEdge 16 0).wf) &&
    ((Instr.pcieConfigWrite 16 0 0).wf && !(Instr.pcieConfigWrite 17 0 0).wf)) = true := by decide +kernel

/-! ### Witnesses: T-cores -/

/-- A word of `words` words with guard g, its fields, BI and the bits from 45 on. -/
def twg (words opc g d a b c rest : Nat) : BitVec 64 :=
  BitVec.ofNat 64 (words - 1 + 2 * opc + 2 ^ 9 * g + 2 ^ 13 * d + 2 ^ 21 * a + 2 ^ 29 * b + 2 ^ 37 * c + 2 ^ 45 * rest)

/-- The same with the guard p7. -/
def tw (words opc d a b c rest : Nat) : BitVec 64 := twg words opc 7 d a b c rest

def B0 : TBlock :=
  { unit := 1, ctx := 0, item := 0, entry := 0x10000, threads := 32, regs := 32, localUnits := 4, engs := [3], slots := [31], bars := [{}, {}, {}] }

/-- Lanes 0 and 31 active, lane 5 exited from the active mask; p0 of lane 31 is 1. -/
def G0 : TGroup := { blk := 31, idx := 0, pc := 0x10020, live := 2 ^ 31 + 1, active := 2 ^ 31 + 1, preds := [(0, 2 ^ 31)] }

/-- That block and group at core 511, slot 31. -/
def T (b : TBlock) (g : TGroup) : State := { L with tc := { blocks := [(16383, some b)], groups := [(16383, some g)] } }

def issues (s : State) (opc : Nat) (w0 : BitVec 64) (f : OpForm) (b : TBlock) (g : TGroup) : Bool :=
  decide (opcOf w0 = opc) && decide (s.issuable 511 31 w0 f = some (b, g)) && decide (s.fetchAt b g.pc f.words = Fetch.ok) && !f.illegal w0
    && decide (f.beyond b = none) && !(f.uniform && g.diverged)

theorem issues_iff (s : State) (opc : Nat) (w0 : BitVec 64) (f : OpForm) (b : TBlock) (g : TGroup) :
    issues s opc w0 f b g = true ↔ s.Issues 511 31 opc w0 f b g := by
  simp only [issues, Bool.and_eq_true, decide_eq_true_eq, Bool.not_eq_true']
  exact ⟨fun h => ⟨h.1.1.1.1.1, h.1.1.1.1.2, h.1.1.1.2, h.1.1.2, h.1.2, h.2⟩, fun h => ⟨⟨⟨⟨⟨h.opcode, h.ready⟩, h.fetch⟩, h.legal⟩, h.within⟩, h.uniform⟩⟩

theorem test_hyp_TCoreIntegerResult : ∀ r ∈ intRows, issues (T B0 G0) r.opc (tw 1 r.opc 254 252 250 0 (2 * 3))
    (intForm (tw 1 r.opc 254 252 250 0 (2 * 3)) [252] r.two) B0 G0 = true := by decide +kernel

theorem test_hyp_TCoreMovesAndPredicates :
    issues (T B0 G0) 0x00 (tw 1 0x00 0 0 0 0 0) {} B0 G0 = true ∧
    issues (T B0 G0) 0x14 (tw 1 0x14 1 2 3 4 0) (intForm (tw 1 0x14 1 2 3 4 0) [2, 3, 4] false) B0 G0 = true ∧
    issues (T B0 G0) 0x21 (tw 1 0x21 1 2 3 4 1) { imm := true, mods := [(47, 46)], regs := [(1, 1)], dst := 1 } B0 G0 = true ∧
    issues (T B0 G0) 0x22 (tw 2 0x22 254 0 0 0 4) { words := 2, mods := [(47, 46)], regs := [(254, 2)], dst := 1 } B0 G0 = true ∧
    issues (T B0 G0) 0x23 (tw 1 0x23 1 2 3 6 0) { intForm (tw 1 0x23 1 2 3 6 0) [2, 3] false with preds := [6] } B0 G0 = true ∧
    issues (T B0 G0) 0x26 (tw 1 0x26 1 2 3 0 (2 * 12)) { intForm (tw 1 0x26 1 2 3 0 (2 * 12)) [2] true with mods := [(49, 46)] } B0 G0 = true ∧
    issues (T B0 G0) 0x28 (tw 1 0x28 1 0 0 0 (2 * 11)) { mods := [(51, 46)], regs := [(1, 1)], dst := 1, bad := decide (12 ≤ fMod (tw 1 0x28 1 0 0 0 (2 * 11)) 51 46) } B0 G0 = true ∧
    issues (T B0 G0) 0x29 (tw 1 0x29 1 0 0 0 0) { regs := [(1, 1)], dst := 1 } B0 G0 = true ∧
    issues (T B0 G0) 0x24 (tw 1 0x24 6 2 3 0 (2 * 20)) { imm := true, mods := [(50, 46)], preds := [6], pdst := 1, bad := decide (6 ≤ fMod (tw 1 0x24 6 2 3 0 (2 * 20)) 50 48), regs := [(2, 1), (3, 1)] } B0 G0 = true ∧
    issues (T B0 G0) 0x25 (tw 1 0x25 7 6 5 0 (2 * 12)) { mods := [(49, 46)], preds := [7, 6, 5], pdst := 1 } B0 G0 = true ∧
    (∀ m ∈ [0, 1], fMod (tw 1 0x27 7 0 0 0 (2 * (4 * m))) 49 48 = m ∧
      issues (T B0 G0) 0x27 (tw 1 0x27 7 0 0 0 (2 * (4 * m))) { group := true, mods := [(49, 46)], preds := [7, 0], pdst := 1, dst := 1 } B0 G0 = true) ∧
    fMod (tw 1 0x27 255 0 0 0 (2 * 8)) 49 48 = 2 ∧
    issues (T B0 G0) 0x27 (tw 1 0x27 255 0 0 0 (2 * 8)) { group := true, mods := [(49, 46)], preds := [0], dst := 1, regs := [(255, 1)] } B0 G0 = true ∧
    issues (T B0 G0) 0x2A (tw 1 0x2A 0 0 0 0 (2 * 31)) { mods := [(50, 46)] } B0 G0 = true := by decide +kernel

theorem test_hyp_TCoreFloatResult : (∀ r ∈ floatRows, r.dbl = true ∨ issues (T B0 G0) r.opc (tw 1 r.opc 255 3 5 6 (2 * 5))
      (fpForm r.dbl (tw 1 r.opc 255 3 5 6 (2 * 5)) r.srcs false) B0 G0 = true) ∧
    (∀ r ∈ floatRows, r.dbl = false ∨ issues (T B0 G0) r.opc (tw 1 r.opc 254 2 4 6 0) (fpForm r.dbl (tw 1 r.opc 254 2 4 6 0) r.srcs false) B0 G0 = true) := by
  decide +kernel

theorem test_hyp_TCoreFloatCompare :
    issues (T B0 G0) 0x36 (tw 1 0x36 6 3 5 0 (2 * 5)) (fpForm false (tw 1 0x36 6 3 5 0 (2 * 5)) 2 true) B0 G0 = true ∧
    issues (T B0 G0) 0x46 (tw 1 0x46 6 2 4 0 0) (fpForm true (tw 1 0x46 6 2 4 0 0) 2 true) B0 G0 = true := by decide +kernel

/-- FP32 into FP64, the highest register pair. -/
theorem test_hyp_TCoreConvert : issues (T B0 G0) 0x38 (tw 1 0x38 254 3 0 0 2)
    { mods := [(57, 46)], bad := !(cvtCode 1 && cvtCode 0 && selOk 1 0 && selOk 0 0) || false, regs := [(254, 2), (3, 1)], dst := 1 } B0 G0 = true := by decide +kernel

/-- A divergence stack of n entries. -/
def deep (n : Nat) : TGroup := { G0 with stack := List.replicate n { pc := 0x10040, mask := 1, join := 0x10020 } }

theorem test_hyp_TCoreControlFlow :
    (issues (T B0 G0) 0x02 (tw 2 0x02 0 0 0 0 0) { words := 2 } B0 G0 = true ∧ maskOf (G0.acting (tw 2 0x02 0 0 0 0 0)) = G0.active) ∧
    (issues (T B0 G0) 0x02 (twg 2 0x02 15 0 0 0 0 0) { words := 2 } B0 G0 = true ∧ maskOf (G0.acting (twg 2 0x02 15 0 0 0 0 0)) = 0 ∧ G0.active ≠ 0) ∧
    (∀ n ∈ [30, 31], issues (T B0 (deep n)) 0x02 (twg 2 0x02 0 0 0 0 0 0) { words := 2 } B0 (deep n) = true ∧
      maskOf ((deep n).acting (twg 2 0x02 0 0 0 0 0 0)) ≠ (deep n).active ∧ maskOf ((deep n).acting (twg 2 0x02 0 0 0 0 0 0)) ≠ 0) ∧
    (issues (T B0 G0) 0x03 (tw 1 0x03 0 0 0 0 0) { group := true } B0 G0 = true ∧ G0.stack = []) ∧
    (issues (T B0 (deep 1)) 0x03 (tw 1 0x03 0 0 0 0 0) { group := true } B0 (deep 1) = true ∧ Nat.land 1 (deep 1).live ≠ 0 ∧ (deep 1).pc = 0x10020) ∧
    issues (T B0 G0) 0x04 (tw 2 0x04 254 0 0 0 0) { words := 2, group := true, regs := [(254, 2)], dst := 1 } B0 G0 = true ∧
    (issues (T B0 G0) 0x05 (tw 1 0x05 0 254 0 0 0) { group := true, regs := [(254, 2)] } B0 G0 = true ∧
      (∀ l ∈ G0.lowest :: maskBits 32 G0.active, G0.rd l 254 2 = 0)) ∧
    (let g := { G0 with regs := [(64, 4), (95, 4)] };
      issues (T B0 g) 0x05 (tw 1 0x05 0 2 0 0 0) { group := true, regs := [(2, 2)] } B0 g = true ∧ (∀ l ∈ g.lowest :: maskBits 32 g.active, g.rd l 2 2 = 4) ∧ 4 % 8 ≠ 0) ∧
    (let g := { G0 with regs := [(95, 8)] };
      issues (T B0 g) 0x05 (tw 1 0x05 0 2 0 0 0) { group := true, regs := [(2, 2)] } B0 g = true ∧
        maskOf ((maskBits 32 g.active).filter (fun l => g.rd l 2 2 != g.rd g.lowest 2 2)) ≠ 0) ∧
    issues (T B0 G0) 0x06 (twg 1 0x06 15 0 0 0 0 1) { imm := true, bad := !fBI (twg 1 0x06 15 0 0 0 0 1) } B0 G0 = true ∧
    issues (T B0 G0) 0x06 (tw 1 0x06 0 0 0 0 1) { imm := true, bad := !fBI (tw 1 0x06 0 0 0 0 1) } B0 G0 = true ∧
    G0.acting (twg 1 0x06 15 0 0 0 0 1) = [] ∧ G0.acting (tw 1 0x06 0 0 0 0 1) ≠ [] ∧
    issues (T B0 G0) 0x01 (tw 1 0x01 0 0 0 0 0) {} B0 G0 = true := by
  refine ⟨?_, ?_, ?_, ?_, ?_, ?_, ?_, ?_, ?_, ?_, ?_, ?_, ?_, ?_⟩ <;> decide +kernel

/-- The last 4-byte word of the block's local memory, 16,384 bytes, in both lanes' r2. -/
def Gl : TGroup := { G0 with regs := [(64, 16380), (95, 16380)] }

theorem test_hyp_TCoreLocalMemory :
    (∀ q ∈ [(0x50, 49, 1), (0x51, 48, 0)], issues (T B0 Gl) q.1 (tw 1 q.1 1 2 0 0 (1 + 2 * 2))
      { imm := true, mods := [(q.2.1, 46)], bad := szBad (tw 1 q.1 1 2 0 0 (1 + 2 * 2)), regs := [(1, 1), (2, 1)], dst := q.2.2 } B0 Gl = true) ∧
    (∀ l ∈ Gl.acting (tw 1 0x50 1 2 0 0 5), (((Gl.reg l 2 : Int) + 0) % 2 ^ 19).toNat % 4 = 0 ∧ (((Gl.reg l 2 : Int) + 0) % 2 ^ 19).toNat + 4 ≤ 4096 * B0.localUnits) ∧
    anyMeet ((Gl.acting (tw 1 0x51 1 2 0 0 5)).map (fun l => ⟨(((Gl.reg l 2 : Int) + 0) % 2 ^ 19).toNat, 4⟩)) ((T B0 Gl).lockedSpans 511 B0) = false ∧
    issues (T B0 Gl) 0x52 (tw 1 0x52 1 2 3 4 0) { mods := [(51, 46)], bad := aopBad (tw 1 0x52 1 2 3 4 0), regs := [(1, 1), (2, 1), (3, 1), (4, 1)], dst := 1 } B0 Gl = true := by
  decide +kernel

/-- A matrix descriptor that reads the last 8 bytes of local memory waits in engine 3: STL and ATOML of them wait. -/
def Tlock (g : TGroup) : State :=
  { T B0 g with tc := { (T B0 g).tc with engines := [(2047, { mq := [{ bytes := [0x9900, 0x00010101, 0, 16376, 16, 0, 16].flatMap (leBytes 4), addr := 0, slot := 0, pc := 0, issue := 0 }] })] } }

theorem test_hyp_TCoreLocalMemory_locked :
    (let w := tw 1 0x51 1 2 0 0 5;
      issues (Tlock Gl) 0x51 w { imm := true, mods := [(48, 46)], bad := szBad w, regs := plainRegs w (szRegs w) 1 } B0 Gl = true) ∧
    anyMeet [⟨16380, 4⟩] ((Tlock Gl).lockedSpans 511 B0) = true ∧ anyMeet [⟨16372, 4⟩] ((Tlock Gl).lockedSpans 511 B0) = false := by decide +kernel

/-- r2, r3 of both lanes: the last aligned address below 2^57, or 2^57. -/
def Gg (hi lo : Nat) : TGroup := { G0 with regs := [(64, lo), (95, lo), (96, hi), (127, hi)] }

theorem test_hyp_TCoreGlobalMemory :
    (∀ g ∈ [Gg (2 ^ 25 - 1) (2 ^ 32 - 4), Gg (2 ^ 25) 0], issues (T B0 g) 0x58 (tw 1 0x58 4 2 0 0 5) { imm := true, mods := [(51, 46)], bad := szBad (tw 1 0x58 4 2 0 0 5), regs := [(4, 1), (2, 2)], dst := 1 } B0 g = true) ∧
    (∀ g ∈ [Gg (2 ^ 25 - 1) (2 ^ 32 - 4), Gg 0 2], issues (T B0 g) 0x59 (tw 1 0x59 4 2 0 0 5) { imm := true, mods := [(48, 46), (51, 50)], bad := szBad (tw 1 0x59 4 2 0 0 5) || !(fMod (tw 1 0x59 4 2 0 0 5) 51 50 == 0), regs := [(4, 1), (2, 2)] } B0 g = true) ∧
    issues (T B0 (Gg 1 4)) 0x5A (tw 1 0x5A 4 2 5 6 0) { mods := [(55, 46)], bad := aopBad (tw 1 0x5A 4 2 5 6 0), regs := [(4, 1), (2, 2), (5, 1), (6, 1)], dst := 1 } B0 (Gg 1 4) = true ∧
    (∀ l ∈ (Gg 0 0).acting (tw 1 0x58 4 2 0 0 5), (Gg (2 ^ 25 - 1) (2 ^ 32 - 4)).rd l 2 2 < 2 ^ 57 ∧ (Gg (2 ^ 25 - 1) (2 ^ 32 - 4)).rd l 2 2 % 4 = 0) ∧
    (firstBad (((Gg 0 0).acting (tw 1 0x58 4 2 0 0 5)).map (fun l => (l, ((((Gg (2 ^ 25) 0).rd l 2 2 : Int) + 0) % 2 ^ 64).toNat))) (fun a => decide (2 ^ 57 ≤ a))).isSome = true ∧
    (firstBad (((Gg 0 0).acting (tw 1 0x59 4 2 0 0 5)).map (fun l => (l, ((((Gg 0 2).rd l 2 2 : Int) + 0) % 2 ^ 64).toNat))) (fun a => !(a % 4 == 0))).isSome = true := by
  decide +kernel

/-- LDC of format 9 unscaled and of format 4 with scales; STC with SK 0 and SK 1; EB and SB at 0. -/
theorem test_hyp_TCoreConvertingMemory :
    (∀ p ∈ [(9, 0), (4, 1)], let w := tw 2 0x5B 1 2 4 6 (2 * (p.1 + 16 * p.2));
      issues (T B0 G0) 0x5B w { words := 2, mods := [(59, 46)], bad := !ldcOk (fMod w 49 46) (fMod w 51 50) (fMod w 53 52) || !(fExt 0 == 0), regs := [(1, 1), (2, 2), (4, 1), (6, 2)], dst := 1 } B0 G0 = true) ∧
    (∀ p ∈ [(9, 0), (4, 1)], let w := tw 2 0x5C 1 2 4 6 (2 * (p.1 + 16 * p.2));
      issues (T B0 G0) 0x5C w { words := 2, mods := [(58, 46)], bad := fMod w 49 46 == 0 || !blockOk (fMod w 49 46) (fMod w 51 50) || !(fExt 0 == 0), regs := [(1, 1), (2, 2), (4, 1), (6, 2)] } B0 G0 = true) ∧
    (∀ l ∈ [0, 31], G0.rd l 2 2 < 2 ^ 57 ∧ G0.rd l 2 2 + (elemSpan 4 0).1 < 2 ^ 57 ∧ G0.rd l 2 2 + (elemSpan 4 0).1 + (elemSpan 4 0).2 - 1 < 2 ^ 57 ∧ G0.rd l 2 2 % ebAlign 4 = 0 ∧ G0.rd l 6 2 + 0 / blockLen 1 < 2 ^ 57) := by
  decide +kernel

def mdesc : Desc := { bytes := [], addr := 0, slot := 0, pc := 0, issue := 0 }

/-- Engine 0 of the block is engine 3 of the core; its queues have one place left, or none. -/
def Te (m v : Nat) (g : TGroup) : State :=
  { T B0 g with tc := { (T B0 g).tc with engines := [(2047, { mq := List.replicate m mdesc, vq := List.replicate v mdesc })] } }

theorem test_hyp_TCoreEngineInstructions :
    B0.engs[0]? = some 3 ∧
    (let g := { G0 with regs := [(64, 16320)] };
      (∀ m ∈ [7, 8], issues (Te m 0 g) 0x60 (tw 1 0x60 0 2 0 0 0) (engForm (tw 1 0x60 0 2 0 0 0) [(47, 46)] [(2, 1)] true) B0 g = true ∧
        ((Te m 0 g).engine 511 3).mq.length = m) ∧
      (issues (Te 0 1 g) 0x61 (tw 1 0x61 0 2 0 0 0) (engForm (tw 1 0x61 0 2 0 0 0) [(47, 46)] [(2, 1)] true) B0 g = true ∧ ((Te 0 1 g).engine 511 3).vq.length < 2) ∧
      (issues (Te 8 2 g) 0x60 (tw 1 0x60 0 2 0 0 0) (engForm (tw 1 0x60 0 2 0 0 0) [(47, 46)] [(2, 1)] true) B0 g = true ∧
        (Te 8 2 g).tgroup 511 31 = some g ∧ (Te 8 2 g).tblock 511 g.blk = some B0 ∧ 8 ≤ ((Te 8 2 g).engine 511 3).mq.length ∧
        2 ≤ ((Te 8 2 g).engine 511 3).vq.length) ∧
      g.reg g.lowest 2 % 64 = 0 ∧ g.reg g.lowest 2 + 64 ≤ 4096 * B0.localUnits) ∧
    (let g := { G0 with regs := [(64, 63)] };
      issues (Te 0 0 g) 0x61 (tw 1 0x61 0 2 0 0 0) (engForm (tw 1 0x61 0 2 0 0 0) [(47, 46)] [(2, 1)] true) B0 g = true ∧ g.reg g.lowest 2 % 64 ≠ 0) ∧
    issues (Te 0 0 G0) 0x62 (tw 1 0x62 0 0 0 0 (2 * 256)) { engForm (tw 1 0x62 0 0 0 0 (2 * 256)) [(47, 46), (54, 50)] [] false with bad := fBI (tw 1 0x62 0 0 0 0 (2 * 256)) || (true && (!(0 == 0) || !(0 == 0))) } B0 G0 = true ∧
      natBit (tw 1 0x62 0 0 0 0 (2 * 256)).toNat 54 = true ∧
    (∀ o ∈ [0x63, 0x65], issues (Te 0 0 G0) o (tw 1 o 0 0 0 0 0) { engForm (tw 1 o 0 0 0 0 0) [(49, 46)] [] true with dst := 1 } B0 G0 = true) ∧
    issues (Te 0 0 G0) 0x64 (tw 1 0x64 255 0 0 0 0) { engForm (tw 1 0x64 255 0 0 0 0) [(49, 46)] [(255, 1)] true with dst := 1 } B0 G0 = true := by decide +kernel

/-- Barrier 2 armed for 2 arrivals of which n have come. -/
def Bb (n : Nat) : TBlock := { B0 with bars := [{}, {}, { armed := true, expected := 2, count := n }] }

theorem test_hyp_TCoreBarriers :
    (∀ n ∈ [0, 1], issues (T (Bb n) G0) 0x66 (tw 1 0x66 0 0 0 0 (2 * 2)) (barForm (tw 1 0x66 0 0 0 0 (2 * 2))) (Bb n) G0 = true) ∧
    issues (T (Bb 0) G0) 0x67 (tw 1 0x67 0 0 0 0 (2 * 2)) (barForm (tw 1 0x67 0 0 0 0 (2 * 2))) (Bb 0) G0 = true ∧
    (maskBits 32 G0.active).length = 2 ∧ (∀ n, (Bb n).bars[2]? = some { armed := true, expected := 2, count := n }) ∧
    (let w := tw 1 0x66 0 0 0 0 (1 + 2 * 18);
      issues (T B0 G0) 0x66 w (barForm w) B0 G0 = true ∧ B0.bars[2]? = some ({} : Barrier) ∧ natBit w.toNat 50 = true ∧ fBI w = true ∧ fImm16 w < 1) ∧
    fImm16 (tw 1 0x66 0 0 33 0 (1 + 2 * 18)) = 33 ∧ B0.threads = 32 ∧
    issues (T B0 G0) 0x68 (tw 1 0x68 0 0 0 0 (2 * 3)) { group := true, mods := [(47, 46)] } B0 G0 = true := by
  refine ⟨by decide +kernel, by decide +kernel, by decide +kernel, fun _ => rfl, by decide +kernel, by decide +kernel⟩

/-- Tumbler 63, the last of the unit, or 64. -/
def Gt (n : Nat) : TGroup := { G0 with regs := [(64, n), (95, n)] }

theorem test_hyp_TCoreTumblers : (T B0 (Gt 63)).unitEnt B0.unit = some unit1 ∧ (∀ l ∈ [0, 31], (Gt 63).reg l 2 = 63) ∧ (Gt 64).reg (Gt 64).lowest 2 = 64 ∧
    (let w := tw 1 0x69 0 2 0 3 (2 * 6);
      issues (T B0 (Gt 63)) 0x69 w { imm := true, mods := [(48, 46)], bad := scopeBad w || (natBit w.toNat 48 && fBI w), regs := [(2, 1), (3, 1)] } B0 (Gt 63) = true) ∧
    (let w := tw 1 0x6A 1 2 0 0 (2 * 10);
      issues (T B0 (Gt 63)) 0x6A w { imm := true, mods := [(47, 46), (49, 49)], bad := scopeBad w, regs := [(1, 1), (2, 1)], dst := 1 } B0 (Gt 63) = true) ∧
    (let w := tw 1 0x6C 1 2 0 0 (2 * (2 + 16 * 6));
      issues (T B0 (Gt 63)) 0x6C w { imm := true, mods := [(47, 46), (52, 50)], bad := scopeBad w, regs := [(1, 1), (2, 1)], dst := 1, preds := [6], pdst := 1 } B0 (Gt 63) = true) ∧
    (let w := tw 1 0x6D 0 2 0 3 (2 * (3 + 16 * 7));
      issues (T B0 (Gt 63)) 0x6D w { imm := true, mods := [(47, 46), (52, 50)], bad := scopeBad w, regs := [(2, 1), (3, 1)], preds := [7], pdst := 1 } B0 (Gt 63) = true) ∧
    (∀ n ∈ [63, 64], let w := tw 2 0x6B 1 2 0 0 (2 * 2);
      issues (T B0 (Gt n)) 0x6B w { words := 2, group := true, imm := true, mods := [(47, 46)], bad := scopeBad w, regs := [(1, 1), (2, 1)], dst := 1 } B0 (Gt n) = true) := by
  decide +kernel

theorem test_hyp_TCoreIssueChecks :
    (opcOf (tw 1 0x10 1 2 3 0 0) = 0x10 ∧ L.issuable 511 31 (tw 1 0x10 1 2 3 0 0) (intForm (tw 1 0x10 1 2 3 0 0) [2] true) = none) ∧
    (opcOf (tw 1 0x11 1 2 3 0 0) ≠ 0x10 ∧ opcOf (tw 1 0x11 1 2 3 0 0) ∈ definedOpcs) ∧
    (∀ o ∈ [0x07, 0x70, 0xFF], let w := tw 1 o 1 2 3 0 0;
      opcOf w ∉ definedOpcs ∧ (T B0 G0).issuable 511 31 w { bad := true } = some (B0, G0) ∧ (T B0 G0).fetchAt B0 G0.pc 1 = .ok) ∧
    (let w := tw 1 0x10 1 2 3 0 0;
      (T B0 G0).issuable 511 31 w (intForm w [2] true) = some (B0, G0) ∧ (T B0 G0).fetchAt B0 G0.pc 1 = .ok) ∧
    (let w := tw 1 0x10 1 2 3 0 (2 ^ 17);
      (T B0 G0).issuable 511 31 w (intForm w [2] true) = some (B0, G0) ∧ (intForm w [2] true).illegal w = true) ∧
    (let b := { B0 with regs := 1 };
      let w := tw 1 0x10 8 2 3 0 0;
      (T b G0).issuable 511 31 w (intForm w [2] true) = some (b, G0) ∧ (intForm w [2] true).illegal w = false ∧ (intForm w [2] true).beyond b = some 8) ∧
    (let g := { G0 with live := 2 ^ 32 - 1 };
      let w := tw 1 0x60 0 2 0 0 0;
      (T B0 g).issuable 511 31 w (engForm w [(47, 46)] [(2, 1)] true) = some (B0, g) ∧ (engForm w [(47, 46)] [(2, 1)] true).illegal w = false ∧ (engForm w [(47, 46)] [(2, 1)] true).beyond B0 = none ∧ g.live ≠ g.active ∧
        (T B0 g).queueFull 511 31 w false = false) := by
  decide +kernel

/-- A range of the host that is being moved makes the fetch wait. -/
theorem test_hyp_TCoreIssueChecks_wait :
    let s : State := { T B0 G0 with xlt := { ranges := [{ range1 with kind := 3, state := 1 }] } }
    let w := tw 1 0x10 1 2 3 0 0;
    s.issuable 511 31 w (intForm w [2] true) = some (B0, G0) ∧ s.fetchAt B0 G0.pc 1 = .wait := by decide +kernel

/-! ### Witnesses: blocks, accesses, preemption -/

/-- Granule 1 of unit 1 in the scratchpad of die 0, with bytes from its start on. -/
def Mb (bs : List Byte) : State :=
  (State.devWrite { L with mem := { backing := [(granKey 1 0 1, some { loc := .scr 0 0, part := 0 })] } } 1 0 0x10000 0 bs).1

/-- A program of unit 1 with one item, its block descriptor at 0x10000. -/
def P1 : FrameProg :=
  { unit := 1, ctx := 0, cmd := 0, budget := 1, startTmb := 0, startEn := false, doneTmb := 0, doneEn := false, items := 1, entry := 0x10000, args := 0 }

def withProg (s : State) (p : FrameProg) : State := { s with units := [(1, { active := [p] })] }

/-- 1,024 threads of 8 registers: 32 groups and all 65,536 registers. -/
def tdesc : List Byte := [0, 4, 8] ++ List.replicate 29 0
def vdesc : List Byte := List.replicate 31 0 ++ [0x80]

def okRead (r : DevRd) (d : List Byte) : Bool := decide (r = .ok d false)

theorem test_hyp_BlockLifeCycle_fetch :
    ((withProg L { P1 with entry := 0x10001 }).wantsDesc 1 = some { P1 with entry := 0x10001 } ∧ 0x10001 % 32 ≠ 0) ∧
    (∀ d ∈ [tdesc, vdesc, List.replicate 32 0], (withProg (Mb d) P1).wantsDesc 1 = some P1 ∧
      ((withProg (Mb d) P1).devRead 1 0 3 0x10000 32 ((withProg (Mb d) P1).rangeCls 1 0 0x10000)).2 = .ok d false) ∧
    (natBit (tdesc.getD 31 0).toNat 7 = false ∧ blockDescOk tdesc = true) ∧ (natBit (vdesc.getD 31 0).toNat 7 = true ∧ vDescOk vdesc = true) ∧
    blockDescOk (List.replicate 32 0) = false := by
  refine ⟨?_, ?_, ?_, ?_, ?_⟩ <;> decide +kernel

theorem test_hyp_BlockLifeCycle_cores :
    (let t := ((withProg (Mb tdesc) P1).devRead 1 0 3 0x10000 32 0).1.walkOnce 0;
      (t.unitCores 1).any (fun c => decide (c < 512) && !t.deadCore c) = true) ∧
    (let t := ((withProg (Mb vdesc) P1).devRead 1 0 3 0x10000 32 0).1.walkOnce 0;
      (t.unitCores 1).any (fun c => decide (512 ≤ c) && !t.deadCore c) = true) ∧
    (let t := ({ withProg (Mb tdesc) P1 with coh := { deadDies := [7] } } : State).devRead 1 0 3 0x10000 32 0;
      t.2 = .ok tdesc false ∧ ((t.1.walkOnce 0).unitCores 1).any (fun c => decide (c < 512)) = true ∧
      ((t.1.walkOnce 0).unitCores 1).all (fun c => !decide (c < 512) || (t.1.walkOnce 0).deadCore c) = true) := by
  refine ⟨?_, ?_, ?_⟩ <;> decide +kernel

/-- An empty core takes the block; a core with one block of one group does not. -/
theorem test_hyp_BlockLifeCycle_launch :
    (let p := { P1 with desc := tdesc };
      (withProg L p).itemCore 1 0 false = some (p, 511) ∧ (withProg L p).fits 511 (blockNeed tdesc) = true ∧
      ({ withProg L p with tc := (T B0 G0).tc } : State).itemCore 1 0 false = some (p, 511) ∧
      ({ withProg L p with tc := (T B0 G0).tc } : State).fits 511 (blockNeed tdesc) = false) := by decide +kernel

theorem test_hyp_BlockLifeCycle_complete : (let g := { G0 with live := 0, active := 0 };
    (T B0 g).tblock 511 31 = some B0 ∧ (T B0 g).alive = true ∧ (T B0 g).groupQuiet 511 31 = true ∧ (T B0 g).tgroup 511 31 = some g ∧
    ((T B0 g).engine 511 3).mq = [] ∧ ((T B0 g).engine 511 3).vq = [] ∧ ((T B0 g).engine 511 3).ops = []) := by decide +kernel

/-- Thread 1,023 of 1,024: lane 31 of group 31. -/
theorem test_hyp_LaunchedGroup : 31 < min 32 (1024 - 32 * 31) := by decide

/-- An access of core 511 with one lane of 4 bytes at 0x10000. -/
def A1 (kind : Nat) (l : AccLane) : Acc :=
  { tcore := true, core := 511, slot := 31, pc := 0, unit := 1, ctx := 0, item := 0, kind := kind, w0 := 0, w1 := 0, lanes := [l] }
def ln : AccLane := { lane := 31, va := 0x10000, size := 4, data := [1, 2, 3, 4] }

theorem test_hyp_AccessLifeCycle :
    (let s : State := { Mb [] with accs := [(9, some (A1 1 ln))] };
      s.acc 9 = some (A1 1 ln) ∧ (A1 1 ln).tcore = true ∧ (A1 1 ln).lanes.find? (fun l => l.lane == 31 && !l.performed && !l.remote) = some ln ∧
      (A1 1 ln).isBlockStore = false ∧ (A1 1 ln).need = [] ∧ s.alive = true ∧ (A1 1 ln).together ln = [ln] ∧ s.accWaits 9 (A1 1 ln) ln = false ∧
      (∀ err ∈ [0, 1, 2], ((s.homeErr (A1 1 ln) ln err).performAll 9 (A1 1 ln) [ln]).isSome = true)) ∧
    (let a := { A1 0 ln with slot := 30 };
      let s : State := { Mb [] with accs := [(8, some (A1 1 ln)), (9, some a)] };
      s.acc 9 = some a ∧ a.lanes.find? (fun l => l.lane == 31 && !l.performed && !l.remote) = some ln ∧ ln ∈ a.together ln ∧ s.accWaits 9 a ln = true) ∧
    (let a := A1 0 { ln with performed := true };
      let s : State := { Mb [] with accs := [(9, some a)] };
      s.acc 9 = some a ∧ a.kind ≠ 1 ∧ s.hostParts a = [] ∧ (∀ l ∈ a.lanes, l.performed = true)) ∧
    (let a := A1 0 { ln with remote := true };
      let s : State := { L with xlt := { ranges := [{ range1 with kind := 1 }] }, accs := [(9, some a)] };
      s.acc 9 = some a ∧ a.kind ≠ 1 ∧ s.hostParts a = [{ ln with remote := true }] ∧ [0, 0, 0, 0].length = (s.hostParts a).foldl (fun m l => m + l.size) 0) ∧
    ((A1 1 { ln with performed := true }).kind ≠ 0 ∧ ∀ l ∈ (A1 1 { ln with performed := true }).lanes, l.performed = true) := by
  refine ⟨?_, ?_, ?_, ?_, ?_⟩ <;> decide +kernel

def mv (stage : Nat) : TMove := { core := 511, unit := 1, stage := stage, since := 0 }

/-- What a precise fault of that group writes: the record of its program. -/
theorem test_hyp_TCoreIssueChecks_record :
    let s := withProg (T B0 G0) P1
    s.tgroup 511 31 = some G0 ∧ s.tblock 511 G0.blk = some B0 ∧ s.prog B0.unit = some P1 ∧ G0.pc ≠ 0 := by decide +kernel

theorem test_hyp_CorePreemption :
    (let s : State := { L with preempts := [(511, 1)] };
      s.preempts.find? (fun p => p.1 == 511) = some (511, 1) ∧ s.alive = true ∧ (s.moveOn 511).isNone = true ∧ s.coreBlocks 511 = []) ∧
    (let s : State := { T B0 G0 with preempts := [(511, 1)] };
      s.preempts.find? (fun p => p.1 == 511) = some (511, 1) ∧ s.alive = true ∧ (s.moveOn 511).isNone = true ∧ s.coreBlocks 511 = [(31, B0)] ∧ B0.unit = 1) ∧
    (let s : State := { T B0 G0 with now := 1, tc := { (T B0 G0).tc with moves := [mv 1] } };
      s.tc.moves.find? (fun m => m.core == 511 && m.stage == 1) = some (mv 1) ∧ s.alive = true ∧ (mv 1).since < s.now ∧ s.drained 511 1 = true) ∧
    (let s : State := { withProg L P1 with tc := { moves := [mv 2] } };
      s.tc.moves.find? (fun m => m.core == 511 && m.stage == 2) = some (mv 2) ∧ s.prog 1 = some P1 ∧ s.alive = true ∧ s.tSaveBase 511 (s.prioOf 1) = 0) ∧
    (let sv : TSave := { unit := 1, blocks := [], groups := [], engines := [] };
      let s : State := { withProg L P1 with tc := { moves := [mv 3], saves := [(4088, some sv)] } };
      s.tc.moves.find? (fun m => m.core == 511 && m.stage == 3) = some (mv 3) ∧ s.prog 1 = some P1 ∧
      kvGet (fun _ => none) s.tc.saves (511 * 8 + s.prioOf 1) = some sv ∧ sv.unit = 1 ∧ s.alive = true ∧ s.tSaveBase 511 (s.prioOf 1) = 0) := by
  refine ⟨?_, ?_, ?_, ?_, ?_⟩ <;> decide +kernel

/-! ### Witnesses: V-cores -/

/-- A V-core at 0x10020 of unit 1, with mstatus.FS and XS on and XVTYPE.ET et. -/
def V0 (et : Nat) : VCore := { running := true, unit := 1, pc := 0x10020, csr := [(0x300, 0x1E000), (0x801, et)] }

def line0 : Nat := lineOf 1 0 0x10000

/-- V-core 127 in that state, its range cache holding the range and its L2 the lines of 0x10000 and of 0x10080, its L1D the first of them. -/
def Vsu (v : VCore) (u : Bool) : State :=
  { L with
    vc := { cores := [(127, v)] }
    coh := { l2 := [(line0 * 128 + 127, some { st := .m, data := List.replicate 128 7 }), ((line0 + 1) * 128 + 127, some { st := .m, data := List.replicate 128 7 })], l1d := [(line0 * 128 + 127, some { data := List.replicate 128 7 })] }
    xlt := { ranges := [{ range1 with u := u }], caches := [({ kind := 3, id := 127 }, [{ unit := 1, ctx := 0, start := 1, asid := 0 }])] } }

def Vs (v : VCore) : State := Vsu v true

def after (s : State) (w : BitVec 32) : State := (s.vfetch 127 (iLen w)).1

theorem test_fetchErr_none (s : State) : s.fetchErr 127 0 = s := rfl

def vissues (s : State) (w : BitVec 32) : Bool := s.vready 127 && (s.vfetch 127 (iLen w)).2 && decide (iWide w = some w.toNat)

theorem vissues_issues {s : State} {w : BitVec 32} (h : vissues s w = true) : s.VIssues 127 w (after s w) w.toNat := by
  simp only [vissues, Bool.and_eq_true, decide_eq_true_eq] at h
  exact ⟨h.1.1, by rw [after, ← h.1.2], h.2⟩

/-- An Xslv arithmetic word: OP, S2, vs1 = v1, vd = v2. -/
def xw (op s2 rd rs1 rs2 : Nat) : BitVec 32 := BitVec.ofNat 32 (0x5B + 2 ^ 7 * rd + 2 ^ 15 * rs1 + 2 ^ 20 * rs2 + 2 ^ 25 * s2 + 2 ^ 27 * op)

/-- Each row with an element type it takes (FP32, or INT32 for the integer ones), and each row with FS off. -/
theorem test_hyp_XslvArithmetic :
    (vecRows.all (fun r => let w := xw r.op (if r.op = 23 then 2 else 0) 2 1 0;
      let t := after (Vs (V0 (if r.fp then 0 else 2))) w;
      iOp w.toNat == 0x5B && xOp w.toNat == r.op && vissues (Vs (V0 (if r.fp then 0 else 2))) w && (t.vcore 127).xaOk w.toNat r.fp r.int
        && (r.f (t.vstrict 127) (t.vcore 127) w.toNat).isSome)) = true ∧
    (vecRows.all (fun r => let w := xw r.op 0 2 1 0;
      let s := Vs { V0 0 with csr := [] };
      vissues s w && !((after s w).vcore 127).xaOk w.toNat r.fp r.int)) = true := by
  refine ⟨?_, ?_⟩ <;> decide +kernel

/-- The last element of a register of 32-bit elements. -/
theorem test_hyp_XslvWritesActiveElements : (([(255, { bits := 1 }), (0, { bits := 2 })] : List (Nat × FRes)).map (fun r => r.1)).Nodup := by decide

def rw_ (op f3 rd rs1 rs2 f7 : Nat) : BitVec 32 := BitVec.ofNat 32 (op + 2 ^ 7 * rd + 2 ^ 12 * f3 + 2 ^ 15 * rs1 + 2 ^ 20 * rs2 + 2 ^ 25 * f7)

theorem test_hyp_VcoreBaseInstructions :
    [rw_ 0x33 0 31 1 2 32, rw_ 0x6F 0 1 0 0 0, rw_ 0x67 0 1 2 0 0, rw_ 0x63 0 0 0 0 0, rw_ 0x63 1 0 0 0 0, rw_ 0x73 0 0 0 0 0, rw_ 0x73 0 0 0 5 8].all
      (fun w => vissues (Vs (V0 0)) w && !ownCommand w.toNat) = true ∧
    ((V0 0).baseRegs (rw_ 0x33 0 31 1 2 32).toNat).isSome = true ∧ (V0 0).baseRegs (rw_ 0x33 1 31 1 2 32).toNat = none ∧
    vissues (Vs (V0 0)) (rw_ 0x33 1 31 1 2 32) = true ∧
    branchIf 0 0 0 = some true ∧ branchIf 1 0 0 = some false ∧ (rw_ 0x73 0 0 0 0 0).toNat = 0x73 ∧ (rw_ 0x73 0 0 0 5 8).toNat = 0x10500073 ∧
    (let v := { V0 0 with mode := 1 }; vissues (Vsu v false) (rw_ 0x73 0 0 0 2 24) = true ∧ (rw_ 0x73 0 0 0 2 24).toNat = 0x30200073 ∧ v.mode ≠ 3) := by
  refine ⟨?_, ?_, ?_, ?_, ?_, ?_, ?_, ?_, ?_⟩ <;> decide +kernel

/-- CSRRS of mscratch, CSRRW of it, and a CSR that is not there. -/
theorem test_hyp_VcoreTrapsAndCsrs :
    (let w := rw_ 0x73 2 1 0 0x5FF 0;
      iF3 w.toNat % 4 ≠ 0 ∧ vissues (Vs (V0 0)) w = true ∧ (after (Vs (V0 0)) w).csrRead 127 (natBits w.toNat 20 12) = none) ∧
    (let w := rw_ 0x73 2 1 0 0x340 0;
      vissues (Vs (V0 0)) w = true ∧ (after (Vs (V0 0)) w).csrRead 127 (natBits w.toNat 20 12) = some 0 ∧ csrNew ((after (Vs (V0 0)) w).vcore 127) w.toNat 0 = none) ∧
    (let w := rw_ 0x73 1 1 0 0x340 0;
      vissues (Vs (V0 0)) w = true ∧ (after (Vs (V0 0)) w).csrRead 127 (natBits w.toNat 20 12) = some 0 ∧ csrNew ((after (Vs (V0 0)) w).vcore 127) w.toNat 0 = some 0 ∧
      natBits w.toNat 20 12 / 1024 ≠ 3 ∧ natBits w.toNat 20 12 ≠ 0x8C0) ∧
    (let s := Vs { V0 0 with trap := some { cause := 2, addr := false, tval := 0 } };
      (s.vcore 127).trap = some { cause := 2, addr := false, tval := 0 } ∧ s.alive = true ∧ (s.vcore 127).running = true ∧ (s.vcore 127).stopped = false) ∧
    (let v : VCore := { V0 0 with mode := 1, csr := [(0x302, 4)] };
      ((Vs v).vcore 127).mode ≤ 1 ∧ natBit (((Vs v).vcore 127).csrv 0x302) 2 = true) ∧
    (let v : VCore := { V0 0 with csr := [(0x305, 0x10000)] };
      ¬ (((Vs v).vcore 127).mode ≤ 1 ∧ natBit (((Vs v).vcore 127).csrv 0x302) 2 = true) ∧ ((Vs v).vcore 127).csrv 0x305 ≠ 0) ∧
    (let s := Vs { V0 0 with mode := 0, csr := [(0x304, 2), (0x344, 2)] };
      s.alive = true ∧ (s.vcore 127).running = true ∧ (s.vcore 127).stopped = false ∧ (s.vcore 127).trap = none ∧ (s.vcore 127).waitTmb = false ∧
        (s.vcore 127).xslv = none ∧ (s.vcore 127).twait = none ∧ s.vloading 127 = false ∧ s.moveOn (127 + 512) = none ∧ s.vheld 127 = false ∧ s.vintr 127 = some 1) := by
  refine ⟨?_, ?_, ?_, ?_, ?_, ?_, ?_⟩ <;> decide +kernel

/-- A core whose x1 is 0x10000, whose miss of that line has been counted already. -/
def v1 : VCore := { V0 0 with x := [(1, 0x10000), (2, 0x10000)], missed := [line0] }

/-- t after the translation of a scalar access at 0x10000, after its line has been found in L1D, and for an atomic in L2. -/
def found (w : BitVec 32) (access len : Nat) : State := ((after (Vs v1) w).vlookRun 127 access 0x10000 len).1
def lined (w : BitVec 32) (access len : Nat) : State := ((found w access len).vlines 127 0 0x10000 len (access == 1)).1
def lined2 (w : BitVec 32) (access len : Nat) : State := ((found w access len).l2Lines 127 0 0x10000 len (access != 0)).1

theorem test_hyp_VcoreScalarMemory_fails :
    (let w := rw_ 0x03 7 5 1 0 0;
      vissues (Vs v1) w = true ∧ ((after (Vs v1) w).vcore 127).memOp w.toNat = none) ∧
    (let v := { v1 with x := [(1, 2 ^ 57)] };
      let w := rw_ 0x03 3 5 1 0 0;
      vissues (Vs v) w = true ∧ ((after (Vs v) w).vcore 127).memOp w.toNat = some ⟨0, 2 ^ 57, 8, []⟩ ∧
      ((after (Vs v) w).vlookRun 127 0 (2 ^ 57) 8).2 = (.fail 0, 2 ^ 57)) := by
  refine ⟨?_, ?_⟩ <;> decide +kernel

theorem test_hyp_VcoreScalarMemory_load : (let w := rw_ 0x03 3 5 1 0 0;
    (vissues (Vs v1) w = true ∧ ((after (Vs v1) w).vcore 127).memOp w.toNat = some ⟨0, 0x10000, 8, []⟩ ∧
      ((after (Vs v1) w).vlookRun 127 0 0x10000 8).2 = (.dev range1, 0x10000) ∧ (found w 0 8).vbytesBusy 127 0 0x10000 8 = false) ∧
    ((found w 0 8).vlines 127 0 0x10000 8 false).2 = true ∧
    ((lined w 0 8).l2Serves 127 (lineOf ((lined w 0 8).vcore 127).unit 0 0x10000) false = true ∧ ((lined w 0 8).vcore 127).running = true ∧
      ((lined w 0 8).l1dAt 127 (lineOf ((lined w 0 8).vcore 127).unit 0 0x10000)).isSome = true ∧
      (lined w 0 8).l1Read 127 0 0x10000 8 = (List.replicate 8 7, false))) := by
  refine ⟨?_, ?_, ?_⟩ <;> decide +kernel

theorem test_hyp_VcoreScalarMemory_store : (let w := rw_ 0x23 3 0 1 2 0;
    vissues (Vs v1) w = true ∧ ((after (Vs v1) w).vcore 127).memOp w.toNat = some ⟨1, 0x10000, 8, leBytes 8 0x10000⟩ ∧
      ((after (Vs v1) w).vlookRun 127 1 0x10000 8).2 = (.dev range1, 0x10000) ∧ (found w 1 8).vbytesBusy 127 0 0x10000 8 = false ∧
      ((found w 1 8).vlines 127 0 0x10000 8 true).2 = true ∧ ((lined w 1 8).vcore 127).running = true ∧
      (lined w 1 8).l2Serves 127 (lineOf ((lined w 1 8).vcore 127).unit 0 0x10000) true = true ∧
      ((lined w 1 8).l1dAt 127 (lineOf ((lined w 1 8).vcore 127).unit 0 0x10000)).isSome = true) := by decide +kernel

/-- LR, AMOADD and SC of a doubleword at 0x10000, with and without the reservation. -/
theorem test_hyp_VcoreScalarMemory_atomics :
    (let w := rw_ 0x2F 3 5 1 0 (4 * 2);
      iRs3 w.toNat = 2 ∧ iRs2 w.toNat = 0 ∧ vissues (Vs v1) w = true ∧ (after (Vs v1) w).vlook 127 0 0x10000 = (found w 0 8, .dev range1) ∧
        (found w 0 8).vbytesBusy 127 0 0x10000 8 = false ∧ (lined2 w 0 8).vread 127 0 0x10000 8 = (List.replicate 8 7, false)) ∧
    (let w := rw_ 0x2F 3 5 1 2 0;
      amoOp w.toNat = some (0, 2) ∧ amoReduces w.toNat 0 = false ∧ vissues (Vs v1) w = true ∧ (after (Vs v1) w).vlook 127 2 0x10000 = (found w 2 8, .dev range1) ∧
        (found w 2 8).vbytesBusy 127 0 0x10000 8 = false ∧ (lined2 w 2 8).vread 127 0 0x10000 8 = (List.replicate 8 7, false)) ∧
    (let w := rw_ 0x2F 3 5 1 2 (4 * 3);
      iRs3 w.toNat = 3 ∧ vissues (Vs v1) w = true ∧ (after (Vs v1) w).vlook 127 1 0x10000 = (found w 1 8, .dev range1) ∧
        (found w 1 8).vbytesBusy 127 0 0x10000 8 = false ∧ ((found w 1 8).vcore 127).resv ≠ some (lineOf 1 0 0x10000)) ∧
    (let v := { v1 with resv := some (lineOf 1 0 0x10000) };
      let w := rw_ 0x2F 3 5 1 2 (4 * 3);
      let t1 := ((after (Vs v) w).vlook 127 1 0x10000).1;
      vissues (Vs v) w = true ∧ ((after (Vs v) w).vlook 127 1 0x10000).2 = .dev range1 ∧ (t1.vcore 127).resv = some (lineOf ((after (Vs v) w).vcore 127).unit 0 0x10000)) := by
  refine ⟨?_, ?_, ?_, ?_⟩ <;> decide +kernel

/-- The lines of those atomics, and an AMO without destination as a reduction. -/
theorem test_hyp_VcoreScalarMemory_lines :
    ([(rw_ 0x2F 3 5 1 0 (4 * 2), 0), (rw_ 0x2F 3 5 1 2 0, 2), (rw_ 0x2F 3 5 1 2 (4 * 3), 1)].all (fun q =>
      ((found q.1 q.2 8).l2Lines 127 0 0x10000 8 (q.2 != 0)).2 && ((lined2 q.1 q.2 8).vcore 127).running
        && (lined2 q.1 q.2 8).l2Serves 127 (lineOf ((found q.1 q.2 8).vcore 127).unit 0 0x10000) (q.2 != 0) && !natBit q.1.toNat 25)) = true ∧
    (let v := { v1 with resv := some (lineOf 1 0 0x10000) };
      let t1 := ((after (Vs v) (rw_ 0x2F 3 5 1 2 (4 * 3))).vlook 127 1 0x10000).1;
      (t1.l2Lines 127 0 0x10000 8 true).2 = true) ∧
    (let w := rw_ 0x2F 2 0 1 2 0;
      amoOp w.toNat = some (0, 0) ∧ amoReduces w.toNat 0 = true ∧ vissues (Vs v1) w = true ∧ (after (Vs v1) w).vlook 127 2 0x10000 = (found w 2 4, .dev range1)) := by
  refine ⟨?_, ?_, ?_⟩ <;> decide +kernel

/-- A doubleword of host memory at 0x20000: a load, and an AMOADD, are sent. -/
theorem test_hyp_VcoreScalarMemory_host :
    let s : State :=
      { Vs { v1 with x := [(1, 0x20000)] } with
        xlt := { ranges := [{ range1 with length := 1 }, { range1 with start := 2, kind := 1, haddr := 0x4000 }],
                 caches := [({ kind := 3, id := 127 }, [{ unit := 1, ctx := 0, start := 1, asid := 0 }, { unit := 1, ctx := 0, start := 2, asid := 0 }])] } };
    let h := fun (x : Xl) => match x with
      | .host _ _ => true
      | _ => false;
    (let w := rw_ 0x03 3 5 1 0 0;
      vissues s w = true ∧ ((after s w).vcore 127).memOp w.toNat = some ⟨0, 0x20000, 8, []⟩ ∧ h ((after s w).vlookRun 127 0 0x20000 8).2.1 = true ∧
        ((after s w).vlookRun 127 0 0x20000 8).1.vbytesBusy 127 0 0x20000 8 = false) ∧
    (let w := rw_ 0x2F 3 5 1 2 0;
      vissues s w = true ∧ amoOp w.toNat = some (0, 2) ∧ h ((after s w).vlook 127 2 0x20000).2 = true ∧ ((after s w).vlook 127 2 0x20000).1.vbytesBusy 127 0 0x20000 8 = false) := by
  decide +kernel

theorem test_hyp_VcoreScalarMemory_fences :
    (let w := rw_ 0x0F 0 0 0 0 0;
      vissues (Vs v1) w = true ∧ iF3 w.toNat = 0 ∧ (after (Vs v1) w).vstoring 127 = false ∧ (after (Vs v1) w).vreducing 127 = false) ∧
    (let w := rw_ 0x0F 1 0 0 0 0; vissues (Vs v1) w = true ∧ iF3 w.toNat = 1) ∧
    (let w := rw_ 0x73 0 0 1 2 9;
      vissues (Vs v1) w = true ∧ iF3 w.toNat = 0 ∧ iF7 w.toNat = 9 ∧ iRd w.toNat = 0 ∧ ((after (Vs v1) w).vcore 127).mode = 3 ∧
      vissues (Vs { v1 with mode := 0 }) w = true ∧ ((after (Vs { v1 with mode := 0 }) w).vcore 127).mode = 0) := by
  refine ⟨?_, ?_, ?_⟩ <;> decide +kernel

/-- An Xslv memory word with MODE and vd = v2, and an Xslm word. -/
def xmw (mode : Nat) : BitVec 32 := BitVec.ofNat 32 (0x0B + 2 ^ 7 * 2 + 2 ^ 15 + 2 ^ 29 * mode)
def xlw (op f3 rd : Nat) : BitVec 32 := BitVec.ofNat 32 (0x7B + 2 ^ 7 * rd + 2 ^ 12 * f3 + 2 ^ 27 * op)

/-- An Xslv load of one element at 0x10000 between its issue and its end. -/
def op1 (a : Option Nat) (va : Nat) : XslvOp := { w := xmw 0, kind := 0, els := [{ lane := 0, va := va, size := 4 }], acc := a }
def acc1 : Acc := { tcore := false, core := 127, slot := 1, pc := 0, unit := 1, ctx := 0, item := 0, kind := 0, w0 := 0, w1 := 0, lanes := [{ lane := 0, va := 0x10000, size := 4 }] }

theorem test_hyp_XslvMemoryAndXslm_issue :
    ([0, 1, 2, 3, 4, 5].all (fun m => let w := if m = 4 then xmw 4 ||| (BitVec.ofNat 32 (2 ^ 25 * 2)) else xmw m;
      iOp w.toNat == 0x0B && xMode w.toNat == m && vissues (Vs (V0 0)) w && ((after (Vs (V0 0)) w).vcore 127).xmemOk w.toNat)) = true ∧
    ([0, 1, 2, 3, 4, 5].all (fun m => let w := xmw m;
      vissues (Vs { V0 0 with csr := [] }) w && !((after (Vs { V0 0 with csr := [] }) w).vcore 127).xmemOk w.toNat)) = true := by
  refine ⟨?_, ?_⟩ <;> decide +kernel

/-- The translation of one element that succeeds, one at 2 ^ 57 that has no range, and an access whose part is in L2. -/
theorem test_hyp_XslvMemoryAndXslm_phases :
    (let s := Vs { v1 with xslv := some (op1 none 0x10000) };
      (s.vcore 127).xslv = some (op1 none 0x10000) ∧ s.alive = true ∧ (s.vcore 127).running = true ∧ (s.vcore 127).stopped = false ∧
        s.checkRuns 127 (xmw 0).toNat 0 ((s.vcore 127).checkList (xmw 0).toNat 0 (op1 none 0x10000).els) = none ∧
        s.vbytesBusy 127 ((s.vcore 127).ctxOf 0) 0x10000 4 = false) ∧
    (let s := Vs { v1 with xslv := some (op1 none (2 ^ 57)) };
      (s.vcore 127).xslv = some (op1 none (2 ^ 57)) ∧
        s.checkRuns 127 (xmw 0).toNat 0 ((s.vcore 127).checkList (xmw 0).toNat 0 (op1 none (2 ^ 57)).els) = some ({ lane := 0, va := 2 ^ 57, size := 4 }, 2, 2 ^ 57)) ∧
    (let s : State := { Vs { v1 with xslv := some (op1 (some 9) 0x10000) } with accs := [(9, some acc1)] };
      (s.vcore 127).xslv = some (op1 (some 9) 0x10000) ∧ s.acc 9 = some acc1 ∧ s.alive = true ∧ (s.vcore 127).running = true ∧
        ((s.xslvStep 127 (s.vcore 127).sk acc1).2.lanes.all (fun l => l.performed)) = true) := by
  refine ⟨?_, ?_, ?_⟩ <;> decide +kernel

/-- XMOP with K = 1 and with the largest K of FP8 (f3 5), XMZERO, XMRD and XMWR. -/
theorem test_hyp_XslvMemoryAndXslm_tiles :
    ([(0, 1), (5, xmLimit 5)].all (fun q => let w := xlw 0 q.1 1;
      let s := Vs { V0 0 with x := [(1, q.2)] };
      iOp w.toNat == 0x7B && xOp w.toNat == 0 && vissues s w && ((after s w).vcore 127).fsOn && ((after s w).vcore 127).xsOn
        && decide (((after s w).vcore 127).rx (iRd w.toNat) = q.2) && decide (0 < q.2 ∧ q.2 ≤ xmLimit q.1) && decide (((after s w).vcore 127).frm ≤ 4))) = true ∧
    ([xlw 1 0 0, xlw 2 0 31, xlw 3 0 0].all (fun w =>
      vissues (Vs (V0 0)) w && ((after (Vs (V0 0)) w).vcore 127).fsOn && ((after (Vs (V0 0)) w).vcore 127).xsOn && iF3 w.toNat == 0 && iRs1 w.toNat == 0
        && iRs2 w.toNat == 0)) = true := by
  refine ⟨?_, ?_⟩ <;> decide +kernel

theorem test_xslm_codes : [xlw 1 0 0, xlw 2 0 31, xlw 3 0 0].map (fun w => xOp w.toNat) = [1, 2, 3] := by decide +kernel

/-! ### Witnesses: V-core tumblers and work items, engines, tumblers -/

/-- x1 holds the number of a tumbler (the last of the unit's), or one past it, or more than 32 bits. -/
def tmbV (n : Nat) : State := Vs { V0 0 with x := [(1, n)] }

theorem test_hyp_VcoreTumblers :
    ([0, 1, 2, 3, 4].all (fun f => [0, 63, 63 + 2 ^ 32].all (fun n => let w := rw_ 0x2B f 5 1 2 0;
      iOp w.toNat == 0x2B && iF3 w.toNat == f && vissues (tmbV n) w && natBits w.toNat 27 5 == 0 && ((after (tmbV n) w).unitEnt ((after (tmbV n) w).vcore 127).unit == some unit1)
        && decide (((after (tmbV n) w).vcore 127).rx (iRs1 w.toNat) = n)))) = true ∧
    ([64, 32768, 2 ^ 32].all (fun n => let w := rw_ 0x2B 0 5 1 2 0;
      vissues (tmbV n) w && ((after (tmbV n) w).unitEnt ((after (tmbV n) w).vcore 127).unit == some unit1) && decide (((after (tmbV n) w).vcore 127).rx (iRs1 w.toNat) = n))) = true := by
  refine ⟨?_, ?_⟩ <;> decide +kernel

def vmv (stage : Nat) : TMove := { core := 127, unit := 1, stage := stage, since := 0 }

theorem test_hyp_VcoreItemLifeCycle_start :
    (let p := { P1 with desc := vdesc };
      let s := withProg L p;
      s.itemCore 1 0 true = some (p, 639) ∧ (s.vcore 127).running = false ∧ s.vdead 127 = false) := by decide +kernel

theorem test_hyp_VcoreItemLifeCycle_end :
    (let w := rw_ 0x73 1 0 1 0 0x46;
      let s := Vs { V0 0 with x := [(1, 1)] };
      s.xslItemValue 127 w = some 1 ∧ vissues s w = true ∧ iF3 w.toNat % 4 ≠ 0 ∧ natBits w.toNat 20 12 = 0x8C0 ∧ (after s w).csrRead 127 0x8C0 = some 0 ∧
        csrNew ((after s w).vcore 127) w.toNat 0 = some 1 ∧ (after s w).vquiet 127 = true) ∧
    (let w := rw_ 0x73 1 0 1 0 0x46;
      let n := 3 + 2 ^ 16 * 0xFFFF;
      let s := Vs { V0 0 with x := [(1, n)] };
      s.xslItemValue 127 w = some n ∧ natBit n 1 = true ∧ vissues s w = true ∧ (after s w).csrRead 127 0x8C0 = some 0 ∧
        csrNew ((after s w).vcore 127) w.toNat 0 = some n) := by
  refine ⟨?_, ?_⟩ <;> decide +kernel

theorem test_hyp_VcoreItemLifeCycle_preemption :
    (let s : State := { Vs (V0 0) with preempts := [(639, 1)] };
      s.preempts.find? (fun p => p.1 == 639) = some (639, 1) ∧ s.alive = true ∧ (s.moveOn 639).isNone = true ∧ (s.vcore 127).running = true ∧ (s.vcore 127).unit = 1) ∧
    (let s : State := { withProg L P1 with vc := { cores := [(127, V0 0)], moves := [vmv 1] } };
      s.vc.moves.find? (fun m => m.core == 127 && m.stage == 1) = some (vmv 1) ∧ s.prog 1 = some P1 ∧ s.alive = true ∧ (s.vcore 127).xslv = none ∧
        (s.vcore 127).waitTmb = false ∧ s.vquiet 127 = true ∧ s.vSaveBase 127 (s.prioOf 1) = 0) ∧
    (let s : State := (State.setFld { withProg (Mb []) P1 with vc := { moves := [vmv 3], saves := [(1016, some (V0 0))] } } (RF.VCW_SAVE_BASE_LO_BASE 127 0) 16);
      s.vc.moves.find? (fun m => m.core == 127 && m.stage == 3) = some (vmv 3) ∧ s.prog 1 = some P1 ∧
        kvGet (fun _ => none) s.vc.saves (127 * 8 + s.prioOf 1) = some (V0 0) ∧ (V0 0).unit = (vmv 3).unit ∧ s.alive = true ∧ s.vSaveBase 127 (s.prioOf 1) ≠ 0 ∧
        s.slotXlt 1 0 0 (s.vSaveBase 127 (s.prioOf 1)) vSaveParts = 0 ∧ s.slotAway 1 0 (s.vSaveBase 127 (s.prioOf 1)) vSaveParts = 0 ∧
        (s.getRuns 1 0 (slotRuns (s.vSaveBase 127 (s.prioOf 1)) vSaveParts) []).2.2 = false) := by
  refine ⟨?_, ?_, ?_⟩ <;> decide +kernel

/-- A descriptor of 64 bytes from its words. -/
def dbytes (ws : List Nat) : List Byte := (ws ++ List.replicate (16 - ws.length) 0).flatMap (leBytes 4)
def dsc (ws : List Nat) : Desc := { bytes := dbytes ws, addr := 0x1000, slot := 31, pc := 0x10020, issue := 1 }

/-- FP8 operands in group 3 with INIT: M = N = 1, K = 32, A at 0 and B at 64; and the same with MX scales at 128 and 132 and STEP 16. -/
def mok : List Nat := [3 + 4 + 2 ^ 8 * 4 + 2 ^ 12 * 4, 1 + 2 ^ 8 + 2 ^ 16 * 4, 0, 0, 32, 64, 32]
def mmx : List Nat := [3 + 4 + 2 ^ 8 * 4 + 2 ^ 12 * 4 + 2 ^ 16 * 5 + 2 ^ 22 * 16, 1 + 2 ^ 8 + 2 ^ 16 * 4, 0, 0, 32, 64, 32, 128, 4, 132, 4]
/-- A PASS of one element of group 3 that writes FP32 nowhere, and one of form 3. -/
def vok : List Nat := [2 ^ 10 * 3, 1 + 2 ^ 8]

/-- Core 511 with block 31 and engine 3. -/
def En (m : KV Byte) (e : Engine) : State :=
  { L with tc := { blocks := [(16383, some { B0 with localMem := m })], groups := [(16383, some G0)], engines := [(2047, e)] } }

def grp3 : KV AccGroup := [(3, { isOpen := true, cls := 1 })]

theorem test_hyp_EngineDescriptors_accept :
    (let e : Engine := { mq := [dsc []] };
      (En [] e).engBlock 511 3 = some B0 ∧ e.mq.find? (fun d => !d.accepted) = some (dsc []) ∧
        ((dsc []).mInvalid ((En [] e).descEnv B0 ((dsc []).mmode B0) (e.viewAt B0 0 1))).isSome = true) ∧
    (let e : Engine := { mq := [dsc mok] };
      (dsc mok).mInvalid ((En [] e).descEnv B0 ((dsc mok).mmode B0) (e.viewAt B0 3 1)) = none) ∧
    (let e : Engine := { vq := [dsc []] };
      (En [] e).engBlock 511 3 = some B0 ∧ e.vq.find? (fun d => !d.accepted) = some (dsc []) ∧
        ((dsc []).vInvalid [] ((En [] e).descEnv B0 ((dsc []).vmode B0) (e.viewAt B0 0 1))).isSome = true) ∧
    (let e : Engine := { vq := [dsc vok], acc := grp3 };
      (dsc vok).vInvalid [] ((En [] e).descEnv B0 ((dsc vok).vmode B0) (e.viewAt B0 3 1)) = none) := by
  refine ⟨?_, ?_, ?_, ?_⟩ <;> decide +kernel

def overBytes : KV Byte := [(0, 0x38), (64, 0x38), (128, 254), (132, 254)]

/-- A chunk of zeros, and a chunk whose one product is 2 ^ 254. -/
theorem test_hyp_EngineDescriptors_chunk :
    (let d := { dsc mok with accepted := true, started := true };
      let e : Engine := { mq := [d], acc := grp3 };
      (En [] e).engBlock 511 3 = some B0 ∧ e.current B0 = some d ∧ B0.stopped = false ∧ (En [] e).alive = true ∧
        (d.commit [] (d.mmode B0).1 (d.mmode B0).2 (e.grp d.grp)).2 = []) ∧
    (let d := { dsc mmx with accepted := true, started := true };
      let b := { B0 with localMem := overBytes };
      let e : Engine := { mq := [d], acc := grp3 };
      (En overBytes e).engBlock 511 3 = some b ∧ e.current b = some d ∧
        (d.commit overBytes (d.mmode b).1 (d.mmode b).2 (e.grp d.grp)).2 = [(0, 0)] ∧ d.replayable (d.mmode b).1 = true) ∧
    (let d := { dsc mok with accepted := true, started := true, next := 1 };
      d.units (d.mmode B0).1 ≤ d.next) := by
  refine ⟨?_, ?_, ?_⟩ <;> decide +kernel

theorem test_hyp_EngineDescriptors_vector :
    (let d := { dsc vok with accepted := true };
      let e : Engine := { vq := [d], acc := grp3 };
      (En [] e).engBlock 511 3 = some B0 ∧ e.vq.find? (fun d => !d.started) = some d ∧ (En [] e).vReady 511 e B0 d = true ∧ B0.stopped = false ∧ (En [] e).alive = true) ∧
    (let d := { dsc vok with accepted := true, started := true };
      let e : Engine := { vq := [d], acc := grp3 };
      (En [] e).engine 511 3 = e ∧ (En [] e).engFaulted 511 3 = false) ∧
    ((En [] {}).coreBlocks 511).find? (fun x => x.2.engs.contains 3) = some (31, B0) := by
  refine ⟨?_, ?_, ?_⟩ <;> decide +kernel

theorem test_hyp_EngineDescriptors_watchdog :
    (let u := { unit1 with barrierWd := 1 };
      let x : Barrier := { armed := true, ticks := 1 };
      let b := { B0 with bars := [{}, {}, x] };
      let s : State := { T b G0 with now := 33, ward := { image := { units := [u] } } };
      let sv : TSave := { unit := 1, blocks := [(31, b)], groups := [], engines := [] };
      let q : State := { s with tc := { saves := [(4095, some sv)] } };
      s.tick.lastTick.getD 0 + 32 < s.now ∧ (s.tblock 511 31 = some b ∧ b.bars[2]? = some x ∧ s.watchdogDue b x = true) ∧
        q.tblock 511 31 = none ∧ q.savedBlock 511 31 = some (sv, b) ∧ q.watchdogDue b x = true) := by decide +kernel

/-- The last tumbler of the device, with one operation of a source on its way. -/
def Tm (t : Tmb) (op : TmbOp) (src : TmbSrc) (operand : Nat) : State :=
  { L with tmb := { tmbs := [(32767, t)], reqs := [{ src := src, kind := 0, id := 0, op := op, tmb := 32767, operand := operand }] } }

def rq (op : TmbOp) (src : TmbSrc) (operand : Nat) : TmbReq := { src := src, kind := 0, id := 0, op := op, tmb := 32767, operand := operand }

def took (t : Tmb) (op : TmbOp) (src : TmbSrc) (operand : Nat) : State := (((Tm t op src operand).homeReq 0 op).map (fun q => q.1)).getD L

def homed (t : Tmb) (op : TmbOp) (src : TmbSrc) (operand : Nat) : Bool :=
  ((Tm t op src operand).homeReq 0 op).any (fun q => q.2 == rq op src operand && q.1.tmbAt 32767 == t)

theorem test_hyp_TumblerArrival :
    ([{ kind := 1, value := 2 ^ 32 - 1, target := 0, step := 5 }, { kind := 2, value := 3, expected := 65535 }, { kind := 2, value := 65535, expected := 65535 },
      { kind := 3, value := 1 }, { kind := 3, value := 0 }, { kind := 0 }, { kind := 4 }] : List Tmb).all
      (fun t => homed t .arrive .dev 1 && homed t .arrive .dev 0) = true ∧
    (Tmb.takesArrival { kind := 2 } 65536 = false ∧ Tmb.takesArrival { kind := 4 } 1 = false ∧ homed { kind := 2 } .arrive .dev 65536 = true) := by
  refine ⟨?_, ?_, ?_, ?_⟩ <;> decide +kernel

/-- A queue of sixteen tokens with none, one and sixteen in it; waits that have ended, that have not, and that the kind does not permit. -/
theorem test_hyp_TumblerPollWaitTakePut :
    (let q : Nat → Tmb := fun n => { kind := 4, log2 := 4, tokens := List.replicate n 7 };
      [.poll, .take, .put, .wait].all (fun op => [0, 1, 15, 16].all (fun n => homed (q n) op .dev 0)) = true) ∧
    homed { kind := 1 } .take .dev 0 = true ∧
    (let t : Tmb := { kind := 1, value := 4 }; t.operandOk 4 = true ∧ t.ended 4 = true ∧ homed t .wait .dev 4 = true) ∧
    (let t : Tmb := { kind := 1, value := 3 };
      t.operandOk 4 = true ∧ t.ended 4 = false ∧ homed t .wait .dev 4 = true ∧ ((took t .wait .dev 4).bump (RF.MGT_TMB_OPS_COUNT (tmbLeaf 32767))).waitsAt (tmbLeaf 32767) = 0 ∧
        kvGet (fun _ => 0) (took t .wait .dev 4).tmb.reservations (tmbLeaf 32767) = 0) ∧
    (let t : Tmb := { kind := 1, value := 3 };
      let s : State := { Tm t .wait .dev 4 with tmb := { (Tm t .wait .dev 4).tmb with reservations := [(tmbLeaf 32767, 16384)] } };
      (s.homeReq 0 .wait).any (fun q => q.2 == rq .wait .dev 4 && q.1.tmbAt 32767 == t && kvGet (fun _ => 0) q.1.tmb.reservations (tmbLeaf 32767) == 16384) = true) ∧
    (let t : Tmb := { kind := 4, log2 := 4 }; t.operandOk 1 = false ∧ homed t .wait .dev 1 = true) ∧
    (let s : State := { L with tmb := { told := [rq .wait .dev 4] } }; s.tmb.told[0]? = some (rq .wait .dev 4)) := by
  refine ⟨?_, ?_, ?_, ?_, ?_, ?_, ?_⟩ <;> decide +kernel

/-- Answers for group slot 31 of core 511 and for V-core 127, and waits whose time has come. -/
theorem test_hyp_TumblerAnswers :
    ([.tgroup 511 31, .vcore 127].all (fun src => [.fired, .timedOut, .refused 0 4].all (fun ans => let s : State := { L with tmb := { notes := [{ src := src, tmb := 5, ans := ans }] } };
      decide (s.tmb.notes[0]? = some { src := src, tmb := 5, ans := ans }))) = true) ∧
    ({ T B0 { G0 with wait := .tmb 5 1 0 (some 0) 0 } with now := 100 } : State).waitExpired (.tgroup 511 31) = true ∧
    ({ Vs { V0 0 with twait := some (5, 1, some 0) } with now := 100 } : State).waitExpired (.vcore 127) = true := by
  refine ⟨?_, ?_, ?_⟩ <;> decide +kernel

theorem test_hyp_TumblerRegisters : L.alive = true ∧ L.boot.fwRunning = true ∧ L.tmbCfgOk 32767 (BitVec.ofNat 32 (1 + 2 ^ 16 * 5)).toNat = true ∧ L.tmbCfgOk 32767 (2 : Word).toNat = false := by
  refine ⟨?_, ?_, ?_, ?_⟩ <;> decide +kernel

/-! ### Witnesses: saves and restores, the frame -/

/-- A save of block 31 of core 511 into 0x20000, its restore, and a save of V-core 127. -/
theorem test_hyp_SaveAndRestore :
    (let s : State := State.setFld { withProg (Mb []) P1 with tc := { (T B0 G0).tc with moves := [mv 2] } } (RF.TCW_SAVE_BASE_LO_BASE 511 0) 0x20;
      let parts := saveParts [(31, B0)] [{}];
      s.tc.moves.find? (fun m => m.core == 511 && m.stage == 2) = some (mv 2) ∧ s.prog 1 = some P1 ∧ s.alive = true ∧ s.tSaveBase 511 (s.prioOf 1) = 0x20000 ∧
        (s.coreBlocks 511).filter (fun b => b.2.unit == 1) = [(31, B0)] ∧ s.engine 511 3 = {} ∧ s.slotXlt 1 0 1 0x20000 parts = 0 ∧
        parts ≠ [] ∧ s.sealOk 1 0 0x20000 tSlotLen = true) ∧
    (let sv : TSave := { unit := 1, blocks := [(31, B0)], groups := [(31, G0)], engines := [(3, {})] };
      let s : State := State.setFld { withProg (Mb []) P1 with tc := { moves := [mv 3], saves := [(4088, some sv)] } } (RF.TCW_SAVE_BASE_LO_BASE 511 0) 0x20;
      let parts := saveParts sv.blocks (sv.engines.map (fun e => e.2));
      s.tc.moves.find? (fun m => m.core == 511 && m.stage == 3) = some (mv 3) ∧ s.prog 1 = some P1 ∧
        kvGet (fun _ => none) s.tc.saves (511 * 8 + s.prioOf 1) = some sv ∧ s.alive = true ∧ s.tSaveBase 511 (s.prioOf 1) = 0x20000 ∧
        sv.unit = (mv 3).unit ∧ s.slotXlt 1 0 0 0x20000 parts = 0 ∧ s.slotAway 1 0 0x20000 parts = 0) ∧
    (let s : State := State.setFld { withProg (Mb []) P1 with vc := { cores := [(127, V0 0)], moves := [vmv 1] } } (RF.VCW_SAVE_BASE_LO_BASE 127 0) 0x20;
      s.vc.moves.find? (fun m => m.core == 127 && m.stage == 1) = some (vmv 1) ∧ s.prog 1 = some P1 ∧ s.alive = true ∧ (s.vcore 127).xslv = none ∧
        (s.vcore 127).waitTmb = false ∧ s.vquiet 127 = true ∧ s.vSaveBase 127 (s.prioOf 1) = 0x20000 ∧ s.slotXlt 1 0 1 0x20000 vSaveParts = 0 ∧
        s.sealOk 1 0 0x20000 65536 = true) := by
  refine ⟨?_, ?_, ?_⟩ <;> decide +kernel

/-- Running and loaded, at cycle n, with a tick state, TCK_CTL.SRC and a period of 1,000. -/
def Tk (n : Nat) (t : TickSt) (src : Nat) : State := (State.setFld { L with now := n, tick := t } RF.TCK_CTL_SRC src).setFld RF.TCK_PERIOD_P 1000

def far : Nat := 10 ^ 9

theorem test_hyp_TickSources_edges :
    (Tk 0 { lastTick := some 0 } 0).ticking = true ∧
    (let s := Tk 1 { lastTick := some 0 } 1; s.ticking = true ∧ s.fld RF.TCK_CTL_SRC ≠ 0 ∧ s.tickBefore = some 0 ∧ 2 * (s.now - 0) < s.periodCycles) ∧
    (let s := Tk (far + 1) { lastTick := some 0, due := some .ext, dueAt := far } 1; s.ticking = true ∧ s.tickBefore = some far ∧ 2 * (s.now - far) < s.periodCycles) ∧
    (let s := Tk far { lastTick := some 0, due := some .holdover, dueAt := far } 2;
      s.ticking = true ∧ s.fld RF.TCK_CTL_SRC ≠ 0 ∧ s.tickBefore = some 0 ∧ s.periodCycles ≤ 2 * (s.now - 0)) ∧
    (let s := Tk 0 {} 1; s.ticking = true ∧ s.tickBefore = none) ∧
    (let s := Tk 1500 { riseAt := some 0, riseTicked := true } 1; s.tick.riseAt = some 0 ∧ s.tick.riseTicked = true) ∧
    (Tk 0 {} 1).tick.riseAt = none := by
  refine ⟨?_, ?_, ?_, ?_, ?_, ?_, ?_⟩ <;> decide +kernel

/-- A period of 1,000 units of 10 ns is 25,000 cycles. -/
theorem test_period : (Tk 0 {} 0).periodCycles = 25000 := by decide +kernel

theorem test_hyp_TickSources_deadlines :
    (let s := Tk 25000 { lastTick := some 0 } 0; s.ticking = true ∧ s.fld RF.TCK_CTL_SRC = 0 ∧ s.tick.due = none ∧ s.now = s.tick.lastGen + s.periodCycles) ∧
    (let s := (Tk 25000 { lastTick := some 0 } 2).setFlag RF.TCK_STAT_HOLDOVER true;
      s.ticking = true ∧ s.flag RF.TCK_STAT_HOLDOVER = true ∧ s.tick.due = none ∧ s.now = s.tick.lastGen + s.periodCycles) ∧
    ([1, 2].all (fun src => let s := Tk far { lastTick := some 0 } src;
      s.ticking && decide (s.fld RF.TCK_CTL_SRC = src) && !s.flag RF.TCK_STAT_HOLDOVER && !s.tick.lossSeen && decide (s.tick.due = none)
        && decide (s.tick.lossRef + s.periodCycles + refPeriod * s.fld RF.TCK_HOLDWIN_H < s.now))) = true ∧
    (let s := Tk 25000 { lastTick := some 0 } 2; s.now ≤ s.tick.lossRef + s.periodCycles + refPeriod * s.fld RF.TCK_HOLDWIN_H) ∧
    ((Tk 0 {} 0).alive = true ∧ (Tk 0 {} 0).boot.fwRunning = true) := by
  refine ⟨?_, ?_, ?_, ?_, ?_⟩ <;> decide +kernel

/-- A first tick; a held number, the largest, under SRC 1; a frame of P and 0.5 % exactly, and of one cycle more, and one too short. -/
theorem test_hyp_TickRecognised :
    (let s := Tk far { due := some .gen, dueAt := far, lastTick := some 0, first := true } 0; s.tick.due = some .gen ∧ s.tick.first = true ∧ TickSrc.gen ≠ .ext) ∧
    (let s := Tk far { due := some .ext, dueAt := far, first := false, held := some (2 ^ 64 - 1) } 1;
      s.tick.due = some .ext ∧ s.tick.lastTick = none ∧ s.tick.first = false ∧ s.tick.held = some (2 ^ 64 - 1)) ∧
    (let s := Tk far { due := some .holdover, dueAt := far, lastTick := some 0, first := false } 2; s.tick.due = some .holdover ∧ s.tick.first = false ∧ s.tick.held = none) ∧
    ([25125, 24875].all (fun n => let s := Tk n { due := some .ext, dueAt := n, lastTick := some 0 } 1;
      decide (200 * (s.periodCycles - (s.tick.dueAt - 0)) ≤ s.periodCycles ∧ 200 * (s.tick.dueAt - 0 - s.periodCycles) ≤ s.periodCycles))) = true ∧
    ([25126, 24874].all (fun n => let s := Tk n { due := some .ext, dueAt := n, lastTick := some 0 } 1;
      decide (s.periodCycles < 200 * (s.periodCycles - (s.tick.dueAt - 0)) ∨ s.periodCycles < 200 * (s.tick.dueAt - 0 - s.periodCycles)))) = true ∧
    (Tk 0 {} 0).tick.due = none := by
  refine ⟨?_, ?_, ?_, ?_, ?_, ?_⟩ <;> decide +kernel

/-- P1 with its one item issued, and completed. -/
def Pi : FrameProg := { P1 with issued := [0] }
def Pd : FrameProg := { P1 with issued := [0], done := [0] }

theorem test_hyp_EndOfFrame :
    (let s := Tk 32 { lastTick := some 0 } 0; s.tick.lastTick = some 0 ∧ s.alive = true ∧ s.now = 0 + 32 ∧ s.tick.closed = false) ∧
    (let s := Tk 33 { lastTick := some 0 } 0; s.tick.lastTick = some 0 ∧ s.now ≠ 0 + 32) ∧
    ((withProg L P1).unitRun 1).active.filter (fun p => p.issued.isEmpty) ≠ [] ∧
    ((withProg L Pd).prog 1 = some Pd ∧ (withProg L Pd).unitEnt 1 = some unit1 ∧ Pd.done.length = Pd.items) ∧
    ((withProg L Pi).prog 1 = some Pi ∧ (withProg L Pi).unitEnt 1 = some unit1 ∧ Pi.done.length ≠ Pi.items) ∧
    (let s := Tk 129 { lastTick := some 0, snapPending := true, closed := true } 0;
      s.alive = true ∧ s.recordReady = true ∧ s.isLeaf (s.fld RF.TCK_SNAP_CTX_UNIT) = false) ∧
    (Tk 128 { lastTick := some 0, snapPending := true, closed := true } 0).recordReady = false := by
  refine ⟨?_, ?_, ?_, ?_, ?_, ?_, ?_⟩ <;> decide +kernel

/-- A unit whose barrier's watchdog is due at the end of its frame. -/
theorem test_hyp_EndOfFrame_watchdog :
    let u := { unit1 with barrierWd := 1 }
    let b := { B0 with bars := [{}, {}, { armed := true, ticks := 1 }] }
    ({ T b G0 with ward := { image := { units := [u] } } } : State).watchdogOf 1 = true ∧ (T B0 G0).watchdogOf 1 = false := by decide +kernel

/-- The record of a tick that is ready, its slot at 0x10000, with a hold of its line at core 127, and without. -/
def Sn (c : CohSt) : State :=
  ((State.setFld { Mb [] with now := 129, tick := { lastTick := some 0, snapPending := true, closed := true }, coh := c } RF.TCK_SNAP_CTX_UNIT 1).setFld
    RF.TCK_SNAP_BASE_LO_BASE 0x10).setFld RF.TCK_SNAP_SIZE_SIZE 4096

theorem test_hyp_EndOfFrame_record :
    (let s := Sn {};
      s.alive = true ∧ s.recordReady = true ∧ s.fld RF.TCK_SNAP_CTX_UNIT = 1 ∧ s.fld RF.TCK_SNAP_CTX_CTX = 0 ∧ s.fld RF.TCK_SNAP_SIZE_SIZE = 4096 ∧
        s.fld RF.TCK_SNAP_BASE_LO_BASE * 4096 + 2 ^ 32 * s.fld RF.TCK_SNAP_BASE_HI_BASE + s.tick.recTick % (s.fld RF.TCK_SNAP_CTL_DEPTH + 1) * 4096 = 0x10000 ∧
        s.isLeaf 1 = true ∧ s.runFails 1 0 1 0x10000 4096 = none ∧ s.piecesWait 1 0 true (s.devPieces 1 0 1 0x10000 4096) = false ∧
        (blockRuns 0x10000 4096).any (s.blockLost 1 0 (s.rangeCls 1 0 0x10000)) = false) ∧
    (let s := Sn { l2 := [(line0 * 128 + 127, some { st := .m, data := List.replicate 128 7, holdUntil := some far })],
                   dir := [(line0, some { owner := some 127, sharers := [] })] };
      s.recordReady = true ∧ s.isLeaf 1 = true ∧ s.runFails 1 0 1 0x10000 4096 = none ∧ s.piecesWait 1 0 true (s.devPieces 1 0 1 0x10000 4096) = true) := by
  refine ⟨?_, ?_⟩ <;> decide +kernel

theorem test_hyp_AdmissionCycle :
    ([false, true].all (fun h => let s := (Tk 384 { lastTick := some 0, closed := true } 0).setFlag RF.TCK_CTL_ADMIT_HOLD h;
      decide (s.tick.lastTick = some 0) && s.alive && decide (s.now = 0 + 384) && s.tick.closed && !s.tick.admitted && decide (s.flag RF.TCK_CTL_ADMIT_HOLD = h)
        && !s.boot.fatal)) = true := by decide +kernel

theorem test_hyp_GatesAndRetirement :
    ([0, 400].all (fun n => let p := { P1 with startEn := true, gate := .pending, startTmb := 32767 };
      let s : State := { withProg L p with now := n };
      decide (s.nextGate 1 = some p) && s.alive && decide (tmbLeaf p.startTmb ≠ s.primary))) = true ∧
    (let p := { P1 with startEn := true, gate := .pending }; (withProg L p).nextGate 1 = some p ∧ tmbLeaf p.startTmb = (withProg L p).primary) ∧
    ([TmbAns.fired, .timedOut].all (fun ans => let p := { P1 with startEn := true, gate := .registered };
      let x : TmbNote := { src := .gate 1, tmb := 0, ans := ans };
      let s : State := { withProg L p with tmb := { notes := [x] } };
      decide (s.tmb.notes.findIdx? (fun x => x.src == TmbSrc.gate 1 && (x.ans == TmbAns.fired || x.ans == TmbAns.timedOut)) = some 0)
        && decide (s.nextGate 1 = some p) && decide (s.tmb.notes[0]? = some x) && decide (x.at_ ≤ s.now ∧ s.now ≤ x.at_ + 0))) = true ∧
    ((withProg L Pd).prog 1 = some Pd ∧ (withProg L Pd).alive = true ∧ 0 < Pd.items ∧ Pd.done.length = Pd.items) ∧
    ((withProg L Pi).prog 1 = some Pi ∧ Pi.done.length ≠ Pi.items) ∧ (L.alive = true ∧ L.boot.fwRunning = true) := by
  refine ⟨?_, ?_, ?_, ?_, ?_, ?_⟩ <;> decide +kernel

/-! ### Witnesses: the fabric, the memory system, coherence, translation -/

def fb (seq : Nat) : FabBlock := { seq := seq, vc := 3, poison := true, dst := 9, src := 8, sect := 255, tag := 65535, payload := List.replicate 256 0xA5 }
def Lk (d : LinkDir) : State := { L with links := [(27, d)] }

/-- The replay buffer one short of full, and full; the expected block, duplicates at both ends of their range, and blocks just outside it; an ACK of the
last of two. -/
theorem test_hyp_FabricLink_blocks :
    (let d := dirFrom ((linkOf 0 1).getD 99) 0;
      ([511, 512].all (fun n => let s : State := { L with links := [(d, { replay := List.replicate n (fb 0) })] };
        decide (s.outDir 0 1 = some d) && !(s.linkDir d).stopped && decide ((s.linkDir d).waiting = []) && ((s.linkDir d).hasRoom == decide (n < 512)))) = true) ∧
    ([0, 2048, 4095, 1, 2047].all (fun q => let s := Lk { wire := [fb q] };
      decide ((s.linkDir 27).wire = [fb q]) && !(fb q).idle && decide ((fb q).ack = none) && decide ((s.linkDir 27).expected = 0))) = true ∧
    ((0 + 4096 - 2048) % 4096 ≤ 2048 ∧ (0 + 4096 - 4095) % 4096 ≤ 2048 ∧ 2048 < (0 + 4096 - 1) % 4096 ∧ 2048 < (0 + 4096 - 2047) % 4096) ∧
    ((fb 4095).seq < 4096 ∧ (fb 0).vc < 4 ∧ (fb 0).dst < 16 ∧ (fb 0).src < 16 ∧ (fb 0).sect < 256 ∧ (fb 0).tag < 65536 ∧ (fb 0).payload.length = 256) ∧
    (let s := Lk { replay := [fb 0, fb 1] }; (s.linkDir 27).replay.findIdx? (fun b => b.seq == 1) = some 1 ∧ (s.linkDir 27).waiting = []) := by
  refine ⟨?_, ?_, ?_, ?_, ?_⟩ <;> decide +kernel

/-- The check value of the IEEE 802.3 CRC-32, of the characters 123456789. -/
theorem test_crc : crc32 [0x31, 0x32, 0x33, 0x34, 0x35, 0x36, 0x37, 0x38, 0x39] = 0xCBF43926#32 := by decide +kernel

/-- Noise that flips the (n + 1)-th byte's first bit alone. -/
def flipAt (n : Nat) : List Byte := List.replicate n 0 ++ [1]

theorem flipAt_getD (n i : Nat) : (flipAt n).getD i 0 = if i = n then 1 else 0 := by
  unfold flipAt
  rcases Nat.lt_trichotomy i n with h | h | h
  · simp [List.getD, List.getElem?_append, h]; omega
  · subst h; simp [List.getD]
  · simp [List.getD, List.getElem?_append, Nat.not_lt.mpr (Nat.le_of_lt h)]
    rw [List.getElem?_eq_none (by simp; omega)]; simp; omega

theorem flipAt_frame (bs : List Byte) (n c : Nat) (h : bs.length = n) :
    disturbed (bs ++ leBytes 4 c) (flipAt n) = bs ++ (BitVec.ofNat 8 c ^^^ 1) :: (leBytes 4 c).drop 1 := by
  apply List.ext_getElem
  · simp [disturbed, leBytes]
  · intro i h1 h2
    have hi : i < n + 4 := by simp [leBytes, h] at h2; omega
    simp only [disturbed, List.getElem_map, List.getElem_zipIdx, Nat.zero_add, flipAt_getD]
    by_cases hb : i < n
    · rw [List.getElem_append_left (by omega), List.getElem_append_left (by omega), if_neg (by omega)]; simp
    · rw [List.getElem_append_right (by omega), List.getElem_append_right (by omega)]
      have : i = n ∨ i = n + 1 ∨ i = n + 2 ∨ i = n + 3 := by omega
      rcases this with rfl | rfl | rfl | rfl <;> simp [leBytes, h]

/-- A block whose first CRC bit has been flipped is not taken. -/
theorem test_hyp_FabricLink_bad (b : FabBlock) (h : b.bytes.length = 268) : b.arrive (flipAt 268) = none := by
  have odd : ∀ x : Byte, (x ^^^ 1).toNat % 2 ≠ x.toNat % 2 := by decide
  have low : ∀ x xs, leNat (x :: xs) % 2 = x.toNat % 2 := by intro x xs; rw [leNat]; omega
  unfold FabBlock.arrive FabBlock.frame
  rw [flipAt_frame _ _ _ h]
  have e1 : ∀ ys : List Byte, (b.bytes ++ ys).take 268 = b.bytes := by
    intro ys; rw [List.take_append_of_le_length (by omega), List.take_of_length_le (by omega)]
  have e2 : ∀ ys : List Byte, (b.bytes ++ ys).drop 268 = ys := by intro ys; rw [← h]; exact List.drop_left
  simp only [e1, e2]
  generalize crc32 b.bytes = c
  rw [if_neg]
  intro q
  have o := odd (BitVec.ofNat 8 c.toNat)
  have l := low (BitVec.ofNat 8 c.toNat ^^^ 1) ((leBytes 4 c.toNat).drop 1)
  have m : (BitVec.ofNat 8 c.toNat).toNat = c.toNat % 256 := BitVec.toNat_ofNat _ _
  rw [← q] at l
  rw [m] at o
  omega

/-- A timeout below and at the limit of replays, and one whose time has just come; a retraining that has ended, one whose lanes have all failed, and one
that has timed out (link 13). -/
theorem test_hyp_FabricLink_times :
    ([(0, true), (255, false)].all (fun q => let s : State := { Lk { replay := [fb 0], replays := q.1 } with now := far };
      decide ((s.linkDir 27).replay ≠ []) && !(s.linkDir 27).stopped
        && decide ((s.linkDir 27).lastAdvance + (0 + 1) * (atLeast1 (s.fld (RF.MGT_FAB_CTL_ACK_TIMEOUT (27 / 2))) * 625) < s.now)
        && (q.2 == decide ((s.linkDir 27).replays < atLeast1 (s.fld (RF.MGT_FAB_CTL_REPLAY_LIMIT (27 / 2))))))) = true ∧
    (let s : State := { Lk { replay := [fb 0] } with now := atLeast1 (L.fld (RF.MGT_FAB_CTL_ACK_TIMEOUT (27 / 2))) * 625 };
      s.now ≤ (s.linkDir 27).lastAdvance + (0 + 1) * (atLeast1 (s.fld (RF.MGT_FAB_CTL_ACK_TIMEOUT (27 / 2))) * 625)) ∧
    (let s : State := { L with links := [(26, { stopped := true })], now := 25001 };
      (s.linkDir (2 * 13)).stopped = true ∧ (s.linkDir (2 * 13)).down = false ∧ linkBundles 13 ≤ 2 * s.bundlesUp 13 0 ∧ linkBundles 13 ≤ 2 * s.bundlesUp 13 1 ∧
        (s.linkDir (2 * 13)).retrainAt + 25000 < s.now) ∧
    (let s : State := { L with boot := { L.boot with badLanes := (List.range 64).map (fun b => (laneKey 13 0 b, 2 ^ 64 - 1)) } };
      2 * s.bundlesUp 13 0 < linkBundles 13) := by
  refine ⟨?_, ?_, ?_, ?_⟩ <;> decide +kernel

/-- A granule of stack 31, and one of the scratchpad of die 0. -/
def gh : Granule := { loc := .hbm 31 0, part := 0 }
def gs : Granule := { loc := .scr 0 0, part := 0 }
def Mg (g : Granule) : State := { L with mem := { backing := [(granKey 1 0 1, some g)] } }
def red1 (l : Loc) : Reduction := { loc := l, line := 511, off := 120, aop := 0, ty := 2, val := 1 }

theorem test_hyp_MemoryMaintenance_reductions :
    ([gh, gs].all (fun g => let s : State := { Mg g with mem := { (Mg g).mem with reds := [red1 g.loc] } };
      let t : State := Mg g;
      decide (s.mem.reds[0]? = some (red1 g.loc)) && !(s.mem.reds.take 0).any (fun x => x.loc == g.loc && x.line == 511) && decide ({ s with mem := { s.mem with reds := s.mem.reds.eraseIdx 0 } } = t) && decide (t.granAt g.loc = some (granKey 1 0 1, g))
        && !(t.homeRead (granKey 1 0 1) g 511 (sectorsOf 120 8) {}).2.2 && ((t.homeRead (granKey 1 0 1) g 511 (sectorsOf 120 8) {}).1.gran (granKey 1 0 1)).isSome)) = true := by
  decide +kernel

def mg1 : Migr := { unit := 1, ctx := 0, gran := 1, promote := true }

theorem test_hyp_MemoryMaintenance_migration :
    ([0, 14, 15].all (fun b => let g := { gh with copyTo := some (.scr 0 0), block := b };
      let s : State := { Mg g with mem := { (Mg g).mem with migr := [mg1] } };
      decide (s.mem.migr[0]? = some mg1) && decide (s.gran (granKey 1 0 1) = some g) && !s.flag RF.MEM_CTL_MIG_HOLD && copiesNext s 0 mg1)) = true ∧
    (let s : State := { Mg gh with mem := { (Mg gh).mem with migr := [mg1, mg1] } };
      s.mem.migr[1]? = some mg1 ∧ s.gran (granKey 1 0 1) = some gh ∧ copiesNext s 1 mg1 = false) ∧
    (let s : State := { L with mem := { migr := [mg1] } }; s.mem.migr[0]? = some mg1 ∧ s.gran (granKey 1 0 1) = none) ∧
    (let s : State := { L with now := far }; kvGet (fun _ => 0) s.mem.regAt 31 + 1023 ≤ s.now ∧ s.mem.satAt + 16384 ≤ s.now) := by
  refine ⟨?_, ?_, ?_, ?_⟩ <;> decide +kernel

theorem test_hyp_MemoryMaintenance_lines :
    (L.setFld (RF.MEM_S_INSERVICE_MASK 31) (2 ^ 32 - 1)).lineExists 31 983039 511 = true ∧
    (let s := (L.setFld (RF.MEM_S_INSERVICE_MASK 31) 1).setFlag RF.MEM_CTL_SCRUB_EN true;
      s.flag RF.MEM_CTL_SCRUB_EN = true ∧ s.flag (RF.PWR_S_TEMP_HOT 31) = false ∧ s.lineExists 31 0 0 = true ∧ kvGet (fun _ => 0) s.mem.scrubbed 31 = 0 * 512 + 0) ∧
    (let s : State := { L with mem := { mapouts := [(31, 31)] } }; s.mem.mapouts.contains (31, 31) = true) := by
  refine ⟨?_, ?_, ?_⟩ <;> decide +kernel

/-- A command of queue 0 in range of leaf 1 that names 0x10000, with the byte at 24. -/
def hc (opc va code arg : Nat) : HostCmd :=
  { queue := 0, opc := opc, slots := 1, irq := false, route := 1, ctx := 0, seq := 0, tag := 0, tmo := 0, leaf := 1, body := leBytes 8 va ++ leBytes 1 code ++ leBytes 1 arg }
def Hc (c : HostCmd) (r : RangeEnt) : State := { L with host := { cmds := [(9, some c)] }, xlt := { ranges := [r] } }

def part0 (sl : Bool) : PartEnt := { index := 0, is_sealed := sl, keep := false, stackMask := 1, granules := 1, scratch := 0, bwShare := 1, bwCeil := 1 }

theorem test_hyp_AdviceAndMaps_advice :
    ((List.range 9).all (fun q => let c := hc 0x09 0x10000 q 1;
      decide ((Hc c range1).cmdOf 9 0x09 = some c) && decide (c.at 24 1 % 16 = q) && decide (c.at 25 1 % 4 < 2)
        && decide ((Hc (hc 0x09 0x20000 q 1) range1).namedRange (hc 0x09 0x20000 q 1) = none)
        && decide ((Hc c { range1 with kind := 1 }).namedRange c = some { range1 with kind := 1 })
        && decide ((Hc c range1).namedRange c = some range1) && !range1.reserved && !(Hc c range1).sealedPart 0
        && decide (((Hc c range1).applyAdvice range1 q 1).2 = .done))) = true ∧
    ([7, 8].all (fun q => let c := hc 0x09 0x10000 q 1;
      let s : State := { Hc c range1 with ward := { image := { units := [unit1], parts := [part0 true] } } };
      decide (s.namedRange c = some range1) && s.sealedPart range1.part)) = true := by
  refine ⟨?_, ?_⟩ <;> decide +kernel

theorem test_hyp_AdviceAndMaps_maps :
    (let c := hc 0x09 0x10000 9 3; (Hc c range1).cmdOf 9 0x09 = some c ∧ c.at 24 1 % 16 = 9) ∧
    (let c := hc 0x08 0x10000 0 0; (Hc c range1).cmdOf 9 0x08 = some c ∧ c.inflight = true ∧ c.at 16 8 % 65536 = 0) ∧
    (let c := hc 0x0A 0x20000 0 0; (Hc c range1).cmdOf 9 0x0A = some c ∧ (Hc c range1).namedRange c = none) ∧
    (let m : MapJob := { unit := 1, ctx := 0, start := 1, adv := 0, arg := 0, cmd := 9 };
      let s : State := { L with mem := { maps := [m] } };
      s.mem.maps.find? (fun m => m.cmd == 9) = some m ∧ s.findRange 1 0 1 = some range1) := by
  refine ⟨?_, ?_, ?_, ?_⟩ <;> decide +kernel

def Ch (c : CohSt) : State := { L with coh := c }
def l2x (x : L2Line) : KV (Option L2Line) := [(line0 * 128 + 127, some x)]
def lx : L2Line := { st := .m, data := List.replicate 128 7 }
def msg (k : Nat) : CohMsg := { kind := k, core := 127, line := line0, st := .e, data := some (List.replicate 128 1) }

theorem test_hyp_CoherenceProtocol_messages :
    ([0, 1, 2, 3, 4].all (fun o => let r : CohReq := { core := 127, line := line0, op := o };
      let s := Ch { misses := [r] }; s.alive && decide (s.nextReq 127 line0 o = some r) && !s.vdead 127)) = true ∧
    ([0, 1, 2, 3].all (fun k => let x := { lx with holdUntil := some far };
      let s : State := { Ch { msgs := [msg k], l2 := l2x x } with now := far };
      let t : State := { Ch { msgs := [msg k], l2 := l2x x } with now := far - 1 };
      decide (s.nextMsg 127 line0 = some (msg k)) && decide (s.l2At 127 line0 = some x) && decide (x.waiting = []) && decide (far ≤ s.now) && decide (t.now < far)
        && decide (t.l2At 127 line0 = some x))) = true ∧
    lx.evicting = false ∧ ((Ch { l2 := l2x lx }).syncL1 127 line0).l2At 127 line0 = some lx := by
  refine ⟨?_, ?_, ?_, ?_⟩ <;> decide +kernel

theorem test_hyp_CoherenceProtocol_ends :
    (let p : CohReply := { core := 127, line := line0 };
      let s := Ch { replies := [p] }; s.coh.replies.find? (fun r => r.core == 127 && r.line == line0) = some p ∧ s.vdead 127 = false) ∧
    (let s := Ch { msgs := [msg 4], l2 := l2x lx };
      s.nextMsg 127 line0 = some (msg 4) ∧ (msg 4).kind = 4 ∧ (msg 4).core = 127 ∧ (msg 4).line = line0 ∧ (msg 4).data = some (List.replicate 128 1) ∧ s.l2At 127 line0 = some lx) ∧
    (let x := { lx with evicting := true };
      let s := Ch { msgs := [msg 5], l2 := l2x x }; s.nextMsg 127 line0 = some (msg 5) ∧ s.l2At 127 line0 = some x) ∧
    (let x := { lx with holdUntil := some 0, waiting := [(3, 0)] }; (Ch { l2 := l2x x }).l2At 127 line0 = some x ∧ 0 ≤ (Ch { l2 := l2x x }).now) ∧
    (let s : State := { Ch { msgs := [msg 3] } with now := far }; (s.owed 127).any (fun t => decide (t + s.snoopLimit < s.now)) = true) ∧
    (L.boot.fwRunning = true ∧ natBit (BitVec.ofNat 32 (2 ^ 31 + 127)).toNat 8 = false ∧ natBit (BitVec.ofNat 32 (2 ^ 31 + 127)).toNat 31 = true ∧
      natBit (BitVec.ofNat 32 (2 ^ 31 + 2 ^ 8 + 7)).toNat 8 = true ∧ natBit (BitVec.ofNat 32 (2 ^ 31 + 2 ^ 8 + 7)).toNat 31 = true) ∧
    (let q : Reclaim := { agent := 7, die := true, cause := 3 };
      let s : State := { Ch { reclaims := [q] } with now := 65536 }; s.alive = true ∧ s.coh.reclaims = [q] ∧ q.since + 65536 ≤ s.now) := by
  refine ⟨?_, ?_, ?_, ?_, ?_, ?_, ?_⟩ <;> decide +kernel

theorem test_hyp_Translation :
    (let m : Miss := { leaf := 1, req := { kind := 3, id := 127 }, unit := 1, ctx := 0, va := 0, walker := some 15 };
      let s : State := { L with xlt := { ranges := [range1], misses := [m] } };
      s.xlt.misses.find? (fun m => m.leaf == 1 && m.walker == some 15) = some m ∧ s.rangeAt m.unit m.ctx m.va = none) ∧
    (let h : HeldRec := { rec_ := { code := 0x0C01 }, ctx := 0, lo := 0, hi := 0, since := 0 };
      let s : State := { L with xlt := { held := [h] }, now := 5001 }; s.xlt.held[0]? = some h ∧ h.since + 5000 < s.now) ∧
    (let v : Inval := { unit := 1, ctx := 0, start := 1, change := .unmap, begun := some 0, acks := [{ kind := 3, id := 127 }] };
      let s : State := { L with xlt := { ranges := [range1], invals := [v] } };
      s.xlt.invals = [v] ∧ s.findRange v.unit v.ctx v.start = some range1 ∧ v.begun.isSome = true ∧ v.acks.any (fun q => q.kind == 3 && q.id == 127) = true ∧
        (s.ackers range1).any (fun q => q.kind == 3 && q.id == 127) = false) ∧
    (let a := A1 0 { ln with remote := true };
      let s : State := { L with xlt := { ranges := [{ range1 with kind := 1 }] }, accs := [(9, some a)] }; s.acc 9 = some a ∧ s.hostParts a ≠ []) ∧
    (let s : State := { L with xlt := { moves := [{ unit := 1, ctx := 0, start := 1, dir := 0, nohost := false, cmd := some 9, block := 0 }] } }; s.readsHost 9 = true) := by
  refine ⟨?_, ?_, ?_, ?_, ?_⟩ <;> decide +kernel

/-! ### Witnesses: the host port -/

/-- A command's body of 48 bytes from (offset, value) pairs, and a command of queue 7 and leaf 1 with it. -/
def bod (fs : List (Nat × Nat)) : List Byte := leBytes 48 (fs.foldl (fun a f => a + f.2 * 2 ^ (8 * (f.1 - 16))) 0)
def cm (opc : Nat) (fs : List (Nat × Nat)) : HostCmd := { hc opc 0 0 0 with queue := 7, body := bod fs }
def Cm (c : HostCmd) : State := { Mb tdesc with host := { cmds := [(9, some c)] } }

/-- The header of a NOP with SEQ q. -/
def nopSlot (q : Nat) : List Byte := leBytes 64 (1 + 2 ^ 32 * q)
def Q7 (en : Bool) : State := ({ L with host := { queues := [(7, { tail := 1 })] } } : State).setFlag (RF.HIF_Q_CFG_EN 7) en

theorem test_hyp_HostQueues :
    (L.fnQueue 0 7 = some 7 ∧ 0 < L.sqSize 7 ∧ L.sqSize 7 < 65536 ∧ 0 < L.cqSize 7 ∧ L.cqSize 7 < 65536) ∧
    ((Q7 false).fnQueue 0 7 = some 7 ∧ (Q7 false).flag (RF.HIF_Q_CFG_EN 7) = false ∧ natBit (BitVec.ofNat 32 (2 ^ 31)).toNat 31 = true) ∧
    ((Q7 true).fnQueue 0 7 = some 7 ∧ (Q7 true).flag (RF.HIF_Q_CFG_EN 7) = true ∧ natBit (0 : Word).toNat 31 = false) ∧
    ([0, 1, 2 ^ 31 - 1, 2 ^ 31, 2 ^ 32 - 1].all (fun q => decide ((Q7 true).queueUnit 7 = some unit1) && decide (1 = 1 + natBits (le (nopSlot q) 1 1) 0 3) && (Q7 true).fetchable 7
      && (Q7 true).nextTurn 7 && decide ((nopSlot q).length = 64 * 1) && decide (1 ≤ (((Q7 true).queue 7).tail + (Q7 true).sqSize 7 - (Q7 true).fld (RF.HIF_Q_SQHEAD_HEAD 7)) % (Q7 true).sqSize 7)
      && decide (le (nopSlot q) 4 4 = q))) = true ∧
    (headerOk (nopSlot 0) = true ∧ headerOk (leBytes 64 (2 + 2 ^ 16 * 0)) = true ∧ (routedLeaf unit1 0).isSome = true ∧ usesLeaf 2 = true ∧ (routedLeaf { unit1 with group := true } 15).isSome = false ∧
      headerOk (leBytes 64 0) = false) ∧
    (({ L with host := { fns := [(16, { enabled := true })] } } : State).fnSt 16).enabled = true ∧
    (L.fnQueue 0 7 = some 7 ∧ ¬ L.sqSize 7 ≤ 0 ∧ L.sqSize 7 ≤ 65535 ∧ L.cqSize 7 ≤ 65535) := by
  refine ⟨?_, ?_, ?_, ?_, ?_, ?_, ?_⟩ <;> decide +kernel

theorem test_hyp_HostCommands_simple :
    (Cm (cm 1 [])).cmdOf 9 1 = some (cm 1 []) ∧
    (let c := cm 6 [];
      ((Cm c).cmdOf 9 6 = some c ∧ ((Cm c).begin 9).host.flushes.contains 9 = false ∧ (((Cm c).begin 9).queueCmds c.queue).any (fun x => decide (x.1 < 9)) = false ∧
        (((Cm c).begin 9).queue c.queue).wrote = false) ∧
      (({ Cm c with host := { (Cm c).host with queues := [(7, { wrote := true })] } } : State).begin 9).queue c.queue = { wrote := true }) ∧
    ([0x0B, 0x0C].all (fun o => let c := cm o [(16, 4095), (24, 1), (32, 1)]; decide ((Cm c).cmdOf 9 o = some c) && decide (natBits (c.at 16 2) 0 12 = 4095))) = true ∧
    (let e : Nat → WinEnt := fun u => { valid := true, unit := u };
      let s : Nat → State := fun u => { L with xlt := { windows := [(4095, e u)] } };
      kvGet (fun _ => ({} : WinEnt)) (s 1).xlt.windows 4095 = e 1 ∧ kvGet (fun _ => ({} : WinEnt)) (s 2).xlt.windows 4095 = e 2 ∧
        (kvGet (fun _ => ({} : WinEnt)) L.xlt.windows 4095).valid = false) := by
  refine ⟨?_, ?_, ?_, ?_⟩ <;> decide +kernel

theorem test_hyp_HostCommands_data :
    (let c := { cm 4 [(16, 0x10000), (24, 4)] with body := bod [(16, 0x10000), (24, 4)] ++ [1, 2, 3, 4] };
      (Cm c).cmdOf 9 4 = some c ∧ (Cm c).host.flushes = [] ∧ ((Cm c).begin 9).toHost c 0x10000 = false ∧ c.at 16 8 % 2 ^ 57 = 0x10000 ∧ natBits (c.at 24 2) 0 9 = 4 ∧ (Cm c).sealedIn 1 0 0x10000 4 = none ∧
        (match (((Cm c).begin 9).devWrite 1 0 0x10000 4 ((c.body.drop 48).take 4)).2 with
          | .ok _ _ => true
          | _ => false) = true) ∧
    (let c := cm 4 [(16, 0x10000), (24, 4)];
      let s : State := { Cm c with xlt := { ranges := [{ range1 with kind := 1 }] } };
      s.cmdOf 9 4 = some c ∧ s.sealedIn 1 0 0x10000 4 = none ∧ (s.begin 9).toHost c 0x10000 = true ∧
        (match ((s.begin 9).devWrite 1 0 0x10000 4 [1, 2, 3, 4]).2 with
          | .ok _ _ => true
          | _ => false) = true) ∧
    (let c := cm 4 [(16, 0x10000), (24, 4)];
      let s : State := { Cm c with ward := { image := { units := [unit1], parts := [part0 true] } } };
      s.cmdOf 9 4 = some c ∧ s.sealedIn 1 0 0x10000 4 = some range1) ∧
    (let c := cm 2 [(16, 0x10000)];
      (Cm c).cmdOf 9 2 = some c ∧ c.inflight = true ∧ (Cm c).alive = true ∧ c.at 16 8 % 2 ^ 57 = 0x10000 ∧ 0x10000 % 32 = 0 ∧ ((Cm c).unitRun 1).waiting.length < 256 ∧
        ((Cm c).devRead 1 0 0 0x10000 32 ((Cm c).rangeCls 1 0 0x10000)).2 = .ok tdesc false) := by
  refine ⟨?_, ?_, ?_, ?_⟩ <;> decide +kernel

/-- A LAUNCH on a full program queue, and one of a misaligned header; an INLINE that no range takes. -/
theorem test_hyp_HostCommands_launch :
    (let c := cm 2 [(16, 0x10000)];
      let s : State := { Cm c with units := [(1, { waiting := List.replicate 256 P1 })] };
      s.cmdOf 9 2 = some c ∧ c.inflight = true ∧ s.alive = true ∧ 256 ≤ (s.unitRun 1).waiting.length) ∧
    (let c := cm 2 [(16, 0x10010)]; (Cm c).cmdOf 9 2 = some c ∧ c.at 16 8 % 2 ^ 57 % 32 ≠ 0) ∧
    (let c := cm 4 [(16, 0x8000000), (24, 4)];
      (Cm c).cmdOf 9 4 = some c ∧ (Cm c).host.flushes = [] ∧ (Cm c).sealedIn 1 0 0x8000000 4 = none ∧
        (match (((Cm c).begin 9).devWrite 1 0 0x8000000 4 ((c.body.drop 48).take 4)).2 with
          | .fail _ _ => true
          | _ => false) = true) := by
  refine ⟨?_, ?_, ?_⟩ <;> decide +kernel

def mapHit (s : State) (c : HostCmd) : Option RangeEnt :=
  s.xlt.ranges.find? (fun x => x.unit == c.mapEnt.unit && x.ctx == c.mapEnt.ctx && decide (x.start < c.mapEnt.start + c.mapEnt.length)
    && decide (c.mapEnt.start < x.start + x.length))

/-- A map of granule 0, one that overlaps the last granule of the range, and one just after it. -/
theorem test_hyp_HostCommands_map :
    (let c := cm 7 [(16, 5), (32, 1)]; (Cm c).cmdOf 9 7 = some c ∧ c.at 48 1 % 16 ≤ 9 ∧ (Cm c).mapInvalid c = some 0) ∧
    (let c := cm 7 [(16, 5), (32, 1), (48, 10)]; (Cm c).cmdOf 9 7 = some c ∧ c.inflight = true ∧ 9 < c.at 48 1 % 16) ∧
    (let c := cm 7 [(16, 5), (24, 1024), (32, 1)]; (Cm c).cmdOf 9 7 = some c ∧ (Cm c).mapInvalid c = none ∧ mapHit (Cm c) c = some range1) ∧
    (let c := cm 7 [(16, 5), (24, 1025), (32, 1)];
      (Cm c).cmdOf 9 7 = some c ∧ (Cm c).mapInvalid c = none ∧ mapHit (Cm c) c = none ∧ (Cm c).xlt.ranges.length < 524288 ∧ c.mapEnt.kind = 1) := by
  refine ⟨?_, ?_, ?_, ?_⟩ <;> decide +kernel

/-- Maps of device memory: of one granule, of more than the partition's, and one whose advice its partition forbids. -/
def Md (p : PlaceEnt) (c : HostCmd) : State :=
  ({ Cm c with ward := { image := { units := [unit1], parts := [part0 false], place := [p] } } } : State).setFld (RF.MEM_S_INSERVICE_MASK 0) 1
def md (n adv : Nat) : HostCmd := cm 7 [(16, 4), (24, 1025), (32, n), (48, adv)]

theorem test_hyp_HostCommands_map_device :
    ([1, 2].all (fun n => let c := md n 0;
      let s := Md {} c;
      decide (s.cmdOf 9 7 = some c) && decide (s.mapInvalid c = none) && decide (mapHit s c = none) && decide (c.mapEnt.kind = 0)
        && decide (s.chooseFor 0 n (!s.mapScratch c.mapEnt 0) none = (if n = 1 then Alloc.places [0] 0 else Alloc.short 1)))) = true ∧
    (let c := md 1 1;
      let s := Md { hot := 3 } c;
      s.cmdOf 9 7 = some c ∧ s.mapInvalid c = none ∧ mapHit s c = none ∧ (s.placeEnt c.mapEnt.part).binding 1 = some 3) := by
  refine ⟨?_, ?_⟩ <;> decide +kernel

/-- A TUMBLER command for tumbler 63, the last of the unit, of a kind, with an operation and an operand. -/
def tc (n op v : Nat) : HostCmd := cm 5 [(16, n), (18, op), (20, v)]
def Tc (t : Tmb) (op v : Nat) : State := { L with host := { cmds := [(9, some (tc 63 op v))] }, tmb := { tmbs := [(63, t)] } }

theorem test_hyp_HostTumblerCommands :
    ((List.range 6).all (fun o => decide ((Tc {} o 1).cmdOf 9 5 = some (tc 63 o 1)) && (Tc {} o 1).queueTmb 7 63 && decide (natBits ((tc 63 o 1).at 16 2) 0 15 = 63)
      && decide (natBits ((tc 63 o 1).at 18 1) 0 3 = o) && !(Tc {} o 1).queueTmb 7 64 && decide (natBits ((tc 64 o 1).at 16 2) 0 15 = 64))) = true ∧
    (((Tc { kind := 1 } 0 1).tmbArrive 63 1).2 = true ∧ ((Tc { kind := 4 } 0 1).tmbArrive 63 1).2 = false) ∧
    (((Tc { kind := 4, log2 := 4, tokens := [7] } 3 0).tmbTake 63).2 = .took 7 ∧ ((Tc { kind := 4, log2 := 4 } 3 0).tmbTake 63).2 = .empty) ∧
    (((Tc { kind := 4, log2 := 4 } 4 0).tmbPut 63 1).2 = .putOk ∧ ((Tc { kind := 4, log2 := 4, tokens := List.replicate 16 7 } 4 0).tmbPut 63 1).2 = .putFull) ∧
    (let c := { tc 63 2 1 with inflight := false, tmo := 1 };
      let s : State := { L with host := { cmds := [(9, some c)] }, now := 2501 };
      s.cmdOf 9 5 = some c ∧ c.holds = true ∧ s.hostNote 9 = none ∧ c.tmo ≠ 0 ∧ c.since + c.tmo * 2500 < s.now) ∧
    (natBits ((tc 63 6 1).at 18 1) 0 3 = 6 ∧ (Tc {} 6 1).cmdOf 9 5 = some (tc 63 6 1)) ∧
    ([.fired, .refused 2 0].all (fun a => let x : TmbNote := { src := .hostCmd 9, tmb := 63, ans := a };
      let s : State := { Tc {} 2 1 with tmb := { notes := [x] } };
      decide (s.hostNote 9 = some x) && decide (s.cmd 9 = some (tc 63 2 1)) && decide ((s.dropNote x).job 9 = none))) = true := by
  refine ⟨?_, ⟨?_, ?_⟩, ⟨?_, ?_⟩, ⟨?_, ?_⟩, ?_, ?_, ?_⟩ <;> decide +kernel

/-- A COPY of 4 bytes within the device, with its wait on and its arrival at tumbler 63. -/
def cc (len : Nat) : HostCmd := cm 3 [(16, 0x10000), (24, 0x20000), (32, len), (36, 2 + 8 + 16), (56, 63), (58, 63)]

theorem test_hyp_CopyCommands_start :
    ((Cm (cc 0)).cmdOf 9 3 = some (cc 0) ∧ (cc 0).copy.ok = false) ∧
    (let c := cc 4;
      let k := c.copy;
      (Cm c).cmdOf 9 3 = some c ∧ k.ok = true ∧ k.waitEn = true ∧ (Cm c).queueTmb 7 k.waitTmb = true ∧ k.arvEn = true ∧ (Cm c).queueTmb 7 k.arvTmb = true ∧
        [false, true].all (fun d => !k.hostSide d && decide ((Cm c).sealedIn 1 0 (k.sideRun d 0 k.len).1 (k.sideRun d 0 k.len).2 = none)) = true) ∧
    (let c := cm 3 [(16, 0x10000), (24, 0x10000), (32, 4), (36, 0)];
      let k := c.copy;
      let s : State := { Cm c with ward := { image := { units := [unit1], parts := [part0 true] } } };
      s.cmdOf 9 3 = some c ∧ k.ok = true ∧ k.waitEn = false ∧ k.arvEn = false ∧ k.hostSide false = true ∧ k.hostSide true = false ∧
        s.sealedIn 1 0 (k.sideRun true 0 k.len).1 (k.sideRun true 0 k.len).2 = some range1) := by
  refine ⟨?_, ?_, ?_⟩ <;> decide +kernel

/-- A COPY whose wait, or whose arrival, names tumbler 64, which is not the unit's. -/
theorem test_hyp_CopyCommands_tumblers :
    (let c := cm 3 [(16, 0x10000), (24, 0x20000), (32, 4), (36, 2 + 8 + 16), (56, 64), (58, 63)];
      (Cm c).cmdOf 9 3 = some c ∧ c.copy.ok = true ∧ c.copy.waitEn = true ∧ (Cm c).queueTmb 7 c.copy.waitTmb = false) ∧
    (let c := cm 3 [(16, 0x10000), (24, 0x20000), (32, 4), (36, 2 + 8 + 16), (56, 63), (58, 64)];
      (Cm c).cmdOf 9 3 = some c ∧ c.copy.ok = true ∧ (Cm c).queueTmb 7 c.copy.waitTmb = true ∧ c.copy.arvEn = true ∧ (Cm c).queueTmb 7 c.copy.arvTmb = false) := by
  refine ⟨?_, ?_⟩ <;> decide +kernel

def cj : CopyJob := { cmd := 9, engine := 15, placed := true }
def Cj (j : CopyJob) : State := { Cm (cc 4) with host := { cmds := [(9, some { cc 4 with tmo := 1 })], copies := [j] }, now := far }

theorem test_hyp_CopyCommands_progress :
    ((Cj cj).xlt.moves.find? (fun m => m.cmd == some 9) = none ∧ (Cj cj).job 9 = some cj ∧ (Cj cj).cmd 9 = some { cc 4 with tmo := 1 } ∧ cj.abort = 0 ∧
      (Cj cj).host.copies.find? (fun x => x.engine == 15 && (x.placed && x.ready && !x.regd && x.token.isNone)) = some cj) ∧
    (let j := { cj with token := some 1 }; (Cj j).alive = true ∧ (Cj j).boot.fwRunning = true ∧ (Cj j).jobOfToken 1 = some j ∧ j.holdFrom + (Cj j).holdLimit < (Cj j).now) ∧
    (let j := { cj with regd := true }; (Cj j).job 9 = some j ∧ (Cj j).hostNote 9 = none ∧ j.waitFrom + 1 * 2500 < (Cj j).now) ∧
    (let s : State := { Cj cj with host := { (Cj cj).host with flushes := [9] } };
      s.host.flushes.contains 9 = true ∧ s.host.flushes.erase 9 = [] ∧ s.job 9 = some cj ∧ (Cm (cm 6 [])).job 9 = none ∧ (Cm (cm 6 [])).cmd 9 = some (cm 6 [])) := by
  refine ⟨?_, ?_, ?_, ?_⟩ <;> decide +kernel

/-! ### Witnesses: Pintle, power and heat, ward images -/

def blk (fs : List (Nat × Nat)) : List Byte := leBytes 256 (fs.foldl (fun a f => a + f.2 * 2 ^ (8 * f.1)) 0)
def ports (p : PortSt) : KV PortSt := [(15, p)]
def Po (p : PortSt) : State := { L with ptl := { ports := ports p }, now := far }

/-- Epoch 5, peer 3 mapped to physical number 1, and port 15 up and joined. -/
def Pe : State :=
  (((State.setFld (Po { trained := true, joined := true, lanes := 255 }) RF.PTL_EPOCH_CURRENT 5).setFlag (RF.PTL_MAP_VALID_VALID 3) true).setFld
    (RF.PTL_MAP_PHYS_WORD 3) 1).setFld (RF.PTL_P_STAT_ROLE 15) 1

theorem test_hyp_PintlePorts_link :
    (let s := State.setFld (Po {}) (RF.PTL_P_STAT_ROLE 15) 1;
      s.alive = true ∧ s.flag RF.WRD_STAT_LOADED = true ∧ s.role 15 ≠ 0 ∧ (s.port 15).trained = false ∧ (lanesFor 255).isSome = true ∧ (lanesFor 15).isSome = true ∧
        (lanesFor 240).isSome = true ∧ lanesFor 14 = none) ∧
    ([0, 250 * min 100 (atLeast1 (L.fld (RF.PTL_P_CTL_ACK_TO 15)))].all (fun n =>
      let s : State := { Po { trained := true, lanes := 255, replay := [(0, 0, { kind := 0 })], lastAdvance := far - n } with now := far + (if n = 0 then 0 else 1) };
      (s.port 15).up && !(s.port 15).replay.isEmpty
        && (decide ((s.port 15).lastAdvance + (0 + 1) * (250 * min 100 (atLeast1 (s.fld (RF.PTL_P_CTL_ACK_TO 15)))) < s.now) == decide (n ≠ 0)))) = true ∧
    (let s := Po { trained := true, retraining := true }; (s.port 15).retraining = true ∧ (s.port 15).down = false ∧ (s.port 15).trained = true ∧
      (s.port 15).since + resendBound < s.now) ∧
    (let s := Po { trained := true, replay := [(0, 0, { kind := 0 })] };
      (s.port 15).trained = true ∧ (s.port 15).down = false ∧ (s.port 15).retraining = false ∧ (s.port 15).replay = [(0, 0, { kind := 0 })] ∧ 0 + resendBound < s.now) ∧
    (let s := Po { down := true }; (s.port 15).down = true ∧ (s.port 15).retraining = false ∧ (s.port 15).since + 2500000 ≤ s.now) ∧
    (Pe.mapValid 3 = true ∧ Pe.epoch ≠ 0 ∧ Pe.ptl.keyCache.contains (65536 * 1 + 3) = false ∧ Pe.boot.fwRunning = true ∧ natBit (BitVec.ofNat 32 (2 ^ 31)).toNat 31 = true) := by
  refine ⟨?_, ?_, ?_, ?_, ?_, ?_⟩ <;> decide +kernel

/-- A block of 252 bytes with its CRC, and with the first bit of its CRC flipped. -/
def crcd (bs : List Byte) : List Byte := bs ++ leBytes 4 (crc32 bs).toNat
def crcx (bs : List Byte) : List Byte := bs ++ (BitVec.ofNat 8 (crc32 bs).toNat ^^^ 1) :: (leBytes 4 (crc32 bs).toNat).drop 1

theorem take_left_252 {bs : List Byte} (h : bs.length = 252) (ys : List Byte) : (bs ++ ys).take 252 = bs ∧ (bs ++ ys).drop 252 = ys := by
  rw [← h]; exact ⟨List.take_left, List.drop_left⟩

theorem leBytes_length : ∀ n v : Nat, (leBytes n v).length = n := by
  intro n
  induction n with
  | zero => intro v; rfl
  | succ n ih => intro v; rw [leBytes, List.length_cons, ih]

theorem leNat_leBytes4 (c : BitVec 32) : leNat (leBytes 4 c.toNat) = c.toNat := by
  have h := c.isLt
  simp only [leBytes, leNat, BitVec.toNat_ofNat]
  omega

theorem crcd_ok {bs : List Byte} (h : bs.length = 252) : (crc32 ((crcd bs).take 252)).toNat = leNat ((crcd bs).drop 252) := by
  rw [crcd, (take_left_252 h _).1, (take_left_252 h _).2, leNat_leBytes4]

/-- A CRC with a bit flipped is no CRC. -/
theorem test_hyp_PintlePorts_crc {bs : List Byte} (h : bs.length = 252) : (crc32 ((crcx bs).take 252)).toNat ≠ leNat ((crcx bs).drop 252) := by
  rw [crcx, (take_left_252 h _).1, (take_left_252 h _).2]
  intro q
  have o : ∀ x : Byte, (x ^^^ 1).toNat % 2 ≠ x.toNat % 2 := by decide
  have o := o (BitVec.ofNat 8 (crc32 bs).toNat)
  rw [BitVec.toNat_ofNat] at o
  rw [leNat] at q
  omega

theorem hopTake_crcd (s : State) (p : Nat) {bs : List Byte} (h : bs.length = 252) (hi : natBit (dNat (crcd bs) 4 1) 2 = false) :
    s.hopTake p (crcd bs) = (s.hopFields p (crcd bs)).hopAccept p (dNat (crcd bs) 0 2) := by
  unfold State.hopTake
  simp [crcd_ok h, hi]

/-- A HELLO and a data block that are taken, and the data block with a block of another SEQ, which is not. -/
theorem test_hyp_PintlePorts_hop :
    let s := Po { trained := true, lanes := 255 }
    let q := fun v n : Nat => leBytes 252 (2 ^ 32 * v + n)
    ((s.port 15).up = true ∧ natBits (dNat (crcd (q 16 0)) 4 1) 3 2 = 2 ∧ natBits (dNat (crcd (q 8 0)) 4 1) 3 2 = 1 ∧ (crcd (q 8 0)).length = 256) ∧
    (s.hopTake 15 (crcd (q 16 0))).2 = true ∧ (s.hopTake 15 (crcd (q 8 0))).2 = true ∧ (s.hopTake 15 (crcd (q 8 5))).2 = false := by
  refine ⟨?_, ?_, ?_, ?_⟩
  · decide +kernel
  all_goals rw [hopTake_crcd _ _ (by decide +kernel) (by decide +kernel)]; decide +kernel

/-- A path block of peer 3 for device 0: its EPOCH and COUNTER, and the first bytes of its body. -/
def pb (epoch ctr body : Nat) : List Byte := blk [(12, 1), (16, 3), (18, epoch), (20, ctr), (28, body)]

/-- The same with peer 3 quarantined, and a request to a peer. -/
def Pq : State := { Pe with ptl := { Pe.ptl with quarantined := [3] } }
def rq3 (p : Nat) : RemReq := { who := .copy 9, leaf := 0, peer := p, op := 0 }

theorem test_hyp_PintlePorts_path :
    (dNat (blk [(8, 1)]) 8 4 ≠ Pe.phys) ∧
    ([(4, 1), (5, 0), (5, 1)].all (fun q => decide (dNat (pb q.1 q.2 4) 8 4 = Pe.phys) && decide (Pe.senderOf (dNat (pb q.1 q.2 4) 12 4) (dNat (pb q.1 q.2 4) 16 2) = some 3)
      && decide (dNat (pb q.1 q.2 4) 18 2 = q.1) && decide (dNat (pb q.1 q.2 4) 20 7 = q.2))) = true ∧
    (Pe.quarantined 3 = false ∧ Pq.quarantined 3 = true ∧ 3 ∉ Pe.ptl.renamed ∧ (rq3 3).issued = none ∧ (rq3 3).peer = 3 ∧ Pe.mapValid 4 = false) ∧
    (Pe.epoch = 5 ∧ (Pe.peer 3).mark = 0 ∧ natBits (dNat (pb 5 1 4) 4 1) 3 2 = 0 ∧ natBits (dNat (pb 5 1 4) 28 1) 4 4 = 0 ∧
      (parseBody 3 0 (((pb 5 1 4).drop 28).take 208)).kind = 4) ∧
    (let b : PathBlk := { peer := 3, kind := 0 };
      let s : State := { Pe with ptl := { Pe.ptl with outBlks := [b], keyCache := [65536 + 3] } };
      s.ptl.outBlks[0]? = some b ∧ s.ptl.outBlks.find? (fun x => x.peer == b.peer) = some b ∧ (s.pathSend b).isSome = true ∧ (s.peer b.peer).sendCtr < 2 ^ 56) := by
  refine ⟨?_, ?_, ?_, ?_, ?_⟩ <;> decide +kernel

/-- A block whose tag is that of its body opens: the head, a body of 208 bytes of zeros, and their tag under the pair's key. -/
theorem test_hyp_PintlePorts_open (s : State) (l : Nat) (head : List Byte) (he : s.epoch ≠ 0) (h : head.length = 28) :
    let z : List Byte := List.replicate 208 0
    let data := fun t : List Byte => head ++ (z ++ t)
    let k := Sys2Proof.Machine.pairKey (s.deviceId l) Sys2Proof.Machine.deviceId s.epoch
    (s.pathOpen l (data (gcmTag (aesKeys k) (pathIv (dNat head 20 7)) (head.drop 8) z))).isSome = true := by
  have d28 : ∀ t : List Byte, (head ++ t).drop 28 = t := fun t => by rw [← h]; exact List.drop_left
  have len : ∀ iv aad c ks, (gcmTag ks iv aad c).length ≤ 16 := by
    intro iv aad c ks
    simp only [gcmTag, xorBytes, List.length_zipWith, beBytes, List.length_reverse, leBytes_length]
    exact Nat.min_le_left _ _
  intro z data k
  have hd : ∀ t, dNat (data t) 20 7 = dNat head 20 7 := by
    intro t; simp only [data, dNat]; rw [List.drop_append_of_le_length (by omega), List.take_append_of_le_length (by simp; omega)]
  have ha : ∀ t, ((data t).drop 8).take 20 = head.drop 8 := by
    intro t; simp only [data]; rw [List.drop_append_of_le_length (by omega), List.take_append_of_le_length (by simp; omega), List.take_of_length_le (by simp; omega)]
  have hz : ∀ t, ((data t).drop 28).take 208 = z := by
    intro t; rw [show data t = head ++ (z ++ t) from rfl, d28, List.take_left' List.length_replicate]
  have ht : ∀ t, (data t).drop 236 = t := by
    intro t; rw [show (236 : Nat) = 28 + 208 from rfl, ← List.drop_drop, show data t = head ++ (z ++ t) from rfl, d28, List.drop_left' List.length_replicate]
  unfold State.pathOpen
  rw [if_neg he, hd, ha, hz, ht, List.take_of_length_le (len _ _ _ _)]
  simp [gcmDecrypt, k]

/-- A window of peer 3 on granule 1, and a block of that peer through it. -/
def win1 : WinEnt := { valid := true, r := true, w := true, a := true, unit := 1, ctx := 0, peer := 3, base := 1, length := 1 }
def inb (k : Nat) : PathBlk := { peer := 3, kind := k, walked := true, window := 4095, off := 65528, size := 8, data := List.replicate 8 1, aop := 1, ty := 1 }
def In (b : PathBlk) : State := { Mb [] with ptl := { inbox := [b] }, xlt := { (Mb []).xlt with windows := [(4095, win1)] } }
def okWin (r : WinRes) : Bool := match r with
  | .ok e va => decide (e = win1) && decide (va = 0x1FFF8)
  | _ => false
def refused (r : WinRes) : Bool := match r with
  | .refuse _ => true
  | _ => false

theorem test_hyp_PintleRequests_requests :
    ([0, 1, 2, 3, 4].all (fun k => decide ((In (inb k)).ptl.inbox[0]? = some (inb k)) && (In (inb k)).alive && !(inb k).badLen && !(inb k).badAtomic && !(inb k).badReduce)) = true ∧
    (okWin ((In (inb 0)).winCheck (inb 0) 8 0) = true ∧ okWin ((In (inb 1)).winCheck (inb 1) 8 1) = true ∧ okWin ((In (inb 2)).winCheck (inb 2) 4 2) = true ∧
      okWin ((In (inb 3)).winCheck (inb 3) 8 2) = true) ∧
    ((match (((In (inb 0)).takeIn (inb 0)).devRead 1 0 0 0x1FFF8 8 (((In (inb 0)).takeIn (inb 0)).rangeCls 1 0 0x1FFF8)).2 with
        | .ok _ _ => true
        | _ => false) = true ∧
      ((In (inb 2)).takeIn (inb 2)).rangeAt 1 0 0x1FFF8 = some range1) ∧
    (refused ((In (inb 0)).winCheck { inb 0 with off := 65529 } 8 0) = true ∧ PathBlk.badLen { inb 0 with size := 193 } = true) ∧
    (let s : State := { In (inb 4) with tmb := { tmbs := [(0, { kind := 1, remote := true })] } };
      (s.takeIn (inb 4)).tmbAt 0 = { kind := 1, remote := true } ∧ ((s.takeIn (inb 4)).tmbArrive 0 0).2 = true ∧ (((In (inb 4)).takeIn (inb 4)).tmbAt 0).remote = false) := by
  refine ⟨?_, ?_, ?_, ?_, ?_⟩ <;> decide +kernel

def rsp (k : Nat) : PathBlk := { peer := 3, vc := 1, kind := k, tag := 7, data := List.replicate 8 1 }
def rem (op : Nat) : RemReq := { who := .acc 9 31, leaf := 1, peer := 3, op := op, tag := 7, sent := true, issued := some 0 }
def inc : PathBlk := { inb 0 with walked := false }

/-- A request whose window the receive path's range cache does not hold; one of an undefined granule; one whose line is held. -/
theorem test_hyp_PintleRequests_walk :
    ((In inc).lookWindow inc).2 = false ∧ ((In (inb 0)).lookWindow (inb 0)).2 = true ∧
    (let s : State := { In (inb 0) with xlt := { windows := [(4095, win1)] } };
      (match s.winCheck (inb 0) 8 0 with
        | .refuse r => decide (4 ≤ r)
        | _ => false) = true) ∧
    (let s : State :=
        { In (inb 1) with coh := { l2 := [((line0 + 511) * 128 + 127, some { st := .m, data := List.replicate 128 7, holdUntil := some far })],
                                   dir := [(line0 + 511, some { owner := some 127, sharers := [] })] } };
      (match s.winCheck (inb 1) 8 1 with
        | .wait => true
        | _ => false) = true) := by
  refine ⟨?_, ?_, ?_, ?_⟩ <;> decide +kernel

def Rs (k op : Nat) : State :=
  { Mb [] with ptl := { inbox := [rsp k], reqs := [rem op] }, accs := [(9, some (A1 0 { ln with remote := true }))], now := far }

theorem test_hyp_PintleRequests_responses :
    ([(8, 0), (10, 2), (9, 1), (9, 3), (9, 4), (11, 4)].all (fun q => let i := (Rs q.1 q.2).takeIn (rsp q.1);
      decide ((Rs q.1 q.2).ptl.inbox[0]? = some (rsp q.1)) && decide (i.ptl.reqs.find? (fun r => r.sent && r.tag == 7 && r.peer == 3 && [q.2].contains r.op) = some (rem q.2))
        && decide ((i.dropReq (rem q.2)).acc 9 = some (A1 0 { ln with remote := true }))
        && decide ((A1 0 { ln with remote := true }).remoteLane 31 = some { ln with remote := true }) && decide ((A1 0 ln).kind ≠ 1))) = true ∧
    ((In (rsp 9)).takeIn (rsp 9)).ptl.reqs = [] ∧
    ((Rs 8 0).ptl.reqs[0]? = some (rem 0) ∧ max 0 ((Rs 8 0).peer 3).lastAccept + 2500 * max 80 ((Rs 8 0).fld RF.PTL_CTL_RSP_TO) < (Rs 8 0).now ∧
      (let s : State := { Rs 8 0 with ptl := { (Rs 8 0).ptl with inbox := [] } }; s.ptl.inbox.any (fun b => b.vc == 1 && b.tag == 7 && b.peer == 3) = false) ∧
      (Rs 8 0).ptl.inbox.any (fun b => b.vc == 1 && b.tag == 7 && b.peer == 3) = true) := by
  refine ⟨?_, ?_, ?_⟩ <;> decide +kernel

theorem test_hyp_PowerAndHeat :
    ((Tk 96 { lastTick := some 0 } 0).now = 0 + 96 ∧ (Tk 128 { lastTick := some 0 } 0).now = 0 + 128 ∧ (Tk 129 { lastTick := some 0 } 0).now ≠ 0 + 128) ∧
    (let s := (Tk 5000 {} 0).setFlag RF.PWR_STAT_RUNNING true; s.flag RF.PWR_STAT_RUNNING = true ∧ s.alive = true ∧ s.now = s.pwr.winStart + 5000) ∧
    (let s := (Tk 96 { lastTick := some 0 } 0).setFlag RF.PWR_STAT_RUNNING true;
      s.flag RF.PWR_STAT_RUNNING = true ∧ s.pwr.winStart < s.now ∧ (Tk 96 { lastTick := some 0 } 0).flag RF.PWR_STAT_RUNNING = false) ∧
    (let s := (((Tk far {} 0).setFlag (RF.PWR_D_STAT_PENDV 7) true).setFld (RF.PWR_D_STAT_PEND 7) 1).setFld (RF.PWR_D_STAT_BL 7) 0;
      let d : State := { s with boot := { s.boot with wardenDead := 12 } };
      s.pendingRaise 7 = true ∧ s.railsHeld 7 = false ∧ d.pendingRaise 7 = true ∧ kvB d.pwr.confirmed 7 = false ∧ kvN d.pwr.pendAt 7 + 250000 < d.now ∧
        d.railsHeld 7 = true) ∧
    (L.alive = true ∧ L.flag (RF.PWR_D_STAT_DROOP 7) = false ∧ kvB L.pwr.raised 7 = false) ∧
    (let s := (Tk far {} 0).setFlag (RF.PWR_D_STAT_DROOP 7) true; s.flag (RF.PWR_D_STAT_DROOP 7) = true ∧ s.droopEnd 7 < s.now) ∧
    (L.pins.brakeN = true ∧ L.pins.pwrok = true ∧ 2 ≤ L.boot.step ∧ ({ pwrok := true, brakeN := false } : PinSt).brakeN = false) := by
  refine ⟨?_, ?_, ?_, ?_, ?_, ?_, ?_⟩ <;> decide +kernel

/-- A change of frequency that is due: applied, or deferred by a droop response, or none; a droop in a raise's cycles 129 to 383. -/
theorem test_hyp_PowerAndHeat_change :
    (let s := Tk 129 { lastTick := some 1 } 0;
      let c : State := { s with pwr := { s.pwr with changeDue := true } };
      let q := (c.setFlag (RF.PWR_D_STAT_PENDV 7) true).setFld (RF.PWR_D_STAT_PEND 7) 4;
      let d := (q.setFlag (RF.PWR_D_STAT_DROOP 7) true).setFld (RF.PWR_D_DROOP_HOLD 7) 1000;
      s.pwr.changeDue = false ∧ c.pwr.changeDue = true ∧ c.freqDue 1 7 = false ∧ q.freqDue 1 7 = true ∧ q.freqFree 7 = true ∧
        d.freqDue 1 7 = true ∧ d.freqFree 7 = false) ∧
    (let s : State := { Tk 1000 {} 0 with pwr := { raised := [(7, true)], changeAt := [(7, 745)] } };
      kvB s.pwr.raised 7 = true ∧ kvN s.pwr.changeAt 7 < s.now ∧ s.now ≤ kvN s.pwr.changeAt 7 + 255) := by
  refine ⟨?_, ?_⟩ <;> decide +kernel

theorem test_hyp_WardImageLoads :
    (L.alive = true ∧ L.boot.fwRunning = true) ∧
    (let q : LoadReq := { addr := 0, size := 3 };
      let s : State := { L with ward := { L.ward with load := some q } }; s.ward.load = some q ∧ [0, 0, 0].length = q.size ∧ s.alive = true) ∧
    (let p : PendImage := { image := {}, hash := [] };
      let w : State := { L with ward := { L.ward with pending := some p } };
      ([128, 383].all (fun n => let s : State := { w with tick := { lastTick := some 0 }, now := n };
        decide (s.ward.pending = some p) && decide (p.since ≤ 0) && decide (0 + 128 ≤ s.now ∧ s.now ≤ 0 + 383) && !s.ward.quiesceEnds)) = true ∧
      ({ w with tick := { lastTick := some 0 }, now := 127 } : State).now < 0 + 128 ∧ 0 + 383 < ({ w with tick := { lastTick := some 0 }, now := 384 } : State).now) := by
  refine ⟨?_, ?_, ?_⟩ <;> decide +kernel

/-- WARD commands of a queue that may load and of one that may not; the end of a quiesce with an image that waits, and with a load under way. -/
theorem test_hyp_WardImageLoads_quiesce :
    ([(0, 0), (1, 0), (0, 1), (1, 1)].all (fun o => let c := cm 0x0D [(16, o.1)];
      let s := ({ Cm c with ward := { image := { units := [{ unit1 with vf := o.2 }] } } } : State);
      decide (s.cmdOf 9 0x0D = some c) && c.inflight && decide (c.at 16 1 % 2 = o.1) && (s.wardBarred c == decide (o.2 = 1)))) = true ∧
    (let p : PendImage := { image := {}, hash := [] };
      let s : State := { L with ward := { L.ward with pending := some p, quiesceEnds := true } };
      s.ward.quiesceEnds = true ∧ s.ward.load = none ∧ s.ward.pending = some p) ∧
    (let q : LoadReq := { addr := 0, size := 3 };
      let s : State := { L with ward := { L.ward with load := some q, quiesceEnds := true } };
      s.ward.load = some q ∧ s.flag RF.WRD_STAT_LOADED = true ∧
        (({ s with ward := { s.ward with quiesceEnds := false } } : State).refuseLoad q 0x0308 (some q.qslot)).ward.pending = none) := by
  refine ⟨?_, ?_, ?_⟩ <;> decide +kernel

/-! ### Witnesses: the keyway, management, starts, pins, register writes -/

theorem leNat_leBytes : ∀ n v : Nat, leNat (leBytes n v) = v % 256 ^ n := by
  intro n
  induction n with
  | zero => intro v; simp [leBytes, leNat, Nat.mod_one]
  | succ n ih =>
    intro v
    rw [leBytes, leNat, ih, Nat.pow_succ, BitVec.toNat_ofNat, Nat.mul_comm (256 ^ n) 256, Nat.mod_mul]

theorem leNat_lt (bs : List Byte) : leNat bs < 256 ^ bs.length := by
  induction bs with
  | nil => simp [leNat]
  | cons b r ih =>
    have hb : b.toNat < 256 := b.isLt
    rw [leNat, List.length_cons, Nat.pow_succ]
    omega

theorem sm3Rounds_length (w : List Nat) : ∀ (n j : Nat) (v : List Nat), v.length = 8 → (sm3Rounds w n j v).length = 8 := by
  intro n
  induction n with
  | zero => intro j v h; exact h
  | succ n ih =>
    intro j v h
    obtain ⟨a, b, c, d, e, f, g, x, rfl⟩ : ∃ a b c d e f g x, v = [a, b, c, d, e, f, g, x] := by
      match v, h with
      | [a, b, c, d, e, f, g, x], _ => exact ⟨a, b, c, d, e, f, g, x, rfl⟩
    exact ih _ _ rfl

theorem sm3Blocks_length : ∀ (n : Nat) (v : List Nat) (m : List Byte), v.length = 8 → (sm3Blocks n v m).length = 8 := by
  intro n
  induction n with
  | zero => intro v m h; exact h
  | succ n ih =>
    intro v m h
    refine ih _ _ ?_
    rw [sm3Block, List.length_zipWith, sm3Rounds_length _ _ _ _ h, h, Nat.min_self]

theorem sm3_length (m : List Byte) : (sm3 m).length = 32 := by
  have h : ∀ l : List Nat, (l.flatMap (fun x => beBytes 4 x)).length = 4 * l.length := by
    intro l
    induction l with
    | nil => rfl
    | cons a r ih =>
      rw [List.flatMap_cons, List.length_append, ih, beBytes, List.length_reverse, leBytes_length, List.length_cons]
      omega
  rw [sm3, h, sm3Blocks_length _ _ _ rfl]

/-- An envelope for partition 0 with the measurements of L, which are 0, and the device identifier d, and what a decryption of one gives. -/
def env (d : Nat) : List Byte :=
  leBytes 4 0x4C455657 ++ leBytes 2 0x0100 ++ leBytes 2 0 ++ leBytes 8 d ++ List.replicate 272 0

def opened (d : Nat) : List Byte := List.replicate 32 1 ++ sm3 ((env d).take 112)

/-- The device with partition 0 sealed. -/
def Ks : State := { L with ward := { image := { units := [unit1], parts := [part0 true] } } }

theorem test_hyp_KeywayAndSealedLoads_envelope : envelopeOk (env deviceId) = true ∧ (env deviceId).length = 288 ∧
    bytesAt (env deviceId) 16 32 = Ks.fwMeas ∧ bytesAt (env deviceId) 48 32 = Ks.wardMeas ∧ natBits (le (env deviceId) 80 1) 0 6 = 0 ∧
    Ks.sealedPart 0 = true ∧ le (env deviceId) 84 4 = Ks.fld (RF.KWY_GEN_GEN 0) ∧ (opened deviceId).length = 64 ∧
    (opened deviceId).drop 32 = sm3 ((env deviceId).take 112) ∧ (opened deviceId).take 32 = List.replicate 32 1 := by
  have hd : deviceId % 256 ^ 8 = deviceId := by
    apply Nat.mod_eq_of_lt
    have h := leNat_lt ((sm3 identityPub).take 8)
    rw [List.length_take, sm3_length] at h
    exact h
  have h8 : le (env deviceId) 8 8 = deviceId := by
    show leNat (leBytes 8 deviceId) = deviceId
    rw [leNat_leBytes, hd]
  have hz : Ks.fwMeas = List.replicate 32 0 ∧ Ks.wardMeas = List.replicate 32 0 := by refine ⟨?_, ?_⟩ <;> decide +kernel
  refine ⟨?_, by simp only [env, List.length_append, leBytes_length, List.length_replicate], hz.1.symm ▸ rfl, hz.2.symm ▸ rfl, rfl, by decide +kernel, ?_, ?_, ?_, ?_⟩
  · simp only [envelopeOk, h8, beq_self_eq_true, Bool.and_true]
    rfl
  · show 0 = Ks.fld (RF.KWY_GEN_GEN 0)
    decide +kernel
  · rw [opened, List.length_append, sm3_length, List.length_replicate]
  · rw [opened, List.drop_left' List.length_replicate]
  · rw [opened, List.take_left' List.length_replicate]

/-- An envelope whose point is not on the curve is not decrypted, whatever the device's key. -/
theorem test_hyp_KeywayAndSealedLoads_undecrypted (d : Nat) : sm2Decrypt d (bytesAt (env deviceId) 112 160) = none := by
  have h : bytesAt (env deviceId) 112 160 = List.replicate 160 0 := rfl
  have e : ecRead ((List.replicate 160 0).take 64) = none := by decide +kernel
  rw [h]
  unfold sm2Decrypt
  rw [e]

def wk : WeightKey := { key := List.replicate 32 1, part := 0, head := leBytes 112 ((65536 + 16) * 2 ^ 768) }
def jb (n : Nat) : SealedJob := { slot := 63, part := 0, length := 65536 + 16, dst := 0x10000, unit := 1, ctx := 0, next := n }
def slw (op : Nat) : Word := BitVec.ofNat 32 (2 ^ 31 + 2 ^ 24 * 63 + op)

theorem test_hyp_KeywayAndSealedLoads_words :
    (natBit (slw 0).toNat 31 = true ∧ L.kwy.fusedSvn < ({ L with boot := { L.boot with bundleSvn := 1 } } : State).boot.bundleSvn ∧ L.boot.bundleSvn ≤ L.kwy.fusedSvn ∧
      L.alive = true ∧ L.kwy.commit = none ∧
      (let s : State := { L with kwy := { L.kwy with commit := some 1 } }; s.kwy.commit = some 1 ∧ s.kwy.fusedSvn < 1)) ∧
    ([1, 2, 3].all (fun o => natBit (slw o).toNat 31 && decide ((slw o).toNat % 4 = o) && decide (natBits (slw o).toNat 24 6 = 63))) = true ∧
    ((L.setFlag RF.KWY_SL_STAT_BUSY true).flag RF.KWY_SL_STAT_BUSY = true ∧ L.flag RF.KWY_SL_STAT_BUSY = false ∧ L.wkey 63 = none ∧
      envelopeOk (List.replicate 288 0) = false ∧ bytesAt (env 0) 16 32 ≠ (Ks.setReg (RA.KWY_FWMEAS 0) 1).fwMeas) ∧
    (let s : State := ((State.setFld { Ks with kwy := { Ks.kwy with slots := [(63, some wk)] } } RF.KWY_SL_CTX_UNIT 1).setFld RF.KWY_SL_DST_LO_ADDR 0x10000);
      s.wkey 63 = some wk ∧ s.unitEnt (s.fld RF.KWY_SL_CTX_UNIT) = some unit1 ∧ unit1.group = false ∧ natBit unit1.partMask wk.part = true ∧
        s.runInPart (s.fld RF.KWY_SL_CTX_UNIT) (s.fld RF.KWY_SL_CTX_CTX) wk.part (s.xlt.ranges.length + 1) (s.fld64 RF.KWY_SL_DST_LO_ADDR RF.KWY_SL_DST_HI_ADDR) wk.length = true) := by
  refine ⟨?_, ?_, ?_, ?_⟩ <;> decide +kernel

/-- The last chunk of that load as its sender encrypts it, and one that is not authentic. -/
theorem test_hyp_KeywayAndSealedLoads_gcm :
    let iv := bytesAt wk.head 88 8 ++ leBytes 4 1
    let aad := leBytes 4 1 ++ leBytes 8 (65536 + 16)
    let r := gcmEncrypt wk.key iv aad (List.replicate 16 1)
    gcmDecrypt wk.key iv aad r.2 r.1 = some (List.replicate 16 1) ∧ r.1.length = 16 ∧ r.2.length = 16 ∧
      gcmDecrypt wk.key iv aad (List.replicate 16 0) (List.replicate 16 0) = none := by decide +kernel

/-- The last chunk of a load, of 16 bytes; and the erasures. -/
theorem test_hyp_KeywayAndSealedLoads_chunks :
    (let s : State := { Ks with kwy := { Ks.kwy with load := some (jb 1), slots := [(63, some wk)] }, mem := { backing := [(granKey 1 0 2, some gs)] } };
      s.kwy.load = some (jb 1) ∧ s.wkey (jb 1).slot = some wk ∧ min 65536 ((jb 1).length - 65536 * (jb 1).next) = 16 ∧
        (match (s.devWrite 1 0 ((jb 1).dst + 65536 * (jb 1).next) 4 (List.replicate 16 1)).2 with
          | .ok [] false => true
          | _ => false) = true) ∧
    (let s : State := { L with xlt := {} };
      let w : Word := BitVec.ofNat 32 (2 ^ 31 + 63);
      natBit w.toNat 31 = true ∧ s.xlt.ranges.any (fun r => (r.kind == 0 || r.kind == 3) && r.part == w.toNat % 64) = false ∧ s.kwy.load = none ∧
        s.fld (RF.KWY_GEN_GEN (w.toNat % 64)) ≠ 2 ^ 32 - 1 ∧ (s.setFld (RF.KWY_GEN_GEN 63) (2 ^ 32 - 1)).fld (RF.KWY_GEN_GEN (w.toNat % 64)) = 2 ^ 32 - 1 ∧
        (jb 0).part = (BitVec.ofNat 32 (2 ^ 31)).toNat % 64) ∧
    L.xlt.ranges.any (fun r => (r.kind == 0 || r.kind == 3) && r.part == (BitVec.ofNat 32 (2 ^ 31)).toNat % 64) = true := by
  refine ⟨?_, ?_, ?_⟩ <;> decide +kernel

/-- A connection of binding 1 in a stage, with n sessions, session 1 finished or not. -/
def Sp (stage n : Nat) (est : Bool) : State :=
  { L with kwy := { L.kwy with stage := [(1, stage)], sessions := (List.range n).map (fun i => { id := i + 1, binding := 1, established := est }) } }

theorem test_hyp_SpdmResponder :
    ([0, 1, 2, 3].all (fun k => (Sp k 0 false).mctpUp 1 && decide ((Sp k 0 false).spdmStage 1 = k))) = true ∧
    (le [0, 0, 0, 0] 2 1 % 16 = 0 ∧ le [0, 0, 15, 0] 2 1 % 16 ≠ 0 ∧ le [0, 0, 0, 0] 3 1 = 0 ∧ le [0, 0, 0, 0x4F] 3 1 ≠ 0xFF ∧ le [0, 0, 0, 0x10] 3 1 % 16 = 0) ∧
    (((Sp 3 0 false).measAt 0x4F).isSome = true ∧ (Sp 3 0 false).measAt 0x50 = none ∧ (Sp 3 0 false).measAt 6 = none) ∧
    ((Sp 3 3 true).kwy.sessions.length < 4 ∧ 4 ≤ (Sp 3 4 true).kwy.sessions.length) ∧
    ([false, true].all (fun e => decide ((Sp 3 4 e).session 1 4 = some { id := 4, binding := 1, established := e }))) = true ∧ (Sp 3 4 true).session 1 5 = none ∧ L.mctpUp 2 = false := by
  refine ⟨?_, ?_, ⟨?_, ?_, ?_⟩, ?_, ?_, ?_, ?_⟩
  · decide +kernel
  · decide +kernel
  · rfl
  · rfl
  · rfl
  · decide +kernel
  · decide +kernel
  · decide +kernel
  · decide +kernel

theorem test_hyp_MctpAndPldm :
    (L.mctpUp 0 = true ∧ L.mctpUp 1 = true ∧ L.mctpUp 2 = false ∧ 254 % 256 ≠ 255 ∧ 254 % 256 ≠ 0 ∧ 511 % 256 = 255 ∧ L.mgt.discovered = false ∧
      ({ L with mgt := { L.mgt with discovered := true } } : State).mgt.discovered = true) := by decide +kernel

theorem test_hyp_VendorMessagesAndBlackBox :
    (L.mctpUp 1 = true ∧ L.ticking = true ∧ M.mctpUp 1 = true ∧ M.ticking = false ∧ L.secured 1 false = false ∧ (Sp 3 1 true).secured 1 true = true ∧
      (Sp 3 1 true).ticking = true) ∧
    (let s : State := { L with bb := { slots := [(0, { bytes := leBytes 128 5 })], rdIdx := some 5 } }; (s.bbEntry 5).isSome = true ∧ s.bbEntry 6 = none ∧ s.bb.rdIdx = some 5) ∧
    (let w : Word := BitVec.ofNat 32 1;
      natBit w.toNat 0 = true ∧ ({ L with now := 1 } : State).mgt.alertAt ≠ ({ L with now := 1 } : State).now ∧ natBit L.boot.wardenDead 3 = false ∧ 1 ≤ L.boot.step) ∧
    (let e : BbPend := { suppressed := 0, source := 0, uptime := 0, rec_ := { code := 0x1208 }, ahead := false };
      let s : State := ({ L with bb := { buffer := [e], head := bbSlots - 1 } } : State).setFlag RF.MGT_BB_STAT_READY true;
      s.bb.buffer = [e] ∧ s.flag RF.MGT_BB_STAT_READY = true ∧ s.bb.erasing ≠ some (s.bb.head / bbPerSector) ∧ s.bb.lostRun = 0) ∧
    (let e : BbPend := { suppressed := 0, source := 0, uptime := 0, rec_ := { code := 0x1208 }, ahead := false };
      let s : State := ({ L with bb := { buffer := [e], lostRun := 1 } } : State).setFlag RF.MGT_BB_STAT_READY true;
      s.bb.buffer = [e] ∧ s.flag RF.MGT_BB_STAT_READY = true ∧ s.bb.erasing ≠ some (s.bb.head / bbPerSector) ∧ s.bb.lostRun ≠ 0) ∧
    ({ L with bb := { erasing := some 1919 } } : State).bb.erasing = some 1919 := by
  refine ⟨?_, ?_, ?_, ?_, ?_, ?_⟩ <;> decide +kernel

/-- The device in a start: what power, pins, step and flags the clauses ask for. -/
def Bt (b : BootSt) (p : PinSt) : State := { L with boot := b, pins := p }

theorem test_hyp_Starts :
    (let s := Bt {} { pwrok := true, perst := true };
      s.pins.pwrok = true ∧ s.pins.perst = true ∧ s.boot.power = .inReset ∧ s.boot.coldDone = false ∧ s.boot.stopped = false ∧ (List.replicate 32 (0 : Byte)).length = 32) ∧
    (Bt {} { pwrok := false }).pins.pwrok = false ∧
    (L.pins.pwrok = true ∧ L.boot.stopped = false ∧ L.boot.coldDone = true ∧ L.boot.power = .running) ∧
    (let s := Bt { stopped := true } {}; s.pins.pwrok = true ∧ s.boot.stopped = true) ∧
    (let s := Bt { power := .running } {}; s.boot.stopped = false ∧ s.boot.power = .running ∧ s.boot.coldDone = false ∧ s.alive = true) ∧
    (natBit (2 : Word).toNat 0 = false ∧ natBit (3 : Word).toNat 0 = true ∧ L.alive = true ∧ L.startDead = false ∧
      (L.setFlag RF.MGT_BOOT_STAT_FATAL true).startDead = true) ∧
    (let s := Bt { power := .running, step := 7 } {};
      s.alive = true ∧ s.boot.step = 7 ∧ s.boot.fwRunning = false ∧ s.boot.push = none ∧ s.boot.bundle = [] ∧ s.startDead = false) ∧
    (let s := Bt { power := .running, step := 7, push := some (0, 3) } {};
      s.alive = true ∧ s.boot.fwRunning = false ∧ s.startDead = false ∧ s.boot.push = some (0, [1, 2, 3].length)) ∧
    L.boot.fwRunning = true := by
  refine ⟨?_, ?_, ?_, ?_, ?_, ?_, ?_, ?_, ?_⟩ <;> decide +kernel

def tm1 (fire : Bool) : TimerEnt := { en := true, fire := fire, tumbler := 63, offset := 3 }

theorem test_hyp_PinsAndTestPort :
    ([false, true].all (fun f => let s : State := { L with ward := { image := { units := [unit1], timers := [tm1 f] } }, now := refPeriod * 3 };
      let q : State := { s with pins := { s.pins with timerBase := [(0, 1)] } };
      decide (s.ward.image.timers[0]? = some (tm1 f)) && decide (s.tick.lastTick = some 0) && s.ticking && (tm1 f).en && decide (s.tick.due = none)
        && decide (s.now = 0 + refPeriod * (tm1 f).offset) && decide (kvN s.pins.timerBase 0 ≠ 0 + 1) && decide (kvN q.pins.timerBase 0 = 0 + 1))) = true ∧
    ([0, 2, 3, 4, 5, 6, 7].all (fun f => let s : State := { L with ward := { image := { units := [unit1], pins := List.replicate 16 { func := f } } } };
      let q : State := { s with pins := { s.pins with mfpSeen := 2 ^ 15 } };
      decide (s.ward.image.pins[15]? = some { func := f }) && s.ticking && !natBit s.pins.mfpSeen 15 && natBit q.pins.mfpSeen 15)) = true ∧
    (L.boot.power ≠ .unpowered ∧ ({ tap := .shiftDr } : JtagSt).tap = .shiftDr ∧ (Bt { power := .unpowered } {}).boot.power = .unpowered) := by
  refine ⟨?_, ?_, ?_⟩ <;> decide +kernel

/-- Bits of each kind: RW in TCK_SNAP_BASE_LO, RWL in the last MGT_FAB_CTL, W1C in TCK_STAT, none in TCK_MEAS, and one that its own command writes. -/
theorem test_hyp_RegisterWrites :
    ([RA.TCK_SNAP_BASE_LO, RA.MGT_FAB_CTL 13, RA.TCK_STAT, RA.TCK_MEAS, RA.MGT_ALERT].all (fun a => decide (L.boot.power = .running) && decide (a % 4 = 0 ∧ a < 2 ^ 28) && L.served a
      && !L.discards a && (regRow a).isSome)) = true ∧
    (regRow RA.TCK_SNAP_BASE_LO).any (fun r => r.rw.testBit 31 && !r.w1c.testBit 31 && !r.w1s.testBit 31) = true ∧
    (regRow (RA.MGT_FAB_CTL 13)).any (fun r => !r.rw.testBit 15 && r.rwl.testBit 15 && !r.w1c.testBit 15 && !r.w1s.testBit 15) = true ∧
    (regRow RA.TCK_STAT).any (fun r => !r.rw.testBit 11 && !r.rwl.testBit 11 && r.w1c.testBit 11 && !r.w1s.testBit 11) = true ∧
    (regRow RA.TCK_MEAS).any (fun r => !r.rw.testBit 31 && !r.rwl.testBit 31 && !r.w1c.testBit 31 && !r.w1s.testBit 31) = true ∧
    (ownBits RA.MGT_ALERT).testBit 0 = true ∧
    (L.served (2 ^ 32 - 4) = false) ∧
    (let s : State := { L with ward := { image := { units := [{ unit1 with vf := 16 }] } }, host := { fns := [(16, { enabled := true })] } };
      (s.fnSt 16).enabled = true ∧ s.fnQueue 16 ((0x10000 - 0x10000) / 0x40) = some 0 ∧ s.fnQueue 16 ((0x101FC - 0x10000) / 0x40) = some 7 ∧
        s.fnQueue 16 ((0x4FFFC - 0x10000) / 0x40) = none) ∧
    (L.fnSt 16).enabled = false ∧
    ([RA.TCK_SNAP_BASE_LO, RA.MGT_FAB_CTL 13, RA.TCK_STAT, RA.TCK_MEAS, RA.MGT_ALERT].all (fun a => decide (a < doorbellAddr 0 ∨ doorbellAddr 4096 ≤ a))) = true ∧
    (RA.MGT_FAB_CTL 13 = 0x1180354 ∧ RA.MGT_FAB_CTL 13 % 0x40 = 0x14 ∧ linkCtlWord 0x1180354 0 = 0x101) ∧
    (doorbellAddr 4095 = 0x4FFF000 ∧ L.boot.fwRunning = true ∧ L.boot.stopped = false) := by
  refine ⟨?_, ?_, ?_, ?_, ?_, ?_, ?_, ?_, ?_, ?_, ?_, ?_⟩ <;> decide +kernel

theorem test_hyp_StepRunsTheFrontCommand : State.reset.pending = [] := by decide +kernel

theorem test_hyp_FusesArePermanent : ({ L with mem := { mapouts := [(31, 31)] } } : State).mem.mapouts.contains (31, 31) = true := by decide +kernel

theorem test_hyp_ResetState : regRow 0xFFFFFFC = none := by decide +kernel

/-! ### Values worked out in the spec -/

/-- Table 5.11 of 05_number_formats.md: 0.3, 0.005 and 500 into E4M3 and E5M2. -/
theorem test_fp8_conversions :
    (e4m3.convert { rnd := 0, strict := false } true (fp32.decode 0x3E99999A)).bits = 0x2A ∧ (e4m3.convert { rnd := 0, strict := false } true (fp32.decode 0x3BA3D70A)).bits = 0x03 ∧
    (e4m3.convert { rnd := 0, strict := false } true (fp32.decode 0x43FA0000)).bits = 0x7E ∧ (e4m3.convert { rnd := 0, strict := false } false (fp32.decode 0x43FA0000)).bits = 0x7F ∧
    (e5m2.convert { rnd := 0, strict := false } false (fp32.decode 0x43FA0000)).bits = 0x60 := by decide +kernel

/-- 7, 5.2, -1.3 and 0.2 in FP32. -/
def act : List FVal := [0x40E00000, 0x40A66666, 0xBFA66666, 0x3E4CCCCD].map fp32.decode

/-- Table 5.12 and the text after it: an E2M1 block under the OCP rule, under the FIT rule, and as a fine-scale block. -/
theorem test_e2m1_blocks : quantise 8 1 0 0 act = (0x7F, [0x7, 0x7, 0xB, 0x0]) ∧ quantise 8 1 1 0 act = (0x80, [0x6, 0x5, 0x9, 0x0]) ∧
    quantise 8 2 0 0 act = (0x3A, [0x7, 0x6, 0xA, 0x0]) := by decide +kernel

/-- The T2 block of the example of 08_tcore_isa.md. -/
theorem test_t2_block : (let q := quantise 11 3 0 0 ([0x3CFDF3B6, 0x3B83126F, 0xBCF5C28F, 0xBCE56042, 0x3D0F5C29].map fp32.decode);
    q.1 = 122 ∧ t2Block q.2 q.1 = [0x9A, 0, 0, 0, 0, 0, 0, 0x7A]) := by decide +kernel

/-- The INT8 epilogue of 07_vector_engine.md: 45,312 × 2⁻⁶ × 2⁻⁷ + 0.25 = 5.78125, and its element beside 7.9. -/
theorem test_int8_epilogue : (let m : FMode := { rnd := 0, strict := true };
    (fp32.add m (fp32.mul m (fp32.mul m 0x47310000 0x3C800000).bits 0x3C000000).bits 0x3E800000).bits = 0x40B90000 ∧
    quantise 9 1 0 0 [fp32.decode 0x40B90000, fp32.decode 0x40FCCCCD] = (129, [92, 126])) := by decide +kernel

/-- The words of the examples of 08_tcore_isa.md (STC, MXA, WAITQ), 13_tumblers.md (TWAIT) and 09_vcore.md (VSTX). -/
theorem test_words : (let w : BitVec 64 := 0x000EC00141028EB9; opcOf w = 0x5C ∧ fD w = 20 ∧ fA w = 8 ∧ fB w = 10 ∧ fMod w 49 46 = 11 ∧ fMod w 51 50 = 3) ∧
    (let w : BitVec 64 := 0x0000400001800EC0; opcOf w = 0x60 ∧ fA w = 12 ∧ fMod w 47 46 = 1) ∧ opcOf 0x0000400000000EC4 = 0x62 ∧
    (iOp 0x00C5A52B = 0x2B ∧ iF3 0x00C5A52B = 2 ∧ iRd 0x00C5A52B = 10 ∧ iRs1 0x00C5A52B = 11 ∧ iRs2 0x00C5A52B = 12) ∧
    (iOp 0x6055038B = 0x0B ∧ xMode 0x6055038B = 3 ∧ iRd 0x6055038B = 7 ∧ iRs1 0x6055038B = 10 ∧ iRs2 0x6055038B = 5) := by decide +kernel

/-- The example of FIPS 197 for a key of 256 bits; the example of GB/T 32905 for the message abc. -/
theorem test_standards :
    aesEncrypt (aesKeys ((List.range 32).map (fun i => BitVec.ofNat 8 i))) ((List.range 16).map (fun i => BitVec.ofNat 8 (17 * i)))
      = [0x8e, 0xa2, 0xb7, 0xca, 0x51, 0x67, 0x45, 0xbf, 0xea, 0xfc, 0x49, 0x90, 0x4b, 0x49, 0x60, 0x89] ∧
    (sm3 [0x61, 0x62, 0x63]).take 8 = [0x66, 0xc7, 0xf0, 0xf4, 0x62, 0xee, 0xed, 0xd9] := by
  refine ⟨?_, ?_⟩ <;> decide +kernel

/-- The window of TC3.41 and that of VC5.7 (R15). -/
theorem test_windows : RA.TCW_STAT 233 = 0x23A4000 ∧ RA.VCW_STAT 87 = 0x3570000 := by decide

/-- The fourteenth arrival of the example of 13_tumblers.md. -/
theorem test_counter_fires : ((took { kind := 1, value := 13, target := 14, step := 14 } .arrive .dev 1).arriveKind 32767 1).tmbAt 32767
    = { kind := 1, value := 14, target := 28, step := 14, gen := 1 } := by decide +kernel

theorem test_hyp_StepKeepsCanonicalForm : State.reset.memWf = true := by decide +kernel

end Sys2Proof.Tests
end

section
/-! SUPPORT. The program queues of the units, and what the resumption of carried programs leaves of them (R80). -/

open Sys2Proof
namespace Sys2Proof.Machine

/-- The program queue of every unit: its programs that await admission. -/
def State.queued (s : State) (unit : Nat) : List FrameProg := (s.unitRun unit).waiting

theorem State.unitRun_setUnit (s : State) (unit : Nat) (x : UnitRun) (j : Nat) :
    (s.setUnit unit x).unitRun j = if j = unit then x else s.unitRun j := kvGet_set _ _ _ _ _

theorem State.queued_eq_of_units {s t : State} (h : t.units = s.units) : t.queued = s.queued := by
  funext j
  simp only [State.queued, State.unitRun, h]

theorem State.waiting_eq_of_queued {s t : State} (h : t.queued = s.queued) (unit : Nat) :
    (t.unitRun unit).waiting = (s.unitRun unit).waiting := congrFun h unit

/-- An update of a unit that gives it back the queue it had leaves every queue as it was. -/
theorem State.queued_setUnit {s : State} {unit : Nat} {x : UnitRun} (h : x.waiting = (s.unitRun unit).waiting) :
    (s.setUnit unit x).queued = s.queued := by
  funext j
  unfold State.queued
  rw [State.unitRun_setUnit]
  split
  case isTrue hj => rw [h, hj]
  case isFalse => rfl

@[simp] theorem State.queued_setProg (s : State) (unit : Nat) (p : FrameProg) : (s.setProg unit p).queued = s.queued :=
  State.queued_setUnit rfl

theorem State.queued_foldl {α : Type} {f : State → α → State} (h : ∀ s a, (f s a).queued = s.queued) (l : List α) (s : State) :
    (l.foldl f s).queued = s.queued := by
  induction l generalizing s with
  | nil => rfl
  | cons a l ih => exact (ih (f s a)).trans (h s a)

/-! ### Preemption requests and restores -/

@[simp] theorem State.queued_askPreempt (s : State) (unit : Nat) (cores : List Nat) : (s.askPreempt unit cores).queued = s.queued :=
  State.queued_eq_of_units rfl

@[simp] theorem State.queued_askLower (s : State) (unit : Nat) : (s.askLower unit).queued = s.queued := by
  unfold State.askLower
  split
  case h_1 => exact State.queued_foldl (by intro t u; exact t.queued_askPreempt ..) _ s
  case h_2 => rfl

@[simp] theorem State.queued_syncClock (s : State) (unit : Nat) : (s.syncClock unit).queued = s.queued := by
  unfold State.syncClock
  split
  case h_1 => split <;> exact State.queued_setProg ..
  case h_2 => rfl

@[simp] theorem State.queued_startRestore (s : State) (unit c : Nat) : (s.startRestore unit c).queued = s.queued := by
  unfold State.startRestore
  split
  case isTrue =>
    refine (State.queued_syncClock _ unit).trans (State.queued_eq_of_units ?_)
    split <;> exact State.setFlag_units ..
  case isFalse => rfl

@[simp] theorem State.queued_pumpRestores (s : State) (cores : List Nat) : (s.pumpRestores cores).queued = s.queued := by
  unfold State.pumpRestores
  refine State.queued_foldl (fun t c => ?_) cores s
  exact State.queued_foldl (by intro t u; exact t.queued_startRestore u.slot c) _ t

/-- Programs that resume leave no queue and join none. -/
@[simp] theorem State.queued_resumeCarried (s : State) : s.resumeCarried.queued = s.queued := by
  unfold State.resumeCarried
  rw [State.queued_pumpRestores, State.queued_foldl (by intro t u; exact t.queued_askLower u.slot),
    State.queued_foldl (by intro t u; exact State.queued_setUnit rfl)]

theorem State.waiting_resumeCarried (s : State) (unit : Nat) : (s.resumeCarried.unitRun unit).waiting = (s.unitRun unit).waiting :=
  State.waiting_eq_of_queued s.queued_resumeCarried unit

/-! ### The admission cycle -/

theorem exec_admission (s : State) : exec .admission s = execAdmission s := rfl

/-- What ADMISSION does in its cycle: admission only where no hold and no fatal boot stops it, the resumption of carried programs in either case. -/
theorem execAdmission_of_due {s : State} {l : Nat} (hl : s.tick.lastTick = some l) (ha : s.alive = true) (hn : s.now = l + 384)
    (hc : s.tick.closed = true) (had : s.tick.admitted = false) :
    execAdmission s =
      let t := (if s.flag RF.TCK_CTL_ADMIT_HOLD || s.boot.fatal then s else s.admitAll).resumeCarried
      .next (State.syncQuiesced { t with tick := { t.tick with admitted := true } }).endQuiesce := by
  simp [execAdmission, hl, ha, hn, hc, had]

end Sys2Proof.Machine
end

section
/-! The family of the frame cadence: statements about the admission cycle. -/

open Sys2Proof Sys2Proof.Machine
namespace Sys2Proof.Claims

/-- Settles O34: the hold takes admission out of the cycle and leaves the resumption of carried programs, which touches no queue. -/
theorem admissionCycle : Obligations.AdmissionCycle := by
  intro s l hl ha hn hc had
  have due := (exec_admission s).trans (execAdmission_of_due hl ha hn hc had)
  refine ⟨fun hold fatal => ?_, fun hold => ⟨?_, s.waiting_resumeCarried⟩⟩
  · simpa only [hold, fatal, Bool.or_self, Bool.false_eq_true, if_false] using due
  · simpa only [hold, Bool.true_or, if_true] using due

end Sys2Proof.Claims
end

section
/-! SUPPORT. What each control instruction of a T-core makes of a group that goes past the checks of its issue, case by case (R162 to R165, R383, R384). -/

open Sys2Proof
namespace Sys2Proof.Machine

/-! ### Dispatch -/

theorem exec_exit (core slot : Nat) (w0 w1 : BitVec 64) (s : State) : exec (.exit core slot w0 w1) s = execExit core slot w0 w1 s := rfl
theorem exec_bra (core slot : Nat) (w0 w1 : BitVec 64) (s : State) : exec (.bra core slot w0 w1) s = execBra core slot w0 w1 s := rfl
theorem exec_join (core slot : Nat) (w0 w1 : BitVec 64) (s : State) : exec (.join core slot w0 w1) s = execJoin core slot w0 w1 s := rfl
theorem exec_call (core slot : Nat) (w0 w1 : BitVec 64) (s : State) : exec (.call core slot w0 w1) s = execCall core slot w0 w1 s := rfl
theorem exec_jmpr (core slot : Nat) (w0 w1 : BitVec 64) (s : State) : exec (.jmpr core slot w0 w1) s = execJmpr core slot w0 w1 s := rfl
theorem exec_trap (core slot : Nat) (w0 w1 : BitVec 64) (s : State) : exec (.trap core slot w0 w1) s = execTrap core slot w0 w1 s := rfl

/-! ### Outcomes that change one group -/

theorem State.exists_groupTo {s : State} {core slot : Nat} {g : TGroup} {o : Host.Outcome State Fault Refusal}
    (h : o = .next ((s.issuedOn core).setTgroup core slot (some g))) : ∃ t, o = .next t ∧ s.GroupTo t core slot g :=
  ⟨_, h, s.setTgroup_groupTo core slot g⟩

theorem State.exists_groupStep {s : State} {core slot words : Nat} {g : TGroup} {o : Host.Outcome State Fault Refusal}
    (h : o = .next ((s.issuedOn core).advance core slot words g)) : ∃ t, o = .next t ∧ s.GroupStep t core slot words g :=
  ⟨_, h, s.advance_groupStep core slot words g⟩

/-- A popped mask with a live lane ends the popping (R165). -/
theorem popUntil_of_ne_zero (live : Nat) (st : List DivEnt) (pc : Nat) {act : Nat} (h : act ≠ 0) : popUntil live st pc act = (st, pc, act) := by
  cases st with
  | nil => rfl
  | cons e r => exact if_neg (fun c => h c.1)

/-- The active lanes whose register pair differs from that of the lowest active lane. -/
def TGroup.strays (g : TGroup) (r : Nat) : Nat :=
  maskOf ((maskBits 32 g.active).filter (fun l => g.rd l r 2 != g.rd g.lowest r 2))

theorem TGroup.strays_eq_zero {g : TGroup} {r a : Nat} (h : ∀ l ∈ g.lowest :: maskBits 32 g.active, g.rd l r 2 = a) : g.strays r = 0 := by
  have empty : (maskBits 32 g.active).filter (fun l => g.rd l r 2 != g.rd g.lowest r 2) = [] := by
    refine List.filter_eq_nil_iff.mpr (fun l hl => ?_)
    simp only [h l (List.mem_cons_of_mem _ hl), h _ List.mem_cons_self, bne_self_eq_false, Bool.false_eq_true, not_false_eq_true]
  rw [TGroup.strays, empty, maskOf]

section
variable {core slot : Nat} {w0 : BitVec 64} (w1 : BitVec 64) {s : State} {b : TBlock} {g : TGroup}

/-! ### BRA -/

theorem exec_bra_uniform (h : s.Issues core slot 0x02 w0 { words := 2 } b g) (all : maskOf (g.acting w0) = g.active) :
    exec (.bra core slot w0 w1) s =
      .next ((s.issuedOn core).setTgroup core slot (some { g with pc := branchTo g.pc (fImm32 w1) })) := by
  rw [exec_bra, execBra, State.issue_of_issues h]
  simp only [all, if_true]

theorem exec_bra_notTaken (h : s.Issues core slot 0x02 w0 { words := 2 } b g) (notAll : maskOf (g.acting w0) ≠ g.active)
    (isNone : maskOf (g.acting w0) = 0) :
    exec (.bra core slot w0 w1) s = .next ((s.issuedOn core).setTgroup core slot (some { g with pc := (g.pc + 16) % 2 ^ 57 })) := by
  rw [exec_bra, execBra, State.issue_of_issues h]
  simp only [if_neg notAll, if_pos isNone]

theorem exec_bra_divergent (h : s.Issues core slot 0x02 w0 { words := 2 } b g) (notAll : maskOf (g.acting w0) ≠ g.active)
    (notNone : maskOf (g.acting w0) ≠ 0) (depth : g.stack.length ≤ 30) :
    exec (.bra core slot w0 w1) s = .next ((s.issuedOn core).setTgroup core slot (some { g with
      stack := { pc := (g.pc + 16) % 2 ^ 57, mask := g.active - maskOf (g.acting w0), join := branchTo g.pc (fExt w1) } ::
        { pc := (branchTo g.pc (fExt w1) + 8) % 2 ^ 57, mask := g.active, join := branchTo g.pc (fExt w1) } :: g.stack
      active := maskOf (g.acting w0), pc := branchTo g.pc (fImm32 w1) })) := by
  rw [exec_bra, execBra, State.issue_of_issues h]
  simp only [if_neg notAll, if_neg notNone, if_neg (show ¬ 31 ≤ g.stack.length by omega)]

theorem exec_bra_overflow (h : s.Issues core slot 0x02 w0 { words := 2 } b g) (notAll : maskOf (g.acting w0) ≠ g.active)
    (notNone : maskOf (g.acting w0) ≠ 0) (depth : 31 ≤ g.stack.length) :
    exec (.bra core slot w0 w1) s = .next ((s.issuedOn core).preciseFault core slot 0x0406 g.active 0 []) := by
  rw [exec_bra, execBra, State.issue_of_issues h]
  simp only [if_neg notAll, if_neg notNone, if_pos depth]

/-! ### JOIN -/

theorem exec_join_elsewhere (h : s.Issues core slot 0x03 w0 { group := true } b g) (away : ∀ e r, g.stack = e :: r → e.join ≠ g.pc) :
    exec (.join core slot w0 w1) s = .next ((s.issuedOn core).advance core slot 1 g) := by
  rw [exec_join, execJoin, State.issue_of_issues h]
  cases hs : g.stack with
  | nil => rfl
  | cons e r => simp only [if_neg (away e r hs)]

theorem exec_join_pop {e : DivEnt} {r : List DivEnt} (h : s.Issues core slot 0x03 w0 { group := true } b g) (top : g.stack = e :: r)
    (here : e.join = g.pc) :
    exec (.join core slot w0 w1) s = .next ((s.issuedOn core).setTgroup core slot (some
      (let p := popUntil g.live r e.pc (Nat.land e.mask g.live)
       { g with stack := p.1, pc := p.2.1, active := p.2.2 }))) := by
  rw [exec_join, execJoin, State.issue_of_issues h]
  simp only [top, if_pos here]

/-! ### CALL -/

/-- The group after CALL has written the return address to pair D of its active lanes. -/
def TGroup.linked (g : TGroup) (w0 : BitVec 64) : TGroup :=
  (maskBits 32 g.active).foldl (fun h l => h.wr l (fD w0) (g.pc + 16) 2) g

theorem TGroup.linked_writes (g : TGroup) (w0 : BitVec 64) :
    g.Writes (g.linked w0) (maskBits 32 g.active) (fD w0) 2 (fun _ => g.pc + 16) ∧
      g.linked w0 = { g with regs := (g.linked w0).regs, pend := (g.linked w0).pend } :=
  g.foldl_wr_writes (fD w0) 2 (fun _ => g.pc + 16) (maskBits 32 g.active) (maskBits_nodup 32 g.active) (fun _ => maskBits_lt)

theorem exec_call_link (h : s.Issues core slot 0x04 w0 { words := 2, group := true, regs := [(fD w0, 2)], dst := 1 } b g) :
    exec (.call core slot w0 w1) s =
      .next ((s.issuedOn core).setTgroup core slot (some { g.linked w0 with pc := branchTo g.pc (fImm32 w1) })) := by
  rw [exec_call, execCall, State.issue_of_issues h]
  rfl

/-! ### JMPR -/

theorem exec_jmpr_divergent (h : s.Issues core slot 0x05 w0 { group := true, regs := [(fA w0, 2)] } b g) (differ : g.strays (fA w0) ≠ 0) :
    exec (.jmpr core slot w0 w1) s =
      .next ((s.issuedOn core).preciseFault core slot 0x0803 (g.strays (fA w0)) 0 (detailOf [(52, 4, g.strays (fA w0))])) := by
  have raises : (!(g.strays (fA w0) == 0)) = true := by simpa using differ
  rw [exec_jmpr, execJmpr, State.issue_of_issues h]
  exact congrArg Host.Outcome.next (if_pos raises)

/-- Where the active lanes hold one address, JMPR goes there, or faults where it is not a multiple of 8. -/
theorem exec_jmpr_agreed {a : Nat} (h : s.Issues core slot 0x05 w0 { group := true, regs := [(fA w0, 2)] } b g)
    (agree : ∀ l ∈ g.lowest :: maskBits 32 g.active, g.rd l (fA w0) 2 = a) :
    exec (.jmpr core slot w0 w1) s = .next (if a % 8 = 0 then (s.issuedOn core).setTgroup core slot (some { g with pc := a })
      else (s.issuedOn core).preciseFault core slot 0x0404 g.active a (detailOf [(52, 1, 8)])) := by
  have one : maskOf ((maskBits 32 g.active).filter (fun l => !(g.rd l (fA w0) 2 == a))) = 0 := by
    rw [← agree _ List.mem_cons_self]
    exact TGroup.strays_eq_zero agree
  rw [exec_jmpr, execJmpr, State.issue_of_issues h]
  simp only [agree _ List.mem_cons_self, one]
  by_cases aligned : a % 8 = 0 <;> simp [aligned]

/-! ### TRAP and EXIT -/

theorem exec_trap_idle (h : s.Issues core slot 0x06 w0 { imm := true, bad := !fBI w0 } b g) (idle : g.acting w0 = []) :
    exec (.trap core slot w0 w1) s = .next ((s.issuedOn core).advance core slot 1 g) := by
  rw [exec_trap, execTrap, State.issue_of_issues h]
  simp only [idle, List.isEmpty_nil, if_true]

theorem exec_trap_fault (h : s.Issues core slot 0x06 w0 { imm := true, bad := !fBI w0 } b g) (acts : g.acting w0 ≠ []) :
    exec (.trap core slot w0 w1) s = .next ((s.issuedOn core).preciseFault core slot 0x040A (maskOf (g.acting w0)) 0
      (detailOf [(52, 4, ofSigned 32 (fImm16 w0))])) := by
  rw [exec_trap, execTrap, State.issue_of_issues h]
  simp only [List.isEmpty_eq_false_iff.mpr acts, Bool.false_eq_true, if_false]

theorem exec_exit_lanes (h : s.Issues core slot 0x01 w0 {} b g) :
    exec (.exit core slot w0 w1) s = .next ((s.issuedOn core).exitLanes core slot b g (g.acting w0)) := by
  rw [exec_exit, execExit, State.issue_of_issues h]

end

end Sys2Proof.Machine
end

section
/-! The family of T-core execution: statements about the control instructions. -/

open Sys2Proof Sys2Proof.Machine
namespace Sys2Proof.Claims

/-- Settles O6: each case of each control instruction has its own outcome; a changed group is the only change, and CALL's link is a write of pair D. -/
theorem tCoreControlFlow : Obligations.TCoreControlFlow := by
  intro core slot w0 w1 s b g t0 taken at' next2
  refine ⟨?braUniform, ?braNotTaken, ?braDivergent, ?braOverflow, ?joinElsewhere, ?joinLive, ?joinPop, ?call, ?jmprAligned, ?jmprMisaligned,
    ?jmprDivergent, ?trapIdle, ?trapFault, ?exit⟩
  case braUniform => exact fun h all => State.exists_groupTo (exec_bra_uniform w1 h all)
  case braNotTaken => exact fun h notAll isNone => State.exists_groupTo (exec_bra_notTaken w1 h notAll isNone)
  case braDivergent => exact fun h notAll notNone depth => State.exists_groupTo (exec_bra_divergent w1 h notAll notNone depth)
  case braOverflow => exact fun h notAll notNone depth => exec_bra_overflow w1 h notAll notNone depth
  case joinElsewhere => exact fun h away => State.exists_groupStep (exec_join_elsewhere w1 h away)
  case joinLive =>
    intro e r h top here live
    have pop := exec_join_pop w1 h top here
    rw [popUntil_of_ne_zero g.live r e.pc live] at pop
    exact State.exists_groupTo pop
  case joinPop => exact fun e r h top here => State.exists_groupTo (exec_join_pop w1 h top here)
  case call =>
    intro h
    obtain ⟨t, run, lands⟩ := State.exists_groupTo (exec_call_link w1 h)
    obtain ⟨writes, rest⟩ := g.linked_writes w0
    exact ⟨t, g.linked w0, run, lands, rest, writes⟩
  case jmprAligned =>
    intro a h agree aligned
    exact State.exists_groupTo ((exec_jmpr_agreed w1 h agree).trans (by rw [if_pos aligned]))
  case jmprMisaligned =>
    intro a h agree misaligned
    exact (exec_jmpr_agreed w1 h agree).trans (by rw [if_neg misaligned])
  case jmprDivergent => exact fun h differ => exec_jmpr_divergent w1 h differ
  case trapIdle => exact fun h idle => State.exists_groupStep (exec_trap_idle w1 h idle)
  case trapFault => exact fun h acts => exec_trap_fault w1 h acts
  case exit => exact fun h => exec_exit_lanes w1 h

end Sys2Proof.Claims
end

section
/-! SUPPORT. What a T-core instruction that acts lane by lane makes of its group, by what it does in one lane: a write of D (R372, R154), a write
of a predicate, and flags joined into the lane's (R379). -/

open Sys2Proof
namespace Sys2Proof.Machine

/-! ### Flags of a lane -/

@[simp] theorem TGroup.wr_flags (g : TGroup) (l r v n : Nat) : (g.wr l r v n).flags = g.flags := by
  rw [g.wr_rest l r v n]

theorem TGroup.flags_setFlags_twice (g : TGroup) (l x y l' : Nat) :
    kvGet (fun _ => 0) ((g.setFlags l x).setFlags l y).flags l' =
      if l' = l then Nat.lor (kvGet (fun _ => 0) g.flags l) (Nat.lor x y) else kvGet (fun _ => 0) g.flags l' := by
  rw [TGroup.flags_setFlags, TGroup.flags_setFlags, TGroup.flags_setFlags, if_pos rfl]
  split
  case isTrue => exact Nat.lor_assoc _ x y
  case isFalse => rfl

/-- Setting the flags of each listed lane leaves those of the other lanes, and everything but flags, as they were. -/
theorem TGroup.foldl_kvSet_flags (g : TGroup) (val : Nat → Nat) (lanes : List Nat) :
    (∀ l, kvGet (fun _ => 0) (lanes.foldl (fun h l => { h with flags := kvSet (fun _ => 0) h.flags l (val l) }) g).flags l =
      if l ∈ lanes then val l else kvGet (fun _ => 0) g.flags l) ∧
    ∃ F, lanes.foldl (fun h l => { h with flags := kvSet (fun _ => 0) h.flags l (val l) }) g = { g with flags := F } := by
  induction lanes generalizing g with
  | nil => exact ⟨fun _ => rfl, g.flags, rfl⟩
  | cons a ls ih =>
    obtain ⟨read, F, rest⟩ := ih { g with flags := kvSet (fun _ => 0) g.flags a (val a) }
    refine ⟨fun l => ?_, F, rest⟩
    rw [List.foldl_cons, read, kvGet_set]
    by_cases e : l = a <;> simp [e]

/-! ### One outcome for each kind of effect in a lane -/

section
variable {core slot opc : Nat} {w0 : BitVec 64} {s : State} {f : OpForm} {b : TBlock} {g : TGroup} {op : TBlock → TGroup → Nat → TGroup → TGroup}

/-- An instruction that in each acting lane writes D, of `n` registers, changes registers alone. -/
theorem State.lanesOp_writes (hi : s.Issues core slot opc w0 f b g) (d n : Nat) (val : Nat → Nat)
    (lane : ∀ k l, op b g l k = k.wr l d (val l) n) :
    ∃ (t : State) (h : TGroup), (.next (s.lanesOp core slot opc w0 f op) : Host.Outcome State Fault Refusal) = .next t ∧
      s.GroupStep t core slot f.words h ∧ h = { g with regs := h.regs, pend := h.pend } ∧ g.Writes h (g.acting w0) d n val := by
  obtain ⟨writes, rest⟩ := g.foldl_wr_writes d n val (g.acting w0) (g.acting_nodup w0) (fun _ => TGroup.acting_lt)
  rw [State.lanesOp_of_issues hi]
  simp only [lane]
  exact ⟨_, _, rfl, s.advance_groupStep core slot f.words _, rest, writes⟩

/-- An instruction that in each acting lane writes a predicate changes predicates alone. -/
theorem State.lanesOp_writesPred (hi : s.Issues core slot opc w0 f b g) (p : Nat) (val : Nat → Bool)
    (lane : ∀ k l, op b g l k = k.setPred l p (val l)) :
    ∃ (t : State) (h : TGroup), (.next (s.lanesOp core slot opc w0 f op) : Host.Outcome State Fault Refusal) = .next t ∧
      s.GroupStep t core slot f.words h ∧ h = { g with preds := h.preds, pend := h.pend } ∧ g.WritesPred h (g.acting w0) p val := by
  obtain ⟨writes, P, N, rest⟩ := g.foldl_setPred_writes p val (g.acting w0)
  rw [State.lanesOp_of_issues hi]
  simp only [lane]
  exact ⟨_, _, rfl, s.advance_groupStep core slot f.words _, by rw [rest], writes⟩

/-- An instruction that in each acting lane writes D and joins flags changes registers and flags alone. -/
theorem State.lanesOp_writes_joins (hi : s.Issues core slot opc w0 f b g) (d n : Nat) (val fl : Nat → Nat)
    (lane : ∀ k l, ∃ F, op b g l k = { k.wr l d (val l) n with flags := F })
    (joins : ∀ k l l', kvGet (fun _ => 0) (op b g l k).flags l' =
      if l' = l then Nat.lor (kvGet (fun _ => 0) k.flags l) (fl l) else kvGet (fun _ => 0) k.flags l') :
    ∃ (t : State) (h : TGroup), (.next (s.lanesOp core slot opc w0 f op) : Host.Outcome State Fault Refusal) = .next t ∧
      s.GroupStep t core slot f.words h ∧ h = { g with regs := h.regs, pend := h.pend, flags := h.flags } ∧
      g.Writes h (g.acting w0) d n val ∧ g.JoinsFlags h (g.acting w0) fl := by
  obtain ⟨writes, -⟩ := g.foldl_wr_writes d n val (g.acting w0) (g.acting_nodup w0) (fun _ => TGroup.acting_lt)
  obtain ⟨regs, pend, R, P, F, rest⟩ := g.foldl_wr_flags d n val (fun k l => op b g l k) lane (g.acting w0)
  rw [State.lanesOp_of_issues hi]
  exact ⟨_, _, rfl, s.advance_groupStep core slot f.words _, by rw [rest], writes.congr regs pend,
    g.foldl_joins (fun k l => op b g l k) fl joins (g.acting w0) (g.acting_nodup w0)⟩

end

/-! ### Lane floating point -/

/-- Only a format of 16 bits has a high half (R379). -/
theorem dbl_eq_false_of_isX2 {dbl : Bool} {w0 : BitVec 64} (h : isX2 dbl w0 = true) : dbl = false := by
  cases dbl
  case false => rfl
  case true => exact absurd h Bool.false_ne_true

/-- What one lane of a floating-point instruction writes to D and joins into its flags, by whether the instruction acts on the high half (R379). -/
theorem State.fpOp_writes_joins {core slot opc k : Nat} {w0 : BitVec 64} {dbl : Bool} {s : State} {b : TBlock} {g : TGroup}
    (hi : s.Issues core slot opc w0 (fpForm dbl w0 k false) b g) (op : FFmt → FMode → List Nat → FRes) :
    ∃ (t : State) (h : TGroup), (.next (s.fpOp core slot opc w0 dbl k op) : Host.Outcome State Fault Refusal) = .next t ∧
      s.GroupStep t core slot 1 h ∧ h = { g with regs := h.regs, pend := h.pend, flags := h.flags } ∧
      let res := fun l half => op (laneFmt dbl w0) (laneMode b dbl w0) (g.fpSrcs dbl w0 l half k)
      g.Writes h (g.acting w0) (fD w0) (if dbl then 2 else 1)
        (fun l => if isX2 dbl w0 then (res l 0).bits + 2 ^ 16 * (res l 1).bits else (res l 0).bits) ∧
      g.JoinsFlags h (g.acting w0) (fun l => if isX2 dbl w0 then Nat.lor (res l 0).flags (res l 1).flags else (res l 0).flags) := by
  cases x2 : isX2 dbl w0
  case false =>
    refine State.lanesOp_writes_joins hi _ _ _ _ (fun k l => ?_) (fun k l l' => ?_) <;> simp only [x2, Bool.false_eq_true, if_false]
    · exact ⟨_, rfl⟩
    · rw [TGroup.flags_setFlags, TGroup.wr_flags]
  case true =>
    obtain rfl := dbl_eq_false_of_isX2 x2
    refine State.lanesOp_writes_joins hi _ _ _ _ (fun k l => ?_) (fun k l l' => ?_) <;> simp only [x2, Bool.false_eq_true, if_false, if_true]
    · exact ⟨_, rfl⟩
    · rw [TGroup.flags_setFlags_twice, TGroup.wr_flags]

end Sys2Proof.Machine
end

section
/-! SUPPORT. The moves, S2R and the predicate instructions of a T-core, each by what it does in one lane (R373 to R376, Tables 8.3 and 8.4). -/

open Sys2Proof
namespace Sys2Proof.Machine

/-! ### Dispatch -/

theorem exec_nop (core slot : Nat) (w0 w1 : BitVec 64) (s : State) : exec (.nop core slot w0 w1) s = execNop core slot w0 w1 s := rfl
theorem exec_imad (core slot : Nat) (w0 w1 : BitVec 64) (s : State) : exec (.imad core slot w0 w1) s = execImad core slot w0 w1 s := rfl
theorem exec_mov (core slot : Nat) (w0 w1 : BitVec 64) (s : State) : exec (.mov core slot w0 w1) s = execMov core slot w0 w1 s := rfl
theorem exec_movi (core slot : Nat) (w0 w1 : BitVec 64) (s : State) : exec (.movi core slot w0 w1) s = execMovi core slot w0 w1 s := rfl
theorem exec_sel (core slot : Nat) (w0 w1 : BitVec 64) (s : State) : exec (.sel core slot w0 w1) s = execSel core slot w0 w1 s := rfl
theorem exec_shfl (core slot : Nat) (w0 w1 : BitVec 64) (s : State) : exec (.shfl core slot w0 w1) s = execShfl core slot w0 w1 s := rfl
theorem exec_s2r (core slot : Nat) (w0 w1 : BitVec 64) (s : State) : exec (.s2r core slot w0 w1) s = execS2r core slot w0 w1 s := rfl
theorem exec_flgRd (core slot : Nat) (w0 w1 : BitVec 64) (s : State) : exec (.flgRd core slot w0 w1) s = execFlgRd core slot w0 w1 s := rfl
theorem exec_isetp (core slot : Nat) (w0 w1 : BitVec 64) (s : State) : exec (.isetp core slot w0 w1) s = execIsetp core slot w0 w1 s := rfl
theorem exec_plop (core slot : Nat) (w0 w1 : BitVec 64) (s : State) : exec (.plop core slot w0 w1) s = execPlop core slot w0 w1 s := rfl
theorem exec_vote (core slot : Nat) (w0 w1 : BitVec 64) (s : State) : exec (.vote core slot w0 w1) s = execVote core slot w0 w1 s := rfl
theorem exec_flgClr (core slot : Nat) (w0 w1 : BitVec 64) (s : State) : exec (.flgClr core slot w0 w1) s = execFlgClr core slot w0 w1 s := rfl

/-! ### Writes of one register -/

theorem TGroup.setReg_eq_wr (g : TGroup) (l r v : Nat) : g.setReg l r v = g.wr l r v 1 := rfl

/-- A latch of a high half changes the two latched values alone. -/
theorem State.latchHi_rest (s : State) (core sr : Nat) (g : TGroup) :
    s.latchHi core sr g = { g with clockHi := (s.latchHi core sr g).clockHi, tickHi := (s.latchHi core sr g).tickHi } := by
  unfold State.latchHi
  split <;> rfl

section
variable {core slot : Nat} {w0 : BitVec 64} (w1 : BitVec 64) {s : State} {b : TBlock} {g : TGroup}

/-! ### NOP and S2R -/

theorem exec_nop_advance (h : s.Issues core slot 0x00 w0 {} b g) :
    exec (.nop core slot w0 w1) s = .next ((s.issuedOn core).advance core slot 1 g) := by
  rw [exec_nop, execNop, State.lanesOp_of_issues h, List.foldl_fixed]

/-- The group after S2R: D of each acting lane written, and, where a lane acts, the high half latched that a low half brings with it (R376). -/
def State.s2rGroup (s : State) (core slot : Nat) (w0 : BitVec 64) (b : TBlock) (g : TGroup) : TGroup :=
  let written := (g.acting w0).foldl (fun h l => h.wr l (fD w0) (s.specialReg core slot b g l (fMod w0 51 46)) 1) g
  if (g.acting w0).isEmpty then written else s.latchHi core (fMod w0 51 46) written

theorem exec_s2r_advance
    (h : s.Issues core slot 0x28 w0 { mods := [(51, 46)], regs := [(fD w0, 1)], dst := 1, bad := decide (12 ≤ fMod w0 51 46) } b g) :
    exec (.s2r core slot w0 w1) s = .next ((s.issuedOn core).advance core slot 1 ((s.issuedOn core).s2rGroup core slot w0 b g)) := by
  rw [exec_s2r, execS2r, State.issue_of_issues h]
  rfl

theorem State.s2rGroup_writes (s : State) (core slot : Nat) (w0 : BitVec 64) (b : TBlock) (g : TGroup) :
    g.Writes (s.s2rGroup core slot w0 b g) (g.acting w0) (fD w0) 1 (fun l => s.specialReg core slot b g l (fMod w0 51 46)) ∧
      s.s2rGroup core slot w0 b g = { g with
        regs := (s.s2rGroup core slot w0 b g).regs, pend := (s.s2rGroup core slot w0 b g).pend
        clockHi := (s.s2rGroup core slot w0 b g).clockHi, tickHi := (s.s2rGroup core slot w0 b g).tickHi } := by
  obtain ⟨writes, rest⟩ := g.foldl_wr_writes (fD w0) 1 (fun l => s.specialReg core slot b g l (fMod w0 51 46)) (g.acting w0)
    (g.acting_nodup w0) (fun _ => TGroup.acting_lt)
  unfold State.s2rGroup
  split
  case isTrue => exact ⟨writes, by rw [rest]⟩
  case isFalse =>
    rw [State.latchHi_rest]
    exact ⟨writes.congr rfl rfl, by rw [rest]⟩

/-! ### VOTE -/

theorem exec_vote_any (any : fMod w0 49 48 = 0) :
    exec (.vote core slot w0 w1) s = .next (s.lanesOp core slot 0x27 w0
      { group := true, mods := [(49, 46)], preds := [fD w0, fA w0], pdst := 1, dst := 1 }
      (fun _ g l h => h.setPred l (fD w0) ((maskBits 32 g.active).any (fun k => g.pred k (fA w0))))) := by
  rw [exec_vote, execVote, any]
  rfl

theorem exec_vote_all (all : fMod w0 49 48 = 1) :
    exec (.vote core slot w0 w1) s = .next (s.lanesOp core slot 0x27 w0
      { group := true, mods := [(49, 46)], preds := [fD w0, fA w0], pdst := 1, dst := 1 }
      (fun _ g l h => h.setPred l (fD w0) ((maskBits 32 g.active).all (fun k => g.pred k (fA w0))))) := by
  rw [exec_vote, execVote, all]
  rfl

theorem exec_vote_ballot (ballot : fMod w0 49 48 = 2) :
    exec (.vote core slot w0 w1) s = .next (s.lanesOp core slot 0x27 w0
      { group := true, mods := [(49, 46)], preds := [fA w0], dst := 1, regs := [(fD w0, 1)] }
      (fun _ g l h => h.setReg l (fD w0) (maskOf ((maskBits 32 g.active).filter (fun k => g.pred k (fA w0)))))) := by
  rw [exec_vote, execVote, ballot]
  rfl

/-! ### FLG.CLR -/

/-- The flag state of a lane without the flags of MASK. -/
def TGroup.clearedFlags (g : TGroup) (w0 : BitVec 64) (l : Nat) : Nat :=
  kvGet (fun _ => 0) g.flags l - Nat.land (kvGet (fun _ => 0) g.flags l) (fMod w0 50 46)

theorem exec_flgClr_advance (h : s.Issues core slot 0x2A w0 { mods := [(50, 46)] } b g) :
    exec (.flgClr core slot w0 w1) s = .next ((s.issuedOn core).advance core slot 1
      ((g.acting w0).foldl (fun h l => { h with flags := kvSet (fun _ => 0) h.flags l (g.clearedFlags w0 l) }) g)) := by
  rw [exec_flgClr, execFlgClr, State.lanesOp_of_issues h]
  rfl

end

end Sys2Proof.Machine
end

section
/-! The family of the T-core's instruction set: statements about moves, predicates and lane floating point. -/

open Sys2Proof Sys2Proof.Machine
namespace Sys2Proof.Claims

/-- Settles O2: every instruction but NOP, S2R and FLG.CLR is a write of one register operand, or of one predicate, in each acting lane. -/
theorem tCoreMovesAndPredicates : Obligations.TCoreMovesAndPredicates := by
  constructor <;> intro core slot w0 w1 s b g
  · refine ⟨?nop, ?imad, ?mov, ?movi, ?sel, ?shfl, ?s2r, ?flgRd⟩ <;> intro h
    case nop =>
      obtain ⟨t, run, lands⟩ := State.exists_groupStep (exec_nop_advance w1 h)
      exact ⟨t, g, run, lands, rfl⟩
    case imad =>
      rw [exec_imad]
      exact State.lanesOp_writes h _ _ _ (fun _ _ => rfl)
    case mov =>
      rw [exec_mov]
      exact State.lanesOp_writes h _ _ _ (fun _ _ => rfl)
    case movi =>
      rw [exec_movi]
      exact State.lanesOp_writes h _ _ _ (fun _ _ => rfl)
    case sel =>
      rw [exec_sel]
      exact State.lanesOp_writes h _ _ _ (fun _ _ => rfl)
    case shfl =>
      rw [exec_shfl]
      refine State.lanesOp_writes h _ _ _ (fun _ _ => ?_)
      simp only [Bool.and_eq_true, decide_eq_true_eq, and_assoc]
    case s2r =>
      obtain ⟨t, run, lands⟩ := State.exists_groupStep (exec_s2r_advance w1 h)
      obtain ⟨writes, rest⟩ := (s.issuedOn core).s2rGroup_writes core slot w0 b g
      exact ⟨t, _, run, lands, rest, writes⟩
    case flgRd =>
      rw [exec_flgRd]
      exact State.lanesOp_writes h _ _ _ (fun _ _ => TGroup.setReg_eq_wr ..)
  · refine ⟨?isetp, ?plop, ?voteAny, ?voteAll, ?voteBallot, ?flgClr⟩
    case isetp =>
      intro h
      rw [exec_isetp]
      exact State.lanesOp_writesPred h _ _ (fun _ _ => rfl)
    case plop =>
      intro h
      rw [exec_plop]
      exact State.lanesOp_writesPred h _ _ (fun _ _ => rfl)
    case voteAny =>
      intro mode h
      rw [exec_vote_any w1 mode]
      exact State.lanesOp_writesPred h _ _ (fun _ _ => by rw [List.any_eq])
    case voteAll =>
      intro mode h
      rw [exec_vote_all w1 mode]
      exact State.lanesOp_writesPred h _ _ (fun _ _ => by rw [List.all_eq])
    case voteBallot =>
      intro mode h
      rw [exec_vote_ballot w1 mode]
      exact State.lanesOp_writes h _ _ _ (fun _ _ => TGroup.setReg_eq_wr ..)
    case flgClr =>
      intro h
      obtain ⟨t, run, lands⟩ := State.exists_groupStep (exec_flgClr_advance w1 h)
      obtain ⟨read, F, rest⟩ := g.foldl_kvSet_flags (g.clearedFlags w0) (g.acting w0)
      exact ⟨t, _, run, lands, by rw [rest], read⟩

/-- Every row of Tables 8.5 and 8.6 that writes D runs by one function, from the row's own sources and operation. -/
theorem exec_floatRow {r : FloatRow} (hr : r ∈ floatRows) (core slot : Nat) (w0 w1 : BitVec 64) (s : State) :
    exec (r.instr core slot w0 w1) s = .next (s.fpOp core slot r.opc w0 r.dbl r.srcs r.op) := by
  simp only [floatRows, List.mem_cons, List.not_mem_nil, or_false] at hr
  rcases hr with rfl | rfl | rfl | rfl | rfl | rfl | rfl | rfl | rfl | rfl | rfl | rfl | rfl | rfl | rfl | rfl | rfl | rfl <;> rfl

/-- Settles O3: every row runs by the one function of lane floating point, whose effect in a lane is a write of D and the flags of both halves. -/
theorem tCoreFloatResult : Obligations.TCoreFloatResult := by
  intro r hr core slot w0 w1 s b g h
  rw [exec_floatRow hr]
  exact State.fpOp_writes_joins h r.op

end Sys2Proof.Claims
end

section
/-! SUPPORT. What every command and every step keeps (State.Keeps), from the lemmas about the commands' meanings; and that a map-out programs its
channel's bit (R853). -/

open Sys2Proof
namespace Sys2Proof.Machine

/-- The repair map: is the bit of a stack's channel programmed? -/
def State.burnt (s : State) (stack channel : Nat) : Bool := natBit (kvGet (fun _ => 0) s.boot.repair stack) channel

theorem State.burnt_of_keeps {s t : State} (h : s.Keeps t) {stack channel : Nat} (b : s.burnt stack channel = true) :
    t.burnt stack channel = true := h.repair stack channel b

/-! ### Map-out -/

theorem natBit_two_pow_self (n : Nat) : natBit (2 ^ n) n = true := by
  simp [natBit]

theorem State.noteRepair_burns (s : State) (stack channel : Nat) : (s.noteRepair stack channel).burnt stack channel = true := by
  unfold State.burnt State.noteRepair
  rw [kvGet_set, if_pos rfl, natBit_lor, natBit_two_pow_self, Bool.or_true]

theorem exec_channelMapoutDone (stack channel : Nat) (s : State) :
    exec (.channelMapoutDone stack channel) s = execChannelMapoutDone stack channel s := rfl

/-- A map-out that ends notes its channel and then only writes a record and brings the free counts up to date. -/
theorem execChannelMapoutDone_of_pending {stack channel : Nat} {s : State} (h : s.mem.mapouts.contains (stack, channel) = true) :
    ∃ (u : State) (e : Rec), execChannelMapoutDone stack channel s = .next (((u.noteRepair stack channel).emit e).syncFree) := by
  rw [execChannelMapoutDone, if_pos h]
  exact ⟨_, _, rfl⟩

/-! ### Every command and every step -/

/-- Each row of the opcode table has a meaning of its own, and each meaning keeps what `State.Keeps` names. -/
theorem exec_keeps (c : Instr) {r s : State} (h : r.Keeps s) : KeepsOut r (exec c s) := by
  cases c with
  | registerWrite => exact execRegisterWrite_keeps _ _ _ s h
  | fabBlockSend => exact execFabBlockSend_keeps _ _ _ _ _ _ _ _ s h
  | fabBlockReceive => exact execFabBlockReceive_keeps _ _ s h
  | fabAckTimeout => exact execFabAckTimeout_keeps _ s h
  | fabRetrainDone => exact execFabRetrainDone_keeps _ _ s h
  | fabRetrainTimeout => exact execFabRetrainTimeout_keeps _ s h
  | tickInRisingEdge => exact execTickInRisingEdge_keeps _ s h
  | tickInFallingEdge => exact execTickInFallingEdge_keeps _ s h
  | internalTick => exact execInternalTick_keeps s h
  | tick => exact execTick_keeps s h
  | tickLoss => exact execTickLoss_keeps s h
  | holdoverTick => exact execHoldoverTick_keeps s h
  | syncReq => exact execSyncReq_keeps s h
  | endOfFrame => exact execEndOfFrame_keeps s h
  | barrierWatchdog => exact execBarrierWatchdog_keeps _ _ _ s h
  | snapshotRecordWrite => exact execSnapshotRecordWrite_keeps s h
  | powerCapUpdate => exact execPowerCapUpdate_keeps s h
  | freqChange => exact execFreqChange_keeps s h
  | partialImageApply => exact execPartialImageApply_keeps s h
  | admission => exact execAdmission_keeps s h
  | startGateRegister => exact execStartGateRegister_keeps _ s h
  | startGateOpen => exact execStartGateOpen_keeps _ s h
  | programRetire => exact execProgramRetire_keeps _ s h
  | tckUHaltedClear => exact execTckUHaltedClear_keeps _ s h
  | wardLoadGo => exact execWardLoadGo_keeps s h
  | wardFetchError => exact execWardFetchError_keeps _ s h
  | verificationComplete => exact execVerificationComplete_keeps _ s h
  | wardQuiesce => exact execWardQuiesce_keeps _ s h
  | wardQuiesceCancel => exact execWardQuiesceCancel_keeps _ s h
  | blockDescriptorFetch => exact execBlockDescriptorFetch_keeps _ s h
  | blockLaunch => exact execBlockLaunch_keeps _ _ s h
  | blockComplete => exact execBlockComplete_keeps _ _ s h
  | loadDataReturn => exact execLoadDataReturn_keeps _ _ _ s h
  | storeAck => exact execStoreAck_keeps _ s h
  | homeAccess => exact execHomeAccess_keeps _ _ _ s h
  | tPreempt => exact execTPreempt_keeps _ s h
  | tDrainDone => exact execTDrainDone_keeps _ s h
  | tSaveDone => exact execTSaveDone_keeps _ s h
  | tRestoreDone => exact execTRestoreDone_keeps _ _ _ s h
  | mxeDescAccept => exact execMxeDescAccept_keeps _ _ s h
  | mxeChunkCommit => exact execMxeChunkCommit_keeps _ _ s h
  | mxeDescRetire => exact execMxeDescRetire_keeps _ _ s h
  | vxeDescAccept => exact execVxeDescAccept_keeps _ _ s h
  | vxeDescStart => exact execVxeDescStart_keeps _ _ s h
  | vxeDescComplete => exact execVxeDescComplete_keeps _ _ s h
  | nop _ _ _ w1 => exact execNop_keeps _ _ _ w1 s h
  | iadd _ _ _ w1 => exact execIadd_keeps _ _ _ w1 s h
  | isub _ _ _ w1 => exact execIsub_keeps _ _ _ w1 s h
  | imul _ _ _ w1 => exact execImul_keeps _ _ _ w1 s h
  | imulh _ _ _ w1 => exact execImulh_keeps _ _ _ w1 s h
  | imad _ _ _ w1 => exact execImad_keeps _ _ _ w1 s h
  | imin _ _ _ w1 => exact execImin_keeps _ _ _ w1 s h
  | imax _ _ _ w1 => exact execImax_keeps _ _ _ w1 s h
  | iabs _ _ _ w1 => exact execIabs_keeps _ _ _ w1 s h
  | and _ _ _ w1 => exact execAnd_keeps _ _ _ w1 s h
  | or _ _ _ w1 => exact execOr_keeps _ _ _ w1 s h
  | xor _ _ _ w1 => exact execXor_keeps _ _ _ w1 s h
  | not _ _ _ w1 => exact execNot_keeps _ _ _ w1 s h
  | shl _ _ _ w1 => exact execShl_keeps _ _ _ w1 s h
  | shr _ _ _ w1 => exact execShr_keeps _ _ _ w1 s h
  | sar _ _ _ w1 => exact execSar_keeps _ _ _ w1 s h
  | popc _ _ _ w1 => exact execPopc_keeps _ _ _ w1 s h
  | clz _ _ _ w1 => exact execClz_keeps _ _ _ w1 s h
  | mov _ _ _ w1 => exact execMov_keeps _ _ _ w1 s h
  | movi => exact execMovi_keeps _ _ _ _ s h
  | sel _ _ _ w1 => exact execSel_keeps _ _ _ w1 s h
  | isetp _ _ _ w1 => exact execIsetp_keeps _ _ _ w1 s h
  | plop _ _ _ w1 => exact execPlop_keeps _ _ _ w1 s h
  | shfl _ _ _ w1 => exact execShfl_keeps _ _ _ w1 s h
  | vote _ _ _ w1 => exact execVote_keeps _ _ _ w1 s h
  | s2r _ _ _ w1 => exact execS2r_keeps _ _ _ w1 s h
  | flgRd _ _ _ w1 => exact execFlgRd_keeps _ _ _ w1 s h
  | flgClr _ _ _ w1 => exact execFlgClr_keeps _ _ _ w1 s h
  | fadd _ _ _ w1 => exact execFadd_keeps _ _ _ w1 s h
  | fsub _ _ _ w1 => exact execFsub_keeps _ _ _ w1 s h
  | fmul _ _ _ w1 => exact execFmul_keeps _ _ _ w1 s h
  | ffma _ _ _ w1 => exact execFfma_keeps _ _ _ w1 s h
  | fmin _ _ _ w1 => exact execFmin_keeps _ _ _ w1 s h
  | fmax _ _ _ w1 => exact execFmax_keeps _ _ _ w1 s h
  | fsetp _ _ _ w1 => exact execFsetp_keeps _ _ _ w1 s h
  | frnd _ _ _ w1 => exact execFrnd_keeps _ _ _ w1 s h
  | fdiv _ _ _ w1 => exact execFdiv_keeps _ _ _ w1 s h
  | fsqrt _ _ _ w1 => exact execFsqrt_keeps _ _ _ w1 s h
  | dadd _ _ _ w1 => exact execDadd_keeps _ _ _ w1 s h
  | dsub _ _ _ w1 => exact execDsub_keeps _ _ _ w1 s h
  | dmul _ _ _ w1 => exact execDmul_keeps _ _ _ w1 s h
  | dfma _ _ _ w1 => exact execDfma_keeps _ _ _ w1 s h
  | dmin _ _ _ w1 => exact execDmin_keeps _ _ _ w1 s h
  | dmax _ _ _ w1 => exact execDmax_keeps _ _ _ w1 s h
  | dsetp _ _ _ w1 => exact execDsetp_keeps _ _ _ w1 s h
  | drnd _ _ _ w1 => exact execDrnd_keeps _ _ _ w1 s h
  | ddiv _ _ _ w1 => exact execDdiv_keeps _ _ _ w1 s h
  | dsqrt _ _ _ w1 => exact execDsqrt_keeps _ _ _ w1 s h
  | cvt _ _ _ w1 => exact execCvt_keeps _ _ _ w1 s h
  | exit _ _ _ w1 => exact execExit_keeps _ _ _ w1 s h
  | bra => exact execBra_keeps _ _ _ _ s h
  | join _ _ _ w1 => exact execJoin_keeps _ _ _ w1 s h
  | call => exact execCall_keeps _ _ _ _ s h
  | jmpr _ _ _ w1 => exact execJmpr_keeps _ _ _ w1 s h
  | trap _ _ _ w1 => exact execTrap_keeps _ _ _ w1 s h
  | ldl _ _ _ w1 => exact execLdl_keeps _ _ _ w1 s h
  | stl _ _ _ w1 => exact execStl_keeps _ _ _ w1 s h
  | atoml _ _ _ w1 => exact execAtoml_keeps _ _ _ w1 s h
  | ld => exact execLd_keeps _ _ _ _ s h
  | st => exact execSt_keeps _ _ _ _ s h
  | atom => exact execAtom_keeps _ _ _ _ s h
  | ldc => exact execLdc_keeps _ _ _ _ s h
  | stc => exact execStc_keeps _ _ _ _ s h
  | mxa _ _ _ w1 => exact execMxa_keeps _ _ _ w1 s h
  | vxa _ _ _ w1 => exact execVxa_keeps _ _ _ w1 s h
  | waitq _ _ _ w1 => exact execWaitq_keeps _ _ _ w1 s h
  | accRel _ _ _ w1 => exact execAccRel_keeps _ _ _ w1 s h
  | accRds _ _ _ w1 => exact execAccRds_keeps _ _ _ w1 s h
  | accFclr _ _ _ w1 => exact execAccFclr_keeps _ _ _ w1 s h
  | barSync _ _ _ w1 => exact execBarSync_keeps _ _ _ w1 s h
  | barArv _ _ _ w1 => exact execBarArv_keeps _ _ _ w1 s h
  | fence _ _ _ w1 => exact execFence_keeps _ _ _ w1 s h
  | tmbArv _ _ _ w1 => exact execTmbArv_keeps _ _ _ w1 s h
  | tmbPoll _ _ _ w1 => exact execTmbPoll_keeps _ _ _ w1 s h
  | tmbWait => exact execTmbWait_keeps _ _ _ _ s h
  | tmbTake _ _ _ w1 => exact execTmbTake_keeps _ _ _ w1 s h
  | tmbPut _ _ _ w1 => exact execTmbPut_keeps _ _ _ w1 s h
  | tmbFireNotify => exact execTmbFireNotify_keeps _ s h
  | tmbWaitTimeout => exact execTmbWaitTimeout_keeps _ _ _ s h
  | tmbRefusalReturn => exact execTmbRefusalReturn_keeps _ s h
  | tmbHomeArrive => exact execTmbHomeArrive_keeps _ s h
  | tmbHomePoll => exact execTmbHomePoll_keeps _ s h
  | tmbHomeWait => exact execTmbHomeWait_keeps _ s h
  | tmbHomeTake => exact execTmbHomeTake_keeps _ s h
  | tmbHomePut => exact execTmbHomePut_keeps _ s h
  | tmbCfgWrite => exact execTmbCfgWrite_keeps _ _ s h
  | tmbOpArrive => exact execTmbOpArrive_keeps _ _ s h
  | tmbOpReset => exact execTmbOpReset_keeps _ s h
  | vcoreItemStart => exact execVcoreItemStart_keeps _ _ s h
  | vcoreLoadStore => exact execVcoreLoadStore_keeps _ _ _ s h
  | lr => exact execLr_keeps _ _ _ s h
  | sc => exact execSc_keeps _ _ _ s h
  | amo => exact execAmo_keeps _ _ _ s h
  | vcoreFence => exact execVcoreFence_keeps _ _ s h
  | fenceI => exact execFenceI_keeps _ _ s h
  | sfenceVma => exact execSfenceVma_keeps _ _ s h
  | vcoreTrap => exact execVcoreTrap_keeps _ s h
  | vcoreInterrupt => exact execVcoreInterrupt_keeps _ s h
  | vadd => exact execVadd_keeps _ _ s h
  | vsub => exact execVsub_keeps _ _ s h
  | vmul => exact execVmul_keeps _ _ s h
  | vfma => exact execVfma_keeps _ _ s h
  | vfnms => exact execVfnms_keeps _ _ s h
  | vdiv => exact execVdiv_keeps _ _ s h
  | vsqrt => exact execVsqrt_keeps _ _ s h
  | vmin => exact execVmin_keeps _ _ s h
  | vmax => exact execVmax_keeps _ _ s h
  | vand => exact execVand_keeps _ _ s h
  | vor => exact execVor_keeps _ _ s h
  | vxor => exact execVxor_keeps _ _ s h
  | vsll => exact execVsll_keeps _ _ s h
  | vsrl => exact execVsrl_keeps _ _ s h
  | vsra => exact execVsra_keeps _ _ s h
  | vmerge => exact execVmerge_keeps _ _ s h
  | vcmpeq => exact execVcmpeq_keeps _ _ s h
  | vcmplt => exact execVcmplt_keeps _ _ s h
  | vcmple => exact execVcmple_keeps _ _ s h
  | vredosum => exact execVredosum_keeps _ _ s h
  | vredtsum => exact execVredtsum_keeps _ _ s h
  | vredmax => exact execVredmax_keeps _ _ s h
  | vredmin => exact execVredmin_keeps _ _ s h
  | vslide => exact execVslide_keeps _ _ s h
  | vcvt => exact execVcvt_keeps _ _ s h
  | vmv => exact execVmv_keeps _ _ s h
  | vpopc => exact execVpopc_keeps _ _ s h
  | vfirst => exact execVfirst_keeps _ _ s h
  | vld => exact execVld_keeps _ _ s h
  | vst => exact execVst_keeps _ _ s h
  | vldx => exact execVldx_keeps _ _ s h
  | vstx => exact execVstx_keeps _ _ s h
  | vldc => exact execVldc_keeps _ _ s h
  | vstc => exact execVstc_keeps _ _ s h
  | xslvTranslationDone => exact execXslvTranslationDone_keeps _ s h
  | xslvAccessDone => exact execXslvAccessDone_keeps _ _ s h
  | xmop => exact execXmop_keeps _ _ s h
  | xmzero => exact execXmzero_keeps _ _ s h
  | xmrd => exact execXmrd_keeps _ _ s h
  | xmwr => exact execXmwr_keeps _ _ s h
  | tarv => exact execTarv_keeps _ _ s h
  | tpoll => exact execTpoll_keeps _ _ s h
  | twait => exact execTwait_keeps _ _ s h
  | ttake => exact execTtake_keeps _ _ s h
  | tput => exact execTput_keeps _ _ s h
  | xslitemDone => exact execXslitemDone_keeps _ _ s h
  | xslitemAbort => exact execXslitemAbort_keeps _ _ s h
  | vPreempt => exact execVPreempt_keeps _ s h
  | vSaveDone => exact execVSaveDone_keeps _ s h
  | vRestoreDone => exact execVRestoreDone_keeps _ _ _ s h
  | reductionRetire => exact execReductionRetire_keeps _ s h
  | adviceClear => exact execAdviceClear_keeps _ s h
  | adviceHot => exact execAdviceHot_keeps _ s h
  | adviceCold => exact execAdviceCold_keeps _ s h
  | adviceStream => exact execAdviceStream_keeps _ s h
  | advicePin => exact execAdvicePin_keeps _ s h
  | adviceUnpin => exact execAdviceUnpin_keeps _ s h
  | adviceLeaf => exact execAdviceLeaf_keeps _ s h
  | adviceDead => exact execAdviceDead_keeps _ s h
  | adviceDrop => exact execAdviceDrop_keeps _ s h
  | adviceClass => exact execAdviceClass_keeps _ s h
  | migrationBlockCopy => exact execMigrationBlockCopy_keeps _ s h
  | regulatorWindow => exact execRegulatorWindow_keeps _ s h
  | saturationWindow => exact execSaturationWindow_keeps s h
  | hbmLineRead => exact execHbmLineRead_keeps _ _ _ _ s h
  | patrolScrub => exact execPatrolScrub_keeps _ _ _ _ s h
  | memMapoutGo => exact execMemMapoutGo_keeps _ _ s h
  | channelMapoutDone => exact execChannelMapoutDone_keeps _ _ s h
  | rds => exact execRds_keeps _ _ _ s h
  | rdx => exact execRdx_keeps _ _ _ s h
  | upg => exact execUpg_keeps _ _ s h
  | wbd => exact execWbd_keeps _ _ s h
  | evc => exact execEvc_keeps _ _ s h
  | snps => exact execSnps_keeps _ _ s h
  | snpw => exact execSnpw_keeps _ _ s h
  | snpi => exact execSnpi_keeps _ _ s h
  | inv => exact execInv_keeps _ _ s h
  | snoopReply => exact execSnoopReply_keeps _ _ s h
  | grant => exact execGrant_keeps _ _ s h
  | holdEnd => exact execHoldEnd_keeps _ _ s h
  | snoopTimeout => exact execSnoopTimeout_keeps _ s h
  | cohKillCore => exact execCohKillCore_keeps _ s h
  | cohKillDie => exact execCohKillDie_keeps _ s h
  | reclaimWalkDone => exact execReclaimWalkDone_keeps s h
  | rangeWalkDone => exact execRangeWalkDone_keeps _ _ s h
  | faultRecordFlush => exact execFaultRecordFlush_keeps _ s h
  | xltResumeGo => exact execXltResumeGo_keeps _ s h
  | xltResumeAbort => exact execXltResumeAbort_keeps _ s h
  | copyHoldExpire => exact execCopyHoldExpire_keeps _ s h
  | invalAck => exact execInvalAck_keeps _ _ s h
  | xltRdIdxWrite => exact execXltRdIdxWrite_keeps _ s h
  | doorbellSqtail => exact execDoorbellSqtail_keeps _ _ _ s h
  | doorbellCqhead => exact execDoorbellCqhead_keeps _ _ _ s h
  | queueEnable => exact execQueueEnable_keeps _ _ _ s h
  | queueDisable => exact execQueueDisable_keeps _ _ _ s h
  | commandFetch => exact execCommandFetch_keeps _ _ s h
  | nopCommand => exact execNopCommand_keeps _ s h
  | launch => exact execLaunch_keeps _ s h
  | copy => exact execCopy_keeps _ s h
  | copyBlock => exact execCopyBlock_keeps _ _ _ _ s h
  | copyWaitTimeout => exact execCopyWaitTimeout_keeps _ s h
  | flushReadComplete => exact execFlushReadComplete_keeps _ s h
  | inline => exact execInline_keeps _ s h
  | tumblerArrive => exact execTumblerArrive_keeps _ s h
  | tumblerPoll => exact execTumblerPoll_keeps _ s h
  | tumblerWait => exact execTumblerWait_keeps _ s h
  | tumblerWaitTmo => exact execTumblerWaitTmo_keeps _ s h
  | tumblerTake => exact execTumblerTake_keeps _ s h
  | tumblerPut => exact execTumblerPut_keeps _ s h
  | tumblerReset => exact execTumblerReset_keeps _ s h
  | fenceCommand => exact execFenceCommand_keeps _ s h
  | map => exact execMap_keeps _ s h
  | unmap => exact execUnmap_keeps _ s h
  | prefetch => exact execPrefetch_keeps _ s h
  | winOpen => exact execWinOpen_keeps _ s h
  | winClose => exact execWinClose_keeps _ s h
  | wardLoad => exact execWardLoad_keeps _ s h
  | wardQuiesceCommand => exact execWardQuiesceCommand_keeps _ s h
  | vfFlr => exact execVfFlr_keeps _ s h
  | portTrained => exact execPortTrained_keeps _ _ s h
  | hello => exact execHello_keeps _ _ s h
  | pintleBlockSend => exact execPintleBlockSend_keeps _ _ s h
  | pintleBlockReceive => exact execPintleBlockReceive_keeps _ _ s h
  | pintleAckTimeout => exact execPintleAckTimeout_keeps _ s h
  | pintleRetrainDone => exact execPintleRetrainDone_keeps _ _ s h
  | portDownTimeout => exact execPortDownTimeout_keeps _ s h
  | portRetrainRetry => exact execPortRetrainRetry_keeps _ s h
  | ptlRetrainReq => exact execPtlRetrainReq_keeps _ _ s h
  | addressMapWrite => exact execAddressMapWrite_keeps _ _ _ s h
  | pairKeyDerived => exact execPairKeyDerived_keeps _ _ s h
  | read => exact execRead_keeps _ s h
  | write => exact execWrite_keeps _ s h
  | atomic => exact execAtomic_keeps _ s h
  | reduce => exact execReduce_keeps _ s h
  | arrive => exact execArrive_keeps _ s h
  | rdData => exact execRdData_keeps _ s h
  | atomicData => exact execAtomicData_keeps _ s h
  | ack => exact execAck_keeps _ s h
  | refuse => exact execRefuse_keeps _ s h
  | responseTimeout => exact execResponseTimeout_keeps _ s h
  | powerWindow => exact execPowerWindow_keeps _ s h
  | avsConfirm => exact execAvsConfirm_keeps _ s h
  | voltRaiseTimeout => exact execVoltRaiseTimeout_keeps _ s h
  | droopDetect => exact execDroopDetect_keeps _ s h
  | droopResponseEnd => exact execDroopResponseEnd_keeps _ s h
  | thermalSample => exact execThermalSample_keeps _ s h
  | pwrBrakeAssert => exact execPwrBrakeAssert_keeps s h
  | arbCommit => exact execArbCommit_keeps _ s h
  | release => exact execRelease_keeps _ _ s h
  | sealedLoad => exact execSealedLoad_keeps _ s h
  | sealedLoadChunk => exact execSealedLoadChunk_keeps _ _ s h
  | drop => exact execDrop_keeps _ s h
  | kwyErase => exact execKwyErase_keeps _ s h
  | getVersion => exact execGetVersion_keeps _ _ _ s h
  | getCapabilities => exact execGetCapabilities_keeps _ _ _ s h
  | negotiateAlgorithms => exact execNegotiateAlgorithms_keeps _ _ _ s h
  | getDigests => exact execGetDigests_keeps _ _ _ s h
  | getCertificate => exact execGetCertificate_keeps _ _ _ s h
  | challenge => exact execChallenge_keeps _ _ _ s h
  | getMeasurements => exact execGetMeasurements_keeps _ _ _ s h
  | keyExchange => exact execKeyExchange_keeps _ _ _ s h
  | finish => exact execFinish_keeps _ _ _ s h
  | heartbeat => exact execHeartbeat_keeps _ _ _ s h
  | keyUpdate => exact execKeyUpdate_keeps _ _ _ s h
  | endSession => exact execEndSession_keeps _ _ _ s h
  | coldStart => exact execColdStart_keeps _ _ _ _ _ s h
  | warmStart => exact execWarmStart_keeps _ _ s h
  | warmGo => exact execWarmGo_keeps _ _ _ s h
  | pwrokDeassert => exact execPwrokDeassert_keeps s h
  | fwPushGo => exact execFwPushGo_keeps _ s h
  | fwCheckDone => exact execFwCheckDone_keeps _ s h
  | wardenWatchdog => exact execWardenWatchdog_keeps _ s h
  | setEndpointId => exact execSetEndpointId_keeps _ _ s h
  | getEndpointId => exact execGetEndpointId_keeps _ s h
  | getEndpointUuid => exact execGetEndpointUuid_keeps _ s h
  | getMctpVersionSupport => exact execGetMctpVersionSupport_keeps _ s h
  | getMessageTypeSupport => exact execGetMessageTypeSupport_keeps _ s h
  | getVendorDefinedMessageSupport => exact execGetVendorDefinedMessageSupport_keeps _ s h
  | prepareForEndpointDiscovery => exact execPrepareForEndpointDiscovery_keeps _ s h
  | endpointDiscovery => exact execEndpointDiscovery_keeps _ s h
  | discoveryNotify => exact execDiscoveryNotify_keeps _ s h
  | pldmRequest => exact execPldmRequest_keeps _ _ _ _ s h
  | getStatus => exact execGetStatus_keeps _ s h
  | evRead => exact execEvRead_keeps _ _ s h
  | bbInfo => exact execBbInfo_keeps _ s h
  | bbRead => exact execBbRead_keeps _ _ s h
  | capSet => exact execCapSet_keeps _ _ _ s h
  | kill => exact execKill_keeps _ _ _ s h
  | alertAck => exact execAlertAck_keeps _ s h
  | mgtAlertWrite => exact execMgtAlertWrite_keeps _ s h
  | bbEntryProgram => exact execBbEntryProgram_keeps s h
  | bbSectorErase => exact execBbSectorErase_keeps s h
  | bbRdIdxWrite => exact execBbRdIdxWrite_keeps _ s h
  | bbRdLatchDone => exact execBbRdLatchDone_keeps s h
  | tickTimerExpire => exact execTickTimerExpire_keeps _ s h
  | mfpInputEdge => exact execMfpInputEdge_keeps _ _ s h
  | pwrBrakeDeassert => exact execPwrBrakeDeassert_keeps s h
  | pwrokAssert => exact execPwrokAssert_keeps s h
  | perstNAssert => exact execPerstNAssert_keeps s h
  | hostWaitFired => exact execHostWaitFired_keeps _ s h
  | waitRegistrationReserved => exact execWaitRegistrationReserved_keeps _ s h
  | hostCompletionTimeout => exact execHostCompletionTimeout_keeps _ _ s h
  | writebackAck => exact execWritebackAck_keeps _ _ s h
  | vcoreBaseInstruction => exact execVcoreBaseInstruction_keeps _ _ _ s h
  | vcoreCsrAccess => exact execVcoreCsrAccess_keeps _ _ s h
  | mapComplete => exact execMapComplete_keeps _ s h
  | pcieConfigWrite => exact execPcieConfigWrite_keeps _ _ _ s h
  | jtagTckEdge => exact execJtagTckEdge_keeps _ _ _ _ s h

/-- A step keeps what `State.Keeps` names, of the state whose queue has lost its front. -/
theorem step_keeps (s : State) : KeepsOut { s with pending := s.pending.tail } (step s) := by
  unfold step
  cases hq : s.pending with
  | nil =>
    have same : { s with pending := [] } = s := by rw [← hq]
    exact keeps_next (State.idle_keeps s (same ▸ .refl _))
  | cons c rest => exact exec_keeps c (.refl _)

theorem State.keeps_of_step {s t : State} (h : step s = .next t) : State.Keeps { s with pending := s.pending.tail } t := by
  obtain ⟨u, run, keeps⟩ := (step_keeps s).out
  rw [h] at run
  cases run
  exact keeps

end Sys2Proof.Machine
end

section
/-! The family of start and record: statements about what the fuses hold. -/

open Sys2Proof Sys2Proof.Machine
namespace Sys2Proof.Claims

/-- Settles O60: the map-out's bit is noted before the last two operations of its command, and no operation of the model takes a bit or a version back. -/
theorem fusesArePermanent : Obligations.FusesArePermanent := by
  refine ⟨fun stack channel s pending => ?mapout, fun s t run => ?step⟩
  case mapout =>
    obtain ⟨u, e, run⟩ := execChannelMapoutDone_of_pending pending
    refine ⟨_, (exec_channelMapoutDone stack channel s).trans run, ?_⟩
    have after : (u.noteRepair stack channel).Keeps ((u.noteRepair stack channel).emit e).syncFree :=
      State.syncFree_keeps _ (State.emit_keeps _ _ (.refl _))
    exact State.burnt_of_keeps after (u.noteRepair_burns stack channel)
  case step =>
    have keeps := State.keeps_of_step run
    exact ⟨keeps.fusedSvn, fun k n => State.burnt_of_keeps keeps⟩

end Sys2Proof.Claims
end

section
/-! The family of the machine as a whole: statements about every step, every command and the state after reset. -/

open Sys2Proof Sys2Proof.Machine
namespace Sys2Proof.Claims

/-- Settles O58: every command's meaning keeps what `State.Keeps` names, and a step is a command or one idle cycle. -/
theorem stepKeepsCanonicalForm : Obligations.StepKeepsCanonicalForm := by
  intro s
  obtain ⟨t, run, keeps⟩ := (step_keeps s).out
  exact ⟨t, run, keeps.memWf, keeps.pending, keeps.now⟩

/-- Settles O59: each row of the opcode table answers a next state that keeps the queue and the index of free values. -/
theorem noCommandStops : Obligations.NoCommandStops := by
  intro c s
  obtain ⟨t, run, keeps⟩ := (exec_keeps c (.refl s)).out
  exact ⟨t, run, keeps.pending, keeps.freeCtr⟩

/-- Settles O56: the two cases of the queue are the two cases of `step`. -/
theorem stepRunsTheFrontCommand : Obligations.StepRunsTheFrontCommand := by
  refine ⟨fun c r s => rfl, fun s empty => ?_⟩
  rw [step, empty]

/-- Settles O57: every value of the tables is a finite fact; an address of no row reads 0. -/
theorem resetState : Obligations.ResetState := by
  refine ⟨?_, ?_, ?_, ?_, ?_, ?_⟩
  · decide +kernel
  · intro a h
    simp [State.reg, State.reset, kvGet, regReset, h]
  · decide +kernel
  · rfl
  · rfl
  · intro k n
    simp [State.reset, kvGet, natBit]

end Sys2Proof.Claims
end

section
/-! SUPPORT. Comparisons and conversions of a T-core, lane by lane (R379, R380, R382). -/

open Sys2Proof
namespace Sys2Proof.Machine

theorem exec_fsetp (core slot : Nat) (w0 w1 : BitVec 64) (s : State) : exec (.fsetp core slot w0 w1) s = .next (s.fpCmp core slot 0x36 w0 false) := rfl
theorem exec_dsetp (core slot : Nat) (w0 w1 : BitVec 64) (s : State) : exec (.dsetp core slot w0 w1) s = .next (s.fpCmp core slot 0x46 w0 true) := rfl
theorem exec_cvt (core slot : Nat) (w0 w1 : BitVec 64) (s : State) : exec (.cvt core slot w0 w1) s = execCvt core slot w0 w1 s := rfl

@[simp] theorem TGroup.setPred_flags (g : TGroup) (l p : Nat) (b : Bool) : (g.setPred l p b).flags = g.flags := by
  unfold TGroup.setPred
  split <;> rfl

/-- What a comparison writes into its predicate: the result of the low half, or, where the halves differ, a free value (R380). -/
def State.cmpPred (s : State) (x2 : Bool) (cmp : Nat → Nat → Bool × Nat) (l : Nat) : Bool :=
  if x2 then if (cmp l 0).1 == (cmp l 1).1 then (cmp l 0).1 else Config.freeNat (s.freeCtr + l) % 2 == 1 else (cmp l 0).1

/-- The flags that a comparison joins into its lane: those of both halves it acts on. -/
def cmpFlags (x2 : Bool) (cmp : Nat → Nat → Bool × Nat) (l : Nat) : Nat :=
  if x2 then Nat.lor (cmp l 0).2 (cmp l 1).2 else (cmp l 0).2

/-- One lane of a comparison. -/
def State.cmpLane (s : State) (x2 : Bool) (cmp : Nat → Nat → Bool × Nat) (p : Nat) (h : TGroup) (l : Nat) : TGroup :=
  if x2 then
    ((h.setPred l p (if (cmp l 0).1 == (cmp l 1).1 then (cmp l 0).1 else Config.freeNat (s.freeCtr + l) % 2 == 1)).setFlags l (cmp l 0).2).setFlags l (cmp l 1).2
  else (h.setPred l p (cmp l 0).1).setFlags l (cmp l 0).2

theorem State.cmpLane_rest (s : State) (x2 : Bool) (cmp : Nat → Nat → Bool × Nat) (p : Nat) (h : TGroup) (l : Nat) :
    ∃ F, s.cmpLane x2 cmp p h l = { h.setPred l p (s.cmpPred x2 cmp l) with flags := F } := by
  cases x2 <;> exact ⟨_, rfl⟩

theorem State.cmpLane_flags (s : State) (x2 : Bool) (cmp : Nat → Nat → Bool × Nat) (p : Nat) (h : TGroup) (l l' : Nat) :
    kvGet (fun _ => 0) (s.cmpLane x2 cmp p h l).flags l' =
      if l' = l then Nat.lor (kvGet (fun _ => 0) h.flags l) (cmpFlags x2 cmp l) else kvGet (fun _ => 0) h.flags l' := by
  cases x2 <;> simp only [State.cmpLane, cmpFlags, Bool.false_eq_true, if_false, if_true]
  · rw [TGroup.flags_setFlags, TGroup.setPred_flags]
  · rw [TGroup.flags_setFlags_twice, TGroup.setPred_flags]

/-- Lane by lane, a comparison writes its predicate and joins its flags. -/
theorem State.foldl_cmpLane (s : State) (x2 : Bool) (cmp : Nat → Nat → Bool × Nat) (p : Nat) (g : TGroup) (lanes : List Nat) (nodup : lanes.Nodup) :
    g.WritesPred (lanes.foldl (s.cmpLane x2 cmp p) g) lanes p (s.cmpPred x2 cmp) ∧
      g.JoinsFlags (lanes.foldl (s.cmpLane x2 cmp p) g) lanes (cmpFlags x2 cmp) ∧
      ∃ P N F, lanes.foldl (s.cmpLane x2 cmp p) g = { g with preds := P, pend := N, flags := F } := by
  obtain ⟨writes, -⟩ := g.foldl_setPred_writes p (s.cmpPred x2 cmp) lanes
  obtain ⟨preds, pend, rest⟩ := g.foldl_setPred_flags p (s.cmpPred x2 cmp) (s.cmpLane x2 cmp p) (s.cmpLane_rest x2 cmp p) lanes
  exact ⟨writes.congr preds pend, g.foldl_joins _ _ (s.cmpLane_flags x2 cmp p) lanes nodup, rest⟩

theorem State.fpCmp_of_issues {s : State} {core slot opc : Nat} {w0 : BitVec 64} {dbl : Bool} {b : TBlock} {g : TGroup}
    (h : s.Issues core slot opc w0 (fpForm dbl w0 2 true) b g) :
    s.fpCmp core slot opc w0 dbl =
      { (s.issuedOn core).advance core slot 1 ((g.acting w0).foldl ((s.issuedOn core).cmpLane (isX2 dbl w0) (fun l half =>
          (laneFmt dbl w0).cmpB (laneMode b dbl w0) (fMod w0 57 55) (src (g.fpSrcs dbl w0 l half 2) 0) (src (g.fpSrcs dbl w0 l half 2) 1))
          (fD w0)) g) with freeCtr := (s.issuedOn core).freeCtr + 32 } := by
  rw [State.fpCmp, State.issue_of_issues h]
  rfl

end Sys2Proof.Machine
end

section
/-! The family of the T-core's instruction set: statements about integers, comparisons and conversions. -/

open Sys2Proof Sys2Proof.Machine
namespace Sys2Proof.Claims

/-- Every row of Table 8.3 runs lane by lane: it writes the row's value of the lane's own operands to D. -/
theorem exec_intRow {r : IntRow} (hr : r ∈ intRows) (core slot : Nat) (w0 w1 : BitVec 64) (s : State) :
    exec (r.instr core slot w0 w1) s = .next (s.lanesOp core slot r.opc w0 (intForm w0 [fA w0] r.two) (fun _ g l h =>
      h.wr l (fD w0) (r.val w0 (32 * tyRegs w0) (g.rd l (fA w0) (tyRegs w0)) (g.opB w0 l (tyRegs w0))) (tyRegs w0))) := by
  simp only [intRows, List.mem_cons, List.not_mem_nil, or_false] at hr
  rcases hr with rfl | rfl | rfl | rfl | rfl | rfl | rfl | rfl | rfl | rfl | rfl | rfl | rfl | rfl | rfl | rfl <;> rfl

/-- Settles O1: every row is a write of D in each acting lane. -/
theorem tCoreIntegerResult : Obligations.TCoreIntegerResult := by
  intro r hr core slot w0 w1 s b g h
  rw [exec_intRow hr]
  exact State.lanesOp_writes h _ _ _ (fun _ _ => rfl)

/-- Settles O4: both instructions run by the one comparison, whose predicate is the result of the low half wherever the halves agree. -/
theorem tCoreFloatCompare : Obligations.TCoreFloatCompare := by
  intro r hr core slot w0 w1 s b g h
  have run : exec (r.1 core slot w0 w1) s = .next (s.fpCmp core slot r.2.1 w0 r.2.2) := by
    simp only [List.mem_cons, List.not_mem_nil, or_false] at hr
    rcases hr with rfl | rfl
    · exact exec_fsetp ..
    · exact exec_dsetp ..
  obtain ⟨writes, joins, P, N, F, rest⟩ := (s.issuedOn core).foldl_cmpLane (isX2 r.2.2 w0) (fun l half =>
      (laneFmt r.2.2 w0).cmpB (laneMode b r.2.2 w0) (fMod w0 57 55) (src (g.fpSrcs r.2.2 w0 l half 2) 0) (src (g.fpSrcs r.2.2 w0 l half 2) 1))
    (fD w0) g (g.acting w0) (g.acting_nodup w0)
  refine ⟨_, _, _, _, run.trans (congrArg _ (State.fpCmp_of_issues h)), s.advance_groupStep core slot 1 _, by rw [rest], writes, ?agree, joins⟩
  intro l agree
  rcases agree with low | same
  · simp [State.cmpPred, low]
  · simp [State.cmpPred, same]

/-- Settles O5: each acting lane writes D with one element replaced, and joins the flags of the conversion. -/
theorem tCoreConvert : Obligations.TCoreConvert := by
  intro core slot w0 w1 s b g sf df h res
  rw [exec_cvt]
  refine State.lanesOp_writes_joins h _ _ _ _ (fun _ _ => ⟨_, rfl⟩) (fun k l l' => ?_)
  rw [TGroup.flags_setFlags, TGroup.wr_flags]

end Sys2Proof.Claims
end

section
/-! SUPPORT. Accesses of a T-core to local memory: what goes past the checks of R387 to R392, and the bytes a lane-by-lane write leaves as they were. -/

open Sys2Proof
namespace Sys2Proof.Machine

theorem exec_ldl (core slot : Nat) (w0 w1 : BitVec 64) (s : State) : exec (.ldl core slot w0 w1) s = execLdl core slot w0 w1 s := rfl
theorem exec_stl (core slot : Nat) (w0 w1 : BitVec 64) (s : State) : exec (.stl core slot w0 w1) s = execStl core slot w0 w1 s := rfl
theorem exec_atoml (core slot : Nat) (w0 w1 : BitVec 64) (s : State) : exec (.atoml core slot w0 w1) s = execAtoml core slot w0 w1 s := rfl

/-! ### Bytes -/

@[simp] theorem length_leBytes (n v : Nat) : (leBytes n v).length = n := by
  induction n generalizing v with
  | zero => rfl
  | succ n ih => rw [leBytes, List.length_cons, ih]

/-- A write of bytes leaves every other byte as it was. -/
theorem kvGet_hostWriteBytes_outside (bs : List Byte) (m : KV Byte) (a x : Nat) (out : ¬ (a ≤ x ∧ x < a + bs.length)) :
    kvGet (fun _ => 0) (hostWriteBytes m a bs) x = kvGet (fun _ => 0) m x := by
  induction bs generalizing m a with
  | nil => rfl
  | cons b r ih =>
    rw [List.length_cons] at out
    rw [hostWriteBytes, ih _ _ (by omega), kvGet_set_other _ _ _ _ (by omega)]

/-- The same for writes lane by lane, each of `n` bytes at its lane's address, whatever they write. -/
theorem foldl_writes_outside {β : Type} (addr : Nat → Nat) (n : Nat) (f : KV Byte × β → Nat → KV Byte × β)
    (lane : ∀ acc l, ∃ v, (f acc l).1 = hostWriteBytes acc.1 (addr l) (leBytes n v)) (lanes : List Nat) (acc : KV Byte × β) (x : Nat)
    (out : ∀ l ∈ lanes, ¬ (addr l ≤ x ∧ x < addr l + n)) :
    kvGet (fun _ => 0) (lanes.foldl f acc).1 x = kvGet (fun _ => 0) acc.1 x := by
  induction lanes generalizing acc with
  | nil => rfl
  | cons l ls ih =>
    obtain ⟨v, e⟩ := lane acc l
    rw [List.foldl_cons, ih _ (fun k hk => out k (List.mem_cons_of_mem _ hk)), e, kvGet_hostWriteBytes_outside]
    simpa using out l List.mem_cons_self

/-- A fold over a pair whose second part no step changes. -/
theorem foldl_pair_fst {α β ι : Type} (f : α → ι → α) (l : List ι) (a : α) (b : β) :
    l.foldl (fun (acc : α × β) i => (f acc.1 i, acc.2)) (a, b) = (l.foldl f a, b) := by
  induction l generalizing a with
  | nil => rfl
  | cons i l ih => exact ih (f a i)

/-- A fold over a pair whose first part no step changes. -/
theorem foldl_pair_snd {α β ι : Type} (f : α → β → ι → β) (l : List ι) (a : α) (b : β) :
    l.foldl (fun (acc : α × β) i => (acc.1, f acc.1 acc.2 i)) (a, b) = (a, l.foldl (f a) b) := by
  induction l generalizing b with
  | nil => rfl
  | cons i l ih => exact ih (f a b i)

/-! ### The checks of an access (R905) -/

theorem firstBad_eq_none {xs : List (Nat × Nat)} {p : Nat → Bool} (h : ∀ x ∈ xs, p x.2 = false) : firstBad xs p = none := by
  have none_fails : xs.filter (fun x => p x.2) = [] := List.filter_eq_nil_iff.mpr (fun x hx => by simp [h x hx])
  simp only [firstBad, none_fails]

theorem State.alignFault_eq_none (s : State) (core slot : Nat) {n : Nat} {xs : List (Nat × Nat)} (h : ∀ x ∈ xs, x.2 % n = 0) :
    s.alignFault core slot n xs = none := by
  rw [State.alignFault, firstBad_eq_none (fun x hx => by simp [h x hx])]

theorem State.rangeFault_eq_none (s : State) (core slot : Nat) {xs : List (Nat × Nat)} (h : ∀ x ∈ xs, x.2 < 2 ^ 57) :
    s.rangeFault core slot xs = none := by
  rw [State.rangeFault, firstBad_eq_none (fun x hx => decide_eq_false (Nat.not_le.mpr (h x hx)))]

theorem State.localFault_eq_none (s : State) (core slot : Nat) {limit size : Nat} {xs : List (Nat × Nat)} (h : ∀ x ∈ xs, x.2 + size ≤ limit) :
    s.localFault core slot limit size xs = none := by
  rw [State.localFault, firstBad_eq_none (fun x hx => decide_eq_false (Nat.not_lt.mpr (h x hx)))]

/-! ### The access -/

@[simp] theorem State.reg_setTblock (s : State) (core blk : Nat) (b : Option TBlock) (a : Nat) : (s.setTblock core blk b).reg a = s.reg a := by
  simp only [State.setTblock, State.reg]

theorem State.tblock_setTblock (s : State) (core blk : Nat) (b : Option TBlock) (c k : Nat) :
    (s.setTblock core blk b).tblock c k = if c * 32 + k = core * 32 + blk then b else s.tblock c k := by
  simp only [State.setTblock, State.tblock, kvGet_set]

@[simp] theorem State.tblock_setTblock_same (s : State) (core blk : Nat) (b : Option TBlock) : (s.setTblock core blk b).tblock core blk = b := by
  rw [State.tblock_setTblock, if_pos rfl]

@[simp] theorem State.tgroup_setTgroup_same (s : State) (core slot : Nat) (g : Option TGroup) : (s.setTgroup core slot g).tgroup core slot = g := by
  rw [State.tgroup_setTgroup, if_pos rfl]

@[simp] theorem State.tblock_setTgroup (s : State) (core slot : Nat) (g : Option TGroup) (c k : Nat) :
    (s.setTgroup core slot g).tblock c k = s.tblock c k := by
  simp only [State.setTgroup, State.tblock]

theorem State.reg_bumpN_other (s : State) (f : RegField) (n : Nat) {a : Nat} (h : a ≠ f.addr) : (s.bumpN f n).reg a = s.reg a :=
  s.reg_setFld_other f _ h

/-- The local address of a lane (R387), or register A for an atomic (R390). -/
def TGroup.localAddr (g : TGroup) (w0 : BitVec 64) (atom : Bool) (l : Nat) : Nat :=
  if atom then g.reg l (fA w0) else (((g.reg l (fA w0) : Int) + (if fBI w0 then fImm16 w0 else (g.reg l (fB w0) : Int))) % 2 ^ 19).toNat

theorem TGroup.localAddr_eq (g : TGroup) (w0 : BitVec 64) (atom : Bool) (l : Nat) : g.localAddr w0 atom l =
    if atom then g.reg l (fA w0) else (((g.reg l (fA w0) : Int) + (if fBI w0 then fImm16 w0 else (g.reg l (fB w0) : Int))) % 2 ^ 19).toNat := rfl

/-- What an access to local memory leaves: the block with its new local memory, the group gone on, and no register changed but two counters. -/
structure State.LocalStep (s t : State) (core slot blk : Nat) (b : TBlock) (h : TGroup) : Prop where
  group : t.tgroup core slot = some { h with pc := (h.pc + 8) % 2 ^ 57, lockWait := [] }
  block : t.tblock core blk = some b
  mem : t.mem = s.mem
  host : t.host = s.host
  regs : ∀ a, a ≠ (RF.TCW_ISSUE_COUNT core).addr → a ≠ (RF.TCW_BANKCONF_COUNT core).addr → t.reg a = s.reg a

@[simp] theorem State.issuedOn_mem (s : State) (core : Nat) : (s.issuedOn core).mem = s.mem := by rw [State.issuedOn, State.bump_mem]
@[simp] theorem State.issuedOn_host (s : State) (core : Nat) : (s.issuedOn core).host = s.host := by rw [State.issuedOn, State.bump_host]

section
variable {s : State} {core slot opc size : Nat} {w0 : BitVec 64} {form : OpForm} {atom wr : Bool} {b : TBlock} {g : TGroup}
  (f : TGroup → Nat → Nat → KV Byte × TGroup → KV Byte × TGroup)

/-- An access whose addresses are aligned and within the block's local memory, and which meets no locked span where it writes, acts lane by lane. -/
theorem State.localOp_acts (h : s.Issues core slot opc w0 form b g)
    (fits : ∀ l ∈ g.acting w0, g.localAddr w0 atom l % size = 0 ∧ g.localAddr w0 atom l + size ≤ 4096 * b.localUnits)
    (free : (wr && anyMeet ((g.acting w0).map (fun l => ⟨g.localAddr w0 atom l, size⟩)) ((s.issuedOn core).lockedSpans core b)) = false) :
    ∃ t, s.localOp core slot opc w0 form size atom wr f = t ∧
      let r := (g.acting w0).foldl (fun acc l => f g l (g.localAddr w0 atom l) acc) (b.localMem, g)
      s.LocalStep t core slot g.blk { b with localMem := r.1 } r.2 := by
  refine ⟨_, rfl, ?_⟩
  rw [State.localOp, State.issue_of_issues h]
  simp only [← TGroup.localAddr_eq, -Nat.reducePow, -Int.reducePow]
  rw [State.alignFault_eq_none _ _ _ (by simpa using fun l hl => (fits l hl).1), State.localFault_eq_none _ _ _ (by simpa using fun l hl => (fits l hl).2)]
  simp only [List.map_map, Function.comp_def, free, List.foldl_map, Bool.false_eq_true, if_false]
  constructor
  case group => simp [State.advance]
  case block => simp [State.advance]
  case mem => simp [State.advance, State.setTgroup, State.setTblock]
  case host => simp [State.advance, State.setTgroup, State.setTblock]
  case regs =>
    intro a issue conf
    simp [State.advance, State.reg_bumpN_other _ _ _ conf, State.reg_issuedOn_other _ _ issue]

/-- A write that meets a locked span leaves its group as it was, but for the engines it waits for (R279). -/
theorem State.localOp_waits (h : s.Issues core slot opc w0 form b g)
    (fits : ∀ l ∈ g.acting w0, g.localAddr w0 atom l % size = 0 ∧ g.localAddr w0 atom l + size ≤ 4096 * b.localUnits)
    (locked : anyMeet ((g.acting w0).map (fun l => ⟨g.localAddr w0 atom l, size⟩)) ((s.issuedOn core).lockedSpans core b) = true) :
    ∃ e, s.localOp core slot opc w0 form size atom true f = s.setTgroup core slot (some { g with lockWait := e }) := by
  refine ⟨(s.issuedOn core).lockersOf core b ((g.acting w0).map (fun l => ⟨g.localAddr w0 atom l, size⟩)), ?_⟩
  rw [State.localOp, State.issue_of_issues h]
  simp only [← TGroup.localAddr_eq, -Nat.reducePow, -Int.reducePow]
  rw [State.alignFault_eq_none _ _ _ (by simpa using fun l hl => (fits l hl).1), State.localFault_eq_none _ _ _ (by simpa using fun l hl => (fits l hl).2)]
  simp only [List.map_map, Function.comp_def, locked, Bool.and_self, if_true]

end

/-- One lane of an ATOML: the old value goes to D, and the operation's result to local memory (R390). -/
def TGroup.atomLane (g : TGroup) (w0 : BitVec 64) (k : Nat) (acc : KV Byte × TGroup) (l : Nat) : KV Byte × TGroup :=
  let old := leNat (kvBytes acc.1 (g.reg l (fA w0)) (4 * k))
  (hostWriteBytes acc.1 (g.reg l (fA w0)) (leBytes (4 * k) (atomOp (fMod w0 49 46) (fMod w0 51 50) old (g.rd l (fB w0) k) (g.rd l (fC w0) k))),
    acc.2.wr l (fD w0) old k)

/-- ATOML changes no more of its group than registers and what is on its way to them. -/
theorem TGroup.foldl_atomLane_rest (g : TGroup) (w0 : BitVec 64) (k : Nat) (lanes : List Nat) (m : KV Byte) :
    (lanes.foldl (g.atomLane w0 k) (m, g)).2 =
      { g with regs := (lanes.foldl (g.atomLane w0 k) (m, g)).2.regs, pend := (lanes.foldl (g.atomLane w0 k) (m, g)).2.pend } := by
  have key : ∀ (acc : KV Byte × TGroup), ∃ R P, (lanes.foldl (g.atomLane w0 k) acc).2 = { acc.2 with regs := R, pend := P } := by
    induction lanes with
    | nil => exact fun acc => ⟨_, _, rfl⟩
    | cons l ls ih =>
      intro acc
      obtain ⟨R, P, e⟩ := ih (g.atomLane w0 k acc l)
      exact ⟨R, P, by rw [List.foldl_cons, e, TGroup.atomLane, TGroup.wr_rest]⟩
  obtain ⟨R, P, e⟩ := key (m, g)
  rw [e]

/-- What an engine's queues hold does not depend on the issue count. -/
@[simp] theorem State.lockedSpans_issuedOn (s : State) (core c : Nat) (b : TBlock) : (s.issuedOn c).lockedSpans core b = s.lockedSpans core b := by
  simp only [State.lockedSpans, State.engine, State.issuedOn, State.bump_tc]

end Sys2Proof.Machine
end

section
/-! The family of the T-core's memory instructions: local memory. -/

open Sys2Proof Sys2Proof.Machine
namespace Sys2Proof.Claims

/-- Settles O7: LDL folds over registers alone, STL over local memory alone, ATOML over both; each lane writes at its own address. -/
theorem tCoreLocalMemory : Obligations.TCoreLocalMemory := by
  intro core slot w0 w1 s b g addr atomAddr n k
  have plain : g.localAddr w0 false = addr := rfl
  have atom : g.localAddr w0 true = atomAddr := rfl
  refine ⟨?ldl, ?stl, ?stlWaits, ?atoml⟩
  case ldl =>
    intro h fits
    obtain ⟨t, run, step⟩ := State.localOp_acts (atom := false) (wr := false)
      (fun _ l a acc => (acc.1, acc.2.wr l (fD w0) (loadExt w0 n (leNat (kvBytes acc.1 a n))) (szRegs w0))) h fits rfl
    simp only [plain, foldl_pair_snd (fun m (k : TGroup) l => k.wr l (fD w0) (loadExt w0 n (leNat (kvBytes m (addr l) n))) (szRegs w0))] at step
    obtain ⟨writes, rest⟩ := g.foldl_wr_writes (fD w0) (szRegs w0) (fun l => loadExt w0 n (leNat (kvBytes b.localMem (addr l) n)))
      (g.acting w0) (g.acting_nodup w0) (fun _ => TGroup.acting_lt)
    exact ⟨t, _, (exec_ldl ..).trans (congrArg _ run), step.group, rest, writes, step.block, step.mem, step.host, step.regs⟩
  case stl =>
    intro h fits free
    obtain ⟨t, run, step⟩ := State.localOp_acts (atom := false) (wr := true)
      (fun g l a acc => (hostWriteBytes acc.1 a (leBytes n (g.rd l (fD w0) (szRegs w0))), acc.2)) h fits (by simpa [plain] using free)
    have outside := foldl_writes_outside (β := TGroup) addr n
      (fun acc l => (hostWriteBytes acc.1 (addr l) (leBytes n (g.rd l (fD w0) (szRegs w0))), acc.2)) (fun acc l => ⟨_, rfl⟩) (g.acting w0) (b.localMem, g)
    simp only [plain, foldl_pair_fst (fun m l => hostWriteBytes m (addr l) (leBytes n (g.rd l (fD w0) (szRegs w0))))] at step outside
    exact ⟨t, _, (exec_stl ..).trans (congrArg _ run), step.group, step.block, rfl, outside, step.mem, step.host, step.regs⟩
  case stlWaits =>
    intro h fits locked
    obtain ⟨e, run⟩ := State.localOp_waits (atom := false) (fun g l a acc => (hostWriteBytes acc.1 a (leBytes n (g.rd l (fD w0) (szRegs w0))), acc.2))
      h fits (by simpa [plain] using locked)
    exact ⟨e, (exec_stl ..).trans (congrArg _ run)⟩
  case atoml =>
    intro h fits free
    obtain ⟨t, run, step⟩ := State.localOp_acts (atom := true) (wr := true)
      (fun g l a acc =>
        let old := leNat (kvBytes acc.1 a (4 * k))
        (hostWriteBytes acc.1 a (leBytes (4 * k) (atomOp (fMod w0 49 46) (fMod w0 51 50) old (g.rd l (fB w0) k) (g.rd l (fC w0) k))),
          acc.2.wr l (fD w0) old k)) h fits (by simpa [atom] using free)
    have outside := foldl_writes_outside (β := TGroup) atomAddr (4 * k) (g.atomLane w0 k) (fun acc l => ⟨_, rfl⟩) (g.acting w0) (b.localMem, g)
    exact ⟨t, _, _, (exec_atoml ..).trans (congrArg _ run), step.group, step.block, g.foldl_atomLane_rest w0 k (g.acting w0) b.localMem,
      rfl, outside, step.mem, step.host, step.regs⟩

end Sys2Proof.Claims
end

section
/-! SUPPORT. Global accesses of a T-core: the checks of R388 and R394 and what they let through (R386 to R401). -/

open Sys2Proof
namespace Sys2Proof.Machine

theorem exec_ld (core slot : Nat) (w0 w1 : BitVec 64) (s : State) : exec (.ld core slot w0 w1) s = execLd core slot w0 w1 s := rfl
theorem exec_st (core slot : Nat) (w0 w1 : BitVec 64) (s : State) : exec (.st core slot w0 w1) s = execSt core slot w0 w1 s := rfl
theorem exec_atom (core slot : Nat) (w0 w1 : BitVec 64) (s : State) : exec (.atom core slot w0 w1) s = execAtom core slot w0 w1 s := rfl
theorem exec_ldc (core slot : Nat) (w0 w1 : BitVec 64) (s : State) : exec (.ldc core slot w0 w1) s = execLdc core slot w0 w1 s := rfl
theorem exec_stc (core slot : Nat) (w0 w1 : BitVec 64) (s : State) : exec (.stc core slot w0 w1) s = execStc core slot w0 w1 s := rfl

section
variable (s : State) (core slot size : Nat) (g : TGroup) (a : Acc) (lanes : List Nat) (addr : Nat → Nat)

theorem State.globalOp_issues (ok : ∀ l ∈ lanes, addr l < 2 ^ 57 ∧ addr l % size = 0) :
    s.globalOp core slot size g (lanes.map (fun l => (l, addr l))) a = s.issueAcc core slot 1 g a := by
  have range := s.rangeFault_eq_none core slot (xs := lanes.map (fun l => (l, addr l))) (List.forall_mem_map.mpr (fun l hl => (ok l hl).1))
  have align := s.alignFault_eq_none core slot (n := size) (xs := lanes.map (fun l => (l, addr l))) (List.forall_mem_map.mpr (fun l hl => (ok l hl).2))
  simp only [State.globalOp, range, align]

theorem State.globalOp_beyond {m x : Nat} (bad : firstBad (lanes.map (fun l => (l, addr l))) (fun a => decide (2 ^ 57 ≤ a)) = some (m, x)) :
    s.globalOp core slot size g (lanes.map (fun l => (l, addr l))) a = s.preciseFault core slot 0x0805 m x (detailOf [(52, 8, x)]) := by
  simp only [State.globalOp, State.rangeFault, bad]

theorem State.globalOp_misaligned (ok : ∀ l ∈ lanes, addr l < 2 ^ 57) {m x : Nat}
    (bad : firstBad (lanes.map (fun l => (l, addr l))) (fun a => !(a % size == 0)) = some (m, x)) :
    s.globalOp core slot size g (lanes.map (fun l => (l, addr l))) a = s.preciseFault core slot 0x0404 m x (detailOf [(52, 1, size)]) := by
  have range := s.rangeFault_eq_none core slot (xs := lanes.map (fun l => (l, addr l))) (List.forall_mem_map.mpr ok)
  simp only [State.globalOp, range, State.alignFault, bad]

end

/-! ### LDC and STC -/

theorem State.convFault_eq_none (s : State) (core slot : Nat) {align : Nat} {forms ebs : List (Nat × Nat)} (range : ∀ x ∈ forms, x.2 < 2 ^ 57)
    (aligned : ∀ x ∈ ebs, x.2 % align = 0) : s.convFault core slot align forms ebs = none := by
  rw [State.convFault, State.rangeFault_eq_none _ _ _ range, State.alignFault_eq_none _ _ _ aligned]

/-- A value set for each listed lane, from the lane alone, is what the lane then reads. -/
theorem kvGet_foldl_set (val : Nat → Nat) (lanes : List Nat) (m : KV Nat) (l : Nat) :
    kvGet (fun _ => 0) (lanes.foldl (fun m l => kvSet (fun _ => 0) m l (val l)) m) l = if l ∈ lanes then val l else kvGet (fun _ => 0) m l := by
  induction lanes generalizing m with
  | nil => rfl
  | cons a ls ih =>
    rw [List.foldl_cons, ih, kvGet_set]
    by_cases e : l = a <;> simp [e]

/-- Joining flags lane by lane changes flags alone. -/
theorem TGroup.foldl_setFlags_joins (g : TGroup) (fl : Nat → Nat) (lanes : List Nat) (nodup : lanes.Nodup) :
    g.JoinsFlags (lanes.foldl (fun h l => h.setFlags l (fl l)) g) lanes fl ∧
      lanes.foldl (fun h l => h.setFlags l (fl l)) g = { g with flags := (lanes.foldl (fun h l => h.setFlags l (fl l)) g).flags } := by
  refine ⟨g.foldl_joins _ fl (fun h l l' => h.flags_setFlags l (fl l) l') lanes nodup, ?_⟩
  have key : ∀ h : TGroup, ∃ F, lanes.foldl (fun h l => h.setFlags l (fl l)) h = { h with flags := F } := by
    induction lanes with
    | nil => exact fun h => ⟨_, rfl⟩
    | cons l ls ih =>
      intro h
      obtain ⟨F, e⟩ := ih (List.nodup_cons.mp nodup).2 (h.setFlags l (fl l))
      exact ⟨F, e⟩
  obtain ⟨F, e⟩ := key g
  rw [e]

/-- The addresses that the lanes form, each with its lane. -/
theorem forall_lanes_lt {lanes : List Nat} {f : Nat → Nat} {n : Nat} (h : ∀ l ∈ lanes, f l < n) : ∀ x ∈ lanes.map (fun l => (l, f l)), x.2 < n :=
  List.forall_mem_map.mpr h

theorem forall_scaled_lt {c : Bool} {lanes : List Nat} {f : Nat → Nat} {n : Nat} (h : c = true → ∀ l ∈ lanes, f l < n) :
    ∀ x ∈ (if c = true then lanes.map (fun l => (l, f l)) else []), x.2 < n := by
  cases c
  case false => exact List.forall_mem_nil _
  case true => exact forall_lanes_lt (h rfl)

/-- Each acting lane's element: EB and every address formed from it lie below 2^57, and EB is aligned (R388, R394). -/
structure TGroup.ElemsFit (g : TGroup) (w0 w1 : BitVec 64) (l : Nat) : Prop where
  base : g.rd l (fA w0) 2 < 2 ^ 57
  first : g.rd l (fA w0) 2 + (elemSpan (fMod w0 49 46) (elemIndex g w0 w1 l)).1 < 2 ^ 57
  last : g.rd l (fA w0) 2 + (elemSpan (fMod w0 49 46) (elemIndex g w0 w1 l)).1 + (elemSpan (fMod w0 49 46) (elemIndex g w0 w1 l)).2 - 1 < 2 ^ 57
  aligned : g.rd l (fA w0) 2 % ebAlign (fMod w0 49 46) = 0

/-- The same of its scale. -/
structure TGroup.ScaleFits (g : TGroup) (w0 w1 : BitVec 64) (l : Nat) : Prop where
  base : g.rd l (fC w0) 2 < 2 ^ 57
  scale : g.rd l (fC w0) 2 + elemIndex g w0 w1 l / blockLen (fMod w0 51 50) < 2 ^ 57

/-- The access of an LDC: each acting lane's element, then each one's scale (R393 to R397). -/
def TBlock.ldcAcc (b : TBlock) (core slot : Nat) (g : TGroup) (w0 w1 : BitVec 64) : Acc :=
  { b.newAcc core slot g 0 w0 w1
      ((g.acting w0).map (fun l => { lane := l, va := g.rd l (fA w0) 2 + (elemSpan (fMod w0 49 46) (elemIndex g w0 w1 l)).1,
                                     size := (elemSpan (fMod w0 49 46) (elemIndex g w0 w1 l)).2 }) ++
        (if fMod w0 51 50 = 1 ∨ fMod w0 51 50 = 2 then (g.acting w0).map (fun l =>
          { lane := 32 + l, va := g.rd l (fC w0) 2 + elemIndex g w0 w1 l / blockLen (fMod w0 51 50), size := 1 }) else [])) with
    scope := fMod w0 58 57, dest := destOf (fD w0) 1
    elems := (g.acting w0).foldl (fun (m : KV Nat) l => kvSet (fun _ => 0) m l (elemIndex g w0 w1 l)) [] }

/-- The access of an STC with SK = 0: each acting lane's element, of its own bits alone where it shares a byte (R399). -/
def TBlock.stcAcc (b : TBlock) (core slot : Nat) (g : TGroup) (w0 w1 : BitVec 64) (res : Nat → FRes) : Acc :=
  b.newAcc core slot g 1 w0 w1 ((g.acting w0).map (fun l =>
    let n := (elemSpan (fMod w0 49 46) (elemIndex g w0 w1 l)).2
    let sh := elemShift (fMod w0 49 46) (elemIndex g w0 w1 l)
    { lane := l, va := g.rd l (fA w0) 2 + (elemSpan (fMod w0 49 46) (elemIndex g w0 w1 l)).1, size := n, data := leBytes n ((res l).bits * 2 ^ sh),
      mask := if codeBits (fMod w0 49 46) < 8 then leBytes n ((2 ^ codeBits (fMod w0 49 46) - 1) * 2 ^ sh) else [] }))

section
variable {core slot : Nat} {w0 w1 : BitVec 64} {s : State} {b : TBlock} {g : TGroup}

theorem exec_ldc_issues
    (h : s.Issues core slot 0x5B w0
      { words := 2, mods := [(59, 46)], bad := !ldcOk (fMod w0 49 46) (fMod w0 51 50) (fMod w0 53 52) || !(fExt w1 == 0),
        regs := [(fD w0, 1), (fA w0, 2), (fB w0, 1), (fC w0, 2)], dst := 1 } b g)
    (fit : ∀ l ∈ g.acting w0, g.ElemsFit w0 w1 l)
    (scaleFits : fMod w0 51 50 = 1 ∨ fMod w0 51 50 = 2 → ∀ l ∈ g.acting w0, g.ScaleFits w0 w1 l) :
    exec (.ldc core slot w0 w1) s = .next ((s.issuedOn core).issueAcc core slot 2 g (b.ldcAcc core slot g w0 w1)) := by
  rw [exec_ldc, execLdc, State.issue_of_issues h]
  have scaled : (fMod w0 51 50 == 1 || fMod w0 51 50 == 2) = true → ∀ l ∈ g.acting w0, g.ScaleFits w0 w1 l := by simpa using scaleFits
  have forms := List.forall_mem_append.mpr ⟨List.forall_mem_append.mpr ⟨List.forall_mem_append.mpr ⟨List.forall_mem_append.mpr
    ⟨forall_lanes_lt (fun l hl => (fit l hl).base), forall_scaled_lt (fun c l hl => (scaled c l hl).base)⟩,
    forall_lanes_lt (fun l hl => (fit l hl).first)⟩, forall_lanes_lt (fun l hl => (fit l hl).last)⟩,
    forall_scaled_lt (fun c l hl => (scaled c l hl).scale)⟩
  have aligned : ∀ x ∈ (g.acting w0).map (fun l => (l, g.rd l (fA w0) 2)), x.2 % ebAlign (fMod w0 49 46) = 0 :=
    List.forall_mem_map.mpr (fun l hl => (fit l hl).aligned)
  simp only [State.convFault_eq_none _ _ _ forms aligned]
  simp only [TBlock.ldcAcc, List.map_map, Function.comp_def, Bool.or_eq_true, beq_iff_eq, apply_ite (List.map _), List.map_nil]

theorem State.stcPlain_issues (fit : ∀ l ∈ g.acting w0, g.ElemsFit w0 w1 l) (res : Nat → FRes)
    (conv : ∀ l, res l = toElem { rnd := fMod w0 55 54, strict := b.strict || natBit w0.toNat 58 } (natBit w0.toNat 56) (fMod w0 49 46)
      (stcValue w0 (g.reg l (fD w0)))) :
    s.stcPlain core slot w0 w1 b g = s.issueAcc core slot 2 ((g.acting w0).foldl (fun h l => h.setFlags l (res l).flags) g)
      (b.stcAcc core slot g w0 w1 res) := by
  have forms := List.forall_mem_append.mpr ⟨List.forall_mem_append.mpr
    ⟨forall_lanes_lt (fun l hl => (fit l hl).base), forall_lanes_lt (fun l hl => (fit l hl).first)⟩, forall_lanes_lt (fun l hl => (fit l hl).last)⟩
  have aligned : ∀ x ∈ (g.acting w0).map (fun l => (l, g.rd l (fA w0) 2)), x.2 % ebAlign (fMod w0 49 46) = 0 :=
    List.forall_mem_map.mpr (fun l hl => (fit l hl).aligned)
  simp only [State.stcPlain, State.convFault_eq_none _ _ _ forms aligned]
  simp only [TBlock.stcAcc, List.map_map, Function.comp_def, conv]

end

end Sys2Proof.Machine
end

section
/-! The family of the T-core's memory instructions: global memory and the converting accesses. -/

open Sys2Proof Sys2Proof.Machine
namespace Sys2Proof.Claims

/-- Settles O8: past the checks of its issue, each instruction is one global access whose two checks are of the range and of the alignment. -/
theorem tCoreGlobalMemory : Obligations.TCoreGlobalMemory := by
  intro core slot w0 w1 s b g t0 addr n k ok ldForm stForm atomForm
  have formed : globalAddr g w0 = addr := rfl
  refine ⟨?ld, ?st, ?atom, ?ldBeyond, ?stMisaligned⟩
  case ld =>
    intro h fits
    rw [exec_ld, execLd, State.issue_of_issues h]
    simp only [formed, List.map_map, Function.comp_def]
    rw [State.globalOp_issues _ _ _ _ _ _ _ _ fits]
  case st =>
    intro h fits
    rw [exec_st, execSt, State.issue_of_issues h]
    simp only [formed, List.map_map, Function.comp_def]
    rw [State.globalOp_issues _ _ _ _ _ _ _ _ fits]
  case atom =>
    intro h fits
    rw [exec_atom, execAtom, State.issue_of_issues h]
    simp only [List.map_map, Function.comp_def]
    rw [State.globalOp_issues _ _ _ _ _ _ _ (fun l => g.rd l (fA w0) 2) fits]
  case ldBeyond =>
    intro h m a bad
    rw [exec_ld, execLd, State.issue_of_issues h]
    simp only [formed, List.map_map, Function.comp_def]
    rw [State.globalOp_beyond _ _ _ _ _ _ _ _ bad]
  case stMisaligned =>
    intro h range m a bad
    rw [exec_st, execSt, State.issue_of_issues h]
    simp only [formed, List.map_map, Function.comp_def]
    rw [State.globalOp_misaligned _ _ _ _ _ _ _ _ range bad]

/-- Settles O9: where every formed address lies below 2^57 and EB is aligned, the one check of LDC and of a plain STC finds nothing. -/
theorem tCoreConvertingMemory : Obligations.TCoreConvertingMemory := by
  intro core slot w0 w1 s b g t0 fmt sk eb sb e va last scaled regs
  refine ⟨?ldc, ?stcPlain, ?stcBlocks⟩
  case ldc =>
    intro h fits
    have run := exec_ldc_issues h (fun l hl => let ⟨base, first, last, aligned, _⟩ := fits l hl; ⟨base, first, last, aligned⟩)
      (fun hs l hl => let ⟨_, _, _, _, scale⟩ := fits l hl; ⟨(scale hs).1, (scale hs).2⟩)
    exact ⟨_, run, rfl, rfl, rfl, fun l hl => (kvGet_foldl_set _ _ _ l).trans (if_pos hl), rfl⟩
  case stcPlain =>
    intro h plain fits res
    obtain ⟨joins, rest⟩ := g.foldl_setFlags_joins (fun l => (res l).flags) (g.acting w0) (g.acting_nodup w0)
    have run : exec (.stc core slot w0 w1) s = .next (t0.stcPlain core slot w0 w1 b g) := by
      rw [exec_stc, execStc, State.issue_of_issues h, if_pos plain]
    rw [State.stcPlain_issues (fun l hl => let ⟨base, first, last, aligned⟩ := fits l hl; ⟨base, first, last, aligned⟩) res (fun _ => rfl)] at run
    exact ⟨_, _, run, rest, joins, rfl, List.map_map⟩
  case stcBlocks =>
    intro h blocks
    rw [exec_stc, execStc, State.issue_of_issues h, if_neg blocks]

end Sys2Proof.Claims
end

section
/-! SUPPORT. The engine instructions of a T-core past the checks of their issue (R273, R280, R403 to R406). -/

open Sys2Proof
namespace Sys2Proof.Machine

theorem exec_mxa (core slot : Nat) (w0 w1 : BitVec 64) (s : State) : exec (.mxa core slot w0 w1) s = .next (s.handOver core slot 0x60 w0 false) := rfl
theorem exec_vxa (core slot : Nat) (w0 w1 : BitVec 64) (s : State) : exec (.vxa core slot w0 w1) s = .next (s.handOver core slot 0x61 w0 true) := rfl
theorem exec_waitq (core slot : Nat) (w0 w1 : BitVec 64) (s : State) : exec (.waitq core slot w0 w1) s = execWaitq core slot w0 w1 s := rfl
theorem exec_accRel (core slot : Nat) (w0 w1 : BitVec 64) (s : State) : exec (.accRel core slot w0 w1) s = .next (s.accOp core slot 0x63 w0 0 []) := rfl
theorem exec_accRds (core slot : Nat) (w0 w1 : BitVec 64) (s : State) :
    exec (.accRds core slot w0 w1) s = .next (s.accOp core slot 0x64 w0 2 [(fD w0, 1)]) := rfl
theorem exec_accFclr (core slot : Nat) (w0 w1 : BitVec 64) (s : State) : exec (.accFclr core slot w0 w1) s = .next (s.accOp core slot 0x65 w0 1 []) := rfl

/-! ### What a group that issues has -/

/-- A group that can issue is in its slot, and its block on the core (R160). -/
theorem State.of_issuable {s : State} {core slot : Nat} {w0 : BitVec 64} {f : OpForm} {b : TBlock} {g : TGroup} (h : s.issuable core slot w0 f = some (b, g)) :
    s.tgroup core slot = some g ∧ s.tblock core g.blk = some b := by
  unfold State.issuable at h
  split at h
  case h_1 => contradiction
  case h_2 g' hg =>
    split at h
    case h_1 => contradiction
    case h_2 b' hb =>
      split at h
      case isTrue =>
        obtain ⟨rfl, rfl⟩ := Prod.mk.inj (Option.some.inj h)
        exact ⟨hg, hb⟩
      case isFalse => contradiction

/-! ### Engines -/

@[simp] theorem State.engine_issuedOn (s : State) (c core eng : Nat) : (s.issuedOn c).engine core eng = s.engine core eng := by
  simp only [State.engine, State.issuedOn, State.bump_tc]

@[simp] theorem State.nextIssue_issuedOn (s : State) (c core : Nat) (b : TBlock) : (s.issuedOn c).nextIssue core b = s.nextIssue core b := by
  simp only [State.nextIssue, State.engine_issuedOn]

@[simp] theorem State.nextAcc_issuedOn (s : State) (c : Nat) : (s.issuedOn c).nextAcc = s.nextAcc := by
  rw [State.issuedOn, State.bump_nextAcc]

theorem State.engine_setEngine (s : State) (core eng : Nat) (e : Engine) : (s.setEngine core eng e).engine core eng = e := by
  simp only [State.engine, State.setEngine, kvGet_set_same]

@[simp] theorem State.engine_setTgroup (s : State) (core slot : Nat) (g : Option TGroup) (c eng : Nat) :
    (s.setTgroup core slot g).engine c eng = s.engine c eng := by
  simp only [State.engine, State.setTgroup]

/-- The descriptor that MXA or VXA hands over (R280). -/
def State.handedDesc (s : State) (core slot : Nat) (w0 : BitVec 64) (b : TBlock) (g : TGroup) : Desc :=
  { bytes := localBytes b.localMem (g.reg g.lowest (fA w0)) 64, addr := g.reg g.lowest (fA w0), slot := slot, pc := g.pc, issue := s.nextIssue core b }

/-- An engine whose matrix or vector queue a descriptor joins as the next operation of its block. -/
def Engine.joined (e : Engine) (vec : Bool) (d : Desc) : Engine :=
  { (if vec then { e with vq := e.vq ++ [d] } else { e with mq := e.mq ++ [d] }) with issue := d.issue + 1 }

/-- The place that an accumulator instruction takes in the order of its engine. -/
def State.accPlace (s : State) (core slot : Nat) (w0 : BitVec 64) (kind : Nat) (b : TBlock) (g : TGroup) : AccOp :=
  { kind := kind, grp := fMod w0 49 48, issue := s.nextIssue core b, slot := slot, dest := if kind = 2 then fD w0 else 255, lanes := g.active, tag := s.nextAcc }

section
variable {core slot opc : Nat} {w0 : BitVec 64} {s : State} {b : TBlock} {g : TGroup} {eng : Nat} (vec : Bool) (h1 : b.engs[fMod w0 47 46]? = some eng)
include h1

theorem State.withEng_of_named (k : Nat → State) : s.withEng core slot w0 b g k = k eng := by
  simp only [State.withEng, h1]

theorem State.queueFull_eq (hg : s.tgroup core slot = some g) (hb : s.tblock core g.blk = some b) :
    s.queueFull core slot w0 vec = if vec then decide (2 ≤ (s.engine core eng).vq.length) else decide (8 ≤ (s.engine core eng).mq.length) := by
  simp only [State.queueFull, hg, hb, h1, Option.bind_some]

/-- Without a place nothing changes, whatever the other checks would say (R274, R324). -/
theorem State.handOver_full (hg : s.tgroup core slot = some g) (hb : s.tblock core g.blk = some b)
    (full : if vec then 2 ≤ (s.engine core eng).vq.length else 8 ≤ (s.engine core eng).mq.length) : s.handOver core slot opc w0 vec = s := by
  have isFull : s.queueFull core slot w0 vec = true := by
    rw [State.queueFull_eq vec h1 hg hb]
    cases vec <;> simpa using full
  rw [State.handOver, if_pos isFull]

/-- The descriptor joins its queue and the group goes on. -/
theorem State.handOver_joins (h : s.Issues core slot opc w0 (engForm w0 [(47, 46)] [(fA w0, 1)] true) b g)
    (room : if vec then (s.engine core eng).vq.length < 2 else (s.engine core eng).mq.length < 8)
    (aligned : g.reg g.lowest (fA w0) % 64 = 0) (within : g.reg g.lowest (fA w0) + 64 ≤ 4096 * b.localUnits) :
    s.handOver core slot opc w0 vec = ((s.issuedOn core).setEngine core eng ((s.engine core eng).joined vec (s.handedDesc core slot w0 b g))).advance
      core slot 1 g := by
  obtain ⟨hg, hb⟩ := State.of_issuable h.ready
  have hasRoom : s.queueFull core slot w0 vec = false := by
    rw [State.queueFull_eq vec h1 hg hb]
    cases vec <;> simpa using room
  rw [State.handOver, hasRoom, State.issue_of_issues h]
  simp only [State.withEng_of_named h1, aligned, beq_self_eq_true, Bool.not_true, Bool.false_eq_true, if_false, if_neg (Nat.not_lt.mpr within)]
  cases vec <;> simp [Engine.joined, State.handedDesc]

/-- A misaligned descriptor address is a precise fault (R273). -/
theorem State.handOver_misaligned (h : s.Issues core slot opc w0 (engForm w0 [(47, 46)] [(fA w0, 1)] true) b g)
    (room : if vec then (s.engine core eng).vq.length < 2 else (s.engine core eng).mq.length < 8) (misaligned : g.reg g.lowest (fA w0) % 64 ≠ 0) :
    s.handOver core slot opc w0 vec =
      (s.issuedOn core).preciseFault core slot 0x0404 g.active (g.reg g.lowest (fA w0)) (detailOf [(52, 1, 64)]) := by
  obtain ⟨hg, hb⟩ := State.of_issuable h.ready
  have hasRoom : s.queueFull core slot w0 vec = false := by
    rw [State.queueFull_eq vec h1 hg hb]
    cases vec <;> simpa using room
  rw [State.handOver, hasRoom, State.issue_of_issues h]
  simp [State.withEng_of_named h1, misaligned]

theorem exec_waitq_waits (w1 : BitVec 64) (h : s.Issues core slot 0x62 w0 { engForm w0 [(47, 46), (54, 50)] [] false with
      bad := fBI w0 || (natBit w0.toNat 54 && (!(fMod w0 47 46 == 0) || !(fMod w0 53 50 == 0))) } b g) :
    exec (.waitq core slot w0 w1) s =
      .next (((s.issuedOn core).setTgroup core slot (some { g with wait := .waitq w0 })).settleWaitq core b) := by
  rw [exec_waitq, execWaitq, State.issue_of_issues h]
  simp only [State.withEng_of_named h1, ite_self]

theorem State.accOp_takes (kind : Nat) (regs : List (Nat × Nat)) (h : s.Issues core slot opc w0 { engForm w0 [(49, 46)] regs true with dst := 1 } b g) :
    s.accOp core slot opc w0 kind regs =
      ((State.setEngine { s.issuedOn core with nextAcc := s.nextAcc + 1 } core eng { s.engine core eng with
          issue := s.nextIssue core b + 1, ops := (s.engine core eng).ops ++ [s.accPlace core slot w0 kind b g] }).advance core slot 1
        (g.await s.nextAcc (maskBits 32 g.active) (if kind = 2 then destOf (fD w0) 1 else []))).pumpEngine core eng := by
  rw [State.accOp, State.issue_of_issues h]
  simp only [State.withEng_of_named h1, State.engine_issuedOn, State.nextIssue_issuedOn, State.nextAcc_issuedOn, State.accPlace]

end

end Sys2Proof.Machine
end

section
/-! The family of the T-core's instruction set: the engine instructions. -/

open Sys2Proof Sys2Proof.Machine
namespace Sys2Proof.Claims

/-- Settles O10: MXA and VXA hand a descriptor over by one function, and the accumulator instructions take their place by one. -/
theorem tCoreEngineInstructions : Obligations.TCoreEngineInstructions := by
  intro core slot w0 w1 s b g eng t0 a e n d o take named
  refine ⟨?mxa, ?mxaFull, ?vxaFull, ?vxa, ?vxaMisaligned, ?waitq, ?accRel, ?accRds, ?accFclr⟩
  case mxa =>
    intro h aligned within room
    refine ⟨_, (exec_mxa ..).trans (congrArg _ (State.handOver_joins false named h room aligned within)), ?_, ?_⟩
    · rw [State.advance, State.engine_setTgroup, State.engine_setEngine]
      rfl
    · rw [State.advance, State.tgroup_setTgroup_same, Nat.mul_one]
  case mxaFull => exact fun hg hb full => (exec_mxa ..).trans (congrArg _ (State.handOver_full false named hg hb full))
  case vxaFull => exact fun hg hb full => (exec_vxa ..).trans (congrArg _ (State.handOver_full true named hg hb full))
  case vxa =>
    intro h aligned within room
    refine ⟨_, (exec_vxa ..).trans (congrArg _ (State.handOver_joins true named h room aligned within)), ?_, ?_⟩
    · rw [State.advance, State.engine_setTgroup, State.engine_setEngine]
      rfl
    · rw [State.advance, State.tgroup_setTgroup_same, Nat.mul_one]
  case vxaMisaligned =>
    exact fun h room misaligned => (exec_vxa ..).trans (congrArg _ (State.handOver_misaligned true named h room misaligned))
  case waitq => exact fun h => exec_waitq_waits named w1 h
  case accRel => exact fun h => (exec_accRel ..).trans (congrArg _ (State.accOp_takes named 0 [] h))
  case accRds => exact fun h => (exec_accRds ..).trans (congrArg _ (State.accOp_takes named 2 [(fD w0, 1)] h))
  case accFclr => exact fun h => (exec_accFclr ..).trans (congrArg _ (State.accOp_takes named 1 [] h))

end Sys2Proof.Claims
end

section
/-! SUPPORT. The barrier, fence and tumbler instructions of a T-core past the checks of their issue (R168 to R172, R407 to R414). -/

open Sys2Proof
namespace Sys2Proof.Machine

theorem exec_barSync (core slot : Nat) (w0 w1 : BitVec 64) (s : State) : exec (.barSync core slot w0 w1) s = execBarSync core slot w0 w1 s := rfl
theorem exec_barArv (core slot : Nat) (w0 w1 : BitVec 64) (s : State) : exec (.barArv core slot w0 w1) s = execBarArv core slot w0 w1 s := rfl
theorem exec_fence (core slot : Nat) (w0 w1 : BitVec 64) (s : State) : exec (.fence core slot w0 w1) s = execFence core slot w0 w1 s := rfl
theorem exec_tmbArv (core slot : Nat) (w0 w1 : BitVec 64) (s : State) : exec (.tmbArv core slot w0 w1) s = execTmbArv core slot w0 w1 s := rfl
theorem exec_tmbPoll (core slot : Nat) (w0 w1 : BitVec 64) (s : State) : exec (.tmbPoll core slot w0 w1) s = execTmbPoll core slot w0 w1 s := rfl
theorem exec_tmbWait (core slot : Nat) (w0 w1 : BitVec 64) (s : State) : exec (.tmbWait core slot w0 w1) s = execTmbWait core slot w0 w1 s := rfl
theorem exec_tmbTake (core slot : Nat) (w0 w1 : BitVec 64) (s : State) : exec (.tmbTake core slot w0 w1) s = execTmbTake core slot w0 w1 s := rfl
theorem exec_tmbPut (core slot : Nat) (w0 w1 : BitVec 64) (s : State) : exec (.tmbPut core slot w0 w1) s = execTmbPut core slot w0 w1 s := rfl

/-! ### Arrivals at a barrier -/

/-- A barrier at which listed threads have arrived. -/
def Barrier.joinedBy (x : Barrier) (threads : List Nat) : Barrier := { x with count := x.count + threads.length, arrived := x.arrived ++ threads }

/-- The threads of a group's active lanes. -/
def TGroup.threads (g : TGroup) : List Nat := (maskBits 32 g.active).map (fun l => 32 * g.idx + l)

section
variable (s : State) (core slot : Nat) {w0 : BitVec 64} (wait : Bool) {b : TBlock} (g : TGroup) {x : Barrier} (bar : b.bars[fMod w0 49 46]? = some x)
include bar

/-- An arrival at an armed barrier within its expected count. -/
theorem State.arriveBar_armed (armed : x.armed = true) (room : x.count + g.threads.length ≤ x.expected) :
    s.arriveBar core slot w0 wait b g =
      (let u := s.setTblock core g.blk (some { b with bars := listSet b.bars (fMod w0 49 46) (x.joinedBy g.threads) })
       if wait then u.setTgroup core slot (some { g with wait := .bar (fMod w0 49 46) }) else u.advance core slot 1 g).settleBars core g.blk 16 := by
  rw [TGroup.threads] at room
  rw [State.arriveBar, bar, TGroup.threads]
  simp only [armed, Bool.not_true, Bool.false_and, Bool.false_eq_true, if_false, if_true, if_neg (Nat.not_lt.mpr room), Barrier.joinedBy]

/-- One arrival too many is a precise fault (R171). -/
theorem State.arriveBar_excess (armed : x.armed = true) (full : x.expected < x.count + g.threads.length) :
    s.arriveBar core slot w0 wait b g = s.preciseFault core slot 0x0408 g.active 0 (barDetail (fMod w0 49 46) x.expected x.count) := by
  rw [TGroup.threads] at full
  rw [State.arriveBar, bar]
  simp only [armed, Bool.not_true, Bool.false_and, Bool.false_eq_true, if_false, if_true, if_pos full]

/-- The first arrival with a count that is not one of 1 to the block's threads is a precise fault (R170). -/
theorem State.arriveBar_badCount (unarmed : x.armed = false) (hasCount : natBit w0.toNat 50 = true) (imm : fBI w0 = true)
    (bad : fImm16 w0 < 1 ∨ (b.threads : Int) < fImm16 w0) :
    s.arriveBar core slot w0 wait b g = s.preciseFault core slot 0x0408 g.active 0 (barDetail (fMod w0 49 46) (ofSigned 16 (fImm16 w0)) 0) := by
  have isBad : (decide (fImm16 w0 < 1) || decide ((b.threads : Int) < fImm16 w0)) = true := by simpa using bad
  rw [State.arriveBar, bar]
  simp only [unarmed, hasCount, imm, if_true, isBad, Bool.not_false, Bool.and_self]

end

/-! ### Operations sent to tumblers -/

theorem State.foldl_sendTmb (f : Nat → TmbReq) (ls : List Nat) (s : State) :
    ls.foldl (fun t l => t.sendTmb (f l)) s = { s with tmb := { s.tmb with reqs := s.tmb.reqs ++ ls.map f } } := by
  induction ls generalizing s with
  | nil => simp only [List.foldl_nil, List.map_nil, List.append_nil]
  | cons l ls ih =>
    simp only [List.foldl_cons, ih, List.map_cons]
    simp only [State.sendTmb, List.append_assoc, List.singleton_append]

@[simp] theorem State.unitEnt_issuedOn (s : State) (c unit : Nat) : (s.issuedOn c).unitEnt unit = s.unitEnt unit := by
  simp only [State.unitEnt, State.issuedOn, State.bump_ward]

@[simp] theorem State.tmb_issuedOn (s : State) (c : Nat) : (s.issuedOn c).tmb = s.tmb := by
  simp only [State.issuedOn, State.bump_tmb]

@[simp] theorem State.tmb_setTgroup (s : State) (core slot : Nat) (g : Option TGroup) : (s.setTgroup core slot g).tmb = s.tmb := by
  simp only [State.setTgroup]

/-- What a lane adds up as its tumbler's number, register A not cut off (R410). -/
def TGroup.tmbNum (g : TGroup) (w0 : BitVec 64) (l : Nat) : Int := (g.reg l (fA w0) : Int) + (if fBI w0 then fImm16 w0 else 0)

/-- A lane's number is one of 32,768 and lies within the unit's tumblers (R410). -/
def TGroup.TmbInRange (g : TGroup) (w0 : BitVec 64) (u : UnitEnt) (l : Nat) : Prop :=
  g.reg l (fA w0) < 32768 ∧ 0 ≤ g.tmbNum w0 l ∧ g.tmbNum w0 l < 32768 ∧ (u.tmbBase : Int) ≤ g.tmbNum w0 l ∧
    g.tmbNum w0 l < (u.tmbBase + u.tmbCount : Nat)

theorem TGroup.tmbNumber_eq {g : TGroup} {w0 : BitVec 64} {l : Nat} (h : g.reg l (fA w0) < 32768) : tmbNumber g w0 l = g.tmbNum w0 l := by
  rw [tmbNumber, TGroup.tmbNum, Nat.mod_eq_of_lt h]

/-- The check of R410 fails exactly for the lanes whose number is not in range. -/
theorem TGroup.tmbInRange_iff (g : TGroup) (w0 : BitVec 64) (u : UnitEnt) (l : Nat) :
    g.TmbInRange w0 u l ↔ (decide (32768 ≤ g.reg l (fA w0)) || decide (tmbNumber g w0 l < 0) || decide (32768 ≤ tmbNumber g w0 l) ||
      decide (tmbNumber g w0 l < u.tmbBase) || decide ((u.tmbBase + u.tmbCount : Nat) ≤ tmbNumber g w0 l)) = false := by
  simp only [TGroup.TmbInRange, Bool.or_eq_false_iff, decide_eq_false_iff_not]
  constructor
  case mp =>
    intro ⟨hreg, h0, h1, h2, h3⟩
    rw [TGroup.tmbNumber_eq hreg]
    omega
  case mpr =>
    intro ⟨⟨⟨⟨hreg, h0⟩, h1⟩, h2⟩, h3⟩
    rw [TGroup.tmbNumber_eq (Nat.not_le.mp hreg)] at h0 h1 h2 h3
    omega

section
variable {s : State} {core slot : Nat} {w0 : BitVec 64} {b : TBlock} {g : TGroup} {u : UnitEnt} (hu : s.unitEnt b.unit = some u)
include hu

theorem State.tmbRangeFault_eq_none {ls : List Nat} (h : ∀ l ∈ ls, g.TmbInRange w0 u l) : s.tmbRangeFault core slot w0 b g ls = none := by
  rw [State.tmbRangeFault, hu]
  simp only
  rw [List.filter_eq_nil_iff.mpr]
  intro l hl
  rw [(g.tmbInRange_iff w0 u l).mp (h l hl)]
  exact Bool.false_ne_true

theorem State.tmbRangeFault_single {l : Nat} (h : ¬ g.TmbInRange w0 u l) :
    ∃ d, s.tmbRangeFault core slot w0 b g [l] = some (s.preciseFault core slot 0x0801 (maskOf [l]) 0 d) := by
  rw [g.tmbInRange_iff, Bool.not_eq_false] at h
  rw [State.tmbRangeFault, hu]
  simp only
  simp only [List.filter_cons, h, if_true, List.filter_nil]
  exact ⟨_, rfl⟩

/-- Every lane's number in range, each acting lane's operation is sent and the group goes on, what it will receive on its way (R411, R413, R414). -/
theorem State.tmbLanes_sends (op : TmbOp) (operand : Nat → Nat) (dest pd : Nat) (acq : Bool) (h : ∀ l ∈ g.acting w0, g.TmbInRange w0 u l) :
    (s.tmbLanes core slot w0 b g op operand dest pd acq).tmb.reqs = s.tmb.reqs ++ (g.acting w0).map (fun l =>
      { src := .tgroup core slot, kind := 1, id := core, op := op, tmb := (g.tmbNum w0 l).toNat, operand := operand l, unit := b.unit, lane := l,
        pc := g.pc, after := s.nextAcc, sys := fMod w0 47 46 == 3, dest := dest, pd := pd, acq := acq, tag := s.nextAcc }) ∧
    (s.tmbLanes core slot w0 b g op operand dest pd acq).tgroup core slot =
      some { g.await s.nextAcc (g.acting w0) (destOf dest 1 ++ (if pd = 7 then [] else [256 + pd])) with
        wait := if acq && !(g.acting w0).isEmpty then GWait.tmbOp s.nextAcc else GWait.none, pc := (g.pc + 8) % 2 ^ 57, lockWait := [] } := by
  rw [State.tmbLanes, State.tmbRangeFault_eq_none hu h]
  simp only [State.foldl_sendTmb, State.advance, State.tmb_setTgroup, State.tgroup_setTgroup_same, Nat.mul_one]
  refine ⟨congrArg _ (List.map_congr_left fun l hl => ?_), rfl⟩
  rw [State.tmbReqOf, TGroup.tmbNumber_eq (h l hl).1]

end

end Sys2Proof.Machine
end

section
/-! The family of the T-core's instruction set: barriers, fences and tumblers. -/

open Sys2Proof Sys2Proof.Machine
namespace Sys2Proof.Claims

/-- Settles O11: both arrivals are `arriveBar` at the barrier that the block holds. -/
theorem tCoreBarriers : Obligations.TCoreBarriers := by
  intro core slot w0 w1 s b g x t0 n threads b'
  refine ⟨?sync, ?arv, ?excess, ?badCount, ?fence⟩
  case sync =>
    intro h bar armed room
    rw [exec_barSync, execBarSync, State.issue_of_issues h, State.arriveBar_armed _ _ _ _ _ bar armed room]
    rfl
  case arv =>
    intro h bar armed room
    rw [exec_barArv, execBarArv, State.issue_of_issues h, State.arriveBar_armed _ _ _ _ _ bar armed room]
    rfl
  case excess =>
    intro h bar armed full
    rw [exec_barSync, execBarSync, State.issue_of_issues h, State.arriveBar_excess _ _ _ _ _ bar armed full]
    rfl
  case badCount =>
    intro h bar unarmed hasCount imm bad
    rw [exec_barSync, execBarSync, State.issue_of_issues h, State.arriveBar_badCount _ _ _ _ _ bar unarmed hasCount imm bad]
    rfl
  case fence =>
    intro h
    rw [exec_fence, execFence, State.issue_of_issues h]

/-- Settles O12: the four operations of every lane are `tmbLanes`; TMB.WAIT sends the operation of the lowest lane alone. -/
theorem tCoreTumblers : Obligations.TCoreTumblers := by
  intro core slot w0 w1 s b g u t0 val num inRange req lanes gone sent arvForm waitForm hu
  have hu0 : (s.issuedOn core).unitEnt b.unit = some u := (s.unitEnt_issuedOn core b.unit).trans hu
  have sends (op : TmbOp) (operand : Nat → Nat) (dest pd : Nat) (acq : Bool) (h : ∀ l ∈ g.acting w0, inRange l) :
      (t0.tmbLanes core slot w0 b g op operand dest pd acq).tmb.reqs = sent (fun l => { req op (operand l) l with dest := dest, pd := pd, acq := acq }) ∧
      (t0.tmbLanes core slot w0 b g op operand dest pd acq).tgroup core slot = some (gone dest pd acq) := by
    have key := State.tmbLanes_sends (core := core) (slot := slot) hu0 op operand dest pd acq h
    rwa [State.nextAcc_issuedOn, State.tmb_issuedOn] at key
  refine ⟨?arv, ?poll, ?take, ?put, ?wait, ?waitRange⟩
  case arv =>
    intro h range
    rw [exec_tmbArv, execTmbArv, State.issue_of_issues h]
    exact ⟨_, rfl, sends _ _ _ _ _ range⟩
  case poll =>
    intro h range
    rw [exec_tmbPoll, execTmbPoll, State.issue_of_issues h]
    exact ⟨_, rfl, sends _ _ _ _ _ range⟩
  case take =>
    intro h range
    rw [exec_tmbTake, execTmbTake, State.issue_of_issues h]
    exact ⟨_, rfl, sends _ _ _ _ _ range⟩
  case put =>
    intro h range
    rw [exec_tmbPut, execTmbPut, State.issue_of_issues h]
    exact ⟨_, rfl, sends _ _ _ _ _ range⟩
  case wait =>
    intro h range
    have hnum : tmbNumber g w0 g.lowest = num g.lowest := TGroup.tmbNumber_eq range.1
    rw [exec_tmbWait, execTmbWait, State.issue_of_issues h, State.tmbRangeFault_eq_none hu0 (List.forall_mem_singleton.mpr range)]
    refine ⟨_, rfl, ?_, ?_⟩
    · simp only [State.tmb_setTgroup, State.sendTmb, State.tmb_issuedOn, State.tmbReqOf, hnum, State.nextAcc_issuedOn, req]
    · simp only [State.tgroup_setTgroup_same, State.tmbReqOf, hnum, t0]
  case waitRange =>
    intro h range
    obtain ⟨d, fault⟩ := State.tmbRangeFault_single (core := core) (slot := slot) hu0 range
    rw [exec_tmbWait, execTmbWait, State.issue_of_issues h, fault]
    exact ⟨d, rfl⟩

end Sys2Proof.Claims
end

section
/-! SUPPORT. The checks at issue in their order (R370), and what a precise fault changes (R206 to R208). -/

open Sys2Proof
namespace Sys2Proof.Machine

theorem exec_iadd_issue (core slot : Nat) (w0 w1 : BitVec 64) (s : State) :
    ∃ act, exec (.iadd core slot w0 w1) s = .next (s.issue core slot 0x10 w0 (intForm w0 [fA w0] true) act) := by
  have run : exec (.iadd core slot w0 w1) s = .next (s.intBin core slot 0x10 w0 (fun w a b => (a + b) % 2 ^ w)) := rfl
  rw [run, State.intBin, State.lanesOp]
  exact ⟨_, rfl⟩

/-! ### The checks at issue -/

section
variable {s : State} {core slot opc : Nat} {w0 : BitVec 64} {f : OpForm} {b : TBlock} {g : TGroup} (act : State → TBlock → TGroup → State)

/-- A word of another row of the tables is not this instruction's. -/
theorem State.issue_foreign (other : opcOf w0 ≠ opc) (defined : opcOf w0 ∈ definedOpcs) : s.issue core slot opc w0 f act = s := by
  have none_ : f.takes opc w0 = none := by simp [OpForm.takes, other, defined]
  rw [State.issue, none_]

/-- A word of no row is one whose encoding is undefined. -/
theorem State.issue_undefined (undefined : opcOf w0 ∉ definedOpcs) (own : opc ∈ definedOpcs) (ready : s.issuable core slot w0 { bad := true } = some (b, g))
    (fetched : s.fetchAt b g.pc 1 = .ok) : s.issue core slot opc w0 f act = s.preciseFault core slot 0x0403 g.active 0 (illegalDetail w0) := by
  have other : opcOf w0 ≠ opc := fun same => undefined (same ▸ own)
  have bad : f.takes opc w0 = some { bad := true } := by simp [OpForm.takes, other, undefined]
  have illegal : OpForm.illegal { bad := true } w0 = true := by simp only [OpForm.illegal, Bool.or_true]
  simp only [State.issue, bad, ready, fetched, illegal, if_true]

variable (same : opcOf w0 = opc)
include same

theorem State.issue_unready (unready : s.issuable core slot w0 f = none) : s.issue core slot opc w0 f act = s := by
  have takes : f.takes opc w0 = some f := if_pos same
  simp only [State.issue, takes, unready]

variable (ready : s.issuable core slot w0 f = some (b, g))
include ready

theorem State.issue_stalled (stalled : s.fetchAt b g.pc f.words = .wait) : s.issue core slot opc w0 f act = s := by
  have takes : f.takes opc w0 = some f := if_pos same
  simp only [State.issue, takes, ready, stalled]

variable (fetched : s.fetchAt b g.pc f.words = .ok)
include fetched

theorem State.issue_illegal (illegal : f.illegal w0 = true) :
    s.issue core slot opc w0 f act = s.preciseFault core slot 0x0403 g.active 0 (illegalDetail w0) := by
  have takes : f.takes opc w0 = some f := if_pos same
  simp only [State.issue, takes, ready, fetched, illegal, if_true]

theorem State.issue_beyond {r : Nat} (legal : f.illegal w0 = false) (beyond : f.beyond b = some r) :
    s.issue core slot opc w0 f act = s.preciseFault core slot 0x0402 g.active 0 (detailOf [(52, 1, r), (53, 1, 8 * b.regs - 1)]) := by
  have takes : f.takes opc w0 = some f := if_pos same
  simp only [State.issue, takes, ready, fetched, legal, beyond, Bool.false_eq_true, if_false]

theorem State.issue_diverged (legal : f.illegal w0 = false) (within : f.beyond b = none) (uniform : f.uniform = true) (diverged : g.live ≠ g.active) :
    s.issue core slot opc w0 f act = s.preciseFault core slot 0x0401 g.active 0 (detailOf [(52, 4, g.active), (56, 4, g.live)]) := by
  have takes : f.takes opc w0 = some f := if_pos same
  have diverges : (f.uniform && g.diverged) = true := by simp [uniform, TGroup.diverged, diverged]
  simp only [State.issue, takes, ready, fetched, legal, within, diverges, Bool.false_eq_true, if_false, if_true]

end

/-! ### A precise fault -/

section
variable {s : State} {core slot : Nat} {b : TBlock} {g : TGroup} {p : FrameProg}

/-- The record of a precise fault of a group, as it is held to the end of the cycle. -/
def TGroup.preciseRec (g : TGroup) (b : TBlock) (core slot code lanes addr : Nat) (d : List Byte) : Rec :=
  { code := code, precise := true, lanes := lanes, addr := addr, detail := d, srcKind := 1, srcId := core, pc := g.pc, group := slot, groupV := true
    item := b.item }

@[simp] theorem State.prog_setFlag (s : State) (f : RegField) (x : Bool) (unit : Nat) : (s.setFlag f x).prog unit = s.prog unit := by
  simp only [State.prog, State.unitRun, State.setFlag_units]

@[simp] theorem State.prog_bump (s : State) (f : RegField) (unit : Nat) : (s.bump f).prog unit = s.prog unit := by
  simp only [State.prog, State.unitRun, State.bump_units]

/-- The core's count of faults, and the flag that shows one. -/
def State.faultShown (s : State) (core : Nat) : State := (s.bump (RF.TCW_FAULTS_COUNT core)).setFlag (RF.TCW_STAT_FAULTED core) true

theorem State.raiseT_of_prog {unit : Nat} (hp : s.prog unit = some p) (r : Rec) (xlt : Option (Nat × Nat)) : s.raiseT core slot unit r xlt =
    { s.faultShown core with tc := { s.tc with faults :=
      s.tc.faults ++ [{ unit := unit, cmd := p.cmd, core := core, slot := slot, rec_ := r, xlt := xlt }] } } := by
  simp only [State.raiseT, State.faultShown, State.prog_setFlag, State.prog_bump, hp, State.setFlag_tc, State.bump_tc]

theorem State.fld_faultShown (s : State) (core : Nat) :
    (s.faultShown core).fld (RF.TCW_FAULTS_COUNT core) = min (s.fld (RF.TCW_FAULTS_COUNT core) + 1) (2 ^ 32 - 1) := by
  rw [State.faultShown, State.fld_setFlag_other _ _ _ _ (by simp only [RF.TCW_FAULTS_COUNT, RF.TCW_STAT_FAULTED, RA.TCW_FAULTS, RA.TCW_STAT]; omega),
    State.fld_bump_same _ _ (by simp [RF.TCW_FAULTS_COUNT]) (by simp [RF.TCW_FAULTS_COUNT])]
  rfl

section
variable {unit : Nat} (hp : s.prog unit = some p) (r : Rec) (xlt : Option (Nat × Nat))
include hp

theorem State.faults_raiseT : (s.raiseT core slot unit r xlt).tc.faults =
    s.tc.faults ++ [{ unit := unit, cmd := p.cmd, core := core, slot := slot, rec_ := r, xlt := xlt }] := by
  rw [State.raiseT_of_prog hp]

theorem State.tgroup_raiseT (c k : Nat) : (s.raiseT core slot unit r xlt).tgroup c k = s.tgroup c k := by
  rw [State.raiseT_of_prog hp]
  simp only [State.tgroup]

theorem State.mem_raiseT : (s.raiseT core slot unit r xlt).mem = s.mem := by
  simp only [State.raiseT_of_prog hp, State.faultShown, State.setFlag_mem, State.bump_mem]

theorem State.host_raiseT : (s.raiseT core slot unit r xlt).host = s.host := by
  simp only [State.raiseT_of_prog hp, State.faultShown, State.setFlag_host, State.bump_host]

theorem State.fld_raiseT : (s.raiseT core slot unit r xlt).fld (RF.TCW_FAULTS_COUNT core) = min (s.fld (RF.TCW_FAULTS_COUNT core) + 1) (2 ^ 32 - 1) := by
  rw [← State.fld_faultShown, State.raiseT_of_prog hp]
  simp only [State.fld, State.reg]

end

theorem State.preciseFault_raises (hg : s.tgroup core slot = some g) (hb : s.tblock core g.blk = some b)
    (code lanes addr : Nat) (d : List Byte) :
    s.preciseFault core slot code lanes addr d = s.raiseT core slot b.unit (g.preciseRec b core slot code lanes addr d) none := by
  simp only [State.preciseFault, State.tfault, hg, hb, if_true, TGroup.preciseRec]

end

end Sys2Proof.Machine
end

section
/-! The family of the T-core's instruction set: the checks at issue. -/

open Sys2Proof Sys2Proof.Machine
namespace Sys2Proof.Claims

/-- Settles O13: the cases of `State.issue` in their order, and the one way in which a precise fault is raised. -/
theorem tCoreIssueChecks : Obligations.TCoreIssueChecks := by
  intro core slot w0 w1 s b g f fm
  obtain ⟨act, run⟩ := exec_iadd_issue core slot w0 w1 s
  refine ⟨?unready, ?foreign, ?undefined, ?stalled, ?illegal, ?beyond, ?diverged, ?fault⟩
  case unready => exact fun same unready => run.trans (congrArg _ (State.issue_unready _ same unready))
  case foreign => exact fun other defined => run.trans (congrArg _ (State.issue_foreign _ other defined))
  case undefined =>
    exact fun undefined ready fetched => run.trans (congrArg _ (State.issue_undefined _ undefined (by decide) ready fetched))
  case stalled => exact fun same ready stalled => run.trans (congrArg _ (State.issue_stalled _ same ready stalled))
  case illegal =>
    exact fun same ready fetched illegal => run.trans (congrArg _ (State.issue_illegal _ same ready fetched illegal))
  case beyond =>
    exact fun r same ready fetched legal beyond => run.trans (congrArg _ (State.issue_beyond _ same ready fetched legal beyond))
  case diverged =>
    intro same ready fetched legal within diverged room
    rw [exec_mxa, State.handOver, if_neg (Bool.eq_false_iff.mp room)]
    exact congrArg _ (State.issue_diverged _ same ready fetched legal within rfl diverged)
  case fault =>
    intro code lanes addr d p hg hb hp started t r
    have raised : t = s.raiseT core slot b.unit r none := State.preciseFault_raises hg hb code lanes addr d
    rw [raised]
    exact ⟨State.faults_raiseT hp r none, State.tgroup_raiseT hp r none, State.mem_raiseT hp r none, State.host_raiseT hp r none,
      State.fld_raiseT hp r none⟩

end Sys2Proof.Claims
end

section
/-! SUPPORT. Blocks: descriptors, launched groups, accesses on their way and preemption (R145 to R153, R178 to R200). -/

open Sys2Proof
namespace Sys2Proof.Machine

theorem exec_blockDescriptorFetch (unit : Nat) (s : State) : exec (.blockDescriptorFetch unit) s = execBlockDescriptorFetch unit s := rfl
theorem exec_blockLaunch (unit item : Nat) (s : State) : exec (.blockLaunch unit item) s = execBlockLaunch unit item s := rfl
theorem exec_blockComplete (core blk : Nat) (s : State) : exec (.blockComplete core blk) s = execBlockComplete core blk s := rfl
theorem exec_homeAccess (acc lane err : Nat) (s : State) : exec (.homeAccess acc lane err) s = execHomeAccess acc lane err s := rfl
theorem exec_loadDataReturn (acc : Nat) (data : List Byte) (err : Nat) (s : State) :
    exec (.loadDataReturn acc data err) s = execLoadDataReturn acc data err s := rfl
theorem exec_storeAck (acc : Nat) (s : State) : exec (.storeAck acc) s = execStoreAck acc s := rfl
theorem exec_tPreempt (core : Nat) (s : State) : exec (.tPreempt core) s = execTPreempt core s := rfl
theorem exec_tDrainDone (core : Nat) (s : State) : exec (.tDrainDone core) s = execTDrainDone core s := rfl
theorem exec_tSaveDone (core : Nat) (s : State) : exec (.tSaveDone core) s = execTSaveDone core s := rfl
theorem exec_tRestoreDone (core : Nat) (ext : List Byte) (poison : Bool) (s : State) :
    exec (.tRestoreDone core ext poison) s = execTRestoreDone core ext poison s := rfl

/-! ### The descriptor at ENTRY -/

/-- A unit has a live core of a kind exactly when one of its cores of that kind is not dead. -/
theorem State.noLive_eq_false {s : State} {unit : Nat} {kind : Nat → Bool} (h : ∃ c ∈ s.unitCores unit, kind c = true ∧ s.deadCore c = false) :
    s.noLive unit kind = false := by
  obtain ⟨c, mine, ofKind, live⟩ := h
  rw [State.noLive, List.all_eq_false]
  exact ⟨c, List.mem_filter.mpr ⟨mine, ofKind⟩, Bool.not_eq_true _ ▸ live⟩

theorem State.noLive_eq_true {s : State} {unit : Nat} {kind : Nat → Bool} (h : ∀ c ∈ s.unitCores unit, kind c = true → s.deadCore c = true) :
    s.noLive unit kind = true := by
  rw [State.noLive, List.all_eq_true]
  intro c hc
  obtain ⟨mine, ofKind⟩ := List.mem_filter.mp hc
  exact h c mine ofKind

section
variable {s u : State} {unit : Nat} {p : FrameProg} {d : List Byte} (wants : s.wantsDesc unit = some p)
include wants

theorem execBlockDescriptorFetch_misaligned (misaligned : p.entry % 32 ≠ 0) : execBlockDescriptorFetch unit s =
    .next (s.descFault unit (if (s.unitCores unit).all (fun c => decide (512 ≤ c)) then 0x0901 else 0x040B) 0 []) := by
  rw [execBlockDescriptorFetch, wants]
  simp only [beq_eq_false_iff_ne.mpr misaligned, Bool.not_false, if_true]

variable (aligned : p.entry % 32 = 0) (read : s.devRead unit p.ctx 3 p.entry 32 (s.rangeCls unit p.ctx p.entry) = (u, .ok d false))
  (onV : Bool) (kindOf : natBit (d.getD 31 0).toNat 7 = onV)
include aligned read kindOf

/-- What the fetch of a descriptor that has been read goes on to: its core's kind is `onV`. -/
theorem execBlockDescriptorFetch_read : execBlockDescriptorFetch unit s = .next (
    let t := u.walkOnce s.primary
    let kind := fun (c : Nat) => decide (512 ≤ c) == onV
    if !(t.unitCores unit).any kind || !(if onV then vDescOk d else blockDescOk d) then
      t.descFault unit (if onV then 0x0901 else 0x040B) 0 (detailOf [(52, 8, dNat d 0 8)])
    else if t.noLive unit kind then t.terminate unit (t.lostRec unit kind)
    else (t.setProg unit { p with desc := d }).askLower unit) := by
  rw [execBlockDescriptorFetch, wants]
  simp only [aligned, beq_self_eq_true, Bool.not_true, Bool.false_eq_true, if_false, read, kindOf, apply_ite Host.Outcome.next]

theorem execBlockDescriptorFetch_kept (valid : (if onV then vDescOk d else blockDescOk d) = true)
    (live : ∃ c ∈ (u.walkOnce s.primary).unitCores unit, (decide (512 ≤ c) == onV) = true ∧ (u.walkOnce s.primary).deadCore c = false) :
    execBlockDescriptorFetch unit s = .next (((u.walkOnce s.primary).setProg unit { p with desc := d }).askLower unit) := by
  have mine : ((u.walkOnce s.primary).unitCores unit).any (fun c => decide (512 ≤ c) == onV) = true :=
    List.any_eq_true.mpr (live.imp fun c ⟨hc, ofKind, _⟩ => ⟨hc, ofKind⟩)
  rw [execBlockDescriptorFetch_read wants aligned read onV kindOf]
  simp only [mine, valid, Bool.not_true, Bool.or_self, Bool.false_eq_true, if_false, State.noLive_eq_false live]

theorem execBlockDescriptorFetch_lost (valid : (if onV then vDescOk d else blockDescOk d) = true)
    (mine : ∃ c ∈ (u.walkOnce s.primary).unitCores unit, (decide (512 ≤ c) == onV) = true)
    (dead : ∀ c ∈ (u.walkOnce s.primary).unitCores unit, (decide (512 ≤ c) == onV) = true → (u.walkOnce s.primary).deadCore c = true) :
    execBlockDescriptorFetch unit s = .next
      ((u.walkOnce s.primary).terminate unit ((u.walkOnce s.primary).lostRec unit (fun c => decide (512 ≤ c) == onV))) := by
  have anyMine : ((u.walkOnce s.primary).unitCores unit).any (fun c => decide (512 ≤ c) == onV) = true := List.any_eq_true.mpr mine
  rw [execBlockDescriptorFetch_read wants aligned read onV kindOf]
  simp only [anyMine, valid, Bool.not_true, Bool.or_self, Bool.false_eq_true, if_false, State.noLive_eq_true dead, if_true]

theorem execBlockDescriptorFetch_invalid (invalid : (if onV then vDescOk d else blockDescOk d) = false) :
    execBlockDescriptorFetch unit s = .next
      ((u.walkOnce s.primary).descFault unit (if onV then 0x0901 else 0x040B) 0 (detailOf [(52, 8, dNat d 0 8)])) := by
  rw [execBlockDescriptorFetch_read wants aligned read onV kindOf]
  simp only [invalid, Bool.not_false, Bool.or_true, if_true]

end

/-! ### A launched group -/

theorem natBit_maskOf {ls : List Nat} {l : Nat} (h : l ∈ ls) : natBit (maskOf ls) l = true := by
  induction ls with
  | nil => contradiction
  | cons a ls ih =>
    rw [maskOf, natBit_lor]
    rcases List.mem_cons.mp h with rfl | h
    · rw [natBit_two_pow_self, Bool.true_or]
    · rw [ih h, Bool.or_true]

/-- Registers r0 to r4 of a lane at launch (Table 4.2). -/
def launchRegs (idx item args core l : Nat) : List Nat := [item, l + 32 * idx, args % 2 ^ 32, args / 2 ^ 32 % 2 ^ 25, core]

/-- A lane's registers r0 to r4 take their values. -/
def TGroup.launchLane (g : TGroup) (idx item args core l : Nat) : TGroup :=
  ((((g.setReg l 0 item).setReg l 1 (l + 32 * idx)).setReg l 2 (args % 2 ^ 32)).setReg l 3 (args / 2 ^ 32 % 2 ^ 25)).setReg l 4 core

theorem TGroup.reg_launchLane (g : TGroup) (idx item args core : Nat) {l l' : Nat} (r : Nat) (hl : l < 32) (hl' : l' < 32) :
    (g.launchLane idx item args core l).reg l' r =
      if l' = l ∧ r < 5 then (launchRegs idx item args core l').getD r 0 % 2 ^ 32 else g.reg l' r := by
  simp only [TGroup.launchLane, TGroup.reg_setReg _ _ _ _ hl hl']
  by_cases same : l' = l
  · subst same
    match r with
    | 0 | 1 | 2 | 3 | 4 => simp [launchRegs]
    | r + 5 => simp
  · simp [same]

theorem TGroup.launchLane_rest (g : TGroup) (idx item args core l : Nat) (none_ : g.pend = []) :
    g.launchLane idx item args core l = { g with regs := (g.launchLane idx item args core l).regs } := by
  have pend : (g.launchLane idx item args core l).pend = [] := by simp [TGroup.launchLane, TGroup.setReg_pend, none_]
  have rest : g.launchLane idx item args core l =
      { g with regs := (g.launchLane idx item args core l).regs, pend := (g.launchLane idx item args core l).pend } := by
    simp only [TGroup.launchLane, TGroup.setReg, TGroup.overtake]
    rfl
  rw [rest, pend, ← none_]

/-- Lane by lane, the registers take their values and nothing else of the group changes. -/
theorem TGroup.foldl_launchLane (idx item args core : Nat) (ls : List Nat) (g : TGroup) (none_ : g.pend = []) (lt : ∀ l ∈ ls, l < 32) :
    (∀ l < 32, ∀ r, (ls.foldl (fun g l => g.launchLane idx item args core l) g).reg l r =
      if l ∈ ls ∧ r < 5 then (launchRegs idx item args core l).getD r 0 % 2 ^ 32 else g.reg l r) ∧
    ∃ R, ls.foldl (fun g l => g.launchLane idx item args core l) g = { g with regs := R } := by
  induction ls generalizing g with
  | nil => exact ⟨fun l _ r => by simp, g.regs, rfl⟩
  | cons a ls ih =>
    have rest := g.launchLane_rest idx item args core a none_
    obtain ⟨regs, R, same⟩ := ih (g.launchLane idx item args core a) (by rw [rest]; exact none_) (fun l hl => lt l (List.mem_cons_of_mem a hl))
    refine ⟨fun l hl r => ?_, R, ?_⟩
    · rw [List.foldl_cons, regs l hl, g.reg_launchLane idx item args core r (lt a List.mem_cons_self) hl]
      by_cases isA : l = a <;> by_cases low : r < 5 <;> simp [isA, low]
    · rw [List.foldl_cons, same, rest]

theorem launchGroup_eq (blk idx threads item args core entry : Nat) : launchGroup blk idx threads item args core entry =
    (List.range (min 32 (threads - 32 * idx))).foldl (fun g l => g.launchLane idx item args core l)
      { blk := blk, idx := idx, pc := (entry + 32) % 2 ^ 57, live := maskOf (List.range (min 32 (threads - 32 * idx)))
        active := maskOf (List.range (min 32 (threads - 32 * idx))) } := rfl

/-! ### Completion of a block -/

/-- A block completes when its threads have exited and all its work has ended (R152). -/
theorem execBlockComplete_of_ended {s : State} {core blk : Nat} {b : TBlock} (hb : s.tblock core blk = some b) (tcore : core < 512) (alive : s.alive = true)
    (exited : ∀ sl ∈ b.slots, s.groupQuiet core sl = true ∧ ∀ g, s.tgroup core sl = some g → g.live = 0)
    (idle : ∀ e ∈ b.engs, (s.engine core e).mq = [] ∧ (s.engine core e).vq = [] ∧ (s.engine core e).ops = []) :
    execBlockComplete core blk s = .next ((((s.freeBlock core blk).itemDone b.unit b.item).dropMove core b.unit).pumpRestores [core]) := by
  have dead : b.slots.all (fun sl => match s.tgroup core sl with
      | some g => g.live == 0
      | none => true) = true := List.all_eq_true.mpr fun sl hsl => by
    cases hg : s.tgroup core sl with
    | none => rfl
    | some g => simp [(exited sl hsl).2 g hg]
  have engsIdle : b.engs.all (fun e => (s.engine core e).mq.isEmpty && (s.engine core e).vq.isEmpty && (s.engine core e).ops.isEmpty) = true :=
    List.all_eq_true.mpr fun e he => by
      obtain ⟨mq, vq, ops⟩ := idle e he
      simp [mq, vq, ops]
  have quiet : b.slots.all (s.groupQuiet core) = true := List.all_eq_true.mpr fun sl hsl => (exited sl hsl).1
  rw [execBlockComplete, hb]
  refine if_pos ?_
  simp only [decide_eq_true tcore, alive, engsIdle, quiet, Bool.and_true, Bool.true_and]
  exact dead

/-! ### Accesses on their way -/

section
variable {s t : State} {acc lane err : Nat} {a a' : Acc} {l : AccLane} (ha : s.acc acc = some a)
include ha

theorem execHomeAccess_performs (ofHome : a.tcore = true ∨ a.kind = 3) (part : a.lanes.find? (fun l => l.lane == lane && !l.performed && !l.remote) = some l)
    (free : a.need = []) (alive : s.alive = true) (ready : ∀ x ∈ a.together l, s.accWaits acc a x = false)
    (performs : (s.homeErr a l err).performAll acc a (a.together l) = some (t, a')) :
    execHomeAccess acc lane err s = .next (t.setAcc acc (some a')) := by
  have notOther : ¬ (!a.tcore ∧ a.kind ≠ 3) := by rcases ofHome with h | h <;> simp [h]
  have noneWait : (a.together l).any (s.accWaits acc a) = false := List.any_eq_false.mpr fun x hx => by rw [ready x hx]; exact Bool.false_ne_true
  rw [execHomeAccess, ha]
  simp only [if_neg notOther, part, free, alive, noneWait, performs, List.isEmpty_nil, Bool.not_true, Bool.or_self, Bool.false_eq_true, if_false]

theorem execHomeAccess_waits (ofHome : a.tcore = true ∨ a.kind = 3) (part : a.lanes.find? (fun l => l.lane == lane && !l.performed && !l.remote) = some l)
    (waits : ∃ x ∈ a.together l, s.accWaits acc a x = true) : execHomeAccess acc lane err s = .next s := by
  have notOther : ¬ (!a.tcore ∧ a.kind ≠ 3) := by rcases ofHome with h | h <;> simp [h]
  have someWaits : (a.together l).any (s.accWaits acc a) = true := List.any_eq_true.mpr waits
  rw [execHomeAccess, ha]
  simp only [if_neg notOther, part, someWaits, Bool.or_true, if_true]

theorem State.tryFinish_of_performed (done : ∀ l ∈ a.lanes, l.performed = true) : s.tryFinish acc = s.finishAcc acc a := by
  have all : a.lanes.all (fun l => l.performed) = true := List.all_eq_true.mpr done
  simp only [State.tryFinish, ha, all, if_true]

theorem State.tryFinish_of_unperformed (open_ : ∃ l ∈ a.lanes, l.performed = false) : s.tryFinish acc = s := by
  have notAll : a.lanes.all (fun l => l.performed) = false :=
    List.all_eq_false.mpr (open_.imp fun l ⟨hl, h⟩ => ⟨hl, by rw [h]; exact Bool.false_ne_true⟩)
  simp only [State.tryFinish, ha, notAll, Bool.false_eq_true, if_false]

end

/-! ### Preemption of a T-core -/

theorem State.fld_lt (s : State) (f : RegField) : s.fld f < 2 ^ (f.hi - f.lo + 1) := Nat.mod_lt _ (Nat.two_pow_pos _)

theorem State.flag_eq_of_regs {s t : State} (h : t.regs = s.regs) (f : RegField) : t.flag f = s.flag f := by
  simp only [State.flag, State.fld, State.reg, h]

@[simp] theorem State.regs_syncClock (s : State) (unit : Nat) : (s.syncClock unit).regs = s.regs := by
  unfold State.syncClock
  split
  case h_1 => split <;> rfl
  case h_2 => rfl

section
variable (s : State) (core unit : Nat)

/-- The state in which T_PREEMPT looks for the program's blocks: the request is off the list. -/
def State.preemptTaken : State := (s.takePreempt core unit).setFlag (RF.TCW_STAT_RESTORING core) false

theorem State.preemptTaken_eq : s.preemptTaken core unit = (s.takePreempt core unit).setFlag (RF.TCW_STAT_RESTORING core) false := rfl

@[simp] theorem State.coreBlocks_preemptTaken (c : Nat) : (s.preemptTaken core unit).coreBlocks c = s.coreBlocks c := by
  simp only [State.coreBlocks, State.tblock, State.preemptTaken, State.setFlag_tc, State.takePreempt]

/-- Taking a request off the list begins no move. -/
theorem State.moveOn_preemptTaken (tcore : core < 512) (still : (s.moveOn core).isNone = true) : (s.preemptTaken core unit).moveOn core = none := by
  rw [Option.isNone_iff_eq_none] at still
  rw [State.moveOn, if_pos tcore, List.find?_eq_none] at still
  rw [State.moveOn, if_pos tcore, List.find?_eq_none]
  intro m hm
  rw [State.preemptTaken, State.setFlag_tc, State.takePreempt] at hm
  exact still m (List.mem_filter.mp hm).1

end

end Sys2Proof.Machine
end

section
/-! The family of the T-core: blocks, groups, accesses and preemption. -/

open Sys2Proof Sys2Proof.Machine
namespace Sys2Proof.Claims

/-- Settles O14: a descriptor that has been read is judged once, by the kind of core that it names; launch and completion have one condition each. -/
theorem blockLifeCycle : Obligations.BlockLifeCycle := by
  intro s u unit item core blk p b d t bad
  rw [exec_blockDescriptorFetch, exec_blockLaunch, exec_blockComplete]
  refine ⟨?misaligned, ?onT, ?onV, ?lost, ?invalid, ?launch, ?wait, ?complete⟩
  case misaligned => exact fun wants misaligned => execBlockDescriptorFetch_misaligned wants misaligned
  case onT =>
    intro wants aligned read kindOf valid ⟨c, mine, ofT, live⟩
    exact execBlockDescriptorFetch_kept wants aligned read false kindOf valid ⟨c, mine, by simpa using ofT, live⟩
  case onV =>
    intro wants aligned read kindOf valid ⟨c, mine, ofV, live⟩
    exact execBlockDescriptorFetch_kept wants aligned read true kindOf valid ⟨c, mine, by simpa using ofV, live⟩
  case lost =>
    intro v wants aligned read kindOf valid ⟨c, mine, ofKind⟩ dead
    exact execBlockDescriptorFetch_lost wants aligned read v kindOf valid ⟨c, mine, beq_iff_eq.mpr ofKind⟩ fun c hc h => dead c hc (beq_iff_eq.mp h)
  case invalid =>
    intro wants aligned read kindOf invalid
    exact ⟨_, execBlockDescriptorFetch_invalid wants aligned read false kindOf invalid⟩
  case launch =>
    intro onCore fits
    simp only [execBlockLaunch, onCore, fits, if_true]
  case wait =>
    intro onCore full
    simp only [execBlockLaunch, onCore, full, Bool.false_eq_true, if_false]
  case complete => exact fun hb tcore alive exited idle => execBlockComplete_of_ended hb tcore alive exited idle

/-- Settles O15: lane by lane, a launch writes r0 to r4 and nothing else. -/
theorem launchedGroup : Obligations.LaunchedGroup := by
  intro blk idx threads item args core entry l hl g
  have lane : l ∈ List.range (min 32 (threads - 32 * idx)) := List.mem_range.mpr hl
  have hl32 : l < 32 := lt_of_lt_of_le hl (Nat.min_le_left _ _)
  obtain ⟨regs, R, rest⟩ := TGroup.foldl_launchLane idx item args core (List.range (min 32 (threads - 32 * idx)))
    { blk := blk, idx := idx, pc := (entry + 32) % 2 ^ 57, live := maskOf (List.range (min 32 (threads - 32 * idx)))
      active := maskOf (List.range (min 32 (threads - 32 * idx))) } rfl (fun l hl => lt_of_lt_of_le (List.mem_range.mp hl) (Nat.min_le_left _ _))
  rw [← launchGroup_eq blk] at regs rest
  have low (r : Nat) (hr : r < 5) : g.reg l r = (launchRegs idx item args core l).getD r 0 % 2 ^ 32 := by
    rw [regs l hl32 r, if_pos ⟨lane, hr⟩]
  refine ⟨low 0 (by decide), low 1 (by decide), ?_, ?_, low 4 (by decide), fun r hr => ?_, fun q => ?_, ?_⟩
  · exact (low 2 (by decide)).trans (Nat.mod_mod _ _)
  · exact (low 3 (by decide)).trans (Nat.mod_eq_of_lt (lt_of_lt_of_le (Nat.mod_lt _ (Nat.two_pow_pos 25)) (Nat.pow_le_pow_right (by decide) (by decide))))
  · rw [regs l hl32 r, if_neg (by omega)]
    simp [TGroup.reg, kvGet]
  · simp only [g, rest, TGroup.pred]
    by_cases h : q = 7 <;> simp [h, kvGet, natBit]
  · simp only [g, rest, kvGet, natBit_maskOf lane, and_self]

/-- Settles O16: an access ends when its last part is performed, at the home or by what the host returns. -/
theorem accessLifeCycle : Obligations.AccessLifeCycle := by
  intro s t acc lane err a a' l data ha
  rw [exec_homeAccess, exec_loadDataReturn, exec_storeAck]
  refine ⟨?performs, ?waits, ?returned, ?host, ?ack, ?open_⟩
  case performs => exact fun ofHome part free alive ready performs => execHomeAccess_performs ha ofHome part free alive ready performs
  case waits => exact fun ofHome part waits => execHomeAccess_waits ha ofHome part waits
  case returned =>
    intro kind noHost done
    simp only [execLoadDataReturn, ha, noHost, kind, false_and, if_false, List.isEmpty_nil, Bool.true_or, if_true,
      State.tryFinish_of_performed ha done]
  case host =>
    intro parts small len
    have some_ : (s.hostParts a).isEmpty = false := by simpa using parts
    simp only [execLoadDataReturn, ha, parts, some_, and_false, if_false, Bool.false_or, decide_eq_true small, len, beq_self_eq_true, Bool.true_or,
      Bool.and_self, if_true, Bool.false_eq_true]
  case ack =>
    intro kind done
    simp only [execStoreAck, ha, kind, if_false, State.tryFinish_of_performed ha done]
  case open_ =>
    intro open_
    simp only [execStoreAck, ha, State.tryFinish_of_unperformed ha open_, ite_self]

/-- Settles O17: T_PREEMPT goes by the blocks that the program has on the core; a save and a restore fail at once where no slot is set. -/
theorem corePreemption : Obligations.CorePreemption := by
  intro s core unit m p sv ext poison
  rw [exec_tPreempt, exec_tDrainDone, exec_tSaveDone, exec_tRestoreDone]
  refine ⟨?none_, ?saves, ?drained, ?saveFails, ?restoreFails⟩
  case none_ =>
    intro asked tcore alive still noBlocks
    have noneMine : (s.coreBlocks core).filter (fun b => b.2.unit == unit) = [] :=
      List.filter_eq_nil_iff.mpr fun b hb => by simpa using noBlocks b hb
    rw [execTPreempt, asked]
    simp only [tcore, alive, and_self, if_true, ← State.preemptTaken_eq, State.coreBlocks_preemptTaken, noneMine, List.isEmpty_nil, Bool.true_or]
  case saves =>
    intro asked tcore alive still ⟨b, hb, mine⟩
    have someMine : ((s.coreBlocks core).filter (fun b => b.2.unit == unit)).isEmpty = false :=
      List.isEmpty_eq_false_iff_exists_mem.mpr ⟨b, List.mem_filter.mpr ⟨hb, beq_iff_eq.mpr mine⟩⟩
    rw [execTPreempt, asked]
    simp only [tcore, alive, and_self, if_true, ← State.preemptTaken_eq, State.coreBlocks_preemptTaken, someMine, State.moveOn_preemptTaken s core unit tcore still,
      Option.isSome_none, Bool.or_self, Bool.false_eq_true, if_false]
    exact ⟨_, rfl, (State.flag_eq_of_regs (State.regs_syncClock ..) _).trans (State.flag_setFlag_same _ _ _ rfl (by simp only [RF.TCW_STAT_SAVING]; decide))⟩
  case drained =>
    intro found alive later drained
    rw [execTDrainDone, found]
    simp only [alive, decide_eq_true later, drained, Bool.and_self, if_true]
    refine ⟨_, rfl, by rw [State.setFld_tc], ?_⟩
    rw [State.fld_setFld_same _ _ _ (Nat.zero_le _) (by simp only [RF.TCW_DRAIN_MAX_CYCLES]; decide), Nat.mod_eq_of_lt]
    · simp only [State.fld, State.reg]
    · exact max_lt (State.fld_lt _ (RF.TCW_DRAIN_MAX_CYCLES core)) (lt_of_le_of_lt (Nat.min_le_right _ _) (by simp only [RF.TCW_DRAIN_MAX_CYCLES]; decide))
  case saveFails =>
    intro found hp alive noSlot
    simp only [execTSaveDone, found, hp, alive, noSlot, Bool.not_true, Bool.false_eq_true, if_false, if_true]
  case restoreFails =>
    intro found hp saved mine alive noSlot
    simp only [execTRestoreDone, found, hp, saved, mine, alive, noSlot, beq_self_eq_true, Bool.not_true, Bool.or_self, Bool.false_eq_true, if_false, if_true]

end Sys2Proof.Claims
end

section
/-! SUPPORT. The instructions of a V-core that write registers alone (R419, R437 to R447). -/

open Sys2Proof
namespace Sys2Proof.Machine

theorem exec_vcoreBaseInstruction (core : Nat) (w : BitVec 32) (err : Nat) (s : State) :
    exec (.vcoreBaseInstruction core w err) s = execVcoreBaseInstruction core w err s := rfl

/-! ### Xslv arithmetic -/

/-- An instruction of Table 9.4 past its fetch. -/
theorem State.xaOp_of_issues {s t : State} {core x op : Nat} {w : BitVec 32} (h : s.VIssues core w t x) (opcode : iOp w.toNat = 0x5B) (mine : xOp w.toNat = op)
    (fp int : Bool) (cycles : VCore → Nat) (f : Bool → VCore → Nat → Option VCore) :
    s.xaOp core w op fp int cycles f =
      if (t.vcore core).xaOk x fp int then
        match f (t.vstrict core) (t.vcore core) x with
        | some v' => (t.setVcore core v').xaEnd core w (cycles (t.vcore core))
        | none => t.villegal core w
      else t.villegal core w := by
  rw [State.xaOp, if_pos ⟨opcode, mine⟩, State.vissue_of_vissues h] <;> rfl

theorem State.xaEnd_retires (t : State) (core : Nat) (v : VCore) (w : BitVec 32) (cycles : Nat) :
    t.VRetires ((t.setVcore core v).xaEnd core w cycles) core v (v.pc + iLen w) :=
  t.busy_retires core v w _ cycles 5 (by simp only [RF.VCW_VBUSY_CYCLES, RF.VCW_INSTRET_COUNT, RA.VCW_VBUSY, RA.VCW_INSTRET]; omega)

/-! ### Elements of a vector register -/

theorem elemOf_setBits_same (sew reg i n : Nat) : elemOf sew (natSetBits reg (sew * i) sew n) i = n % 2 ^ sew := natBits_setBits_same ..

theorem elemOf_setBits_other (sew reg n : Nat) {i j : Nat} (h : j ≠ i) : elemOf sew (natSetBits reg (sew * i) sew n) j = elemOf sew reg j := by
  refine natBits_setBits_other _ _ _ _ _ _ ?_
  rcases Nat.lt_or_gt_of_ne h with lt | gt
  · exact .inl (Nat.mul_le_mul_left sew lt)
  · exact .inr (Nat.mul_le_mul_left sew gt)

theorem elemOf_putElems_other (sew : Nat) {i : Nat} (es : List (Nat × Nat)) (reg : Nat) (h : i ∉ es.map (fun e => e.1)) :
    elemOf sew (putElems sew reg es) i = elemOf sew reg i := by
  induction es generalizing reg with
  | nil => rfl
  | cons e es ih =>
    rw [List.map_cons, List.mem_cons, not_or] at h
    rw [putElems, ih _ h.2, elemOf_setBits_other _ _ _ h.1]

theorem elemOf_putElems_of_mem (sew : Nat) {e : Nat × Nat} (es : List (Nat × Nat)) (reg : Nat) (nodup : (es.map (fun e => e.1)).Nodup) (h : e ∈ es) :
    elemOf sew (putElems sew reg es) e.1 = e.2 % 2 ^ sew := by
  induction es generalizing reg with
  | nil => contradiction
  | cons a es ih =>
    obtain ⟨fresh, nodup⟩ := List.nodup_cons.mp nodup
    rw [putElems]
    rcases List.mem_cons.mp h with rfl | h
    · rw [elemOf_putElems_other _ _ _ fresh, elemOf_setBits_same]
    · exact ih _ nodup h

/-! ### Parts of a core that a write of results leaves -/

@[simp] theorem VCore.v_dirtyF (v : VCore) : v.dirtyF.v = v.v := rfl
@[simp] theorem VCore.v_dirtyX (v : VCore) : v.dirtyX.v = v.v := rfl
@[simp] theorem VCore.x_dirtyF (v : VCore) : v.dirtyF.x = v.x := rfl
@[simp] theorem VCore.x_dirtyX (v : VCore) : v.dirtyX.x = v.x := rfl

@[simp] theorem VCore.v_accrue (v : VCore) (fl : Nat) : (v.accrue fl).v = v.v := by
  unfold VCore.accrue
  split <;> rfl

@[simp] theorem VCore.x_accrue (v : VCore) (fl : Nat) : (v.accrue fl).x = v.x := by
  unfold VCore.accrue
  split <;> rfl

@[simp] theorem VCore.vr_wv (v : VCore) (r n k : Nat) : (v.wv r n).vr k = if k = r then n else v.vr k := by
  simp only [VCore.vr, VCore.wv, VCore.v_dirtyF, VCore.v_dirtyX, kvGet_set]

theorem VCore.vr_putVd (v : VCore) (x sew : Nat) (rs : List (Nat × FRes)) (k : Nat) : (v.putVd x sew rs).vr k =
    if k = iRd x then putElems sew (v.vr (iRd x)) (rs.map (fun r => (r.1, r.2.bits))) else v.vr k := by
  rw [VCore.putVd, ← VCore.vr_wv]
  simp only [VCore.vr, VCore.v_accrue]

/-! ### Base instructions -/

section
variable (s : State) (core : Nat) (w : BitVec 32) {x : Nat}

/-- What JAL, JALR and the branches do with the address that follows. -/
theorem State.vbase_jal (h : iOp x = 0x6F) : s.vbase core w x = (s.setVcore core ((s.vcore core).wx (iRd x)
    (u64 (((s.vcore core).pc : Int) + iLen w)))).vretireTo core (u64 (((s.vcore core).pc : Int) + immJ x)) := by
  simp only [State.vbase, h]

theorem State.vbase_jalr (h : iOp x = 0x67) (defined : iF3 x = 0) : s.vbase core w x = (s.setVcore core ((s.vcore core).wx (iRd x)
    (u64 (((s.vcore core).pc : Int) + iLen w)))).vretireTo core (u64 (((s.vcore core).rx (iRs1 x) : Int) + immI x) / 2 * 2) := by
  simp only [State.vbase, h, defined, if_true]

theorem State.vbase_branch (h : iOp x = 0x63) {taken : Bool} (cond : branchIf (iF3 x) ((s.vcore core).rx (iRs1 x)) ((s.vcore core).rx (iRs2 x)) = some taken) :
    s.vbase core w x = if taken then s.vretireTo core (u64 (((s.vcore core).pc : Int) + immB x)) else s.vretire core w := by
  cases taken <;> simp [State.vbase, h, cond]

theorem State.vbase_system (h : iOp x = 0x73) : s.vbase core w x = s.vsystem core w x := by
  simp only [State.vbase, h]

theorem State.vbase_regs (jal : iOp x ≠ 0x6F) (jalr : iOp x ≠ 0x67) (branch : iOp x ≠ 0x63) (system : iOp x ≠ 0x73) :
    s.vbase core w x = match (s.vcore core).baseRegs x with
      | some v' => (s.setVcore core v').vretire core w
      | none => s.villegal core w := by
  unfold State.vbase
  split
  case h_1 h => exact absurd h jal
  case h_2 h => exact absurd h jalr
  case h_3 h => exact absurd h branch
  case h_4 h => exact absurd h system
  case h_5 => rfl

variable {s w} {err : Nat} {t : State}

/-- A word without a command of its own runs as a base instruction, once the fetch's report is taken. -/
theorem execVcoreBaseInstruction_of_issues (ready : s.vready core = true) (h : (s.fetchErr core err).VIssues core w t x) (own : ownCommand x = false) :
    execVcoreBaseInstruction core w err s = .next (t.vbase core w x) := by
  simp only [execVcoreBaseInstruction, ready, if_true, h.wide, own, Bool.false_eq_true, if_false, State.vissue_of_vissues h]

end

end Sys2Proof.Machine
end

section
/-! The family of the V-core's instruction set: statements about instructions that write registers alone. -/

open Sys2Proof Sys2Proof.Machine
namespace Sys2Proof.Claims

/-- Every row of Table 9.4 runs by the one arithmetic instruction. -/
theorem exec_vecRow {r : VecRow} (hr : r ∈ vecRows) (core : Nat) (w : BitVec 32) (s : State) :
    exec (r.instr core w) s = .next (s.xaOp core w r.op r.fp r.int r.cycles r.f) := by
  have sra (n a b : Nat) : ofSigned n (toSigned n a / 2 ^ (b % n)) = sarAt n a (b % n) := by rw [sarAt, Nat.mod_mod]
  simp only [vecRows, List.mem_append, List.mem_cons, List.not_mem_nil, or_false, or_assoc] at hr
  rcases hr with rfl | rfl | rfl | rfl | rfl | rfl | rfl | rfl | rfl | rfl | rfl | rfl | rfl | rfl | rfl | rfl | rfl | rfl | rfl | rfl | rfl | rfl | rfl |
    rfl | rfl | rfl | rfl | rfl
  case inr.inr.inr.inr.inr.inr.inr.inr.inr.inr.inr.inr.inr.inr.inl => simp only [eachRow, sra]; rfl
  all_goals rfl

/-- Settles O18: every row runs by the one arithmetic instruction, which retires with the row's core or is illegal. -/
theorem xslvArithmetic : Obligations.XslvArithmetic := by
  intro r hr core x w s t opcode mine h
  rw [exec_vecRow hr, State.xaOp_of_issues h opcode mine]
  refine ⟨fun v' ok result => ?_, fun undefined => ?_⟩
  · rw [if_pos ok, result]
    exact ⟨_, rfl, t.xaEnd_retires core v' w _⟩
  · rcases undefined with notOk | noResult
    · rw [if_neg (Bool.eq_false_iff.mp notOk)]
    · rw [noResult, ite_self]

/-- Settles O19: the elements of vd are replaced one by one, at places that do not meet. -/
theorem xslvWritesActiveElements : Obligations.XslvWritesActiveElements := by
  intro v x sew rs nodup
  have keys : (rs.map (fun r => (r.1, r.2.bits))).map (fun e => e.1) = rs.map (fun r => r.1) := by rw [List.map_map]; rfl
  refine ⟨fun r hr => ?_, fun i fresh => ?_, fun k other => ?_, fun k => ?_⟩
  · rw [VCore.vr_putVd, if_pos rfl]
    exact elemOf_putElems_of_mem sew _ _ (keys ▸ nodup) (List.mem_map_of_mem (f := fun r : Nat × FRes => (r.1, r.2.bits)) hr)
  · rw [VCore.vr_putVd, if_pos rfl, elemOf_putElems_other _ _ _ (keys ▸ fresh)]
  · rw [VCore.vr_putVd, if_neg other]
  · simp only [VCore.rx, VCore.putVd, VCore.x_accrue, VCore.wv, VCore.x_dirtyF, VCore.x_dirtyX]

/-- Settles O20: one case for each kind of base instruction. -/
theorem vcoreBaseInstructions : Obligations.VcoreBaseInstructions := by
  intro core x err w s t v' ready h own v link
  rw [exec_vcoreBaseInstruction, execVcoreBaseInstruction_of_issues core ready h own]
  refine ⟨?regs, ?undefined, ?jal, ?jalr, ?taken, ?notTaken, ?ecall, ?wfi, ?mret⟩
  case regs =>
    intro jal jalr branch system result
    rw [State.vbase_regs _ _ _ jal jalr branch system, result]
    exact ⟨_, rfl, t.vretire_retires core v' w⟩
  case undefined =>
    intro jal jalr branch system result
    rw [State.vbase_regs _ _ _ jal jalr branch system, result]
  case jal =>
    intro isJal
    rw [State.vbase_jal _ _ _ isJal]
    exact ⟨_, rfl, t.vretireTo_retires core _ _⟩
  case jalr =>
    intro isJalr defined
    rw [State.vbase_jalr _ _ _ isJalr defined]
    exact ⟨_, rfl, t.vretireTo_retires core _ _⟩
  case taken =>
    intro isBranch cond
    rw [State.vbase_branch _ _ _ isBranch cond]
    rfl
  case notTaken =>
    intro isBranch cond
    rw [State.vbase_branch _ _ _ isBranch cond]
    rfl
  case ecall =>
    rintro rfl
    rw [State.vbase_system _ _ _ (by decide), State.vsystem]
  case wfi =>
    rintro rfl
    rw [State.vbase_system _ _ _ (by decide), State.vsystem]
  case mret =>
    rintro rfl below
    rw [State.vbase_system _ _ _ (by decide), State.vsystem, if_neg below]

end Sys2Proof.Claims
end

section
/-! SUPPORT. CSRs, traps, tumbler instructions and work items of a V-core (R424 to R431, R477 to R481, R661 to R663). -/

open Sys2Proof
namespace Sys2Proof.Machine

theorem exec_vcoreCsrAccess (core : Nat) (w : BitVec 32) (s : State) : exec (.vcoreCsrAccess core w) s = execVcoreCsrAccess core w s := rfl
theorem exec_vcoreTrap (core : Nat) (s : State) : exec (.vcoreTrap core) s = execVcoreTrap core s := rfl
theorem exec_vcoreInterrupt (core : Nat) (s : State) : exec (.vcoreInterrupt core) s = execVcoreInterrupt core s := rfl
theorem exec_twait (core : Nat) (w : BitVec 32) (s : State) : exec (.twait core w) s = execTwait core w s := rfl
theorem exec_tarv (core : Nat) (w : BitVec 32) (s : State) : exec (.tarv core w) s = execTarv core w s := rfl
theorem exec_vcoreItemStart (unit item : Nat) (s : State) : exec (.vcoreItemStart unit item) s = execVcoreItemStart unit item s := rfl
theorem exec_xslitemDone (core : Nat) (w : BitVec 32) (s : State) : exec (.xslitemDone core w) s = execXslitemDone core w s := rfl
theorem exec_xslitemAbort (core : Nat) (w : BitVec 32) (s : State) : exec (.xslitemAbort core w) s = execXslitemAbort core w s := rfl
theorem exec_vPreempt (core : Nat) (s : State) : exec (.vPreempt core) s = execVPreempt core s := rfl
theorem exec_vSaveDone (core : Nat) (s : State) : exec (.vSaveDone core) s = execVSaveDone core s := rfl
theorem exec_vRestoreDone (core : Nat) (ext : List Byte) (poison : Bool) (s : State) :
    exec (.vRestoreDone core ext poison) s = execVRestoreDone core ext poison s := rfl

/-! ### CSR instructions -/

/-- Bits 11 and 10 of a CSR's number of twelve bits. -/
theorem natBits_csr_kind (x : Nat) : natBits (natBits x 20 12) 10 2 = natBits x 20 12 / 1024 := by
  have h : natBits x 20 12 < 4096 := Nat.mod_lt _ (by decide)
  simp only [natBits] at h ⊢
  omega

section
variable {t : State} {core x : Nat} {w : BitVec 32} (form : iF3 x % 4 ≠ 0)
include form

theorem State.csrInstr_undefined (undefined : t.csrRead core (natBits x 20 12) = none) : t.csrInstr core w x = t.villegal core w := by
  simp only [State.csrInstr, form, if_false, undefined]

variable {old : Nat} (read : t.csrRead core (natBits x 20 12) = some old)
include read

theorem State.csrInstr_reads (only : csrNew (t.vcore core) x old = none) :
    t.csrInstr core w x = (t.setVcore core ((t.vcore core).wx (iRd x) old)).vretire core w := by
  simp only [State.csrInstr, form, if_false, read, only]

variable {new : Nat} (writes : csrNew (t.vcore core) x old = some new)
include writes

theorem State.csrInstr_writes (writable : natBits x 20 12 / 1024 ≠ 3) (other : natBits x 20 12 ≠ 0x8C0) : t.csrInstr core w x =
    ((t.setVcore core ((t.vcore core).wx (iRd x) old)).vretire core w).csrWrite core (natBits x 20 12) new := by
  simp only [State.csrInstr, form, if_false, read, writes, natBits_csr_kind, writable, other]

/-- A write of XSLITEM ends the item or its program (R430, R431). -/
theorem State.csrInstr_xslItem (isItem : natBits x 20 12 = 0x8C0) :
    t.csrInstr core w x = t.xslItem core w ((t.vcore core).wx (iRd x) old) new := by
  have writable : natBits x 20 12 / 1024 ≠ 3 := by omega
  simp only [State.csrInstr, form, if_false, read, writes, natBits_csr_kind, writable]
  rw [if_pos isItem]

end

/-! ### Traps -/

theorem VCore.csrv_setCsr (v : VCore) (n x k : Nat) : (v.setCsr n x).csrv k = if k = n then x else v.csrv k := by
  simp only [VCore.csrv, VCore.setCsr, kvGet_set]

theorem VCore.csrv_setMs_other (v : VCore) (lo width x : Nat) {k : Nat} (h : k ≠ 0x300) : (v.setMs lo width x).csrv k = v.csrv k := by
  rw [VCore.setMs, VCore.csrv_setCsr, if_neg h]

@[simp] theorem State.mem_setVmode (s : State) (core mode : Nat) : (s.setVmode core mode).mem = s.mem := by
  rw [State.setVmode, State.setFld_mem, State.mem_setVcore]

theorem State.vcore_setVmode (s : State) (core mode : Nat) : (s.setVmode core mode).vcore core = { s.vcore core with mode := mode } := by
  rw [State.setVmode, State.vcore_setFld, State.vcore_setVcore, if_pos rfl]

/-- A core into whose CSRs a trap to supervisor mode, or to machine mode, has saved cause, PC and value, and the interrupt enable. -/
def VCore.trapSaved (v : VCore) (cause pc tval : Nat) (toS : Bool) : VCore :=
  let v := { v with trap := none, resv := none, gap := none, missed := [] }
  if toS then
    let v := (((v.setCsr 0x142 cause).setCsr 0x141 pc).setCsr 0x143 tval)
    ((v.setMs 8 1 v.mode).setMs 5 1 (v.ms 1 1)).setMs 1 1 0
  else
    let v := (((v.setCsr 0x342 cause).setCsr 0x341 pc).setCsr 0x343 tval)
    ((v.setMs 11 2 v.mode).setMs 7 1 (v.ms 3 1)).setMs 3 1 0

section
variable (s : State) (core cause : Nat) (addr : Bool) (tval : Nat)

theorem State.takeTrap_delegated (delegated : (s.vcore core).mode ≤ 1 ∧ natBit ((s.vcore core).csrv 0x302) cause = true) :
    s.takeTrap core cause false addr tval =
      State.setVmode ((s.setVcore core { s.vcore core with trap := none, resv := none, gap := none, missed := [] }).setVcore core
        { (s.vcore core).trapSaved cause (s.vcore core).pc tval true with
          pc := (((s.vcore core).trapSaved cause (s.vcore core).pc tval true).csrv 0x105 / 4 * 4 + 0) % 2 ^ 64 }) core 1 := by
  rw [State.takeTrap]
  exact if_pos delegated

theorem State.takeTrap_machine (kept : ¬ ((s.vcore core).mode ≤ 1 ∧ natBit ((s.vcore core).csrv 0x302) cause = true)) (handler : (s.vcore core).csrv 0x305 ≠ 0) :
    s.takeTrap core cause false addr tval =
      State.setVmode ((s.setVcore core { s.vcore core with trap := none, resv := none, gap := none, missed := [] }).setVcore core
        { (s.vcore core).trapSaved cause (s.vcore core).pc tval false with
          pc := (((s.vcore core).trapSaved cause (s.vcore core).pc tval false).csrv 0x305 / 4 * 4 + 0) % 2 ^ 64 }) core 3 := by
  rw [State.takeTrap]
  exact (if_neg kept).trans (if_neg handler)

end

theorem VCore.trapSaved_trap (v : VCore) (cause pc tval : Nat) (toS : Bool) : (v.trapSaved cause pc tval toS).trap = none := by cases toS <;> rfl
theorem VCore.trapSaved_resv (v : VCore) (cause pc tval : Nat) (toS : Bool) : (v.trapSaved cause pc tval toS).resv = none := by cases toS <;> rfl

theorem VCore.csrv_trapSaved_supervisor (v : VCore) (cause pc tval : Nat) :
    (v.trapSaved cause pc tval true).csrv 0x142 = cause ∧ (v.trapSaved cause pc tval true).csrv 0x141 = pc ∧
    (v.trapSaved cause pc tval true).csrv 0x143 = tval ∧ (v.trapSaved cause pc tval true).csrv 0x105 = v.csrv 0x105 := by
  refine ⟨?_, ?_, ?_, ?_⟩
  all_goals
    simp only [VCore.trapSaved, if_true, VCore.setMs, VCore.csrv_setCsr]
    rfl

theorem VCore.csrv_trapSaved_machine (v : VCore) (cause pc tval : Nat) :
    (v.trapSaved cause pc tval false).csrv 0x342 = cause ∧ (v.trapSaved cause pc tval false).csrv 0x341 = pc ∧
    (v.trapSaved cause pc tval false).csrv 0x343 = tval ∧ (v.trapSaved cause pc tval false).csrv 0x305 = v.csrv 0x305 := by
  refine ⟨?_, ?_, ?_, ?_⟩
  all_goals
    simp only [VCore.trapSaved, Bool.false_eq_true, if_false, VCore.setMs, VCore.csrv_setCsr]
    rfl

/-- An interrupt is taken at an instruction boundary where nothing is in progress (R460). -/
theorem execVcoreInterrupt_takes {s : State} {core i : Nat} (alive : s.alive = true) (vcore : core < 128) (running : (s.vcore core).running = true)
    (goes : (s.vcore core).stopped = false) (noTrap : (s.vcore core).trap = none) (noTmb : (s.vcore core).waitTmb = false)
    (noXslv : (s.vcore core).xslv = none) (noWait : (s.vcore core).twait = none) (noLoad : s.vloading core = false)
    (noMove : s.moveOn (core + 512) = none) (free : s.vheld core = false) (pending : s.vintr core = some i) :
    execVcoreInterrupt core s = .next ((s.setVcore core { s.vcore core with twait := none, xslv := none }).takeTrap core i true false 0) := by
  simp only [execVcoreInterrupt, alive, decide_eq_true vcore, running, goes, noTrap, noTmb, noXslv, noWait, noLoad, noMove, free, pending, Option.isNone_none,
    Option.isSome_none, Bool.not_false, Bool.and_self, if_true, Bool.false_eq_true, if_false]

/-! ### Tumbler instructions -/

@[simp] theorem State.vcore_sendTmb (s : State) (r : TmbReq) (c : Nat) : (s.sendTmb r).vcore c = s.vcore c := by
  simp only [State.sendTmb, State.vcore]

@[simp] theorem State.tmb_setVcore (s : State) (c : Nat) (v : VCore) : (s.setVcore c v).tmb = s.tmb := by
  simp only [State.setVcore]

@[simp] theorem State.tmb_addVctr (s : State) (c n k : Nat) : (s.addVctr c n k).tmb = s.tmb := by
  simp only [State.addVctr, State.setVctr]

@[simp] theorem State.tmb_vretire (s : State) (c : Nat) (w : BitVec 32) : (s.vretire c w).tmb = s.tmb := by
  simp only [State.vretire, State.vretireTo, State.tmb_setVcore, State.tmb_addVctr, State.bump_tmb]

theorem State.vcore_vretire (s : State) (c : Nat) (w : BitVec 32) :
    (s.vretire c w).vcore c = { s.vcore c with pc := ((s.vcore c).pc + iLen w) % 2 ^ 64, gap := none, missed := [] } := by
  simp only [State.vretire, State.vretireTo, State.vcore_setVcore, State.vcore_addVctr, State.vcore_bump, if_true]

/-- The core waits for the reply to what it has sent, past its instruction (R661). -/
theorem State.vtmbSend_sends (s : State) (core : Nat) (w : BitVec 32) (r : TmbReq) :
    (s.vtmbSend core w r).tmb.reqs = s.tmb.reqs ++ [r] ∧
    (s.vtmbSend core w r).vcore core =
      { s.vcore core with pc := ((s.vcore core).pc + iLen w) % 2 ^ 64, gap := none, missed := [], waitTmb := true } := by
  refine ⟨?_, ?_⟩
  · rw [State.vtmbSend, State.tmb_setVcore, State.tmb_vretire, State.sendTmb]
  · rw [State.vtmbSend, State.vcore_setVcore, if_pos rfl, State.vcore_vretire, State.vcore_sendTmb]

/-- The request of a tumbler instruction, before its operation is named. -/
def State.vtmbReq (t : State) (core x : Nat) : TmbReq :=
  { src := .vcore core, kind := 3, id := core, op := .arrive, tmb := (t.vcore core).rx (iRs1 x) % 2 ^ 32, operand := (t.vcore core).rx (iRs2 x) % 2 ^ 32
    unit := (t.vcore core).unit, dest := iRd x, pc := (t.vcore core).pc, after := t.nextAcc, sys := natBit x 26, acq := natBit x 25 }

section
variable {s t : State} {core x op : Nat} {w : BitVec 32} {u : UnitEnt} (opcode : iOp w.toNat = 0x2B) (mine : iF3 w.toNat = op) (h : s.VIssues core w t x)
  (form : natBits x 27 5 = 0) (hu : t.unitEnt (t.vcore core).unit = some u) (f : State → Nat → TmbReq → State)
include opcode mine h form hu

theorem State.vtmb_inRange (ok : ¬ (32768 ≤ (t.vcore core).rx (iRs1 x) % 2 ^ 32 ∨ (op ≠ 2 ∧ 2 ^ 32 ≤ (t.vcore core).rx (iRs1 x)) ∨
      (t.vcore core).rx (iRs1 x) % 2 ^ 32 < u.tmbBase ∨ u.tmbBase + u.tmbCount ≤ (t.vcore core).rx (iRs1 x) % 2 ^ 32)) :
    s.vtmb core w op f = f t x (t.vtmbReq core x) := by
  rw [State.vtmb, if_pos ⟨opcode, mine⟩, State.vissue_of_vissues h]
  simp only [hu, form, ne_eq, not_true_eq_false, if_false]
  rw [if_neg ok, State.vtmbReq]

theorem State.vtmb_outOfRange (bad : 32768 ≤ (t.vcore core).rx (iRs1 x) % 2 ^ 32 ∨ (op ≠ 2 ∧ 2 ^ 32 ≤ (t.vcore core).rx (iRs1 x)) ∨
      (t.vcore core).rx (iRs1 x) % 2 ^ 32 < u.tmbBase ∨ u.tmbBase + u.tmbCount ≤ (t.vcore core).rx (iRs1 x) % 2 ^ 32) :
    s.vtmb core w op f = t.vfault core { code := 0x0D03, precise := true, detail := detailOf [(52, 4, (t.vcore core).rx (iRs1 x) % 2 ^ 32)] } := by
  rw [State.vtmb, if_pos ⟨opcode, mine⟩, State.vissue_of_vissues h]
  simp only [hu, form, ne_eq, not_true_eq_false, if_false]
  rw [if_pos bad]

end

/-! ### Work items -/

theorem VCore.csrPut_rest (v : VCore) (n x : Nat) : ∃ C, v.csrPut n x = { v with csr := C } := by
  have satp (y : Nat) : ∃ C, v.putSatp y = { v with csr := C } := by
    unfold VCore.putSatp
    split <;> exact ⟨_, rfl⟩
  unfold VCore.csrPut
  split
  case h_25 => exact satp x
  case h_26 => split <;> exact ⟨_, rfl⟩
  all_goals exact ⟨_, rfl⟩

@[simp] theorem VCore.x_csrPut (v : VCore) (n x : Nat) : (v.csrPut n x).x = v.x := by
  obtain ⟨C, h⟩ := v.csrPut_rest n x
  rw [h]

@[simp] theorem VCore.pc_csrPut (v : VCore) (n x : Nat) : (v.csrPut n x).pc = v.pc := by
  obtain ⟨C, h⟩ := v.csrPut_rest n x
  rw [h]

@[simp] theorem VCore.running_csrPut (v : VCore) (n x : Nat) : (v.csrPut n x).running = v.running := by
  obtain ⟨C, h⟩ := v.csrPut_rest n x
  rw [h]

theorem VCore.rx_wx (v : VCore) (r n k : Nat) : (v.wx r n).rx k = if k = r ∧ r ≠ 0 then n % 2 ^ 64 else v.rx k := by
  by_cases hr : r = 0
  · simp [VCore.wx, hr]
  · by_cases hk : k = 0
    · simp [VCore.rx, hk, Ne.symm hr]
    · simp only [VCore.wx, VCore.rx, hr, hk, if_false, kvGet_set, ne_eq, not_false_eq_true, and_true]

/-- A core at the start of an item, before its CSRs take their values (Table 9.2). -/
def VCore.itemRegs (v : VCore) (p : FrameProg) (core item : Nat) : VCore := (((v.wx 10 item).wx 11 p.args).wx 12 core).wx 13 p.items

theorem startItem_rest (p : FrameProg) (prio core item : Nat) : ∃ v : VCore, (startItem p prio core item).x = (v.itemRegs p core item).x ∧
    (startItem p prio core item).pc = (p.entry + 32) % 2 ^ 64 ∧ (startItem p prio core item).running = true := by
  refine ⟨{ running := true, unit := p.unit, ctx := p.ctx, item := item, prio := prio, pc := (p.entry + 32) % 2 ^ 64, mode := dNat p.desc 0 1 % 4 }, ?_, ?_, ?_⟩
  all_goals
    simp only [startItem, VCore.x_csrPut, VCore.pc_csrPut, VCore.running_csrPut, VCore.setMs, VCore.setCsr]
    rfl

theorem execVcoreItemStart_free {s : State} {unit item c : Nat} {p : FrameProg} (onCore : s.itemCore unit item true = some (p, c))
    (idle : (s.vcore (c - 512)).running = false) (live : s.vdead (c - 512) = false) :
    execVcoreItemStart unit item s = .next ((((s.setVcore (c - 512) (startItem p (s.prioOf unit) (c - 512) item)).setFlag
      (RF.VCW_STAT_RUNNING (c - 512)) true).setFld (RF.VCW_STAT_PRIV (c - 512)) (startItem p (s.prioOf unit) (c - 512) item).mode).itemIssued unit item) := by
  simp only [execVcoreItemStart, onCore, idle, live, Bool.or_self, Bool.false_eq_true, if_false]

/-! ### Preemption -/

@[simp] theorem State.vcore_syncClock (s : State) (unit c : Nat) : (s.syncClock unit).vcore c = s.vcore c := by
  unfold State.syncClock
  split
  case h_1 => split <;> rfl
  case h_2 => rfl

@[simp] theorem State.vc_syncClock (s : State) (unit : Nat) : (s.syncClock unit).vc = s.vc := by
  unfold State.syncClock
  split
  case h_1 => split <;> rfl
  case h_2 => rfl

/-- A core that stops at an instruction boundary holds no reservation (R424). -/
theorem State.stopVcore_stops (s : State) (core : Nat) : ((s.stopVcore core).vcore core).stopped = true ∧ ((s.stopVcore core).vcore core).resv = none := by
  simp only [State.stopVcore, State.vcore_setVcore, if_true, and_self]

/-- The state in which V_PREEMPT looks at the core: the request is off the list. -/
def State.vPreemptTaken (s : State) (core unit : Nat) : State :=
  State.setFlag { s with
    preempts := s.preempts.filter (fun p => !(p == (core + 512, unit)))
    vc := { s.vc with moves := s.vc.moves.filter (fun m => !(m.core == core && m.unit == unit && m.stage == 3)) } } (RF.VCW_STAT_RESTORING core) false

/-- The save of a core begins. -/
def State.vSaveBegins (s : State) (core unit : Nat) : State :=
  State.setFlag { s.stopVcore core with
    vc := { (s.stopVcore core).vc with
      moves := (s.stopVcore core).vc.moves ++ [({ core := core, unit := unit, stage := 1, since := (s.stopVcore core).now } : TMove)] } }
    (RF.VCW_STAT_SAVING core) true

theorem execVPreempt_of_asked {s : State} {core unit : Nat} (asked : s.preempts.find? (fun p => p.1 == core + 512) = some (core + 512, unit))
    (vcore : core < 128) (alive : s.alive = true) : execVPreempt core s = .next (
      (if !(((s.vPreemptTaken core unit).vcore core).running && ((s.vPreemptTaken core unit).vcore core).unit == unit) ||
          ((s.vPreemptTaken core unit).moveOn (core + 512)).isSome then s.vPreemptTaken core unit
        else (s.vPreemptTaken core unit).vSaveBegins core unit).syncClock unit) := by
  rw [execVPreempt, asked]
  refine (if_pos ⟨vcore, alive⟩).trans ?_
  rw [apply_ite (State.syncClock · unit), apply_ite Host.Outcome.next]
  rfl

theorem State.vcore_vPreemptTaken (s : State) (core unit c : Nat) : (s.vPreemptTaken core unit).vcore c = s.vcore c := by
  rw [State.vPreemptTaken, State.vcore_setFlag]
  rfl

theorem State.moveOn_vPreemptTaken (s : State) (core unit : Nat) (still : (s.moveOn (core + 512)).isNone = true) :
    (s.vPreemptTaken core unit).moveOn (core + 512) = none := by
  rw [Option.isNone_iff_eq_none, State.moveOn, if_neg (by omega), List.find?_eq_none] at still
  rw [State.moveOn, if_neg (by omega), List.find?_eq_none]
  intro m hm
  rw [State.vPreemptTaken, State.setFlag_vc] at hm
  exact still m (List.mem_filter.mp hm).1

theorem State.vSaveBegins_stops (s : State) (core unit : Nat) : (s.vSaveBegins core unit).flag (RF.VCW_STAT_SAVING core) = true ∧
    ((s.vSaveBegins core unit).vcore core).stopped = true ∧ ((s.vSaveBegins core unit).vcore core).resv = none := by
  have same : (s.vSaveBegins core unit).vcore core = (s.stopVcore core).vcore core := by
    rw [State.vSaveBegins, State.vcore_setFlag]
    rfl
  rw [same]
  exact ⟨State.flag_setFlag_same _ _ _ rfl (by simp only [RF.VCW_STAT_SAVING]; decide), s.stopVcore_stops core⟩

/-- The state of a core as its slot holds it, put back (R480). -/
def State.vRestored (t : State) (core unit prio : Nat) (m : TMove) (sv : VCore) : State :=
  let u := State.setFld { t with vc := { t.vc with saves := kvSet (fun _ => none) t.vc.saves (core * 8 + prio) none, moves := t.vc.moves.erase m } }
    (RF.VCW_SAVED_SLOT core)
    (natSetBits (State.fld { t with vc := { t.vc with saves := kvSet (fun _ => none) t.vc.saves (core * 8 + prio) none, moves := t.vc.moves.erase m } }
      (RF.VCW_SAVED_SLOT core)) prio 1 0)
  ((((u.setVcore core { sv with stopped := false }).setFlag (RF.VCW_STAT_RESTORING core) false).setFlag (RF.VCW_STAT_RUNNING core) true).setFld
    (RF.VCW_STAT_PRIV core) sv.mode).syncClock unit

theorem State.vRestored_holds (t : State) (core unit prio : Nat) (m : TMove) (sv : VCore) :
    (t.vRestored core unit prio m sv).vcore core = { sv with stopped := false } ∧
    kvGet (fun _ => none) (t.vRestored core unit prio m sv).vc.saves (core * 8 + prio) = none := by
  refine ⟨?_, ?_⟩
  · simp only [State.vRestored, State.vcore_syncClock, State.vcore_setFld, State.vcore_setFlag, State.vcore_setVcore, if_true]
  · simp only [State.vRestored, State.vc_syncClock, State.setFld_vc, State.setFlag_vc, State.setVcore, kvGet_set_same]

end Sys2Proof.Machine
end

section
/-! The family of the V-core's instruction set: CSRs, traps, tumblers and work items. -/

open Sys2Proof Sys2Proof.Machine
namespace Sys2Proof.Claims

/-- Settles O21: a CSR instruction by what it reads and writes, and a trap by the mode to which it goes. -/
theorem vcoreTrapsAndCsrs : Obligations.VcoreTrapsAndCsrs := by
  intro core x w s t
  rw [exec_vcoreCsrAccess, exec_vcoreTrap, exec_vcoreInterrupt]
  have issues (opcode : iOp w.toNat = 0x73) (isCsr : iF3 w.toNat ≠ 0) (h : s.VIssues core w t x) :
      execVcoreCsrAccess core w s = .next (t.csrInstr core w x) := by
    rw [execVcoreCsrAccess, if_pos ⟨opcode, isCsr⟩, State.vissue_of_vissues h]
  refine ⟨?undefined, ?reads, ?writes, ?trap, ?supervisor, ?machine, ?interrupt⟩
  case undefined =>
    intro opcode isCsr h form undefined
    rw [issues opcode isCsr h, State.csrInstr_undefined form undefined]
  case reads =>
    intro old opcode isCsr h form read only
    rw [issues opcode isCsr h, State.csrInstr_reads form read only]
    exact ⟨_, rfl, t.vretire_retires core _ w⟩
  case writes =>
    intro old new opcode isCsr h form read writes writable other
    rw [issues opcode isCsr h, State.csrInstr_writes form read writes writable other]
  case trap =>
    intro tr raised alive running goes
    simp only [execVcoreTrap, raised, alive, running, goes, Bool.not_false, Bool.and_self, if_true]
  case supervisor =>
    intro cause addr tval mode delegated u v
    have hu : u = _ := s.takeTrap_delegated core cause addr tval ⟨mode, delegated⟩
    have hv : v = _ := (congrArg (State.vcore · core) hu).trans (State.vcore_setVmode ..)
    rw [State.vcore_setVcore, if_pos rfl] at hv
    obtain ⟨saved, epc, value, vector⟩ := (s.vcore core).csrv_trapSaved_supervisor cause (s.vcore core).pc tval
    rw [hv]
    refine ⟨rfl, ?_, saved, epc, value, VCore.trapSaved_trap .., VCore.trapSaved_resv .., ?_⟩
    · rw [vector, Nat.add_zero]
    · rw [hu, State.mem_setVmode, State.mem_setVcore, State.mem_setVcore]
  case machine =>
    intro cause addr tval kept handler u v
    have hu : u = _ := s.takeTrap_machine core cause addr tval kept handler
    have hv : v = _ := (congrArg (State.vcore · core) hu).trans (State.vcore_setVmode ..)
    rw [State.vcore_setVcore, if_pos rfl] at hv
    obtain ⟨saved, epc, value, vector⟩ := (s.vcore core).csrv_trapSaved_machine cause (s.vcore core).pc tval
    rw [hv]
    refine ⟨rfl, ?_, saved, epc, value, VCore.trapSaved_trap .., VCore.trapSaved_resv .., ?_⟩
    · rw [vector, Nat.add_zero]
    · rw [hu, State.mem_setVmode, State.mem_setVcore, State.mem_setVcore]
  case interrupt =>
    exact fun i alive vcore running goes noTrap noTmb noXslv noWait noLoad noMove free pending =>
      execVcoreInterrupt_takes alive vcore running goes noTrap noTmb noXslv noWait noLoad noMove free pending

/-- Settles O24: the four operations that are answered are one way of sending; TWAIT stays in place. -/
theorem vcoreTumblers : Obligations.VcoreTumblers := by
  intro core x w s t u v a n req opcode h form hu
  refine ⟨?sends, ?wait, ?range⟩
  case sends =>
    intro q hq mine high small low below
    have ok : ¬ (32768 ≤ n ∨ (q.2.1 ≠ 2 ∧ 2 ^ 32 ≤ a) ∨ n < u.tmbBase ∨ u.tmbBase + u.tmbCount ≤ n) := by omega
    have run : exec (q.1 core w) s = .next (s.vtmb core w q.2.1 (fun s _ r => s.vtmbSend core w { r with op := q.2.2 })) := by
      simp only [List.mem_cons, List.not_mem_nil, or_false] at hq
      rcases hq with rfl | rfl | rfl | rfl <;> rfl
    rw [run, State.vtmb_inRange opcode mine h form hu _ ok]
    exact ⟨_, rfl, t.vtmbSend_sends core w _⟩
  case wait =>
    intro mine small low below
    have ok : ¬ (32768 ≤ n ∨ ((2 : Nat) ≠ 2 ∧ 2 ^ 32 ≤ a) ∨ n < u.tmbBase ∨ u.tmbBase + u.tmbCount ≤ n) := by omega
    rw [exec_twait, execTwait, State.vtmb_inRange opcode mine h form hu _ ok]
    refine ⟨_, rfl, ?_, ?_⟩
    · rw [State.tmb_setVcore, State.sendTmb]
      rfl
    · rw [State.vcore_setVcore, if_pos rfl, State.vcore_sendTmb]
      rfl
  case range =>
    intro mine bad
    have outside : 32768 ≤ n ∨ ((0 : Nat) ≠ 2 ∧ 2 ^ 32 ≤ a) ∨ n < u.tmbBase ∨ u.tmbBase + u.tmbCount ≤ n := by omega
    rw [exec_tarv, execTarv, State.vtmb_outOfRange opcode mine h form hu _ outside]

/-- Settles O25: an item starts from its descriptor, ends by a write of XSLITEM, and moves by its slot. -/
theorem vcoreItemLifeCycle : Obligations.VcoreItemLifeCycle := by
  intro unit item core c x n w s t p m sv old ext bs poison
  rw [exec_vcoreItemStart, exec_xslitemDone, exec_xslitemAbort, exec_vPreempt, exec_vSaveDone, exec_vRestoreDone]
  refine ⟨?start, ?regs, ?done, ?abort, ?preempt, ?saveFails, ?restore⟩
  case start => exact fun onCore idle live => execVcoreItemStart_free onCore idle live
  case regs =>
    intro v
    obtain ⟨v0, regs, pc, running⟩ := startItem_rest p unit core item
    have rx (k : Nat) : v.rx k = (v0.itemRegs p core item).rx k := by rw [VCore.rx, VCore.rx, regs]
    refine ⟨running, ?_, ?_, ?_, ?_, pc⟩
    all_goals simp [rx, VCore.itemRegs, VCore.rx_wx]
  case done =>
    intro value isDone noAbort h form isItem read writes quiet
    simp only [execXslitemDone, value, isDone, noAbort, Bool.not_false, Bool.and_self, if_true, State.vissue_of_vissues h,
      State.csrInstr_xslItem form (isItem.symm ▸ read) writes isItem, State.xslItem, Bool.false_eq_true, if_false, quiet]
  case abort =>
    intro value isAbort h form isItem read writes
    simp only [execXslitemAbort, value, isAbort, if_true, State.vissue_of_vissues h, State.csrInstr_xslItem form (isItem.symm ▸ read) writes isItem,
      State.xslItem]
  case preempt =>
    intro asked vcore alive still running mine
    rw [execVPreempt_of_asked asked vcore alive, State.vcore_vPreemptTaken, running, mine, State.moveOn_vPreemptTaken s core unit still]
    obtain ⟨saving, stopped, resv⟩ := (s.vPreemptTaken core unit).vSaveBegins_stops core unit
    rw [beq_self_eq_true]
    refine ⟨_, rfl, (State.flag_eq_of_regs (State.regs_syncClock ..) _).trans saving, ?_, ?_⟩
    · rw [State.vcore_syncClock]
      exact stopped
    · rw [State.vcore_syncClock]
      exact resv
  case saveFails =>
    intro found hp alive noXslv noTmb quiet noSlot
    simp only [execVSaveDone, found, hp, alive, noXslv, noTmb, quiet, noSlot, Bool.not_true, Option.isSome_none, Bool.or_self, Bool.false_eq_true,
      if_false, if_true]
  case restore =>
    intro found hp saved mine alive slot translates len clean read
    have fine : (poison && !ext.isEmpty) = false := by rcases clean with rfl | rfl <;> simp
    refine ⟨t.vRestored core m.unit (s.prioOf m.unit) m (sv.fromSlot (partBytes vSaveParts bs)), ?_, State.vRestored_holds ..⟩
    simp only [execVRestoreDone, found, hp, saved, mine, alive, slot, translates, len, read, fine, beq_self_eq_true, Bool.not_true, Bool.or_self,
      Bool.false_eq_true, if_false]
    rfl

end Sys2Proof.Claims
end

section
/-! SUPPORT. The scalar memory instructions of a V-core past their fetch (R422 to R425, R436, R470, R471). -/

open Sys2Proof
namespace Sys2Proof.Machine

theorem exec_vcoreLoadStore (core : Nat) (w : BitVec 32) (err : Nat) (s : State) : exec (.vcoreLoadStore core w err) s = execVcoreLoadStore core w err s := rfl
theorem exec_lr (core : Nat) (w : BitVec 32) (err : Nat) (s : State) : exec (.lr core w err) s = execLr core w err s := rfl
theorem exec_sc (core : Nat) (w : BitVec 32) (err : Nat) (s : State) : exec (.sc core w err) s = execSc core w err s := rfl
theorem exec_amo (core : Nat) (w : BitVec 32) (err : Nat) (s : State) : exec (.amo core w err) s = execAmo core w err s := rfl
theorem exec_vcoreFence (core : Nat) (w : BitVec 32) (s : State) : exec (.vcoreFence core w) s = execVcoreFence core w s := rfl
theorem exec_fenceI (core : Nat) (w : BitVec 32) (s : State) : exec (.fenceI core w) s = execFenceI core w s := rfl
theorem exec_sfenceVma (core : Nat) (w : BitVec 32) (s : State) : exec (.sfenceVma core w) s = execSfenceVma core w s := rfl

/-- The arrays of the caches report nothing. -/
theorem State.cacheErr_zero (s : State) (core id : Nat) : s.cacheErr core id 0 = s := rfl

/-! ### Loads and stores -/

section
variable {s t t1 t2 : State} {core x err va : Nat} {w : BitVec 32} {o : VMemOp}

theorem execVcoreLoadStore_of_issues (h : s.VIssues core w t x) (isMem : iOp x = 0x03 ∨ iOp x = 0x07 ∨ iOp x = 0x23 ∨ iOp x = 0x27) :
    execVcoreLoadStore core w err s = .next (t.vloadStore core w x err) := by
  simp only [execVcoreLoadStore, h.wide, if_pos isMem, State.vissue_of_vissues h]

theorem State.vloadStore_undefined (undefined : (t.vcore core).memOp x = none) : t.vloadStore core w x err = t.villegal core w := by
  simp only [State.vloadStore, undefined]

variable (form : (t.vcore core).memOp x = some o)
include form

theorem State.vloadStore_fails {k : Nat} (look : t.vlookRun core o.access o.va o.size = (t1, .fail k, va)) :
    t.vloadStore core w x err = t1.vaccFail core o.access k va ((t.vcore core).range15 o.access) none := by
  simp only [State.vloadStore, form, look]

theorem State.vloadStore_device {r : RangeEnt} (look : t.vlookRun core o.access o.va o.size = (t1, .dev r, va))
    (free : t1.vbytesBusy core ((t.vcore core).ctxOf o.access) o.va o.size = false) :
    t.vloadStore core w x err = t1.vdevAccess core w x ((t.vcore core).ctxOf o.access) o err := by
  simp only [State.vloadStore, form, look, free, Bool.false_eq_true, if_false, Xl.isDev, if_true]

/-- An access of host memory or of a window is sent; a store of one is then done (R423). -/
theorem State.vloadStore_away {tr : Xl} (look : t.vlookRun core o.access o.va o.size = (t1, tr, va))
    (away : (∃ n b, tr = .host n b) ∨ (∃ e n, tr = .win e n)) (free : t1.vbytesBusy core ((t.vcore core).ctxOf o.access) o.va o.size = false)
    (aligned : o.va % o.size = 0) : t.vloadStore core w x err =
      if o.access = 0 then t1.vissueAcc core w x ((t.vcore core).ctxOf o.access) o.access o.va o.size 0 0 o.data
      else (t1.vissueAcc core w x ((t.vcore core).ctxOf o.access) o.access o.va o.size 0 0 o.data).vretire core w := by
  rcases away with ⟨n, b, rfl⟩ | ⟨e, n, rfl⟩
  all_goals simp only [State.vloadStore, form, look, free, aligned, Bool.false_eq_true, if_false, Xl.isDev, beq_self_eq_true, Bool.not_true]

end

section
variable {t1 t2 : State} {core x ctx : Nat} {w : BitVec 32} {o : VMemOp} {write : Bool} (access : (o.access == 1) = write)
  (lines : t1.vlines core ctx o.va o.size write = (t2, true)) (running : (t2.vcore core).running = true)
  (serves : t2.l2Serves core (lineOf (t2.vcore core).unit ctx o.va) write = true)
  (held : (t2.l1dAt core (lineOf (t2.vcore core).unit ctx o.va)).isSome = true)
include access lines running serves held

/-- Its lines held, an access of device memory is performed in L1D (R466). -/
theorem State.vdevAccess_held : t1.vdevAccess core w x ctx o 0 =
    if o.access = 0 then
      match t2.l1Read core ctx o.va o.size with
      | (bs, bad) => if bad then t2.vpoison core o.va 0 else (t2.setVcore core ((t2.vcore core).deliver x (leNat bs))).vretire core w
    else (t2.l1Write core ctx o.va o.data).vretire core w := by
  have held' : (t2.l1dAt core (lineOf (t2.vcore core).unit ctx o.va)).isNone = false := by
    rw [← Option.not_isSome, held]
    rfl
  simp only [State.vdevAccess, access, lines, State.cacheErr_zero, running, serves, held', Bool.not_true, Bool.or_self, Bool.false_eq_true, if_false]

end

/-! ### Atomics -/

section
variable {t t1 t2 : State} {core x access : Nat} {w : BitVec 32}

/-- An atomic whose address leads somewhere, and whose bytes are not on their way, goes on. -/
theorem State.vatomic_goes {tr : Xl} (f : State → Xl → State) (form : iF3 x = 2 ∨ iF3 x = 3) (aligned : (t.vcore core).rx (iRs1 x) % amoSize x = 0)
    (look : t.vlook core access ((t.vcore core).rx (iRs1 x)) = (t1, tr)) (leads : (∃ r, tr = .dev r) ∨ (∃ n b, tr = .host n b) ∨ (∃ e n, tr = .win e n))
    (free : t1.vbytesBusy core ((t.vcore core).ctxOf access) ((t.vcore core).rx (iRs1 x)) (amoSize x) = false) :
    t.vatomic core w x access f = f t1 tr := by
  have formOk : (iF3 x == 2 || iF3 x == 3) = true := by simpa using form
  rcases leads with ⟨r, rfl⟩ | ⟨n, b, rfl⟩ | ⟨e, n, rfl⟩
  all_goals simp only [State.vatomic, formOk, aligned, beq_self_eq_true, Bool.not_true, Bool.false_eq_true, if_false, look, free]

/-- Its lines in L2, an atomic goes on. -/
theorem State.l2Atomic_goes {ctx va len : Nat} {write : Bool} (f : State → State) (lines : t1.l2Lines core ctx va len write = (t2, true))
    (running : (t2.vcore core).running = true) (serves : t2.l2Serves core (lineOf (t1.vcore core).unit ctx va) write = true) :
    t1.l2Atomic core ctx va len write 0 f = f t2 := by
  simp only [State.l2Atomic, lines, State.cacheErr_zero, running, serves, Bool.not_true, Bool.or_self, Bool.false_eq_true, if_false]

end

end Sys2Proof.Machine
end

section
/-! The family of the V-core's instruction set: scalar memory instructions. -/

open Sys2Proof Sys2Proof.Machine
namespace Sys2Proof.Claims

/-- Settles O22: a load or store by where its address leads; an atomic in L2 once its lines are there. -/
theorem vcoreScalarMemory : Obligations.VcoreScalarMemory := by
  intro core x err ctx va k w s t t1 t2 o r bs v isMem atom lines released h
  rw [exec_vcoreFence, exec_fenceI, exec_sfenceVma]
  have unreleased (hr : released) : (natBit x 25 && t1.vstoring core) = false := by
    rcases hr with h | h <;> simp [h]
  refine ⟨?undefined, ?fails, ?load, ?store, ?away, ?lr, ?scFails, ?sc, ?amo, ?reduction, ?amoAway, ?fence, ?fenceI, ?sfence, ?sfenceIllegal⟩
  case undefined =>
    intro mem undefined
    rw [exec_vcoreLoadStore, execVcoreLoadStore_of_issues h mem, State.vloadStore_undefined undefined]
  case fails =>
    intro mem form look
    rw [exec_vcoreLoadStore, execVcoreLoadStore_of_issues h mem, State.vloadStore_fails form look]
  case load =>
    intro mem form look free lines isLoad running serves held read
    rw [exec_vcoreLoadStore, execVcoreLoadStore_of_issues h mem, State.vloadStore_device form look free,
      State.vdevAccess_held (by rw [isLoad]; rfl) lines running serves held, if_pos isLoad, read]
    exact ⟨_, rfl, t2.vretire_retires core _ w⟩
  case store =>
    intro mem form look free lines isStore running serves held
    rw [exec_vcoreLoadStore, execVcoreLoadStore_of_issues h mem, State.vloadStore_device form look free,
      State.vdevAccess_held (by rw [isStore]; rfl) lines running serves held, if_neg (by omega)]
  case away =>
    intro tr mem form look away free aligned
    rw [exec_vcoreLoadStore, execVcoreLoadStore_of_issues h mem, State.vloadStore_away form look away free aligned]
  case lr =>
    rintro ⟨opcode, mine, form, aligned, rfl, rfl, free⟩ rs2 look ⟨l2, running, serves⟩ read u
    rw [exec_lr, execLr, if_pos ⟨opcode, mine⟩, State.vissue_of_vissues h, State.vlr, if_neg (not_not.mpr rs2),
      State.vatomic_goes _ form aligned look (.inl ⟨r, rfl⟩) free]
    simp only [Xl.isDev, if_true]
    rw [State.l2Atomic_goes _ l2 running serves, read]
    exact ⟨_, rfl, t2.vretire_retires core _ w⟩
  case scFails =>
    rintro ⟨opcode, mine, form, aligned, rfl, rfl, free⟩ look rel lost u
    rw [exec_sc, execSc, if_pos ⟨opcode, mine⟩, State.vissue_of_vissues h, State.vsc, State.vatomic_goes _ form aligned look (.inl ⟨r, rfl⟩) free]
    simp only [Xl.isDev, if_true, unreleased rel, Bool.false_eq_true, if_false]
    rw [if_pos lost]
    exact ⟨_, rfl, t1.vretire_retires core _ w⟩
  case sc =>
    rintro ⟨opcode, mine, form, aligned, rfl, rfl, free⟩ look rel reserved ⟨l2, running, serves⟩ t3 u
    rw [exec_sc, execSc, if_pos ⟨opcode, mine⟩, State.vissue_of_vissues h, State.vsc, State.vatomic_goes _ form aligned look (.inl ⟨r, rfl⟩) free]
    simp only [Xl.isDev, if_true, unreleased rel, Bool.false_eq_true, if_false]
    rw [if_neg (not_not.mpr reserved), State.l2Atomic_goes _ l2 running serves]
    exact ⟨_, rfl, t3.vretire_retires core _ w⟩
  case amo =>
    rintro aop ty ⟨opcode, -, form, aligned, rfl, rfl, free⟩ notLr notSc op plain look rel ⟨l2, running, serves⟩ read new t3 u
    rw [exec_amo, execAmo, if_pos ⟨opcode, notLr, notSc⟩, State.vissue_of_vissues h, State.vamo, op]
    simp only
    rw [State.vatomic_goes _ form aligned look (.inl ⟨r, rfl⟩) free]
    simp only [plain, unreleased rel, Bool.false_eq_true, if_false]
    rw [State.l2Atomic_goes _ l2 running serves, read]
    exact ⟨_, rfl, t3.vretire_retires core _ w⟩
  case reduction =>
    rintro aop ty ⟨opcode, -, form, aligned, rfl, rfl, free⟩ notLr notSc op reduces look
    rw [exec_amo, execAmo, if_pos ⟨opcode, notLr, notSc⟩, State.vissue_of_vissues h, State.vamo, op]
    simp only
    rw [State.vatomic_goes _ form aligned look (.inl ⟨r, rfl⟩) free]
    simp only [reduces, if_true]
    rfl
  case amoAway =>
    rintro aop ty tr ⟨opcode, -, form, aligned, rfl, rfl, free⟩ notLr notSc op look rel away
    have leads : (∃ r, tr = .dev r) ∨ (∃ n b, tr = .host n b) ∨ (∃ e n, tr = .win e n) := .inr (away.imp_left And.left)
    rw [exec_amo, execAmo, if_pos ⟨opcode, notLr, notSc⟩, State.vissue_of_vissues h, State.vamo, op]
    simp only
    rw [State.vatomic_goes _ form aligned look leads free]
    rcases away with ⟨⟨n, b, rfl⟩, swaps⟩ | ⟨e, n, rfl⟩
    · simp only [if_pos swaps, unreleased rel, Bool.false_eq_true, if_false]
      rfl
    · simp only [unreleased rel, Bool.false_eq_true, if_false]
      rfl
  case fence =>
    intro opcode form _ free
    have notI : iF3 w.toNat ≠ 1 := by omega
    rw [execVcoreFence, if_pos ⟨opcode, notI⟩, State.vissue_of_vissues h, if_neg (not_not.mpr form), free]
    rfl
  case fenceI =>
    intro opcode form
    rw [execFenceI, if_pos ⟨opcode, form⟩, State.vissue_of_vissues h]
  case sfence =>
    intro opcode form f7 rd allowed
    have unbarred : ¬ (iRd x ≠ 0 ∨ v.mode = 0 ∨ (v.mode = 1 ∧ v.ms 20 1 = 1)) := by omega
    rw [execSfenceVma]
    simp only
    rw [if_pos ⟨opcode, form, f7⟩, State.vissue_of_vissues h, if_neg unbarred]
  case sfenceIllegal =>
    intro opcode form f7 barred
    rw [execSfenceVma]
    simp only
    rw [if_pos ⟨opcode, form, f7⟩, State.vissue_of_vissues h, if_pos (.inr barred)]

end Sys2Proof.Claims
end

section
/-! SUPPORT. Xslv memory instructions and Xslm past their fetch (R448 to R465). -/

open Sys2Proof
namespace Sys2Proof.Machine

theorem exec_xslvTranslationDone (core : Nat) (s : State) : exec (.xslvTranslationDone core) s = execXslvTranslationDone core s := rfl
theorem exec_xslvAccessDone (core err : Nat) (s : State) : exec (.xslvAccessDone core err) s = execXslvAccessDone core err s := rfl
theorem exec_xmop (core : Nat) (w : BitVec 32) (s : State) : exec (.xmop core w) s = execXmop core w s := rfl
theorem exec_xmzero (core : Nat) (w : BitVec 32) (s : State) : exec (.xmzero core w) s = execXmzero core w s := rfl
theorem exec_xmrd (core : Nat) (w : BitVec 32) (s : State) : exec (.xmrd core w) s = execXmrd core w s := rfl
theorem exec_xmwr (core : Nat) (w : BitVec 32) (s : State) : exec (.xmwr core w) s = execXmwr core w s := rfl

/-! ### Memory instructions -/

theorem State.xmemOp_of_issues {s t : State} {core x mode : Nat} {w : BitVec 32} (h : s.VIssues core w t x) (opcode : iOp w.toNat = 0x0B)
    (mine : xMode w.toNat = mode) (kind : Nat) (runs : Bool → VCore → Nat → List AccLane) :
    s.xmemOp core w mode kind runs = if (t.vcore core).xmemOk x then t.xmemBegin core w kind (runs (t.vstrict core) (t.vcore core) x)
      else t.villegal core w := by
  rw [State.xmemOp, if_pos ⟨opcode, mine⟩, State.vissue_of_vissues h]

theorem State.xslvErr_zero (s : State) (core : Nat) (a : Acc) : s.xslvErr core 0 a = s := by
  unfold State.xslvErr
  split <;> rfl

section
variable {s : State} {core : Nat} {y : XslvOp} (op : (s.vcore core).xslv = some y) (alive : s.alive = true) (running : (s.vcore core).running = true)
include op alive running

section
variable (goes : (s.vcore core).stopped = false) (phase : y.acc = none) (walked : y.need = [])
include goes phase walked

theorem execXslvTranslationDone_accesses (fine : s.checkRuns core y.w.toNat y.kind ((s.vcore core).checkList y.w.toNat y.kind y.els) = none)
    (free : ∀ l ∈ y.els, s.vbytesBusy core ((s.vcore core).ctxOf y.kind) l.va l.size = false) :
    execXslvTranslationDone core s = .next (s.xslvAccess core y) := by
  have noneBusy : y.els.any (fun l => s.vbytesBusy core ((s.vcore core).ctxOf y.kind) l.va l.size) = false :=
    List.any_eq_false.mpr fun l hl => by rw [free l hl]; exact Bool.false_ne_true
  simp only [execXslvTranslationDone, op, alive, running, goes, phase, walked, Option.isNone_none, List.isEmpty_nil, Bool.not_false, Bool.and_self, if_true,
    fine, noneBusy, Bool.false_eq_true, if_false]

theorem execXslvTranslationDone_fails {l : AccLane} {k va : Nat}
    (fails : s.checkRuns core y.w.toNat y.kind ((s.vcore core).checkList y.w.toNat y.kind y.els) = some (l, k, va)) (known : k ≠ 1) :
    execXslvTranslationDone core s = .next ((s.setVcore core { s.vcore core with xslv := none }).vaccFail core y.kind (k - 2) va
      ((s.vcore core).range15 y.kind) (some (l.lane / 16))) := by
  simp only [execXslvTranslationDone, op, alive, running, goes, phase, walked, Option.isNone_none, List.isEmpty_nil, Bool.not_false, Bool.and_self, if_true,
    fails, known, if_false]

end

theorem execXslvAccessDone_ends {id : Nat} {a a' : Acc} {t : State} (phase : y.acc = some id) (ha : s.acc id = some a)
    (step : s.xslvStep core (s.vcore core).sk a = (t, a')) (done : ∀ l ∈ a'.lanes, l.performed = true) :
    execXslvAccessDone core 0 s = .next ((t.setAcc id (some a')).xslvEnd core y id a') := by
  have all : a'.lanes.all (fun l => l.performed) = true := List.all_eq_true.mpr done
  simp only [execXslvAccessDone, op, phase, ha, alive, running, Bool.and_self, if_true, State.xslvErr_zero, Bool.not_true, Bool.false_eq_true, if_false, step,
    all]

end

/-! ### Xslm -/

/-- An instruction of Table 9.7 that is defined retires with the core that its row gives. -/
theorem State.xmInstr_retires {s t : State} {core x op : Nat} {w : BitVec 32} (h : s.VIssues core w t x) (opcode : iOp w.toNat = 0x7B) (mine : xOp w.toNat = op)
    (fs : (t.vcore core).fsOn = true) (xs : (t.vcore core).xsOn = true) (cycles : VCore → Nat → Nat) (f : Bool → VCore → Nat → Option VCore) {v' : VCore}
    (result : f (t.vstrict core) (t.vcore core) x = some v') :
    t.VRetires (s.xmInstr core w op cycles f) core v' (v'.pc + iLen w) := by
  rw [State.xmInstr, if_pos ⟨opcode, mine⟩, State.vissue_of_vissues h]
  simp only [fs, xs, Bool.and_self, if_true, result]
  exact t.busy_retires core v' w _ _ 6 (by simp only [RF.VCW_MBUSY_CYCLES, RF.VCW_INSTRET_COUNT, RA.VCW_MBUSY, RA.VCW_INSTRET]; omega)

theorem VCore.xaCell_setCell (v : VCore) (k n : Nat) {r c r' c' : Nat} (hc : c < 8) (hc' : c' < 8) :
    (v.setCell k r' c' n).xaCell k r c = if r = r' ∧ c = c' then n % 2 ^ 64 else v.xaCell k r c := by
  have same : (64 * k + 8 * r + c = 64 * k + 8 * r' + c') ↔ (r = r' ∧ c = c') := by omega
  simp only [VCore.xaCell, VCore.setCell, kvGet_set, same]

theorem mem_xmCells {r c : Nat} : (r, c) ∈ xmCells ↔ r < 8 ∧ c < 8 := by
  simp [xmCells]

/-- Cells of an accumulator set one after another. -/
theorem VCore.xaCell_foldl_setCell (k : Nat) (f : Nat × Nat → Nat) (cells : List (Nat × Nat)) (v : VCore) (narrow : ∀ rc ∈ cells, rc.2 < 8) {r c : Nat}
    (hc : c < 8) : (cells.foldl (fun u rc => u.setCell k rc.1 rc.2 (f rc)) v).xaCell k r c =
      if (r, c) ∈ cells then f (r, c) % 2 ^ 64 else v.xaCell k r c := by
  induction cells generalizing v with
  | nil => rfl
  | cons rc cells ih =>
    obtain ⟨r', c'⟩ := rc
    rw [List.foldl_cons, ih _ (fun rc h => narrow rc (List.mem_cons_of_mem _ h)), VCore.xaCell_setCell _ _ _ hc (narrow _ List.mem_cons_self)]
    by_cases here : (r, c) = (r', c')
    · simp [Prod.mk.inj here]
    · have apart : ¬ (r = r' ∧ c = c') := fun h => here (Prod.ext h.1 h.2)
      simp [here, apart]

end Sys2Proof.Machine
end

section
/-! The family of the V-core's instruction set: Xslv memory instructions and Xslm. -/

open Sys2Proof Sys2Proof.Machine
namespace Sys2Proof.Claims

/-- Settles O23: the memory instructions begin in one way, and the accumulator instructions set or read the 64 cells. -/
theorem xslvMemoryAndXslm : Obligations.XslvMemoryAndXslm := by
  intro core x id w s t y
  rw [exec_xslvTranslationDone, exec_xslvAccessDone, exec_xmop, exec_xmzero, exec_xmrd, exec_xmwr]
  have narrow : ∀ rc ∈ xmCells, rc.2 < 8 := fun rc h => (mem_xmCells.mp h).2
  refine ⟨?memory, ?vld, ?accesses, ?fails, ?ends, ?xmop, ?xmzero, ?xmrd, ?xmwr⟩
  case memory =>
    intro q hq opcode mine h
    have run : ∃ runs, exec (q.1 core w) s = .next (s.xmemOp core w q.2.1 q.2.2 runs) := by
      simp only [List.mem_cons, List.not_mem_nil, or_false] at hq
      rcases hq with rfl | rfl | rfl | rfl | rfl | rfl <;> exact ⟨_, rfl⟩
    obtain ⟨runs, run⟩ := run
    rw [run, State.xmemOp_of_issues h opcode mine]
    exact ⟨fun ok => ⟨_, by rw [if_pos ok]⟩, fun bad => by rw [if_neg (Bool.eq_false_iff.mp bad)]⟩
  case vld =>
    intro opcode mine h ok
    have run : exec (.vld core w) s = .next (s.xmemOp core w 0 0 (fun _ v x => v.unitRuns x false)) := rfl
    rw [run, State.xmemOp_of_issues h opcode mine, if_pos ok]
  case accesses =>
    exact fun op alive running goes phase walked fine free => execXslvTranslationDone_accesses op alive running goes phase walked fine free
  case fails =>
    exact fun l va k op alive running goes phase walked fails known => execXslvTranslationDone_fails op alive running goes phase walked fails known
  case ends => exact fun a a' op phase ha alive running step done => execXslvAccessDone_ends op alive running phase ha step done
  case xmop =>
    intro v' opcode mine h fs xs fmt some_ fits rm value
    have defined : ¬ (6 ≤ iF3 x ∨ (t.vcore core).rx (iRd x) = 0 ∨ xmLimit (iF3 x) < (t.vcore core).rx (iRd x) ∨ 4 < (t.vcore core).frm) := by omega
    rw [execXmop]
    refine ⟨_, rfl, State.xmInstr_retires h opcode mine fs xs _ _ ?_⟩
    rw [value]
    exact if_neg defined
  case xmzero =>
    intro opcode mine h fs xs rd f3 rs1 rs2
    refine ⟨_, _, rfl, State.xmInstr_retires h opcode mine fs xs _ _ (if_pos ⟨rd, f3, rs1, rs2⟩), fun r hr c hc => ?_⟩
    rw [VCore.xaCell_foldl_setCell (xT x) (fun _ => 0) xmCells _ narrow hc, if_pos (mem_xmCells.mpr ⟨hr, hc⟩), Nat.zero_mod]
  case xmrd =>
    intro opcode mine h fs xs f3 rs1 rs2
    refine ⟨_, _, rfl, State.xmInstr_retires h opcode mine fs xs _ _ (if_pos ⟨f3, rs1, rs2⟩), fun r hr c hc => ?_⟩
    rw [VCore.vr_wv, if_pos rfl]
    refine elemOf_putElems_of_mem 64 (e := (8 * r + c, (t.vcore core).xaCell (xT x) r c)) _ _ ?_ ?_
    · rw [List.map_map]
      exact (by decide : (xmCells.map (fun rc => 8 * rc.1 + rc.2)).Nodup)
    · exact List.mem_map.mpr ⟨(r, c), mem_xmCells.mpr ⟨hr, hc⟩, rfl⟩
  case xmwr =>
    intro opcode mine h fs xs rd f3 rs2
    refine ⟨_, _, rfl, State.xmInstr_retires h opcode mine fs xs _ _ (if_pos ⟨rd, f3, rs2⟩), fun r hr c hc => ?_⟩
    rw [VCore.xaCell_foldl_setCell (xT x) (fun rc => elemOf 64 ((t.vcore core).vr (iRs1 x)) (8 * rc.1 + rc.2)) xmCells _ narrow hc,
      if_pos (mem_xmCells.mpr ⟨hr, hc⟩)]
    exact Nat.mod_mod _ _

end Sys2Proof.Claims
end

section
/-! SUPPORT. The engines of a T-core past the descriptor they act on (R275 to R301, R346 to R354), and the barrier watchdog (R175). -/

open Sys2Proof
namespace Sys2Proof.Machine

theorem exec_mxeDescAccept (core eng : Nat) (s : State) : exec (.mxeDescAccept core eng) s = execMxeDescAccept core eng s := rfl
theorem exec_mxeChunkCommit (core eng : Nat) (s : State) : exec (.mxeChunkCommit core eng) s = execMxeChunkCommit core eng s := rfl
theorem exec_mxeDescRetire (core eng : Nat) (s : State) : exec (.mxeDescRetire core eng) s = execMxeDescRetire core eng s := rfl
theorem exec_vxeDescAccept (core eng : Nat) (s : State) : exec (.vxeDescAccept core eng) s = execVxeDescAccept core eng s := rfl
theorem exec_vxeDescStart (core eng : Nat) (s : State) : exec (.vxeDescStart core eng) s = execVxeDescStart core eng s := rfl
theorem exec_vxeDescComplete (core eng : Nat) (s : State) : exec (.vxeDescComplete core eng) s = execVxeDescComplete core eng s := rfl
theorem exec_barrierWatchdog (core blk bar : Nat) (s : State) : exec (.barrierWatchdog core blk bar) s = execBarrierWatchdog core blk bar s := rfl

section
variable {s : State} {core eng : Nat} {b : TBlock} {d : Desc} (hb : s.engBlock core eng = some b)
include hb

/-- A started descriptor of a program that runs commits its next chunk: what follows goes by the cells that overflow. -/
theorem execMxeChunkCommit_commits (current : (s.engine core eng).current b = some d) (started : d.started = true) (goes : b.stopped = false)
    (alive : s.alive = true) : execMxeChunkCommit core eng s = .next (
      let busy := s.bumpN (RF.MXE_BUSY_CYCLES core eng) (chunkCycles d.cls (d.mmode b).1)
      let done := d.commit b.localMem (d.mmode b).1 (d.mmode b).2 ((s.engine core eng).grp d.grp)
      let next := (busy.setEngine core eng ({ s.engine core eng with
        mq := putDesc (s.engine core eng).mq { d with next := d.next + 1 }, finishing := false }.setGrp d.grp done.1)).pumpEngine core eng
      match done.2 with
      | p :: _ => if d.replayable (d.mmode b).1 then busy.mxeReplay core eng d p else next
      | [] => next) := by
  simp only [execMxeChunkCommit, hb, current, started, goes, alive, Bool.not_false, Bool.true_or, Bool.and_self, if_true]
  cases (d.commit b.localMem (d.mmode b).1 (d.mmode b).2 ((s.engine core eng).grp d.grp)).2 with
  | nil => rfl
  | cons p ps => exact (apply_ite Host.Outcome.next _ _ _).symm

theorem execMxeDescRetire_retires {rest : List Desc} (queue : (s.engine core eng).mq = d :: rest) (started : d.started = true)
    (done : d.units (d.mmode b).1 ≤ d.next) : execMxeDescRetire core eng s = .next (
      let u := (s.setEngine core eng { s.engine core eng with mq := rest }).bump (RF.MXE_DESC_COUNT core eng)
      (if d.b 0 7 then u.devArrive 2 (4 * core + eng) (d.f 8 22 8) else u).pumpEngine core eng) := by
  simp only [execMxeDescRetire, hb, queue, started, decide_eq_true done, Bool.and_self, if_true]

theorem execVxeDescStart_starts (next : (s.engine core eng).vq.find? (fun d => !d.started) = some d)
    (ready : s.vReady core (s.engine core eng) b d = true) (goes : b.stopped = false) (alive : s.alive = true) :
    execVxeDescStart core eng s = .next (
      if d.form == 2 && partialsDiffer (d.paddX b.localMem ((s.engine core eng).grp d.sgrp)) (d.paddY b.localMem)
      then s.engFault core eng 0x0605 d (detailOf [(52, 8, d.f 52 18 0)])
      else (s.setEngine core eng { s.engine core eng with vq := putDesc (s.engine core eng).vq { d with started := true } }).pumpEngine core eng) := by
  simp only [execVxeDescStart, hb, next, ready, goes, alive, Bool.not_false, Bool.and_self, if_true, apply_ite Host.Outcome.next]

end

end Sys2Proof.Machine
end

section
/-! The family of the T-core: the engines and the barrier watchdog. -/

open Sys2Proof Sys2Proof.Machine
namespace Sys2Proof.Claims

/-- Settles O26: each command by the descriptor of the queue that it acts on, and the watchdog by where the block is. -/
theorem engineDescriptors : Obligations.EngineDescriptors := by
  intro core eng k i p ps g s b d rest e
  rw [exec_mxeDescAccept, exec_mxeChunkCommit, exec_mxeDescRetire, exec_vxeDescAccept, exec_vxeDescStart, exec_vxeDescComplete]
  refine ⟨?mInvalid, ?mValid, ?commit, ?replay, ?retire, ?vInvalid, ?vValid, ?start, ?complete, ?watchdog, ?saved⟩
  case mInvalid =>
    intro hb next invalid
    simp only [execMxeDescAccept, hb, next, invalid, e]
  case mValid =>
    intro hb next valid
    simp only [execMxeDescAccept, hb, next, valid, e]
  case commit =>
    intro hb current started goes alive commits
    rw [execMxeChunkCommit_commits hb current started goes alive]
    simp only [commits, e]
  case replay =>
    intro hb current started goes alive commits replays
    rw [execMxeChunkCommit_commits hb current started goes alive]
    simp only [commits, replays, if_true, e]
  case retire => exact fun hb queue started done => execMxeDescRetire_retires hb queue started done
  case vInvalid =>
    intro hb next invalid
    simp only [execVxeDescAccept, hb, next, invalid, e]
  case vValid =>
    intro hb next valid
    simp only [execVxeDescAccept, hb, next, valid, e]
  case start => exact fun hb next ready goes alive => execVxeDescStart_starts hb next ready goes alive
  case complete =>
    intro blk found queue started noFault o g t
    change (s.engine core eng).vq = d :: rest at queue
    simp only [execVxeDescComplete, found, queue, started, noFault, Bool.not_false, Bool.and_self, if_true]
    rfl
  case watchdog =>
    intro blk bar x late hb hx due
    simp only [exec_barrierWatchdog, execBarrierWatchdog, hb, hx, due, Option.bind_some, if_true, if_neg (Nat.not_le.mpr late)]
  case saved =>
    intro blk bar x sv late away hb hx due
    simp only [exec_barrierWatchdog, execBarrierWatchdog, away, hb, hx, due, Option.bind_some, if_true, if_neg (Nat.not_le.mpr late)]

end Sys2Proof.Claims
end

section
/-! SUPPORT. Operations at a tumbler's home, and its registers (R642 to R659). -/

open Sys2Proof
namespace Sys2Proof.Machine

theorem exec_tmbHomeArrive (n : Nat) (s : State) : exec (.tmbHomeArrive n) s = execTmbHomeArrive n s := rfl
theorem exec_tmbHomePoll (n : Nat) (s : State) : exec (.tmbHomePoll n) s = execTmbHomePoll n s := rfl
theorem exec_tmbHomeTake (n : Nat) (s : State) : exec (.tmbHomeTake n) s = execTmbHomeTake n s := rfl
theorem exec_tmbHomePut (n : Nat) (s : State) : exec (.tmbHomePut n) s = execTmbHomePut n s := rfl
theorem exec_tmbHomeWait (n : Nat) (s : State) : exec (.tmbHomeWait n) s = execTmbHomeWait n s := rfl
theorem exec_waitRegistrationReserved (n : Nat) (s : State) : exec (.waitRegistrationReserved n) s = execWaitRegistrationReserved n s := rfl
theorem exec_tmbFireNotify (n : Nat) (s : State) : exec (.tmbFireNotify n) s = execTmbFireNotify n s := rfl
theorem exec_tmbWaitTimeout (tcore : Bool) (core slot : Nat) (s : State) :
    exec (.tmbWaitTimeout tcore core slot) s = execTmbWaitTimeout tcore core slot s := rfl
theorem exec_tmbRefusalReturn (n : Nat) (s : State) : exec (.tmbRefusalReturn n) s = execTmbRefusalReturn n s := rfl
theorem exec_tmbCfgWrite (tmb : Nat) (v : Word) (s : State) : exec (.tmbCfgWrite tmb v) s = execTmbCfgWrite tmb v s := rfl
theorem exec_tmbOpArrive (tmb weight : Nat) (s : State) : exec (.tmbOpArrive tmb weight) s = execTmbOpArrive tmb weight s := rfl
theorem exec_tmbOpReset (tmb : Nat) (s : State) : exec (.tmbOpReset tmb) s = execTmbOpReset tmb s := rfl

/-! ### Counters -/

/-- A counter that saturates counts several, up to its largest value. -/
theorem State.fld_bumpN_same (s : State) (f : RegField) (n : Nat) (h1 : f.lo ≤ f.hi) (h2 : f.hi < 32) :
    (s.bumpN f n).fld f = min (s.fld f + n) (2 ^ (f.hi - f.lo + 1) - 1) := by
  rw [State.bumpN, State.fld_setFld_same _ _ _ h1 h2, Nat.mod_eq_of_lt]
  have := Nat.two_pow_pos (f.hi - f.lo + 1)
  omega

theorem State.fld_eq_of_reg {s t : State} (f : RegField) (h : t.reg f.addr = s.reg f.addr) : t.fld f = s.fld f := by
  simp only [State.fld, h]

/-! ### An arrival from the device -/

/-- VALUE − TARGET as a signed 32-bit value is 0 or more (R644). -/
theorem reached_iff (value target : Nat) : reached value target = true ↔ 0 ≤ (BitVec.ofNat 32 value - BitVec.ofNat 32 target).toInt := by
  rw [reached, decide_eq_true_iff, BitVec.toInt_eq_toNat_cond, BitVec.toNat_sub, BitVec.toNat_ofNat, BitVec.toNat_ofNat]
  split <;> omega

section
variable {n : Nat} {s s1 : State} {r : TmbReq} (h : s.homeReq n .arrive = some (s1, r)) (dev : r.src = .dev)
include h dev

/-- An arrival of the device that the kind takes is applied, counted and forwarded. -/
theorem execTmbHomeArrive_applies (takes : (s1.tmbAt r.tmb).takesArrival r.operand = true) : ∃ relays,
    execTmbHomeArrive n s =
      .next (((s1.bump (RF.MGT_TMB_OPS_COUNT (tmbLeaf r.tmb))).arriveKind r.tmb r.operand).relay r.tmb r.operand relays) := by
  refine ⟨((s1.bump (RF.MGT_TMB_OPS_COUNT (tmbLeaf r.tmb))).arriveKind r.tmb r.operand).relaysOf r.tmb, ?_⟩
  simp only [execTmbHomeArrive, h, State.tmbArrive, takes, if_true, State.tmbDone, dev]

theorem execTmbHomeArrive_refuses (refuses : (s1.tmbAt r.tmb).takesArrival r.operand = false) :
    execTmbHomeArrive n s = .next (s1.tmbRefused r.tmb) := by
  simp only [execTmbHomeArrive, h, State.tmbArrive, refuses, Bool.false_eq_true, if_false, State.tmbRefusedBack, dev]

end

section
variable (s : State) (n w : Nat)

/-- An arrival at a counter, whose kind and step stay (R644). -/
theorem State.arriveKind_counter (kind : (s.tmbAt n).kind = 1) :
    ((s.arriveKind n w).tmbAt n).kind = 1 ∧ ((s.arriveKind n w).tmbAt n).value = ((s.tmbAt n).value + w) % 2 ^ 32 ∧
    if reached (s.tmbAt n).value (s.tmbAt n).target = false ∧ reached (((s.tmbAt n).value + w) % 2 ^ 32) (s.tmbAt n).target = true then
      ((s.arriveKind n w).tmbAt n).gen = ((s.tmbAt n).gen + 1) % 65536 ∧
      ((s.arriveKind n w).tmbAt n).target = ((s.tmbAt n).target + (s.tmbAt n).step) % 2 ^ 32
    else ((s.arriveKind n w).tmbAt n).gen = (s.tmbAt n).gen ∧ ((s.arriveKind n w).tmbAt n).target = (s.tmbAt n).target := by
  have run : s.arriveKind n w =
      if reached (s.tmbAt n).value (s.tmbAt n).target = false ∧ reached (((s.tmbAt n).value + w) % 2 ^ 32) (s.tmbAt n).target = true then
        (s.putTmb n { s.tmbAt n with value := ((s.tmbAt n).value + w) % 2 ^ 32, target := ((s.tmbAt n).target + (s.tmbAt n).step) % 2 ^ 32 }).fireTmb n
      else (s.putTmb n { s.tmbAt n with value := ((s.tmbAt n).value + w) % 2 ^ 32 }).endWaits n := by
    simp only [State.arriveKind, kind, Bool.and_eq_true, Bool.not_eq_true']
  rw [run]
  by_cases fires : reached (s.tmbAt n).value (s.tmbAt n).target = false ∧ reached (((s.tmbAt n).value + w) % 2 ^ 32) (s.tmbAt n).target = true
  · simp only [if_pos fires, State.fireTmb_kind, State.fireTmb_value, State.fireTmb_gen, State.fireTmb_target, State.tmbAt_putTmb, if_true, kind, and_self]
  · simp only [if_neg fires, State.tmbAt_endWaits, State.tmbAt_putTmb, if_true, kind, and_self]

theorem State.arriveKind_barrier_below (kind : (s.tmbAt n).kind = 2) (below : (s.tmbAt n).value + w < (s.tmbAt n).expected) :
    s.arriveKind n w = s.putTmb n { s.tmbAt n with value := (s.tmbAt n).value + w } := by
  simp only [State.arriveKind, kind, if_neg (Nat.not_le.mpr below)]

theorem State.arriveKind_barrier_fires (kind : (s.tmbAt n).kind = 2) (full : (s.tmbAt n).expected ≤ (s.tmbAt n).value + w) :
    s.arriveKind n w = ((s.bumpN (RF.MGT_TMB_EXCESS_COUNT (tmbLeaf n)) ((s.tmbAt n).value + w - (s.tmbAt n).expected)).putTmb n
      { s.tmbAt n with value := 0 }).fireTmb n := by
  simp only [State.arriveKind, kind, if_pos full]

theorem State.arriveKind_event_clears (kind : (s.tmbAt n).kind = 3) (clear : w = 0) : s.arriveKind n w = s.putTmb n { s.tmbAt n with value := 0 } := by
  simp only [State.arriveKind, kind, if_pos clear]

theorem State.arriveKind_event_fires (kind : (s.tmbAt n).kind = 3) (sets : w ≠ 0) (unset : (s.tmbAt n).value = 0) :
    s.arriveKind n w = (s.putTmb n { s.tmbAt n with value := 1 }).fireTmb n := by
  simp only [State.arriveKind, kind, if_neg sets, if_pos unset]

theorem State.arriveKind_event_set (kind : (s.tmbAt n).kind = 3) (sets : w ≠ 0) (isSet : (s.tmbAt n).value ≠ 0) : s.arriveKind n w = s := by
  simp only [State.arriveKind, kind, if_neg sets, if_neg isSet]

/-- Nothing at a tumbler but a barrier's arrivals beyond EXPECTED changes the count of excess arrivals. -/
theorem State.excess_fireTmb (leaf : Nat) :
    (s.fireTmb n).fld (RF.MGT_TMB_EXCESS_COUNT leaf) = s.fld (RF.MGT_TMB_EXCESS_COUNT leaf) := by
  refine State.fld_eq_of_reg _ (State.reg_fireTmb _ _ _ ?_ ?_ ⟨?_, ?_⟩ (fun fn => ?tail) (fun fn => ?lost))
  all_goals simp only [RF.MGT_TMB_EXCESS_COUNT, RA.MGT_TMB_EXCESS, RA.TMB_STATE, RA.MGT_TMB_FIRES, RA.HIF_D2H_BYTES, RA.HIF_NT_TAIL, RA.HIF_NT_LOST, fnBase]
  case tail => split <;> omega
  case lost => split <;> omega
  all_goals omega

theorem State.excess_putTmb (leaf : Nat) (t : Tmb) :
    (s.putTmb n t).fld (RF.MGT_TMB_EXCESS_COUNT leaf) = s.fld (RF.MGT_TMB_EXCESS_COUNT leaf) := by
  refine State.fld_eq_of_reg _ (State.reg_putTmb _ _ _ _ ?_)
  simp only [RF.MGT_TMB_EXCESS_COUNT, RA.MGT_TMB_EXCESS, RA.TMB_STATE]
  omega

end

/-- A word of 32 bits is its number modulo 2^32. -/
theorem wordOfNat_mod (x : Nat) : BitVec.ofNat 32 (x % 2 ^ 32) = BitVec.ofNat 32 x := by
  apply BitVec.eq_of_toNat_eq
  simp only [BitVec.toNat_ofNat, Nat.mod_mod]

theorem State.fld_relay (s : State) (n w : Nat) (l : List Nat) (f : RegField) : (s.relay n w l).fld f = s.fld f :=
  State.fld_eq_of_reg f (State.reg_relay ..)

/-! ### Waits -/

section
variable {n : Nat} {s s1 : State} {r : TmbReq} (h : s.homeReq n .wait = some (s1, r)) (ok : (s1.tmbAt r.tmb).operandOk r.operand = true)
  (unreserved : r.reserved = false)
include h ok unreserved

theorem execTmbHomeWait_ended (ended : (s1.tmbAt r.tmb).ended r.operand = true) :
    execTmbHomeWait n s = .next ((s1.bump (RF.MGT_TMB_OPS_COUNT (tmbLeaf r.tmb))).note r.src r.tmb .fired) := by
  simp only [execTmbHomeWait, h, State.tmbWait, ok, ended, unreserved, Bool.false_eq_true, if_false, if_true, State.offer]

variable (waits : (s1.tmbAt r.tmb).ended r.operand = false)
include waits

theorem execTmbHomeWait_registers (room : s1.waitsAt (tmbLeaf r.tmb) + kvGet (fun _ => 0) s1.tmb.reservations (tmbLeaf r.tmb) < 16384) :
    execTmbHomeWait n s = .next ((s1.bump (RF.MGT_TMB_OPS_COUNT (tmbLeaf r.tmb))).putTmb r.tmb
      { s1.tmbAt r.tmb with waits := (s1.tmbAt r.tmb).waits ++ [{ src := r.src, operand := r.operand }] }) := by
  simp only [execTmbHomeWait, h, State.tmbWait, ok, waits, unreserved, decide_eq_true room, Bool.or_true, Bool.false_eq_true, if_false, if_true]

theorem execTmbHomeWait_turnedBack (full : 16384 ≤ s1.waitsAt (tmbLeaf r.tmb) + kvGet (fun _ => 0) s1.tmb.reservations (tmbLeaf r.tmb)) :
    execTmbHomeWait n s = .next { s1.bump (RF.MGT_TMB_WAITFULL_COUNT (tmbLeaf r.tmb)) with tmb := { s1.tmb with turned := s1.tmb.turned ++ [r] } } := by
  have noRoom : decide (s1.waitsAt (tmbLeaf r.tmb) + kvGet (fun _ => 0) s1.tmb.reservations (tmbLeaf r.tmb) < 16384) = false :=
    decide_eq_false (Nat.not_lt.mpr full)
  simp only [execTmbHomeWait, h, State.tmbWait, ok, waits, unreserved, noRoom, Bool.or_self, Bool.false_eq_true, if_false, if_true, State.bump_tmb]

end

/-! ### Registers of a tumbler -/

/-- The end of a tumbler's waits leaves all else of it. -/
theorem State.tmbAt_dropWaits (s : State) (n : Nat) : (s.dropWaits n).tmbAt n = { s.tmbAt n with waits := [] } := by
  simp only [State.dropWaits, State.tmbAt_offer, State.tmbAt_notes, State.tmbAt_setTmb, if_true]

end Sys2Proof.Machine
end

section
/-! The family of the tumblers: operations at a home, answers at a core, and registers. -/

open Sys2Proof Sys2Proof.Machine
namespace Sys2Proof.Claims

/-- Settles O27: an arrival of the device by kind, what it forwards leaving the tumbler as it is. -/
theorem tumblerArrival : Obligations.TumblerArrival := by
  intro n s s1 r h dev t w
  rw [exec_tmbHomeArrive]
  have applies (takes : t.takesArrival w = true) := execTmbHomeArrive_applies h dev takes
  have tmbAt : (s1.bump (RF.MGT_TMB_OPS_COUNT (tmbLeaf r.tmb))).tmbAt r.tmb = t := State.tmbAt_bump ..
  refine ⟨?counter, ?below, ?full, ?clear, ?set, ?still, ?refused⟩
  case counter =>
    intro kind
    obtain ⟨relays, run⟩ := applies (by simp [Tmb.takesArrival, kind])
    obtain ⟨kind', value, moves⟩ := (s1.bump (RF.MGT_TMB_OPS_COUNT (tmbLeaf r.tmb))).arriveKind_counter r.tmb w (tmbAt.symm ▸ kind)
    refine ⟨_, run, ?_⟩
    rw [State.tmbAt_relay]
    rw [tmbAt] at value moves
    have crosses : (reached t.value t.target = false ∧ reached ((t.value + w) % 2 ^ 32) t.target = true) ↔
        ((BitVec.ofNat 32 t.value - BitVec.ofNat 32 t.target).toInt < 0 ∧
          0 ≤ (BitVec.ofNat 32 (t.value + w) - BitVec.ofNat 32 t.target).toInt) := by
      rw [← Bool.not_eq_true, reached_iff, reached_iff, Int.not_le, wordOfNat_mod]
    simp only [crosses] at moves
    exact ⟨kind', value, moves⟩
  case below =>
    intro kind small below
    obtain ⟨relays, run⟩ := applies (by simp [Tmb.takesArrival, kind, small])
    refine ⟨_, run, ?_⟩
    rw [State.tmbAt_relay, State.arriveKind_barrier_below _ _ _ (tmbAt.symm ▸ kind) (tmbAt.symm ▸ below), State.tmbAt_putTmb, if_pos rfl, tmbAt]
  case full =>
    intro kind small full
    obtain ⟨relays, run⟩ := applies (by simp [Tmb.takesArrival, kind, small])
    refine ⟨_, run, ?_⟩
    rw [State.tmbAt_relay, State.fld_relay, State.arriveKind_barrier_fires _ _ _ (tmbAt.symm ▸ kind) (tmbAt.symm ▸ full), tmbAt]
    refine ⟨?_, ?_, ?_, ?_⟩
    · rw [State.fireTmb_value, State.tmbAt_putTmb, if_pos rfl]
    · rw [State.fireTmb_gen, State.tmbAt_putTmb, if_pos rfl]
    · rw [State.fireTmb_expected, State.tmbAt_putTmb, if_pos rfl]
    · rw [State.excess_fireTmb, State.excess_putTmb, State.fld_bumpN_same _ _ _ (Nat.zero_le _) (by simp only [RF.MGT_TMB_EXCESS_COUNT]; decide),
        State.fld_bump_other]
      · rfl
      · simp only [RF.MGT_TMB_EXCESS_COUNT, RF.MGT_TMB_OPS_COUNT, RA.MGT_TMB_EXCESS, RA.MGT_TMB_OPS]
        omega
  case clear =>
    intro kind clear
    obtain ⟨relays, run⟩ := applies (by simp [Tmb.takesArrival, kind])
    refine ⟨_, run, ?_⟩
    rw [State.tmbAt_relay, State.arriveKind_event_clears _ _ _ (tmbAt.symm ▸ kind) clear, State.tmbAt_putTmb, if_pos rfl, tmbAt]
  case set =>
    intro kind sets unset
    obtain ⟨relays, run⟩ := applies (by simp [Tmb.takesArrival, kind])
    refine ⟨_, run, ?_⟩
    rw [State.tmbAt_relay, State.arriveKind_event_fires _ _ _ (tmbAt.symm ▸ kind) sets (tmbAt.symm ▸ unset), State.fireTmb_value, State.fireTmb_gen,
      State.tmbAt_putTmb, if_pos rfl, tmbAt]
    exact ⟨rfl, rfl⟩
  case still =>
    intro kind sets isSet
    obtain ⟨relays, run⟩ := applies (by simp [Tmb.takesArrival, kind])
    refine ⟨_, run, ?_⟩
    rw [State.tmbAt_relay, State.arriveKind_event_set _ _ _ (tmbAt.symm ▸ kind) sets (tmbAt.symm ▸ isSet), tmbAt]
  case refused =>
    intro refuses
    refine ⟨execTmbHomeArrive_refuses h dev refuses, State.tmbAt_bump .., ?_⟩
    exact State.fld_bump_same _ _ (Nat.zero_le _) (by simp only [RF.MGT_TMB_REFUSED_COUNT]; decide)

/-- Settles O28: each operation by the tumbler that it meets. -/
theorem tumblerPollWaitTakePut : Obligations.TumblerPollWaitTakePut := by
  intro n x xs s s1 r t o
  rw [exec_tmbHomePoll, exec_tmbHomeTake, exec_tmbHomePut, exec_tmbHomeWait, exec_waitRegistrationReserved]
  refine ⟨State.tmbAt_bump .., ?poll, ?take, ?takeEmpty, ?takeRefused, ?put, ?putFull, ?waitEnded, ?waitRegisters, ?waitTurned, ?waitRefused, ?reserved⟩
  case poll =>
    intro h
    simp only [execTmbHomePoll, h, State.tmbPoll, o, t]
  case take =>
    intro h kind tokens
    simp only [t] at kind tokens
    simp only [execTmbHomeTake, h, State.tmbTake, kind, if_true, tokens, o, t]
  case takeEmpty =>
    intro h kind tokens
    simp only [t] at kind tokens
    simp only [execTmbHomeTake, h, State.tmbTake, kind, if_true, tokens, o]
  case takeRefused =>
    intro h kind
    simp only [t] at kind
    simp only [execTmbHomeTake, h, State.tmbTake, if_neg kind]
  case put =>
    intro h kind room f
    have tumbler : (o.putTmb r.tmb { t with tokens := t.tokens ++ [r.operand % 2 ^ 32] }).tmbAt r.tmb =
        { t with tokens := t.tokens ++ [r.operand % 2 ^ 32] } := (State.tmbAt_putTmb ..).trans (if_pos rfl)
    refine ⟨?_, ?_, ?_⟩
    · simp only [execTmbHomePut, h, State.tmbPut, if_pos kind, if_pos room, f, o, t]
    · exact (State.fireTmb_tokens ..).trans (congrArg Tmb.tokens tumbler)
    · exact (State.fireTmb_gen ..).trans (by rw [tumbler])
  case putFull =>
    intro h kind full
    simp only [t] at kind full
    simp only [execTmbHomePut, h, State.tmbPut, if_pos kind, if_neg (Nat.not_lt.mpr full), o]
  case waitEnded => exact fun h ok ended unreserved => execTmbHomeWait_ended h ok unreserved ended
  case waitRegisters => exact fun h ok waits unreserved room => execTmbHomeWait_registers h ok unreserved waits room
  case waitTurned =>
    intro h ok waits unreserved full
    exact ⟨_, execTmbHomeWait_turnedBack h ok unreserved waits full, rfl, by simp only [State.tmbAt, t]⟩
  case waitRefused =>
    intro h bad unreserved
    simp only [t] at bad
    simp only [execTmbHomeWait, h, State.tmbWait, bad, unreserved, Bool.false_eq_true, if_false, State.offer, t]
  case reserved =>
    intro h
    simp only [execWaitRegistrationReserved, h]

/-- Settles O29: the answers to a core by their kind. -/
theorem tumblerAnswers : Obligations.TumblerAnswers := by
  intro n core slot op kind s x
  rw [exec_tmbFireNotify, exec_tmbWaitTimeout, exec_tmbWaitTimeout, exec_tmbRefusalReturn]
  refine ⟨?fired, ?timedOut, ?expiredT, ?expiredV, ?refusedT, ?refusedWait, ?refusedV⟩
  case fired =>
    intro h src ans
    rcases src with src | src <;> simp only [execTmbFireNotify, h, src, ans]
  case timedOut =>
    intro h src ans
    rcases src with src | src <;> simp only [execTmbFireNotify, h, src, ans]
  case expiredT =>
    intro expired
    simp only [execTmbWaitTimeout, if_true, expired]
  case expiredV =>
    intro expired
    simp only [execTmbWaitTimeout, Bool.false_eq_true, if_false, expired, if_true]
  case refusedT =>
    intro h src ans other
    simp only [execTmbRefusalReturn, h, src, ans, if_neg other]
  case refusedWait =>
    intro g h src ans hg
    simp only [execTmbRefusalReturn, h, src, ans, if_true, hg, tmbOpcode]
  case refusedV =>
    intro h src ans
    simp only [execTmbRefusalReturn, h, src, ans]

/-- Settles O30: a valid configuration puts a new tumbler in place that keeps GEN; a reset keeps all but VALUE, TARGET and the tokens. -/
theorem tumblerRegisters : Obligations.TumblerRegisters := by
  intro tmb weight v s small alive running
  have serving : s.serving = true := by rw [State.serving, alive, running]; rfl
  have range : decide (32768 ≤ tmb) = false := decide_eq_false (Nat.not_le.mpr small)
  rw [exec_tmbCfgWrite, exec_tmbOpArrive, exec_tmbOpReset]
  refine ⟨?valid, ?invalid, ?arrive, ?reset⟩
  case valid =>
    intro ok
    simp only [execTmbCfgWrite, range, serving, Bool.not_true, Bool.or_self, Bool.false_eq_true, if_false, ok, if_true]
    refine ⟨_, rfl, ?_⟩
    simp only [State.tmbAt_setReg, State.tmbAt_putTmb, if_true, State.tmbAt_dropWaits, and_self]
  case invalid =>
    intro bad
    simp only [execTmbCfgWrite, range, serving, Bool.not_true, Bool.or_self, Bool.false_eq_true, if_false, bad]
  case arrive =>
    intro fits
    simp only [execTmbOpArrive, decide_eq_true small, decide_eq_true fits, serving, Bool.and_self, if_true]
  case reset =>
    simp only [execTmbOpReset, decide_eq_true small, serving, Bool.and_self, if_true]
    refine ⟨_, rfl, ?_⟩
    simp only [State.tmbReset, State.tmbAt_endWaits, State.tmbAt_putTmb, if_true, and_self]

end Sys2Proof.Claims
end

section
/-! SUPPORT. The sources of the frame tick (R48 to R64), and the number a tick carries (R54, R55). -/

open Sys2Proof
namespace Sys2Proof.Machine

theorem exec_tickInRisingEdge (high : Nat) (s : State) : exec (.tickInRisingEdge high) s = execTickInRisingEdge high s := rfl
theorem exec_tickInFallingEdge (width : Nat) (s : State) : exec (.tickInFallingEdge width) s = execTickInFallingEdge width s := rfl
theorem exec_internalTick (s : State) : exec .internalTick s = execInternalTick s := rfl
theorem exec_tickLoss (s : State) : exec .tickLoss s = execTickLoss s := rfl
theorem exec_holdoverTick (s : State) : exec .holdoverTick s = execHoldoverTick s := rfl
theorem exec_syncReq (s : State) : exec .syncReq s = execSyncReq s := rfl
theorem exec_tick (s : State) : exec .tick s = execTick s := rfl

/-! ### What only the tick's state and registers change -/

/-- `t` is `s` but for the tick's state and the registers. -/
def State.TickOnly (s t : State) : Prop := t = { s with tick := t.tick, regs := t.regs }

section
variable {s t : State}

theorem State.TickOnly.refl (s : State) : s.TickOnly s := rfl

theorem State.TickOnly.of_eq (tk : TickSt) (rg : KV Word) (h : t = { s with tick := tk, regs := rg }) : s.TickOnly t := by
  unfold State.TickOnly
  rw [h]

theorem State.TickOnly.setTick (h : s.TickOnly t) (tk : TickSt) : s.TickOnly { t with tick := tk } :=
  .of_eq tk t.regs (by rw [h])

theorem State.TickOnly.setReg (h : s.TickOnly t) (a : Nat) (v : Word) : s.TickOnly (t.setReg a v) :=
  .of_eq t.tick (t.setReg a v).regs (by rw [State.setReg, h])

theorem State.TickOnly.setFld (h : s.TickOnly t) (f : RegField) (v : Nat) : s.TickOnly (t.setFld f v) := h.setReg _ _
theorem State.TickOnly.setFlag (h : s.TickOnly t) (f : RegField) (b : Bool) : s.TickOnly (t.setFlag f b) := h.setFld _ _
theorem State.TickOnly.bump (h : s.TickOnly t) (f : RegField) : s.TickOnly (t.bump f) := h.setFld _ _
theorem State.TickOnly.glitch (h : s.TickOnly t) : s.TickOnly t.glitch := (h.bump _).setFlag _ _

end

/-! ### Registers -/

section
variable (s : State)

theorem State.reg_setFlag_other (f : RegField) (b : Bool) {a : Nat} (h : a ≠ f.addr) : (s.setFlag f b).reg a = s.reg a := s.reg_setFld_other f _ h
theorem State.reg_bump_other (f : RegField) {a : Nat} (h : a ≠ f.addr) : (s.bump f).reg a = s.reg a := s.reg_setFld_other f _ h

@[simp] theorem State.reg_setTick (tk : TickSt) (a : Nat) : ({ s with tick := tk } : State).reg a = s.reg a := by simp only [State.reg]
@[simp] theorem State.fld_setTick (tk : TickSt) (f : RegField) : ({ s with tick := tk } : State).fld f = s.fld f := by simp only [State.fld, State.reg]
@[simp] theorem State.flag_setTick (tk : TickSt) (f : RegField) : ({ s with tick := tk } : State).flag f = s.flag f := by
  simp only [State.flag, State.fld, State.reg]

theorem State.flag_setFlag_disjoint (f g : RegField) (b : Bool) (ha : g.addr = f.addr) (hf : f.lo ≤ f.hi) (hg : g.lo ≤ g.hi) (h2 : g.hi < 32)
    (h : g.hi < f.lo ∨ f.hi < g.lo) : (s.setFlag f b).flag g = s.flag g := by
  rw [State.flag, State.setFlag, State.fld_setFld_disjoint s f g _ ha hf hg h2 h, State.flag]

/-- A 64-bit value reads as it was last written. -/
theorem State.fld64_setFld64 (lo hi : RegField) (v : Nat) (small : v < 2 ^ 64) (apart : lo.addr ≠ hi.addr)
    (lo32 : lo.lo = 0 ∧ lo.hi = 31) (hi32 : hi.lo = 0 ∧ hi.hi = 31) : (s.setFld64 lo hi v).fld64 lo hi = v := by
  obtain ⟨l0, l31⟩ := lo32
  obtain ⟨h0, h31⟩ := hi32
  rw [State.fld64, State.setFld64, State.fld_setFld_other _ _ _ _ apart, State.fld_setFld_same _ _ _ (by omega) (by omega),
    State.fld_setFld_same _ _ _ (by omega) (by omega), l0, l31, h0, h31]
  omega

theorem State.fld64_setFld_other (lo hi f : RegField) (v : Nat) (l : lo.addr ≠ f.addr) (h : hi.addr ≠ f.addr) :
    (s.setFld f v).fld64 lo hi = s.fld64 lo hi := by
  rw [State.fld64, State.fld_setFld_other _ _ _ _ l, State.fld_setFld_other _ _ _ _ h, State.fld64]

/-! ### Glitches -/

@[simp] theorem State.glitch_tick : s.glitch.tick = s.tick := by rw [State.glitch, State.setFlag_tick, State.bump_tick]
@[simp] theorem State.glitch_now : s.glitch.now = s.now := by rw [State.glitch, State.setFlag_now, State.bump_now]

theorem State.glitch_flag : s.glitch.flag RF.TCK_STAT_GLITCH = true := State.flag_setFlag_same _ _ _ (by decide) (by decide)

theorem State.glitch_count : s.glitch.fld RF.TCK_GLITCH_COUNT = min (s.fld RF.TCK_GLITCH_COUNT + 1) (2 ^ 32 - 1) := by
  rw [State.glitch, State.fld_setFlag_other _ _ _ _ (by decide)]
  exact State.fld_bump_same _ _ (by decide) (by decide)

theorem State.glitch_holdover : s.glitch.flag RF.TCK_STAT_HOLDOVER = s.flag RF.TCK_STAT_HOLDOVER := by
  rw [State.glitch, State.flag_setFlag_disjoint _ _ _ _ (by decide) (by decide) (by decide) (by decide) (by decide), State.bump, State.bumpN,
    State.flag_setFld_other _ _ _ _ (by decide)]

theorem State.reg_glitch {a : Nat} (count : a ≠ RA.TCK_GLITCH) (stat : a ≠ RA.TCK_STAT) : s.glitch.reg a = s.reg a := by
  rw [State.glitch, State.reg_setFlag_other _ _ _ stat, State.reg_bump_other _ _ count]

/-! ### Edges of TICK_IN -/

theorem State.eq_setTick {s : State} {tk : TickSt} (h : s.tick = tk) : s = { s with tick := tk } := by
  subst h
  rfl

/-- Repeat mode moves TICK_OUT alone (R63). -/
theorem State.repeatPulse_eq (high : Nat) : ∃ out rose fell, s.repeatPulse high =
    { s with tick := { s.tick with outHigh := out, outRose := rose, outFell := fell } } := by
  unfold State.repeatPulse
  split
  · exact ⟨_, _, _, rfl⟩
  · exact ⟨_, _, _, rfl⟩

/-- An early edge is filtered, and ends holdover (R51, R59). -/
theorem State.extEdge_early {t0 : Nat} (before : s.tickBefore = some t0) (early : 2 * (s.now - t0) < s.periodCycles) :
    ∃ ref seen, s.extEdge = { (s.setFlag RF.TCK_STAT_HOLDOVER false).glitch with tick := { s.tick with lossRef := ref, lossSeen := seen } } := by
  simp only [State.extEdge, before, early, decide_true, if_true]
  split
  · exact ⟨s.now, false, by simp only [State.glitch_tick, State.setFlag_tick, State.glitch_now, State.setFlag_now]⟩
  · exact ⟨s.tick.lossRef, s.tick.lossSeen, State.eq_setTick (by simp only [State.glitch_tick, State.setFlag_tick])⟩

/-- Any other edge makes a tick due in its own cycle, and ends holdover (R48, R59). -/
theorem State.extEdge_ticks (late : ∀ t0, s.tickBefore = some t0 → s.periodCycles ≤ 2 * (s.now - t0)) : s.extEdge =
    { s.setFlag RF.TCK_STAT_HOLDOVER false with tick := { s.tick with riseTicked := true, due := some .ext, dueAt := s.now } } := by
  cases before : s.tickBefore with
  | none => simp only [State.extEdge, before, Bool.false_eq_true, if_false, State.dueTick, State.setFlag_tick, State.setFlag_now]
  | some t0 =>
    have notEarly := Nat.not_lt.mpr (late t0 before)
    simp only [State.extEdge, before, notEarly, decide_false, Bool.false_eq_true, if_false, State.dueTick, State.setFlag_tick, State.setFlag_now]

end

end Sys2Proof.Machine
end

section
open Sys2Proof
namespace Sys2Proof.Machine

/-! ### The edge's own state -/

/-- The state in which a recognised edge is weighed: the pulse noted, EXT_PRESENT set. -/
def State.risen (s : State) (high : Nat) : State :=
  State.setFlag { s.repeatPulse high with tick := { (s.repeatPulse high).tick with
    riseAt := some s.now, riseTicked := false, lastEdge := some s.now } } RF.TCK_STAT_EXT_PRESENT true

section
variable (s : State) (high : Nat)

theorem State.repeatPulse_now : (s.repeatPulse high).now = s.now := by
  obtain ⟨out, rose, fell, e⟩ := s.repeatPulse_eq high
  rw [e]

theorem execTickInRisingEdge_short (ticking : s.ticking = true) (short : high < 100) :
    execTickInRisingEdge high s = .next (s.repeatPulse high).glitch := by
  simp only [execTickInRisingEdge, ticking, Bool.not_true, Bool.false_eq_true, if_false, if_pos short]

theorem execTickInRisingEdge_recognised (ticking : s.ticking = true) (long : 100 ≤ high) :
    execTickInRisingEdge high s = .next (if (s.risen high).fld RF.TCK_CTL_SRC = 0 then s.risen high else (s.risen high).extEdge) := by
  simp only [execTickInRisingEdge, ticking, Bool.not_true, Bool.false_eq_true, if_false, if_neg (Nat.not_lt.mpr long), State.repeatPulse_now, State.risen]

theorem State.TickOnly.repeatPulse : s.TickOnly (s.repeatPulse high) := by
  obtain ⟨out, rose, fell, e⟩ := s.repeatPulse_eq high
  rw [e]
  exact (State.TickOnly.refl s).setTick _

theorem State.TickOnly.risen : s.TickOnly (s.risen high) := ((State.TickOnly.repeatPulse s high).setTick _).setFlag _ _

@[simp] theorem State.reg_repeatPulse (a : Nat) : (s.repeatPulse high).reg a = s.reg a := by
  obtain ⟨out, rose, fell, e⟩ := s.repeatPulse_eq high
  rw [e, State.reg_setTick]

theorem State.reg_risen {a : Nat} (stat : a ≠ RA.TCK_STAT) : (s.risen high).reg a = s.reg a := by
  rw [State.risen, State.reg_setFlag_other _ _ _ stat, State.reg_setTick, State.reg_repeatPulse]

theorem State.fld_risen (f : RegField) (stat : f.addr ≠ RA.TCK_STAT) : (s.risen high).fld f = s.fld f :=
  State.fld_eq_of_reg f (s.reg_risen high stat)

/-- The pulse of an edge: what else it leaves of the tick's state. -/
theorem State.risen_tick : ∃ out rose fell, (s.risen high).now = s.now ∧ (s.risen high).tick =
    { s.tick with outHigh := out, outRose := rose, outFell := fell, riseAt := some s.now, riseTicked := false, lastEdge := some s.now } := by
  obtain ⟨out, rose, fell, e⟩ := s.repeatPulse_eq high
  refine ⟨out, rose, fell, ?_⟩
  rw [State.risen, State.setFlag_now, State.setFlag_tick, e]
  exact ⟨rfl, rfl⟩

theorem State.tickBefore_risen : (s.risen high).tickBefore = s.tickBefore := by
  obtain ⟨out, rose, fell, now, tick⟩ := s.risen_tick high
  simp only [State.tickBefore, now, tick]

theorem State.periodCycles_risen : (s.risen high).periodCycles = s.periodCycles := by
  rw [State.periodCycles, State.fld_risen _ _ _ (by decide), State.periodCycles]

end

theorem execTickInFallingEdge_risen (s : State) (width : Nat) {t0 : Nat} (rise : s.tick.riseAt = some t0) : execTickInFallingEdge width s =
    .next { s with tick := { s.tick with
      riseAt := none, riseTicked := false, outHigh := false
      outFell := if s.tick.outHigh then some s.now else s.tick.outFell
      held := if decide (1500 ≤ width) then some (s.fld64 RF.TCK_SYNC_LOAD_LO_VALUE RF.TCK_SYNC_LOAD_HI_VALUE) else s.tick.held
      recPulse := s.tick.recPulse || (s.tick.riseTicked && decide (1500 ≤ width)) } } := by
  simp only [execTickInFallingEdge, rise]

/-! ### The tick -/

/-- The length in cycles of the frame that the tick ends. -/
def TickSt.frameLen (k : TickSt) : Nat :=
  match k.lastTick with
  | some l => k.dueAt - l
  | none => 0

/-- The registers of the tick that is due: its number, the length of the frame it ends, and whether edges are present. -/
def State.tickCounted (s : State) : State :=
  let t := s.setFld64 RF.TCK_COUNT_LO_COUNT RF.TCK_COUNT_HI_COUNT s.tickNumber
  let t := if t.tick.lastTick.isSome then t.setFld RF.TCK_MEAS_LEN (min (used10 s.tick.frameLen) (2 ^ 32 - 1)) else t
  t.setFlag RF.TCK_STAT_EXT_PRESENT t.edgePresent

/-- The state after the tick that is due: its registers, and a new frame begun. -/
def State.ticked (s : State) (src : TickSrc) : State :=
  State.drivePulse { s.tickCounted with tick := { s.tickCounted.tick with
      lastTick := some s.tick.dueAt, lastGen := s.tick.dueAt, due := none, first := false, held := none, lossRef := s.tick.dueAt, lossSeen := false
      recSync := !s.tick.first && s.tick.held.isSome, recHold := src == TickSrc.holdover, recOverrun := false, recDefer := false, recPulse := false
      recTick := s.tickNumber, recLen := if s.tickCounted.tick.lastTick.isSome then min (used10 s.tick.frameLen) (2 ^ 32 - 1) else 0
      closed := false, admitted := false } } src s.tick.dueAt

theorem execTick_due {s : State} {src : TickSrc} (due : s.tick.due = some src) : execTick s =
    .next (if s.tick.lastTick.isSome && decide (src = .ext) && decide (s.periodCycles <
        s.tick.frameLen * 200 - s.periodCycles * 200 + (s.periodCycles * 200 - s.tick.frameLen * 200)) then
      ((s.ticked src).setFlag RF.TCK_STAT_MISMATCH true).emit ((s.ticked src).tickRec 0x0205)
    else s.ticked src) := by
  cases last : s.tick.lastTick with
  | none => simp only [execTick, due, State.ticked, State.tickCounted, TickSt.frameLen, last]
  | some l => simp only [execTick, due, State.ticked, State.tickCounted, TickSt.frameLen, last]

section
variable (s : State) (src : TickSrc)

theorem State.tickCounted_tick : s.tickCounted.tick = s.tick := by
  rw [State.tickCounted]
  split
  · rw [State.setFlag_tick, State.setFld_tick, State.setFld64_tick]
  · rw [State.setFlag_tick, State.setFld64_tick]

theorem State.TickOnly.tickCounted : s.TickOnly s.tickCounted := by
  have counted : s.TickOnly (s.setFld64 RF.TCK_COUNT_LO_COUNT RF.TCK_COUNT_HI_COUNT s.tickNumber) := ((State.TickOnly.refl s).setFld _ _).setFld _ _
  rw [State.tickCounted]
  split
  · exact (counted.setFld _ _).setFlag _ _
  · exact counted.setFlag _ _

/-- The tick counts in its own registers. -/
theorem State.reg_tickCounted {a : Nat} (lo : a ≠ RA.TCK_COUNT_LO) (hi : a ≠ RA.TCK_COUNT_HI) (meas : a ≠ RA.TCK_MEAS) (stat : a ≠ RA.TCK_STAT) :
    s.tickCounted.reg a = s.reg a := by
  have counted : (s.setFld64 RF.TCK_COUNT_LO_COUNT RF.TCK_COUNT_HI_COUNT s.tickNumber).reg a = s.reg a := by
    rw [State.setFld64, State.reg_setFld_other _ _ _ hi, State.reg_setFld_other _ _ _ lo]
  rw [State.tickCounted]
  split
  · rw [State.reg_setFlag_other _ _ _ stat, State.reg_setFld_other _ _ _ meas, counted]
  · rw [State.reg_setFlag_other _ _ _ stat, counted]

theorem State.tickCount_tickCounted (small : s.tickNumber < 2 ^ 64) : s.tickCounted.tickCount = s.tickNumber := by
  have counted := s.fld64_setFld64 RF.TCK_COUNT_LO_COUNT RF.TCK_COUNT_HI_COUNT s.tickNumber small (by decide) (by decide) (by decide)
  rw [State.tickCounted, State.tickCount]
  split
  · rw [State.setFlag, State.fld64_setFld_other _ _ _ _ _ (by decide) (by decide), State.fld64_setFld_other _ _ _ _ _ (by decide) (by decide), counted]
  · rw [State.setFlag, State.fld64_setFld_other _ _ _ _ _ (by decide) (by decide), counted]

theorem State.measured_tickCounted {l : Nat} (last : s.tick.lastTick = some l) :
    s.tickCounted.fld RF.TCK_MEAS_LEN = min (used10 (s.tick.dueAt - l)) (2 ^ 32 - 1) := by
  have again : (s.setFld64 RF.TCK_COUNT_LO_COUNT RF.TCK_COUNT_HI_COUNT s.tickNumber).tick.lastTick.isSome = true := by
    rw [State.setFld64_tick, last, Option.isSome_some]
  rw [State.tickCounted]
  rw [if_pos again, State.fld_setFlag_other _ _ _ _ (by decide), State.fld_setFld_same _ _ _ (by decide) (by decide), TickSt.frameLen, last]
  exact Nat.mod_eq_of_lt (Nat.lt_of_le_of_lt (Nat.min_le_right _ _) (by decide))

/-- Drive mode moves TICK_OUT alone (R64). -/
theorem State.drivePulse_eq (t : Nat) : ∃ u o r, s.drivePulse src t = { s with tick := { s.tick with outUntil := u, outSync := o, syncReq := r } } := by
  unfold State.drivePulse
  split
  · exact ⟨_, _, _, rfl⟩
  · exact ⟨_, _, _, rfl⟩

/-- The frame that a tick begins. -/
theorem State.ticked_eq : ∃ tk : TickSt, s.ticked src = { s.tickCounted with tick := tk } ∧ tk.due = none ∧ tk.lastTick = some s.tick.dueAt ∧ tk.held = none ∧
    tk.first = false ∧ tk.closed = false ∧ tk.admitted = false := by
  unfold State.ticked
  obtain ⟨u, o, r, e⟩ := State.drivePulse_eq { s.tickCounted with tick := { s.tickCounted.tick with
      lastTick := some s.tick.dueAt, lastGen := s.tick.dueAt, due := none, first := false, held := none, lossRef := s.tick.dueAt, lossSeen := false
      recSync := !s.tick.first && s.tick.held.isSome, recHold := src == TickSrc.holdover, recOverrun := false, recDefer := false, recPulse := false
      recTick := s.tickNumber, recLen := if s.tickCounted.tick.lastTick.isSome then min (used10 s.tick.frameLen) (2 ^ 32 - 1) else 0
      closed := false, admitted := false } } src s.tick.dueAt
  exact ⟨_, e, rfl, rfl, rfl, rfl, rfl, rfl⟩

theorem State.TickOnly.tickRec {s t : State} (h : s.TickOnly t) (code : Nat) : t.tickRec code = s.tickRec code := by
  rw [State.tickRec, h, State.tickRec]

end

end Sys2Proof.Machine
end

section
/-! The family of the frame: ticks, their sources and their numbers. -/

open Sys2Proof Sys2Proof.Machine
namespace Sys2Proof.Claims

/-- An edge on TICK_IN, recognised or filtered (R48, R50, R51, R59). -/
theorem risingEdges (s : State) (high t0 : Nat) (ticking : s.ticking = true) :
    (high < 100 → ∃ t, exec (.tickInRisingEdge high) s = .next t ∧ t.tick = (s.repeatPulse high).tick ∧ t.flag RF.TCK_STAT_GLITCH = true ∧
      t.fld RF.TCK_GLITCH_COUNT = min (s.fld RF.TCK_GLITCH_COUNT + 1) (2 ^ 32 - 1) ∧ t = { s with tick := t.tick, regs := t.regs } ∧
      ∀ a, a ≠ RA.TCK_GLITCH → a ≠ RA.TCK_STAT → t.reg a = s.reg a) ∧
    (100 ≤ high → s.fld RF.TCK_CTL_SRC ≠ 0 → s.tickBefore = some t0 → 2 * (s.now - t0) < s.periodCycles →
      ∃ t, exec (.tickInRisingEdge high) s = .next t ∧ t.tick.due = s.tick.due ∧ t.tick.riseAt = some s.now ∧ t.tick.riseTicked = false ∧
        t.flag RF.TCK_STAT_GLITCH = true ∧ t.flag RF.TCK_STAT_HOLDOVER = false ∧
        t.fld RF.TCK_GLITCH_COUNT = min (s.fld RF.TCK_GLITCH_COUNT + 1) (2 ^ 32 - 1) ∧ t = { s with tick := t.tick, regs := t.regs } ∧
        ∀ a, a ≠ RA.TCK_GLITCH → a ≠ RA.TCK_STAT → t.reg a = s.reg a) ∧
    (100 ≤ high → s.fld RF.TCK_CTL_SRC ≠ 0 → (∀ t0, s.tickBefore = some t0 → s.periodCycles ≤ 2 * (s.now - t0)) →
      ∃ t, exec (.tickInRisingEdge high) s = .next t ∧ t.tick.due = some .ext ∧ t.tick.dueAt = s.now ∧ t.tick.riseAt = some s.now ∧
        t.tick.riseTicked = true ∧ t.flag RF.TCK_STAT_HOLDOVER = false ∧ t = { s with tick := t.tick, regs := t.regs } ∧
        ∀ a, a ≠ RA.TCK_STAT → t.reg a = s.reg a) ∧
    (100 ≤ high → s.fld RF.TCK_CTL_SRC = 0 →
      ∃ t, exec (.tickInRisingEdge high) s = .next t ∧ t.tick.due = s.tick.due ∧ t.tick.riseAt = some s.now ∧
        t = { s with tick := t.tick, regs := t.regs } ∧ ∀ a, a ≠ RA.TCK_STAT → t.reg a = s.reg a) := by
  obtain ⟨out, rose, fell, now, tick⟩ := s.risen_tick high
  have src : (s.risen high).fld RF.TCK_CTL_SRC = s.fld RF.TCK_CTL_SRC := s.fld_risen high _ (by decide)
  rw [exec_tickInRisingEdge]
  refine ⟨fun short => ?short, fun long ext before early => ?early, fun long ext late => ?ticks, fun long int => ?internal⟩
  case short =>
    refine ⟨_, execTickInRisingEdge_short s high ticking short, State.glitch_tick _, State.glitch_flag _, ?_, (State.TickOnly.repeatPulse s high).glitch, ?_⟩
    · rw [State.glitch_count, State.fld_eq_of_reg _ (State.reg_repeatPulse ..)]
    · exact fun a count stat => (State.reg_glitch _ count stat).trans (State.reg_repeatPulse ..)
  case early =>
    obtain ⟨ref, seen, e⟩ := (s.risen high).extEdge_early ((s.tickBefore_risen high).trans before) (by rw [now, State.periodCycles_risen]; exact early)
    refine ⟨(s.risen high).extEdge, ?_, ?_, ?_, ?_, ?_, ?_, ?_, ?_, fun a count stat => ?_⟩
    · rw [execTickInRisingEdge_recognised s high ticking long, src, if_neg ext]
    · rw [e, tick]
    · rw [e, tick]
    · rw [e, tick]
    · rw [e, State.flag_setTick, State.glitch_flag]
    · rw [e, State.flag_setTick, State.glitch_holdover, State.flag_setFlag_same _ _ _ (by decide) (by decide)]
    · rw [e, State.fld_setTick, State.glitch_count, State.fld_setFlag_other _ _ _ _ (by decide), State.fld_risen _ _ _ (by decide)]
    · rw [e]
      exact ((State.TickOnly.risen s high).setFlag _ _).glitch.setTick _
    · rw [e, State.reg_setTick, State.reg_glitch _ count stat, State.reg_setFlag_other _ _ _ stat, State.reg_risen _ _ stat]
  case ticks =>
    have e := (s.risen high).extEdge_ticks (by rw [now, State.periodCycles_risen, State.tickBefore_risen]; exact late)
    refine ⟨(s.risen high).extEdge, ?_, ?_, ?_, ?_, ?_, ?_, ?_, fun a stat => ?_⟩
    · rw [execTickInRisingEdge_recognised s high ticking long, src, if_neg ext]
    · rw [e]
    · rw [e]
      exact now
    · rw [e, tick]
    · rw [e]
    · rw [e, State.flag_setTick, State.flag_setFlag_same _ _ _ (by decide) (by decide)]
    · rw [e]
      exact ((State.TickOnly.risen s high).setFlag _ _).setTick _
    · rw [e, State.reg_setTick, State.reg_setFlag_other _ _ _ stat, State.reg_risen _ _ stat]
  case internal =>
    refine ⟨s.risen high, ?_, ?_, ?_, State.TickOnly.risen s high, fun a stat => s.reg_risen high stat⟩
    · rw [execTickInRisingEdge_recognised s high ticking long, src, if_pos int]
    · rw [tick]
    · rw [tick]

/-- The tick that is due (R54, R55, R61). -/
theorem tickBegins (s : State) (src : TickSrc) (due : s.tick.due = some src) :
    ∃ u : State, u.tick.due = none ∧ u.tick.lastTick = some s.tick.dueAt ∧
      u.tick.held = none ∧ u.tick.first = false ∧ u.tick.closed = false ∧ u.tick.admitted = false ∧
      (s.tick.first = true → u.tickCount = 0) ∧
      (∀ v, s.tick.first = false → s.tick.held = some v → v < 2 ^ 64 → u.tickCount = v) ∧
      (s.tick.first = false → s.tick.held = none → u.tickCount = (s.tickCount + 1) % 2 ^ 64) ∧
      (∀ l, s.tick.lastTick = some l → u.fld RF.TCK_MEAS_LEN = min (used10 (s.tick.dueAt - l)) (2 ^ 32 - 1)) ∧
      u = { s with tick := u.tick, regs := u.regs } ∧
      (∀ a, a ≠ RA.TCK_COUNT_LO → a ≠ RA.TCK_COUNT_HI → a ≠ RA.TCK_MEAS → a ≠ RA.TCK_STAT → u.reg a = s.reg a) ∧
      ((∀ l, src = .ext → s.tick.lastTick = some l →
          200 * (s.periodCycles - (s.tick.dueAt - l)) ≤ s.periodCycles ∧ 200 * (s.tick.dueAt - l - s.periodCycles) ≤ s.periodCycles) →
        exec .tick s = .next u) ∧
      ∀ l, src = .ext → s.tick.lastTick = some l →
        (s.periodCycles < 200 * (s.periodCycles - (s.tick.dueAt - l)) ∨ s.periodCycles < 200 * (s.tick.dueAt - l - s.periodCycles)) →
        exec .tick s = .next ((u.setFlag RF.TCK_STAT_MISMATCH true).emit (s.tickRec 0x0205)) := by
  obtain ⟨tk, e, noneDue, last, held, first, closed, admitted⟩ := s.ticked_eq src
  have only : s.TickOnly (s.ticked src) := e ▸ (State.TickOnly.tickCounted s).setTick tk
  have count (small : s.tickNumber < 2 ^ 64) : (s.ticked src).tickCount = s.tickNumber := by
    rw [← s.tickCount_tickCounted small, e]
    simp only [State.tickCount, State.fld64, State.fld_setTick]
  rw [exec_tick, execTick_due due, only.tickRec]
  refine ⟨s.ticked src, e ▸ noneDue, e ▸ last, e ▸ held, e ▸ first, e ▸ closed, e ▸ admitted, fun isFirst => ?first, fun v later load small => ?held,
    fun later free => ?rises, fun l ended => ?length, only, fun a lo hi meas stat => ?regs, fun good => ?good, fun l ext ended bad => ?bad⟩
  case first =>
    have number : s.tickNumber = 0 := by simp only [State.tickNumber, isFirst, if_true]
    rw [count (by rw [number]; decide), number]
  case held =>
    have number : s.tickNumber = v := by simp only [State.tickNumber, later, Bool.false_eq_true, if_false, load, Option.getD_some]
    rw [count (by rw [number]; exact small), number]
  case rises =>
    have number : s.tickNumber = (s.tickCount + 1) % 2 ^ 64 := by
      simp only [State.tickNumber, later, Bool.false_eq_true, if_false, free, Option.getD_none]
    rw [count (by rw [number]; exact Nat.mod_lt _ (by decide)), number]
  case length => rw [e, State.fld_setTick, s.measured_tickCounted ended]
  case regs => rw [e, State.reg_setTick, s.reg_tickCounted lo hi meas stat]
  case good =>
    refine congrArg Host.Outcome.next (if_neg fun off => ?_)
    simp only [Bool.and_eq_true, decide_eq_true_eq, Option.isSome_iff_exists] at off
    obtain ⟨⟨⟨l, ended⟩, ext⟩, far⟩ := off
    obtain ⟨short, long⟩ := good l ext ended
    simp only [TickSt.frameLen, ended] at far
    omega
  case bad =>
    refine congrArg Host.Outcome.next (if_pos ?_)
    simp only [Bool.and_eq_true, decide_eq_true_eq, TickSt.frameLen, ended, ext, Option.isSome_some, true_and]
    omega

/-- Settles O32: edges by `risingEdges`, the tick by `tickBegins`, and the generators by the conditions of their commands. -/
theorem tickSourcesAndNumbers : Obligations.TickSourcesAndNumbers := by
  refine ⟨⟨risingEdges, ?falling, ?noEdge, ?internal, ?otherCycle, ?holdover, ?loss, ?inTime, ?sync⟩, ?noTick, tickBegins⟩
  case falling =>
    intro s width t0 rise
    rw [exec_tickInFallingEdge]
    refine ⟨_, execTickInFallingEdge_risen s width rise, rfl, ?_, rfl, rfl, rfl, rfl⟩
    simp only [decide_eq_true_eq]
  case noEdge =>
    intro s width fell
    simp only [exec_tickInFallingEdge, execTickInFallingEdge, fell]
  case internal =>
    intro s ticking src due now
    rw [exec_internalTick, execInternalTick, ticking, src, due, now]
    simp only [BEq.rfl, Option.isNone_none, Bool.and_self, if_true, State.dueTick]
    rw [now]
  case otherCycle =>
    intro s now
    have other : (s.now == s.tick.lastGen + s.periodCycles) = false := beq_false_of_ne now
    rw [exec_internalTick, exec_holdoverTick, execInternalTick, execHoldoverTick, other]
    simp only [Bool.and_false, Bool.false_eq_true, if_false, and_self]
  case holdover =>
    intro s ticking held due now
    rw [exec_holdoverTick, execHoldoverTick, ticking, held, due, now]
    simp only [BEq.rfl, Option.isNone_none, Bool.and_self, if_true, State.dueTick]
    rw [now]
  case loss =>
    intro s ticking ext notHeld unseen due lost
    refine ⟨(State.setFlag { s with tick := { s.tick with lossSeen := true } } RF.TCK_STAT_LOST true).bump RF.TCK_LOST_COUNT, ?_, ?_, ?_, ?_⟩
    · rw [State.bump, State.bumpN, State.flag_setFld_other _ _ _ _ (by decide), State.flag_setFlag_same _ _ _ (by decide) (by decide)]
    · refine (State.fld_bump_same _ _ (by decide) (by decide)).trans ?_
      rw [State.fld_setFlag_other _ _ _ _ (by decide), State.fld_setTick]
      rfl
    · rw [State.bump_tick, State.setFlag_tick]
    · have src : (s.fld RF.TCK_CTL_SRC == 0) = false := beq_false_of_ne ext
      rw [exec_tickLoss, execTickLoss]
      exact if_pos (by simp only [ticking, src, notHeld, unseen, due, decide_eq_true lost, Option.isNone_none, Bool.not_false, Bool.and_self])
  case inTime =>
    intro s early
    rw [exec_tickLoss, execTickLoss, decide_eq_false (Nat.not_lt.mpr early)]
    simp only [Bool.and_false, Bool.false_eq_true, if_false]
  case sync =>
    intro s alive running
    simp only [exec_syncReq, execSyncReq, State.serving, alive, running, Bool.and_self, if_true]
  case noTick =>
    intro s none
    simp only [exec_tick, execTick, none]

end Sys2Proof.Claims
end

section
/-! SUPPORT. The end-of-frame cycle and the record of its counters (R86 to R97). -/

open Sys2Proof
namespace Sys2Proof.Machine

theorem exec_endOfFrame (s : State) : exec .endOfFrame s = execEndOfFrame s := rfl
theorem exec_snapshotRecordWrite (s : State) : exec .snapshotRecordWrite s = execSnapshotRecordWrite s := rfl

section
variable (s : State) (unit : Nat)

@[simp] theorem State.syncUnit_units : (s.syncUnit unit).units = s.units := by
  rw [State.syncUnit, State.setFld_units, State.setFlag_units, State.setFlag_units, State.setFlag_units]

@[simp] theorem State.unitRun_syncUnit (v : Nat) : (s.syncUnit unit).unitRun v = s.unitRun v := by
  rw [State.unitRun, State.syncUnit_units, State.unitRun]

@[simp] theorem State.unitRun_bumpN (f : RegField) (n v : Nat) : (s.bumpN f n).unitRun v = s.unitRun v := by
  rw [State.unitRun, State.bumpN_units, State.unitRun]

@[simp] theorem State.unitRun_setUnit_same (r : UnitRun) : (s.setUnit unit r).unitRun unit = r := kvGet_set_same ..

/-- What returns to the head of its queue, and what stays (R86). -/
theorem State.unitRun_returnUnissued (some' : (s.unitRun unit).active.filter (fun p => p.issued.isEmpty) ≠ []) :
    (s.returnUnissued unit).unitRun unit = { s.unitRun unit with
      active := (s.unitRun unit).active.filter (fun p => !p.issued.isEmpty)
      waiting := ((s.unitRun unit).active.filter (fun p => p.issued.isEmpty)).map FrameProg.unadmit ++ (s.unitRun unit).waiting } := by
  have nonempty : ((s.unitRun unit).active.filter (fun p => p.issued.isEmpty)).isEmpty = false := by simpa using some'
  simp only [State.returnUnissued, nonempty, Bool.false_eq_true, if_false, State.unitRun_syncUnit, State.unitRun_bumpN, State.unitRun_setUnit_same]

/-- The state in which an overrun is counted (R70). -/
def State.overrunCounted : State :=
  let t := ((s.bump (RF.TCK_U_OVERRUN_COUNT unit)).bump RF.TCK_OVERRUN_COUNT).setFlag RF.TCK_STAT_OVERRUN true
  { t with tick := { t.tick with recOverrun := true } }

variable {s unit}

theorem State.overrun_eq {p : FrameProg} {u : UnitEnt} (prog : s.prog unit = some p) (ent : s.unitEnt unit = some u) : s.overrun unit =
    if p.done.length = p.items then s
    else if (s.overrunCounted unit).watchdogOf unit then
      (s.overrunCounted unit).setUnit unit { (s.overrunCounted unit).unitRun unit with withheld := true }
    else (s.overrunCounted unit).overrunAction unit u p := by
  simp only [State.overrun, prog, ent]
  rfl

variable (s unit)

theorem State.overrunCounted_unit :
    (s.overrunCounted unit).fld (RF.TCK_U_OVERRUN_COUNT unit) = min (s.fld (RF.TCK_U_OVERRUN_COUNT unit) + 1) (2 ^ 32 - 1) := by
  rw [State.overrunCounted, State.fld_setTick, State.fld_setFlag_other _ _ _ _ (by simp only [RF.TCK_U_OVERRUN_COUNT, RF.TCK_STAT_OVERRUN, RA.TCK_U_OVERRUN, RA.TCK_STAT]; omega),
    State.fld_bump_other _ _ _ (by simp only [RF.TCK_U_OVERRUN_COUNT, RF.TCK_OVERRUN_COUNT, RA.TCK_U_OVERRUN, RA.TCK_OVERRUN]; omega)]
  exact State.fld_bump_same _ _ (Nat.zero_le _) (by simp only [RF.TCK_U_OVERRUN_COUNT]; decide)

theorem State.overrunCounted_all : (s.overrunCounted unit).fld RF.TCK_OVERRUN_COUNT = min (s.fld RF.TCK_OVERRUN_COUNT + 1) (2 ^ 32 - 1) := by
  rw [State.overrunCounted, State.fld_setTick, State.fld_setFlag_other _ _ _ _ (by decide)]
  refine (State.fld_bump_same _ _ (by decide) (by decide)).trans ?_
  rw [State.fld_bump_other _ _ _ (by simp only [RF.TCK_U_OVERRUN_COUNT, RF.TCK_OVERRUN_COUNT, RA.TCK_U_OVERRUN, RA.TCK_OVERRUN]; omega)]
  rfl

theorem State.overrunCounted_flag : (s.overrunCounted unit).flag RF.TCK_STAT_OVERRUN = true := by
  rw [State.overrunCounted, State.flag_setTick, State.flag_setFlag_same _ _ _ (by decide) (by decide)]

end

/-! ### The record -/

/-- The range of a record: unit, context, class and place. -/
theorem execSnapshotRecordWrite_ready {s : State} (alive : s.alive = true) (ready : s.recordReady = true) {unit ctx size va : Nat}
    (hunit : unit = s.fld RF.TCK_SNAP_CTX_UNIT) (hctx : ctx = s.fld RF.TCK_SNAP_CTX_CTX) (hsize : size = s.fld RF.TCK_SNAP_SIZE_SIZE)
    (hva : va = s.fld RF.TCK_SNAP_BASE_LO_BASE * 4096 + 2 ^ 32 * s.fld RF.TCK_SNAP_BASE_HI_BASE
      + s.tick.recTick % (s.fld RF.TCK_SNAP_CTL_DEPTH + 1) * size)
    (leaf : s.isLeaf unit = true) (found : s.runFails unit ctx 1 va size = none) :
    execSnapshotRecordWrite s =
      if s.piecesWait unit ctx true (s.devPieces unit ctx 1 va size) then .next (s.noteWaits unit ctx true (s.devPieces unit ctx 1 va size))
      else if (blockRuns va size).any (s.blockLost unit ctx (s.rangeCls unit ctx va)) then
        .next (State.loseRecord { s with tick := { s.tick with snapPending := false } })
      else
        let t : State := { s with tick := { s.tick with snapPending := false } }
        .next ((t.nextFree.2.putRecord unit ctx va (s.rangeCls unit ctx va) s.recordHead (s.recordTail t.nextFree.1)
          (leBytes 4 s.tick.recTick)).keepCounters s) := by
  subst hunit hctx hsize hva
  simp only [execSnapshotRecordWrite, alive, ready, leaf, found, Bool.and_self, if_true, Bool.true_and, Bool.not_true, Option.isSome_none, Bool.or_self,
    Bool.false_or]

theorem execSnapshotRecordWrite_groupUnit {s : State} (alive : s.alive = true) (ready : s.recordReady = true)
    (group : s.isLeaf (s.fld RF.TCK_SNAP_CTX_UNIT) = false) :
    execSnapshotRecordWrite s = .next (State.loseRecord { s with tick := { s.tick with snapPending := false } }) := by
  simp only [execSnapshotRecordWrite, alive, ready, group, Bool.and_self, if_true, Bool.false_and, Bool.false_eq_true, if_false, Bool.not_false, Bool.true_or]

end Sys2Proof.Machine
end

section
/-! The family of the frame: its end. -/

open Sys2Proof Sys2Proof.Machine
namespace Sys2Proof.Claims

/-- Settles O33: the cycle by its conditions, what returns by `unitRun_returnUnissued`, overruns by `overrun_eq`, the record by what its range meets. -/
theorem endOfFrame : Obligations.EndOfFrame := by
  intro s l unit p u
  rw [exec_endOfFrame, exec_snapshotRecordWrite]
  refine ⟨?ends, ?once, ?returns, ?done, ?overruns, ⟨rfl, rfl⟩, ?groupUnit, fun t => rfl, ?notReady, ?record⟩
  case ends =>
    intro last alive now open'
    simp only [execEndOfFrame, last, alive, now, open', BEq.rfl, Bool.not_false, Bool.and_self, if_true]
  case once =>
    intro last past
    have not32 : (s.alive && s.now == l + 32 && !s.tick.closed) = false := by
      rcases past with closed | now
      · rw [closed, Bool.not_true, Bool.and_false]
      · rw [beq_false_of_ne now, Bool.and_false, Bool.false_and]
    simp only [execEndOfFrame, last, not32, Bool.false_eq_true, if_false]
  case returns =>
    intro unissued
    rw [s.unitRun_returnUnissued unit unissued]
    exact ⟨rfl, rfl⟩
  case done =>
    intro prog ent retired
    rw [State.overrun_eq prog ent, if_pos retired]
  case overruns =>
    intro prog ent runs
    refine ⟨s.overrunCounted unit, s.overrunCounted_unit unit, s.overrunCounted_all unit, s.overrunCounted_flag unit, rfl, ?_⟩
    rw [State.overrun_eq prog ent, if_neg runs]
    rfl
  case groupUnit => exact fun alive ready group => execSnapshotRecordWrite_groupUnit alive ready group
  case notReady =>
    intro waits
    rw [execSnapshotRecordWrite, waits]
    simp only [Bool.and_false, Bool.false_eq_true, if_false]
  case record =>
    intro unit ctx size va alive ready hunit hctx hsize hva leaf
    refine ⟨fun found waits => ?waits, fun found free lost => ?lost, fun found free whole => ?written⟩
    case waits => rw [execSnapshotRecordWrite_ready alive ready hunit hctx hsize hva leaf found, if_pos waits]
    case lost => rw [execSnapshotRecordWrite_ready alive ready hunit hctx hsize hva leaf found, free, lost, if_neg Bool.false_ne_true, if_pos rfl]
    case written => rw [execSnapshotRecordWrite_ready alive ready hunit hctx hsize hva leaf found, free, whole, if_neg Bool.false_ne_true, if_neg Bool.false_ne_true]

end Sys2Proof.Claims
end

section
/-! SUPPORT. Start gates and retirement (R69, R82, R90, R907). -/

open Sys2Proof
namespace Sys2Proof.Machine

theorem exec_startGateRegister (unit : Nat) (s : State) : exec (.startGateRegister unit) s = execStartGateRegister unit s := rfl
theorem exec_startGateOpen (unit : Nat) (s : State) : exec (.startGateOpen unit) s = execStartGateOpen unit s := rfl
theorem exec_programRetire (unit : Nat) (s : State) : exec (.programRetire unit) s = .next (s.retire unit) := rfl
theorem exec_tckUHaltedClear (unit : Nat) (s : State) : exec (.tckUHaltedClear unit) s = execTckUHaltedClear unit s := rfl

section
variable {s : State} {unit : Nat} {p : FrameProg}

theorem State.gateTimely_iff {tmb t : Nat} :
    s.gateTimely tmb t = true ↔ t ≤ s.now ∧ s.now ≤ t + (if tmbLeaf tmb = s.primary then 0 else 400) := by
  rw [State.gateTimely, Bool.and_eq_true, decide_eq_true_iff, decide_eq_true_iff]

/-- Only a program whose last item has completed retires (R69). -/
theorem State.retiring_eq_none (h : s.prog unit = none ∨ ∃ p, s.prog unit = some p ∧ p.done.length ≠ p.items) : s.retiring unit = none := by
  rcases h with none | ⟨p, prog, runs⟩
  · simp only [State.retiring, none]
  · simp only [State.retiring, prog, beq_false_of_ne runs, Bool.and_false, Bool.false_eq_true, if_false]

theorem State.retiring_eq_some (prog : s.prog unit = some p) (alive : s.alive = true) (items : 0 < p.items) (done : p.done.length = p.items) :
    s.retiring unit = some p := by
  simp only [State.retiring, prog, alive, items, done, BEq.rfl, decide_true, Bool.and_self, if_true]

/-- What a retirement shows, arrives at and completes (R69, R90). -/
theorem State.retire_of_retiring (retires : s.retiring unit = some p) : s.retire unit =
    let used := used10 (p.usedNow s.now)
    let s1 := s.setFld (RF.TCK_U_USED_USED unit) (min used (2 ^ 24 - 1))
    let s2 := if p.budget < used then s1.bump (RF.TCK_U_EXCESS_COUNT unit) else s1
    let s3 := s2.setUnit unit { s2.unitRun unit with active := (s2.unitRun unit).active.drop 1 }
    let s4 := if p.doneEn then s3.devArrive 6 s3.primary p.doneTmb else s3
    ((((s4.endLaunch p 0).syncUnit unit).syncQuiesced).askLower unit).pumpRestores (s4.unitCores unit) := by
  rw [State.retire, retires]

end

end Sys2Proof.Machine
end

section
/-! The family of the frame: gates and retirement. -/

open Sys2Proof Sys2Proof.Machine
namespace Sys2Proof.Claims

/-- Settles O35: gates by the times of their messages, retirement by `State.retiring`. -/
theorem gatesAndRetirement : Obligations.GatesAndRetirement := by
  intro s unit i p x
  rw [exec_startGateRegister, exec_startGateOpen, exec_programRetire, exec_tckUHaltedClear]
  refine ⟨?registers, ?opens, ?retires, ?runs, ?halted⟩
  case registers =>
    intro next alive pending since soon
    have timely : s.gateTimely p.startTmb p.gateFrom = true := State.gateTimely_iff.mpr ⟨since, soon⟩
    simp only [execStartGateRegister, next, alive, pending, timely, BEq.rfl, Bool.and_self, if_true]
  case opens =>
    intro first next note since soon
    have timely : s.gateTimely p.startTmb x.at_ = true := State.gateTimely_iff.mpr ⟨since, soon⟩
    refine ⟨fun fired => ?_, fun ended => ?_⟩
    · simp only [execStartGateOpen, first, next, note, timely, fired, BEq.rfl, if_true, State.openGate]
    · have notFired : (TmbAns.timedOut == TmbAns.fired) = false := by decide
      simp only [execStartGateOpen, first, next, note, timely, ended, notFired, Bool.false_eq_true, if_false, if_true]
  case retires =>
    intro prog alive items done
    exact congrArg Host.Outcome.next (State.retire_of_retiring (State.retiring_eq_some prog alive items done))
  case runs =>
    intro h
    rw [State.retire, State.retiring_eq_none h]
  case halted =>
    intro small alive running
    refine ⟨s.setFlag (RF.TCK_U_STAT_HALTED unit) false, ?_, ?_, fun a other => s.reg_setFlag_other _ _ other, ?_⟩
    · simp only [execTckUHaltedClear, State.serving, alive, running, small, decide_true, Bool.and_self, if_true]
    · exact State.flag_setFlag_same _ _ _ rfl (by simp only [RF.TCK_U_STAT_HALTED]; decide)
    · rw [State.setFlag, State.setFld, State.setReg]

end Sys2Proof.Claims
end

section
/-! SUPPORT. The fabric's resend protocol (R28 to R41): directions of a link, and blocks on the wire. -/

open Sys2Proof
namespace Sys2Proof.Machine

theorem exec_fabBlockSend (die vc : Nat) (poison : Bool) (dst src sect tag : Nat) (payload : List Byte) (s : State) :
    exec (.fabBlockSend die vc poison dst src sect tag payload) s = execFabBlockSend die vc poison dst src sect tag payload s := rfl
theorem exec_fabBlockReceive (dir : Nat) (noise : List Byte) (s : State) : exec (.fabBlockReceive dir noise) s = execFabBlockReceive dir noise s := rfl
theorem exec_fabAckTimeout (dir : Nat) (s : State) : exec (.fabAckTimeout dir) s = execFabAckTimeout dir s := rfl
theorem exec_fabRetrainDone (link : Nat) (bad : List LaneId) (s : State) : exec (.fabRetrainDone link bad) s = execFabRetrainDone link bad s := rfl
theorem exec_fabRetrainTimeout (link : Nat) (s : State) : exec (.fabRetrainTimeout link) s = execFabRetrainTimeout link s := rfl

/-! ### Directions -/

section
variable (s : State) (d k : Nat) (x : LinkDir)

theorem State.linkDir_setLinkDir : (s.setLinkDir d x).linkDir k = if k = d then x else s.linkDir k := kvGet_set ..

@[simp] theorem State.linkDir_setLinkDir_same : (s.setLinkDir d x).linkDir d = x := kvGet_set_same ..

variable {d k} in
theorem State.linkDir_setLinkDir_other (h : k ≠ d) : (s.setLinkDir d x).linkDir k = s.linkDir k := kvGet_set_other _ _ _ _ h

@[simp] theorem State.linkDir_setFlag (f : RegField) (b : Bool) : (s.setFlag f b).linkDir k = s.linkDir k := by
  rw [State.linkDir, State.setFlag_links, State.linkDir]

@[simp] theorem State.linkDir_bump (f : RegField) : (s.bump f).linkDir k = s.linkDir k := by rw [State.linkDir, State.bump_links, State.linkDir]

@[simp] theorem State.setLinkDir_regs : (s.setLinkDir d x).regs = s.regs := by simp only [State.setLinkDir]

@[simp] theorem State.fld_setLinkDir (f : RegField) : (s.setLinkDir d x).fld f = s.fld f := by
  simp only [State.fld, State.reg, State.setLinkDir_regs]

end

theorem revDir_ne (d : Nat) : revDir d ≠ d := by
  unfold revDir
  split <;> omega

theorem ne_revDir (d : Nat) : d ≠ revDir d := (revDir_ne d).symm

section
variable (s : State) (d : Nat)

/-- An acknowledgement leaves what its direction has received as it was (R32 to R34). -/
theorem State.linkDir_sendAck (nak : Bool) : (s.sendAck d nak).linkDir d =
    { s.linkDir d with acked := some (((s.linkDir d).expected + 4095) % 4096), nakOut := nak || (s.linkDir d).nakOut } := by
  rw [State.sendAck]
  exact (State.linkDir_setLinkDir_other _ _ (ne_revDir d)).trans (State.linkDir_setLinkDir_same ..)

@[simp] theorem State.fld_sendAck (nak : Bool) (f : RegField) : (s.sendAck d nak).fld f = s.fld f := by
  rw [State.sendAck]
  simp only [State.fld_setLinkDir]

/-! ### Blocks that go out -/

/-- From `s` to `t` the blocks `w` have gone out on a direction, and no other direction has changed. -/
structure State.GoesOut (s t : State) (d : Nat) (w : List FabBlock) : Prop where
  replay : (t.linkDir d).replay = (s.linkDir d).replay ++ w
  wire : (t.linkDir d).wire = (s.linkDir d).wire ++ w
  stopped : (t.linkDir d).stopped = (s.linkDir d).stopped
  replays : (t.linkDir d).replays = (s.linkDir d).replays
  others : ∀ k, k ≠ d → t.linkDir k = s.linkDir k

variable {d} in
theorem State.GoesOut.trans {s t u : State} {v w : List FabBlock} (h : s.GoesOut t d v) (k : t.GoesOut u d w) : s.GoesOut u d (v ++ w) where
  replay := by rw [k.replay, h.replay, List.append_assoc]
  wire := by rw [k.wire, h.wire, List.append_assoc]
  stopped := k.stopped.trans h.stopped
  replays := k.replays.trans h.replays
  others := fun j other => (k.others j other).trans (h.others j other)

theorem State.launchBlock_goesOut (b : FabBlock) :
    s.GoesOut (s.launchBlock d b) d [{ b with seq := (s.linkDir d).nextSeq, ack := (s.linkDir (revDir d)).acked }] := by
  constructor
  case others => exact fun k other => State.linkDir_setLinkDir_other _ _ other
  all_goals simp only [State.launchBlock, State.linkDir_setLinkDir_same]

theorem State.foldl_launchBlock_goesOut (bs : List FabBlock) (s : State) : ∃ w, s.GoesOut (bs.foldl (fun s b => s.launchBlock d b) s) d w := by
  induction bs generalizing s with
  | nil => exact ⟨[], ⟨(List.append_nil _).symm, (List.append_nil _).symm, rfl, rfl, fun _ _ => rfl⟩⟩
  | cons b r ih =>
    obtain ⟨w, h⟩ := ih (s.launchBlock d b)
    exact ⟨_, (s.launchBlock_goesOut d b).trans h⟩

theorem State.launchWaiting_goesOut : ∃ w, s.GoesOut (s.launchWaiting d) d w := by
  rw [State.launchWaiting]
  obtain ⟨w, h⟩ := State.foldl_launchBlock_goesOut d ((s.linkDir d).waiting.take (if (s.linkDir d).stopped then 0 else 512 - (s.linkDir d).replay.length))
    (s.setLinkDir d { s.linkDir d with
      waiting := (s.linkDir d).waiting.drop (if (s.linkDir d).stopped then 0 else 512 - (s.linkDir d).replay.length) })
  refine ⟨w, ⟨h.replay.trans ?_, h.wire.trans ?_, h.stopped.trans ?_, h.replays.trans ?_, fun k other => (h.others k other).trans ?_⟩⟩
  case refine_5 => exact State.linkDir_setLinkDir_other _ _ other
  all_goals rw [State.linkDir_setLinkDir_same]

/-- With no block waiting nothing goes out. -/
theorem State.linkDir_launchWaiting (none : (s.linkDir d).waiting = []) : (s.launchWaiting d).linkDir d = s.linkDir d := by
  rw [State.launchWaiting]
  simp only [none, List.take_nil, List.drop_nil, List.foldl_nil, State.linkDir_setLinkDir_same]
  rw [← none]

/-! ### A direction that sends again -/

/-- A direction sends again from its oldest block (R39). -/
def State.goAgain (s : State) (d : Nat) : State :=
  (s.setLinkDir d { s.linkDir d with
    stopped := false, replays := 0, wire := (s.linkDir d).replay, lastAdvance := s.now, expired := 0, nakOut := false }).launchWaiting d

theorem State.goAgain_sends : ((s.goAgain d).linkDir d).stopped = false ∧ ((s.goAgain d).linkDir d).replays = 0 ∧
    ((s.goAgain d).linkDir d).wire = ((s.goAgain d).linkDir d).replay ∧ ∃ w, ((s.goAgain d).linkDir d).replay = (s.linkDir d).replay ++ w := by
  obtain ⟨w, h⟩ := State.launchWaiting_goesOut (s.setLinkDir d { s.linkDir d with
    stopped := false, replays := 0, wire := (s.linkDir d).replay, lastAdvance := s.now, expired := 0, nakOut := false }) d
  have replay := h.replay
  have wire := h.wire
  have stopped := h.stopped
  have replays := h.replays
  rw [State.linkDir_setLinkDir_same] at replay wire stopped replays
  exact ⟨stopped, replays, wire.trans replay.symm, w, replay⟩

variable {d} in
theorem State.goAgain_others {k : Nat} (other : k ≠ d) : (s.goAgain d).linkDir k = s.linkDir k := by
  obtain ⟨w, h⟩ := State.launchWaiting_goesOut (s.setLinkDir d { s.linkDir d with
    stopped := false, replays := 0, wire := (s.linkDir d).replay, lastAdvance := s.now, expired := 0, nakOut := false }) d
  exact (h.others k other).trans (State.linkDir_setLinkDir_other _ _ other)

end

/-! ### The block on the wire (R28, R29) -/

/-- Little-endian bytes read as their number, modulo what they can hold. -/
theorem leNat_leBytes (n v : Nat) : leNat (leBytes n v) = v % 256 ^ n := by
  induction n generalizing v with
  | zero => rw [leBytes, leNat, pow_zero, Nat.mod_one]
  | succ n ih => rw [leBytes, leNat, ih, pow_succ', Nat.mod_mul, BitVec.toNat_ofNat]

/-- Without bit errors bytes arrive as they were sent. -/
theorem disturbed_nil (bs : List Byte) : disturbed bs [] = bs := by
  have same (x : Byte × Nat) : x.1 ^^^ ([] : List Byte).getD x.2 0 = x.1 := by
    rw [List.getD_nil]
    exact BitVec.xor_zero
  rw [disturbed, List.map_congr_left (fun x _ => same x), List.zipIdx_map_fst]

section
variable {b : FabBlock} (whole : b.payload.length = 256)
include whole

theorem FabBlock.bytes_eq : b.bytes = leBytes 12 b.head ++ b.payload := by
  rw [FabBlock.bytes, whole, Nat.sub_self, List.replicate_zero, List.append_nil, List.take_of_length_le (Nat.le_of_eq whole)]

theorem FabBlock.length_bytes : b.bytes.length = 268 := by rw [FabBlock.bytes_eq whole, List.length_append, length_leBytes, whole]

theorem FabBlock.length_frame : b.frame.length = 272 := by
  rw [FabBlock.frame, List.length_append, FabBlock.length_bytes whole, length_leBytes]

/-- The check of a block that no bit error has met. -/
theorem FabBlock.arrive_clean : b.arrive [] = some (FabBlock.ofFrame b.frame) := by
  have crc : (crc32 (b.frame.take 268)).toNat = leNat (b.frame.drop 268) := by
    rw [FabBlock.frame, List.take_left' (FabBlock.length_bytes whole), List.drop_left' (FabBlock.length_bytes whole), leNat_leBytes]
    exact (Nat.mod_eq_of_lt (crc32 b.bytes).isLt).symm
  rw [FabBlock.arrive, disturbed_nil]
  exact if_pos crc

theorem FabBlock.ofFrame_payload : (FabBlock.ofFrame b.frame).payload = b.payload := by
  rw [FabBlock.ofFrame, FabBlock.frame, FabBlock.bytes_eq whole, List.append_assoc, List.drop_left' (length_leBytes 12 _), List.take_left' whole]

theorem FabBlock.head_of_frame : leNat (b.frame.take 12) = b.head % 256 ^ 12 := by
  rw [FabBlock.frame, FabBlock.bytes_eq whole, List.append_assoc, List.take_left' (length_leBytes 12 _), leNat_leBytes]

omit whole in
theorem toNat_beq_one (p : Bool) : (p.toNat == 1) = p := by
  cases p with
  | false => rfl
  | true => rfl

/-- The fields of the head, read off its bits. -/
theorem FabBlock.ofFrame_frame (seq : b.seq < 4096) (vc : b.vc < 4) (dst : b.dst < 16) (src : b.src < 16) (sect : b.sect < 256) (tag : b.tag < 65536)
    (ack : ∀ a, b.ack = some a → a < 4096) : FabBlock.ofFrame b.frame = b := by
  have got : b.ack.getD 0 < 4096 := by
    cases e : b.ack with
    | none => decide
    | some a => exact ack a e
  have nak := b.nak.toNat_lt
  have poison := b.poison.toNat_lt
  have idle := b.idle.toNat_lt
  have isSome := b.ack.isSome.toNat_lt
  have payload := FabBlock.ofFrame_payload whole
  rw [FabBlock.ofFrame] at payload
  obtain ⟨h, value⟩ : ∃ h, h = b.seq + 2 ^ 12 * b.ack.getD 0 + 2 ^ 24 * b.ack.isSome.toNat + 2 ^ 25 * b.nak.toNat + 2 ^ 26 * b.vc + 2 ^ 28 * b.poison.toNat
      + 2 ^ 29 * b.idle.toNat + 2 ^ 32 * b.dst + 2 ^ 36 * b.src + 2 ^ 40 * b.sect + 2 ^ 48 * b.tag := ⟨_, rfl⟩
  have head : leNat (b.frame.take 12) = h := by
    rw [FabBlock.head_of_frame whole, FabBlock.head]
    omega
  have hack : (if h / 2 ^ 24 % 2 ^ 1 = 1 then some (h / 2 ^ 12 % 2 ^ 12) else none) = b.ack := by
    have number : h / 2 ^ 12 % 2 ^ 12 = b.ack.getD 0 := by omega
    have valid : h / 2 ^ 24 % 2 ^ 1 = b.ack.isSome.toNat := by omega
    rw [number, valid]
    cases b.ack with
    | none => rfl
    | some a => rfl
  rw [FabBlock.ofFrame, head]
  change _ = FabBlock.mk b.seq b.vc b.poison b.dst b.src b.sect b.tag b.payload b.ack b.nak b.idle
  rw [FabBlock.mk.injEq]
  refine ⟨?_, ?_, ?_, ?_, ?_, ?_, ?_, payload, hack, ?_, ?_⟩
  case refine_3 => exact (congrArg (· == 1) (by omega : h / 2 ^ 28 % 2 ^ 1 = b.poison.toNat)).trans (toNat_beq_one _)
  case refine_8 => exact (congrArg (· == 1) (by omega : h / 2 ^ 25 % 2 ^ 1 = b.nak.toNat)).trans (toNat_beq_one _)
  case refine_9 => exact (congrArg (· == 1) (by omega : h / 2 ^ 29 % 2 ^ 1 = b.idle.toNat)).trans (toNat_beq_one _)
  all_goals
    dsimp only
    omega

end

end Sys2Proof.Machine
end

section
open Sys2Proof
namespace Sys2Proof.Machine

/-! ### What a receiver makes of a block (R32 to R34) -/

/-- The receiver of a direction has taken the oldest block off it. -/
def State.wireTaken (s : State) (dir : Nat) (r : List FabBlock) : State := s.setLinkDir dir { s.linkDir dir with wire := r }

section
variable {s : State} {dir : Nat} {b x : FabBlock} {r : List FabBlock} {noise : List Byte} (wire : (s.linkDir dir).wire = b :: r)

theorem State.linkDir_wireTaken : (s.wireTaken dir r).linkDir dir = { s.linkDir dir with wire := r } := State.linkDir_setLinkDir_same ..

include wire

theorem execFabBlockReceive_acks {a : Nat} (arrives : b.arrive noise = some x) (ack : x.ack = some a) : execFabBlockReceive dir noise s =
    .next (if x.idle then (s.wireTaken dir r).takeAck (revDir dir) a x.nak else ((s.wireTaken dir r).takeAck (revDir dir) a x.nak).receiveBlock dir x) := by
  simp only [execFabBlockReceive, wire, arrives, ack, State.wireTaken]

theorem execFabBlockReceive_takes (arrives : b.arrive noise = some x) (data : x.idle = false) (ack : x.ack = none) :
    execFabBlockReceive dir noise s = .next ((s.wireTaken dir r).receiveBlock dir x) := by
  simp only [execFabBlockReceive, wire, arrives, ack, data, Bool.false_eq_true, if_false, State.wireTaken]

theorem execFabBlockReceive_fails (fails : b.arrive noise = none) : execFabBlockReceive dir noise s =
    .next (if (s.linkDir dir).nakOut then (s.wireTaken dir r).bump (RF.MGT_FAB_CRCERR_COUNT (dir / 2))
      else ((s.wireTaken dir r).bump (RF.MGT_FAB_CRCERR_COUNT (dir / 2))).sendAck dir true) := by
  simp only [execFabBlockReceive, wire, fails, State.linkDir_bump, State.linkDir_setLinkDir_same, State.wireTaken]

end

section
variable (s : State) (d : Nat) (b : FabBlock)

theorem State.receiveBlock_expected (next : b.seq = (s.linkDir d).expected) :
    ∃ acked nak, (s.receiveBlock d b).linkDir d = { s.linkDir d with
      expected := ((s.linkDir d).expected + 1) % 4096, delivered := (s.linkDir d).delivered ++ [b], acked := acked, nakOut := nak } := by
  rw [State.receiveBlock, if_pos next, State.linkDir_sendAck, State.linkDir_setLinkDir_same]
  exact ⟨_, _, rfl⟩

theorem State.receiveBlock_duplicate (other : b.seq ≠ (s.linkDir d).expected) (old : ((s.linkDir d).expected + 4096 - b.seq) % 4096 ≤ 2048) :
    s.receiveBlock d b = (s.bump (RF.MGT_FAB_DUPDROP_COUNT (d / 2))).sendAck d false := by
  rw [State.receiveBlock, if_neg other, if_pos old]

theorem State.receiveBlock_lost (other : b.seq ≠ (s.linkDir d).expected) (ahead : 2048 < ((s.linkDir d).expected + 4096 - b.seq) % 4096) :
    s.receiveBlock d b = if (s.linkDir d).nakOut then s else s.sendAck d true := by
  rw [State.receiveBlock, if_neg other, if_neg (Nat.not_le.mpr ahead)]

/-- A NAK is out for a direction, whose blocks are as they were, once `s` has it or it is sent. -/
theorem State.linkDir_nakOut {t : State} (same : t.linkDir d = s.linkDir d) :
    ∃ acked, (if (s.linkDir d).nakOut then t else t.sendAck d true).linkDir d = { s.linkDir d with acked := acked, nakOut := true } := by
  cases out : (s.linkDir d).nakOut with
  | true => exact ⟨(s.linkDir d).acked, same.trans (by rw [← out])⟩
  | false => exact ⟨_, (t.linkDir_sendAck d true).trans (by rw [same]; rfl)⟩

/-! ### Timeouts and retraining -/

variable {s d}

theorem execFabAckTimeout_due (unacked : (s.linkDir d).replay ≠ []) (sends : (s.linkDir d).stopped = false)
    (due : (s.linkDir d).lastAdvance + ((s.linkDir d).expired + 1) * (atLeast1 (s.fld (RF.MGT_FAB_CTL_ACK_TIMEOUT (d / 2))) * 625) < s.now) :
    execFabAckTimeout d s = .next ((s.setLinkDir d { s.linkDir d with expired := (s.linkDir d).expired + 1 }).replay d) := by
  have some' : (s.linkDir d).replay.isEmpty = false := by simpa using unacked
  simp only [execFabAckTimeout, some', sends, due, decide_true, Bool.not_false, Bool.and_self, if_true]

theorem execFabAckTimeout_still (h : (s.linkDir d).replay = [] ∨
    s.now ≤ (s.linkDir d).lastAdvance + ((s.linkDir d).expired + 1) * (atLeast1 (s.fld (RF.MGT_FAB_CTL_ACK_TIMEOUT (d / 2))) * 625)) :
    execFabAckTimeout d s = .next s := by
  rcases h with none | early
  · simp only [execFabAckTimeout, none, List.isEmpty_nil, Bool.not_true, Bool.false_and, Bool.false_eq_true, if_false]
  · simp only [execFabAckTimeout, Nat.not_lt.mpr early, decide_false, Bool.and_false, Bool.false_eq_true, if_false]

variable (unacked : (s.linkDir d).replay ≠ []) (sends : (s.linkDir d).stopped = false)
include unacked sends

theorem State.replay_again (below : (s.linkDir d).replays < atLeast1 (s.fld (RF.MGT_FAB_CTL_REPLAY_LIMIT (d / 2)))) : s.replay d =
    (s.setLinkDir d { s.linkDir d with
      wire := (s.linkDir d).wire.filter (fun b => b.idle) ++ (s.linkDir d).replay
      replays := (s.linkDir d).replays + 1, nakOut := false }).bump (RF.MGT_FAB_REPLAY_COUNT (d / 2)) := by
  have some' : (s.linkDir d).replay.isEmpty = false := by simpa using unacked
  simp only [State.replay, some', sends, Bool.or_self, Bool.false_eq_true, if_false, if_neg (Nat.not_le.mpr below)]

theorem State.replay_retrains (limit : atLeast1 (s.fld (RF.MGT_FAB_CTL_REPLAY_LIMIT (d / 2))) ≤ (s.linkDir d).replays) :
    s.replay d = s.retrainStart (d / 2) := by
  have some' : (s.linkDir d).replay.isEmpty = false := by simpa using unacked
  simp only [State.replay, some', sends, Bool.or_self, Bool.false_eq_true, if_false, if_pos limit]

end

/-- The lanes that failed leave a link that retrains (R39, R851). -/
def State.lanesRemoved (s : State) (link : Nat) (bad : List LaneId) : State :=
  bad.foldl (fun s x => if natBit (kvGet (fun _ => 0) s.boot.badLanes (laneKey link x.1 x.2.1)) x.2.2 then s
    else (s.laneBad link x.1 x.2.1 x.2.2 1).bump (RF.MGT_LANE_RT_COUNT link)) s

section
variable {s : State} {link : Nat} {bad : List LaneId} (stopped : (s.linkDir (2 * link)).stopped = true) (up : (s.linkDir (2 * link)).down = false)
include stopped up

theorem execFabRetrainDone_eq : execFabRetrainDone link bad s =
    if decide (linkBundles link ≤ 2 * (s.lanesRemoved link bad).bundlesUp link 0) && decide (linkBundles link ≤ 2 * (s.lanesRemoved link bad).bundlesUp link 1) then
      .next ((((s.lanesRemoved link bad).goAgain (2 * link)).goAgain (2 * link + 1)).setFlag (RF.MGT_FAB_STAT_RETRAIN link) false)
    else .next ((s.lanesRemoved link bad).linkDown link 1) := by
  unfold execFabRetrainDone
  rw [stopped, up]
  rfl

theorem execFabRetrainTimeout_due (late : (s.linkDir (2 * link)).retrainAt + 25000 < s.now) : execFabRetrainTimeout link s = .next (s.linkDown link 0) := by
  simp only [execFabRetrainTimeout, stopped, up, late, decide_true, Bool.not_false, Bool.and_self, if_true]

end

/-- Every fixed route reaches its destination over links that Table 1.3 has. -/
theorem routes_end : ∀ a < 10, ∀ c < 10, routeUp (fun _ => true) c 8 a = true ∧ (a ≠ c → (linkOf a (nextDie a c)).isSome = true) := by decide

end Sys2Proof.Machine
end

section
/-! The family of the fabric. -/

open Sys2Proof Sys2Proof.Machine
namespace Sys2Proof.Claims

/-- Settles O36: the routes by evaluation, a clean block by its bits, the protocol by what each command does to its own direction. -/
theorem fabricLink : Obligations.FabricLink := by
  intro s die vc dst src sect tag d dir link poison payload noise b x r bad
  rw [exec_fabBlockSend, exec_fabBlockReceive, exec_fabAckTimeout, exec_fabRetrainDone, exec_fabRetrainTimeout]
  refine ⟨routes_end, ?sends, ?full, ?clean, ?expected, ?duplicate, ?lost, ?acks, ?freed, ?crc, ?timeout, ?still, ?retrained, ?late⟩
  case sends =>
    intro out sends room none
    have goes := s.launchBlock_goesOut d { seq := 0, vc := vc, poison := poison, dst := dst, src := src, sect := sect, tag := tag, payload := payload }
    refine ⟨_, ?_, goes.replay, ?_, goes.others, rfl⟩
    · simp only [execFabBlockSend, out, LinkDir.hasRoom, sends, room, none, List.isEmpty_nil, decide_true, Bool.not_false, Bool.and_self, if_true]
    · rw [State.launchBlock, State.linkDir_setLinkDir_same]
  case full =>
    intro out full
    simp only [execFabBlockSend, out, full, Bool.false_eq_true, if_false]
  case clean =>
    intro seq vc dst src sect tag whole ack
    exact ⟨(FabBlock.arrive_clean whole).trans (congrArg some (FabBlock.ofFrame_frame whole seq vc dst src sect tag ack)), FabBlock.length_frame whole⟩
  case expected =>
    intro wire arrives data ack next
    obtain ⟨acked, nak, e⟩ := (s.wireTaken dir r).receiveBlock_expected dir x (by rw [State.linkDir_wireTaken]; exact next)
    rw [State.linkDir_wireTaken] at e
    exact ⟨_, execFabBlockReceive_takes wire arrives data ack, by rw [e], by rw [e], by rw [e]⟩
  case duplicate =>
    intro wire arrives data ack other old
    have e := (s.wireTaken dir r).receiveBlock_duplicate dir x (by rw [State.linkDir_wireTaken]; exact other) (by rw [State.linkDir_wireTaken]; exact old)
    refine ⟨_, execFabBlockReceive_takes wire arrives data ack, ?_, ?_, ?_⟩
    · rw [e, State.linkDir_sendAck, State.linkDir_bump, State.linkDir_wireTaken]
    · rw [e, State.linkDir_sendAck, State.linkDir_bump, State.linkDir_wireTaken]
    · rw [e, State.fld_sendAck]
      exact State.fld_bump_same _ _ (Nat.zero_le _) (by simp only [RF.MGT_FAB_DUPDROP_COUNT]; decide)
  case lost =>
    intro wire arrives data ack other ahead
    have e := (s.wireTaken dir r).receiveBlock_lost dir x (by rw [State.linkDir_wireTaken]; exact other) (by rw [State.linkDir_wireTaken]; exact ahead)
    obtain ⟨acked, out⟩ := (s.wireTaken dir r).linkDir_nakOut dir rfl
    rw [← e, State.linkDir_wireTaken] at out
    exact ⟨_, execFabBlockReceive_takes wire arrives data ack, by rw [out], by rw [out], by rw [out]⟩
  case acks => exact fun a wire arrives ack => execFabBlockReceive_acks wire arrives ack
  case freed =>
    intro a i covers none
    have e : (s.takeAck d a false).linkDir d = { s.linkDir d with
        replay := (s.linkDir d).replay.drop (i + 1), replays := 0, lastAdvance := s.now, expired := 0 } := by
      simp only [State.takeAck, covers, Bool.false_eq_true, if_false]
      exact (State.linkDir_launchWaiting _ _ (by rw [State.linkDir_setLinkDir_same]; exact none)).trans (State.linkDir_setLinkDir_same ..)
    rw [e]
    exact ⟨rfl, rfl, rfl⟩
  case crc =>
    intro wire fails
    have same : ((s.wireTaken dir r).bump (RF.MGT_FAB_CRCERR_COUNT (dir / 2))).linkDir dir = (s.wireTaken dir r).linkDir dir := State.linkDir_bump ..
    obtain ⟨acked, out⟩ := (s.wireTaken dir r).linkDir_nakOut dir same
    rw [State.linkDir_wireTaken] at out
    refine ⟨_, execFabBlockReceive_fails wire fails, by rw [out], by rw [out], by rw [out], ?_⟩
    rw [apply_ite (fun t : State => t.fld (RF.MGT_FAB_CRCERR_COUNT (dir / 2))), State.fld_sendAck, ite_self]
    exact State.fld_bump_same _ _ (Nat.zero_le _) (by simp only [RF.MGT_FAB_CRCERR_COUNT]; decide)
  case timeout =>
    intro unacked sends due
    have e := execFabAckTimeout_due unacked sends due
    have own := s.linkDir_setLinkDir_same dir { s.linkDir dir with expired := (s.linkDir dir).expired + 1 }
    have unacked' := fun h => unacked (congrArg LinkDir.replay own ▸ h)
    have sends' := (congrArg LinkDir.stopped own).trans sends
    refine ⟨fun below => ?_, fun limit => ?_⟩
    · have again := State.replay_again unacked' sends' (by rw [own, State.fld_setLinkDir]; exact below)
      rw [own] at again
      refine ⟨_, e, ?_, ?_, ?_, ?_⟩
      · rw [again, State.linkDir_bump, State.linkDir_setLinkDir_same]
      · rw [again, State.linkDir_bump, State.linkDir_setLinkDir_same]
      · rw [again, State.linkDir_bump, State.linkDir_setLinkDir_same]
      · rw [again]
        exact State.fld_bump_same _ _ (Nat.zero_le _) (by simp only [RF.MGT_FAB_REPLAY_COUNT]; decide)
    · rw [e, State.replay_retrains unacked' sends' (by rw [own, State.fld_setLinkDir]; exact limit)]
  case still => exact execFabAckTimeout_still
  case retrained =>
    intro stopped up u
    rw [execFabRetrainDone_eq stopped up, show s.lanesRemoved link bad = u from rfl]
    refine ⟨fun enoughA enoughB => ⟨_, if_pos (by rw [decide_eq_true enoughA, decide_eq_true enoughB]; rfl), ?_, fun k hk => ?_⟩, fun short => if_neg ?_⟩
    · exact State.flag_setFlag_same _ _ _ rfl (by simp only [RF.MGT_FAB_STAT_RETRAIN]; decide)
    · rw [State.linkDir_setFlag]
      have apart : 2 * link + 1 ≠ 2 * link := Nat.succ_ne_self _
      rcases List.mem_pair.mp hk with rfl | rfl
      · rw [State.goAgain_others _ apart.symm]
        exact u.goAgain_sends (2 * link)
      · have sends := (u.goAgain (2 * link)).goAgain_sends (2 * link + 1)
        rw [State.goAgain_others u apart] at sends
        exact sends
    · rw [Bool.and_eq_true, decide_eq_true_iff, decide_eq_true_iff]
      omega
  case late => exact fun stopped up late => execFabRetrainTimeout_due stopped up late

end Sys2Proof.Claims
end

section
/-! SUPPORT. The memory system's own work: reductions, migration, windows, patrol and map-out (R515 to R548). -/

open Sys2Proof
namespace Sys2Proof.Machine

theorem exec_reductionRetire (n : Nat) (s : State) : exec (.reductionRetire n) s = execReductionRetire n s := rfl
theorem exec_migrationBlockCopy (n : Nat) (s : State) : exec (.migrationBlockCopy n) s = execMigrationBlockCopy n s := rfl
theorem exec_regulatorWindow (stack : Nat) (s : State) : exec (.regulatorWindow stack) s = execRegulatorWindow stack s := rfl
theorem exec_saturationWindow (s : State) : exec .saturationWindow s = execSaturationWindow s := rfl
theorem exec_hbmLineRead (stack granule line err : Nat) (s : State) : exec (.hbmLineRead stack granule line err) s = execHbmLineRead stack granule line err s := rfl
theorem exec_patrolScrub (stack granule line err : Nat) (s : State) : exec (.patrolScrub stack granule line err) s = execPatrolScrub stack granule line err s := rfl
theorem exec_memMapoutGo (stack channel : Nat) (s : State) : exec (.memMapoutGo stack channel) s = execMemMapoutGo stack channel s := rfl

/-! ### Migration -/

open Sys2Proof.Claims in
/-- A queued migration that may copy: a block of the copy that runs, or the beginning of one (R525, R527, R530). -/
theorem execMigrationBlockCopy_next {n : Nat} {s : State} {m : Migr} {g : Granule} (queued : s.mem.migr[n]? = some m)
    (gran : s.gran (granKey m.unit m.ctx m.gran) = some g) (held : s.flag RF.MEM_CTL_MIG_HOLD = false) (next : copiesNext s n m = true) :
    execMigrationBlockCopy n s =
      match g.copyTo with
      | some l =>
        let u := (s.moveBlock g.part g.loc l g.block).bumpN (RF.MEM_P_MIGLINES_COUNT g.part) 32
        if g.block + 1 = 16 then .next (u.migrDone n (granKey m.unit m.ctx m.gran) g l m.promote)
        else .next (u.setGran (granKey m.unit m.ctx m.gran) (some { g with block := g.block + 1 }))
      | none =>
        match s.migrTarget m g with
        | (none, _) => .next { s with mem := { s.mem with migr := s.mem.migr.eraseIdx n } }
        | (some l, short) =>
          if s.copyBarred g.loc.die || s.copyBarred l.die then .next s
          else
            let u := ((s.initGran l).bumpN RF.MEM_ADV_PARTIAL_COUNT (if short then 1 else 0)).moveBlock g.part g.loc l 0
            .next (((u.bumpN (RF.MEM_P_MIGLINES_COUNT g.part) 32).setGran (granKey m.unit m.ctx m.gran) (some { g with copyTo := some l, block := 1 })).syncFree) := by
  unfold execMigrationBlockCopy
  simp only [copiesNext, goesAhead, gran] at next
  simp only [queued, gran]
  refine (if_neg ?_).trans rfl
  rw [held, Bool.or_false, Bool.not_eq_true', Bool.not_eq_false]
  exact next

open Sys2Proof.Claims in
theorem execMigrationBlockCopy_waits {n : Nat} {s : State} {m : Migr} {g : Granule} (queued : s.mem.migr[n]? = some m)
    (gran : s.gran (granKey m.unit m.ctx m.gran) = some g) (waits : s.flag RF.MEM_CTL_MIG_HOLD = true ∨ copiesNext s n m = false) :
    execMigrationBlockCopy n s = .next s := by
  unfold execMigrationBlockCopy
  simp only [queued, gran]
  refine if_pos ?_
  rcases waits with held | later
  · rw [held, Bool.or_true]
  · simp only [copiesNext, goesAhead, gran] at later
    rw [Bool.or_eq_true, Bool.not_eq_true']
    exact .inl later

/-! ### Windows -/

section
variable (s : State) (stack d : Nat)

theorem State.regCount_now (r : Reg) : (s.regCount stack r).now = s.now := by
  simp only [State.regCount, State.setFlag_now, apply_ite State.now, State.bump_now, ite_self]

theorem State.satDie_now : (s.satDie d).now = s.now := by
  simp only [State.satDie, apply_ite State.now, State.bump_now, State.setFld_now, ite_self]

/-- What keeps the clock keeps it however often it is done. -/
theorem foldl_now {α : Type} {f : State → α → State} (keeps : ∀ s x, (f s x).now = s.now) (l : List α) : (l.foldl f s).now = s.now := by
  induction l generalizing s with
  | nil => rfl
  | cons x r ih => exact (ih (f s x)).trans (keeps s x)

end

theorem execSaturationWindow_due {s : State} (due : s.mem.satAt + 16384 ≤ s.now) : ∃ u : State, u.now = s.now ∧
    execSaturationWindow s = .next { u with mem := { u.mem with satAt := u.now, hbmBusy := [], vaultBusy := [] } } := by
  refine ⟨(List.range 8).foldl State.satDie s, foldl_now s State.satDie_now (List.range 8), ?_⟩
  rw [execSaturationWindow, if_pos due]

/-! ### Patrol and map-out -/

/-- The patrol checks the line it stands at, and goes on to the next or to the first (R546). -/
theorem execPatrolScrub_next {s : State} {stack granule line err : Nat} (on : s.flag RF.MEM_CTL_SCRUB_EN = true) (cool : s.flag (RF.PWR_S_TEMP_HOT stack) = false)
    (there : s.lineExists stack granule line = true) (here : kvGet (fun _ => 0) s.mem.scrubbed stack = granule * 512 + line) :
    execPatrolScrub stack granule line err s = .next
      (if (s.lineCheck stack granule line err 0).stackCapacity stack * 512 ≤ granule * 512 + line + 1 then
        State.bump { s.lineCheck stack granule line err 0 with mem := { (s.lineCheck stack granule line err 0).mem with
          scrubbed := kvSet (fun _ => 0) (s.lineCheck stack granule line err 0).mem.scrubbed stack 0 } } (RF.MEM_S_SCRUB_COUNT stack)
      else { s.lineCheck stack granule line err 0 with mem := { (s.lineCheck stack granule line err 0).mem with
          scrubbed := kvSet (fun _ => 0) (s.lineCheck stack granule line err 0).mem.scrubbed stack (granule * 512 + line + 1) } }) := by
  simp only [execPatrolScrub, on, cool, there, here, BEq.rfl, Bool.not_false, Bool.and_self, if_true, decide_eq_true_eq]
  by_cases last : (s.lineCheck stack granule line err 0).stackCapacity stack * 512 ≤ granule * 512 + line + 1
  · simp only [if_pos last]
  · simp only [if_neg last]

/-- The granules of a channel moved off it, each counted with the lines it left poisoned (R548). -/
theorem execChannelMapoutDone_queued {s : State} {stack channel : Nat} (queued : s.mem.mapouts.contains (stack, channel) = true) :
    execChannelMapoutDone stack channel s =
      let a := (s.onChannel stack channel).foldl (fun (a : State × Nat × Nat) p => ((a.1.moveOff stack p).1, a.2.1 + (a.1.moveOff stack p).2.1, a.2.2 + (a.1.moveOff stack p).2.2))
        (s.setFld (RF.MEM_S_INSERVICE_MASK stack) (natSetBits (s.fld (RF.MEM_S_INSERVICE_MASK stack)) channel 1 0), 0, 0)
      let u := State.noteRepair { a.1 with mem := { a.1.mem with mapouts := a.1.mem.mapouts.filter (fun x => !(x == (stack, channel))) } } stack channel
      .next ((u.emit (memRec 0x0A04 false channel stack 0 (detailOf [(52, 4, a.2.1), (56, 4, a.2.2)]))).syncFree) := by
  unfold execChannelMapoutDone
  rw [if_pos queued]

end Sys2Proof.Machine
end

section
/-! The family of the memory system. -/

open Sys2Proof Sys2Proof.Machine
namespace Sys2Proof.Claims

/-- Settles O37: each piece of work under its own condition. -/
theorem memoryMaintenance : Obligations.MemoryMaintenance := by
  intro s n stack channel granule line err m g l
  rw [exec_migrationBlockCopy, exec_regulatorWindow, exec_saturationWindow, exec_hbmLineRead, exec_patrolScrub, exec_memMapoutGo, exec_channelMapoutDone,
    exec_reductionRetire]
  refine ⟨?reduction, ?copies, ?gone, ?waits, ?regulator, ?saturation, ?read, ?patrol, ?go, ?mapout⟩
  case reduction =>
    intro r k queued first t granule u data read
    simp only [t] at granule read
    simp only [execReductionRetire, queued, first, Bool.false_eq_true, if_false, granule, State.reduceAt, read]
  case copies =>
    intro queued gran held next
    rw [execMigrationBlockCopy_next queued gran held next]
    refine ⟨fun copying => ⟨fun more => ?more, fun last => ?last⟩, fun b fresh none => ?none, fun b fresh target barred => ?barred, fun b fresh target free => ?begins⟩
    case more => simp only [copying, if_neg more]
    case last => simp only [copying, if_pos last]
    case none => simp only [fresh, none]
    case barred => simp only [fresh, target, barred, if_true]
    case begins => simp only [fresh, target, free, Bool.false_eq_true, if_false]
  case gone =>
    intro queued gone
    simp only [execMigrationBlockCopy, queued, gone]
  case waits => exact execMigrationBlockCopy_waits
  case regulator =>
    intro small due
    refine ⟨_, if_pos ⟨small, due⟩, ?_, (natBit_setBits ..).trans (if_pos rfl)⟩
    rw [kvGet_set_same, foldl_now _ (fun t r => t.regCount_now stack r)]
  case saturation =>
    intro due
    obtain ⟨u, now, run⟩ := execSaturationWindow_due due
    exact ⟨_, run, now, rfl, rfl⟩
  case read =>
    intro there
    rw [execHbmLineRead, if_pos there]
  case patrol =>
    intro on cool there here
    refine ⟨_, execPatrolScrub_next on cool there here, fun k => ?_, ?_⟩
    · by_cases own : k = RA.MEM_S_SCRUB stack
      · exact .inr own
      · refine .inl ?_
        split
        · exact State.reg_bump_other _ _ own
        · rfl
    · split
      · simp only [State.bump_mem, kvGet_set_same]
      · simp only [kvGet_set_same]
  case go =>
    intro stack32 channel32 alive running
    simp only [execMemMapoutGo, State.serving, alive, running, stack32, channel32, decide_true, Bool.and_self, if_true]
  case mapout =>
    intro queued
    exact execChannelMapoutDone_queued queued

end Sys2Proof.Claims
end

section
/-! SUPPORT. Advice and maps (R504 to R522, R617 to R622). -/

open Sys2Proof
namespace Sys2Proof.Machine

theorem exec_adviceLeaf (cmd : Nat) (s : State) : exec (.adviceLeaf cmd) s = execAdviceLeaf cmd s := rfl
theorem exec_adviceClass (cmd : Nat) (s : State) : exec (.adviceClass cmd) s = execAdviceClass cmd s := rfl
theorem exec_unmap (cmd : Nat) (s : State) : exec (.unmap cmd) s = execUnmap cmd s := rfl
theorem exec_prefetch (cmd : Nat) (s : State) : exec (.prefetch cmd) s = execPrefetch cmd s := rfl
theorem exec_mapComplete (cmd : Nat) (s : State) : exec (.mapComplete cmd) s = execMapComplete cmd s := rfl

/-- Nine of the advice codes are applied the same way; LEAF's argument names a leaf. -/
theorem exec_advice {s : State} {cmd : Nat} {c : HostCmd} (fetched : s.cmdOf cmd 0x09 = some c) (q : (Nat → Instr) × Nat)
    (mem : q ∈ [(Instr.adviceClear, 0), (Instr.adviceHot, 1), (Instr.adviceCold, 2), (Instr.adviceStream, 3), (Instr.advicePin, 4), (Instr.adviceUnpin, 5),
      (Instr.adviceLeaf, 6), (Instr.adviceDead, 7), (Instr.adviceDrop, 8)]) (leaf : q.2 = 6 → c.at 25 1 % 4 < 2) :
    exec (q.1 cmd) s = .next (s.advise cmd q.2) := by
  simp only [List.mem_cons, List.not_mem_nil, or_false] at mem
  rcases mem with rfl | rfl | rfl | rfl | rfl | rfl | rfl | rfl | rfl
  case inr.inr.inr.inr.inr.inr.inl =>
    have named : ¬ (c.at 24 1 % 16 = 6 ∧ 2 ≤ c.at 25 1 % 4) := fun h => Nat.not_le.mpr (leaf rfl) h.2
    simp only [exec_adviceLeaf, execAdviceLeaf, fetched, if_neg named]
  all_goals rfl

section
variable {s : State} {cmd code : Nat} {c : HostCmd} {r : RangeEnt} (fetched : s.cmdOf cmd 0x09 = some c) (mine : c.at 24 1 % 16 = code)
include fetched mine

theorem State.advise_noRange (none : s.namedRange c = none) : s.advise cmd code = s.noSuchRange cmd c := by
  simp only [State.advise, fetched, if_pos mine, none]

theorem State.advise_reserved (named : s.namedRange c = some r) (reserved : r.reserved = true) : s.advise cmd code = s.begin cmd := by
  simp only [State.advise, fetched, if_pos mine, named, if_pos reserved]

theorem State.advise_away (named : s.namedRange c = some r) (mapped : r.reserved = false) (away : r.kind = 1 ∨ r.kind = 2) :
    s.advise cmd code = (s.begin cmd).complete cmd 0 0 := by
  simp only [State.advise, fetched, if_pos mine, named, mapped, Bool.false_eq_true, if_false, if_pos away]

section
variable (named : s.namedRange c = some r) (mapped : r.reserved = false) (device : ¬ (r.kind = 1 ∨ r.kind = 2))
include named mapped device

/-- DEAD and DROP are barred on a sealed partition (R813). -/
theorem State.advise_barred (barred : (code = 7 ∨ code = 8) ∧ s.sealedPart r.part = true) :
    s.advise cmd code = s.failCmd cmd 0x1118 0 (sealedDetail c r) := by
  simp only [State.advise, fetched, if_pos mine, named, mapped, Bool.false_eq_true, if_false, if_neg device, if_pos barred]

variable {t : State} (passes : ¬ ((code = 7 ∨ code = 8) ∧ s.sealedPart r.part = true))
include passes

theorem State.advise_applied (done : s.applyAdvice r code (c.at 25 1 % 4) = (t, .done)) : s.advise cmd code = (t.begin cmd).complete cmd 0 0 := by
  simp only [State.advise, fetched, if_pos mine, named, mapped, Bool.false_eq_true, if_false, if_neg device, if_neg passes, done]

theorem State.advise_fails {k : Nat} {d : List Byte} (fails : s.applyAdvice r code (c.at 25 1 % 4) = (t, .fail k d)) :
    s.advise cmd code = s.failCmd cmd k 0 d := by
  simp only [State.advise, fetched, if_pos mine, named, mapped, Bool.false_eq_true, if_false, if_neg device, if_neg passes, fails]

end

end

theorem State.requestFor_aligned {s : State} {cmd : Nat} {c : HostCmd} {ch : Change} (inflight : c.inflight = true) (aligned : c.at 16 8 % 65536 = 0) :
    s.requestFor cmd c ch = (s.begin cmd).requestInval { unit := c.leaf, ctx := c.ctx, start := c.at 16 8 % 2 ^ 57 / 65536, change := ch, cmd := some cmd } := by
  have start : c.at 16 8 % 2 ^ 57 % 65536 = 0 := (Nat.mod_mod_of_dvd _ (by decide)).trans aligned
  rw [State.requestFor, if_pos start, if_pos inflight]

/-- A range of a sealed partition does not move (R813). -/
theorem execPrefetch_sealed {s : State} {cmd : Nat} {c : HostCmd} {r : RangeEnt} (fetched : s.cmdOf cmd 0x0A = some c) (named : s.namedRange c = some r)
    (staged : r.kind = 3) (isSealed : s.sealedPart r.part = true) (inflight : c.inflight = true) :
    execPrefetch cmd s = .next (s.failCmd cmd 0x1118 0 (sealedDetail c r)) := by
  simp only [execPrefetch, fetched, named, Option.filter_some, staged, isSealed, inflight, BEq.rfl, Bool.and_self, if_true]

theorem execPrefetch_requests {s : State} {cmd : Nat} {c : HostCmd} (fetched : s.cmdOf cmd 0x0A = some c)
    (moves : ∀ r, s.namedRange c = some r → r.kind = 3 → s.sealedPart r.part = true → c.inflight = false) :
    execPrefetch cmd s = .next (s.requestFor cmd c (.move (c.at 24 1 % 2) (natBit (c.at 24 1) 1))) := by
  have none : (s.namedRange c).filter (fun r => r.kind == 3 && s.sealedPart r.part && c.inflight) = none := by
    rw [Option.filter_eq_none_iff]
    intro r named sealed'
    simp only [Bool.and_eq_true, beq_iff_eq] at sealed'
    obtain ⟨⟨staged, isSealed⟩, inflight⟩ := sealed'
    exact Bool.false_ne_true ((moves r named staged isSealed).symm.trans inflight)
  simp only [execPrefetch, fetched, none]

end Sys2Proof.Machine
end

section
/-! The family of the memory system: advice and maps. -/

open Sys2Proof Sys2Proof.Machine
namespace Sys2Proof.Claims

/-- Settles O38: advice by the range it names, the changes by their requests, a map by its end. -/
theorem adviceAndMaps : Obligations.AdviceAndMaps := by
  intro s t cmd c r m
  rw [exec_adviceClass, exec_unmap, exec_prefetch, exec_mapComplete]
  refine ⟨fun q mem fetched mine leaf => ?advice, ?cls, ?unmap, execPrefetch_requests, execPrefetch_sealed, ?completes⟩
  case advice =>
    rw [exec_advice fetched q mem leaf]
    have device (host : r.kind ≠ 1) (window : r.kind ≠ 2) : ¬ (r.kind = 1 ∨ r.kind = 2) := fun h => h.elim host window
    refine ⟨fun none => ?none, fun named reserved => ?reserved, fun named mapped away => ?away, fun named mapped host window open' => ?applied,
      fun named mapped host window isSealed bars => ?barred⟩
    case none => rw [State.advise_noRange fetched mine none]
    case reserved => rw [State.advise_reserved fetched mine named reserved]
    case away => rw [State.advise_away fetched mine named mapped away]
    case applied =>
      have passes : ¬ ((q.2 = 7 ∨ q.2 = 8) ∧ s.sealedPart r.part = true) := by
        rintro ⟨bars, isSealed⟩
        rcases open' with unsealed | ⟨notDead, notDrop⟩
        · exact Bool.false_ne_true (unsealed.symm.trans isSealed)
        · exact bars.elim notDead notDrop
      exact ⟨fun done => congrArg Host.Outcome.next (State.advise_applied fetched mine named mapped (device host window) passes done),
        fun code d fails => congrArg Host.Outcome.next (State.advise_fails fetched mine named mapped (device host window) passes fails)⟩
    case barred => rw [State.advise_barred fetched mine named mapped (device host window) ⟨bars, isSealed⟩]
  case cls =>
    intro fetched mine
    simp only [execAdviceClass, fetched, if_pos mine]
  case unmap =>
    intro fetched inflight aligned
    simp only [execUnmap, fetched, State.requestFor_aligned inflight aligned]
  case completes =>
    intro reserved u range
    simp only [u] at range
    simp only [execMapComplete, reserved, range, u]

end Sys2Proof.Claims
end

section
/-! SUPPORT. Coherence (R558 to R591): lines of an L2, requests at a directory, messages at an L2. -/

open Sys2Proof
namespace Sys2Proof.Machine

theorem exec_snoopReply (core line : Nat) (s : State) : exec (.snoopReply core line) s = execSnoopReply core line s := rfl
theorem exec_grant (core line : Nat) (s : State) : exec (.grant core line) s = execGrant core line s := rfl
theorem exec_writebackAck (core line : Nat) (s : State) : exec (.writebackAck core line) s = execWritebackAck core line s := rfl
theorem exec_holdEnd (core line : Nat) (s : State) : exec (.holdEnd core line) s = execHoldEnd core line s := rfl
theorem exec_snoopTimeout (core : Nat) (s : State) : exec (.snoopTimeout core) s = execSnoopTimeout core s := rfl
theorem exec_cohKillCore (v : Word) (s : State) : exec (.cohKillCore v) s = execCohKillCore v s := rfl
theorem exec_cohKillDie (v : Word) (s : State) : exec (.cohKillDie v) s = execCohKillDie v s := rfl
theorem exec_reclaimWalkDone (s : State) : exec .reclaimWalkDone s = execReclaimWalkDone s := rfl

/-! ### Lines of an L2 -/

section
variable (s : State) (core line : Nat)

@[simp] theorem State.l2At_setL2_same (x : Option L2Line) : (s.setL2 core line x).l2At core line = x := kvGet_set_same ..
@[simp] theorem State.l2At_bump (f : RegField) : (s.bump f).l2At core line = s.l2At core line := by rw [State.l2At, State.bump_coh, State.l2At]
@[simp] theorem State.l2At_sendReply (p : CohReply) : (s.sendReply p).l2At core line = s.l2At core line := by
  simp only [State.l2At, State.sendReply]
@[simp] theorem State.l2At_dropMsg (m : CohMsg) : (s.dropMsg m).l2At core line = s.l2At core line := by simp only [State.l2At, State.dropMsg]
@[simp] theorem State.fld_dropMsg (m : CohMsg) (f : RegField) : (s.dropMsg m).fld f = s.fld f := by simp only [State.fld, State.reg, State.dropMsg]
@[simp] theorem State.fld_setL2 (x : Option L2Line) (f : RegField) : (s.setL2 core line x).fld f = s.fld f := by
  simp only [State.fld, State.reg, State.setL2]

theorem State.alive_bump (f : RegField) : (s.bump f).alive = s.alive := by rw [State.alive, State.bump_boot, State.alive]
theorem State.nextReq_bump (f : RegField) (op : Nat) : (s.bump f).nextReq core line op = s.nextReq core line op := by
  rw [State.nextReq, State.bump_coh, State.nextReq]
theorem State.vdead_bump (f : RegField) : (s.bump f).vdead core = s.vdead core := by rw [State.vdead, State.bump_vc, State.vdead]

@[simp] theorem State.dirLeaf_setL2 (x : Option L2Line) (k : Nat) : (s.setL2 core line x).dirLeaf k = s.dirLeaf k := by
  simp only [State.dirLeaf, State.gran, State.setL2]

theorem State.l2At_dropL2 : (s.dropL2 core line).l2At core line = none := by rw [State.dropL2, State.l2At_setL2_same]

theorem L2Line.held_iff (x : L2Line) (now : Nat) : x.held now = true ↔ ∃ h, x.holdUntil = some h ∧ now < h := by
  cases e : x.holdUntil with
  | none => simp only [L2Line.held, e, Bool.false_eq_true, reduceCtorEq, false_and, exists_false]
  | some t => simp only [L2Line.held, e, decide_eq_true_eq, Option.some.injEq, exists_eq_left']

/-! ### Answers (Table 11.1) -/

/-- A line after a snoop for reading: a dirty one is owned, a clean one shared. -/
def Moesi.afterRead : Moesi → Moesi
  | .m => .o
  | .o => .o
  | .e => .s
  | .s => .s

variable {s core line}

theorem State.l2At_answerL2_read {x : L2Line} {since : Nat} (holds : (s.syncL1 core line).l2At core line = some x) (stays : x.evicting = false) :
    (s.answerL2 core line 0 since).l2At core line = some { x with st := x.st.afterRead } := by
  simp only [State.answerL2, holds, stays, Bool.false_or]
  cases st : x.st with
  | m => exact (State.l2At_sendReply ..).trans (State.l2At_setL2_same ..)
  | o => exact (State.l2At_sendReply ..).trans (State.l2At_setL2_same ..)
  | e => exact (State.l2At_sendReply ..).trans (State.l2At_setL2_same ..)
  | s => exact (State.l2At_sendReply ..).trans (State.l2At_setL2_same ..)

theorem State.l2At_answerL2_inv (since : Nat) : (s.answerL2 core line 3 since).l2At core line = none := by
  cases holds : (s.syncL1 core line).l2At core line with
  | none => simp only [State.answerL2, holds, State.l2At_sendReply]
  | some x => simp only [State.answerL2, holds, BEq.rfl, Bool.or_true, if_true, State.l2At_sendReply, State.l2At_dropL2]

/-! ### Messages that reach an L2 -/

section
variable {m : CohMsg} {kind : Nat} (next : s.nextMsg core line = some m) (mine : m.kind = kind)
include next mine

theorem State.snoopL2_answers (free : ∀ x, s.l2At core line = some x → x.waiting = [] ∧ ∀ h, x.holdUntil = some h → h ≤ s.now) :
    s.snoopL2 core line kind = (s.dropMsg m).answerL2 core line kind m.since := by
  cases holds : s.l2At core line with
  | none => simp only [State.snoopL2, next, if_pos mine, State.l2At_dropMsg, holds]
  | some x =>
    obtain ⟨none, ended⟩ := free x holds
    have notHeld : x.held (s.dropMsg m).now = false := by
      rw [← Bool.not_eq_true, L2Line.held_iff]
      rintro ⟨h, until', before⟩
      exact absurd (ended h until') (Nat.not_le.mpr before)
    simp only [State.snoopL2, next, if_pos mine, State.l2At_dropMsg, holds, notHeld, none, List.isEmpty_nil, Bool.not_true, Bool.or_self,
      Bool.false_eq_true, if_false]

theorem State.snoopL2_waits {x : L2Line} (holds : s.l2At core line = some x) (held : (∃ h, x.holdUntil = some h ∧ s.now < h) ∨ x.waiting ≠ []) :
    s.snoopL2 core line kind = ((s.dropMsg m).setL2 core line (some { x with waiting := x.waiting ++ [(kind, m.since)] })).bump
      (RF.COH_L_HOLDWAIT_COUNT (s.dirLeaf line)) := by
  have waits : (x.held (s.dropMsg m).now || !x.waiting.isEmpty) = true := by
    rw [Bool.or_eq_true]
    rcases held with held | more
    · exact .inl ((x.held_iff _).mpr held)
    · exact .inr (by simpa using more)
  simp only [State.snoopL2, next, if_pos mine, State.l2At_dropMsg, holds, waits, if_true]
  simp only [State.dropMsg, State.dirLeaf, State.gran]

end

/-! ### Requests that reach a directory -/

section
variable {op : Nat} {r : CohReq} (alive : s.alive = true) (next : s.nextReq core line op = some r) (lives : s.vdead r.core = false)
include next

theorem State.readDir_fatal (alive : s.alive = true) : s.readDir core line op 2 = s.emit
    { code := 0x0B03, fatal := true, detail := detailOf [(52, 1, s.dirLeaf line), (56, 4, Config.dirSet line % 65536)] } := by
  simp only [State.readDir, next, alive, Bool.not_true, Bool.false_eq_true, if_false, if_true]

theorem State.readDir_reaches {err : Nat} (alive : s.alive = true) (ok : err ≠ 2) :
    s.readDir core line op err = (if err = 1 then s.bump (RF.COH_L_DIR_CE_COUNT (s.dirLeaf line)) else s).reachDir core line op := by
  simp only [State.readDir, next, alive, Bool.not_true, Bool.false_eq_true, if_false, if_neg ok]

include alive lives in
theorem State.reachDir_eq : s.reachDir core line op =
    let t : State := { s with coh := { s.coh with misses := s.coh.misses.erase r } }
    if s.busyLine r.line || s.coh.queue.any (fun q => q.line == r.line) then t.enqueue r else t.serve r := by
  have lives' : State.vdead { s with coh := { s.coh with misses := s.coh.misses.erase r } } r.core = false := lives
  rw [State.reachDir, next]
  simp only [alive, if_true]
  rw [State.arriveDir, lives', if_neg Bool.false_ne_true]
  rfl

end

/-! ### Grants -/

/-- Until when a line that a grant won in cycle `now` is held: E and M are, for 64 cycles (R571). -/
def Moesi.heldUntil (st : Moesi) (now : Nat) : Option Nat :=
  match st with
  | .s => none
  | _ => some (now + 64)

/-- A grant with data installs its line where there is room or the line is there (R568). -/
theorem State.installL2_data {m : CohMsg} {d : List Byte} (data : m.data = some d)
    (room : (s.l2At m.core m.line).isSome = true ∨ (s.roomL2 m.core m.line).2 = true) :
    ∃ n, (s.installL2 m).l2At m.core m.line =
      some { st := m.st, data := d, poison := m.poison, holdUntil := m.st.heldUntil s.now, pf := m.pf, used := n } := by
  cases here : (s.l2At m.core m.line).isSome with
  | true =>
    simp only [State.installL2, data, here, if_true]
    exact ⟨_, State.l2At_setL2_same ..⟩
  | false =>
    have enough : (s.roomL2 m.core m.line).2 = true := room.resolve_left (by rw [here]; exact Bool.false_ne_true)
    simp only [State.installL2, data, here, Bool.false_eq_true, if_false, enough, if_true]
    exact ⟨_, State.l2At_setL2_same ..⟩

/-- A grant without data changes the line's role (R570). -/
theorem State.installL2_role {m : CohMsg} {x : L2Line} (none : m.data = none) (here : s.l2At m.core m.line = some x) :
    (s.installL2 m).l2At m.core m.line = some { x with st := m.st, holdUntil := m.st.heldUntil s.now, recalled := false } := by
  simp only [State.installL2, none, here]
  exact State.l2At_setL2_same ..

end

end Sys2Proof.Machine
end

section
/-! The family of coherence. -/

open Sys2Proof Sys2Proof.Machine
namespace Sys2Proof.Claims

/-- Settles O39: requests by `reachDir`, messages by `snoopL2` and `installL2`, the rest by the conditions of their commands. -/
theorem coherenceProtocol : Obligations.CoherenceProtocol := by
  intro s core line err k r m x p v alive
  rw [exec_snoopReply, exec_grant, exec_writebackAck, exec_holdEnd, exec_snoopTimeout, exec_cohKillCore, exec_cohKillDie, exec_reclaimWalkDone]
  have reaches {q : Instr × Nat} : q ∈ [(Instr.rds core line err, 0), (Instr.rdx core line err, 1)] → exec q.1 s = .next (s.readDir core line q.2 err) := by
    rw [List.mem_pair]
    rintro (rfl | rfl)
    · rfl
    · rfl
  have snoops {q : (Nat → Nat → Instr) × Nat} : q ∈ [(Instr.snps, 0), (Instr.snpw, 1), (Instr.snpi, 2), (Instr.inv, 3)] →
      exec (q.1 core line) s = .next (s.snoopL2 core line q.2) := by
    intro mem
    have run : exec (q.1 core line) s = .next (if s.alive then s.snoopL2 core line q.2 else s) := by
      simp only [List.mem_cons, List.not_mem_nil, or_false] at mem
      rcases mem with rfl | rfl | rfl | rfl
      · rfl
      · rfl
      · rfl
      · rfl
    rw [run, if_pos alive]
  refine ⟨fun q mem next lives => ⟨fun ok => ?read, fun fatal => ?fatal⟩, fun q mem next lives => ?request, fun q mem next mine => ⟨fun free => ?answers, fun here held => ?waits⟩,
    ?readSnoop, State.l2At_answerL2_inv k, ?reply, ?grant, ?ack, ?holdEnds, ?silent, ?killCore, ?killDie, ?reclaim⟩
  case read =>
    rw [reaches mem, State.readDir_reaches next alive ok]
    by_cases corrected : err = 1
    · simp only [if_pos corrected]
      rw [State.reachDir_eq ((s.alive_bump _).trans alive) ((s.nextReq_bump core line _ q.2).trans next) ((s.vdead_bump r.core _).trans lives)]
      simp only [State.busyLine, State.bump_coh]
    · simp only [if_neg corrected]
      rw [State.reachDir_eq alive next lives]
  case fatal =>
    rw [reaches mem, fatal, State.readDir_fatal next alive]
  case request =>
    have reach : exec (q.1 core line) s = .next (s.reachDir core line q.2) := by
      simp only [List.mem_cons, List.not_mem_nil, or_false] at mem
      rcases mem with rfl | rfl | rfl
      · rfl
      · rfl
      · rfl
    rw [reach, State.reachDir_eq alive next lives]
  case answers => rw [snoops mem, State.snoopL2_answers next mine free]
  case waits =>
    rw [snoops mem, State.snoopL2_waits next mine here held]
    refine ⟨_, rfl, by rw [State.l2At_bump, State.l2At_setL2_same], ?_⟩
    refine (State.fld_bump_same _ _ (Nat.zero_le _) (by simp only [RF.COH_L_HOLDWAIT_COUNT]; decide)).trans ?_
    rw [State.fld_setL2, State.fld_dropMsg]
    rfl
  case readSnoop =>
    intro here stays
    refine (State.l2At_answerL2_read here stays).trans ?_
    rfl
  case reply =>
    intro first lives
    have lives' : State.vdead { s with coh := { s.coh with replies := s.coh.replies.erase p } } core = false := lives
    simp only [execSnoopReply, first, alive, if_true, lives', Bool.false_eq_true, if_false]
  case grant =>
    intro next grants hcore hline h
    subst hcore hline
    have run : execGrant m.core m.line s = .next (s.installL2 m) := by simp only [execGrant, next, grants, alive, and_self, if_true]
    refine ⟨fun d data room => ?_, fun none here => ?_⟩
    · obtain ⟨n, e⟩ := State.installL2_data data (room.imp_left (fun here => Option.isSome_iff_exists.mpr ⟨x, here⟩))
      exact ⟨_, n, run, e⟩
    · exact ⟨_, run, State.installL2_role none here⟩
  case ack =>
    intro next acks here leaves
    simp only [execWritebackAck, next, acks, alive, and_self, if_true, State.l2At_dropMsg, here, leaves]
  case holdEnds =>
    intro here until' ended
    simp only [execHoldEnd, here, until', ended, alive, and_self, if_true, State.endHold]
  case silent =>
    intro late
    simp only [execSnoopTimeout, alive, late, Bool.and_self, if_true]
  case killCore =>
    intro running oneCore go
    simp only [execCohKillCore, State.serving, alive, running, oneCore, Bool.not_false, Bool.and_self, if_true, State.cohKill, go, Bool.not_true,
      Bool.false_eq_true, if_false]
  case killDie =>
    intro running die go
    simp only [execCohKillDie, State.serving, alive, running, die, Bool.and_self, if_true, State.cohKill, go, Bool.not_true, Bool.false_eq_true, if_false]
  case reclaim =>
    intro q rest queue ended
    simp only [execReclaimWalkDone, queue, alive, ended, decide_true, Bool.and_self, if_true]

end Sys2Proof.Claims
end

section
/-! SUPPORT. Translation (R605 to R637): walks, held records, acknowledgements, the range-store window, host completion timeouts. -/

open Sys2Proof
namespace Sys2Proof.Machine

theorem exec_rangeWalkDone (leaf walker : Nat) (s : State) : exec (.rangeWalkDone leaf walker) s = execRangeWalkDone leaf walker s := rfl
theorem exec_faultRecordFlush (n : Nat) (s : State) : exec (.faultRecordFlush n) s = execFaultRecordFlush n s := rfl
theorem exec_invalAck (kind id : Nat) (s : State) : exec (.invalAck kind id) s = execInvalAck kind id s := rfl
theorem exec_xltRdIdxWrite (index : Nat) (s : State) : exec (.xltRdIdxWrite index) s = execXltRdIdxWrite index s := rfl
theorem exec_hostCompletionTimeout (isCopy : Bool) (id : Nat) (s : State) :
    exec (.hostCompletionTimeout isCopy id) s = execHostCompletionTimeout isCopy id s := rfl

/-- A walk whose range does not change, or that found none, answers its miss and those that lie in the same range or gap (R609, R610). -/
theorem execRangeWalkDone_answers {s : State} {leaf walker : Nat} {m : Miss}
    (walks : s.xlt.misses.find? (fun m => m.leaf == leaf && m.walker == some walker) = some m)
    (stays : ∀ e, s.rangeAt m.unit m.ctx m.va = some e → e.state ≠ 1 ∧ e.state ≠ 2) :
    execRangeWalkDone leaf walker s =
      let joined := ((s.xlt.misses.filter (fun x => x.leaf == leaf)).take 256).filter (fun (x : Miss) => x.leaf == leaf && x.walker.isNone && x.unit == m.unit
        && x.ctx == m.ctx && s.spanAt x.unit x.ctx x.va == s.spanAt m.unit m.ctx m.va
        && ((s.rangeAt x.unit x.ctx x.va).isSome == (s.rangeAt m.unit m.ctx m.va).isSome))
      let t := ((s.bump (RF.XLT_L_WALKS_COUNT leaf)).bumpN (RF.XLT_L_WALKCYC_CYCLES leaf) (s.now - m.since)).bumpN (RF.XLT_L_JOINED_COUNT leaf) joined.length
      let u : State := { t with xlt := { t.xlt with misses := t.xlt.misses.filter (fun x => !(x == m) && !joined.contains x) } }
      .next (((m :: joined).foldl (fun s x => s.answerMiss x (16 * leaf + walker)) u).assignWalkers leaf 16) := by
  cases found : s.rangeAt m.unit m.ctx m.va with
  | none => simp only [execRangeWalkDone, walks, found, Bool.false_eq_true, if_false, State.bump_now]
  | some e =>
    obtain ⟨noInval, noMove⟩ := stays e found
    simp only [execRangeWalkDone, walks, found, noInval, noMove, decide_false, Bool.or_self, Bool.false_eq_true, if_false, State.bump_now]

/-- Words written one after another at different addresses each read as written. -/
theorem State.reg_foldl_setReg (addr : Nat → Nat) (apart : Function.Injective addr) (value : Nat → Word) (n : Nat) (s : State) {k : Nat} (h : k < n) :
    ((List.range n).foldl (fun s k => s.setReg (addr k) (value k)) s).reg (addr k) = value k := by
  induction n with
  | zero => exact absurd h (Nat.not_lt_zero k)
  | succ n ih =>
    rw [List.range_succ, List.foldl_append, List.foldl_cons, List.foldl_nil]
    by_cases last : k = n
    · rw [last, State.reg_setReg_same]
    · rw [State.reg_setReg_other _ _ (fun e => last (apart e)), ih (by omega)]

theorem XLT_RD_DATA_injective : Function.Injective RA.XLT_RD_DATA := by
  intro a b h
  simp only [RA.XLT_RD_DATA] at h
  omega

end Sys2Proof.Machine
end

section
/-! The family of translation. -/

open Sys2Proof Sys2Proof.Machine
namespace Sys2Proof.Claims

/-- Settles O40: each command under its own condition; the words of a range by `reg_foldl_setReg`. -/
theorem translation : Obligations.Translation := by
  intro s leaf walker n kind id index m h v rest r a
  rw [exec_rangeWalkDone, exec_faultRecordFlush, exec_invalAck, exec_xltRdIdxWrite, exec_hostCompletionTimeout, exec_hostCompletionTimeout]
  refine ⟨execRangeWalkDone_answers, ?flush, ?acks, ?window, ?access, ?copy⟩
  case flush =>
    intro held late
    simp only [execFaultRecordFlush, held, if_pos late]
  case acks =>
    intro first range begun mine none
    simp only [execInvalAck, first, range, begun, mine, none, Bool.not_false, Bool.and_self, if_true]
  case window =>
    intro alive running
    have serving : (!s.serving) = false := by rw [State.serving, alive, running]; rfl
    refine ⟨_, by rw [execXltRdIdxWrite, serving]; exact if_neg Bool.false_ne_true, fun k small => ?_⟩
    exact State.reg_foldl_setReg RA.XLT_RD_DATA XLT_RD_DATA_injective _ 8 _ small
  case access =>
    intro acc waits
    have some' : (s.hostParts a).isEmpty = false := by simpa using waits
    simp only [execHostCompletionTimeout, Bool.false_eq_true, if_false, acc, some']
  case copy =>
    intro reads
    simp only [execHostCompletionTimeout, if_true, reads]

end Sys2Proof.Claims
end

section
/-! SUPPORT. Queues and functions of the host port (R674 to R712). -/

open Sys2Proof
namespace Sys2Proof.Machine

theorem exec_doorbellSqtail (fn q v : Nat) (s : State) : exec (.doorbellSqtail fn q v) s = .next (s.ringSqtail fn q v) := rfl
theorem exec_doorbellCqhead (fn q v : Nat) (s : State) : exec (.doorbellCqhead fn q v) s = .next (s.ringCqhead fn q v) := rfl
theorem exec_queueEnable (fn q : Nat) (w : Word) (s : State) : exec (.queueEnable fn q w) s = execQueueEnable fn q w s := rfl
theorem exec_queueDisable (fn q : Nat) (w : Word) (s : State) : exec (.queueDisable fn q w) s = execQueueDisable fn q w s := rfl
theorem exec_commandFetch (q : Nat) (data : List Byte) (s : State) : exec (.commandFetch q data) s = execCommandFetch q data s := rfl
theorem exec_pcieConfigWrite (fn field v : Nat) (s : State) : exec (.pcieConfigWrite fn field v) s = execPcieConfigWrite fn field v s := rfl
theorem exec_vfFlr (fn : Nat) (s : State) : exec (.vfFlr fn) s = execVfFlr fn s := rfl

/-! ### Doorbells -/

section
variable {s : State} {fn q k v : Nat} (queue : s.fnQueue fn q = some k) (small : v < 65536)
include queue small

theorem State.ringSqtail_below (below : v < s.sqSize k) : s.ringSqtail fn q v = (s.setQueue k { s.queue k with tail := v }).syncQuiesced := by
  simp only [State.ringSqtail, queue, Nat.mod_eq_of_lt small, if_neg (Nat.not_le.mpr below)]

theorem State.ringSqtail_beyond (beyond : s.sqSize k ≤ v) : s.ringSqtail fn q v = s.stopQueue k 0x0E02 (detailOf [(52, 2, v)]) := by
  simp only [State.ringSqtail, queue, Nat.mod_eq_of_lt small, if_pos beyond]

theorem State.ringCqhead_below (below : v < s.cqSize k) : s.ringCqhead fn q v =
    (s.setQueue k { s.queue k with cqHead := v }).drainCpls k ((s.setQueue k { s.queue k with cqHead := v }).queue k).waiting.length := by
  simp only [State.ringCqhead, queue, Nat.mod_eq_of_lt small, if_neg (Nat.not_le.mpr below)]

theorem State.ringCqhead_beyond (beyond : s.cqSize k ≤ v) : s.ringCqhead fn q v = s.stopQueue k 0x0E02 (detailOf [(52, 2, v)]) := by
  simp only [State.ringCqhead, queue, Nat.mod_eq_of_lt small, if_pos beyond]

end

/-! ### Queues -/

section
variable (s : State) (q : Nat)

@[simp] theorem State.queue_setQueue_same (x : QueueSt) : (s.setQueue q x).queue q = x := kvGet_set_same ..
@[simp] theorem State.reg_setQueue (x : QueueSt) (a : Nat) : (s.setQueue q x).reg a = s.reg a := by simp only [State.reg, State.setQueue]
@[simp] theorem State.queue_syncQuiesced (k : Nat) : s.syncQuiesced.queue k = s.queue k := by
  rw [State.queue, State.syncQuiesced, State.setFlag_host, State.queue]

@[simp] theorem State.fnSt_syncQuiesced (k : Nat) : s.syncQuiesced.fnSt k = s.fnSt k := by
  rw [State.fnSt, State.syncQuiesced, State.setFlag_host, State.fnSt]

theorem State.reg_syncQuiesced {a : Nat} (other : a ≠ RA.WRD_STAT) : s.syncQuiesced.reg a = s.reg a := s.reg_setFlag_other _ _ other

theorem State.fnSt_setFnSt (fn k : Nat) (x : FnSt) : (s.setFnSt fn x).fnSt k = if k = fn then x else s.fnSt k := kvGet_set ..

/-- A queue is enabled with its indexes at 0 (R678). -/
def State.queueEnabled (w : Word) : State :=
  let t := ((s.setFld (RF.HIF_Q_CFG_SQLOG q) (natBits w.toNat 20 4)).setFld (RF.HIF_Q_CFG_CQLOG q) (natBits w.toNat 16 4)).setFld
    (RF.HIF_Q_CFG_VECTOR q) (natBits w.toNat 0 8)
  let t := (t.setFlag (RF.HIF_Q_CFG_EN q) true).setFlag (RF.HIF_Q_STAT_STOPPED q) false
  (((t.setFld (RF.HIF_Q_SQHEAD_HEAD q) 0).setFld (RF.HIF_Q_CQTAIL_TAIL q) 0).setQueue q {}).syncQuiesced

/-- The registers that a queue's enabling leaves, one by one. -/
theorem State.queueEnabled_regs (w : Word) : (s.queueEnabled q w).flag (RF.HIF_Q_CFG_EN q) = true ∧ (s.queueEnabled q w).fld (RF.HIF_Q_SQHEAD_HEAD q) = 0 ∧
    (s.queueEnabled q w).fld (RF.HIF_Q_CQTAIL_TAIL q) = 0 ∧ (s.queueEnabled q w).flag (RF.HIF_Q_STAT_STOPPED q) = false ∧
    (s.queueEnabled q w).fld (RF.HIF_Q_NEXTSEQ_NEXT q) = s.fld (RF.HIF_Q_NEXTSEQ_NEXT q) := by
  have outer (t : State) (f : RegField) (other : f.addr ≠ RA.WRD_STAT) : (t.setQueue q {}).syncQuiesced.fld f = t.fld f :=
    State.fld_eq_of_reg f (((t.setQueue q {}).reg_syncQuiesced other).trans (State.reg_setQueue ..))
  have apart : RA.HIF_Q_CFG q ≠ RA.WRD_STAT ∧ RA.HIF_Q_SQHEAD q ≠ RA.WRD_STAT ∧ RA.HIF_Q_CQTAIL q ≠ RA.WRD_STAT ∧ RA.HIF_Q_STAT q ≠ RA.WRD_STAT ∧
      RA.HIF_Q_NEXTSEQ q ≠ RA.WRD_STAT := by
    simp only [RA.HIF_Q_CFG, RA.HIF_Q_SQHEAD, RA.HIF_Q_CQTAIL, RA.HIF_Q_STAT, RA.HIF_Q_NEXTSEQ, RA.WRD_STAT]
    omega
  obtain ⟨cfg, sqhead, cqtail, stat, nextseq⟩ := apart
  have own {a b : Nat} (h : a ≠ b) : 0x10000 + a + 0x40 * q ≠ 0x10000 + b + 0x40 * q := by omega
  rw [State.queueEnabled]
  refine ⟨?_, ?_, ?_, ?_, ?_⟩
  · rw [State.flag, outer _ _ cfg, State.fld_setFld_other _ _ _ _ (own (by decide : 0x10 ≠ 0x1C)), State.fld_setFld_other _ _ _ _ (own (by decide : 0x10 ≠ 0x18)),
      State.fld_setFlag_other _ _ _ _ (own (by decide : 0x10 ≠ 0x14))]
    exact State.flag_setFlag_same _ _ _ rfl (by simp only [RF.HIF_Q_CFG_EN]; decide)
  · rw [outer _ _ sqhead, State.fld_setFld_other _ _ _ _ (own (by decide : 0x18 ≠ 0x1C)), State.fld_setFld_same _ _ _ (Nat.zero_le _) (by simp only [RF.HIF_Q_SQHEAD_HEAD]; decide)]
    exact Nat.zero_mod _
  · rw [outer _ _ cqtail, State.fld_setFld_same _ _ _ (Nat.zero_le _) (by simp only [RF.HIF_Q_CQTAIL_TAIL]; decide)]
    exact Nat.zero_mod _
  · rw [State.flag, outer _ _ stat, State.fld_setFld_other _ _ _ _ (own (by decide : 0x14 ≠ 0x1C)), State.fld_setFld_other _ _ _ _ (own (by decide : 0x14 ≠ 0x18))]
    exact State.flag_setFlag_same _ _ _ rfl (by simp only [RF.HIF_Q_STAT_STOPPED]; decide)
  · rw [outer _ _ nextseq, State.fld_setFld_other _ _ _ _ (own (by decide : 0x20 ≠ 0x1C)), State.fld_setFld_other _ _ _ _ (own (by decide : 0x20 ≠ 0x18)),
      State.fld_setFlag_other _ _ _ _ (own (by decide : 0x20 ≠ 0x14)), State.fld_setFlag_other _ _ _ _ (own (by decide : 0x20 ≠ 0x10)),
      State.fld_setFld_other _ _ _ _ (own (by decide : 0x20 ≠ 0x10)), State.fld_setFld_other _ _ _ _ (own (by decide : 0x20 ≠ 0x10)),
      State.fld_setFld_other _ _ _ _ (own (by decide : 0x20 ≠ 0x10))]

/-- A disabled queue's commands run on, their completions discarded (R679). -/
theorem State.cmd_disableQueue {i : Nat} {c : HostCmd} (runs : s.cmd i = some c) :
    (s.disableQueue q).cmd i = some (if c.queue = q then { c with orphan := true } else c) := by
  simp only [State.cmd] at runs
  simp only [State.disableQueue, State.cmd, State.setQueue, State.setFlag_host]
  exact (kvGet_map (fun _ => none) _ (fun _ => rfl) _ _).trans (by rw [runs, Option.map_some])

theorem State.flag_disableQueue : (s.disableQueue q).flag (RF.HIF_Q_CFG_EN q) = false := by
  have en : (s.setFlag (RF.HIF_Q_CFG_EN q) false).flag (RF.HIF_Q_CFG_EN q) = false :=
    State.flag_setFlag_same _ _ _ rfl (by simp only [RF.HIF_Q_CFG_EN]; decide)
  rw [← en]
  simp only [State.disableQueue, State.flag, State.fld, State.reg, State.setQueue]

end

/-! ### Command fetch -/

section
variable {s : State} {q : Nat} {data : List Byte} {u : UnitEnt}

/-- May the slots that the host returned be taken as a queue's next command (R682 to R686)? -/
structure State.Fetches (s : State) (q : Nat) (data : List Byte) (u : UnitEnt) : Prop where
  unit : s.queueUnit q = some u
  fetchable : s.fetchable q = true
  turn : s.nextTurn q = true
  length : data.length = 64 * (1 + natBits (le data 1 1) 0 3)
  avail : 1 + natBits (le data 1 1) 0 3 ≤ ((s.queue q).tail + s.sqSize q - s.fld (RF.HIF_Q_SQHEAD_HEAD q)) % s.sqSize q

/-- The slots are taken, and their SEQ looked at (R688, R690). -/
theorem execCommandFetch_of_fetches (h : s.Fetches q data u) : execCommandFetch q data s =
    let n := 1 + natBits (le data 1 1) 0 3
    let s1 := s.bump64 RF.HIF_H2D_BYTES_COUNT_LO RF.HIF_H2D_BYTES_COUNT_HI data.length
    let t : State := { s1 with host := { s1.host with turn := q } }
    let next := t.fld (RF.HIF_Q_NEXTSEQ_NEXT q)
    let d := (le data 4 4 + 2 ^ 32 - next) % 2 ^ 32
    if d = 0 then
      let leaf := if usesLeaf (le data 0 1) then routedLeaf u (natBits (le data 2 1) 0 4) else some u.slot
      let t1 := (t.passSlots q n).setFld (RF.HIF_Q_NEXTSEQ_NEXT q) ((next + 1) % 2 ^ 32)
      let t2 : State := { t1 with host := { t1.host with nextCmd := t1.host.nextCmd + 1 } }
      let c : HostCmd :=
        { queue := q, opc := le data 0 1, slots := n - 1, irq := natBit (le data 1 1) 3, route := natBits (le data 2 1) 0 4, ctx := le data 3 1,
          seq := le data 4 4, tag := le data 8 4, tmo := le data 12 4, leaf := leaf.getD u.slot, body := data.drop 16, since := t1.now }
      let t3 := (t2.setCmd t1.host.nextCmd (some c)).syncActive q
      .next (if headerOk data then (if leaf.isSome then t3 else t3.failCmd t1.host.nextCmd 0x030C 0 []) else t3.badCmd t1.host.nextCmd c).syncQuiesced
    else if d < 2 ^ 31 then
      .next ((t.stopQueue q 0x0E03 (detailOf [(52, 4, next), (56, 4, le data 4 4)])).dueCpl q
        { seq := le data 4 4, tag := le data 8 4, status := 0x0E03, result := 0, irq := natBit (le data 1 1) 3 })
    else .next (((t.passSlots q n).duplicate q (le data 4 4) (le data 8 4) (natBit (le data 1 1) 3)).syncQuiesced) := by
  have takes : (s.fetchable q && s.nextTurn q &&
      decide (1 + natBits (le data 1 1) 0 3 ≤ ((s.queue q).tail + s.sqSize q - s.fld (RF.HIF_Q_SQHEAD_HEAD q)) % s.sqSize q) &&
      data.length == 64 * (1 + natBits (le data 1 1) 0 3)) = true := by
    rw [h.fetchable, h.turn, decide_eq_true h.avail, beq_iff_eq.mpr h.length]
    rfl
  unfold execCommandFetch
  rw [h.unit]
  exact if_pos takes

end

/-! ### Functions -/

/-- Virtual functions are enabled from the first on (R670). -/
theorem State.fnSt_foldl_enable (v n : Nat) (s : State) {i : Nat} (first : 1 ≤ i) (last : i ≤ n) :
    (((List.range n).foldl (fun s i => s.setFnSt (i + 1) { s.fnSt (i + 1) with enabled := decide (i < v) }) s).fnSt i).enabled = decide (i ≤ v) := by
  induction n with
  | zero => omega
  | succ n ih =>
    rw [List.range_succ, List.foldl_append, List.foldl_cons, List.foldl_nil, State.fnSt_setFnSt]
    by_cases own : i = n + 1
    · rw [if_pos own, own]
      rfl
    · rw [if_neg own]
      exact ih (by omega)

end Sys2Proof.Machine
end

section
/-! The family of the host port: queues and functions. -/

open Sys2Proof Sys2Proof.Machine
namespace Sys2Proof.Claims

/-- Settles O41: doorbells by the ring's size, a fetched command by its SEQ, functions by their own state. -/
theorem hostQueues : Obligations.HostQueues := by
  intro s fn q k v n w u data
  rw [exec_doorbellSqtail, exec_doorbellCqhead, exec_queueEnable, exec_queueDisable, exec_commandFetch, exec_pcieConfigWrite, exec_pcieConfigWrite,
    exec_pcieConfigWrite, exec_vfFlr]
  have reached (small : fn ≤ 16) (there : fn = 0 ∨ (s.fnSt fn).enabled = true) : ¬ (16 < fn ∨ (0 < fn ∧ (!(s.fnSt fn).enabled) = true)) := by
    rintro (beyond | ⟨virtual, off⟩)
    · exact absurd small (Nat.not_le.mpr beyond)
    · rcases there with physical | on
      · exact absurd physical (Nat.ne_of_gt virtual)
      · rw [on] at off
        exact Bool.false_ne_true off
  refine ⟨fun queue small below => ?sqtail, fun queue small beyond => ?sqbad, fun queue small below => ?cqhead, fun queue small beyond => ?cqbad,
    fun queue off on => ?enable, fun queue on off => ?disable, ?fetch, fun small there power => ?power, fun small => ?enables, fun small there => ?msix, fun first last => ?flr⟩
  case sqtail => rw [State.ringSqtail_below queue small below]
  case sqbad => rw [State.ringSqtail_beyond queue small beyond]
  case cqhead => rw [State.ringCqhead_below queue small below]
  case cqbad => rw [State.ringCqhead_beyond queue small beyond]
  case enable =>
    obtain ⟨en, sqhead, cqtail, stopped, nextseq⟩ := s.queueEnabled_regs k w
    refine ⟨s.queueEnabled k w, ?_, en, sqhead, cqtail, ?_, stopped, nextseq⟩
    · simp only [execQueueEnable, queue, off, on, Bool.not_true, Bool.or_self, Bool.false_eq_true, if_false, State.queueEnabled]
    · rw [State.queueEnabled, State.queue_syncQuiesced, State.queue_setQueue_same]
  case disable =>
    refine ⟨s.disableQueue k, ?_, s.flag_disableQueue k, ?_, fun i c runs => s.cmd_disableQueue k runs⟩
    · simp only [execQueueDisable, queue, on, off, Bool.not_false, Bool.and_self, if_true]
    · rw [State.disableQueue, State.queue_setQueue_same]
  case fetch =>
    intro unit slots fetchable turn length avail s1 t next d
    subst slots
    rw [execCommandFetch_of_fetches ⟨unit, fetchable, turn, length, avail⟩]
    refine ⟨fun other ahead => (if_neg other).trans (if_pos ahead), fun behind => ?behind, fun expected => ?expected⟩
    case behind => exact (if_neg (by omega : d ≠ 0)).trans (if_neg (Nat.not_lt.mpr behind))
    case expected =>
      intro leaf t1 t2 c t3
      refine ⟨fun ok valid => (if_pos expected).trans ?_, fun ok invalid => (if_pos expected).trans ?_, fun bad => (if_pos expected).trans ?_⟩
      · exact congrArg (fun t : State => Host.Outcome.next t.syncQuiesced) ((if_pos ok).trans (if_pos valid))
      · exact congrArg (fun t : State => Host.Outcome.next t.syncQuiesced) ((if_pos ok).trans (if_neg (Bool.eq_false_iff.mp invalid)))
      · exact congrArg (fun t : State => Host.Outcome.next t.syncQuiesced) (if_neg (Bool.eq_false_iff.mp bad))
  case power => exact (if_neg (reached small there)).trans (if_pos power)
  case enables =>
    refine ⟨_, ?_, fun i first last => State.fnSt_foldl_enable v 16 s first last⟩
    rw [execPcieConfigWrite, if_neg (by omega)]
    exact if_pos ⟨rfl, small⟩
  case msix => exact if_neg (reached small there)
  case flr =>
    refine ⟨_, if_neg (by omega), ?_⟩
    rw [State.fnSt_syncQuiesced, State.fnSt_setFnSt, if_pos rfl]

end Sys2Proof.Claims
end

section
/-! SUPPORT. Commands of the host (R684 to R704): INLINE, FENCE, windows, LAUNCH and MAP. -/

open Sys2Proof
namespace Sys2Proof.Machine

theorem exec_nopCommand (cmd : Nat) (s : State) : exec (.nopCommand cmd) s = execNopCommand cmd s := rfl
theorem exec_inline (cmd : Nat) (s : State) : exec (.inline cmd) s = execInline cmd s := rfl
theorem exec_fenceCommand (cmd : Nat) (s : State) : exec (.fenceCommand cmd) s = execFenceCommand cmd s := rfl
theorem exec_winOpen (cmd : Nat) (s : State) : exec (.winOpen cmd) s = execWinOpen cmd s := rfl
theorem exec_winClose (cmd : Nat) (s : State) : exec (.winClose cmd) s = execWinClose cmd s := rfl
theorem exec_launch (cmd : Nat) (s : State) : exec (.launch cmd) s = execLaunch cmd s := rfl
theorem exec_map (cmd : Nat) (s : State) : exec (.map cmd) s = execMap cmd s := rfl

/-- A fetched command has the operation code it is asked for. -/
theorem State.opc_of_cmdOf {s : State} {id opc : Nat} {c : HostCmd} (fetched : s.cmdOf id opc = some c) : c.opc = opc := by
  rw [State.cmdOf] at fetched
  cases runs : s.cmd id with
  | none => simp only [runs, reduceCtorEq] at fetched
  | some x =>
    simp only [runs, Option.ite_none_right_eq_some, Option.some.injEq] at fetched
    obtain ⟨⟨code, -⟩, same⟩ := fetched
    exact same ▸ code

@[simp] theorem State.syncXlt_xlt (s : State) : s.syncXlt.xlt = s.xlt := by
  rw [State.syncXlt, State.setFlag_xlt, State.setFlag_xlt, State.setFlag_xlt, State.setFld_xlt]

@[simp] theorem State.syncXlt_mem (s : State) : s.syncXlt.mem = s.mem := by
  rw [State.syncXlt, State.setFlag_mem, State.setFlag_mem, State.setFlag_mem, State.setFld_mem]

/-! ### INLINE -/

section
variable {s t : State} {cmd : Nat} {c : HostCmd} (fetched : s.cmdOf cmd 4 = some c) (free : s.host.flushes.contains cmd = false)
include fetched free

theorem execInline_sealed {x : RangeEnt} (isSealed : s.sealedIn c.leaf c.ctx (c.at 16 8 % 2 ^ 57) (natBits (c.at 24 2) 0 9) = some x) :
    execInline cmd s = .next (s.failCmd cmd 0x1118 0 (sealedDetail c x)) := by
  simp only [execInline, fetched, free, Bool.false_eq_true, if_false, isSealed]

variable (unsealed : s.sealedIn c.leaf c.ctx (c.at 16 8 % 2 ^ 57) (natBits (c.at 24 2) 0 9) = none)
include unsealed

theorem execInline_fails {l k : Nat} (fails : (s.begin cmd).devWrite c.leaf c.ctx (c.at 16 8 % 2 ^ 57) 4 ((c.body.drop 48).take (natBits (c.at 24 2) 0 9)) = (t, .fail l k)) :
    execInline cmd s = .next (s.failCmd cmd (xltCode k) 0 (xltDetail c.ctx 1 0 0 0 0)) := by
  simp only [execInline, fetched, free, Bool.false_eq_true, if_false, unsealed, fails]

/-- Its bytes written, an INLINE makes its arrival; behind host memory it flushes first (R703). -/
theorem execInline_writes {l : List Byte} {b : Bool}
    (writes : (s.begin cmd).devWrite c.leaf c.ctx (c.at 16 8 % 2 ^ 57) 4 ((c.body.drop 48).take (natBits (c.at 24 2) 0 9)) = (t, .ok l b)) :
    execInline cmd s = .next (if (s.begin cmd).toHost c (c.at 16 8 % 2 ^ 57)
        then (if natBit (c.at 26 2) 15 then (t.wroteHost cmd).flush cmd else (t.wroteHost cmd).complete cmd 0 0)
        else t.cmdArrive cmd c (natBit (c.at 26 2) 15) (natBits (c.at 26 2) 0 15) 0) := by
  have inline' : t.fenceEnd cmd c = t.cmdArrive cmd c (natBit (c.at 26 2) 15) (natBits (c.at 26 2) 0 15) 0 := by
    rw [State.fenceEnd, if_pos (State.opc_of_cmdOf fetched)]
  simp only [execInline, fetched, free, Bool.false_eq_true, if_false, unsealed, writes]
  cases host : (s.begin cmd).toHost c (c.at 16 8 % 2 ^ 57) with
  | false => simp only [Bool.not_false, if_true, Bool.false_eq_true, if_false, inline']
  | true =>
    simp only [Bool.not_true, Bool.false_eq_true, if_false, if_true]
    exact (apply_ite Host.Outcome.next _ _ _).symm

end

/-! ### Windows and LAUNCH -/

/-- The window that a WIN_OPEN fills (R697). -/
def HostCmd.window (c : HostCmd) : WinEnt :=
  { valid := true, r := natBit (c.at 20 1) 0, w := natBit (c.at 20 1) 1, a := natBit (c.at 20 1) 2, unit := c.leaf, ctx := c.ctx,
    peer := c.at 18 2, base := c.at 24 8 % 2 ^ 41, length := c.at 32 8 % 2 ^ 41 }

def State.setWindow (s : State) (w : Nat) (e : WinEnt) : State :=
  { s with xlt := { s.xlt with windows := kvSet (fun _ => {}) s.xlt.windows w e } }

theorem State.window_setWindow (s : State) (w : Nat) (e : WinEnt) : kvGet (fun _ => {}) (s.setWindow w e).xlt.windows w = e :=
  kvGet_set_same _ _ _ _

section
variable {s t : State} {cmd w : Nat} {c : HostCmd} {e : WinEnt}

theorem execWinOpen_closed (fetched : s.cmdOf cmd 0x0B = some c)
    (closed : (kvGet (fun _ => {}) s.xlt.windows (natBits (c.at 16 2) 0 12)).valid = false) :
    execWinOpen cmd s = .next (((s.begin cmd).setWindow (natBits (c.at 16 2) 0 12) c.window).complete cmd 0 0) := by
  simp only [execWinOpen, fetched, closed, Bool.false_eq_true, if_false, State.setWindow, HostCmd.window]

theorem execWinClose_own (fetched : s.cmdOf cmd 0x0C = some c) (here : kvGet (fun _ => {}) s.xlt.windows (natBits (c.at 16 2) 0 12) = e)
    (isOpen : e.valid = true) (own : e.unit = c.leaf) :
    execWinClose cmd s = .next (((s.begin cmd).setWindow (natBits (c.at 16 2) 0 12)
      { e with valid := false, closed := some (s.begin cmd).now }).complete cmd 0 0) := by
  simp only [execWinClose, fetched, here, isOpen, own, ne_eq, not_true_eq_false, and_false, if_false, if_true, State.setWindow]

variable (fetched : s.cmdOf cmd 2 = some c) (inflight : c.inflight = true) (alive : s.alive = true)
include fetched inflight alive

theorem execLaunch_misaligned (misaligned : c.at 16 8 % 2 ^ 57 % 32 ≠ 0) : execLaunch cmd s = .next (s.badCmd cmd c) := by
  simp only [execLaunch, fetched, inflight, alive, Bool.not_true, Bool.or_self, Bool.false_eq_true, if_false, beq_false_of_ne misaligned,
    Bool.not_false, if_true]

variable (aligned : c.at 16 8 % 2 ^ 57 % 32 = 0)
include aligned

theorem execLaunch_full (full : 256 ≤ (s.unitRun c.leaf).waiting.length) : execLaunch cmd s = .next s := by
  simp only [execLaunch, fetched, inflight, alive, Bool.not_true, Bool.or_self, Bool.false_eq_true, if_false, beq_iff_eq.mpr aligned, if_pos full]

/-- A LAUNCH with a readable header joins its leaf's queue (R704). -/
theorem execLaunch_enters {h : List Byte} (room : (s.unitRun c.leaf).waiting.length < 256)
    (reads : s.devRead c.leaf c.ctx 0 (c.at 16 8 % 2 ^ 57) 32 (s.rangeCls c.leaf c.ctx (c.at 16 8 % 2 ^ 57)) = (t, .ok h false)) :
    execLaunch cmd s = .next (((t.begin cmd).setUnit c.leaf
        { s.unitRun c.leaf with waiting := (s.unitRun c.leaf).waiting ++ [headerProg c.leaf c.ctx cmd h] }).syncQuiesced) := by
  simp only [execLaunch, fetched, inflight, alive, Bool.not_true, Bool.or_self, Bool.false_eq_true, if_false, beq_iff_eq.mpr aligned,
    if_neg (Nat.not_le.mpr room), reads]

end

/-! ### MAP -/

section
variable {s : State} {cmd : Nat} {c : HostCmd}

/-- A MAP's entry and its advice are reserved until it completes (R604). -/
def State.reserveMap (s : State) (cmd : Nat) (c : HostCmd) : State :=
  State.syncXlt { s with
    xlt := { s.xlt with ranges := s.xlt.ranges ++ [c.mapEnt] }
    mem := { s.mem with maps := s.mem.maps ++
      [{ unit := c.mapEnt.unit, ctx := c.mapEnt.ctx, start := c.mapEnt.start, adv := c.at 48 1 % 16, arg := c.at 49 1 % 2, cmd := cmd }] } }

variable (fetched : s.cmdOf cmd 7 = some c) (inflight : c.inflight = true)
include fetched inflight

theorem execMap_malformed (malformed : 9 < c.at 48 1 % 16) : execMap cmd s = .next (s.badCmd cmd c) := by
  simp only [execMap, fetched, inflight, Bool.not_true, Bool.false_eq_true, if_false, if_pos malformed]

variable (wellFormed : c.at 48 1 % 16 ≤ 9)
include wellFormed

theorem execMap_invalid {k : Nat} (invalid : s.mapInvalid c = some k) : execMap cmd s = .next (s.failCmd cmd 0x0C0A 0 (detailOf [(52, 1, k)])) := by
  simp only [execMap, fetched, inflight, Bool.not_true, Bool.false_eq_true, if_false, if_neg (Nat.not_lt.mpr wellFormed), invalid]

variable (valid : s.mapInvalid c = none)
include valid

theorem execMap_overlaps {x : RangeEnt} (overlaps : s.xlt.ranges.find? (fun x => x.unit == c.mapEnt.unit && x.ctx == c.mapEnt.ctx &&
      decide (x.start < c.mapEnt.start + c.mapEnt.length) && decide (c.mapEnt.start < x.start + x.length)) = some x) :
    execMap cmd s = .next (s.failCmd cmd 0x0C08 0 (detailOf [(52, 8, x.start)])) := by
  simp only [execMap, fetched, inflight, Bool.not_true, Bool.false_eq_true, if_false, if_neg (Nat.not_lt.mpr wellFormed), valid, overlaps]

variable (apart : s.xlt.ranges.find? (fun x => x.unit == c.mapEnt.unit && x.ctx == c.mapEnt.ctx &&
  decide (x.start < c.mapEnt.start + c.mapEnt.length) && decide (c.mapEnt.start < x.start + x.length)) = none)
include apart

theorem execMap_full (full : 524288 ≤ s.xlt.ranges.length) : execMap cmd s = .next (s.failCmd cmd 0x0C09 0 []) := by
  simp only [execMap, fetched, inflight, Bool.not_true, Bool.false_eq_true, if_false, if_neg (Nat.not_lt.mpr wellFormed), valid, apart, if_pos full]

variable (room : s.xlt.ranges.length < 524288)
include room

theorem execMap_away (away : c.mapEnt.kind = 1 ∨ c.mapEnt.kind = 2) : execMap cmd s = .next ((s.begin cmd).reserveMap cmd c) := by
  simp only [execMap, fetched, inflight, Bool.not_true, Bool.false_eq_true, if_false, if_neg (Nat.not_lt.mpr wellFormed), valid, apart,
    if_neg (Nat.not_le.mpr room), if_pos away, State.reserveMap]

variable (device : ¬ (c.mapEnt.kind = 1 ∨ c.mapEnt.kind = 2))
include device

theorem execMap_forbidden (forbidden : c.at 48 1 % 16 ≠ 0 ∧ (s.placeEnt c.mapEnt.part).binding (c.at 48 1 % 16) = some 3) :
    execMap cmd s = .next (s.failCmd cmd 0x0A07 0 (detailOf [(52, 1, c.at 48 1 % 16)])) := by
  simp only [execMap, fetched, inflight, Bool.not_true, Bool.false_eq_true, if_false, if_neg (Nat.not_lt.mpr wellFormed), valid, apart,
    if_neg (Nat.not_le.mpr room), if_neg device, if_pos forbidden]

variable (allowed : ¬ (c.at 48 1 % 16 ≠ 0 ∧ (s.placeEnt c.mapEnt.part).binding (c.at 48 1 % 16) = some 3))
include allowed

theorem execMap_short {n : Nat} (short : s.chooseFor c.mapEnt.part c.mapEnt.length (!s.mapScratch c.mapEnt (c.at 48 1 % 16))
      (if c.at 48 1 % 16 = 6 then some (c.at 49 1 % 2, (s.placeEnt c.mapEnt.part).leafAff) else none) = .short n) :
    execMap cmd s = .next (s.failCmd cmd 0x0A09 0 (detailOf [(52, 4, c.mapEnt.length), (56, 4, n)])) := by
  simp only [execMap, fetched, inflight, Bool.not_true, Bool.false_eq_true, if_false, if_neg (Nat.not_lt.mpr wellFormed), valid, apart,
    if_neg (Nat.not_le.mpr room), if_neg device, if_neg allowed, short]

theorem execMap_backs {ps : List Nat} {outside : Nat} (places : s.chooseFor c.mapEnt.part c.mapEnt.length (!s.mapScratch c.mapEnt (c.at 48 1 % 16))
      (if c.at 48 1 % 16 = 6 then some (c.at 49 1 % 2, (s.placeEnt c.mapEnt.part).leafAff) else none) = .places ps outside) :
    execMap cmd s = .next (((((s.begin cmd).reserveMap cmd c).bumpN RF.MEM_ADV_PARTIAL_COUNT outside).backGranules c.mapEnt.unit c.mapEnt.ctx c.mapEnt.part
      (!s.mapScratch c.mapEnt (c.at 48 1 % 16)) (!!s.mapScratch c.mapEnt (c.at 48 1 % 16)) c.mapEnt.start ps).syncFree) := by
  simp only [execMap, fetched, inflight, Bool.not_true, Bool.false_eq_true, if_false, if_neg (Nat.not_lt.mpr wellFormed), valid, apart,
    if_neg (Nat.not_le.mpr room), if_neg device, if_neg allowed, places, State.reserveMap]

end

end Sys2Proof.Machine
end

section
/-! The family of the host port: commands. -/

open Sys2Proof Sys2Proof.Machine
namespace Sys2Proof.Claims

/-- Settles O42: each command by its checks, in their order. -/
theorem hostCommands : Obligations.HostCommands := by
  intro s t cmd c h x win e va
  rw [exec_nopCommand, exec_inline, exec_fenceCommand, exec_winOpen, exec_winClose, exec_launch, exec_map]
  refine ⟨fun fetched => ?nop, fun l b fetched free unsealed writes => execInline_writes fetched free unsealed writes,
    fun l k fetched free unsealed fails => execInline_fails fetched free unsealed fails, fun fetched free isSealed => execInline_sealed fetched free isSealed,
    ?fence, fun fetched open' => ?opened, fun fetched closed => ?opens, fun fetched open' other => ?others, fun fetched open' own => ?closes, fun fetched closed => ?closed,
    fun fetched inflight alive aligned room reads => execLaunch_enters fetched inflight alive aligned room reads, 
    fun fetched inflight alive aligned full => execLaunch_full fetched inflight alive aligned full, 
    fun fetched inflight alive misaligned => execLaunch_misaligned fetched inflight alive misaligned,
    fun fetched inflight malformed => execMap_malformed fetched inflight malformed,
    fun k fetched inflight wellFormed invalid => execMap_invalid fetched inflight wellFormed invalid,
    fun fetched inflight wellFormed valid overlaps => execMap_overlaps fetched inflight wellFormed valid overlaps,
    fun fetched inflight wellFormed valid apart full => execMap_full fetched inflight wellFormed valid apart full, ?mapDevice, ?mapAway⟩
  case nop => simp only [execNopCommand, fetched]
  case fence =>
    intro fetched begun free first
    subst begun
    refine ⟨fun unwritten => ?_, fun wrote => ?_⟩
    · simp only [execFenceCommand, fetched, free, first, Bool.or_self, Bool.false_eq_true, if_false, unwritten]
    · simp only [execFenceCommand, fetched, free, first, Bool.or_self, Bool.false_eq_true, if_false, wrote, if_true]
  case opened =>
    simp only [e, win] at open'
    simp only [execWinOpen, fetched, open', if_true, win]
  case opens =>
    simp only [e, win] at closed
    exact ⟨_, execWinOpen_closed fetched closed, State.window_setWindow ..⟩
  case others =>
    simp only [e, win] at open' other
    simp only [execWinClose, fetched, open', true_and, if_pos other, win]
  case closes =>
    simp only [e, win] at open' own
    exact ⟨_, execWinClose_own fetched rfl open' own, congrArg WinEnt.valid (State.window_setWindow ..)⟩
  case closed =>
    simp only [e, win] at closed
    simp only [execWinClose, fetched, closed, Bool.false_eq_true, false_and, if_false]
  case mapDevice =>
    intro fetched inflight wellFormed valid apart room notHost notWindow adv hbm lead
    have device : ¬ (c.mapEnt.kind = 1 ∨ c.mapEnt.kind = 2) := fun h => h.elim notHost notWindow
    refine ⟨fun advised forbidden => execMap_forbidden fetched inflight wellFormed valid apart room device ⟨advised, forbidden⟩, fun allowed => ?_⟩
    have allowed' : ¬ (adv ≠ 0 ∧ (s.placeEnt c.mapEnt.part).binding adv = some 3) := fun ⟨advised, forbidden⟩ => allowed.elim advised (fun h => h forbidden)
    exact ⟨fun n short => execMap_short fetched inflight wellFormed valid apart room device allowed' short,
      fun ps outside places => execMap_backs fetched inflight wellFormed valid apart room device allowed' places⟩
  case mapAway =>
    intro fetched inflight wellFormed valid apart room away
    refine ⟨_, execMap_away fetched inflight wellFormed valid apart room away, ?_, ?_⟩
    · rw [State.reserveMap, State.syncXlt_xlt]
    · rw [State.reserveMap, State.syncXlt_mem]

end Sys2Proof.Claims
end

section
/-! SUPPORT. Saves and restores that nothing stops (R191 to R200, R477 to R481): what a core keeps of a save. -/

open Sys2Proof
namespace Sys2Proof.Machine

/-- The count of preemptions stands in a register of its own, apart from the status of any core. -/
theorem TCW_STAT_SAVING_ne_PREEMPT_COUNT (core : Nat) : (RF.TCW_STAT_SAVING core).addr ≠ (RF.TCW_PREEMPT_COUNT core).addr := by
  simp only [RF.TCW_STAT_SAVING, RF.TCW_PREEMPT_COUNT, RA.TCW_STAT, RA.TCW_PREEMPT]
  omega

theorem State.flag_saved (s : State) (core : Nat) :
    ((s.setFlag (RF.TCW_STAT_SAVING core) false).bump (RF.TCW_PREEMPT_COUNT core)).flag (RF.TCW_STAT_SAVING core) = false := by
  rw [State.bump, State.bumpN, State.flag_setFld_other _ _ _ _ (TCW_STAT_SAVING_ne_PREEMPT_COUNT core), State.flag_setFlag_same _ _ _ rfl (by simp only [RF.TCW_STAT_SAVING]; decide)]

end Sys2Proof.Machine
end

section
/-! The family of preemption: saves and restores. -/

open Sys2Proof Sys2Proof.Machine
namespace Sys2Proof.Claims

/-- Settles O31: each of the three commands, with every check on its way passed. -/
theorem saveAndRestore : Obligations.SaveAndRestore := by
  intro core s t m p sv ext bs poison prio base blocks engs parts save
  rw [exec_tSaveDone, exec_tRestoreDone, exec_vSaveDone]
  refine ⟨fun image moving runs alive slot reached isSealed writes => ⟨?saves, ?kept, State.flag_saved ..⟩, ?restores,
    fun image moving runs alive idle unwaited quiet slot reached isSealed writes => ⟨?vsaves, ?vidle, ?vkept⟩⟩
  case saves =>
    simp only [base, prio, parts, blocks, engs] at slot reached isSealed writes
    simp only [execTSaveDone, moving, runs, alive, Bool.not_true, Bool.false_eq_true, if_false, if_neg slot, reached, isSealed, writes,
      save, base, prio, blocks, engs]
  case kept =>
    simp only [State.bump_tc, State.setFlag_tc, State.setFld_tc, kvGet_set_same]
  case restores =>
    intro moving runs saved own alive slot reached whole clean reads
    simp only [base, prio] at saved slot reached whole reads
    have clean' : (poison && !ext.isEmpty) = false := by
      rcases clean with fine | none'
      · simp only [fine, Bool.false_and]
      · simp only [none', List.isEmpty_nil, Bool.not_true, Bool.and_false]
    simp only [execTRestoreDone, moving, runs, saved, own, alive, beq_self_eq_true, Bool.not_true, Bool.or_self, Bool.false_eq_true, if_false,
      if_neg slot, reached, whole, reads, clean', prio]
  case vsaves =>
    simp only [prio] at slot reached isSealed writes
    simp only [execVSaveDone, moving, runs, alive, idle, unwaited, quiet, Option.isSome_none, Bool.not_true, Bool.or_self, Bool.false_eq_true, if_false,
      if_neg slot, reached, isSealed, writes, prio]
  case vidle =>
    simp only [State.vcore_setFlag, State.vcore_setFld, State.vcore_setVcore, if_true]
  case vkept =>
    simp only [State.setFlag_vc, State.setFld_vc, State.setVcore, kvGet_set_same]

end Sys2Proof.Claims
end

section
/-! SUPPORT. Copies (R616 to R619, R699 to R704): an equation for each command of a copy, per outcome of its checks. -/

open Sys2Proof
namespace Sys2Proof.Machine

theorem exec_copy (cmd : Nat) (s : State) : exec (.copy cmd) s = execCopy cmd s := rfl
theorem exec_copyBlock (cmd : Nat) (data scales : List Byte) (err : Nat) (s : State) :
    exec (.copyBlock cmd data scales err) s = execCopyBlock cmd data scales err s := rfl
theorem exec_xltResumeGo (token : Nat) (s : State) : exec (.xltResumeGo token) s = execXltResumeGo token s := rfl
theorem exec_xltResumeAbort (token : Nat) (s : State) : exec (.xltResumeAbort token) s = execXltResumeAbort token s := rfl
theorem exec_copyHoldExpire (token : Nat) (s : State) : exec (.copyHoldExpire token) s = execCopyHoldExpire token s := rfl
theorem exec_copyWaitTimeout (cmd : Nat) (s : State) : exec (.copyWaitTimeout cmd) s = execCopyWaitTimeout cmd s := rfl
theorem exec_flushReadComplete (cmd : Nat) (s : State) : exec (.flushReadComplete cmd) s = execFlushReadComplete cmd s := rfl

theorem State.serving_of {s : State} (alive : s.alive = true) (runs : s.boot.fwRunning = true) : s.serving = true := by
  rw [State.serving, alive, runs, Bool.and_self]

/-! ### COPY -/

/-- The sealed range, if any, that keeps a copy from a side of its own. -/
def State.sideSealed (s : State) (c : HostCmd) (dstSide : Bool) : Option RangeEnt :=
  if c.copy.hostSide dstSide then none else
    s.sealedIn c.leaf c.ctx (c.copy.sideRun dstSide 0 c.copy.len).1 (c.copy.sideRun dstSide 0 c.copy.len).2

section
variable {s : State} {cmd : Nat} {c : HostCmd} (fetched : s.cmdOf cmd 3 = some c) (inflight : c.inflight = true)
include fetched inflight

theorem execCopy_malformed (malformed : c.copy.ok = false) : execCopy cmd s = .next (s.badCmd cmd c) := by
  simp only [execCopy, fetched, inflight, malformed, Bool.not_true, Bool.not_false, Bool.false_eq_true, if_false, if_true]

variable (wellFormed : c.copy.ok = true)
include wellFormed

theorem execCopy_foreignWait (waits : c.copy.waitEn = true) (foreign : s.queueTmb c.queue c.copy.waitTmb = false) :
    execCopy cmd s = .next (s.failCmd cmd 0x0D04 0 (s.refusedDetail c.copy.waitTmb 2)) := by
  simp only [execCopy, fetched, inflight, wellFormed, waits, foreign, Bool.not_true, Bool.not_false, Bool.and_self, Bool.false_eq_true, if_false, if_true]

variable (ownWait : (c.copy.waitEn && !s.queueTmb c.queue c.copy.waitTmb) = false)
include ownWait

theorem execCopy_foreignArrival (arrives : c.copy.arvEn = true) (foreign : s.queueTmb c.queue c.copy.arvTmb = false) :
    execCopy cmd s = .next (s.failCmd cmd 0x0D04 0 (s.refusedDetail c.copy.arvTmb 0)) := by
  simp only [execCopy, fetched, inflight, wellFormed, ownWait, arrives, foreign, Bool.not_true, Bool.not_false, Bool.and_self, Bool.false_eq_true, if_false, if_true]

variable (ownArrival : (c.copy.arvEn && !s.queueTmb c.queue c.copy.arvTmb) = false)
include ownArrival

theorem execCopy_sealed {x : RangeEnt} (barred : (s.sideSealed c false).orElse (fun _ => s.sideSealed c true) = some x) :
    execCopy cmd s = .next (s.failCmd cmd 0x1118 0 (sealedDetail c x)) := by
  simp only [State.sideSealed] at barred
  simp only [execCopy, fetched, inflight, wellFormed, ownWait, ownArrival, barred, Bool.not_true, Bool.false_eq_true, if_false]

theorem execCopy_placed (clear : (s.sideSealed c false).orElse (fun _ => s.sideSealed c true) = none) :
    execCopy cmd s = .next (State.placeCopies { s.begin cmd with host := { (s.begin cmd).host with
      copies := (s.begin cmd).host.copies ++ [{ cmd := cmd, engine := (if c.copy.dir = 1 then 8 else 0) + c.queue % 8 }] } }
      ((if c.copy.dir = 1 then 8 else 0) + c.queue % 8) 8) := by
  simp only [State.sideSealed] at clear
  simp only [execCopy, fetched, inflight, wellFormed, ownWait, ownArrival, clear, Bool.not_true, Bool.false_eq_true, if_false]

end

/-! ### Blocks, holds, waits and flushes -/

section
variable {s : State} {cmd token err : Nat} {c : HostCmd} {j : CopyJob} {data scales : List Byte}

/-- The first ready copy of its engine moves its next block. -/
theorem execCopyBlock_moves (unstaged : s.xlt.moves.find? (fun m => m.cmd == some cmd) = none) (job : s.job cmd = some j) (fetched : s.cmd cmd = some c)
    (sound : j.abort = 0)
    (first : s.host.copies.find? (fun x => x.engine == j.engine && (x.placed && x.ready && !x.regd && x.token.isNone)) = some j) :
    execCopyBlock cmd data scales err s = .next (s.copyBlock j c data scales err) := by
  have able := List.find?_some first
  simp only [beq_self_eq_true, Bool.true_and] at able
  simp only [execCopyBlock, State.oneBlock, unstaged, job, fetched, sound, first, able, beq_self_eq_true, Bool.and_self, ne_eq, not_true_eq_false,
    if_false, if_true]

theorem execXltResumeGo_held (serves : s.serving = true) (held : s.jobOfToken token = some j) :
    execXltResumeGo token s = .next ((s.setJob { j with token := none }).syncXlt) := by
  simp only [execXltResumeGo, serves, Bool.not_true, Bool.false_eq_true, if_false, held]

theorem execXltResumeAbort_held (serves : s.serving = true) (held : s.jobOfToken token = some j) :
    execXltResumeAbort token s = .next (s.failCopy j j.holdCode (fun _ => []) false) := by
  simp only [execXltResumeAbort, serves, Bool.not_true, Bool.false_eq_true, if_false, held]

theorem execCopyWaitTimeout_due (job : s.job cmd = some j) (fetched : s.cmd cmd = some c) (waits : j.regd = true) (unanswered : s.hostNote cmd = none)
    (bounded : c.tmo ≠ 0) (due : j.waitFrom + c.tmo * 2500 < s.now) :
    execCopyWaitTimeout cmd s = .next (s.failCopy j 0x0E07 (fun _ => detailOf [(52, 2, c.copy.waitTmb)]) true) := by
  simp only [execCopyWaitTimeout, job, fetched, waits, unanswered, beq_false_of_ne bounded, decide_eq_true due, Bool.not_false, Bool.and_self, if_true]

end

end Sys2Proof.Machine
end

section
/-! The family of the host port: copies. -/

open Sys2Proof Sys2Proof.Machine
namespace Sys2Proof.Claims

/-- Settles O44: COPY by its checks in their order, then the commands of a copy under way. -/
theorem copyCommands : Obligations.CopyCommands := by
  intro s cmd token err c j x data scales k barred
  rw [exec_copy, exec_copyBlock, exec_xltResumeGo, exec_xltResumeAbort, exec_copyHoldExpire, exec_copyWaitTimeout, exec_flushReadComplete]
  have owned {en own : Bool} (h : en = true → own = true) : (en && !own) = false := by
    cases en with
    | false => rfl
    | true => rw [h rfl]; decide
  refine ⟨fun fetched inflight malformed => execCopy_malformed fetched inflight malformed,
    fun fetched inflight wellFormed wait arrive src dst => execCopy_placed fetched inflight wellFormed (owned wait) (owned arrive) ?clear,
    fun fetched inflight wellFormed wait arrive sealed' => execCopy_sealed fetched inflight wellFormed (owned wait) (owned arrive) ?barred,
    fun fetched inflight wellFormed waits foreign => execCopy_foreignWait fetched inflight wellFormed waits foreign,
    fun fetched inflight wellFormed wait arrives foreign => execCopy_foreignArrival fetched inflight wellFormed (owned wait) arrives foreign,
    fun unstaged job fetched sound first => execCopyBlock_moves unstaged job fetched sound first,
    fun alive runs held => execXltResumeGo_held (State.serving_of alive runs) held,
    fun alive runs held => execXltResumeAbort_held (State.serving_of alive runs) held,
    fun held due => ?expire, fun job fetched waits unanswered bounded due => execCopyWaitTimeout_due job fetched waits unanswered bounded due,
    fun flushing => ⟨fun job fetched => ?copied, fun unjob fetched => ?fenced⟩⟩
  case clear =>
    change s.sideSealed c false = none at src
    change s.sideSealed c true = none at dst
    simp only [src, dst, Option.orElse_none]
  case barred =>
    change s.sideSealed c false = some x ∨ (s.sideSealed c false = none ∧ s.sideSealed c true = some x) at sealed'
    rcases sealed' with src | ⟨src, dst⟩
    · simp only [src, Option.orElse_some]
    · simp only [src, dst, Option.orElse_none]
  case expire => simp only [execCopyHoldExpire, held, if_pos due]
  case copied => simp only [execFlushReadComplete, flushing, if_true, job, fetched]
  case fenced => simp only [execFlushReadComplete, flushing, if_true, unjob, fetched]

end Sys2Proof.Claims
end

section
/-! SUPPORT. Ports of Pintle (R721 to R747): what a write of a port's state leaves, and an equation for each command of a port per outcome of its
checks. -/

open Sys2Proof
namespace Sys2Proof.Machine

theorem exec_portTrained (port lanes : Nat) (s : State) : exec (.portTrained port lanes) s = execPortTrained port lanes s := rfl
theorem exec_hello (port : Nat) (data : List Byte) (s : State) : exec (.hello port data) s = execHello port data s := rfl
theorem exec_pintleBlockReceive (port : Nat) (data : List Byte) (s : State) :
    exec (.pintleBlockReceive port data) s = execPintleBlockReceive port data s := rfl
theorem exec_pintleBlockSend (req : Bool) (n : Nat) (s : State) : exec (.pintleBlockSend req n) s = execPintleBlockSend req n s := rfl
theorem exec_pintleAckTimeout (port : Nat) (s : State) : exec (.pintleAckTimeout port) s = execPintleAckTimeout port s := rfl
theorem exec_pintleRetrainDone (port lanes : Nat) (s : State) : exec (.pintleRetrainDone port lanes) s = execPintleRetrainDone port lanes s := rfl
theorem exec_portDownTimeout (port : Nat) (s : State) : exec (.portDownTimeout port) s = execPortDownTimeout port s := rfl
theorem exec_portRetrainRetry (port : Nat) (s : State) : exec (.portRetrainRetry port) s = execPortRetrainRetry port s := rfl
theorem exec_ptlRetrainReq (port : Nat) (value : Word) (s : State) : exec (.ptlRetrainReq port value) s = execPtlRetrainReq port value s := rfl
theorem exec_addressMapWrite (entry word : Nat) (value : Word) (s : State) :
    exec (.addressMapWrite entry word value) s = execAddressMapWrite entry word value s := rfl
theorem exec_pairKeyDerived (leaf peer : Nat) (s : State) : exec (.pairKeyDerived leaf peer) s = execPairKeyDerived leaf peer s := rfl

/-! ### The state of a port and of a peer -/

section
variable (s : State) (p : Nat) (x : PortSt)

theorem State.ptl_setPort : (s.setPort p x).ptl = { s.ptl with ports := kvSet (fun _ => {}) s.ptl.ports p x } := by
  simp only [State.setPort, State.setFld_ptl, State.setFlag_ptl]

@[simp] theorem State.port_setPort (q : Nat) : (s.setPort p x).port q = if q = p then x else s.port q := by
  simp only [State.port, State.ptl_setPort, kvGet_set]

theorem State.port_setPort_same : (s.setPort p x).port p = x := (s.port_setPort p x p).trans (if_pos rfl)

/-- A port's state is shown in its own status register and in that of all ports. -/
theorem State.fld_setPort_other (g : RegField) (own : g.addr ≠ RA.PTL_P_STAT p) (all : g.addr ≠ RA.PTL_STAT) : (s.setPort p x).fld g = s.fld g := by
  have flag (t : State) (f : RegField) (b : Bool) (h : f.addr = RA.PTL_P_STAT p) : (t.setFlag f b).fld g = t.fld g :=
    State.fld_setFlag_other _ _ _ _ (h ▸ own)
  have word (t : State) (v : Nat) : (t.setFld (RF.PTL_P_STAT_LANES p) v).fld g = t.fld g := State.fld_setFld_other _ _ _ _ own
  have up (t : State) (v : Nat) : (t.setFld RF.PTL_STAT_UP v).fld g = t.fld g := State.fld_setFld_other _ _ _ _ all
  have degraded (t : State) (v : Nat) : (t.setFld RF.PTL_STAT_DEGRADED v).fld g = t.fld g := State.fld_setFld_other _ _ _ _ all
  rw [State.setPort, degraded, up, flag _ _ _ rfl, flag _ _ _ rfl, flag _ _ _ rfl, flag _ _ _ rfl, word]
  exact State.fld_eq_of_reg _ rfl

end

@[simp] theorem State.port_bump (s : State) (f : RegField) (p : Nat) : (s.bump f).port p = s.port p := by
  rw [State.port, State.bump_ptl, State.port]

theorem State.peer_setPeer_same (s : State) (l : Nat) (x : PeerSt) : (s.setPeer l x).peer l = x := kvGet_set_same _ _ _ _

theorem State.peer_eq_of_peers {s t : State} (same : t.ptl.peers = s.ptl.peers) (l : Nat) : t.peer l = s.peer l := by
  rw [State.peer, same, State.peer]

/-- A block that leaves by a port changes no peer and no key. -/
theorem State.ptl_hopSend (s : State) (p : Nat) (b : PathBlk) :
    (s.hopSend p b).ptl.peers = s.ptl.peers ∧ (s.hopSend p b).ptl.keyCache = s.ptl.keyCache := by
  rw [State.hopSend, State.ptl_setPort]
  exact ⟨rfl, rfl⟩

/-! ### The hop layer -/

section
variable {s t : State} {port lanes m : Nat} {data : List Byte} (alive : s.alive = true)
include alive

section
variable (inRange : port < 16)
include inRange

theorem execPortTrained_of (loaded : s.flag RF.WRD_STAT_LOADED = true) (used : s.role port ≠ 0) (untrained : (s.port port).trained = false) :
    (lanesFor lanes = some m → execPortTrained port lanes s = .next (s.portUp port m)) ∧
    (lanesFor lanes = none → execPortTrained port lanes s = .next s) := by
  constructor <;>
  · intro serves
    simp only [execPortTrained, alive, decide_eq_true inRange, loaded, beq_false_of_ne used, untrained, Bool.not_false, Bool.and_self, if_true, serves]

variable (up : (s.port port).up = true) (whole : data.length = 256)
include up whole

theorem execHello_of (hello : natBits (dNat data 4 1) 3 2 = 2) {ok : Bool} (takes : s.hopTake port data = (t, ok)) :
    execHello port data s = .next (if ok then t.setFld (RF.PTL_P_NEIGH_PHYS port) (dNat data 12 4) else t) := by
  simp only [execHello, alive, decide_eq_true inRange, up, whole, hello, beq_self_eq_true, Bool.and_self, if_true, takes]

theorem execPintleBlockReceive_of (data' : natBits (dNat data 4 1) 3 2 ≠ 2) {ok : Bool} (takes : s.hopTake port data = (t, ok)) :
    execPintleBlockReceive port data s = .next (if ok && decide (natBits (dNat data 4 1) 3 2 < 2) then t.pathTake (port / 8) data else t) := by
  simp only [execPintleBlockReceive, alive, decide_eq_true inRange, up, whole, beq_false_of_ne data', beq_self_eq_true, Bool.not_false, Bool.and_self, if_true, takes]

end

end

theorem execPintleBlockReceive_unaccepted {s t : State} {port : Nat} {data : List Byte} (alive : s.alive = true) (inRange : port < 16)
    (up : (s.port port).up = true) (whole : data.length = 256) (path : natBits (dNat data 4 1) 3 2 ≠ 2) (refuses : s.hopTake port data = (t, false)) :
    execPintleBlockReceive port data s = .next t := by
  rw [execPintleBlockReceive_of alive inRange up whole path refuses, Bool.false_and, if_neg Bool.false_ne_true]

/-- A block whose CRC does not match is counted, and its sender is asked to send it again (R34). -/
theorem State.hopTake_badCrc (s : State) (p : Nat) (bs : List Byte) (bad : (crc32 (bs.take 252)).toNat ≠ leNat (bs.drop 252)) :
    s.hopTake p bs = ((s.setPort p { s.port p with nakOut := true }).bump (RF.PTL_P_CRCERR_COUNT p), false) := by
  simp only [State.hopTake, beq_false_of_ne bad, Bool.not_false, if_true]

theorem State.fld_crcErr_bump_setPort (s : State) (p : Nat) (x : PortSt) :
    ((s.setPort p x).bump (RF.PTL_P_CRCERR_COUNT p)).fld (RF.PTL_P_CRCERR_COUNT p) = min (s.fld (RF.PTL_P_CRCERR_COUNT p) + 1) (2 ^ 32 - 1) := by
  have kept : (s.setPort p x).fld (RF.PTL_P_CRCERR_COUNT p) = s.fld (RF.PTL_P_CRCERR_COUNT p) :=
    State.fld_setPort_other _ _ _ _ (by simp only [RF.PTL_P_CRCERR_COUNT, RA.PTL_P_CRCERR, RA.PTL_P_STAT]; omega)
      (by simp only [RF.PTL_P_CRCERR_COUNT, RA.PTL_P_CRCERR, RA.PTL_STAT]; omega)
  rw [← kept]
  exact State.fld_bump_same _ _ (Nat.zero_le _) (by simp only [RF.PTL_P_CRCERR_COUNT]; decide)

/-! ### Timeouts and retraining -/

section
variable {s : State} {port lanes m : Nat} (alive : s.alive = true)
include alive

theorem execPintleAckTimeout_due (up : (s.port port).up = true) (held : (s.port port).replay ≠ [])
    (due : (s.port port).lastAdvance + ((s.port port).expired + 1) * (250 * min 100 (atLeast1 (s.fld (RF.PTL_P_CTL_ACK_TO port)))) < s.now) :
    execPintleAckTimeout port s = .next ((s.setPort port { s.port port with expired := (s.port port).expired + 1 }).hopReplay port) := by
  have held' : (s.port port).replay.isEmpty = false := List.isEmpty_eq_false_iff.mpr held
  simp only [execPintleAckTimeout, alive, up, held', decide_eq_true due, Bool.not_false, Bool.and_self, if_true]

omit alive in
theorem execPintleAckTimeout_early
    (early : s.now ≤ (s.port port).lastAdvance + ((s.port port).expired + 1) * (250 * min 100 (atLeast1 (s.fld (RF.PTL_P_CTL_ACK_TO port))))) :
    execPintleAckTimeout port s = .next s := by
  simp only [execPintleAckTimeout, decide_eq_false (Nat.not_lt.mpr early), Bool.and_false, Bool.false_eq_true, if_false]

theorem execPintleRetrainDone_serves (retrains : (s.port port).retraining = true) (serves : lanesFor lanes = some m) :
    ∃ u : State, execPintleRetrainDone port lanes s = .next (u.portUp port m) ∧ (u.port port).joined = ((s.port port).joined && !(s.port port).down) :=
  ⟨s.setPort port { s.port port with
      joined := (s.port port).joined && !(s.port port).down
      asSpare := (s.port port).asSpare || ((s.port port).down && (List.range 16).any (fun p => (s.port p).engagedFor == some port)) },
    by simp only [execPintleRetrainDone, alive, retrains, Bool.and_self, if_true, serves], by rw [State.port_setPort_same]⟩

theorem execPintleRetrainDone_fails (retrains : (s.port port).retraining = true) (fails : lanesFor lanes = none) :
    execPintleRetrainDone port lanes s = .next s := by
  simp only [execPintleRetrainDone, alive, retrains, Bool.and_self, if_true, fails]

theorem execPortDownTimeout_retraining (trained : (s.port port).trained = true) (retrains : (s.port port).retraining = true)
    (due : (s.port port).since + resendBound < s.now) :
    execPortDownTimeout port s = .next (if (s.port port).down then s.setPort port { s.port port with retraining := false, since := s.now }
      else s.portDown port 1) := by
  simp only [execPortDownTimeout, alive, trained, retrains, decide_eq_true due, Bool.not_true, Bool.or_self, Bool.false_eq_true, if_false,
    Bool.and_self, if_true]

theorem execPortDownTimeout_held (trained : (s.port port).trained = true) (standing : (s.port port).down = false)
    (steady : (s.port port).retraining = false) {r : Nat × Nat × PathBlk} {rest : List (Nat × Nat × PathBlk)}
    (held : (s.port port).replay = r :: rest) :
    execPortDownTimeout port s = .next (if r.2.1 + resendBound < s.now then s.portDown port 0 else s) := by
  simp only [execPortDownTimeout, alive, trained, standing, steady, held, Bool.not_true, Bool.or_self, Bool.false_eq_true, if_false,
    Bool.false_and, Bool.not_false, Bool.true_and, decide_eq_true_eq]

theorem execPortRetrainRetry_of (down : (s.port port).down = true) (idle : (s.port port).retraining = false) :
    execPortRetrainRetry port s = .next (if (s.port port).since + 2500000 ≤ s.now then s.portRetrain port else s) := by
  simp only [execPortRetrainRetry, alive, down, idle, Bool.not_false, Bool.and_self, Bool.true_and, decide_eq_true_eq]
  exact (apply_ite Host.Outcome.next _ _ _).symm

end

section
variable {s : State} {port : Nat}

/-- Once an image is loaded, a write of PTL_P_CTL can only ask for a retraining (R14, R735). -/
theorem execPtlRetrainReq_loaded (serves : s.serving = true) (inRange : port < 16) (loaded : s.flag RF.WRD_STAT_LOADED = true) (v : Word) :
    execPtlRetrainReq port v s = .next (if natBit v.toNat 31 && (s.port port).up then s.portRetrain port else s) := by
  simp only [execPtlRetrainReq, serves, decide_eq_true inRange, Bool.and_self, if_true, loaded]

theorem execPtlRetrainReq_unloaded (serves : s.serving = true) (inRange : port < 16) (unloaded : s.flag RF.WRD_STAT_LOADED = false) (v : Word)
    (quiet : natBit v.toNat 31 = false) :
    execPtlRetrainReq port v s
      = .next ((s.setFld (RF.PTL_P_CTL_REPLAY_LIMIT port) (natBits v.toNat 8 8)).setFld (RF.PTL_P_CTL_ACK_TO port) (v.toNat % 256)) := by
  simp only [execPtlRetrainReq, serves, decide_eq_true inRange, Bool.and_self, if_true, unloaded, quiet, Bool.false_and, Bool.false_eq_true, if_false]

end

/-! ### The path layer -/

theorem State.pathOpen_noEpoch {s : State} (unset : s.epoch = 0) (l : Nat) (bs : List Byte) : s.pathOpen l bs = none := if_pos unset

section
variable {s : State} (rx : Nat) {data body : List Byte}

theorem State.pathTake_misrouted (other : dNat data 8 4 ≠ s.phys) : s.pathTake rx data = s.bump RF.PTL_MISROUTE_COUNT := by
  simp only [State.pathTake, beq_false_of_ne other, Bool.not_false, if_true]

variable (here : dNat data 8 4 = s.phys)
include here

theorem State.pathTake_unknown (unknown : s.senderOf (dNat data 12 4) (dNat data 16 2) = none) : s.pathTake rx data = s.bump RF.PTL_UNKNOWN_COUNT := by
  simp only [State.pathTake, here, beq_self_eq_true, Bool.not_true, Bool.false_eq_true, if_false, unknown]

variable {l : Nat} (known : s.senderOf (dNat data 12 4) (dNat data 16 2) = some l)
include known

theorem State.pathTake_quarantined (held : s.quarantined l = true) : s.pathTake rx data = s.bump RF.PTL_STALE_COUNT := by
  simp only [State.pathTake, here, beq_self_eq_true, Bool.not_true, Bool.false_eq_true, if_false, known, held, if_true]

variable (free : s.quarantined l = false)
include free

theorem State.pathTake_unopened (unopened : s.pathOpen l data = none) :
    s.pathTake rx data = s.bump (if s.epoch = 0 ∨ dNat data 18 2 ≠ s.epoch then RF.PTL_STALE_COUNT else RF.PTL_AUTHFAIL_COUNT) := by
  simp only [State.pathTake, here, beq_self_eq_true, Bool.not_true, Bool.false_eq_true, if_false, known, free, unopened]

variable (opened : s.pathOpen l data = some body)
include opened

theorem State.pathTake_old (old : dNat data 20 7 ≤ (s.peer l).mark) : s.pathTake rx data = s.bump RF.PTL_DUP_COUNT := by
  simp only [State.pathTake, here, beq_self_eq_true, Bool.not_true, Bool.false_eq_true, if_false, known, free, opened, if_pos old]

/-- The state in which a block of a peer has been accepted (R745). -/
def State.accepted (s : State) (l : Nat) (data : List Byte) : State :=
  s.setPeer l { s.peer l with mark := dNat data 20 7, lastAccept := s.now }

variable (newer : (s.peer l).mark < dNat data 20 7)
include newer

/-- An accepted request whose OP is one waits to be served; another one is refused. -/
theorem State.pathTake_request (request : natBits (dNat data 4 1) 3 2 = 0) :
    s.pathTake rx data = if (parseBody l 0 body).kind ≤ 4 then
        { s.accepted l data with ptl := { (s.accepted l data).ptl with
          inbox := (s.accepted l data).ptl.inbox ++ [{ parseBody l 0 body with at_ := s.now, rx := rx }] } }
      else (s.accepted l data).refuseReq (parseBody l 0 body) 6 := by
  simp only [State.pathTake, here, beq_self_eq_true, Bool.not_true, Bool.false_eq_true, if_false, known, free, opened, if_neg (Nat.not_le.mpr newer),
    request, if_true, Bool.not_eq_true', decide_eq_false_iff_not, ite_not]
  rfl

/-- An accepted response whose OP is one waits to be served; another one is dropped. -/
theorem State.pathTake_response (response : natBits (dNat data 4 1) 3 2 ≠ 0) :
    s.pathTake rx data = if 8 ≤ (parseBody l (natBits (dNat data 4 1) 3 2) body).kind ∧ (parseBody l (natBits (dNat data 4 1) 3 2) body).kind ≤ 11 then
        { s.accepted l data with ptl := { (s.accepted l data).ptl with
          inbox := (s.accepted l data).ptl.inbox ++ [{ parseBody l (natBits (dNat data 4 1) 3 2) body with at_ := s.now, rx := rx }] } }
      else s.accepted l data := by
  simp only [State.pathTake, here, beq_self_eq_true, Bool.not_true, Bool.false_eq_true, if_false, known, free, opened, if_neg (Nat.not_le.mpr newer),
    if_neg response, Bool.not_eq_true', Bool.and_eq_false_iff, decide_eq_false_iff_not, ← not_and_or, ite_not]
  rfl

end

/-! ### Sending, the address map and pair keys -/

section
variable {s : State} {b : PathBlk}

theorem State.pathSend_quarantined (held : s.quarantined b.peer = true) : s.pathSend b = none := by
  rw [State.pathSend]
  split
  · rfl
  · rw [if_pos (by rw [held, Bool.or_true])]

/-- The state in which a block takes its peer's next counter, with its key the latest used (R742, R744). -/
def State.takeCounter (s : State) (p peer : Nat) : State :=
  (State.setPeer { s with ptl := { s.ptl with keyCache := keyOf p peer :: s.ptl.keyCache.erase (keyOf p peer) } } peer
    { s.peer peer with sendCtr := (s.peer peer).sendCtr + 1 }).bump64 (RF.PTL_P_TXBLK_COUNT_LO p) (RF.PTL_P_TXBLK_COUNT_HI p) 1

theorem State.peer_takeCounter (s : State) (p peer : Nat) : (s.takeCounter p peer).peer peer = { s.peer peer with sendCtr := (s.peer peer).sendCtr + 1 } := by
  rw [State.takeCounter, State.peer, State.bump64_ptl]
  exact State.peer_setPeer_same ..

theorem State.keyCache_takeCounter (s : State) (p peer : Nat) :
    (s.takeCounter p peer).ptl.keyCache = keyOf p peer :: s.ptl.keyCache.erase (keyOf p peer) := by
  rw [State.takeCounter, State.bump64_ptl, State.setPeer]

/-- A block with its destination, its epoch and its counter. -/
def State.addressed (s : State) (b : PathBlk) : PathBlk := { b with dst := s.mapPhys b.peer, epoch := s.epoch, ctr := (s.peer b.peer).sendCtr }

theorem State.pathSend_leaves {p : Nat} (routed : s.portFor (s.mapPhys b.peer) = some p) (set' : s.epoch ≠ 0) (free : s.quarantined b.peer = false)
    (counter : (s.peer b.peer).sendCtr < 2 ^ 56) (cached : s.ptl.keyCache.contains (keyOf p b.peer) = true)
    (able : s.canSend p (s.addressed b) = true) :
    s.pathSend b = some ((s.takeCounter p b.peer).hopSend p { s.addressed b with wire := (s.takeCounter p b.peer).pathWire (s.addressed b) }) := by
  simp only [State.addressed] at able
  simp only [State.pathSend, routed, decide_eq_false set', free, Bool.or_self, Bool.false_eq_true, if_false, if_neg (Nat.not_le.mpr counter), cached,
    able, Bool.not_true]
  rfl

theorem State.issueReq_quarantined {q : RemReq} (fresh : q.issued = none) (held : s.quarantined q.peer = true) :
    s.issueReq q = (s.failReq q 0x0F06 (detailOf [(52, 2, q.peer)]) 0 0, none) := by
  simp only [State.issueReq, fresh, Option.isSome_none, held, Bool.or_true, Bool.false_eq_true, if_false, if_true]

theorem State.noteMapWrite_renames {entry n : Nat} (fresh : Bool) (renamed : s.deviceId entry ≠ n) :
    s.noteMapWrite entry n fresh = { s with ptl := { s.ptl with renamed := s.ptl.renamed.insert entry } } := if_neg renamed

theorem State.noteMapWrite_quarantines {entry : Nat} {fresh : Bool} (unmoved : fresh = false ∨ entry ∉ s.ptl.renamed) :
    (s.noteMapWrite entry (s.deviceId entry) fresh).quarantined entry = true := by
  have unmoved' : ¬ (fresh && s.ptl.renamed.contains entry) = true := by
    rcases unmoved with old | new
    · simp only [old, Bool.false_and, Bool.false_eq_true, not_false_iff]
    · simp only [List.contains_iff_mem, Bool.and_eq_true, new, and_false, not_false_iff]
  rw [State.noteMapWrite, if_pos rfl, if_neg unmoved', State.quarantined]
  exact List.contains_iff_mem.mpr (List.mem_insert_self ..)

end

section
variable {s t : State} {n : Nat} (alive : s.alive = true)
include alive

section
variable {b : PathBlk} (waits : s.ptl.outBlks[n]? = some b) (first : s.ptl.outBlks.find? (fun x => x.peer == b.peer) = some b)
include waits first

theorem execPintleBlockSend_response (leaves : s.pathSend b = some t) (counter : (s.peer b.peer).sendCtr < 2 ^ 56) :
    execPintleBlockSend false n s = .next { t with ptl := { t.ptl with outBlks := t.ptl.outBlks.erase b } } := by
  simp only [execPintleBlockSend, alive, Bool.not_true, Bool.false_eq_true, if_false, waits, first, bne_self_eq_false, leaves, if_pos counter]

theorem execPintleBlockSend_responseWaits (held : s.pathSend b = none) : execPintleBlockSend false n s = .next s := by
  simp only [execPintleBlockSend, alive, Bool.not_true, Bool.false_eq_true, if_false, waits, first, bne_self_eq_false, held]

end

section
variable {q q' : RemReq} (waits : s.ptl.reqs[n]? = some q) (unsent : q.sent = false)
  (first : s.ptl.reqs.find? (fun x => x.peer == q.peer && !x.sent) = some q)
include waits unsent first

theorem execPintleBlockSend_request {u : State} (issues : s.issueReq q = (t, some q')) (leaves : t.pathSend q'.block = some u)
    (counter : (t.peer q.peer).sendCtr < 2 ^ 56) : execPintleBlockSend true n s = .next (u.setReq q' { q' with sent := true }) := by
  simp only [execPintleBlockSend, alive, Bool.not_true, Bool.false_eq_true, if_false, if_true, waits, unsent, first, bne_self_eq_false, Bool.or_self,
    issues, leaves, if_pos counter]

theorem execPintleBlockSend_requestWaits (issues : s.issueReq q = (t, some q')) (held : t.pathSend q'.block = none) :
    execPintleBlockSend true n s = .next t := by
  simp only [execPintleBlockSend, alive, Bool.not_true, Bool.false_eq_true, if_false, if_true, waits, unsent, first, bne_self_eq_false, Bool.or_self,
    issues, held]

theorem execPintleBlockSend_unissued (unissued : s.issueReq q = (t, none)) : execPintleBlockSend true n s = .next t := by
  simp only [execPintleBlockSend, alive, Bool.not_true, Bool.false_eq_true, if_false, if_true, waits, unsent, first, bne_self_eq_false, Bool.or_self,
    unissued]

end

theorem execAddressMapWrite_of (runs : s.boot.fwRunning = true) {entry word : Nat} (entry' : entry < 65535) (word' : word < 4) (v : Word) :
    execAddressMapWrite entry word v s
      = .next ((((s.setReg (0xF00000 + 16 * entry + 4 * word) (if word = 3 then v &&& 1 else v)).noteMapWrite entry (s.deviceId entry)
          (s.peer entry == {})).forgetPeers (fun l => l == entry)).resetPeers (fun l => l == entry) 0) := by
  simp only [execAddressMapWrite, State.serving_of alive runs, decide_eq_true entry', decide_eq_true word', Bool.and_self, if_true]

/-- A derived pair key becomes the latest used of its P-die's cache. -/
theorem execPairKeyDerived_caches {leaf peer : Nat} (leaf' : leaf < 2) (peer' : peer < 65535) (mapped : s.mapValid peer = true) (set' : s.epoch ≠ 0)
    (uncached : s.ptl.keyCache.contains (65536 * leaf + peer) = false) :
    ∃ u, execPairKeyDerived leaf peer s = .next u ∧ u.ptl.keyCache.head? = some (65536 * leaf + peer) := by
  simp only [execPairKeyDerived, alive, decide_eq_true leaf', decide_eq_true peer', mapped, beq_false_of_ne set', uncached, Bool.not_false, Bool.and_self,
    if_true]
  exact ⟨_, rfl, rfl⟩

end

end Sys2Proof.Machine
end

section
/-! The family of Pintle: ports and the path layer. -/

open Sys2Proof Sys2Proof.Machine
namespace Sys2Proof.Claims

/-- Settles O45: the commands of a port and the checks of a block, in their order. -/
theorem pintlePorts : Obligations.PintlePorts := by
  intro s t port lanes m n rx leaf peer entry word fresh data body v b q q' alive inRange
  rw [exec_portTrained, exec_hello, exec_pintleBlockReceive, exec_pintleBlockSend, exec_pintleBlockSend, exec_pintleAckTimeout, exec_pintleRetrainDone,
    exec_portDownTimeout, exec_portRetrainRetry, exec_ptlRetrainReq, exec_addressMapWrite, exec_pairKeyDerived]
  refine ⟨fun loaded used untrained => execPortTrained_of alive inRange loaded used untrained,
    fun up whole hello => ⟨fun takes => execHello_of alive inRange up whole hello takes, fun takes => execHello_of alive inRange up whole hello takes⟩,
    fun up whole path => ⟨fun takes => ?accepts, fun takes => execPintleBlockReceive_unaccepted alive inRange up whole (Nat.ne_of_lt path) takes⟩,
    fun up whole path bad => ⟨_, execPintleBlockReceive_unaccepted alive inRange up whole path (s.hopTake_badCrc port data bad), ?nak, ?inbox,
      State.fld_crcErr_bump_setPort ..⟩,
    fun other => State.pathTake_misrouted rx other, fun here unknown => State.pathTake_unknown rx here unknown,
    fun l here known => ⟨fun held => State.pathTake_quarantined rx here known held, fun free unopened stale => ?stale, fun free unopened set' current => ?unauthentic,
      fun free opened old => State.pathTake_old rx here known free opened old, fun free opened newer => ⟨?mark, ?lastAccept, fun served => ?waits, fun request unknown => ?refused, fun response unknown => ?dropped⟩⟩,
    fun unset => State.pathOpen_noEpoch unset _ _,
    fun waits first => ⟨fun leaves counter => execPintleBlockSend_response alive waits first leaves counter,
      fun held => execPintleBlockSend_responseWaits alive waits first held⟩,
    fun waits unsent first => ⟨fun u issues leaves counter => execPintleBlockSend_request alive waits unsent first issues leaves counter,
      fun issues held => execPintleBlockSend_requestWaits alive waits unsent first issues held,
      fun unissued => execPintleBlockSend_unissued alive waits unsent first unissued⟩,
    fun p routed set' free counter cached able => ⟨_, State.pathSend_leaves routed set' free counter cached able, ?counted, ?cached⟩,
    fun up held => ⟨fun due => execPintleAckTimeout_due alive up held due, fun early => execPintleAckTimeout_early early⟩,
    fun retrains => ⟨fun serves => execPintleRetrainDone_serves alive retrains serves, fun fails => execPintleRetrainDone_fails alive retrains fails⟩,
    fun trained retrains due => execPortDownTimeout_retraining alive trained retrains due,
    fun r rest trained standing steady held => ⟨fun due => ?oldest, fun early => ?younger⟩,
    fun down idle => ⟨fun due => ?retries, fun early => ?pauses⟩,
    fun runs loaded => ⟨fun asked up => ?asks, fun not' => ?asksNot⟩,
    fun runs unloaded quiet => execPtlRetrainReq_unloaded (State.serving_of alive runs) inRange unloaded v quiet,
    fun runs entry' word' => execAddressMapWrite_of alive runs entry' word' v,
    fun renamed => State.noteMapWrite_renames fresh renamed, fun unmoved => State.noteMapWrite_quarantines unmoved,
    fun fresh held => State.issueReq_quarantined fresh held, fun held => State.pathSend_quarantined held,
    fun leaf' peer' mapped set' uncached => execPairKeyDerived_caches alive leaf' peer' mapped set' uncached⟩
  case accepts =>
    refine (execPintleBlockReceive_of alive inRange up whole (Nat.ne_of_lt path) takes).trans ?_
    rw [decide_eq_true path, Bool.and_self, if_pos rfl]
  case nak => exact (State.port_bump _ _ _).trans (State.port_setPort_same ..)
  case inbox => rw [State.bump_ptl, State.ptl_setPort]
  case stale => exact (State.pathTake_unopened rx here known free unopened).trans (by rw [if_pos stale])
  case unauthentic =>
    exact (State.pathTake_unopened rx here known free unopened).trans (by rw [if_neg (fun h => h.elim set' (fun h => h current))])
  case mark => rw [State.peer_setPeer_same]
  case lastAccept => rw [State.peer_setPeer_same]
  case waits =>
    rcases served with ⟨request, kind⟩ | ⟨response, kind⟩
    · rw [request] at kind ⊢
      exact (State.pathTake_request rx here known free opened newer request).trans (if_pos kind)
    · exact (State.pathTake_response rx here known free opened newer response).trans (if_pos kind)
  case refused =>
    rw [request] at unknown ⊢
    exact (State.pathTake_request rx here known free opened newer request).trans (if_neg (Nat.not_le.mpr unknown))
  case dropped =>
    exact (State.pathTake_response rx here known free opened newer response).trans (if_neg (by omega))
  case counted =>
    rw [State.peer_eq_of_peers (State.ptl_hopSend _ _ _).1, State.peer_takeCounter]
  case cached =>
    rw [(State.ptl_hopSend _ _ _).2, State.keyCache_takeCounter, List.head?_cons]
  case oldest => exact (execPortDownTimeout_held alive trained standing steady held).trans (by rw [if_pos due])
  case younger => exact (execPortDownTimeout_held alive trained standing steady held).trans (by rw [if_neg (Nat.not_lt.mpr early)])
  case retries => exact (execPortRetrainRetry_of alive down idle).trans (by rw [if_pos due])
  case pauses => exact (execPortRetrainRetry_of alive down idle).trans (by rw [if_neg (Nat.not_le.mpr early)])
  case asks =>
    exact (execPtlRetrainReq_loaded (State.serving_of alive runs) inRange loaded v).trans (by rw [asked, up, Bool.and_self, if_pos rfl])
  case asksNot =>
    refine (execPtlRetrainReq_loaded (State.serving_of alive runs) inRange loaded v).trans ?_
    have quiet : (natBit v.toNat 31 && (s.port port).up) = false := Bool.and_eq_false_iff.mpr not'
    rw [quiet, if_neg Bool.false_ne_true]

end Sys2Proof.Claims
end

section
/-! SUPPORT. Requests and responses between devices (R633, R634, R664, R749 to R757): what serving one leads to, per outcome of its checks. -/

open Sys2Proof
namespace Sys2Proof.Machine

theorem exec_read (n : Nat) (s : State) : exec (.read n) s = execRead n s := rfl
theorem exec_write (n : Nat) (s : State) : exec (.write n) s = execWrite n s := rfl
theorem exec_atomic (n : Nat) (s : State) : exec (.atomic n) s = execAtomic n s := rfl
theorem exec_reduce (n : Nat) (s : State) : exec (.reduce n) s = execReduce n s := rfl
theorem exec_arrive (n : Nat) (s : State) : exec (.arrive n) s = execArrive n s := rfl
theorem exec_rdData (n : Nat) (s : State) : exec (.rdData n) s = execRdData n s := rfl
theorem exec_atomicData (n : Nat) (s : State) : exec (.atomicData n) s = execAtomicData n s := rfl
theorem exec_ack (n : Nat) (s : State) : exec (.ack n) s = execAck n s := rfl
theorem exec_refuse (n : Nat) (s : State) : exec (.refuse n) s = execRefuse n s := rfl
theorem exec_responseTimeout (n : Nat) (s : State) : exec (.responseTimeout n) s = execResponseTimeout n s := rfl

section
variable {s w : State} {n : Nat} {b : PathBlk} (waits : s.ptl.inbox[n]? = some b) (alive : s.alive = true)
include waits alive

/-! ### Requests -/

section
variable {op size access : Nat} {bad : PathBlk → Bool} {run : State → PathBlk → WinEnt → Nat → State} (vc : b.vc = 0) (kind : b.kind = op)
include vc kind

theorem State.serveReq_malformed (malformed : bad b = true) : s.serveReq n op size access bad run = (s.takeIn b).refuseReq b 6 := by
  simp only [State.serveReq, waits, alive, vc, kind, malformed, beq_self_eq_true, Bool.and_self, Bool.not_true, Bool.false_eq_true, if_false, if_true]

variable (wellFormed : bad b = false) {c : Nat} (width : (if size = 0 then b.size else size) = c)
include wellFormed width

theorem State.serveReq_waits (held : s.winCheck b c access = .wait) : s.serveReq n op size access bad run = s.noteIn b c access := by
  simp only [State.serveReq, waits, alive, vc, kind, wellFormed, beq_self_eq_true, Bool.and_self, Bool.not_true, Bool.false_eq_true, if_false, width, held]

section
variable {r : Nat} (refuses : s.winCheck b c access = .refuse r)
include refuses

theorem State.serveReq_refused (r' : r < 4) : s.serveReq n op size access bad run = s.refuseIn b r := by
  simp only [State.serveReq, waits, alive, vc, kind, wellFormed, beq_self_eq_true, Bool.and_self, Bool.not_true, Bool.false_eq_true, if_false, width,
    refuses, if_pos r']

/-- What the translation refuses, the range cache answers first. -/
theorem State.serveReq_unmapped (r' : 4 ≤ r) (hit : s.lookWindow b = (w, true)) : s.serveReq n op size access bad run = w.refuseIn b r := by
  simp only [State.serveReq, waits, alive, vc, kind, wellFormed, beq_self_eq_true, Bool.and_self, Bool.not_true, Bool.false_eq_true, if_false, width,
    refuses, if_neg (Nat.not_lt.mpr r'), hit]

end

variable {e : WinEnt} {va : Nat} (passes : s.winCheck b c access = .ok e va)
include passes

theorem State.serveReq_runs (hit : s.lookWindow b = (w, true)) : s.serveReq n op size access bad run = run (w.takeIn b) b e va := by
  simp only [State.serveReq, waits, alive, vc, kind, wellFormed, beq_self_eq_true, Bool.and_self, Bool.not_true, Bool.false_eq_true, if_false, width,
    passes, hit]

theorem State.serveReq_misses (miss : s.lookWindow b = (w, false)) : s.serveReq n op size access bad run = w := by
  simp only [State.serveReq, waits, alive, vc, kind, wellFormed, beq_self_eq_true, Bool.and_self, Bool.not_true, Bool.false_eq_true, if_false, width,
    passes, miss]

end

theorem execArrive_of (vc : b.vc = 0) (kind : b.kind = 4) :
    execArrive n s = .next (if ((s.takeIn b).tmbAt b.tmb).remote then
        (if ((s.takeIn b).tmbArrive b.tmb b.weight).2
          then ((s.takeIn b).tmbArrive b.tmb b.weight).1.respond { peer := b.peer, vc := 1, kind := 9, tag := b.tag }
          else ((s.takeIn b).tmbArrive b.tmb b.weight).1.refuseReq b 5)
      else (((s.takeIn b).tmbRefused b.tmb).emit { code := 0x0D02, detail := detailOf [(52, 2, b.tmb), (54, 2, b.peer), (56, 1, 1)] }).refuseReq b 5) := by
  simp only [execArrive, waits, alive, vc, kind, beq_self_eq_true, Bool.and_self, Bool.not_true, Bool.false_eq_true, if_false]
  exact (apply_ite Host.Outcome.next _ _ _).symm

/-! ### Responses -/

section
variable {kind : Nat} {ops : List Nat} {run : State → PathBlk → RemReq → State} (vc : b.vc = 1) (kind' : b.kind = kind)
include vc kind'

theorem State.answer_late (late : (s.takeIn b).ptl.reqs.find? (fun q => q.sent && q.tag == b.tag && q.peer == b.peer && ops.contains q.op) = none) :
    s.answer n kind ops run = (s.takeIn b).bump RF.PTL_LATE_COUNT := by
  simp only [State.answer, waits, alive, vc, kind', beq_self_eq_true, Bool.and_self, Bool.not_true, Bool.false_eq_true, if_false, late]

theorem State.answer_runs {q : RemReq}
    (asked : (s.takeIn b).ptl.reqs.find? (fun q => q.sent && q.tag == b.tag && q.peer == b.peer && ops.contains q.op) = some q) :
    s.answer n kind ops run = run (s.takeIn b) b q := by
  simp only [State.answer, waits, alive, vc, kind', beq_self_eq_true, Bool.and_self, Bool.not_true, Bool.false_eq_true, if_false, asked]

end

end

/-! ### Timeouts -/

/-- Has the response of a request arrived? -/
def State.answered (s : State) (q : RemReq) : Bool := s.ptl.inbox.any (fun b => b.vc == 1 && b.tag == q.tag && b.peer == q.peer)

theorem execResponseTimeout_of {s : State} {p k : Nat} {q : RemReq} (alive : s.alive = true) (asked : s.ptl.reqs[p]? = some q) (issued : q.issued = some k) :
    execResponseTimeout p s = .next (if max k (s.peer q.peer).lastAccept + 2500 * max 80 (s.fld RF.PTL_CTL_RSP_TO) < s.now ∧ s.answered q = false
      then (s.bump RF.PTL_TIMEOUT_COUNT).failReq q 0x0F01 (detailOf [(52, 2, q.peer), (54, 1, q.op), (56, 4, (s.now - k) / 2500)]) 1 0 else s) := by
  simp only [execResponseTimeout, asked, issued, alive, Bool.true_and, Bool.and_eq_true, Bool.not_eq_true', decide_eq_true_eq, State.answered,
    and_comm (a := max k (s.peer q.peer).lastAccept + 2500 * max 80 (s.fld RF.PTL_CTL_RSP_TO) < s.now)]
  exact (apply_ite Host.Outcome.next _ _ _).symm

end Sys2Proof.Machine
end

section
/-! The family of Pintle: requests and responses. -/

open Sys2Proof Sys2Proof.Machine
namespace Sys2Proof.Claims

/-- Settles O46: each request by its checks, in their order, and each response by the request it answers. -/
theorem pintleRequests : Obligations.PintleRequests := by
  intro s w t n va id lane k b e q bs bad a l waits alive i j
  rw [exec_read, exec_write, exec_atomic, exec_reduce, exec_arrive, exec_rdData, exec_atomicData, exec_ack, exec_refuse]
  refine ⟨fun vc kind wellFormed passes hit reads => ?read, fun vc kind wellFormed passes hit => ?write,
    fun r c old vc kind wellFormed c' wide passes hit range atomic => ?atomic, fun vc kind wellFormed passes hit => ?reduce,
    fun vc => ⟨fun kind wellFormed passes miss => ?readMiss, fun kind wellFormed passes miss => ?writeMiss, fun kind wellFormed passes miss => ?reduceMiss⟩,
    fun r vc => ⟨fun kind wellFormed refuses r' => ?readRefused, fun kind wellFormed refuses r' hit => ?readUnmapped, fun kind wellFormed refuses r' => ?writeRefused,
      fun kind wellFormed refuses r' => ?reduceRefused⟩,
    fun vc kind wellFormed held => ?readWaits, fun vc kind wellFormed held => ?writeWaits, fun vc kind malformed => ?readBad, fun vc kind malformed => ?writeBad,
    fun vc kind malformed => ?atomicBad, fun vc kind malformed => ?reduceBad, fun vc kind remote => ⟨fun arrives => ?arrives, fun refuses => ?refuses⟩,
    fun vc kind local' => ?unremote, fun vc asked who kind acc lane' => ⟨fun whole => ?loaded, fun store masked clean => ?merged⟩,
    fun c vc kind asked who clean => ?copied, fun vc asked who kind acc lane' => ?atomicData, fun vc asked who kind acc lane' => ?acked,
    fun c vc kind asked who => ?copyAcked, fun vc kind asked => ?refused,
    fun vc => ⟨fun kind late => ?lateData, fun kind late => ?lateAtomic, fun kind late => ?lateAck, fun kind late => ?lateRefusal⟩,
    fun p asked issued => ⟨fun due unanswered => ?timesOut, fun not' => ?notYet⟩⟩
  case read =>
    simp only [j] at reads
    rw [execRead, State.serveReq_runs waits alive vc kind wellFormed (if_pos rfl) passes hit]
    simp only [reads]
  case write => rw [execWrite, State.serveReq_runs waits alive vc kind wellFormed (if_pos rfl) passes hit]
  case atomic =>
    subst c'
    simp only [j] at range atomic
    simp only [execAtomic, waits, State.serveReq_runs waits alive vc kind wellFormed (if_neg wide) passes hit, range, atomic]
  case reduce => rw [execReduce, State.serveReq_runs waits alive vc kind wellFormed (if_pos rfl) passes hit]
  case readMiss => rw [execRead, State.serveReq_misses waits alive vc kind wellFormed (if_pos rfl) passes miss]
  case writeMiss => rw [execWrite, State.serveReq_misses waits alive vc kind wellFormed (if_pos rfl) passes miss]
  case reduceMiss => rw [execReduce, State.serveReq_misses waits alive vc kind wellFormed (if_pos rfl) passes miss]
  case readRefused => rw [execRead, State.serveReq_refused waits alive vc kind wellFormed (if_pos rfl) refuses r', State.refuseIn]
  case readUnmapped => rw [execRead, State.serveReq_unmapped waits alive vc kind wellFormed (if_pos rfl) refuses r' hit, State.refuseIn]
  case writeRefused => rw [execWrite, State.serveReq_refused waits alive vc kind wellFormed (if_pos rfl) refuses r', State.refuseIn]
  case reduceRefused => rw [execReduce, State.serveReq_refused waits alive vc kind wellFormed (if_pos rfl) refuses r', State.refuseIn]
  case readWaits => rw [execRead, State.serveReq_waits waits alive vc kind wellFormed (if_pos rfl) held]
  case writeWaits => rw [execWrite, State.serveReq_waits waits alive vc kind wellFormed (if_pos rfl) held]
  case readBad => rw [execRead, State.serveReq_malformed waits alive vc kind malformed]
  case writeBad => rw [execWrite, State.serveReq_malformed waits alive vc kind malformed]
  case atomicBad => rw [execAtomic, State.serveReq_malformed waits alive vc kind malformed]
  case reduceBad => rw [execReduce, State.serveReq_malformed waits alive vc kind malformed]
  case arrives => rw [execArrive_of waits alive vc kind, if_pos remote, arrives, if_pos rfl]
  case refuses => rw [execArrive_of waits alive vc kind, if_pos remote, refuses, if_neg Bool.false_ne_true]
  case unremote => rw [execArrive_of waits alive vc kind, if_neg (Bool.eq_false_iff.mp local')]
  case loaded =>
    simp only [i] at acc
    have keeps : ¬ (a.kind = 1 ∧ (!l.mask.isEmpty) = true ∧ (!b.poison) = true) := by
      rintro ⟨store, masked, clean⟩
      rcases whole with other | empty | poisoned
      · exact other store
      · rw [empty] at masked; exact absurd masked (by decide)
      · rw [poisoned] at clean; exact absurd clean (by decide)
    rw [execRdData, State.answer_runs waits alive vc kind asked]
    simp only [who, acc, lane', if_neg keeps, i]
  case merged =>
    simp only [i] at acc
    have merges : a.kind = 1 ∧ (!l.mask.isEmpty) = true ∧ (!b.poison) = true :=
      ⟨store, by rw [List.isEmpty_eq_false_iff.mpr masked, Bool.not_false], by rw [clean, Bool.not_false]⟩
    rw [execRdData, State.answer_runs waits alive vc kind asked]
    simp only [who, acc, lane', if_pos merges]
    exact ⟨_, rfl, rfl⟩
  case copied =>
    rw [execRdData, State.answer_runs waits alive vc kind asked]
    simp only [who, clean, Bool.false_eq_true, if_false, i]
  case atomicData =>
    simp only [i] at acc
    rw [execAtomicData, State.answer_runs waits alive vc kind asked]
    simp only [who, acc, lane', i]
  case acked =>
    simp only [i] at acc
    rw [execAck, State.answer_runs waits alive vc kind asked]
    simp only [who, acc, lane', i]
  case copyAcked =>
    rw [execAck, State.answer_runs waits alive vc kind asked]
    simp only [who, i]
  case refused => rw [execRefuse, State.answer_runs waits alive vc kind asked]
  case lateData => rw [execRdData, State.answer_late waits alive vc kind late]
  case lateAtomic => rw [execAtomicData, State.answer_late waits alive vc kind late]
  case lateAck => rw [execAck, State.answer_late waits alive vc kind late]
  case lateRefusal => rw [execRefuse, State.answer_late waits alive vc kind late]
  case timesOut => exact (execResponseTimeout_of alive asked issued).trans (congrArg Host.Outcome.next (if_pos ⟨due, unanswered⟩))
  case notYet =>
    refine (execResponseTimeout_of alive asked issued).trans (congrArg Host.Outcome.next (if_neg ?_))
    rintro ⟨due, unanswered⟩
    exact not'.elim (Nat.not_le.mpr due) (fun answered => Bool.false_ne_true (unanswered.symm.trans answered))

end Sys2Proof.Claims
end

section
/-! SUPPORT. Power and heat (R766 to R791): counting the bubbles up to now changes its own counts alone, and what each command of the chapter leaves of
the state it acts on. -/

open Sys2Proof
namespace Sys2Proof.Machine

theorem exec_powerCapUpdate (s : State) : exec .powerCapUpdate s = execPowerCapUpdate s := rfl
theorem exec_freqChange (s : State) : exec .freqChange s = execFreqChange s := rfl
theorem exec_powerWindow (counts : List (Nat × Nat × Nat)) (s : State) : exec (.powerWindow counts) s = execPowerWindow counts s := rfl
theorem exec_avsConfirm (die : Nat) (s : State) : exec (.avsConfirm die) s = execAvsConfirm die s := rfl
theorem exec_voltRaiseTimeout (die : Nat) (s : State) : exec (.voltRaiseTimeout die) s = execVoltRaiseTimeout die s := rfl
theorem exec_droopDetect (die : Nat) (s : State) : exec (.droopDetect die) s = execDroopDetect die s := rfl
theorem exec_droopResponseEnd (die : Nat) (s : State) : exec (.droopResponseEnd die) s = execDroopResponseEnd die s := rfl
theorem exec_thermalSample (readings : List (Nat × Nat × Nat)) (s : State) : exec (.thermalSample readings) s = execThermalSample readings s := rfl
theorem exec_pwrBrakeAssert (s : State) : exec .pwrBrakeAssert s = execPwrBrakeAssert s := rfl
theorem exec_pwrBrakeDeassert (s : State) : exec .pwrBrakeDeassert s = execPwrBrakeDeassert s := rfl

theorem kvB_setB_same (m : KV Bool) (k : Nat) (b : Bool) : kvB (setB m k b) k = b := kvGet_set_same _ _ _ _
theorem kvN_setN_same (m : KV Nat) (k n : Nat) : kvN (setN m k n) k = n := kvGet_set_same _ _ _ _

/-! ### Counting bubbles -/

/-- The registers that count a die's bubbled cycles (R795). -/
def bubbleCounter (a : Nat) : Prop := ∃ d, a = RA.PWR_D_PWRCYC d ∨ a = RA.PWR_D_THERMCYC d ∨ a = RA.PWR_D_DROOPCYC d

theorem not_bubbleCounter_of {a : Nat} (other : a % 0x100 ≠ 0x14 ∧ a % 0x100 ≠ 0x18 ∧ a % 0x100 ≠ 0x1C) : ¬ bubbleCounter a := by
  rintro ⟨d, h | h | h⟩ <;> simp only [RA.PWR_D_PWRCYC, RA.PWR_D_THERMCYC, RA.PWR_D_DROOPCYC] at h <;> omega

/-- Between two states only the counts of bubbles differ. -/
structure State.CountsOnly (s t : State) : Prop where
  now : t.now = s.now
  tick : t.tick = s.tick
  pwr : ∃ bub cyc upTo, t.pwr = { s.pwr with bub := bub, droopCyc := cyc, accrued := upTo }
  reg : ∀ a, ¬ bubbleCounter a → t.reg a = s.reg a

namespace State.CountsOnly

variable {s t u : State}

theorem refl (s : State) : s.CountsOnly s := ⟨rfl, rfl, ⟨s.pwr.bub, s.pwr.droopCyc, s.pwr.accrued, rfl⟩, fun _ _ => rfl⟩

theorem trans (h : s.CountsOnly t) (k : t.CountsOnly u) : s.CountsOnly u := by
  obtain ⟨b, c, a, pwr⟩ := h.pwr
  obtain ⟨b', c', a', pwr'⟩ := k.pwr
  exact ⟨k.now.trans h.now, k.tick.trans h.tick, ⟨b', c', a', by rw [pwr', pwr]⟩, fun x hx => (k.reg x hx).trans (h.reg x hx)⟩

theorem bumpN (s : State) (f : RegField) (n : Nat) (own : bubbleCounter f.addr) : s.CountsOnly (s.bumpN f n) :=
  ⟨State.bumpN_now .., State.bumpN_tick .., ⟨s.pwr.bub, s.pwr.droopCyc, s.pwr.accrued, State.bumpN_pwr ..⟩,
    fun _ other => State.reg_bumpN_other s f n (fun h => other (h ▸ own))⟩

theorem counts (s : State) (bub cyc : KV Nat) (upTo : Nat) : s.CountsOnly { s with pwr := { s.pwr with bub := bub, droopCyc := cyc, accrued := upTo } } :=
  ⟨rfl, rfl, ⟨bub, cyc, upTo, rfl⟩, fun _ _ => by simp only [State.reg]⟩

theorem foldl {α : Type} {f : State → α → State} (each : ∀ (s : State) (x : α), s.CountsOnly (f s x)) (l : List α) (s : State) : s.CountsOnly (l.foldl f s) := by
  induction l generalizing s with
  | nil => exact refl s
  | cons x l ih => exact (each s x).trans (ih _)

theorem fld (h : s.CountsOnly t) (f : RegField) (other : ¬ bubbleCounter f.addr) : t.fld f = s.fld f := State.fld_eq_of_reg _ (h.reg _ other)

theorem flag (h : s.CountsOnly t) (f : RegField) (other : ¬ bubbleCounter f.addr) : t.flag f = s.flag f := by
  rw [State.flag, h.fld f other, State.flag]

end State.CountsOnly

theorem State.countSpan_counts (s : State) (d q a b : Nat) : s.CountsOnly (s.countSpan d q a b) := by
  rw [State.countSpan]
  refine (State.CountsOnly.counts s (setN s.pwr.bub d (kvN s.pwr.bub d + bubblesIn (max s.powerFrac (max (s.thermFrac d) q)) a b))
    s.pwr.droopCyc s.pwr.accrued).trans ?_
  split
  · exact .refl _
  · split
    · exact .bumpN _ _ _ ⟨d, .inr (.inr rfl)⟩
    · split
      · exact .bumpN _ _ _ ⟨d, .inr (.inl rfl)⟩
      · exact .bumpN _ _ _ ⟨d, .inl rfl⟩

theorem State.accrueDie_counts (s : State) (d : Nat) : s.CountsOnly (s.accrueDie d) := by
  rw [State.accrueDie]
  split
  · exact (State.CountsOnly.counts s _ _ _).trans
      (((State.countSpan_counts _ _ _ _ _).trans (State.countSpan_counts _ _ _ _ _)).trans (State.countSpan_counts _ _ _ _ _))
  · exact State.countSpan_counts _ _ _ _ _

theorem State.accrue_counts (s : State) : s.CountsOnly s.accrue := by
  rw [State.accrue]
  exact (State.CountsOnly.foldl State.accrueDie_counts _ s).trans (State.CountsOnly.counts _ _ _ _)

/-! ### The cap and the windows of the estimate -/

/-- Between two states the clock, the window of the estimate and its frame stand, and the estimate runs or not as before. -/
structure State.WindowKept (s t : State) : Prop where
  now : t.now = s.now
  start : t.pwr.winStart = s.pwr.winStart
  frameN : t.pwr.frameN = s.pwr.frameN
  running : t.flag RF.PWR_STAT_RUNNING = s.flag RF.PWR_STAT_RUNNING

theorem State.WindowKept.trans {s t u : State} (h : s.WindowKept t) (k : t.WindowKept u) : s.WindowKept u :=
  ⟨k.now.trans h.now, k.start.trans h.start, k.frameN.trans h.frameN, k.running.trans h.running⟩

theorem not_bubbleCounter_stat : ¬ bubbleCounter RF.PWR_STAT_RUNNING.addr := not_bubbleCounter_of (by decide)

theorem State.CountsOnly.windowKept {s t : State} (h : s.CountsOnly t) : s.WindowKept t := by
  obtain ⟨b, c, a, pwr⟩ := h.pwr
  exact ⟨h.now, by rw [pwr], by rw [pwr], h.flag _ not_bubbleCounter_stat⟩

theorem State.windowKept_nextFree (s : State) : s.WindowKept s.nextFree.2 :=
  ⟨State.nextFree_now s, congrArg _ (State.nextFree_pwr s), congrArg _ (State.nextFree_pwr s), State.flag_eq_of_regs (State.nextFree_regs s) _⟩

theorem State.windowKept_powerFraction (s : State) : s.WindowKept s.powerFraction.2 := by
  rw [State.powerFraction]
  by_cases none' : s.pwr.estD = 0
  · simp only [if_pos none']
    exact s.windowKept_nextFree
  · simp only [if_neg none']
    exact ⟨rfl, rfl, rfl, rfl⟩

theorem State.windowKept_setBubbleField (s : State) (n : Nat) : s.WindowKept (s.setFld RF.PWR_STAT_BUBBLE n) :=
  ⟨State.setFld_now .., congrArg _ (State.setFld_pwr ..), congrArg _ (State.setFld_pwr ..), by
    rw [State.flag, State.fld_setFld_disjoint s RF.PWR_STAT_BUBBLE RF.PWR_STAT_RUNNING n rfl (by decide) (by decide) (by decide) (by decide), State.flag]⟩

theorem State.windowKept_setBubble (s : State) : s.WindowKept s.setBubble := by
  rw [State.setBubble]
  split
  · exact ⟨rfl, rfl, rfl, rfl⟩
  · exact (s.accrue_counts.windowKept.trans (State.windowKept_powerFraction _)).trans (State.windowKept_setBubbleField _ _)

/-- The state in which the cap has taken effect, before the frame is closed (R774, R775). -/
def State.capTaken (s : State) : State :=
  let t := (s.setFld RF.PWR_CAP_CUR_WATTS s.capNow).setBubble
  { t with pwr := { t.pwr with capAt := t.now } }

theorem State.windowKept_capTaken (s : State) : s.WindowKept s.capTaken := by
  have cap : s.WindowKept (s.setFld RF.PWR_CAP_CUR_WATTS s.capNow) :=
    ⟨State.setFld_now .., congrArg _ (State.setFld_pwr ..), congrArg _ (State.setFld_pwr ..), State.flag_setFld_other _ _ _ _ (by decide)⟩
  obtain ⟨now, start, frameN, running⟩ := cap.trans (State.windowKept_setBubble _)
  rw [State.capTaken]
  exact ⟨now, start, frameN, (State.flag_eq_of_regs rfl _).trans running⟩

theorem State.capAt_capTaken (s : State) : s.capTaken.pwr.capAt = s.now := by
  rw [← s.windowKept_capTaken.now, State.capTaken]

/-- A frame of the estimate begins now. -/
def State.beginFrame (s : State) : State :=
  ({ s.frameMean with pwr := { s.frameMean.pwr with winStart := s.now } } : State).setFlag RF.PWR_STAT_RUNNING true

theorem State.frameMean_pwr (s : State) : s.frameMean.pwr = { s.pwr with frameSum := 0, frameDen := 1, frameN := 0 } := by
  rw [State.frameMean]
  split
  · rfl
  · rw [State.setFld_pwr]

theorem State.beginFrame_pwr (s : State) : s.beginFrame.pwr = { s.pwr with frameSum := 0, frameDen := 1, frameN := 0, winStart := s.now } := by
  rw [State.beginFrame, State.setFlag_pwr, State.frameMean_pwr]

theorem State.running_beginFrame (s : State) : s.beginFrame.flag RF.PWR_STAT_RUNNING = true := by
  rw [State.beginFrame, State.flag_setFlag_same _ _ _ rfl (by decide)]

section
variable {s : State} {l : Nat}

theorem execPowerCapUpdate_due (ticked : s.tick.lastTick = some l) (due : s.now = l + 96) :
    execPowerCapUpdate s = .next (if s.flag RF.PWR_STAT_RUNNING && decide (s.pwr.winStart < s.now) then s.capTaken else s.capTaken.beginFrame) := by
  obtain ⟨now, start, -, running⟩ := s.windowKept_capTaken
  rw [← now, ← start, ← running]
  simp only [execPowerCapUpdate, ticked, if_pos due]
  rfl

theorem execPowerCapUpdate_other (undue : s.tick.lastTick = none ∨ ∃ l, s.tick.lastTick = some l ∧ s.now ≠ l + 96) :
    execPowerCapUpdate s = .next s := by
  rcases undue with unticked | ⟨l, ticked, other⟩
  · simp only [execPowerCapUpdate, unticked]
  · simp only [execPowerCapUpdate, ticked, if_neg other]

theorem execFreqChange_other (undue : s.tick.lastTick = none ∨ ∃ l, s.tick.lastTick = some l ∧ s.now ≠ l + 128) :
    execFreqChange s = .next s := by
  rcases undue with unticked | ⟨l, ticked, other⟩
  · simp only [execFreqChange, unticked]
  · simp only [execFreqChange, ticked, if_neg other]

/-- A window that ends leaves the next one beginning in its cycle. -/
theorem execPowerWindow_ends (counts : List (Nat × Nat × Nat)) (running : s.flag RF.PWR_STAT_RUNNING = true) (alive : s.alive = true)
    (ends : s.now = s.pwr.winStart + 5000 ∨ (s.pwr.winStart < s.now ∧ s.tick.lastTick = some l ∧ s.now = l + 96)) :
    ∃ t, execPowerWindow counts s = .next t ∧ t.pwr.winStart = t.now := by
  have ends' : (decide (s.now = s.pwr.winStart + 5000) || (decide (s.pwr.winStart < s.now) && (match s.tick.lastTick with
      | some t => decide (s.now = t + 96)
      | none => false))) = true := by
    rcases ends with full | ⟨open', ticked, last⟩
    · rw [decide_eq_true full, Bool.true_or]
    · simp only [decide_eq_true open', ticked, decide_eq_true last, Bool.and_self, Bool.or_true]
  refine ⟨_, (if_pos ?_).trans rfl, rfl⟩
  rw [running, alive, Bool.and_self, Bool.true_and]
  exact ends'

theorem execPowerWindow_off (counts : List (Nat × Nat × Nat)) (off : s.flag RF.PWR_STAT_RUNNING = false) : execPowerWindow counts s = .next s := by
  refine (if_neg ?_).trans rfl
  rw [off, Bool.false_and, Bool.false_and]
  exact Bool.false_ne_true

end

/-! ### Frequency and voltage -/

section
variable {s : State} {l die : Nat}

theorem State.settleFreq_none (undue : s.pwr.changeDue = false) : s.settleFreq = s := by
  rw [State.settleFreq, if_neg (Bool.eq_false_iff.mp undue)]

theorem State.settleFreq_due (due : s.pwr.changeDue = true) (ticked : s.tick.lastTick = some l) :
    s.settleFreq = (List.range 8).foldl (fun s d => s.freqChangeDie l d) { s.accrue with pwr := { s.accrue.pwr with changeDue := false } } := by
  simp only [State.settleFreq, if_pos due, s.accrue_counts.tick, ticked]

theorem State.freqChangeDie_undue (undue : s.freqDue l die = false) : s.freqChangeDie l die = s := by
  rw [State.freqChangeDie, if_neg (Bool.eq_false_iff.mp undue)]

theorem State.freqChangeDie_held (due : s.freqDue l die = true) (held : s.freqFree die = false) : s.freqChangeDie l die = s.deferFreq die := by
  rw [State.freqChangeDie, if_pos due, held, Bool.not_false, if_pos rfl]

theorem State.rebaseClocks_pwr (s : State) (cs : List Nat) : (s.rebaseClocks cs).pwr = s.pwr := by
  rw [State.rebaseClocks]
  induction cs generalizing s with
  | nil => rfl
  | cons c cs ih => exact ih _

theorem State.freqChangeDie_free (due : s.freqDue l die = true) (free : s.freqFree die = true) :
    (s.freqChangeDie l die).flag (RF.PWR_D_STAT_PENDV die) = false ∧ kvN (s.freqChangeDie l die).pwr.changeAt die = s.now ∧
      kvN (s.freqChangeDie l die).pwr.oldStep die = s.fld (RF.PWR_D_STAT_BL die) := by
  rw [State.freqChangeDie, if_pos due, free, Bool.not_true, if_neg Bool.false_ne_true]
  refine ⟨State.flag_setFlag_same _ _ _ rfl (by simp only [RF.PWR_D_STAT_PENDV]; decide), ?_, ?_⟩ <;>
  · simp only [State.setFlag_pwr, State.setFld_pwr, State.rebaseClocks_pwr]
    exact kvGet_set_same _ _ _ _

end

section
variable {s : State} {die : Nat}

theorem execAvsConfirm_pending (pending : s.pendingRaise die = true) (free : s.railsHeld die = false) :
    execAvsConfirm die s = .next { s with pwr := { s.pwr with confirmed := setB s.pwr.confirmed die true } } := by
  refine (if_pos ?_).trans rfl
  rw [pending, free, Bool.not_false, Bool.and_self]

theorem execAvsConfirm_other (other : s.pendingRaise die = false ∨ s.railsHeld die = true) : execAvsConfirm die s = .next s := by
  refine (if_neg ?_).trans rfl
  rcases other with none' | held
  · rw [none', Bool.false_and]; exact Bool.false_ne_true
  · rw [held, Bool.not_true, Bool.and_false]; exact Bool.false_ne_true

theorem State.pwrRec_eq_of_boot {s t : State} (same : t.boot = s.boot) (code : Nat) (d : List (Nat × Nat × Nat)) : t.pwrRec code d = s.pwrRec code d := by
  rw [State.pwrRec, same, State.pwrRec]

/-- A raise that is not confirmed in time is called off with 0x1007 (R780). -/
theorem execVoltRaiseTimeout_due (pending : s.pendingRaise die = true) (unconfirmed : kvB s.pwr.confirmed die = false)
    (due : kvN s.pwr.pendAt die + 250000 < s.now) {u : State} (cancelled : s.setFlag (RF.PWR_D_STAT_PENDV die) false = u) :
    execVoltRaiseTimeout die s
      = .next ((if u.railsHeld die then u else u.setVolt die (u.voltFor die (u.fld (RF.PWR_D_STAT_BL die)))).emit
          (s.pwrRec 0x1007 [(52, 1, die), (53, 1, s.fld (RF.PWR_D_STAT_PEND die)), (54, 2, s.voltFor die (s.fld (RF.PWR_D_STAT_PEND die)))])) := by
  have boot : (if u.railsHeld die then u else u.setVolt die (u.voltFor die (u.fld (RF.PWR_D_STAT_BL die)))).boot = s.boot := by
    split
    · rw [← cancelled, State.setFlag_boot]
    · rw [State.setVolt, State.setFld_boot, ← cancelled, State.setFlag_boot]
  rw [← State.pwrRec_eq_of_boot boot]
  subst cancelled
  refine (if_pos ?_).trans rfl
  rw [pending, unconfirmed, decide_eq_true due, Bool.not_false, Bool.and_self, Bool.and_self]

theorem execVoltRaiseTimeout_other
    (other : s.pendingRaise die = false ∨ kvB s.pwr.confirmed die = true ∨ s.now ≤ kvN s.pwr.pendAt die + 250000) : execVoltRaiseTimeout die s = .next s := by
  refine (if_neg ?_).trans rfl
  rcases other with none' | confirmed | early
  · rw [none', Bool.false_and, Bool.false_and]; exact Bool.false_ne_true
  · rw [confirmed, Bool.not_true, Bool.and_false, Bool.false_and]; exact Bool.false_ne_true
  · rw [decide_eq_false (Nat.not_lt.mpr early), Bool.and_false]; exact Bool.false_ne_true

end

/-! ### Droop -/

section
variable {s : State} {die : Nat}

theorem not_bubbleCounter_dieStat (die : Nat) : ¬ bubbleCounter (RA.PWR_D_STAT die) :=
  not_bubbleCounter_of (by simp only [RA.PWR_D_STAT]; omega)

/-- The state in which a firing of a die's detector has begun a response, unless one stands (R781). -/
def State.droopCounted (s : State) (die : Nat) : State :=
  if s.accrue.flag (RF.PWR_D_STAT_DROOP die) && decide (s.accrue.now ≤ s.accrue.droopEnd die) then s.accrue
  else (s.accrue.setFlag (RF.PWR_D_STAT_DROOP die) true).bump (RF.PWR_D_DROOPS_COUNT die)

/-- The state in which a firing of a die's detector has been noted. -/
def State.droopNoted (s : State) (die : Nat) : State :=
  { s.droopCounted die with pwr := { (s.droopCounted die).pwr with
    droopSeen := setB (s.droopCounted die).pwr.droopSeen die true
    droopLast := setN (s.droopCounted die).pwr.droopLast die (s.droopCounted die).now } }

theorem State.droopCounted_now (s : State) (die : Nat) : (s.droopCounted die).now = s.now := by
  rw [State.droopCounted, ← s.accrue_counts.now]
  split
  · rfl
  · rw [State.bump_now, State.setFlag_now]

theorem State.droopCounted_pwr (s : State) (die : Nat) : (s.droopCounted die).pwr = s.accrue.pwr := by
  rw [State.droopCounted]
  split
  · rfl
  · rw [State.bump_pwr, State.setFlag_pwr]

theorem State.droopNoted_now (s : State) (die : Nat) : (s.droopNoted die).now = s.now := s.droopCounted_now die

theorem State.droopNoted_pwr (s : State) (die : Nat) :
    (s.droopNoted die).pwr.raised = s.pwr.raised ∧ (s.droopNoted die).pwr.changeAt = s.pwr.changeAt := by
  obtain ⟨b, c, a, pwr⟩ := s.accrue_counts.pwr
  simp only [State.droopNoted, State.droopCounted_pwr, pwr, and_self]

theorem State.droopLast_droopNoted (s : State) (die : Nat) : kvN (s.droopNoted die).pwr.droopLast die = s.now := by
  rw [← s.droopCounted_now die, State.droopNoted, kvN_setN_same]

theorem State.droopSeen_droopNoted (s : State) (die : Nat) : kvB (s.droopNoted die).pwr.droopSeen die = true := by
  rw [State.droopNoted, kvB_setB_same]

theorem State.droop_droopNoted (s : State) (die : Nat) (fresh : s.flag (RF.PWR_D_STAT_DROOP die) = false) :
    (s.droopNoted die).flag (RF.PWR_D_STAT_DROOP die) = true := by
  have idle : s.accrue.flag (RF.PWR_D_STAT_DROOP die) = false := (s.accrue_counts.flag _ (not_bubbleCounter_dieStat die)).trans fresh
  have noted : (s.droopNoted die).flag (RF.PWR_D_STAT_DROOP die) = (s.droopCounted die).flag (RF.PWR_D_STAT_DROOP die) :=
    State.flag_eq_of_regs rfl _
  have apart : (RF.PWR_D_STAT_DROOP die).addr ≠ (RF.PWR_D_DROOPS_COUNT die).addr := by
    simp only [RF.PWR_D_STAT_DROOP, RF.PWR_D_DROOPS_COUNT, RA.PWR_D_STAT, RA.PWR_D_DROOPS]
    omega
  rw [noted, State.droopCounted, idle, Bool.false_and, if_neg Bool.false_ne_true, State.bump, State.bumpN, State.flag_setFld_other _ _ _ _ apart,
    State.flag_setFlag_same _ _ _ rfl (by simp only [RF.PWR_D_STAT_DROOP]; decide)]

/-- The state in which a raise has been called off by a droop: the old step holds again, the new one is pending once more (R782). -/
def State.raiseCalledOff (s : State) (die : Nat) : State :=
  let t : State := { s with pwr := { s.pwr with raised := setB s.pwr.raised die false } }
  let t := t.rebaseClocks (dieCores die)
  (t.setFld (RF.PWR_D_STAT_BL die) (kvN t.pwr.oldStep die)).setFld (RF.PWR_D_STAT_PEND die) (s.fld (RF.PWR_D_STAT_BL die))

theorem State.raiseCalledOff_pwr (s : State) (die : Nat) : (s.raiseCalledOff die).pwr = { s.pwr with raised := setB s.pwr.raised die false } := by
  rw [State.raiseCalledOff, State.setFld_pwr, State.setFld_pwr, State.rebaseClocks_pwr]

variable (alive : s.alive = true) (inRange : die < 8)
include alive inRange

theorem execDroopDetect_of :
    execDroopDetect die s = if kvB s.pwr.raised die && decide (kvN s.pwr.changeAt die < s.now) && decide (s.now ≤ kvN s.pwr.changeAt die + 255) then
        .next ((((s.droopNoted die).raiseCalledOff die).setFlag (RF.PWR_D_STAT_PENDV die) true).deferFreq die)
      else .next (s.droopNoted die) := by
  obtain ⟨raised, changeAt⟩ := s.droopNoted_pwr die
  rw [← raised, ← changeAt, ← s.droopNoted_now die]
  exact (if_pos (by rw [alive, decide_eq_true inRange, Bool.and_self])).trans rfl

theorem execDroopDetect_notes (unraised : kvB s.pwr.raised die = false) : execDroopDetect die s = .next (s.droopNoted die) := by
  rw [execDroopDetect_of alive inRange, unraised, Bool.false_and, Bool.false_and, if_neg Bool.false_ne_true]

theorem execDroopDetect_callsOff (raised : kvB s.pwr.raised die = true) (after : kvN s.pwr.changeAt die < s.now)
    (within : s.now ≤ kvN s.pwr.changeAt die + 255) :
    execDroopDetect die s = .next ((((s.droopNoted die).raiseCalledOff die).setFlag (RF.PWR_D_STAT_PENDV die) true).deferFreq die) := by
  rw [execDroopDetect_of alive inRange, raised, decide_eq_true after, decide_eq_true within, Bool.and_self, Bool.and_self, if_pos rfl]

end

section
variable {s : State} {die : Nat}

theorem execDroopResponseEnd_over (held : s.flag (RF.PWR_D_STAT_DROOP die) = true) (over' : s.droopEnd die < s.now) :
    execDroopResponseEnd die s = .next (s.accrue.setFlag (RF.PWR_D_STAT_DROOP die) false) := by
  rw [execDroopResponseEnd, held, decide_eq_true over', Bool.and_self, if_pos rfl]

theorem execDroopResponseEnd_other (other : s.flag (RF.PWR_D_STAT_DROOP die) = false ∨ s.now ≤ s.droopEnd die) :
    execDroopResponseEnd die s = .next s := by
  rw [execDroopResponseEnd, if_neg]
  rcases other with none' | lasts
  · rw [none', Bool.false_and]; exact Bool.false_ne_true
  · rw [decide_eq_false (Nat.not_lt.mpr lasts), Bool.and_false]; exact Bool.false_ne_true

/-! ### The brake -/

theorem execPwrBrakeAssert_brakes (released : s.pins.brakeN = true) (powered : s.pins.pwrok = true) (alive : s.alive = true) (sampled : 2 ≤ s.boot.step) :
    execPwrBrakeAssert s = .next s.brakeOn := by
  rw [execPwrBrakeAssert, released, powered, alive, decide_eq_true sampled, Bool.and_self, if_pos rfl, if_pos rfl]

theorem execPwrBrakeAssert_unsampled (released : s.pins.brakeN = true) (powered : s.pins.pwrok = true) (unsampled : s.alive = false ∨ s.boot.step < 2) :
    execPwrBrakeAssert s = .next { s with pins := { s.pins with brakeN := false } } := by
  rw [execPwrBrakeAssert, released, powered, Bool.and_self, if_pos rfl, if_neg]
  rcases unsampled with dead | early
  · rw [dead, Bool.false_and]; exact Bool.false_ne_true
  · rw [decide_eq_false (Nat.not_le.mpr early), Bool.and_false]; exact Bool.false_ne_true

theorem execPwrBrakeDeassert_releases (braked : s.pins.brakeN = false) (powered : s.pins.pwrok = true) :
    execPwrBrakeDeassert s = .next { s with pins := { s.pins with brakeN := true }, pwr := { s.pwr with brakeHigh := some s.now } } := by
  rw [execPwrBrakeDeassert, braked, powered, Bool.not_false, Bool.and_self, if_pos rfl]

end

end Sys2Proof.Machine
end

section
/-! The family of power and heat. -/

open Sys2Proof Sys2Proof.Machine
namespace Sys2Proof.Claims

/-- Settles O47: each command by the guard it stands under; what counting bubbles on the way changes is none of what the clauses speak of. -/
theorem powerAndHeat : Obligations.PowerAndHeat := by
  intro s l die counts readings
  rw [exec_powerCapUpdate, exec_freqChange, exec_powerWindow, exec_avsConfirm, exec_voltRaiseTimeout, exec_droopDetect, exec_droopResponseEnd,
    exec_thermalSample, exec_pwrBrakeAssert, exec_pwrBrakeDeassert]
  refine ⟨fun ticked due => ⟨fun closed => ⟨s.capTaken.beginFrame, ?closes, State.running_beginFrame _, ?capAt, ?start, ?frameN, ?frameSum⟩, fun running lasts => ⟨s.capTaken, ?keeps, State.capAt_capTaken s,
      s.windowKept_capTaken.start, s.windowKept_capTaken.frameN⟩⟩,
    execPowerCapUpdate_other, fun ticked due => ?change, execFreqChange_other, State.settleFreq_none, State.settleFreq_due, State.freqChangeDie_undue,
    State.freqChangeDie_held, State.freqChangeDie_free, fun running alive full => execPowerWindow_ends (l := l) counts running alive (.inl full),
    fun running alive ticked last open' => execPowerWindow_ends counts running alive (.inr ⟨open', ticked, last⟩), execPowerWindow_off counts,
    fun pending free => ⟨_, execAvsConfirm_pending pending free, kvB_setB_same s.pwr.confirmed die true, rfl⟩, execAvsConfirm_other,
    fun pending unconfirmed due => ⟨State.flag_setFlag_same _ _ _ rfl (by simp only [RF.PWR_D_STAT_PENDV]; decide),
      execVoltRaiseTimeout_due pending unconfirmed due rfl⟩,
    execVoltRaiseTimeout_other,
    fun alive inRange fresh unraised => ⟨_, execDroopDetect_notes alive inRange unraised, State.droop_droopNoted s die fresh, ?last, State.droopSeen_droopNoted s die⟩,
    fun alive inRange raised after within => ⟨_, _, execDroopDetect_callsOff alive inRange raised after within, rfl, ?unraised, ?noted⟩,
    fun _ _ => ?answers, fun held over' => ⟨_, execDroopResponseEnd_over held over', State.flag_setFlag_same _ _ _ rfl (by simp only [RF.PWR_D_STAT_DROOP]; decide)⟩,
    execDroopResponseEnd_other, fun alive => ?samples, execPwrBrakeAssert_brakes, execPwrBrakeAssert_unsampled, execPwrBrakeDeassert_releases⟩
  case closes =>
    have shut : (s.flag RF.PWR_STAT_RUNNING && decide (s.pwr.winStart < s.now)) = false := by
      rcases closed with off | begins
      · rw [off, Bool.false_and]
      · rw [decide_eq_false (Nat.not_lt.mpr begins), Bool.and_false]
    rw [execPowerCapUpdate_due ticked due, shut, if_neg Bool.false_ne_true]
  case capAt => rw [State.beginFrame_pwr]; exact State.capAt_capTaken s
  case start => rw [State.beginFrame_pwr]; exact s.windowKept_capTaken.now
  case frameN => rw [State.beginFrame_pwr]
  case frameSum => rw [State.beginFrame_pwr]
  case keeps => rw [execPowerCapUpdate_due ticked due, running, decide_eq_true lasts, Bool.and_self, if_pos rfl]
  case change => simp only [execFreqChange, ticked, if_pos due]
  case last => exact (State.droopLast_droopNoted s die).trans (s.droopNoted_now die).symm
  case unraised => rw [State.raiseCalledOff_pwr]; exact kvB_setB_same (s.droopNoted die).pwr.raised die false
  case noted => rw [State.raiseCalledOff_pwr]; exact State.droopLast_droopNoted s die
  case answers =>
    obtain ⟨t, answers, -⟩ := noCommandStops (.droopDetect die) s
    exact ⟨t, answers⟩
  case samples => rw [execThermalSample, if_pos alive]

end Sys2Proof.Claims
end

section
/-! SUPPORT. Loading a ward image (R116, R128 to R141, R908, R909): an equation for each command and for the end of a quiesce, per outcome of its
checks. -/

open Sys2Proof
namespace Sys2Proof.Machine

theorem exec_wardLoadGo (s : State) : exec .wardLoadGo s = execWardLoadGo s := rfl
theorem exec_wardQuiesce (slot : Nat) (s : State) : exec (.wardQuiesce slot) s = execWardQuiesce slot s := rfl
theorem exec_wardQuiesceCancel (slot : Nat) (s : State) : exec (.wardQuiesceCancel slot) s = execWardQuiesceCancel slot s := rfl
theorem exec_wardLoad (cmd : Nat) (s : State) : exec (.wardLoad cmd) s = execWardLoad cmd s := rfl
theorem exec_wardQuiesceCommand (cmd : Nat) (s : State) : exec (.wardQuiesceCommand cmd) s = execWardQuiesceCommand cmd s := rfl
theorem exec_wardFetchError (got : List Byte) (s : State) : exec (.wardFetchError got) s = execWardFetchError got s := rfl
theorem exec_verificationComplete (image : List Byte) (s : State) : exec (.verificationComplete image) s = execVerificationComplete image s := rfl
theorem exec_partialImageApply (s : State) : exec .partialImageApply s = execPartialImageApply s := rfl

section
variable {s : State} {cmd op : Nat} {c : HostCmd} {run : State → HostCmd → State} (fetched : s.cmdOf cmd 0x0D = some c) (inflight : c.inflight = true)
  (op' : c.at 16 1 % 2 = op)
include fetched inflight op'

theorem State.wardCmd_barred (barred : s.wardBarred c = true) : s.wardCmd cmd op run = s.failCmd cmd 0x0E04 0 (detailOf [(52, 1, c.opc)]) := by
  simp only [State.wardCmd, fetched, inflight, op', barred, beq_self_eq_true, Bool.not_true, Bool.or_self, Bool.false_eq_true, if_false, if_true]

theorem State.wardCmd_runs (free : s.wardBarred c = false) : s.wardCmd cmd op run = run (s.begin cmd) c := by
  simp only [State.wardCmd, fetched, inflight, op', free, beq_self_eq_true, Bool.not_true, Bool.or_self, Bool.false_eq_true, if_false]

end

/-! ### The end of a load -/

/-- The state in which the load in progress has ended. -/
def State.loadEnded (s : State) : State := State.setFlag { s with ward := { s.ward with load := none } } RF.WRD_STAT_BUSY false

theorem State.loadEnded_ward (s : State) : s.loadEnded.ward = { s.ward with load := none } := by rw [State.loadEnded, State.setFlag_ward]

/-- The state in which a verified partial image waits for its tick (R138). -/
def State.partialPends (s : State) (image : List Byte) (cmd : Option Nat) : State :=
  ({ s.loadEnded with ward := { s.loadEnded.ward with
    pending := some { image := parseImage image, hash := sm3 image, cmd := cmd, since := s.now } } } : State).setFlag RF.WRD_STAT_PARTIAL_PENDING true

section
variable {s : State} {image : List Byte} {q : LoadReq}

theorem execVerificationComplete_idle (idle : s.ward.load = none) : execVerificationComplete image s = .next s := by
  simp only [execVerificationComplete, idle]

variable (loads : s.ward.load = some q)
include loads

theorem execVerificationComplete_short (short : image.length ≠ q.size) : execVerificationComplete image s = .next s := by
  simp only [execVerificationComplete, loads, beq_false_of_ne short, Bool.not_false, Bool.true_or, if_true]

theorem execWardFetchError_loads (got : List Byte) : execWardFetchError got s = .next (s.loadEnded.wardRefuse { code := 0x030D } (partialRoot got) q.cmd) := by
  simp only [execWardFetchError, loads, State.refuseLoad, State.loadEnded]

variable (whole : image.length = q.size) (alive : s.alive = true)
include whole alive

theorem execVerificationComplete_refused {r : WardRefusal} (refused : s.wardCheck q image = some r) :
    execVerificationComplete image s = .next (s.loadEnded.wardRefuse r (partialRoot image) q.cmd) := by
  simp only [execVerificationComplete, loads, whole, alive, beq_self_eq_true, Bool.not_true, Bool.or_self, Bool.false_eq_true, if_false, refused,
    State.loadEnded]

variable (passes : s.wardCheck q image = none)
include passes

theorem execVerificationComplete_full (full : (parseImage image).kind = 0) :
    execVerificationComplete image s = .next (match q.cmd with
      | some id => (s.loadEnded.applyFull (parseImage image) image).complete id 0 0
      | none => s.loadEnded.applyFull (parseImage image) image) := by
  simp only [execVerificationComplete, loads, whole, alive, beq_self_eq_true, Bool.not_true, Bool.or_self, Bool.false_eq_true, if_false, passes,
    if_pos full]
  rfl

theorem execVerificationComplete_partial (part : (parseImage image).kind ≠ 0) :
    execVerificationComplete image s = .next (s.partialPends image q.cmd) := by
  simp only [execVerificationComplete, loads, whole, alive, beq_self_eq_true, Bool.not_true, Bool.or_self, Bool.false_eq_true, if_false, passes,
    if_neg part, State.partialPends, State.loadEnded]

end

/-! ### The end of a quiesce -/

/-- The state in which a quiesce that was called off has ended. -/
def State.quiesceOver (s : State) : State := { s with ward := { s.ward with quiesceEnds := false } }

/-- The state in which no partial image waits. -/
def State.unpended (s : State) : State := ({ s with ward := { s.ward with pending := none } } : State).setFlag RF.WRD_STAT_PARTIAL_PENDING false

section
variable {s : State} {p : PendImage} {q : LoadReq}

theorem State.endQuiesce_none (runs : s.ward.quiesceEnds = false) : s.endQuiesce = s := by
  rw [State.endQuiesce, if_neg (Bool.eq_false_iff.mp runs)]

variable (ends : s.ward.quiesceEnds = true)
include ends

/-- A partial image that waited on the quiesce is refused with 0x0308 (R141). -/
theorem State.endQuiesce_pending (idle : s.ward.load = none) (pending : s.ward.pending = some p) :
    s.endQuiesce = s.quiesceOver.unpended.wardRefuse { code := 0x0308 } (some p.image.rootSlot) p.cmd := by
  simp only [State.endQuiesce, if_pos ends, idle, pending, State.quiesceOver, State.unpended]

theorem State.endQuiesce_loading (loads : s.ward.load = some q) (loaded : s.flag RF.WRD_STAT_LOADED = true)
    (unpended : (s.quiesceOver.refuseLoad q 0x0308 (some q.qslot)).ward.pending = none) :
    s.endQuiesce = s.quiesceOver.refuseLoad q 0x0308 (some q.qslot) := by
  have loads' : s.quiesceOver.ward.load = some q := loads
  have loaded' : s.quiesceOver.flag RF.WRD_STAT_LOADED = true := (State.flag_eq_of_regs rfl _).trans loaded
  rw [State.endQuiesce, if_pos ends, show ({ s with ward := { s.ward with quiesceEnds := false } } : State) = s.quiesceOver from rfl]
  simp only [loads', loaded', if_true, unpended]

end

/-! ### Applying a partial image -/

section
variable {s : State} {p : PendImage} {t : Nat}

theorem execPartialImageApply_none (none' : s.ward.pending = none) : execPartialImageApply s = .next s := by
  simp only [execPartialImageApply, none']

variable (pending : s.ward.pending = some p) (ticked : s.tick.lastTick = some t)
include pending ticked

theorem execPartialImageApply_of :
    execPartialImageApply s
      = .next (if s.alive && decide (p.since ≤ t) && decide (t + 128 ≤ s.now) && decide (s.now ≤ t + 383) && !s.ward.quiesceEnds then s.applyPartial p else s) := by
  simp only [execPartialImageApply, pending, ticked]
  exact (apply_ite Host.Outcome.next _ _ _).symm

theorem execPartialImageApply_due (alive : s.alive = true) (since : p.since ≤ t) (begun : t + 128 ≤ s.now) (lasts : s.now ≤ t + 383)
    (held : s.ward.quiesceEnds = false) : execPartialImageApply s = .next (s.applyPartial p) := by
  rw [execPartialImageApply_of pending ticked, alive, decide_eq_true since, decide_eq_true begun, decide_eq_true lasts, held, if_pos (by decide)]

theorem execPartialImageApply_undue (undue : t < p.since ∨ s.now < t + 128 ∨ t + 383 < s.now) : execPartialImageApply s = .next s := by
  rw [execPartialImageApply_of pending ticked, if_neg]
  rintro due
  simp only [Bool.and_eq_true, decide_eq_true_eq] at due
  omega

end

end Sys2Proof.Machine
end

section
/-! The family of ward images: loads and quiesce. -/

open Sys2Proof Sys2Proof.Machine
namespace Sys2Proof.Claims

/-- Settles O48: each command by its checks, in their order. -/
theorem wardImageLoads : Obligations.WardImageLoads := by
  intro s slot cmd t0 c q p image
  rw [exec_wardLoadGo, exec_wardQuiesce, exec_wardQuiesceCancel, exec_wardLoad, exec_wardQuiesceCommand, exec_verificationComplete, exec_partialImageApply]
  refine ⟨fun alive runs => ?go,
    fun fetched inflight op => ⟨fun barred => congrArg _ (State.wardCmd_barred fetched inflight op barred), fun free => congrArg _ (State.wardCmd_runs fetched inflight op free)⟩,
    fun fetched inflight op => ⟨fun barred => congrArg _ (State.wardCmd_barred fetched inflight op barred), fun free => congrArg _ (State.wardCmd_runs fetched inflight op free)⟩,
    fun loads => ⟨congrArg WardSt.load s.loadEnded_ward, State.flag_setFlag_same _ _ _ rfl (by decide), execWardFetchError_loads loads, fun whole alive => ?verified,
      execVerificationComplete_short loads⟩,
    fun idle => ⟨fun got => ?idles, execVerificationComplete_idle idle⟩,
    fun ends idle pending => ⟨s.quiesceOver.unpended, ?pending, ?ended, State.flag_setFlag_same _ _ _ rfl (by decide), State.endQuiesce_pending ends idle pending⟩,
    fun ends loads loaded unpended => State.endQuiesce_loading ends loads loaded unpended, State.endQuiesce_none,
    fun pending ticked alive since begun lasts held => execPartialImageApply_due pending ticked alive since begun lasts held,
    fun pending ticked undue => execPartialImageApply_undue pending ticked undue, execPartialImageApply_none⟩
  case go =>
    have serves := State.serving_of alive runs
    rw [execWardLoadGo, execWardQuiesce, execWardQuiesceCancel, if_pos serves, if_pos serves, if_pos serves]
    exact ⟨rfl, rfl, rfl⟩
  case verified =>
    cases check : s.wardCheck q image with
    | some r => exact ⟨_, execVerificationComplete_refused loads whole alive check, rfl⟩
    | none =>
      by_cases full : (parseImage image).kind = 0
      · refine ⟨_, execVerificationComplete_full loads whole alive check full, ?_⟩
        simp only [if_pos full]
        cases q.cmd <;> rfl
      · refine ⟨_, execVerificationComplete_partial loads whole alive check full, ?_⟩
        simp only [if_neg full]
        refine ⟨State.flag_setFlag_same _ _ _ rfl (by decide), ?_, ?_⟩ <;>
        · rw [State.partialPends, State.setFlag_ward, State.loadEnded_ward]
  case idles => simp only [exec_wardFetchError, execWardFetchError, idle]
  case pending => rw [State.unpended, State.setFlag_ward]
  case ended => rw [State.unpended, State.setFlag_ward, State.quiesceOver]

end Sys2Proof.Claims
end

section
/-! SUPPORT. Keyway (R808, R809, R816 to R831): a write of KWY_SL_CTL changes what no check reads, and an equation for each operation per outcome of its
checks. -/

open Sys2Proof
namespace Sys2Proof.Machine

theorem exec_arbCommit (v : Word) (s : State) : exec (.arbCommit v) s = execArbCommit v s := rfl
theorem exec_release (v : Word) (env : List Byte) (s : State) : exec (.release v env) s = execRelease v env s := rfl
theorem exec_drop (v : Word) (s : State) : exec (.drop v) s = execDrop v s := rfl
theorem exec_sealedLoad (v : Word) (s : State) : exec (.sealedLoad v) s = execSealedLoad v s := rfl
theorem exec_sealedLoadChunk (data : List Byte) (err : Nat) (s : State) : exec (.sealedLoadChunk data err) s = execSealedLoadChunk data err s := rfl
theorem exec_kwyErase (v : Word) (s : State) : exec (.kwyErase v) s = execKwyErase v s := rfl

/-! ### The fuses -/

section
variable {s : State} {v : Word}

theorem execArbCommit_begins (alive : s.alive = true) (go : natBit v.toNat 31 = true) (above : s.kwy.fusedSvn < s.boot.bundleSvn) :
    execArbCommit v s = .next { s with kwy := { s.kwy with commit := some s.boot.bundleSvn } } := by
  rw [execArbCommit, go, alive, decide_eq_true above, Bool.and_self, Bool.and_self, if_pos rfl]

theorem execArbCommit_other (other : natBit v.toNat 31 = false ∨ s.boot.bundleSvn ≤ s.kwy.fusedSvn) : execArbCommit v s = .next s := by
  rw [execArbCommit, if_neg]
  rcases other with unasked | fused
  · rw [unasked, Bool.false_and, Bool.false_and]; exact Bool.false_ne_true
  · rw [decide_eq_false (Nat.not_lt.mpr fused), Bool.and_false]; exact Bool.false_ne_true

theorem State.settleFuse_none (idle : s.kwy.commit = none) : s.settleFuse = s := by simp only [State.settleFuse, idle]

/-- A commit under way sets one fuse, and ends at the version it was asked for. -/
theorem State.settleFuse_kwy (alive : s.alive = true) {n : Nat} (commits : s.kwy.commit = some n) (below : s.kwy.fusedSvn < n) :
    s.settleFuse.kwy = { s.kwy with fusedSvn := s.kwy.fusedSvn + 1, commit := if s.kwy.fusedSvn + 1 < n then some n else none } := by
  simp only [State.settleFuse, commits, alive, decide_eq_true below, Bool.and_self, if_true, State.setFuse]
  split
  · rw [State.setFld_kwy]
  · rw [State.bump_kwy, State.setFld_kwy]

end

/-! ### A write of KWY_SL_CTL -/

/-- The state in which the fields of a write of KWY_SL_CTL have been taken. -/
def State.slTaken (s : State) (slot op : Nat) : State := (s.setFld RF.KWY_SL_CTL_SLOT slot).setFld RF.KWY_SL_CTL_OP op

section
variable (s : State) (slot op : Nat)

theorem State.slTaken_mem : (s.slTaken slot op).mem = s.mem := by rw [State.slTaken, State.setFld_mem, State.setFld_mem]
theorem State.slTaken_xlt : (s.slTaken slot op).xlt = s.xlt := by rw [State.slTaken, State.setFld_xlt, State.setFld_xlt]
theorem State.slTaken_ward : (s.slTaken slot op).ward = s.ward := by rw [State.slTaken, State.setFld_ward, State.setFld_ward]
theorem State.slTaken_kwy : (s.slTaken slot op).kwy = s.kwy := by rw [State.slTaken, State.setFld_kwy, State.setFld_kwy]

theorem State.reg_slTaken {a : Nat} (other : a ≠ RA.KWY_SL_CTL) : (s.slTaken slot op).reg a = s.reg a := by
  exact (State.reg_setFld_other _ RF.KWY_SL_CTL_OP _ other).trans (State.reg_setFld_other _ RF.KWY_SL_CTL_SLOT _ other)

theorem State.fld_slTaken (f : RegField) (other : f.addr ≠ RA.KWY_SL_CTL) : (s.slTaken slot op).fld f = s.fld f :=
  State.fld_eq_of_reg _ (s.reg_slTaken slot op other)

theorem State.wkey_slTaken (n : Nat) : (s.slTaken slot op).wkey n = s.wkey n := by rw [State.wkey, State.slTaken_kwy, State.wkey]
theorem State.sealedPart_slTaken (n : Nat) : (s.slTaken slot op).sealedPart n = s.sealedPart n := by rw [State.sealedPart, State.slTaken_ward, State.sealedPart]
theorem State.unitEnt_slTaken (n : Nat) : (s.slTaken slot op).unitEnt n = s.unitEnt n := by rw [State.unitEnt, State.slTaken_ward, State.unitEnt]
theorem State.rangeAt_slTaken (u c va : Nat) : (s.slTaken slot op).rangeAt u c va = s.rangeAt u c va := by rw [State.rangeAt, State.slTaken_xlt, State.rangeAt]

theorem State.regBytes_slTaken (a : Nat → Nat) (n : Nat) (other : ∀ k < n, a k ≠ RA.KWY_SL_CTL) : (s.slTaken slot op).regBytes a n = s.regBytes a n := by
  rw [State.regBytes, State.regBytes, List.flatMap_congr fun k below => by rw [State.reg_slTaken _ _ _ (other k (List.mem_range.mp below))]]

theorem State.fwMeas_slTaken : (s.slTaken slot op).fwMeas = s.fwMeas :=
  s.regBytes_slTaken slot op _ _ fun k below => by simp only [RA.KWY_FWMEAS, RA.KWY_SL_CTL]; omega

theorem State.wardMeas_slTaken : (s.slTaken slot op).wardMeas = s.wardMeas :=
  s.regBytes_slTaken slot op _ _ fun k below => by simp only [RA.KWY_WARDMEAS, RA.KWY_SL_CTL]; omega

theorem State.gen_slTaken (n : Nat) : (s.slTaken slot op).fld (RF.KWY_GEN_GEN n) = s.fld (RF.KWY_GEN_GEN n) :=
  s.fld_slTaken slot op _ (by simp only [RF.KWY_GEN_GEN, RA.KWY_GEN, RA.KWY_SL_CTL]; omega)

theorem State.runInPart_slTaken (u c part n va len : Nat) : (s.slTaken slot op).runInPart u c part n va len = s.runInPart u c part n va len := by
  induction n generalizing va len with
  | zero => simp only [State.runInPart]
  | succ n ih => simp only [State.runInPart, State.rangeAt_slTaken, ih]

end

section
variable {s : State} {v : Word} {op : Nat} {run : State → Nat → State} (alive : s.alive = true) (go : natBit v.toNat 31 = true) (op' : v.toNat % 4 = op)
include alive go op'

theorem State.slGo_busy (busy : s.flag RF.KWY_SL_STAT_BUSY = true) :
    s.slGo v op run = (s.slTaken (natBits v.toNat 24 6) op).bump RF.KWY_REFUSALS_COUNT := by
  simp only [State.slGo, go, op', alive, beq_self_eq_true, Bool.and_self, if_true, busy, State.slTaken]

theorem State.slGo_runs (idle : s.flag RF.KWY_SL_STAT_BUSY = false) :
    s.slGo v op run = run (s.slTaken (natBits v.toNat 24 6) op) (natBits v.toNat 24 6) := by
  simp only [State.slGo, go, op', alive, beq_self_eq_true, Bool.and_self, if_true, idle, Bool.false_eq_true, if_false, State.slTaken]

end

/-! ### Weight-key slots -/

theorem State.setWkey_mem (s : State) (n : Nat) (k : Option WeightKey) : (s.setWkey n k).mem = s.mem := by
  cases k <;> simp only [State.setWkey, State.setFld_mem, State.setFlag_mem]

theorem State.setWkey_kwy (s : State) (n : Nat) (k : Option WeightKey) : (s.setWkey n k).kwy = { s.kwy with slots := kvSet (fun _ => none) s.kwy.slots n k } := by
  cases k <;> simp only [State.setWkey, State.setFld_kwy, State.setFlag_kwy]

theorem State.wkey_setWkey (s : State) (n : Nat) (k : Option WeightKey) (m : Nat) : (s.setWkey n k).wkey m = if m = n then k else s.wkey m := by
  simp only [State.wkey, State.setWkey_kwy, kvGet_set]

/-! ### RELEASE -/

section
variable {s : State} {v : Word} {env w : List Byte} (alive : s.alive = true) (go : natBit v.toNat 31 = true) (idle : s.flag RF.KWY_SL_STAT_BUSY = false)
  (whole : env.length = 288) (op : v.toNat % 4 = 1)
include alive go idle whole op

theorem execRelease_malformed (malformed : envelopeOk env = false) :
    execRelease v env s = .next ((s.slTaken (natBits v.toNat 24 6) 1).slRefuse 0x1110 [(52, 1, 1)]) := by
  simp only [execRelease, whole, beq_self_eq_true, Bool.not_true, Bool.false_eq_true, if_false, State.slGo_runs alive go op idle, malformed,
    Bool.not_false, if_true]

variable (wellFormed : envelopeOk env = true)
include wellFormed

theorem execRelease_undecrypted (fails : sm2Decrypt Config.identityKey (bytesAt env 112 160) = none) :
    execRelease v env s = .next ((s.slTaken (natBits v.toNat 24 6) 1).slRefuse 0x1110 [(52, 1, 2)]) := by
  simp only [execRelease, whole, beq_self_eq_true, Bool.not_true, Bool.false_eq_true, if_false, State.slGo_runs alive go op idle, wellFormed, fails]

/-- What a RELEASE answers from the measurements, the partition and the slot on, once its envelope has been opened. -/
def State.releaseInto (s t : State) (slot : Nat) (env w : List Byte) : State :=
  if bytesAt env 16 32 ≠ s.fwMeas then t.slRefuse 0x1111 [(52, 1, 2)]
  else if bytesAt env 48 32 ≠ s.wardMeas then t.slRefuse 0x1111 [(52, 1, 4)]
  else if s.sealedPart (natBits (le env 80 1) 0 6) = false then t.slRefuse 0x1113 [(52, 1, natBits (le env 80 1) 0 6)]
  else if le env 84 4 ≠ s.fld (RF.KWY_GEN_GEN (natBits (le env 80 1) 0 6)) then
    t.slRefuse 0x1112 [(52, 1, natBits (le env 80 1) 0 6), (56, 4, s.fld (RF.KWY_GEN_GEN (natBits (le env 80 1) 0 6)))]
  else if (s.wkey slot).isSome then t.slRefuse 0x1114 [(52, 1, slot)]
  else ((t.setWkey slot (some { key := w.take 32, part := natBits (le env 80 1) 0 6, head := env.take 112 })).bump RF.KWY_RELEASES_COUNT).setFlag
    RF.KWY_SL_STAT_DONE true

theorem execRelease_opened (opens : sm2Decrypt Config.identityKey (bytesAt env 112 160) = some w) (length : w.length = 64)
    (bound : w.drop 32 = sm3 (env.take 112)) :
    execRelease v env s = .next (s.releaseInto (s.slTaken (natBits v.toNat 24 6) 1) (natBits v.toNat 24 6) env w) := by
  simp only [execRelease, whole, beq_self_eq_true, Bool.not_true, Bool.false_eq_true, if_false, State.slGo_runs alive go op idle, wellFormed, opens,
    length, bound, Bool.or_self, State.fwMeas_slTaken, State.wardMeas_slTaken, State.sealedPart_slTaken, State.gen_slTaken, State.wkey_slTaken,
    State.releaseInto, Bool.not_eq_true', beq_eq_false_iff_ne]

end

/-- The state in which a RELEASE has filled its slot (R816). -/
def State.released (t : State) (slot : Nat) (env w : List Byte) : State :=
  ((t.setWkey slot (some { key := w.take 32, part := natBits (le env 80 1) 0 6, head := env.take 112 })).bump RF.KWY_RELEASES_COUNT).setFlag
    RF.KWY_SL_STAT_DONE true

theorem State.wkey_released (t : State) (slot : Nat) (env w : List Byte) (m : Nat) :
    (t.released slot env w).wkey m
      = if m = slot then some { key := w.take 32, part := natBits (le env 80 1) 0 6, head := env.take 112 } else t.wkey m := by
  rw [State.released, State.wkey, State.setFlag_kwy, State.bump_kwy, ← State.wkey, State.wkey_setWkey]

theorem State.released_mem (t : State) (slot : Nat) (env w : List Byte) : (t.released slot env w).mem = t.mem := by
  rw [State.released, State.setFlag_mem, State.bump_mem, State.setWkey_mem]

section
variable {s t : State} {slot : Nat} {env w : List Byte}

theorem State.releaseInto_firmware (other : bytesAt env 16 32 ≠ s.fwMeas) : s.releaseInto t slot env w = t.slRefuse 0x1111 [(52, 1, 2)] := if_pos other

variable (firmware : bytesAt env 16 32 = s.fwMeas)
include firmware

theorem State.releaseInto_ward (other : bytesAt env 48 32 ≠ s.wardMeas) : s.releaseInto t slot env w = t.slRefuse 0x1111 [(52, 1, 4)] := by
  rw [State.releaseInto, if_neg (not_not.mpr firmware), if_pos other]

variable (ward : bytesAt env 48 32 = s.wardMeas)
include ward

theorem State.releaseInto_unsealed (unsealed : s.sealedPart (natBits (le env 80 1) 0 6) = false) :
    s.releaseInto t slot env w = t.slRefuse 0x1113 [(52, 1, natBits (le env 80 1) 0 6)] := by
  rw [State.releaseInto, if_neg (not_not.mpr firmware), if_neg (not_not.mpr ward), if_pos unsealed]

variable (isSealed : s.sealedPart (natBits (le env 80 1) 0 6) = true)
include isSealed

theorem State.releaseInto_generation (other : le env 84 4 ≠ s.fld (RF.KWY_GEN_GEN (natBits (le env 80 1) 0 6))) :
    s.releaseInto t slot env w
      = t.slRefuse 0x1112 [(52, 1, natBits (le env 80 1) 0 6), (56, 4, s.fld (RF.KWY_GEN_GEN (natBits (le env 80 1) 0 6)))] := by
  rw [State.releaseInto, if_neg (not_not.mpr firmware), if_neg (not_not.mpr ward), if_neg ((Bool.not_eq_false _).mpr isSealed), if_pos other]

variable (generation : le env 84 4 = s.fld (RF.KWY_GEN_GEN (natBits (le env 80 1) 0 6)))
include generation

theorem State.releaseInto_held (held : (s.wkey slot).isSome = true) : s.releaseInto t slot env w = t.slRefuse 0x1114 [(52, 1, slot)] := by
  rw [State.releaseInto, if_neg (not_not.mpr firmware), if_neg (not_not.mpr ward), if_neg ((Bool.not_eq_false _).mpr isSealed),
    if_neg (not_not.mpr generation), if_pos held]

theorem State.releaseInto_free (free : s.wkey slot = none) : s.releaseInto t slot env w = t.released slot env w := by
  rw [State.releaseInto, if_neg (not_not.mpr firmware), if_neg (not_not.mpr ward), if_neg ((Bool.not_eq_false _).mpr isSealed),
    if_neg (not_not.mpr generation), free, Option.isSome_none, if_neg Bool.false_ne_true, State.released]

end

/-! ### DROP and LOAD -/

/-- The state in which a slot has been emptied. -/
def State.dropped (t : State) (slot : Nat) : State := (t.setWkey slot none).setFlag RF.KWY_SL_STAT_DONE true

/-- The state in which a LOAD has started (R819). -/
def State.loadStarted (t : State) (j : SealedJob) : State :=
  (({ t with kwy := { t.kwy with load := some j } } : State).setFld RF.KWY_SL_CHUNKS_COUNT 0).setFlag RF.KWY_SL_STAT_BUSY true

theorem State.wkey_dropped (t : State) (slot m : Nat) : (t.dropped slot).wkey m = if m = slot then none else t.wkey m := by
  rw [State.dropped, State.wkey, State.setFlag_kwy, ← State.wkey, State.wkey_setWkey]

theorem State.dropped_mem (t : State) (slot : Nat) : (t.dropped slot).mem = t.mem := by rw [State.dropped, State.setFlag_mem, State.setWkey_mem]

section
variable {s : State} {v : Word} {k : WeightKey} {u : UnitEnt} (alive : s.alive = true) (go : natBit v.toNat 31 = true)
  (idle : s.flag RF.KWY_SL_STAT_BUSY = false)
include alive go idle

theorem execDrop_idle (op : v.toNat % 4 = 3) :
    execDrop v s = .next ((s.slTaken (natBits v.toNat 24 6) 3).dropped (natBits v.toNat 24 6)) := by
  rw [execDrop, State.slGo_runs alive go op idle, State.dropped]

variable (op : v.toNat % 4 = 2)
include op

theorem execSealedLoad_empty (empty : s.wkey (natBits v.toNat 24 6) = none) :
    execSealedLoad v s = .next ((s.slTaken (natBits v.toNat 24 6) 2).slRefuse 0x1114 [(52, 1, natBits v.toNat 24 6)]) := by
  rw [execSealedLoad, State.slGo_runs alive go op idle]
  simp only [State.wkey_slTaken, empty]

/-- A LOAD of a held key starts where its unit owns the key's partition and the run lies in it. -/
theorem execSealedLoad_starts (held : s.wkey (natBits v.toNat 24 6) = some k) (unit : s.unitEnt (s.fld RF.KWY_SL_CTX_UNIT) = some u)
    (leaf : u.group = false) (owns : natBit u.partMask k.part = true)
    (inPart : s.runInPart (s.fld RF.KWY_SL_CTX_UNIT) (s.fld RF.KWY_SL_CTX_CTX) k.part (s.xlt.ranges.length + 1)
      (s.fld64 RF.KWY_SL_DST_LO_ADDR RF.KWY_SL_DST_HI_ADDR) k.length = true) :
    execSealedLoad v s = .next ((s.slTaken (natBits v.toNat 24 6) 2).loadStarted
      { slot := natBits v.toNat 24 6, part := k.part, length := k.length, dst := s.fld64 RF.KWY_SL_DST_LO_ADDR RF.KWY_SL_DST_HI_ADDR
        unit := s.fld RF.KWY_SL_CTX_UNIT, ctx := s.fld RF.KWY_SL_CTX_CTX }) := by
  have unit' := s.fld_slTaken (natBits v.toNat 24 6) 2 RF.KWY_SL_CTX_UNIT (by decide)
  have ctx' := s.fld_slTaken (natBits v.toNat 24 6) 2 RF.KWY_SL_CTX_CTX (by decide)
  have lo := s.fld_slTaken (natBits v.toNat 24 6) 2 RF.KWY_SL_DST_LO_ADDR (by decide)
  have hi := s.fld_slTaken (natBits v.toNat 24 6) 2 RF.KWY_SL_DST_HI_ADDR (by decide)
  have dst : (s.slTaken (natBits v.toNat 24 6) 2).fld64 RF.KWY_SL_DST_LO_ADDR RF.KWY_SL_DST_HI_ADDR
      = s.fld64 RF.KWY_SL_DST_LO_ADDR RF.KWY_SL_DST_HI_ADDR := by rw [State.fld64, lo, hi, State.fld64]
  rw [execSealedLoad, State.slGo_runs alive go op idle]
  simp only [State.wkey_slTaken, held, unit', ctx', dst, State.unitEnt_slTaken, unit, leaf, owns, State.slTaken_xlt, State.runInPart_slTaken, inPart,
    Bool.not_false, Bool.and_self, Bool.not_true, Bool.or_self, Bool.false_eq_true, if_false, State.loadStarted]

end

theorem State.loadStarted_kwy (t : State) (j : SealedJob) : (t.loadStarted j).kwy = { t.kwy with load := some j } := by
  rw [State.loadStarted, State.setFlag_kwy, State.setFld_kwy]

theorem State.loadStarted_mem (t : State) (j : SealedJob) : (t.loadStarted j).mem = t.mem := by
  rw [State.loadStarted, State.setFlag_mem, State.setFld_mem]

/-! ### Chunks -/

section
variable {s x : State} {data bs : List Byte} {err : Nat} {j : SealedJob} {k : WeightKey} (alive : s.alive = true) (loads : s.kwy.load = some j)
  (held : s.wkey j.slot = some k)
include alive loads held

theorem execSealedLoadChunk_unread (failed : err ≠ 0) :
    execSealedLoadChunk data err s = .next ((s.kwyFail 0x1115 [(52, 4, j.next)]).endLoad) := by
  simp only [execSealedLoadChunk, loads, held, alive, beq_false_of_ne failed, Bool.false_and, Bool.not_true, Bool.or_self, Bool.false_eq_true, if_false,
    if_neg failed, State.failLoad]

variable (whole : data.length = min 65536 (j.length - 65536 * j.next) + 16)
include whole

theorem execSealedLoadChunk_unauthentic
    (fails : gcmDecrypt k.key (bytesAt k.head 88 8 ++ leBytes 4 j.next) (leBytes 4 j.next ++ leBytes 8 j.length)
      (data.drop (min 65536 (j.length - 65536 * j.next))) (data.take (min 65536 (j.length - 65536 * j.next))) = none) :
    execSealedLoadChunk data 0 s = .next ((s.kwyFail 0x1115 [(52, 4, j.next)]).endLoad) := by
  simp only [execSealedLoadChunk, loads, held, alive, whole, beq_self_eq_true, Bool.true_and, Bool.not_true, Bool.or_self, Bool.false_eq_true, if_false,
    if_true, fails, State.failLoad]

/-- A chunk that authenticates is written; the last one extends the measurement of its partition (R821, R822). -/
theorem execSealedLoadChunk_writes
    (opens : gcmDecrypt k.key (bytesAt k.head 88 8 ++ leBytes 4 j.next) (leBytes 4 j.next ++ leBytes 8 j.length)
      (data.drop (min 65536 (j.length - 65536 * j.next))) (data.take (min 65536 (j.length - 65536 * j.next))) = some bs)
    (writes : s.devWrite j.unit j.ctx (j.dst + 65536 * j.next) 4 (bs.take (min 65536 (j.length - 65536 * j.next))) = (x, .ok [] false))
    {y : State} (counted : x.bump RF.KWY_SL_CHUNKS_COUNT = y) :
    execSealedLoadChunk data 0 s = .next (if 65536 * (j.next + 1) < j.length then { y with kwy := { y.kwy with load := some { j with next := j.next + 1 } } }
      else (y.setPartMeas j.part (extend (y.partMeas j.part) (sm3 (k.head ++ data.drop (min 65536 (j.length - 65536 * j.next)))))).endLoad) := by
  simp only [execSealedLoadChunk, loads, held, alive, whole, beq_self_eq_true, Bool.true_and, Bool.not_true, Bool.or_self, Bool.false_eq_true, if_false,
    if_true, opens, writes, counted]
  exact (apply_ite Host.Outcome.next _ _ _).symm

end

/-! ### Erasures -/

theorem execKwyErase_asks {s : State} {v : Word} (alive : s.alive = true) (go : natBit v.toNat 31 = true) :
    execKwyErase v s = .next { s with kwy := { s.kwy with erases := s.kwy.erases ++ [v.toNat % 64] } } := by
  simp only [execKwyErase, go, alive, Bool.not_true, Bool.or_self, Bool.false_eq_true, if_false]

theorem execKwyErase_unasked {s : State} {v : Word} (unasked : natBit v.toNat 31 = false) : execKwyErase v s = .next s := by
  simp only [execKwyErase, unasked, Bool.not_false, Bool.true_or, if_true]

/-- Is a partition mapped by a range, be it reserved (log entry 88)? -/
def State.mapsPart (s : State) (n : Nat) : Bool := s.xlt.ranges.any (fun r => (r.kind == 0 || r.kind == 3) && r.part == n)

section
variable {s : State} {n : Nat} {j : SealedJob}

theorem State.eraseNow_mapped (mapped : s.mapsPart n = true) :
    s.eraseNow n = (s.kwyFail 0x1119 [(52, 1, n), (53, 1, 0)]).bump RF.KWY_REFUSALS_COUNT := by
  rw [State.mapsPart] at mapped
  simp only [State.eraseNow, mapped, if_true]

variable (unmapped : s.mapsPart n = false)
include unmapped

theorem State.eraseNow_loading (loads : s.kwy.load = some j) (here : j.part = n) :
    s.eraseNow n = (s.kwyFail 0x1119 [(52, 1, n), (53, 1, 1)]).bump RF.KWY_REFUSALS_COUNT := by
  rw [State.mapsPart] at unmapped
  simp only [State.eraseNow, unmapped, loads, here, beq_self_eq_true, Bool.false_eq_true, if_false, if_true]

variable (elsewhere : s.kwy.load = none ∨ ∃ i, s.kwy.load = some i ∧ i.part ≠ n)
include elsewhere

theorem State.eraseNow_free : s.eraseNow n = if s.fld (RF.KWY_GEN_GEN n) = 2 ^ 32 - 1
    then (s.kwyFail 0x1119 [(52, 1, n), (53, 1, 2)]).bump RF.KWY_REFUSALS_COUNT else s.genAdvance n := by
  rw [State.mapsPart] at unmapped
  by_cases last : s.fld (RF.KWY_GEN_GEN n) = 2 ^ 32 - 1 <;> rcases elsewhere with idle | ⟨i, loads, other⟩
  · simp only [State.eraseNow, unmapped, idle, Bool.false_eq_true, if_false, if_pos last]
  · simp only [State.eraseNow, unmapped, loads, beq_false_of_ne other, Bool.false_eq_true, if_false, if_pos last]
  · simp only [State.eraseNow, unmapped, idle, Bool.false_eq_true, if_false, if_neg last]
  · simp only [State.eraseNow, unmapped, loads, beq_false_of_ne other, Bool.false_eq_true, if_false, if_neg last]

end

end Sys2Proof.Machine
end

section
/-! The family of the keyway: versions, weight keys, sealed loads and erasures. -/

open Sys2Proof Sys2Proof.Machine
namespace Sys2Proof.Claims

/-- Settles O49: each operation by its checks, in their order. -/
theorem keywayAndSealedLoads : Obligations.KeywayAndSealedLoads := by
  intro s v env w data bs err k u j alive slot part t dst
  rw [exec_arbCommit, exec_release, exec_drop, exec_sealedLoad, exec_sealedLoadChunk, exec_sealedLoadChunk, exec_kwyErase]
  refine ⟨execArbCommit_begins alive, execArbCommit_other, State.settleFuse_none, fun n commits below => State.settleFuse_kwy alive commits below,
    fun go busy whole => ⟨fun op => ?releaseBusy, fun op => congrArg _ (State.slGo_busy alive go op busy), fun op => congrArg _ (State.slGo_busy alive go op busy)⟩,
    fun go idle whole op => ⟨fun malformed => execRelease_malformed alive go idle whole op malformed,
      fun wellFormed fails => execRelease_undecrypted alive go idle whole op wellFormed fails, fun wellFormed opens length bound => ?opened⟩,
    fun go idle op => ⟨_, execDrop_idle alive go idle op, ?dropped, ?dropsOne, State.flag_setFlag_same _ _ _ rfl (by decide), ?dropsNoByte⟩,
    fun go idle op => ⟨fun empty => execSealedLoad_empty alive go idle op empty, fun held unit leaf owns inPart =>
      ⟨_, execSealedLoad_starts alive go idle op held unit leaf owns inPart, State.flag_setFlag_same _ _ _ rfl (by decide), ?startsNoByte, ?started⟩⟩,
    fun loads held => ⟨fun failed => execSealedLoadChunk_unread alive loads held failed, fun whole fails => execSealedLoadChunk_unauthentic alive loads held whole fails,
      fun x whole opens writes => execSealedLoadChunk_writes alive loads held whole opens writes rfl⟩,
    execKwyErase_asks alive, execKwyErase_unasked, rfl,
    fun n => ⟨State.eraseNow_mapped, fun unmapped loads here => State.eraseNow_loading unmapped loads here,
      fun unmapped elsewhere => ⟨fun last => (State.eraseNow_free unmapped elsewhere).trans (if_pos last),
        fun more => (State.eraseNow_free unmapped elsewhere).trans (if_neg more)⟩⟩⟩
  case releaseBusy =>
    refine (if_neg (by rw [whole]; decide)).trans ?_
    exact congrArg _ (State.slGo_busy alive go op busy)
  case opened =>
    have opened := execRelease_opened alive go idle whole op wellFormed opens length bound
    refine ⟨fun other => ?_, fun firmware other => ?_, fun firmware ward unsealed => ?_, fun firmware ward isSealed other => ?_,
      fun firmware ward isSealed generation held => ?_, fun firmware ward isSealed generation free => ⟨(s.slTaken slot 1).released slot env w, ?_, ?_, ?_, ?_, ?_⟩⟩
    · exact opened.trans (congrArg _ (State.releaseInto_firmware other))
    · exact opened.trans (congrArg _ (State.releaseInto_ward firmware other))
    · exact opened.trans (congrArg _ (State.releaseInto_unsealed firmware ward unsealed))
    · exact opened.trans (congrArg _ (State.releaseInto_generation firmware ward isSealed other))
    · exact opened.trans (congrArg _ (State.releaseInto_held firmware ward isSealed generation held))
    · exact opened.trans (congrArg _ (State.releaseInto_free firmware ward isSealed generation free))
    · rw [State.wkey_released, if_pos rfl]
    · intro n other
      rw [State.wkey_released, if_neg other, State.wkey_slTaken]
    · exact State.flag_setFlag_same _ _ _ rfl (by decide)
    · rw [State.released_mem, State.slTaken_mem]
  case dropped => rw [State.wkey_dropped, if_pos rfl]
  case dropsOne =>
    intro n other
    rw [State.wkey_dropped, if_neg other, State.wkey_slTaken]
  case dropsNoByte => rw [State.dropped_mem, State.slTaken_mem]
  case startsNoByte => rw [State.loadStarted_mem, State.slTaken_mem]
  case started => rw [State.loadStarted_kwy]

end Sys2Proof.Claims
end

section
/-! SUPPORT. The SPDM responder (R811, R812): a request while the endpoint is down, one in its order and one out of it. -/

open Sys2Proof
namespace Sys2Proof.Machine

theorem exec_getVersion (b : Nat) (o : Option Nat) (d : List Byte) (s : State) : exec (.getVersion b o d) s = execGetVersion b o d s := rfl
theorem exec_getCapabilities (b : Nat) (o : Option Nat) (d : List Byte) (s : State) : exec (.getCapabilities b o d) s = execGetCapabilities b o d s := rfl
theorem exec_negotiateAlgorithms (b : Nat) (o : Option Nat) (d : List Byte) (s : State) :
    exec (.negotiateAlgorithms b o d) s = execNegotiateAlgorithms b o d s := rfl
theorem exec_getDigests (b : Nat) (o : Option Nat) (d : List Byte) (s : State) : exec (.getDigests b o d) s = execGetDigests b o d s := rfl
theorem exec_getCertificate (b : Nat) (o : Option Nat) (d : List Byte) (s : State) : exec (.getCertificate b o d) s = execGetCertificate b o d s := rfl
theorem exec_challenge (b : Nat) (o : Option Nat) (d : List Byte) (s : State) : exec (.challenge b o d) s = execChallenge b o d s := rfl
theorem exec_getMeasurements (b : Nat) (o : Option Nat) (d : List Byte) (s : State) : exec (.getMeasurements b o d) s = execGetMeasurements b o d s := rfl
theorem exec_keyExchange (b : Nat) (o : Option Nat) (d : List Byte) (s : State) : exec (.keyExchange b o d) s = execKeyExchange b o d s := rfl
theorem exec_finish (b : Nat) (o : Option Nat) (d : List Byte) (s : State) : exec (.finish b o d) s = execFinish b o d s := rfl
theorem exec_heartbeat (b : Nat) (o : Option Nat) (d : List Byte) (s : State) : exec (.heartbeat b o d) s = execHeartbeat b o d s := rfl
theorem exec_keyUpdate (b : Nat) (o : Option Nat) (d : List Byte) (s : State) : exec (.keyUpdate b o d) s = execKeyUpdate b o d s := rfl
theorem exec_endSession (b : Nat) (o : Option Nat) (d : List Byte) (s : State) : exec (.endSession b o d) s = execEndSession b o d s := rfl

/-! ### Handling a request -/

/-- A response in a state that has sent it: what the state knew of keys and sessions stands. -/
def spdmMsg (b code status : Nat) (bs : List Byte) : MgtMsg := { kind := 5, code := code, status := status, bytes := bs, binding := b }

theorem State.spdmReply_eq (s : State) (b code : Nat) (bs : List Byte) :
    (s.spdmReply b code bs).kwy = s.kwy ∧ (s.spdmReply b code bs).mgt.sent = s.mgt.sent ++ [spdmMsg b code 0 bs] := ⟨rfl, rfl⟩

theorem State.spdmError_eq (s : State) (b e : Nat) :
    (s.spdmError b e).kwy = s.kwy ∧ (s.spdmError b e).mgt.sent = s.mgt.sent ++ [spdmMsg b 0x7F e []] := ⟨rfl, rfl⟩

section
variable {s : State} {b : Nat} {ok : Bool} {f : State → State}

theorem State.spdm_down (down : s.mctpUp b = false) : s.spdm b ok f = s := by rw [State.spdm, down, if_neg Bool.false_ne_true]

variable (up : s.mctpUp b = true)
include up

theorem State.spdm_handles (inOrder : ok = true) : s.spdm b ok f = f s := by rw [State.spdm, up, if_pos rfl, inOrder, if_pos rfl]

/-- What comes out of order is an error and changes nothing else. -/
theorem State.spdm_refuses (outOfOrder : ok = false) :
    ∃ t, Host.Outcome.next (s.spdm b ok f) = (.next t : Host.Outcome State Fault Refusal) ∧ t.kwy = s.kwy ∧
      t.mgt.sent = s.mgt.sent ++ [spdmMsg b 0x7F 4 []] :=
  ⟨s.spdmError b 4, by rw [State.spdm, up, if_pos rfl, outOfOrder, if_neg Bool.false_ne_true], s.spdmError_eq b 4⟩

/-- A request in order whose handling sends a response and changes no key and no session. -/
theorem State.spdm_replies (inOrder : ok = true) {code : Nat} {bs : List Byte} (replies : f s = s.spdmReply b code bs) :
    ∃ t, Host.Outcome.next (s.spdm b ok f) = (.next t : Host.Outcome State Fault Refusal) ∧ t.kwy = s.kwy ∧
      t.mgt.sent = s.mgt.sent ++ [spdmMsg b code 0 bs] :=
  ⟨s.spdmReply b code bs, congrArg _ ((State.spdm_handles up inOrder).trans replies), s.spdmReply_eq b code bs⟩

theorem State.spdm_errs (inOrder : ok = true) {e : Nat} (errs : f s = s.spdmError b e) :
    ∃ t, Host.Outcome.next (s.spdm b ok f) = (.next t : Host.Outcome State Fault Refusal) ∧ t.kwy = s.kwy ∧
      t.mgt.sent = s.mgt.sent ++ [spdmMsg b 0x7F e []] :=
  ⟨s.spdmError b e, congrArg _ ((State.spdm_handles up inOrder).trans errs), s.spdmError_eq b e⟩

end

theorem State.spdmStage_reply (s : State) (b n code : Nat) (bs : List Byte) : ((s.setSpdmStage b n).spdmReply b code bs).spdmStage b = n := by
  simp only [State.spdmStage, State.spdmReply, State.sendMgt, State.setSpdmStage, kvGet_set_same]

theorem and_beq_false {n m : Nat} (other : n ≠ m) (c : Bool) : ((n == m) && c) = false := by rw [beq_false_of_ne other, Bool.false_and]

/-! ### Sessions -/

/-- The state in which a session has begun its handshake. -/
def State.sessionBegun (s : State) (b : Nat) : State :=
  { s with kwy := { s.kwy with sessions := s.kwy.sessions ++ [{ id := s.kwy.nextSession, binding := b }], nextSession := s.kwy.nextSession + 1 } }

section
variable {s : State} {b id : Nat} {x : SpdmSession}

theorem State.sessionOk_of (here : s.session b id = some x) : s.sessionOk b (some id) = x.established := by simp only [State.sessionOk, here]
theorem State.sessionOk_absent (absent : s.session b id = none) : s.sessionOk b (some id) = false := by simp only [State.sessionOk, absent]

theorem execFinish_of {data : List Byte} (here : s.session b id = some x) :
    execFinish b (some id) data s = .next (s.spdm b (!x.established) (fun s =>
      State.spdmReply { s with kwy := { s.kwy with sessions := s.kwy.sessions.map (fun y => if y = x then { x with established := true } else y) } }
        b 0x65 (spdmStd 0x65 data))) := by
  simp only [execFinish, Option.bind_some, here]

theorem execFinish_down {o : Option Nat} {data : List Byte} (down : s.mctpUp b = false) : execFinish b o data s = .next s := by
  rw [execFinish]
  split
  · rw [State.spdm_down down]
  · rw [State.spdm_down down]

end

theorem execFinish_absent {s : State} {b : Nat} {o : Option Nat} {data : List Byte} (absent : o.bind (s.session b) = none) :
    execFinish b o data s = .next (s.spdm b false id) := by
  simp only [execFinish, absent]

/-- A session that has been taken off the list is found no more. -/
theorem session_filter_none (l : List SpdmSession) (b id : Nat) :
    (l.filter (fun x => !(some x.id == some id && x.binding == b))).find? (fun x => x.id == id && x.binding == b) = none := by
  rw [List.find?_eq_none]
  intro x kept
  obtain ⟨-, other⟩ := List.mem_filter.mp kept
  rw [Bool.not_eq_true', show (some x.id == some id) = (x.id == id) from rfl] at other
  rw [other]
  exact Bool.false_ne_true

end Sys2Proof.Machine
end

section
/-! The family of the keyway: the SPDM responder. -/

open Sys2Proof Sys2Proof.Machine
namespace Sys2Proof.Claims

/-- Settles O50: each request in its order, out of it, and while the endpoint is down. -/
theorem spdmResponder : Obligations.SpdmResponder := by
  intro s b id data x
  refine ⟨fun down o => ?down, fun up => ?up⟩
  case down =>
    rw [exec_getVersion, exec_getCapabilities, exec_negotiateAlgorithms, exec_getDigests, exec_getCertificate, exec_challenge, exec_getMeasurements,
      exec_keyExchange, exec_finish, exec_heartbeat, exec_keyUpdate, exec_endSession]
    have unanswered {ok : Bool} {f : State → State} : Host.Outcome.next (s.spdm b ok f) = (.next s : Host.Outcome State Fault Refusal) :=
      congrArg _ (State.spdm_down down)
    exact ⟨unanswered, unanswered, unanswered, unanswered, unanswered, unanswered, unanswered, unanswered, execFinish_down down, unanswered, unanswered, unanswered⟩
  case up =>
    have handled {ok : Bool} {f : State → State} (inOrder : ok = true) :
        Host.Outcome.next (s.spdm b ok f) = (.next (f s) : Host.Outcome State Fault Refusal) := congrArg _ (State.spdm_handles up inOrder)
    refine ⟨⟨_, handled rfl, State.spdmStage_reply .., rfl, rfl⟩, fun stage => ⟨_, handled ?capable, State.spdmStage_reply .., rfl, rfl⟩,
      fun stage => ⟨_, handled ?negotiable, State.spdmStage_reply .., rfl, rfl⟩, ?refused, fun stage here established => ?inSession, fun stage => ?outside,
      fun here handshake => ?handshake, fun here established => ?established⟩
    case capable => rw [stage]; rfl
    case negotiable => rw [stage]; rfl
    case refused =>
      intro bad
      have early {n : Nat} (o : Option Nat) (other : s.spdmStage b ≠ n) : (o.isNone && s.spdmStage b == n) = false := by
        rw [beq_false_of_ne other, Bool.and_false]
      refine ⟨fun o other => State.spdm_refuses up (early o other), fun o other => State.spdm_refuses up (early o other),
        fun o other => ⟨State.spdm_refuses up (and_beq_false other _), State.spdm_refuses up (and_beq_false other _), State.spdm_refuses up (early o other),
          State.spdm_refuses up (and_beq_false other _), State.spdm_refuses up (early o other)⟩,
        State.spdm_refuses up rfl, State.spdm_refuses up rfl, State.spdm_refuses up rfl, State.spdm_refuses up rfl, State.spdm_refuses up rfl,
        ?finishNone, State.spdm_refuses up rfl, State.spdm_refuses up rfl, State.spdm_refuses up rfl, fun absent => ?absent⟩
      case finishNone =>
        simp only [bad, exec_finish, execFinish_absent (Option.bind_none _)]
        exact State.spdm_refuses up rfl
      case absent =>
        have unheld := State.sessionOk_absent absent
        have staged : (s.spdmStage b == 3 && s.sessionOk b (some id)) = false := by rw [unheld, Bool.and_false]
        refine ⟨State.spdm_refuses up staged, State.spdm_refuses up staged, State.spdm_refuses up staged, ?_, State.spdm_refuses up unheld,
          State.spdm_refuses up unheld, State.spdm_refuses up unheld⟩
        simp only [bad, exec_finish, execFinish_absent ((Option.bind_some _ _).trans absent)]
        exact State.spdm_refuses up rfl
    case inSession =>
      have inOrder : (s.spdmStage b == 3 && s.sessionOk b (some id)) = true := by
        rw [stage, State.sessionOk_of here, established]; rfl
      exact ⟨State.spdm_replies up inOrder rfl, fun slot => State.spdm_replies up inOrder (if_pos slot), fun count => State.spdm_replies up inOrder (if_pos count)⟩
    case outside =>
      have inOrder : (s.spdmStage b == 3 && s.sessionOk b none) = true := by rw [stage]; rfl
      have alone : ((none : Option Nat).isNone && s.spdmStage b == 3) = true := by rw [stage]; rfl
      refine ⟨State.spdm_replies up inOrder rfl, fun slot => State.spdm_replies up inOrder (if_pos slot), fun slot => State.spdm_errs up inOrder (if_neg slot),
        fun slot => State.spdm_replies up alone (if_pos slot), fun count => State.spdm_replies up inOrder (if_pos count),
        fun all => State.spdm_replies up inOrder ?all, fun bs count all one => State.spdm_replies up inOrder ?one,
        fun count all none' => State.spdm_errs up inOrder ?noSuch, 
        fun room slot => ⟨(s.sessionBegun b).spdmReply b 0x64 (leBytes 2 s.kwy.nextSession ++ spdmStd 0x64 data), (handled alone).trans ?begins, rfl, rfl⟩,
        fun full => State.spdm_errs up alone (if_pos full)⟩
      case all => exact (if_neg (fun count => absurd (all.symm.trans count) (by decide))).trans (if_pos all)
      case one =>
        refine (if_neg count).trans ((if_neg all).trans ?_)
        simp only [show spdmParam data 2 = le data 3 1 from rfl, one, spdmStd]
      case noSuch =>
        refine (if_neg count).trans ((if_neg all).trans ?_)
        simp only [show spdmParam data 2 = le data 3 1 from rfl, none']
      case begins =>
        have zero : ¬ (!(spdmParam data 2 % 16 == 0)) = true := by rw [show spdmParam data 2 = le data 3 1 from rfl, slot]; decide
        exact congrArg _ ((if_neg (Nat.not_le.mpr room)).trans (if_neg zero))
    case handshake =>
      rw [exec_finish, execFinish_of here]
      exact ⟨⟨_, handled (by rw [handshake]; rfl), rfl, rfl⟩, State.spdm_refuses up (by rw [State.sessionOk_of here, handshake]; rfl)⟩
    case established =>
      have inOrder : ((some id).isSome && s.sessionOk b (some id)) = true := by rw [State.sessionOk_of here, established]; rfl
      exact ⟨State.spdm_replies up inOrder rfl, State.spdm_replies up inOrder rfl, ⟨_, handled inOrder, session_filter_none _ b id, rfl⟩⟩

end Sys2Proof.Claims
end

section
/-! SUPPORT. MCTP control and PLDM (R859, R860, Table 18.3): a request while the endpoint answers, and one while it is down. -/

open Sys2Proof
namespace Sys2Proof.Machine

section
variable {s : State} {b : Nat} {vdm : Bool} {f : State → State}

theorem State.mctp_down (down : s.mctpUp b = false) : s.mctp b vdm f = s := by rw [State.mctp, down, Bool.false_and, if_neg Bool.false_ne_true]

/-- The discovery messages exist on PCIe VDM alone. -/
theorem State.mctp_elsewhere (other : b ≠ 0) : s.mctp b true f = s := by
  rw [State.mctp, beq_false_of_ne other, Bool.not_true, Bool.or_self, Bool.and_false, if_neg Bool.false_ne_true]

variable (up : s.mctpUp b = true)
include up

theorem State.mctp_handles : s.mctp b false f = f s := by rw [State.mctp, up, Bool.not_false, Bool.true_or, Bool.and_self, if_pos rfl]

theorem State.mctp_vdm (vdm' : b = 0) : s.mctp b true f = f s := by
  rw [State.mctp, up, if_pos]
  rw [vdm']
  rfl

end

section
variable {s : State} {b kind : Nat} (cmd : Nat) (data : List Byte)

theorem execPldmRequest_down (down : s.mctpUp b = false) : execPldmRequest b kind cmd data s = .next s := by
  rw [execPldmRequest, down, Bool.not_false, if_pos rfl]

variable (up : s.mctpUp b = true)
include up

theorem execPldmRequest_answers (served : kind = 0 ∨ kind = 2) :
    execPldmRequest b kind cmd data s
      = .next (s.sendMgt { kind := 2, code := cmd, status := 0, binding := b, bytes := Config.stdResponse (64 + kind) cmd (data ++ s.sensors) }) := by
  rw [execPldmRequest, up, Bool.not_true, if_neg Bool.false_ne_true, if_pos served]

theorem execPldmRequest_unsupported (unserved : ¬ (kind = 0 ∨ kind = 2)) :
    execPldmRequest b kind cmd data s = .next (s.sendMgt { kind := 2, code := cmd, status := 0x20, bytes := [], binding := b }) := by
  rw [execPldmRequest, up, Bool.not_true, if_neg Bool.false_ne_true, if_neg unserved]

end

end Sys2Proof.Machine
end

section
/-! The family of the management plane: MCTP and PLDM. -/

open Sys2Proof Sys2Proof.Machine
namespace Sys2Proof.Claims

/-- Settles O51: each message while the endpoint answers, on its bindings, and while it is down. -/
theorem mctpAndPldm : Obligations.MctpAndPldm := by
  intro s b eid kind cmd data sent reply
  refine ⟨fun up => ?up, fun down => ?down⟩
  case down =>
    have unanswered {vdm : Bool} {f : State → State} : Host.Outcome.next (s.mctp b vdm f) = (.next s : Host.Outcome State Fault Refusal) :=
      congrArg _ (State.mctp_down down)
    exact ⟨unanswered, unanswered, unanswered, unanswered, unanswered, unanswered, unanswered, unanswered, unanswered, execPldmRequest_down cmd data down⟩
  case up =>
    have handled {f : State → State} : Host.Outcome.next (s.mctp b false f) = (.next (f s) : Host.Outcome State Fault Refusal) :=
      congrArg _ (State.mctp_handles up)
    have vdm (b0 : b = 0) {f : State → State} : Host.Outcome.next (s.mctp b true f) = (.next (f s) : Host.Outcome State Fault Refusal) :=
      congrArg _ (State.mctp_vdm up b0)
    have elsewhere (other : b ≠ 0) {f : State → State} : Host.Outcome.next (s.mctp b true f) = (.next s : Host.Outcome State Fault Refusal) :=
      congrArg _ (State.mctp_elsewhere other)
    refine ⟨fun low high => ⟨State.mctpReply { s with mgt := { s.mgt with eid := eid % 256, discovered := true } } b 1 0 (mctpStd 1 (leBytes 1 eid)),
        handled.trans (congrArg _ (if_neg (fun h => h.elim low high))), rfl, rfl, rfl⟩,
      fun reserved => handled.trans (congrArg _ (if_pos reserved)), handled, handled, handled, handled, handled,
      fun b0 => ⟨⟨_, vdm b0, rfl, rfl⟩, fun fresh => (vdm b0).trans (congrArg _ (if_neg (Bool.eq_false_iff.mp fresh))),
        fun known => (vdm b0).trans (congrArg _ (if_pos known)), vdm b0⟩,
      fun other => ⟨elsewhere other, elsewhere other, elsewhere other⟩, fun served => execPldmRequest_answers cmd data up served,
      fun not0 not2 => execPldmRequest_unsupported cmd data up (fun h => h.elim not0 not2)⟩

end Sys2Proof.Claims
end

section
/-! SUPPORT. Vendor-defined messages, alerts, wardens and the black box (R858 to R873): what each command leaves, per outcome of its checks. -/

open Sys2Proof
namespace Sys2Proof.Machine

theorem exec_capSet (b : Nat) (sec : Bool) (w : Nat) (s : State) : exec (.capSet b sec w) s = execCapSet b sec w s := rfl
theorem exec_kill (b : Nat) (sec : Bool) (v : Word) (s : State) : exec (.kill b sec v) s = execKill b sec v s := rfl
theorem exec_mgtAlertWrite (v : Word) (s : State) : exec (.mgtAlertWrite v) s = execMgtAlertWrite v s := rfl
theorem exec_wardenWatchdog (w : Nat) (s : State) : exec (.wardenWatchdog w) s = execWardenWatchdog w s := rfl
theorem exec_bbEntryProgram (s : State) : exec .bbEntryProgram s = execBbEntryProgram s := rfl
theorem exec_bbSectorErase (s : State) : exec .bbSectorErase s = execBbSectorErase s := rfl
theorem exec_bbRdIdxWrite (v : Word) (s : State) : exec (.bbRdIdxWrite v) s = execBbRdIdxWrite v s := rfl
theorem exec_bbRdLatchDone (s : State) : exec .bbRdLatchDone s = execBbRdLatchDone s := rfl

theorem State.reg_setBb (s : State) (x : BbSt) (a : Nat) : ({ s with bb := x } : State).reg a = s.reg a := by simp only [State.reg]

theorem natBits_zero_width (v w : Nat) : natBits v 0 w = v % 2 ^ w := by rw [natBits, Nat.pow_zero, Nat.div_one]

/-! ### Vendor-defined messages -/

section
variable {s : State} {b n : Nat} {sec : Bool}

section
variable (down : s.mctpUp b = false)
include down

theorem execGetStatus_down : execGetStatus b s = .next s := by rw [execGetStatus, down, if_neg Bool.false_ne_true]
theorem execEvRead_down : execEvRead b n s = .next s := by rw [execEvRead, down, Bool.not_false, if_pos rfl]
theorem execBbInfo_down : execBbInfo b s = .next s := by rw [execBbInfo, down, if_neg Bool.false_ne_true]
theorem execBbRead_down : execBbRead b n s = .next s := if_pos (by rw [down, Bool.not_false])
theorem execCapSet_down : execCapSet b sec n s = .next s := by rw [execCapSet, down, Bool.not_false, if_pos rfl]
theorem execKill_down (v : Word) : execKill b sec v s = .next s := by rw [execKill, down, Bool.not_false, if_pos rfl]
theorem execAlertAck_down : execAlertAck b s = .next s := by rw [execAlertAck, down, if_neg Bool.false_ne_true]

end

variable (up : s.mctpUp b = true)
include up

theorem execGetStatus_up :
    execGetStatus b s = .next (s.vendorReply b 1 0 ([RA.MGT_BOOT_STAT, RA.KWY_STAT, RA.PWR_STAT, RA.MGT_ALERT].flatMap (fun a => leBytes 4 (s.reg a).toNat))) := by
  rw [execGetStatus, up, if_pos rfl]

theorem execEvRead_reads (inRange : 1 ≤ n ∧ n ≤ 4) :
    execEvRead b n s = .next (State.vendorReply { s with mgt := { s.mgt with queue := s.mgt.queue.drop n } } b 2 0 ((s.mgt.queue.take n).flatMap Rec.bytes)) := by
  rw [execEvRead, up, Bool.not_true, if_neg Bool.false_ne_true, if_pos inRange]

theorem execEvRead_other (other : ¬ (1 ≤ n ∧ n ≤ 4)) :
    execEvRead b n s = .next (s.nextFree.2.vendorReply b 2 (Config.freeNat s.nextFree.1) []) := by
  rw [execEvRead, up, Bool.not_true, if_neg Bool.false_ne_true, if_neg other]

theorem execBbInfo_up :
    execBbInfo b s = .next (s.vendorReply b 3 0 ([RA.MGT_BB_HEAD_LO, RA.MGT_BB_HEAD_HI, RA.MGT_BB_OLDEST_LO, RA.MGT_BB_OLDEST_HI].flatMap
      (fun a => leBytes 4 (s.reg a).toNat) ++ s.bbChain)) := by
  rw [execBbInfo, up, if_pos rfl]

theorem execBbRead_held {bs : List Byte} (held : s.bbEntry n = some bs) : execBbRead b n s = .next (s.vendorReply b 4 0 bs) := by
  simp only [execBbRead, up, Bool.not_true, Bool.false_eq_true, if_false, held]

theorem execBbRead_absent (absent : s.bbEntry n = none) : execBbRead b n s = .next (s.vendorReply b 4 0x82 []) := by
  simp only [execBbRead, up, Bool.not_true, Bool.false_eq_true, if_false, absent]

theorem execCapSet_up : execCapSet b sec n s
    = .next (if s.secured b sec then (s.setFld RF.PWR_CAP_MGT_WATTS n).vendorReply b 5 0 [] else s.vendorReply b 5 0x81 []) := by
  rw [execCapSet, up, Bool.not_true, if_neg Bool.false_ne_true]
  exact (apply_ite Host.Outcome.next _ _ _).symm

theorem execKill_open (v : Word) (unsecured : s.secured b sec = false) : execKill b sec v s = .next (s.vendorReply b 6 0x81 []) := by
  rw [execKill, up, Bool.not_true, if_neg Bool.false_ne_true, unsecured, Bool.not_false, if_pos rfl]

theorem execKill_secured (v : Word) (secured : s.secured b sec = true) :
    execKill b sec v s = .next (if s.ticking then { s with mgt := { s.mgt with heldKill := s.mgt.heldKill ++ [(b, v.toNat)] } } else s.vendorReply b 6 0x83 []) := by
  rw [execKill, up, Bool.not_true, if_neg Bool.false_ne_true, secured, Bool.not_true, if_neg Bool.false_ne_true]
  cases ticks : s.ticking with
  | false => rw [Bool.not_false, if_pos rfl, if_neg Bool.false_ne_true]
  | true => rw [Bool.not_true, if_neg Bool.false_ne_true, if_pos rfl]

theorem execAlertAck_up : execAlertAck b s = .next (s.ackAlerts.vendorReply b 7 0 []) := by rw [execAlertAck, up, if_pos rfl]

end

/-! ### Alerts and wardens -/

theorem execMgtAlertWrite_zero {s : State} {v : Word} (zero : natBit v.toNat 0 = false) : execMgtAlertWrite v s = .next s := by
  rw [execMgtAlertWrite, zero, Bool.and_false, if_neg Bool.false_ne_true]

theorem execMgtAlertWrite_one {s : State} {v : Word} (alive : s.alive = true) (one : natBit v.toNat 0 = true) : execMgtAlertWrite v s = .next s.ackAlerts := by
  rw [execMgtAlertWrite, one, alive, Bool.and_self, if_pos rfl]

/-- With no alert of this cycle, an acknowledgement leaves none (R864). -/
theorem State.ackAlerts_all {s : State} (older : s.mgt.alertAt ≠ s.now) :
    s.ackAlerts.mgt.unacked = 0 ∧ s.ackAlerts.flag RF.MGT_ALERT_ASSERTED = false ∧ s.ackAlerts.fld RF.MGT_ALERT_PENDING = 0 := by
  simp only [State.ackAlerts, if_neg older]
  refine ⟨?_, State.flag_setFlag_same _ _ _ rfl (by decide), ?_⟩
  · rw [State.setFlag_mgt, State.setFld_mgt]
  · rw [State.setFlag, State.fld_setFld_disjoint _ RF.MGT_ALERT_ASSERTED RF.MGT_ALERT_PENDING _ rfl (by decide) (by decide) (by decide) (by decide),
      State.fld_setFld_same _ _ _ (by decide) (by decide)]
    rfl

/-- The state in which a warden counts as failed. -/
def State.wardenFails (s : State) (w : Nat) : State :=
  State.setFld { s with boot := { s.boot with wardenDead := Nat.lor s.boot.wardenDead (2 ^ w) } } RF.MGT_WDOG_EXPIRED
    (Nat.lor (s.fld RF.MGT_WDOG_EXPIRED) (2 ^ w))

theorem execWardenWatchdog_fires {s : State} {w : Nat} (alive : s.alive = true) (runs : s.boot.fwRunning = true) (inRange : w < 4)
    (lives : natBit s.boot.wardenDead w = false) :
    execWardenWatchdog w s = .next ((s.wardenFails w).emit { code := 0x1208, srcKind := 10, srcId := w, detail := detailOf [(52, 1, w)] }) := by
  rw [execWardenWatchdog, alive, runs, decide_eq_true inRange, lives, if_pos (by decide)]
  rfl

/-! ### The black box: entries -/

theorem State.syncHead_bb (s : State) : s.syncHead.bb = s.bb := by
  rw [State.syncHead, State.setFlag_bb, State.setFld64_bb, State.setFld64_bb]

theorem State.erasing_syncHead (s : State) : s.syncHead.flag RF.MGT_BB_STAT_ERASING = s.bb.erasing.isSome := by
  rw [State.syncHead, State.flag_setFlag_same _ _ _ rfl (by decide), State.setFld64_bb, State.setFld64_bb]

theorem State.advanceHead_bb (s : State) : ∃ x, s.advanceHead.bb = { s.bb with head := (s.bb.head + 1) % bbSlots, erasing := x } := by
  rw [State.advanceHead]
  split
  · exact ⟨_, rfl⟩
  · exact ⟨s.bb.erasing, rfl⟩

/-- The state in which an entry has been programmed at the head (R868, R869). -/
def State.entryProgrammed (s : State) (e : BbPend) (r : List BbPend) : State :=
  let t := s.setSlot s.bb.head { bytes := s.bbBody e ++ sm3 (s.bbChain ++ s.bbBody e) }
  let t : State := { t with bb := { t.bb with buffer := r, index := t.bb.index + 1, chain := sm3 (s.bbChain ++ s.bbBody e) } }
  ((t.bump RF.MGT_BB_WRITTEN_COUNT).syncBb.advanceHead).syncHead

theorem State.entryProgrammed_bb (s : State) (e : BbPend) (r : List BbPend) :
    ∃ x, (s.entryProgrammed e r).bb = { s.bb with
      slots := kvSet (fun _ => {}) s.bb.slots s.bb.head { bytes := s.bbBody e ++ sm3 (s.bbChain ++ s.bbBody e) }
      buffer := r, index := s.bb.index + 1, chain := sm3 (s.bbChain ++ s.bbBody e), head := (s.bb.head + 1) % bbSlots, erasing := x } := by
  rw [State.entryProgrammed, State.syncHead_bb]
  obtain ⟨x, head⟩ := State.advanceHead_bb (State.syncBb (State.bump
    { s.setSlot s.bb.head { bytes := s.bbBody e ++ sm3 (s.bbChain ++ s.bbBody e) } with
      bb := { (s.setSlot s.bb.head { bytes := s.bbBody e ++ sm3 (s.bbChain ++ s.bbBody e) }).bb with
        buffer := r, index := s.bb.index + 1, chain := sm3 (s.bbChain ++ s.bbBody e) } } RF.MGT_BB_WRITTEN_COUNT))
  refine ⟨x, head.trans ?_⟩
  rw [State.syncBb, State.setFld_bb, State.bump_bb, State.setSlot]

section
variable {s : State} {e : BbPend} {r : List BbPend} (next' : s.bb.buffer = e :: r) (ready : s.flag RF.MGT_BB_STAT_READY = true)
  (free : s.bb.erasing ≠ some (s.bb.head / bbPerSector))
include next' ready free

theorem execBbEntryProgram_of :
    execBbEntryProgram s = .next (if s.bb.lostRun = 0 then s.entryProgrammed e r else
      State.emit { s.entryProgrammed e r with bb := { (s.entryProgrammed e r).bb with lostRun := 0 } }
        { code := 0x1207, detail := detailOf [(52, 4, s.bb.lostRun)] }) := by
  obtain ⟨x, bb⟩ := s.entryProgrammed_bb e r
  have lost : (s.entryProgrammed e r).bb.lostRun = s.bb.lostRun := by rw [bb]
  rw [← lost]
  simp only [execBbEntryProgram, next', ready, beq_false_of_ne free, Bool.not_false, Bool.and_self, if_true]
  rfl

end

theorem execBbEntryProgram_waits {s : State}
    (waits : s.bb.buffer = [] ∨ s.flag RF.MGT_BB_STAT_READY = false ∨ s.bb.erasing = some (s.bb.head / bbPerSector)) : execBbEntryProgram s = .next s := by
  cases buffered : s.bb.buffer with
  | nil => simp only [execBbEntryProgram, buffered]
  | cons e r =>
    have held : (s.flag RF.MGT_BB_STAT_READY && !(s.bb.erasing == some (s.bb.head / bbPerSector))) = false := by
      rcases waits with empty | unready | erases
      · rw [buffered] at empty; exact absurd empty (List.cons_ne_nil _ _)
      · rw [unready, Bool.false_and]
      · rw [erases, beq_self_eq_true, Bool.not_true, Bool.and_false]
    simp only [execBbEntryProgram, buffered, held, Bool.false_eq_true, if_false]

/-! ### The black box: erasing and reading -/

/-- The state in which a sector has been erased. -/
def State.sectorErased (s : State) (k : Nat) : State :=
  State.syncHead { s with bb := { s.bb with erasing := none, slots := s.bb.slots.filter (fun p => !(p.1 / bbPerSector == k)) } }

/-- The state in which a latch of the entry under an INDEX has begun. -/
def State.latching (s : State) (v : Word) : State :=
  ({ s.setReg RA.MGT_BB_RD_IDX_LO v with bb := { (s.setReg RA.MGT_BB_RD_IDX_LO v).bb with
    rdIdx := some ((s.setReg RA.MGT_BB_RD_IDX_LO v).fld64 RF.MGT_BB_RD_IDX_LO_INDEX RF.MGT_BB_RD_IDX_HI_INDEX) } } : State).setFlag
      RF.MGT_BB_STAT_RD_BUSY true

theorem State.rdIdx_latching (s : State) (v : Word) : (s.latching v).bb.rdIdx = some (v.toNat + 2 ^ 32 * s.fld RF.MGT_BB_RD_IDX_HI_INDEX) := by
  have lo : (s.setReg RA.MGT_BB_RD_IDX_LO v).fld RF.MGT_BB_RD_IDX_LO_INDEX = v.toNat := by
    rw [State.fld, show RF.MGT_BB_RD_IDX_LO_INDEX.addr = RA.MGT_BB_RD_IDX_LO from rfl, State.reg_setReg_same]
    exact (natBits_zero_width v.toNat 32).trans (Nat.mod_eq_of_lt v.isLt)
  have hi : (s.setReg RA.MGT_BB_RD_IDX_LO v).fld RF.MGT_BB_RD_IDX_HI_INDEX = s.fld RF.MGT_BB_RD_IDX_HI_INDEX :=
    State.fld_eq_of_reg _ (State.reg_setReg_other _ _ (by decide))
  rw [State.latching, State.setFlag_bb, State.fld64, lo, hi]

theorem State.reg_latching (s : State) (v : Word) : (s.latching v).reg RA.MGT_BB_RD_IDX_LO = v := by
  rw [State.latching, State.setFlag, State.reg_setFld_other _ _ _ (by decide), State.reg_setBb, State.reg_setReg_same]

/-- The state in which the latched entry stands in MGT_BB_RD_DATA. -/
def State.latched (s : State) (n : Nat) : State :=
  ((State.setRegBytes { s with bb := { s.bb with rdIdx := none } } RA.MGT_BB_RD_DATA 32 ((s.bbEntry n).getD (List.replicate 128 0)))).setFlag
    RF.MGT_BB_STAT_RD_BUSY false

theorem State.setRegBytes_bb (s : State) (a : Nat → Nat) (n : Nat) (bs : List Byte) : (s.setRegBytes a n bs).bb = s.bb := by
  rw [State.setRegBytes]
  induction n generalizing s with
  | zero => rfl
  | succ n ih => rw [List.range_succ, List.foldl_append, List.foldl_cons, List.foldl_nil, State.setReg_bb, ih]

theorem MGT_BB_RD_DATA_injective : Function.Injective RA.MGT_BB_RD_DATA := by
  intro a b h
  simp only [RA.MGT_BB_RD_DATA] at h
  omega

theorem State.reg_latched (s : State) (n : Nat) {k : Nat} (h : k < 32) :
    (s.latched n).reg (RA.MGT_BB_RD_DATA k) = BitVec.ofNat 32 (leNat ((((s.bbEntry n).getD (List.replicate 128 0)).drop (4 * k)).take 4)) := by
  have other : RA.MGT_BB_RD_DATA k ≠ RA.MGT_BB_STAT := by simp only [RA.MGT_BB_RD_DATA, RA.MGT_BB_STAT]; omega
  rw [State.latched, State.setFlag]
  refine (State.reg_setFld_other _ RF.MGT_BB_STAT_RD_BUSY _ other).trans ?_
  rw [State.setRegBytes]
  exact State.reg_foldl_setReg RA.MGT_BB_RD_DATA MGT_BB_RD_DATA_injective _ 32 _ h

end Sys2Proof.Machine
end

section
/-! The family of the management plane: vendor-defined messages and the black box. -/

open Sys2Proof Sys2Proof.Machine
namespace Sys2Proof.Claims

/-- Settles O52: each message while the endpoint answers and while it is down, then alerts, wardens and the writer of the black box. -/
theorem vendorMessagesAndBlackBox : Obligations.VendorMessagesAndBlackBox := by
  intro s b n wrd v e r say
  rw [exec_mgtAlertWrite, exec_wardenWatchdog, exec_bbEntryProgram, exec_bbSectorErase, exec_bbRdIdxWrite, exec_bbRdLatchDone]
  refine ⟨fun up => ⟨execGetStatus_up up, fun low high => execEvRead_reads up ⟨low, high⟩, execBbInfo_up up, fun bs held => execBbRead_held up held,
      fun absent => execBbRead_absent up absent, fun sec unsecured => ⟨?capOpen, execKill_open up v unsecured⟩,
      fun sec secured => ⟨?capSecured, fun ticks => ?killHeld, fun still => ?killStill⟩, execAlertAck_up up, fun other => ?evOther⟩,
    fun down => ⟨execGetStatus_down down, execEvRead_down down, execBbInfo_down down, execBbRead_down down, fun sec => ⟨execCapSet_down down, execKill_down down v⟩,
      execAlertAck_down down⟩,
    execMgtAlertWrite_zero, execMgtAlertWrite_one, State.ackAlerts_all,
    fun alive runs inRange lives => ⟨s.wardenFails wrd, execWardenWatchdog_fires alive runs inRange lives, ?dead, ?keepsMgt⟩,
    fun next' ready free none' => ⟨s.entryProgrammed e r, ?programs, ?entry⟩,
    fun next' ready free lost => ⟨{ s.entryProgrammed e r with bb := { (s.entryProgrammed e r).bb with lostRun := 0 } }, rfl, ?index, ?chain, ?buffer, ?lost⟩,
    execBbEntryProgram_waits, fun idle => ?eraseIdle, fun idle => ?latchIdle,
    fun erases => ⟨s.sectorErased n, ?erases, ?erased, ?slots, ?flag⟩, fun alive booted => ⟨s.latching v, ?latches, State.flag_setFlag_same _ _ _ rfl (by decide),
      s.reg_latching v, s.rdIdx_latching v⟩,
    fun latches => ⟨s.latched n, ?latched, ?rdIdx, State.flag_setFlag_same _ _ _ rfl (by decide), fun k h => s.reg_latched n h⟩⟩
  case capOpen => rw [exec_capSet, execCapSet_up up, unsecured, if_neg Bool.false_ne_true]; rfl
  case capSecured => rw [exec_capSet, execCapSet_up up, secured, if_pos rfl]; rfl
  case killHeld => rw [exec_kill, execKill_secured up v secured, ticks, if_pos rfl]
  case killStill => rw [exec_kill, execKill_secured up v secured, still, if_neg Bool.false_ne_true]; rfl
  case evOther =>
    refine ⟨_, execEvRead_other up (by omega), ?_, State.nextFree_regs s⟩
    show s.nextFree.2.mgt.queue = s.mgt.queue
    rw [State.nextFree_mgt]
  case dead => rw [State.wardenFails, State.setFld_boot]
  case keepsMgt => rw [State.wardenFails, State.setFld_mgt]
  case programs => rw [execBbEntryProgram_of next' ready free, if_pos none']
  case entry =>
    obtain ⟨x, bb⟩ := s.entryProgrammed_bb e r
    rw [bb]
    refine ⟨rfl, rfl, rfl, rfl, ?_, fun k other => ?_⟩
    · simp only [kvGet_set_same]
    · simp only [kvGet_set, if_neg other]
  case index => obtain ⟨x, bb⟩ := s.entryProgrammed_bb e r; rw [bb]
  case chain => obtain ⟨x, bb⟩ := s.entryProgrammed_bb e r; rw [bb]
  case buffer => obtain ⟨x, bb⟩ := s.entryProgrammed_bb e r; rw [bb]
  case lost => rw [execBbEntryProgram_of next' ready free, if_neg lost]
  case eraseIdle => simp only [execBbSectorErase, idle]
  case latchIdle => simp only [execBbRdLatchDone, idle]
  case erases => simp only [execBbSectorErase, erases, State.sectorErased]
  case erased => rw [State.sectorErased, State.syncHead_bb]
  case slots => rw [State.sectorErased, State.syncHead_bb]
  case flag => rw [State.sectorErased, State.erasing_syncHead, Option.isSome_none]
  case latches => rw [execBbRdIdxWrite, alive, decide_eq_true booted, Bool.and_self, if_pos rfl, State.latching]
  case latched => simp only [execBbRdLatchDone, latches, State.latched]
  case rdIdx => rw [State.latched, State.setFlag_bb, State.setRegBytes_bb]

end Sys2Proof.Claims
end

section
/-! SUPPORT. Tick timers, multi-function pins and the test port (R118 to R121, R835, R874 to R881). -/

open Sys2Proof
namespace Sys2Proof.Machine

theorem exec_tickTimerExpire (n : Nat) (s : State) : exec (.tickTimerExpire n) s = execTickTimerExpire n s := rfl
theorem exec_mfpInputEdge (n k : Nat) (s : State) : exec (.mfpInputEdge n k) s = execMfpInputEdge n k s := rfl
theorem exec_jtagTckEdge (rise trstN tms tdi : Bool) (s : State) : exec (.jtagTckEdge rise trstN tms tdi) s = execJtagTckEdge rise trstN tms tdi s := rfl

/-! ### Tick timers -/

/-- The marker pins of a timer. -/
def State.marksOf (s : State) (n : Nat) : List Nat :=
  (List.range 16).filter (fun i => (s.ward.image.pins.getD i {}).func == 3 && (s.ward.image.pins.getD i {}).timer == n)

/-- The state in which a timer has expired: once in its tick, with its markers' pulses begun (R120). -/
def State.timerExpired (s : State) (n tick : Nat) : State :=
  { s with pins := { s.pins with
    timerBase := setN s.pins.timerBase n (tick + 1)
    markerUntil := (s.marksOf n).foldl (fun m i => setN m i (s.now + 500)) s.pins.markerUntil } }

section
variable {s : State} {n tick : Nat} {t : TimerEnt} (ticked : s.tick.lastTick = some tick)
include ticked

theorem execTickTimerExpire_due (timer : s.ward.image.timers[n]? = some t) (ticks : s.ticking = true) (enabled : t.en = true) (undue : s.tick.due = none)
    (due : s.now = tick + refPeriod * t.offset) (first : kvN s.pins.timerBase n ≠ tick + 1) :
    execTickTimerExpire n s
      = .next (if t.fire then (s.timerExpired n tick).devArrive 6 s.boot.leafSel t.tumbler else s.timerExpired n tick) := by
  simp only [execTickTimerExpire, timer, ticked, ticks, enabled, undue, due, beq_self_eq_true, beq_false_of_ne first, Option.isNone_none, Bool.not_false,
    Bool.and_self, if_true]
  rw [State.timerExpired, due]
  rfl

theorem execTickTimerExpire_again (expired : kvN s.pins.timerBase n = tick + 1) : execTickTimerExpire n s = .next s := by
  cases timer : s.ward.image.timers[n]? with
  | none => simp only [execTickTimerExpire, timer]
  | some t => simp only [execTickTimerExpire, timer, ticked, expired, beq_self_eq_true, Bool.not_true, Bool.and_false, Bool.false_eq_true, if_false]

end

/-! ### Pins -/

/-- The state in which a pin's input has been seen. -/
def State.pinSeen (s : State) (n k seen : Nat) : State :=
  State.syncMfp { s with pins := { s.pins with
    mfpIn := natSetBits s.pins.mfpIn n 1 (if k = 0 then 0 else 1), mfpSeen := natSetBits s.pins.mfpSeen n 1 seen } }

section
variable {s : State} {n k : Nat} {p : PinEnt} (pin : s.ward.image.pins[n]? = some p) (inRange : n < 16) (ticks : s.ticking = true)
include pin inRange ticks

theorem execMfpInputEdge_left (left : k = 0) : execMfpInputEdge n k s = .next (s.pinSeen n k 0) := by
  subst left
  simp only [execMfpInputEdge, pin, ticks, decide_eq_false (Nat.not_le.mpr inRange), Bool.not_true, Bool.or_self, Bool.false_eq_true, if_false, if_true,
    decide_eq_false (show ¬ 100 ≤ 0 by decide), Bool.false_and, Bool.not_false, State.pinSeen]

theorem execMfpInputEdge_short (present : k ≠ 0) (short : k < 100) :
    execMfpInputEdge n k s = .next (s.pinSeen n k (natBit s.pins.mfpSeen n).toNat) := by
  simp only [execMfpInputEdge, pin, ticks, decide_eq_false (Nat.not_le.mpr inRange), Bool.not_true, Bool.or_self, Bool.false_eq_true, if_false, if_neg present,
    if_neg (Nat.not_le.mpr short), decide_eq_false (Nat.not_le.mpr short), Bool.false_and, Bool.not_false, if_true, State.pinSeen]

theorem execMfpInputEdge_again (long : 100 ≤ k) (seen : natBit s.pins.mfpSeen n = true) : execMfpInputEdge n k s = .next (s.pinSeen n k 1) := by
  have present : k ≠ 0 := by omega
  simp only [execMfpInputEdge, pin, ticks, decide_eq_false (Nat.not_le.mpr inRange), Bool.not_true, Bool.or_self, Bool.false_eq_true, if_false, if_neg present,
    if_pos long, seen, Bool.and_false, Bool.not_false, if_true, State.pinSeen]

/-- An edge that has stayed 100 cycles is recognised, once (R50, R118). -/
theorem execMfpInputEdge_recognised (long : 100 ≤ k) (new : natBit s.pins.mfpSeen n = false) :
    execMfpInputEdge n k s = .next (if p.func = 6 then (s.pinSeen n k 1).devArrive 6 (s.pinSeen n k 1).boot.leafSel p.tumbler
      else if p.func = 7 then (s.pinSeen n k 1).capture p.buffer none else s.pinSeen n k 1) := by
  have present : k ≠ 0 := by omega
  simp only [execMfpInputEdge, pin, ticks, decide_eq_false (Nat.not_le.mpr inRange), Bool.not_true, Bool.or_self, Bool.false_eq_true, if_false, if_neg present,
    if_pos long, new, decide_eq_true long, Bool.not_false, Bool.and_self, State.pinSeen]
  rw [apply_ite Host.Outcome.next, apply_ite Host.Outcome.next]

end

theorem State.boot_pinSeen (s : State) (n k seen : Nat) : (s.pinSeen n k seen).boot = s.boot := by rw [State.pinSeen, State.syncMfp, State.setFld_boot]

section
variable {s : State} {n : Nat} {p : PinEnt} (pin : s.ward.image.pins[n]? = some p)
include pin

theorem pins_getD : s.ward.image.pins.getD n {} = p := by rw [List.getD_eq_getElem?_getD, pin, Option.getD_some]

/-- An output pin shows its asserted state as ACTIVE_LOW says (Table 3.7). -/
theorem State.mfpLevel_output (output : p.func = 3 ∨ p.func = 4 ∨ p.func = 5) :
    s.mfpLevel n = if s.mfpAsserted n = p.activeLow then .low else .high := by
  have pulls : p.func ≠ 2 := by omega
  simp only [State.mfpLevel, pins_getD pin, if_neg pulls, if_pos output, beq_iff_eq]

theorem State.mfpLevel_openDrain (drain : p.func = 2) : s.mfpLevel n = if s.mfpAsserted n = p.activeLow then .low else .released := by
  simp only [State.mfpLevel, pins_getD pin, if_pos drain, beq_iff_eq]

theorem State.mfpLevel_other (other : p.func < 2 ∨ 5 < p.func) : s.mfpLevel n = .released := by
  simp only [State.mfpLevel, pins_getD pin, if_neg (show p.func ≠ 2 by omega), if_neg (show ¬ (p.func = 3 ∨ p.func = 4 ∨ p.func = 5) by omega)]

end

/-! ### The test port -/

section
variable {s : State} (powered : s.boot.power ≠ .unpowered) (tms tdi : Bool)
include powered

theorem execJtagTckEdge_reset (rise : Bool) : execJtagTckEdge rise false tms tdi s = .next { s with jtag := {} } := by
  rw [execJtagTckEdge, if_neg powered, Bool.not_false, if_pos rfl]

theorem execJtagTckEdge_rise : execJtagTckEdge true true tms tdi s = .next (s.tapRise tms tdi) := by
  rw [execJtagTckEdge, if_neg powered, Bool.not_true, if_neg Bool.false_ne_true, if_pos rfl]

theorem execJtagTckEdge_fall : execJtagTckEdge false true tms tdi s = .next s.tapFall := by
  rw [execJtagTckEdge, if_neg powered, Bool.not_true, if_neg Bool.false_ne_true, if_neg Bool.false_ne_true]

end

/-- On a rising edge the controller moves, and a register that is being shifted takes TDI. -/
theorem State.tapRise_moves (s : State) (tms tdi : Bool) :
    (s.tapRise tms tdi).jtag.tap = s.jtag.tap.next tms ∧ (s.tapRise tms tdi).jtag.tdo = s.jtag.tdo ∧ (s.tapRise tms tdi).jtag.ir = s.jtag.ir ∧
      (s.tapRise tms tdi).regs = s.regs ∧ (s.jtag.tap = .shiftDr → (s.tapRise tms tdi).jtag.dr = s.jtag.dr.drop 1 ++ [tdi]) ∧
      (s.jtag.tap = .shiftIr → (s.tapRise tms tdi).jtag.irShift = s.jtag.irShift.drop 1 ++ [tdi]) := by
  cases tap : s.jtag.tap <;> simp only [State.tapRise, tap, reduceCtorEq, false_implies, forall_const, and_self]

/-- On a falling edge TDO follows what is shifted, and an instruction takes effect. -/
theorem State.tapFall_shows (s : State) :
    s.tapFall.jtag.tap = s.jtag.tap ∧ s.tapFall.regs = s.regs ∧ (s.jtag.tap = .shiftDr → s.tapFall.jtag.tdo = s.jtag.dr.head?) ∧
      (s.jtag.tap = .updIr → s.tapFall.jtag.ir = s.jtag.irShift) := by
  cases tap : s.jtag.tap <;> simp only [State.tapFall, tap, reduceCtorEq, false_implies, forall_const, and_self]

end Sys2Proof.Machine
end

section
/-! The family of pins and the test port. -/

open Sys2Proof Sys2Proof.Machine
namespace Sys2Proof.Claims

/-- Settles O54: a timer, a pin's input by the length of its edge, a pin's output by its function, and the two edges of TCK. -/
theorem pinsAndTestPort : Obligations.PinsAndTestPort := by
  intro s n k at_ t p tms tdi rise
  rw [exec_tickTimerExpire, exec_mfpInputEdge, exec_jtagTckEdge, exec_jtagTckEdge, exec_jtagTckEdge, exec_jtagTckEdge]
  refine ⟨fun timer ticked ticks enabled undue due first => ⟨s.timerExpired n at_, kvN_setN_same s.pins.timerBase n (at_ + 1), rfl, rfl,
      execTickTimerExpire_due ticked timer ticks enabled undue due first⟩,
    fun ticked expired => execTickTimerExpire_again ticked expired, fun pin inRange ticks => ⟨fun left => execMfpInputEdge_left pin inRange ticks left,
      fun present short => execMfpInputEdge_short pin inRange ticks present short, fun long seen => execMfpInputEdge_again pin inRange ticks long seen,
      fun long new => ?recognised⟩,
    fun pin => ⟨fun f => ?f2, fun f => ?f3, fun f => ?f4, fun f => ?f5, State.mfpLevel_other pin⟩,
    fun powered => ⟨execJtagTckEdge_reset powered tms tdi rise, ⟨_, execJtagTckEdge_rise powered tms tdi, s.tapRise_moves tms tdi⟩,
      ⟨_, execJtagTckEdge_fall powered tms tdi, s.tapFall_shows⟩⟩, fun unpowered => ?unpowered⟩
  case recognised =>
    have edge := execMfpInputEdge_recognised pin inRange ticks long new
    rw [State.boot_pinSeen] at edge
    exact ⟨fun fires => edge.trans (congrArg _ (if_pos fires)),
      fun captures => edge.trans (congrArg _ ((if_neg (by omega)).trans (if_pos captures))),
      fun not6 not7 => edge.trans (congrArg _ ((if_neg not6).trans (if_neg not7)))⟩
  case f2 => rw [State.mfpLevel_openDrain pin f]; simp only [State.mfpAsserted, pins_getD pin, f]
  case f3 => rw [State.mfpLevel_output pin (by omega)]; simp only [State.mfpAsserted, pins_getD pin, f]
  case f4 => rw [State.mfpLevel_output pin (by omega)]; simp only [State.mfpAsserted, pins_getD pin, f]
  case f5 => rw [State.mfpLevel_output pin (by omega)]; simp only [State.mfpAsserted, pins_getD pin, f]
  case unpowered => rw [execJtagTckEdge, if_pos unpowered]

end Sys2Proof.Claims
end

section
/-! SUPPORT. Register writes (R9, R14, R258, R674 to R677, R680): the bits of a written word, what else a write leaves, and where an address leads. -/

open Sys2Proof
namespace Sys2Proof.Machine

theorem exec_registerWrite (fn a : Nat) (v : Word) (s : State) : exec (.registerWrite fn a v) s = execRegisterWrite fn a v s := rfl

/-! ### The bits of a written word (Table 0.3) -/

/-- Each bit of a written word by its access codes: `m` the codes that take the value written. -/
theorem RegRow.getLsbD_written (r : RegRow) (loaded : Bool) (own : Nat) (old v : Word) {k : Nat} (inRange : k < 32) :
    (r.written loaded own old v).getLsbD k =
      let m := (if loaded then r.rw.testBit k else r.rw.testBit k || r.rwl.testBit k) && !own.testBit k
      ((((old.getLsbD k && !m) || (v.getLsbD k && m)) && !(r.w1c.testBit k && !own.testBit k && v.getLsbD k)) ||
        (r.w1s.testBit k && !own.testBit k && v.getLsbD k)) := by
  have codes : (if loaded then r.rw else Nat.lor r.rw r.rwl).testBit k = if loaded then r.rw.testBit k else r.rw.testBit k || r.rwl.testBit k := by
    cases loaded with
    | true => rfl
    | false => exact Nat.testBit_or r.rw r.rwl k
  simp only [RegRow.written, BitVec.getLsbD_or, BitVec.getLsbD_and, BitVec.getLsbD_not, BitVec.getLsbD_ofNat, decide_eq_true inRange, Bool.true_and, codes]

/-! ### The control word of a link (Table 1.5) -/

section
variable (a : Nat) (v : Word)

theorem linkCtlWord_other (other : a < 0x1180000 ∨ 0x1180380 ≤ a ∨ a % 0x40 ≠ 0x14) : linkCtlWord a v = v := by
  rw [linkCtlWord, if_neg (by omega)]

theorem getLsbD_word256 (k : Nat) : (0x100#32 : Word).getLsbD k = decide (k = 8) := by
  rw [BitVec.getLsbD_ofNat, show (0x100 : Nat) = 2 ^ 8 from rfl, Nat.testBit_two_pow]
  by_cases eighth : k = 8
  · subst eighth; rfl
  · rw [decide_eq_false eighth, decide_eq_false (fun h : 8 = k => eighth h.symm), Bool.and_false]

/-- A field of 0 is taken as 1: REPLAY_LIMIT stands in bits 0 to 7, ACK_TIMEOUT in bits 8 to 15. -/
theorem getLsbD_linkCtlWord (ctl : 0x1180000 ≤ a ∧ a < 0x1180380 ∧ a % 0x40 = 0x14) (k : Nat) :
    (linkCtlWord a v).getLsbD k = (v.getLsbD k || (decide (v &&& 0xFF#32 = 0#32) && decide (k = 0)) || (decide (v &&& 0xFF00#32 = 0#32) && decide (k = 8))) := by
  have low : (if v &&& 0xFF#32 = 0#32 then 1#32 else 0#32 : Word).getLsbD k = (decide (v &&& 0xFF#32 = 0#32) && decide (k = 0)) := by
    split <;> simp [*]
  have high : (if v &&& 0xFF00#32 = 0#32 then 0x100#32 else 0#32 : Word).getLsbD k = (decide (v &&& 0xFF00#32 = 0#32) && decide (k = 8)) := by
    split <;> simp [*, getLsbD_word256]
  rw [linkCtlWord, if_pos ctl, BitVec.getLsbD_or, BitVec.getLsbD_or, low, high]

end

/-! ### What a write leaves -/

theorem State.remode_kept (s : State) (u : Nat) : (s.remode u).regs = s.regs ∧ (s.remode u).mem = s.mem := by
  rw [State.remode]
  exact ⟨rfl, rfl⟩

theorem State.foldl_remode_kept (l : List Nat) (s : State) : (l.foldl State.remode s).regs = s.regs ∧ (l.foldl State.remode s).mem = s.mem := by
  induction l generalizing s with
  | nil => exact ⟨rfl, rfl⟩
  | cons u l ih =>
    obtain ⟨regs, mem⟩ := ih (s.remode u)
    obtain ⟨regs', mem'⟩ := s.remode_kept u
    exact ⟨regs.trans regs', mem.trans mem'⟩

/-- The state in which a word has been written by the access codes of its bits. -/
def State.wordWritten (s : State) (a : Nat) (v : Word) (r : RegRow) : State :=
  s.setReg a (r.written (s.flag RF.WRD_STAT_LOADED) (ownBits a) (s.reg a) (linkCtlWord a v))

section
variable {s : State} {a : Nat} {r : RegRow} (v : Word) (row : regRow a = some r) (taken : s.discards a = false)
include row taken

theorem State.regWrite_of :
    s.regWrite a v = if a = RA.PTL_EPOCH then { s.wordWritten a v r with ptl := { (s.wordWritten a v r).ptl with epochPending := true } }
      else if 0x210000 ≤ a ∧ a < 0x211000 then ((s.wordWritten a v r).units.map (fun p => p.1)).foldl State.remode (s.wordWritten a v r)
      else s.wordWritten a v r := by
  simp only [State.regWrite, row, taken, Bool.false_eq_true, if_false, State.wordWritten]

/-- Beside the word itself, a write may note an epoch or a numeric mode; registers and memory are as the word leaves them. -/
theorem State.regWrite_kept :
    (s.regWrite a v).regs = (s.wordWritten a v r).regs ∧ (s.regWrite a v).mem = s.mem ∧
      ((a < 0x210000 ∨ 0x211000 ≤ a) → (s.regWrite a v).units = s.units) := by
  rw [State.regWrite_of v row taken]
  have mem : (s.wordWritten a v r).mem = s.mem := State.setReg_mem _ _ _
  have units : (s.wordWritten a v r).units = s.units := State.setReg_units _ _ _
  by_cases epoch : a = RA.PTL_EPOCH
  · rw [if_pos epoch]
    exact ⟨rfl, mem, fun _ => units⟩
  · rw [if_neg epoch]
    by_cases mode : 0x210000 ≤ a ∧ a < 0x211000
    · rw [if_pos mode]
      obtain ⟨regs, mem'⟩ := State.foldl_remode_kept ((s.wordWritten a v r).units.map (fun p => p.1)) (s.wordWritten a v r)
      exact ⟨regs, mem'.trans mem, fun outside => absurd mode (by omega)⟩
    · rw [if_neg mode]
      exact ⟨rfl, mem, fun _ => units⟩

theorem State.reg_regWrite_other {x : Nat} (other : x ≠ a) : (s.regWrite a v).reg x = s.reg x := by
  rw [State.reg, (State.regWrite_kept v row taken).1, ← State.reg, State.wordWritten, State.reg_setReg_other _ _ other]

theorem State.reg_regWrite_same :
    (s.regWrite a v).reg a = r.written (s.flag RF.WRD_STAT_LOADED) (ownBits a) (s.reg a) (linkCtlWord a v) := by
  rw [State.reg, (State.regWrite_kept v row taken).1, ← State.reg, State.wordWritten, State.reg_setReg_same]

end

/-! ### Where an address leads -/

section
variable {s : State} {fn a : Nat} (v : Word) (running : s.boot.power = .running) (aligned : a % 4 = 0)
include running aligned

theorem execRegisterWrite_msix (owner : fn = 0 ∨ (fn ≤ 16 ∧ (s.fnSt fn).enabled = true)) (high : 2 ^ 32 ≤ a) :
    execRegisterWrite fn a v s = .next (s.msixWrite fn (a - 2 ^ 32) v) := by
  have open' : (!(s.boot.power == PowerState.running) || !(a % 4 == 0) || decide (16 < fn) || (decide (0 < fn) && !(s.fnSt fn).enabled)) = false := by
    rcases owner with rfl | ⟨inRange, enabled⟩
    · simp only [running, aligned, beq_self_eq_true, Bool.not_true, Bool.or_self, Nat.not_lt_zero, decide_false, Bool.false_and]
    · simp only [running, aligned, enabled, decide_eq_false (Nat.not_lt.mpr inRange), beq_self_eq_true, Bool.not_true, Bool.or_self, Bool.and_false]
  rw [execRegisterWrite, open', if_neg Bool.false_ne_true, if_pos high]

/-- An address of the physical function's BAR0: served or not, a doorbell page or another word. -/
theorem execRegisterWrite_physical (low : a < 2 ^ 32) :
    execRegisterWrite 0 a v s = .next (if !s.served a then s
      else if doorbellAddr 0 ≤ a ∧ a < doorbellAddr 4096 then s.pageWrite 0 ((a - doorbellAddr 0) / 0x1000) ((a - doorbellAddr 0) % 0x1000) v
      else s.regWrite a v) := by
  have open' : (!(s.boot.power == PowerState.running) || !(a % 4 == 0) || decide (16 < 0) || (decide (0 < 0) && !(s.fnSt 0).enabled)) = false := by
    simp only [running, aligned, beq_self_eq_true, Bool.not_true, Bool.or_self, Nat.not_lt_zero, decide_false, Bool.false_and]
  rw [execRegisterWrite, open', if_neg Bool.false_ne_true, if_neg (Nat.not_le.mpr low), if_pos rfl]

/-- An address of a virtual function's BAR0. -/
theorem execRegisterWrite_virtual (low : a < 2 ^ 32) (virtual : 1 ≤ fn) (inRange : fn ≤ 16) (enabled : (s.fnSt fn).enabled = true) :
    execRegisterWrite fn a v s
      = if vfDoorbellAddr 0 ≤ a ∧ a < 2 ^ 25 then .next (s.pageWrite fn ((a - vfDoorbellAddr 0) / 0x1000) ((a - vfDoorbellAddr 0) % 0x1000) v)
        else if 0x100 ≤ a ∧ a < 0x130 then .next (s.regWrite (a + fnBase fn) v)
        else if 0x10000 ≤ a ∧ a < 0x50000 then
          (s.fnQueue fn ((a - 0x10000) / 0x40)).elim (.next s) (fun q => .next (s.regWrite (0x10000 + 0x40 * q + a % 0x40) v))
        else .next s := by
  have open' : (!(s.boot.power == PowerState.running) || !(a % 4 == 0) || decide (16 < fn) || (decide (0 < fn) && !(s.fnSt fn).enabled)) = false := by
    simp only [running, aligned, enabled, decide_eq_false (Nat.not_lt.mpr inRange), beq_self_eq_true, Bool.not_true, Bool.or_self, Bool.and_false]
  rw [execRegisterWrite, open', if_neg Bool.false_ne_true, if_neg (Nat.not_le.mpr low), if_neg (by omega)]
  cases s.fnQueue fn ((a - 0x10000) / 0x40) <;> rfl

end

theorem execRegisterWrite_disabled {s : State} {fn : Nat} (a : Nat) (v : Word) (virtual : 1 ≤ fn) (disabled : (s.fnSt fn).enabled = false) :
    execRegisterWrite fn a v s = .next s := by
  rw [execRegisterWrite, if_pos]
  rw [disabled, decide_eq_true (show 0 < fn from virtual), Bool.not_false, Bool.and_self, Bool.or_true]

/-- The words of a doorbell page: SQTAIL first, CQHEAD after it (R680). -/
theorem State.pageWrite_tail (s : State) (fn q : Nat) (v : Word) : s.pageWrite fn q 0 v = s.ringSqtail fn q v.toNat := if_pos rfl
theorem State.pageWrite_head (s : State) (fn q : Nat) (v : Word) : s.pageWrite fn q 4 v = s.ringCqhead fn q v.toNat := by
  rw [State.pageWrite, if_neg (by decide), if_pos rfl]

/-- A word of the doorbell page of a queue, as the physical function addresses it. -/
theorem execRegisterWrite_doorbell {s : State} {q off : Nat} (v : Word) (running : s.boot.power = .running) (runs : s.boot.fwRunning = true)
    (lives : s.boot.stopped = false) (inRange : q < 4096) (word : off < 8) (aligned : off % 4 = 0) :
    execRegisterWrite 0 (doorbellAddr q + off) v s = .next (s.pageWrite 0 q off v) := by
  have low : doorbellAddr q + off < 2 ^ 28 := by simp only [doorbellAddr]; omega
  have serves : s.served (doorbellAddr q + off) = true := by rw [State.served, decide_eq_true low, runs, lives]; rfl
  have page : doorbellAddr 0 ≤ doorbellAddr q + off ∧ doorbellAddr q + off < doorbellAddr 4096 := by simp only [doorbellAddr]; omega
  have queue : (doorbellAddr q + off - doorbellAddr 0) / 0x1000 = q := by simp only [doorbellAddr]; omega
  have offset : (doorbellAddr q + off - doorbellAddr 0) % 0x1000 = off := by simp only [doorbellAddr]; omega
  rw [execRegisterWrite_physical v running (by simp only [doorbellAddr]; omega) (by omega), serves, Bool.not_true, if_neg Bool.false_ne_true, if_pos page,
    queue, offset]

/-- A word of the doorbell page of a queue, as a virtual function addresses it. -/
theorem execRegisterWrite_vfDoorbell {s : State} {fn q off : Nat} (v : Word) (running : s.boot.power = .running) (virtual : 1 ≤ fn) (function : fn ≤ 16)
    (enabled : (s.fnSt fn).enabled = true) (inRange : q < 4096) (word : off < 8) (aligned : off % 4 = 0) :
    execRegisterWrite fn (vfDoorbellAddr q + off) v s = .next (s.pageWrite fn q off v) := by
  have page : vfDoorbellAddr 0 ≤ vfDoorbellAddr q + off ∧ vfDoorbellAddr q + off < 2 ^ 25 := by simp only [vfDoorbellAddr]; omega
  have queue : (vfDoorbellAddr q + off - vfDoorbellAddr 0) / 0x1000 = q := by simp only [vfDoorbellAddr]; omega
  have offset : (vfDoorbellAddr q + off - vfDoorbellAddr 0) % 0x1000 = off := by simp only [vfDoorbellAddr]; omega
  rw [execRegisterWrite_virtual v running (by simp only [vfDoorbellAddr]; omega) (by omega) virtual function enabled, if_pos page, queue, offset]

end Sys2Proof.Machine
end

section
/-! The family of registers: writes. -/

open Sys2Proof Sys2Proof.Machine
namespace Sys2Proof.Claims

/-- Settles O55: the bits of a word by their access codes, then where each address leads. -/
theorem registerWrites : Obligations.RegisterWrites := by
  intro s a k fn q v r bit
  rw [exec_registerWrite, exec_registerWrite, exec_registerWrite, exec_registerWrite, exec_registerWrite, exec_registerWrite]
  refine ⟨fun running aligned low served taken row inRange page => ?word, linkCtlWord_other a v, fun lo hi ctl => ?link,
    fun running runs lives q' => ?doorbells, fun running aligned low unserved => ?unserved,
    fun running aligned virtual inRange enabled => ⟨fun lo hi => ?own, fun lo hi mine => ?queue, fun q' => ?pages, fun lo hi none' => ?noQueue⟩,
    fun running aligned owner high => execRegisterWrite_msix v running aligned owner high, fun virtual disabled => execRegisterWrite_disabled a v virtual disabled⟩
  case word =>
    have other : ¬ (doorbellAddr 0 ≤ a ∧ a < doorbellAddr 4096) := by omega
    obtain ⟨-, mem, units⟩ := State.regWrite_kept v row taken
    refine ⟨s.regWrite a v, ?_, mem, units, fun x away => State.reg_regWrite_other v row taken away, ?_⟩
    · rw [execRegisterWrite_physical v running aligned (by omega), served, Bool.not_true, if_neg Bool.false_ne_true, if_neg other]
    · intro v' new old
      have bits : new = _ := (congrArg (fun w : Word => w.getLsbD k) (State.reg_regWrite_same v row taken)).trans
        (r.getLsbD_written (s.flag RF.WRD_STAT_LOADED) (ownBits a) (s.reg a) v' inRange)
      simp only [bits, bit]
      refine ⟨fun own => ?_, fun free => ⟨fun rw' w1c w1s => ?_, fun rw' rwl w1c w1s => ?_, fun rw' rwl w1c w1s => ?_, fun rw' rwl w1c w1s => ?_⟩⟩
      · simp [own, old]
      · simp [rw', w1c, w1s, free]
      · cases loaded : s.flag RF.WRD_STAT_LOADED <;> simp [rw', rwl, w1c, w1s, free, old]
      · simp [rw', rwl, w1c, w1s, free, old]
      · simp [rw', rwl, w1c, w1s, free, old]
  case link =>
    refine ⟨fun k not0 not8 => ?_, ?_, ?_⟩ <;> rw [getLsbD_linkCtlWord a v ⟨lo, hi, ctl⟩]
    · rw [decide_eq_false not0, decide_eq_false not8, Bool.and_false, Bool.and_false, Bool.or_false, Bool.or_false]
    · simp
    · simp
  case doorbells =>
    rw [← State.pageWrite_tail, ← State.pageWrite_head]
    exact ⟨execRegisterWrite_doorbell (off := 0) v running runs lives q' (by decide) rfl,
      execRegisterWrite_doorbell (off := 4) v running runs lives q' (by decide) rfl⟩
  case unserved => rw [execRegisterWrite_physical v running aligned low, unserved, Bool.not_false, if_pos rfl]
  case own =>
    rw [execRegisterWrite_virtual v running aligned (by omega) virtual inRange enabled, if_neg (by simp only [vfDoorbellAddr]; omega), if_pos ⟨lo, hi⟩]
  case queue =>
    rw [execRegisterWrite_virtual v running aligned (by omega) virtual inRange enabled, if_neg (by simp only [vfDoorbellAddr]; omega), if_neg (by omega),
      if_pos ⟨lo, hi⟩, mine, Option.elim_some]
  case noQueue =>
    rw [execRegisterWrite_virtual v running aligned (by omega) virtual inRange enabled, if_neg (by simp only [vfDoorbellAddr]; omega), if_neg (by omega),
      if_pos ⟨lo, hi⟩, none', Option.elim_none]
  case pages =>
    rw [← State.pageWrite_tail, ← State.pageWrite_head]
    exact ⟨execRegisterWrite_vfDoorbell (off := 0) v running virtual inRange enabled q' (by decide) rfl,
      execRegisterWrite_vfDoorbell (off := 4) v running virtual inRange enabled q' (by decide) rfl⟩

end Sys2Proof.Claims
end
